-- ==== Sys2Proof/Word.lean ====
section
/-! DEFINITION. The word types of the EVA-9200M model, the indices of its units, and the sparse map every indexed
unit is kept in. Names follow spec/00_scope.md and spec/01_clip_journey.md (Table 1-1). -/

namespace Sys2Proof

abbrev Byte := BitVec 8
abbrev Half := BitVec 16
abbrev Word := BitVec 32
abbrev Quad := BitVec 64
/-- A tile descriptor, a submission entry, a routing entry: 64 bytes (R101, R362, R333). -/
abbrev Desc := BitVec 512

/-- Clusters K0–K11 (Table 1-1). -/
abbrev ClusterId := Fin 12
/-- Cores C0–C191; core `16 k + i` is core i of cluster k (Table 1-1). -/
abbrev CoreId := Fin 192
/-- Stacks M0–M7. -/
abbrev StackId := Fin 8
/-- Channels of one stack, and flash channels F0–F127. -/
abbrev ChannelId := Fin 128
/-- Optical ports P0–P7. -/
abbrev PortId := Fin 8
/-- Rings A (0) and B (1). -/
abbrev RingId := Fin 2
/-- Queue pairs 0–63 (R358). -/
abbrev PairId := Fin 64
/-- Weight slots 0–15 (07). -/
abbrev SlotId := Fin 16
/-- Encoder engines E0–E3 (16). -/
abbrev EngineId := Fin 4
/-- Job identifiers (Table 15-5). -/
abbrev JobId := Word

/-- A sparse map from numbers to values, its keys strictly rising; an absent key reads as the reader's default. -/
abbrev AMap (α : Type) := List (Nat × α)

end Sys2Proof
end

