-- ==== Sys2Proof/Types.lean ====
section
/-! DEFINITION. The operand types of the commands: what arrives at the module's connectors with a step, or what the step
observes of the physical world (a decode result, a sensor sample, a MISR). -/

namespace Sys2Proof

/-- Who posts or waits on a counter: the sequencer of a cluster, or a core (R86, R87). -/
inductive Agent where
  | seq (k : ClusterId)
  | core (c : CoreId)
  deriving DecidableEq, Repr

/-- What starts FAULT_SWEEP: a fault that an earlier step detected, or an uncorrectable error or illegal word that this
step meets (R68, R79, R80, R158, R247, R376). -/
inductive SweepCause where
  | detected
  | illegalWord (k : ClusterId) (w : Word)
  | coreStoreUe (c : CoreId)
  | coreMemUe (c : CoreId) (addr : Nat)
  | seqMemUe (k : ClusterId) (addr : Nat)
  | roomEntryUe (k : ClusterId) (room : Nat)
  | saveUe (job : JobId) (addr : Nat)
  deriving DecidableEq, Repr

/-- An IPv6 address and a UDP port of the field network (R420). -/
structure Peer where
  addr : BitVec 128 := 0
  port : Half := 0
  deriving DecidableEq, Repr

/-- A UDP datagram on the field network (R420): whence, whither, its payload. -/
structure Datagram where
  src : Peer
  dst : Peer
  bytes : List Byte
  deriving DecidableEq, Repr

/-- One frame on an optical port (R312, R313): its header, its eight flits of 256 bytes, and how many codewords
the code corrected and how many it could not. -/
structure PortFrame where
  header : Quad
  flits : List (BitVec 2048)
  corrected : Nat
  uncorrected : Nat
  deriving DecidableEq, Repr

/-- Where an exchange message comes from: a port, or the other die over the die-to-die link (R342). -/
inductive ExchSource where
  | port (p : PortId)
  | die (d : Fin 2)
  deriving DecidableEq, Repr

/-- What the memory arrays suffer between two samples (R68, R156, R157, log 60): errors that a core store or a shared cache
corrected, a stack granule with one bit wrong or with more than SECDED corrects, and the repeats that a stack's next transfer
needs for its parity. -/
inductive Upset where
  | coreCorrected (c : CoreId) (n : Nat)
  | cacheCorrected (k : ClusterId) (n : Nat)
  | stackFlip (granule : BitVec 35)
  | stackBad (granule : BitVec 35)
  | parity (m : StackId) (repeats : Nat)
  deriving DecidableEq, Repr

/-- The 1 kHz sample of the power stage and the sensors (R410, Table 17-8): millivolts, milliamperes, watts, and six temperatures in
tenths of a degree; and what befell the memory arrays since the last one. -/
structure PowerSample where
  vinMv : Word
  iinMa : Word
  pinW : Word
  temps : List (BitVec 16)
  upsets : List Upset := []
  deriving DecidableEq, Repr

/-- What the steward measured over its window besides what the state counts (Table 17-5): each slot's weight-stall share in percent,
and the slots whose weights would fit in stacked memory beside their jobs' activations (R28). -/
structure StewardMeasure where
  stallPct : List Nat
  fits : List Nat := []
  deriving DecidableEq, Repr

/-- How a running command ends (R198, R324, R424, R434): its work done and verified, a failed read-back of the Ledger, an
unreadable source with the bytes kept or sent before it; or the codewords that a seal, or a BULK_SEND of a slot, could not read, with those
it read again and how often (R173). -/
inductive CmdEnd where
  | done
  | ledgerFault
  | sourceUe (bytes : Nat)
  | unreadable (codewords : List Nat) (retried : List (Nat × Nat))
  deriving DecidableEq, Repr

/-- How a stack's training ended (R445, R446): the test pattern passed with stored values; it failed, or there were none, and the full
training succeeded; the training failed. -/
inductive Training where
  | stored
  | full
  | failed
  deriving DecidableEq, Repr

end Sys2Proof
end

