-- ==== Sys2Proof/Syntax.lean ====
section
/-! DEFINITION. The commands of the block: one constructor per row of spec/opcode_table.json, in its order, each step
whole and indivisible (spec/95_what_each_step_holds.md). Sequencer operations carry the cluster and every field of the
instruction word (Table 3-6), the reserved ones included; core events carry the core; events of the surroundings carry what
arrives. A command that a dictionary record or a fetched entry carries takes its parameters from that record or entry, which
the state holds. -/

namespace Sys2Proof

inductive Instr where
  /-- ALU_ADD (R80). Sequencer ALU FN 0x000: gD = gA + gB, wrapping modulo 2^64. -/
  | aluAdd (k : ClusterId) (gd : BitVec 5) (ga : BitVec 5) (gb : BitVec 5)
  /-- ALU_SUB (R80). Sequencer ALU FN 0x001: gD = gA - gB. -/
  | aluSub (k : ClusterId) (gd : BitVec 5) (ga : BitVec 5) (gb : BitVec 5)
  /-- ALU_AND (R80). Sequencer ALU FN 0x002: bitwise AND. -/
  | aluAnd (k : ClusterId) (gd : BitVec 5) (ga : BitVec 5) (gb : BitVec 5)
  /-- ALU_OR (R80). Sequencer ALU FN 0x003: bitwise OR. -/
  | aluOr (k : ClusterId) (gd : BitVec 5) (ga : BitVec 5) (gb : BitVec 5)
  /-- ALU_XOR (R80). Sequencer ALU FN 0x004: bitwise XOR. -/
  | aluXor (k : ClusterId) (gd : BitVec 5) (ga : BitVec 5) (gb : BitVec 5)
  /-- ALU_SHL (R80). Sequencer ALU FN 0x005: shift left by the low 6 bits of gB. -/
  | aluShl (k : ClusterId) (gd : BitVec 5) (ga : BitVec 5) (gb : BitVec 5)
  /-- ALU_SHR (R80). Sequencer ALU FN 0x006: logical shift right. -/
  | aluShr (k : ClusterId) (gd : BitVec 5) (ga : BitVec 5) (gb : BitVec 5)
  /-- ALU_SRA (R80). Sequencer ALU FN 0x007: arithmetic shift right. -/
  | aluSra (k : ClusterId) (gd : BitVec 5) (ga : BitVec 5) (gb : BitVec 5)
  /-- ALU_MUL (R80). Sequencer ALU FN 0x008: low 64 bits of the product. -/
  | aluMul (k : ClusterId) (gd : BitVec 5) (ga : BitVec 5) (gb : BitVec 5)
  /-- ALU_MULH (R80). Sequencer ALU FN 0x009: signed high 64 bits of the product. -/
  | aluMulh (k : ClusterId) (gd : BitVec 5) (ga : BitVec 5) (gb : BitVec 5)
  /-- ALU_MIN (R80). Sequencer ALU FN 0x00A: signed minimum. -/
  | aluMin (k : ClusterId) (gd : BitVec 5) (ga : BitVec 5) (gb : BitVec 5)
  /-- ALU_MAX (R80). Sequencer ALU FN 0x00B: signed maximum. -/
  | aluMax (k : ClusterId) (gd : BitVec 5) (ga : BitVec 5) (gb : BitVec 5)
  /-- ALU_MINU (R80). Sequencer ALU FN 0x00C: unsigned minimum. -/
  | aluMinu (k : ClusterId) (gd : BitVec 5) (ga : BitVec 5) (gb : BitVec 5)
  /-- ALU_MAXU (R80). Sequencer ALU FN 0x00D: unsigned maximum. -/
  | aluMaxu (k : ClusterId) (gd : BitVec 5) (ga : BitVec 5) (gb : BitVec 5)
  /-- ALU_SLT (R80). Sequencer ALU FN 0x00E: signed set-less-than. -/
  | aluSlt (k : ClusterId) (gd : BitVec 5) (ga : BitVec 5) (gb : BitVec 5)
  /-- ALU_SLTU (R80). Sequencer ALU FN 0x00F: unsigned set-less-than. -/
  | aluSltu (k : ClusterId) (gd : BitVec 5) (ga : BitVec 5) (gb : BitVec 5)
  /-- ADDI (R80). gD = gA + sign-extended immediate. -/
  | addi (k : ClusterId) (gd : BitVec 5) (ga : BitVec 5) (imm : Half)
  /-- ANDI (R80). gD = gA AND zero-extended immediate. -/
  | andi (k : ClusterId) (gd : BitVec 5) (ga : BitVec 5) (imm : Half)
  /-- ORI (R80). gD = gA OR zero-extended immediate. -/
  | ori (k : ClusterId) (gd : BitVec 5) (ga : BitVec 5) (imm : Half)
  /-- XORI (R80). gD = gA XOR zero-extended immediate. -/
  | xori (k : ClusterId) (gd : BitVec 5) (ga : BitVec 5) (imm : Half)
  /-- SHLI (R80). Shift gA left by IMM16[5:0]. -/
  | shli (k : ClusterId) (gd : BitVec 5) (ga : BitVec 5) (imm : Half)
  /-- SHRI (R80). Logical shift of gA right by IMM16[5:0]. -/
  | shri (k : ClusterId) (gd : BitVec 5) (ga : BitVec 5) (imm : Half)
  /-- SRAI (R80). Arithmetic shift of gA right by IMM16[5:0]. -/
  | srai (k : ClusterId) (gd : BitVec 5) (ga : BitVec 5) (imm : Half)
  /-- LUI (R80). gD = sign-extended immediate shifted left by 16. -/
  | lui (k : ClusterId) (gd : BitVec 5) (ga : BitVec 5) (imm : Half)
  /-- SLTI (R80). gD = signed gA < sign-extended immediate. -/
  | slti (k : ClusterId) (gd : BitVec 5) (ga : BitVec 5) (imm : Half)
  /-- LD (R80). Loads a 64-bit word from sequencer local memory in one CTRL cycle. -/
  | ld (k : ClusterId) (gd : BitVec 5) (ga : BitVec 5) (imm : Half)
  /-- ST (R80). Stores a 64-bit word to sequencer local memory. -/
  | st (k : ClusterId) (gd : BitVec 5) (ga : BitVec 5) (imm : Half)
  /-- LDX (R505). Issues a 64-bit narrow-path device read; the sequencer stalls until the value returns. -/
  | ldx (k : ClusterId) (gd : BitVec 5) (ga : BitVec 5) (imm : Half)
  /-- STX (R505). Issues a 64-bit narrow-path device write, with up to 16 outstanding. -/
  | stx (k : ClusterId) (gd : BitVec 5) (ga : BitVec 5) (imm : Half)
  /-- AMO_FETCH_ADD (R80). INT32 fetch-add in the shared cache, returning the old value to gD. -/
  | amoAdd (k : ClusterId) (gd : BitVec 5) (ga : BitVec 5) (gb : BitVec 5)
  /-- AMO_COMPARE_SWAP (R80). INT32 compare-swap in the shared cache. -/
  | amoSwap (k : ClusterId) (gd : BitVec 5) (ga : BitVec 5) (gb : BitVec 5)
  /-- AMO_FETCH_MIN (R80). INT32 signed fetch-min in the shared cache. -/
  | amoMin (k : ClusterId) (gd : BitVec 5) (ga : BitVec 5) (gb : BitVec 5)
  /-- AMO_FETCH_MAX (R80). INT32 signed fetch-max in the shared cache. -/
  | amoMax (k : ClusterId) (gd : BitVec 5) (ga : BitVec 5) (gb : BitVec 5)
  /-- NARROW_ACCESS_RETURN (R505). The value of an outstanding LDX or AMO returns and the sequencer resumes. -/
  | narrowReturn (k : ClusterId)
  /-- BEQ (R80). Branches if gA equals gB. -/
  | beq (k : ClusterId) (ga : BitVec 5) (gb : BitVec 5) (off : Half)
  /-- BNE (R80). Branches if gA differs from gB. -/
  | bne (k : ClusterId) (ga : BitVec 5) (gb : BitVec 5) (off : Half)
  /-- BLT (R80). Branches if gA < gB, signed. -/
  | blt (k : ClusterId) (ga : BitVec 5) (gb : BitVec 5) (off : Half)
  /-- BGE (R80). Branches if gA >= gB, signed. -/
  | bge (k : ClusterId) (ga : BitVec 5) (gb : BitVec 5) (off : Half)
  /-- BLTU (R80). Branches if gA < gB, unsigned. -/
  | bltu (k : ClusterId) (ga : BitVec 5) (gb : BitVec 5) (off : Half)
  /-- BGEU (R80). Branches if gA >= gB, unsigned. -/
  | bgeu (k : ClusterId) (ga : BitVec 5) (gb : BitVec 5) (off : Half)
  /-- JAL (R80). Jumps by a 21-bit word offset and links the return address. -/
  | jal (k : ClusterId) (gd : BitVec 5) (off : BitVec 21)
  /-- JALR (R80). Jumps to a register plus offset and links the return address. -/
  | jalr (k : ClusterId) (gd : BitVec 5) (ga : BitVec 5) (imm : Half)
  /-- ISSUE (R82). Delivers a descriptor from the descriptor buffer to the selected cores' tile queues. -/
  | issue (k : ClusterId) (gd : BitVec 5) (ga : BitVec 5) (gb : BitVec 5) (fn : BitVec 11)
  /-- ISSUE_RESUME (R82). A tile queue that was full gains space, and a stalled ISSUE delivers. -/
  | issueResume (k : ClusterId)
  /-- TFENCE (R80). Waits until every instruction issued to the named cores has retired and settled. -/
  | tfence (k : ClusterId) (gd : BitVec 5) (ga : BitVec 5) (gb : BitVec 5) (fn : BitVec 11)
  /-- TFENCE_RELEASE (R80). The fenced instructions have retired and their writes are visible, so the sequencer resumes. -/
  | tfenceRelease (k : ClusterId)
  /-- CWAIT (R87). The sequencer waits until a sync counter reaches a target. -/
  | cwait (k : ClusterId) (gd : BitVec 5) (ga : BitVec 5) (gb : BitVec 5) (fn : BitVec 11)
  /-- CWAIT_RELEASE (R87). A sync counter reaches the target of a waiting CWAIT or tile-instruction wait. -/
  | cwaitRelease (who : Agent)
  /-- CPOST (R86). The sequencer adds a value to a sync counter once its earlier stores are visible. -/
  | cpost (k : ClusterId) (gd : BitVec 5) (ga : BitVec 5) (gb : BitVec 5) (fn : BitVec 11)
  /-- CSET (R89). Sets a sync counter to a value. -/
  | cset (k : ClusterId) (gd : BitVec 5) (ga : BitVec 5) (gb : BitVec 5) (fn : BitVec 11)
  /-- CREAD (R80). Reads a sync counter into gD. -/
  | cread (k : ClusterId) (gd : BitVec 5) (ga : BitVec 5) (gb : BitVec 5) (fn : BitVec 11)
  /-- SEQ_BAR (R97). The sequencer arrives at a device barrier channel and waits for its release. -/
  | seqBar (k : ClusterId) (gd : BitVec 5) (ga : BitVec 5) (gb : BitVec 5) (fn : BitVec 11)
  /-- BARRIER_RELEASE (R97). The last participant has arrived, so the channel releases every participant. -/
  | barrierRelease (job : JobId) (chan : Fin 16)
  /-- BCFG (R96). Sets this cluster's membership of a barrier channel. -/
  | bcfg (k : ClusterId) (gd : BitVec 5) (ga : BitVec 5) (gb : BitVec 5) (fn : BitVec 11)
  /-- PREAD (R80). Reads a progress counter into gD. -/
  | pread (k : ClusterId) (gd : BitVec 5) (ga : BitVec 5) (gb : BitVec 5) (fn : BitVec 11)
  /-- PSET (R80). Sets a progress counter. -/
  | pset (k : ClusterId) (gd : BitVec 5) (ga : BitVec 5) (gb : BitVec 5) (fn : BitVec 11)
  /-- CSRR (R84). Reads a sequencer control register. -/
  | csrr (k : ClusterId) (gd : BitVec 5) (ga : BitVec 5) (imm : Half)
  /-- HALT (R83). Ends the program on this cluster. -/
  | halt (k : ClusterId) (gd : BitVec 5) (ga : BitVec 5) (gb : BitVec 5) (fn : BitVec 11)
  /-- TILE_START (R72). A queued tile instruction meets every start condition and starts on its ports. -/
  | tileStart (c : CoreId)
  /-- TILE_RETIRE (R73). A tile instruction retires in queue order with a status, and its status record is updated. -/
  | tileRetire (c : CoreId)
  /-- MMA (R112). Applies one weight tile to activation rows into FP32 accumulators. -/
  | mma (c : CoreId)
  /-- MMA_LA (R114). Applies a weight tile and an adapter up-projection tile into the same accumulators. -/
  | mmaLa (c : CoreId)
  /-- MMA_RS (R340). MMA whose accumulators are reduce-scattered over a route-table group. -/
  | mmaRs (c : CoreId)
  /-- MMA_AG (R340). MMA whose A rows are all-gathered over a route-table group. -/
  | mmaAg (c : CoreId)
  /-- ATTN_FWD (R205). Advances the attention state of query rows by one K block. -/
  | attnFwd (c : CoreId)
  /-- ATTN_BWD (R215). Computes this K block's contributions to dQ, dK and dV. -/
  | attnBwd (c : CoreId)
  /-- ATTN_RELAY (R218). Attends to one relay step's shard and begins that step of the relay. -/
  | attnRelay (c : CoreId)
  /-- SFN (R263). Evaluates the bank's table function elementwise. -/
  | sfn (c : CoreId)
  /-- NORM (R266). Normalises rows in RMS, layer or adaptive form. -/
  | norm (c : CoreId)
  /-- SMAX (R264). Computes a masked row softmax. -/
  | smax (c : CoreId)
  /-- CROP (R285). Resamples boxes from sources by nearest or bilinear sampling. -/
  | crop (c : CoreId)
  /-- REUSE_CHK (R288). Compares a reuse block's input with the previous pass's and marks its span. -/
  | reuseChk (c : CoreId)
  /-- TAB_RESOLVE (R302). The tab of a retired REUSE.CHK settles or voids once the earlier tabs have resolved. -/
  | tabResolve (c : CoreId)
  /-- TAB_LOG_RESTORE (R302). Restores the logged lines of voided tabs once port M is free. -/
  | tabLogRestore (c : CoreId)
  /-- CONV (R269). Computes one output line span of a 2D convolution over one channel group. -/
  | conv (c : CoreId)
  /-- CONV_DW (R283). Computes a depthwise convolution through the diagonal array mapping. -/
  | convDw (c : CoreId)
  /-- LINE_BUFFER_FILL (R274). The feeder fills the line-buffer slots for the oldest unstarted convolution. -/
  | lineBufferFill (c : CoreId)
  /-- MOVE (R120). Copies rows of bytes between core store and stacked memory. -/
  | move (c : CoreId)
  /-- GATH (R120). Gathers indexed rows over the narrow path into the core store. -/
  | gath (c : CoreId)
  /-- SCAT_KV (R233). Appends K and V rows to a stream's round through per-room decision steps. -/
  | scatKv (c : CoreId)
  /-- TBL_LOAD (R256). Checks a table image and loads it into an SFU bank at retirement. -/
  | tblLoad (c : CoreId)
  /-- MOVE_A2A (R340). Exchanges blocks all-to-all across a route-table group. -/
  | moveA2a (c : CoreId)
  /-- MOVE_AR (R340). All-reduces source rows across a route-table group. -/
  | moveAr (c : CoreId)
  /-- WAIT (R121). Issue-stage instruction that holds issue until its header wait is met. -/
  | wait (c : CoreId)
  /-- POST (R121). Issue-stage instruction that makes its header post. -/
  | post (c : CoreId)
  /-- BAR (R121). Tile instruction that arrives at a job barrier channel and posts after release. -/
  | bar (c : CoreId)
  /-- SYNC_POST_EFFECT (R86). A sync post takes effect once the writes before it are visible. -/
  | syncPostEffect (who : Agent)
  /-- PROGRESS_POST_EFFECT (R92). A progress post takes effect on its counter by tag and row count. -/
  | progressPostEffect (c : CoreId)
  /-- CHAIN_COMMIT (R132). The last member of a chain commits its index in the claim table once its writes are visible. -/
  | chainCommit (c : CoreId)
  /-- WEIGHT_TILE_READY (R28). A weight tile that an instruction waits for lands in the window, and the wait ends. -/
  | weightTileReady (c : CoreId)
  /-- TIER_DEADLINE_EXPIRY (R191). A weight read has waited the tier deadline, and the instruction retires with TIER_ERROR. -/
  | tierDeadlineExpiry (c : CoreId)
  /-- CORE_STOPPED (R76). A core's running instruction retires, it voids its open tabs and it reports stopped. -/
  | coreStopped (c : CoreId)
  /-- JOB_SAVE (R372). Saves a stopped job's on-chip state to its save areas and frees its team. -/
  | jobSave (job : JobId)
  /-- JOB_RESTORE (R373). Restores a swapped-out job on dispatch before its first instruction. -/
  | jobRestore (job : JobId)
  /-- CLUSTER_ZEROED (R369). A released cluster finishes zeroing its state and counts as free. -/
  | clusterZeroed (k : ClusterId)
  /-- HOST_MEM_READ (R168). A host CXL.mem read of a line of stacked memory. -/
  | hostMemRead (line : BitVec 46)
  /-- HOST_MEM_WRITE (R170). A host CXL.mem write of a line, dropped for weight, protected or poisoned ranges. -/
  | hostMemWrite (line : BitVec 46) (data : Desc) (be : Quad)
  /-- BISNP_RESPONSE (R169). The host answers a back-invalidation snoop, and the waiting engine access proceeds. -/
  | bisnpResponse (line : BitVec 46)
  /-- PATROL_SCRUB (R159). Every SCRUB_INTERVAL the scrubber reads a unit per channel and corrects or poisons it. -/
  | patrolScrub (m : StackId) (ch : ChannelId) (corrected : List (Fin 64)) (bad : List (Fin 64))
  /-- WINDOW_FILL (R185). Caravan starts filling an ordinal's frame once it enters the lead. -/
  | windowFill (slot : SlotId)
  /-- CODEWORD_READ_DONE (R173). A flash codeword read finishes, decoded or unreadable, and its object advances the fill mark. -/
  | codewordReadDone (slot : SlotId) (cw : Nat) (readable : Bool) (retries : Nat)
  /-- ON_DEMAND_FETCH (R189). A read of an absent on-demand object starts its fetch and prefetch. -/
  | onDemandFetch (c : CoreId)
  /-- SLOT_CREATE (R177). Reserves flash for a FREE slot and makes it WRITING. -/
  | slotCreate
  /-- SLOT_WRITE (R198). Programmes a range of a WRITING slot's stream from memory or a port. -/
  | slotWrite
  /-- SLOT_SEAL (R182). Checks the waybill and optionally every codeword, making the slot SEALED. -/
  | slotSeal
  /-- SLOT_SWITCH (R196). Points a slot number at another physical slot. -/
  | slotSwitch
  /-- SLOT_MAP_WRITE (R196). A write of SLOT_MAP acts as SLOT_SWITCH for that slot number. -/
  | slotMapWrite
  /-- SLOT_ERASE (R504). Erases an unreferenced slot through ERASING to FREE. -/
  | slotErase
  /-- FLASH_FENCE (R175). Fences a flash channel by command. -/
  | flashFence
  /-- WINDOW_CONFIG_WRITE (R183). A write of SLOT_MODE, WIN_BASE or WIN_FRAMES is checked and sets WINDOW_STATE. -/
  | windowConfigWrite
  /-- ADAPTER_LOAD (R194). Writes an adapter table entry and makes it LOADED. -/
  | adapterLoad
  /-- ADAPTER_UNLOAD (R194). Makes an adapter entry DRAINING or EMPTY. -/
  | adapterUnload
  /-- ROOM_PIN (R236). A room-port PIN request takes a pin on the room holding a stream position. -/
  | roomPin (k : ClusterId)
  /-- ROOM_UNPIN (R240). A room-port UNPIN releases a pin and may vacate the room. -/
  | roomUnpin (k : ClusterId)
  /-- VACANCY_TIMEOUT (R244). A stream parked for NO_VACANCY_WAIT ends with VACANCY_TIMEOUT. -/
  | vacancyTimeout (stream : Half)
  /-- ROOM_LINK (R241). Shares a source stream's prefix rooms with a destination stream. -/
  | roomLink
  /-- REUSE_CLEAR (R294). Clears a range of reuse valid bits. -/
  | reuseClear
  /-- REUSE_CONFIG_WRITE (R293). A write of the reuse store configuration is checked and zeroes the bitmap. -/
  | reuseConfigWrite
  /-- TAB_ENABLE (R307). Writing TAB_ENABLE turns the tab ON or starts DRAINING. -/
  | tabEnable
  /-- FRAME_RECEIVE (R313). A port receives a frame, checks FEC and CRC, and accepts it or answers NAK. -/
  | frameReceive (p : PortId) (f : PortFrame)
  /-- FRAME_TRANSMIT (R317). Each frame time the transmitter picks a control, EXCH, BULK or idle frame. -/
  | frameTransmit (p : PortId)
  /-- CREDIT_RETURN_RECV (R316). A credit-return record restores a class's credit at the sender. -/
  | creditReturnRecv (p : PortId)
  /-- PEER_IDENTITY_RECV (R319). A peer identity record completes training and the port goes UP. -/
  | peerIdentityRecv (p : PortId)
  /-- PORT_TRAIN (R319). An enabled port leaves OFF or DOWN and trains through the steps of Table 13-3. -/
  | portTrain (p : PortId)
  /-- PORT_TRAIN_TIMEOUT (R319). A training step overruns its time, and the port goes DOWN with fault LINK. -/
  | portTrainTimeout (p : PortId)
  /-- LANE_CDR_LOSS (R320). CDR lock is lost on a lane, and the port goes DOWN. -/
  | laneCdrLoss (p : PortId) (lane : Fin 16)
  /-- LANE_SER_WINDOW (R320). A 1 ms symbol-error window ends, and a lane over LANE_SER_LIMIT takes the port DOWN. -/
  | laneSerWindow (p : PortId) (errs : List Nat)
  /-- PORT_LOCAL_FAULT (R320). The optical engine's self-test fails in service, and the port goes DOWN with fault LOCAL. -/
  | portLocalFault (p : PortId)
  /-- PORT_RETRAIN_TIMER (R320). PORT_RETRAIN_MS expires for a DOWN port, and it trains again. -/
  | portRetrainTimer (p : PortId)
  /-- PORT_DRAIN_TIMEOUT (R322). PORT_DRAIN_MS expires for a DRAINING port, and operations still in flight are lost. -/
  | portDrainTimeout (p : PortId)
  /-- PORT_DRAINED (R322). A DRAINING port's operations in flight complete, and it goes OFF. -/
  | portDrained (p : PortId)
  /-- BULK_STARVATION (R317). BULK flits stay unsent for BULK_STARVE_MS, so a starvation is counted and logged. -/
  | bulkStarvation (p : PortId)
  /-- BULK_SLOT_DATA_RECV (R325). A slot-data BULK message is matched to a SLOT_WRITE or discarded. -/
  | bulkSlotDataRecv (p : PortId)
  /-- BULK_MIGRATION_RECV (R343). A migration BULK message delivers an all-to-all block. -/
  | bulkMigrationRecv (p : PortId)
  /-- BULK_SEND (R324). Sends slot data over a port as BULK messages. -/
  | bulkSend
  /-- PORT_FENCE (R320). Fences a port by command. -/
  | portFence
  /-- PORT_UNFENCE (R320). Returns a port fenced by command to DOWN for retraining. -/
  | portUnfence
  /-- RING_JOIN (R328). Writing JOINED to RING_MODE moves the bypass to JOINED and trains the ring's ports. -/
  | ringJoin
  /-- RING_LEAVE (R329). Writing THROUGH to RING_MODE drains the ring's ports and moves the bypass to THROUGH. -/
  | ringLeave
  /-- BYPASS_MOVE_DONE (R326). A bypass switch finishes its move and leaves MOVING. -/
  | bypassMoveDone (r : RingId)
  /-- EXCH_MESSAGE_RECEIVE (R346). A receiver matches an exchange message by key, accepts it once and stages or writes it. -/
  | exchMessageReceive (src : ExchSource)
  /-- REDUCE_SEGMENT (R344). A segment with all parts staged is reduced in canonical order and forwarded. -/
  | reduceSegment (d : Fin 2) (tag : Word) (xseq : Half)
  /-- RELAY_FORWARD (R219). A relay step's shard forward starts once both members have begun the step and the slot is free. -/
  | relayForward (group : Byte) (step : Half) (blockLog : Nat)
  /-- XBAR_ARRIVE_RECV (R350). An exchange barrier ARRIVE record is counted toward rank 0. -/
  | xbarArriveRecv (p : PortId)
  /-- XBAR_RELEASE_RECV (R350). An exchange barrier RELEASE record releases the job channel and passes downward. -/
  | xbarReleaseRecv (p : PortId)
  /-- XBAR_ABORT_RECV (R352). An ABORT record marks the group ABORTED and sweeps a holding job. -/
  | xbarAbortRecv (p : PortId)
  /-- EXCH_STALL_TIMER (R354). An operation open without progress for EXCH_STALL_MS is logged. -/
  | exchStallTimer (d : Fin 2) (tag : Word) (xseq : Half)
  /-- ROUTE_ENTRY_WRITE (R333). A write of a route-table group entry is checked and arms the group. -/
  | routeEntryWrite
  /-- SQ_TAIL_DOORBELL (R359). A write of a pair's SQ tail makes submission entries available. -/
  | sqTailDoorbell (n : PairId) (tail : Word)
  /-- CQ_HEAD_DOORBELL (R360). A write of a pair's CQ head frees completion slots. -/
  | cqHeadDoorbell (n : PairId) (head : Word)
  /-- QP_ENABLE (R358). Setting ENABLE in a queue-pair record turns the pair ON. -/
  | qpEnable (n : PairId)
  /-- QP_DISABLE (R361). Clearing ENABLE makes the pair DRAINING until its jobs end. -/
  | qpDisable (n : PairId)
  /-- SUBMISSION_FETCH (R359). The module fetches the next available entry of a pair, round-robin. -/
  | submissionFetch (n : PairId) (entry : Desc)
  /-- NOP (R362). A NOP entry completes OK. -/
  | nop (n : PairId)
  /-- JOB_SUBMIT (R366). A job submission entry is checked for admission and admitted or refused. -/
  | jobSubmit (n : PairId)
  /-- ADMISSION_RESUME (R367). A barrier channel becomes free, and an admission waiting for channels proceeds. -/
  | admissionResume (n : PairId)
  /-- CANCEL (R374). Ends the job whose JOB_ID equals TARGET. -/
  | cancel (n : PairId)
  /-- STREAM_OPEN (R365). Takes a FREE or ENDED stream to OPEN and empties its room directory. -/
  | streamOpen (n : PairId)
  /-- STREAM_END (R365). Takes an OPEN stream to ENDED and releases its rooms. -/
  | streamEnd (n : PairId)
  /-- JOB_DISPATCH (R368). A ready job's team is free, and its sequencers start at the code entry. -/
  | jobDispatch (job : JobId)
  /-- PREEMPT (R370). A higher-ranked ready job stops and saves lower-ranked saveable jobs to free its team. -/
  | preempt (job : JobId)
  /-- JOB_COMPLETE (R83). Every sequencer has halted and every instruction retired, so the job completes. -/
  | jobComplete (job : JobId)
  /-- CQ_COAL_TIMEOUT (R360). COAL_TIME passes after an unsignalled completion, and the vector is signalled. -/
  | cqCoalTimeout (n : PairId)
  /-- FAULT_SWEEP (R376). A job fault, stack fence or lost member sweeps every job on the module. -/
  | faultSweep (cause : SweepCause)
  /-- SWEEP_COMPLETE (R376). The sweep's completion entries are written and fetch and admission resume. -/
  | sweepComplete
  /-- ADD_REDUCE_FP32 (R357). A host write to the FP32 add-reduce port adds into the user region. -/
  | addReduceFp32 (k : ClusterId) (v : Word)
  /-- ADD_REDUCE_INT32 (R357). A host write to the INT32 add-reduce port adds into the user region. -/
  | addReduceInt32 (k : ClusterId) (v : Word)
  /-- FUNCTION_LEVEL_RESET (R356). FLR cancels every job, turns the pairs OFF and resets BAR0. -/
  | functionLevelReset
  /-- CXL_LINK_LOSS (R356). The CXL link goes down, cancelling jobs and turning the pairs OFF. -/
  | cxlLinkLoss (inside : Bool)
  /-- PERST_ASSERT (R447). PERST_N asserted for 1 µs or longer holds the CXL port in reset. -/
  | perstAssert
  /-- PERST_DEASSERT (R447). PERST_N deasserted starts CXL link training. -/
  | perstDeassert
  /-- ENC_FRAME_START (R392). A posted frame request whose references are complete starts coding. -/
  | encFrameStart (stream : Half)
  /-- ENC_TILE_DONE (R393). An engine finishes coding and filtering a tile. -/
  | encTileDone (e : EngineId) (stream : Half) (tile : Nat) (rowBits : List Nat)
  /-- ENC_TILE_GROUP_EMIT (R394). An eligible tile group is copied into the ring, and a finished frame posts the done counter. -/
  | encTileGroupEmit (stream : Half) (bytes : Nat)
  /-- ENC_OVERRUN_TIMEOUT (R395). A stream waits on a full ring or missing engine for ENC_OVERRUN_MS and ends. -/
  | encOverrunTimeout (stream : Half)
  /-- ENGINE_FENCE (R396). Drains an encoder engine and fences it. -/
  | engineFence
  /-- ENGINE_UNFENCE (R396). Returns an encoder fenced by command. -/
  | engineUnfence
  /-- CLUSTER_FENCE (R379). Fences a cluster that no job holds. -/
  | clusterFence
  /-- CLUSTER_UNFENCE (R379). Returns a cluster fenced by command. -/
  | clusterUnfence
  /-- BLOCK_ENABLES_WRITE (R408). A write of BLOCK_ENABLES turns blocks ON or DRAINING together. -/
  | blockEnablesWrite
  /-- BLOCK_DRAINED (R408). A DRAINING block's work ends, and it goes OFF. -/
  | blockDrained (b : Fin 40)
  /-- DIV_OVERRIDE_WRITE (R405). A write of a divider override ramps the domain to the new divider. -/
  | divOverrideWrite
  /-- RAMP_STEP (R403). A dwell ends, and the ARITH divider moves one step with its voltage. -/
  | rampStep
  /-- STEWARD_SAMPLE (R412). Each 1 kHz sample the steward checks the cap and temperatures and may start a ramp. -/
  | stewardSample (m : PowerSample)
  /-- STEWARD_PERIOD (R415). Each STEWARD_PERIOD_MS the steward decides operating point, depth, predictors and relay size. -/
  | stewardPeriod (m : StewardMeasure)
  /-- PROFILE_AUTOSAVE (R416). Every 6 hours of run time the steward saves its profile. -/
  | profileAutosave
  /-- STEWARD_SAVE (R416). Saves the steward profile now. -/
  | stewardSave
  /-- STEWARD_RESET (R417). Discards the profile and restarts from the seeds. -/
  | stewardReset
  /-- POWER_FAULT (R411). An input, converter or temperature fault resets the module. -/
  | powerFault (cause : Byte)
  /-- ROOT_UNLOCK (R401). The ROOT PLL loses lock, and the module resets. -/
  | rootUnlock (refLost : Bool)
  /-- POWER_UP (R445). 52 V enters range, and the module comes up tier by tier. -/
  | powerUp
  /-- STACK_TRAINED (R446). A stack finishes training, or is fenced, and is zeroed. -/
  | stackTrained (m : StackId) (how : Training)
  /-- FLASH_TRAINED (R445). Flash channels finish training and slot states are read. -/
  | flashTrained (failed : BitVec 128)
  /-- START_READY (R445). Start-up completes: clusters zeroed, enables applied, READY set. -/
  | startReady
  /-- MODULE_RESET (R459). Starts a commanded module reset. -/
  | moduleReset
  /-- PORTER_RESTART (R449). The porter watchdog restarts the porter from ROM. -/
  | porterRestart
  /-- PREPARE_REMOVAL (R458). Writing TRUE pauses admission, completes jobs, leaves rings and saves the profile. -/
  | prepareRemoval
  /-- CANCEL_REMOVAL (R458). Writing FALSE to PREPARE_REMOVAL resumes admission. -/
  | cancelRemoval
  /-- FW_STAGE_CHUNK (R453). Writes image bytes into the non-running bank. -/
  | fwStageChunk
  /-- FW_STAGE_MEM (R453). Stages an image into the non-running bank from stacked memory. -/
  | fwStageMem
  /-- FW_VERIFY (R462). Checks the staged image and sets FW_STAGE_STATE. -/
  | fwVerify
  /-- FW_ACTIVATE (R455). Activates a verified bank without a stop. -/
  | fwActivate
  /-- FW_ACTIVATE_WAIT_EXPIRY (R455). Unsaveable jobs remain at FW_ACTIVATE_WAIT_S, and the activation ends with JOBS_BUSY. -/
  | fwActivateWaitExpiry
  /-- ROLLBACK_COMMIT (R463). Blows one step of the SVN fuse counter. -/
  | rollbackCommit
  /-- KEY_ENROL (R467). Enrols an operator key in an empty slot. -/
  | keyEnrol
  /-- KEY_REVOKE (R467). Revokes an operator key and closes its sessions. -/
  | keyRevoke
  /-- ATTEST_NONCE (R465). Builds a signed attestation report in a slot. -/
  | attestNonce
  /-- DEBUG_UNLOCK (R474). Opens a debug scope on a valid vendor token. -/
  | debugUnlock
  /-- DEBUG_LOCK (R474). Relocks the debug port. -/
  | debugLock
  /-- LEDGER_COMMIT (R434). Writes the persistable values in effect as a new Ledger image. -/
  | ledgerCommit
  /-- RESTORE_FACTORY (R436). Writes a Ledger image without entry records, profile and optionally keys. -/
  | restoreFactory
  /-- USER_VIEW_CONFIG_WRITE (R431). A write of the user view base or size is checked and rebuilds the view. -/
  | userViewConfigWrite
  /-- PORTER_FRAME_RECEIVE (R421). The porter takes a Porter protocol frame whole and checks or drops it. -/
  | porterFrameReceive (bytes : List Byte) (path : Peer × Peer)
  /-- DICT_READ (R422). A read record returns an entry's value or a segment of it. -/
  | dictRead
  /-- DICT_WRITE (R429). A write record to an entry with no row of its own is checked and applied. -/
  | dictWrite
  /-- ASYNC_COMMAND_END (R424). An accepted command ends, and its result is notified and placed in CMD_RESULTS. -/
  | asyncCommandEnd (ticket : Word) (how : CmdEnd)
  /-- MB_DOORBELL (R430). Writing the mailbox doorbell submits the request frame to the porter. -/
  | mbDoorbell
  /-- HELLO (R470). A client's HELLO starts a session handshake. -/
  | hello
  /-- CLIENT_SIG (R470). A client's signature of the transcript opens the session or fails it. -/
  | clientSig
  /-- CLOSE (R473). A tagged CLOSE frame closes a session. -/
  | close
  /-- HANDSHAKE_TIMEOUT (R471). A handshake incomplete 2 s after HELLO ends with TIMEOUT. -/
  | handshakeTimeout (session : Word)
  /-- SESSION_IDLE_TIMEOUT (R473). A session idle for SESSION_IDLE_S closes. -/
  | sessionIdleTimeout (session : Word)
  /-- BIST_RUN (R478). Starts a commanded BIST run on a target. -/
  | bistRun
  /-- BIST_RUN_END (R481). A BIST run ends with a verdict, fencing or returning units. -/
  | bistRunEnd (target : Byte) (subs : List Nat) (misrs : List Quad)
  /-- ROLLING_BIST_TURN (R479). Every ROLLING_INTERVAL_S the module takes the next free cluster for BIST. -/
  | rollingBistTurn
  /-- ALERT_ACK (R485). Releases ALERT_N when the acknowledged SEQ covers the latest alert. -/
  | alertAck
  /-- BW_WINDOW_END (R488). A bandwidth window ends, latching byte counts and raising WINDOW_SEQ. -/
  | bwWindowEnd
  /-- REGISTER_WRITE (R357). A BAR0 write to a register with no row of its own. -/
  | registerWrite (off : BitVec 26) (v : Quad) (wide : Bool)
  /-- STANDBY_POWER_LOSS (R496). The 52 V input is lost entirely (removal or supply failure), standby power ends, jobs, sessions and the error log are lost and the bypasses latch THROUGH on stored energy. -/
  | standbyPowerLoss
  /-- REFERENCE_RETURN (R493). REFCLK returns after being absent, letting the porter run and the module leave tier 0. -/
  | referenceReturn
  /-- HUBS_READY (R445). The D0 and D1 hubs finish loading firmware, and configuration requests stop receiving Request Retry Status. -/
  | hubsReady
  /-- CXL_LINK_UP (R447). CXL link training completes and the link comes up after PERST_N deassertion, a module reset or a link loss. -/
  | cxlLinkUp
  /-- LEDGER_WRITE_DONE (R468). A queued Ledger image write for a profile save or a key-set change finishes, making its bank current or failing with LEDGER_FAULT, and clearing KEYS_PENDING on success. -/
  | ledgerWriteDone (ok : Bool)
  /-- KEY_LEDGER_RETRY (R468). 10 s after a key-set Ledger write ends with LEDGER_FAULT, the porter repeats the write. -/
  | keyLedgerRetry
  /-- USER_VIEW_REFRESH (R431). Each millisecond the module rewrites the RO values of the user view in stacked memory under the SEQ protocol. -/
  | userViewRefresh
  /-- NARROW_WRITE_ACCEPTED (R505). The oldest outstanding STX or AMO is accepted, and a sequencer stalled on its sixteenth outstanding write resumes. -/
  | narrowAccepted (k : ClusterId)
  deriving DecidableEq, Repr

end Sys2Proof
end

