-- ==== Sys2Proof/Decode.lean ====
section
/-! DEFINITION. Words. The operation table gives its rows no bits, so no word spells a command of it. The sequencer's own
instruction words (Tables 3-6 and 3-7) are encoded and decoded here: the command of a sequencer instruction carries every field
of its word. -/

namespace Sys2Proof

/-- The command that a word spells by the table's bits: the table gives none. -/
def decodeTableWord (_nbits _w : Nat) : Option Instr := none

/-! ## The formats of Table 3-6 -/

def encG (opc : Nat) (gd ga gb : BitVec 5) (fn : BitVec 11) : Word := BitVec.ofNat 6 opc ++ gd ++ ga ++ gb ++ fn
def encI (opc : Nat) (gd ga : BitVec 5) (imm : Half) : Word := BitVec.ofNat 6 opc ++ gd ++ ga ++ imm
/-- Format B: gA stands in GD's place, gB in GA's. -/
def encB (opc : Nat) (ga gb : BitVec 5) (off : Half) : Word := BitVec.ofNat 6 opc ++ ga ++ gb ++ off
def encJ (opc : Nat) (gd : BitVec 5) (off : BitVec 21) : Word := BitVec.ofNat 6 opc ++ gd ++ off

def wOpc (w : Word) : Nat := (w.extractLsb' 26 6).toNat
def wGd (w : Word) : BitVec 5 := w.extractLsb' 21 5
def wGa (w : Word) : BitVec 5 := w.extractLsb' 16 5
def wGb (w : Word) : BitVec 5 := w.extractLsb' 11 5
def wFn (w : Word) : BitVec 11 := w.extractLsb' 0 11
def wImm (w : Word) : Half := w.extractLsb' 0 16
def wOff (w : Word) : BitVec 21 := w.extractLsb' 0 21

/-- ALU by FN (Table 3-7). -/
def aluOf (k : ClusterId) (gd ga gb : BitVec 5) : Nat → Option Instr
  | 0x000 => some (.aluAdd k gd ga gb)
  | 0x001 => some (.aluSub k gd ga gb)
  | 0x002 => some (.aluAnd k gd ga gb)
  | 0x003 => some (.aluOr k gd ga gb)
  | 0x004 => some (.aluXor k gd ga gb)
  | 0x005 => some (.aluShl k gd ga gb)
  | 0x006 => some (.aluShr k gd ga gb)
  | 0x007 => some (.aluSra k gd ga gb)
  | 0x008 => some (.aluMul k gd ga gb)
  | 0x009 => some (.aluMulh k gd ga gb)
  | 0x00A => some (.aluMin k gd ga gb)
  | 0x00B => some (.aluMax k gd ga gb)
  | 0x00C => some (.aluMinu k gd ga gb)
  | 0x00D => some (.aluMaxu k gd ga gb)
  | 0x00E => some (.aluSlt k gd ga gb)
  | 0x00F => some (.aluSltu k gd ga gb)
  | _ => none

/-- AMO by FN (Table 3-7). -/
def amoOf (k : ClusterId) (gd ga gb : BitVec 5) : Nat → Option Instr
  | 0 => some (.amoAdd k gd ga gb)
  | 1 => some (.amoSwap k gd ga gb)
  | 2 => some (.amoMin k gd ga gb)
  | 3 => some (.amoMax k gd ga gb)
  | _ => none

/-- Operations of format I. -/
def immOf (k : ClusterId) (gd ga : BitVec 5) (imm : Half) : Nat → Option Instr
  | 0x02 => some (.addi k gd ga imm)
  | 0x03 => some (.andi k gd ga imm)
  | 0x04 => some (.ori k gd ga imm)
  | 0x05 => some (.xori k gd ga imm)
  | 0x06 => some (.shli k gd ga imm)
  | 0x07 => some (.shri k gd ga imm)
  | 0x08 => some (.srai k gd ga imm)
  | 0x09 => some (.lui k gd ga imm)
  | 0x0A => some (.slti k gd ga imm)
  | 0x10 => some (.ld k gd ga imm)
  | 0x11 => some (.st k gd ga imm)
  | 0x12 => some (.ldx k gd ga imm)
  | 0x13 => some (.stx k gd ga imm)
  | 0x1F => some (.jalr k gd ga imm)
  | 0x2C => some (.csrr k gd ga imm)
  | _ => none

/-- Branches: format B. -/
def branchOf (k : ClusterId) (ga gb : BitVec 5) (off : Half) : Nat → Option Instr
  | 0x18 => some (.beq k ga gb off)
  | 0x19 => some (.bne k ga gb off)
  | 0x1A => some (.blt k ga gb off)
  | 0x1B => some (.bge k ga gb off)
  | 0x1C => some (.bltu k ga gb off)
  | 0x1D => some (.bgeu k ga gb off)
  | _ => none

/-- The sync operations: format G. -/
def syncOf (k : ClusterId) (gd ga gb : BitVec 5) (fn : BitVec 11) : Nat → Option Instr
  | 0x20 => some (.issue k gd ga gb fn)
  | 0x21 => some (.tfence k gd ga gb fn)
  | 0x22 => some (.cwait k gd ga gb fn)
  | 0x23 => some (.cpost k gd ga gb fn)
  | 0x24 => some (.cset k gd ga gb fn)
  | 0x25 => some (.cread k gd ga gb fn)
  | 0x26 => some (.seqBar k gd ga gb fn)
  | 0x27 => some (.bcfg k gd ga gb fn)
  | 0x28 => some (.pread k gd ga gb fn)
  | 0x29 => some (.pset k gd ga gb fn)
  | 0x3E => some (.halt k gd ga gb fn)
  | _ => none

/-- The command of an instruction word on cluster k; none where Table 3-7 lists no operation (R80). -/
def seqDecode (k : ClusterId) (w : Word) : Option Instr :=
  let o := wOpc w
  if o = 0x01 then aluOf k (wGd w) (wGa w) (wGb w) (wFn w).toNat
  else if o = 0x14 then amoOf k (wGd w) (wGa w) (wGb w) (wFn w).toNat
  else if o = 0x1E then some (.jal k (wGd w) (wOff w))
  else (immOf k (wGd w) (wGa w) (wImm w) o).or ((branchOf k (wGd w) (wGa w) (wImm w) o).or
    (syncOf k (wGd w) (wGa w) (wGb w) (wFn w) o))

/-- The word of a sequencer instruction; none of another command. -/
def seqEncode : Instr → Option Word
  | .aluAdd _ gd ga gb => some (encG 0x01 gd ga gb 0x000)
  | .aluSub _ gd ga gb => some (encG 0x01 gd ga gb 0x001)
  | .aluAnd _ gd ga gb => some (encG 0x01 gd ga gb 0x002)
  | .aluOr _ gd ga gb => some (encG 0x01 gd ga gb 0x003)
  | .aluXor _ gd ga gb => some (encG 0x01 gd ga gb 0x004)
  | .aluShl _ gd ga gb => some (encG 0x01 gd ga gb 0x005)
  | .aluShr _ gd ga gb => some (encG 0x01 gd ga gb 0x006)
  | .aluSra _ gd ga gb => some (encG 0x01 gd ga gb 0x007)
  | .aluMul _ gd ga gb => some (encG 0x01 gd ga gb 0x008)
  | .aluMulh _ gd ga gb => some (encG 0x01 gd ga gb 0x009)
  | .aluMin _ gd ga gb => some (encG 0x01 gd ga gb 0x00A)
  | .aluMax _ gd ga gb => some (encG 0x01 gd ga gb 0x00B)
  | .aluMinu _ gd ga gb => some (encG 0x01 gd ga gb 0x00C)
  | .aluMaxu _ gd ga gb => some (encG 0x01 gd ga gb 0x00D)
  | .aluSlt _ gd ga gb => some (encG 0x01 gd ga gb 0x00E)
  | .aluSltu _ gd ga gb => some (encG 0x01 gd ga gb 0x00F)
  | .addi _ gd ga imm => some (encI 0x02 gd ga imm)
  | .andi _ gd ga imm => some (encI 0x03 gd ga imm)
  | .ori _ gd ga imm => some (encI 0x04 gd ga imm)
  | .xori _ gd ga imm => some (encI 0x05 gd ga imm)
  | .shli _ gd ga imm => some (encI 0x06 gd ga imm)
  | .shri _ gd ga imm => some (encI 0x07 gd ga imm)
  | .srai _ gd ga imm => some (encI 0x08 gd ga imm)
  | .lui _ gd ga imm => some (encI 0x09 gd ga imm)
  | .slti _ gd ga imm => some (encI 0x0A gd ga imm)
  | .ld _ gd ga imm => some (encI 0x10 gd ga imm)
  | .st _ gd ga imm => some (encI 0x11 gd ga imm)
  | .ldx _ gd ga imm => some (encI 0x12 gd ga imm)
  | .stx _ gd ga imm => some (encI 0x13 gd ga imm)
  | .amoAdd _ gd ga gb => some (encG 0x14 gd ga gb 0)
  | .amoSwap _ gd ga gb => some (encG 0x14 gd ga gb 1)
  | .amoMin _ gd ga gb => some (encG 0x14 gd ga gb 2)
  | .amoMax _ gd ga gb => some (encG 0x14 gd ga gb 3)
  | .beq _ ga gb off => some (encB 0x18 ga gb off)
  | .bne _ ga gb off => some (encB 0x19 ga gb off)
  | .blt _ ga gb off => some (encB 0x1A ga gb off)
  | .bge _ ga gb off => some (encB 0x1B ga gb off)
  | .bltu _ ga gb off => some (encB 0x1C ga gb off)
  | .bgeu _ ga gb off => some (encB 0x1D ga gb off)
  | .jal _ gd off => some (encJ 0x1E gd off)
  | .jalr _ gd ga imm => some (encI 0x1F gd ga imm)
  | .issue _ gd ga gb fn => some (encG 0x20 gd ga gb fn)
  | .tfence _ gd ga gb fn => some (encG 0x21 gd ga gb fn)
  | .cwait _ gd ga gb fn => some (encG 0x22 gd ga gb fn)
  | .cpost _ gd ga gb fn => some (encG 0x23 gd ga gb fn)
  | .cset _ gd ga gb fn => some (encG 0x24 gd ga gb fn)
  | .cread _ gd ga gb fn => some (encG 0x25 gd ga gb fn)
  | .seqBar _ gd ga gb fn => some (encG 0x26 gd ga gb fn)
  | .bcfg _ gd ga gb fn => some (encG 0x27 gd ga gb fn)
  | .pread _ gd ga gb fn => some (encG 0x28 gd ga gb fn)
  | .pset _ gd ga gb fn => some (encG 0x29 gd ga gb fn)
  | .csrr _ gd ga imm => some (encI 0x2C gd ga imm)
  | .halt _ gd ga gb fn => some (encG 0x3E gd ga gb fn)
  | _ => none

end Sys2Proof
end

