-- ==== Sys2Proof/Coding.lean ====
section
/-! DEFINITION. What a video frame is coded from and into: the effort of the motion search (Table 16-4), the inputs of R390, and the
fields that R381 and Table 16-1 fix in the headers. -/

namespace Sys2Proof

/-- A row of Table 16-4: the search range in samples, the finest fraction of a sample that refinement reaches, the filters tried
(0 regular, 1 smooth, 2 sharp) and allow_high_precision_mv. -/
structure Effort where
  rangeX : Nat
  rangeY : Nat
  fraction : Nat
  filters : List Nat
  highPrec : Bool
  deriving DecidableEq, Repr

/-- A motion vector in eighths of a sample, with its interpolation filter. -/
structure Motion where
  x : Int
  y : Int
  filter : Nat
  deriving DecidableEq, Repr

/-- The inputs a frame's bits are a function of (R390): the job's numerics epoch, the effort level, ENC_PARAMS without ENGINE_MASK, the
frame request, the planes as the input transform leaves them, the reference slots in use, and the quantiser the frame starts at and its
limit, which the state block gives. `seed` is 0, or a draw where the program changed the planes of a frame in progress (R386). -/
structure EncInput where
  epoch : Nat
  effort : Effort
  params : Nat
  request : Nat
  planes : List (List (List Nat))
  refs : List (List Byte)
  q0 : Nat
  limit : Int
  seed : Nat := 0
  deriving DecidableEq, Repr

/-- What the sequence header states (R381, Table 16-1). -/
structure SeqHeader where
  profile : Nat := 0
  level : Nat
  operatingPoints : Nat := 1
  timingInfo : Bool := false
  width : Nat
  height : Nat
  bit10 : Bool
  superblock128 : Bool := false
  interIntra : Bool := false
  maskedCompound : Bool := false
  warpedMotion : Bool := false
  dualFilter : Bool := false
  superRes : Bool := false
  cdef : Bool
  restoration : Bool
  filmGrain : Bool := false
  deriving DecidableEq, Repr

/-- What the frame header states (R381, R389, Table 16-1): no motion mode but translation, so no OBMC and no warping; no intra block
copy; Wiener restoration alone, in units of 64 by 64. The reference indices are in AV1's order LAST, LAST2, LAST3, GOLDEN, BWDREF,
ALTREF2, ALTREF. -/
structure FrameHeader where
  key : Bool
  showFrame : Bool := true
  refreshSlots : Nat
  primaryRefNone : Bool := true
  disableCdfUpdate : Bool := false
  errorResilient : Bool := false
  refFrameIdx : List Nat
  highPrecMv : Bool
  switchableFilter : Bool
  tileColsLog2 : Nat
  tileRowsLog2 : Nat
  baseQ : Nat
  deltaQPresent : Bool := true
  deltaQRes : Nat
  deltaLf : Bool := false
  quantiserMatrices : Bool := false
  loopFilter : Nat
  cdefStrengths : List Nat
  restoration : Bool
  wienerOnly : Bool := true
  restorationUnit : Nat := 64
  globalMotion : Bool := false
  motionModeSwitchable : Bool := false
  intraBlockCopy : Bool := false
  deriving DecidableEq, Repr

end Sys2Proof
end

