-- ==== Sys2Proof/Config.lean ====
section
/-! DEFINITION. What one implementation, one firmware image or one manufacture fixes, and the free values of the model:
opaque constants without a body, so that nothing can be proved of the value one of them takes. -/

namespace Sys2Proof.Config

/-- A byte of memory whose contents the spec leaves unspecified (R198, R203, R225, R291): by the stamp of the range
and the address. FREE VALUE (log 1). -/
opaque freeByte : Nat → Nat → Byte

/-- A 64-bit free value, drawn with the state's own counter: measured times, cycle counts, sizes of coded tiles, random
numbers of the porter. FREE VALUE (log 2). -/
opaque freeQuad : Nat → Quad

/-- SHAKE256 with the given output length in bytes (20; the standard is not in the spec). FREE FUNCTION (log 3). -/
opaque shake256 : List Byte → Nat → List Byte

/-- KMAC256 of key, data, and customisation string, 32 bytes (R470, R472). FREE FUNCTION (log 3). -/
opaque kmac256 : List Byte → List Byte → List Byte → List Byte

/-- Falcon-1024 verification of key, message, signature (20). FREE FUNCTION (log 3). -/
opaque falconVerify : List Byte → List Byte → List Byte → Bool

/-- Falcon-1024 signature by the identity key, of a message, with the draw of its randomness (R464, R465). FREE (log 3). -/
opaque falconSign : List Byte → Nat → List Byte

/-- ML-KEM-1024 encapsulation: ciphertext and shared secret, of the encapsulation key and the draw of its randomness
(R470). FREE FUNCTION (log 3). -/
opaque kemEncaps : List Byte → Nat → List Byte × List Byte

/-- Where the SEs and coefficients of the built-in table `id` of a numerics epoch lie among those that meet its bound (R261). FREE
(log 4). -/
opaque builtinTable : Nat → Nat → Nat

/-- The image of the first-generation table `id` as a numerics epoch carries it (R261). FREE (log 4). -/
opaque builtinG1 : Nat → Nat → List Byte

/-- Tap `k` of phase `ph` of the scaler of a numerics epoch, in 128ths, before its phase is brought to its sum (R388).
FREE (log 4). -/
opaque scalerTap : Nat → Nat → Nat → Byte

/-- What the motion search of a frame finds, before the bounds of its effort level (R389). FREE FUNCTION (log 6). -/
opaque searchResult : EncInput → List Motion

/-- Bits of the last of a tile's superblock rows, of the frame's inputs and vectors, the tile and the quantisers of the rows so far
(R390, R391). FREE FUNCTION (log 6). -/
opaque codedRow : EncInput → List Motion → Nat → List Nat → Nat

/-- A byte of a frame's tile group (R390). FREE FUNCTION (log 6). -/
opaque codedByte : EncInput → List Motion → Nat → Nat → Byte

/-- A byte of a frame's reconstruction, with its motion field, in a reference slot (R390, R393). FREE FUNCTION (log 6). -/
opaque reconByte : EncInput → List Motion → Nat → Byte

/-- AV1's sequence_header_obu and frame_header_obu of their fields; the standard is not in the spec (R381). FREE (log 6). -/
opaque av1SequenceHeader : SeqHeader → List Byte
opaque av1FrameHeader : FrameHeader → List Byte

/-- The loop-filter level, and the CDEF strength by its index, that an epoch's tables give for a base_q_idx (R381). FREE (log 6). -/
opaque loopFilterLevel : Nat → Nat → Nat
opaque cdefStrength : Nat → Nat → Nat → Nat

/-- Blobs fixed at manufacture, by dictionary index and subindex: identity and CA certificates, ROM_KEY_DIGEST
(Tables 18-8, 20-4). FREE (log 4). -/
opaque factoryBlob : Nat → Nat → List Byte

/-- The operator key section of a Ledger image, of the keys it holds; its layout is not in the spec (R433). FREE (log 38). -/
opaque keySection : List (Nat × List Byte) → List Byte

/-- The entries of the manual that a firmware image does not define, by its version; what an image beside the factory's defines is its
own (R438). FREE (log 183). -/
opaque imageOmits : Nat → List (Nat × Nat)

/-- A byte of a steward profile as it lies in a Ledger image, by the image's generation; its layout is not in the spec (R416, R433).
FREE (log 38). -/
opaque profileByte : Nat → Nat → Byte

/-- Scalars fixed at manufacture or by the running image, by dictionary index and subindex. FREE (log 4). -/
opaque factoryNat : Nat → Nat → Nat

/-- The factory MISR signature of a kind of sub-unit in a BIST mode (R476). FREE (log 4). -/
opaque misrExpected : Nat → Nat → Quad

/-- The steward's estimate, in watts, of the draw at an operating point, by profile draw (R412, R417). FREE (log 5). -/
opaque powerEstimate : Nat → Nat → Nat

/-- VDD_ARITH in millivolts at an ARITH divider: the factory trims it (R402, R403). FREE (log 5). -/
opaque vddArith : Nat → Nat

/-- A state, by the draw, that undefined behaviour leads to; the type is a variable, since the state is defined after this file (R7).
FREE VALUE (log 131). -/
opaque anyOf {α : Type} [Inhabited α] : Nat → α

end Sys2Proof.Config
end

