-- ==== Sys2Proof/Machine/Parts.lean ====
section
/-! DEFINITION. The parts of the state: one structure per unit the spec names, as plain data. -/

namespace Sys2Proof.Machine

/-- A range `[lo, hi)` of addresses whose bytes the spec leaves unspecified; the stamp names the occasion. -/
structure FreeRange where
  lo : Nat
  hi : Nat
  stamp : Nat
  deriving DecidableEq, Repr

/-- Bytes by address: cells in canonical form, and ranges of unspecified contents. Every other byte reads zero (R162,
R369). -/
structure Mem where
  cells : List Host.Cell := []
  free : List FreeRange := []
  deriving DecidableEq, Repr

/-! ## Sequencers (03) -/

inductive NarrowKind where
  | ldx (gd : BitVec 5)
  | stx (v : Quad)
  | amo (fn : BitVec 11) (gd : BitVec 5) (arg cmp : Word)
  deriving DecidableEq, Repr

/-- An outstanding narrow access of a sequencer (R505). -/
structure Narrow where
  addr : Nat
  kind : NarrowKind
  deriving DecidableEq, Repr

/-- What a sequencer waits for (R78, R82, R87, R97, R505). -/
inductive Stall where
  | none
  | narrow
  | stxLimit (n : Narrow)
  | issue (desc : Desc) (cores : BitVec 16)
  | tfence (cores : BitVec 16)
  | cwait (id : Half) (target : Word)
  | bar (chan : Nat)
  deriving DecidableEq, Repr

/-- A post to be made: kind 1 to a sync counter, kind 2 to a progress counter (R104). -/
structure PendPost where
  kind : Nat
  id : Half
  val : Word
  deriving DecidableEq, Repr

/-- A sampled sequencer instruction that has not completed (R489). -/
structure SamplePend where
  word : Word
  pc : Quad
  cycle : Quad
  cores : BitVec 16
  descAddr : Quad
  left : List (Nat × Nat)
  deriving DecidableEq, Repr

/-- One sequencer (R78, R84). `outst` lists its outstanding narrow accesses, oldest first; `posts` the CPOSTs that wait for
earlier writes (R86), each with the number of those still to be accepted. -/
structure Seq where
  active : Bool := false
  halted : Bool := false
  regs : AMap Quad := []
  pc : Quad := 0
  loc : Mem := {}
  cycle : Quad := 0
  retired : Quad := 0
  issued : Quad := 0
  stall : Stall := .none
  outst : List Narrow := []
  posts : List (Nat × PendPost) := []
  deriving DecidableEq, Repr

/-! ## Cores (03–05, 08, 10–12) -/

/-- Where a queued tile instruction stands (R72, R73). `retired` holds of an instruction retired on tab, which waits for
its tab to settle, and of a REUSE.CHK whose tab is not resolved (R297, R302). -/
inductive Phase where
  | queued
  | running
  | done (istat : Byte)
  | retired (istat : Byte)
  deriving DecidableEq, Repr

inductive RoomDecision where
  | new
  | inPlace
  | copy (old : Nat)
  | overwrite
  deriving DecidableEq, Repr

/-- A room an instruction writes (R233, R234): its number, its group, the device address of its directory entry, and the
decision taken. -/
structure RoomHold where
  room : Nat
  group : Nat
  entryAddr : Nat
  decision : RoomDecision
  deriving DecidableEq, Repr

/-- A segment record of a table (Table 10-2). -/
structure SfuSeg where
  brk : Word
  se : Half
  lw : Half
  c0 : Word
  c1 : Word
  c2 : Word
  c3 : Word
  deriving DecidableEq, Repr

/-- A loaded table bank (R250–R258). -/
structure SfuBank where
  form : Byte
  mono : Nat
  lowMode : Bool
  highMode : Bool
  lowVal : Word
  highVal : Word
  segs : List SfuSeg
  deriving DecidableEq, Repr

/-- One entry of a core's tile queue: the descriptor and what its execution so far has fixed. `claimed` says that its claim
is made, with the index `claim` (none: the counter was exhausted) and the rows it leaves valid, `clip` (R130, R131);
`chainEnd` marks the last member of a chain. `tab` is the tab it is on (R297). `arrived` and `released` follow a BAR (R77,
R97); `computed` is the mark of R347, and of a
REUSE.CHK that its valid bit read 1; `filled` says the feeder has done its fill;
`waitFrom` is the pacing count at its first weight wait (R28, R191); `outcome` is that of a REUSE.CHK; `image` is what a TBL.LOAD
puts in its bank when it retires (R259). -/
structure QEntry where
  desc : Desc
  ord : Word
  phase : Phase := .queued
  waitMet : Bool := false
  claimed : Bool := false
  claim : Option Nat := none
  clip : Option Nat := none
  chainEnd : Bool := false
  tab : Option Nat := none
  arrived : Bool := false
  released : Bool := false
  computed : Bool := false
  filled : Bool := false
  waitFrom : Option Nat := none
  outcome : Option Bool := none
  image : Option SfuBank := none
  rooms : List RoomHold := []
  deriving DecidableEq, Repr

/-- A reuse block in force on a core (R290): the ordinal of its REUSE.CHK, that of its last instruction, the descriptor of
the check, and whether its span is skipped; `decided` is false while the check runs without a tab (R296). -/
structure ReuseBlock where
  chk : Nat
  last : Nat
  desc : Desc
  skip : Bool
  decided : Bool
  deriving DecidableEq, Repr

/-- A logged line of 64 bytes of the core store, or of the accumulator store (R299); with `off`, bytes of the scratch of a skipped span
that a void puts back from that byte of the line on (log 97). -/
structure LogLine where
  acc : Bool
  line : Nat
  bytes : List Byte
  off : Nat := 0
  deriving DecidableEq, Repr

/-- What a tab holds back until it settles (R300, R301). -/
inductive Held where
  | post (p : PendPost)
  | arrival (chan : Nat) (ord : Word)
  | commit (work : Nat) (j : Nat) (p : PendPost) (last : QEntry)
  | status (ord : Word) (istat : Byte)
  | valid (ord : Word) (entry : Nat) (reuse record : Bool)
  deriving DecidableEq, Repr

/-- A tab (R296): named by the ordinal of its REUSE.CHK, with its prediction (true: REUSE), and the outcome once that check
has retired. `scratch` keeps what the scratch of a span skipped on tab held, which a void puts back; it is no log of R299 and takes
no log space (log 97). -/
structure Tab where
  id : Nat
  pred : Bool
  outcome : Option Bool := none
  log : List LogLine := []
  scratch : List LogLine := []
  held : List Held := []
  deriving DecidableEq, Repr

/-- An open claim (R130): its counter, its index, the members still to start. -/
structure OpenClaim where
  work : Nat
  index : Nat
  left : Nat
  exhausted : Bool
  deriving DecidableEq, Repr

/-- A commit that waits for visibility (R132), with the last member of its chain, which a save in that time keeps (R133). `before` is how
many of its core's pending posts stand before it: those behind it wait for its writes (R86). -/
structure PendCommit where
  work : Nat
  index : Nat
  post : PendPost
  last : QEntry
  before : Nat
  deriving DecidableEq, Repr

/-- The tag of a line-buffer slot (R273). `tab` names the tab whose values the fill copied. -/
structure LineTag where
  src : Nat
  fmt : Nat
  inW : Nat
  pw : Nat
  sw : Nat
  dw : Nat
  kw : Nat
  tab : Option Nat := none
  deriving DecidableEq, Repr

structure Predictor where
  last : Bool := false
  count : Nat := 0
  deriving DecidableEq, Repr

/-- What the weight buffers keep (R113, R279): a weight tile, or a filter of several tiles, with its bytes. -/
structure KeptTile where
  addr : Nat
  fmt : Nat
  tiles : Nat
  filter : Bool
  bytes : List Byte
  deriving DecidableEq, Repr

/-- One core (Table 3-1, R61). `kept` is what its weight buffers keep (R113, R279), `shadow` what the shadow buffer has been given by
a read that served another core's load too, and the ordinal of the instruction whose load that was (R125). -/
structure Core where
  store : Mem := {}
  acc : Mem := {}
  queue : List QEntry := []
  issued : Word := 0
  progress : AMap Word := []
  bank0 : Option SfuBank := none
  bank1 : Option SfuBank := none
  tags : AMap LineTag := []
  kept : Option KeptTile := none
  shadow : Option (Word × KeptTile) := none
  predictors : AMap Predictor := []
  tabs : List Tab := []
  blocks : List ReuseBlock := []
  restore : List LogLine := []
  claims : List OpenClaim := []
  commits : List PendCommit := []
  posts : List PendPost := []
  ctr : AMap Quad := []
  stopReq : Bool := false
  stopped : Bool := false
  deriving DecidableEq, Repr

/-! ## Clusters (03, 06, 09, 21) -/

/-- A request of a room port and its result once made (R236). -/
structure RoomReq where
  word : Quad
  result : Option Quad := none
  deriving DecidableEq, Repr

/-- One cluster: the job that holds it, its fences, its shared cache, counters, room port and sampling. -/
structure Cluster where
  holder : Option JobId := none
  zeroing : Bool := false
  fencedCmd : Bool := false
  fencedBist : Bool := false
  coreFence : BitVec 16 := 0
  /-- The cores that BIST fenced (R481). -/
  bistCores : BitVec 16 := 0
  rolling : Bool := false
  scache : Mem := {}
  sync : AMap Word := []
  seq : Seq := {}
  roomQ : List RoomReq := []
  pins : List Nat := []
  addOff : Word := 0
  ctr : AMap Quad := []
  sampleRing : AMap (BitVec 256) := []
  sampleHead : Word := 0
  sampleCount : Nat := 0
  samplePend : List SamplePend := []
  deriving DecidableEq, Repr

/-! ## Jobs, pairs and streams (15) -/

/-- A job's barrier channel (R95–R97, R349): its physical channel, memberships by team rank, arrivals as
(rank, participant) with participant 16 the sequencer, its exchange binding. -/
structure Barrier where
  chan : Nat
  phys : Nat
  member : AMap (BitVec 17) := []
  arrived : List (Nat × Nat) := []
  xbind : Option (Nat × Nat) := none
  xphys : Option Nat := none
  xround : Word := 0
  xsent : Bool := false
  xreleased : Bool := false
  deriving DecidableEq, Repr

/-- What a save keeps of one cluster (R372). -/
structure SavedCluster where
  seq : Seq
  sync : AMap Word
  status : List Byte
  work : List (Nat × Byte)
  roomQ : List RoomReq
  pins : List Nat
  cores : List Core
  samplePend : List SamplePend
  deriving DecidableEq, Repr

/-- A booking of a job (R232): the stream and the group it is for, the list it is counted against, and the rooms left of it. -/
structure Booking where
  stream : Nat
  group : Nat
  pool : Nat
  stack : Nat
  left : Nat
  deriving DecidableEq, Repr

/-- Where a job stands (R368, R372, R376). -/
inductive JobPhase where
  | waiting
  | running
  | stopping
  | saved
  | ended
  deriving DecidableEq, Repr

/-- Why a running job stops (R76, R370, R374, R455). -/
inductive StopWhy where
  | none
  | preempted
  | cancelled
  | activation
  deriving DecidableEq, Repr

/-- An admitted job. `readyPacing` is the latest pacing count at which the steward found it not ready (R415). `cancels` lists the CANCELs that wait for its end, by pair and tag; `entry` is its submission entry and
`header` its program header. -/
structure Job where
  id : JobId
  pair : Nat
  entry : Desc
  header : Desc
  admitSeq : Nat
  phase : JobPhase := .waiting
  why : StopWhy := .none
  cancels : List (Nat × Word) := []
  epoch : Half
  canon : Bool
  tabBytes : Nat
  lbBytes : Nat
  slot : Option Nat
  streams : List Nat
  adapters : List (Nat × Bool)
  groups : List Nat
  barriers : List Barrier
  saveAreas : List Nat
  bookings : List Booking
  admitPacing : Quad
  readyPacing : Quad := 0
  bellPacing : Quad
  dispatchPacing : Option Quad := none
  preempted : Bool := false
  framesLate : Bool := false
  streamsEnded : Nat := 0
  dups : Word := 0
  saved : List SavedCluster := []
  heldPosts : List (Half × Word) := []
  deriving DecidableEq, Repr

inductive PairState where
  | off
  | on
  | draining
  deriving DecidableEq, Repr

/-- A queue pair (Table 15-4): its record's fields, the doorbells, the fetched entry that is being processed. `blocked` says that its
next entry is known to be a job submission, which waits while JOBS_EXISTING equals JOBS_MAX. `cqUsed` counts the completion slots
not freed; `bells` lists the doorbells of the entries not fetched, by tail and pacing count; `fetchedLive`
says that the target of a fetched CANCEL existed at its fetch, `waits` that an admission waits for barrier channels. -/
structure Pair where
  sqBase : Quad := 0
  cqBase : Quad := 0
  sqLog : BitVec 4 := 0
  cqLog : BitVec 4 := 0
  vector : BitVec 6 := 0
  coalCount : Byte := 0
  coalTime : Half := 0
  enable : Bool := false
  qstate : PairState := .off
  sqHead : Half := 0
  sqTail : Half := 0
  cqTail : Half := 0
  cqHead : Half := 0
  phase : Bool := true
  unsignalled : Nat := 0
  fetched : Option Desc := none
  fetchedBell : Quad := 0
  fetchedLive : Bool := false
  blocked : Bool := false
  waits : Bool := false
  cqUsed : Nat := 0
  bells : List (Nat × Quad) := []
  deriving DecidableEq, Repr

inductive SState where
  | free
  | opened
  | held
  | ended
  deriving DecidableEq, Repr

/-- An encoder frame in progress (R390–R394): what it is coded from (its request, the quantiser it starts at, its limit), its place in
the order of the frames started, the tiles begun and their engines, the tiles done (tile, bits, highest quantiser), whether its header
OBUs are in the ring, the tile groups written. -/
structure EncFrame where
  input : EncInput
  headsOut : Nat := 0
  begun : List (Nat × Nat) := []
  tilesDone : List (Nat × Nat × Nat) := []
  groupsOut : Nat := 0
  deriving DecidableEq, Repr

/-- The encoder's state of one stream beside its state block in memory (R382–R385, R393): requests done since the admission, when
requests were posted (the number of a post, and the requests posted by it) in the module's order of posts (R392), slots that hold a frame since STREAM_OPEN, the frame in progress, the last valid CONSUMED; ENC_PARAMS and FRAME_PERIOD as the holding job's
admission found them; where the state block lies, since STREAM_OPEN. -/
structure EncStream where
  reqDone : Nat := 0
  posts : List (Nat × Nat) := []
  slots : BitVec 4 := 0
  frame : Option EncFrame := none
  consumed : Nat := 0
  params : Nat := 0
  period : Nat := 0
  block : Option Nat := none
  deriving DecidableEq, Repr

/-- The hub's record of a stream (R364, R365). -/
structure Stream where
  sstate : SState := .free
  endCode : Byte := 0
  holderQp : Half := 0xFFFF
  holderJob : JobId := 0
  late : Word := 0
  enc : EncStream := {}
  deriving DecidableEq, Repr

/-! ## Stacks and Caravan (06, 07) -/

/-- STACK_STATE of Table 6-7 and the stack's counts. -/
structure Stack where
  fence : Nat := 0
  ce : Quad := 0
  ue : Quad := 0
  retries : Quad := 0
  training : Nat := 0
  trained : Bool := false
  deriving DecidableEq, Repr

inductive SlotState where
  | free
  | writing
  | sealed
  | erasing
  deriving DecidableEq, Repr

inductive FrameState where
  | empty
  | filling
  | ready
  | released
  deriving DecidableEq, Repr

/-- A frame of a layer-streaming window (R186): its tag, the stream codewords that have arrived, the objects FAILED, those being rewritten
(Table 7-5). -/
structure Frame where
  state : FrameState := .empty
  tag : Option (Nat × Nat) := none
  got : List Nat := []
  failed : List Nat := []
  rewrite : List Nat := []
  deriving DecidableEq, Repr

/-- A physical weight slot (07). `stream` is its byte stream in flash; `frames` its window, `present`, `failedObj` and
`demand` its on-demand objects, `rewrite` those being rewritten (Table 7-5); `owner` says that an on-demand region is this slot's, among those whose ranges coincide (R197). -/
structure Slot where
  state : SlotState := .free
  degraded : Bool := false
  bytes : Nat := 0
  mask : BitVec 128 := 0
  stream : Mem := {}
  written : List (Nat × Nat) := []
  bad : List Nat := []
  sealing : Bool := false
  modelId : Quad := 0
  modelVersion : Word := 0
  configured : Bool := false
  window : Nat := 0
  refs : Nat := 0
  depth : Nat := 3
  nextOrd : Nat := 0
  relOrd : Nat := 0
  frames : AMap Frame := []
  present : List Nat := []
  failedObj : List Nat := []
  demand : List Nat := []
  got : List Nat := []
  rewrite : List Nat := []
  owner : Bool := false
  deriving DecidableEq, Repr

/-- A flash channel (Table 7-10). `cycles` are the programme and erase cycles of its most worn block (R174). -/
structure FlashChannel where
  fence : Nat := 0
  retries : Quad := 0
  ue : Quad := 0
  cycles : Nat := 0
  deriving DecidableEq, Repr

/-! ## Rooms (09) -/

/-- A pool as latched at module reset (R226, R227): 0 OFF, 1 SERVING, 2 REFUSED. -/
structure Pool where
  size : Nat := 0
  state : Nat := 0
  base : List Nat := []
  rooms : List Nat := []
  deriving DecidableEq, Repr

/-- A vacancy list of a pool and a stack: its free rooms, the booked part, and the parked streams in order (R226, R232,
R244). -/
structure Vacancy where
  free : List Nat := []
  booked : Nat := 0
  parked : List (Nat × Nat × Quad) := []
  deriving DecidableEq, Repr

/-! ## Ports and exchange (13, 14) -/

inductive PortState where
  | off
  | training
  | up
  | down
  | draining
  | fenced
  deriving DecidableEq, Repr

/-- An optical port (13). `bulkLeft` counts the flits of the BULK_SEND message being sent that have not left; `asmE` and `asmB` are
the flits of a message that have drained from the buffers while the message is not whole (R316); `ctrlIgnored` counts the records
of reserved types (Table 13-2); `testFails` says that the optical engine fails its next self-test (R319, R328); `resendRuns` counts, by
SEQ, how often each frame of the replay buffer has been resent (R320); `inFlight` names the exchange operations, by core, ordinal and job,
that were in flight when the port began to drain (R322); `ctrlHeld` holds the barrier records that wait for the port to be UP (R350). -/
structure Port where
  state : PortState := .off
  fault : Nat := 0
  lanesOk : BitVec 16 := 0
  peerSerial : Quad := 0
  peerPort : Byte := 0xFF
  peerMember : Byte := 0
  fencedCmd : Bool := false
  fencedBist : Bool := false
  fecCorrected : Quad := 0
  fecUncorrected : Quad := 0
  resends : Quad := 0
  downs : Quad := 0
  starvations : Quad := 0
  unmatched : Quad := 0
  txSeq : BitVec 12 := 0
  rxSeq : BitVec 12 := 0
  nakDue : Bool := false
  replay : List PortFrame := []
  resend : List PortFrame := []
  resendRuns : AMap Nat := []
  creditE : Nat := 0
  creditB : Nat := 0
  owedE : Nat := 0
  owedB : Nat := 0
  rxE : List (BitVec 2048) := []
  rxB : List (BitVec 2048) := []
  txE : List (BitVec 2048) := []
  txB : List (BitVec 2048) := []
  bulkLeft : Nat := 0
  ctrlIn : List (BitVec 256) := []
  ctrlOut : List (BitVec 256) := []
  ctrlHeld : List (BitVec 256) := []
  asmE : List (BitVec 2048) := []
  asmB : List (BitVec 2048) := []
  ctrlIgnored : Quad := 0
  testFails : Bool := false
  inFlight : List (CoreId × Word × JobId) := []
  deriving DecidableEq, Repr

inductive Bypass where
  | through
  | joined
  | moving (toJoined : Bool)
  deriving DecidableEq, Repr

/-- A ring's bypass switch (R326). `leaving` holds while its ports drain for a leave (R329). -/
structure Ring where
  bypass : Bypass := .through
  leaving : Bool := false
  moves : Quad := 0
  autos : Quad := 0
  deriving DecidableEq, Repr

/-- GROUP_STATE (Table 14-6); HELD is kept as the holder. -/
structure Group where
  aborted : Bool := false
  holder : Option JobId := none
  deriving DecidableEq, Repr

structure ExKey where
  tag : Word
  xseq : Half
  level : Nat
  src : Nat
  off : Nat
  deriving DecidableEq, Repr

/-- An accepted part: its key, kind, group size, opcode and data (R346). -/
structure ExPart where
  key : ExKey
  kind : Nat
  size : Nat
  opc : Nat
  bytes : List Byte
  deriving DecidableEq, Repr

/-- An exchange operation open on a die (R337–R348): its identity, its issuer, the bytes of its whole vector, whether its
exchange part is issued (R347), the stage it is at (0 while it reduces), what the die holds of the vector, and the output so far of
each of its reduce stages, segment by segment (R344). -/
structure ExOp where
  die : Nat
  tag : Word
  xseq : Half
  group : Nat
  opc : Byte
  level : Nat
  core : CoreId
  ord : Word
  job : JobId
  total : Nat
  int32 : Bool := false
  begun : Bool := false
  stage : Nat := 0
  vec : List Byte := []
  accs : List (List Byte) := []
  segOpen : Bool := false
  finished : Bool := false
  sentOn : List Nat := []
  deriving DecidableEq, Repr

/-- A relay under way (R218, R219), how much of each step has landed, and the block of each step: the length of its first message that
does not end the shard. -/
structure Relay where
  group : Nat
  tag : Word
  level : Nat
  job : JobId
  xaddr : Nat
  arriveId : Half
  base : Half
  shard : Nat
  units : Nat
  n : Nat
  rank : Nat
  begun : List Nat := []
  forwarded : List Nat := []
  landed : AMap Nat := []
  blocks : AMap Nat := []
  deriving DecidableEq, Repr

/-- An exchange barrier record held for its round (R350): group tag, channel, kind, level, round, port. -/
structure XRecord where
  tag : Word
  chan : Nat
  kind : Nat
  level : Nat
  round : Word
  port : Nat
  deriving DecidableEq, Repr

/-! ## Porter, Ledger, security, self-test (18–21) -/

/-- The path a request came by (R428, R471). -/
inductive Path where
  | mailbox
  | field
  deriving DecidableEq, Repr

/-- A record of a request (Table 18-2). -/
structure Req where
  index : Nat
  sub : Nat
  rop : Nat
  length : Nat
  offset : Nat
  total : Nat
  value : List Byte
  deriving DecidableEq, Repr

/-- A record's answer. -/
structure Resp where
  index : Nat
  sub : Nat
  rop : Nat
  status : Nat
  detail : Nat
  offset : Nat
  total : Nat
  value : List Byte
  deriving DecidableEq, Repr

/-- The request or handshake frame the porter is serving: its records left, and the answers so far. -/
structure InFrame where
  path : Path
  kind : Byte
  session : Word
  txn : Half
  more : Bool
  multicast : Bool
  recs : List Req
  resps : List Resp := []
  payload : List Byte := []
  peer : Peer := {}
  deriving DecidableEq, Repr

/-- A frame that has arrived and waits for its turn (R429): its path, whether it came to ff02::1, whence, its bytes. -/
structure Inbound where
  path : Path
  multicast : Bool
  peer : Peer
  bytes : List Byte
  deriving DecidableEq, Repr

/-- A write whose segments are being staged (R422): its entry, TOTAL, the bytes so far. -/
structure StagedWrite where
  index : Nat
  sub : Nat
  total : Nat
  bytes : List Byte
  deriving DecidableEq, Repr

/-- An open session (R425, R470–R473): the operator key it was opened with, and where its latest frame came from. -/
structure Session where
  num : Word
  path : Path
  opKey : List Byte
  key : List Byte
  inCtr : Nat
  outCtr : Nat
  kept : List (Half × List Resp)
  staged : List StagedWrite := []
  peer : Peer := {}
  deriving DecidableEq, Repr

/-- A handshake under way (R470, R471). -/
structure Handshake where
  num : Word
  path : Path
  keySlot : Nat
  transcript : List Byte
  key : List Byte
  txn : Half := 0
  peer : Peer := {}
  deriving DecidableEq, Repr

/-- The first of a HELLO's two frames, until the second has come (R470, R471). -/
structure PartHello where
  path : Path
  peer : Peer
  txn : Half
  payload : List Byte
  deriving DecidableEq, Repr

/-- A command that answered ACCEPTED (R424): its ticket, entry, path, session, parameters. -/
structure RunCmd where
  ticket : Word
  index : Nat
  sub : Nat
  path : Path
  session : Word
  params : List Byte
  progress : Nat := 0
  arrived : List (Nat × Nat) := []
  deriving DecidableEq, Repr

/-- A command result (Table 18-4). -/
structure CmdResult where
  ticket : Word
  index : Nat
  sub : Nat
  status : Nat
  detail : Nat
  result : Nat
  deriving DecidableEq, Repr

/-- The steward's profile (R416); `format` is the profile format it was written in (R417): the firmware of this model knows format 1. -/
structure Profile where
  depths : AMap Nat := []
  sites : AMap Nat := []
  relayLog : AMap Nat := []
  lastOp : Nat := 3
  estDraw : Nat := 0
  format : Nat := 1
  deriving DecidableEq, Repr

/-- A persisted entry record (R433). -/
structure LedgerRec where
  index : Nat
  sub : Nat
  ty : Nat
  value : Nat
  length : Nat
  deriving DecidableEq, Repr

/-- A Ledger image (R433, Table 18-4b): its header's MAGIC, FORMAT and GENERATION, whether its CRC checks, its records (those of entries
that the firmware that wrote it did not define apart), its profile and keys with the lengths of their sections; `misrs` holds the
expected signatures of a factory ledger, by kind of sub-unit and mode (R476). -/
structure LedgerImage where
  gen : Nat
  magic : Nat := 0x4C47
  format : Nat := 1
  crcOk : Bool := true
  entries : List LedgerRec := []
  unknown : List LedgerRec := []
  profile : Option Profile := none
  profileLen : Nat := 0
  profileGen : Nat := 0
  keys : AMap (List Byte) := []
  keysLen : Nat := 0
  misrs : AMap Quad := []
  writer : Word := 0
  bytes : Nat := 64
  deriving DecidableEq, Repr

/-- A queued Ledger write (R434, R468). -/
inductive LedgerOp where
  | commit (ticket : Word)
  | restore (ticket : Word) (scope : Nat)
  | profile
  | keys
  deriving DecidableEq, Repr

/-- A firmware bank of the NOR (R432, R453, R461): staged bytes, stage state of Table 19-8, its header's fields, and the entries of the
manual that its image does not define (R438). -/
structure FwBank where
  bytes : Mem := {}
  stage : Nat := 0
  version : Word := 0
  epochCur : Half := 0
  epochPrev : Half := 0
  svn : Byte := 0
  bodyBytes : Nat := 0
  omits : List (Nat × Nat) := []
  deriving DecidableEq, Repr

/-- A firmware activation under way (R455). -/
structure Activation where
  ticket : Word
  bank : Nat
  paused : Bool := false
  deriving DecidableEq, Repr

/-- A BIST run in progress (R478, R479). -/
structure BistRun where
  target : Nat
  mode : Nat
  kind : Nat
  ticket : Word
  deriving DecidableEq, Repr

/-- An error-log record (Table 21-4). -/
structure LogRec where
  seq : Word
  stamp : Quad
  event : Nat
  code : Nat
  unit : Nat
  detail : BitVec 128
  deriving DecidableEq, Repr

/-- The first 32 bytes of LAST_FAULT (Table 15-14). -/
structure FaultRec where
  seq : Word := 0
  status : Byte := 0
  limit : Byte := 0
  cluster : Byte := 0
  core : Byte := 0
  job : JobId := 0
  ordinal : Word := 0
  stack : Byte := 0
  channel : Byte := 0
  unit : Word := 0
  deriving DecidableEq, Repr

/-- What leaves the module at its connectors, newest first in the state. -/
inductive OutMsg where
  | completion (pair : Nat) (slot : Nat) (entry : BitVec 256)
  | msix (vector : Nat)
  | datagram (d : Datagram)
  | frame (p : Nat) (f : PortFrame)
  | cxlData (line : Nat) (data : Desc) (poison : Bool)
  | cxlDone (line : Nat)
  | bisnp (line : Nat) (inv : Bool)
  | completerAbort (off : Nat)
  deriving DecidableEq, Repr

end Sys2Proof.Machine
end

