-- ==== Sys2Proof/Machine/State.lean ====
section
/-! DEFINITION. The state of the block, the outcomes of a step that are no next state, and the state after reset. Reset is
the module before 52 V enters its range for the first time (R445 step 1 has not begun): tier 0, both rings latched THROUGH
(R326), every block OFF (R407), every register at its default. -/

namespace Sys2Proof.Machine

/-- A step that stops the model. SAFE: no claim about a next state follows from it. No command of this block stops. -/
inductive Fault where
  /-- Raised by no command: undefined behaviour (R7) is a next state, a free one (log 131). SAFE. -/
  | undefinedBehaviour
  deriving DecidableEq, Repr

/-- A command without a meaning. SAFE. -/
inductive Refusal where
  /-- Raised by `exec` alone, for a row of the table that has no meaning yet. -/
  | notModelled (mnemonic : String)
  deriving DecidableEq, Repr

/-- Stacked memory and what guards it (06), and the rooms kept in it (09). `poison` lists the granules whose read is an
uncorrectable error, `flips` those with a single wrong bit, `parity` the repeats that the next transfer of a stack needs
(R156–R160); `snoop` the lines the host may hold, oldest first, `snoopShared` those of them it has answered a BISnpData for. -/
structure MemSys where
  mem : Mem := {}
  poison : List Nat := []
  flips : List Nat := []
  parity : AMap Nat := []
  stackRecs : AMap Stack := []
  scrubPos : AMap Nat := []
  snoop : List Nat := []
  snoopShared : List Nat := []
  snoopWait : List Nat := []
  bisnpIssued : Quad := 0
  scRoomMib : Nat := 12
  roomClusters : List Nat := []
  pools : AMap Pool := []
  vacancy : AMap Vacancy := []
  roomsLost : Word := 0
  deriving DecidableEq, Repr

/-- Caravan, the flash and the adapters (07). -/
structure Caravan where
  slots : AMap Slot := []
  channels : AMap FlashChannel := []
  adapterRefs : AMap Nat := []
  trainable : AMap JobId := []
  deriving DecidableEq, Repr

/-- Ports, rings and the exchange switch (13, 14), and the relays (08). RELAY_BLOCK_IN_EFFECT before any forward is the built-in seed of
R417, 4 MiB (DEDUCED, log 54). -/
structure Net where
  ports : AMap Port := []
  rings : AMap Ring := []
  groups : AMap Group := []
  ops : List ExOp := []
  early : List ExPart := []
  keys : List ExKey := []
  retired : List (Word × Half) := []
  dieIn : AMap (List (BitVec 2048)) := []
  relays : List Relay := []
  xheld : List XRecord := []
  operations : Quad := 0
  dups : Quad := 0
  stale : Quad := 0
  abortsSent : Quad := 0
  abortsReceived : Quad := 0
  xbarRounds : Quad := 0
  relayForwards : Quad := 0
  relayBlock : Nat := 4194304
  deriving DecidableEq, Repr

/-- The MSI-X table after a CXL reset: 64 entries of 16 bytes, each masked (log 22). -/
def msixReset : Mem := { cells := (List.range 64).map (fun n => (16 * n + 12, 1#8)) }

/-- Pairs, jobs, streams and the fault sweep (15). `turn` is the pair that the round-robin visits next (R359). -/
structure Hub where
  pairs : AMap Pair := []
  turn : Nat := 0
  jobs : List Job := []
  streams : AMap Stream := []
  admitCount : Nat := 0
  completionSeq : Word := 0
  sweeping : Bool := false
  swept : Bool := false
  sweepJob : Option JobId := none
  sweepCause : Byte := 0
  lastFault : FaultRec := {}
  sweeps : Quad := 0
  cancelled : Quad := 0
  flrPending : Bool := false
  pausedAdmission : Bool := false
  msixTable : Mem := msixReset
  msixPending : Quad := 0
  cxlRegs : Mem := {}
  deriving DecidableEq, Repr

/-- Clocks, enables, input power and the steward (17). `vddDiv` is the divider whose voltage VDD_ARITH is at (R403), `pins` the input power
of the latest ten samples, newest first (R412); `late` and `queued` say what step 3 of R415 asks of the window in progress, `lateLast`
and `queuedLast` of the last one; `throttled` says that a die has been at its threshold and not every die is 5 °C below it, `throttledLast`
that this was so at a sample since the last period (R415 step 5). -/
structure Power where
  rootLocked : Bool := false
  arithDiv : Nat := 12
  vddDiv : Nat := 12
  fabricDiv : Nat := 4
  ctrlDiv : Nat := 16
  opTarget : Nat := 3
  blocks : AMap Nat := []
  drainFrom : AMap Nat := []
  vinMv : Word := 0
  iinMa : Word := 0
  pinW : Word := 0
  avgW : Word := 0
  pins : List Nat := []
  energyMj : Quad := 0
  capExceeded : Quad := 0
  temps : List (BitVec 16) := []
  holdDispatch : Bool := false
  throttled : Bool := false
  throttledLast : Bool := false
  profile : Profile := {}
  profileState : Nat := 0
  profileSavedAt : Quad := 0
  windowMs : Nat := 0
  windowPassed : Bool := false
  siteTally : AMap (Nat × Nat) := []
  late : Bool := false
  queued : Bool := false
  lateLast : Bool := false
  queuedLast : Bool := false
  wstallCycles : AMap Nat := []
  wstallWaits : AMap Nat := []
  deriving DecidableEq, Repr

/-- The encoders (16). -/
structure Encoders where
  fencedCmd : BitVec 4 := 0
  fencedBist : BitVec 4 := 0
  fenceDrain : BitVec 4 := 0
  tiles : AMap Quad := []
  posts : Nat := 0
  capMisses : Quad := 0
  deriving DecidableEq, Repr

/-- The factory ledger as this module left manufacture (log 99): SERIAL, CXL_VENDOR_ID, HW_STEPPING and MGMT_MAC (Table 18-8). -/
def factoryLedger : LedgerImage :=
  { gen := 1, bytes := 120
    entries := [⟨0x0100, 4, 5, 1, 8⟩, ⟨0x0100, 5, 3, 1, 2⟩, ⟨0x0100, 9, 2, 0, 1⟩, ⟨0x0108, 2, 11, 0x010000000002, 6⟩] }

/-- The porter: dictionary values, mailbox, sessions, commands, Ledger, keys, log (18, 20, 21). -/
structure Porter where
  vals : AMap Nat := []
  current : Option InFrame := none
  inbox : List Inbound := []
  reqArea : Mem := {}
  respArea : List Byte := []
  mbBusy : Bool := false
  mbDone : Bool := false
  mbResult : Bool := false
  framesDropped : Quad := 0
  nodeId : BitVec 5 := 0
  plca : Bool := true
  sessions : List Session := []
  shakes : List Handshake := []
  partHellos : List PartHello := []
  usedSessions : List Word := []
  closeAfter : List (List Byte) := []
  cmds : List RunCmd := []
  results : List CmdResult := []
  nextTicket : Word := 1
  bank0 : Option LedgerImage := none
  bank1 : Option LedgerImage := none
  factory : Option LedgerImage := some factoryLedger
  restorePending : Bool := false
  ledgerWrites : Quad := 0
  ledgerSkipped : Half := 0
  ledgerQueue : List LedgerOp := []
  ledgerImage : Option LedgerImage := none
  keys : AMap (List Byte) := []
  keysPending : Bool := false
  keysRetry : Nat := 0
  fusedSvn : Nat := 0
  reports : AMap (List Byte) := []
  challenge : List Byte := []
  debug : Nat := 0
  log : List LogRec := []
  logSeq : Word := 0
  alertPin : Bool := false
  alertSeq : Word := 0
  bist : List BistRun := []
  bistResults : AMap (BitVec 256) := []
  rollingNext : Nat := 0
  bwCounts : AMap Quad := []
  bwLatched : AMap Quad := []
  bwLog2 : Nat := 24
  windowSeq : Quad := 0
  portCtr : AMap Quad := []
  viewBase : Nat := 0
  viewBytes : Nat := 0
  grant : Nat := 0
  deriving DecidableEq, Repr

/-- Pins, resets and start-up (19, 22). -/
structure Boot where
  vin : Bool := false
  refclk : Bool := true
  perst : Bool := true
  strap : BitVec 5 := 0
  porterStarted : Bool := false
  porterRuns : Bool := false
  recovery : Bool := false
  inReset : Bool := true
  hub0 : Bool := false
  hub1 : Bool := false
  flashReady : Bool := false
  ready : Bool := false
  cxlUp : Bool := false
  keptTraining : BitVec 8 := 0
  resetCause : Byte := 0
  resetDetail : Byte := 0
  resetCount : Word := 0
  startMs : Word := 0
  resetAfter : Bool := false
  fallback : Bool := false
  stops : Quad := 0
  preparing : Bool := false
  removalReady : Bool := false
  removalSave : Bool := false
  banks : AMap FwBank := []
  bootBank : Nat := 0
  fwBank : Nat := 0
  activation : Option Activation := none
  deriving DecidableEq, Repr

/-- The whole block. `pacing` is the pacing counter (R25); `draws` counts the free values drawn (the model's own); `out`
is what has left at the connectors, newest first (the model's own); `pending` is the queue of commands. -/
structure State where
  pacing : Quad := 0
  clusters : AMap Cluster := []
  cores : AMap Core := []
  ms : MemSys := {}
  car : Caravan := {}
  net : Net := {}
  hub : Hub := {}
  pwr : Power := {}
  enc : Encoders := {}
  por : Porter := {}
  boot : Boot := {}
  draws : Nat := 0
  out : List OutMsg := []
  pending : List Instr := []
  deriving DecidableEq, Repr

/-- The factory-loaded image of bank A (log 7), laid out by R461: MAGIC 0x4657, FORMAT 1, its version, epochs, SVN and body length in
the header, zero bytes where R461 has them; its key, signature and body are free. Its state is VERIFIED. -/
def State.factoryBank : FwBank :=
  { bytes := { cells := [(0, 0x57), (1, 0x46), (2, 1), (7, 1), (8, 1), (16, 1)]
               free := [⟨64, 1857, 0⟩, ⟨2048, 3328, 0⟩, ⟨4096, 4097, 0⟩] }, stage := 2, version := 0x01000000, epochCur := 1, epochPrev := 0, svn := 0, bodyBytes := 1 }

/-- The module before its first power-on: no supply, latches THROUGH, everything else at its default. -/
def State.reset : State := { boot := { banks := [(0, State.factoryBank)] }, draws := 1 }

end Sys2Proof.Machine
end

