-- ==== Sys2Proof/Machine/MapOps.lean ====
section
/-! DEFINITION. Operations over sparse maps and over byte memories. -/

namespace Sys2Proof.Machine

/-- The value at a key, or the default. -/
def mget {α : Type} (d : α) : AMap α → Nat → α
  | [], _ => d
  | (k, v) :: m, i => if k = i then v else mget d m i

/-- Replace or insert the value at a key, keys rising. -/
def mset {α : Type} (m : AMap α) (i : Nat) (v : α) : AMap α :=
  match m with
  | [] => [(i, v)]
  | (k, w) :: rest => if k = i then (i, v) :: rest else if i < k then (i, v) :: (k, w) :: rest else (k, w) :: mset rest i v

/-- Remove a key. -/
def mdel {α : Type} (m : AMap α) (i : Nat) : AMap α := m.filter (fun p => decide (p.1 ≠ i))

/-- Apply a function to the value at a key. -/
def mmod {α : Type} (d : α) (m : AMap α) (i : Nat) (f : α → α) : AMap α := mset m i (f (mget d m i))

/-- Every key below `n`, its value replaced. -/
def mmodAll {α : Type} (d : α) (n : Nat) (f : Nat → α → α) (m : AMap α) : AMap α :=
  (List.range n).foldl (fun m i => mmod d m i (f i)) m

/-! ## Byte memories -/

/-- Whether a free range covers an address. -/
def FreeRange.has (r : FreeRange) (a : Nat) : Bool := decide (r.lo ≤ a) && decide (a < r.hi)

/-- The stamp of the first free range that covers an address. -/
def Mem.stampAt (m : Mem) (a : Nat) : Option Nat := (m.free.find? (fun r => r.has a)).map FreeRange.stamp

/-- The listed byte at an address. -/
def cellAt : List Host.Cell → Nat → Option Byte
  | [], _ => none
  | (k, v) :: m, a => if k = a then some v else cellAt m a

/-- What an address reads as: its cell, else the free byte of its range, else zero. -/
def Mem.read (m : Mem) (a : Nat) : Byte :=
  match cellAt m.cells a with
  | some v => v
  | none => match m.stampAt a with
    | some t => Config.freeByte t a
    | none => 0

/-- Take the addresses `[lo, hi)` out of a free range. -/
def FreeRange.cut (lo hi : Nat) (r : FreeRange) : List FreeRange :=
  if hi ≤ r.lo ∨ r.hi ≤ lo then [r]
  else (if r.lo < lo then [{ r with hi := lo }] else []) ++ (if hi < r.hi then [{ r with lo := hi }] else [])

/-- Insert or replace a cell, addresses rising. -/
def setCell (cs : List Host.Cell) (a : Nat) (v : Byte) : List Host.Cell :=
  match cs with
  | [] => [(a, v)]
  | (k, w) :: rest => if k = a then (a, v) :: rest else if a < k then (a, v) :: (k, w) :: rest else (k, w) :: setCell rest a v

/-- Write one byte. Writing zero removes the cell: zero is what an unlisted byte outside the free ranges reads as. -/
def Mem.write (m : Mem) (a : Nat) (v : Byte) : Mem :=
  { cells := if v = 0 then m.cells.filter (fun c => decide (c.1 ≠ a)) else setCell m.cells a v,
    free := m.free.flatMap (FreeRange.cut a (a + 1)) }

/-- Zero the bytes of `[lo, hi)` (R162, R369). -/
def Mem.zero (m : Mem) (lo hi : Nat) : Mem :=
  { cells := m.cells.filter (fun c => decide (c.1 < lo) || decide (hi ≤ c.1)),
    free := m.free.flatMap (FreeRange.cut lo hi) }

/-- Leave the bytes of `[lo, hi)` unspecified. -/
def Mem.forget (m : Mem) (lo hi stamp : Nat) : Mem :=
  let z := m.zero lo hi
  { z with free := if lo < hi then ⟨lo, hi, stamp⟩ :: z.free else z.free }

/-- The `n` bytes from an address. -/
def Mem.readBytes (m : Mem) (a n : Nat) : List Byte := (List.range n).map (fun i => m.read (a + i))

/-- Write bytes from an address upward. -/
def Mem.writeBytes (m : Mem) (a : Nat) (bs : List Byte) : Mem :=
  match bs with
  | [] => m
  | b :: rest => (m.write a b).writeBytes (a + 1) rest

/-- The number that bytes spell, the lowest address least significant (R10). -/
def leNat : List Byte → Nat
  | [] => 0
  | b :: rest => b.toNat + 256 * leNat rest

/-- The `n` little-endian bytes of a number (R10). -/
def leBytes : Nat → Nat → List Byte
  | 0, _ => []
  | n + 1, v => BitVec.ofNat 8 v :: leBytes n (v / 256)

/-- The number at an address, `n` bytes. -/
def Mem.readLE (m : Mem) (a n : Nat) : Nat := leNat (m.readBytes a n)

/-- Store a number at an address, `n` bytes. -/
def Mem.writeLE (m : Mem) (a n v : Nat) : Mem := m.writeBytes a (leBytes n v)

/-- Bits `[hi:lo]` of a number: a field of a record (R11). -/
def bits (v hi lo : Nat) : Nat := (v / 2 ^ lo) % 2 ^ (hi + 1 - lo)

/-- Bit `i` of a number. -/
def bit (v i : Nat) : Bool := v.testBit i

/-- Put a field into a number whose bits `[hi:lo]` are replaced. -/
def putBits (v hi lo x : Nat) : Nat :=
  v - bits v hi lo * 2 ^ lo + (x % 2 ^ (hi + 1 - lo)) * 2 ^ lo

/-- The canonical form of a memory: cells rise, none is zero, and none lies in a free range. -/
def Mem.wf (m : Mem) : Bool :=
  decide (m.cells.Pairwise (fun a b => a.1 < b.1)) &&
  m.cells.all (fun c => decide (c.2 ≠ 0) && m.free.all (fun r => !r.has c.1))

/-- Whether two ranges `[a, a+n)` and `[b, b+k)` meet. -/
def meets (a n b k : Nat) : Bool := decide (0 < n) && decide (0 < k) && decide (a < b + k) && decide (b < a + n)

/-- Whether `[a, a+n)` lies inside `[b, b+k)`. -/
def within (a n b k : Nat) : Bool := decide (b ≤ a) && decide (a + n ≤ b + k)

/-- Ceiling division. -/
def cdiv (a b : Nat) : Nat := (a + b - 1) / b

end Sys2Proof.Machine
end

