-- ==== Sys2Proof/Machine/DictTable.lean ====
section
/-! DEFINITION. The object dictionary's entries (R426–R428): index, subindices, type, access, audience, default and range of
every entry of the tables of 02 to 21, in the order of Table 18-7. Subindex 0 of every index is the rule of R426. -/

namespace Sys2Proof.Machine

inductive Access where
  | const
  | ro
  | rw
  | wo
  deriving DecidableEq, Repr

/-- A row of an entry table: indices `[idx, idx + n)`, subindices `[sub, subHi]`, the type code of Table 18-3, persistable,
audiences H, F, U, the session mark, the default and the range of a value. -/
structure DEntry where
  idx : Nat
  n : Nat
  sub : Nat
  subHi : Nat
  ty : Nat
  acc : Access
  p : Bool
  h : Bool
  f : Bool
  u : Bool
  sess : Bool
  dflt : Nat
  lo : Nat
  hi : Nat
  deriving DecidableEq, Repr

/-- Bytes of a value of a fixed-size type (Table 18-3); none for STR and BLOB. -/
def tyBytes : Nat → Option Nat
  | 1 => some 1 | 2 => some 1 | 3 => some 2 | 4 => some 4 | 5 => some 8
  | 6 => some 2 | 7 => some 4 | 8 => some 4 | 9 => some 1 | _ => none

/-- CONST with audience H/F/U. -/
def dConst (i s ty v : Nat) : DEntry := ⟨i, 1, s, s, ty, .const, false, true, true, true, false, v, 0, 0⟩
/-- CONST with audience H/F. -/
def dConstHF (i s ty v : Nat) : DEntry := ⟨i, 1, s, s, ty, .const, false, true, true, false, false, v, 0, 0⟩
/-- RO with audience H/F/U, over a span of indices and subindices. -/
def dRoU (i n s e ty : Nat) : DEntry := ⟨i, n, s, e, ty, .ro, false, true, true, true, false, 0, 0, 0⟩
/-- RO with audience H/F. -/
def dRo (i n s e ty : Nat) : DEntry := ⟨i, n, s, e, ty, .ro, false, true, true, false, false, 0, 0, 0⟩
/-- RW P, H/F, session. -/
def dRw (i n s e ty d lo hi : Nat) : DEntry := ⟨i, n, s, e, ty, .rw, true, true, true, false, true, d, lo, hi⟩
/-- WO, H/F, session. -/
def dWo (i s ty : Nat) : DEntry := ⟨i, 1, s, s, ty, .wo, false, true, true, false, true, 0, 0, 2 ^ 64 - 1⟩

def max16 : Nat := 65535
def max32 : Nat := 4294967295
def max64 : Nat := 18446744073709551615

/-- 0x0100–0x02FF: identity, field network, service, numerics (Tables 18-8, 19-8, 2-5). -/
def dictService : List DEntry := [
  dConst 0x0100 1 10 0, dConst 0x0100 2 10 0, dConst 0x0100 3 9 3, dConst 0x0100 4 5 0, dConst 0x0100 5 3 0,
  dRoU 0x0100 1 6 6 4, dRoU 0x0100 1 7 7 3, dRoU 0x0100 1 8 8 9, dConst 0x0100 9 2 0, dConst 0x0100 10 2 1,
  dRo 0x0108 1 1 1 2, dConstHF 0x0108 2 11 0, dRw 0x0108 1 3 3 1 1 0 1, dRw 0x0108 1 4 4 2 33 1 254,
  dConstHF 0x0108 5 3 5411, dRo 0x0108 1 6 6 5,
  dRoU 0x0200 1 1 1 2, dRoU 0x0200 1 2 2 9, dRo 0x0200 1 3 3 3, dRo 0x0200 1 4 4 2, dRo 0x0200 1 5 6 4,
  dRo 0x0200 1 7 7 2, dRo 0x0200 1 8 8 5, dRo 0x0201 1 1 8 9, dWo 0x0202 1 1,
  ⟨0x0202, 1, 2, 2, 1, .rw, false, true, true, false, true, 0, 0, 1⟩,
  dWo 0x0204 1 11, dWo 0x0204 2 11, dWo 0x0204 3 1, dRo 0x0204 1 4 4 9, dWo 0x0204 5 2,
  dRw 0x0204 1 6 6 3 600 0 3600, dRoU 0x0204 1 7 7 9,
  dRoU 0x0210 1 1 2 3, dRw 0x0210 1 3 3 3 0 0 max16, dRoU 0x0210 1 4 4 3, dRw 0x0210 1 5 5 1 1 0 1, dConst 0x0210 6 2 32]

/-- 0x0400–0x05FF: clocks, enables, power, steward (Table 17-8). -/
def dictPower : List DEntry := [
  dConst 0x0400 1 4 100000000, dConst 0x0400 2 5 11200000000, dRoU 0x0400 1 3 3 1, dRoU 0x0400 1 4 4 9,
  dRoU 0x0400 1 5 5 2, dRo 0x0400 1 6 7 2, dRw 0x0400 1 8 8 2 8 2 64,
  ⟨0x0401, 1, 1, 1, 2, .rw, false, false, true, false, true, 0, 8, 64⟩,
  ⟨0x0401, 1, 2, 2, 2, .rw, false, false, true, false, true, 0, 4, 16⟩,
  ⟨0x0401, 1, 3, 3, 2, .rw, false, false, true, false, true, 0, 16, 64⟩,
  dRw 0x0410 1 1 1 5 0xFFFFFFFFFF 0 max64, dRoU 0x0411 1 1 40 9,
  dRoU 0x0500 1 1 4 4, dRoU 0x0500 1 5 5 5, dRw 0x0500 1 6 6 3 2800 600 2800, dRoU 0x0500 1 7 7 3,
  dRo 0x0500 1 8 8 5, dRo 0x0500 1 9 9 2, dRoU 0x0508 1 1 6 6,
  dRw 0x0510 1 1 1 9 0 0 1, dRw 0x0510 1 2 2 9 1 1 4, dRw 0x0510 1 3 3 9 4 1 4, dRw 0x0510 1 4 4 9 0 0 4,
  dRw 0x0510 1 5 5 3 100 10 1000, dRw 0x0510 1 6 6 3 10 1 600, dRw 0x0510 1 7 7 2 10 1 100,
  dRw 0x0510 1 8 8 4 200 1 60000, dRw 0x0510 1 9 9 2 95 70 105, dRo 0x0510 1 10 10 9, dRo 0x0510 1 11 11 4,
  dWo 0x0518 1 1, dWo 0x0518 2 1, dRo 0x0520 1 1 16 5]

/-- 0x0800–0x0AFF: memory, Caravan, slots, adapters (Tables 6-7, 7-10). -/
def dictMemory : List DEntry := [
  dConst 0x0800 1 2 8, dConst 0x0800 2 5 137438953472, dConst 0x0800 3 3 128, dConst 0x0800 4 3 2048,
  dConst 0x0800 5 2 32, dConst 0x0800 6 4 50331648,
  dRw 0x0801 1 1 1 2 8 1 15, dRw 0x0801 1 2 2 4 65536 0 max32, dRw 0x0801 1 3 3 3 16 1 max16, dRw 0x0801 1 4 4 2 12 0 16,
  dRo 0x0808 1 1 8 9, dRo 0x0809 3 1 8 5, dConstHF 0x0810 1 5 1099511627776, dConstHF 0x0810 2 4 4194304,
  dRo 0x0810 1 3 3 5,
  dConst 0x0900 1 2 128, dConst 0x0900 2 5 15360000000000, dRo 0x0900 1 3 3 5, dConst 0x0900 4 3 4096,
  dRw 0x0901 1 1 1 2 6 1 15, dRw 0x0901 1 2 2 4 500 10 60000, dRw 0x0901 1 3 3 2 2 2 8, dRw 0x0901 1 4 4 2 8 2 8,
  dRw 0x0901 1 5 5 2 8 0 64,
  dRo 0x0908 1 1 128 9, dRo 0x0909 2 1 128 5, dRo 0x090B 1 1 128 2,
  dRo 0x0910 16 1 1 9, dRo 0x0910 16 2 2 1, dRo 0x0910 16 3 3 5, dRo 0x0910 16 4 4 11, dRoU 0x0910 16 5 5 5,
  dRoU 0x0910 16 6 6 4, dRw 0x0910 16 7 7 9 0 0 1, dRw 0x0910 16 8 8 5 0 0 max64, dRw 0x0910 16 9 9 2 3 2 8,
  dRo 0x0910 16 10 10 9, dRo 0x0910 16 11 11 3, dRo 0x0910 16 12 12 2,
  dRw 0x0920 1 1 16 2 0 0 15,
  dWo 0x0930 1 11, dWo 0x0930 2 11, dWo 0x0930 3 11, dWo 0x0930 4 11, dWo 0x0930 5 2, dWo 0x0930 6 2,
  dRw 0x0A00 1 1 1 5 0 0 max64, dWo 0x0A00 2 11, dWo 0x0A00 3 3, dRoU 0x0A00 1 4 4 3]

/-- 0x0C00–0x0CFF: scheduling, core, mapping, SFU, convolution limits (Tables 15-14, 3-11, 5-4, 10-4, 11-4). -/
def dictJobs : List DEntry := [
  dRw 0x0C00 1 1 1 5 0 0 max64, dConst 0x0C00 2 3 256, dConst 0x0C00 3 3 4096, dConst 0x0C00 4 2 64,
  dConst 0x0C00 5 4 110624768, dConst 0x0C00 6 4 65536, dRoU 0x0C08 1 1 12 9, dWo 0x0C0C 1 2, dWo 0x0C0C 2 2,
  dRo 0x0C10 1 1 1 5, dRo 0x0C10 1 2 2 11, dRo 0x0C10 1 3 3 5,
  dConst 0x0C20 1 4 6291456, dConst 0x0C20 2 4 524288, dConst 0x0C20 3 4 4194304, dConst 0x0C20 4 2 16,
  dConst 0x0C20 5 3 512, dConst 0x0C20 6 3 4096, dConst 0x0C20 7 2 16, dConst 0x0C20 8 2 64, dConst 0x0C20 9 2 16,
  dConst 0x0C20 10 3 1024,
  dConst 0x0C30 1 2 16, dConst 0x0C30 2 3 8192, dConst 0x0C30 3 2 16, dConst 0x0C30 4 2 4, dConst 0x0C30 5 2 2,
  dConst 0x0C30 6 2 4, dConst 0x0C30 7 4 65536,
  dConst 0x0C40 1 3 256, dConst 0x0C40 2 2 2, dConst 0x0C40 3 2 96, dConst 0x0C40 4 1 1,
  dRoU 0x0C41 2 1 7 11, dRoU 0x0C43 1 1 7 3,
  dConst 0x0C50 1 2 7, dConst 0x0C50 2 2 16, dConst 0x0C50 3 2 4, dConst 0x0C50 4 2 8, dConst 0x0C50 5 2 7,
  dConst 0x0C50 6 2 16, dConst 0x0C50 7 4 262144, dConst 0x0C50 8 4 65536]

/-- 0x0D00–0x0EFF: rooms, reuse, tab (Tables 9-9, 12-5). -/
def dictRooms : List DEntry := [
  dRw 0x0D00 1 1 1 5 0 0 max64, dRw 0x0D00 1 2 2 4 16384 2048 16777216, dRw 0x0D00 1 3 3 4 50 1 60000,
  dRoU 0x0D00 1 4 4 4, dRo 0x0D00 1 5 7 4,
  dRw 0x0D10 4 1 1 9 0 0 3, dRw 0x0D10 4 2 9 5 0 0 max64, dRw 0x0D10 4 10 17 4 0 0 max32, dRo 0x0D10 4 18 33 4,
  dRo 0x0D10 4 34 34 9, dWo 0x0D30 1 11,
  dRw 0x0E00 1 1 2 5 0 0 max64, dRw 0x0E00 1 3 3 4 0 0 16777216, dRoU 0x0E00 1 4 4 4, dWo 0x0E00 5 11,
  dRw 0x0E10 1 1 1 1 1 0 1, dRw 0x0E10 1 2 2 2 8 1 8, dRw 0x0E10 1 3 3 3 1536 512 2048, dRoU 0x0E10 1 4 4 9,
  dConst 0x0E10 5 2 4, dConst 0x0E10 6 2 16, dRw 0x0E10 1 7 7 9 0 0 3, dRw 0x0E10 1 8 8 2 20 1 100,
  dRoU 0x0E20 1 1 16 9, dRo 0x0E30 1 1 5 5]

/-- 0x1000–0x14FF: ports, rings, exchange, relay, encoder (Tables 13-7, 14-6, 8-8, 16-7). -/
def dictPorts : List DEntry := [
  dConst 0x1000 1 2 8, dConst 0x1000 2 3 256, dConst 0x1000 3 2 8, dRw 0x1000 1 4 4 4 1000 100 60000,
  dRw 0x1000 1 5 5 4 100 1 60000, dRw 0x1000 1 6 6 4 100 1 60000, dRw 0x1000 1 7 7 2 16 1 255,
  dRw 0x1000 1 8 8 3 200 1 2000, dConst 0x1000 9 3 200,
  dRoU 0x1010 8 1 1 9, dRo 0x1010 8 2 2 9, dRo 0x1010 8 3 3 3, dRoU 0x1010 8 4 4 5, dRoU 0x1010 8 5 5 2,
  dRoU 0x1010 8 6 6 9, dRo 0x1010 8 7 12 5,
  dRw 0x1020 2 1 1 9 0 0 1, dRoU 0x1020 2 2 2 9, dRw 0x1020 2 3 3 1 1 0 1, dRo 0x1020 2 4 5 5,
  dWo 0x1030 1 11, dWo 0x1030 2 2, dWo 0x1030 3 2,
  dConst 0x1100 1 3 256, dConst 0x1100 2 2 16, dConst 0x1100 3 4 67108864, dConst 0x1100 4 4 16777216,
  dRw 0x1100 1 5 5 4 1000 10 600000, dRw 0x1108 1 1 8 5 0 0 max64,
  dRw 0x1110 2 1 128 11 0 0 0, dRoU 0x1120 2 1 128 9, dRo 0x1130 1 1 6 5,
  dRw 0x1140 1 1 1 4 1048576 1048576 16777216, dRw 0x1140 1 2 2 4 16777216 1048576 16777216, dRo 0x1140 1 3 3 4,
  dRo 0x1140 1 4 4 5,
  dConst 0x1400 1 2 4, dConst 0x1400 2 4 122400, dRw 0x1400 1 3 3 4 100 1 60000, dRw 0x1400 1 4 4 1 0 0 1,
  dRoU 0x1400 1 5 5 11, dRo 0x1400 1 6 6 5, dRoU 0x1408 1 1 4 9, dRo 0x1409 1 1 4 5, dWo 0x1410 1 2, dWo 0x1410 2 2]

/-- 0x1800–0x1FFF: health, counters, security, Ledger (Tables 21-9, 20-4, 18-8). COUNTER_GRANT (0x19F0:01) takes 0 to 255 and keeps bits
[7:5], to which R487 gives no group (DESIGN CHOICE, log 193). -/
def dictHealth : List DEntry := [
  dWo 0x1800 1 11, dRw 0x1800 1 2 2 1 1 0 1, dRw 0x1800 1 3 3 4 600 60 86400, dRo 0x1800 1 4 5 2,
  dRw 0x1800 1 6 6 11 0 0 0,
  dRo 0x1808 1 1 1 11, dRo 0x1808 1 2 2 4, dRw 0x1808 1 3 3 2 0xBF 0 255, dWo 0x1808 4 4, dRoU 0x1808 1 5 5 1,
  dRo 0x1820 1 1 0x0C 11, dRo 0x1820 1 0x11 0x18 11, dRo 0x1820 1 0x21 0x28 11, dRo 0x1820 1 0x31 0x38 11,
  dRo 0x1820 1 0x41 0x44 11,
  dRo 0x1900 192 1 16 5, dRo 0x19C0 12 1 32 5, dRo 0x19C0 12 33 33 11, dRo 0x19C0 12 34 34 4,
  dRo 0x19D0 8 1 8 5, dRo 0x19E0 3 1 16 5, dRo 0x19E3 1 1 1 5,
  dRw 0x19F0 1 1 1 2 0 0 255, dRw 0x19F0 1 2 2 2 24 10 30, dRw 0x19F0 1 3 3 4 0 0 1048576,
  dConst 0x1C00 1 11 0, dRoU 0x1C00 1 2 3 2, dWo 0x1C00 4 1, dRo 0x1C00 1 5 5 2, dRw 0x1C00 1 6 6 3 600 10 max16,
  dConst 0x1C08 1 11 0, dConst 0x1C08 2 11 0, dRo 0x1C10 1 1 8 11, dWo 0x1C18 1 11, dWo 0x1C18 2 2, dRo 0x1C18 1 3 3 1,
  ⟨0x1C20, 1, 1, 1, 11, .wo, false, true, true, false, false, 0, 0, 0⟩, dRoU 0x1C21 1 1 8 11,
  dRo 0x1C28 1 1 1 11, dWo 0x1C28 2 11, dWo 0x1C28 3 1, dRoU 0x1C28 1 4 4 9,
  dWo 0x1F00 1 1, dWo 0x1F00 2 2, dRo 0x1F00 1 3 3 9, dRo 0x1F00 1 4 4 5, dRo 0x1F00 1 5 5 4, dRo 0x1F00 1 6 6 5,
  dRo 0x1F00 1 7 8 3, dRo 0x1F00 1 9 9 9,
  dRw 0x1F08 1 1 1 5 0 0 max64, dRw 0x1F08 1 2 2 4 0 0 max32, dRo 0x1F08 1 3 3 4,
  ⟨0x1F10, 1, 1, 1, 2, .rw, true, true, false, false, true, 0, 0, 63⟩, dRo 0x1F18 1 1 1 11]

/-- The whole dictionary (R441). -/
def dictAll : List DEntry :=
  dictService ++ dictPower ++ dictMemory ++ dictJobs ++ dictRooms ++ dictPorts ++ dictHealth

/-- Whether a row covers an index. -/
def DEntry.onIndex (e : DEntry) (i : Nat) : Bool := decide (e.idx ≤ i) && decide (i < e.idx + e.n)

/-- The row of an index and a subindex other than 0. -/
def dictFind (i s : Nat) : Option DEntry :=
  dictAll.find? (fun e => e.onIndex i && decide (e.sub ≤ s) && decide (s ≤ e.subHi))

/-- The highest subindex of an index; 0 where the index does not exist. -/
def dictTop (i : Nat) : Nat := (dictAll.filter (fun e => e.onIndex i)).foldl (fun m e => max m e.subHi) 0

/-- Whether subindex 0 of an index has audience U: that of its first row, but where its other subindices differ among themselves,
what its table says of subindex 0 itself (Tables 8-8, 9-9, 12-5, 13-7, 21-9). -/
def subZeroU (i : Nat) (first : Bool) : Bool :=
  if 0x1010 ≤ i ∧ i < 0x1018 then false
  else first || [0x0C00, 0x0D00, 0x0E00, 0x0E10, 0x1140, 0x19F0].contains i

/-- The entry of an index and subindex, subindex 0 by R426: a U8 CONST with the audience of the index's other subindices. -/
def dictEntry (i s : Nat) : Option DEntry :=
  if s = 0 then
    match dictAll.find? (fun e => e.onIndex i) with
    | some e => some { e with sub := 0, subHi := 0, ty := 2, acc := .const, p := false, sess := false, dflt := dictTop i,
                              u := subZeroU i e.u }
    | none => none
  else dictFind i s

/-- The built-in default of an entry; SLOT_MAP starts as itself (Table 7-10). -/
def dictDefault (i s : Nat) : Nat :=
  if i = 0x0920 then s - 1 else match dictEntry i s with
    | some e => e.dflt
    | none => 0

/-- The key of an entry in the map of values in effect. -/
def dKey (i s : Nat) : Nat := i * 256 + s

end Sys2Proof.Machine
end

