-- ==== Sys2Proof/Machine/Ops.lean ====
section
/-! DEFINITION. The shared operations: reading and changing the parts of the state, values in effect, free values, counters,
messages, the error log and ALERT_N, and detecting a job fault. -/

namespace Sys2Proof.Machine

/-- The answer of a step. -/
abbrev Res := Host.Outcome State Fault Refusal

/-- An idle cycle: the pacing counter counts MGMT cycles while ROOT is locked (R25, R400). -/
def State.idle (s : State) : State := if s.pwr.rootLocked then { s with pacing := s.pacing + 1 } else s

/-! ## Parts -/

def State.cluster (s : State) (k : Nat) : Cluster := mget {} s.clusters k
def State.setCluster (s : State) (k : Nat) (v : Cluster) : State := { s with clusters := mset s.clusters k v }
def State.modCluster (s : State) (k : Nat) (f : Cluster → Cluster) : State := s.setCluster k (f (s.cluster k))

def State.seq (s : State) (k : Nat) : Seq := (s.cluster k).seq
def State.setSeq (s : State) (k : Nat) (q : Seq) : State := s.modCluster k (fun c => { c with seq := q })

def State.core (s : State) (c : Nat) : Core := mget {} s.cores c
def State.setCore (s : State) (c : Nat) (v : Core) : State := { s with cores := mset s.cores c v }
def State.modCore (s : State) (c : Nat) (f : Core → Core) : State := s.setCore c (f (s.core c))

def State.stack (s : State) (m : Nat) : Stack := mget {} s.ms.stackRecs m
def State.modStack (s : State) (m : Nat) (f : Stack → Stack) : State :=
  { s with ms := { s.ms with stackRecs := mmod {} s.ms.stackRecs m f } }

def State.setMem (s : State) (m : Mem) : State := { s with ms := { s.ms with mem := m } }

def State.slot (s : State) (i : Nat) : Slot := mget {} s.car.slots i
def State.setSlot (s : State) (i : Nat) (v : Slot) : State := { s with car := { s.car with slots := mset s.car.slots i v } }
def State.modSlot (s : State) (i : Nat) (f : Slot → Slot) : State := s.setSlot i (f (s.slot i))

def State.flashCh (s : State) (i : Nat) : FlashChannel := mget {} s.car.channels i
def State.modFlashCh (s : State) (i : Nat) (f : FlashChannel → FlashChannel) : State :=
  { s with car := { s.car with channels := mmod {} s.car.channels i f } }

def State.port (s : State) (p : Nat) : Port := mget {} s.net.ports p
def State.setPort (s : State) (p : Nat) (v : Port) : State := { s with net := { s.net with ports := mset s.net.ports p v } }
def State.modPort (s : State) (p : Nat) (f : Port → Port) : State := s.setPort p (f (s.port p))

def State.ring (s : State) (r : Nat) : Ring := mget {} s.net.rings r
def State.modRing (s : State) (r : Nat) (f : Ring → Ring) : State :=
  { s with net := { s.net with rings := mmod {} s.net.rings r f } }

def State.group (s : State) (g : Nat) : Group := mget {} s.net.groups g
def State.modGroup (s : State) (g : Nat) (f : Group → Group) : State :=
  { s with net := { s.net with groups := mmod {} s.net.groups g f } }

def State.pair (s : State) (n : Nat) : Pair := mget {} s.hub.pairs n
def State.setPair (s : State) (n : Nat) (v : Pair) : State := { s with hub := { s.hub with pairs := mset s.hub.pairs n v } }
def State.modPair (s : State) (n : Nat) (f : Pair → Pair) : State := s.setPair n (f (s.pair n))

def State.stream (s : State) (i : Nat) : Stream := mget {} s.hub.streams i
def State.setStreamRec (s : State) (i : Nat) (v : Stream) : State :=
  { s with hub := { s.hub with streams := mset s.hub.streams i v } }

def State.job? (s : State) (id : JobId) : Option Job := s.hub.jobs.find? (fun j => j.id == id)
def State.modJob (s : State) (id : JobId) (f : Job → Job) : State :=
  { s with hub := { s.hub with jobs := s.hub.jobs.map (fun j => if j.id = id then f j else j) } }
def State.dropJob (s : State) (id : JobId) : State :=
  { s with hub := { s.hub with jobs := s.hub.jobs.filter (fun j => decide (j.id ≠ id)) } }

def State.withPor (s : State) (f : Porter → Porter) : State := { s with por := f s.por }
def State.withBoot (s : State) (f : Boot → Boot) : State := { s with boot := f s.boot }
def State.withPwr (s : State) (f : Power → Power) : State := { s with pwr := f s.pwr }
def State.withHub (s : State) (f : Hub → Hub) : State := { s with hub := f s.hub }
def State.withNet (s : State) (f : Net → Net) : State := { s with net := f s.net }
def State.withMs (s : State) (f : MemSys → MemSys) : State := { s with ms := f s.ms }

/-- The cores of cluster k are 16k to 16k + 15 (Table 1-1). -/
def coresOf (k : Nat) : List Nat := (List.range 16).map (fun i => 16 * k + i)
def clusterOf (c : Nat) : Nat := c / 16
/-- Where the units lie (R13, Table 1-1): clusters K0–K5, stacks M0–M3, flash channels F0–F63, encoders E0 and E1 and optical
engines OE0 and OE1 on D0, the others on D1. -/
def dieOfCluster (k : Nat) : Nat := k / 6
def dieOfStack (m : Nat) : Nat := m / 4
def dieOfFlash (f : Nat) : Nat := f / 64
def dieOfEnc (e : Nat) : Nat := e / 2
def dieOfEngine (oe : Nat) : Nat := oe / 2
/-- The optical engine of a port (Table 1-1): OE0 P0 and P1, OE1 P4 and P5, OE2 P2 and P3, OE3 P6 and P7. -/
def engineOfPort (p : Nat) : Nat := if p < 2 then 0 else if p < 4 then 2 else if p < 6 then 1 else 3
def dieOfPort (p : Nat) : Nat := dieOfEngine (engineOfPort p)

/-! ## Values in effect, free values, messages -/

/-- The value in effect of a dictionary entry (R437). -/
def State.dv (s : State) (i sub : Nat) : Nat := mget (dictDefault i sub) s.por.vals (dKey i sub)
def State.setDv (s : State) (i sub v : Nat) : State := s.withPor (fun p => { p with vals := mset p.vals (dKey i sub) v })

/-- Draw a fresh free value (log 2). -/
def State.draw (s : State) : Quad × State := (Config.freeQuad s.draws, { s with draws := s.draws + 1 })
/-- The stamp of a fresh free range (log 1). -/
def State.stamp (s : State) : Nat × State := (s.draws, { s with draws := s.draws + 1 })

def State.emit (s : State) (m : OutMsg) : State := { s with out := m :: s.out }

/-- BLOCK_STATE of a block: 0 OFF, 1 ON, 2 DRAINING (R408). Bits of Table 17-3. -/
def State.block (s : State) (b : Nat) : Nat := mget 0 s.pwr.blocks b
def State.setBlock (s : State) (b v : Nat) : State := s.withPwr (fun p => { p with blocks := mset p.blocks b v })
def blkCluster (k : Nat) : Nat := k
def blkStack (m : Nat) : Nat := 12 + m
def blkFlash (g : Nat) : Nat := 20 + g
def blkPort (p : Nat) : Nat := 28 + p
def blkEnc (e : Nat) : Nat := 36 + e

/-! ## What manufacture wrote (R437, R439) -/

/-- A Ledger image is valid when MAGIC, FORMAT and CRC check (R433). -/
def LedgerImage.checks (i : LedgerImage) : Bool := decide (i.magic = 0x4C47 ∧ i.format = 1) && i.crcOk
/-- The factory ledger; one that fails its check contributes nothing (R439). -/
def State.factoryImage (s : State) : Option LedgerImage := s.por.factory.filter LedgerImage.checks
/-- Whether the running image defines an entry of the manual (R438). -/
def State.defines (s : State) (i u : Nat) : Bool := !(mget {} s.boot.banks s.boot.fwBank).omits.contains (i, u)
/-- A CONST whose default is a factory value: its factory ledger record; free where the factory ledger is INVALID or has none (log 99). -/
def State.factoryValue (s : State) (i u : Nat) : Nat :=
  match s.factoryImage.bind (fun m => m.entries.find? (fun r => r.index == i && r.sub == u)) with
  | some r => r.value
  | none => Config.factoryNat i u
/-- SERIAL (Table 18-8), never 0. -/
def State.serial (s : State) : Nat := max 1 (s.factoryValue 0x0100 4 % 2 ^ 64)

/-! ## Counters (Table 21-5) -/

def State.bumpCore (s : State) (c i n : Nat) : State :=
  s.modCore c (fun x => { x with ctr := mmod 0 x.ctr i (fun q => q + BitVec.ofNat 64 n) })
def State.bumpCluster (s : State) (k i n : Nat) : State :=
  s.modCluster k (fun x => { x with ctr := mmod 0 x.ctr i (fun q => q + BitVec.ofNat 64 n) })
def State.bumpPort (s : State) (p i n : Nat) : State :=
  s.withPor (fun x => { x with portCtr := mmod 0 x.portCtr (8 * p + i) (fun q => q + BitVec.ofNat 64 n) })
/-- An atomic operation of Table 6-6 on the shared cache of cluster k (SC_ATOMICS). -/
def State.countAtomic (s : State) (k : Nat) : State := s.bumpCluster k 7 1
/-- Counts of cycles are measured times: they advance by a free amount (log 8). -/
def State.bumpCoreFree (s : State) (c i : Nat) : State :=
  let (q, s) := s.draw
  s.modCore c (fun x => { x with ctr := mmod 0 x.ctr i (fun v => v + q) })
def State.bumpClusterFree (s : State) (k i : Nat) : State :=
  let (q, s) := s.draw
  s.modCluster k (fun x => { x with ctr := mmod 0 x.ctr i (fun v => v + q) })
/-- Bytes counted in the current bandwidth window (R488): 0–7 port sent, 8–15 received, 16–23 stack read, 24–31 written,
32–39 flash group read, 40–47 programmed. -/
def State.bumpBw (s : State) (i n : Nat) : State :=
  s.withPor (fun x => { x with bwCounts := mmod 0 x.bwCounts i (fun q => q + BitVec.ofNat 64 n) })

/-! ## The error log and ALERT_N (R484, R485) -/

/-- Log a health event: the ring keeps the 256 newest records; an event of an unmasked class asserts ALERT_N. -/
def State.logEvent (s : State) (event code unit : Nat) (detail : BitVec 128) : State :=
  let q := s.por.logSeq + 1
  let r : LogRec := ⟨q, s.pacing, event, code, unit, detail⟩
  let alert := bit (s.dv 0x1808 3) event
  s.withPor (fun p => { p with
    log := (r :: p.log).take 256, logSeq := q,
    alertPin := alert || p.alertPin, alertSeq := if alert then q else p.alertSeq })

/-- A record of the log for an event of no class of R485 (a dropped write, an ignored doorbell, a recommendation): it
alerts nothing. EVENT has no value for it in the spec; the model writes 0xFF (log 9). -/
def State.logNote (s : State) (code unit : Nat) (detail : BitVec 128) : State :=
  let q := s.por.logSeq + 1
  s.withPor (fun p => { p with log := (⟨q, s.pacing, 0xFF, code, unit, detail⟩ :: p.log).take 256, logSeq := q })

/-! ## Job faults (R22, R376) -/

/-- Statuses of Table 15-13. -/
def stOk : Byte := 0x00
def stCancelled : Byte := 0x01
def stEnded : Byte := 0x02
def stTierError : Byte := 0x30
def stMaskMalformed : Byte := 0x31
def stRoundInvalid : Byte := 0x32
def stRoundOrder : Byte := 0x33
def stVacancyTimeout : Byte := 0x34
def stRoomsLost : Byte := 0x35
def stEncoderOverrun : Byte := 0x36
def stStreamInvalid : Byte := 0x37
def stIllegal : Byte := 0x40
def stOverflow : Byte := 0x41
def stBusError : Byte := 0x42
def stCstoreUe : Byte := 0x43
def stMemUe : Byte := 0x44
def stPeerLost : Byte := 0x45
def stRouteMismatch : Byte := 0x46
def stSwept : Byte := 0x47

/-- What a detected fault says of itself (Table 15-14). -/
structure FaultInfo where
  status : Byte
  limit : Byte := 0
  cluster : Byte := 0xFF
  core : Byte := 0xFF
  ordinal : Word := 0
  stack : Byte := 0
  channel : Byte := 0
  unit : Word := 0

/-- Detect a job fault: step 1 of Table 15-11. LAST_FAULT is written, fetch and admission pause, DEV_STATUS[4] is set. A
further fault joins the sweep under way, and LAST_FAULT keeps the first cause (R377). -/
def State.jobFault (s : State) (job : Option JobId) (f : FaultInfo) : State :=
  if s.hub.sweeping then s
  else
    let r : FaultRec := {
      seq := BitVec.ofNat 32 (s.hub.sweeps.toNat + 1), status := f.status, limit := f.limit,
      cluster := f.cluster, core := f.core, job := job.getD 0, ordinal := f.ordinal, stack := f.stack,
      channel := f.channel, unit := f.unit }
    let s := s.withHub (fun h => { h with
      sweeping := true, swept := false, sweepJob := job, sweepCause := f.status,
      lastFault := r, sweeps := h.sweeps + 1 })
    s.logEvent 2 f.status.toNat 0xFF (BitVec.ofNat 128 (r.seq.toNat + r.status.toNat * 2 ^ 32 + r.limit.toNat * 2 ^ 40 +
      r.cluster.toNat * 2 ^ 48 + r.core.toNat * 2 ^ 56 + r.job.toNat * 2 ^ 64 + r.ordinal.toNat * 2 ^ 96))

/-- The job that holds a cluster. -/
def State.holderJob (s : State) (k : Nat) : Option Job :=
  match (s.cluster k).holder with
  | some id => s.job? id
  | none => none

/-- A fault of the sequencer of cluster k. -/
def State.seqFault (s : State) (k : Nat) (st : Byte) : State :=
  s.jobFault (s.cluster k).holder { status := st, cluster := BitVec.ofNat 8 k }

/-- A fault of core c in its instruction of that ordinal, with the limit code of Table 5-3 (0 where none). -/
def State.coreFault (s : State) (c : Nat) (st : Byte) (limit : Byte) (ord : Word) : State :=
  s.jobFault (s.cluster (clusterOf c)).holder
    { status := st, limit := limit, cluster := BitVec.ofNat 8 (clusterOf c), core := BitVec.ofNat 8 c, ordinal := ord }

/-! ## Teams (R84, R85) -/

/-- The clusters a team mask names, in increasing K order: the cluster of rank r is the r-th. -/
def teamOf (mask : BitVec 12) : List Nat := (List.range 12).filter (fun k => mask.getLsbD k)
def Job.team (j : Job) : List Nat := teamOf (BitVec.ofNat 12 (bits j.entry.toNat 27 16))
def Job.saveEn (j : Job) : Bool := bit j.entry.toNat 11
def Job.cls (j : Job) : Nat := bits j.entry.toNat 10 8
/-- The rank of a cluster in a team. -/
def rankIn (team : List Nat) (k : Nat) : Nat := team.findIdx (fun x => x == k)

/-- The sync counter an identifier names (R85): its cluster and index, none where the rank is outside the team. -/
def Job.syncTarget (j : Job) (id : Half) : Option (Nat × Nat) :=
  match (j.team)[id.toNat / 4096]? with
  | some k => some (k, id.toNat % 4096)
  | none => none

/-- The progress counter an identifier names (R91): its core and slot. -/
def Job.progTarget (j : Job) (id : Half) : Option (Nat × Nat) :=
  let r := (id.toNat / 16) % 256
  match (j.team)[r / 16]? with
  | some k => some (16 * k + r % 16, id.toNat % 16)
  | none => none

def State.syncVal (s : State) (k i : Nat) : Word := mget 0 (s.cluster k).sync i
def State.setSync (s : State) (k i : Nat) (v : Word) : State :=
  s.modCluster k (fun c => { c with sync := mset c.sync i v })
def State.progVal (s : State) (c i : Nat) : Word := mget 0 (s.core c).progress i
def State.setProg (s : State) (c i : Nat) (v : Word) : State :=
  s.modCore c (fun x => { x with progress := mset x.progress i v })

/-- CORE_MASK (R84): the cores of the cluster that are not fenced. -/
def State.coreMask (s : State) (k : Nat) : BitVec 16 := ~~~ (s.cluster k).coreFence

/-- Apply a sync post (R86, R88): a post past 2^32 − 1 is the fault RESOURCE_OVERFLOW, code 0x04, and leaves the counter. -/
def State.postSync (s : State) (k i : Nat) (v : Word) (fault : State → State) : State :=
  let c := s.syncVal k i
  if c.toNat + v.toNat < 2 ^ 32 then (s.setSync k i (c + v)).bumpCluster k 17 1 else fault s

/-- The progress counter after a post (R92); none where the post is stale. -/
def progPost (old new : Word) : Option Word :=
  let t := new.toNat / 2 ^ 24
  let c := old.toNat / 2 ^ 24
  let n := new.toNat % 2 ^ 24
  let r := old.toNat % 2 ^ 24
  let d := (t + 256 - c) % 256
  if d = 0 then some (BitVec.ofNat 32 (c * 2 ^ 24 + max r n))
  else if d ≤ 127 then some new
  else none

/-- Whether a progress wait is satisfied (R93). -/
def progMet (cur want : Word) : Bool :=
  let d := (cur.toNat / 2 ^ 24 + 256 - want.toNat / 2 ^ 24) % 256
  if d = 0 then decide (want.toNat % 2 ^ 24 ≤ cur.toNat % 2 ^ 24) else decide (d ≤ 127)

/-! ## CRC-32C (Castagnoli; R181, R312, R433) -/

/-- One bit of the reflected CRC-32C, polynomial 0x82F63B78. -/
def crcBit (c : Word) : Word := if c.getLsbD 0 then (c >>> 1) ^^^ 0x82F63B78#32 else c >>> 1
def crcByte (c : Word) (b : Byte) : Word :=
  let x := c ^^^ (b.setWidth 32)
  crcBit (crcBit (crcBit (crcBit (crcBit (crcBit (crcBit (crcBit x)))))))
def crc32c (bs : List Byte) : Word := (bs.foldl crcByte 0xFFFFFFFF#32) ^^^ 0xFFFFFFFF#32

/-- The bytes of a 64-byte record. -/
def descBytes (d : Desc) : List Byte := leBytes 64 d.toNat

end Sys2Proof.Machine
end

