-- ==== Sys2Proof/Machine/Access.lean ====
section
/-! DEFINITION. Stacked memory and shared cache as engines, sequencers and the host reach them (06): address decode,
protected ranges, poison, fences, back-invalidation, and the consequence of an uncorrectable error by requester (Table 6-4). -/

namespace Sys2Proof.Machine

/-- The stacks' range of Table 6-1. -/
def stackTop : Nat := 0x10000000000
/-- Base of the shared-cache team window (Table 6-1). -/
def windowBase : Nat := 0x10000000000

/-- Decode of a stack address (R148, Table 6-2). -/
def addrStack (a : Nat) : Nat := bits a 39 37
def addrUnit (a : Nat) : Nat := bits a 36 18
def addrChannel (a : Nat) : Nat := bits a 17 11
def addrGranule (a : Nat) : Nat := a / 32

/-- The stacks a range touches. -/
def stacksOf (a n : Nat) : List Nat :=
  if n = 0 then [] else (List.range 8).filter (fun m => meets a n (m * 2 ^ 37) (2 ^ 37))

/-- Whether the hub of a die runs: the units of D1 serve only with the D1 hub (R443). -/
def State.hubOf (s : State) (die : Nat) : Bool := if die = 0 then s.boot.hub0 else s.boot.hub1
/-- The die of a block of Table 17-3. -/
def dieOfBlock (b : Nat) : Nat :=
  if b < 12 then dieOfCluster b else if b < 20 then dieOfStack (b - 12) else if b < 28 then (b - 20) / 4
  else if b < 36 then dieOfPort (b - 28) else dieOfEnc (b - 36)
/-- Whether a block serves no window: it is OFF, or its die's hub does not run (R357, R409, R443). -/
def State.blockGone (s : State) (b : Nat) : Bool := decide (s.block b = 0) || !s.hubOf (dieOfBlock b)
/-- A stack that answers nothing: its block is OFF, or its die's hub does not run (R147, R409, R443). -/
def State.stackOff (s : State) (m : Nat) : Bool := decide (s.block (blkStack m) = 0) || !s.hubOf (dieOfStack m)
/-- A stack serves when it is ON or DRAINING, its hub runs, and it is not fenced (R147, R149, R409, R443). -/
def State.stackServes (s : State) (m : Nat) : Bool := !s.stackOff m && decide ((s.stack m).fence = 0)
/-- Whether a range lies wholly in stacks that are ON and not fenced (R183, R198, R324). -/
def State.inOnStacks (s : State) (a n : Nat) : Bool :=
  decide (a + n ≤ stackTop) &&
  (stacksOf a n).all (fun m => decide (s.block (blkStack m) = 1) && s.stackServes m)

/-! ## Slots' windows (07) -/

/-- The waybill header of a slot (Table 7-2). -/
def Slot.header (sl : Slot) : Nat := sl.stream.readLE 0 64
def Slot.wbBytes (sl : Slot) : Nat := bits sl.header 191 160
def Slot.frameBytes (sl : Slot) : Nat := bits sl.header 255 192
def Slot.dataBytes (sl : Slot) : Nat := bits sl.header 319 256
def Slot.blockCount (sl : Slot) : Nat := bits sl.header 31 16
def Slot.objectCount (sl : Slot) : Nat := bits sl.header 63 32

def State.slotOnDemand (s : State) (i : Nat) : Bool := decide (s.dv (0x0910 + i) 7 = 1)
def State.winBase (s : State) (i : Nat) : Nat := s.dv (0x0910 + i) 8
def State.winFrames (s : State) (i : Nat) : Nat := s.dv (0x0910 + i) 9
/-- D, the depth in effect (R185, R190). -/
def State.depthOf (s : State) (i : Nat) : Nat :=
  min (min (max (s.slot i).depth (s.dv 0x0901 3)) (s.dv 0x0901 4)) (s.winFrames i)
/-- Bytes of a slot's window or resident region (R183). -/
def State.winLen (s : State) (i : Nat) : Nat :=
  if s.slotOnDemand i then (s.slot i).dataBytes - (s.slot i).wbBytes else s.winFrames i * (s.slot i).frameBytes

/-- The weight ranges (R184): the windows and regions in effect. Those of a LOST or UNCONFIGURED window are none (DEDUCED, log 201). -/
def State.weightRanges (s : State) : List (Nat × Nat) :=
  ((List.range 16).filter (fun i => decide ((s.slot i).window = 1))).map (fun i => (s.winBase i, s.winLen i))
/-- Whether a range lies in the stacks, clear of every weight range (R340, Table 8-6). -/
def State.exchRegion (s : State) (a n : Nat) : Bool := decide (a + n ≤ 2 ^ 40) && !s.weightRanges.any (fun r => meets a n r.1 r.2)
def State.meetsWeight (s : State) (a n : Nat) : Bool := s.weightRanges.any (fun r => meets a n r.1 r.2)

/-- Bytes of the valid bitmap of the reuse store (12): ceil(entries / 8) rounded up to 2,048. -/
def validBytes (entries : Nat) : Nat := cdiv (cdiv entries 8) 2048 * 2048
def State.bitmapRange (s : State) : Nat × Nat :=
  if s.dv 0x0E00 2 = 0 then (0, 0) else (s.dv 0x0E00 1, validBytes (s.dv 0x0E00 3))
/-- Whether a flash channel is OFF: its group is, or the D1 hub that serves it is not there (R409, R443). -/
def State.flashOff (s : State) (ch : Nat) : Bool := decide (s.block (blkFlash (ch / 16)) = 0) || !s.hubOf (ch / 64)
/-- The adapter table, which only the hub writes (R193): 4,096 entries of 64 bytes from its base. -/
def State.adapterRange (s : State) : Nat × Nat := (s.dv 0x0A00 1, 262144)
def saveClusterBytes : Nat := 110624768
/-- The save areas of the existing jobs (R372). -/
def State.saveRanges (s : State) : List (Nat × Nat) :=
  s.hub.jobs.flatMap (fun j => j.saveAreas.map (fun a => (a, saveClusterBytes)))

/-- The encoder state blocks of streams that are open or held (R383), without CONSUMED, which the host writes. -/
def State.encBlocks (s : State) : List (Nat × Nat) :=
  s.hub.streams.flatMap (fun r => match r.2.enc.block with
    | some b => if r.2.sstate = .opened ∨ r.2.sstate = .held then [(b, 16), (b + 32, 8160)] else []
    | none => [])

/-- Whether a write by an engine or a host meets a protected range: weight ranges (R184), the valid bitmap (R293), save
areas (R372), the user view (R431), the adapter table (R193), encoder state blocks (R383, log 163). -/
def State.isProtected (s : State) (a n : Nat) : Bool :=
  s.meetsWeight a n || meets a n s.bitmapRange.1 s.bitmapRange.2 || s.saveRanges.any (fun r => meets a n r.1 r.2) ||
  meets a n s.por.viewBase s.por.viewBytes || meets a n s.adapterRange.1 s.adapterRange.2 || s.encBlocks.any (fun r => meets a n r.1 r.2)

/-! ## Serving units and the service tier (R443, R444) -/

/-- A cluster that command or BIST has fenced reads FENCED (Table 15-14). -/
def Cluster.fenced (k : Cluster) : Bool := k.fencedCmd || k.fencedBist
/-- Whether a job holds a cluster, running or swapped out (R135, R379); a job that a sweep has ended holds none. -/
def State.clusterHeld (s : State) (k : Nat) : Bool :=
  (s.cluster k).holder.isSome || s.hub.jobs.any (fun j => j.dispatchPacing.isSome && decide (j.phase ≠ .ended) && j.team.contains k)
def State.clusterServes (s : State) (k : Nat) : Bool :=
  decide (s.block (blkCluster k) ≠ 0) && !(s.cluster k).fenced && s.hubOf (dieOfCluster k)
def Port.fenced (p : Port) : Bool := p.fencedCmd || p.fencedBist

/-- Whether the host's requests reach the module: the link is up, and the D0 hub answers configuration requests (R447). -/
def State.hostReaches (s : State) : Bool := s.boot.cxlUp && s.boot.hub0
/-- TIER_BLOCKERS (Table 19-8). A fenced encoder that drains is not FENCED yet (Table 16-6). The CXL port runs with the D0 hub (log 23). -/
def State.tierBlockers (s : State) : Nat :=
  let b := fun (p : Bool) (i : Nat) => if p then 2 ^ i else 0
  b (!s.pwr.rootLocked) 0 + b (!s.boot.hub0) 1 + b (!s.boot.hub0) 2 + b ((List.range 8).all (fun m => !s.stackServes m)) 3 +
  b ((List.range 6).all (fun k => !s.clusterServes k)) 4 + b s.boot.recovery 5 + b (!s.boot.hub1) 8 +
  b ((List.range 12).any (fun k => (s.cluster k).fenced || decide ((s.cluster k).coreFence ≠ 0))) 9 +
  b ((List.range 8).any (fun m => decide ((s.stack m).fence ≠ 0))) 10 +
  b ((List.range 128).any (fun c => decide ((s.flashCh c).fence ≠ 0))) 11 +
  b (decide ((s.enc.fencedCmd ||| s.enc.fencedBist) &&& ~~~s.enc.fenceDrain ≠ 0)) 12 + b ((List.range 8).any (fun p => (s.port p).fenced)) 13
/-- SERVICE_TIER (Table 19-1). -/
def State.tier (s : State) : Nat :=
  if !(s.boot.vin && s.boot.refclk && s.boot.porterRuns) then 0
  else if bits s.tierBlockers 5 0 ≠ 0 then 1
  else if bits s.tierBlockers 13 8 ≠ 0 then 2 else 3
/-- A drop in tier is logged (R444); the event's class is 4. -/
def State.noteTier (s : State) (before : Nat) : State :=
  if s.tier < before then s.logEvent 4 0 0xFF (BitVec.ofNat 128 s.tier) else s

/-- A service stop is counted and logged with its cause (R456). -/
def State.serviceStop (s : State) (cause : Nat) : State :=
  (s.withBoot (fun b => { b with stops := b.stops + 1 })).logEvent 3 0 0xFF (BitVec.ofNat 128 cause)

/-! ## Uncorrectable errors and fences -/

def State.isPoisoned (s : State) (g : Nat) : Bool := s.ms.poison.contains g
/-- The first poisoned granule a range touches. -/
def State.poisonIn (s : State) (a n : Nat) : Option Nat := s.ms.poison.find? (fun g => meets a n (32 * g) 32)
/-- A poisoned granule that a range covers only in part. -/
def State.poisonPart (s : State) (a n : Nat) : Option Nat :=
  s.ms.poison.find? (fun g => meets a n (32 * g) 32 && !within (32 * g) 32 a n)

/-- Fence a stack with a STACK_STATE code; windows and regions that lie on it read LOST (R161, Table 7-5). -/
def State.fenceStack (s : State) (m code : Nat) : State :=
  let before := s.tier
  let s := s.modStack m (fun x => { x with fence := code })
  let lost := fun i => decide ((s.slot i).window = 1) && (stacksOf (s.winBase i) (s.winLen i)).contains m
  let s := (List.range 16).foldl (fun t i => if lost i then t.modSlot i (fun x => { x with window := 2 }) else t) s
  (s.logEvent 0 0 (0x10 + m) 0).noteTier before

/-- Repeats that an interface transfer of a stack may take (R157). -/
def State.retryLimit (s : State) : Nat := s.dv 0x0801 1
/-- The repeats a stack's waiting transfer needs are made: at most the limit, each counted (R157). -/
def State.useParity (s : State) (m : Nat) : State :=
  let n := mget 0 s.ms.parity m
  if n = 0 then s
  else (s.withMs (fun x => { x with parity := mset x.parity m 0 })).modStack m
    (fun x => { x with retries := x.retries + BitVec.ofNat 64 (min s.retryLimit n) })

/-- Count an uncorrectable memory error (R161), once for an access however many granules fail (log 135), with the repeats a
failed transfer took: at the threshold the stack is fenced, and a sweep applies the fence. A threshold written at or below the count
fences at the stack's next such error alone (DEDUCED, log 196). -/
def State.countUe (s : State) (a : Nat) : State :=
  let m := addrStack a
  let s := (s.useParity m).modStack m (fun x => { x with ue := x.ue + 1 })
  let s := s.logEvent 1 0x44 (0x10 + m) (BitVec.ofNat 128 a)
  if (s.stack m).fence = 0 ∧ s.dv 0x0801 3 ≤ (s.stack m).ue.toNat then
    let s := s.fenceStack m 2
    s.jobFault none { status := stMemUe, stack := BitVec.ofNat 8 m, channel := BitVec.ofNat 8 (addrChannel a),
                      unit := BitVec.ofNat 32 (addrUnit a) }
  else s

/-- How an access fails. -/
inductive AccErr where
  | bus
  | ue (addr : Nat)
  deriving DecidableEq, Repr

/-- The fault of an access made for a job (Table 6-4): bus error, or MEM_UE with stack, channel and unit. -/
def AccErr.info (e : AccErr) (core : Byte) (cluster : Byte) (ord : Word) : FaultInfo :=
  match e with
  | .bus => { status := stBusError, core := core, cluster := cluster, ordinal := ord }
  | .ue a => { status := stMemUe, core := core, cluster := cluster, ordinal := ord,
               stack := BitVec.ofNat 8 (addrStack a), channel := BitVec.ofNat 8 (addrChannel a),
               unit := BitVec.ofNat 32 (addrUnit a) }

/-- The job fault of a failed access, with the error counted (R158, R161). -/
def State.accFault (s : State) (e : AccErr) (job : Option JobId) (core cluster : Byte) (ord : Word) : State :=
  let s := s.jobFault job (e.info core cluster ord)
  match e with
  | .ue a => s.countUe a
  | .bus => s

def State.coreAccFault (s : State) (c : Nat) (ord : Word) (e : AccErr) : State :=
  s.accFault e (s.cluster (clusterOf c)).holder (BitVec.ofNat 8 c) (BitVec.ofNat 8 (clusterOf c)) ord

/-! ## Reads and writes of the stacks -/

/-- A stack whose access fails: it is fenced (R149), or its transfer fails after every repeat (R157). -/
def State.stackFails (s : State) (m : Nat) : Bool :=
  decide ((s.stack m).fence ≠ 0) || decide (s.retryLimit < mget 0 s.ms.parity m)
/-- What stops an access of a range: beyond the stacks or on an OFF stack, a bus error (R147); on a stack that fails, an
uncorrectable error (R149, R157). -/
def State.rangeErr (s : State) (a n : Nat) : Option AccErr :=
  if stackTop < a + n then some .bus
  else if (stacksOf a n).any s.stackOff then some .bus
  else match (stacksOf a n).find? s.stackFails with
    | some m => some (.ue (max a (m * 2 ^ 37)))
    | none => none

/-- An engine's read of stacked memory (R152, R153, R160). -/
def State.memRead (s : State) (a n : Nat) : Except AccErr (List Byte) :=
  match s.rangeErr a n with
  | some e => .error e
  | none => match s.poisonIn a n with
    | some g => .error (.ue (32 * g))
    | none => .ok (s.ms.mem.readBytes a n)

/-- Send BISnpData for the lines of a range that the host may hold modified (R169): those of the filter that have not answered one
since the host was granted them. -/
def State.snoopData (s : State) (a n : Nat) : State :=
  let ls := s.ms.snoop.filter (fun l => meets a n (64 * l) 64 && !s.ms.snoopShared.contains l)
  let s := ls.foldl (fun t l => t.emit (.bisnp l false)) s
  s.withMs (fun m => { m with
    snoopShared := m.snoopShared ++ ls, snoopWait := m.snoopWait ++ ls,
    bisnpIssued := m.bisnpIssued + BitVec.ofNat 64 ls.length })
/-- Single-bit errors of a range are corrected and counted for their stacks (R156). -/
def State.countFlips (s : State) (a n : Nat) : State :=
  (s.ms.flips.filter (fun g => meets a n (32 * g) 32)).foldl
    (fun t g => t.modStack (addrStack (32 * g)) (fun x => { x with ce := x.ce + 1 })) s
/-- What reaches from a range in stack m. -/
def inStack (a n m : Nat) : Nat := min (a + n) ((m + 1) * 2 ^ 37) - max a (m * 2 ^ 37)
/-- Bytes read, counted for their stacks (R488). -/
def State.countRead (s : State) (a n : Nat) : State := (stacksOf a n).foldl (fun t m => t.bumpBw (16 + m) (inStack a n m)) s
/-- What a read that succeeds does beside giving its bytes: the host's copy is asked for, single-bit errors are corrected and
counted, repeats are made, the bytes are counted (R156, R157, R169, R488). -/
def State.readDone (s : State) (a n : Nat) : State :=
  ((stacksOf a n).foldl State.useParity ((s.snoopData a n).countFlips a n)).countRead a n
/-- Count the error of an access that is no job's (R161). -/
def State.countErr (s : State) : AccErr → State
  | .ue a => s.countUe a
  | .bus => s
/-- Read several ranges in order: what each read does, up to the first that fails. -/
def State.readAll (s : State) : List (Nat × Nat) → Except (AccErr × State) State
  | [] => .ok s
  | r :: rs => match s.memRead r.1 r.2 with
    | .ok _ => (s.readDone r.1 r.2).readAll rs
    | .error e => .error (e, s)
/-- What a read of the module for itself does: an error is counted (R160, R161). -/
def State.hubGot (s : State) (r : Nat × Nat) : State :=
  match s.memRead r.1 r.2 with
  | .ok _ => s.readDone r.1 r.2
  | .error e => s.countErr e
/-- The same of several reads, each of which fails for itself. -/
def State.hubDone (s : State) (rs : List (Nat × Nat)) : State := rs.foldl State.hubGot s

/-- What reading a source does of which the first n of `len` bytes were read: the read itself, and the error that stopped it (R156, R161). -/
def State.sourceDone (s : State) (a n len : Nat) : State :=
  let s := s.readDone a n
  if len ≤ n then s
  else match s.memRead a len with
    | .error e => s.countErr e
    | .ok _ => s.countUe (a + n)

/-- Lines of the snoop filter that a range touches. -/
def State.snooped (s : State) (a n : Nat) : List Nat := s.ms.snoop.filter (fun l => meets a n (64 * l) 64)

/-- Send BISnpInv for the lines the host may hold in a range (R169): each is counted and leaves the filter, and its response
is awaited. -/
def State.snoopInv (s : State) (a n : Nat) : State :=
  let ls := s.snooped a n
  let s := ls.foldl (fun t l => t.emit (.bisnp l true)) s
  s.withMs (fun m => { m with
    snoop := m.snoop.filter (fun l => !meets a n (64 * l) 64)
    snoopShared := m.snoopShared.filter (fun l => !meets a n (64 * l) 64), snoopWait := m.snoopWait ++ ls,
    bisnpIssued := m.bisnpIssued + BitVec.ofNat 64 ls.length })

/-- Bytes written, counted for their stacks (R488). -/
def State.countWritten (s : State) (a n : Nat) : State :=
  (stacksOf a n).foldl (fun t m => t.bumpBw (24 + m) (inStack a n m)) s
/-- Granules written whole lose their marks and their wrong bits (R160). -/
def State.fresh (s : State) (a n : Nat) : State :=
  s.withMs (fun m => { m with
    poison := m.poison.filter (fun g => !within (32 * g) 32 a n), flips := m.flips.filter (fun g => !within (32 * g) 32 a n) })
/-- Granules written in part are read, corrected and counted, and written back (R154, R156). -/
def State.mergeFlips (s : State) (a n : Nat) : State :=
  (s.countFlips a n).withMs (fun m => { m with flips := m.flips.filter (fun g => !meets a n (32 * g) 32) })
/-- Store bytes. -/
def State.memPut (s : State) (a : Nat) (bs : List Byte) : State :=
  let s := (s.fresh a bs.length).mergeFlips a bs.length
  (s.setMem (s.ms.mem.writeBytes a bs)).countWritten a bs.length

/-- The parts of a write that different stacks serve, in address order (R149): (stack, address, bytes). -/
def writeParts (a : Nat) (bs : List Byte) : List (Nat × Nat × List Byte) :=
  (stacksOf a bs.length).map (fun m =>
    let lo := max a (m * 2 ^ 37)
    (m, lo, (bs.drop (lo - a)).take ((m + 1) * 2 ^ 37 - lo)))
/-- Store what of a failed write lands: the parts of stacks that serve, without the poisoned granules covered in part (R149,
R160, log 136). A part on a fenced stack is dropped and logged. Of a write that runs beyond the stacks' top
the part inside lands (DESIGN CHOICE, log 234). -/
def State.memLand (s : State) (a : Nat) (bs : List Byte) : State :=
  (writeParts a bs).foldl (fun t p =>
    if t.stackOff p.1 then t
    else if t.stackFails p.1 then t.logNote 0 (0x10 + p.1) (BitVec.ofNat 128 p.2.1)
    else
      let bad := t.ms.poison.filter (fun g => meets p.2.1 p.2.2.length (32 * g) 32 && !within (32 * g) 32 p.2.1 p.2.2.length)
      let t := (t.snoopInv p.2.1 p.2.2.length).memPut p.2.1 p.2.2
      -- the poisoned granules keep their bytes
      t.setMem (bad.foldl (fun m g => m.writeBytes (32 * g) (s.ms.mem.readBytes (32 * g) 32)) t.ms.mem)) s

/-- A write the module's own engines make: no protection, but fences, poison and snoops (R149, R154, R158, R169). A write that
fails answers the error and the state with what landed. -/
def State.memWriteOwn (s : State) (a : Nat) (bs : List Byte) : Except (AccErr × State) State :=
  match s.rangeErr a bs.length with
  | some e => .error (e, s.memLand a bs)
  | none => match s.poisonPart a bs.length with
    | some g => .error (.ue (32 * g), s.memLand a bs)
    | none => .ok ((stacksOf a bs.length).foldl State.useParity ((s.snoopInv a bs.length).memPut a bs))

/-- A write made for a job by a tile instruction or a sequencer: a protected range is a bus error (R184). -/
def State.memWrite (s : State) (a : Nat) (bs : List Byte) : Except (AccErr × State) State :=
  if s.isProtected a bs.length then .error (.bus, s) else s.memWriteOwn a bs

/-- A write of the hub's own tables: what cannot be written is dropped, and an uncorrectable error is counted (R149, R160,
R161). -/
def State.memWriteHub (s : State) (a : Nat) (bs : List Byte) : State :=
  match s.memWriteOwn a bs with
  | .ok t => t
  | .error (e, t) => t.countErr e

/-- A write of the module's tables for a job: a failure is the job's fault (Table 6-4). -/
def State.memWriteJob (s : State) (job : Option JobId) (core cluster : Byte) (ord : Word) (a : Nat) (bs : List Byte) : State :=
  match s.memWriteOwn a bs with
  | .ok t => t
  | .error (e, t) => t.accFault e job core cluster ord

/-- A number of the hub's own tables; zero where it cannot be read. What the read does beside giving its bytes is `hubDone`'s. -/
def State.hubRead (s : State) (a n : Nat) : Nat :=
  match s.memRead a n with
  | .ok bs => leNat bs
  | .error _ => 0

/-- The same for an instruction of a core. -/
def State.memWriteCore (s : State) (c : Nat) (ord : Word) (a : Nat) (bs : List Byte) : State :=
  s.memWriteJob (s.cluster (clusterOf c)).holder (BitVec.ofNat 8 c) (BitVec.ofNat 8 (clusterOf c)) ord a bs

/-! ## The shared cache (R163–R166, Table 6-5) -/

def scStatus (i : Nat) : Nat := 8 * i
def scWork : Nat := 0x10000
def scWorkEnd : Nat := 0x110000
def scRooms : Nat := 0x110000
def State.scUser (s : State) : Nat := scRooms + s.ms.scRoomMib * 0x100000
def scEnd : Nat := 0x3000000

/-- Where a narrow access lands. -/
inductive NarrowTarget where
  | stack (a : Nat)
  | shared (k : Nat) (off : Nat)
  | roomPort
  deriving DecidableEq, Repr

/-- Decode a sequencer's device address (R147, R163, R228, R236): none is a bus error. -/
def State.narrowTarget (s : State) (j : Job) (k a : Nat) : Option NarrowTarget :=
  if a < stackTop then some (.stack a)
  else
    let r := (a - windowBase) / 0x4000000
    let off := (a - windowBase) % 0x4000000
    match (j.team)[r]? with
    | none => none
    | some kk =>
      if off < 0x80 then some (.shared kk off)
      else if off < scWork then none
      else if off < scWorkEnd then some (.shared kk off)
      else if off < scRooms + 8 then (if off = scRooms ∧ kk = k ∧ s.ms.scRoomMib ≠ 0 then some .roomPort else none)
      else if off < s.scUser then none
      else if off < scEnd then some (.shared kk off)
      else none

def State.scRead (s : State) (k off n : Nat) : Nat := (s.cluster k).scache.readLE off n
/-- Bytes of a range that lie on the stacks of the other die (R14). -/
def remoteBytes (k a n : Nat) : Nat :=
  ((stacksOf a n).map (fun m => if dieOfStack m = dieOfCluster k then 0
    else min (a + n) ((m + 1) * 2 ^ 37) - max a (m * 2 ^ 37))).sum
/-- REMOTE_DIE_BYTES of cluster k counts what an access of a sequencer of its moves across the dies (R486, log 204). -/
def State.countRemote (s : State) (k n : Nat) : NarrowTarget → State
  | .stack a => s.bumpCluster k 12 (remoteBytes k a n)
  | .shared c _ => s.bumpCluster k 12 (if dieOfCluster c = dieOfCluster k then 0 else n)
  | .roomPort => s
def State.scWrite (s : State) (k off n v : Nat) : State :=
  s.modCluster k (fun c => { c with scache := c.scache.writeLE off n v })

/-- Add to a 32-bit word of the shared cache (COMMITS, DUPS; Table 6-6). -/
def State.scAdd32 (s : State) (k off n : Nat) : State := s.scWrite k off 4 ((s.scRead k off 4 + n) % 2 ^ 32)

end Sys2Proof.Machine
end

