-- ==== Sys2Proof/Machine/Rooms.lean ====
section
/-! DEFINITION. Rooms (09): pools, the room table, directories, counts and release (R240), booking and parking, and the
decision steps of SCAT.KV (Table 9-5). -/

namespace Sys2Proof.Machine

/-! ## Pools (R225, R226) -/

def roomBytes (size : Nat) : Nat := 65536 * 4 ^ (size - 1)
def roomStride (size : Nat) : Nat := 128 * 4 ^ (size - 1)
def vacBytes (rooms : Nat) : Nat := cdiv (4 * rooms) 2048 * 2048

def State.pool (s : State) (p : Nat) : Pool := mget {} s.ms.pools p
def Pool.baseOf (p : Pool) (st : Nat) : Nat := (p.base[st]?).getD 0
def Pool.roomsOf (p : Pool) (st : Nat) : Nat := (p.rooms[st]?).getD 0
/-- Serving parts in numbering order: (pool, stack, rooms) (R226). -/
def State.roomParts (s : State) : List (Nat × Nat × Nat) :=
  (List.range 4).flatMap (fun p => if (s.pool p).state = 1 then (List.range 8).map (fun m => (p, m, (s.pool p).roomsOf m)) else [])

/-- The part that room x lies in, by fuel of the parts left: (pool, stack, local index). -/
def partOf : List (Nat × Nat × Nat) → Nat → Option (Nat × Nat × Nat)
  | [], _ => none
  | (p, m, n) :: rest, x => if x < n then some (p, m, x) else partOf rest (x - n)
/-- Where room x lies: pool, stack, device address. -/
structure RoomPlace where
  pool : Nat
  stack : Nat
  addr : Nat
def State.roomPlace (s : State) (x : Nat) : Option RoomPlace :=
  match partOf s.roomParts x with
  | some (p, m, k) => some ⟨p, m, (s.pool p).baseOf m + vacBytes ((s.pool p).roomsOf m) + k * roomBytes (s.pool p).size⟩
  | none => none
/-- The rooms of a part, numbered. -/
def roomsFrom : List (Nat × Nat × Nat) → Nat → List (Nat × List Nat)
  | [], _ => []
  | (p, m, n) :: rest, x => (8 * p + m, (List.range n).map (fun i => x + i)) :: roomsFrom rest (x + n)

/-! ## The room table (R228, Table 9-2) -/

/-- Cluster and shared-cache offset of entry x; none where no cluster served at module reset. -/
def State.roomSlot (s : State) (x : Nat) : Option (Nat × Nat) :=
  let nc := s.ms.roomClusters.length
  if nc = 0 then none
  else match s.ms.roomClusters[x % nc]? with
    | some k => some (k, scRooms + 0x10000 + 8 * (x / nc))
    | none => none
def State.roomEntry (s : State) (x : Nat) : Nat :=
  match s.roomSlot x with
  | some (k, off) => s.scRead k off 8
  | none => 0
def State.setRoomEntry (s : State) (x v : Nat) : State :=
  match s.roomSlot x with
  | some (k, off) => s.scWrite k off 8 v
  | none => s
def roomRef (e : Nat) : Nat := bits e 47 32
def roomPins (e : Nat) : Nat := bits e 63 48
def roomState (e : Nat) : Nat := bits e 31 30
/-- Whether the entry of a room lies in a cluster that is OFF: an access to it is a bus error (R147, R409). -/
def State.roomGone (s : State) (x : Nat) : Bool :=
  match s.roomSlot x with
  | some (k, _) => s.blockGone (blkCluster k)
  | none => false
/-- A count of an entry changes: an atomic operation of Table 6-6 on its cluster. One that is OFF keeps its counts, and no room whose
count is there returns to its list (R409; DESIGN CHOICE, log 113). -/
def State.modRoomCount (s : State) (x v : Nat) : State :=
  match s.roomSlot x with
  | some (k, _) => if s.roomGone x then s else (s.setRoomEntry x v).countAtomic k
  | none => s
def State.modRoomRef (s : State) (x : Nat) (f : Nat → Nat) : State :=
  s.modRoomCount x (putBits (s.roomEntry x) 47 32 (f (roomRef (s.roomEntry x))))
def State.modRoomPin (s : State) (x : Nat) (f : Nat → Nat) : State :=
  s.modRoomCount x (putBits (s.roomEntry x) 63 48 (f (roomPins (s.roomEntry x))))
/-- The state of an entry changes: a read and a write of the shared cache (log 204). -/
def State.setRoomState (s : State) (x v : Nat) : State :=
  match s.roomSlot x with
  | some (k, _) => ((s.setRoomEntry x (putBits (s.roomEntry x) 31 30 v)).bumpCluster k 5 1).bumpCluster k 6 1
  | none => s

/-! ## Directories (R229, R230) -/

/-- Whether a job holds a stream now. -/
def State.heldBy (s : State) (j : Job) (stream : Nat) : Bool :=
  decide ((s.stream stream).sstate = .held) && decide ((s.stream stream).holderJob = j.id)
/-- The job that holds a stream. -/
def State.streamJob (s : State) (stream : Nat) : Option JobId :=
  if (s.stream stream).sstate = .held then some (s.stream stream).holderJob else none

def State.dirBase (s : State) (stream : Nat) : Nat := s.dv 0x0D00 1 + stream * s.dv 0x0D00 2
/-- The directory's bytes as they stand. What reading them does beside, the errors among it, is `dirDone`'s or its caller's (Table 6-4);
of a directory that cannot be read the module still knows the rooms it has entered there (log 138). -/
def State.dirRead (s : State) (a n : Nat) : Nat := s.ms.mem.readLE a n
def State.dirGroups (s : State) (stream : Nat) : Nat := s.dirRead (s.dirBase stream) 2

structure GroupHdr where
  off : Nat
  book : Nat
  len : Nat
  pre : Nat
  home : Nat
  pool : Nat
def groupHdrOf (v : Nat) : GroupHdr :=
  { off := bits v 127 96, book := bits v 95 80, len := bits v 79 64, pre := bits v 63 56, home := bits v 55 53, pool := bits v 52 51 }
def State.groupHdr (s : State) (stream g : Nat) : GroupHdr := groupHdrOf (s.dirRead (s.dirBase stream + 64 + 16 * g) 16)
def GroupHdr.count (h : GroupHdr) : Nat := h.pre + h.len
def State.entryAddr (s : State) (stream : Nat) (h : GroupHdr) (k : Nat) : Nat := s.dirBase stream + h.off + 8 * k

def dirState (e : Nat) : Nat := bits e 31 30
def dirOrdinal (e : Nat) : Nat := bits e 63 32
def dirRoom (e : Nat) : Nat := bits e 23 0
/-- A directory entry of the given ordinal, ESTATE and room. -/
def dirEntry (ord st room : Nat) : Nat := (ord % 2 ^ 32) * 2 ^ 32 + st * 2 ^ 30 + room % 2 ^ 24

/-- Entry index and ordinal of a stream position (R230); none above P0 where the round is empty. -/
def GroupHdr.slotOf (h : GroupHdr) (pos : Nat) : Option (Nat × Nat) :=
  if pos < 256 * h.pre then some (pos / 256, pos / 256)
  else if h.len = 0 then none
  else
    let u := (pos - 256 * h.pre) / 256
    some (h.pre + u % h.len, u)

/-- Whether a span lies in a stream's directory: of a malformed one, what lies outside is no part of it (log 138). -/
def State.inDir (s : State) (stream : Nat) (r : Nat × Nat) : Bool := within r.1 r.2 (s.dirBase stream) (s.dv 0x0D00 2)
/-- The entries of every group of a stream: their addresses. -/
def State.dirEntries (s : State) (stream : Nat) : List Nat :=
  ((List.range (s.dirGroups stream)).flatMap (fun g =>
    let h := s.groupHdr stream g
    (List.range h.count).map (s.entryAddr stream h))).filter (fun a => s.inDir stream (a, 8))

/-- A stream whose directory names no group has no directory, and the module writes none (log 16). -/
def State.hasDir (s : State) (stream : Nat) : Bool := decide (s.dirGroups stream ≠ 0)
def State.rstate (s : State) (stream : Nat) : Nat := if s.hasDir stream then s.hubRead (s.dirBase stream + 2) 1 else 0
/-- A write for a job, or for the module where no job is given (Table 6-4, R161). -/
def State.writeFor (s : State) (job : Option JobId) (a : Nat) (bs : List Byte) : State :=
  match job with
  | some id => s.memWriteJob (some id) 0xFF 0xFF 0 a bs
  | none => s.memWriteHub a bs
/-- Write RSTATE, 0 IDLE, 1 ACTIVE, 2 PARKED, 3 ENDED: for the job that holds the stream, or for the module itself. -/
def State.setRstate (s : State) (stream v : Nat) : State :=
  if s.hasDir stream then s.writeFor (s.streamJob stream) (s.dirBase stream + 2) [BitVec.ofNat 8 v] else s
/-- What a stream's directory takes: its header, its round headers, its entries. -/
def State.dirRanges (s : State) (stream : Nat) : List (Nat × Nat) :=
  (s.dirBase stream, 64) :: (((s.dirBase stream + 64, 16 * s.dirGroups stream) :: (List.range (s.dirGroups stream)).map (fun g =>
    let h := s.groupHdr stream g
    (s.entryAddr stream h 0, 8 * h.count))).filter (fun r => decide (r.2 ≠ 0) && s.inDir stream r))
/-- A read for a job, or for the module where no job is given (Table 6-4, R161, R169). -/
def State.readFor (s : State) (job : Option JobId) (r : Nat × Nat) : State :=
  match job, s.memRead r.1 r.2 with
  | _, .ok _ => s.readDone r.1 r.2
  | some id, .error e => s.accFault e (some id) 0xFF 0xFF 0
  | none, .error e => s.countErr e
/-- Read a stream's directory: for the job that holds the stream, or for the module itself. -/
def State.dirDone (s : State) (stream : Nat) : State :=
  if s.hasDir stream then (s.dirRanges stream).foldl (fun t r => t.readFor (s.streamJob stream) r) s else s
/-- Add to a U32 of the directory header; one that cannot be read stays as it is, and the error is the fault of the job that holds the
stream, or counted where none does (Table 6-4, R161). -/
def State.dirAdd (s : State) (stream off n : Nat) : State :=
  match s.memRead (s.dirBase stream + off) 4 with
  | .ok bs => (s.readDone (s.dirBase stream + off) 4).writeFor (s.streamJob stream) (s.dirBase stream + off) (leBytes 4 ((leNat bs + n) % 2 ^ 32))
  | .error _ => s.readFor (s.streamJob stream) (s.dirBase stream + off, 4)
/-- The same at the retirement of a core's instruction, whose job faults where the word cannot be read or written (Table 6-4). -/
def State.dirAddCore (s : State) (c : Nat) (ord : Word) (stream off n : Nat) : State :=
  match s.memRead (s.dirBase stream + off) 4 with
  | .ok bs => (s.readDone (s.dirBase stream + off) 4).memWriteCore c ord (s.dirBase stream + off) (leBytes 4 ((leNat bs + n) % 2 ^ 32))
  | .error e => s.coreAccFault c ord e

/-! ## Vacancy lists, booking, parking (R226, R232, R244) -/

def State.vac (s : State) (p m : Nat) : Vacancy := mget {} s.ms.vacancy (8 * p + m)
def State.modVac (s : State) (p m : Nat) (f : Vacancy → Vacancy) : State :=
  s.withMs (fun x => { x with vacancy := mmod {} x.vacancy (8 * p + m) f })

/-- Whether a booking is that of a stream's group. -/
def Booking.isFor (b : Booking) (stream g : Nat) : Bool := decide (b.stream = stream ∧ b.group = g)
/-- Add a room to the booking of a stream's group, in the list it is counted against. -/
def addBooking (bs : List Booking) (stream g p m : Nat) : List Booking :=
  if bs.any (fun b => b.isFor stream g) then bs.map (fun b => if b.isFor stream g then { b with left := b.left + 1 } else b)
  else bs ++ [⟨stream, g, p, m, 1⟩]
def useBooking (bs : List Booking) (stream g : Nat) : List Booking :=
  bs.map (fun b => if b.isFor stream g then { b with left := b.left - 1 } else b)
/-- The rooms left of the booking of a stream's group. -/
def bookingOf (bs : List Booking) (stream g : Nat) : Nat :=
  match bs.find? (fun b => b.isFor stream g) with
  | some b => b.left
  | none => 0

/-- Wake the first parked stream of a list: the freed room is booked to its group, and it is ACTIVE again (R244). -/
def State.wakeParked (s : State) (p m : Nat) : State :=
  match (s.vac p m).parked with
  | [] => s
  | (stream, g, _) :: rest =>
    let s := s.modVac p m (fun v => { v with parked := rest, booked := v.booked + 1 })
    let s := match s.streamJob stream with
      | some id => s.modJob id (fun j => { j with bookings := addBooking j.bookings stream g p m })
      | none => s
    s.setRstate stream 1

/-- Return a room to its vacancy list (R240, R246); a LOST room never returns (Table 9-8). -/
def State.pushRoom (s : State) (x : Nat) : State :=
  if roomState (s.roomEntry x) = 2 then s
  else match s.roomPlace x with
    | some pl => (s.modVac pl.pool pl.stack (fun v => { v with free := x :: v.free })).wakeParked pl.pool pl.stack
    | none => s
/-- vacate(x) of R240. -/
def State.vacate (s : State) (x : Nat) : State :=
  if roomState (s.roomEntry x) = 2 then s else (s.setRoomState x 0).pushRoom x
/-- unpin(x) of R240. -/
def State.unpinRoom (s : State) (x : Nat) : State :=
  let s := s.modRoomPin x (fun n => n - 1)
  if roomPins (s.roomEntry x) = 0 ∧ roomRef (s.roomEntry x) = 0 then s.vacate x else s
/-- release(x) of R240. -/
def State.releaseRoom (s : State) (x : Nat) : State :=
  let s := s.modRoomRef x (fun n => n - 1)
  if roomRef (s.roomEntry x) = 0 ∧ roomPins (s.roomEntry x) = 0 then s.vacate x else s

/-- Which room of a list is taken is open (R248): the one at a free index (log 2). -/
def pickRoom (free : List Nat) (q : Quad) : Option (Nat × List Nat) :=
  match free with
  | [] => none
  | [x] => some (x, [])
  | x :: rest => some (((x :: rest)[q.toNat % (rest.length + 1)]?).getD x, (x :: rest).eraseIdx (q.toNat % (rest.length + 1)))

/-- Take a room for a group: a booked one while the booking lasts, else one neither booked nor held (R232, R234). -/
def State.takeRoom (s : State) (job : JobId) (stream g p m : Nat) : Option (Nat × State) :=
  let left := match s.job? job with
    | some j => bookingOf j.bookings stream g
    | none => 0
  let v := s.vac p m
  if left = 0 ∧ v.free.length ≤ v.booked then none
  else
    let (q, s) := s.draw
    match pickRoom v.free q with
    | none => none
    | some (x, free) =>
      let s := s.modVac p m (fun v => { v with free := free, booked := if left = 0 then v.booked else v.booked - 1 })
      let s := if left = 0 then s else s.modJob job (fun j => { j with bookings := useBooking j.bookings stream g })
      some (x, s)

/-- Drop a stream from every list of parked streams. -/
def State.unpark (s : State) (stream : Nat) : State :=
  s.withMs (fun m => { m with
    vacancy := m.vacancy.map (fun e => (e.1, { e.2 with parked := e.2.parked.filter (fun q => decide (q.1 ≠ stream)) })) })
/-- Whether a stream is parked. -/
def State.isParked (s : State) (stream : Nat) : Bool :=
  s.ms.vacancy.any (fun e => e.2.parked.any (fun q => decide (q.1 = stream)))
/-- Park a stream (R243). -/
def State.park (s : State) (stream g p m : Nat) : State :=
  if s.isParked stream then s
  else
    let t := s.pacing
    ((s.modVac p m (fun v => { v with parked := v.parked ++ [(stream, g, t)] })).setRstate stream 2).dirAdd stream 4 1

/-- Release the rooms of a stream's VALID entries and set RSTATE ENDED (R246). The directory has been read (`dirDone`), and the rooms are
those it names (log 138). -/
def State.endRooms (s : State) (stream : Nat) : State :=
  let rooms := ((s.dirEntries stream).map (fun a => s.dirRead a 8)).filter (fun e => decide (dirState e = 1))
  let s := (s.unpark stream).setRstate stream 3
  rooms.foldl (fun t e => t.releaseRoom (dirRoom e)) s

/-- Return the unused bookings of a job to the lists they are counted against (R232). -/
def State.dropBookings (s : State) (j : Job) : State :=
  j.bookings.foldl (fun t b => t.modVac b.pool b.stack (fun v => { v with booked := v.booked - b.left })) s

/-- Give back the rooms that an instruction holds (R246, Table 9-8): a NEW or COPY's room goes back to its list, and the room
that a COPY was to replace loses the reference its entry held (log 17). -/
def State.returnHold (s : State) (h : RoomHold) : State :=
  match h.decision with
  | .new => s.pushRoom h.room
  | .copy old => (s.pushRoom h.room).releaseRoom old
  | _ => s

/-! ## The decision step of SCAT.KV (R233, R234, Table 9-5) -/

/-- What the table decides for one touched room. -/
inductive RoomStep where
  | new (k ord : Nat)
  | inPlace (k room : Nat)
  | copy (k ord room : Nat)
  | overwrite (k ord room : Nat)
  | wait
  | order
  deriving DecidableEq, Repr

/-- Table 9-5 for the room that position `pos` lies in. -/
def State.roomStep (s : State) (stream : Nat) (h : GroupHdr) (pos : Nat) : RoomStep :=
  match h.slotOf pos with
  | none => .order
  | some (k, u) =>
    let e := s.dirRead (s.entryAddr stream h k) 8
    let x := dirRoom e
    let ref := roomRef (s.roomEntry x)
    if dirState e = 3 then .wait
    else if k < h.pre then
      if dirState e = 0 then .new k u
      else if dirState e = 2 then .inPlace k x
      else if ref = 1 then .inPlace k x
      else if 1 < ref then .copy k u x
      else .order
    else if dirState e = 0 then (if u < h.len then .new k u else .order)
    else if dirOrdinal e = u then .inPlace k x
    else if dirState e = 1 ∧ dirOrdinal e + h.len = u then
      (if roomPins (s.roomEntry x) = 0 ∨ s.roomGone x = true then .overwrite k u x else .wait)
    else .order

/-- The room whose entry in the room table Table 9-5 has to read for a touched room. -/
def State.roomRead (s : State) (stream : Nat) (h : GroupHdr) (pos : Nat) : Option Nat :=
  match h.slotOf pos with
  | none => none
  | some (k, u) =>
    let e := s.dirRead (s.entryAddr stream h k) 8
    if dirState e = 1 ∧ (k < h.pre ∨ dirOrdinal e + h.len = u) then some (dirRoom e) else none

/-- The positions at which the touched rooms begin: `pos` itself and each multiple of 256 beyond it. -/
def touchedRooms (pos rows : Nat) : List Nat :=
  if rows = 0 then []
  else (List.range ((pos + rows - 1) / 256 + 1 - pos / 256)).map (fun i => if i = 0 then pos else (pos / 256 + i) * 256)

end Sys2Proof.Machine
end

