-- ==== Sys2Proof/Machine/Numerics.lean ====
section
/-! DEFINITION. Number formats, exact arithmetic and rounding (02). A value is a NaN, an infinity, or a signed dyadic
number `m · 2^e`; every operation is exact until one rounding to nearest-even (R37, R44). -/

namespace Sys2Proof.Machine

/-- A value of the extended reals with signed zeros. -/
inductive Val where
  | nan
  | inf (neg : Bool)
  | fin (neg : Bool) (m : Nat) (e : Int)
  deriving DecidableEq, Repr

def Val.zero : Val := .fin false 0 0
def Val.one : Val := .fin false 1 0
def Val.isNan : Val → Bool
  | .nan => true
  | _ => false
def Val.isInf : Val → Bool
  | .inf _ => true
  | _ => false
def Val.neg? : Val → Bool
  | .nan => false
  | .inf n => n
  | .fin n _ _ => n
def Val.isZero : Val → Bool
  | .fin _ m _ => decide (m = 0)
  | _ => false
def Val.negate : Val → Val
  | .nan => .nan
  | .inf n => .inf (!n)
  | .fin n m e => .fin (!n) m e
def Val.abs : Val → Val
  | .nan => .nan
  | .inf _ => .inf false
  | .fin _ m e => .fin false m e
/-- Multiply by a power of two (R31). -/
def Val.scale (v : Val) (k : Int) : Val :=
  match v with
  | .fin n m e => .fin n m (e + k)
  | w => w

/-- The integer a value is a multiple of `2^e` of, for `e` at most its exponent. -/
def signedAt (n : Bool) (m : Nat) (e lo : Int) : Int :=
  let x : Int := Int.ofNat (m * 2 ^ (e - lo).toNat)
  if n then -x else x

/-- The exact value `z · 2^e`; an exact zero is +0. -/
def ofIntExp (z : Int) (e : Int) : Val := .fin (decide (z < 0)) z.natAbs e

/-- Exact sum (R37, R41, R42): zeros of one sign keep it, an exact zero is +0, infinities of both signs are NaN. -/
def Val.add (a b : Val) : Val :=
  match a, b with
  | .nan, _ => .nan
  | _, .nan => .nan
  | .inf n, .inf k => if n = k then .inf n else .nan
  | .inf n, _ => .inf n
  | _, .inf n => .inf n
  | .fin n m e, .fin k w f =>
    if m = 0 ∧ w = 0 then .fin (n && k) 0 0
    else if m = 0 then .fin k w f
    else if w = 0 then .fin n m e
    else
      let lo := min e f
      ofIntExp (signedAt n m e lo + signedAt k w f lo) lo

/-- Exact product (R37, R42): infinity times zero is NaN. -/
def Val.mul (a b : Val) : Val :=
  match a, b with
  | .nan, _ => .nan
  | _, .nan => .nan
  | .inf n, .inf k => .inf (n != k)
  | .inf n, .fin k w _ => if w = 0 then .nan else .inf (n != k)
  | .fin n m _, .inf k => if m = 0 then .nan else .inf (n != k)
  | .fin n m e, .fin k w f => .fin (n != k) (m * w) (e + f)

/-- Whether `a < b`; false where either is NaN. -/
def Val.lt (a b : Val) : Bool :=
  match a, b with
  | .nan, _ => false
  | _, .nan => false
  | .inf n, .inf k => n && !k
  | .inf n, _ => n
  | _, .inf k => !k
  | .fin n m e, .fin k w f =>
    let lo := min e f
    decide (signedAt n m e lo < signedAt k w f lo)
def Val.le (a b : Val) : Bool := !a.isNan && !b.isNan && !b.lt a
/-- Numeric equality: +0 equals −0, NaN equals nothing. -/
def Val.eqv (a b : Val) : Bool := a.le b && b.le a

/-- The larger of two (R52): NaN if either is NaN, −0 below +0. -/
def Val.max (a b : Val) : Val :=
  if a.isNan || b.isNan then .nan
  else if a.lt b then b else if b.lt a then a
  else if a.neg? then b else a
/-- The smaller of two (R52). -/
def Val.min (a b : Val) : Val :=
  if a.isNan || b.isNan then .nan
  else if a.lt b then a else if b.lt a then b
  else if a.neg? then a else b

/-! ## Formats (Table 2-1) -/

/-- A floating-point format: width, mantissa bits, exponent of the least subnormal, the magnitude codes of the largest
finite value, of infinity, and of the canonical NaN, and whether a finite overflow becomes infinity (Table 2-4). -/
structure FloatFmt where
  width : Nat
  mant : Nat
  emin : Int
  maxCode : Nat
  infCode : Option Nat
  nanCode : Option Nat
  toInf : Bool

def fp32 : FloatFmt := ⟨32, 23, -149, 0x7F7FFFFF, some 0x7F800000, some 0x7FC00000, true⟩
def bf16 : FloatFmt := ⟨16, 7, -133, 0x7F7F, some 0x7F80, some 0x7FC0, true⟩
def fp16 : FloatFmt := ⟨16, 10, -24, 0x7BFF, some 0x7C00, some 0x7E00, true⟩
def e4m3 : FloatFmt := ⟨8, 3, -9, 0x7E, none, some 0x7F, false⟩
def e5m2 : FloatFmt := ⟨8, 2, -16, 0x7B, some 0x7C, some 0x7E, false⟩
def e3m2 : FloatFmt := ⟨6, 2, -4, 0x1F, none, none, false⟩
def e2m3 : FloatFmt := ⟨6, 3, -3, 0x1F, none, none, false⟩
def e2m1 : FloatFmt := ⟨4, 1, -1, 7, none, none, false⟩

/-- The value a code stands for (R30, Table 2-1). -/
def FloatFmt.decode (f : FloatFmt) (code : Nat) : Val :=
  let neg := decide (2 ^ (f.width - 1) ≤ code % 2 ^ f.width)
  let c := code % 2 ^ (f.width - 1)
  if f.maxCode < c then (if f.infCode = some c then .inf neg else .nan)
  else if c < 2 ^ f.mant then .fin neg c f.emin
  else .fin neg (2 ^ f.mant + c % 2 ^ f.mant) (f.emin + Int.ofNat (c / 2 ^ f.mant) - 1)

/-- `m / 2^k` to the nearest integer, ties to even. -/
def rneShift (m k : Nat) : Nat :=
  let q := m / 2 ^ k
  let r := m % 2 ^ k
  if 2 ^ k < 2 * r ∨ (2 * r = 2 ^ k ∧ q % 2 = 1) then q + 1 else q

/-- The magnitude code of `m · 2^e` rounded to nearest-even, unbounded above: subnormals are kept (R45). -/
def FloatFmt.magCode (f : FloatFmt) (m : Nat) (e : Int) : Nat :=
  if m = 0 then 0
  else
    let top : Int := e + Int.ofNat (Nat.log2 m) + 1
    let e' := if top - Int.ofNat (f.mant + 1) < f.emin then f.emin else top - Int.ofNat (f.mant + 1)
    let m' := if e' ≤ e then m * 2 ^ (e - e').toNat else rneShift m (e' - e).toNat
    (e' - f.emin).toNat * 2 ^ f.mant + m'

/-- A stored element, and whether it was saturated or became NaN (R48). -/
structure Conv where
  code : Nat
  sat : Bool
  nan : Bool

/-- Convert a value to a format (R44–R48, Table 2-4). Only a value that rounds beyond the largest finite counts as a saturation, not one
that rounds back to it (DEDUCED, log 166). -/
def FloatFmt.conv (f : FloatFmt) (v : Val) : Conv :=
  let sg := if v.neg? then 2 ^ (f.width - 1) else 0
  match v with
  | .nan => ⟨f.nanCode.getD 0, false, true⟩
  | .inf _ => match f.infCode with
    | some c => ⟨sg + c, false, false⟩
    | none => ⟨sg + f.maxCode, true, false⟩
  | .fin _ m e =>
    let c := f.magCode m e
    if c ≤ f.maxCode then ⟨sg + c, false, false⟩
    else if f.toInf then ⟨sg + f.infCode.getD f.maxCode, false, false⟩
    else ⟨sg + f.maxCode, true, false⟩
def FloatFmt.encode (f : FloatFmt) (v : Val) : Nat := (f.conv v).code
/-- One rounding to a format. -/
def FloatFmt.round (f : FloatFmt) (v : Val) : Val := f.decode (f.encode v)

def ofF32 (w : Nat) : Val := fp32.decode w
def toF32 (v : Val) : Nat := fp32.encode v
def r32 (v : Val) : Val := fp32.round v

/-- The nearest integer, ties to even. -/
def rneInt (neg : Bool) (m : Nat) (e : Int) : Int :=
  let x : Int := if 0 ≤ e then Int.ofNat (m * 2 ^ e.toNat) else Int.ofNat (rneShift m (-e).toNat)
  if neg then -x else x

/-- Convert to a two's-complement integer of `w` bits (Table 2-4): nearest-even, then clamped (log 11). -/
def convInt (w : Nat) (v : Val) : Conv :=
  let hi : Int := 2 ^ (w - 1) - 1
  let lo : Int := -(2 ^ (w - 1))
  let code : Int → Nat := fun z => (z % 2 ^ w).toNat
  match v with
  | .nan => ⟨0, false, false⟩
  | .inf n => ⟨code (if n then lo else hi), true, false⟩
  | .fin n m e =>
    let z := rneInt n m e
    if z < lo then ⟨code lo, true, false⟩ else if hi < z then ⟨code hi, true, false⟩ else ⟨code z, false, false⟩

/-- The signed integer a `w`-bit code spells. -/
def sInt (w c : Nat) : Int := if 2 ^ (w - 1) ≤ c % 2 ^ w then Int.ofNat (c % 2 ^ w) - 2 ^ w else Int.ofNat (c % 2 ^ w)
def ofInt (z : Int) : Val := ofIntExp z 0

/-! ## FP32 operations (R44): one rounding each -/

def fadd (a b : Val) : Val := r32 (a.add b)
def fsub (a b : Val) : Val := r32 (a.add b.negate)
def fmul (a b : Val) : Val := r32 (a.mul b)
def ffma (a b c : Val) : Val := r32 ((a.mul b).add c)

/-- `n / d · 2^e` with a sticky bit below at least `p` quotient bits. -/
def quotSticky (n d p : Nat) (e : Int) : Nat × Int :=
  let s := p + Nat.log2 d + 2
  let q := (n * 2 ^ s) / d
  let r := (n * 2 ^ s) % d
  (2 * q + (if r = 0 then 0 else 1), e - Int.ofNat s - 1)

/-- The exact quotient, to a sticky bit far below any rounding position of binary32. -/
def Val.div (a b : Val) : Val :=
  match a, b with
  | .nan, _ => .nan
  | _, .nan => .nan
  | .inf _, .inf _ => .nan
  | .inf n, .fin k _ _ => .inf (n != k)
  | .fin n _ _, .inf k => .fin (n != k) 0 0
  | .fin n m e, .fin k w f =>
    if w = 0 then (if m = 0 then .nan else .inf (n != k))
    else if m = 0 then .fin (n != k) 0 0
    else
      let q := quotSticky m w 64 (e - f)
      .fin (n != k) q.1 q.2
/-- Correctly rounded division (R117). -/
def fdiv (a b : Val) : Val := r32 (a.div b)

/-- Integer square root, one result bit per unit of fuel. -/
def isqrtGo (n : Nat) : Nat → Nat → Nat
  | 0, r => r
  | b + 1, r => if (r + 2 ^ b) * (r + 2 ^ b) ≤ n then isqrtGo n b (r + 2 ^ b) else isqrtGo n b r
def isqrt (n : Nat) : Nat := isqrtGo n (Nat.log2 n / 2 + 1) 0

/-- Correctly rounded square root (R117): NaN below zero, −0 of −0. -/
def fsqrt (a : Val) : Val :=
  match a with
  | .nan => .nan
  | .inf n => if n then .nan else .inf false
  | .fin n m e =>
    if m = 0 then .fin n 0 0
    else if n then .nan
    else
      let m := if e % 2 = 0 then m else 2 * m
      let e := if e % 2 = 0 then e else e - 1
      let x := m * 2 ^ 128
      let q := isqrt x
      r32 (.fin false (2 * q + (if q * q = x then 0 else 1)) (e / 2 - 65))

/-! ## Array sums and trees -/

/-- The exact sum of one block of products (R37, R41, R42): from −0, so that the sum is −0 only where every product is;
a padded block holds +0 products besides (R40). -/
def blockSum (ps : List Val) (padded : Bool) : Val :=
  ps.foldl Val.add (if padded then .zero else .fin true 0 0)

/-- A block sum as it is added to the accumulator (R37, R42): exactly, but infinity of its sign where it is finite and its magnitude
exceeds the FP32 range, which is where its rounding would be infinite (DEDUCED, log 141). -/
def blockAdd (acc b : Val) : Val := r32 (acc.add (if (r32 b).isInf then r32 b else b))

/-- Split a list into groups of `n`, by fuel. -/
def chunks {α : Type} (n : Nat) : Nat → List α → List (List α)
  | 0, _ => []
  | f + 1, xs => if xs.isEmpty then [] else xs.take n :: chunks n f (xs.drop n)
def chunks32 {α : Type} (xs : List α) : List (List α) := chunks 32 (xs.length / 32 + 1) xs

/-- Add the block sums of one tile of `k` elements into an FP32 accumulator, in increasing K (R37, R43): the products beyond
the given ones are +0 (R40). -/
def accBlocks (acc : Val) (ps : List Val) (k : Nat) : Val :=
  let acc := (chunks32 ps).foldl (fun a b => blockAdd a (blockSum b (decide (b.length < 32)))) acc
  if cdiv ps.length 32 < k / 32 then r32 (acc.add .zero) else acc

/-- INT8 products into an INT32 accumulator, wrapping (R39). -/
def accInt (acc : Int) (ps : List Int) : Int := sInt 32 (((acc + ps.foldl (· + ·) 0) % 2 ^ 32).toNat)

/-- One round of the tree of R51. -/
def treeRound (op : Val → Val → Val) : List Val → List Val
  | a :: b :: rest => op a b :: treeRound op rest
  | xs => xs
/-- The tree of R51, by fuel; the value of no partials is +0. -/
def treeGo (op : Val → Val → Val) : Nat → List Val → Val
  | _, [] => .zero
  | _, [a] => a
  | 0, a :: _ => a
  | f + 1, xs => treeGo op f (treeRound op xs)
def tree (op : Val → Val → Val) (xs : List Val) : Val := treeGo op xs.length xs
/-- Row sum (R51, R52). -/
def treeSum (xs : List Val) : Val := tree fadd xs
/-- Row maximum (R52), order-independent; −∞ of no operands. -/
def maxOf (xs : List Val) : Val := xs.foldl Val.max (.inf true)

/-- floor(log2 |v|) of a non-zero finite value. -/
def floorLog2 : Val → Int
  | .fin _ m e => e + Int.ofNat (Nat.log2 m)
  | _ => 0

end Sys2Proof.Machine
end

