-- ==== Sys2Proof/Machine/Operands.lean ====
section
/-! DEFINITION. Operand descriptors and the rows they name (Tables 4-3, 4-4; R31–R35, R106–R109), element packing (R33),
and the choice of an MX scale (R49). -/

namespace Sys2Proof.Machine

/-! ## Format codes (Table 4-4) -/

def fmtInt8 : Nat := 5
def fmtInt32 : Nat := 6
def isMx (f : Nat) : Bool := decide (7 ≤ f) && decide (f ≤ 11)
def isPerTensor (f : Nat) : Bool := decide (3 ≤ f) && decide (f ≤ 5)
/-- Bits of an element. -/
def fmtBits : Nat → Nat
  | 0 => 32 | 1 => 16 | 2 => 16 | 3 => 8 | 4 => 8 | 5 => 8 | 6 => 32 | 7 => 8 | 8 => 8 | 9 => 6 | 10 => 6 | _ => 4
/-- The floating-point format of a code; none of an integer. -/
def fmtFloat : Nat → Option FloatFmt
  | 0 => some fp32 | 1 => some bf16 | 2 => some fp16 | 3 => some e4m3 | 4 => some e5m2 | 7 => some e4m3 | 8 => some e5m2
  | 9 => some e3m2 | 10 => some e2m3 | 11 => some e2m1 | _ => none
/-- E_max of R49. -/
def mxEmax : Nat → Int
  | 7 => 8 | 8 => 15 | 9 => 4 | _ => 2

/-- The value of an element's code. -/
def decodeElem (f c : Nat) : Val :=
  match fmtFloat f with
  | some x => x.decode c
  | none => ofInt (sInt (fmtBits f) c)
/-- Convert a value into an element (Table 2-4). -/
def encodeElem (f : Nat) (v : Val) : Conv :=
  match fmtFloat f with
  | some x => x.conv v
  | none => convInt (fmtBits f) v

/-- Array modes (Table 3-2): ARITH cycles per row, 1 full, 2 half, 4 quarter, of a format on the array; the slower format of
a pair sets the mode (R36). -/
def fmtCycles (f : Nat) : Nat := if f = 11 then 1 else if f = 1 ∨ f = 2 then 4 else 2
def modeOf (a w : Nat) : Nat := max (fmtCycles a) (fmtCycles w)
/-- Rows of an instruction in a mode, at most (Table 3-2). -/
def rowLimit (mode : Nat) : Nat := 512 / mode
/-- Whether the array admits a pair (R36): any two floating-point formats but FP32, or INT8 with INT8. -/
def pairOk (a w : Nat) : Bool :=
  let fl := fun f => decide (f = 1 ∨ f = 2 ∨ f = 3 ∨ f = 4) || isMx f
  (fl a && fl w) || (decide (a = fmtInt8) && decide (w = fmtInt8))
/-- Bytes of a weight tile (Table 2-2). -/
def tileBytes (f : Nat) : Nat :=
  if f = 11 then 34816 else if f = 9 ∨ f = 10 then 51200 else if f = 7 ∨ f = 8 then 67584
  else if f = 1 ∨ f = 2 then 131072 else 65536

/-! ## Operand descriptors (Table 4-3) -/

structure Operand where
  addr : Nat
  fmt : Nat
  pad : Nat
  rows : Nat
  pitch : Nat
  bstride : Nat
  scale : Nat
  spare : Nat

/-- The 96-bit descriptor in the low bits of a number. -/
def operandOf (v : Nat) : Operand :=
  { addr := bits v 16 0 * 64, fmt := bits v 20 17, pad := bits v 22 21, rows := bits v 32 23, pitch := bits v 44 33 * 64,
    bstride := bits v 63 48 * 64, scale := bits v 95 64, spare := bits v 47 45 }
/-- The 64-bit short form (R106): no scale of its own. -/
def shortOf (v : Nat) : Operand := { operandOf (v % 2 ^ 64) with scale := 0 }

/-- Bytes of `n` packed elements (R33). -/
def rowBytes (f n : Nat) : Nat := cdiv (n * fmtBits f) 8
/-- Scale bytes of a row of `n` elements (R107). -/
def scaleBytes (n : Nat) : Nat := cdiv n 32
def Operand.scaleBase (o : Operand) : Nat := o.scale * 64
/-- The per-tensor scale, 1.0 for a format that has none (R35, R38). -/
def Operand.scaleVal (o : Operand) : Val := if isPerTensor o.fmt then ofF32 o.scale else .one

/-- The operand at iteration i (R109): an MX operand's scale base advances with it, beyond bit 16 too. -/
def Operand.iter (o : Operand) (i : Nat) : Operand :=
  { o with
    addr := o.addr + i * o.bstride
    scale := if isMx o.fmt then o.scale + i * (o.bstride / 64) else o.scale }
/-- The operand with its rows clipped (R131). -/
def Operand.clip (o : Operand) (c : Option Nat) : Operand :=
  match c with
  | some n => { o with rows := min o.rows n }
  | none => o

/-- Whether a descriptor is legal for rows of `n` elements (R9, R106, R107): reserved bits zero, a defined format, rows and
pitch in range, no row wider than its pitch, PAD only where the family allows it. -/
def Operand.legal (o : Operand) (short : Bool) (pads : Bool) (n : Nat) : Bool :=
  decide (o.spare = 0) && decide (o.fmt < 12) && decide (o.rows ≤ 512) && decide (o.pitch ≠ 0) &&
  decide (o.pad = 0 ∨ (pads = true ∧ o.pad < 3)) && (!short || !isMx o.fmt) &&
  decide (rowBytes o.fmt n ≤ o.pitch) &&
  (if isMx o.fmt then decide (bits o.scale 31 17 = 0) else if isPerTensor o.fmt then true else decide (o.scale = 0))

/-! ## Ranges -/

/-- A byte range `[lo, hi)`. -/
abbrev Rng := Nat × Nat
def rngMeets (a b : Rng) : Bool := meets a.1 (a.2 - a.1) b.1 (b.2 - b.1)

/-- The core-store bytes that `ncols` valid columns of an operand occupy at one iteration, its scales under the family's row
width (R107). -/
def Operand.ranges (o : Operand) (ncols width : Nat) : List Rng :=
  if o.rows = 0 ∨ ncols = 0 then []
  else
    (o.addr, o.addr + (o.rows - 1) * o.pitch + rowBytes o.fmt ncols) ::
    (if isMx o.fmt then [(o.scaleBase, o.scaleBase + (o.rows - 1) * scaleBytes width + scaleBytes ncols)] else [])
/-- Ranges over iterations: the span from the lowest to the highest byte any iteration touches (R109); one that touches none adds none. -/
def hull (rs : List Rng) (rt : List Rng) : List Rng :=
  if rs.isEmpty then rt else if rt.isEmpty then rs else rs.zipWith (fun a b => (min a.1 b.1, max a.2 b.2)) rt

/-! ## Rows -/

/-- The code of element i of packed bytes (R33). -/
def elemAt (f : Nat) (v : Nat) (i : Nat) : Nat := (v / 2 ^ (i * fmtBits f)) % 2 ^ fmtBits f

/-- `n` element codes of packed bytes, by fuel: the next from the low bits. -/
def unpack (w : Nat) : Nat → Nat → List Nat
  | 0, _ => []
  | n + 1, v => v % 2 ^ w :: unpack w n (v / 2 ^ w)
/-- The number packed element codes spell. -/
def packNat (w : Nat) : List Nat → Nat
  | [] => 0
  | c :: cs => c % 2 ^ w + 2 ^ w * packNat w cs

/-- Apply MX scales to values in blocks of 32 (R31). -/
def applyScales (vs : List Val) (scales : List Nat) : List Val :=
  (vs.zipIdx).map (fun (v, i) =>
    let e := (scales[i / 32]?).getD 0
    if e = 0xFF then .nan else v.scale (Int.ofNat e - 127))

/-- The codes of the first `ncols` elements of row r. -/
def Operand.rowCodes (o : Operand) (m : Mem) (r ncols : Nat) : List Nat :=
  unpack (fmtBits o.fmt) ncols (m.readLE (o.addr + r * o.pitch) (rowBytes o.fmt ncols))
/-- The values of the first `ncols` elements of row r, MX scales applied, per-tensor scales not (R37, R38). -/
def Operand.row (o : Operand) (m : Mem) (r ncols width : Nat) : List Val :=
  let vs := (o.rowCodes m r ncols).map (decodeElem o.fmt)
  if isMx o.fmt then
    applyScales vs ((m.readBytes (o.scaleBase + r * scaleBytes width) (scaleBytes ncols)).map BitVec.toNat)
  else vs

/-- Writes to a core store in order, with the saturations and NaN outputs they count (R48). -/
structure Writes where
  cs : List (Nat × List Byte) := []
  acc : List (Nat × Nat) := []
  sat : Nat := 0
  nan : Nat := 0

def Writes.append (a b : Writes) : Writes := ⟨a.cs ++ b.cs, a.acc ++ b.acc, a.sat + b.sat, a.nan + b.nan⟩
def Writes.join (ws : List Writes) : Writes := ws.foldl Writes.append {}

/-- The scale byte of an MX block and its elements (R49). A NaN among the values makes the whole block NaN, its elements 0,
also where Table 2-4 has a NaN element code (DEDUCED, log 143). A block with an infinite value takes the largest scale; the
infinite element converts as Table 2-4 says, to infinity in E5M2, although the comment of R49 has it saturate (DEDUCED, log
142). -/
def mxBlock (f : Nat) (xs : List Val) : Nat × List Conv :=
  if xs.any Val.isNan then (0xFF, xs.map (fun _ => ⟨0, false, true⟩))
  else
    let x : Int :=
      if xs.any Val.isInf then 127
      else
        let am := xs.foldl (fun a v => Val.max a v.abs) Val.zero
        if am.isZero then -127 else max (-127) (min 127 (floorLog2 am - mxEmax f))
    ((x + 127).toNat, xs.map (fun v => encodeElem f (v.scale (-x))))

/-- Write row r of an operand: the given values are its first valid columns (R46, R107). -/
def Operand.writeRow (o : Operand) (r width : Nat) (vs : List Val) : Writes :=
  if vs.isEmpty then {}
  else
    let at_ := o.addr + r * o.pitch
    let put := fun (cs : List Conv) => (at_, leBytes (rowBytes o.fmt vs.length) (packNat (fmtBits o.fmt) (cs.map Conv.code)))
    let count := fun (cs : List Conv) (w : List (Nat × List Byte)) =>
      ({ cs := w, sat := cs.countP Conv.sat, nan := cs.countP Conv.nan } : Writes)
    if isMx o.fmt then
      let bl := (chunks32 vs).map (mxBlock o.fmt)
      let cs := bl.flatMap (fun b => b.2)
      count cs [put cs, (o.scaleBase + r * scaleBytes width, bl.map (fun b => BitVec.ofNat 8 b.1))]
    else
      let cs := vs.map (encodeElem o.fmt)
      count cs [put cs]

/-- An FP32 value of the core store, and its bytes. -/
def readF32 (m : Mem) (a : Nat) : Val := ofF32 (m.readLE a 4)
def f32Bytes (v : Val) : List Byte := leBytes 4 (toF32 v)
def writeF32s (a : Nat) (vs : List Val) : Writes := if vs.isEmpty then {} else { cs := [(a, vs.flatMap f32Bytes)] }

/-- Word n of row r of the accumulator store: 512 rows of 256 words (Table 3-1). -/
def accWord (m : Mem) (r n : Nat) : Nat := m.readLE ((r * 256 + n) * 4) 4
/-- Accumulator words to write for one row, its columns from 0. -/
def accRow (r : Nat) (ws : List Nat) : Writes :=
  { acc := ws.zipIdx.map (fun (w, n) => (r * 256 + n, w)) }

end Sys2Proof.Machine
end

