-- ==== Sys2Proof/Machine/TileDecode.lean ====
section
/-! DEFINITION. Tile descriptors (04): families, fields, the legality checks made when an instruction issues or starts, and
the core-store and device ranges of its operands. A descriptor is handled as the number its 512 bits spell (R11). -/

namespace Sys2Proof.Machine

/-- The families of Table 4-2. -/
inductive Fam where
  | mma | mmaLa | mmaRs | mmaAg | attnFwd | attnBwd | attnRelay | sfn | norm | smax | crop | reuseChk | conv | convDw
  | move | gath | scatKv | tblLoad | moveA2a | moveAr | wait | post | bar
  deriving DecidableEq, Repr

/-- Families by opcode (Table 4-2): none is an illegal instruction. -/
def famOf : Nat → Option Fam
  | 0x01 => some .mma | 0x02 => some .mmaLa | 0x03 => some .mmaRs | 0x04 => some .mmaAg
  | 0x08 => some .attnFwd | 0x09 => some .attnBwd | 0x0A => some .attnRelay
  | 0x10 => some .sfn | 0x11 => some .norm | 0x12 => some .smax | 0x13 => some .crop | 0x14 => some .reuseChk
  | 0x18 => some .conv | 0x19 => some .convDw
  | 0x20 => some .move | 0x21 => some .gath | 0x22 => some .scatKv | 0x23 => some .tblLoad
  | 0x24 => some .moveA2a | 0x25 => some .moveAr
  | 0x30 => some .wait | 0x31 => some .post | 0x32 => some .bar
  | _ => none

/-- Ports (Table 4-2): 1 A, 2 V, 4 M, 8 X, 0 the issue stage. -/
def Fam.ports : Fam → Nat
  | .mma => 1 | .mmaLa => 1 | .mmaRs => 9 | .mmaAg => 9
  | .attnFwd => 3 | .attnBwd => 3 | .attnRelay => 11
  | .sfn => 2 | .norm => 2 | .smax => 2 | .crop => 2 | .reuseChk => 2
  | .conv => 1 | .convDw => 1
  | .move => 4 | .gath => 4 | .scatKv => 4 | .tblLoad => 4 | .moveA2a => 12 | .moveAr => 12
  | .wait => 0 | .post => 0 | .bar => 0
def Fam.onX (f : Fam) : Bool := decide (8 ≤ f.ports)
def Fam.onA (f : Fam) : Bool := f.ports % 2 = 1
def Fam.onM (f : Fam) : Bool := decide ((f.ports / 4) % 2 = 1)
def Fam.onV (f : Fam) : Bool := decide ((f.ports / 2) % 2 = 1)
/-- BATCH allowed (Table 4-2). -/
def Fam.batchOk : Fam → Bool
  | .crop | .reuseChk | .gath | .scatKv | .tblLoad | .wait | .post | .bar => false
  | _ => true
/-- CLAIM allowed (Table 4-2). -/
def Fam.claimOk : Fam → Bool
  | .mma | .mmaLa | .attnFwd | .attnBwd | .sfn | .norm | .smax | .conv | .convDw | .move => true
  | _ => false
/-- Families that read a table bank, to which alone G1 belongs (Table 4-1). -/
def Fam.readsBank : Fam → Bool
  | .attnFwd | .attnBwd | .attnRelay | .sfn | .smax => true
  | _ => false
def Fam.namesBank (f : Fam) : Bool := f.readsBank || decide (f = .tblLoad)
def Fam.isAttn : Fam → Bool
  | .attnFwd | .attnBwd | .attnRelay => true
  | _ => false
def Fam.isMma : Fam → Bool
  | .mma | .mmaLa | .mmaRs | .mmaAg => true
  | _ => false
def Fam.isConv : Fam → Bool
  | .conv | .convDw => true
  | _ => false
def Fam.isExch : Fam → Bool := Fam.onX

/-! ## Header fields (Table 4-1) -/

def dOpc (d : Nat) : Nat := bits d 7 0
def dBatch (d : Nat) : Nat := bits d 15 8
def dStream (d : Nat) : Nat := bits d 31 16
def dWaitId (d : Nat) : Nat := bits d 47 32
def dPostId (d : Nat) : Nat := bits d 63 48
def dWaitVal (d : Nat) : Nat := bits d 95 64
def dPostVal (d : Nat) : Nat := bits d 127 96
def dBank (d : Nat) : Nat := bits d 135 128
def dStreamEn (d : Nat) : Bool := bit d 136
def dClaim (d : Nat) : Bool := bit d 137
def dG1 (d : Nat) : Bool := bit d 138
def dWaitKind (d : Nat) : Nat := bits d 140 139
def dPostKind (d : Nat) : Nat := bits d 142 141
def dWork (d : Nat) : Nat := bits d 151 144

/-- The header's checks (R9, R102–R105, R110, R121). -/
def headerLegal (f : Fam) (d : Nat) : Bool :=
  decide (bits d 159 152 = 0) && !bit d 143 &&
  (f.batchOk || decide (dBatch d = 0)) && (f.claimOk || !dClaim d) && (!dClaim d || decide (dBatch d = 0)) &&
  (dClaim d || decide (dWork d = 0)) && (dStreamEn d || decide (dStream d = 0)) &&
  (f.readsBank || !dG1 d) && decide (dBank d ≤ if f.namesBank then 1 else 0) &&
  decide (dWaitKind d ≠ 3) && decide (dPostKind d ≠ 3) &&
  (decide (dWaitKind d ≠ 0) || (decide (dWaitId d = 0) && decide (dWaitVal d = 0))) &&
  (decide (dPostKind d ≠ 0) || (decide (dPostId d = 0) && decide (dPostVal d = 0))) &&
  (decide (dWaitKind d ≠ 2) || decide (dWaitId d < 4096)) && (decide (dPostKind d ≠ 2) || decide (dPostId d < 4096)) &&
  (decide (f ≠ .wait) || decide (dWaitKind d ≠ 0)) && (decide (f ≠ .post) || decide (dPostKind d ≠ 0)) &&
  (decide (f ≠ .scatKv) || dStreamEn d)

/-! ## Body fields -/

/-- A and IN of the array families, and the operands at the same place. -/
def dOp1 (d : Nat) : Operand := operandOf (bits d 255 160)
def dOp2 (d : Nat) : Operand := operandOf (bits d 351 256)
def dSop1 (d : Nat) : Operand := shortOf (bits d 223 160)
def dSop2 (d : Nat) : Operand := shortOf (bits d 287 224)
def dSop3 (d : Nat) : Operand := shortOf (bits d 351 288)
def dSop4 (d : Nat) : Operand := shortOf (bits d 415 352)

/-- MMA family (Tables 4-6, 4-7). -/
def mWAddr (d : Nat) : Nat := bits d 391 352
def mWFmt (d : Nat) : Nat := bits d 395 392
def mKExt (d : Nat) : Nat := bits d 404 396
def mNExt (d : Nat) : Nat := bits d 413 405
def mAccRow (d : Nat) : Nat := bits d 422 414
def mInit (d : Nat) : Nat := bits d 424 423
def mOutm (d : Nat) : Nat := bits d 426 425
def mKeep (d : Nat) : Bool := bit d 427
def mUseKept (d : Nat) : Bool := bit d 428
def mWScale (d : Nat) : Nat := bits d 511 480
def laUt (d : Nat) : Nat := bits d 435 429
def laAdapter (d : Nat) : Nat := bits d 447 436
def laT (d : Nat) : Operand := shortOf (bits d 511 448)

/-- Exchange extension (Table 4-8). -/
def xLevel (d : Nat) : Nat := bits d 447 446
def xGroup (d : Nat) : Nat := bits d 455 448
def xAddr (d : Nat) : Nat := bits d 495 456
def xSeq (d : Nat) : Nat := bits d 511 496

/-- Attention (Table 4-9). -/
def aFirst (d : Nat) : Bool := bit d 433
def aLast (d : Nat) : Bool := bit d 434
def aRopeQ (d : Nat) : Bool := bit d 435
def aRopeK (d : Nat) : Bool := bit d 436
def aApr (d : Nat) : Nat := bits d 432 416 * 64

/-- The attention parameter record (Table 4-10). -/
structure AttnRec where
  stats : Nat
  mask : Nat
  qpos : Nat
  kpos : Nat
  rope : Nat
  dq : Nat
  dk : Nat
  dv : Nat
  delta : Nat
  stStride : Nat
  qkScale : Val
  hdim : Nat
  ropeT : Nat
  ropeH : Nat
  ropeW : Nat
  maskEn : Bool
  spare : Nat

def attnRec (m : Mem) (d : Nat) : AttnRec :=
  let r := m.readLE (aApr d) 64
  { stats := bits r 16 0 * 64, mask := bits r 33 17 * 64, qpos := bits r 50 34 * 64, kpos := bits r 67 51 * 64,
    rope := bits r 84 68 * 64, dq := bits r 101 85 * 64, dk := bits r 118 102 * 64, dv := bits r 135 119 * 64,
    delta := bits r 152 136 * 64, stStride := bits r 168 153 * 64, qkScale := ofF32 (bits r 200 169),
    hdim := bits r 209 201, ropeT := bits r 217 210, ropeH := bits r 225 218, ropeW := bits r 233 226,
    maskEn := bit r 234, spare := bits r 511 235 }

/-- The rotary table header (Table 8-4). -/
structure RopeHdr where
  offT : Nat
  offH : Nat
  offW : Nat
  countT : Nat
  countH : Nat
  countW : Nat
  spare : Nat
def ropeHdr (m : Mem) (a : Nat) : RopeHdr :=
  let r := m.readLE a 64
  { offT := bits r 127 96, offH := bits r 159 128, offW := bits r 191 160, countT := bits r 15 0, countH := bits r 31 16,
    countW := bits r 47 32, spare := bits r 95 48 + bits r 511 192 }

/-- Vector family (Table 4-11). -/
def vCols (d : Nat) : Nat := bits d 301 288
def vPreA (d : Nat) : Val := ofF32 (bits d 333 302)
def vPreB (d : Nat) : Val := ofF32 (bits d 365 334)
def vMaskAddr (d : Nat) : Nat := bits d 350 334 * 64
def vMaskEn (d : Nat) : Bool := bit d 351
def nKind (d : Nat) : Nat := bits d 303 302
def nGamma (d : Nat) : Nat := bits d 320 304 * 64
def nBeta (d : Nat) : Nat := bits d 337 321 * 64
def nMod (d : Nat) : Nat := bits d 354 338 * 64
def nGammaEn (d : Nat) : Bool := bit d 355
def nBetaEn (d : Nat) : Bool := bit d 356
def nEps (d : Nat) : Val := ofF32 (bits d 388 357)

/-- Convolution family (Table 4-12); the taps, dilations and strides are the field plus one. -/
def cKH (d : Nat) : Nat := bits d 398 396 + 1
def cKW (d : Nat) : Nat := bits d 401 399 + 1
def cSH (d : Nat) : Nat := bits d 404 402 + 1
def cSW (d : Nat) : Nat := bits d 407 405 + 1
def cDH (d : Nat) : Nat := bits d 409 408 + 1
def cDW (d : Nat) : Nat := bits d 411 410 + 1
def cPH (d : Nat) : Nat := bits d 414 412
def cPW (d : Nat) : Nat := bits d 417 415
def cInW (d : Nat) : Nat := bits d 431 418
def cNExt (d : Nat) : Nat := bits d 440 432
def cAccRow (d : Nat) : Nat := bits d 449 441
def cInit (d : Nat) : Nat := bits d 451 450
def cOutm (d : Nat) : Nat := bits d 453 452
def cX0 (d : Nat) : Nat := bits d 467 454
def cY0 (d : Nat) : Nat := bits d 481 468
def cInH (d : Nat) : Nat := bits d 495 482
def cLine (d : Nat) : Nat := bits d 499 496
/-- Filter tiles F (R277). -/
def cTiles (f : Fam) (d : Nat) : Nat := if f = .convDw then 1 else cdiv (cKH d * cKW d * 16) 256

/-- CROP (Table 4-13). -/
def pBoxAddr (d : Nat) : Nat := bits d 240 224 * 64
def pSrcAddr (d : Nat) : Nat := bits d 257 241 * 64
def pBoxes (d : Nat) : Nat := bits d 273 258 + 1
def pOH (d : Nat) : Nat := bits d 281 274 + 1
def pOW (d : Nat) : Nat := bits d 289 282 + 1
def pCh (d : Nat) : Nat := bits d 298 290
def pNearest (d : Nat) : Bool := bit d 299
def pExtrap (d : Nat) : Val := ofF32 (bits d 331 300)

/-- MOVE (Table 4-14). -/
def vSrc (d : Nat) : Nat := bits d 199 160
def vDst (d : Nat) : Nat := bits d 239 200
def vSrcCs (d : Nat) : Bool := bit d 240
def vDstCs (d : Nat) : Bool := bit d 241
def vRBytes (d : Nat) : Nat := bits d 257 242 * 32
def vNRows (d : Nat) : Nat := bits d 273 258 + 1
def vSPitch (d : Nat) : Nat := bits d 305 274
def vDPitch (d : Nat) : Nat := bits d 337 306
def vSStride (d : Nat) : Nat := bits d 369 338
def vDStride (d : Nat) : Nat := bits d 401 370
def vRType (d : Nat) : Nat := bits d 403 402
/-- GATH (Table 4-14). -/
def gIdx (d : Nat) : Nat := bits d 240 224 * 64
def gBase (d : Nat) : Nat := bits d 280 241
def gStride (d : Nat) : Nat := bits d 312 281
def gRBytes (d : Nat) : Nat := (bits d 318 313 + 1) * 32
def gCount (d : Nat) : Nat := bits d 330 319 + 1
/-- SCAT.KV (Table 4-14). -/
def kPos (d : Nat) : Nat := bits d 319 288
def kBgrp (d : Nat) : Nat := bits d 327 320
/-- TBL.LOAD, BAR, REUSE.CHK (Table 4-15). -/
def tSrc (d : Nat) : Nat := bits d 199 160
def tSrcCs (d : Nat) : Bool := bit d 200
def tSegs (d : Nat) : Nat := bits d 209 201
def tMono (d : Nat) : Nat := bits d 211 210
def bChan (d : Nat) : Nat := bits d 163 160
def uTheta (d : Nat) : Nat := bits d 447 416
def uEntry (d : Nat) : Nat := bits d 471 448
def uSpan (d : Nat) : Nat := bits d 474 472 + 1
def uCols (d : Nat) : Nat := bits d 488 475
/-- The block output's size (R289). -/
def uOutBytes (d : Nat) : Nat := (dSop4 d).rows * (dSop4 d).pitch

/-! ## Static legality of bodies -/

def ioFmt (f : Nat) : Bool := decide (f < 3)
def outFmt (f : Nat) : Bool := decide (f < 5)
def attnFmt (f : Nat) : Bool := decide (f = 1 ∨ f = 3 ∨ f = 4)

/-- Reserved bits of each body (R9, R101, Tables 4-6 to 4-15). -/
def bodyReserved (f : Fam) (d : Nat) : Bool :=
  match f with
  | .mma => decide (bits d 479 429 = 0)
  | .mmaLa => true
  | .mmaRs | .mmaAg => decide (bits d 445 429 = 0)
  | .attnFwd | .attnBwd => decide (bits d 511 437 = 0)
  | .attnRelay => decide (bits d 445 437 = 0)
  | .sfn => decide (bits d 511 366 = 0)
  | .norm => decide (bits d 511 389 = 0)
  | .smax => decide (bits d 511 352 = 0)
  | .conv | .convDw => decide (bits d 511 500 = 0)
  | .crop => decide (bits d 511 332 = 0)
  | .reuseChk => decide (bits d 511 489 = 0)
  | .move => decide (bits d 511 402 = 0)
  | .moveA2a => decide (bits d 445 402 = 0)
  | .moveAr => decide (bits d 445 404 = 0)
  | .gath => decide (bits d 511 331 = 0)
  | .scatKv => decide (bits d 511 328 = 0)
  | .tblLoad => decide (bits d 511 212 = 0)
  | .bar => decide (bits d 511 164 = 0)
  | .wait | .post => decide (bits d 511 160 = 0)

/-- The MMA family's checks (R62, R106, R107, R111, R112, R114); `amode` is the adapter format's mode in MMA.LA. -/
def mmaLegal (f : Fam) (d : Nat) (amode : Nat) : Bool :=
  let a := dOp1 d; let o := dOp2 d; let w := mWFmt d; let n := dBatch d + 1
  let mode := max (modeOf a.fmt w) (if f = .mmaLa then max amode (fmtCycles (laT d).fmt) else 1)
  a.legal false false 256 && o.legal false false 256 && pairOk a.fmt w &&
  (decide (o.fmt ≠ fmtInt32) || decide (a.fmt = fmtInt8)) && decide (o.rows = a.rows) &&
  decide (1 ≤ mKExt d ∧ mKExt d ≤ 256) && decide (1 ≤ mNExt d ∧ mNExt d ≤ 256) &&
  decide (mOutm d < 2) && decide (mInit d < 3) && decide (mWAddr d % 2048 = 0) &&
  (decide (f ≠ .mma) || isPerTensor w || decide (mWScale d = 0)) &&
  decide (n * a.rows ≤ (if f = .mmaLa then rowLimit mode / 2 else rowLimit mode)) && decide (mAccRow d + n * a.rows ≤ 512) &&
  (decide (f ≠ .mmaLa) ||
    (let t := laT d; (decide (t.fmt = 1 ∨ t.fmt = 2)) && decide (t.rows = a.rows) && decide (t.pad = 0) &&
     decide (t.spare = 0) && decide (t.pitch ≠ 0))) &&
  (!f.isExch || decide (xAddr d % 2048 = 0))

/-- ATTN: ARITH cycles per row (R202). -/
def attnC (d : Nat) : Nat :=
  max (fmtCycles (dSop1 d).fmt) (max (fmtCycles (dSop2 d).fmt) (fmtCycles (dSop3 d).fmt))

/-- The attention checks that need no record (R111, R116, R202, R218). -/
def attnLegal (f : Fam) (d : Nat) : Bool :=
  let q := dSop1 d; let k := dSop2 d; let v := dSop3 d; let o := dSop4 d
  let n := dBatch d + 1; let c := attnC d
  q.legal true false 1 && k.legal true false 1 && v.legal true false 1 && o.legal true false 1 &&
  attnFmt q.fmt && attnFmt k.fmt && attnFmt v.fmt && decide (v.rows = k.rows) && decide (o.rows = q.rows) &&
  decide (k.rows ≤ 256) && decide (n * q.rows ≤ (if f = .attnBwd then 64 else 256) / c) &&
  (decide (f ≠ .attnBwd) || decide (1 ≤ o.fmt ∧ o.fmt ≤ 4)) &&
  (decide (f ≠ .attnRelay) || (decide (xLevel d ≠ 0) && decide (xAddr d % 2048 = 0)))

/-- The checks of the attention records, made at start (R9, R111, R116, R202, R214); those of a rotary header beyond the general
region are not made, since R67 stops the instruction. OFF_T, OFF_H and OFF_W that are no multiple of 8 are illegal, also on an axis that
does not rotate (DEDUCED, log 202). -/
def attnRecLegal (f : Fam) (m : Mem) (d general : Nat) : Bool :=
  let r := attnRec m d
  let q := dSop1 d; let k := dSop2 d; let v := dSop3 d; let o := dSop4 d
  let n := dBatch d + 1; let c := attnC d
  let sum := r.ropeT + r.ropeH + r.ropeW
  let h := ropeHdr m r.rope
  decide (r.spare = 0) && decide (1 ≤ r.hdim ∧ r.hdim ≤ 256) && decide (sum ≤ r.hdim) &&
  decide (r.ropeT % 2 = 0 ∧ r.ropeH % 2 = 0 ∧ r.ropeW % 2 = 0) &&
  (!(aRopeQ d || aRopeK d) || decide (0 < sum)) &&
  decide (rowBytes q.fmt r.hdim ≤ q.pitch) && decide (rowBytes k.fmt r.hdim ≤ k.pitch) &&
  decide (rowBytes v.fmt r.hdim ≤ v.pitch) && decide (rowBytes o.fmt r.hdim ≤ o.pitch) &&
  (decide (f = .attnBwd) || decide (4 * r.hdim ≤ o.pitch)) &&
  (decide (k.bstride = 0 ∧ v.bstride = 0) ||
    decide ((if f = .attnBwd then 8 else 2) * c * n * q.rows * 128 +
      (n - 1) * (k.rows * r.hdim * (fmtBits k.fmt / 8 + fmtBits v.fmt / 8)) ≤ 512 * 128)) &&
  (!(aRopeQ d || aRopeK d) || decide (general < r.rope + 64) ||
    (decide (h.spare = 0) && (decide (r.ropeT = 0) || decide (0 < h.countT)) && (decide (r.ropeH = 0) || decide (0 < h.countH)) &&
     (decide (r.ropeW = 0) || decide (0 < h.countW)) && decide (h.offT % 8 = 0 ∧ h.offH % 8 = 0 ∧ h.offW % 8 = 0)))

/-- The vector family's checks (R111, R117, R263, R264, R266). -/
def vecLegal (f : Fam) (d : Nat) : Bool :=
  let i := dSop1 d; let o := dSop2 d; let cols := vCols d; let n := dBatch d + 1
  let per := if f = .norm then 256 else 64
  i.legal true false cols && o.legal true false cols && ioFmt i.fmt && outFmt o.fmt && decide (o.rows = i.rows) &&
  decide (1 ≤ cols ∧ cols ≤ 8192) && decide (n * i.rows * cdiv cols per ≤ if f = .sfn then 512 else 256)

/-- The convolution family's checks (R111, R118, R272, R275, R277, R278, R280, R283). An INT32 OUT is illegal but for an INT8 pair, as R112 has D of an
MMA (DESIGN CHOICE, log 239). -/
def convLegal (f : Fam) (d : Nat) : Bool :=
  let i := dOp1 d; let o := dOp2 d; let w := mWFmt d; let n := dBatch d + 1
  let mode := modeOf i.fmt w; let tiles := cTiles f d
  i.legal false true (cInW d * 16) && o.legal false false 256 && decide (1 ≤ i.fmt ∧ i.fmt ≤ 5) && pairOk i.fmt w &&
  (decide (o.fmt ≠ fmtInt32) || decide (i.fmt = fmtInt8)) && decide (cKH d < 8 ∧ cKW d < 8) &&
  decide (1 ≤ cNExt d ∧ cNExt d ≤ if f = .convDw then 16 else 256) && decide (1 ≤ cInH d) && decide (1 ≤ cInW d) &&
  decide (cOutm d < 2) && decide (cInit d < 3) && decide (mWAddr d % 2048 = 0) &&
  (decide (i.pad ≠ 2) || decide (cPH d < cInH d ∧ cPW d < cInW d)) &&
  (decide (f ≠ .convDw) || decide (cKH d * cKW d ≤ 16)) && decide (tiles = 1 ∨ tiles * tileBytes w ≤ 262144) &&
  decide (n * o.rows * tiles ≤ rowLimit mode) && decide (cAccRow d + n * o.rows ≤ 512)

/-- CROP (R111, R119, R284); the box and source records are checked at start. -/
def cropLegal (d : Nat) : Bool :=
  let o := dSop1 d
  let k := if pNearest d then 1 else 3
  { o with rows := 0 }.legal true false (pCh d) && decide (o.rows = 0) && outFmt o.fmt && decide (1 ≤ pCh d ∧ pCh d ≤ 256) &&
  decide (cdiv (pBoxes d) 256 + cdiv (pBoxes d * pOH d * pOW d * pCh d * k) 256 ≤ 512)

/-- REUSE.CHK (R111, R122, R289). A THETA of −0 is no negative one (DEDUCED, log 169). -/
def reuseLegal (d : Nat) : Bool :=
  let i := dSop1 d; let pi := dSop2 d; let po := dSop3 d; let o := dSop4 d; let cols := uCols d
  let th := ofF32 (uTheta d)
  i.legal true false cols && pi.legal true false cols && po.legal true false 0 && o.legal true false 0 &&
  ioFmt i.fmt && decide (pi.fmt = i.fmt) && decide (pi.rows = i.rows) &&
  decide (o.fmt = po.fmt ∧ o.rows = po.rows ∧ o.pitch = po.pitch) && decide (uOutBytes d ≤ 524288) &&
  (decide (o.addr = po.addr) || !meets o.addr (uOutBytes d) po.addr (uOutBytes d)) &&
  decide (1 ≤ cols ∧ cols ≤ 8192) && decide (i.rows * cdiv cols 256 ≤ 512) && !th.isNan && (!th.neg? || th.isZero)

/-- MOVE and its exchange forms (R111, R120). A misaligned address, pitch or stride is an illegal instruction, also one that a single
row or iteration does not use; RBYTES is a multiple of 32 in both spaces (DESIGN CHOICE, log 168). -/
def moveLegal (f : Fam) (d : Nat) : Bool :=
  let al := fun (cs : Bool) (x : Nat) => decide (x % (if cs then 64 else 32) = 0)
  decide (1 ≤ vRBytes d) &&
  al (vSrcCs d) (vSrc d) && al (vSrcCs d) (vSPitch d) && al (vSrcCs d) (vSStride d) &&
  al (vDstCs d) (vDst d) && al (vDstCs d) (vDPitch d) && al (vDstCs d) (vDStride d) &&
  decide ((dBatch d + 1) * vNRows d * vRBytes d ≤ 16777216) &&
  (decide (f ≠ .moveAr) || decide (vRType d < 2)) && (!f.isExch || decide (xAddr d % 2048 = 0))

/-- GATH (R120): the destination holds COUNT rows of RBYTES bytes; a misaligned base or stride is illegal (DESIGN CHOICE, log 168). -/
def gathLegal (d : Nat) : Bool :=
  let o := dSop1 d
  decide (o.spare = 0) && decide (o.fmt < 12) && decide (o.pad = 0) && !isMx o.fmt && decide (o.pitch ≠ 0) &&
  decide (o.rows ≤ 512) && decide (gRBytes d ≤ o.pitch) && decide (gBase d % 32 = 0) && decide (gStride d % 32 = 0)

/-- SCAT.KV (R105, R111, Table 4-14). -/
def scatLegal (d : Nat) : Bool :=
  let k := dSop1 d; let v := dSop2 d
  k.legal true false 0 && v.legal true false 0 && decide (k.rows = v.rows)

/-- Every check of a descriptor that needs no state (R101–R122); `amode` as in `mmaLegal`. A misaligned SRC of TBL.LOAD is an illegal
instruction (DESIGN CHOICE, log 168). -/
def bodyLegal (f : Fam) (d : Nat) (amode : Nat) : Bool :=
  bodyReserved f d &&
  match f with
  | .mma | .mmaLa | .mmaRs | .mmaAg => mmaLegal f d amode
  | .attnFwd | .attnBwd | .attnRelay => attnLegal f d
  | .sfn | .norm | .smax => vecLegal f d
  | .conv | .convDw => convLegal f d
  | .crop => cropLegal d
  | .reuseChk => reuseLegal d
  | .move | .moveA2a | .moveAr => moveLegal f d
  | .gath => gathLegal d
  | .scatKv => scatLegal d
  | .tblLoad => decide (tMono d < 3) && decide (1 ≤ tSegs d ∧ tSegs d ≤ 256) &&
      decide (tSrc d % (if tSrcCs d then 64 else 32) = 0)
  | .wait | .post | .bar => true

/-! ## Ranges -/

/-- The bytes one iteration reads and writes: of the core store, and of device memory. -/
structure IterRngs where
  cr : List Rng := []
  cw : List Rng := []
  dr : List Rng := []
  dw : List Rng := []

def rowRange (base pitch rows n : Nat) : List Rng := if rows = 0 ∨ n = 0 then [] else [(base, base + (rows - 1) * pitch + n)]

/-- Bytes between rows of dQ, dK and dV: a row of HDIM FP32 values rounded up to 64 bytes (log 12). -/
def gradPitch (hdim : Nat) : Nat := cdiv hdim 16 * 64

/-- The end of the rotary tables' last entry (R204, R214). -/
def ropeEnd (m : Mem) (r : AttnRec) : Nat :=
  let h := ropeHdr m r.rope
  r.rope + max 64 (max (if r.ropeT = 0 then 0 else h.offT + h.countT * (r.ropeT / 2) * 8)
    (max (if r.ropeH = 0 then 0 else h.offH + h.countH * (r.ropeH / 2) * 8)
         (if r.ropeW = 0 then 0 else h.offW + h.countW * (r.ropeW / 2) * 8)))

/-- The block code of row block b and key block k of a mask (R210). -/
def maskCode (m : Mem) (mask b k : Nat) : Nat := (m.readLE (mask + b) 1 / 4 ^ k) % 4
/-- Row and key blocks within an instruction's extents. -/
def maskBlocks (qRows kRows : Nat) : List (Nat × Nat) :=
  (List.range (cdiv qRows 64)).flatMap (fun b => (List.range (cdiv kRows 64)).map (fun k => (b, k)))
/-- What the mask unit reads (R211): the codes of the row blocks, and the element bitmaps of the blocks that are partial. -/
def maskRanges (m : Mem) (mask qRows kRows : Nat) : List Rng :=
  (if qRows = 0 then [] else [(mask, mask + cdiv qRows 64)]) ++
  ((maskBlocks qRows kRows).filter (fun p => decide (maskCode m mask p.1 p.2 = 2))).map (fun p =>
    let a := mask + 64 + (4 * p.1 + p.2) * 512
    (a, a + 512))
/-- Whether every block of an instruction's mask is skip (R209). -/
def attnAllSkip (m : Mem) (r : AttnRec) (qRows kRows : Nat) : Bool :=
  r.maskEn && (maskBlocks qRows kRows).all (fun p => decide (maskCode m r.mask p.1 p.2 = 0))

/-- Ranges of an attention instruction beyond those its descriptor gives, from its records (R72, R205–R216). -/
def attnRanges (f : Fam) (m : Mem) (d i : Nat) (clip : Option Nat) : IterRngs :=
  let r := attnRec m d
  let q := ((dSop1 d).iter i).clip clip; let k := (dSop2 d).iter i; let v := (dSop3 d).iter i
  let o := ((dSop4 d).iter i).clip clip
  let st := rowRange (r.stats + i * r.stStride) 8 q.rows 8
  let maskR := if r.maskEn then maskRanges m r.mask q.rows k.rows else []
  let pos := (if aRopeQ d then rowRange r.qpos 8 q.rows 8 else []) ++ (if aRopeK d then rowRange r.kpos 8 k.rows 8 else [])
  let rope := if aRopeQ d || aRopeK d then [(r.rope, ropeEnd m r)] else []
  let rows := q.ranges r.hdim r.hdim ++ k.ranges r.hdim r.hdim ++ v.ranges r.hdim r.hdim
  if f = .attnBwd then
    let g := fun (a : Nat) (b : Nat) (n : Nat) => rowRange (a + i * b) (gradPitch r.hdim) n (4 * r.hdim)
    let gr := g r.dq q.bstride q.rows ++ g r.dk k.bstride k.rows ++ g r.dv v.bstride v.rows
    { cr := rows ++ o.ranges r.hdim r.hdim ++ st ++ rowRange (r.delta + i * r.stStride) 4 q.rows 4 ++ maskR ++ pos ++ rope ++ gr,
      cw := gr }
  else
    let run := rowRange o.addr o.pitch o.rows (4 * r.hdim)
    let fin := o.ranges r.hdim r.hdim
    { cr := rows ++ maskR ++ pos ++ rope ++ (if aFirst d then [] else st ++ run),
      cw := st ++ (if aLast d then fin else run) }

/-- Ranges of a CROP's sources, from its table (R284). -/
def cropSource (m : Mem) (d n : Nat) : Operand := operandOf (m.readLE (pSrcAddr d + 8 * n) 8)
def cropBoxSrc (m : Mem) (d b : Nat) : Nat := m.readLE (pBoxAddr d + 32 * b + 16) 2

/-- The sources a CROP's boxes name (R119, R284). -/
def cropRanges (m : Mem) (d : Nat) : IterRngs :=
  let srcs := ((List.range (pBoxes d)).map (cropBoxSrc m d)).eraseDups
  { cr := srcs.flatMap (fun n =>
      let o := cropSource m d n
      (pSrcAddr d + 8 * n, pSrcAddr d + 8 * n + 8) ::
        rowRange o.addr o.pitch o.rows (rowBytes o.fmt (o.bstride / 64 * pCh d))) }

/-- Records that name further ranges and that the descriptor does not name itself: the rotary header and the codes of the mask
(R211, R214), the source descriptors of a CROP (R284). -/
def headRanges (f : Fam) (m : Mem) (d : Nat) (clip : Option Nat) : List Rng :=
  if f.isAttn then
    let r := attnRec m d
    let n := ((dSop1 d).clip clip).rows
    (if r.maskEn ∧ n ≠ 0 then [(r.mask, r.mask + cdiv n 64)] else []) ++
    (if aRopeQ d || aRopeK d then [(r.rope, r.rope + 64)] else [])
  else if f = .crop then
    (((List.range (pBoxes d)).map (cropBoxSrc m d)).eraseDups).map (fun n => (pSrcAddr d + 8 * n, pSrcAddr d + 8 * n + 8))
  else []
/-- The rows a GATH reads, from its index list (R120). -/
def gathReads (m : Mem) (d : Nat) : List Rng :=
  (List.range (min (gCount d) (dSop1 d).rows)).map (fun r =>
    let a := gBase d + m.readLE (gIdx d + 4 * r) 4 * gStride d
    (a, a + gRBytes d))
/-- Ranges that records in the core store give, read once the records' own ranges are clear. -/
def recordRanges (f : Fam) (m : Mem) (d i : Nat) (clip : Option Nat) : IterRngs :=
  if f.isAttn then attnRanges f m d i clip else if f = .crop then cropRanges m d
  else if f = .gath then { dr := gathReads m d } else {}

/-- The checks of CROP's records, made at start (R9, R119, R284): reserved bytes, a source index whose descriptor lies beyond
the general region (log 14), a source's format, extents and pitch. -/
def cropRecLegal (m : Mem) (d general : Nat) : Bool :=
  (List.range (pBoxes d)).all (fun b =>
    let a := pBoxAddr d + 32 * b
    let n := cropBoxSrc m d b
    decide (m.readLE (a + 18) 14 = 0) && decide (pSrcAddr d + 8 * n + 8 ≤ general) &&
    (let o := cropSource m d n
     ioFmt o.fmt && decide (o.pad = 0) && decide (o.spare = 0) && decide (1 ≤ o.rows ∧ o.rows ≤ 512) && decide (1 ≤ o.bstride) &&
     decide (o.bstride / 64 * pCh d * (fmtBits o.fmt / 8) ≤ o.pitch)))

/-- What iteration i reads and writes, from the descriptor (R67, R72, R109). `rank` is what the descriptor alone does not give: the rank
of an MMA.LA's adapter; of an MMA.RS the rows S that its contributor stores, which fill D from its first row on (Table 14-2). A MOVE.A2A
writes contiguous blocks from DST on, whatever its destination pitches, and an iteration's share of them stands for what it writes. The OUT
range of a convolution spans all its OUT.ROWS rows, also those beyond the valid output positions (DESIGN CHOICE, log 209). A range counts
where the instruction reads or writes it: OUT and PREV_OUT of a REUSE.CHK with its copy, D of an MMA where it is written or taken
(DESIGN CHOICE, log 233). -/
def tileRanges (f : Fam) (d i : Nat) (clip : Option Nat) (rank : Nat) : IterRngs :=
  match f with
  | .mma | .mmaLa | .mmaRs | .mmaAg =>
    let a := ((dOp1 d).iter i).clip clip; let o := ((dOp2 d).iter i).clip clip
    { cr := a.ranges (mKExt d) 256 ++ (if mInit d = 1 then o.ranges (mNExt d) 256 else []) ++
        (if f = .mmaLa then (((laT d).iter i).clip clip).ranges rank rank else []),
      cw := if mOutm d = 1 then (if f = .mmaRs then { o with rows := min o.rows (rank - i * o.rows) } else o).ranges (mNExt d) 256 else [] }
  | .attnFwd | .attnBwd | .attnRelay => { cr := [(aApr d, aApr d + 64)] }
  | .sfn | .norm | .smax =>
    let a := ((dSop1 d).iter i).clip clip; let o := ((dSop2 d).iter i).clip clip; let n := vCols d
    { cr := a.ranges n n ++
        (if f = .smax ∧ vMaskEn d = true then rowRange (vMaskAddr d) (cdiv n 512 * 64) a.rows (cdiv n 8) else []) ++
        (if f = .norm then
          (if nGammaEn d then [(nGamma d, nGamma d + 4 * n)] else []) ++ (if nBetaEn d then [(nBeta d, nBeta d + 4 * n)] else []) ++
          (if 2 ≤ nKind d then [(nMod d, nMod d + cdiv n 16 * 64 + 4 * n)] else []) else []),
      cw := o.ranges n n }
  | .conv | .convDw =>
    let a := (dOp1 d).iter i; let o := ((dOp2 d).iter i).clip clip
    { cr := a.ranges (cInW d * 16) (cInW d * 16) ++ (if cInit d = 1 then o.ranges (cNExt d) 256 else []),
      cw := if cOutm d = 1 then o.ranges (cNExt d) 256 else [] }
  | .crop =>
    let o := dSop1 d
    { cr := [(pBoxAddr d, pBoxAddr d + 32 * pBoxes d)],
      cw := rowRange o.addr o.pitch (pBoxes d * pOH d * pOW d) (rowBytes o.fmt (pCh d)) }
  | .reuseChk => { cr := (dSop1 d).ranges (uCols d) (uCols d) ++ (dSop2 d).ranges (uCols d) (uCols d) }
  | .move | .moveA2a | .moveAr =>
    let n := match clip with
      | some c => min c (vNRows d)
      | none => vNRows d
    let s := rowRange (vSrc d + i * vSStride d) (vSPitch d) n (vRBytes d)
    let t := if f = .moveA2a then rowRange (vDst d + i * (vNRows d * vRBytes d)) (vRBytes d) n (vRBytes d)
      else rowRange (vDst d + i * vDStride d) (vDPitch d) n (vRBytes d)
    { cr := if vSrcCs d then s else [], dr := if vSrcCs d then [] else s,
      cw := if vDstCs d then t else [], dw := if vDstCs d then [] else t }
  | .gath =>
    let o := dSop1 d
    { cr := [(gIdx d, gIdx d + 4 * gCount d)], cw := rowRange o.addr o.pitch (min o.rows (gCount d)) (gRBytes d) }
  | .scatKv =>
    -- the whole pitch of the last row too (DESIGN CHOICE, log 198)
    let k := dSop1 d; let v := dSop2 d
    { cr := rowRange k.addr k.pitch k.rows k.pitch ++ rowRange v.addr v.pitch v.rows v.pitch }
  | .tblLoad =>
    let r := [(tSrc d, tSrc d + 64 + 32 * tSegs d)]
    { cr := if tSrcCs d then r else [], dr := if tSrcCs d then [] else r }
  | .wait | .post | .bar => {}

/-- The bytes of each row of an operand, and of its scales. -/
def Operand.rowRngs (o : Operand) (ncols width : Nat) : List Rng :=
  if ncols = 0 then [] else
  (List.range o.rows).flatMap (fun r =>
    (o.addr + r * o.pitch, o.addr + r * o.pitch + rowBytes o.fmt ncols) ::
    (if isMx o.fmt then [(o.scaleBase + r * scaleBytes width, o.scaleBase + r * scaleBytes width + scaleBytes ncols)] else []))
/-- The bytes of the core store that iteration i of an instruction of a reuse span writes, row by row (R122, R291). -/
def spanWrites (f : Fam) (d i : Nat) : List Rng :=
  match f with
  | .mma | .mmaLa => if mOutm d = 1 then ((dOp2 d).iter i).rowRngs (mNExt d) 256 else []
  | .conv | .convDw => if cOutm d = 1 then ((dOp2 d).iter i).rowRngs (cNExt d) 256 else []
  | .sfn | .norm | .smax => ((dSop2 d).iter i).rowRngs (vCols d) (vCols d)
  | .crop => { dSop1 d with rows := pBoxes d * pOH d * pOW d }.rowRngs (pCh d) (pCh d)
  | .move => if vDstCs d then (List.range (vNRows d)).map (fun r =>
      let a := vDst d + i * vDStride d + r * vDPitch d
      (a, a + vRBytes d)) else []
  | _ => []

/-- Batch iterations whose write range meets another's read or write range are illegal (R109). The write range of an iteration is
taken as the span from its first row to the end of its last, as R109 has it for the scoreboard (DEDUCED, log 139): rows of two
iterations that interleave overlap. -/
def batchOverlap (rs : List IterRngs) : Bool :=
  let ws := rs.zipIdx
  ws.any (fun (a, i) => ws.any (fun (b, j) => decide (i ≠ j) &&
    (a.cw.any (fun x => (b.cw ++ b.cr).any (rngMeets x)) || a.dw.any (fun x => (b.dw ++ b.dr).any (rngMeets x)))))

end Sys2Proof.Machine
end

