-- ==== Sys2Proof/Machine/Streams.lean ====
section
/-! DEFINITION. Streams as the hub holds them (R364, R365): the mirror in the stream table, and the end of a stream (R246). -/

namespace Sys2Proof.Machine

def sstateCode : SState → Nat
  | .free => 0
  | .opened => 1
  | .held => 2
  | .ended => 3

/-- Device address of a stream's descriptor (R364). -/
def State.streamAddr (s : State) (i : Nat) : Nat := s.dv 0x0C00 1 + 256 * i

/-- Mirror the module fields of Table 15-8. -/
def State.mirrorStream (s : State) (i : Nat) : State :=
  let r := s.stream i
  s.memWriteHub (s.streamAddr i + 12)
    (leBytes 1 (sstateCode r.sstate) ++ leBytes 1 r.endCode.toNat ++ leBytes 2 r.holderQp.toNat ++ leBytes 4 r.holderJob.toNat) |>.memWriteHub
    (s.streamAddr i + 24) (leBytes 4 r.late.toNat)

/-- Change the hub's record of a stream, and mirror it. -/
def State.modStream (s : State) (i : Nat) (f : Stream → Stream) : State :=
  (s.setStreamRec i (f (s.stream i))).mirrorStream i

/-- A held stream ends, its directory having been read (R246, R365): its rooms are released, RSTATE reads ENDED, END_CODE gives the
reason, and its job counts it. -/
def State.closeStream (s : State) (i : Nat) (code : Byte) : State :=
  let job := (s.stream i).holderJob
  let s := s.endRooms i
  let s := s.modStream i (fun r => { r with sstate := .ended, endCode := code, holderQp := 0xFFFF, holderJob := 0,
                                            enc := { r.enc with frame := none } })
  s.modJob job (fun j => { j with streamsEnded := j.streamsEnded + 1 })

/-- End a held stream, for a cancellation or within a fault sweep. A stream that has ended stays as it is. -/
def State.endStream (s : State) (i : Nat) (code : Byte) : State :=
  if (s.stream i).sstate ≠ .held then s else (s.dirDone i).closeStream i code
def State.endStreams (s : State) (is : List Nat) (code : Byte) : State := is.foldl (fun t i => t.endStream i code) s

/-- A stream error ends a held stream. None is reported while a fault sweep is under way, or where the end meets a job fault: the
stream ends with the sweep's status (R24), also where writing its end is what meets the error. -/
def State.streamError (s : State) (i : Nat) (code : Byte) : State :=
  if s.hub.sweeping || decide ((s.stream i).sstate ≠ .held) then s
  else
    let t := s.dirDone i
    if t.hub.sweeping then t
    else
      let u := t.closeStream i code
      if u.hub.sweeping then t.closeStream i stSwept else u
/-- Where a step that ends streams starts a fault sweep too, they end with the sweep's status, the job fault being of the higher class (R24):
`s` is the state before that step. -/
def State.governed (s t : State) : State :=
  if !t.hub.sweeping || s.hub.sweeping then t
  else ((s.hub.streams.map Prod.fst).filter (fun i => decide ((s.stream i).sstate = .held) && decide ((t.stream i).sstate = .ended) &&
    decide ((t.stream i).endCode ≠ stSwept))).foldl (fun u i => u.modStream i (fun r => { r with endCode := stSwept })) t
/-- Stream errors of one step, each with its code. -/
def State.streamErrors (s : State) (es : List (Nat × Byte)) : State :=
  s.governed (es.foldl (fun t e => t.streamError e.1 e.2) s)

/-- Whether instructions of a job for a stream retire SKIPPED (R105): it is parked or has ended. A stream that has been opened again and
is held by a later job has ended for this one. -/
def State.streamSkips (s : State) (j : Job) (i : Nat) : Bool := s.isParked i || !s.heldBy j i

/-- The streams a stream-class status ends (R105). -/
def statusStreams (job : Job) (d : Nat) : List Nat := if dStreamEn d then [dStream d] else job.streams

end Sys2Proof.Machine
end

