-- ==== Sys2Proof/Machine/Window.lean ====
section
/-! DEFINITION. Waybills, windows and resident regions as reads meet them (07): objects of a slot, frames and fill marks, and
whether a tile instruction's read proceeds, waits, or fails (R181, R183, R186, R189, R192), and the release of ordinals (R185). -/

namespace Sys2Proof.Machine

/-- Block table entry b (Table 7-3): the record as a number. -/
def Slot.blockRec (sl : Slot) (b : Nat) : Nat := sl.stream.readLE (64 + 32 * b) 32
def Slot.blockOff (sl : Slot) (b : Nat) : Nat := bits (sl.blockRec b) 63 0
def Slot.blockBytes (sl : Slot) (b : Nat) : Nat := bits (sl.blockRec b) 127 64
def Slot.blockFirst (sl : Slot) (b : Nat) : Nat := bits (sl.blockRec b) 159 128
def Slot.blockObjs (sl : Slot) (b : Nat) : Nat := bits (sl.blockRec b) 191 160
/-- Object table entry o (Table 7-4). -/
def Slot.objRec (sl : Slot) (o : Nat) : Nat := sl.stream.readLE (64 + 32 * sl.blockCount + 8 * o) 8
def Slot.objSize (sl : Slot) (o : Nat) : Nat := bits (sl.objRec o) 23 0 * 2048

/-- An object: its index, its stream offset, its size. -/
structure ObjLoc where
  obj : Nat
  off : Nat
  size : Nat
  deriving DecidableEq, Repr

/-- Objects stored back to back from an offset (R181). -/
def Slot.objsFrom (sl : Slot) : Nat → Nat → Nat → List ObjLoc
  | 0, _, _ => []
  | n + 1, o, off => ⟨o, off, sl.objSize o⟩ :: sl.objsFrom n (o + 1) (off + sl.objSize o)
def Slot.objsOf (sl : Slot) (b : Nat) : List ObjLoc := sl.objsFrom (sl.blockObjs b) (sl.blockFirst b) (sl.blockOff b)
def Slot.allObjs (sl : Slot) : List ObjLoc := (List.range sl.blockCount).flatMap sl.objsOf

/-- Codewords that a span of the stream overlaps (R173). -/
def codewordsOf (off n : Nat) : List Nat :=
  if n = 0 then [] else (List.range ((off + n - 1) / 4096 + 1 - off / 4096)).map (fun i => off / 4096 + i)
/-- The channels of a slot's mask, rising (R177). -/
def Slot.channels (sl : Slot) : List Nat := (List.range 128).filter (fun c => sl.mask.getLsbD c)
/-- The channel of codeword n (R177). -/
def Slot.channelOf (sl : Slot) (n : Nat) : Nat :=
  let cs := sl.channels
  (cs[n % cs.length]?).getD 0
/-- Whether a codeword lies on a fenced channel, where it is unreadable at once (R175). -/
def State.cwFenced (s : State) (sl : Slot) (n : Nat) : Bool := decide ((s.flashCh (sl.channelOf n)).fence ≠ 0)

/-- Whether a slot has a channel that is OFF (R409). -/
def State.slotOff (s : State) (i : Nat) : Bool := (s.slot i).channels.any s.flashOff

def ObjLoc.cws (o : ObjLoc) : List Nat := codewordsOf o.off o.size

/-- Whether an object of a frame has arrived complete or is FAILED. -/
def Frame.settled (fr : Frame) (o : ObjLoc) : Bool := fr.failed.contains o.obj || o.cws.all fr.got.contains
/-- The fill mark of a frame: bytes of the block's prefix whose objects have arrived or FAILED (R186). -/
def Slot.fillMark (sl : Slot) (fr : Frame) : Nat :=
  match fr.tag with
  | some (_, b) => ((sl.objsOf b).takeWhile fr.settled).foldl (fun n o => n + o.size) 0
  | none => 0

def Slot.frame (sl : Slot) (f : Nat) : Frame := mget {} sl.frames f

/-- What becomes of a read by a tile instruction. -/
inductive Gate where
  | ok
  | wait
  | failed
  deriving DecidableEq, Repr

def Gate.and : Gate → Gate → Gate
  | .failed, _ => .failed
  | _, .failed => .failed
  | .ok, g => g
  | .wait, _ => .wait
/-- What slots that share a range answer together: the bytes are there where one of them has them. -/
def Gate.or : Gate → Gate → Gate
  | .ok, _ => .ok
  | _, .ok => .ok
  | .failed, _ => .failed
  | .wait, g => g

/-- A read of bytes `[off, off + n)` of a frame (R186, R192). A read of a FAILED object in a RELEASED frame waits as R186 says of every
other read of such a frame (DEDUCED, log 175). -/
def Slot.frameGate (sl : Slot) (f off n : Nat) : Gate :=
  let fr := sl.frame f
  let bad := match fr.tag with
    | some (_, b) => (sl.objsOf b).any (fun o => fr.failed.contains o.obj && meets off n (o.off - sl.blockOff b) o.size)
    | none => false
  match fr.state with
  | .ready => if bad then .failed else .ok
  | .filling => if bad then .failed else if off + n ≤ sl.fillMark fr then .ok else .wait
  | _ => .wait

/-- A read of bytes `[off, off + n)` of a window of frames, of which `gate` tells what each answers. -/
def windowGate (frames fb off n : Nat) (gate : Nat → Nat → Nat → Gate) : Gate :=
  (List.range frames).foldl (fun g f =>
    if meets off n (f * fb) fb then
      let lo := max off (f * fb)
      let hi := min (off + n) (f * fb + fb)
      g.and (gate f (lo - f * fb) (hi - lo))
    else g) .ok

/-- Objects of an on-demand region that bytes `[off, off + n)` meet (R183). -/
def Slot.regionObjs (sl : Slot) (off n : Nat) : List ObjLoc :=
  sl.allObjs.filter (fun o => meets off n (o.off - sl.wbBytes) o.size)
/-- A read of an on-demand region (R189, R192). -/
def Slot.regionGate (sl : Slot) (off n : Nat) : Gate :=
  let os := sl.regionObjs off n
  if os.any (fun o => sl.failedObj.contains o.obj) then .failed
  else if os.all (fun o => sl.present.contains o.obj) then .ok else .wait

/-- Whether two slots' ranges coincide. -/
def State.sameWindow (s : State) (i j : Nat) : Bool := decide (s.winBase i = s.winBase j) && decide (s.winLen i = s.winLen j)
/-- The slots whose windows or regions a range meets (R184). -/
def State.slotsAt (s : State) (a n : Nat) : List Nat :=
  (List.range 16).filter (fun i => decide ((s.slot i).window = 1) && meets a n (s.winBase i) (s.winLen i))
/-- The slots whose windows or regions have the range of slot i. -/
def State.sharers (s : State) (i : Nat) : List Nat :=
  (List.range 16).filter (fun k => decide ((s.slot k).window = 1) && (decide (k = i) || s.sameWindow i k))
/-- The slot that stands for the range of slot i: the one that has the on-demand region (R197), and where none has it yet, or of a window of
frames, the lowest (DESIGN CHOICE for a region, log 236). -/
def State.rangeSlot (s : State) (i : Nat) : Nat :=
  let ks := s.sharers i
  ((ks.find? (fun k => (s.slot k).owner)).or ks.head?).getD i
/-- What a frame answers, whichever of the slots that share it has filled it (R186). -/
def State.frameGateAt (s : State) (i f off n : Nat) : Gate :=
  (s.sharers i).foldl (fun g k => g.or ((s.slot k).frameGate f off n)) .wait
/-- A read of what of a device range lies in the window or region of slot i. -/
def State.slotGate (s : State) (i a n : Nat) : Gate :=
  let lo := max a (s.winBase i)
  let hi := min (a + n) (s.winBase i + s.winLen i)
  if s.slotOnDemand i then (s.slot i).regionGate (lo - s.winBase i) (hi - lo)
  else windowGate (s.winFrames i) (s.slot i).frameBytes (lo - s.winBase i) (hi - lo) (s.frameGateAt i)
/-- Whether a tile instruction's read of a device range proceeds, waits under R28, or ends in TIER_ERROR: every window and region that it
meets is asked, each range once (R186, R189). -/
def State.weightGate (s : State) (a n : Nat) : Gate :=
  ((s.slotsAt a n).filter (fun i => decide (s.rangeSlot i = i))).foldl (fun g i => g.and (s.slotGate i a n)) .ok

/-! ## The jobs of a window, and the release of ordinals (R185, R186, R188) -/

/-- The jobs whose slots use the range of slot i, in admission order (R188). -/
def State.windowJobs (s : State) (i : Nat) : List Job :=
  s.hub.jobs.filter (fun j => match j.slot with
    | some k => decide (k = i) || s.sameWindow i k
    | none => false)

/-- A sync counter of a job: its cluster's, or what its save holds (R90). -/
def State.jobSync (s : State) (j : Job) (id : Half) : Word :=
  match j.syncTarget id with
  | none => 0
  | some (k, i) => match j.phase with
    | .saved => match (j.saved)[rankIn j.team k]? with
      | some v => mget 0 v.sync i
      | none => 0
    | .waiting => 0
    | _ => s.syncVal k i

/-- The job a layer-streaming slot streams for: it holds the window and has been dispatched. -/
def State.streamFor (s : State) (i : Nat) : Option Job :=
  match s.windowJobs i with
  | j :: _ => if j.slot = some i ∧ j.dispatchPacing.isSome ∧ s.slotOnDemand i = false ∧ (s.slot i).window = 1 then some j else none
  | [] => none
/-- RELEASE_ID: the sync counter that counts a layer-streaming job's releases (Table 15-5). -/
def Job.releaseId (j : Job) : Half := BitVec.ofNat 16 (bits j.entry.toNat 127 112)
/-- r: the ordinals below it are released (R185). -/
def State.releasedTo (s : State) (j : Job) : Nat :=
  (s.jobSync j j.releaseId).toNat / max 1 j.team.length

/-- Release the frame of one ordinal (R186). -/
def Slot.releaseOrd (sl : Slot) (frames q : Nat) : Slot :=
  if sl.nextOrd ≤ q then sl
  else
    let f := sl.frame (q % frames)
    match f.state with
    | .ready => { sl with frames := mset sl.frames (q % frames) { f with state := .released } }
    | .filling => { sl with frames := mset sl.frames (q % frames) {} }
    | _ => sl
/-- Release every ordinal below r that is not yet. -/
def Slot.releaseTo (sl : Slot) (frames r : Nat) : Slot :=
  { ((List.range (r - sl.relOrd)).foldl (fun x n => x.releaseOrd frames (sl.relOrd + n)) sl) with
    relOrd := max r sl.relOrd, nextOrd := max r sl.nextOrd }
/-- A sync counter of a job has changed: where it is the release counter of a job whose window streams, the ordinals that it now releases are
released at once (R186). -/
def State.releaseFrames (s : State) (j : Job) (k i : Nat) : State :=
  match j.slot with
  | none => s
  | some n =>
    if j.syncTarget j.releaseId = some (k, i) ∧ (s.streamFor n).map Job.id = some j.id then
      s.modSlot n (fun x => x.releaseTo (s.winFrames n) (s.releasedTo j))
    else s

/-- The slot that has filled a byte of a window or region. -/
def State.slotHolding (s : State) (a : Nat) : Option Nat :=
  (s.slotsAt a 1).find? (fun i =>
    if s.slotOnDemand i then decide (s.rangeSlot i = i)
    else (s.slot i).frameGate ((a - s.winBase i) / (s.slot i).frameBytes) ((a - s.winBase i) % (s.slot i).frameBytes) 1 != .wait)
/-- An uncorrectable error on a window read (Table 7-5): the object is read from flash again, and the read waits. A frame goes back to
FILLING as a whole and is filled anew from that object on (DESIGN CHOICE, log 197). -/
def State.refetch (s : State) (a : Nat) : State :=
  match s.slotHolding a with
  | none => s
  | some i =>
    let sl := s.slot i
    let off := a - s.winBase i
    if s.slotOnDemand i then
      let os := (sl.regionObjs off 1).map ObjLoc.obj
      s.setSlot i { sl with
        present := sl.present.filter (fun o => !os.contains o)
        demand := sl.demand ++ os.filter (fun o => !sl.demand.contains o)
        rewrite := (sl.rewrite ++ os).eraseDups
        got := sl.got.filter (fun c => !(sl.regionObjs off 1).any (fun o => o.cws.contains c)) }
    else
      let f := off / sl.frameBytes
      let fr := sl.frame f
      match fr.tag with
      | none => s
      | some (_, b) =>
        let hit := (sl.objsOf b).filter (fun o => meets (off % sl.frameBytes) 1 (o.off - sl.blockOff b) o.size)
        s.setSlot i { sl with frames := mset sl.frames f { fr with
          state := .filling
          rewrite := (fr.rewrite ++ hit.map ObjLoc.obj).eraseDups
          got := fr.got.filter (fun c => !hit.any (fun o => o.cws.contains c)) } }

end Sys2Proof.Machine
end

