-- ==== Sys2Proof/Machine/EncParams.lean ====
section
/-! DEFINITION. The parameters, tile grid and state block of an encoded stream (R382–R384, R392), as the stream checks of
admission and the engines read them. -/

namespace Sys2Proof.Machine

/-- ENC_PARAMS of a held stream (Table 16-2): those that its admission found, which are fixed while a job holds it (R382). -/
def State.encP (s : State) (i : Nat) : Nat := (s.stream i).enc.params
/-- ENC_PARAMS and FRAME_PERIOD as a stream's descriptor has them. -/
def State.encDescr (s : State) (i : Nat) : Nat := s.hubRead (s.streamAddr i + 128) 64
def State.periodDescr (s : State) (i : Nat) : Nat := s.hubRead (s.streamAddr i + 20) 4
def epOn (p : Nat) : Bool := bit p 0
def epOut (p : Nat) : Nat := bits p 511 472
def epOutBytes (p : Nat) : Nat := bits p 471 440
def epRing (p : Nat) : Nat := epOutBytes p - 8192
/-- Where the state block of given parameters lies. -/
def encBlock (p : Nat) : Option Nat := if epOn p then some (epOut p) else none
def epDpb (p : Nat) : Nat := bits p 439 400
def epReq (p : Nat) : Nat := bits p 399 360
def epReqLen (p : Nat) : Nat := bits p 359 348
def epSubmit (p : Nat) : Half := BitVec.ofNat 16 (bits p 347 332)
/-- The done counter's identifier (R386). -/
def epDone (p : Nat) : Half := epSubmit p + 1
/-- The cap in bits over the window; 0: none. -/
def epCap (p : Nat) : Nat := bits p 331 300 * 1000
def epWindow (p : Nat) : Nat := bits p 299 290
def epQt (p : Nat) : Nat := bits p 289 282
def epQmax (p : Nat) : Nat := bits p 281 274
def epQinit (p : Nat) : Nat := bits p 273 266
def epQstep (p : Nat) : Nat := bits p 265 260
def epW (p : Nat) : Nat := bits p 257 245
def epH (p : Nat) : Nat := bits p 244 232
def epMask (p : Nat) : Nat := bits p 225 222
def epBit10 (p : Nat) : Bool := bit p 221
/-- ROTATE swaps the axes at 90° and 270°. -/
def epSwaps (p : Nat) : Bool := bit p 216

/-- A sync counter of a job's cluster has risen: what it posts of the requests of the job's encoded streams is noted (R385, R392). -/
def State.noteRequests (s : State) (j : Job) (k i : Nat) : State :=
  j.streams.foldl (fun t n =>
    let r := t.stream n
    let top := (r.enc.posts.getLast?.map Prod.snd).getD 0
    let v := (t.syncVal k i).toNat
    if r.sstate = .held ∧ r.holderJob = j.id ∧ epOn r.enc.params = true ∧ j.syncTarget (epSubmit r.enc.params) = some (k, i) ∧ top < v then
      { t.setStreamRec n { r with enc := { r.enc with posts := r.enc.posts ++ [(t.enc.posts, v)] } } with enc := { t.enc with posts := t.enc.posts + 1 } }
    else t) s
/-- A sync counter of a job has changed: the requests that it posts are noted, and the frames that it releases are (R186, R385). -/
def State.counterChanged (s : State) (j : Job) (k i : Nat) : State := (s.noteRequests j k i).releaseFrames j k i
/-- The number of the post of the request that a stream's engines serve now; one that no post has brought yet comes last. -/
def State.postOf (s : State) (n : Nat) : Nat :=
  let x := (s.stream n).enc
  ((x.posts.find? (fun p => decide (x.reqDone < p.2))).map Prod.fst).getD s.enc.posts

/-! ## The tile grid: uniform spacing, as AV1 lays it out (log 31) -/

def epSbW (p : Nat) : Nat := cdiv (epW p) 64
def epSbH (p : Nat) : Nat := cdiv (epH p) 64
def epTileW (p : Nat) : Nat := cdiv (epSbW p) (2 ^ bits p 231 229)
def epTileH (p : Nat) : Nat := cdiv (epSbH p) (2 ^ bits p 228 226)
def epCols (p : Nat) : Nat := cdiv (epSbW p) (epTileW p)
def epRows (p : Nat) : Nat := cdiv (epSbH p) (epTileH p)
def epTiles (p : Nat) : Nat := epCols p * epRows p
/-- Superblock rows of tile t, and its superblocks. -/
def epTileRows (p t : Nat) : Nat := min (epTileH p) (epSbH p - t / epCols p * epTileH p)
def epTileSb (p t : Nat) : Nat := epTileRows p t * min (epTileW p) (epSbW p - t % epCols p * epTileW p)
/-- Bytes of a reference slot (R382). -/
def epSlotBytes (p : Nat) : Nat := cdiv (3 * epW p * epH p) 2048 * 2048 + 1024 * (epSbW p * epSbH p)

/-- The checks of R382 and R386 for a stream of a job with a team of `team` clusters. -/
def State.encParamsOk (s : State) (p team : Nat) : Bool :=
  let rs := [(epOut p, epOutBytes p), (epDpb p, 4 * epSlotBytes p), (epReq p, 64 * epReqLen p)]
  decide (bits p 210 1 = 0) && decide (epOut p % 2048 = 0) && decide (epOutBytes p % 2048 = 0) && decide (1048576 ≤ epOutBytes p) &&
  decide (epDpb p % 2048 = 0) && decide (epReq p % 64 = 0) && decide (1 ≤ epReqLen p) &&
  decide ((epSubmit p).toNat % 4096 ≤ 0xFFE) && decide ((epSubmit p).toNat / 4096 < team) &&
  decide (1 ≤ epWindow p) && decide (1 ≤ epQt p ∧ epQt p ≤ epQmax p) && decide (epQt p ≤ epQinit p ∧ epQinit p ≤ epQmax p) &&
  decide (1 ≤ epQstep p ∧ epQstep p % 2 ^ bits p 259 258 = 0) &&
  decide (epW p % 2 = 0 ∧ 16 ≤ epW p ∧ epW p ≤ 7680) && decide (epH p % 2 = 0 ∧ 16 ≤ epH p ∧ epH p ≤ 4320) &&
  decide (bits p 231 229 ≤ 6 ∧ 2 ^ bits p 231 229 ≤ epSbW p) && decide (bits p 228 226 ≤ 6 ∧ 2 ^ bits p 228 226 ≤ epSbH p) &&
  decide (epTileW p * 64 ≤ 4096) && decide (epMask p ≠ 0) &&
  rs.all (fun r => decide (r.1 + r.2 ≤ stackTop) && !s.meetsWeight r.1 r.2) &&
  (rs.zip (rs.drop 1 ++ rs.take 1)).all (fun (r, q) => !meets r.1 r.2 q.1 q.2)

/-- STREAM_OPEN zeroes the state block of an encoded stream (R384). -/
def State.openEnc (s : State) (i : Nat) : State :=
  let p := s.encDescr i
  let s := s.hubDone [(s.streamAddr i + 128, 64)]
  if epOn p then s.memWriteHub (epOut p) (List.replicate 8192 0) else s

end Sys2Proof.Machine
end

