-- ==== Sys2Proof/Machine/Sampling.lean ====
section
/-! DEFINITION. Instruction sampling (R489, Table 21-7): which instruction is sampled, when its record is written, and the
ring. -/

namespace Sys2Proof.Machine

/-- The mark, in a pending sample, of a sequencer's own wait (a CWAIT, a BAR, a TFENCE). -/
def waitMark : Nat × Nat := (192, 0)

/-- Write the record of a completed instruction into the cluster's ring, over what its slot held; LATENCY is a measured value (log 8). -/
def State.sampleWrite (s : State) (k : Nat) (p : SamplePend) : State :=
  let (lat, s) := s.draw
  let job := ((s.cluster k).holder).getD 0
  let head := (s.cluster k).sampleHead
  let r : Nat := job.toNat * 2 ^ 224 + (lat.toNat % 2 ^ 32) * 2 ^ 192 + (p.cycle.toNat % 2 ^ 48) * 2 ^ 144 +
    p.cores.toNat * 2 ^ 128 + (p.pc.toNat % 2 ^ 40) * 2 ^ 88 + (p.descAddr.toNat % 2 ^ 17) * 2 ^ 64 + p.word.toNat * 2 ^ 32 +
    head.toNat
  let held := (s.cluster k).sampleRing.any (fun e => e.1 == head.toNat % 2048)
  let s := s.modCluster k (fun c => { c with
    sampleRing := mset c.sampleRing (head.toNat % 2048) (BitVec.ofNat 256 r), sampleHead := head + 1 })
  let s := s.bumpCluster k 31 1
  if held then s.bumpCluster k 32 1 else s

/-- An instruction is executed: every N-th is recorded, at once or when what it waits for (`left`) is over. -/
def State.sample (s : State) (k : Nat) (word : Word) (pc : Quad) (cores : BitVec 16) (desc : Quad) (left : List (Nat × Nat)) : State :=
  let n := s.dv 0x19F0 3
  let s := s.modCluster k (fun c => { c with sampleCount := c.sampleCount + 1 })
  if n = 0 ∨ (s.cluster k).sampleCount % n ≠ 0 then s
  else
    let p : SamplePend := ⟨word, pc, (s.seq k).cycle, cores, desc, left⟩
    if left.isEmpty then s.sampleWrite k p else s.modCluster k (fun c => { c with samplePend := c.samplePend ++ [p] })

/-- Something a sampled instruction waited for is over: a tile instruction retired, or the sequencer's own wait ended. -/
def State.sampleDone (s : State) (k : Nat) (what : Nat × Nat) : State :=
  let ps := (s.cluster k).samplePend.map (fun p => { p with left := p.left.filter (fun x => decide (x ≠ what)) })
  let s := s.modCluster k (fun c => { c with samplePend := ps.filter (fun p => !p.left.isEmpty) })
  (ps.filter (fun p => p.left.isEmpty)).foldl (fun t p => t.sampleWrite k p) s

end Sys2Proof.Machine
end

