-- ==== Sys2Proof/Machine/Barriers.lean ====
section
/-! DEFINITION. Barriers: a job's device barrier channels (R95–R97) and the exchange barriers bound to them (R349, R350). Also
the route table's fields (R333, R334), which the exchange barriers and the collectives share. -/

namespace Sys2Proof.Machine

/-! ## The route table (Table 14-1) -/

/-- Entry g of the route table. -/
def State.routeEntry (s : State) (g : Nat) : Nat := if g < 128 then s.dv 0x1110 (g + 1) else s.dv 0x1111 (g - 127)
def rtTag (e : Nat) : Word := BitVec.ofNat 32 (bits e 31 0)
def rtValid (e : Nat) : Bool := bit e 32
def rtBulk (e : Nat) : Bool := bit e 33
def rtTop (e : Nat) : Nat := bits e 41 40
def rtDies (e : Nat) : Nat := bits e 65 64
def rtL1Port (e r : Nat) : Nat := bits e (79 + 4 * r) (76 + 4 * r)
/-- Size of a level; 1 above TOP (R334). -/
def rtSize (e l : Nat) : Nat :=
  if rtTop e < l then 1
  else match l with
    | 0 => bits (rtDies e) 0 0 + bits (rtDies e) 1 1
    | 1 => bits e 72 70
    | 2 => bits e 111 104
    | _ => bits e 127 120
/-- Rank of die d of this module at a level. -/
def rtRank (e l d : Nat) : Nat :=
  if rtTop e < l then 0
  else match l with
    | 0 => if d = 0 then 0 else bits (rtDies e) 0 0
    | 1 => bits e 75 73
    | 2 => bits e 119 112
    | _ => bits e 135 128
/-- Contributors of an operation over levels L0 to `top` (R338). -/
def exSize (e top : Nat) : Nat := (List.range (top + 1)).foldl (fun n l => n * rtSize e l) 1
/-- Ports of a ring level: the one toward rank r + 1, the one toward rank r − 1 (R334, R342). -/
def ringPorts (l : Nat) : Nat × Nat := if l = 2 then (4, 5) else (6, 7)
/-- The port to a member of a level: direct at L1, by the shorter direction on a ring, P4 or P6 at equal distance (R342). -/
def rtPortTo (e l src dst : Nat) : Nat :=
  if l = 1 then rtL1Port e dst
  else
    let n := rtSize e l
    if (dst + n - src) % n ≤ n / 2 then (ringPorts l).1 else (ringPorts l).2
/-- The ports a group uses at a level. -/
def rtLevelPorts (e l : Nat) : List Nat :=
  if l = 0 ∨ rtTop e < l ∨ rtSize e l ≤ 1 then []
  else if l = 1 then ((List.range (rtSize e 1)).filter (fun r => decide (r ≠ rtRank e 1 0))).map (rtL1Port e)
  else [(ringPorts l).1, (ringPorts l).2]
/-- The ports a group uses. -/
def rtPorts (e : Nat) : List Nat := [1, 2, 3].flatMap (rtLevelPorts e)

/-! ## Losing a group (R335, R352) -/

/-- Mark a group ABORTED; the job that holds it starts a fault sweep. -/
def State.abortGroup (s : State) (g : Nat) (status : Byte) : State :=
  let s := s.modGroup g (fun x => { x with aborted := true })
  match (s.group g).holder with
  | some j => s.jobFault (some j) { status := status }
  | none => s
/-- The checks of R335 before an operation sends on a port: the fault, none where it may send. -/
def State.portCheck (s : State) (p : Nat) (started : Bool) : Option Byte :=
  let x := s.port p
  let want := s.dv 0x1108 (p + 1)
  if !(decide (x.state = .up) || (started && decide (x.state = .draining))) then some stPeerLost
  else if want ≠ 0 ∧ x.peerSerial.toNat ≠ want then some stRouteMismatch else none

/-! ## Frames (Table 13-1) and control records of an exchange barrier (Table 14-4) -/

/-- The kind of a frame (Table 13-1). -/
def fhKind (h : Quad) : Nat := bits h.toNat 6 5
/-- Whether frames of a class, 1 EXCH and 2 BULK, are sent and not acknowledged. -/
def Port.unacked (x : Port) (kind : Nat) : Bool := x.replay.any (fun f => decide (fhKind f.header = kind))

def xrecord (chan kind level : Nat) (tag round : Word) : BitVec 256 :=
  BitVec.ofNat 256 (2 + chan * 2 ^ 8 + kind * 2 ^ 16 + level * 2 ^ 24 + tag.toNat * 2 ^ 32 + round.toNat * 2 ^ 64)
/-- Queue a control record at a port that is UP, or drains and still sends frames (R315, R322). At another port it is kept until the port is
UP (R350; DESIGN CHOICE, log 222). -/
def State.sendCtrl (s : State) (p : Nat) (r : BitVec 256) : State :=
  if (s.port p).state = .up ∨ (s.port p).state = .draining then s.modPort p (fun x => { x with ctrlOut := x.ctrlOut ++ [r] })
  else s.modPort p (fun x => { x with ctrlHeld := x.ctrlHeld ++ [r] })
/-- Whether a record is an exchange barrier's ARRIVE or RELEASE (Table 14-4). -/
def barrierRec (r : BitVec 256) : Bool := decide (bits r.toNat 7 0 = 2) && decide (bits r.toNat 23 16 ≠ 2)
/-- Drop the barrier records that wait at the ports for groups of some tags. -/
def State.dropHeldCtrl (s : State) (pick : Word → Bool) : State :=
  s.withNet (fun n => { n with ports := n.ports.map (fun (p : Nat × Port) => (p.1, { p.2 with
    ctrlHeld := p.2.ctrlHeld.filter (fun r => !pick (BitVec.ofNat 32 (bits r.toNat 63 32))) })) })

/-! ## Arrivals and releases at a device channel -/

def Job.barrier? (j : Job) (chan : Nat) : Option Barrier := j.barriers.find? (fun b => b.chan == chan)
def State.modBarrier (s : State) (job : JobId) (chan : Nat) (f : Barrier → Barrier) : State :=
  s.modJob job (fun j => { j with barriers := j.barriers.map (fun b => if b.chan = chan then f b else b) })

/-- Whether a participant (a core 0–15 of a team rank, or 16 the sequencer) is a member. -/
def Barrier.isMember (b : Barrier) (rank who : Nat) : Bool := (mget 0 b.member rank).getLsbD who
/-- Whether every member of a team of n clusters has arrived (R96, R97). -/
def Barrier.full (b : Barrier) (n : Nat) : Bool :=
  (List.range n).all (fun r => (List.range 17).all (fun w => !b.isMember r w || b.arrived.contains (r, w)))

/-- Arrivals at this module for a round, at a level (R350). -/
def State.xGot (s : State) (tag : Word) (chan level : Nat) (round : Word) : Nat :=
  s.net.xheld.countP (fun x => decide (x.tag = tag ∧ x.chan = chan ∧ x.level = level ∧ x.round = round ∧ x.kind = 0))

/-- Send a RELEASE to the members below this module at a level whose rank 0 it is, by the paths of their arrivals (R350): on a ring the
lower half of the ranks is reached by P4 or P6, the others by P5 or P7. -/
def State.xReleaseLevel (s : State) (e l : Nat) (chan : Nat) (round : Word) : State :=
  if rtRank e l 0 ≠ 0 then s
  else
    let r := xrecord chan 1 l (rtTag e) round
    if l = 1 then
      ((List.range (rtSize e 1)).filter (fun k => decide (k ≠ 0))).foldl (fun t k => t.sendCtrl (rtL1Port e k) r) s
    else
      let n := rtSize e l
      let s := if 3 ≤ n then s.sendCtrl (ringPorts l).1 r else s
      if 2 ≤ n then s.sendCtrl (ringPorts l).2 r else s
/-- Release a round at this module, and at the levels up to `top` whose rank 0 it is. -/
def State.xRelease (s : State) (job : JobId) (chan : Nat) (e top : Nat) (round : Word) : State :=
  let s := ((List.range (top + 1)).reverse.filter (fun l => decide (1 ≤ l ∧ 1 < rtSize e l))).foldl
    (fun t l => t.xReleaseLevel e l chan round) s
  let s := s.modBarrier job chan (fun b => { b with xreleased := true })
  s.withNet (fun n => { n with xbarRounds := n.xbarRounds + 1 })

/-- The levels of a binding that have other members. -/
def xLevels (e top : Nat) : List Nat := (List.range (top + 1)).filter (fun l => decide (1 ≤ l ∧ 1 < rtSize e l))
/-- The first level at which this module cannot go on: as a member it sends ARRIVE to rank 0, as rank 0 it waits for the
others; none: every level is complete (R350). -/
def State.xFront (s : State) (e chan : Nat) (round : Word) (ls : List Nat) : Option Nat :=
  ls.find? (fun l => decide (rtRank e l 0 ≠ 0) || decide (s.xGot (rtTag e) chan l round + 1 < rtSize e l))

/-- A RELEASE that was held for this round acts now (R350): where it came from a level above, what lies below is released too. -/
def State.xHeldRelease (s : State) (job : JobId) (chan e : Nat) (round : Word) : State :=
  match s.net.xheld.find? (fun x => decide (x.tag = rtTag e ∧ x.chan = chan ∧ x.kind = 1 ∧ x.round = round)) with
  | some x => s.xRelease job chan e x.level round
  | none => s

/-- Arrive for the module at the exchange barrier, as far as the arrivals so far allow (R349, R350). -/
def State.xArrive (s : State) (job : JobId) (chan : Nat) : State :=
  match s.job? job with
  | none => s
  | some j => match j.barrier? chan with
    | none => s
    | some b => match b.xbind with
      | none => s
      | some (g, top) =>
        if !b.full j.team.length || b.xreleased || b.xsent then s
        else
          let e := s.routeEntry g
          match s.xFront e chan (b.xround + 1) (xLevels e top) with
          | none => s.xRelease job chan e top (b.xround + 1)
          | some l =>
            if rtRank e l 0 = 0 then s
            else
              let s := s.sendCtrl (rtPortTo e l (rtRank e l 0) 0) (xrecord chan 0 l (rtTag e) (b.xround + 1))
              (s.modBarrier job chan (fun b => { b with xsent := true })).xHeldRelease job chan e (b.xround + 1)

/-- A participant arrives (R97). -/
def State.barArrive (s : State) (job : JobId) (chan rank who : Nat) : State :=
  let s := s.modBarrier job chan (fun b => { b with arrived := if b.arrived.contains (rank, who) then b.arrived else b.arrived ++ [(rank, who)] })
  s.xArrive job chan

/-- Whether a channel can release: the last participant has arrived, and where it is bound the exchange barrier released. -/
def Barrier.ready (b : Barrier) (n : Nat) : Bool :=
  decide (b.arrived ≠ []) && b.full n && (b.xbind.isNone || b.xreleased)

/-- Release every participant of a channel; it is then ready for the next round (R97). The cycles that cores and sequencers have
waited are counted (Table 21-5). -/
def State.barRelease (s : State) (job : JobId) (chan : Nat) : State :=
  match s.job? job with
  | none => s
  | some j => match j.barrier? chan with
    | none => s
    | some b =>
      if !b.ready j.team.length then s
      else
        let s := s.modBarrier job chan (fun b => { b with
          arrived := [], xround := if b.xbind.isSome then b.xround + 1 else b.xround, xsent := false, xreleased := false })
        let s := match b.xbind with
          | some (g, _) => s.withNet (fun n => { n with xheld := n.xheld.filter (fun x =>
              !decide (x.tag = rtTag (s.routeEntry g) ∧ x.chan = chan ∧ x.round = b.xround + 1)) })
          | none => s
        let s := j.team.foldl (fun t k => t.bumpCluster k 19 1) s
        b.arrived.foldl (fun t a =>
          match j.team[a.1]? with
          | none => t
          | some k =>
            if a.2 = 16 then
              match (t.seq k).stall with
              | .bar c => if c = chan then
                  ((t.setSeq k { t.seq k with stall := .none }).bumpClusterFree k 2).sampleDone k waitMark else t
              | _ => t
            else (t.bumpCoreFree (16 * k + a.2) 6).modCore (16 * k + a.2) (fun x => { x with
              queue := x.queue.map (fun e =>
                if e.arrived && !e.released && decide (e.phase = .queued) && decide (dOpc e.desc.toNat = 0x32) &&
                   decide (bChan e.desc.toNat = chan) then { e with released := true, phase := .done 0 } else e) })) s

end Sys2Proof.Machine
end

