-- ==== Sys2Proof/Machine/TileOps.lean ====
section
/-! DEFINITION. Tile queues: finding entries, their ranges (R67, R72, R109), writing results with the marks and counters they
move (R48, R273, R486), and what retirement, settlement and voiding do (R73, R104, R124, R132, R302). -/

namespace Sys2Proof.Machine

/-! ## Entries -/

def QEntry.d (e : QEntry) : Nat := e.desc.toNat
def QEntry.fam (e : QEntry) : Option Fam := famOf (dOpc e.d)
def QEntry.isQueued (e : QEntry) : Bool := decide (e.phase = .queued)
def QEntry.isRunning (e : QEntry) : Bool := decide (e.phase = .running)
def QEntry.isDone (e : QEntry) : Bool :=
  match e.phase with
  | .done _ => true
  | _ => false
def QEntry.isRetired (e : QEntry) : Bool :=
  match e.phase with
  | .retired _ => true
  | _ => false
/-- Started and not retired: what the scoreboard of R72 looks at. -/
def QEntry.inFlight (e : QEntry) : Bool := e.isRunning || e.isDone

def State.modEntry (s : State) (c : Nat) (ord : Word) (f : QEntry → QEntry) : State :=
  s.modCore c (fun x => { x with queue := x.queue.map (fun e => if e.ord = ord then f e else e) })
def State.finish (s : State) (c : Nat) (ord : Word) (istat : Byte) : State :=
  s.modEntry c ord (fun e => { e with phase := .done istat })
def Core.entry? (x : Core) (ord : Word) : Option QEntry := x.queue.find? (fun e => e.ord == ord)

/-- Instruction statuses (Table 4-16). -/
def iOk : Byte := 0x00
def iEmpty : Byte := 0x01
def iSkipped : Byte := 0x02
def iTableReject : Byte := 0x03
def iNoVacancy : Byte := 0x04
def iTierError : Byte := 0x05
def iMaskMalformed : Byte := 0x06
/-- ROUND_INVALID and ROUND_ORDER as ISTAT (09_rooms.md, after Table 9-9; R235). -/
def iRoundInvalid : Byte := 0x07
def iRoundOrder : Byte := 0x08
/-- The END_CODE of a stream-class status (R378); none of the others. -/
def endCodeOf (i : Byte) : Option Byte :=
  if i = iTierError then some stTierError else if i = iMaskMalformed then some stMaskMalformed
  else if i = iRoundInvalid then some stRoundInvalid else if i = iRoundOrder then some stRoundOrder else none

/-- The job that runs on a core while no sweep is under way. -/
def State.coreJob (s : State) (c : Nat) : Option Job :=
  if s.hub.sweeping then none
  else match s.holderJob (clusterOf c) with
    | some j => if (j.phase = .running ∨ j.phase = .stopping) ∧ (s.core c).stopped = false then some j else none
    | none => none
/-- The same, where the core may still issue (R76 step 2). -/
def State.issueJob (s : State) (c : Nat) : Option Job :=
  match s.coreJob c with
  | some j => if j.phase = .running ∧ (s.core c).stopReq = false then some j else none
  | none => none

/-- Bytes of the general region of a job's core stores (R65), the base of the line buffer, and the bytes of one of its 16
slots (R271). -/
def Job.general (j : Job) : Nat := 6291456 - j.lbBytes - j.tabBytes
def Job.lbBase (j : Job) : Nat := j.general
def Job.slotBytes (j : Job) : Nat := j.lbBytes / 16

/-- Count a burst of cluster k on its counter of bytes read (10) or written (11), and what of it crossed the dies (Table 21-5). -/
def State.countBurst (s : State) (k i a n : Nat) : State := (s.bumpCluster k i n).bumpCluster k 12 (remoteBytes k a n)

/-- Count a narrow access of cluster k: one to each 32 bytes that it touches (R151). -/
def State.countNarrow (s : State) (k a n : Nat) : State :=
  (s.bumpCluster k 9 (if n = 0 then 0 else (a + n - 1) / 32 + 1 - a / 32)).bumpCluster k 12 (remoteBytes k a n)

/-! ## Adapters (R193) -/

def State.adapterRec (s : State) (i : Nat) : Nat := s.hubRead (s.dv 0x0A00 1 + 64 * i) 64
def adState (r : Nat) : Nat := bits r 1 0
def adFmt (r : Nat) : Nat := bits r 73 70
def adRank (r : Nat) : Nat := bits r 82 74
def adTiles (r : Nat) : Nat := bits r 91 83
def adUp (r : Nat) : Nat := bits r 131 92
/-- The failing read of an MMA.LA's adapter entry (Table 6-4). -/
def State.adapterErr (s : State) (f : Fam) (d : Nat) : Option AccErr :=
  if f = .mmaLa then (match s.memRead (s.dv 0x0A00 1 + 64 * laAdapter d) 64 with
    | .error e => some e
    | .ok _ => none) else none
/-- What the ranges of an instruction need beside its descriptor: an adapter's rank, or the rows S that a contributor of an MMA.RS stores
(Table 14-2). -/
def State.rangeArg (s : State) (f : Fam) (d : Nat) : Nat :=
  if f = .mmaLa then adRank (s.adapterRec (laAdapter d))
  else if f = .mmaRs then (dBatch d + 1) * (dOp1 d).rows / exSize (s.routeEntry (xGroup d)) (xLevel d) else 0

/-! ## Ranges of an entry -/

/-- The iterations an instruction runs: all of its batch, or the claimed index alone (R109, R110). -/
def QEntry.its (e : QEntry) : List Nat :=
  match e.claim with
  | some j => [j]
  | none => List.range (dBatch e.d + 1)

/-- The reuse block that skips an instruction (R290). -/
def Core.skipBlock (x : Core) (ord : Nat) : Option ReuseBlock :=
  x.blocks.find? (fun b => b.skip && decide (b.chk < ord) && decide (ord ≤ b.last))
def Core.inBlock (x : Core) (ord : Nat) : Option ReuseBlock :=
  x.blocks.find? (fun b => decide (b.chk < ord) && decide (ord ≤ b.last))

/-- The copy of PREV_OUT into the block output (R290): none where the ranges coincide. -/
def copyRanges (d : Nat) : IterRngs :=
  let n := uOutBytes d
  if (dSop3 d).addr = (dSop4 d).addr ∨ n = 0 then {}
  else { cr := [((dSop3 d).addr, (dSop3 d).addr + n)], cw := [((dSop4 d).addr, (dSop4 d).addr + n)] }

def hullOf (a b : IterRngs) : IterRngs := ⟨hull a.cr b.cr, hull a.cw b.cw, hull a.dr b.dr, hull a.dw b.dw⟩

/-- The span of bytes an instruction's iterations touch (R109), from its descriptor. -/
def descRanges (f : Fam) (d : Nat) (its : List Nat) (clip : Option Nat) (rank : Nat) : IterRngs :=
  its.foldl (fun r i => hullOf r (tileRanges f d i clip rank)) {}
/-- The same from the records the instruction reads in the core store. -/
def recRanges (f : Fam) (m : Mem) (d : Nat) (its : List Nat) (clip : Option Nat) : IterRngs :=
  its.foldl (fun r i => hullOf r (recordRanges f m d i clip)) {}
def IterRngs.append (a b : IterRngs) : IterRngs := ⟨a.cr ++ b.cr, a.cw ++ b.cw, a.dr ++ b.dr, a.dw ++ b.dw⟩

/-- The ranges of an instruction that has started. -/
def State.entryRanges (s : State) (c : Nat) (e : QEntry) : IterRngs :=
  let x := s.core c
  match e.fam with
  | none => {}
  | some f =>
    let own := match x.skipBlock e.ord.toNat with
      | some b => if e.ord.toNat = b.last then copyRanges b.desc.toNat else {}
      | none => {}
    if (x.skipBlock e.ord.toNat).isSome || (e.claimed && e.claim.isNone) then own
    else own.append ((descRanges f e.d e.its e.clip (s.rangeArg f e.d)).append (recRanges f x.store e.d e.its e.clip))

/-- Whether ranges are clear of the scoreboard of R72: of what the entries given write, and where written of what they read. -/
def State.clearOf (s : State) (c : Nat) (es : List QEntry) (r : IterRngs) : Bool :=
  es.all (fun e =>
    let q := s.entryRanges c e
    q.cw.all (fun w => (r.cr ++ r.cw).all (fun x => !rngMeets w x)) && q.cr.all (fun w => r.cw.all (fun x => !rngMeets w x)))

/-! ## Results -/

/-- Line-buffer tags whose source a write of `[a, a + n)` meets are cleared (R273). -/
def LineTag.bytes (t : LineTag) : Nat := t.inW * 16 * fmtBits t.fmt / 8
def clearTags (ts : AMap LineTag) (a n : Nat) : AMap LineTag := ts.filter (fun p => !meets a n p.2.src p.2.bytes)

/-- Store the writes of an instruction in its core (R73, R108), and count saturations and NaN outputs (R48): at once, and for good, also of
an instruction on a tab that voids (DESIGN CHOICE, log 206). -/
def State.applyWrites (s : State) (c : Nat) (w : Writes) : State :=
  let s := s.modCore c (fun x => { x with
    store := w.cs.foldl (fun m p => m.writeBytes p.1 p.2) x.store
    acc := w.acc.foldl (fun m p => m.writeLE (4 * p.1) 4 p.2) x.acc
    tags := w.cs.foldl (fun ts p => clearTags ts p.1 p.2.length) x.tags })
  (s.bumpCore c 7 w.sat).bumpCore c 8 w.nan

/-- Contents the spec leaves unspecified from now on: byte ranges of the core store, consecutive accumulator rows, and line-buffer slots,
which lose their tags (R291). -/
def State.forgetStore (s : State) (c : Nat) (rs : List Rng) (rows : List Nat) (slots : List (Nat × Rng)) : State :=
  let (t, s) := s.stamp
  s.modCore c (fun x => { x with
    store := (rs ++ slots.map Prod.snd).foldl (fun m r => m.forget r.1 r.2 t) x.store
    acc := match rows.head? with
      | some r => x.acc.forget (r * 1024) ((r + rows.length) * 1024) t
      | none => x.acc
    tags := (rs.foldl (fun ts r => clearTags ts r.1 (r.2 - r.1)) x.tags).filter (fun p => !slots.any (fun q => q.1 == p.1)) })
/-- Store bytes in a core. -/
def State.putStore (s : State) (c a : Nat) (bs : List Byte) : State := s.applyWrites c { cs := [(a, bs)] }

/-! ## The tab's log (R299) -/

/-- The 64-byte lines of ranges. -/
def linesOf (rs : List Rng) : List Nat :=
  (rs.flatMap (fun r => if r.2 ≤ r.1 then [] else (List.range ((r.2 - 1) / 64 + 1 - r.1 / 64)).map (fun i => r.1 / 64 + i))).eraseDups
/-- Accumulator rows an instruction writes, its rows clipped as it is (R131, R203). -/
def accRowsOf (f : Fam) (d : Nat) (its : List Nat) (clip : Option Nat) : List Nat :=
  let n := its.length
  if f.isMma then (List.range (n * ((dOp1 d).clip clip).rows)).map (fun r => mAccRow d + r)
  else if f.isConv then (List.range (n * ((dOp2 d).clip clip).rows)).map (fun r => cAccRow d + r)
  else if f = .attnBwd then List.range 512
  else if f.isAttn then List.range (n * ((dSop1 d).clip clip).rows)
  else []
/-- The lines an instruction logs, those not yet logged in its tab (R299): of the accumulator store, 16 a row. -/
def newLines (t : Tab) (cs : List Nat) (acc : List Nat) : List (Bool × Nat) :=
  ((cs.map (fun l => (false, l))) ++ acc.flatMap (fun r => (List.range 16).map (fun i => (true, 16 * r + i)))).filter
    (fun p => !t.log.any (fun g => g.acc == p.1 && g.line == p.2))
def logLine (x : Core) (p : Bool × Nat) : LogLine := ⟨p.1, p.2, (if p.1 then x.acc else x.store).readBytes (64 * p.2) 64, 0⟩
/-- Whether a REUSE.CHK has its own tab open. -/
def Core.ownTab (x : Core) (e : QEntry) : Option Tab :=
  if e.fam = some .reuseChk then x.tabs.find? (fun t => t.id == e.ord.toNat) else none
/-- Lines of log space in use on a core. -/
def Core.logUsed (x : Core) : Nat := (x.tabs.map (fun t => t.log.length)).sum
/-- Instructions on tab and unsettled; posts and arrivals held. -/
def Core.onTab (x : Core) : Nat := x.queue.countP (fun e => e.tab.isSome)
def Core.heldPosts (x : Core) : Nat :=
  (x.tabs.map (fun t => t.held.countP (fun h => match h with
    | .post _ => true
    | .arrival _ _ => true
    | .commit _ _ p _ => decide (p.kind ≠ 0)
    | _ => false))).sum

/-! ## Retirement -/

/-- Set a valid bit of the reuse store (R294): its byte is read and written, and both count (R488); where its granule cannot be read or written, the job faults (Table 6-4). -/
def State.setValid (s : State) (c : Nat) (ord : Word) (entry : Nat) : State :=
  let a := s.dv 0x0E00 1 + entry / 8
  match s.memRead a 1 with
  | .error x => s.coreAccFault c ord x
  | .ok bs => (s.readDone a 1).memWriteCore c ord a [BitVec.ofNat 8 (leNat bs ||| (2 ^ (entry % 8)))]

/-- The saturating counter of a predictor (R305). -/
def Predictor.record (p : Predictor) (reuse : Bool) : Predictor :=
  { last := reuse, count := if reuse then min 3 (p.count + 1) else p.count - 1 }
def State.recordOutcome (s : State) (c : Nat) (entry : Nat) (reuse : Bool) : State :=
  s.modCore c (fun x => { x with predictors := mmod {} x.predictors (entry % 1024) (fun p => p.record reuse) })

/-- Update a core's status record (R124): a read and a write of the shared cache (log 204). -/
def State.recordStatus (s : State) (c : Nat) (ord : Word) (istat : Byte) : State :=
  let k := clusterOf c
  let v := s.scRead k (8 * (c % 16)) 8
  let s := if istat = iSkipped then s.bumpCluster k 26 1 else if istat = iNoVacancy then s.bumpCluster k 24 1
    else if istat = iTierError then s.bumpCluster k 25 1 else s
  ((s.scWrite k (8 * (c % 16)) 8 (istat.toNat * 2 ^ 56 + min (bits v 55 32 + 1) (2 ^ 24 - 1) * 2 ^ 32 + ord.toNat)).bumpCluster k 5 1).bumpCluster k 6 1

/-- The header post of an instruction retiring with a status (R104): none, or the post to make. -/
def headerPost (d : Nat) (istat : Byte) : Option PendPost :=
  if dPostKind d = 1 then some ⟨1, BitVec.ofNat 16 (dPostId d), BitVec.ofNat 32 (dPostVal d)⟩
  else if dPostKind d = 2 ∧ (istat = iOk ∨ istat = iEmpty) then some ⟨2, BitVec.ofNat 16 (dPostId d), BitVec.ofNat 32 (dPostVal d)⟩
  else none

/-- What an instruction makes visible at its retirement, in order (R104, R124, R132): its status record, its valid bit, the
commit of the chain it closes or else its post. A chain whose last member retires with SKIPPED makes no commit, and that member posts
as R105 has it (DEDUCED, log 170). -/
def QEntry.effects (e : QEntry) (istat : Byte) : List Held :=
  let post := headerPost e.d istat
  (if istat = iOk then [] else [.status e.ord istat]) ++
  (if e.fam = some .reuseChk ∧ istat = iOk then [.valid e.ord (uEntry e.d) (e.outcome.getD false) e.computed] else []) ++
  (match e.claim with
   | some j =>
     if e.chainEnd && decide (istat ≠ iSkipped) then [.commit (dWork e.d) j (post.getD ⟨0, 0, 0⟩) e]
     else post.toList.map Held.post
   | none => post.toList.map Held.post)

/-- Close the claim an entry's retirement ends (R130). -/
def Core.closeClaim (x : Core) (e : QEntry) : Core :=
  if e.claimed && e.chainEnd then { x with claims := x.claims.filter (fun k => !(decide (k.work = dWork e.d) && (match e.claim with
    | some j => decide (k.index = j) && !k.exhausted
    | none => k.exhausted))) } else x

/-- Drop reuse blocks whose last instruction has gone. -/
def Core.purge (x : Core) : Core :=
  { x with blocks := x.blocks.filter (fun b => decide (x.issued.toNat < b.last) || x.queue.any (fun e => decide (e.ord.toNat ≤ b.last))) }

/-- A counter's record: its cluster, its place there, its 32 bytes (R127). -/
def State.workRec (s : State) (job : Job) (w : Nat) : Nat × Nat × Nat :=
  let k := ((job.team)[w % job.team.length]?).getD 0
  (k, scWork + 32 * w, s.scRead k (scWork + 32 * w) 32)
/-- The job that holds a core, running or stopped, while no sweep is under way: its posts still land (R76, R133). -/
def State.postJob (s : State) (c : Nat) : Option Job := if s.hub.sweeping then none else s.holderJob (clusterOf c)
/-- Put a commit's post where the commit stood among the posts (R86, R132). -/
def Core.insertPost (x : Core) (n : Nat) (p : PendPost) : Core :=
  { x with posts := x.posts.take n ++ p :: x.posts.drop n, commits := x.commits.map (fun m => { m with before := m.before + 1 }) }
/-- CHAIN_COMMIT (R132): test and set the index's bit; the first commit counts and posts, a duplicate counts alone. Either is two
atomic operations of Table 6-6. -/
def State.chainCommit (s : State) (c : Nat) : State :=
  match s.postJob c, (s.core c).commits with
  | some job, p :: rest =>
    let s := s.modCore c (fun x => { x with commits := rest })
    let (k, off, r) := s.workRec job p.work
    let a := scWork + bits r 147 128 * 64 + p.index / 8
    let b := s.scRead k a 1
    let s := ((s.bumpCluster k 5 1).countAtomic k).countAtomic k
    if bit b (p.index % 8) then
      (s.scAdd32 k (off + 24) 1).bumpCluster (clusterOf c) 16 1
    else
      let s := (s.scWrite k a 1 (b + 2 ^ (p.index % 8))).scAdd32 k (off + 20) 1
      if p.post.kind = 0 then s else s.modCore c (fun x => x.insertPost p.before p.post)
  | _, _ => s
/-- The commits that wait on a core are made. -/
def State.makeCommits (s : State) (c : Nat) : State := (s.core c).commits.foldl (fun t _ => t.chainCommit c) s

/-- Make one effect visible. Posts and commits wait for visibility (R86, R132). An arrival that was held on tab is made with the commits
before it (R97, R302; DEDUCED, log 217). A stream-class status ends streams that the job still holds (R105). -/
def State.makeEffect (s : State) (c : Nat) (job : Job) (h : Held) : State :=
  match h with
  | .post p => s.modCore c (fun x => { x with posts := x.posts ++ [p] })
  | .commit w j p e => s.modCore c (fun x => { x with commits := x.commits ++ [⟨w, j, p, e, x.posts.length⟩] })
  | .valid ord n reuse record =>
    let s := (s.setValid c ord n).bumpCore c (if reuse then 15 else 16) 1
    if record then s.recordOutcome c n reuse else s
  | .arrival chan _ => (s.makeCommits c).barArrive job.id chan (rankIn job.team (clusterOf c)) (c % 16)
  | .status ord istat =>
    let s := s.recordStatus c ord istat
    match endCodeOf istat, (s.core c).entry? ord with
    | some code, some e => s.streamErrors (((statusStreams job e.d).filter (s.heldBy job)).map (fun i => (i, code)))
    | _, _ => s

/-- Take an entry out of the queue, off tab: its effects are made, its claim closed, samples that waited for it completed. -/
def State.retireEntry (s : State) (c : Nat) (job : Job) (e : QEntry) (istat : Byte) : State :=
  let s := (e.effects istat).foldl (fun t h => t.makeEffect c job h) s
  let s := s.modCore c (fun x => ({ x with queue := x.queue.filter (fun q => decide (q.ord ≠ e.ord)) }.closeClaim e).purge)
  s.sampleDone (clusterOf c) (c, e.ord.toNat)

/-! ## Weight waits (R28, R191) -/

/-- Mark the first wait of an instruction for its weights, which is counted against its job's slot (R28). -/
def State.beginWait (s : State) (c : Nat) (e : QEntry) : State :=
  if e.waitFrom.isSome then s
  else
    let s := (s.bumpCoreFree c 5).modEntry c e.ord (fun q => { q with waitFrom := some s.pacing.toNat })
    match (s.holderJob (clusterOf c)).bind Job.slot with
    | some i => s.withPwr (fun p => { p with wstallWaits := mmod 0 p.wstallWaits i (fun n => n + 1) })
    | none => s
/-- End an instruction's wait: the slot of its job is charged with the MGMT cycles it took (R28). -/
def State.endWait (s : State) (c : Nat) (ord : Word) : State :=
  match ((s.core c).entry? ord).bind QEntry.waitFrom, (s.holderJob (clusterOf c)).bind Job.slot with
  | some t, some i => (s.withPwr (fun p => { p with
      wstallCycles := mmod 0 p.wstallCycles i (fun n => n + (s.pacing.toNat - t)) })).modEntry c ord (fun q => { q with waitFrom := none })
  | _, _ => s.modEntry c ord (fun q => { q with waitFrom := none })

/-! ## Voiding (R302, R303) -/

/-- An entry as it goes back to the tile queue: unstarted, its claim kept (R110, R301). -/
def QEntry.unstart (e : QEntry) : QEntry :=
  { e with phase := .queued, waitMet := false, tab := none, arrived := false, released := false, filled := false,
           waitFrom := none, outcome := none, image := none }

/-- Void every open tab of a core: its entries behind ordinal `from_` go back unstarted, the log lines are to be restored,
newest first, tags filled from values on tab are cleared. -/
def Core.voidTabs (x : Core) (from_ : Nat) : Core :=
  { x with
    restore := (x.tabs.flatMap (fun t => t.scratch ++ t.log)).reverse ++ x.restore
    tags := x.tags.filter (fun p => p.2.tab.isNone)
    queue := x.queue.map (fun e => if from_ < e.ord.toNat ∧ e.tab.isSome then e.unstart else e)
    blocks := x.blocks.filter (fun b => decide (b.chk ≤ from_))
    tabs := [] }

end Sys2Proof.Machine
end

