-- ==== Sys2Proof/Machine/ExchOps.lean ====
section
/-! DEFINITION. Exchange operations as a core opens them: legality, ranks and vectors (R333–R340), the pairing rule of R337,
and the relay record (R218). -/

namespace Sys2Proof.Machine

def dieOfCore (c : Nat) : Nat := dieOfCluster (clusterOf c)

/-- The rank of die d in it. -/
def exRank (e top d : Nat) : Nat := (List.range (top + 1)).foldl (fun q l => q * rtSize e l + rtRank e l d) 0

/-- Element bytes and scale bytes of the A rows that MMA.AG gathers, and the size of one contributor's part (Table 14-2); the
sum is rounded up to 2,048 (log 18). -/
def agElems (d : Nat) : Nat := (dBatch d + 1) * (dOp1 d).rows * (dOp1 d).pitch
def agScales (d : Nat) : Nat := if isMx (dOp1 d).fmt then (dBatch d + 1) * (dOp1 d).rows * scaleBytes 256 else 0
def agPart (d : Nat) : Nat := cdiv (agElems d + agScales d) 2048 * 2048

/-- Bytes of an operation's vector (Table 14-2). -/
def exVector (f : Fam) (d : Nat) : Nat :=
  match f with
  | .mmaRs => (dBatch d + 1) * (dOp1 d).rows * mNExt d * 4
  | .mmaAg => agElems d + agScales d
  | .moveA2a | .moveAr => (dBatch d + 1) * vNRows d * vRBytes d
  | _ => 0

/-- The rules an exchange instruction obeys beside those of its body (R115, R336, R338, R340): `dies` is the die's bit. -/
def exchLegal (f : Fam) (d e die : Nat) (groups : List Nat) : Bool :=
  let n := exSize e (xLevel d)
  groups.contains (xGroup d) && rtValid e && decide (xLevel d ≤ rtTop e) && bit (rtDies e) die &&
  (!rtBulk e || decide (f = .moveA2a)) &&
  (match f with
   | .mmaRs => decide (mOutm d = 1) && decide ((dBatch d + 1) * (dOp1 d).rows % n = 0) && decide (xAddr d = 0) &&
       decide (exVector f d % (32 * n) = 0)
   | .mmaAg => decide (exVector f d % (32 * n) = 0)
   | .moveA2a | .moveAr => decide (xAddr d = 0) && !vDstCs d && decide (exVector f d % (32 * n) = 0)
   | _ => true)

/-- Where an operation's result goes in the stacks, and where its source lies there (R340). -/
def exchDst (f : Fam) (d e : Nat) : List (Nat × Nat) :=
  match f with
  | .mmaAg => [(xAddr d, exSize e (xLevel d) * agPart d)]
  | .moveA2a => [(vDst d, exVector f d)]
  | .moveAr => (List.range (dBatch d + 1)).flatMap (fun i => (List.range (vNRows d)).map (fun r =>
      (vDst d + i * vDStride d + r * vDPitch d, vRBytes d)))
  | _ => []
def exchSrc (f : Fam) (d : Nat) : List (Nat × Nat) :=
  if (f = .moveA2a ∨ f = .moveAr) ∧ vSrcCs d = false then
    (List.range (dBatch d + 1)).flatMap (fun i => (List.range (vNRows d)).map (fun r => (vSrc d + i * vSStride d + r * vSPitch d, vRBytes d)))
  else []
/-- A gather region or destination lies in the stacks, clear of every weight range and of the instruction's own source (R340). -/
def State.exchRoom (s : State) (f : Fam) (d : Nat) : Bool :=
  (exchDst f d (s.routeEntry (xGroup d))).all (fun p =>
    s.exchRegion p.1 p.2 && (exchSrc f d).all (fun q => !meets p.1 p.2 q.1 q.2))

/-- Whether an operation is that of the instruction of a job with an ordinal on a core: ordinals begin afresh with each job. -/
def ExOp.isOf (o : ExOp) (job : JobId) (c : Nat) (ord : Word) : Bool := decide (o.core.val = c) && decide (o.ord = ord) && decide (o.job = job)
/-- Whether an operation is another instruction's with the same XSEQ on the die (R337). -/
def State.xseqTaken (s : State) (die : Nat) (tag : Word) (xseq : Half) (job : JobId) (c : Nat) (ord : Word) : Bool :=
  s.net.ops.any (fun o => decide (o.die = die) && decide (o.tag = tag) && decide (o.xseq = xseq) &&
    !o.isOf job c ord)

/-! ## Relays (R218, Table 8-6) -/

structure RelayRec where
  arrive : Half
  base : Half
  shard : Nat
  units : Nat
  spare : Nat
def relayRecOf (v : Nat) : RelayRec :=
  { arrive := BitVec.ofNat 16 (bits v 103 88), base := BitVec.ofNat 16 (bits v 87 72), shard := bits v 71 32, units := bits v 31 0,
    spare := bits v 511 104 }
/-- The step of an XSEQ. -/
def relayStep (base xseq : Half) : Nat := (xseq - base).toNat
/-- Members and rank of a relay: those of the level it runs at. -/
def relayMembers (e level : Nat) : Nat := rtSize e level
/-- Slot bases of a relay's buffer (Table 8-6). -/
def relaySlot (xaddr units i : Nat) : Nat := xaddr + 2048 + (i % 2) * units * 2048

/-- Whether every step of a relay is begun, forwarded and landed here. -/
def Relay.complete (r : Relay) : Bool :=
  (List.range r.n).all (fun k => r.begun.contains k && (decide (k + 1 = r.n) || r.forwarded.contains k) &&
    (decide (k + 1 = r.n) || decide (mget 0 r.landed k = r.units * 2048)))
/-- Whether an XSEQ is a step of a relay under way on a group. -/
def State.relayXseq (s : State) (tag : Word) (xseq : Half) : Bool :=
  s.net.relays.any (fun r => decide (r.tag = tag) && decide (relayStep r.base xseq < r.n) && !r.complete)

/-- Whether an unretired ATTN.RELAY on a die carries an XSEQ of a group. -/
def State.relayIssued (s : State) (die : Nat) (tag : Word) (xseq : Half) : Bool :=
  (List.range 192).any (fun c => decide (dieOfCore c = die) && (s.core c).queue.any (fun e =>
    decide (e.fam = some .attnRelay) && (e.isRunning || e.isDone) && decide (BitVec.ofNat 16 (xSeq e.d) = xseq) &&
    decide (rtTag (s.routeEntry (xGroup e.d)) = tag)))
/-- Whether an instruction's XSEQ is in use on its die (R337): by another unretired instruction, unless both are ATTN.RELAY, or as a
step of a relay. -/
def State.xseqClash (s : State) (die : Nat) (tag : Word) (xseq : Half) (job : JobId) (c : Nat) (ord : Word) (f : Fam) : Bool :=
  s.xseqTaken die tag xseq job c ord || (decide (f ≠ .attnRelay) && (s.relayXseq tag xseq || s.relayIssued die tag xseq))

/-- Open an instruction's operation on its die, where it is not open already (R337, R348). -/
def State.openOp (s : State) (c : Nat) (job : Job) (e : QEntry) (f : Fam) : State :=
  let d := e.d
  let cc : CoreId := Fin.ofNat 192 c
  if !f.isExch || decide (f = .attnRelay) || s.net.ops.any (fun o => o.isOf job.id cc.val e.ord) then s
  else
    let r := s.routeEntry (xGroup d)
    s.withNet (fun n => { n with ops := n.ops ++ [{
      die := dieOfCore c, tag := rtTag r, xseq := BitVec.ofNat 16 (xSeq d), group := xGroup d, opc := BitVec.ofNat 8 (dOpc d),
      level := xLevel d, core := cc, ord := e.ord, job := job.id
      total := if f = .mmaAg then exSize r (xLevel d) * agPart d else exVector f d
      int32 := (decide (f = .moveAr) && decide (vRType d = 1)) || (decide (f = .mmaRs) && decide ((dOp1 d).fmt = fmtInt8)) }] })

/-- Whether step k of a relay is open here: it is begun and not forwarded, or has landed in part. -/
def Relay.stepOpen (r : Relay) (k : Nat) : Bool :=
  (r.begun.contains k && decide (k + 1 < r.n) && !r.forwarded.contains k) ||
  decide (0 < mget 0 r.landed k ∧ mget 0 r.landed k < r.units * 2048)
/-- The ports that a relay uses: to its successor and from its predecessor. -/
def Relay.ports (r : Relay) (e : Nat) : List Nat :=
  if r.level = 1 then [rtL1Port e ((r.rank + 1) % r.n), rtL1Port e ((r.rank + r.n - 1) % r.n)] else rtLevelPorts e r.level
/-- A step that begins finds the port to its successor down where that port drains (R322). -/
def State.relayPort (s : State) (g e level rank n k : Nat) : State :=
  if k + 1 < n ∧ (s.port (rtPortTo e level rank ((rank + 1) % n))).state = .draining then s.abortGroup g stPeerLost else s
/-! ## Posts that the hub makes -/

/-- Apply a sync post (R86, R88): past 2^32 − 1 it is RESOURCE_OVERFLOW, code 0x04. One to a submit counter posts requests (R385), one to
a release counter releases frames (R186). -/
def State.applySync (s : State) (job : Job) (core : Byte) (cluster : Byte) (p : PendPost) : State :=
  match job.syncTarget p.id with
  | none => s
  | some (k, i) => (s.postSync k i p.val (fun t => t.jobFault (some job.id) { status := stOverflow, limit := 4, cluster := cluster, core := core })).counterChanged
      job k i

/-- A post that the hub makes for a job; it keeps the post while the job is swapped out (R223, R386). -/
def State.hubPost (s : State) (j : Job) (id : Half) (n : Word) : State :=
  if j.phase = .saved then s.modJob j.id (fun x => { x with heldPosts := x.heldPosts ++ [(id, n)] })
  else s.applySync j 0xFF 0xFF ⟨1, id, n⟩

/-! ## Relay shards that land (R218, R219, R337) -/

/-- Whether a relay message shows that the sender's shard differs from this member's (R218, R337): it is of no step or another
opcode; it passes the own shard's end; it ends before it and is no whole block of its step, or no block of a size that R224 allows; it is
longer than a block; or a step comes while the one before it, which the predecessor forwards first, is not whole (log 154). -/
def Relay.mismatch (r : Relay) (k : Nat) (p : ExPart) : Bool :=
  let shard := r.units * 2048
  let off := p.key.off * 32
  let n := p.bytes.length
  let block := mget n r.blocks k
  decide (p.size ≠ r.n ∨ p.opc ≠ 0x0A ∨ p.key.level ≠ r.level ∨ shard < off + n ∨ block < n) ||
  decide (off + n < shard ∧ (n ≠ block ∨ 2 ^ n.log2 ≠ n ∨ n < 1048576 ∨ 16777216 < n ∨ off % n ≠ 0)) ||
  decide (1 ≤ k ∧ mget 0 r.landed (k - 1) < shard)
/-- What a relay keeps of a message that landed: the prefix of the step's data that is now contiguous, and the step's block. -/
def Relay.landing (r : Relay) (k : Nat) (p : ExPart) : Relay :=
  let off := p.key.off * 32
  let n := p.bytes.length
  { r with
    landed := if off = mget 0 r.landed k then mset r.landed k (off + n) else r.landed
    blocks := if off + n < r.units * 2048 then mset r.blocks k (mget n r.blocks k) else r.blocks }
/-- A relay shard lands (R219): in its step's slot, and ARRIVE_ID rises by the units that now form a contiguous prefix; the hub keeps
the post while the job is swapped out (R223). A message of a relay that no ATTN.RELAY has begun here is staged (R346). -/
def State.relayLand (s : State) (g : Nat) (p : ExPart) : State :=
  match s.net.relays.find? (fun r => decide (r.group = g) && decide (relayStep r.base p.key.xseq < r.n)) with
  | none => s.withNet (fun n => { n with early := n.early ++ [p] })
  | some r =>
    let k := relayStep r.base p.key.xseq
    if r.mismatch k p then s.abortGroup g stIllegal
    else match s.memWrite (relaySlot r.xaddr r.units k + p.key.off * 32) p.bytes with
      | .error (x, t) => t.accFault x (some r.job) 0xFF 0xFF 0
      | .ok s =>
        let r' := r.landing k p
        let s := s.withNet (fun n => { n with
          relays := n.relays.map (fun x => if x.group = r.group ∧ x.xaddr = r.xaddr then r' else x) })
        let units := mget 0 r'.landed k / 2048 - mget 0 r.landed k / 2048
        match s.job? r.job with
        | none => s
        | some j => if units = 0 then s else s.hubPost j r.arriveId (BitVec.ofNat 32 units)
/-- A relay finds what is staged of its steps as it begins: a message of another KIND is ILLEGAL_INSTR (R337), the shards land. -/
def State.relayStaged (s : State) (r : Relay) : State :=
  let mine := fun (p : ExPart) => decide (p.key.tag = r.tag) && decide (relayStep r.base p.key.xseq < r.n)
  let ps := s.net.early.filter mine
  let s := s.withNet (fun n => { n with early := n.early.filter (fun p => !mine p) })
  if ps.any (fun p => decide (p.kind ≠ 4)) then s.abortGroup r.group stIllegal else ps.foldl (fun t p => t.relayLand r.group p) s

/-- Whether an operation of another family is open with the XSEQ of one of a relay's steps (R337). -/
def State.relayMeetsOp (s : State) (r : Relay) : Bool :=
  s.net.ops.any (fun o => decide (o.tag = r.tag) && decide (relayStep r.base o.xseq < r.n))
/-- An operation or a relay's step of a group is complete at this module (R346, R486). Its keys stay known until 32,768 more of its group are;
those of operations that are not are kept (DESIGN CHOICE, log 26). -/
def Net.retireOp (n : Net) (tag : Word) (xseq : Half) : Net :=
  let done := n.retired ++ [(tag, xseq)]
  let n := { n with operations := n.operations + 1, retired := done }
  if (done.filter (fun p => p.1 == tag)).length ≤ 32768 then n
  else match done.find? (fun p => p.1 == tag) with
    | none => n
    | some old => { n with retired := done.erase old, keys := n.keys.filter (fun k => !(decide (k.tag = tag) && decide (k.xseq = old.2))) }
/-- Begin a relay step, at the first retirement of an ATTN.RELAY that carries its XSEQ (R218, R219); a later one, also of a complete relay, begins
nothing. A new relay takes the place of one of another base at the same record, or of a complete one whose XSEQs are known no longer (log 26); where another family's operation uses the XSEQ of one of its
steps, that is ILLEGAL_INSTR (R337). The last step, which nothing is forwarded of, counts as completed as it begins (log 194). -/
def State.relayBegin (s : State) (job : Job) (d : Nat) (rec : Nat) : State :=
  let e := s.routeEntry (xGroup d)
  let r := relayRecOf rec
  let k := relayStep r.base (BitVec.ofNat 16 (xSeq d))
  let mine := fun (x : Relay) => decide (x.group = xGroup d) && decide (x.xaddr = xAddr d)
  let fresh : Relay := { group := xGroup d, tag := rtTag e, level := xLevel d, job := job.id, xaddr := xAddr d, arriveId := r.arrive
                         base := r.base, shard := r.shard, units := r.units, n := relayMembers e (xLevel d)
                         rank := rtRank e (xLevel d) 0, begun := [k] }
  let old := s.net.relays.find? (fun x => mine x && decide (x.base = r.base) && !(x.complete && !s.net.retired.contains (x.tag, BitVec.ofNat 16 (xSeq d))))
  if old.any (fun x => x.begun.contains k) then s
  else
    let s := s.relayPort (xGroup d) e fresh.level fresh.rank fresh.n k
    let s := if k + 1 = fresh.n then s.withNet (fun n => n.retireOp fresh.tag (BitVec.ofNat 16 (xSeq d))) else s
    if s.relayMeetsOp fresh then s.jobFault (some job.id) { status := stIllegal }
    else if old.isSome then
      s.withNet (fun n => { n with relays := n.relays.map (fun x => if mine x then { x with begun := x.begun ++ [k] } else x) })
    else (s.withNet (fun n => { n with relays := n.relays.filter (fun x => !mine x) ++ [fresh] })).relayStaged fresh

/-- Retire an operation: with the last of this module's instructions of it, it counts as completed (log 194) and its parts go. -/
def State.opRetire (s : State) (o : ExOp) : State :=
  s.withNet (fun n =>
    let ops := n.ops.filter (fun x => !x.isOf o.job o.core.val o.ord)
    if ops.any (fun x => decide (x.tag = o.tag) && decide (x.xseq = o.xseq)) then { n with ops := ops }
    else ({ n with
      ops := ops, early := n.early.filter (fun p => !(decide (p.key.tag = o.tag) && decide (p.key.xseq = o.xseq))) } : Net).retireOp o.tag o.xseq)

/-- What retirement does for an exchange instruction: its operation is over, or its relay step begins. A relay record that cannot be read
is the job's fault (Table 6-4). -/
def State.exchRetire (s : State) (c : Nat) (job : Job) (e : QEntry) : State :=
  match e.fam with
  | some f =>
    if !f.isExch then s
    else if f = .attnRelay then match s.memRead (xAddr e.d) 64 with
      | .error x => s.coreAccFault c e.ord x
      | .ok bs => (s.readDone (xAddr e.d) 64).relayBegin job e.d (leNat bs)
    else match s.net.ops.find? (fun o => o.isOf job.id c e.ord) with
      | some o => s.opRetire o
      | none => s
  | none => s

end Sys2Proof.Machine
end

