-- ==== Sys2Proof/Machine/Frames.lean ====
section
/-! DEFINITION. The porter's frames (18): statuses, signals, taking a frame and sending its response, the record whose turn it is, what
fits an entry, and the end of a command that answers ACCEPTED. -/

namespace Sys2Proof.Machine

/-! ## Statuses (Table 18-5) -/

def dsOk : Nat := 0x00
def dsAccepted : Nat := 0x01
def dsNoEntry : Nat := 0x02
def dsNoAccess : Nat := 0x03
def dsSession : Nat := 0x04
def dsType : Nat := 0x05
def dsOutOfRange : Nat := 0x06
def dsNotReady : Nat := 0x07
def dsTooMany : Nat := 0x08
def dsMalformed : Nat := 0x09
def dsLedgerBusy : Nat := 0x0A
def dsLedgerFault : Nat := 0x0B
def dsResetAborted : Nat := 0x0C
def dsEpoch : Nat := 0x10
def dsBlockBusy : Nat := 0x11
def dsJobsBusy : Nat := 0x12
def dsClusterBusy : Nat := 0x13
def dsSlotState : Nat := 0x20
def dsNoSpace : Nat := 0x21
def dsRange : Nat := 0x22
def dsWaybill : Nat := 0x23
def dsLayout : Nat := 0x24
def dsSlotBusy : Nat := 0x25
def dsWindow : Nat := 0x26
def dsAdapterBusy : Nat := 0x27
def dsRoomsBusy : Nat := 0x28
def dsRound : Nat := 0x29
def dsRefFull : Nat := 0x2A
def dsReuseInvalid : Nat := 0x2B
def dsReuseBusy : Nat := 0x2C
def dsSourceUe : Nat := 0x2D
def dsLinkDown : Nat := 0x30
def dsPortDown : Nat := 0x31
def dsBypassRefused : Nat := 0x32
def dsBypassBusy : Nat := 0x33
def dsRouteInvalid : Nat := 0x34
def dsRouteBusy : Nat := 0x35

/-! ## Signals -/

/-- Signal an MSI-X vector: a masked vector's pending bit is set instead (log 22). -/
def State.signal (s : State) (v : Nat) : State :=
  if bit (s.hub.msixTable.readLE (16 * v + 12) 4) 0 then
    s.withHub (fun h => { h with msixPending := h.msixPending ||| (1#64 <<< v) })
  else s.emit (.msix v)
def State.signalMailbox (s : State) : State := s.signal (s.dv 0x1F10 1)

/-! ## Frames (Tables 18-1, 18-2) -/

def padTo4 (bs : List Byte) : List Byte := bs ++ List.replicate ((4 - bs.length % 4) % 4) 0
def pathCode : Path → Nat
  | .field => 1
  | .mailbox => 2

/-- The 32 bytes of a frame header. -/
def frameHeader (kind txn records session counter payload : Nat) (more auth : Bool) : List Byte :=
  leBytes 32 (payload * 2 ^ 160 + counter * 2 ^ 96 + session * 2 ^ 64 + records * 2 ^ 56 + (if more then 2 ^ 49 else 0) +
    (if auth then 2 ^ 48 else 0) + txn * 2 ^ 32 + kind * 2 ^ 24 + 2 ^ 16 + 0x7A11)
/-- A record of a response: its head and its padded value. -/
def respBytes (r : Resp) : List Byte :=
  leBytes 16 (r.index + r.sub * 2 ^ 16 + r.rop * 2 ^ 24 + r.value.length * 2 ^ 32 + r.status * 2 ^ 48 + r.detail * 2 ^ 56 +
    r.offset * 2 ^ 64 + r.total * 2 ^ 96) ++ padTo4 r.value

/-- A command result record (Table 18-4). -/
def CmdResult.bytes (r : CmdResult) : List Byte :=
  leBytes 24 (r.ticket.toNat + r.index * 2 ^ 56 + r.sub * 2 ^ 72 + r.status * 2 ^ 80 + r.detail * 2 ^ 88 + r.result * 2 ^ 128)
/-- Bytes padded with zero, or cut, to a length. -/
def fixLen (n : Nat) (bs : List Byte) : List Byte := (bs ++ List.replicate (n - bs.length) 0).take n

/-! ## What manufacture wrote (R437, R439) -/

/-- MGMT_MAC, six bytes, the first that of a locally administered unicast address (R420). -/
def State.mgmtMac (s : State) : List Byte :=
  let v := s.factoryValue 0x0108 2
  leBytes 6 (v - bits v 1 0 + 2)
/-- The link-local address: fe80::/64 and the modified EUI-64 identifier of MGMT_MAC (R420). -/
def State.linkLocal (s : State) : BitVec 128 :=
  match s.mgmtMac.map BitVec.toNat with
  | [a, b, c, d, e, f] =>
    BitVec.ofNat 128 (0xFE80 * 2 ^ 112 + (a - 2) * 2 ^ 56 + b * 2 ^ 48 + c * 2 ^ 40 + 0xFFFE * 2 ^ 24 + d * 2 ^ 16 + e * 2 ^ 8 + f)
  | _ => 0
/-- The all-nodes address ff02::1, and the porter's UDP port. -/
def allNodes : BitVec 128 := BitVec.ofNat 128 (0xFF02 * 2 ^ 112 + 1)
def porterPort : Half := 5411
/-- Send a frame over the field network, from the porter's address and port. -/
def State.sendField (s : State) (peer : Peer) (bytes : List Byte) : State :=
  s.emit (.datagram ⟨⟨s.linkLocal, porterPort⟩, peer, bytes⟩)
/-- The customisation strings of R470 and R472. -/
def strBytes (s : String) : List Byte := s.toList.map (fun c => BitVec.ofNat 8 c.toNat)
/-- The tag of a session frame, 256 bits (R472): of a request, a response or a notify by its first byte. -/
def frameTag (key : List Byte) (dir : Byte) (body : List Byte) : List Byte :=
  fixLen 32 (Config.kmac256 key (dir :: body) (strBytes "PORTER-FRAME"))
/-- A frame of the porter with its tag, where it is of a session (R421, R472). -/
def signedFrame (key : List Byte) (dir : Byte) (kind txn records : Nat) (session : Word) (counter : Nat) (body : List Byte) : List Byte :=
  let auth := decide (session ≠ 0)
  let head := frameHeader kind txn records session.toNat counter body.length false auth ++ body
  head ++ if auth then frameTag key dir head else []

def State.session? (s : State) (n : Word) : Option Session := s.por.sessions.find? (fun x => x.num == n)
def State.modSession (s : State) (n : Word) (f : Session → Session) : State :=
  s.withPor (fun p => { p with sessions := p.sessions.map (fun x => if x.num = n then f x else x) })
/-- Close the sessions a predicate picks (R473). -/
def State.closeSessions (s : State) (f : Session → Bool) : State :=
  s.withPor (fun p => { p with sessions := p.sessions.filter (fun x => !f x) })

/-- A COUNTER of 2^64 − 1 closes its session (R473). -/
def State.closeSpent (s : State) (n : Word) : State :=
  s.closeSessions (fun x => decide (x.num = n) && (decide (2 ^ 64 ≤ x.inCtr + 1) || decide (2 ^ 64 ≤ x.outCtr + 1)))

/-- Put a whole frame into the response area; the request is answered (R430). -/
def State.mailboxDone (s : State) (bytes : List Byte) : State :=
  (s.withPor (fun p => { p with respArea := bytes, mbBusy := false, mbDone := true })).signalMailbox

/-- The response frame to a request (R421, R472): in a session it carries the porter's counter and a tag. -/
def State.respFrame (s : State) (session : Word) (txn : Half) (recs : List Resp) : List Byte :=
  let (ctr, key) := match s.session? session with
    | some x => (x.outCtr + 1, x.key)
    | none => (0, [])
  signedFrame key 2 2 txn.toNat recs.length session ctr (recs.flatMap respBytes)
/-- Send the response to a request (R420, R425): to where the request came from; in a session it is kept with its TXN. Sessions of a
revoked key close after it (R467). -/
def State.respond (s : State) (f : InFrame) (recs : List Resp) (keep : Bool) : State :=
  let bytes := s.respFrame f.session f.txn recs
  let s := s.modSession f.session (fun x => { x with
    outCtr := x.outCtr + 1, kept := if keep then ((f.txn, recs) :: x.kept).take 16 else x.kept })
  let s := match f.path with
    | .field => s.sendField f.peer bytes
    | .mailbox => s.mailboxDone bytes
  let s := s.closeSpent f.session
  let gone := s.por.closeAfter
  if gone = [] then s
  else (s.withPor (fun p => { p with closeAfter := [] })).closeSessions (fun x => gone.contains x.opKey)

/-! ## Frames arrive (R420, R421, R425, R429) -/

/-- The records of a request: exactly so many, filling the payload; a read's head has no value bytes after it. -/
def parseRecs : Nat → List Byte → Option (List Req)
  | 0, bs => if bs.isEmpty then some [] else none
  | n + 1, bs =>
    let v := leNat (bs.take 16)
    let rop := bits v 31 24
    let len := if rop = 1 then 0 else bits v 47 32
    let full := 16 + cdiv len 4 * 4
    if bs.length < full then none
    else (parseRecs n (bs.drop full)).map (fun rs =>
      { index := bits v 15 0, sub := bits v 23 16, rop := rop, length := bits v 47 32, offset := bits v 95 64, total := bits v 127 96
        value := (bs.drop 16).take len } :: rs)
/-- A frame dropped without an answer, and counted. -/
def State.dropFrame (s : State) (path : Path) : State :=
  let s := s.withPor (fun p => { p with framesDropped := p.framesDropped + 1 })
  match path with
  | .field => s
  | .mailbox => (s.withPor (fun p => { p with mbBusy := false })).signalMailbox
/-- Payload limit of a path (Table 18-1). -/
def payloadMax : Path → Nat
  | .field => 1388
  | .mailbox => 8064
/-- Whether the mailbox answers a frame of a kind nothing now: below tier 2 (R430), but before READY requests are answered, each record
NOT_READY (R448, log 182). -/
def State.mailboxMute (s : State) (path : Path) (kind : Nat) : Bool :=
  decide (path = .mailbox) && decide (s.tier < 2) && (s.boot.ready || decide (kind ≠ 1))
/-- Whether a first frame of a HELLO is a requester's. -/
def PartHello.from (y : PartHello) (path : Path) (peer : Peer) : Bool := decide (y.path = path ∧ y.peer = peer)
/-- Take one whole frame: drop it, answer it from the kept responses, or begin to serve it. A multicast frame is for sessionless
reads of identity entries alone. A frame that the mailbox does not answer is dropped (R430, log 182). The second frame of a HELLO joins
the first of its requester (R471, log 45). -/
def State.takeFrame (s : State) (x : Inbound) : State :=
  let path := x.path
  let multicast := x.multicast
  let bytes := x.bytes
  let h := leNat (bytes.take 32)
  let kind := bits h 31 24
  let auth := bit h 48
  let ses : Word := BitVec.ofNat 32 (bits h 95 64)
  let txn : Half := BitVec.ofNat 16 (bits h 47 32)
  let n := bits h 175 160
  let payload := (bytes.drop 32).take n
  let frame : InFrame := { path := path, kind := BitVec.ofNat 8 kind, session := ses, txn := txn, more := bit h 49, multicast := multicast, recs := [], payload := payload, peer := x.peer }
  if bytes.length < 32 ∨ bits h 15 0 ≠ 0x7A11 ∨ bits h 23 16 ≠ 1 ∨ ¬ (kind = 1 ∨ kind = 0x10 ∨ kind = 0x13 ∨ kind = 0x16) ∨
     bits h 55 50 ≠ 0 ∨ bits h 255 176 ≠ 0 ∨ n % 4 ≠ 0 ∨ payloadMax path < n ∨ bytes.length ≠ 32 + n + (if auth then 32 else 0) ∨
     s.mailboxMute path kind = true then s.dropFrame path
  else if kind = 0x10 ∨ kind = 0x13 then
    if auth ∨ bits h 63 56 ≠ 0 then s.dropFrame path
    else if multicast then s
    else if kind = 0x10 ∧ bit h 49 then
      let s := s.withPor (fun p => { p with partHellos := p.partHellos.filter (fun y => !y.from path x.peer) ++ [⟨path, x.peer, txn, payload⟩] })
      match path with
      | .field => s
      | .mailbox => (s.withPor (fun p => { p with mbBusy := false })).signalMailbox
    else
      let mine := fun (y : PartHello) => decide (kind = 0x10) && y.from path x.peer
      let first := ((s.por.partHellos.find? mine).map PartHello.payload).getD []
      s.withPor (fun p => { p with
        partHellos := p.partHellos.filter (fun y => !mine y), current := some { frame with payload := first ++ payload } })
  else if decide (ses = 0) = auth then s.dropFrame path
  else match (if kind = 1 then (if bits h 63 56 = 0 ∨ 64 < bits h 63 56 then none else parseRecs (bits h 63 56) payload)
              else if bits h 63 56 = 0 ∧ n = 0 ∧ auth then some [] else none) with
    | none => s.dropFrame path
    | some recs =>
      if ses = 0 then
        if multicast && !recs.all (fun r => decide (r.rop = 1 ∧ r.index = 0x0100)) then s
        else s.withPor (fun p => { p with current := some { frame with recs := recs } })
      else match s.por.sessions.find? (fun x => decide (x.num = ses ∧ x.path = path)) with
        | none => s.dropFrame path
        | some y =>
          let ctr := bits h 159 96
          if multicast then s
          else if ctr ≤ y.inCtr ∨ frameTag y.key 1 (bytes.take (32 + n)) ≠ bytes.drop (32 + n) then s.dropFrame path
          else
            let s := s.modSession ses (fun y => { y with inCtr := ctr, peer := x.peer })
            match (if kind = 1 then y.kept.find? (fun k => k.1 == txn) else none) with
            | some k => s.respond frame k.2 false
            | none => s.withPor (fun p => { p with current := some { frame with recs := recs } })
/-- Begin the oldest frame that waits, until one is being served (R429). -/
def State.takeFrames : Nat → State → State
  | 0, s => s
  | n + 1, s =>
    if s.por.current.isSome then s
    else match s.por.inbox with
      | [] => s
      | x :: rest => State.takeFrames n ((s.withPor (fun p => { p with inbox := rest })).takeFrame x)
/-- The frame being served is done; the next one's turn comes. -/
def State.nextFrame (s : State) : State := State.takeFrames s.por.inbox.length s
/-- A frame has arrived on a path. -/
def State.frameArrives (s : State) (x : Inbound) : State :=
  (s.withPor (fun p => { p with inbox := p.inbox ++ [x] })).nextFrame

/-! ## The request being served -/

/-- The record whose turn it is (R422, R429); none while the porter does not run. -/
def State.frontRec (s : State) : Option (InFrame × Req) :=
  if !s.boot.porterRuns then none
  else match s.por.current with
    | some f => if f.kind ≠ 1 then none else match f.recs with
      | r :: _ => some (f, r)
      | [] => none
    | none => none

/-- The staged bytes of one entry of a session, gone. -/
def State.dropStaged (s : State) (n : Word) (i u : Nat) : State :=
  s.modSession n (fun x => { x with staged := x.staged.filter (fun w => !(w.index == i && w.sub == u)) })
/-- After a request without MORE no segment of the writes it carried follows: what is staged of them still is discarded (R422,
log 181). -/
def State.endSegments (s : State) (f : InFrame) (rs : List Resp) : State :=
  if f.more then s else (rs.filter (fun r => r.rop == 2)).foldl (fun t r => t.dropStaged f.session r.index r.sub) s

/-! ## What fits an entry (R427) -/

/-- What the tables state of a value beside its range: steps, gaps, multiples, powers of two, places in the stacks (Tables 6-7, 8-8,
9-9, 12-5, 15-14, 18-8). -/
def stepOk (i u v : Nat) : Bool :=
  match i, u with
  | 0x0801, 2 => decide (v = 0 ∨ 1024 ≤ v)
  | 0x0A00, 1 => decide (v % 2048 = 0 ∧ v + 262144 ≤ stackTop)
  | 0x0C00, 1 => decide (v % 2048 = 0 ∧ v + 16777216 ≤ stackTop)
  | 0x0D00, 1 => decide (v % 2048 = 0 ∧ v < stackTop)
  | 0x0D00, 2 => decide (v % 2048 = 0)
  | 0x0E10, 3 => decide (v % 64 = 0)
  | 0x1140, 1 => decide (v = 2 ^ v.log2)
  | 0x1140, 2 => decide (v = 2 ^ v.log2)
  | 0x1F08, 2 => decide (v % 2048 = 0)
  | _, _ => true
/-- A value as a number, and whether it fits the entry's type and range (R427). -/
def DEntry.fits (e : DEntry) (u : Nat) (bs : List Byte) : Bool :=
  let v := leNat bs
  stepOk e.idx u v &&
  (match e.ty with
   | 1 => decide (v ≤ 1)
   | 10 => true
   | 11 => true
   | _ => decide (e.acc = .wo) || decide (e.lo ≤ v ∧ v ≤ e.hi) || decide (e.idx = 0x0401 ∧ v = 0))
/-- Entries whose own rule names the status of a value beyond their range: WIN_FRAMES is WINDOW_INVALID (R183), REUSE_ENTRIES is
REUSE_INVALID (R293). -/
def ownRange (i u : Nat) : Bool :=
  (decide (0x0910 ≤ i ∧ i < 0x0920) && decide (u = 9)) || decide (i = 0x0E00 ∧ u = 3)
/-- Entries whose listed BLOBs have a fixed size. -/
def blobSize (i s : Nat) : Option Nat :=
  if i = 0x1110 ∨ i = 0x1111 then some 64
  else match i, s with
    | 0x0930, 1 => some 32
    | 0x0930, 2 => some 32
    | 0x0930, 3 => some 2
    | 0x0930, 4 => some 2
    | 0x0A00, 2 => some 66
    | 0x1030, 1 => some 32
    | 0x1800, 1 => some 8
    | 0x1800, 6 => some 32
    | 0x0204, 2 => some 16
    | 0x1C18, 1 => some 1801
    | 0x1C20, 1 => some 33
    | 0x1C28, 2 => some 1288
    | _, _ => none

/-! ## Running commands (R424) -/

def State.cmd? (s : State) (t : Word) : Option RunCmd := s.por.cmds.find? (fun c => c.ticket == t)
def State.modCmd (s : State) (t : Word) (f : RunCmd → RunCmd) : State :=
  s.withPor (fun p => { p with cmds := p.cmds.map (fun c => if c.ticket = t then f c else c) })

/-- End a running command: its result heads CMD_RESULTS, and the requester is told on its path: a field session by a notify frame of one
result record, with the porter's counter and a tag (R424, R472). -/
def State.endCmd (s : State) (t : Word) (status detail result : Nat) : State :=
  match s.cmd? t with
  | none => s
  | some c =>
    let r : CmdResult := ⟨t, c.index, c.sub, status, detail, result⟩
    let s := s.withPor (fun p => { p with
      cmds := p.cmds.filter (fun x => decide (x.ticket ≠ t)), results := (r :: p.results).take 16 })
    match c.path with
    | .mailbox => (s.withPor (fun p => { p with mbResult := true })).signalMailbox
    | .field => match s.session? c.session with
      | none => s
      | some x => ((s.modSession c.session (fun y => { y with outCtr := y.outCtr + 1 })).sendField x.peer
          (signedFrame x.key 3 3 0 1 c.session (x.outCtr + 1) r.bytes)).closeSpent c.session

/-- End every running command of an entry that a test picks. -/
def State.endCmds (s : State) (pick : RunCmd → Bool) (status : Nat) : State :=
  (s.por.cmds.filter pick).foldl (fun t c => t.endCmd c.ticket status 0 c.progress) s

/-- Random bytes of the porter's source, eight to a draw (20, log 2). -/
def State.freshBytes (s : State) : Nat → List Byte × State
  | 0 => ([], s)
  | n + 1 =>
    let (q, s) := s.draw
    let (bs, s) := s.freshBytes n
    (leBytes 8 q.toNat ++ bs, s)

/-- DEBUG_CHALLENGE is replaced (R474). -/
def State.newChallenge (s : State) : State :=
  let (bs, s) := s.freshBytes 4
  s.withPor (fun p => { p with challenge := bs })

/-- A field of a command's parameters: `n` bytes at an offset. -/
def par (bs : List Byte) (at_ n : Nat) : Nat := leNat ((bs.drop at_).take n)

end Sys2Proof.Machine
end

