-- ==== Sys2Proof/Machine/LedgerBanks.lean ====
section
/-! DEFINITION. The Ledger's banks and what a write that lands leaves (R433–R436), and the resolution of values (R437). -/

namespace Sys2Proof.Machine

/-! ## Banks (R433) -/

/-- The current bank: the valid one of higher GENERATION. -/
def State.ledgerBank (s : State) : Option Nat :=
  match s.por.bank0.filter LedgerImage.checks, s.por.bank1.filter LedgerImage.checks with
  | some a, some b => if a.gen < b.gen then some 1 else some 0
  | some _, none => some 0
  | none, some _ => some 1
  | none, none => none
def State.ledger (s : State) : Option LedgerImage :=
  match s.ledgerBank with
  | some 0 => s.por.bank0
  | some _ => s.por.bank1
  | none => none
/-- The bank a write goes to; bank 0 where neither is current (log 37). -/
def State.ledgerTarget (s : State) : Nat := if s.ledgerBank = some 0 then 1 else 0
def State.setBank (s : State) (b : Nat) (v : Option LedgerImage) : State :=
  s.withPor (fun p => if b = 0 then { p with bank0 := v } else { p with bank1 := v })
/-- LEDGER_STATE. -/
def State.ledgerState (s : State) : Nat :=
  if s.por.restorePending then 3 else if s.por.ledgerQueue ≠ [] then 2 else if s.ledger.isSome then 1 else 0

/-- Bytes of a value of an entry with a fixed size. -/
def entrySize (e : DEntry) (i u : Nat) : Nat := (tyBytes e.ty).getD ((blobSize i u).getD 0)
/-- The entries of the table's rows. -/
def entriesOf (rows : List DEntry) : List (Nat × Nat × DEntry) :=
  rows.flatMap (fun e => (List.range e.n).flatMap (fun k => (List.range (e.subHi + 1 - e.sub)).map (fun u => (e.idx + k, e.sub + u, e))))
/-- The persistable entries (R428). -/
def persistables : List (Nat × Nat × DEntry) := entriesOf (dictAll.filter (fun e => e.p))
/-- The records of the values in effect, of the entries that the running image defines. -/
def State.entryRecords (s : State) : List LedgerRec :=
  (persistables.filter (fun (i, u, _) => s.defines i u)).map (fun (i, u, e) => ⟨i, u, e.ty, s.dv i u, entrySize e i u⟩)
/-- The records of an image for entries that the running image does not define (R438). -/
def State.unknownRecs (s : State) (m : LedgerImage) : List LedgerRec :=
  (m.entries ++ m.unknown).filter (fun r => !(s.defines r.index r.sub && (match dictEntry r.index r.sub with
    | some e => e.p
    | none => false)))

/-! ## A write that lands (R434, R436) -/

/-- What a write that has landed leaves beside its image: RESTORE_PENDING is set by a restore and ended by a commit (R436), and a profile
is saved (R416). -/
def State.landed (s : State) : LedgerOp → State
  | .commit _ => s.withPor (fun p => { p with restorePending := false })
  | .restore _ _ => s.withPor (fun p => { p with restorePending := true })
  | .profile => s.withPwr (fun p => { p with profileSavedAt := s.pacing })
  | .keys => s
/-- The image under way becomes current. -/
def State.ledgerLand (s : State) : State :=
  match s.por.ledgerQueue, s.por.ledgerImage with
  | op :: _, some img => ((s.setBank s.ledgerTarget (some img)).withPor (fun p => { p with ledgerWrites := p.ledgerWrites + 1 })).landed op
  | _, _ => s

/-! ## Resolution (R437) -/

/-- Whether an EPOCH_PIN names an epoch that an image does not carry (R57, R59). -/
def FwBank.pinBars (im : FwBank) (pin : Nat) : Bool :=
  decide (pin ≠ 0) && decide (pin ≠ im.epochCur.toNat) && decide (pin ≠ im.epochPrev.toNat)
/-- Whether a record fits an entry's type, size and range under an image: EPOCH_PIN names an epoch that the image carries, or none (R57,
Table 2-5). -/
def recFits (im : FwBank) (e : DEntry) (i u : Nat) (r : LedgerRec) : Bool :=
  decide (r.ty = e.ty) && decide (r.length = entrySize e i u) && e.fits u (leBytes r.length r.value) &&
  !(decide (i = 0x0210 ∧ u = 3) && im.pinBars r.value)
def recOf (img : Option LedgerImage) (i u : Nat) : Option LedgerRec :=
  img.bind (fun m => (m.entries ++ m.unknown).find? (fun r => r.index == i && r.sub == u))

/-- One entry: the value of the first record that fits, and the records skipped before it. One that is not persistable takes its
default. -/
def State.resolveOne (s : State) (i u : Nat) (e : DEntry) : Option Nat × Nat :=
  let im := mget {} s.boot.banks s.boot.fwBank
  let try_ := fun (img : Option LedgerImage) => match recOf img i u with
    | some r => if recFits im e i u r then (some r.value, 0) else (none, 1)
    | none => (none, 0)
  if !e.p then (none, 0)
  else match try_ s.ledger with
  | (some v, n) => (some v, n)
  | (none, n) => let (v, k) := try_ s.factoryImage; (v, n + k)

/-- Resolve every entry and the operator keys. A window is configured once one of its entries has resolved from a record (R503). -/
def State.resolve (s : State) : State :=
  let rs := (persistables.filter (fun (i, u, _) => s.defines i u)).map (fun (i, u, e) => (i, u, s.resolveOne i u e))
  let vals := rs.foldl (fun (m : AMap Nat) r => match r.2.2.1 with
    | some v => mset m (dKey r.1 r.2.1) v
    | none => m) []
  let skipped := (rs.map (fun r => r.2.2.2)).sum
  let keys := match s.ledger with
    | some m => m.keys
    | none => []
  let s := s.withPor (fun p => { p with vals := vals, ledgerSkipped := BitVec.ofNat 16 skipped, keys := keys, keysPending := false, keysRetry := 0 })
  (List.range 16).foldl (fun t i => t.modSlot i (fun x => { x with
    configured := rs.any (fun r => decide (r.1 = 0x0910 + i) && decide (7 ≤ r.2.1 ∧ r.2.1 ≤ 9) && r.2.2.1.isSome) })) s
/-- ROOT locks where the reference is present and an image runs (R401, step 4 of Table 19-2); the windows of R488 start with the units, at
the k that BW_WINDOW_LOG2 gives. -/
def State.lockRoot (s : State) : State :=
  (s.withPwr (fun p => { p with rootLocked := s.boot.refclk && !s.boot.recovery })).withPor (fun p => { p with bwLog2 := s.dv 0x19F0 2 })

end Sys2Proof.Machine
end

