-- ==== Sys2Proof/Machine/Reset.lean ====
section
/-! DEFINITION. Reset entry (R449, R451): what a reset cuts short, what it clears and what is kept. -/

namespace Sys2Proof.Machine

/-! ## Slot writes under way (R198) -/

/-- The parameters of a SLOT_WRITE (Table 7-11). -/
structure SlotWrite where
  slot : Nat
  source : Nat
  port : Nat
  off : Nat
  addr : Nat
  len : Nat
def slotWriteOf (c : RunCmd) : Option SlotWrite :=
  if c.index = 0x0930 ∧ c.sub = 2 then
    some ⟨par c.params 0 1, par c.params 1 1, par c.params 2 1, par c.params 8 8, par c.params 16 8, par c.params 24 8⟩
  else none
/-- Length of the prefix that arrived ranges cover, from the range's start. -/
def prefixGo : Nat → List (Nat × Nat) → Nat → Nat
  | 0, _, n => n
  | k + 1, rs, n => match rs.find? (fun r => r.1 == n) with
    | some r => prefixGo k rs (n + r.2)
    | none => n
def RunCmd.arrivedPrefix (c : RunCmd) : Nat := prefixGo c.arrived.length c.arrived 0

/-- What a SLOT_WRITE leaves in its slot: the first `n` bytes of its range are written; what lies beyond is undefined until written. -/
def State.slotWritten (s : State) (w : SlotWrite) (n : Nat) : State :=
  let (t, s) := s.stamp
  s.modSlot w.slot (fun x => { x with
    written := if n = 0 then x.written else x.written ++ [(w.off, n)]
    stream := x.stream.forget (w.off + n) (w.off + w.len) t })
/-- End a SLOT_WRITE with the prefix of its range that is written. -/
def State.endSlotWrite (s : State) (c : RunCmd) (status n : Nat) : State :=
  match slotWriteOf c with
  | none => s
  | some w => (s.slotWritten w n).endCmd c.ticket status 0 n

/-! ## BULK_SEND under way (R324) -/

structure BulkSend where
  port : Nat
  source : Nat
  slot : Nat
  target : Nat
  addr : Nat
  off : Nat
  len : Nat
def bulkSendOf (c : RunCmd) : Option BulkSend :=
  if c.index = 0x1030 ∧ c.sub = 1 then
    some ⟨par c.params 0 1, par c.params 1 1, par c.params 2 1, par c.params 3 1, par c.params 8 8, par c.params 16 8, par c.params 24 8⟩
  else none
/-- The oldest BULK_SEND on a port. -/
def State.bulkOn (s : State) (p : Nat) : Option (RunCmd × BulkSend) :=
  (s.por.cmds.filterMap (fun c => (bulkSendOf c).map (fun b => (c, b)))).find? (fun x => x.2.port == p)
/-- Bytes of a BULK_SEND that have left: those queued, less those of the message under way that have not. -/
def State.bulkSent (s : State) (c : RunCmd) (b : BulkSend) : Nat :=
  match s.bulkOn b.port with
  | some (d, _) => if d.ticket = c.ticket then
      c.progress - 256 * min (s.port b.port).bulkLeft ((c.arrived.getLast?.map Prod.snd).getD 0 / 256) else c.progress
  | none => c.progress

/-! ## Sources and flash -/

/-- The readable prefix of a source of stacked memory: up to its first poisoned granule or fenced stack, in whole 2 KiB. -/
def State.readable (s : State) (a n : Nat) : Nat :=
  let stop := fun (m : Nat) (e : Option Nat) => match e with
    | some x => min m (x - a)
    | none => m
  let fence := match s.rangeErr a n with
    | some (.ue x) => some x
    | some .bus => some a
    | none => none
  let bad := ((s.ms.poison.filter (fun g => meets a n (32 * g) 32)).map (fun g => 32 * g)).foldl min (a + n)
  stop (stop n fence) (some (max a bad)) / 2048 * 2048

/-- Bytes of a span of a slot's stream counted per flash group (R488): from base 32 reads, from base 40 programmes. -/
def State.countFlash (s : State) (base : Nat) (sl : Slot) (off n : Nat) : State :=
  (codewordsOf off n).foldl (fun t cw =>
    t.bumpBw (base + sl.channelOf cw / 16) (min (off + n) (4096 * cw + 4096) - max off (4096 * cw))) s

/-- Bytes are programmed into a slot's stream; one that is not WRITING takes none (R179). -/
def State.program (s : State) (i off : Nat) (bs : List Byte) : State :=
  if (s.slot i).state ≠ .writing then s
  else (s.modSlot i (fun x => { x with stream := x.stream.writeBytes off bs })).countFlash 40 (s.slot i) off bs.length
/-- A SLOT_WRITE from memory ends with its bytes programmed: the whole range, or the given prefix of it. -/
def State.programFrom (s : State) (w : SlotWrite) (n : Nat) : State :=
  (s.program w.slot w.off (s.ms.mem.readBytes w.addr n)).sourceDone w.addr n w.len

/-! ## What else a reset ends -/

/-- What a slot keeps of its window, forgotten. -/
def Slot.dropWindow (sl : Slot) : Slot :=
  { sl with frames := [], present := [], failedObj := [], demand := [], got := [], rewrite := [], nextOrd := 0, relOrd := 0, owner := false }

/-- The bank that does not run, which is staged. -/
def State.stageBank (s : State) : Nat := 1 - s.boot.fwBank
def State.fwImage (s : State) (b : Nat) : FwBank := mget {} s.boot.banks b
def State.modBank (s : State) (b : Nat) (f : FwBank → FwBank) : State :=
  s.withBoot (fun x => { x with banks := mmod {} x.banks b f })

/-- STAGING of FW_STAGE_STATE (Table 19-8). -/
def fwStaging : Nat := 1
/-- Whether a command is a FW_STAGE_MEM. -/
def RunCmd.stages (c : RunCmd) : Bool := decide (c.index = 0x0204) && decide (c.sub = 2)
/-- A FW_STAGE_MEM is cut: what it may have written is undefined, and the bank is STAGING until the next FW_VERIFY (R453, R462; DEDUCED, log 232). -/
def State.cutStage (s : State) (c : RunCmd) : State :=
  let (t, s) := s.stamp
  s.modBank s.stageBank (fun x => { x with bytes := x.bytes.forget 0 (par c.params 8 4) t, stage := fwStaging })

/-- Take both rings THROUGH at once (Table 13-5): reset entry, power loss. A JOINED switch moves; one that moves already goes on to
THROUGH (R326, R331). -/
def State.ringsThrough (s : State) : State :=
  [0, 1].foldl (fun t r => t.modRing r (fun x => match x.bypass with
    | .through => { x with leaving := false }
    | .joined => { x with bypass := .moving false, leaving := false, moves := x.moves + 1 }
    | .moving _ => { x with bypass := .moving false, leaving := false })) s

/-- The end of a BIST run: its record of the log, and its result (Table 21-3). -/
def State.bistResult (s : State) (r : BistRun) (verdict : Nat) (fail seen expected : Quad) : State :=
  let s := if verdict = 2 then s.logEvent 7 0 r.target (BitVec.ofNat 128 fail.toNat) else s.logNote 0 r.target (BitVec.ofNat 128 fail.toNat)
  let v := BitVec.ofNat 256 (seen.toNat * 2 ^ 192 + expected.toNat * 2 ^ 128 + fail.toNat * 2 ^ 64 + s.por.logSeq.toNat * 2 ^ 32 +
    verdict * 2 ^ 24 + r.mode * 2 ^ 16 + r.kind * 2 ^ 8)
  s.withPor (fun p => { p with
    bist := p.bist.filter (fun x => decide (x.target ≠ r.target)), bistResults := mset p.bistResults r.target v })

/-! ## A Ledger write that is cut (R434) -/

/-- Whether a write under way landed is open: the old image or the new one is current. -/
def State.ledgerCut (s : State) : State :=
  let (q, s) := s.draw
  let s := if q.getLsbD 0 then s.ledgerLand else s
  s.withPor (fun p => { p with ledgerQueue := [], ledgerImage := none, keysRetry := 0 })

/-! ## Module reset (R449, R451, Tables 7-9, 9-8, 19-5) -/

/-- What a module reset leaves of a command that it cuts short (R198, R324), and the command's result where it cuts it; seal, erase and
FW_VERIFY go on. -/
def State.cutCmd (s : State) (c : RunCmd) : State × Option Nat :=
  match slotWriteOf c, bulkSendOf c with
  | some w, _ =>
    if w.source = 1 then (s.slotWritten w c.arrivedPrefix, some c.arrivedPrefix)
    else
      let (q, s) := s.draw
      let n := min (s.readable w.addr w.len) (q.toNat % (w.len / 2048 + 1) * 2048)
      ((s.programFrom w n).slotWritten w n, some n)
  | none, some b => (s, some (s.bulkSent c b))
  | none, none =>
    if c.stages then (s.cutStage c, some 0)
    else if (c.index = 0x0204 ∧ c.sub = 5) ∨ c.index = 0x1F00 ∨ c.index = 0x1800 then (s, some 0)
    else (s, none)
/-- Every command that a reset cuts, in the order of arrival: what it leaves, and the tickets with their results. -/
def State.cutCmds (s : State) : List RunCmd → State × List (Word × Nat)
  | [] => (s, [])
  | c :: rest =>
    let (t, r) := s.cutCmd c
    let (u, ends) := t.cutCmds rest
    (u, (r.map (fun n => (c.ticket, n))).toList ++ ends)
/-- The cut commands' ends: the porter reports them after the reset, over the field or in the mailbox, whose RESULT and signal stand then
(R198, R424, R430; log 242). -/
def State.reportCut (s : State) (ends : List (Word × Nat)) : State :=
  ends.foldl (fun t e => t.endCmd e.1 dsResetAborted 0 e.2) s

/-- What the flash keeps of a slot. -/
def Slot.inFlash (sl : Slot) : Slot := { sl.dropWindow with window := 0, refs := 0, depth := 3 }
def Caravan.inFlash (c : Caravan) : Caravan :=
  { slots := c.slots.map (fun (p : Nat × Slot) => (p.1, p.2.inFlash))
    channels := c.channels.map (fun (p : Nat × FlashChannel) => (p.1, { cycles := p.2.cycles })) }
/-- What the bypass switches keep: at a reset a move goes on (R326); without power it completes to THROUGH (R331). -/
def ringsKept (power : Bool) (rs : AMap Ring) : AMap Ring :=
  rs.map (fun (p : Nat × Ring) => (p.1, { bypass := if power then p.2.bypass else .through, moves := p.2.moves }))

/-- Reset entry: every unit but the porter and the power stage is cleared. Stacked memory is zeroed as its stacks come ready. -/
def State.clearUnits (s : State) : State :=
  { s with
    pacing := 0, clusters := [], cores := [], car := s.car.inFlash
    ms := { mem := s.ms.mem, poison := s.ms.poison, stackRecs := s.ms.stackRecs.map (fun (p : Nat × Stack) => (p.1, { training := p.2.training })) }
    net := { rings := ringsKept true s.net.rings }, hub := {}, enc := {}
    pwr := { vinMv := s.pwr.vinMv, iinMa := s.pwr.iinMa, pinW := s.pwr.pinW, avgW := s.pwr.avgW
             pins := s.pwr.pins, temps := s.pwr.temps }
    por := { s.por with
      framesDropped := 0, reqArea := {}, respArea := [], mbBusy := false, mbDone := false, mbResult := false, debug := 0, bist := []
      rollingNext := 0, bwCounts := [], bwLatched := [], bwLog2 := 24, windowSeq := 0, portCtr := [], viewBase := 0, viewBytes := 0
      grant := 0, restorePending := false }
    boot := { s.boot with
      inReset := true, hub0 := false, hub1 := false, flashReady := false, ready := false, cxlUp := false, resetAfter := false
      preparing := false, removalReady := false, removalSave := false, activation := none } }

/-- Whether a ring is open at this module. -/
def State.ringOpen (s : State) : Bool := [0, 1].any (fun r => decide ((s.ring r).bypass ≠ .through))
/-- A module reset with its cause and detail: counted, a service stop where it is commanded or takes the link or a ring down
(R456); ROOT locks again at step 4. -/
def State.enterReset (s : State) (cause detail : Byte) : State :=
  let before := s.tier
  let s := if decide (cause = 1) || s.boot.cxlUp || s.ringOpen then s.serviceStop cause.toNat else s
  let s := s.por.bist.foldl (fun t r => t.bistResult r 3 0 0 0) s
  let (s, ends) := s.cutCmds s.por.cmds
  let s := (s.ledgerCut.ringsThrough).clearUnits
  let s := (s.newChallenge).resolve
  let s := s.withBoot (fun b => { b with
    resetCause := cause, resetDetail := if cause = 0xF1 then detail else b.resetDetail, resetCount := b.resetCount + 1 })
  ((s.reportCut ends).noteTier before).lockRoot

end Sys2Proof.Machine
end

