-- ==== Sys2Proof/Machine/Porter.lean ====
section
/-! DEFINITION. The porter serves a request (18): answering its records, the checks a record meets, staging a segmented write, and
starting a command that answers ACCEPTED. -/

namespace Sys2Proof.Machine

/-- Answer the record whose turn it is; with the last record the response goes out, and the reset that a MODULE_RESET of the frame
commanded starts (R459). -/
def State.answer (s : State) (status detail total : Nat) (value : List Byte) : State :=
  match s.frontRec with
  | none => s
  | some (f, r) =>
    let rs := f.resps ++ [⟨r.index, r.sub, r.rop, status, detail, r.offset, total, value⟩]
    let rest := f.recs.drop 1
    if rest.isEmpty then
      let t := ((s.withPor (fun p => { p with current := none })).endSegments f rs).respond f rs (decide (f.session ≠ 0))
      (if t.boot.resetAfter then t.enterReset 1 0 else t).nextFrame
    else s.withPor (fun p => { p with current := some { f with recs := rest, resps := rs } })

/-- The areas the porter holds, which alone it serves at tier 1 (R423), each its whole hundred (log 24). -/
def porterHolds (i : Nat) : Bool :=
  decide (i / 256 = 1) || decide (i / 256 = 4) || decide (i / 256 = 5) || decide (0x1020 ≤ i ∧ i ≤ 0x1021) ||
  decide (i / 256 = 0x1C) || decide (i / 256 = 0x1F)

/-- Groups of counters that COUNTER_GRANT, as the last configuration of the view took it, opens to audience U (R487). -/
def State.granted (s : State) (i sub : Nat) : Bool :=
  let g := s.por.grant
  (bit g 0 && decide (0x1900 ≤ i ∧ i < 0x19C0)) || (bit g 1 && decide (0x19C0 ≤ i ∧ i < 0x19CC ∧ sub ≤ 32)) ||
  (bit g 2 && decide (0x19D0 ≤ i ∧ i < 0x19D8)) || (bit g 3 && decide (0x19E0 ≤ i ∧ i ≤ 0x19E3)) ||
  (bit g 4 && decide (0x19C0 ≤ i ∧ i < 0x19CC ∧ 33 ≤ sub))

/-- The checks a record meets before its value (R422, R423, R426, R428, R454, R469): the entry, or the status. -/
def State.recEntry (s : State) (f : InFrame) (r : Req) : Except Nat DEntry :=
  if r.rop ≠ 1 ∧ r.rop ≠ 2 then .error dsMalformed
  else if !s.defines r.index r.sub then .error dsNoEntry
  else match dictEntry r.index r.sub with
    | none => .error dsNoEntry
    | some e =>
      let onPath := match f.path with
        | .mailbox => e.h
        | .field => e.f
      if s.boot.recovery && !decide (r.index = 0x0100 ∨ r.index = 0x0204) then .error dsNotReady
      else if f.path = .mailbox ∧ (s.boot.ready = false ∨ s.tier < 2) then .error dsNotReady
      else if decide (s.tier < 2) && !porterHolds r.index && !s.boot.recovery then .error dsNotReady
      else if !onPath then .error dsNoAccess
      else if r.rop = 1 then
        if e.acc = .wo then .error dsNoAccess
        else if f.path = .field ∧ f.session = 0 ∧ !(e.u || s.granted r.index r.sub) then .error dsSession
        else .ok e
      else if e.acc = .const ∨ e.acc = .ro then .error dsNoAccess
      else if f.session ≠ 0 ∨ !e.sess ∨ (s.boot.recovery ∧ r.index = 0x0204) then .ok e
      else if r.index = 0x1C18 ∧ r.sub = 1 ∧ f.path = .mailbox ∧ s.por.keys = [] then .ok e
      else .error dsSession

/-- What a write record comes to. -/
inductive WriteLook where
  | refuse (status : Nat) (s : State)
  | staged (s : State)
  | value (bs : List Byte) (s : State)

/-- The segments that a session has staged of a record's entry, and the bytes that its staged writes take. -/
def State.stagedOf (s : State) (n : Word) (r : Req) : Option StagedWrite :=
  (s.session? n).bind (fun x => x.staged.find? (fun w => w.index == r.index && w.sub == r.sub))
def State.stagedBytes (s : State) (n : Word) : Nat := ((s.session? n).map (fun x => (x.staged.map StagedWrite.total).sum)).getD 0
def State.stage (s : State) (n : Word) (w : StagedWrite) : State := s.modSession n (fun x => { x with staged := x.staged ++ [w] })

/-- Take a write's value: whole, or the last of its segments (R422, R427). A gap, an overlap or a change of TOTAL ends the write of
its entry and discards what was staged of it; up to 64 KiB are staged in a session. -/
def State.lookWrite (s : State) (f : InFrame) (r : Req) : WriteLook :=
  match s.recEntry f r with
  | .error st => .refuse st s
  | .ok e =>
    let whole := fun (s : State) (bs : List Byte) =>
      match tyBytes e.ty with
      | some n => if bs.length ≠ n ∨ r.total ≠ n then .refuse dsType s
                  else if e.fits r.sub bs || ownRange r.index r.sub then .value bs s else .refuse dsOutOfRange s
      | none => match blobSize r.index r.sub with
        | some n => if bs.length ≠ n then .refuse dsType s else .value bs s
        | none => .value bs s
    match s.stagedOf f.session r with
    | none =>
      if r.offset = 0 ∧ r.length = r.total then whole s r.value
      else if e.ty < 10 ∨ r.offset ≠ 0 ∨ r.total < r.length ∨ 65536 < s.stagedBytes f.session + r.total ∨ f.session = 0 then .refuse dsType s
      else .staged (s.stage f.session ⟨r.index, r.sub, r.total, r.value⟩)
    | some w =>
      let s := s.dropStaged f.session r.index r.sub
      if w.total ≠ r.total ∨ r.offset ≠ w.bytes.length ∨ w.total < w.bytes.length + r.length then .refuse dsType s
      else
        let bs := w.bytes ++ r.value
        if bs.length = w.total then whole s bs else .staged (s.stage f.session { w with bytes := bs })

/-- A command's own answer to the record whose turn it is. -/
structure Ans where
  st : State
  status : Nat
  detail : Nat := 0
  ticket : Option Word := none

/-- Serve the record whose turn it is, where it writes one of the entries `own` picks: the shared checks, then the entry's own
`act` on the whole value. Another record leaves the state as it is. -/
def State.serveWrite (s : State) (own : Nat → Nat → Bool) (act : State → InFrame → Req → List Byte → Ans) : State :=
  match s.frontRec with
  | none => s
  | some (f, r) =>
    if r.rop ≠ 2 ∨ own r.index r.sub = false then s
    else match s.lookWrite f r with
      | .refuse st t => t.answer st 0 r.total []
      | .staged t => t.answer dsOk 0 r.total []
      | .value bs t =>
        let a := act t f r bs
        a.st.answer a.status a.detail (match a.ticket with
          | some k => k.toNat
          | none => r.total) []

/-- A WO entry of type BOOL acts when written TRUE (R428). -/
def onTrue (act : State → InFrame → Req → List Byte → Ans) (s : State) (f : InFrame) (r : Req) (bs : List Byte) : Ans :=
  if leNat bs = 1 then act s f r bs else ⟨s, dsOk, 0, none⟩

/-! ## Commands that answer ACCEPTED (R424) -/

/-- Start a command: at most 16 run at once. -/
def State.accept (s : State) (f : InFrame) (r : Req) (bs : List Byte) (start : State → Word → State) : Ans :=
  if 16 ≤ s.por.cmds.length then ⟨s, dsTooMany, 0, none⟩
  else
    let t := s.por.nextTicket
    let s := s.withPor (fun p => { p with nextTicket := p.nextTicket + 1
                                          cmds := p.cmds ++ [{ ticket := t, index := r.index, sub := r.sub, path := f.path,
                                                               session := f.session, params := bs }] })
    ⟨start s t, dsAccepted, 0, some t⟩

end Sys2Proof.Machine
end

