-- ==== Sys2Proof/Machine/Ports.lean ====
section
/-! DEFINITION. Optical ports and the ring bypass (13): frames and their sequence (R312–R316), training and failure (R319–R322),
bulk transfers as a port sends them (R323, R324), and the bypass switches (R326–R331). -/

namespace Sys2Proof.Machine

/-- The bytes of a flit, and bytes as flits padded with zero. -/
def flitBytes (f : BitVec 2048) : List Byte := leBytes 256 f.toNat
def flitsOf (bs : List Byte) : List (BitVec 2048) :=
  (chunks 256 (bs.length / 256 + 1) bs).map (fun c => BitVec.ofNat 2048 (leNat c))
/-- The header flit of a BULK message (Table 13-4). -/
def bulkHeader (kind seq slot len off : Nat) : BitVec 2048 :=
  BitVec.ofNat 2048 (kind + seq * 2 ^ 128 + slot * 2 ^ 152 + len * 2 ^ 160 + off * 2 ^ 192)

def bulkMax : Nat := 16777216
/-- The readable prefix of a span of a slot's stream: up to its first codeword on a fenced channel (R175, log 158). -/
def State.readableSlot (s : State) (sl : Slot) (a n : Nat) : Nat :=
  match (codewordsOf a n).find? (fun w => s.cwFenced sl w) with
  | some w => max a (4096 * w) - a
  | none => n
/-- Bring the next message of a port's BULK_SEND to the transmitter, where nothing is queued there (R323, R324). -/
def State.bulkPull (s : State) (p : Nat) : State :=
  if (s.port p).state ≠ .up ∨ (s.port p).txB ≠ [] then s
  else match s.bulkOn p with
    | none => s
    | some (c, b) =>
      let at_ := b.addr + c.progress
      let want := min bulkMax (b.len - c.progress)
      let n := if b.source = 0 then s.readable at_ want else s.readableSlot (s.slot b.slot) at_ want
      if n = 0 then s
      else
        let data := if b.source = 0 then s.ms.mem.readBytes at_ n else (s.slot b.slot).stream.readBytes at_ n
        let h := bulkHeader 1 (c.arrived.length % 65536) b.target n (b.off + c.progress)
        let s := if b.source = 0 then s.readDone at_ n else s.countFlash 32 (s.slot b.slot) at_ n
        let s := s.modCmd c.ticket (fun c => { c with progress := c.progress + n, arrived := c.arrived ++ [(c.progress, n)] })
        s.modPort p (fun x => { x with txB := h :: flitsOf data, bulkLeft := 1 + n / 256 })

/-! ## Losing a group (R352) -/

/-- The groups that use a port and that a job holds. -/
def State.heldOn (s : State) (p : Nat) : List Nat :=
  (List.range 256).filter (fun g => (s.group g).holder.isSome && rtValid (s.routeEntry g) && (rtPorts (s.routeEntry g)).contains p)

/-! ## A port goes down, or off (R321, R322) -/

/-- The ring a port belongs to. -/
def ringOf (p : Nat) : Option Nat := if p = 4 ∨ p = 5 then some 0 else if p = 6 ∨ p = 7 then some 1 else none
def portsOfRing (r : Nat) : List Nat := if r = 0 then [4, 5] else [6, 7]

/-- Whether an operation is in flight over a port (R322): it uses the port, and is not finished or its messages have not all passed on. -/
def State.opOn (s : State) (p : Nat) (o : ExOp) : Bool :=
  let e := s.routeEntry o.group
  let x := s.port p
  ((List.range (o.level + 1)).flatMap (rtLevelPorts e)).contains p &&
    (!o.finished || !x.txE.isEmpty || !x.txB.isEmpty || x.unacked 1 || x.unacked 2)
/-- A port begins to drain: the operations in flight may still complete over it, and no other begins (R322). -/
def State.startDrain (s : State) (p : Nat) : State :=
  s.modPort p (fun x => { x with
    state := .draining, inFlight := (s.net.ops.filter (fun o => (o.begun || !o.sentOn.isEmpty) && !o.finished)).map (fun o => (o.core, o.ord, o.job)) })
/-- Whether a relay is in flight over a port: it is not complete. -/
def State.relayOn (s : State) (p : Nat) (r : Relay) : Bool := (r.ports (s.routeEntry r.group)).contains p && !r.complete
/-- The held groups that have an operation or a relay in flight over a port. -/
def State.busyOn (s : State) (p : Nat) : List Nat :=
  (s.heldOn p).filter (fun g => s.net.ops.any (fun o => o.group == g && s.opOn p o) || s.net.relays.any (fun r => r.group == g && s.relayOn p r))

/-- What a port loses: the groups given, its bulk transfers, its buffers. Barrier records that have not left wait for it to be UP again
(R350, log 222). -/
def State.portLose (s : State) (p : Nat) (lost : List Nat) : State :=
  let s := lost.foldl (fun t g => t.abortGroup g stPeerLost) s
  let sends := s.por.cmds.filterMap (fun c => (bulkSendOf c).bind (fun b => if b.port = p then some (c, s.bulkSent c b) else none))
  let s := sends.foldl (fun t c => t.endCmd c.1.ticket dsLinkDown 0 c.2) s
  let writes := s.por.cmds.filter (fun c => match slotWriteOf c with
    | some w => decide (w.source = 1 ∧ w.port = p)
    | none => false)
  let s := writes.foldl (fun t c => t.endSlotWrite c dsLinkDown c.arrivedPrefix) s
  s.modPort p (fun x => { x with
    peerSerial := 0, peerPort := 0xFF, peerMember := 0, nakDue := false, replay := [], resend := [], resendRuns := []
    creditE := 0, creditB := 0, owedE := 0, owedB := 0, rxE := [], rxB := [], txE := [], txB := [], bulkLeft := 0
    ctrlIn := [], ctrlOut := [], ctrlHeld := x.ctrlHeld ++ x.ctrlOut.filter barrierRec, asmE := [], asmB := [] })

/-- Whether a port's enable is set, and its ring JOINED and not being left where it is a ring port (R319, R326, R329). -/
def State.portEnabled (s : State) (p : Nat) : Bool :=
  decide (s.block (blkPort p) = 1) && s.hubOf (dieOfPort p) &&
  (match ringOf p with
   | some r => decide ((s.ring r).bypass = .joined) && !(s.ring r).leaving
   | none => true)

/-- AUTO_BYPASS (R330): while RING_AUTO_BYPASS is TRUE, a JOINED ring goes THROUGH when one of its ports is DOWN with fault LOCAL. Its
ports are then held OFF (R326). -/
def State.autoBypass (s : State) (r : Nat) : State :=
  match (portsOfRing r).find? (fun p => decide ((s.port p).state = .down ∧ (s.port p).fault = 1)) with
  | none => s
  | some p =>
    if (s.ring r).bypass ≠ .joined ∨ s.dv (0x1020 + r) 3 ≠ 1 then s
    else
      let s := s.modRing r (fun x => { x with bypass := .moving false, leaving := false, autos := x.autos + 1, moves := x.moves + 1 })
      let s := (portsOfRing r).foldl (fun t q => (t.portLose q (t.heldOn q)).modPort q (fun x => { x with
        state := if x.fenced then .fenced else .off, lanesOk := 0 })) s
      s.logEvent 6 0 (0x30 + p) (BitVec.ofNat 128 r)
/-- The same for the ring of a port. -/
def State.portBypass (s : State) (p : Nat) : State := match ringOf p with
  | some r => s.autoBypass r
  | none => s

/-- Whether a port is shut by this module's own doing: OFF, FENCED, or DOWN by a local fault. -/
def Port.shut (x : Port) : Bool :=
  match x.state with
  | .off | .fenced => true
  | .down => decide (x.fault = 1)
  | _ => false
/-- A JOINED ring that this module opens at a port, outside a commanded join or leave, is a service stop (R456), cause 2; a port that is
shut already opens nothing more, and a change of its enable is no service stop (R457, log 216). -/
def State.ringOpens (s : State) (p : Nat) : State :=
  match ringOf p with
  | none => s
  | some r => if (s.ring r).bypass = .joined ∧ (s.ring r).leaving = false ∧ (s.port p).shut = false then s.serviceStop 2 else s
/-- A port goes DOWN with a fault: 1 LOCAL, 2 LINK (R320, R321). A fenced port stays FENCED. -/
def State.portDown (s : State) (p fault : Nat) : State :=
  let s := if fault = 1 then s.ringOpens p else s
  let s := (s.portLose p (s.heldOn p)).modPort p (fun x => { x with
    state := if x.fenced then .fenced else .down, fault := fault, downs := x.downs + 1 })
  if fault = 1 then s.portBypass p else s

/-- A port that has drained goes OFF; an operation still in flight is lost (R322). -/
def State.portOff (s : State) (p : Nat) : State :=
  (s.portLose p (s.busyOn p)).modPort p (fun x => { x with state := if x.fenced then .fenced else .off, fault := 0, lanesOk := 0 })

/-- When both ports of a leaving ring are OFF, the switch moves to THROUGH (R329). -/
def State.leaveMove (s : State) (p : Nat) : State :=
  match ringOf p with
  | none => s
  | some r =>
    if (s.ring r).leaving && (portsOfRing r).all (fun q => decide ((s.port q).state = .off ∨ (s.port q).state = .fenced)) then
      s.modRing r (fun x => { x with leaving := false, bypass := .moving false, moves := x.moves + 1 })
    else s
/-- BLOCK_STATE of a port whose enable was cleared goes OFF with the port (Table 17-4). -/
def State.portBlockOff (s : State) (p : Nat) : State := if s.block (blkPort p) = 2 then s.setBlock (blkPort p) 0 else s
/-- A draining port ends: it goes OFF, its enable with it where that was cleared, and its ring may move. -/
def State.drainEnd (s : State) (p : Nat) : State := ((s.portOff p).portBlockOff p).leaveMove p
/-- A loss that takes an UP port DOWN; a draining port is then OFF (R320, R322). -/
def State.portFail (s : State) (p fault : Nat) : State :=
  match (s.port p).state with
  | .up => s.portDown p fault
  | .draining => s.drainEnd p
  | _ => s

/-! ## Training (Table 13-3) -/

/-- Identity of this module as a control record (Table 13-2). Byte 18 is 0 on a port that has no ring (DESIGN CHOICE, log 223). -/
def State.identityRecord (s : State) (p : Nat) : BitVec 256 :=
  let through := match ringOf p with
    | some r => match (s.ring r).bypass with
      | .through => 0
      | .joined => 1
      | .moving _ => 2
    | none => 0
  BitVec.ofNat 256 (3 + s.serial * 2 ^ 64 + p * 2 ^ 128 + 3 * 2 ^ 136 + through * 2 ^ 144)
/-- Begin training: an optical engine that fails its self-test takes the port down with fault LOCAL (step 1); else the identity is sent in
step 5. LANES_OK reads 0 from here until the port is UP, the steps between being one (Table 13-7; DESIGN CHOICE, log 224). -/
def State.trainPort (s : State) (p : Nat) : State :=
  if (s.port p).testFails then (s.modPort p (fun x => { x with testFails := false, lanesOk := 0 })).portDown p 1
  else
    let r := s.identityRecord p
    s.modPort p (fun x => { x with state := .training, fault := 0, lanesOk := 0, txSeq := 0, rxSeq := 0, ctrlIn := [], ctrlOut := [r] })

/-- PORT_TRAIN (R319): an enabled port leaves OFF or DOWN. -/
def State.portTrain (s : State) (p : Nat) : State :=
  let x := s.port p
  if (x.state = .off ∨ x.state = .down) ∧ x.fenced = false ∧ s.portEnabled p = true then s.trainPort p else s
/-- PORT_RETRAIN_TIMER (R320): a DOWN port that is not FENCED trains again. -/
def State.portRetrain (s : State) (p : Nat) : State :=
  let x := s.port p
  if x.state = .down ∧ x.fenced = false ∧ s.portEnabled p = true then s.trainPort p else s
/-- PORT_TRAIN_TIMEOUT (R319). -/
def State.trainTimeout (s : State) (p : Nat) : State := if (s.port p).state = .training then s.portDown p 2 else s

/-- The oldest control record of a type, and the rest. -/
def takeCtrl (ty : Nat) : List (BitVec 256) → Option (BitVec 256 × List (BitVec 256))
  | [] => none
  | r :: rs => if bits r.toNat 7 0 = ty then some (r, rs) else match takeCtrl ty rs with
    | some (x, rest) => some (x, r :: rest)
    | none => none

/-- PEER_IDENTITY_RECV (R319, R316): step 5 ends once the identities are exchanged: the port is UP with full credits and SEQ and ACK at 0.
One that comes before this port's own has left and is acknowledged waits, so that a NAK still finds the frame to resend (R313; DEDUCED,
log 215). -/
def State.peerIdentity (s : State) (p : Nat) : State :=
  match takeCtrl 3 (s.port p).ctrlIn with
  | none => s
  | some (r, rest) =>
    let serial := bits r.toNat 127 64
    if (s.port p).state = .training ∧ serial ≠ 0 ∧ ((s.port p).ctrlOut ≠ [] ∨ (s.port p).replay ≠ []) then s
    else
    let s := s.modPort p (fun x => { x with ctrlIn := rest })
    if (s.port p).state ≠ .training then s
    else if serial = 0 then s.portDown p 2
    else s.modPort p (fun x => { x with
      state := .up, fault := 0, lanesOk := 0xFFFF, peerSerial := BitVec.ofNat 64 serial, peerPort := BitVec.ofNat 8 (bits r.toNat 135 128)
      peerMember := BitVec.ofNat 8 (bits r.toNat 143 136), txSeq := 0, rxSeq := 0, creditE := 8192, creditB := 2048
      owedE := 0, owedB := 0, resend := [], resendRuns := [], nakDue := false, ctrlOut := x.ctrlHeld, ctrlHeld := [] })

/-- CREDIT_RETURN_RECV (R316). -/
def State.creditReturn (s : State) (p : Nat) : State :=
  match takeCtrl 1 (s.port p).ctrlIn with
  | none => s
  | some (r, rest) =>
    let n := bits r.toNat 63 32
    let cls := bits r.toNat 15 8
    s.modPort p (fun x => { x with
      ctrlIn := rest, creditE := if cls = 1 then x.creditE + n else x.creditE
      creditB := if cls = 2 then x.creditB + n else x.creditB })

/-! ## Frames (Table 13-1) -/

def fhSeq (h : Quad) : BitVec 12 := BitVec.ofNat 12 (bits h.toNat 31 20)
def fhAck (h : Quad) : BitVec 12 := BitVec.ofNat 12 (bits h.toNat 19 8)
def fhNak (h : Quad) : Bool := bit h.toNat 7
def fhFlits (h : Quad) : Nat := bits h.toNat 4 2 + 1
/-- CRC of a frame: header bits [31:0] and the flit bytes. -/
def frameCrc (h : Nat) (flits : List (BitVec 2048)) : Word := crc32c (leBytes 4 h ++ flits.flatMap flitBytes)
/-- A frame as sent: `flits` are its valid flits. -/
def mkFrame (seq ack : BitVec 12) (nak : Bool) (kind : Nat) (flits : List (BitVec 2048)) : PortFrame :=
  let body := flits ++ List.replicate (8 - flits.length) 0
  let h := seq.toNat * 2 ^ 20 + ack.toNat * 2 ^ 8 + (if nak then 2 ^ 7 else 0) + kind * 2 ^ 5 + (flits.length - 1) * 4
  { header := BitVec.ofNat 64 ((frameCrc h body).toNat * 2 ^ 32 + h), flits := body, corrected := 0, uncorrected := 0 }

/-- Whether a port exchanges frames: it is UP or draining, or in step 5 of its training. -/
def Port.live (x : Port) : Bool := decide (x.state = .up) || decide (x.state = .draining) || decide (x.state = .training)

/-- A frame leaves: it is counted, and the NAK it carried is given. -/
def State.sendFrame (s : State) (p : Nat) (f : PortFrame) : State :=
  let s := if fhKind f.header = 0 then s else s.bumpBw p 2056
  (s.modPort p (fun x => { x with nakDue := false })).emit (.frame p f)

/-- Send a sequenced frame: it stays in the replay buffer until it is acknowledged (R313). -/
def State.sendNew (s : State) (p kind : Nat) (flits : List (BitVec 2048)) : State :=
  let x := s.port p
  let f := mkFrame (x.txSeq + 1) x.rxSeq x.nakDue kind flits
  (s.modPort p (fun x => { x with txSeq := x.txSeq + 1, replay := x.replay ++ [f] })).sendFrame p f

/-- The credit-return records a port owes (R316). -/
def Port.owedRecords (x : Port) : List (BitVec 256) :=
  (if x.owedE = 0 then [] else [BitVec.ofNat 256 (1 + 1 * 2 ^ 8 + x.owedE * 2 ^ 32)]) ++
  (if x.owedB = 0 then [] else [BitVec.ofNat 256 (1 + 2 * 2 ^ 8 + x.owedB * 2 ^ 32)])
/-- Control records as flits, eight to a flit. -/
def ctrlFlits (rs : List (BitVec 256)) : List (BitVec 2048) :=
  (chunks 8 (rs.length / 8 + 1) rs).map (fun c => BitVec.ofNat 2048 (leNat (c.flatMap (fun r => leBytes 32 r.toNat))))

/-- How often a frame of the replay buffer has been resent. -/
def Port.runOf (x : Port) (f : PortFrame) : Nat := mget 0 x.resendRuns (fhSeq f.header).toNat
/-- A frame is resent, once more in a row (R320); every resend is counted. -/
def Port.resent (x : Port) (f : PortFrame) (rest : List PortFrame) : Port :=
  { x with resend := rest, resends := x.resends + 1, resendRuns := mset x.resendRuns (fhSeq f.header).toNat (x.runOf f + 1) }

/-- FRAME_TRANSMIT (R310, R315–R317): resends first (R313, R314; DESIGN CHOICE, log 241), then control, EXCH, BULK; else an idle frame. A BULK frame goes out only
when no EXCH flit is ready or no EXCH credit remains. The replay buffer holds 510 frames. -/
def State.frameTransmit (s : State) (p : Nat) : State :=
  if !(s.port p).live then s
  else match (s.port p).resend with
    | f :: rest =>
      let x := s.port p
      let g := mkFrame (fhSeq f.header) x.rxSeq x.nakDue (fhKind f.header) (f.flits.take (fhFlits f.header))
      (s.modPort p (fun x => x.resent f rest)).sendFrame p g
    | [] =>
      let s := s.bulkPull p
      let x := s.port p
      let idle := s.sendFrame p (mkFrame 0 x.rxSeq x.nakDue 0 [0])
      let recs := (if x.state = .training then [] else x.owedRecords) ++ x.ctrlOut
      if 510 ≤ x.replay.length then idle
      else if !recs.isEmpty then
        let n := if x.state = .training then 0 else x.owedRecords.length
        ((s.modPort p (fun x => { x with
          owedE := if x.state = .training then x.owedE else 0, owedB := if x.state = .training then x.owedB else 0
          ctrlOut := x.ctrlOut.drop (64 - n) })).sendNew p 3 (ctrlFlits (recs.take 64))).bumpPort p 5 1
      else if x.state = .training then idle
      else if !x.txE.isEmpty && decide (0 < x.creditE) then
        let n := min 8 (min x.creditE x.txE.length)
        ((s.modPort p (fun x => { x with txE := x.txE.drop n, creditE := x.creditE - n })).sendNew p 1 (x.txE.take n)).bumpPort p 1 n
      else
        let stall := fun (s : State) (i : Nat) => let (q, s) := s.draw; s.bumpPort p i q.toNat
        let s := if x.txE.isEmpty then s else stall s 6
        if !x.txB.isEmpty && decide (0 < x.creditB) then
          let n := min 8 (min x.creditB x.txB.length)
          ((s.modPort p (fun x => { x with
            txB := x.txB.drop n, creditB := x.creditB - n, bulkLeft := x.bulkLeft - n })).sendNew p 2 (x.txB.take n)).bumpPort p 2 n
        else
          let s := if x.txB.isEmpty then s else stall s 7
          s.sendFrame p (mkFrame 0 x.rxSeq x.nakDue 0 [0])

/-- Drop what a frame's ACK acknowledges from the replay buffer (R313). -/
def Port.acked (x : Port) (ack : BitVec 12) : Port :=
  if x.replay.any (fun f => fhSeq f.header == ack) then
    let left := (x.replay.dropWhile (fun f => fhSeq f.header != ack)).drop 1
    { x with replay := left, resendRuns := x.resendRuns.filter (fun r => left.any (fun f => (fhSeq f.header).toNat == r.1)) }
  else x

/-- Control records of a frame's valid flits, and those of them of known types: the others are empty, or ignored and counted
(Table 13-2). -/
def ctrlAll (flits : List (BitVec 2048)) : List (BitVec 256) :=
  flits.flatMap (fun f => (List.range 8).map (fun i => BitVec.ofNat 256 (f.toNat / 2 ^ (256 * i))))
def ctrlRecords (flits : List (BitVec 2048)) : List (BitVec 256) :=
  (ctrlAll flits).filter (fun r => decide (1 ≤ bits r.toNat 7 0 ∧ bits r.toNat 7 0 ≤ 3))

/-- Whether a receive buffer has room for a frame's flits (R316). -/
def Port.room (x : Port) (kind n : Nat) : Bool :=
  if kind = 1 then decide (x.rxE.length + n ≤ 8192) else if kind = 2 then decide (x.rxB.length + n ≤ 2048) else true
/-- Deliver an accepted frame's flits by kind (R314–R316). Their credits are owed as the buffers drain. -/
def State.deliver (s : State) (p kind : Nat) (flits : List (BitVec 2048)) : State :=
  let n := flits.length
  match kind with
  | 1 => (s.modPort p (fun x => { x with rxE := x.rxE ++ flits })).bumpPort p 3 n
  | 2 => (s.modPort p (fun x => { x with rxB := x.rxB ++ flits })).bumpPort p 4 n
  | 3 => s.modPort p (fun x => { x with
      ctrlIn := x.ctrlIn ++ ctrlRecords flits
      ctrlIgnored := x.ctrlIgnored + BitVec.ofNat 64 ((ctrlAll flits).countP (fun r => decide (3 < bits r.toNat 7 0))) })
  | _ => s

/-- FRAME_RECEIVE (R313, R314): a bad frame is discarded and answered with NAK, as is one whose flits find no room (log 25); a good
one acknowledges, asks for resends, and is delivered where it is the next in SEQ order. A NAK for a frame that was resent
REPLAY_LIMIT times in a row takes an UP port down (R320); a port in training resends it again. A codeword is corrected in 1 to 15
symbols, how many is free (log 8). -/
def State.frameReceive (s : State) (p : Nat) (f : PortFrame) : State :=
  if !(s.port p).live then s
  else
    let s := if f.corrected = 0 then s else
      let (q, s) := s.draw
      (s.modPort p (fun x => { x with fecCorrected := x.fecCorrected + BitVec.ofNat 64 f.corrected })).bumpPort p 8 (f.corrected + q.toNat % (14 * f.corrected + 1))
    let h := f.header
    if f.uncorrected ≠ 0 ∨ bits h.toNat 63 32 ≠ (frameCrc (bits h.toNat 31 0) f.flits).toNat then
      s.modPort p (fun x => { x with nakDue := true, fecUncorrected := x.fecUncorrected + BitVec.ofNat 64 f.uncorrected })
    else
      let s := s.modPort p (fun x => x.acked (fhAck h))
      let x := s.port p
      let asked := fhNak h && !x.replay.isEmpty
      if asked && decide (x.state ≠ .training) && x.replay.any (fun g => decide (s.dv 0x1000 7 ≤ x.runOf g)) then s.portFail p 2
      else
        let s := if asked then s.modPort p (fun x => { x with resend := x.replay }) else s
        if fhKind h = 0 ∨ fhSeq h ≠ x.rxSeq + 1 then s
        else if !x.room (fhKind h) (fhFlits h) then s.modPort p (fun x => { x with nakDue := true })
        else
          let s := (s.modPort p (fun x => { x with rxSeq := x.rxSeq + 1 })).bumpBw (8 + p) 2056
          s.deliver p (fhKind h) (f.flits.take (fhFlits h))

/-! ## Failure in service (R320) -/

/-- LANE_CDR_LOSS. -/
def State.cdrLoss (s : State) (p lane : Nat) : State :=
  if (s.port p).state = .up ∨ (s.port p).state = .draining then
    (s.modPort p (fun x => { x with lanesOk := x.lanesOk &&& ~~~(1#16 <<< lane) })).portFail p 2
  else s
/-- LANE_SER_WINDOW: symbol errors per 10⁶ symbols of each lane over 1 ms. -/
def State.serWindow (s : State) (p : Nat) (errs : List Nat) : State :=
  if (s.port p).state ≠ .up ∧ (s.port p).state ≠ .draining then s
  else
    let limit := s.dv 0x1000 8
    let ok := (List.range 16).foldl (fun n l => if (errs[l]?).getD 0 ≤ limit then n + 2 ^ l else n) 0
    let s := s.modPort p (fun x => { x with lanesOk := BitVec.ofNat 16 ok })
    if ok = 65535 then s else s.portFail p 2
/-- PORT_LOCAL_FAULT: the optical engine's self-test fails, in training or in service. Of a port that is in neither, it says how the
self-test that a join makes next comes out (R328, log 156). -/
def State.localFault (s : State) (p : Nat) : State :=
  match (s.port p).state with
  | .training => s.portDown p 1
  | .up => s.portDown p 1
  | .draining => s.drainEnd p
  | _ => s.modPort p (fun x => { x with testFails := true })

/-! ## Draining and the bypass (R322, R326–R331) -/

/-- Whether a draining port still has work (R322): messages to send, EXCH or BULK frames that are not acknowledged, an exchange operation
in flight. -/
def State.portBusy (s : State) (p : Nat) : Bool :=
  let x := s.port p
  x.unacked 1 || x.unacked 2 || !x.txE.isEmpty || !x.txB.isEmpty || decide (x.bulkLeft ≠ 0) || !x.rxE.isEmpty || s.net.ops.any (s.opOn p) || s.net.relays.any (s.relayOn p)

/-- PORT_DRAINED (R322). -/
def State.portDrained (s : State) (p : Nat) : State :=
  if (s.port p).state = .draining ∧ s.portBusy p = false then s.drainEnd p else s
/-- PORT_DRAIN_TIMEOUT (R322): operations still in flight are lost, and the port goes OFF. -/
def State.drainTimeout (s : State) (p : Nat) : State :=
  if (s.port p).state = .draining then s.drainEnd p else s

/-- BYPASS_MOVE_DONE (R326, R328): the switch has moved; in JOINED, both ports train. -/
def State.bypassDone (s : State) (r : Nat) : State :=
  match (s.ring r).bypass with
  | .moving true =>
    let s := s.modRing r (fun x => { x with bypass := .joined })
    (portsOfRing r).foldl (fun t p => t.portTrain p) s
  | .moving false => s.modRing r (fun x => { x with bypass := .through })
  | _ => s

/-- Whether a join may proceed (R328): the ports are not FENCED and enabled, and the optical engine passes its self-test. -/
def State.canJoin (s : State) (r : Nat) : Bool :=
  (portsOfRing r).all (fun p => !(s.port p).fenced && s.hubOf (dieOfPort p) && decide (s.block (blkPort p) = 1) && !(s.port p).testFails)
/-- A self-test made: its outcome is used up. -/
def State.selfTested (s : State) (r : Nat) : State :=
  (portsOfRing r).foldl (fun t p => t.modPort p (fun x => { x with testFails := false })) s
/-- Start a join: the switch moves to JOINED. -/
def State.startJoin (s : State) (r : Nat) : State :=
  if (s.ring r).bypass = .through then
    s.modRing r (fun x => { x with bypass := .moving true, leaving := false, moves := x.moves + 1 })
  else s
/-- Start a leave: both ports drain; one that drains already goes on, and a port that is not UP is OFF at once. -/
def State.startLeave (s : State) (r : Nat) : State :=
  if (s.ring r).bypass ≠ .joined then s
  else
    let s := s.modRing r (fun x => { x with leaving := true })
    let s := (portsOfRing r).foldl (fun t p => if (t.port p).state = .up then t.startDrain p
      else if (t.port p).state = .draining then t else t.portOff p) s
    (portsOfRing r).foldl (fun t p => t.leaveMove p) s
/-- Whether a ring's ports drain or its switch moves (R331). -/
def State.ringBusy (s : State) (r : Nat) : Bool :=
  (match (s.ring r).bypass with
   | .moving _ => true
   | _ => false) || (portsOfRing r).any (fun p => decide ((s.port p).state = .draining))

/-- RING_JOIN: JOINED written to RING_MODE. -/
def State.ringJoin (s : State) : State :=
  s.serveWrite (fun i u => decide (i = 0x1020 ∨ i = 0x1021) && decide (u = 1) && (match s.frontRec with
      | some (_, q) => decide (leNat q.value = 1)
      | none => false)) (fun s _ q _ =>
    let r := q.index - 0x1020
    if s.ringBusy r then ⟨s, dsBypassBusy, 0, none⟩
    else if !s.canJoin r then ⟨s.selfTested r, dsBypassRefused, 0, none⟩
    else ⟨(s.setDv q.index 1 1).startJoin r, dsOk, 0, none⟩)
/-- RING_LEAVE: any other write of RING_MODE. -/
def State.ringLeave (s : State) : State :=
  s.serveWrite (fun i u => decide (i = 0x1020 ∨ i = 0x1021) && decide (u = 1) && (match s.frontRec with
      | some (_, q) => decide (leNat q.value ≠ 1)
      | none => false)) (fun s _ q _ =>
    let r := q.index - 0x1020
    if s.ringBusy r then ⟨s, dsBypassBusy, 0, none⟩
    else ⟨(s.setDv q.index 1 0).startLeave r, dsOk, 0, none⟩)

/-! ## Port commands -/

/-- BULK_STARVATION (R317): BULK flits stayed ready and unsent. -/
def State.bulkStarved (s : State) (p : Nat) : State :=
  if (s.port p).txB.isEmpty then s
  else (s.modPort p (fun x => { x with starvations := x.starvations + 1 })).logNote 0 (0x30 + p) 0

/-- BULK_SEND (R324). The order of its refusals, and RANGE for a length of 0, are the model's (DESIGN CHOICE, log 212). -/
def State.bulkSend (s : State) : State :=
  s.serveWrite (fun i u => decide (i = 0x1030 ∧ u = 1)) (fun s f r bs =>
    let port := par bs 0 1; let src := par bs 1 1; let slot := par bs 2 1; let target := par bs 3 1
    let a := par bs 8 8; let off := par bs 16 8; let len := par bs 24 8
    if 8 ≤ port ∨ 2 ≤ src ∨ 16 ≤ target ∨ (src = 1 ∧ 16 ≤ slot) ∨ a % 2048 ≠ 0 ∨ off % 2048 ≠ 0 ∨
       len % 2048 ≠ 0 ∨ len = 0 ∨ (src = 0 ∧ s.inOnStacks a len = false) then ⟨s, dsRange, 0, none⟩
    else if (s.port port).state ≠ .up then ⟨s, dsPortDown, 0, none⟩
    else if src = 1 ∧ ((s.slot slot).state ≠ .sealed ∨ s.slotOff slot = true) then ⟨s, dsSlotState, 0, none⟩
    else if src = 1 ∧ (s.slot slot).dataBytes < a + len then ⟨s, dsRange, 0, none⟩
    else s.accept f r bs (fun s _ => s))

/-- PORT_FENCE (R320): the port is lost to its peers, and stays FENCED. -/
def State.portFence (s : State) : State :=
  s.serveWrite (fun i u => decide (i = 0x1030 ∧ u = 2)) (fun s _ _ bs =>
    let p := leNat bs
    if 8 ≤ p then ⟨s, dsOutOfRange, 0, none⟩
    else
      let before := s.tier
      let s := (s.ringOpens p).modPort p (fun x => { x with fencedCmd := true })
      let s := ((s.portLose p (s.heldOn p)).modPort p (fun x => { x with state := .fenced, lanesOk := 0 })).leaveMove p
      ⟨(s.logEvent 0 0 (0x30 + p) 0).noteTier before, dsOk, 0, none⟩)
/-- PORT_UNFENCE (R320, R481): a port fenced by command returns to DOWN for retraining, or to OFF where it is not enabled or its
ring is not JOINED. Of a port that is not fenced by command it answers OK and changes nothing (DESIGN CHOICE, log 225). -/
def State.portUnfence (s : State) : State :=
  s.serveWrite (fun i u => decide (i = 0x1030 ∧ u = 3)) (fun s _ _ bs =>
    let p := leNat bs
    if 8 ≤ p then ⟨s, dsOutOfRange, 0, none⟩
    else if (s.port p).fencedCmd = false then ⟨s, dsOk, 0, none⟩
    else
      let s := s.modPort p (fun x => { x with fencedCmd := false })
      if (s.port p).fencedBist then ⟨s, dsOk, 0, none⟩
      else if s.portEnabled p then ⟨(s.modPort p (fun x => { x with state := .down, downs := x.downs + 1 })).portBypass p, dsOk, 0, none⟩
      else ⟨s.modPort p (fun x => { x with state := .off }), dsOk, 0, none⟩)

end Sys2Proof.Machine
end

