-- ==== Sys2Proof/Machine/Array.lean ====
section
/-! DEFINITION. What the array computes: weight tiles, MMA (R36–R43, R112–R114), and CONV and CONV.DW over samples that the
line buffer gives (R269–R283). Pure functions of the core's stores. -/

namespace Sys2Proof.Machine

/-- An exact integer value as an integer. -/
def Val.toInt : Val → Int
  | .fin n m e => let x : Int := Int.ofNat (m * 2 ^ e.toNat); if n then -x else x
  | _ => 0

/-- The first k elements of output column n of an engine-ready weight tile (R34): 256 lines of 256 K elements, then the
scales. -/
def tileCol (f : Nat) (tile : List Byte) (n k : Nat) : List Val :=
  let line := 32 * fmtBits f
  let vs := (unpack (fmtBits f) k (leNat ((tile.drop (n * line)).take (rowBytes f k)))).map (decodeElem f)
  if isMx f then applyScales vs (((tile.drop (256 * line + n * 8)).take 8).map BitVec.toNat) else vs

/-- One accumulator word after the products of K elements (R37–R43): FP32, or INT32 for an INT8 pair. -/
def accumulate (ints : Bool) (acc : Nat) (a w : List Val) (k : Nat) : Nat :=
  if ints then (accInt (sInt 32 acc) (List.zipWith (fun (x y : Val) => x.toInt * y.toInt) a w) % 2 ^ 32).toNat
  else toF32 (accBlocks (ofF32 acc) (List.zipWith Val.mul a w) k)

/-- The accumulator word an instruction starts from (R43, R112, R127): +0, D's element, or the word as it stands. Table 4-6 gives
INIT = 1 as a conversion to FP32; in an INT8 pair, whose accumulators are INT32, D's element is rounded and clamped to INT32
(DESIGN CHOICE, log 140). -/
def accInit (ints : Bool) (init : Nat) (dv : Option Val) (word : Nat) : Nat :=
  if init = 0 then 0
  else if init = 1 then
    (if ints then (convInt 32 (dv.getD .zero)).code else toF32 (dv.getD .zero))
  else word

/-- The value of an accumulator word. -/
def accVal (ints : Bool) (w : Nat) : Val := if ints then ofInt (sInt 32 w) else ofF32 w

/-- The value written to an output (R38, R112): the accumulator times the exact product of the scales; INT32 as it
stands. The SCALE of the output operand itself takes no part (DEDUCED, log 167). -/
def outVal (ints : Bool) (fmt : Nat) (scale : Val) (w : Nat) : Val :=
  if fmt = fmtInt32 then accVal ints w else (accVal ints w).mul scale

/-- Rows of an array instruction: accumulate, write the accumulators back, and write the output when OUTM = 1. `acts` gives
row r's products for column n as (activations, weights, K) in order. -/
def arrayRows (ints : Bool) (init outm accRow0 nExt : Nat) (scale : Val) (m acc : Mem) (o : Operand) (rows : Nat)
    (acts : Nat → Nat → List (List Val × List Val × Nat)) : Writes :=
  Writes.join ((List.range rows).map (fun r =>
    let dv := if init = 1 then o.row m r nExt 256 else []
    let ws := (List.range nExt).map (fun n =>
      (acts r n).foldl (fun w p => accumulate ints w p.1 p.2.1 p.2.2) (accInit ints init dv[n]? (accWord acc (accRow0 + r) n)))
    let aw := accRow (accRow0 + r) ws
    if outm = 1 then aw.append (o.writeRow r 256 (ws.map (outVal ints o.fmt scale))) else aw))

/-- The weight scale an MMA-family instruction applies (R38, R114, R115). -/
def mmaWScale (f : Fam) (d : Nat) : Val := if f = .mma ∧ isPerTensor (mWFmt d) = true then ofF32 (mWScale d) else .one

/-- An adapter's up-projection tile as MMA.LA applies it: rank, format, bytes. -/
structure AdapterTile where
  rank : Nat
  fmt : Nat
  bytes : List Byte

/-- Column n of an adapter tile: a tile of Table 2-2 whose K extent is the rank (R193). -/
def AdapterTile.col (t : AdapterTile) (n : Nat) : List Val := tileCol t.fmt t.bytes n t.rank

/-- One iteration of an MMA-family instruction with its A rows given (R112, R114): iteration `p` in the accumulators. The blocks of
an adapter tile beyond the rank add +0 as those of W beyond K_EXT do (log 92). The spec gives no sum of an adapter's products into
the INT32 accumulators of an INT8 pair: such an MMA.LA adds nothing here, and continues from accumulators whose contents are free
(log 149). -/
def mmaIter (f : Fam) (d : Nat) (tile : List Byte) (ad : Option AdapterTile) (m acc : Mem) (i p : Nat) (clip : Option Nat)
    (aRow : Operand → Nat → List Val) : Writes :=
  let full := (dOp1 d).rows
  let a := ((dOp1 d).iter i).clip clip
  let o := ((dOp2 d).iter i).clip clip
  let ints := decide (a.fmt = fmtInt8)
  let cols := (List.range (mNExt d)).map (fun n => (tileCol (mWFmt d) tile n (mKExt d)))
  let t := ((laT d).iter i).clip clip
  let open_ := ints && ad.isSome
  arrayRows ints (if open_ then 2 else mInit d) (mOutm d) (mAccRow d + p * full) (mNExt d) (a.scaleVal.mul (mmaWScale f d)) m acc o
    a.rows (fun r n =>
      if open_ then []
      else (aRow a r, (cols[n]?).getD [], 256) ::
        (match ad with
         | some x => [(t.row m r x.rank x.rank, x.col n, 256)]
         | none => []))

/-- All iterations of an MMA-family instruction in increasing order (R109): later ones see the accumulators of earlier ones
only through their own rows. Rows of D that overlap A or each other's sources within one iteration are read as the store was at the
instruction's start (DESIGN CHOICE, log 229). -/
def mmaWrites (f : Fam) (d : Nat) (its : List Nat) (clip : Option Nat) (tile : List Byte) (ad : Option AdapterTile)
    (m acc : Mem) : Writes :=
  Writes.join (its.zipIdx.map (fun (i, p) =>
    mmaIter f d tile ad m acc i p clip (fun a r => a.row m r (mKExt d) 256)))

/-! ## Convolution geometry -/

/-- Output extent of an axis (R270), floor toward −∞. -/
def convExtent (h p dil k s : Nat) : Int :=
  (Int.ofNat h + 2 * Int.ofNat p - Int.ofNat dil * (Int.ofNat k - 1) - 1) / Int.ofNat s + 1
def convOH (d : Nat) : Int := convExtent (cInH d) (cPH d) (cDH d) (cKH d) (cSH d)
def convOW (d : Nat) : Int := convExtent (cInW d) (cPW d) (cDW d) (cKW d) (cSW d)
/-- Valid output positions (R270): zero where the output is empty. -/
def convValid (d : Nat) (clip : Option Nat) : Nat :=
  let o := (dOp2 d).clip clip
  if convOH d ≤ Int.ofNat (cY0 d) ∨ convOW d ≤ Int.ofNat (cX0 d) then 0
  else min o.rows ((convOW d).toNat - cX0 d)
def cTop (d : Nat) : Int := Int.ofNat (cY0 d * cSH d) - Int.ofNat (cPH d)
/-- The vertical span V (R269). -/
def cSpanV (d : Nat) : Nat := (cKH d - 1) * cDH d + 1
def cSpanH (d : Nat) : Nat := (cKW d - 1) * cDW d + 1

/-- Where a border fill takes its sample along one axis (R275): none is +0. -/
def borderAt (pad : Nat) (n : Nat) (y : Int) : Option Nat :=
  if 0 ≤ y ∧ y < Int.ofNat n then some y.toNat
  else if pad = 0 then none
  else if pad = 1 then some (max 0 (min y (Int.ofNat n - 1))).toNat
  else some (if y < 0 then (-y).toNat else (2 * (Int.ofNat n - 1) - y).toNat)

/-- Input lines that the window reads, border sources included (R272). -/
def convLines (d : Nat) : List Nat :=
  ((List.range (cKH d)).filterMap (fun i => borderAt (dOp1 d).pad (cInH d) (cTop d + Int.ofNat (i * cDH d)))).eraseDups
/-- The input line of IN row 0 (R272): max(y_top, 0), or the lowest line needed where reflect padding, or a window wholly below the
image under edge replicate, needs a lower one (log 150). -/
def convFirst (d : Nat) : Nat :=
  let low := (convLines d).foldl min (cInH d)
  if (dOp1 d).pad = 2 then low else min (cTop d).toNat low
/-- Positions of a line that the feeder copies (R272): those of the horizontal window of some output column of the line, and the
sources of its taps beyond the borders under either kind of border fill, so that they follow from the slot's tag alone (log 150). -/
def convPositions (d : Nat) : List Nat :=
  ((List.range (convOW d).toNat).flatMap (fun x =>
    let at_ := fun (j : Nat) => Int.ofNat (x * cSW d) - Int.ofNat (cPW d) + Int.ofNat j
    (List.range (cSpanH d)).filterMap (fun j => borderAt 0 (cInW d) (at_ j)) ++
    (List.range (cKW d)).flatMap (fun j => [1, 2].filterMap (fun p =>
      (borderAt p (cInW d) (at_ (j * cDW d))).filter (fun q => decide (q < cInW d)))))).eraseDups

/-- Bytes of one position: 16 channels (R271). -/
def convPosBytes (d : Nat) : Nat := 16 * fmtBits (dOp1 d).fmt / 8
/-- The line-buffer slot that holds input line y at iteration i (R271); a claiming instruction runs as iteration 0 (R110). -/
def convSlot (d i : Nat) (y : Int) : Nat := ((Int.ofNat (cLine d + i * cSpanV d) + y - cTop d) % 16).toNat

/-- The 16 channels of a tap (R269, R275): from the slot of its line, or its fill. -/
def convTap (d : Nat) (m : Mem) (lbBase slotBytes i : Nat) (r tr tc : Nat) : List Val :=
  let op := dOp1 d
  let y := cTop d + Int.ofNat (tr * cDH d)
  let x := Int.ofNat ((cX0 d + r) * cSW d) - Int.ofNat (cPW d) + Int.ofNat (tc * cDW d)
  match borderAt op.pad (cInH d) y, borderAt op.pad (cInW d) x with
  | some yy, some xx =>
    let a := lbBase + convSlot d i (Int.ofNat yy) * slotBytes + xx * convPosBytes d
    (unpack (fmtBits op.fmt) 16 (m.readLE a (convPosBytes d))).map (decodeElem op.fmt)
  | _, _ => List.replicate 16 .zero

/-- The K inputs of an output position, k = (i · KW′ + j) · 16 + c (R277). -/
def convInputs (d : Nat) (m : Mem) (lbBase slotBytes i r : Nat) : List Val :=
  (List.range (cKH d)).flatMap (fun tr => (List.range (cKW d)).flatMap (fun tc => convTap d m lbBase slotBytes i r tr tc))

/-- Column n of a CONV filter over its F tiles (R277). -/
def filterCol (f : Nat) (tiles : Nat) (filter : List Byte) (n k : Nat) : List Val :=
  ((List.range tiles).flatMap (fun t => tileCol f (filter.drop (t * tileBytes f)) n (min 256 (k - 256 * t)))).take k

/-- One iteration of CONV (R277, R280). -/
def convIter (d : Nat) (filter : List Byte) (m acc : Mem) (lbBase slotBytes i p valid : Nat) : Writes :=
  let full := (dOp2 d).rows
  let a := dOp1 d; let o := (dOp2 d).iter i
  let t := cTiles .conv d; let k := cKH d * cKW d * 16
  let cols := (List.range (cNExt d)).map (fun n => filterCol (mWFmt d) t filter n k)
  let ins := (List.range valid).map (convInputs d m lbBase slotBytes p)
  arrayRows (decide (a.fmt = fmtInt8)) (cInit d) (cOutm d) (cAccRow d + p * full) (cNExt d) a.scaleVal m acc o valid
    (fun r n => [((ins[r]?).getD [], (cols[n]?).getD [], 256 * t)])

/-- One iteration of CONV.DW (R283): channel c sums its T taps in increasing t, on its own diagonal block, whose other rows
count as +0. -/
def convDwIter (d : Nat) (filter : List Byte) (m acc : Mem) (lbBase slotBytes i p valid : Nat) : Writes :=
  let full := (dOp2 d).rows
  let a := dOp1 d; let o := (dOp2 d).iter i
  let t := cKH d * cKW d
  let ins := (List.range valid).map (convInputs d m lbBase slotBytes p)
  let w := (List.range (cNExt d)).map (fun c => ((tileCol (mWFmt d) filter c 256).drop (16 * c)).take t)
  arrayRows (decide (a.fmt = fmtInt8)) (cInit d) (cOutm d) (cAccRow d + p * full) (cNExt d) a.scaleVal m acc o valid
    (fun r c =>
      let x := (ins[r]?).getD []
      [((List.range t).map (fun j => (x[16 * j + c]?).getD .zero), (w[c]?).getD [], 32)])

/-- A CONV or CONV.DW over its iterations (R109); sources that OUT overlaps are read as they were (log 229). -/
def convWrites (f : Fam) (d : Nat) (its : List Nat) (clip : Option Nat) (filter : List Byte) (m acc : Mem)
    (lbBase slotBytes : Nat) : Writes :=
  let valid := convValid d clip
  Writes.join (its.zipIdx.map (fun (i, p) =>
    if f = .convDw then convDwIter d filter m acc lbBase slotBytes i p valid
    else convIter d filter m acc lbBase slotBytes i p valid))

end Sys2Proof.Machine
end

