-- ==== Sys2Proof/Machine/Sfu.lean ====
section
/-! DEFINITION. Tables and their evaluation (R250–R262), SFN (R263), SMAX (R264, R265), NORM (R266), as pure functions of the
core store. -/

namespace Sys2Proof.Machine

/-! ## Images and the loader's checks (R250–R256) -/

def SfuBank.lo (b : SfuBank) (i : Nat) : Val :=
  match b.segs[i]? with
  | some g => ofF32 g.brk.toNat
  | none => .zero
def SfuSeg.lwInt (g : SfuSeg) : Int := g.lw.toInt
def SfuSeg.seInt (g : SfuSeg) : Int := g.se.toInt
/-- The exact end E of the last segment (R252). -/
def SfuBank.endVal (b : SfuBank) : Val :=
  match b.segs.getLast? with
  | some g => (ofF32 g.brk.toNat).add (.fin false 1 g.lwInt)
  | none => .zero

/-- The image's header and segments (Tables 10-1, 10-2), with the reserved bits they hold. -/
def parseTable (bs : List Byte) (segs mono : Nat) : SfuBank × Nat :=
  let h := leNat (bs.take 64)
  let recs := (List.range segs).map (fun i => leNat ((bs.drop (64 + 32 * i)).take 32))
  let w := fun (v hi lo : Nat) => BitVec.ofNat 32 (bits v hi lo)
  ({ form := BitVec.ofNat 8 (bits h 71 64), mono := mono, lowMode := bit h 80, highMode := bit h 81,
     lowVal := w h 31 0, highVal := w h 63 32,
     segs := recs.map (fun r => {
       brk := w r 255 224, se := BitVec.ofNat 16 (bits r 223 208), lw := BitVec.ofNat 16 (bits r 207 192),
       c3 := w r 127 96, c2 := w r 95 64, c1 := w r 63 32, c0 := w r 31 0 }) },
   bits h 511 104 + bits h 87 82 + bits h 79 72 + (recs.map (fun r => bits r 191 128)).sum)

/-- Structural checks 1–5 of R256. -/
def tableStructOk (b : SfuBank) (spare : Nat) : Bool :=
  let fin := fun (w : Word) => !(ofF32 w.toNat).isNan && !(ofF32 w.toNat).isInf
  decide (spare = 0) && decide (b.form.toNat ≤ 1) &&
  b.segs.all (fun g => fin g.brk && decide (-149 ≤ g.lwInt ∧ g.lwInt ≤ 127)) &&
  (b.segs.zip (b.segs.drop 1)).all (fun (p, q) =>
    (ofF32 p.brk.toNat).lt (ofF32 q.brk.toNat) &&
    ((ofF32 q.brk.toNat).add (ofF32 p.brk.toNat).negate).le (.fin false 1 p.lwInt)) &&
  (if b.form.toNat = 0 then
    b.segs.all (fun g => decide (-160 ≤ g.seInt ∧ g.seInt ≤ 160) &&
      decide (g.c0.toInt.natAbs + g.c1.toInt.natAbs + g.c2.toInt.natAbs + g.c3.toInt.natAbs ≤ 8388607))
  else
    decide (b.mono = 0) && b.segs.all (fun g => decide (g.seInt = 0) && fin g.c0 && fin g.c1 && fin g.c2 && fin g.c3)) &&
  !(ofF32 b.lowVal.toNat).isNan && !(ofF32 b.highVal.toNat).isNan

/-- The monotone checks of R256, with every value and derivative negated for MONO = 2. -/
def tableMonoOk (b : SfuBank) : Bool :=
  if b.mono = 0 then true
  else
    let sg : Int := if b.mono = 1 then 1 else -1
    let flip := fun (v : Val) => if b.mono = 1 then v else v.negate
    let lo := fun (g : SfuSeg) => ofIntExp (sg * g.c0.toInt) g.seInt
    let hi := fun (g : SfuSeg) => ofIntExp (sg * (g.c0.toInt + g.c1.toInt + g.c2.toInt + g.c3.toInt)) g.seInt
    b.segs.all (fun g =>
      let c1 := sg * g.c1.toInt; let c2 := sg * g.c2.toInt; let c3 := sg * g.c3.toInt
      decide (0 ≤ c1) && decide (0 ≤ c1 + 2 * c2 + 3 * c3) &&
      !(decide (0 < c3) && decide (0 < -c2) && decide (-c2 < 3 * c3) && decide (3 * c1 * c3 < c2 * c2))) &&
    (b.segs.zip (b.segs.drop 1)).all (fun (p, q) => (hi p).le (lo q)) &&
    (match b.segs.head?, b.segs.getLast? with
     | some p, some q =>
       (if b.lowMode then decide (b.mono = 1) && (ofF32 p.brk.toNat).le (lo p) else (flip (ofF32 b.lowVal.toNat)).le (lo p)) &&
       (if b.highMode then decide (b.mono = 1) && (hi q).le b.endVal else (hi q).le (flip (ofF32 b.highVal.toNat)))
     | _, _ => false)

/-- The bank an image loads, or none: TABLE_REJECT (R256). -/
def loadTable (bs : List Byte) (segs mono : Nat) : Option SfuBank :=
  let p := parseTable bs segs mono
  if tableStructOk p.1 p.2 && tableMonoOk p.1 then some p.1 else none

/-! ## Evaluation (R253, R262) -/

/-- floor(v · 2^k) of a non-negative finite value. -/
def floorScaled (v : Val) (k : Int) : Nat :=
  match v with
  | .fin _ m e => if 0 ≤ e + k then m * 2 ^ (e + k).toNat else m / 2 ^ (-(e + k)).toNat
  | _ => 0

/-- The segment with the largest BRK not above z. -/
def segOf (segs : List SfuSeg) (z : Val) : Option SfuSeg :=
  segs.foldl (fun r g => if (ofF32 g.brk.toNat).le z then some g else r) none

def evalNative (g : SfuSeg) (t : Nat) : Val :=
  let t : Int := Int.ofNat t
  let a2 := g.c2.toInt * 2 ^ 24 + g.c3.toInt * t
  let a1 := g.c1.toInt * 2 ^ 48 + a2 * t
  let a0 := g.c0.toInt * 2 ^ 72 + a1 * t
  ofIntExp a0 (g.seInt - 72)

def evalG1 (g : SfuSeg) (t : Nat) : Val :=
  let tau : Val := .fin false t (-24)
  let c := fun (w : Word) => ofF32 w.toNat
  ffma (ffma (ffma (c g.c3) tau (c g.c2)) tau (c g.c1)) tau (c g.c0)

/-- A tail's value: its constant, or the argument itself. A zero of either sign is an exact zero, which rounds to +0 (R253). -/
def sfuTail (identity : Bool) (const : Word) (z : Val) : Val :=
  let v := if identity then z else ofF32 const.toNat
  if v.isZero then .zero else v

/-- The value of a table at an FP32 argument, before its one rounding into a destination (R253, R262). -/
def sfuEval (b : SfuBank) (z : Val) : Val :=
  if z.isNan then .nan
  else if z.lt (b.lo 0) then sfuTail b.lowMode b.lowVal z
  else if b.endVal.le z then sfuTail b.highMode b.highVal z
  else match segOf b.segs z with
    | none => .zero
    | some g =>
      let t := floorScaled (z.add (ofF32 g.brk.toNat).negate) (24 - g.lwInt)
      if b.form.toNat = 0 then evalNative g t else evalG1 g t

/-- Evaluation into FP32 (R255). -/
def sfuEval32 (b : SfuBank) (z : Val) : Val := r32 (sfuEval b z)

/-! ## SFN, SMAX, NORM -/

/-- An instruction that maps rows of IN to rows of OUT, iteration by iteration. DESIGN CHOICE (log 229): OUT may overlap IN, the mask or the
parameter rows within one iteration, as R109 bars overlap between iterations alone; every row is read from the store as it was at the
start, before any row is written. -/
def rowMap (d : Nat) (its : List Nat) (clip : Option Nat) (m : Mem) (g : Nat → List Val → List Val) : Writes :=
  let n := vCols d
  Writes.join (its.map (fun i =>
    let a := ((dSop1 d).iter i).clip clip
    let o := ((dSop2 d).iter i).clip clip
    Writes.join ((List.range a.rows).map (fun r => o.writeRow r n (g r (a.row m r n n))))))

/-- SFN (R263). -/
def sfnWrites (d : Nat) (its : List Nat) (clip : Option Nat) (m : Mem) (b : SfuBank) : Writes :=
  rowMap d its clip m (fun _ xs => xs.map (fun x => sfuEval b (ffma (vPreA d) x (vPreB d))))

def negTwo126 : Val := .fin true 1 126

/-- One softmax row (R264). -/
def smaxRow (b : SfuBank) (preA : Val) (flags : List Bool) (xs : List Val) : List Val :=
  let z := (List.zip flags xs).map (fun (fl, x) => (fl, if fl then negTwo126 else fmul preA x))
  let m := maxOf ((z.filter (fun p => !p.1)).map Prod.snd)
  let e := z.map (fun (fl, v) => (fl, if fl then Val.zero else sfuEval32 b (fsub v m)))
  let l := treeSum (e.map Prod.snd)
  e.map (fun (fl, v) => if fl || l.isZero then .zero else fdiv v l)

/-- The element mask of SMAX (R265). -/
def smaxFlags (d : Nat) (m : Mem) (r : Nat) : List Bool :=
  let n := vCols d
  if vMaskEn d then
    let row := m.readLE (vMaskAddr d + r * (cdiv n 512 * 64)) (cdiv n 8)
    (List.range n).map (fun j => !bit row j)
  else List.replicate n false

/-- SMAX (R264). -/
def smaxWrites (d : Nat) (its : List Nat) (clip : Option Nat) (m : Mem) (b : SfuBank) : Writes :=
  rowMap d its clip m (fun r xs => smaxRow b (vPreA d) (smaxFlags d m r) xs)

/-- A row of FP32 parameters. -/
def f32Row (m : Mem) (a n : Nat) : List Val := (unpack 32 n (m.readLE a (4 * n))).map ofF32

/-- One row of NORM (R266). -/
def normRow (kind : Nat) (eps : Val) (gamma beta s h : Option (List Val)) (xs : List Val) : List Val :=
  let cols := ofInt (Int.ofNat xs.length)
  let d := if kind = 1 ∨ kind = 3 then (let mu := fdiv (treeSum xs) cols; xs.map (fun x => fsub x mu)) else xs
  let v := fdiv (treeSum (d.map (fun x => fmul x x))) cols
  let r := fdiv .one (fsqrt (fadd v eps))
  d.zipIdx.map (fun (x, i) =>
    let y := fmul x r
    let at_ := fun (l : List Val) => (l[i]?).getD .zero
    let y := match gamma, beta with
      | some g, some b => ffma y (at_ g) (at_ b)
      | some g, none => fmul y (at_ g)
      | none, some b => fadd y (at_ b)
      | none, none => y
    match s, h with
    | some s, some h => ffma y (at_ s) (at_ h)
    | _, _ => y)

/-- NORM (R266). -/
def normWrites (d : Nat) (its : List Nat) (clip : Option Nat) (m : Mem) : Writes :=
  let n := vCols d
  let row := fun (en : Bool) (a : Nat) => if en then some (f32Row m a n) else none
  let md := decide (2 ≤ nKind d)
  rowMap d its clip m (fun _ xs =>
    normRow (nKind d) (nEps d) (row (nGammaEn d) (nGamma d)) (row (nBetaEn d) (nBeta d)) (row md (nMod d))
      (row md (nMod d + cdiv n 16 * 64)) xs)

end Sys2Proof.Machine
end

