-- ==== Sys2Proof/Machine/Resample.lean ====
section
/-! DEFINITION. CROP's sampling (R284–R286) and the comparison of REUSE.CHK (R288), as pure functions of the core store. -/

namespace Sys2Proof.Machine

/-- Source coordinate along one axis (R285): box ends, output index and extent, source extent. -/
def cropCoord (lo hi : Val) (i out src : Nat) : Val :=
  let half := Val.fin false 1 (-1)
  let a := fsub hi lo
  let b := fmul a ((ofInt (Int.ofNat i)).add half)
  let c := fdiv b (ofInt (Int.ofNat out))
  let d := fadd lo c
  ffma d (ofInt (Int.ofNat src)) half.negate

/-- Whether a coordinate lies in [−0.5, n − 0.5) (R286). -/
def cropInside (s : Val) (n : Nat) : Bool :=
  (Val.fin true 1 (-1)).le s && s.lt ((ofInt (Int.ofNat n)).add (.fin true 1 (-1)))

/-- floor of a finite value. -/
def Val.floorInt : Val → Int
  | .fin n m e =>
    let x : Int := Int.ofNat m
    let y : Int := if n then -x else x
    if 0 ≤ e then y * 2 ^ e.toNat else y / 2 ^ (-e).toNat
  | _ => 0

def clampIdx (i : Int) (n : Nat) : Nat := (max 0 (min i (Int.ofNat n - 1))).toNat

/-- A source sample, converted exactly (R284). -/
def cropSample (m : Mem) (o : Operand) (ch : Nat) (y x c : Nat) : Val :=
  let b := fmtBits o.fmt / 8
  decodeElem o.fmt (m.readLE (o.addr + y * o.pitch + (x * ch + c) * b) b)

/-- One channel of one sample (R286). -/
def cropValue (nearest : Bool) (extrap : Val) (m : Mem) (o : Operand) (ch : Nat) (sy sx : Val) (c : Nat) : Val :=
  let h := o.rows; let w := o.bstride / 64
  if !cropInside sy h || !cropInside sx w then extrap
  else if nearest then
    let half := Val.fin false 1 (-1)
    cropSample m o ch (clampIdx (sy.add half).floorInt h) (clampIdx (sx.add half).floorInt w) c
  else
    let iy := sy.floorInt; let ix := sx.floorInt
    let fy := sy.add (ofInt (-iy)); let fx := sx.add (ofInt (-ix))
    let v := fun (dy dx : Int) => cropSample m o ch (clampIdx (iy + dy) h) (clampIdx (ix + dx) w) c
    let top := ffma fx (fsub (v 0 1) (v 0 0)) (v 0 0)
    let bot := ffma fx (fsub (v 1 1) (v 1 0)) (v 1 0)
    ffma fy (fsub bot top) top

/-- CROP (R119, R285, R286): output row (b · OH + y) · OW + x. An OUT that overlaps a source, the box list or the
source table changes none of what is read: all is read as it was at the start (DESIGN CHOICE, log 229). -/
def cropWrites (d : Nat) (m : Mem) : Writes :=
  let out := dSop1 d
  Writes.join ((List.range (pBoxes d)).flatMap (fun b =>
    let a := pBoxAddr d + 32 * b
    let y0 := readF32 m a; let x0 := readF32 m (a + 4); let y1 := readF32 m (a + 8); let x1 := readF32 m (a + 12)
    let src := cropSource m d (cropBoxSrc m d b)
    (List.range (pOH d)).flatMap (fun y => (List.range (pOW d)).map (fun x =>
      let sy := cropCoord y0 y1 y (pOH d) src.rows
      let sx := cropCoord x0 x1 x (pOW d) (src.bstride / 64)
      out.writeRow ((b * pOH d + y) * pOW d + x) (pCh d)
        ((List.range (pCh d)).map (cropValue (pNearest d) (pExtrap d) m src (pCh d) sy sx))))))

/-- Whether a pair of elements passes (R288). -/
def reusePair (f : Nat) (th : Val) (x y : Nat) : Bool :=
  decide (x = y) ||
  (let a := decodeElem f x; let b := decodeElem f y
   Val.zero.lt th && !a.isNan && !a.isInf && !b.isNan && !b.isInf && (a.add b.negate).abs.le th)

/-- Whether every pair of a REUSE.CHK passes (R288). -/
def reusePasses (d : Nat) (m : Mem) : Bool :=
  let i := dSop1 d; let p := dSop2 d; let n := uCols d
  (List.range i.rows).all (fun r =>
    (List.zip (i.rowCodes m r n) (p.rowCodes m r n)).all (fun (x, y) => reusePair i.fmt (ofF32 (uTheta d)) x y))

end Sys2Proof.Machine
end

