-- ==== Sys2Proof/Machine/Attention.lean ====
section
/-! DEFINITION. Attention (R202–R217): masks, rotary position, the forward and the backward computation, as pure functions of
the core store. -/

namespace Sys2Proof.Machine

/-! ## Masks (R210, R211) -/

/-- Bit (i, j) of the element bitmap of a block. -/
def maskElem (m : Mem) (mask b k i j : Nat) : Bool := bit (m.readLE (mask + 64 + (4 * b + k) * 512 + 8 * i + j / 8) 1) (j % 8)

/-- Whether the mask excludes key j for query row r (Table 8-3). -/
def maskExcludes (m : Mem) (mask r j : Nat) : Bool :=
  let c := maskCode m mask (r / 64) (j / 64)
  if c = 0 then true
  else if c = 2 then !maskElem m mask (r / 64) (j / 64) (r % 64) (j % 64)
  else false

/-- Whether a mask is malformed for the given extents (R211). -/
def maskMalformed (m : Mem) (mask qRows kRows : Nat) : Bool :=
  (maskBlocks qRows kRows).any (fun (b, k) =>
    let c := maskCode m mask b k
    decide (c = 3) || (decide (c = 2) &&
      (List.range 64).any (fun i =>
        let row := m.readLE (mask + 64 + (4 * b + k) * 512 + 8 * i) 8
        let keep := if 64 * b + i < qRows then min 64 (kRows - 64 * k) else 0
        decide (row / 2 ^ keep ≠ 0))))

/-! ## Rotary position (R212–R214) -/

/-- The rotation of each pair of a row: cs and sn by pair index, and how many axes clamped (R213, R214): a
clamp is counted for each axis of each row's position (log 162). -/
def ropePairs (m : Mem) (r : AttnRec) (pos : Nat) : List (Val × Val) × Nat :=
  let h := ropeHdr m r.rope
  let axis := fun (n off count p : Nat) =>
    let q := if count ≤ p then count - 1 else p
    ((List.range (n / 2)).map (fun i =>
      let a := r.rope + off + (q * (n / 2) + i) * 8
      (readF32 m a, readF32 m (a + 4))),
     if 0 < n ∧ count ≤ p then 1 else 0)
  let t := axis r.ropeT h.offT h.countT (bits pos 15 0)
  let y := axis r.ropeH h.offH h.countH (bits pos 31 16)
  let w := axis r.ropeW h.offW h.countW (bits pos 47 32)
  (t.1 ++ y.1 ++ w.1, t.2 + y.2 + w.2)

/-- Rotate the leading pairs of a row (R213). -/
def rotate : List (Val × Val) → List Val → List Val
  | (cs, sn) :: ps, x0 :: x1 :: xs =>
    ffma x0 cs (r32 (x1.mul sn).negate) :: ffma x1 cs (fmul x0 sn) :: rotate ps xs
  | _, xs => xs
/-- The transpose rotation of a contribution (R216). -/
def rotateBack : List (Val × Val) → List Val → List Val
  | (cs, sn) :: ps, c0 :: c1 :: xs =>
    ffma c0 cs (fmul c1 sn) :: ffma c1 cs (r32 (c0.mul sn).negate) :: rotateBack ps xs
  | _, xs => xs

/-- A value converted to a format and back (R212). -/
def through (f : Nat) (v : Val) : Val := decodeElem f (encodeElem f v).code

/-- The rows of an operand as scored, and the clamps their positions made. -/
def attnRowsOf (m : Mem) (r : AttnRec) (o : Operand) (rope : Bool) (posAddr : Nat) : List (List Val) × Nat :=
  if rope then
    let rows := (List.range o.rows).map (fun i =>
      let p := ropePairs m r (m.readLE (posAddr + 8 * i) 8)
      ((rotate p.1 (o.row m i r.hdim r.hdim)).map (through o.fmt), p.2))
    (rows.map Prod.fst, (rows.map Prod.snd).sum)
  else ((List.range o.rows).map (fun i => o.row m i r.hdim r.hdim), 0)

/-! ## Scores -/

/-- The array's dot product along HDIM, from +0 (R205); blocks wholly beyond HDIM add +0 (DEDUCED, log 92). -/
def dot (a b : List Val) : Val := accBlocks .zero (List.zipWith Val.mul a b) 256

/-- Scores of one query row: (flagged, score) by key (R205, R206). -/
def scores (m : Mem) (r : AttnRec) (row : Nat) (q : List Val) (ks : List (List Val)) : List (Bool × Val) :=
  ks.zipIdx.map (fun (k, j) =>
    if r.maskEn && maskExcludes m r.mask row j then (true, negTwo126) else (false, fmul (dot q k) r.qkScale))

/-- The running state of a query row. -/
structure AttnState where
  m : Val
  l : Val
  o : List Val

/-- Products along the keys of one block, flagged ones +0, added into an accumulator (R37, R206). -/
def keySum (acc : Val) (ps : List (Bool × Val)) (vs : List Val) : Val :=
  accBlocks acc (List.zipWith (fun (p : Bool × Val) v => if p.1 then Val.zero else p.2.mul v) ps vs) 256

/-- One K block for one query row (R205). `vFmt` is V's format; `vs` the value rows. -/
def attnStep (b : SfuBank) (vFmt hdim : Nat) (st : AttnState) (s : List (Bool × Val)) (vs : List (List Val)) : AttnState :=
  let mb := maxOf ((s.filter (fun p => !p.1)).map Prod.snd)
  let mn := st.m.max mb
  let alpha := if st.m = .inf true then Val.zero else sfuEval32 b (fsub st.m mn)
  let p := s.map (fun (fl, x) => (fl, if fl then Val.zero else through vFmt (sfuEval32 b (fsub x mn))))
  let sum := treeSum (p.map Prod.snd ++ List.replicate (256 - p.length) .zero)
  { m := mn, l := ffma alpha st.l sum,
    o := (List.range hdim).map (fun c =>
      keySum (fmul alpha ((st.o[c]?).getD .zero)) p (vs.map (fun v => (v[c]?).getD .zero))) }

/-- The stored state of a query row (R203). -/
def attnLoad (d : Nat) (m : Mem) (r : AttnRec) (o : Operand) (i row : Nat) : AttnState :=
  if aFirst d then ⟨.inf true, .zero, List.replicate r.hdim .zero⟩
  else
    let a := r.stats + i * r.stStride + 8 * row
    ⟨readF32 m a, readF32 m (a + 4), f32Row m (o.addr + row * o.pitch) r.hdim⟩

/-- What a query row writes: its statistics, and its running or final output (R203, R205, R207). -/
def attnStore (d : Nat) (r : AttnRec) (o : Operand) (i row : Nat) (st : AttnState) : Writes :=
  let w := writeF32s (r.stats + i * r.stStride + 8 * row) [st.m, st.l]
  if aLast d then w.append (o.writeRow row r.hdim (st.o.map (fun x => if st.l.isZero then .zero else fdiv x st.l)))
  else w.append (writeF32s (o.addr + row * o.pitch) st.o)

/-- The forward computation over all iterations, sources that an output overlaps being read as they were (log 229), with the clamps it counts (R205, R214): none where every block is skip, since
nothing is then loaded (R209). -/
def attnWrites (d : Nat) (its : List Nat) (clip : Option Nat) (m : Mem) (b : SfuBank) : Writes × Nat :=
  let r := attnRec m d
  let parts := its.map (fun i =>
    let q := ((dSop1 d).iter i).clip clip; let k := (dSop2 d).iter i; let v := (dSop3 d).iter i
    let o := ((dSop4 d).iter i).clip clip
    let qs := attnRowsOf m r q (aRopeQ d) r.qpos
    let ks := attnRowsOf m r k (aRopeK d) r.kpos
    let vs := (List.range v.rows).map (fun j => v.row m j r.hdim r.hdim)
    (Writes.join (qs.1.zipIdx.map (fun (x, row) =>
      attnStore d r o i row (attnStep b v.fmt r.hdim (attnLoad d m r o i row) (scores m r row x ks.1) vs))),
     if attnAllSkip m r q.rows k.rows then 0 else qs.2 + ks.2))
  (Writes.join (parts.map Prod.fst), (parts.map Prod.snd).sum)

/-! ## The backward computation (R215–R217) -/

/-- p and ds of one query row by key (R215): (live, p, ds) with p and ds converted to Q's format. -/
def attnBwdRow (b : SfuBank) (r : AttnRec) (qFmt : Nat) (mm l delta : Val) (s : List (Bool × Val)) (dos : List Val)
    (vs : List (List Val)) : List (Bool × Val × Val) :=
  let dead := decide (mm = .inf true) || l.isZero
  (s.zip vs).map (fun (sc, v) =>
    if sc.1 || dead then (false, .zero, .zero)
    else
      let p := fdiv (sfuEval32 b (fsub sc.2 mm)) l
      let ds := fmul (fmul p (fsub (dot dos v) delta)) r.qkScale
      (true, through qFmt p, through qFmt ds))

/-- A sum over rows or keys on the array from +0, products of dead or flagged pairs +0 (R215, R216). -/
def liveSum (n : Nat) (ps : List (Bool × Val)) (xs : List (List Val)) : List Val :=
  (List.range n).map (fun c =>
    accBlocks .zero (List.zipWith (fun (p : Bool × Val) (x : List Val) => if p.1 then p.2.mul ((x[c]?).getD .zero) else Val.zero) ps xs) 256)

/-- Add contributions to FP32 rows, each with one rounding (R216). -/
def addRow (m : Mem) (a : Nat) (cs : List Val) (replace : Bool) : Writes :=
  writeF32s a (if replace then cs else List.zipWith fadd (f32Row m a cs.length) cs)

/-- The backward computation over all iterations, with the clamps it counts; sources that an output overlaps are read as they were (log 229). -/
def attnBwdWrites (d : Nat) (its : List Nat) (clip : Option Nat) (m : Mem) (b : SfuBank) : Writes × Nat :=
  let r := attnRec m d
  let g := gradPitch r.hdim
  let parts := its.map (fun i =>
    let q := ((dSop1 d).iter i).clip clip; let k := (dSop2 d).iter i; let v := (dSop3 d).iter i
    let o := ((dSop4 d).iter i).clip clip
    let qs := attnRowsOf m r q (aRopeQ d) r.qpos
    let ks := attnRowsOf m r k (aRopeK d) r.kpos
    let vs := (List.range v.rows).map (fun j => v.row m j r.hdim r.hdim)
    let dos := (List.range q.rows).map (fun x => o.row m x r.hdim r.hdim)
    let rows := qs.1.zipIdx.map (fun (x, row) =>
      let a := r.stats + i * r.stStride + 8 * row
      attnBwdRow b r q.fmt (readF32 m a) (readF32 m (a + 4)) (readF32 m (r.delta + i * r.stStride + 4 * row))
        (scores m r row x ks.1) ((dos[row]?).getD []) vs)
    let col := fun (j : Nat) (sel : Bool × Val × Val → Val) =>
      rows.map (fun x => match x[j]? with
        | some e => (e.1, sel e)
        | none => (false, Val.zero))
    let back := fun (rope : Bool) (posAddr n : Nat) (c : List Val) =>
      if rope then rotateBack (ropePairs m r (m.readLE (posAddr + 8 * n) 8)).1 c else c
    let dv := (List.range v.rows).map (fun j =>
      addRow m (r.dv + i * v.bstride + j * g) (liveSum r.hdim (col j (fun e => e.2.1)) dos) false)
    let dk := (List.range k.rows).map (fun j =>
      addRow m (r.dk + i * k.bstride + j * g)
        (back (aRopeK d) r.kpos j (liveSum r.hdim (col j (fun e => e.2.2)) qs.1)) false)
    let dq := rows.zipIdx.map (fun (x, row) =>
      addRow m (r.dq + i * q.bstride + row * g)
        (back (aRopeQ d) r.qpos row (liveSum r.hdim (x.map (fun e => (e.1, e.2.2))) ks.1)) (aFirst d))
    (Writes.join (dv ++ dk ++ dq), if attnAllSkip m r q.rows k.rows then 0 else qs.2 + ks.2))
  (Writes.join (parts.map Prod.fst), (parts.map Prod.snd).sum)

end Sys2Proof.Machine
end

