-- ==== Sys2Proof/Machine/TileStart.lean ====
section
/-! DEFINITION. The start of a tile instruction (R72): its checks, the claim (R129–R131), the limits of Table 5-3, the weight
load (R28, R113, R279), tabs (R296–R299), and the feeder's fill (R271–R274). A start whose conditions do not hold leaves the
state as it is. -/

namespace Sys2Proof.Machine

/-! ## Legality that needs the state -/

/-- Whether a header's counter identifiers name counters of the team (R85, R91). -/
def idsOk (job : Job) (d : Nat) : Bool :=
  (decide (dWaitKind d ≠ 1) || (job.syncTarget (BitVec.ofNat 16 (dWaitId d))).isSome) &&
  (decide (dPostKind d ≠ 1) || (job.syncTarget (BitVec.ofNat 16 (dPostId d))).isSome) &&
  (decide (dWaitKind d ≠ 2) || (job.progTarget (BitVec.ofNat 16 (dWaitId d))).isSome) &&
  (decide (dPostKind d ≠ 2) || (job.progTarget (BitVec.ofNat 16 (dPostId d))).isSome)

/-- The checks an instruction meets when it issues (R9, R101–R122, R289, R336); `ad` is the adapter entry that an MMA.LA names, none where
it is not read. Attention cannot lie in a reuse span: R216 says so of R122 (DEDUCED, log 94). -/
def State.tileLegalWith (s : State) (c : Nat) (job : Job) (x : Core) (e : QEntry) (f : Fam) (ad : Option Nat) : Bool :=
  let d := e.d
  headerLegal f d && bodyLegal f d ((ad.map (fun r => fmtCycles (adFmt r))).getD 0) &&
  (!dStreamEn d || job.streams.contains (dStream d)) && idsOk job d &&
  (decide (f ≠ .bar) || (match job.barrier? (bChan d) with
    | some b => b.isMember (rankIn job.team (clusterOf c)) (c % 16)
    | none => false)) &&
  (!f.isExch || exchLegal f d (s.routeEntry (xGroup d)) (dieOfCore c) job.groups) &&
  ad.all (fun r => decide (adState r = 1 ∨ adState r = 2) && decide (laUt d < adTiles r) && pairOk (laT d).fmt (adFmt r) &&
    decide (rowBytes (laT d).fmt (adRank r) ≤ (laT d).pitch)) &&
  (decide (f ≠ .reuseChk) || decide (uEntry d < s.dv 0x0E00 3)) &&
  (match x.inBlock e.ord.toNat with
   | some _ => decide (f ≠ .reuseChk) && (!(f.onM || f.onX) || decide (f = .move)) && !f.isAttn && !dClaim d
   | none => true) &&
  (dClaim d || !batchOverlap ((List.range (dBatch d + 1)).map (fun i => tileRanges f d i none (s.rangeArg f d))))
/-- The adapter entry an instruction names. -/
def State.adapterOf (s : State) (f : Fam) (d : Nat) : Option Nat := if f = .mmaLa then some (s.adapterRec (laAdapter d)) else none
/-- The checks of an instruction that is to execute. -/
def State.tileLegal (s : State) (c : Nat) (job : Job) (x : Core) (e : QEntry) (f : Fam) : Bool :=
  s.tileLegalWith c job x e f (s.adapterOf f e.d)

/-- The checks of the records an instruction reads, made when it starts (R9). -/
def recLegal (f : Fam) (m : Mem) (d general : Nat) (its : List Nat) : Bool :=
  if f.isAttn then attnRecLegal f m d general && !batchOverlap (its.map (fun i => (tileRanges f d i none 0).append (recordRanges f m d i none)))
  else if f = .crop then cropRecLegal m d general
  else true

/-! ## Waits and ports -/

/-- Whether a header wait is satisfied (R87, R93, R103). -/
def State.waitOk (s : State) (job : Job) (d : Nat) : Bool :=
  match dWaitKind d with
  | 1 => match job.syncTarget (BitVec.ofNat 16 (dWaitId d)) with
    | some (k, i) => decide (dWaitVal d ≤ (s.syncVal k i).toNat)
    | none => false
  | 2 => match job.progTarget (BitVec.ofNat 16 (dWaitId d)) with
    | some (c, i) => progMet (s.progVal c i) (BitVec.ofNat 32 (dWaitVal d))
    | none => false
  | _ => true

/-- Whether ports are free (R71, R72). -/
def Core.portsFree (x : Core) (ports : Nat) : Bool :=
  x.queue.all (fun e => !e.isRunning || (match e.fam with
    | some f => decide (f.ports &&& ports = 0)
    | none => true))

/-- Whether the bank rules hold (R117, R260): a TBL.LOAD waits for earlier instructions that name its bank, unretired or on
tab; an instruction that names a bank waits for an earlier TBL.LOAD into it. -/
def bankClear (ahead : List QEntry) (f : Fam) (d : Nat) : Bool :=
  !f.namesBank || ahead.all (fun e => match e.fam with
    | some g => !(g.namesBank && decide (dBank e.d = dBank d) && (decide (f = .tblLoad) || decide (g = .tblLoad)))
    | none => true)

/-- The latest open tab that precedes an entry (R297). -/
def Core.tabFor (x : Core) (ord : Nat) : Option Tab := (x.tabs.filter (fun t => decide (t.id < ord))).getLast?

/-- Whether the depth and the held posts of Table 12-1 leave room for an instruction that goes on tab t. -/
def State.tabRoom (s : State) (x : Core) (f : Fam) (d : Nat) (t : Option Tab) : Bool :=
  match t with
  | none => true
  | some _ => decide (x.onTab < s.dv 0x0E10 2) && ((decide (dPostKind d = 0) && decide (f ≠ .bar)) || decide (x.heldPosts < 16))
/-- Whether an instruction may start as far as tabs go (Tables 12-1, 12-2); no contribution of ATTN.BWD is on tab (R216). -/
def State.tabAllows (s : State) (x : Core) (f : Fam) (d : Nat) (t : Option Tab) : Bool :=
  (decide (f ≠ .reuseChk) || decide (x.tabs.length < 4)) &&
  (match t with
   | none => true
   | some _ => decide (f ≠ .tblLoad) && decide (f ≠ .scatKv) && decide (f ≠ .attnBwd) && !f.onX && (decide (f ≠ .move) || vDstCs d)) &&
  s.tabRoom x f d t

/-- Put an entry on tab: it is marked, and the lines it writes are logged; none where its write ranges, in lines, exceed the free log space
(R298). A line that its tab has logged already is asked for as the others are, and not logged a second time (R299; DEDUCED, log 207). -/
def State.enterTab (s : State) (c : Nat) (job : Job) (e : QEntry) (t : Option Tab) (cw : List Rng) (acc : List Nat) : Option State :=
  match t with
  | none => some s
  | some t =>
    let x := s.core c
    let ls := newLines t (linesOf cw) acc
    if job.tabBytes / 64 < x.logUsed + (linesOf cw).length + 16 * acc.length then none
    else some ((s.modCore c (fun x => { x with
      tabs := x.tabs.map (fun u => if u.id = t.id then { u with log := u.log ++ ls.map (logLine x) } else u) })).modEntry c e.ord
        (fun q => { q with tab := some t.id }))

/-- Finish an entry at its start, with a status and no writes. -/
def State.finishAt (s : State) (c : Nat) (e : QEntry) (t : Option Tab) (istat : Byte) : State :=
  (s.endWait c e.ord).modEntry c e.ord (fun q => { q with tab := t.map Tab.id, waitMet := true, waitFrom := none, phase := .done istat })

/-! ## The claim (R129–R131, Table 5-3) -/

/-- What a claiming instruction finds; `code` is the limit a first member breaks (7 or 8 of Table 5-3, 0 for none). -/
inductive Look where
  | settled (j : Option Nat) (clip : Option Nat)
  | member (j : Option Nat) (clip : Option Nat)
  | first (j : Option Nat) (clip : Option Nat) (k off chain : Nat) (code : Byte)
  | wait

/-- Rows an index leaves valid (R131). -/
def rValid (r j : Nat) : Option Nat := if bits r 95 64 = 0 then none else some (bits r 95 64 - j * bits r 111 96)

/-- Whether a record breaks a limit of code 0x08 (Table 5-3, R164). The place of its claim table is asked of an empty one too (DESIGN
CHOICE, log 205). -/
def workBad (r : Nat) : Bool :=
  let limit := bits r 63 32; let ct := bits r 147 128 * 64
  decide (65536 < limit) || decide (bits r 127 112 = 0) || (decide (bits r 111 96 = 0) && decide (bits r 95 64 ≠ 0)) ||
  decide (ct < 0x2000) || decide (0x100000 < ct + cdiv limit 8)

/-- What a claiming instruction finds in its counter (R129–R131). A chain whose claim found the counter exhausted counts among the
four open claims, and a fifth first member is a fault of code 7 before its record is read, also where that counter is exhausted
(DESIGN CHOICE, log 148). -/
def State.lookClaim (s : State) (job : Job) (x : Core) (e : QEntry) : Look :=
  let d := e.d
  if !dClaim d then .settled none none
  else if e.claimed then .settled e.claim e.clip
  else
    let (k, off, r) := s.workRec job (dWork d)
    match x.claims.find? (fun o => o.work == dWork d) with
    | some o =>
      if o.left = 0 then .wait
      else if o.exhausted then .member none none else .member (some o.index) (rValid r o.index)
    | none =>
      let next := bits r 31 0
      let j := if next < bits r 63 32 then some next else none
      .first j (j.bind (rValid r)) k off (bits r 127 112) (if 4 ≤ x.claims.length then 7 else if workBad r then 8 else 0)

/-- Make the claim, or take the open one's index. -/
def State.makeClaim (s : State) (c : Nat) (e : QEntry) (l : Look) : State :=
  let w := dWork e.d
  match l with
  | .member j clip =>
    let last := (s.core c).claims.any (fun o => o.work == w && o.left == 1)
    (s.modCore c (fun x => { x with claims := x.claims.map (fun o => if o.work = w then { o with left := o.left - 1 } else o) })).modEntry c e.ord
      (fun q => { q with claimed := true, claim := j, clip := clip, chainEnd := last })
  | .first j clip k off chain _ =>
    let s := match j with
      | some n => (s.scWrite k off 4 (n + 1)).bumpCluster (clusterOf c) 15 1
      | none => s
    let s := (s.bumpCluster k 5 1).countAtomic k
    (s.modCore c (fun x => { x with claims := x.claims ++ [⟨w, j.getD 0, chain - 1, j.isNone⟩] })).modEntry c e.ord
      (fun q => { q with claimed := true, claim := j, clip := clip, chainEnd := decide (chain = 1) })
  | _ => s

/-- A skipped member of an open chain counts as one of its members, also where its claim found the counter exhausted; one that would open a
chain counts as none, and the next claiming instruction opens it (DEDUCED, log 19). -/
def State.skipClaim (s : State) (c : Nat) (e : QEntry) : State :=
  if !dClaim e.d || e.claimed then s
  else match (s.core c).claims.find? (fun o => o.work == dWork e.d && decide (0 < o.left)) with
    | some o => s.makeClaim c e (.member (if o.exhausted then none else some o.index) none)
    | none => s

/-! ## Limits (Table 5-3) -/

def pastGeneral (general : Nat) (r : IterRngs) : Bool := (r.cr ++ r.cw).any (fun x => decide (general < x.2))

/-- The lowest code an instruction overflows, 0 where none (R67, R142, R271). A CONV that would retire EMPTY still overflows the general
region with code 0x01, and raises neither 0x02 nor 0x03 (DESIGN CHOICE, log 208). -/
def overflowCode (f : Fam) (job : Job) (d : Nat) (r : IterRngs) (empty : Bool) : Byte :=
  if pastGeneral job.general r then 1
  else if f.isConv && !empty then
    if decide (8192 < cInW d) || decide (16 < cSpanV d) || decide (16 < (dBatch d + 1) * cSpanV d) ||
       decide (job.slotBytes < cInW d * convPosBytes d) then 2
    else if 16 < cSpanH d then 3 else 0
  else 0

/-- Whether an instruction's valid output is empty (R108, R131, R270). -/
def emptyOutput (f : Fam) (d : Nat) (clip : Option Nat) : Bool :=
  match f with
  | .mma | .mmaLa | .mmaRs | .mmaAg => decide (((dOp1 d).clip clip).rows = 0)
  | .attnFwd | .attnBwd | .attnRelay | .sfn | .norm | .smax => decide (((dSop1 d).clip clip).rows = 0)
  | .conv | .convDw => decide (convValid d clip = 0)
  | .move => decide (clip = some 0)
  | .gath => decide ((dSop1 d).rows = 0)
  | .scatKv => decide ((dSop1 d).rows = 0)
  | _ => false

/-- A line the fill needs lies at or beyond IN.ROWS (R272). -/
def convShort (d : Nat) : Bool := (convLines d).any (fun y => decide ((dOp1 d).rows ≤ y - convFirst d))

/-! ## Weights (R28, R63, R113, R189–R192, R278, R279) -/

def keptFor (f : Fam) (d : Nat) : KeptTile := ⟨mWAddr d, mWFmt d, if f.isConv then cTiles f d else 1, f.isConv, []⟩
/-- Whether the weight buffers hold what an instruction applies. -/
def keptHit (f : Fam) (d : Nat) (k : Option KeptTile) : Bool :=
  match k with
  | none => false
  | some k => decide ({ k with bytes := [] } = keptFor f d) && (f.isConv || mUseKept d)

/-- What loading the weights comes to: nothing, a tile by a read or from the shadow buffer, or no start. -/
inductive Load where
  | none
  | tile (k : KeptTile) (read : Bool)
  | stop (s : State)

/-- A fused instruction whose compute part is done loads no weights: it issues its exchange part alone (R347). -/
def State.loadWeights (s : State) (c : Nat) (e : QEntry) (f : Fam) (t : Option Tab) : Load :=
  let d := e.d
  if !(f.isMma || f.isConv) || (f.isExch && e.computed) || keptHit f d (s.core c).kept then .none
  else
    let k := keptFor f d
    let n := k.tiles * tileBytes k.fmt
    match (s.core c).shadow.filter (fun x => decide (x.1 = e.ord)) with
    | some x => .tile x.2 false
    | none => match s.weightGate k.addr n with
      | .failed => .stop (s.finishAt c e t iTierError)
      | .wait => .stop (s.beginWait c e)
      | .ok => match s.memRead k.addr n with
        | .ok bs => .tile { k with bytes := bs } true
        | .error .bus => .stop (s.coreAccFault c e.ord .bus)
        | .error (.ue a) =>
          if s.slotsAt a 1 ≠ [] then .stop (((s.refetch a).countUe a).beginWait c e)
          else .stop (s.coreAccFault c e.ord (.ue a))

/-- The first instruction of a core's queue that has not started. -/
def Core.candidate (x : Core) : Option QEntry := x.queue.find? QEntry.isQueued

/-- Whether what runs on a core leaves a weight buffer for an instruction's load: an MMA.LA's adapter tile, an attention's K and V and a
filter of several tiles hold the shadow buffer (R114, R116, R278), and a filter of several tiles needs both buffers. -/
def Core.bufferFree (x : Core) (f : Fam) (d : Nat) : Bool :=
  x.queue.all (fun q => !q.isRunning || (match q.fam with
    | some g => !(g.isAttn || decide (g = .mmaLa) || (g.isConv && decide (1 < cTiles g q.d))) &&
        !(g.onA && f.isConv && decide (1 < cTiles f d))
    | none => true))
/-- Whether an instruction that is to start next is to execute, and waits for nothing but its ports, its ranges, its claim and its
weights, which a buffer can take: its load is pending then (DEDUCED, log 165). A fused instruction that is to issue its exchange part alone
has none (R347). -/
def State.loadPends (s : State) (c : Nat) (job : Job) (e : QEntry) (f : Fam) : Bool :=
  let x := s.core c
  x.bufferFree f e.d && !(f.isExch && e.computed) && x.restore.isEmpty && !x.shadow.any (fun p => decide (p.1 = e.ord)) && s.tileLegal c job x e f &&
  !(dStreamEn e.d && s.streamSkips job (dStream e.d)) && x.blocks.all (fun b => b.decided || decide (e.ord.toNat ≤ b.chk)) &&
  (x.skipBlock e.ord.toNat).isNone && (e.waitMet || s.waitOk job e.d) && (!e.claimed || e.claim.isSome) && !emptyOutput f e.d e.clip
/-- The load a core has pending for a tile: of its next instruction (R125). -/
def State.pendingLoad (s : State) (c : Nat) (k : KeptTile) : Option (Word × KeptTile) :=
  match s.issueJob c, (s.core c).candidate with
  | some job, some e => match e.fam with
    | some f =>
      let w := keptFor f e.d
      if (f.isMma || f.isConv) && decide (w.addr = k.addr ∧ w.fmt = k.fmt ∧ w.tiles = k.tiles) && !keptHit f e.d (s.core c).kept &&
         s.loadPends c job e f then some (e.ord, { w with bytes := k.bytes }) else none
    | none => none
  | _, _ => none
/-- A read of a weight tile serves every load of it that is pending in the cluster (R125). -/
def State.mergeLoads (s : State) (c : Nat) (k : KeptTile) : State :=
  let cs := (coresOf (clusterOf c)).filter (fun o => decide (o ≠ c) && (s.pendingLoad o k).isSome)
  (cs.foldl (fun t o => t.modCore o (fun x => { x with shadow := s.pendingLoad o k })) s).bumpCluster (clusterOf c) 14 cs.length
/-- A weight tile comes by a read of its own: it is counted, and serves the cluster's other pending loads of it. -/
def State.tileRead (s : State) (c : Nat) (k : KeptTile) : State :=
  (((s.readDone k.addr k.bytes.length).countBurst (clusterOf c) 10 k.addr k.bytes.length).bumpCluster (clusterOf c) 13 1).mergeLoads c k

/-! ## REUSE.CHK (R288–R297, R305) -/

/-- TAB_STATE (R307): 0 OFF, 1 ON, 2 DRAINING. -/
def State.tabState (s : State) : Nat :=
  if s.dv 0x0E10 1 = 1 then 1 else if s.cores.any (fun p => !p.2.tabs.isEmpty) then 2 else 0
/-- The predictor of a reuse site in effect: 0 NEVER, 1 LAST, 2 HISTORY (R305, R306, Table 12-5). -/
def State.sitePred (s : State) (site : Nat) : Nat :=
  if s.dv 0x0E10 7 ≠ 0 then s.dv 0x0E10 7 - 1 else mget 2 s.pwr.profile.sites site

/-- Start a REUSE.CHK: its valid bit is read, and a tab opens where one may (R296). -/
def State.startReuse (s : State) (c : Nat) (job : Job) (e : QEntry) : State :=
  let d := e.d
  let en := uEntry d
  match s.memRead (s.dv 0x0E00 1 + en / 8) 1 with
  | .error x => s.coreAccFault c e.ord x
  | .ok bs =>
    let valid := bit (leNat bs) (en % 8)
    let pr := s.sitePred (bits en 23 20)
    let opens := valid && decide (job.tabBytes ≠ 0) && decide (s.tabState = 1) && decide (pr ≠ 0)
    let p := mget {} (s.core c).predictors (en % 1024)
    let pred := if pr = 1 then p.last else decide (2 ≤ p.count)
    let blk : ReuseBlock := ⟨e.ord.toNat, e.ord.toNat + uSpan d, e.desc, opens && pred, opens || !valid⟩
    let s := s.modCore c (fun x => { x with
      blocks := x.blocks.filter (fun b => decide (b.chk ≠ e.ord.toNat)) ++ [blk]
      tabs := if opens then x.tabs ++ [{ id := e.ord.toNat, pred := pred }] else x.tabs })
    let s := if opens then s.bumpCore c 12 1 else s
    let s := s.readDone (s.dv 0x0E00 1 + en / 8) 1
    s.modEntry c e.ord (fun q => { q with
      phase := .running, computed := valid, outcome := if valid then none else some false })

/-! ## The feeder (R271–R274) -/

/-- Lines to fill, with their slots and tags: (slot, tag). -/
def convFills (f : Fam) (d : Nat) (its : List Nat) (t : Option Nat) : List (Nat × LineTag) :=
  if f.isConv then
    its.zipIdx.flatMap (fun (i, p) => (convLines d).map (fun (y : Nat) =>
      (convSlot d p (Int.ofNat y),
       { src := ((dOp1 d).iter i).addr + (y - convFirst d) * (dOp1 d).pitch, fmt := (dOp1 d).fmt, inW := cInW d, pw := cPW d,
         sw := cSW d, dw := cDW d, kw := cKW d, tab := t })))
  else []
def sameTag (a b : LineTag) : Bool := decide ({ a with tab := none } = { b with tab := none })
/-- Whether a slot holds a line already. -/
def Core.holdsLine (x : Core) (p : Nat × LineTag) : Bool :=
  match x.tags.find? (fun q => q.1 == p.1) with
  | some q => sameTag q.2 p.2
  | none => false
/-- The lines an instruction still needs filled. -/
def Core.convNeed (x : Core) (f : Fam) (d : Nat) (its : List Nat) : List (Nat × LineTag) :=
  (convFills f d its none).filter (fun p => !x.holdsLine p)

/-- Fill one slot: the positions of the line that some output column's window reads. -/
def fillSlot (x : Core) (job : Job) (d : Nat) (p : Nat × LineTag) : Core :=
  if x.holdsLine p then x
  else
    let n := convPosBytes d
    { x with
      store := (convPositions d).foldl (fun m pos =>
        m.writeBytes (job.lbBase + p.1 * job.slotBytes + pos * n) (x.store.readBytes (p.2.src + pos * n) n)) x.store
      tags := mset x.tags p.1 p.2 }
/-- A stop before the start abandons the fills of what is queued, and clears their tags (R273, R274). -/
def Core.abandonFills (x : Core) : Core :=
  let gone := (x.queue.filter (fun e => e.isQueued && e.filled)).flatMap (fun e => match e.fam with
    | some f => (convFills f e.d e.its none).map Prod.fst
    | none => [])
  { x with
    tags := x.tags.filter (fun p => !gone.contains p.1)
    queue := x.queue.map (fun e => if e.isQueued then { e with filled := false } else e) }

/-! ## Starting -/

/-- The part of a range outside another. -/
def outside (x : Rng) (lo hi : Nat) : List Rng := [(x.1, min x.2 lo), (max x.1 hi, x.2)].filter (fun r => decide (r.1 < r.2))
/-- The pieces of a range, one in each 64-byte line it meets. -/
def linePieces (r : Rng) : List Rng := (linesOf [r]).map (fun l => (max r.1 (64 * l), min r.2 (64 * l + 64)))
/-- Keep what a span's scratch holds, but for the lines its tab has logged: bytes of the core store, and whole accumulator rows. -/
def Tab.keepScratch (u : Tab) (x : Core) (rs : List Rng) (rows : List Nat) : Tab :=
  let ps := (rs.flatMap linePieces).filter (fun p => !u.log.any (fun g => !g.acc && g.line == p.1 / 64))
  let qs := rows.filter (fun r => !u.log.any (fun g => g.acc && g.line == 16 * r))
  { u with scratch := u.scratch ++ ps.map (fun p => ⟨false, p.1 / 64, x.store.readBytes p.1 (p.2 - p.1), p.1 % 64⟩) ++
      qs.map (fun r => ⟨true, 16 * r, x.acc.readBytes (1024 * r) 1024, 0⟩) }
/-- What a skipped instruction would have written of the core store outside the block output, row by row (R291). -/
def scratchRngs (f : Fam) (d : Nat) (b : ReuseBlock) : List Rng :=
  let lo := (dSop4 b.desc.toNat).addr
  ((List.range (dBatch d + 1)).flatMap (spanWrites f d)).flatMap (fun r => outside r lo (lo + uOutBytes b.desc.toNat))
/-- The line-buffer slots a skipped convolution would have filled, with their bytes. -/
def scratchSlots (job : Job) (f : Fam) (d : Nat) : List (Nat × Rng) :=
  (convFills f d (List.range (dBatch d + 1)) none).map (fun p =>
    (p.1, job.lbBase + p.1 * job.slotBytes, job.lbBase + (p.1 + 1) * job.slotBytes))
/-- Whether no earlier instruction still runs that reads or writes what a skipped one leaves unspecified (log 97). -/
def State.scratchFree (s : State) (c : Nat) (ahead : List QEntry) (rs : List Rng) (rows : List Nat) : Bool :=
  let run := ahead.filter QEntry.isRunning
  s.clearOf c run { cw := rs } && (rows.isEmpty || run.all (fun q => match q.fam with
    | some f => !f.onA
    | none => true))
/-- A skipped instruction leaves what it would have written, other than the block output, unspecified (R291, log 97); on tab, what
was there comes back if the tab voids. -/
def State.skipScratch (s : State) (c : Nat) (job : Job) (e : QEntry) (f : Fam) (b : ReuseBlock) (t : Option Tab) : State :=
  let rs := scratchRngs f e.d b
  let rows := accRowsOf f e.d (List.range (dBatch e.d + 1)) none
  if rs.isEmpty && rows.isEmpty then s
  else
    let s := match t with
      | none => s
      | some t => s.modCore c (fun x => { x with
          tabs := x.tabs.map (fun (u : Tab) => if u.id = t.id then u.keepScratch x rs rows else u) })
    s.forgetStore c rs rows (scratchSlots job f e.d)

/-- The copy of PREV_OUT, as the store m holds it, into the block output, which stands in place of a skipped span (R290). -/
def State.copyOut (s : State) (c : Nat) (m : Mem) (r : IterRngs) : State :=
  match r.cr.head?, r.cw.head? with
  | some a, some w => s.putStore c w.1 (m.readBytes a.1 (a.2 - a.1))
  | _, _ => s

/-- An instruction of a stream that is parked or has ended retires with SKIPPED (R105), within the depth and the held posts of Table
12-1. The last one of a skipped span leaves the core its copy, on port M; where the span is not decided yet, the copy is left to the
REUSE.CHK (State.decideChk). -/
def State.startSkipped (s : State) (c : Nat) (job : Job) (x : Core) (e : QEntry) (f : Fam) : State :=
  let t := x.tabFor e.ord.toNat
  let r := match x.skipBlock e.ord.toNat with
    | some b => if e.ord.toNat = b.last then copyRanges b.desc.toNat else {}
    | none => {}
  let ahead := (x.queue.takeWhile (fun q => decide (q.ord ≠ e.ord))).filter QEntry.inFlight
  let done := fun (u : State) => (u.skipClaim c e).finishAt c e t iSkipped
  if !s.tabRoom x f e.d t then s
  else if r.cw.isEmpty then done s
  else if !(x.portsFree 4 && s.clearOf c ahead r) then s
  else if pastGeneral job.general r then s.coreFault c stOverflow 1 e.ord
  else match s.enterTab c job e t r.cw [] with
    | none => s
    | some s => done (s.copyOut c x.store r)

/-- Start an instruction of a skipped span (R290): it waits as its header says, then is done; the last of the span makes the
copy, on port M. -/
def State.startSkip (s : State) (c : Nat) (job : Job) (x : Core) (e : QEntry) (f : Fam) (b : ReuseBlock) (ahead : List QEntry)
    (done : State → State) : State :=
  let t := x.tabFor e.ord.toNat
  let r := if e.ord.toNat = b.last then copyRanges b.desc.toNat else {}
  if !r.cw.isEmpty && !(x.portsFree 4 && s.clearOf c ahead r) then s
  else if !s.scratchFree c ahead (scratchRngs f e.d b) (accRowsOf f e.d (List.range (dBatch e.d + 1)) none) then s
  else if pastGeneral job.general r then s.coreFault c stOverflow 1 e.ord
  else match s.enterTab c job e t r.cw [] with
    | none => s
    | some s =>
      let s := s.skipScratch c job e f b t
      done (s.copyOut c x.store r)

/-- Start a sync instruction (R97, R103, R121): WAIT and POST are done; BAR arrives, or holds its arrival on tab. -/
def State.startSync (s : State) (c : Nat) (job : Job) (e : QEntry) (f : Fam) (t : Option Tab) : State :=
  if f = .bar then
    let s := s.modEntry c e.ord (fun q => { q with arrived := true, waitMet := true, tab := t.map Tab.id })
    match t with
    | none => s.barArrive job.id (bChan e.d) (rankIn job.team (clusterOf c)) (c % 16)
    | some t => s.modCore c (fun x => { x with
        tabs := x.tabs.map (fun u => if u.id = t.id then { u with held := u.held ++ [.arrival (bChan e.d) e.ord] } else u) })
  else s.finishAt c e t iOk

/-- Put an instruction on its ports. An attention instruction loads K and V into the weight buffers, which ends what they keep,
unless every block of its mask is skip (R113, R209) or its compute part is done (R347). -/
def State.launch (s : State) (c : Nat) (job : Job) (e : QEntry) (f : Fam) (t : Option Tab) (its : List Nat) (r : IterRngs)
    (k : Load) : State :=
  match s.enterTab c job e t r.cw (accRowsOf f e.d its e.clip) with
  | none => s
  | some s =>
    let m := (s.core c).store
    let s := match k with
      | .tile k read =>
        let s := s.modCore c (fun x => { x with kept := some k, shadow := none })
        if read then s.tileRead c k else s
      | _ => if f.isAttn && !e.computed && !attnAllSkip m (attnRec m e.d) ((dSop1 e.d).clip e.clip).rows (dSop2 e.d).rows then
          s.modCore c (fun x => { x with kept := none, shadow := none }) else s
    if f = .reuseChk then s.startReuse c job e
    else ((s.openOp c job e f).endWait c e.ord).modEntry c e.ord (fun q => { q with phase := .running, waitMet := true, waitFrom := none })

/-- Whether an instruction is illegal by what it meets at its start (R9, R142): a line beyond IN.ROWS (R272), its records, an empty
bank or one of the other form (R258), an XSEQ in use (R337), a gather region or destination out of its place (R340). -/
def State.startIllegal (s : State) (c : Nat) (job : Job) (e : QEntry) (f : Fam) (its : List Nat) (clip : Option Nat) (live recs : Bool) :
    Bool :=
  let x := s.core c
  let d := e.d
  (live && f.isConv && !emptyOutput f d clip && convShort d) ||
  (recs && !recLegal f x.store d job.general its) ||
  (f.readsBank && (match (if dBank d = 0 then x.bank0 else x.bank1) with
    | some b => decide ((b.form = 1) ≠ (dG1 d = true))
    | none => true)) ||
  (f.isExch && (s.xseqClash (dieOfCore c) (rtTag (s.routeEntry (xGroup d))) (BitVec.ofNat 16 (xSeq d)) job.id c e.ord f ||
    !s.exchRoom f d))

/-- Whether a SCAT.KV waits for a room (Table 9-5): a start condition (R234). One that holds its rooms already does not. -/
def State.scatWaits (s : State) (e : QEntry) : Bool :=
  let d := e.d
  let stream := dStream d
  let touched := touchedRooms (kPos d) (dSop1 d).rows
  decide ((s.stream stream).sstate = .held) && e.rooms.isEmpty && decide (kBgrp d < s.dirGroups stream) && decide (touched.length ≤ 2) &&
  touched.any (fun pos => decide (s.roomStep stream (s.groupHdr stream (kBgrp d)) pos = .wait))

/-- Whether the fills of a convolution are complete (R274): every slot holds what it is to hold. -/
def State.fillsDone (s : State) (c : Nat) (e : QEntry) (f : Fam) : Bool := e.filled && ((s.core c).convNeed f e.d e.its).isEmpty

/-- The start of an instruction that has, or is to make, its claim: the scoreboard over what its descriptor and its records name
(R72), its illegal checks, the limits of Table 5-3 (R142), the claim, and then an empty output, a malformed mask, the weights and
the fill. `live` is false where the claim found the counter exhausted; `code` is the limit a claim breaks. -/
def State.startBody (s : State) (c : Nat) (job : Job) (e : QEntry) (f : Fam) (ahead : List QEntry) (j clip : Option Nat) (live : Bool)
    (code : Byte) (claim : State → State) : State :=
  let x := s.core c
  let d := e.d
  let t := x.tabFor e.ord.toNat
  let its := if live then (match j with
    | some n => [n]
    | none => List.range (dBatch d + 1)) else []
  let base := if live then descRanges f d its clip (s.rangeArg f d) else if f.isAttn then tileRanges f d 0 clip 0 else {}
  let recs := (f.isAttn || decide (f = .crop)) && !pastGeneral job.general { cr := base.cr }
  let heads := if recs then headRanges f x.store d clip else []
  if !s.clearOf c ahead base || !s.clearOf c ahead { cr := heads } then s
  else
    let r := if recs then base.append (recRanges f x.store d its clip) else base
    let limit := if live then overflowCode f job d r (emptyOutput f d clip) else 0
    if !s.clearOf c ahead r || (decide (f = .scatKv) && s.scatWaits e) then s
    else if s.startIllegal c job e f its clip live recs then s.coreFault c stIllegal 0 e.ord
    else if limit ≠ 0 ∨ code ≠ 0 then s.coreFault c stOverflow (if limit ≠ 0 then limit else code) e.ord
    else
      let s := claim s
      if !live || emptyOutput f d clip then s.finishAt c e t iEmpty
      else if f.isAttn && (attnRec x.store d).maskEn &&
          maskMalformed x.store (attnRec x.store d).mask ((dSop1 d).clip clip).rows (dSop2 d).rows then
        s.finishAt c e t iMaskMalformed
      else match s.loadWeights c e f t with
        | .stop u => u
        | k => if f.isConv && !s.fillsDone c e f then s else s.launch c job { e with clip := clip } f t its r k

/-- Start a claiming or plain instruction of a port (R72, R110). -/
def State.startPorts (s : State) (c : Nat) (job : Job) (e : QEntry) (f : Fam) (ahead : List QEntry) : State :=
  let body := fun (j clip : Option Nat) => s.startBody c job e f ahead j clip
  match s.lookClaim job (s.core c) e with
  | .wait => s
  | .settled j clip => body j clip (!e.claimed || j.isSome) 0 (fun s => s)
  | .member j clip => body j clip j.isSome 0 (fun s => s.makeClaim c e (.member j clip))
  | .first j clip k off chain code => body j clip j.isSome code (fun s => s.makeClaim c e (.first j clip k off chain code))

/-- Start a legal instruction. A BAR arrives once every earlier instruction has retired and, off tab, its commits are made, as a post of
it would take effect (R86, R97). -/
def State.startLegal (s : State) (c : Nat) (job : Job) (x : Core) (e : QEntry) (f : Fam) : State :=
  let d := e.d
  let before := x.queue.takeWhile (fun q => decide (q.ord ≠ e.ord))
  let ahead := before.filter QEntry.inFlight
  let t := x.tabFor e.ord.toNat
  if x.blocks.any (fun b => !b.decided && decide (b.chk < e.ord.toNat)) then s
  else if !(e.waitMet || s.waitOk job d) then s
  else if !s.tabAllows x f d t then s
  else if decide (f = .bar) && (!before.all (fun q => q.isRetired || (q.isRunning && (x.ownTab q).isSome)) ||
      (t.isNone && !x.commits.isEmpty)) then s
  else
    let sync := decide (f.ports = 0)
    match x.skipBlock e.ord.toNat with
    | some b => s.startSkip c job x e f b ahead (fun u =>
        if sync then u.startSync c job e f t
        else (u.modEntry c e.ord (fun q => { q with tab := t.map Tab.id, phase := .done iOk })))
    | none =>
      if sync then s.startSync c job e f t
      else if !(x.portsFree f.ports && bankClear before f d) then s
      else s.startPorts c job e f ahead

/-- Whether an instruction reads nothing, or it is not known yet whether it will: it retires SKIPPED (R105), or lies in a span that is
skipped or not decided (R290, R296). -/
def State.readsNot (s : State) (job : Job) (x : Core) (e : QEntry) : Bool :=
  (dStreamEn e.d && s.streamSkips job (dStream e.d)) || (x.skipBlock e.ord.toNat).isSome ||
  x.blocks.any (fun b => !b.decided && decide (b.chk < e.ord.toNat))
/-- TILE_START (R72): the next instruction starts, faults, retires at once, or waits. -/
def State.tileStart (s : State) (c : Nat) : State :=
  match s.issueJob c with
  | none => s
  | some job =>
    let x := s.core c
    match x.candidate with
    | none => s
    | some e =>
      if !x.restore.isEmpty || e.arrived then s
      else match e.fam with
        | none => s.coreFault c stIllegal 0 e.ord
        | some f =>
          let quiet := s.readsNot job x e
          match (if quiet then none else s.adapterErr f e.d) with
          | some err => s.coreAccFault c e.ord err
          | none =>
            if !s.tileLegalWith c job x e f (if quiet then none else s.adapterOf f e.d) then s.coreFault c stIllegal 0 e.ord
            else if dStreamEn e.d && s.streamSkips job (dStream e.d) then s.startSkipped c job x e f
            else s.startLegal c job x e f

/-- The candidate where it is of a given family. -/
def State.startFam (s : State) (c : Nat) (f : Fam) : State :=
  match (s.core c).candidate with
  | some e => if e.fam = some f then s.tileStart c else s
  | none => s

/-! ## LINE_BUFFER_FILL -/

/-- LINE_BUFFER_FILL (R274): the feeder fills for the oldest unstarted convolution, once no earlier instruction writes a
source row or reads a slot it writes. -/
def State.lineFill (s : State) (c : Nat) : State :=
  match s.issueJob c with
  | none => s
  | some job =>
    let x := s.core c
    match x.queue.find? (fun e => e.isQueued && (match e.fam with
        | some f => f.isConv
        | none => false)) with
    | none => s
    | some e => match e.fam with
      | none => s
      | some f =>
        let d := e.d
        let ahead := (x.queue.takeWhile (fun q => decide (q.ord ≠ e.ord))).filter (fun q => !q.isRetired)
        let fills := convFills f d e.its ((x.tabFor e.ord.toNat).map Tab.id)
        let need := x.convNeed f d e.its
        let src : IterRngs := { cr := need.map (fun p => (p.2.src, p.2.src + p.2.bytes)) }
        let busy := ahead.any (fun q => match q.fam with
          | some g => q.inFlight && (convFills g q.d q.its none).any (fun a => need.any (fun b => a.1 == b.1))
          | none => false)
        if s.fillsDone c e f || !x.restore.isEmpty || !s.tileLegal c job x e f || (dClaim d && !e.claimed) ||
           emptyOutput f d e.clip || convShort d || decide (overflowCode f job d src false ≠ 0) ||
           !s.clearOf c ahead src || ahead.any (fun q => dClaim q.d && !q.claimed) || busy then s
        else (s.modCore c (fun x => fills.foldl (fun y p => fillSlot y job d p) x)).modEntry c e.ord
          (fun q => { q with filled := true })

end Sys2Proof.Machine
end

