-- ==== Sys2Proof/Machine/TileExec.lean ====
section
/-! DEFINITION. The engines (04, 08, 10–12): what each family does between its start and its retirement. -/

namespace Sys2Proof.Machine

/-- The running instruction of a family on a core, whose work is still to do. A stop lets only ports A and V go on (R76). -/
def State.runningOf (s : State) (c : Nat) (f : Fam) : Option (Job × QEntry) :=
  match s.coreJob c with
  | none => none
  | some job =>
    if (s.core c).stopReq && f.onM then none
    else match (s.core c).queue.find? (fun e => e.isRunning && decide (e.fam = some f) &&
        !s.net.ops.any (fun o => o.begun && o.isOf job.id c e.ord)) with
      | some e => some (job, e)
      | none => none

/-- Cycles of the ports an instruction used: measured values (Table 21-5, log 8). -/
def State.countPorts (s : State) (c : Nat) (f : Fam) : State :=
  let s := if f.onA then s.bumpCoreFree c 1 else s
  let s := if f.onV then s.bumpCoreFree c 2 else s
  let s := if f.onM then s.bumpCoreFree c 3 else s
  if f.onX then s.bumpCoreFree c 4 else s

/-- An instruction has done its work: its writes are stored and it waits to retire. -/
def State.complete (s : State) (c : Nat) (e : QEntry) (f : Fam) (w : Writes) : State :=
  ((s.applyWrites c w).countPorts c f).finish c e.ord iOk

/-! ## Array families -/

/-- The bytes of the weight buffers. -/
def Core.weights (x : Core) : List Byte :=
  match x.kept with
  | some k => k.bytes
  | none => []
/-- The keep of R113 after an MMA-family instruction. -/
def State.keepAfter (s : State) (c d : Nat) : State :=
  if mKeep d then s else s.modCore c (fun x => { x with kept := none })

/-- The adapter tile of an MMA.LA (R114, R193), and the state after its read. -/
def State.adapterTile (s : State) (k d : Nat) : Except AccErr (AdapterTile × State) :=
  let r := s.adapterRec (laAdapter d)
  let a := adUp r + laUt d * tileBytes (adFmt r)
  let n := tileBytes (adFmt r)
  match s.memRead a n with
  | .ok bs => .ok (⟨adRank r, adFmt r, bs⟩, (s.readDone a n).countBurst k 10 a n)
  | .error e => .error e
/-- The accumulators of an MMA.LA over an INT8 pair are free: the spec gives no sum of an adapter's products into them (log 149). -/
def State.forgetPair (s : State) (c : Nat) (e : QEntry) : State :=
  if (dOp1 e.d).fmt = fmtInt8 then
    let (t, s) := s.stamp
    let n := e.its.length * ((dOp1 e.d).clip e.clip).rows
    s.modCore c (fun x => { x with
      acc := (List.range n).foldl (fun m r => m.forget ((mAccRow e.d + r) * 1024) ((mAccRow e.d + r) * 1024 + 4 * mNExt e.d) t) x.acc })
  else s

def State.runMma (s : State) (c : Nat) : State :=
  match s.runningOf c .mma with
  | none => s
  | some (_, e) =>
    let x := s.core c
    (s.complete c e .mma (mmaWrites .mma e.d e.its e.clip x.weights none x.store x.acc)).keepAfter c e.d

/-- MMA.LA reads its adapter's entry, whose failure is the job's fault (Table 6-4), and a tile of the adapter; an unreadable tile is
TIER_ERROR (R195). -/
def State.runMmaLa (s : State) (c : Nat) : State :=
  match s.runningOf c .mmaLa with
  | none => s
  | some (_, e) =>
    match s.adapterErr .mmaLa e.d with
    | some x => s.coreAccFault c e.ord x
    | none =>
      let s := s.readDone (s.dv 0x0A00 1 + 64 * laAdapter e.d) 64
      match s.adapterTile (clusterOf c) e.d with
      | .ok (t, s) =>
        let s := s.forgetPair c e
        let x := s.core c
        (s.complete c e .mmaLa (mmaWrites .mmaLa e.d e.its e.clip x.weights (some t) x.store x.acc)).keepAfter c e.d
      | .error .bus => s.coreAccFault c e.ord .bus
      | .error (.ue a) => ((s.countUe a).finish c e.ord iTierError).keepAfter c e.d

/-- CONV and CONV.DW (R277, R283); the filter stays in the weight buffers (R279). -/
def State.runConv (s : State) (c : Nat) (f : Fam) : State :=
  match s.runningOf c f with
  | none => s
  | some (job, e) =>
    let x := s.core c
    s.complete c e f (convWrites f e.d e.its e.clip x.weights x.store x.acc job.lbBase job.slotBytes)

/-! ## Attention -/

/-- The accumulator rows an attention instruction leaves undefined (R203), Q.ROWS clipped as R131 says. -/
def attnScratch (f : Fam) (d n : Nat) (clip : Option Nat) : Nat := if f = .attnBwd then 512 else n * ((dSop1 d).clip clip).rows
def State.forgetAcc (s : State) (c rows : Nat) : State :=
  let (t, s) := s.stamp
  s.modCore c (fun x => { x with acc := x.acc.forget 0 (rows * 1024) t })

def Core.bank (x : Core) (i : Nat) : Option SfuBank := if i = 0 then x.bank0 else x.bank1

/-- What an attention instruction computes: its writes, and the clamps it counts (R205, R214, R215). -/
def attnResult (f : Fam) (x : Core) (e : QEntry) : Writes × Nat :=
  match x.bank (dBank e.d) with
  | none => ({}, 0)
  | some b => if f = .attnBwd then attnBwdWrites e.d e.its e.clip x.store b else attnWrites e.d e.its e.clip x.store b
/-- The computation of an attention instruction stored in its core. -/
def State.attnStoreAll (s : State) (c : Nat) (f : Fam) (e : QEntry) : State :=
  let r := attnResult f (s.core c) e
  ((s.forgetAcc c (attnScratch f e.d e.its.length e.clip)).applyWrites c r.1).bumpCore c 11 r.2

def State.runAttn (s : State) (c : Nat) (f : Fam) : State :=
  match s.runningOf c f with
  | none => s
  | some (_, e) => (((s.attnStoreAll c f e).countPorts c f).finish c e.ord iOk)

/-! ## Vector families -/

def State.runVector (s : State) (c : Nat) (f : Fam) (g : Core → QEntry → Writes) : State :=
  match s.runningOf c f with
  | none => s
  | some (_, e) => s.complete c e f (g (s.core c) e)

def sfnOf (x : Core) (e : QEntry) : Writes :=
  match x.bank (dBank e.d) with
  | some b => sfnWrites e.d e.its e.clip x.store b
  | none => {}
def smaxOf (x : Core) (e : QEntry) : Writes :=
  match x.bank (dBank e.d) with
  | some b => smaxWrites e.d e.its e.clip x.store b
  | none => {}
def normOf (x : Core) (e : QEntry) : Writes := normWrites e.d e.its e.clip x.store
def cropOf (x : Core) (e : QEntry) : Writes := cropWrites e.d x.store

/-- REUSE.CHK (R288): the comparison, where the valid bit read 1. -/
def State.runReuse (s : State) (c : Nat) : State :=
  match s.runningOf c .reuseChk with
  | none => s
  | some (_, e) =>
    let o := e.computed && reusePasses e.d (s.core c).store
    ((s.modEntry c e.ord (fun q => { q with outcome := some o })).countPorts c .reuseChk).finish c e.ord iOk

/-! ## Memory families -/

/-- How a device read by a memory-family instruction ends. -/
inductive DevRead where
  | bytes (bs : List Byte) (s : State)
  | stop (s : State)

/-- A device read for an instruction (R147, R153, R186, R192, Table 6-4), on the narrow path for GATH (R151). An uncorrectable error on a window read of MOVE, GATH or
TBL.LOAD is the job's fault, as Table 6-4 has any other read; the rewrite of Table 7-5 is that of weight loads (DEDUCED, log 174). A job fault that
an instruction on tab meets is raised at once, not when its tab settles (DESIGN CHOICE, log 240). -/
def State.devRead (s : State) (c : Nat) (e : QEntry) (a n : Nat) : DevRead :=
  let count := fun (t : State) => if e.fam = some .gath then t.countNarrow (clusterOf c) a n else t.countBurst (clusterOf c) 10 a n
  match s.weightGate a n with
  | .failed => .stop (s.finish c e.ord iTierError)
  | .wait => .stop (s.beginWait c e)
  | .ok => match s.memRead a n with
    | .ok bs => .bytes bs (count (s.readDone a n))
    | .error x => .stop (s.coreAccFault c e.ord x)

/-- One row of a MOVE. -/
structure MoveRow where
  src : Nat
  dst : Nat
def moveRows (d : Nat) (its : List Nat) (rows : Nat) : List MoveRow :=
  its.flatMap (fun i => (List.range rows).map (fun r =>
    ⟨vSrc d + i * vSStride d + r * vSPitch d, vDst d + i * vDStride d + r * vDPitch d⟩))

/-- The bytes of every row of a MOVE, read in order, and the state after the reads. -/
def State.readRows (s : State) (c : Nat) (e : QEntry) : List MoveRow → Except State (State × List (Nat × List Byte))
  | [] => .ok (s, [])
  | r :: rs =>
    let n := vRBytes e.d
    match (if vSrcCs e.d then .bytes ((s.core c).store.readBytes r.src n) s else s.devRead c e r.src n : DevRead) with
    | .stop t => .error t
    | .bytes bs u => match State.readRows u c e rs with
      | .error t => .error t
      | .ok (u, rest) => .ok (u, (r.dst, bs) :: rest)

/-- Store rows in stacked memory, in order, up to the first that fails (log 20). -/
def State.writeDev (s : State) (c : Nat) (e : QEntry) : List (Nat × List Byte) → Except State State
  | [] => .ok s
  | (a, bs) :: rest =>
    match s.memWrite a bs with
    | .ok t => State.writeDev (t.countBurst (clusterOf c) 11 a bs.length) c e rest
    | .error (x, t) => .error (t.coreAccFault c e.ord x)

/-- MOVE (R120): a copy without conversion. Overlapping source and destination are read before they are written. -/
def State.runMove (s : State) (c : Nat) : State :=
  match s.runningOf c .move with
  | none => s
  | some (_, e) =>
    let rows := match e.clip with
      | some n => min n (vNRows e.d)
      | none => vNRows e.d
    match s.readRows c e (moveRows e.d e.its rows) with
    | .error t => t
    | .ok (s, data) =>
      if vDstCs e.d then s.complete c e .move { cs := data }
      else match s.writeDev c e data with
        | .ok t => (t.countPorts c .move).finish c e.ord iOk
        | .error t => t

/-- Rows of a GATH, read in order, and the state after the reads. -/
def State.gathRows (s : State) (c : Nat) (e : QEntry) : List Nat → Except State (State × List (Nat × List Byte))
  | [] => .ok (s, [])
  | r :: rs =>
    let d := e.d
    let idx := (s.core c).store.readLE (gIdx d + 4 * r) 4
    match s.devRead c e (gBase d + idx * gStride d) (gRBytes d) with
    | .stop t => .error t
    | .bytes bs u => match State.gathRows u c e rs with
      | .error t => .error t
      | .ok (u, rest) => .ok (u, ((dSop1 d).addr + r * (dSop1 d).pitch, bs) :: rest)
/-- GATH (R120): COUNT rows, no more than DST.ROWS (log 21). -/
def State.runGath (s : State) (c : Nat) : State :=
  match s.runningOf c .gath with
  | none => s
  | some (_, e) =>
    match s.gathRows c e (List.range (min (gCount e.d) (dSop1 e.d).rows)) with
    | .error t => t
    | .ok (s, data) => s.complete c e .gath { cs := data }

/-- TBL.LOAD (R256, R259): the image is read and checked; the bank changes at retirement. -/
def State.runTblLoad (s : State) (c : Nat) : State :=
  match s.runningOf c .tblLoad with
  | none => s
  | some (_, e) =>
    let d := e.d
    let n := 64 + 32 * tSegs d
    match (if tSrcCs d then .bytes ((s.core c).store.readBytes (tSrc d) n) s else s.devRead c e (tSrc d) n : DevRead) with
    | .stop t => t
    | .bytes bs s =>
      let s := s.countPorts c .tblLoad
      match loadTable bs (tSegs d) (tMono d) with
      | some b => (s.modEntry c e.ord (fun q => { q with image := some b })).finish c e.ord iOk
      | none => s.finish c e.ord iTableReject

/-! ## SCAT.KV (R233, R234, R242, R243) -/

/-- The decision steps of a SCAT.KV, all or none: each touched room's hold, in order. -/
inductive Decided where
  | holds (hs : List RoomHold) (s : State)
  | wait
  | order
  | noVacancy
  | err (e : AccErr)

/-- Copy a room into another (R242). Port M writes it: into a protected range it is a bus error (R184, R372). -/
def State.copyRoom (s : State) (old new n : Nat) : Except (AccErr × State) State :=
  match s.roomPlace old, s.roomPlace new with
  | some a, some b => match s.memRead a.addr n with
    | .error e => .error (e, s)
    | .ok bs => (s.readDone a.addr n).memWrite b.addr bs
  | _, _ => .ok s

def State.decideRooms (s : State) (job : Job) (stream g : Nat) (h : GroupHdr) : List Nat → Decided
  | [] => .holds [] s
  | pos :: rest =>
    let put := fun (s : State) (k ord room : Nat) (x : RoomDecision) =>
      let a := s.entryAddr stream h k
      let s := if x = .overwrite then s.memWriteHub a (leBytes 8 (dirEntry ord 1 room))
        else if x = .inPlace then s else s.memWriteHub a (leBytes 8 (dirEntry ord 2 room))
      match s.decideRooms job stream g h rest with
      | .holds hs t => .holds (⟨room, g, a, x⟩ :: hs) t
      | r => r
    match s.roomStep stream h pos with
    | .wait => .wait
    | .order => .order
    | .inPlace k x => put s k 0 x .inPlace
    | .overwrite k u x => put s k u x .overwrite
    | .new k u => match s.takeRoom job.id stream g h.pool h.home with
      | none => .noVacancy
      | some (x, t) => put t k u x .new
    | .copy k u old => match s.takeRoom job.id stream g h.pool h.home with
      | none => .noVacancy
      | some (x, t) => match t.copyRoom old x (roomBytes (s.pool h.pool).size) with
        | .error (e, _) => .err e
        | .ok t => put (t.dirAdd stream 8 (2 ^ 32 - 1)) k u x (.copy old)

/-- Rows of a SCAT.KV in the room of hold i: row r of the operands goes to place (POS + r) mod 256. -/
def scatRowsOf (d i : Nat) : List Nat :=
  (List.range (dSop1 d).rows).filter (fun r => decide ((kPos d + r) / 256 = kPos d / 256 + i))

/-- Write the rows into the held rooms: K in the first half, V in the second (R225). -/
def State.scatWrite (s : State) (c : Nat) (e : QEntry) (size : Nat) (hs : List (RoomHold × Nat)) : Except State State :=
  let d := e.d
  let m := (s.core c).store
  let n := roomStride size
  let data := hs.flatMap (fun (h, i) =>
    match s.roomPlace h.room with
    | none => []
    | some pl => (scatRowsOf d i).flatMap (fun r =>
        let at_ := pl.addr + ((kPos d + r) % 256) * n
        [(at_, m.readBytes ((dSop1 d).addr + r * (dSop1 d).pitch) n),
         (at_ + roomBytes size / 2, m.readBytes ((dSop2 d).addr + r * (dSop2 d).pitch) n)]))
  s.writeDev c e data

/-- What a SCAT.KV reads of its stream's directory: the group's header, and the entries of the rooms its rows touch (R229, R233). -/
def State.scatTables (s : State) (d : Nat) : List (Nat × Nat) :=
  let stream := dStream d
  let h := s.groupHdr stream (kBgrp d)
  (s.dirBase stream + 64 + 16 * kBgrp d, 16) ::
    (touchedRooms (kPos d) (dSop1 d).rows).filterMap (fun pos => (h.slotOf pos).map (fun k => (s.entryAddr stream h k.1, 8)))
/-- The first of these reads that fails, or the read of a room's entry on a cluster that is OFF (R409). -/
def State.scatErr (s : State) (d : Nat) : Option AccErr :=
  match (s.scatTables d).findSome? (fun r => match s.memRead r.1 r.2 with
    | .ok _ => none
    | .error x => some x) with
  | some x => some x
  | none =>
    if ((touchedRooms (kPos d) (dSop1 d).rows).filterMap (s.roomRead (dStream d) (s.groupHdr (dStream d) (kBgrp d)))).any s.roomGone then some .bus
    else none

/-- SCAT.KV: a repeated issue finds its hold and reuses it (R234). An instruction whose stream has ended since its start writes
nothing (R246); a directory that cannot be read is the job's fault (Table 6-4). A third room is the job's fault before anything else is
looked at, and ROUND_INVALID comes before ROUND_ORDER and NO_VACANCY (DESIGN CHOICE, log 218). -/
def State.runScat (s : State) (c : Nat) : State :=
  match s.runningOf c .scatKv with
  | none => s
  | some (job, e) =>
    let d := e.d
    let stream := dStream d
    let h := s.groupHdr stream (kBgrp d)
    let size := (s.pool h.pool).size
    let touched := touchedRooms (kPos d) (dSop1 d).rows
    let write := fun (s : State) (hs : List RoomHold) =>
      match s.scatWrite c e size hs.zipIdx with
      | .ok t => ((t.modEntry c e.ord (fun q => { q with rooms := hs })).countPorts c .scatKv).finish c e.ord iOk
      | .error t => t.modEntry c e.ord (fun q => { q with rooms := hs })
    if !s.heldBy job stream then s.finish c e.ord iSkipped
    else if 2 < touched.length then s.coreFault c stOverflow 6 e.ord
    else match s.memRead (s.dirBase stream) 64 with
      | .error x => s.coreAccFault c e.ord x
      | .ok _ =>
        let s := s.readDone (s.dirBase stream) 64
        if s.dirGroups stream ≤ kBgrp d then s.finish c e.ord iRoundInvalid
        else if (dSop1 d).pitch < roomStride size ∨ (dSop2 d).pitch < roomStride size ∨ size = 0 then s.finish c e.ord iRoundInvalid
        else if !e.rooms.isEmpty then write s e.rooms
        else match s.scatErr d with
        | some x => s.coreAccFault c e.ord x
        | none =>
          let s := (s.scatTables d).foldl (fun (t : State) r => t.readDone r.1 r.2) s
          match s.decideRooms job stream (kBgrp d) h touched with
          | .wait => s
          | .order => s.finish c e.ord iRoundOrder
          | .noVacancy => (s.park stream (kBgrp d) h.pool h.home).finish c e.ord iNoVacancy
          | .err x => s.coreAccFault c e.ord x
          | .holds hs t => write (t.bumpCluster (clusterOf c) 23 (hs.countP (fun x => decide (x.decision ≠ .inPlace ∧ x.decision ≠ .overwrite)))) hs

/-- The changes SCAT.KV's retirement makes (R234, R242): entries it made PENDING become VALID, REF and STATE are set, a copied
room is released. An entry or a count that cannot be read or written is the job's fault (Table 6-4), one in the room table of a cluster that is
OFF a bus error (R409); where it cannot be read, the hold goes back as Table 9-8 has it. -/
def State.commitRooms (s : State) (c : Nat) (ord : Word) (stream : Nat) (hs : List RoomHold) : State :=
  hs.foldl (fun s h =>
    let make := fun (s : State) (done : State → State) => match s.memRead h.entryAddr 8 with
    | .error x => (s.coreAccFault c ord x).returnHold h
    | .ok bs => if s.roomGone h.room then (s.coreAccFault c ord .bus).returnHold h else
      let s := (s.readDone h.entryAddr 8).memWriteCore c ord h.entryAddr (leBytes 8 (putBits (leNat bs) 31 30 1))
      done (((s.modRoomRef h.room (fun _ => 1)).setRoomState h.room 1).dirAddCore c ord stream 8 1)
    match h.decision with
    | .new => make s (fun s => s)
    | .copy old => make s (fun s => if s.roomGone old then s.coreAccFault c ord .bus else s.releaseRoom old)
    | _ => s) s

end Sys2Proof.Machine
end

