-- ==== Sys2Proof/Machine/TileRetire.lean ====
section
/-! DEFINITION. Retirement (R73, R104, R124), tabs as they resolve (R302, R305), and the posts and commits that follow
visibility (R86, R92, R132). -/

namespace Sys2Proof.Machine

/-- The instruction that retires next: queue order, passing over what has retired on tab and over a REUSE.CHK that still runs
with its tab open (R73). -/
def Core.retirable (x : Core) : List QEntry → Option QEntry
  | [] => none
  | e :: es =>
    if e.isDone then some e
    else if e.isRetired || (e.isRunning && (x.ownTab e).isSome) then x.retirable es
    else none

/-- What retirement changes beside the header's effects: a bank (R259), the room table (R234, R246), an exchange operation or a
relay step. Answers the status the instruction retires with. -/
def State.retireWork (s : State) (c : Nat) (job : Job) (e : QEntry) (istat : Byte) : State × Byte :=
  let s := s.exchRetire c job e
  if e.fam = some .tblLoad then
    match e.image with
    | some b => (s.modCore c (fun x => if dBank e.d = 0 then { x with bank0 := some b } else { x with bank1 := some b }), istat)
    | none => (s, istat)
  else if e.fam = some .scatKv then
    if s.heldBy job (dStream e.d) then
      (if istat = iOk then s.commitRooms c e.ord (dStream e.d) e.rooms else s, istat)
    else (e.rooms.foldl (fun t h => t.returnHold h) s, iSkipped)
  else (s, istat)

/-- A REUSE.CHK without a tab of its own decides its block (R296). -/
def decideBlock (bs : List ReuseBlock) (chk : Nat) (reuse : Bool) : List ReuseBlock :=
  bs.map (fun b => if b.chk = chk then { b with skip := reuse, decided := true } else b)

/-- The copy of PREV_OUT (R290) that a REUSE.CHK finds due when it decides for REUSE: the last instruction of its span is done already, with
SKIPPED, its stream parked or ended before (R105). With it, the copy's ranges. -/
def Core.lateCopy (x : Core) (e : QEntry) : Option (QEntry × IterRngs) :=
  if e.outcome = some true then
    match x.blocks.find? (fun b => b.chk == e.ord.toNat) with
    | some b => match x.queue.find? (fun q => decide (q.ord.toNat = b.last) && q.isDone) with
      | some q => some (q, copyRanges b.desc.toNat)
      | none => none
    | none => none
  else none
/-- What a REUSE.CHK without a tab of its own does as it retires with OK: it decides its block, and makes the copy that is due. An error
is the state where it does not retire: the copy overflows (R67), or the log of the tab that it is on has no room yet (Table 12-1). -/
def State.decideChk (s : State) (c : Nat) (job : Job) (e : QEntry) : Except State State :=
  let x := s.core c
  let decided := fun (u : State) => u.modCore c (fun x => { x with blocks := decideBlock x.blocks e.ord.toNat (e.outcome.getD false) })
  match x.lateCopy e with
  | none => .ok (decided s)
  | some (q, r) =>
    if pastGeneral job.general r then .error (s.coreFault c stOverflow 1 q.ord)
    else match s.enterTab c job q (x.tabFor q.ord.toNat) r.cw [] with
      | none => .error s
      | some u => .ok (decided (u.copyOut c x.store r))

/-- Whether messages of an exchange instruction have yet to pass to their next hop (R340): what waits on the ports of its
group, and what the next hop has not acknowledged (R313). -/
def State.stillSending (s : State) (e : QEntry) : Bool :=
  match e.fam with
  | some f => f.isExch && decide (f ≠ .attnRelay) && (rtPorts (s.routeEntry (xGroup e.d))).any (fun p =>
      if rtBulk (s.routeEntry (xGroup e.d)) then !(s.port p).txB.isEmpty || (s.port p).unacked 2
      else !(s.port p).txE.isEmpty || (s.port p).unacked 1)
  | none => false

/-- TILE_RETIRE (R73): the next instruction retires with its status; on tab, what it would make visible is held (R300); a
REUSE.CHK with a tab leaves its outcome for the tab's resolution (R302). -/
def State.tileRetire (s : State) (c : Nat) : State :=
  match s.coreJob c with
  | none => s
  | some job =>
    let x := s.core c
    match x.retirable x.queue with
    | none => s
    | some e => if s.stillSending e then s else match e.phase with
      | .done istat =>
        match x.ownTab e with
        | some t =>
          (s.modCore c (fun x => { x with tabs := x.tabs.map (fun u => if u.id = t.id then { u with outcome := e.outcome } else u) })).modEntry
            c e.ord (fun q => { q with phase := .retired istat })
        | none =>
          match (if e.fam = some .reuseChk ∧ istat = iOk then s.decideChk c job e else .ok s) with
          | .error s => s
          | .ok s => match e.tab with
            | some t =>
              (s.modCore c (fun x => { x with
                tabs := x.tabs.map (fun u => if u.id = t then { u with held := u.held ++ e.effects istat } else u) })).modEntry
                c e.ord (fun q => { q with phase := .retired istat })
            | none =>
              let (s, i) := s.retireWork c job e istat
              s.retireEntry c job e i
      | _ => s

/-- The header post and valid-bit write of a REUSE.CHK whose tab resolves (R294, R302). -/
def State.resolveOwn (s : State) (c : Nat) (job : Job) (e : QEntry) : State :=
  s.retireEntry c job e iOk

/-- What the steward counts per site (Table 17-5): a tab resolved, and whether it was voided. -/
def State.tallySite (s : State) (e : QEntry) (voided : Bool) : State :=
  let site := bits (uEntry e.d) 23 20
  s.withPwr (fun p => { p with siteTally := mmod (0, 0) p.siteTally site (fun t => (t.1 + 1, if voided then t.2 + 1 else t.2)) })

/-- Settle the oldest tab (R302): what it held is made visible in queue order, and its instructions are off tab. -/
def State.settleTab (s : State) (c : Nat) (job : Job) (t : Tab) (e : QEntry) : State :=
  let s := s.modCore c (fun x => { x with
    tabs := x.tabs.filter (fun u => decide (u.id ≠ t.id))
    tags := x.tags.map (fun p => if p.2.tab = some t.id then (p.1, { p.2 with tab := none }) else p) })
  let s := ((s.resolveOwn c job e).bumpCore c 13 1).tallySite e false
  let s := t.held.foldl (fun u h => u.makeEffect c job h) s
  let gone := ((s.core c).queue.filter (fun q => decide (q.tab = some t.id) && q.isRetired && ((s.core c).ownTab q).isNone))
  let s := s.modCore c (fun x => gone.foldl Core.closeClaim { x with
    queue := (x.queue.filter (fun q => !gone.any (fun g => g.ord == q.ord))).map (fun q => if q.tab = some t.id then { q with tab := none } else q) })
  let s := gone.foldl (fun u q => u.sampleDone (clusterOf c) (c, q.ord.toNat)) s
  s.modCore c Core.purge

/-- Void the oldest tab and with it every later one (R302); the outcome of its REUSE.CHK stands. DESIGN CHOICE (log 230): of a site's
measured voids (R306) this is the one tallied; a later tab that voids with it, or a tab that a stop voids, is not. -/
def State.voidTab (s : State) (c : Nat) (job : Job) (t : Tab) (e : QEntry) (reuse : Bool) : State :=
  let n := (s.core c).tabs.length
  let s := s.modCore c (fun x => { x.voidTabs t.id with blocks := decideBlock (x.voidTabs t.id).blocks t.id reuse })
  ((s.resolveOwn c job e).bumpCore c 14 n).tallySite e true

/-- TAB_RESOLVE (R302): the oldest tab, once its REUSE.CHK has retired. Streams that held statuses end, end with the sweep's status where
another effect of the tab starts one (R24). -/
def State.tabResolve (s : State) (c : Nat) : State :=
  match s.coreJob c with
  | none => s
  | some job =>
    let x := s.core c
    match x.tabs with
    | [] => s
    | t :: _ => match t.outcome, x.entry? (BitVec.ofNat 32 t.id) with
      | some o, some e => if o = t.pred then s.governed (s.settleTab c job t e) else s.voidTab c job t e o
      | _, _ => s

/-- Write a logged line back. -/
def Core.restoreLine (x : Core) (g : LogLine) : Core :=
  let a := 64 * g.line + g.off
  if g.acc then { x with acc := x.acc.writeBytes a g.bytes }
  else { x with store := x.store.writeBytes a g.bytes, tags := clearTags x.tags a g.bytes.length }
def Core.restoreLog (x : Core) : Core := { x.restore.foldl Core.restoreLine x with restore := [] }

/-- TAB_LOG_RESTORE (R302, R303): the lines of voided tabs, newest first, once port M is free. -/
def State.tabLogRestore (s : State) (c : Nat) : State :=
  if (s.coreJob c).isSome && (s.core c).portsFree 4 then s.modCore c Core.restoreLog else s

/-! ## Posts and commits -/

/-- The oldest pending post of a kind, and the rest. -/
def takePost (k : Nat) : List PendPost → Option (PendPost × List PendPost)
  | [] => none
  | p :: ps => if p.kind = k then some (p, ps) else match takePost k ps with
    | some (q, rest) => some (q, p :: rest)
    | none => none
/-- How many pending posts stand before the oldest of a kind. -/
def postsAhead (k : Nat) (ps : List PendPost) : Nat := (ps.takeWhile (fun p => decide (p.kind ≠ k))).length
/-- Whether every commit of an earlier instruction has been made (R86, R132). -/
def Core.postVisible (x : Core) (k : Nat) : Bool := x.commits.all (fun m => decide (postsAhead k x.posts < m.before))
/-- Take the oldest post of a kind out, where its writes and those of every instruction before it are visible. -/
def Core.popPost (x : Core) (k : Nat) : Option (PendPost × Core) :=
  if x.postVisible k then (takePost k x.posts).map (fun p => (p.1, { x with
    posts := p.2, commits := x.commits.map (fun m => { m with before := m.before - 1 }) }))
  else none

/-- Apply a progress post (R92): a stale one is counted at the core whose counter it names. -/
def State.applyProgress (s : State) (job : Job) (p : PendPost) : State :=
  match job.progTarget p.id with
  | none => s
  | some (c, i) => match progPost (s.progVal c i) p.val with
    | some v => (s.setProg c i v).bumpCluster (clusterOf c) 18 1
    | none => (s.bumpCore c 10 1).bumpCluster (clusterOf c) 18 1

/-- SYNC_POST_EFFECT of a core. -/
def State.coreSyncPost (s : State) (c : Nat) : State :=
  match s.postJob c, (s.core c).popPost 1 with
  | some job, some (p, x) => (s.modCore c (fun _ => x)).applySync job (BitVec.ofNat 8 c) (BitVec.ofNat 8 (clusterOf c)) p
  | _, _ => s
/-- PROGRESS_POST_EFFECT. -/
def State.coreProgressPost (s : State) (c : Nat) : State :=
  match s.postJob c, (s.core c).popPost 2 with
  | some job, some (p, x) => (s.modCore c (fun _ => x)).applyProgress job p
  | _, _ => s

/-! ## Weight waits (R28, R191) -/

/-- What an entry reads of stacked memory, each tile, row or image for itself. -/
def State.deviceReads (s : State) (c : Nat) (e : QEntry) : List Rng :=
  let d := e.d
  match e.fam with
  | some f =>
    if f.isMma || f.isConv then [(mWAddr d, mWAddr d + (keptFor f d).tiles * tileBytes (mWFmt d))]
    else if f = .move ∨ f = .moveA2a ∨ f = .moveAr then
      let rows := match e.clip with
        | some n => min n (vNRows d)
        | none => vNRows d
      if vSrcCs d then [] else e.its.flatMap (fun i => (List.range rows).map (fun r =>
        (vSrc d + i * vSStride d + r * vSPitch d, vSrc d + i * vSStride d + r * vSPitch d + vRBytes d)))
    else if f = .gath then (List.range (min (gCount d) (dSop1 d).rows)).map (fun r =>
      let a := gBase d + (s.core c).store.readLE (gIdx d + 4 * r) 4 * gStride d
      (a, a + gRBytes d))
    else (s.entryRanges c e).dr
  | none => []
/-- Whether what an entry waits for in a window is there now. -/
def State.weightsThere (s : State) (c : Nat) (e : QEntry) : Bool :=
  e.fam.isSome && (s.deviceReads c e).all (fun r => decide (s.weightGate r.1 (r.2 - r.1) = .ok))
/-- Whether an entry waits for weights: it has begun to, and has not done its work. -/
def QEntry.waits (e : QEntry) : Bool := e.waitFrom.isSome && (e.isQueued || e.isRunning)
/-- The entry that has waited for weights longest. -/
def Core.waiting? (x : Core) : Option QEntry :=
  let ws := x.queue.filter QEntry.waits
  ws.find? (fun e => ws.all (fun q => decide (e.waitFrom.getD 0 ≤ q.waitFrom.getD 0)))

/-- WEIGHT_TILE_READY (R28): the tile is in the window, and the wait ends. -/
def State.weightReady (s : State) (c : Nat) : State :=
  match s.coreJob c, (s.core c).waiting? with
  | some _, some e => if s.weightsThere c e then s.endWait c e.ord else s
  | _, _ => s

/-- TIER_DEADLINE_EXPIRY (R191): the read that has waited longest has waited the deadline, and the instruction retires with TIER_ERROR, writing
nothing. -/
def State.tierExpiry (s : State) (c : Nat) : State :=
  match s.coreJob c, (s.core c).waiting? with
  | some _, some e =>
    let t := (s.core c).tabFor e.ord.toNat
    ((s.endWait c e.ord).modEntry c e.ord (fun q => { q with tab := if q.isQueued then t.map Tab.id else q.tab, phase := .done iTierError })).tileRetire c
  | _, _ => s

end Sys2Proof.Machine
end

