-- ==== Sys2Proof/Machine/Exchange.lean ====
section
/-! DEFINITION. The exchange (14): stages and shares (R338, R339), messages (R341–R343), matching (R346), reduction in segments
(R344, R345), the fused families (R340), relays (R218, R219), and the exchange barriers' records (R350). -/

namespace Sys2Proof.Machine

/-! ## Stages and shares (R338, R339) -/

/-- What a die holds of a vector once the levels below `upto` have divided it: offset and bytes. -/
def exHeld (e total die upto : Nat) : Nat × Nat :=
  (List.range upto).foldl (fun p l => (p.1 + rtRank e l die * (p.2 / rtSize e l), p.2 / rtSize e l)) (0, total)
/-- Stages of an operation: (kind, level), the kind that of its messages: 1 reduce, 2 gather, 3 all-to-all. -/
def opStages (o : ExOp) (e : Nat) : List (Nat × Nat) :=
  let ls := (List.range (o.level + 1)).filter (fun l => decide (1 < rtSize e l))
  match o.opc.toNat with
  | 0x03 => ls.map (fun l => (1, l))
  | 0x25 => ls.map (fun l => (1, l)) ++ ls.reverse.map (fun l => (2, l))
  | 0x04 => ls.reverse.map (fun l => (2, l))
  | _ => ls.map (fun l => (3, l))
/-- Contributors that one step of a level's rank spans, and a block index's coordinate at a level. -/
def exStride (e top l : Nat) : Nat := (List.range (top + 1)).foldl (fun n k => if l < k then n * rtSize e k else n) 1
def exCoord (e top l i : Nat) : Nat := (i / exStride e top l) % rtSize e l
/-- Blocks of an all-to-all whose coordinate at a level is `j`. -/
def exBlocks (e top l j : Nat) : List Nat := (List.range (exSize e top)).filter (fun i => decide (exCoord e top l i = j))
/-- Bytes of a block of an all-to-all. -/
def ExOp.block (o : ExOp) (e : Nat) : Nat := o.total / exSize e o.level
/-- Base of a die's offsets in an all-to-all stage: above L0 the stage's vector is the module's, die after die (log 27). -/
def ExOp.base (o : ExOp) (e l : Nat) : Nat := if l = 0 then 0 else rtRank e 0 o.die * o.total

/-- The part of rank j of a range that a level divides. -/
def exPart (e l j : Nat) (h : Nat × Nat) : Nat × Nat := (h.1 + j * (h.2 / rtSize e l), h.2 / rtSize e l)
/-- What two ranges share: one range, or none. -/
def interPiece (p r : Nat × Nat) : List (Nat × Nat) :=
  let lo := max p.1 r.1
  let hi := min (p.1 + p.2) (r.1 + r.2)
  if lo < hi then [(lo, hi - lo)] else []
/-- A range cut into pieces of at most `max` bytes. -/
def cutPiece (max : Nat) (p : Nat × Nat) : List (Nat × Nat) :=
  (List.range (cdiv p.2 max)).map (fun i => (p.1 + i * max, min max (p.2 - i * max)))
/-- Output bytes of the largest segment of a stage of m members (R344). -/
def segMax (m : Nat) : Nat := bulkMax / (m * 2048) * 2048
/-- The segments of reduce stages, each a level and the rank that owns the part: what the last of them puts out, of pieces `ps` of a
range `h`, in order. -/
def redPieces (e : Nat) : List (Nat × Nat) → Nat × Nat → List (Nat × Nat) → List (Nat × Nat)
  | [], _, ps => ps
  | (l, r) :: rest, h, ps =>
    redPieces e rest (exPart e l r h) (ps.flatMap (fun p => (interPiece p (exPart e l r h)).flatMap (cutPiece (segMax (rtSize e l)))))
/-- The reduce stages of an operation on its die: level and rank (R339). -/
def ExOp.reds (o : ExOp) (e : Nat) : List (Nat × Nat) :=
  ((opStages o e).filter (fun p => decide (p.1 = 1))).map (fun p => (p.2, rtRank e p.2 o.die))
/-- The segments that the first n reduce stages of an operation leave here. -/
def ExOp.segments (o : ExOp) (e n : Nat) : List (Nat × Nat) := redPieces e ((o.reds e).take n) (0, o.total) [(0, o.total)]

/-- Data bytes of the largest message (R341, R343). -/
def exMax (e : Nat) : Nat := if rtBulk e then bulkMax - 2048 else bulkMax
/-- A part cut into messages, in increasing offset. -/
def cut (max off : Nat) (bs : List Byte) : List (Nat × List Byte) :=
  ((chunks max (bs.length / max + 1) bs).zipIdx).map (fun (c, i) => (off + i * max, c))
/-- The messages that the member of rank `src` sends the one of rank j in a stage: offset and length of each (R339, R341, R344).
What a reduce stage passes on leaves as its segments do. -/
def ExOp.pieces (o : ExOp) (e k l src j : Nat) : List (Nat × Nat) :=
  let h := exHeld e o.total o.die l
  let before := (o.reds e).filter (fun p => decide (p.1 < l))
  let ps := match k with
    | 1 => (redPieces e before (0, o.total) [(0, o.total)]).flatMap (fun p => interPiece p (exPart e l j h))
    | 2 => if (o.reds e).getLast?.map Prod.fst = some l then redPieces e (before ++ [(l, src)]) (0, o.total) [(0, o.total)]
      else [exPart e l src h]
    | _ => (exBlocks e o.level l j).map (fun i => (o.base e l + i * o.block e, o.block e))
  ps.flatMap (cutPiece (exMax e))

/-! ## Messages (Table 14-3) -/

def exHeader (tag : Word) (xseq : Half) (src dst size l kind off len opc : Nat) : Nat :=
  opc * 2 ^ 96 + len / 32 * 2 ^ 104 + off / 32 * 2 ^ 128 + kind * 2 ^ 178 + l * 2 ^ 182 + size * 2 ^ 184 + dst * 2 ^ 192 +
  src * 2 ^ 200 + xseq.toNat * 2 ^ 208 + tag.toNat * 2 ^ 224

/-- Put one message on its way: over the die-to-die link, or on a port's class. A migration message is padded to whole units of
2,048 bytes (R342, R343, Table 13-4). -/
def State.exPost (s : State) (e l src dst : Nat) (h : Nat) (bs : List Byte) : State :=
  let flits := BitVec.ofNat 2048 h :: flitsOf bs
  if l = 0 then
    let d := if rtRank e 0 0 = dst ∧ bit (rtDies e) 0 then 0 else 1
    s.withNet (fun n => { n with dieIn := mmod [] n.dieIn d (fun q => q ++ flits) })
  else
    let p := rtPortTo e l src dst
    if rtBulk e then
      s.modPort p (fun x => { x with
        txB := x.txB ++ bulkHeader 2 0 0 (cdiv bs.length 2048 * 2048 + 2048) 0 :: (BitVec.ofNat 2048 h :: List.replicate 7 0) ++
          flitsOf (bs ++ List.replicate (cdiv bs.length 2048 * 2048 - bs.length) 0) })
    else s.modPort p (fun x => { x with txE := x.txE ++ flits })

/-- The ports on which a die sends the messages of a stage. -/
def ExOp.stagePorts (o : ExOp) (e l : Nat) : List Nat :=
  if l = 0 then []
  else ((List.range (rtSize e l)).filter (fun j => decide (j ≠ rtRank e l o.die))).map (rtPortTo e l (rtRank e l o.die))
/-- Note that an operation has sent on the ports of a stage. -/
def ExOp.hasSent (o : ExOp) (e l : Nat) : ExOp := { o with sentOn := (o.sentOn ++ o.stagePorts e l).eraseDups }
/-- The first fault among the ports of a stage (R335): of a port that drains, only an operation that was in flight when it began to is no
fault (R322). On a port on which the operation has sent before, as before a stop (R347), the port alone is looked at: R335 checks before
its first message there. -/
def State.stageCheck (s : State) (o : ExOp) (e l : Nat) : Option Byte :=
  (o.stagePorts e l).findSome? (fun p =>
    if o.sentOn.contains p then (if (s.port p).state = .up ∨ (s.port p).state = .draining then none else some stPeerLost)
    else s.portCheck p ((s.port p).inFlight.contains (o.core, o.ord, o.job)))

/-! ## Operations -/

def ExOp.same (a b : ExOp) : Bool := a.isOf b.job b.core.val b.ord
def State.setOp (s : State) (o : ExOp) : State :=
  s.withNet (fun n => { n with ops := n.ops.map (fun x => if x.same o then o else x) })
def State.opOf (s : State) (job : JobId) (c : Nat) (ord : Word) : Option ExOp := s.net.ops.find? (fun o => o.isOf job c ord)

/-- The die rank a part is for: of the two dies' parts that reach a module, its offset tells (R342, log 27). -/
def partDie (e total : Nat) (p : ExPart) : Nat :=
  if rtSize e 0 = 1 then 0
  else if p.key.level = 0 then 1 - p.key.src
  else if p.kind = 3 then p.key.off * 32 / max 1 total else p.key.off * 32 / max 1 (total / 2)
/-- Whether a part fits its receiver's own operation (R337): kind, opcode, size and length. -/
def ExOp.fits (o : ExOp) (e : Nat) (p : ExPart) : Bool :=
  decide (p.opc = o.opc.toNat) && decide (p.size = rtSize e p.key.level) &&
  (opStages o e).any (fun (k, l) => decide (k = p.kind) && decide (l = p.key.level) &&
    (o.pieces e k l p.key.src (rtRank e l o.die)).any (fun q => decide (q.1 = p.key.off * 32) && decide (q.2 = p.bytes.length)))
/-- Whether a part mismatches an operation: it is for the operation's die and does not fit it, or it is for no die. -/
def ExOp.mismatch (o : ExOp) (e : Nat) (p : ExPart) : Bool :=
  decide (p.key.tag = o.tag ∧ p.key.xseq = o.xseq) &&
  (decide (rtSize e 0 ≤ partDie e o.total p) || (decide (partDie e o.total p = rtRank e 0 o.die) && !o.fits e p))

/-- The staged bytes of a member's part from `a` on (R344, R346): none until the messages that cover them are accepted. -/
def State.stagedGo (s : State) (o : ExOp) (l src : Nat) : Nat → Nat → Nat → Option (List Byte)
  | _, _, 0 => some []
  | 0, _, _ => none
  | k + 1, a, n =>
    match s.net.early.find? (fun p => decide (p.key.tag = o.tag ∧ p.key.xseq = o.xseq ∧ p.key.level = l ∧ p.key.src = src ∧
        p.key.off * 32 ≤ a ∧ a < p.key.off * 32 + p.bytes.length)) with
    | none => none
    | some p =>
      let t := (p.bytes.drop (a - p.key.off * 32)).take n
      (s.stagedGo o l src k (a + t.length) (n - t.length)).map (fun r => t ++ r)
def State.stagedPart (s : State) (o : ExOp) (l src : Nat) (r : Nat × Nat) : Option (List Byte) :=
  s.stagedGo o l src s.net.early.length r.1 r.2
/-- A list of options, where all are there. -/
def allSome {α : Type} : List (Option α) → Option (List α)
  | [] => some []
  | some a :: rest => (allSome rest).map (fun r => a :: r)
  | none :: _ => none

/-- What a die holds after a gather or an all-to-all stage, once every part is staged. -/
def State.exPlace (s : State) (o : ExOp) (e k l : Nat) : Option (List Byte) :=
  let me := rtRank e l o.die
  if k = 2 then
    let h := exHeld e o.total o.die l
    (allSome ((List.range (rtSize e l)).map (fun j => if j = me then some o.vec else s.stagedPart o l j (exPart e l j h)))).map List.flatten
  else
    let b := o.block e
    let mine := exBlocks e o.level l me
    (allSome ((List.range (rtSize e l)).map (fun j => allSome (mine.map (fun i =>
      if j = me then some ((o.vec.drop (i * b)).take b) else s.stagedPart o l j (o.base e l + i * b, b)))))).map (fun ps =>
        ((List.range (exSize e o.level)).map (fun i =>
          (((ps[exCoord e o.level l i]?).getD [])[mine.findIdx (fun x =>
            x == i + me * exStride e o.level l - exCoord e o.level l i * exStride e o.level l)]?).getD [])).flatten)

/-! ## Results (Table 14-2) -/

/-- The D rows of an MMA.RS: the die's reduced rows, converted. -/
def rsWrites (d : Nat) (vec : List Byte) : Writes :=
  let o := dOp2 d
  let ints := decide ((dOp1 d).fmt = fmtInt8)
  let scale := (dOp1 d).scaleVal.mul (mmaWScale .mmaRs d)
  let n := 4 * mNExt d
  Writes.join ((chunks n (vec.length / n + 1) vec).zipIdx.map (fun (bs, t) =>
    (o.iter (t / o.rows)).writeRow (t % o.rows) 256
      ((chunks 4 (mNExt d) bs).map (fun w => outVal ints o.fmt scale (leNat w)))))

/-- Write an operation's result; the instruction is done (R340), where its core still holds it: of a job that is swapped out, the resumed
instruction does this (R347, R348). -/
def State.exFinish (s : State) (o : ExOp) (e : Nat) : State :=
  let c := o.core.val
  match (s.core c).entry? o.ord, (s.core c).entry? o.ord |>.bind QEntry.fam with
  | some q, some f =>
    if !q.isRunning || decide ((s.cluster (clusterOf c)).holder ≠ some o.job) then s
    else
      let d := q.d
      let done := fun (s : State) =>
        let s := (s.countPorts c f).finish c q.ord iOk
        s.setOp { o with finished := true, segOpen := false, accs := [] }
      let n := exSize e o.level
      let dev := match f with
        | .mmaAg => (List.range n).map (fun i => (xAddr d + i * agPart d, (o.vec.drop (i * agPart d)).take (agElems d + agScales d)))
        | .moveA2a => (List.range n).map (fun i => (vDst d + i * o.block e, (o.vec.drop (i * o.block e)).take (o.block e)))
        | .moveAr => ((moveRows d q.its (vNRows d)).zip (chunks (vRBytes d) (o.vec.length / vRBytes d + 1) o.vec)).map (fun (r, bs) => (r.dst, bs))
        | _ => []
      if f = .mmaRs then done (s.applyWrites c (rsWrites d o.vec))
      else match s.writeDev c q dev with
        | .ok t => done t
        | .error t => t
  | _, _ => s

/-! ## Progress -/

/-- The checks before an operation's first message of a stage (R335, R337): the fault, none where it may send. -/
def State.exCheck (s : State) (o : ExOp) (e l : Nat) : Option Byte :=
  match s.stageCheck o e l with
  | some st => some st
  | none => if s.net.early.any (fun p => o.mismatch e p) then some stIllegal else none
/-- Send the messages of a stage whose data lies in `[a, a + n)`, `bs` being the bytes from `base` on. -/
def State.exSend (s : State) (o : ExOp) (e k l base : Nat) (bs : List Byte) (a n : Nat) : State :=
  let me := rtRank e l o.die
  ((List.range (rtSize e l)).filter (fun j => decide (j ≠ me))).foldl (fun t j =>
    ((o.pieces e k l me j).filter (fun p => within p.1 p.2 a n)).foldl (fun t p =>
      t.exPost e l me j (exHeader o.tag o.xseq me j (rtSize e l) l k p.1 p.2 o.opc.toNat) ((bs.drop (p.1 - base)).take p.2)) t) s
/-- Where the bytes that a die holds at a stage begin in the offsets of its messages. -/
def ExOp.vecBase (o : ExOp) (e k l : Nat) : Nat :=
  match k with
  | 1 => (exHeld e o.total o.die l).1
  | 2 => (exPart e l (rtRank e l o.die) (exHeld e o.total o.die l)).1
  | _ => o.base e l
/-- An operation enters a stage: the checks of R335, R337 and R345, then its messages. -/
def State.exEnter (s : State) (o : ExOp) (e k l : Nat) : State × Bool :=
  match s.exCheck o e l with
  | some st => (s.abortGroup o.group st, false)
  | none =>
    if k = 1 ∧ o.segOpen = false ∧
        4 ≤ s.net.ops.countP (fun x => x.segOpen && decide (x.job = o.job) && decide (x.die = o.die)) then
      (s.coreFault o.core.val stOverflow 5 o.ord, false)
    else ((s.setOp { o.hasSent e l with segOpen := decide (k = 1) }).exSend o e k l (o.vecBase e k l) o.vec 0 (2 ^ 64), true)

/-- Carry an operation on as far as the parts staged allow: into its stage where it enters one, through gather and all-to-all
stages whose parts are there; its reduce stages wait for their segments. -/
def State.exGo : Nat → Bool → State → ExOp → State
  | 0, _, s, _ => s
  | n + 1, enter, s, o =>
    let e := s.routeEntry o.group
    match (opStages o e)[o.stage]? with
    | none => s.exFinish o e
    | some (k, l) =>
      let r := if enter then s.exEnter o e k l else (s, true)
      if !r.2 || decide (k = 1) then r.1
      else match r.1.exPlace o e k l with
        | none => r.1
        | some v =>
          let o := { (if enter then o.hasSent e l else o) with vec := v, stage := o.stage + 1, segOpen := false }
          State.exGo n true (r.1.setOp o) o

/-- Issue the exchange part of an instruction with the bytes it contributes (R347): again in full after a stop. -/
def State.exBegin (s : State) (job : JobId) (c : Nat) (ord : Word) (vec : List Byte) : State :=
  match s.opOf job c ord with
  | none => s
  | some o =>
    let o := { o with begun := true, stage := 0, vec := vec, accs := (o.reds (s.routeEntry o.group)).map (fun _ => []) }
    State.exGo 16 true (s.setOp o) o

/-! ## The fused families -/

/-- The accumulators of an MMA.RS in row order: one partial per output element over all the K its contributor accumulates. R50's span
size is named by no descriptor table; a contributor's whole K is one span here, the model's choice (log 144). -/
def rsVector (d : Nat) (acc : Mem) : List Byte :=
  (List.range ((dBatch d + 1) * (dOp1 d).rows)).flatMap (fun r =>
    acc.readBytes (((mAccRow d + r) * 256) * 4) (4 * mNExt d))
/-- The A rows of an MMA.AG as stored, their scale bytes, and padding. -/
def agVector (d : Nat) (m : Mem) : List Byte :=
  let its := List.range (dBatch d + 1)
  let a := fun i => (dOp1 d).iter i
  let el := its.flatMap (fun i => m.readBytes (a i).addr ((a i).rows * (a i).pitch))
  let sc := if isMx (dOp1 d).fmt then its.flatMap (fun i => m.readBytes (a i).scaleBase ((a i).rows * scaleBytes 256)) else []
  el ++ sc ++ List.replicate (agPart d - (agElems d + agScales d)) 0
/-- The descriptor of an MMA.RS as its array part runs it: with no D. -/
def rsDesc (d : Nat) : Nat := putBits d 426 425 0

/-- The array part of MMA.RS and MMA.AG, where it is not done; the entry is marked (R347). -/
def State.computeX (s : State) (c : Nat) (f : Fam) (d : Nat → Nat) (e : QEntry) : State :=
  if e.computed then s
  else
    let x := s.core c
    let w := mmaWrites f (d e.d) e.its e.clip x.weights none x.store x.acc
    ((s.applyWrites c w).modEntry c e.ord (fun q => { q with computed := true })).keepAfter c e.d
/-- MMA.RS and MMA.AG: the array part, then the exchange part (R340). -/
def State.runMmaX (s : State) (c : Nat) (f : Fam) (d : Nat → Nat) (vec : QEntry → Core → List Byte) : State :=
  match s.runningOf c f with
  | none => s
  | some (job, e) =>
    let s := s.computeX c f d e
    s.exBegin job.id c e.ord (vec e (s.core c))
def State.runMmaRs (s : State) (c : Nat) : State := s.runMmaX c .mmaRs rsDesc (fun e x => rsVector e.d x.acc)
def State.runMmaAg (s : State) (c : Nat) : State := s.runMmaX c .mmaAg (fun d => d) (fun e x => agVector e.d x.store)

/-- MOVE.A2A and MOVE.AR: the source rows are read and exchanged. -/
def State.runMoveX (s : State) (c : Nat) (f : Fam) : State :=
  match s.runningOf c f with
  | none => s
  | some (job, e) =>
    match s.readRows c e (moveRows e.d e.its (vNRows e.d)) with
    | .error t => t
    | .ok (s, data) => s.exBegin job.id c e.ord (data.flatMap Prod.snd)

/-- The compute part of ATTN.RELAY, where it is not done; the entry is marked (R347). -/
def State.computeRelay (s : State) (c : Nat) (e : QEntry) : State :=
  if e.computed then s else (s.attnStoreAll c .attnRelay e).modEntry c e.ord (fun q => { q with computed := true })
/-- ATTN.RELAY (R218): computes as ATTN.FWD; its step begins at retirement. A relay record with reserved bits set, a shard size out of
range, a misaligned shard, an XSEQ of no step of it, or a buffer outside its place is ILLEGAL_INSTR (DESIGN CHOICE, log 177), as are a buffer
that overlaps the local shard, its source (R340), and an ARRIVE_ID whose rank is at or above TEAM_SIZE (R85, R218). -/
def State.runRelay (s : State) (c : Nat) : State :=
  match s.runningOf c .attnRelay with
  | none => s
  | some (job, e) =>
    let d := e.d
    match s.memRead (xAddr d) 64 with
    | .error x => s.coreAccFault c e.ord x
    | .ok bs =>
      let r := relayRecOf (leNat bs)
      let n := relayMembers (s.routeEntry (xGroup d)) (xLevel d)
      if r.spare ≠ 0 ∨ r.units = 0 ∨ 2097152 < r.units ∨ r.shard % 2048 ≠ 0 ∨ n ≤ relayStep r.base (BitVec.ofNat 16 (xSeq d)) ∨
          s.exchRegion (xAddr d) (2048 + 2 * r.units * 2048) = false ∨
          meets (xAddr d) (2048 + 2 * r.units * 2048) r.shard (r.units * 2048) = true ∨ (job.syncTarget r.arrive).isNone = true then
        s.coreFault c stIllegal 0 e.ord
      else (((s.readDone (xAddr d) 64).computeRelay c e).countPorts c .attnRelay).finish c e.ord iOk

/-! ## Receiving (R342, R346) -/

/-- The valid, unaborted group of a tag. -/
def State.groupOfTag (s : State) (tag : Word) : Option Nat :=
  (List.range 256).find? (fun g => rtValid (s.routeEntry g) && decide (rtTag (s.routeEntry g) = tag) && !(s.group g).aborted)

/-- Accept a message once (R346): a known key is a duplicate, a message of no usable group is stale, one that mismatches its
receiver's operation loses the group, also where that is finished and not retired (R337, R352). -/
def State.exAccept (s : State) (p : ExPart) : State :=
  if s.net.keys.contains p.key then s.withNet (fun n => { n with dups := n.dups + 1 })
  else match s.groupOfTag p.key.tag with
    | none => s.withNet (fun n => { n with stale := n.stale + 1 })
    | some g =>
      let e := s.routeEntry g
      let s := s.withNet (fun n => { n with keys := n.keys ++ [p.key] })
      let own := fun (o : ExOp) => decide (o.tag = p.key.tag ∧ o.xseq = p.key.xseq)
      if p.kind = 4 then (if s.net.ops.any own then s.abortGroup g stIllegal else s.relayLand g p)
      else if s.relayXseq p.key.tag p.key.xseq then s.abortGroup g stIllegal
      else
        let s := s.withNet (fun n => { n with early := n.early ++ [p] })
        let ops := s.net.ops.filter own
        if ops.any (fun o => o.mismatch e p) then s.abortGroup g stIllegal
        else (ops.filter (fun o => o.begun && !o.finished)).foldl (fun t o => State.exGo 16 false t ((t.opOf o.job o.core.val o.ord).getD o)) s

/-- A message as its header and data spell it. -/
def partOfMsg (h : Nat) (bs : List Byte) : ExPart :=
  { key := ⟨BitVec.ofNat 32 (bits h 255 224), BitVec.ofNat 16 (bits h 223 208), bits h 183 182, bits h 207 200, bits h 159 128⟩
    kind := bits h 181 178, size := bits h 191 184, opc := bits h 103 96, bytes := bs }
/-- Data bytes and flits of the message a header flit begins. -/
def msgLen (h : Nat) : Nat := bits h 127 104 * 32
def msgFlits (h : Nat) : Nat := 1 + cdiv (msgLen h) 256

/-- The ring port a message goes on by: the same direction (R342). -/
def throughPort (p : Nat) : Nat := match p with
  | 4 => 5
  | 5 => 4
  | 6 => 7
  | _ => 6
/-- Whether a message that came by a port is for another ring member. -/
def State.passesOn (s : State) (h : Nat) : Bool :=
  let l := bits h 183 182
  decide (2 ≤ l) && (match s.groupOfTag (BitVec.ofNat 32 (bits h 255 224)) with
    | some g => decide (rtRank (s.routeEntry g) l 0 ≠ bits h 199 192)
    | none => false)

/-- What the flits of a message that have drained and the flits behind them give: how many more drain now, and the message where it
is then whole. -/
def drainMsg (size : Nat → Nat) (have_ q : List (BitVec 2048)) : Nat × Option (Nat × List (BitVec 2048)) :=
  match have_ ++ q with
  | [] => (0, none)
  | h :: rest =>
    let n := size h.toNat
    (min q.length (n - have_.length), if rest.length + 1 < n then none else some (h.toNat, rest.take (n - 1)))
/-- EXCH_MESSAGE_RECEIVE: the front message of a source drains into the switch, whose credits return (R316); once it is there whole it
is accepted, or on a ring forwarded where it is another member's. -/
def State.exchReceive (s : State) (src : ExchSource) : State :=
  match src with
  | .die d =>
    let q := mget [] s.net.dieIn (1 - d.val)
    match (drainMsg msgFlits [] q).2 with
    | none => s
    | some (v, fs) => (s.withNet (fun x => { x with dieIn := mset x.dieIn (1 - d.val) (q.drop (fs.length + 1)) })).exAccept
        (partOfMsg v ((fs.flatMap flitBytes).take (msgLen v)))
  | .port p =>
    let x := s.port p.val
    let (k, m) := drainMsg msgFlits x.asmE x.rxE
    let s := s.modPort p.val (fun x => { x with
      rxE := x.rxE.drop k, owedE := x.owedE + k, asmE := if m.isSome then [] else x.asmE ++ x.rxE.take k })
    match m with
    | none => s
    | some (v, fs) =>
      if s.passesOn v then
        let o := throughPort p.val
        if (s.port o).live then s.modPort o (fun x => { x with txE := x.txE ++ BitVec.ofNat 2048 v :: fs }) else s
      else s.exAccept (partOfMsg v ((fs.flatMap flitBytes).take (msgLen v)))

/-- Flits of the BULK message that a header flit begins (R323). -/
def bulkFlits (h : Nat) : Nat := 1 + bits h 191 160 / 256
/-- The header of a port's front BULK message. -/
def State.bulkHead (s : State) (p : Nat) : Option Nat := (((s.port p).asmB ++ (s.port p).rxB).head?).map BitVec.toNat
/-- Place what is there of the front BULK message, whose credits return (R316): the message, header and data flits, once it is whole. -/
def State.bulkTake (s : State) (p : Nat) : Option (Nat × List (BitVec 2048)) × State :=
  let x := s.port p
  let (k, m) := drainMsg bulkFlits x.asmB x.rxB
  (m, s.modPort p (fun x => { x with
    rxB := x.rxB.drop k, owedB := x.owedB + k, asmB := if m.isSome then [] else x.asmB ++ x.rxB.take k }))

/-- BULK_MIGRATION_RECV (R343). -/
def State.migrationRecv (s : State) (p : Nat) : State :=
  match s.bulkHead p with
  | none => s
  | some h =>
    if bits h 7 0 ≠ 2 then s
    else match s.bulkTake p with
      | (some (_, x :: fs), t) =>
        let v := x.toNat
        if t.passesOn v then
          let o := throughPort p
          if (t.port o).live then t.modPort o (fun y => { y with txB := y.txB ++ BitVec.ofNat 2048 h :: x :: fs }) else t
        else t.exAccept (partOfMsg v (((fs.drop 7).flatMap flitBytes).take (msgLen v)))
      | (_, t) => t

/-! ## Reduction (R344) -/

/-- One element of a reduction: the canonical tree in rank order, or the sum in arrival order (R51, R53); INT32 wraps. -/
def reduceElem (int32 canon : Bool) (inRank inOrder : List Nat) : Nat :=
  if int32 then inRank.foldl (· + ·) 0 % 2 ^ 32
  else if canon then toF32 (treeSum (inRank.map ofF32))
  else match inOrder.map ofF32 with
    | [] => 0
    | v :: vs => toF32 (vs.foldl fadd v)
def wordsOf (bs : List Byte) : List Nat := (chunks 4 (bs.length / 4 + 1) bs).map leNat
def reduceBytes (int32 canon : Bool) (inRank inOrder : List (List Byte)) (n : Nat) : List Byte :=
  let r := inRank.map wordsOf
  let a := inOrder.map wordsOf
  (List.range (n / 4)).flatMap (fun i => leBytes 4 (reduceElem int32 canon (r.map (fun w => (w[i]?).getD 0)) (a.map (fun w => (w[i]?).getD 0))))

/-- The segment an operation is at (R344): of the latest reduce stage whose next segment its own bytes cover, the stage's index and
the segment. An operation moves to its next segment when the current one has passed every reduce stage. -/
def ExOp.front (o : ExOp) (e : Nat) : Option (Nat × Nat × Nat) :=
  let base := fun (i : Nat) => (exHeld e o.total o.die (((o.reds e)[i]?).map (fun p => p.1 + 1) |>.getD 0)).1
  let got := fun (i : Nat) => base i + ((o.accs[i]?).getD []).length
  (List.range (o.reds e).length).reverse.findSome? (fun i =>
    ((o.segments e (i + 1)).find? (fun p => p.1 == got i)).bind (fun p =>
      if i = 0 ∨ p.1 + p.2 ≤ got (i - 1) then some (i, p) else none))
/-- Whether every reduce stage of an operation has passed all its segments. -/
def ExOp.reduced (o : ExOp) (e : Nat) : Bool :=
  (List.range (o.reds e).length).all (fun i =>
    decide (((o.accs[i]?).getD []).length = ((o.segments e (i + 1)).map Prod.snd).sum))
/-- Bytes that an operation's reduce stage i takes in from its own die, and where they begin. -/
def ExOp.redInput (o : ExOp) (e i : Nat) : Nat × List Byte :=
  let l := ((o.reds e)[i]?).map Prod.fst |>.getD 0
  ((exHeld e o.total o.die l).1, if i = 0 then o.vec else (o.accs[i - 1]?).getD [])

/-- The m parts of a segment, in rank order, and again in the order in which they came: a die's own comes first (R53, log 145). -/
def State.segParts (s : State) (o : ExOp) (e l i : Nat) (p : Nat × Nat) : Option (List (List Byte) × List (List Byte)) :=
  let me := rtRank e l o.die
  let own := o.redInput e i
  let at_ := fun (j : Nat) => if j = me then 0 else
    s.net.early.findIdx (fun q => decide (q.key.tag = o.tag ∧ q.key.xseq = o.xseq ∧ q.key.level = l ∧ q.key.src = j ∧
      q.key.off * 32 ≤ p.1 ∧ p.1 < q.key.off * 32 + q.bytes.length)) + 1
  (allSome ((List.range (rtSize e l)).map (fun j =>
    if j = me then some ((own.2.drop (p.1 - own.1)).take p.2) else s.stagedPart o l j p))).map (fun ps =>
      (ps, ((ps.zipIdx.map (fun (bs, j) => (at_ j, bs))).mergeSort (fun a b => decide (a.1 ≤ b.1))).map Prod.snd))

/-- Pass a reduced segment on to the next stage (R344), and the operation where it was the last. -/
def State.segForward (s : State) (o : ExOp) (e i : Nat) (p : Nat × Nat) (out : List Byte) : State :=
  let n := (o.reds e).length
  let next := (opStages o e)[i + 1]?
  let check := match next with
    | some (_, l) => if ((o.accs[i]?).getD []).length = out.length then s.exCheck o e l else none
    | none => none
  match check with
  | some st => s.abortGroup o.group st
  | none =>
    let s := match next with
      | some (k, l) => s.exSend o e k l p.1 out p.1 p.2
      | none => s
    let o := match next with
      | some (_, l) => o.hasSent e l
      | none => o
    if o.reduced e then
      let o := { o with vec := (o.accs[n - 1]?).getD [], accs := [], stage := n, segOpen := false }
      State.exGo 16 false (s.setOp o) o
    else s.setOp o

/-- REDUCE_SEGMENT (R344): the operation's segment, once every part of it is staged; it is reduced and passed on. With canonical order
off the die's own part is summed first, then the others' in the order in which they were staged: the model's choice (R53, log 145). -/
def State.reduceSegment (s : State) (d : Nat) (tag : Word) (xseq : Half) : State :=
  match s.net.ops.find? (fun o => decide (o.die = d ∧ o.tag = tag ∧ o.xseq = xseq) && o.begun && !o.finished) with
  | none => s
  | some o =>
    let e := s.routeEntry o.group
    match (opStages o e)[o.stage]?, o.front e with
    | some (1, _), some (i, p) =>
      let l := ((o.reds e)[i]?).map Prod.fst |>.getD 0
      match s.segParts o e l i p with
      | none => s
      | some (seg, order) =>
        let canon := match s.job? o.job with
          | some j => j.canon
          | none => true
        let out := reduceBytes o.int32 canon seg order p.2
        let o := { o with accs := o.accs.zipIdx.map (fun (a, k) => if k = i then a ++ out else a) }
        s.segForward o e i p out
    | _, _ => s

/-- Whether a step of a relay is open on a die of its group. -/
def State.relayOpen (s : State) (d : Nat) (tag : Word) (xseq : Half) : Bool :=
  s.net.relays.any (fun r => decide (r.tag = tag) && bit (rtDies (s.routeEntry r.group)) d &&
    decide (relayStep r.base xseq < r.n) && r.stepOpen (relayStep r.base xseq))
/-- EXCH_STALL_TIMER: an operation open without progress, a relay's step among them, is logged, never a fault. -/
def State.exchStall (s : State) (d : Nat) (tag : Word) (xseq : Half) : State :=
  if s.net.ops.any (fun o => decide (o.die = d ∧ o.tag = tag ∧ o.xseq = xseq) && !o.finished) || s.relayOpen d tag xseq then
    s.logNote 0 0xFF (BitVec.ofNat 128 (tag.toNat + xseq.toNat * 2 ^ 32 + d * 2 ^ 48))
  else s

/-! ## Relays (R219, R222) -/

/-- The relay block size of a step, its logarithm (R222, Table 17-6, R417): until the first window has passed the profile's for the group,
4 MiB where it has none; then `fits`, the smallest block whose forward still ends before the step's compute, which is measured time and
the command's to say (log 28). RELAY_BLOCK_MIN and RELAY_BLOCK_MAX bound it. -/
def State.relayBlockLog (s : State) (group fits : Nat) : Nat :=
  let want := if s.pwr.windowPassed then fits else mget 22 s.pwr.profile.relayLog group
  max (s.dv 0x1140 1).log2 (min (s.dv 0x1140 2).log2 want)

/-- RELAY_FORWARD: the shard of a begun step goes to the successor in blocks of the size in effect; the successor's port is checked, which
may drain, since the step was begun (R322, R335). The shard has wholly landed by then (DEDUCED, log 199), and the step counts as completed
(log 194). What the successor has begun and completed is the command's to say (log 28). -/
def State.relayForward (s : State) (group : Nat) (step : Half) (fits : Nat) : State :=
  let k := step.toNat
  let blockLog := s.relayBlockLog group fits
  let block := 2 ^ blockLog
  match s.net.relays.find? (fun r => decide (r.group = group) && r.begun.contains k && !r.forwarded.contains k) with
  | none => s
  | some r =>
    if r.n ≤ k + 1 ∨ (k ≠ 0 ∧ mget 0 r.landed (k - 1) < r.units * 2048) then s
    else
      let e := s.routeEntry group
      let dst := (r.rank + 1) % r.n
      match s.portCheck (rtPortTo e r.level r.rank dst) true with
      | some st => s.abortGroup group st
      | none =>
        let src := if k = 0 then r.shard else relaySlot r.xaddr r.units (k - 1)
        match s.memRead src (r.units * 2048) with
        | .error x => s.accFault x (some r.job) 0xFF 0xFF 0
        | .ok bs =>
          let xseq := r.base + step
          let s := s.readDone src (r.units * 2048)
          let s := (cut block 0 bs).foldl (fun t m =>
            t.exPost e r.level r.rank dst (exHeader r.tag xseq r.rank dst r.n r.level 4 m.1 m.2.length 0x0A) m.2) s
          let s := s.withPwr (fun w => { w with profile := { w.profile with relayLog := mset w.profile.relayLog group blockLog } })
          s.withNet (fun n => ({ n with
            relayForwards := n.relayForwards + 1, relayBlock := block
            relays := n.relays.map (fun x => if x.group = r.group ∧ x.xaddr = r.xaddr then { x with forwarded := x.forwarded ++ [k] } else x) } : Net).retireOp
              r.tag xseq)

/-! ## Exchange barrier records (R350, R352) -/

/-- The oldest barrier record of a kind at a port. -/
def takeBarrier (kind : Nat) (rs : List (BitVec 256)) : Option (BitVec 256 × List (BitVec 256)) :=
  match rs.find? (fun r => decide (bits r.toNat 7 0 = 2 ∧ bits r.toNat 23 16 = kind)) with
  | some r => some (r, rs.erase r)
  | none => none
def xrecOf (r : BitVec 256) (p : Nat) : XRecord :=
  let v := r.toNat
  ⟨BitVec.ofNat 32 (bits v 63 32), bits v 15 8, bits v 23 16, bits v 31 24, BitVec.ofNat 32 (bits v 95 64), p⟩

/-- The job whose channel is bound to an exchange barrier of a group tag. -/
def State.boundJob (s : State) (tag : Word) (chan : Nat) : Option (JobId × Barrier × Nat × Nat) :=
  s.hub.jobs.findSome? (fun j => (j.barrier? chan).bind (fun b => b.xbind.bind (fun (g, top) =>
    if rtTag (s.routeEntry g) = tag then some (j.id, b, g, top) else none)))

/-- Take a record that waits at a port: an ARRIVE goes on along its ring to rank 0, a RELEASE to the ranks whose arrivals came by this
path; an ABORT goes no further (R353). -/
def State.xTake (s : State) (p kind : Nat) : Option (XRecord × Nat × State) :=
  match takeBarrier kind (s.port p).ctrlIn with
  | none => none
  | some (r, rest) =>
    let x := xrecOf r p
    let s := s.modPort p (fun y => { y with ctrlIn := rest })
    match s.groupOfTag x.tag with
    | none => some (x, 0, s)
    | some g =>
      let e := s.routeEntry g
      let l := x.level
      let me := rtRank e l 0
      let n := rtSize e l
      let on := if l < 2 then false
        else if kind = 0 then decide (me ≠ 0)
        else if kind ≠ 1 then false
        else if p = (ringPorts l).2 then decide (me + 1 ≤ (n - 1) / 2)
        else decide ((n - 1) / 2 < me - 1)
      some (x, e, if on then s.sendCtrl (throughPort p) r else s)

/-- XBAR_ARRIVE_RECV: rank 0 of the level counts the arrival for its round, and goes on where all have arrived. -/
def State.xbarArrive (s : State) (p : Nat) : State :=
  match s.xTake p 0 with
  | none => s
  | some (x, e, s) =>
    if rtRank e x.level 0 ≠ 0 then s
    else
      let s := s.withNet (fun n => { n with xheld := n.xheld ++ [x] })
      match s.boundJob x.tag x.chan with
      | some (j, _, _, _) => s.xArrive j x.chan
      | none => s

/-- XBAR_RELEASE_RECV: a released round is passed down, and the job channel may release; a record of another round is held until the
binding reaches it (R350). -/
def State.xbarRelease (s : State) (p : Nat) : State :=
  match s.xTake p 1 with
  | none => s
  | some (x, e, s) =>
    match s.boundJob x.tag x.chan with
    | some (j, b, _, _) => if b.xsent && !b.xreleased && decide (x.round = b.xround + 1) then s.xRelease j x.chan e x.level x.round
      else s.withNet (fun n => { n with xheld := n.xheld ++ [x] })
    | none => s.withNet (fun n => { n with xheld := n.xheld ++ [x] })

/-- XBAR_ABORT_RECV (R352). -/
def State.xbarAbort (s : State) (p : Nat) : State :=
  match s.xTake p 2 with
  | none => s
  | some (x, _, s) =>
    let s := s.withNet (fun n => { n with abortsReceived := n.abortsReceived + 1 })
    ((List.range 256).filter (fun g => rtValid (s.routeEntry g) && decide (rtTag (s.routeEntry g) = x.tag))).foldl
      (fun t g => if (t.group g).aborted then t else t.abortGroup g stPeerLost) s

/-- Send ABORT for a group on every UP port it uses, and mark it ABORTED (R353). -/
def State.sendAbort (s : State) (g : Nat) : State :=
  let e := s.routeEntry g
  let ps := (rtPorts e).filter (fun p => decide ((s.port p).state = .up))
  let s := ps.foldl (fun t p =>
    let l := match ringOf p with
      | some r => 2 + r
      | none => 1
    t.sendCtrl p (xrecord 0 2 l (rtTag e) 0)) s
  (s.withNet (fun n => { n with abortsSent := n.abortsSent + BitVec.ofNat 64 ps.length })).modGroup g (fun x => { x with aborted := true })

/-! ## ROUTE_ENTRY (R333, R336) -/

/-- The checks of R333. With TOP = L0 every L1_PORT field is 0xF, the rule's own value for a field that names no port, and the other fields above
TOP are 0 (DESIGN CHOICE, log 226). -/
def routeOk (e : Nat) : Bool :=
  let top := rtTop e
  let ring := fun (l sz rk : Nat) => if top < l then decide (sz = 0 ∧ rk = 0) else decide (1 ≤ sz ∧ sz ≤ 64 ∧ rk < sz)
  let n1 := bits e 72 70
  let r1 := bits e 75 73
  decide (rtTag e ≠ 0) && decide (rtDies e ≠ 0) &&
  (if top < 1 then decide (n1 = 0 ∧ r1 = 0) else decide (1 ≤ n1 ∧ n1 ≤ 5 ∧ r1 < n1)) &&
  ring 2 (bits e 111 104) (bits e 119 112) && ring 3 (bits e 127 120) (bits e 135 128) &&
  (List.range 5).all (fun k => if k < n1 ∧ k ≠ r1 then
      decide (rtL1Port e k ≤ 3) && (List.range 5).all (fun j => decide (j = k) || decide (rtL1Port e j ≠ rtL1Port e k))
    else decide (rtL1Port e k = 15))
/-- The bits of a route entry that are not reserved (Table 14-1); the others read as zero (R8). -/
def routeMask (e : Nat) : Nat :=
  bits e 33 0 + bits e 41 40 * 2 ^ 40 + bits e 65 64 * 2 ^ 64 + bits e 95 70 * 2 ^ 70 + bits e 135 104 * 2 ^ 104
/-- ROUTE_ENTRY_WRITE: a malformed entry written over a held one answers ROUTE_BUSY (DESIGN CHOICE, log 227). A written entry arms its group again, with no message known of its tag (R353): what the module holds of the
old and the new tag, keys, staged parts and barrier records, goes (DESIGN CHOICE, log 26). -/
def State.routeWrite (s : State) : State :=
  s.serveWrite (fun i _ => decide (i = 0x1110 ∨ i = 0x1111)) (fun s _ r bs =>
    let g := (r.index - 0x1110) * 128 + r.sub - 1
    let e := routeMask (leNat bs)
    if (s.group g).holder.isSome then ⟨s, dsRouteBusy, 0, none⟩
    else if !routeOk e then ⟨s, dsRouteInvalid, 0, none⟩
    else
      let known := fun (t : Word) => decide (t = rtTag e ∨ t = rtTag (s.routeEntry g))
      let s := s.withNet (fun n => { n with
        keys := n.keys.filter (fun k => !known k.tag), retired := n.retired.filter (fun q => !known q.1)
        early := n.early.filter (fun q => !known q.key.tag), xheld := n.xheld.filter (fun q => !known q.tag) })
      let s := s.dropHeldCtrl known
      ⟨(s.setDv r.index r.sub e).modGroup g (fun x => { x with aborted := false }), dsOk, 0, none⟩)
/-- GROUP_STATE (Table 14-6). -/
def State.groupState (s : State) (g : Nat) : Nat :=
  if !rtValid (s.routeEntry g) then 0 else if (s.group g).aborted then 2 else if (s.group g).holder.isSome then 3 else 1

end Sys2Proof.Machine
end

