-- ==== Sys2Proof/Machine/Caravan.lean ====
section
/-! DEFINITION. Caravan (07): the striping of a slot over its channels, codeword reads, fills of windows and regions, slot
commands, window configuration, adapters, and the receipt of slot data on a port. -/

namespace Sys2Proof.Machine

/-! ## Flash (R172–R180) -/

/-- User bytes a slot reserves on each channel of its mask: whole extents of 16 MiB (R177). -/
def extent : Nat := 16777216
def perChannel (bytes c : Nat) : Nat := cdiv bytes (c * extent) * extent
def channelCapacity : Nat := 120000000000
/-- Bytes reserved on a channel. -/
def State.reservedOn (s : State) (ch : Nat) : Nat :=
  ((List.range 16).map (fun i => let sl := s.slot i; if sl.mask.getLsbD ch then sl.bytes / sl.channels.length else 0)).sum
/-- FLASH_FREE_BYTES: a fenced channel's capacity is lost (R175). -/
def State.flashFree (s : State) : Nat :=
  ((List.range 128).map (fun c => if (s.flashCh c).fence = 0 then channelCapacity - s.reservedOn c else 0)).sum

/-- A codeword that cannot be read: counted on its channel, listed as bad, and a SEALED slot is DEGRADED (R173, R180). -/
def State.cwLost (s : State) (i cw : Nat) : State :=
  let sl := s.slot i
  let s := s.modFlashCh (sl.channelOf cw) (fun c => { c with ue := c.ue + 1 })
  s.modSlot i (fun x => { x with
    bad := if x.bad.contains cw then x.bad else x.bad ++ [cw], degraded := x.degraded || decide (x.state = .sealed) })

/-! ## Windows (R183, R188, R197, R503) -/

/-- Bytes of a slot's window under given window fields (R183). -/
def Slot.lenUnder (sl : Slot) (mode frames : Nat) : Nat :=
  if mode = 1 then sl.dataBytes - sl.wbBytes else frames * sl.frameBytes
/-- Whether window fields pass R183 for slot i; of a slot that is not SEALED the base and the number of frames alone are checked. -/
def State.windowOk (s : State) (i mode base frames : Nat) : Bool :=
  let sl := s.slot i
  let n := sl.lenUnder mode frames
  decide (base % 2048 = 0) && decide (2 ≤ frames ∧ frames ≤ 8) && s.inOnStacks base 1 &&
  (decide (sl.state ≠ .sealed) ||
   (s.inOnStacks base n && (List.range 16).all (fun j =>
      let o := s.slot j
      decide (j = i) || !o.configured || decide (o.state ≠ .sealed) || !meets base n (s.winBase j) (s.winLen j) ||
      (decide (base = s.winBase j) && decide ((mode = 1) ↔ s.slotOnDemand j = true) && decide (frames = s.winFrames j) &&
       decide (n = s.winLen j) && decide (sl.frameBytes = o.frameBytes)))))
/-- The same of the fields in effect. -/
def State.windowValid (s : State) (i : Nat) : Bool :=
  s.windowOk i (s.dv (0x0910 + i) 7) (s.winBase i) (s.winFrames i)

/-- The slot that has an on-demand region, among those whose ranges coincide with that of slot i: jobs hold it (R197). -/
def State.regionOwner (s : State) (i : Nat) : Option Nat :=
  (List.range 16).find? (fun k => (decide (k = i) || s.sameWindow i k) && (s.slot k).owner && decide ((s.slot k).refs ≠ 0))
/-- Whether a job waits for a window that another holds (R188, R197). A layer-streaming window serves one job at a time. An on-demand
region serves one slot's jobs, and passes when that slot's count reaches 0: then to the slot of the job that was admitted first. -/
def State.windowWait (s : State) (j : Job) : Bool :=
  match j.slot with
  | none => false
  | some i =>
    let before := (s.windowJobs i).takeWhile (fun x => decide (x.id ≠ j.id))
    if s.slotOnDemand i then (match s.regionOwner i with
      | some k => decide (k ≠ i)
      | none => before.any (fun x => decide (x.slot ≠ some i)))
    else !before.isEmpty

/-- What other slots keep of the range of slot i, changed: they have the same bytes of memory. -/
def State.othersOn (s : State) (i : Nat) (f : Slot → Slot) : State :=
  (List.range 16).foldl (fun t k => if k ≠ i && t.sameWindow i k then t.modSlot k f else t) s
/-- An on-demand region passes to a slot: what other slots kept there is absent (R197). -/
def State.takeRegion (s : State) (i : Nat) : State := (s.othersOn i Slot.dropWindow).modSlot i (fun x => { x with owner := true })
/-- The region of slot i, where no slot with references has it, passes to the slot of the job that was admitted first of those that wait for
it (R197): as the count of the slot that had it reaches 0, and as a job is admitted while it stands at 0. -/
def State.passRegion (s : State) (i : Nat) : State :=
  if !s.slotOnDemand i || (s.regionOwner i).isSome then s
  else match (s.windowJobs i).head?.bind Job.slot with
    | some k => s.takeRegion k
    | none => s
/-- A job that is dispatched first takes its window: an on-demand region passes with every object absent, since what another slot kept
there is not this slot's (R197); frames keep their contents and tags until they are filled afresh (R186). The ordinals start at 0
(R185). -/
def State.claimWindow (s : State) (i : Nat) : State :=
  let s := if s.slotOnDemand i then s.takeRegion i else s
  s.modSlot i (fun x => { x with nextOrd := 0, relOrd := 0, owner := s.slotOnDemand i })
/-- A layer-streaming window loses its job: frames being filled are abandoned, the others keep their contents and tags
(R186, R200). A READY frame is RELEASED then, since no ordinal of a later job names it yet (DEDUCED, log 176). -/
def Slot.vacate (sl : Slot) : Slot :=
  { sl with
    frames := sl.frames.map (fun p => (p.1, match p.2.state with
      | .filling => {}
      | .ready => { p.2 with state := .released }
      | _ => p.2))
    demand := [] }

/-! ## Layer streaming (R185, R186) -/

/-- WINDOW_FILL (R185, R186): the next ordinal enters the lead; a RELEASED frame that holds its block becomes READY, any other
begins to fill, and holds no other slot's block any longer. -/
def State.windowFill (s : State) (i : Nat) : State :=
  match s.streamFor i with
  | none => s
  | some j =>
    let r := s.releasedTo j
    let n := s.winFrames i
    let s := s.modSlot i (fun x => x.releaseTo n r)
    let sl := s.slot i
    let q := sl.nextOrd
    if r + s.depthOf i ≤ q ∨ s.hub.sweeping = true ∨ sl.blockCount = 0 then s
    else
      let f := sl.frame (q % n)
      let tag := (i, q % sl.blockCount)
      let keeps := decide (f.state = .released ∧ f.tag = some tag ∧ f.failed = [])
      let g : Frame := if keeps then { f with state := .ready } else { state := .filling, tag := some tag }
      let s := if keeps then s else s.othersOn i (fun x => { x with frames := mdel x.frames (q % n) })
      s.setSlot i { sl with frames := mset sl.frames (q % n) g, nextOrd := q + 1 }

/-- The bytes of a codeword that lie in a span of the stream: their offset and value. -/
def Slot.cwBytes (sl : Slot) (cw lo hi : Nat) : Nat × List Byte :=
  let a := max lo (4096 * cw)
  (a, sl.stream.readBytes a (min hi (4096 * cw + 4096) - a))

/-- A filling frame that still wants a codeword. -/
def Slot.wants (sl : Slot) (cw : Nat) : Option (Nat × Nat) :=
  (sl.frames.find? (fun p => decide (p.2.state = .filling) && !p.2.got.contains cw && (match p.2.tag with
    | some (_, b) => (codewordsOf (sl.blockOff b) (sl.blockBytes b)).contains cw
    | none => false))).bind (fun p => p.2.tag.map (fun t => (p.1, t.2)))

/-- How the bytes of a codeword reached a window. -/
inductive Landed where
  | here
  | lost
  | faulted
  deriving DecidableEq, Repr

/-- The absent objects that an entry's reads meet, in the order in which it reads them. -/
def State.absentObjs (s : State) (c i : Nat) (e : QEntry) : List Nat :=
  let sl := s.slot i
  (s.deviceReads c e).flatMap (fun r => ((sl.regionObjs (r.1 - s.winBase i) (r.2 - max r.1 (s.winBase i))).map ObjLoc.obj).filter
    (fun o => !sl.present.contains o && !sl.failedObj.contains o))
/-- The job for which slot i is filled: the first that holds its range, and of a region that no job holds the one whose instruction waits
there (R189). -/
def State.fillJob (s : State) (i : Nat) : Option JobId :=
  match s.windowJobs i with
  | j :: _ => some j.id
  | [] => s.cores.findSome? (fun p =>
      if (p.2.queue.filter QEntry.waits).any (fun e => !(s.absentObjs p.1 i e).isEmpty) then (s.coreJob p.1).map Job.id else none)

/-- Write a codeword's bytes to the window of slot i. A write that fails loses the objects of a rewrite, with the error counted; of a first
fill it is the fault MEM_UE of the job that holds the window (Tables 6-4 and 7-5; DESIGN CHOICE where a codeword is of both, log 228). -/
def State.windowWrite (s : State) (i a : Nat) (bs : List Byte) (rewrite : Bool) : Landed × State :=
  match s.memWriteOwn a bs with
  | .ok t => (.here, t)
  | .error (e, t) =>
    if rewrite then (.lost, t.countErr e) else (.faulted, t.accFault e (s.fillJob i) 0xFF 0xFF 0)

/-- A codeword's outcome at a frame: it has arrived, or the objects that overlap it are FAILED; the frame is READY once its whole block is
settled (R186, R192). -/
def State.frameMark (s : State) (i f b cw : Nat) (here : Bool) : State :=
  let sl := s.slot i
  let fr := sl.frame f
  let fr := if here then { fr with got := fr.got ++ [cw], failed := fr.failed.filter (fun o =>
        !(sl.objsOf b).any (fun x => decide (x.obj = o) && x.cws.all (cw :: fr.got).contains)) }
    else { fr with failed := (fr.failed ++ ((sl.objsOf b).filter (fun o => o.cws.contains cw)).map ObjLoc.obj).eraseDups }
  let fr := { fr with rewrite := fr.rewrite.filter (fun o => !(sl.objsOf b).any (fun x => decide (x.obj = o) && fr.settled x)) }
  let done := (sl.objsOf b).all fr.settled
  s.modSlot i (fun x => { x with frames := mset x.frames f { fr with state := if done then .ready else .filling } })
/-- A codeword arrives at a frame, readable or not: its bytes are stored first. -/
def State.frameGot (s : State) (i f b cw : Nat) (ok : Bool) : State :=
  let sl := s.slot i
  if !ok then s.frameMark i f b cw false
  else
    let (a, bs) := sl.cwBytes cw (sl.blockOff b) (sl.blockOff b + sl.blockBytes b)
    match s.windowWrite i (s.winBase i + f * sl.frameBytes + (a - sl.blockOff b)) bs
        ((sl.objsOf b).any (fun o => (sl.frame f).rewrite.contains o.obj && o.cws.contains cw)) with
    | (.here, t) => t.frameMark i f b cw true
    | (.lost, t) => t.frameMark i f b cw false
    | (.faulted, t) => t

/-- A codeword's outcome at an on-demand region (R189, R192): an object is present, and no longer FAILED, once all its codewords have
come; of one that is lost, every object that overlaps it is FAILED. -/
def State.regionMark (s : State) (i cw : Nat) (here : Bool) : State :=
  let sl := s.slot i
  let hit := sl.allObjs.filter (fun o => sl.demand.contains o.obj && o.cws.contains cw)
  if here then
    let got := cw :: sl.got
    let done := (hit.filter (fun o => o.cws.all got.contains)).map ObjLoc.obj
    s.modSlot i (fun x => { x with
      got := got, present := (x.present ++ done).eraseDups, demand := x.demand.filter (fun o => !done.contains o)
      failedObj := x.failedObj.filter (fun o => !done.contains o), rewrite := x.rewrite.filter (fun o => !done.contains o) })
  else
    let lost := (sl.allObjs.filter (fun o => o.cws.contains cw)).map ObjLoc.obj
    s.modSlot i (fun x => { x with
      failedObj := (x.failedObj ++ lost).eraseDups, demand := x.demand.filter (fun o => !lost.contains o)
      rewrite := x.rewrite.filter (fun o => !lost.contains o) })
/-- A codeword arrives for an on-demand region, readable or not: its bytes are stored first. -/
def State.regionGot (s : State) (i cw : Nat) (ok : Bool) : State :=
  let sl := s.slot i
  if !sl.allObjs.any (fun o => sl.demand.contains o.obj && o.cws.contains cw) then s
  else if !ok then s.regionMark i cw false
  else
    let (a, bs) := sl.cwBytes cw sl.wbBytes sl.dataBytes
    match s.windowWrite i (s.winBase i + (a - sl.wbBytes)) bs (sl.allObjs.any (fun o => sl.rewrite.contains o.obj && o.cws.contains cw)) with
    | (.here, t) => t.regionMark i cw true
    | (.lost, t) => t.regionMark i cw false
    | (.faulted, t) => t

/-- How often a codeword was read again: one that stays unreadable FLASH_READ_RETRIES times, on a fenced channel never (R173, R175). -/
def State.cwTries (s : State) (sl : Slot) (cw : Nat) (readable : Bool) (retries : Nat) : Nat :=
  if s.cwFenced sl cw then 0 else if readable then min retries (s.dv 0x0901 1) else s.dv 0x0901 1
def State.countTries (s : State) (sl : Slot) (cw n : Nat) : State :=
  s.modFlashCh (sl.channelOf cw) (fun c => { c with retries := c.retries + BitVec.ofNat 64 n })

/-- CODEWORD_READ_DONE: a read of a codeword that a frame or a region waits for ends. A fenced channel's codewords are unreadable
without retries (R173, R175); an access to a flash group that is OFF is the job's bus error (R409). -/
def State.codewordDone (s : State) (i cw : Nat) (readable : Bool) (retries : Nat) : State :=
  let s := match s.streamFor i with
    | some j => s.modSlot i (fun x => x.releaseTo (s.winFrames i) (s.releasedTo j))
    | none => s
  let sl := s.slot i
  let ok := readable && !s.cwFenced sl cw
  let region := decide (sl.window = 1) && s.slotOnDemand i && sl.allObjs.any (fun o => sl.demand.contains o.obj && o.cws.contains cw)
  let want := if decide (sl.window = 1) && !s.slotOnDemand i && (s.streamFor i).isSome then sl.wants cw else none
  if s.hub.sweeping || !(region || want.isSome) then s
  else if s.flashOff (sl.channelOf cw) then s.jobFault (s.fillJob i) { status := stBusError }
  else
    let s := s.countTries sl cw (s.cwTries sl cw readable retries)
    let s := s.bumpBw (32 + sl.channelOf cw / 16) 4096
    let s := if ok then s else s.cwLost i cw
    match want with
    | some (f, b) => s.frameGot i f b cw ok
    | none => s.regionGot i cw ok

/-! ## On demand (R189) -/

/-- An object and the ON_DEMAND_PREFETCH objects after it. -/
def State.withPrefetch (s : State) (i o : Nat) : List Nat :=
  o :: ((List.range (s.dv 0x0901 5)).map (fun n => o + 1 + n)).filter (fun x => decide (x < (s.slot i).objectCount))
/-- What core c's waiting instructions newly demand of the region of slot i: the absent objects they read, each with the prefetch after it. A
FAILED object is fetched again where it stands in a prefetch (R192). -/
def State.newDemand (s : State) (c i : Nat) : List Nat :=
  let sl := s.slot i
  let want := ((s.core c).queue.filter QEntry.waits).flatMap (fun e => (s.absentObjs c i e).flatMap (s.withPrefetch i))
  (want.filter (fun o => !(sl.present.contains o && !sl.failedObj.contains o) && !sl.demand.contains o)).eraseDups
/-- ON_DEMAND_FETCH: the absent objects that a core's waiting instructions read are demanded, of every on-demand region they read, whichever
slot the job holds (R189). A slot that demands has its region. -/
def State.onDemandFetch (s : State) (c : Nat) : State :=
  if (s.coreJob c).isNone then s
  else (List.range 16).foldl (fun t i =>
    let new := s.newDemand c i
    if !s.slotOnDemand i || decide ((s.slot i).window ≠ 1) || decide (s.rangeSlot i ≠ i) || new.isEmpty then t
    else t.modSlot i (fun x => { x with demand := x.demand ++ new, owner := true })) s

/-! ## Slot commands (Table 7-11) -/

/-- SLOT_CREATE (Table 7-11). A mask that names a channel that is fenced or OFF answers NO_SPACE (DESIGN CHOICE, log 173). -/
def State.slotCreate (s : State) : State :=
  s.serveWrite (fun i u => decide (i = 0x0930 ∧ u = 1)) (fun s _ _ bs =>
    let i := par bs 0 1; let n := par bs 8 8; let mask : BitVec 128 := BitVec.ofNat 128 (par bs 16 16)
    let cs := (List.range 128).filter (fun c => mask.getLsbD c)
    let per := perChannel n cs.length
    if 16 ≤ i then ⟨s, dsOutOfRange, 0, none⟩
    else if (s.slot i).state ≠ .free then ⟨s, dsSlotState, 0, none⟩
    else if cs.isEmpty ∨ n = 0 then ⟨s, dsRange, 0, none⟩
    else if cs.any (fun c => decide ((s.flashCh c).fence ≠ 0) || s.flashOff c || decide (channelCapacity < s.reservedOn c + per)) then
      ⟨s, dsNoSpace, 0, none⟩
    else
      let (t, s) := s.stamp
      ⟨s.modSlot i (fun x => { x with
        state := .writing, bytes := per * cs.length, mask := mask, stream := ({} : Mem).forget 0 (per * cs.length) t
        written := [], bad := [], degraded := false }), dsOk, 0, none⟩)

/-- The SLOT_WRITEs of a slot that run. -/
def State.writesOf (s : State) (i : Nat) : List (RunCmd × SlotWrite) :=
  (s.por.cmds.filterMap (fun c => (slotWriteOf c).map (fun w => (c, w)))).filter (fun p => decide (p.2.slot = i))

/-- SLOT_WRITE starts (R198): its range must lie in the reservation and meet no written byte and no running write; a source in
memory lies wholly in stacks that are ON and not fenced; writes open on one port do not overlap (R325). A slot with a channel that is OFF
takes no command (log 173). -/
def State.slotWrite (s : State) : State :=
  s.serveWrite (fun i u => decide (i = 0x0930 ∧ u = 2)) (fun s f r bs =>
    let i := par bs 0 1; let src := par bs 1 1; let port := par bs 2 1
    let off := par bs 8 8; let a := par bs 16 8; let n := par bs 24 8
    if 16 ≤ i ∨ 2 ≤ src ∨ (src = 1 ∧ 8 ≤ port) then ⟨s, dsOutOfRange, 0, none⟩
    else
      let sl := s.slot i
      if sl.state ≠ .writing ∨ sl.sealing ∨ s.slotOff i then ⟨s, dsSlotState, 0, none⟩
      else if off % 2048 ≠ 0 ∨ n % 2048 ≠ 0 ∨ sl.bytes < off + n ∨ sl.written.any (fun w => meets off n w.1 w.2) ∨
          (s.writesOf i).any (fun w => meets off n w.2.off w.2.len) ∨ (src = 0 ∧ n ≠ 0 ∧ s.inOnStacks a n = false) then ⟨s, dsRange, 0, none⟩
      else s.accept f r bs (fun s _ => s))

/-- SLOT_SEAL starts. -/
def State.slotSeal (s : State) : State :=
  s.serveWrite (fun i u => decide (i = 0x0930 ∧ u = 3)) (fun s f r bs =>
    let i := par bs 0 1
    if bs.length ≠ 2 then ⟨s, dsType, 0, none⟩
    else if 16 ≤ i ∨ 2 ≤ par bs 1 1 then ⟨s, dsOutOfRange, 0, none⟩
    else if (s.slot i).state ≠ .writing ∨ (s.slot i).sealing ∨ s.slotOff i then ⟨s, dsSlotState, 0, none⟩
    else s.accept f r bs (fun s _ => s.modSlot i (fun x => { x with sealing := true })))

/-- One object of check 6 of R182. -/
def objOk (v : Nat) : Bool :=
  let kind := bits v 31 28
  let fmt := bits v 27 24
  let size := bits v 23 0 * 2048
  if kind = 2 then decide (fmt = 0) && decide (bits v 63 32 = 0)
  else decide (kind ≤ 1) && decide (1 ≤ fmt ∧ fmt ≤ 11 ∧ fmt ≠ 6) && decide (size = tileBytes fmt)
/-- The number of the first check of R182 that a waybill fails; none where it passes. -/
def Slot.waybillCheck (sl : Slot) : Option Nat :=
  let n := sl.wbBytes; let bc := sl.blockCount; let oc := sl.objectCount
  let raw := sl.stream.readBytes 0 n
  let crc := crc32c (raw.take 60 ++ [0, 0, 0, 0] ++ raw.drop 64)
  let bl := List.range bc
  let next := fun (b : Nat) => sl.blockOff b + sl.blockBytes b
  if bits sl.header 15 0 ≠ 1 ∨ n % 2048 ≠ 0 ∨ n < 2048 ∨ sl.bytes < n ∨ crc.toNat ≠ bits sl.header 511 480 then some 1
  else if bc = 0 ∨ 4096 < bc ∨ oc = 0 ∨ n < 64 + 32 * bc + 8 * oc ∨ sl.frameBytes % 2048 ≠ 0 ∨ sl.dataBytes % 2048 ≠ 0 ∨
      sl.bytes < sl.dataBytes then some 2
  else if sl.blockOff 0 ≠ n ∨ bl.any (fun b => decide (b + 1 < bc ∧ sl.blockOff (b + 1) ≠ next b)) ∨ next (bc - 1) ≠ sl.dataBytes then some 3
  else if sl.blockFirst 0 ≠ 0 ∨ bl.any (fun b => decide (b + 1 < bc ∧ sl.blockFirst (b + 1) ≠ sl.blockFirst b + sl.blockObjs b)) ∨
      sl.blockFirst (bc - 1) + sl.blockObjs (bc - 1) ≠ oc then some 4
  else if bl.any (fun b => decide (sl.blockBytes b ≠ ((sl.objsOf b).map ObjLoc.size).sum ∨ sl.frameBytes < sl.blockBytes b)) then some 5
  else if (List.range oc).any (fun o => !objOk (sl.objRec o)) then some 6
  else none

/-- A seal ends (R182): an unreadable codeword of the waybill is check 0; with verification every unreadable codeword of the data
is listed, and the slot seals DEGRADED. What its reads took is counted (R173), and the bytes it read, also where the waybill is INVALID
(R488, R504). A write that still runs on the sealed slot ends
(log 29). The window is then checked (R503). -/
def State.sealEnd (s : State) (c : RunCmd) (unread : List Nat) (retried : List (Nat × Nat)) : State :=
  let i := par c.params 0 1
  let sl := s.slot i
  let s := unread.eraseDups.foldl (fun t w => t.countTries sl w (s.cwTries sl w false 0)) s
  let s := (retried.filter (fun p => !unread.contains p.1)).foldl (fun t p => t.countTries sl p.1 (s.cwTries sl p.1 true p.2)) s
  let bad := fun (lo n : Nat) => (codewordsOf lo n).filter (fun w => s.cwFenced sl w || unread.contains w)
  let s := s.modSlot i (fun x => { x with sealing := false })
  let first := bad 0 64
  let wb := if first = [] ∧ sl.wbBytes ≤ sl.bytes then bad 0 sl.wbBytes else first
  let whole := decide (first = [] ∧ sl.wbBytes ≤ sl.bytes)
  let invalid := fun (t : State) (n : Nat) => (t.countFlash 32 sl 0 (if whole then sl.wbBytes else 64)).endCmd c.ticket dsWaybill n 0
  if wb ≠ [] then invalid (wb.foldl (fun t w => t.cwLost i w) s) 0
  else match sl.waybillCheck with
    | some n => invalid s n
    | none =>
      let lost := if par c.params 1 1 = 1 then bad 0 sl.dataBytes else []
      let s := s.countFlash 32 sl 0 (if par c.params 1 1 = 1 then sl.dataBytes else sl.wbBytes)
      let s := s.modSlot i (fun x => { x with
        state := .sealed, modelId := BitVec.ofNat 64 (bits x.header 127 64), modelVersion := BitVec.ofNat 32 (bits x.header 159 128) })
      let s := lost.foldl (fun t w => t.cwLost i w) s
      let s := s.modSlot i (fun x => { x.dropWindow with
        degraded := decide (x.bad ≠ []) || x.channels.any (fun ch => decide ((s.flashCh ch).fence ≠ 0)) })
      let s := (s.writesOf i).foldl (fun t w => t.endCmd w.1.ticket dsSlotState 0 0) s
      let s := if (s.slot i).configured && s.windowValid i then s.modSlot i (fun x => { x with window := 1 }) else s
      s.endCmd c.ticket dsOk 0 0

/-- The block and object tables of a slot (R196). -/
def Slot.tables (sl : Slot) : List Byte := sl.stream.readBytes 64 (32 * sl.blockCount + 8 * sl.objectCount)
/-- The checks of R196: none where SLOT_MAP may change. -/
def State.switchCheck (s : State) (n t : Nat) : Option Nat :=
  let cur := s.dv 0x0920 (n + 1)
  if (s.slot t).state ≠ .sealed then some dsSlotState
  else if t = cur ∨ (s.slot cur).state ≠ .sealed then none
  else if (s.slot t).blockCount ≠ (s.slot cur).blockCount ∨ (s.slot t).objectCount ≠ (s.slot cur).objectCount ∨
      (s.slot t).tables ≠ (s.slot cur).tables ∨ s.dv (0x0910 + t) 7 ≠ s.dv (0x0910 + cur) 7 ∨
      s.dv (0x0910 + t) 8 ≠ s.dv (0x0910 + cur) 8 ∨ s.dv (0x0910 + t) 9 ≠ s.dv (0x0910 + cur) 9 then some dsLayout
  else none
def State.switchTo (s : State) (n t : Nat) : Ans :=
  match s.switchCheck n t with
  | some e => ⟨s, e, 0, none⟩
  | none => ⟨s.setDv 0x0920 (n + 1) t, dsOk, 0, none⟩
/-- SLOT_SWITCH. -/
def State.slotSwitch (s : State) : State :=
  s.serveWrite (fun i u => decide (i = 0x0930 ∧ u = 4)) (fun s _ _ bs =>
    if bs.length ≠ 2 then ⟨s, dsType, 0, none⟩
    else if 16 ≤ par bs 0 1 ∨ 16 ≤ par bs 1 1 then ⟨s, dsOutOfRange, 0, none⟩
    else s.switchTo (par bs 0 1) (par bs 1 1))
/-- SLOT_MAP_WRITE: a write of SLOT_MAP acts as SLOT_SWITCH (Table 7-10). -/
def State.slotMapWrite (s : State) : State :=
  s.serveWrite (fun i u => decide (i = 0x0920 ∧ 1 ≤ u)) (fun s _ r bs => s.switchTo (r.sub - 1) (leNat bs))

/-- SLOT_ERASE starts (R179, R197, R504); running writes of the slot end with SLOT_STATE (log 29). -/
def State.slotErase (s : State) : State :=
  s.serveWrite (fun i u => decide (i = 0x0930 ∧ u = 5)) (fun s f r bs =>
    let i := leNat bs
    if 16 ≤ i then ⟨s, dsOutOfRange, 0, none⟩
    else
      let sl := s.slot i
      if (sl.state ≠ .writing ∧ sl.state ≠ .sealed) ∨ sl.sealing ∨ s.slotOff i then ⟨s, dsSlotState, 0, none⟩
      else if sl.refs ≠ 0 then ⟨s, dsSlotBusy, 0, none⟩
      else s.accept f r bs (fun s _ =>
        let s := (s.writesOf i).foldl (fun t w => t.endCmd w.1.ticket dsSlotState 0 0) s
        s.modSlot i (fun x => { x.dropWindow with state := .erasing, window := 0 })))
/-- A slot is erased and FREE. Each of its blocks has one cycle more; whether the most worn block of a channel is one of them is free
(R174, log 157). -/
def State.freeSlot (s : State) (i : Nat) : State :=
  let cs := (s.slot i).channels
  let s := s.modSlot i (fun x => { ({} : Slot) with configured := x.configured, depth := x.depth })
  cs.foldl (fun (t : State) ch => let (q, t) := t.draw; t.modFlashCh ch (fun x => { x with cycles := x.cycles + q.toNat % 2 })) s
/-- An erase ends. -/
def State.eraseEnd (s : State) (c : RunCmd) : State := (s.freeSlot (par c.params 0 1)).endCmd c.ticket dsOk 0 0

/-- FLASH_WEAR (R174): a percentage of 3,000 cycles, rounded down, saturating. -/
def FlashChannel.wear (c : FlashChannel) : Nat := min 255 (100 * c.cycles / 3000)

/-- Fence a flash channel with a FLASH_CHANNEL_STATE code; SEALED slots with it in their masks are DEGRADED (R175, R180). -/
def State.fenceFlash (s : State) (ch code : Nat) : State :=
  let before := s.tier
  let s := s.modFlashCh ch (fun c => { c with fence := code })
  let hit := fun i => decide ((s.slot i).state = .sealed) && (s.slot i).mask.getLsbD ch
  let s := (List.range 16).foldl (fun t i => if hit i then t.modSlot i (fun x => { x with degraded := true }) else t) s
  (s.logEvent 0 0 (0x20 + ch / 16) (BitVec.ofNat 128 ch)).noteTier before
/-- FLASH_FENCE. Of a channel that is fenced already it answers OK, and FLASH_CHANNEL_STATE keeps its code (DESIGN CHOICE, log 219). -/
def State.flashFence (s : State) : State :=
  s.serveWrite (fun i u => decide (i = 0x0930 ∧ u = 6)) (fun s _ _ bs =>
    let ch := leNat bs
    if 128 ≤ ch then ⟨s, dsOutOfRange, 0, none⟩
    else if (s.flashCh ch).fence ≠ 0 then ⟨s, dsOk, 0, none⟩
    else ⟨s.fenceFlash ch 3, dsOk, 0, none⟩)

/-- WINDOW_CONFIG_WRITE (R183, R503): SLOT_MODE, WIN_BASE or WIN_FRAMES of a slot without references. A write that a busy slot and its
placement both refuse answers SLOT_BUSY (DESIGN CHOICE, log 220). -/
def State.windowConfig (s : State) : State :=
  s.serveWrite (fun i u => decide (0x0910 ≤ i ∧ i < 0x0920) && decide (7 ≤ u ∧ u ≤ 9)) (fun s _ r bs =>
    let i := r.index - 0x0910
    let v := leNat bs
    let get := fun u => if r.sub = u then v else s.dv r.index u
    if (s.slot i).refs ≠ 0 then ⟨s, dsSlotBusy, 0, none⟩
    else if s.windowOk i (get 7) (get 8) (get 9) = false then ⟨s, dsWindow, 0, none⟩
    else ⟨(s.setDv r.index r.sub v).modSlot i (fun x => { x.dropWindow with
      configured := true, window := if x.state = .sealed then 1 else 0 }), dsOk, 0, none⟩)

/-! ## Adapters (R193–R195) -/

def State.adapterAddr (s : State) (i : Nat) : Nat := s.dv 0x0A00 1 + 64 * i
/-- Replace the low four bits of an adapter entry: STATE and FLAGS. An entry that cannot be read stays as it is, and the error is
counted. -/
def State.setAdapterBits (s : State) (i v : Nat) : State :=
  match s.memRead (s.adapterAddr i) 64 with
  | .ok bs => (s.readDone (s.adapterAddr i) 64).memWriteHub (s.adapterAddr i) (leBytes 64 (putBits (leNat bs) 3 0 v))
  | .error e => s.countErr e
def adModel (r : Nat) : Nat := bits r 511 448
def adDown (r : Nat) : Nat := bits r 171 132
def State.adapterRefs (s : State) (i : Nat) : Nat := mget 0 s.car.adapterRefs i
def State.setAdapterRefs (s : State) (i n : Nat) : State := { s with car := { s.car with adapterRefs := mset s.car.adapterRefs i n } }
/-- ADAPTERS_LOADED. -/
def State.adaptersLoaded (s : State) : Nat := (List.range 4096).countP (fun i => decide (adState (s.adapterRec i) = 1 ∨ adState (s.adapterRec i) = 2))

/-- An entry to load with its reserved bits zero: what is written to them is ignored (R8). -/
def adapterClean (v : Nat) : Nat := putBits (putBits v 447 172 0) 69 4 0
/-- Whether an entry to load is well formed (Table 7-6): one whose STATE or FLAGS is set, or whose fields are out of their ranges, answers
OUT_OF_RANGE, before the state of its entry is looked at (DESIGN CHOICE, log 171). -/
def adapterOk (v : Nat) : Bool :=
  decide (bits v 3 0 = 0) && decide (adUp v % 2048 = 0) &&
  decide (adDown v % 2048 = 0) && decide (1 ≤ adTiles v ∧ adTiles v ≤ 256) && decide (1 ≤ adRank v ∧ adRank v ≤ 256) &&
  decide (1 ≤ adFmt v ∧ adFmt v ≤ 11 ∧ adFmt v ≠ 6)
/-- ADAPTER_LOAD (R194); of the down-projection tiles, whose number the entry does not give, the first is checked (log 30). -/
def State.adapterLoad (s : State) : State :=
  s.serveWrite (fun i u => decide (i = 0x0A00 ∧ u = 2)) (fun s _ _ bs =>
    let i := par bs 0 2; let v := adapterClean (par bs 2 64)
    let r := s.adapterRec i
    if 4096 ≤ i ∨ adapterOk v = false then ⟨s, dsOutOfRange, 0, none⟩
    else
    let s := s.hubGot (s.adapterAddr i, 64)
    if adState r ≠ 0 then ⟨s, dsAdapterBusy, 0, none⟩
    else if s.meetsWeight (adUp v) (adTiles v * tileBytes (adFmt v)) || s.meetsWeight (adDown v) (tileBytes (adFmt v)) then
      ⟨s, dsWindow, 0, none⟩
    else ⟨(s.memWriteHub (s.adapterAddr i) (leBytes 64 (v + 1))).setAdapterRefs i 0, dsOk, 0, none⟩)
/-- ADAPTER_UNLOAD (R194): a referenced entry drains, another is EMPTY at once; one that is not LOADED stays as it is, with OK (DESIGN
CHOICE, log 178). -/
def State.adapterUnload (s : State) : State :=
  s.serveWrite (fun i u => decide (i = 0x0A00 ∧ u = 3)) (fun s _ _ bs =>
    let i := leNat bs
    if 4096 ≤ i then ⟨s, dsOutOfRange, 0, none⟩
    else if adState (s.adapterRec i) ≠ 1 then ⟨s.hubGot (s.adapterAddr i, 64), dsOk, 0, none⟩
    else if s.adapterRefs i = 0 then ⟨s.setAdapterBits i 0, dsOk, 0, none⟩
    else ⟨s.setAdapterBits i (bits (s.adapterRec i) 3 2 * 4 + 2), dsOk, 0, none⟩)
/-- A job gives up an adapter; trainable and faulted or cancelled, it is INCOMPLETE (R194, R195, R374). -/
def State.releaseAdapter (s : State) (i : Nat) (trainable incomplete : Bool) : State :=
  let n := s.adapterRefs i - 1
  let r := s.adapterRec i
  let flags := if trainable then (if incomplete then 2 else 0) else bits r 3 2
  let st := if adState r = 2 ∧ n = 0 then 0 else adState r
  let s := (s.setAdapterRefs i n).setAdapterBits i (if st = 0 then 0 else flags * 4 + st)
  if trainable then { s with car := { s.car with trainable := mdel s.car.trainable i } } else s

/-! ## Slot data on a port (R323, R325) -/

/-- BULK_SLOT_DATA_RECV: the front BULK message of a port is matched to a SLOT_WRITE, or discarded and counted. -/
def State.slotDataRecv (s : State) (p : Nat) : State :=
  if (s.bulkHead p).all (fun h => decide (bits h 7 0 = 2)) then s
  else match s.bulkTake p with
    | (none, t) => t
    | (some (h, flits), t) =>
      let off := bits h 255 192; let n := bits h 191 160
      let own := if bits h 7 0 ≠ 1 ∨ n = 0 ∨ n % 2048 ≠ 0 ∨ bulkMax < n then none
        else (s.writesOf (bits h 159 152)).find? (fun w => decide (w.2.source = 1 ∧ w.2.port = p) && within off n w.2.off w.2.len &&
          !w.1.arrived.any (fun a => meets off n (w.2.off + a.1) a.2))
      match own with
      | none => t.modPort p (fun x => { x with unmatched := x.unmatched + 1 })
      | some w =>
        (t.program w.2.slot off ((flits.flatMap flitBytes).take n)).modCmd w.1.ticket (fun c =>
          { c with arrived := c.arrived ++ [(off - w.2.off, n)] })

def execWindowFill (slot : SlotId) (s : State) : Res := .next (s.windowFill slot)
def execCodewordReadDone (slot : SlotId) (cw : Nat) (readable : Bool) (retries : Nat) (s : State) : Res :=
  .next (s.codewordDone slot cw readable retries)
def execOnDemandFetch (c : CoreId) (s : State) : Res := .next (s.onDemandFetch c)
def execSlotCreate (s : State) : Res := .next s.slotCreate
def execSlotWrite (s : State) : Res := .next s.slotWrite
def execSlotSeal (s : State) : Res := .next s.slotSeal
def execSlotSwitch (s : State) : Res := .next s.slotSwitch
def execSlotMapWrite (s : State) : Res := .next s.slotMapWrite
def execSlotErase (s : State) : Res := .next s.slotErase
def execFlashFence (s : State) : Res := .next s.flashFence
def execWindowConfigWrite (s : State) : Res := .next s.windowConfig
def execAdapterLoad (s : State) : Res := .next s.adapterLoad
def execAdapterUnload (s : State) : Res := .next s.adapterUnload
def execBulkSlotDataRecv (p : PortId) (s : State) : Res := .next (s.slotDataRecv p)

end Sys2Proof.Machine
end

