-- ==== Sys2Proof/Machine/Pairs.lean ====
section
/-! DEFINITION. Queue pairs (R358–R361): records, doorbells, fetch, completion entries (R375) and their signals. -/

namespace Sys2Proof.Machine

def Pair.sqSize (p : Pair) : Nat := 2 ^ (p.sqLog.toNat + 4)
def Pair.cqSize (p : Pair) : Nat := 2 ^ (p.cqLog.toNat + 4)

/-! ## Submission entries (Tables 15-5, 15-6) -/

def eOp (e : Desc) : Nat := bits e.toNat 7 0
def eTag (e : Desc) : JobId := BitVec.ofNat 32 (bits e.toNat 63 32)
def eTarget (e : Desc) : JobId := BitVec.ofNat 32 (bits e.toNat 95 64)
def eStream (e : Desc) : Nat := bits e.toNat 79 64
/-- Whether every bit that Table 15-6 does not name for the operation is zero. -/
def eClean (e : Desc) : Bool :=
  let v := e.toNat
  decide (bits v 31 8 = 0) &&
  (match eOp e with
   | 0 => decide (bits v 511 64 = 0)
   | 2 => decide (bits v 511 96 = 0)
   | _ => decide (bits v 511 80 = 0))

/-! ## Completion entries (Table 15-10, R360) -/

/-- What a completion entry says beside its position. -/
structure Completion where
  tag : JobId
  status : Byte
  noncanon : Bool := false
  preempted : Bool := false
  late : Bool := false
  epoch : Nat := 0
  ended : Nat := 0
  wait : Nat := 0
  run : Nat := 0
  dups : Nat := 0

def entryOf (c : Completion) (head : Half) (seq : Word) (phase : Bool) : BitVec 256 :=
  let b := fun (p : Bool) (i : Nat) => if p then 2 ^ i else 0
  BitVec.ofNat 256 (c.status.toNat + b c.noncanon 8 + b c.preempted 9 + b c.late 10 + b phase 15 + head.toNat * 2 ^ 16 +
    c.tag.toNat * 2 ^ 32 + c.epoch % 2 ^ 16 * 2 ^ 64 + c.ended % 2 ^ 16 * 2 ^ 80 + seq.toNat * 2 ^ 96 + c.wait % 2 ^ 48 * 2 ^ 128 +
    c.run % 2 ^ 48 * 2 ^ 176 + c.dups % 2 ^ 32 * 2 ^ 224)

/-- Completion entries that pair n still owes: of its jobs, of the CANCELs that wait, and of its fetched entry (R359). -/
def State.pairOwed (s : State) (n : Nat) : Nat :=
  s.hub.jobs.countP (fun j => j.pair == n) + (s.hub.jobs.map (fun j => j.cancels.countP (fun c => c.1 == n))).sum +
  (if (s.pair n).fetched.isSome then 1 else 0)
/-- A DRAINING pair that owes nothing goes OFF (R361). -/
def State.pairDrain (s : State) (n : Nat) : State :=
  if (s.pair n).qstate = .draining ∧ s.pairOwed n = 0 then s.modPair n (fun p => { p with qstate := .off }) else s

/-- Write a completion entry; the vector is signalled after COAL_COUNT entries (R360). -/
def State.writeCompletion (s : State) (n : Nat) (c : Completion) : State :=
  let p := s.pair n
  let seq := s.hub.completionSeq + 1
  let s := (s.withHub (fun h => { h with completionSeq := seq })).emit (.completion n p.cqTail.toNat (entryOf c p.sqHead seq p.phase))
  let wrap := decide (p.cqTail.toNat + 1 = p.cqSize)
  let full := decide (max 1 p.coalCount.toNat ≤ p.unsignalled + 1)
  let s := s.modPair n (fun p => { p with
    cqTail := if wrap then 0 else p.cqTail + 1, phase := if wrap then !p.phase else p.phase, cqUsed := p.cqUsed + 1
    unsignalled := if full then 0 else p.unsignalled + 1 })
  if full then s.signal p.vector.toNat else s

/-- Complete the fetched entry of pair n. -/
def State.completeFetched (s : State) (n : Nat) (tag : JobId) (status : Byte) : State :=
  let s := s.modPair n (fun p => { p with fetched := none, fetchedLive := false, waits := false })
  (s.writeCompletion n { tag := tag, status := status }).pairDrain n

/-- CQ_COAL_TIMEOUT (R360): COAL_TIME has passed since the first entry that is not signalled. -/
def State.coalTimeout (s : State) (n : Nat) : State :=
  let p := s.pair n
  if p.unsignalled = 0 ∨ p.coalTime = 0 then s
  else (s.modPair n (fun p => { p with unsignalled := 0 })).signal p.vector.toNat

/-! ## Doorbells (R359, R360) -/

/-- SQ_TAIL_DOORBELL: a tail at or beyond the queue size is ignored and logged; a pair that is OFF takes no doorbell (log 32). -/
def State.sqTail (s : State) (n : Nat) (tail : Word) : State :=
  let p := s.pair n
  if !s.hostReaches || decide (p.qstate = .off) then s
  else if p.sqSize ≤ tail.toNat then s.logNote 0 0xFF (BitVec.ofNat 128 tail.toNat)
  else
    let t := BitVec.ofNat 16 tail.toNat
    s.modPair n (fun p => { p with
      sqTail := t, bells := if t = p.sqHead then [] else if t = p.sqTail then p.bells else p.bells ++ [(t.toNat, s.pacing)] })
/-- CQ_HEAD_DOORBELL: slots up to that head are free; a head at or beyond the queue size is ignored (log 32). -/
def State.cqHead (s : State) (n : Nat) (head : Word) : State :=
  let p := s.pair n
  if !s.hostReaches || decide (p.qstate = .off) || decide (p.cqSize ≤ head.toNat) then s
  else
    let freed := (head.toNat + p.cqSize - p.cqHead.toNat) % p.cqSize
    s.modPair n (fun p => { p with cqHead := BitVec.ofNat 16 head.toNat, cqUsed := p.cqUsed - freed })

/-! ## Enabling (R358, R361) -/

/-- QP_ENABLE: an OFF pair with a good record goes ON, its queues empty. -/
def State.qpEnable (s : State) (n : Nat) : State :=
  let p := s.pair n
  if !s.hostReaches || decide (p.qstate ≠ .off) then s
  else if 12 < p.sqLog.toNat ∨ 12 < p.cqLog.toNat ∨ p.sqBase.toNat % 4096 ≠ 0 ∨ p.cqBase.toNat % 4096 ≠ 0 then s.logNote 0 0xFF (BitVec.ofNat 128 n)
  else s.modPair n (fun p => { p with
    enable := true, qstate := .on, sqHead := 0, sqTail := 0, cqTail := 0, cqHead := 0, cqUsed := 0, phase := true, unsignalled := 0, blocked := false, bells := [] })
/-- QP_DISABLE: the pair drains. -/
def State.qpDisable (s : State) (n : Nat) : State :=
  if !s.hostReaches || decide ((s.pair n).qstate ≠ .on) then s
  else (s.modPair n (fun p => { p with enable := false, qstate := .draining })).pairDrain n

/-! ## Fetch (R359, R448) -/

def jobsMax : Nat := 256
/-- Whether fetch goes on: not before READY, not in a sweep, not while an activation pauses it (R377, R448, R455). -/
def State.fetchRuns (s : State) : Bool :=
  s.boot.ready && !s.hub.sweeping && (match s.boot.activation with
    | some a => !a.paused
    | none => true)
/-- Whether the module would fetch from a pair: it is ON, its last entry is served, an entry is available, and the CQ has a slot for its
completion; an entry known to be a job submission waits at JOBS_MAX. -/
def State.canFetch (s : State) (n : Nat) : Bool :=
  let p := s.pair n
  decide (p.qstate = .on) && p.fetched.isNone && decide (p.sqHead ≠ p.sqTail) && decide (p.cqUsed + s.pairOwed n < p.cqSize) &&
  !(p.blocked && decide (jobsMax ≤ s.hub.jobs.length))
/-- The pair that the round-robin serves: the first from its turn on that it can fetch from (R359). -/
def State.pairTurn (s : State) : Option Nat :=
  ((List.range 64).map (fun i => (s.hub.turn + i) % 64)).find? s.canFetch
/-- The turn passes on from pair n. -/
def State.passTurn (s : State) (n : Nat) (blocked : Bool) : State :=
  (s.withHub (fun h => { h with turn := (n + 1) % 64 })).modPair n (fun p => { p with blocked := blocked })
/-- SUBMISSION_FETCH of the next entry of pair n, when it is that pair's turn, which host memory holds; an entry of no defined operation completes MALFORMED
at once. -/
def State.fetch (s : State) (n : Nat) (e : Desc) : State :=
  let p := s.pair n
  if !s.fetchRuns || decide (s.pairTurn ≠ some n) then s
  else if eOp e = 1 ∧ jobsMax ≤ s.hub.jobs.length then s.passTurn n true
  else
    let s := s.passTurn n false
    let head := BitVec.ofNat 16 ((p.sqHead.toNat + 1) % p.sqSize)
    let bell := match p.bells with
      | (_, b) :: _ => b
      | [] => s.pacing
    let s := s.modPair n (fun p => { p with
      sqHead := head, fetched := some e, fetchedBell := bell
      fetchedLive := decide (eOp e = 2) && (s.job? (eTarget e)).isSome
      bells := match p.bells with
        | (t, _) :: rest => if t = head.toNat then rest else p.bells
        | [] => [] })
    if 4 < eOp e then s.completeFetched n (eTag e) 0x10 else s

/-- Serve the fetched entry of a pair, of one operation of Table 15-6: a reserved bit completes MALFORMED (R9, R362). -/
def State.command (s : State) (n op : Nat) (act : State → Desc → State) : State :=
  match (s.pair n).fetched with
  | none => s
  | some e => if eOp e ≠ op then s else if eClean e then act s e else s.completeFetched n (eTag e) 0x10

def execSqTailDoorbell (n : PairId) (tail : Word) (s : State) : Res := .next (s.sqTail n tail)
def execCqHeadDoorbell (n : PairId) (head : Word) (s : State) : Res := .next (s.cqHead n head)
def execQpEnable (n : PairId) (s : State) : Res := .next (s.qpEnable n)
def execQpDisable (n : PairId) (s : State) : Res := .next (s.qpDisable n)
def execSubmissionFetch (n : PairId) (entry : Desc) (s : State) : Res := .next (s.fetch n entry)
def execNop (n : PairId) (s : State) : Res := .next (s.command n 0 (fun s e => s.completeFetched n (eTag e) stOk))
def execCqCoalTimeout (n : PairId) (s : State) : Res := .next (s.coalTimeout n)

end Sys2Proof.Machine
end

