-- ==== Sys2Proof/Machine/Ledger.lean ====
section
/-! DEFINITION. The Ledger as it is written (R432–R436): the bytes of an image, the NOR map, and the one write that runs at a time. -/

namespace Sys2Proof.Machine

/-! ## The bytes of an image and the NOR map (R432, R433; Tables 18-4a, 18-4b) -/

/-- An entry record as it lies in its section. -/
def LedgerRec.bytes (r : LedgerRec) : List Byte :=
  leBytes 8 (r.index + r.sub * 2 ^ 16 + r.ty * 2 ^ 24 + r.length * 2 ^ 32) ++ padTo4 (leBytes r.length r.value)
def LedgerImage.entrySection (i : LedgerImage) : List Byte := (i.entries ++ i.unknown).flatMap LedgerRec.bytes
/-- The header with a given CRC field. -/
def LedgerImage.header (i : LedgerImage) (crc : Nat) : List Byte :=
  let e := i.entrySection.length
  let p := 64 + e
  leBytes 64 (i.magic + i.format * 2 ^ 16 + i.gen * 2 ^ 32 + i.bytes * 2 ^ 96 + crc * 2 ^ 128 + i.writer.toNat * 2 ^ 160 + 64 * 2 ^ 192 +
    e * 2 ^ 224 + p * 2 ^ 256 + i.profileLen * 2 ^ 288 + (p + cdiv i.profileLen 4 * 4) * 2 ^ 320 + i.keysLen * 2 ^ 352)
/-- The sections after the header: entries, profile, keys, each 4-byte aligned. -/
def LedgerImage.sections (i : LedgerImage) : List Byte :=
  i.entrySection ++ padTo4 ((List.range i.profileLen).map (Config.profileByte i.profileGen)) ++ padTo4 (fixLen i.keysLen (Config.keySection i.keys))
/-- The whole image as its bank holds it, with the CRC-32C over it. -/
def LedgerImage.layout (i : LedgerImage) : List Byte := i.header (crc32c (i.header 0 ++ i.sections)).toNat ++ i.sections
/-- A byte of the SPI NOR (Table 18-4a): firmware images, Ledger banks, the factory ledger. Erased and reserved bytes are free. -/
def State.norByte (s : State) (a : Nat) : Byte :=
  let at_ := fun (i : Option LedgerImage) (base : Nat) => ((i.bind (fun m => m.layout[a - base]?))).getD (Config.freeByte 0 a)
  if a < 0x1C00000 then (mget {} s.boot.banks 0).bytes.read a
  else if a < 0x3800000 then (mget {} s.boot.banks 1).bytes.read (a - 0x1C00000)
  else if a < 0x3820000 then at_ s.por.bank0 0x3800000
  else if a < 0x3840000 then at_ s.por.bank1 0x3820000
  else if 0x3C00000 ≤ a ∧ a < 0x3C40000 then at_ s.por.factory 0x3C00000
  else Config.freeByte 0 a

/-! ## One write (R434–R436, R468) -/

/-- The profile as it stands: depths of the slots and the last operating point with what the steward learned (R416). -/
def State.profileNow (s : State) : Profile :=
  { s.pwr.profile with depths := (List.range 16).map (fun i => (i, s.depthOf i)), lastOp := s.pwr.opTarget }

/-- The largest key section: eight keys of 1,793 bytes with as much beside them (log 38). -/
def keySectionMax : Nat := 32768
/-- Snapshot of an image as its turn starts (R434, R468): every section but those of its kind is the current bank's (R435). The lengths of
a new profile section, at most 16,384 bytes, and of a new key section, whose layouts the spec does not give, are free (log 38). -/
def State.imageOf (s : State) (op : LedgerOp) : LedgerImage × State :=
  let cur := s.ledger
  let old : LedgerImage := cur.getD { gen := 0 }
  let (q, s) := s.draw
  let img : LedgerImage := match op with
    | .commit _ => { old with entries := s.entryRecords, unknown := s.unknownRecs old }
    | .restore _ scope =>
      let old := if scope = 1 then { old with keys := [], keysLen := 0 } else old
      { old with entries := [], unknown := s.unknownRecs old, profile := none, profileLen := 0 }
    | .profile => { old with profile := some s.profileNow, profileLen := 1 + q.toNat % 16384, profileGen := old.gen + 1 }
    | .keys => { old with keys := s.por.keys, keysLen := if s.por.keys.isEmpty then 0 else 1 + q.toNat % keySectionMax }
  let fixed := 64 + ((img.entries ++ img.unknown).map (fun r => 8 + cdiv r.length 4 * 4)).sum
  ({ img with
    gen := old.gen + 1, writer := (mget {} s.boot.banks s.boot.fwBank).version
    bytes := fixed + cdiv img.profileLen 4 * 4 + cdiv img.keysLen 4 * 4 }, s)

/-- Begin the turn of the oldest queued write, where none runs: the target bank is erased. Scope 1 of RESTORE_FACTORY empties the
key set in effect. -/
def State.ledgerTurn (s : State) : State :=
  match s.por.ledgerQueue, s.por.ledgerImage with
  | op :: _, none =>
    let (img, s) := s.imageOf op
    let s := s.setBank s.ledgerTarget none
    let s := s.withPor (fun p => { p with ledgerImage := some img })
    match op with
    | .restore _ 1 => s.withPor (fun p => { p with keys := [] })
    | _ => s
  | _, _ => s
def State.ledgerPut (s : State) (op : LedgerOp) : State :=
  (s.withPor (fun p => { p with ledgerQueue := p.ledgerQueue ++ [op] })).ledgerTurn

/-- End of the write that runs: the image is current, or the current bank is unchanged (LEDGER_FAULT). KEYS_PENDING clears with a
key write's success, unless another key write waits (log 39); each faulted one is repeated after 10 s. -/
def State.ledgerEnd (s : State) (ok : Bool) : State :=
  match s.por.ledgerQueue, s.por.ledgerImage with
  | op :: rest, some _ =>
    let s := if ok then s.ledgerLand else s
    let s := s.withPor (fun p => { p with ledgerQueue := rest, ledgerImage := none })
    let s := match op with
      | .commit t | .restore t _ => s.endCmd t (if ok then dsOk else dsLedgerFault) 0 0
      | .profile => s
      | .keys => s.withPor (fun p =>
          if ok then { p with keysPending := rest.any (fun o => o == LedgerOp.keys) || decide (p.keysRetry ≠ 0) } else { p with keysRetry := p.keysRetry + 1 })
    s.ledgerTurn
  | _, _ => s

/-- Whether a profile save is queued or runs. -/
def State.profileBusy (s : State) : Bool := s.por.ledgerQueue.any (fun o => o == LedgerOp.profile)

/-- LEDGER_COMMIT and RESTORE_FACTORY: refused while another write is queued or runs. -/
def State.ledgerCommit (s : State) : State :=
  s.serveWrite (fun i u => decide (i = 0x1F00 ∧ u = 1)) (onTrue (fun s f r bs =>
    if s.por.ledgerQueue ≠ [] then ⟨s, dsLedgerBusy, 0, none⟩
    else s.accept f r bs (fun s t => s.ledgerPut (.commit t))))
def State.restoreFactory (s : State) : State :=
  s.serveWrite (fun i u => decide (i = 0x1F00 ∧ u = 2)) (fun s f r bs =>
    let scope := leNat bs
    if 2 ≤ scope then ⟨s, dsOutOfRange, 0, none⟩
    else if s.por.ledgerQueue ≠ [] then ⟨s, dsLedgerBusy, 0, none⟩
    else s.accept f r bs (fun s t => s.ledgerPut (.restore t scope)))

/-- KEY_LEDGER_RETRY: a faulted key write is queued again, each by a command of its own. -/
def State.keyRetry (s : State) : State :=
  if s.por.keysRetry = 0 then s else (s.withPor (fun p => { p with keysRetry := p.keysRetry - 1 })).ledgerPut .keys

def execLedgerCommit (s : State) : Res := .next s.ledgerCommit
def execRestoreFactory (s : State) : Res := .next s.restoreFactory
def execKeyLedgerRetry (s : State) : Res := .next s.keyRetry

end Sys2Proof.Machine
end

