-- ==== Sys2Proof/Machine/Removal.lean ====
section
/-! DEFINITION. Preparing for removal (R458): what follows each job's end, each bypass move and each profile save. -/

namespace Sys2Proof.Machine

/-- The next step of R458 whose turn has come: with no job left, each JOINED ring is left, its RING_MODE THROUGH; then the profile is
saved; then START_STATE reads REMOVAL_READY. -/
def State.removalStep (s : State) : State :=
  if !s.boot.preparing || s.boot.removalReady || !s.hub.jobs.isEmpty then s
  else
    let open_ := [0, 1].filter (fun r => decide ((s.ring r).bypass ≠ .through))
    if open_ ≠ [] then
      open_.foldl (fun t r => if (t.ring r).bypass = .joined ∧ (t.ring r).leaving = false then (t.setDv (0x1020 + r) 1 0).startLeave r else t) s
    else if !s.boot.removalSave then (s.withBoot (fun b => { b with removalSave := true })).ledgerPut .profile
    else if s.profileBusy then s
    else s.withBoot (fun b => { b with removalReady := true })

/-- Preparing for removal ends (R458). -/
def State.endRemoval (s : State) : State :=
  (s.withHub (fun h => { h with pausedAdmission := false })).withBoot (fun b => { b with preparing := false, removalReady := false, removalSave := false })
/-- PREPARE_REMOVAL written TRUE, and FALSE. -/
def State.prepareRemoval (s : State) : State :=
  s.serveWrite (fun i u => decide (i = 0x0202 ∧ u = 2) && (match s.frontRec with
      | some (_, q) => decide (leNat q.value ≠ 0)
      | none => false)) (fun s _ _ _ =>
    if s.boot.preparing then ⟨s, dsOk, 0, none⟩
    else
      let s := (s.setDv 0x0202 2 1).withHub (fun h => { h with pausedAdmission := true })
      ⟨(s.withBoot (fun b => { b with preparing := true, removalSave := false })).removalStep, dsOk, 0, none⟩)
def State.cancelRemoval (s : State) : State :=
  s.serveWrite (fun i u => decide (i = 0x0202 ∧ u = 2) && (match s.frontRec with
      | some (_, q) => decide (leNat q.value = 0)
      | none => false)) (fun s _ _ _ =>
    ⟨(s.setDv 0x0202 2 0).endRemoval, dsOk, 0, none⟩)

def execPrepareRemoval (s : State) : Res := .next s.prepareRemoval
def execCancelRemoval (s : State) : Res := .next s.cancelRemoval

end Sys2Proof.Machine
end

