-- ==== Sys2Proof/Machine/Sequencer.lean ====
section
/-! DEFINITION. The sequencer (R78–R84, R505): its general registers, what every instruction shares, and the
arithmetic, local-memory and branch operations of Table 3-7. -/

namespace Sys2Proof.Machine

/-! ## Registers (R78) -/

/-- A general register; g0 reads as zero. -/
def Seq.reg (q : Seq) (r : BitVec 5) : Quad := if r = 0 then 0 else mget 0 q.regs r.toNat
/-- Write a general register; g0 ignores writes. -/
def Seq.setReg (q : Seq) (r : BitVec 5) (v : Quad) : Seq := if r = 0 then q else { q with regs := mset q.regs r.toNat v }
def State.gReg (s : State) (k : Nat) (r : BitVec 5) : Quad := (s.seq k).reg r

def sext (i : Half) : Quad := i.signExtend 64
def zext (i : Half) : Quad := i.zeroExtend 64
def flag (b : Bool) : Quad := if b then 1 else 0
/-- The high 64 bits of the signed product. -/
def mulh (a b : Quad) : Quad := ((a.signExtend 128 * b.signExtend 128) >>> 64).truncate 64

/-! ## What every instruction shares -/

/-- The job whose program the sequencer of cluster k may go on with: it runs, no sweep is under way, and the sequencer has
neither halted nor stalls. -/
def State.seqJob (s : State) (k : Nat) : Option Job :=
  let q := s.seq k
  if s.hub.sweeping || !q.active || q.halted || decide (q.stall ≠ .none) then none
  else match s.holderJob k with
    | some j => if j.phase = .running then some j else none
    | none => none

/-- An instruction is executed: the counts of R84 and R486, the sample of R489, its change of the sequencer, the new pc. CYCLE
advances by a measured amount (log 8). -/
def State.seqAdvance (s : State) (k : Nat) (word : Word) (cores : BitVec 16) (desc : Quad) (left : List (Nat × Nat)) (pc : Quad)
    (f : Seq → Seq) : State :=
  let (n, s) := s.draw
  let s := (s.sample k word (s.seq k).pc cores desc left).bumpCluster k 1 1
  let q := f (s.seq k)
  s.setSeq k { q with pc := pc, retired := q.retired + 1, cycle := q.cycle + n }

/-- Go on to the next word. -/
def State.seqNext (s : State) (k : Nat) (word : Word) (f : Seq → Seq) : State :=
  s.seqAdvance k word 0 0 [] ((s.seq k).pc + 4) f

/-- An instruction that changes its sequencer alone. -/
def State.seqOp (s : State) (k : Nat) (word : Word) (f : Seq → Seq) : State :=
  if (s.seqJob k).isSome then s.seqNext k word f else s

/-- An instruction that may be illegal (R9, R80, R81): a job fault of the sequencer. -/
def State.seqLegal (s : State) (k : Nat) (legal : Bool) (t : State) : State :=
  if (s.seqJob k).isNone then s else if legal then t else s.seqFault k stIllegal

/-! ## Arithmetic (OPC 0x01–0x0A) -/

def State.aluOp (s : State) (k fn : Nat) (gd ga gb : BitVec 5) (f : Quad → Quad → Quad) : State :=
  s.seqOp k (encG 0x01 gd ga gb (BitVec.ofNat 11 fn)) (fun q => q.setReg gd (f (q.reg ga) (q.reg gb)))
def State.immOp (s : State) (k opc : Nat) (gd ga : BitVec 5) (imm : Half) (f : Quad → Half → Quad) : State :=
  s.seqOp k (encI opc gd ga imm) (fun q => q.setReg gd (f (q.reg ga) imm))

def execAluAdd (k : ClusterId) (gd ga gb : BitVec 5) (s : State) : Res :=
  .next (s.aluOp k 0x000 gd ga gb (fun a b => a + b))
def execAluSub (k : ClusterId) (gd ga gb : BitVec 5) (s : State) : Res :=
  .next (s.aluOp k 0x001 gd ga gb (fun a b => a - b))
def execAluAnd (k : ClusterId) (gd ga gb : BitVec 5) (s : State) : Res :=
  .next (s.aluOp k 0x002 gd ga gb (fun a b => a &&& b))
def execAluOr (k : ClusterId) (gd ga gb : BitVec 5) (s : State) : Res :=
  .next (s.aluOp k 0x003 gd ga gb (fun a b => a ||| b))
def execAluXor (k : ClusterId) (gd ga gb : BitVec 5) (s : State) : Res :=
  .next (s.aluOp k 0x004 gd ga gb (fun a b => a ^^^ b))
def execAluShl (k : ClusterId) (gd ga gb : BitVec 5) (s : State) : Res :=
  .next (s.aluOp k 0x005 gd ga gb (fun a b => a <<< (b.toNat % 64)))
def execAluShr (k : ClusterId) (gd ga gb : BitVec 5) (s : State) : Res :=
  .next (s.aluOp k 0x006 gd ga gb (fun a b => a >>> (b.toNat % 64)))
def execAluSra (k : ClusterId) (gd ga gb : BitVec 5) (s : State) : Res :=
  .next (s.aluOp k 0x007 gd ga gb (fun a b => a.sshiftRight (b.toNat % 64)))
def execAluMul (k : ClusterId) (gd ga gb : BitVec 5) (s : State) : Res :=
  .next (s.aluOp k 0x008 gd ga gb (fun a b => a * b))
def execAluMulh (k : ClusterId) (gd ga gb : BitVec 5) (s : State) : Res :=
  .next (s.aluOp k 0x009 gd ga gb (fun a b => mulh a b))
def execAluMin (k : ClusterId) (gd ga gb : BitVec 5) (s : State) : Res :=
  .next (s.aluOp k 0x00A gd ga gb (fun a b => if a.slt b then a else b))
def execAluMax (k : ClusterId) (gd ga gb : BitVec 5) (s : State) : Res :=
  .next (s.aluOp k 0x00B gd ga gb (fun a b => if a.slt b then b else a))
def execAluMinu (k : ClusterId) (gd ga gb : BitVec 5) (s : State) : Res :=
  .next (s.aluOp k 0x00C gd ga gb (fun a b => if a.ult b then a else b))
def execAluMaxu (k : ClusterId) (gd ga gb : BitVec 5) (s : State) : Res :=
  .next (s.aluOp k 0x00D gd ga gb (fun a b => if a.ult b then b else a))
def execAluSlt (k : ClusterId) (gd ga gb : BitVec 5) (s : State) : Res :=
  .next (s.aluOp k 0x00E gd ga gb (fun a b => flag (a.slt b)))
def execAluSltu (k : ClusterId) (gd ga gb : BitVec 5) (s : State) : Res :=
  .next (s.aluOp k 0x00F gd ga gb (fun a b => flag (a.ult b)))

def execAddi (k : ClusterId) (gd ga : BitVec 5) (imm : Half) (s : State) : Res :=
  .next (s.immOp k 0x02 gd ga imm (fun a i => a + sext i))
def execAndi (k : ClusterId) (gd ga : BitVec 5) (imm : Half) (s : State) : Res :=
  .next (s.immOp k 0x03 gd ga imm (fun a i => a &&& zext i))
def execOri (k : ClusterId) (gd ga : BitVec 5) (imm : Half) (s : State) : Res :=
  .next (s.immOp k 0x04 gd ga imm (fun a i => a ||| zext i))
def execXori (k : ClusterId) (gd ga : BitVec 5) (imm : Half) (s : State) : Res :=
  .next (s.immOp k 0x05 gd ga imm (fun a i => a ^^^ zext i))
/-- IMM16[15:6] is reserved. -/
def execShli (k : ClusterId) (gd ga : BitVec 5) (imm : Half) (s : State) : Res :=
  .next (s.seqLegal k (imm.toNat / 64 == 0) (s.immOp k 0x06 gd ga imm (fun a i => a <<< (i.toNat % 64))))
/-- IMM16[15:6] is reserved. -/
def execShri (k : ClusterId) (gd ga : BitVec 5) (imm : Half) (s : State) : Res :=
  .next (s.seqLegal k (imm.toNat / 64 == 0) (s.immOp k 0x07 gd ga imm (fun a i => a >>> (i.toNat % 64))))
/-- IMM16[15:6] is reserved. -/
def execSrai (k : ClusterId) (gd ga : BitVec 5) (imm : Half) (s : State) : Res :=
  .next (s.seqLegal k (imm.toNat / 64 == 0) (s.immOp k 0x08 gd ga imm (fun a i => a.sshiftRight (i.toNat % 64))))
/-- GA is reserved. -/
def execLui (k : ClusterId) (gd ga : BitVec 5) (imm : Half) (s : State) : Res :=
  .next (s.seqLegal k (ga == 0) (s.immOp k 0x09 gd ga imm (fun _ i => sext i <<< 16)))
def execSlti (k : ClusterId) (gd ga : BitVec 5) (imm : Half) (s : State) : Res :=
  .next (s.immOp k 0x0A gd ga imm (fun a i => flag (a.slt (sext i))))

/-! ## Local memory (R78, R81) -/

def localOk (a : Quad) : Bool := a.toNat % 8 == 0 && decide (a.toNat + 8 ≤ 0x20000)

def execLd (k : ClusterId) (gd ga : BitVec 5) (imm : Half) (s : State) : Res :=
  let a := s.gReg k ga + sext imm
  .next (s.seqLegal k (localOk a) (s.seqOp k (encI 0x10 gd ga imm) (fun q => q.setReg gd (BitVec.ofNat 64 (q.loc.readLE a.toNat 8)))))
def execSt (k : ClusterId) (gd ga : BitVec 5) (imm : Half) (s : State) : Res :=
  let a := s.gReg k ga + sext imm
  .next (s.seqLegal k (localOk a) (s.seqOp k (encI 0x11 gd ga imm)
    (fun q => { q with loc := q.loc.writeLE a.toNat 8 (q.reg gd).toNat })))

/-! ## Branches and jumps -/

/-- Where a branch of OFF16 words goes. -/
def branchTo (pc : Quad) (off : Half) : Quad := pc + (sext off <<< 2)
def State.branchOp (s : State) (k opc : Nat) (ga gb : BitVec 5) (off : Half) (f : Quad → Quad → Bool) : State :=
  if (s.seqJob k).isNone then s
  else
    let q := s.seq k
    s.seqAdvance k (encB opc ga gb off) 0 0 [] (if f (q.reg ga) (q.reg gb) then branchTo q.pc off else q.pc + 4) (fun q => q)

def execBeq (k : ClusterId) (ga gb : BitVec 5) (off : Half) (s : State) : Res :=
  .next (s.branchOp k 0x18 ga gb off (fun a b => a == b))
def execBne (k : ClusterId) (ga gb : BitVec 5) (off : Half) (s : State) : Res :=
  .next (s.branchOp k 0x19 ga gb off (fun a b => a != b))
def execBlt (k : ClusterId) (ga gb : BitVec 5) (off : Half) (s : State) : Res :=
  .next (s.branchOp k 0x1A ga gb off (fun a b => a.slt b))
def execBge (k : ClusterId) (ga gb : BitVec 5) (off : Half) (s : State) : Res :=
  .next (s.branchOp k 0x1B ga gb off (fun a b => !a.slt b))
def execBltu (k : ClusterId) (ga gb : BitVec 5) (off : Half) (s : State) : Res :=
  .next (s.branchOp k 0x1C ga gb off (fun a b => a.ult b))
def execBgeu (k : ClusterId) (ga gb : BitVec 5) (off : Half) (s : State) : Res :=
  .next (s.branchOp k 0x1D ga gb off (fun a b => !a.ult b))

def execJal (k : ClusterId) (gd : BitVec 5) (off : BitVec 21) (s : State) : Res :=
  let pc := (s.seq k).pc
  .next (if (s.seqJob k).isNone then s
    else s.seqAdvance k (encJ 0x1E gd off) 0 0 [] (pc + (off.signExtend 64 <<< 2)) (fun q => q.setReg gd (pc + 4)))
/-- gA is read before gD is written. -/
def execJalr (k : ClusterId) (gd ga : BitVec 5) (imm : Half) (s : State) : Res :=
  let pc := (s.seq k).pc
  let dest := ((s.gReg k ga + sext imm) >>> 2) <<< 2
  .next (if (s.seqJob k).isNone then s
    else s.seqAdvance k (encI 0x1F gd ga imm) 0 0 [] dest (fun q => q.setReg gd (pc + 4)))

end Sys2Proof.Machine
end

