-- ==== Sys2Proof/Machine/SeqSync.lean ====
section
/-! DEFINITION. What a sequencer does with the rest of the module: the narrow path (R81, R147, R153–R155, R163, R166, R505), the
room port (R236–R238), ISSUE and TFENCE, the counters (R85–R93), barriers (R95–R97), control registers (R84), HALT. -/

namespace Sys2Proof.Machine

/-- A sequencer stops stalling; a sample that waited for it is complete (R489). -/
def State.seqResume (s : State) (k : Nat) (f : Seq → Seq) : State :=
  ((s.setSeq k { f (s.seq k) with stall := .none }).bumpClusterFree k 2).sampleDone k waitMark

/-- The job whose outstanding accesses go on: while it runs or stops, outside a sweep. -/
def State.narrowJob (s : State) (k : Nat) : Option Job := if s.hub.sweeping then none else s.holderJob k

/-! ## Narrow accesses -/

/-- Where an access goes, and the job fault of R81, R147 or R163 where it goes nowhere; an atomic reaches the shared cache
alone (R166). -/
inductive NarrowLook where
  | idle
  | illegal
  | bus
  | ok (t : NarrowTarget)

def State.narrowLook (s : State) (k a align : Nat) (atomic : Bool) : NarrowLook :=
  match s.seqJob k with
  | none => .idle
  | some j =>
    if a % align ≠ 0 then .illegal
    else match s.narrowTarget j k a with
      | none => .bus
      | some (.shared c off) => .ok (.shared c off)
      | some t => if atomic then .bus else .ok t

/-- Begin a narrow access that stalls the sequencer until its value returns. -/
def State.narrowBegin (s : State) (k : Nat) (word : Word) (a align : Nat) (kind : NarrowKind) (atomic : Bool) : State :=
  match s.narrowLook k a align atomic with
  | .idle => s
  | .illegal => s.seqFault k stIllegal
  | .bus => s.seqFault k stBusError
  | .ok _ => (s.bumpCluster k 9 1).seqAdvance k word 0 0 [waitMark] ((s.seq k).pc + 4)
      (fun q => { q with outst := q.outst ++ [⟨a, kind⟩], stall := .narrow })

/-- A sequencer's failed access of stacked memory: MEM_UE with its place, or a bus error (Table 6-4). -/
def State.seqAccFault (s : State) (k : Nat) (e : AccErr) : State :=
  s.accFault e (s.cluster k).holder 0xFF (BitVec.ofNat 8 k) 0

/-- The 32-bit value an atomic leaves (Table 6-6). -/
def amoValue (fn : BitVec 11) (old arg cmp : Word) : Word :=
  if fn = 0 then old + arg
  else if fn = 1 then (if old = cmp then arg else old)
  else if fn = 2 then (if old.slt arg then old else arg)
  else (if old.slt arg then arg else old)

/-- One write fewer stands before each waiting CPOST (R86). -/
def Seq.writeDone (q : Seq) : Seq := { q with outst := q.outst.drop 1, posts := q.posts.map (fun p => (p.1 - 1, p.2)) }

/-- The oldest access returns its value (NARROW_ACCESS_RETURN): every write before it comes first, also one to another address, of which
R155 does not speak (DESIGN CHOICE, log 203). An LDX from
the room port takes the oldest result, once it is made; without an unread request it reads RSTAT 4 (R236). -/
def State.narrowReturn (s : State) (k : Nat) : State :=
  match s.narrowJob k with
  | none => s
  | some j => match (s.seq k).outst with
    | [] => s
    | n :: _ => match n.kind, s.narrowTarget j k n.addr with
      | .ldx gd, some .roomPort =>
        match (s.cluster k).roomQ with
        | [] => s.seqResume k (fun q => { q with outst := q.outst.drop 1 }.setReg gd (BitVec.ofNat 64 (4 * 2 ^ 60)))
        | ⟨_, some r⟩ :: rest =>
          (s.modCluster k (fun c => { c with roomQ := rest })).seqResume k (fun q => { q with outst := q.outst.drop 1 }.setReg gd r)
        | _ => s
      | .ldx gd, some (.stack a) => match s.memRead a 8 with
        | .ok bs => ((s.readDone a 8).countRemote k 8 (.stack a)).seqResume k (fun q => { q with outst := q.outst.drop 1 }.setReg gd (BitVec.ofNat 64 (leNat bs)))
        | .error e => s.seqAccFault k e
      | .ldx gd, some (.shared c off) =>
        ((s.bumpCluster c 5 1).countRemote k 8 (.shared c off)).seqResume k (fun q => { q with outst := q.outst.drop 1 }.setReg gd (BitVec.ofNat 64 (s.scRead c off 8)))
      | .amo fn gd arg cmp, some (.shared c off) =>
        let old : Word := BitVec.ofNat 32 (s.scRead c off 4)
        (((s.scWrite c off 4 (amoValue fn old arg cmp).toNat).countAtomic c).countRemote k 4 (.shared c off)).seqResume k
          (fun q => q.writeDone.setReg gd (old.signExtend 64))
      | _, _ => s

/-- A request at the room port (R236); an operation that is neither PIN nor UNPIN has its result at once. -/
def State.roomRequest (s : State) (k : Nat) (v : Quad) : State :=
  (s.modCluster k (fun c => { c with
    roomQ := c.roomQ ++ [{ word := v, result := if v.toNat / 2 ^ 60 = 1 ∨ v.toNat / 2 ^ 60 = 2 then none
                                                else some (BitVec.ofNat 64 (4 * 2 ^ 60)) }] })).bumpCluster k 20 1
/-- The oldest outstanding STX is accepted by its target (NARROW_WRITE_ACCEPTED): its bytes are visible, or the room port has its request
(R236), and an STX that waited at the limit of 16 takes its place in the queue (R505). -/
def State.narrowAccepted (s : State) (k : Nat) : State :=
  match s.narrowJob k with
  | none => s
  | some j => match (s.seq k).outst with
    | [] => s
    | n :: _ => match n.kind with
      | .stx v =>
        let done := fun (s : State) =>
          let s := s.setSeq k (s.seq k).writeDone
          match (s.seq k).stall with
          | .stxLimit m => s.seqResume k (fun q => { q with outst := q.outst ++ [m] })
          | _ => s
        match s.narrowTarget j k n.addr with
        | some (.stack a) => match s.memWrite a (leBytes 8 v.toNat) with
          | .ok t => done (t.countRemote k 8 (.stack a))
          | .error (e, t) => t.seqAccFault k e
        | some (.shared c off) => done (((s.scWrite c off 8 v.toNat).bumpCluster c 6 1).countRemote k 8 (.shared c off))
        | some .roomPort => done (s.roomRequest k v)
        | none => s
      | _ => s

def execLdx (k : ClusterId) (gd ga : BitVec 5) (imm : Half) (s : State) : Res :=
  .next (s.narrowBegin k (encI 0x12 gd ga imm) (s.gReg k ga + sext imm).toNat 8 (.ldx gd) false)

/-- The STX to the room port that are outstanding and those of its requests whose results are unread (R236). -/
def State.roomUnread (s : State) (j : Job) (k : Nat) : Nat :=
  (s.cluster k).roomQ.length + (s.seq k).outst.countP (fun n => (match n.kind with
    | .stx _ => true
    | _ => false) && decide (s.narrowTarget j k n.addr = some .roomPort))
/-- Whether an STX would make a ninth unread request at the room port (R236). -/
def State.portFull (s : State) (k a : Nat) : Bool :=
  match s.seqJob k with
  | some j => decide (s.narrowTarget j k a = some .roomPort) && decide (8 ≤ s.roomUnread j k)
  | none => false

/-- STX: it does not stall while fewer than 16 writes are outstanding (R505); one that would make a ninth unread request at the room
port is illegal (R236). -/
def execStx (k : ClusterId) (gd ga : BitVec 5) (imm : Half) (s : State) : Res :=
  let a := (s.gReg k ga + sext imm).toNat
  let w := encI 0x13 gd ga imm
  .next (match s.narrowLook k a 8 false with
    | .idle => s
    | .illegal => s.seqFault k stIllegal
    | .bus => s.seqFault k stBusError
    | .ok _ =>
      let n : Narrow := ⟨a, .stx (s.gReg k gd)⟩
      if s.portFull k a then s.seqFault k stIllegal
      else (s.bumpCluster k 9 1).seqNext k w (fun q =>
        if q.outst.length < 16 then { q with outst := q.outst ++ [n] } else { q with stall := .stxLimit n }))

def execAmoAdd (k : ClusterId) (gd ga gb : BitVec 5) (s : State) : Res :=
  .next (s.narrowBegin k (encG 0x14 gd ga gb 0) (s.gReg k ga).toNat 4
    (.amo 0 gd ((s.gReg k gb).truncate 32) ((s.gReg k gd).truncate 32)) true)
/-- AMO compare-swap compares the 32-bit old value with gD's low 32 bits (DEDUCED, log 195). -/
def execAmoSwap (k : ClusterId) (gd ga gb : BitVec 5) (s : State) : Res :=
  .next (s.narrowBegin k (encG 0x14 gd ga gb 1) (s.gReg k ga).toNat 4
    (.amo 1 gd ((s.gReg k gb).truncate 32) ((s.gReg k gd).truncate 32)) true)
def execAmoMin (k : ClusterId) (gd ga gb : BitVec 5) (s : State) : Res :=
  .next (s.narrowBegin k (encG 0x14 gd ga gb 2) (s.gReg k ga).toNat 4
    (.amo 2 gd ((s.gReg k gb).truncate 32) ((s.gReg k gd).truncate 32)) true)
def execAmoMax (k : ClusterId) (gd ga gb : BitVec 5) (s : State) : Res :=
  .next (s.narrowBegin k (encG 0x14 gd ga gb 3) (s.gReg k ga).toNat 4
    (.amo 3 gd ((s.gReg k gb).truncate 32) ((s.gReg k gd).truncate 32)) true)
def execNarrowReturn (k : ClusterId) (s : State) : Res := .next (s.narrowReturn k)
def execNarrowAccepted (k : ClusterId) (s : State) : Res := .next (s.narrowAccepted k)

/-! ## The room port's requests (R236–R238) -/

/-- Result of an OK pin: the room and its device address ÷ 2,048. -/
def pinResult (room addr : Nat) : Quad := BitVec.ofNat 64 (room * 2 ^ 32 + addr / 2048)

/-- The room a PIN names (R230, R236): none where the entry is not VALID or a round entry of another ordinal. -/
def State.pinRoom (s : State) (stream g pos : Nat) : Option Nat :=
  if s.dirGroups stream ≤ g then none
  else
    let h := s.groupHdr stream g
    match h.slotOf pos with
    | none => none
    | some (i, u) =>
      let e := s.hubRead (s.entryAddr stream h i) 8
      if dirState e ≠ 1 ∨ (h.pre ≤ i ∧ dirOrdinal e ≠ u) then none else some (dirRoom e)

/-- Put a result at the oldest request without one. -/
def answerRoom (r : Quad) : List RoomReq → List RoomReq
  | [] => []
  | q :: qs => if q.result.isNone then { q with result := some r } :: qs else q :: answerRoom r qs

/-- The oldest request whose result is not made, where it has the given operation. -/
def State.roomFront (s : State) (k op : Nat) : Option Nat :=
  match (s.cluster k).roomQ.find? (fun q => q.result.isNone) with
  | some q => if q.word.toNat / 2 ^ 60 = op then some q.word.toNat else none
  | none => none
def State.roomAnswer (s : State) (k : Nat) (r : Quad) : State := s.modCluster k (fun c => { c with roomQ := answerRoom r c.roomQ })

/-- What a PIN reads of a directory, in order: its header, the group's, the entry (R229, R236). -/
def State.pinTables (s : State) (stream g pos : Nat) : List (Nat × Nat) :=
  (s.dirBase stream, 64) ::
  (if s.dirGroups stream ≤ g then []
   else (s.dirBase stream + 64 + 16 * g, 16) :: (match (s.groupHdr stream g).slotOf pos with
    | none => []
    | some (i, _) => [(s.entryAddr stream (s.groupHdr stream g) i, 8)]))
/-- The first of these reads that fails: the job's fault (Table 6-4). -/
def State.pinErr (s : State) (stream g pos : Nat) : Option AccErr :=
  (s.pinTables stream g pos).findSome? (fun r => match s.memRead r.1 r.2 with
    | .ok _ => none
    | .error x => some x)

/-- ROOM_PIN: NOT_HELD, ABSENT, PIN_FULL, or the pin; a directory that cannot be read is MEM_UE (Table 6-4), an entry of the room table on a
cluster that is OFF a bus error (R409). -/
def State.roomPin (s : State) (k : Nat) : State :=
  match s.narrowJob k, s.roomFront k 1 with
  | some j, some w =>
    let stream := bits w 51 36
    if !j.streams.contains stream || !s.heldBy j stream then s.roomAnswer k (BitVec.ofNat 64 (2 * 2 ^ 60))
    else match s.pinErr stream (bits w 59 52) (bits w 31 0) with
    | some x => s.seqAccFault k x
    | none =>
      let room := s.pinRoom stream (bits w 59 52) (bits w 31 0)
      let s := (s.pinTables stream (bits w 59 52) (bits w 31 0)).foldl (fun (t : State) r => t.readDone r.1 r.2) s
      match room with
      | none => s.roomAnswer k (BitVec.ofNat 64 (1 * 2 ^ 60))
      | some x => if s.roomGone x then s.seqAccFault k .bus else
        if 64 ≤ (s.cluster k).pins.length ∨ 65535 ≤ roomPins (s.roomEntry x) then
          (s.roomAnswer k (BitVec.ofNat 64 (3 * 2 ^ 60))).bumpCluster k 22 1
        else
          let s := (s.modRoomPin x (fun n => n + 1)).modCluster k (fun c => { c with pins := c.pins ++ [x] })
          let a := match s.roomPlace x with
            | some p => p.addr
            | none => 0
          (s.roomAnswer k (pinResult x a)).bumpCluster k 21 1
  | _, _ => s
/-- ROOM_UNPIN: BAD_REQUEST without a recorded pin on the room; a bus error where the cluster of its entry is OFF (R409). -/
def State.roomUnpin (s : State) (k : Nat) : State :=
  match s.narrowJob k, s.roomFront k 2 with
  | some _, some w =>
    let x := bits w 23 0
    if !(s.cluster k).pins.contains x then s.roomAnswer k (BitVec.ofNat 64 (4 * 2 ^ 60))
    else if s.roomGone x then s.seqAccFault k .bus
    else ((s.modCluster k (fun c => { c with pins := c.pins.erase x })).unpinRoom x).roomAnswer k 0
  | _, _ => s

def execRoomPin (k : ClusterId) (s : State) : Res := .next (s.roomPin k)
def execRoomUnpin (k : ClusterId) (s : State) : Res := .next (s.roomUnpin k)

/-! ## ISSUE and TFENCE (R82, R83) -/

/-- The cores of cluster k that a mask names, within CORE_MASK. -/
def State.targets (s : State) (k : Nat) (mask : BitVec 16) : List Nat :=
  (List.range 16).filterMap (fun i => if (mask &&& s.coreMask k).getLsbD i then some (16 * k + i) else none)

/-- Put a descriptor into the tile queues of cores, each its own copy. -/
def State.issueTo (s : State) (cs : List Nat) (d : Desc) : State :=
  cs.foldl (fun t c => t.modCore c (fun x => { x with issued := x.issued + 1, queue := x.queue ++ [{ desc := d, ord := x.issued + 1 }] })) s
def State.queueRoom (s : State) (cs : List Nat) : Bool := cs.all (fun c => decide ((s.core c).queue.length < 16))

/-- ISSUE: GD and FN are reserved; gA is a local address in the descriptor buffer (R81). It stalls while a target's queue is
full. -/
def execIssue (k : ClusterId) (gd ga gb : BitVec 5) (fn : BitVec 11) (s : State) : Res :=
  let a := s.gReg k ga
  let legal := gd == 0 && fn == 0 && a.toNat % 64 == 0 && decide (0x10000 ≤ a.toNat ∧ a.toNat ≤ 0x1FFC0)
  let mask : BitVec 16 := (s.gReg k gb).truncate 16
  let cs := s.targets k mask
  let d : Desc := BitVec.ofNat 512 ((s.seq k).loc.readLE a.toNat 64)
  let go := (s.bumpCluster k 3 1).seqAdvance k (encG 0x20 gd ga gb fn) (mask &&& s.coreMask k) a
    (cs.map (fun c => (c, (s.core c).issued.toNat + 1))) ((s.seq k).pc + 4)
    (fun q => { q with issued := q.issued + 1, stall := if s.queueRoom cs then .none else .issue d mask })
  .next (s.seqLegal k legal (if s.queueRoom cs then go.issueTo cs d else go))

/-- ISSUE_RESUME: every target's queue has room again. -/
def execIssueResume (k : ClusterId) (s : State) : Res :=
  .next (match s.narrowJob k, (s.seq k).stall with
    | some _, .issue d mask =>
      if s.queueRoom (s.targets k mask) then (s.seqResume k (fun q => q)).issueTo (s.targets k mask) d else s
    | _, _ => s)

/-- Whether everything issued to the cores has retired, settled and is visible (R83, R301). -/
def State.fenceClear (s : State) (cs : List Nat) : Bool := cs.all (fun c => (s.core c).queue.isEmpty && (s.core c).commits.isEmpty)

def execTfence (k : ClusterId) (gd ga gb : BitVec 5) (fn : BitVec 11) (s : State) : Res :=
  let mask : BitVec 16 := (s.gReg k ga).truncate 16
  let w := encG 0x21 gd ga gb fn
  .next (s.seqLegal k (fn == 0) (
    if s.fenceClear (s.targets k mask) then s.seqNext k w (fun q => q)
    else s.seqAdvance k w 0 0 [waitMark] ((s.seq k).pc + 4) (fun q => { q with stall := .tfence mask })))
def execTfenceRelease (k : ClusterId) (s : State) : Res :=
  .next (match s.narrowJob k, (s.seq k).stall with
    | some _, .tfence mask =>
      if s.fenceClear (s.targets k mask) then (s.seqResume k (fun q => q)).bumpClusterFree k 4 else s
    | _, _ => s)

/-! ## Counters (R85–R93) -/

/-- The sync counter that an operand names; bits [63:16] must be zero (R85). -/
def syncOperand (j : Job) (a : Quad) : Option (Nat × Nat) :=
  if a.toNat / 2 ^ 16 = 0 then j.syncTarget (a.truncate 16) else none
/-- The progress counter that an operand names: a 12-bit identifier (R91). -/
def progOperand (j : Job) (a : Quad) : Option (Nat × Nat) :=
  if a.toNat / 2 ^ 12 = 0 then j.progTarget (a.truncate 16) else none

/-- Do something with the counter an operand names; FN other than 0, or no such counter, is illegal. -/
def State.withCounter (s : State) (k : Nat) (fn : BitVec 11) (find : Job → Option (Nat × Nat)) (f : Job → Nat → Nat → State) : State :=
  match s.seqJob k with
  | none => s
  | some j => match find j with
    | none => s.seqFault k stIllegal
    | some (x, i) => if fn = 0 then f j x i else s.seqFault k stIllegal

def execCwait (k : ClusterId) (gd ga gb : BitVec 5) (fn : BitVec 11) (s : State) : Res :=
  let a := s.gReg k ga
  let t : Word := (s.gReg k gb).truncate 32
  let w := encG 0x22 gd ga gb fn
  .next (s.withCounter k fn (fun j => syncOperand j a) (fun _ x i =>
    if t.toNat ≤ (s.syncVal x i).toNat then s.seqNext k w (fun q => q)
    else s.seqAdvance k w 0 0 [waitMark] ((s.seq k).pc + 4) (fun q => { q with stall := .cwait (a.truncate 16) t })))

/-- The wait of a sequencer is over once its counter reaches the target (R87). -/
def State.seqCwaitRelease (s : State) (k : Nat) : State :=
  match s.narrowJob k, (s.seq k).stall with
  | some j, .cwait id t => match j.syncTarget id with
    | some (x, i) => if t.toNat ≤ (s.syncVal x i).toNat then s.seqResume k (fun q => q) else s
    | none => s
  | _, _ => s
/-- The header wait of a core's next instruction is over: it is marked as met (R72, R87, R103). -/
def State.coreCwaitRelease (s : State) (c : Nat) : State :=
  match s.issueJob c, (s.core c).candidate with
  | some job, some e =>
    if dWaitKind e.d ≠ 0 ∧ e.waitMet = false ∧ s.waitOk job e.d then
      (s.modEntry c e.ord (fun q => { q with waitMet := true })).bumpCoreFree c 6
    else s
  | _, _ => s
def execCwaitRelease (who : Agent) (s : State) : Res :=
  .next (match who with
    | .seq k => s.seqCwaitRelease k
    | .core c => s.coreCwaitRelease c)

/-- Apply a post of a sequencer (R86, R88). -/
def State.seqPost (s : State) (k : Nat) (j : Job) (p : PendPost) : State := s.applySync j 0xFF (BitVec.ofNat 8 k) p
/-- CPOST: at once where no earlier write is outstanding, else once those are accepted. -/
def execCpost (k : ClusterId) (gd ga gb : BitVec 5) (fn : BitVec 11) (s : State) : Res :=
  let a := s.gReg k ga
  let p : PendPost := ⟨1, a.truncate 16, (s.gReg k gb).truncate 32⟩
  let w := encG 0x23 gd ga gb fn
  .next (s.withCounter k fn (fun j => syncOperand j a) (fun j _ _ =>
    if (s.seq k).outst.isEmpty then (s.seqNext k w (fun q => q)).seqPost k j p
    else s.seqNext k w (fun q => { q with posts := q.posts ++ [(q.outst.length, p)] })))
def State.seqSyncPost (s : State) (k : Nat) : State :=
  match s.narrowJob k, (s.seq k).posts with
  | some j, (0, p) :: rest => (s.setSeq k { s.seq k with posts := rest }).seqPost k j p
  | _, _ => s
def execSyncPostEffect (who : Agent) (s : State) : Res :=
  .next (match who with
    | .seq k => s.seqSyncPost k
    | .core c => s.coreSyncPost c)
def execProgressPostEffect (c : CoreId) (s : State) : Res := .next (s.coreProgressPost c)

def execCset (k : ClusterId) (gd ga gb : BitVec 5) (fn : BitVec 11) (s : State) : Res :=
  let v : Word := (s.gReg k gb).truncate 32
  .next (s.withCounter k fn (fun j => syncOperand j (s.gReg k ga)) (fun j x i =>
    ((s.seqNext k (encG 0x24 gd ga gb fn) (fun q => q)).setSync x i v).counterChanged j x i))
def execCread (k : ClusterId) (gd ga gb : BitVec 5) (fn : BitVec 11) (s : State) : Res :=
  .next (s.withCounter k fn (fun j => syncOperand j (s.gReg k ga)) (fun _ x i =>
    s.seqNext k (encG 0x25 gd ga gb fn) (fun q => q.setReg gd ((s.syncVal x i).zeroExtend 64))))
def execPread (k : ClusterId) (gd ga gb : BitVec 5) (fn : BitVec 11) (s : State) : Res :=
  .next (s.withCounter k fn (fun j => progOperand j (s.gReg k ga)) (fun _ c i =>
    s.seqNext k (encG 0x28 gd ga gb fn) (fun q => q.setReg gd ((s.progVal c i).zeroExtend 64))))
def execPset (k : ClusterId) (gd ga gb : BitVec 5) (fn : BitVec 11) (s : State) : Res :=
  let v : Word := (s.gReg k gb).truncate 32
  .next (s.withCounter k fn (fun j => progOperand j (s.gReg k ga)) (fun _ c i =>
    (s.seqNext k (encG 0x29 gd ga gb fn) (fun q => q)).setProg c i v))

/-! ## Barriers (R95–R97) -/

/-- The declared channel that an operand names. -/
def chanOperand (j : Job) (a : Quad) : Option (Nat × Nat) := (j.barrier? a.toNat).map (fun b => (b.chan, 0))

/-- BAR: from a sequencer that is no participant it is illegal. -/
def execSeqBar (k : ClusterId) (gd ga gb : BitVec 5) (fn : BitVec 11) (s : State) : Res :=
  .next (s.withCounter k fn (fun j => chanOperand j (s.gReg k ga)) (fun j n _ =>
    let r := rankIn j.team k
    if (match j.barrier? n with
        | some b => b.isMember r 16
        | none => false) then
      (s.seqAdvance k (encG 0x26 gd ga gb fn) 0 0 [waitMark] ((s.seq k).pc + 4) (fun q => { q with stall := .bar n })).barArrive
        j.id n r 16
    else s.seqFault k stIllegal))
def execBarrierRelease (job : JobId) (chan : Fin 16) (s : State) : Res :=
  .next (match s.job? job with
    | some j => if s.hub.sweeping = false ∧ (j.phase = .running ∨ j.phase = .stopping) then s.barRelease job chan else s
    | none => s)

/-- BCFG: illegal while an arrival is pending; cores outside CORE_MASK are ignored (R96). -/
def execBcfg (k : ClusterId) (gd ga gb : BitVec 5) (fn : BitVec 11) (s : State) : Res :=
  let m : BitVec 17 := (s.gReg k gb).truncate 17 &&& (1#1 ++ s.coreMask k)
  .next (s.withCounter k fn (fun j => chanOperand j (s.gReg k ga)) (fun j n _ =>
    if (match j.barrier? n with
        | some b => b.arrived.isEmpty
        | none => false) then
      (s.seqNext k (encG 0x27 gd ga gb fn) (fun q => q)).modBarrier j.id n (fun b => { b with member := mset b.member (rankIn j.team k) m })
    else s.seqFault k stIllegal))

/-! ## Control registers (R84) and HALT (R83) -/

/-- The value of a control register (Table 3-8). -/
def State.csr (s : State) (k : Nat) (j : Job) (n : Nat) : Option Quad :=
  let q := s.seq k
  let e := j.entry.toNat
  match n with
  | 0x000 => some q.cycle
  | 0x001 => some q.retired
  | 0x002 => some q.issued
  | 0x010 => some (j.id.zeroExtend 64)
  | 0x011 => some (BitVec.ofNat 64 (rankIn j.team k))
  | 0x012 => some (BitVec.ofNat 64 j.team.length)
  | 0x013 => some ((s.coreMask k).zeroExtend 64)
  | 0x014 => some (BitVec.ofNat 64 (bits e 239 200))
  | 0x015 => some (BitVec.ofNat 64 (bits e 279 240))
  | 0x016 => some (j.epoch.zeroExtend 64)
  | _ => none

/-- CSRR: IMM16[15:12] and GA are reserved; a register that Table 3-8 does not list is illegal. -/
def execCsrr (k : ClusterId) (gd ga : BitVec 5) (imm : Half) (s : State) : Res :=
  .next (match s.seqJob k with
    | none => s
    | some j => match s.csr k j imm.toNat with
      | some v => if ga = 0 then s.seqNext k (encI 0x2C gd ga imm) (fun q => q.setReg gd v) else s.seqFault k stIllegal
      | none => s.seqFault k stIllegal)

/-- HALT (R83); GD, GA and GB have no role and are ignored (DEDUCED, log 114). -/
def execHalt (k : ClusterId) (gd ga gb : BitVec 5) (fn : BitVec 11) (s : State) : Res :=
  .next (s.seqLegal k (fn == 0) (s.seqNext k (encG 0x3E gd ga gb fn) (fun q => { q with halted := true })))

end Sys2Proof.Machine
end

