-- ==== Sys2Proof/Machine/TileStop.lean ====
section
/-! DEFINITION. How a core stops at a tile boundary (R75–R77, R303, R347): steps 3 to 5 of Table 3-5. -/

namespace Sys2Proof.Machine

/-- The part of a running instruction that step 4 of Table 3-5 lets go on: an instruction of ports A and V whole, a fused one
its compute part. -/
def State.stopRun (s : State) (c : Nat) (e : QEntry) : State :=
  match e.fam with
  | some f => match f with
    | .mma => s.runMma c
    | .mmaLa => s.runMmaLa c
    | .conv => s.runConv c f
    | .convDw => s.runConv c f
    | .attnFwd => s.runAttn c f
    | .attnBwd => s.runAttn c f
    | .sfn => s.runVector c f sfnOf
    | .norm => s.runVector c f normOf
    | .smax => s.runVector c f smaxOf
    | .crop => s.runVector c f cropOf
    | .reuseChk => s.runReuse c
    | .mmaRs => s.computeX c f rsDesc e
    | .mmaAg => s.computeX c f (fun d => d) e
    | .attnRelay => s.computeRelay c e
    | _ => s
  | none => s

/-- Retire what can retire. -/
def State.retireAll : Nat → Nat → State → State
  | 0, _, s => s
  | n + 1, c, s => State.retireAll n c (s.tileRetire c)

/-- Whether an entry is abandoned (step 3 of Table 3-5, R347): running still, or a fused one whose messages have not all
passed on. -/
def State.abandons (s : State) (e : QEntry) : Bool := e.isRunning || (e.isDone && s.stillSending e)

/-- An entry that stays in the queue for issue again. The mark of a compute part that is done is kept, and an arrival at a
barrier stays counted (R77). -/
def QEntry.abandon (e : QEntry) : QEntry := { e.unstart with arrived := e.arrived, released := e.released, waitMet := e.arrived }

/-- Stop a core (CORE_STOPPED): instructions on ports A and V run to retirement, the others are abandoned, open tabs are voided
from the check of the oldest on, and the core reports stopped. -/
def State.stopCore (s : State) (c : Nat) : State :=
  if !(s.core c).stopReq || (s.core c).stopped then s
  else
    let s := ((s.core c).queue.filter QEntry.isRunning).foldl (fun t e => t.stopRun c e) s
    if s.hub.sweeping then s
    else
      let s := State.retireAll (s.core c).queue.length c s
      let gone := (s.core c).queue.filter (fun e => s.abandons e)
      let s := (s.core c).queue.foldl (fun t e => if e.waitFrom.isSome then t.endWait c e.ord else t) s
      let s := s.modCore c (fun x => { x.abandonFills with
        queue := x.abandonFills.queue.map (fun e => if gone.any (fun g => g.ord == e.ord) then e.abandon
          else if e.isQueued then { e with waitFrom := none, waitMet := e.arrived } else e) })
      let s := s.withNet (fun n => { n with
        ops := n.ops.map (fun o => if (s.cluster (clusterOf c)).holder = some o.job ∧ gone.any (fun g => o.isOf o.job c g.ord) = true then { o with begun := false, finished := false } else o) })
      let s := s.bumpCore c 14 (s.core c).tabs.length
      s.modCore c (fun x =>
        let y : Core := match x.tabs with
          | t :: _ =>
            let y := Core.voidTabs x (t.id - 1)
            { y with queue := y.queue.map (fun (e : QEntry) => if e.ord.toNat = t.id then e.abandon else e) }
          | [] => x
        { y with stopped := true })

end Sys2Proof.Machine
end

