-- ==== Sys2Proof/Machine/JobEnd.lean ====
section
/-! DEFINITION. The end of a job (R367, R369, R374, R375): its references released, its streams ended or returned to OPEN, its
clusters freed, its completion entry. -/

namespace Sys2Proof.Machine

/-- The clusters a job holds now. -/
def State.heldClusters (s : State) (j : Job) : List Nat := j.team.filter (fun k => decide ((s.cluster k).holder = some j.id))

/-- The sum of DUPS over the job's work counters (R375): of its clusters, or of what its save holds, also where it has clusters again that
its restore has not reached. -/
def State.dupsOf (s : State) (j : Job) : Word :=
  if j.phase = .saved ∨ s.heldClusters j = [] then j.dups
  else BitVec.ofNat 32 (((List.range 256).map (fun w => let (k, off, _) := s.workRec j w; s.scRead k (off + 24) 4)).sum)

/-- Rooms that a job's instructions hold (R234), and pins it has recorded (R238), on its clusters and in its save. -/
def State.jobHolds (s : State) (j : Job) : List RoomHold :=
  ((s.heldClusters j).flatMap coresOf).flatMap (fun c => (s.core c).queue.flatMap QEntry.rooms) ++
  j.saved.flatMap (fun v => v.cores.flatMap (fun x => x.queue.flatMap QEntry.rooms))
def State.jobPins (s : State) (j : Job) : List Nat :=
  (s.heldClusters j).flatMap (fun k => (s.cluster k).pins) ++ j.saved.flatMap SavedCluster.pins

/-- The slot and its window pass on (R188, R197, R200). -/
def State.dropSlot (s : State) (j : Job) : State :=
  match j.slot with
  | none => s
  | some i => s.modSlot i (fun x =>
      let y := if j.dispatchPacing.isSome && !s.slotOnDemand i then x.vacate else x
      { y with refs := y.refs - 1 })

/-- The groups a job holds are released, ABORTED where `abort` (R353); a waiting job of the next admission takes a free one. -/
def State.dropGroup (s : State) (j : Job) (abort : Bool) (g : Nat) : State :=
  if (s.group g).holder ≠ some j.id then s
  else
    let s := if abort then s.sendAbort g else s
    let next := if (s.group g).aborted then none
      else (s.hub.jobs.find? (fun x => decide (x.id ≠ j.id) && x.groups.contains g)).map Job.id
    s.modGroup g (fun x => { x with holder := next })
/-- What the exchange switch keeps for a job is freed (R348, R353). At a completion what came early for the next job of its groups
stays (R346, R350); where its groups are aborted (`abort`), it goes too. -/
def State.dropExchange (s : State) (j : Job) (abort : Bool) : State :=
  let tags := if abort then (j.groups.filter (fun g => decide ((s.group g).holder = some j.id))).map (fun g => rtTag (s.routeEntry g)) else []
  s.withNet (fun n => { n with
    ops := n.ops.filter (fun o => decide (o.job ≠ j.id)), relays := n.relays.filter (fun r => decide (r.job ≠ j.id))
    early := n.early.filter (fun p => !tags.contains p.key.tag), xheld := n.xheld.filter (fun x => !tags.contains x.tag) })
    |>.dropHeldCtrl tags.contains

/-- A stream that its job gives back: OPEN, its rooms kept (R365), its directory IDLE. -/
def State.returnStream (s : State) (id : JobId) (i : Nat) : State :=
  if (s.stream i).sstate ≠ .held ∨ (s.stream i).holderJob ≠ id then s
  else ((s.unpark i).setRstate i 0).modStream i (fun r => { r with sstate := .opened, holderQp := 0xFFFF, holderJob := 0 })

/-- Free a cluster (R369): it counts as FREE once CLUSTER_ZEROED has come. -/
def State.freeCluster (s : State) (k : Nat) : State :=
  (s.bumpClusterFree k 30).modCluster k (fun c => { c with
    holder := none, zeroing := true, seq := {}, roomQ := [], pins := [], samplePend := [] })

/-- Release what a job holds (R367, R374 steps 2 to 5): `code` is the END_CODE of its streams, none where they return to OPEN;
`abort` says that its groups are aborted and its trainable adapters INCOMPLETE. -/
def State.releaseJob (s : State) (j : Job) (code : Option Byte) (abort : Bool) : State :=
  let s := (s.jobPins j).foldl (fun t x => t.unpinRoom x) s
  let s := (s.jobHolds j).foldl (fun t h => t.returnHold h) s
  let s := s.dropExchange j abort
  let s := j.groups.foldl (fun t g => t.dropGroup j abort g) s
  let s := s.dropSlot j
  let s := j.adapters.foldl (fun t a => t.releaseAdapter a.1 a.2 abort) s
  let s := match code with
    | some e => s.endStreams (j.streams.filter (fun i => decide ((s.stream i).holderJob = j.id))) e
    | none => j.streams.foldl (fun t i => t.returnStream j.id i) s
  -- rooms vacated above may have been booked to parked streams of this same job (R244)
  let s := s.dropBookings ((s.job? j.id).getD j)
  (s.heldClusters j).foldl (fun t k => t.freeCluster k) s

/-- The completion entry of a job. WAIT and RUN of a job that was never dispatched read their default (Table 15-10, log 33). -/
def State.completeJob (s : State) (j : Job) (status : Byte) : State :=
  let (wait, run) := match j.dispatchPacing with
    | some d => ((d - j.bellPacing).toNat, (s.pacing - d).toNat)
    | none => (0, 0)
  s.writeCompletion j.pair {
    tag := j.id, status := status, noncanon := !j.canon, preempted := j.preempted, late := j.framesLate, epoch := j.epoch.toNat
    ended := j.streamsEnded, wait := wait, run := run, dups := j.dups.toNat }
/-- A job's entry, then those of the CANCELs that waited for its end; the job exists no longer. -/
def State.closeJob (s : State) (j : Job) (status : Byte) : State :=
  let s := (s.dropJob j.id).completeJob j status
  let s := j.cancels.foldl (fun t c => t.writeCompletion c.1 { tag := c.2, status := stOk }) s
  ((j.pair :: j.cancels.map Prod.fst).foldl (fun t n => t.pairDrain n) s).removalStep

/-- One job is swept: its DUPS are read, its references released, its streams end with SWEPT. -/
def State.sweepJobRefs (s : State) (id : JobId) : State :=
  match s.job? id with
  | none => s
  | some j =>
    let d := s.dupsOf j
    (s.releaseJob j (some stSwept) true).modJob id (fun x => { x with phase := .ended, dups := d, saved := [], adapters := [], groups := [], barriers := [], bookings := [], saveAreas := [] })
/-- End a job: its references, then its completion entry; its on-demand region passes on (R197). Where the release is what starts a fault sweep, the sweep governs (R23, R24): the
job is one of those it finds on the module, and its streams end with SWEPT. -/
def State.endJob (s : State) (j : Job) (status : Byte) (code : Option Byte) (abort : Bool) : State :=
  let d := s.dupsOf j
  let t := s.releaseJob j code abort
  if t.hub.sweeping && !s.hub.sweeping then s.sweepJobRefs j.id
  else match t.job? j.id with
    | some x => match j.slot with
      | some i => (t.closeJob { x with dups := d } status).passRegion i
      | none => t.closeJob { x with dups := d } status
    | none => t

/-- Whether every core of a job has reported stopped (R76). Fenced cores are no part of it. -/
def State.allStopped (s : State) (j : Job) : Bool :=
  (s.heldClusters j).all (fun k => (List.range 16).all (fun i => (s.cluster k).coreFence.getLsbD i || (s.core (16 * k + i)).stopped))

/-- Raise a stop for a team (R76, Table 3-5 step 1). -/
def State.raiseStop (s : State) (j : Job) (why : StopWhy) : State :=
  let s := s.modJob j.id (fun x => { x with phase := .stopping, why := why })
  ((s.heldClusters j).flatMap coresOf).foldl (fun t c => t.modCore c (fun x => { x with stopReq := true, stopped := false })) s

/-- Steps 2 to 5 of R374 and the completion entries: JOBS_CANCELLED counts, unless the job is a sweep's now. -/
def State.finishCancel (s : State) (j : Job) : State :=
  let s := s.endJob j stCancelled (some stCancelled) true
  if (s.job? j.id).isSome then s else s.withHub (fun h => { h with cancelled := h.cancelled + 1 })

/-- CANCEL (R374): a running job stops first, and its cores' stops finish the cancellation; a job that waits or is swapped out
ends at once. A target that ended since the fetch leaves OK; none gives NO_SUCH_JOB. -/
def State.cancelEntry (s : State) (n : Nat) (e : Desc) : State :=
  match s.job? (eTarget e) with
  | none => s.completeFetched n (eTag e) (if (s.pair n).fetchedLive then stOk else 0x20)
  | some j =>
    let s := s.modPair n (fun p => { p with fetched := none, fetchedLive := false })
    let s := s.modJob j.id (fun x => { x with cancels := x.cancels ++ [(n, eTag e)] })
    if s.hub.sweeping then s
    else match s.job? j.id with
      | none => s
      | some j => match j.phase with
        | .running =>
          let s := s.raiseStop j .cancelled
          if s.allStopped j then s.finishCancel j else s
        | .stopping =>
          if s.allStopped j then s.finishCancel j else s.modJob j.id (fun x => { x with why := .cancelled })
        | _ => s.finishCancel j

/-- CORE_STOPPED (R76): a core reports stopped; with the last one of a job that is cancelled, the cancellation goes on. -/
def State.coreStopped (s : State) (c : Nat) : State :=
  let s := s.stopCore c
  match s.holderJob (clusterOf c) with
  | some j => if !s.hub.sweeping && decide (j.phase = .stopping ∧ j.why = .cancelled) && s.allStopped j then s.finishCancel j else s
  | none => s

/-! ## Clusters as they are freed (R369), and rolling runs that end with them (R479, R480) -/

/-- Zero a cluster (R369): its cores' stores, accumulators, banks and queues, the status records, the work region, the sync and
progress counters; it counts as free. Counters, predictors, the user and room-table regions stay. -/
def State.zeroCluster (s : State) (k : Nat) : State :=
  let s := s.modCluster k (fun c => { c with
    holder := none, zeroing := false, rolling := false, seq := {}, sync := [], roomQ := [], pins := [], samplePend := []
    scache := (c.scache.zero 0 0x80).zero scWork scWorkEnd })
  (coresOf k).foldl (fun t c => t.modCore c (fun x => { predictors := x.predictors, ctr := x.ctr })) s

/-- CLUSTER_ZEROED. -/
def State.clusterZeroed (s : State) (k : Nat) : State := if (s.cluster k).zeroing then s.zeroCluster k else s

/-- Abandon the rolling runs that a test picks (R480): nothing is fenced. -/
def State.abandonRolling (s : State) (pick : Nat → Bool) : State :=
  (s.por.bist.filter (fun r => r.kind == 1 && pick r.target)).foldl (fun t r =>
    (t.bistResult r 3 0 0 0).modCluster r.target (fun c => { c with rolling := false })) s

/-- Whether a BIST run, rolling or commanded, is on a cluster. -/
def State.underBist (s : State) (k : Nat) : Bool := (s.cluster k).rolling || s.por.bist.any (fun r => r.target == k)
/-- Whether a cluster reads FREE in CLUSTER_STATE and serves (R368, R369, R479). One that CLUSTER_UNFENCE returned while a commanded run
is on it is free once that run ends (R135, log 213). -/
def State.clusterFree (s : State) (k : Nat) : Bool :=
  let c := s.cluster k
  c.holder.isNone && !c.zeroing && !s.underBist k && s.clusterServes k
/-- CLUSTER_STATE (Table 15-14); one under a run that is not fenced reads HELD (R479, log 213). -/
def State.clusterState (s : State) (k : Nat) : Nat :=
  let c := s.cluster k
  if c.fenced then 2 else if c.holder.isSome || c.zeroing || s.underBist k then 1 else 0

/-! ## Streams by command (R365) -/

/-- STREAM_OPEN: a FREE or ENDED stream goes OPEN; the module's header fields read zero and every entry EMPTY. -/
def State.openStream (s : State) (i : Nat) : State :=
  let s := if s.hasDir i then
      let es := s.dirEntries i
      let s := s.hubDone [(s.dirBase i, 64), (s.dirBase i + 64, 16 * s.dirGroups i)]
      let s := (s.memWriteHub (s.dirBase i + 2) [0]).memWriteHub (s.dirBase i + 4) (List.replicate 8 0)
      es.foldl (fun t a => t.memWriteHub a (leBytes 8 (putBits (t.hubRead a 8) 31 30 0))) s
    else s
  let p := s.encDescr i
  (s.openEnc i).modStream i (fun r => { r with sstate := .opened, endCode := 0, enc := { block := encBlock p } })
def State.streamOpen (s : State) (n : Nat) (e : Desc) : State :=
  let i := eStream e
  match (s.stream i).sstate with
  | .free => (s.openStream i).completeFetched n (eTag e) stOk
  | .ended => (s.openStream i).completeFetched n (eTag e) stOk
  | _ => s.completeFetched n (eTag e) 0x21
/-- STREAM_END: an OPEN stream goes ENDED and its rooms are released (R246). -/
def State.streamEnd (s : State) (n : Nat) (e : Desc) : State :=
  let i := eStream e
  if (s.stream i).sstate ≠ .opened then s.completeFetched n (eTag e) 0x21
  else (((s.dirDone i).endRooms i).modStream i (fun r => { r with sstate := .ended, endCode := stEnded })).completeFetched n (eTag e) stOk

def execCancel (n : PairId) (s : State) : Res := .next (s.command n 2 (fun s e => s.cancelEntry n e))
def execStreamOpen (n : PairId) (s : State) : Res := .next (s.command n 3 (fun s e => s.streamOpen n e))
def execStreamEnd (n : PairId) (s : State) : Res := .next (s.command n 4 (fun s e => s.streamEnd n e))
def execClusterZeroed (k : ClusterId) (s : State) : Res := .next (s.clusterZeroed k)
def execCoreStopped (c : CoreId) (s : State) : Res := .next (s.coreStopped c)

end Sys2Proof.Machine
end

