-- ==== Sys2Proof/Machine/Admission.lean ====
section
/-! DEFINITION. Admission (R366, R367): the checks of JOB_SUBMIT in their order, the stream checks, and what admission takes. -/

namespace Sys2Proof.Machine

/-! ## Fields of a job submission entry (Table 15-5) and of a program header (Table 15-7) -/

def jSaveDir (v : Nat) : Nat := bits v 359 320
def jAdapters (v : Nat) : Nat := bits v 319 280
def jStreams (v : Nat) : Nat := bits v 279 240
def jProg (v : Nat) : Nat := bits v 199 160
def jStreamCount (v : Nat) : Nat := bits v 111 96
def jEpoch (v : Nat) : Nat := bits v 95 80
def jAdapterCount (v : Nat) : Nat := bits v 79 72
def jSlot (v : Nat) : Nat := bits v 71 64
def jTeam (v : Nat) : Nat := bits v 27 16
def jSaveEn (v : Nat) : Bool := bit v 11
def jClass (v : Nat) : Nat := bits v 10 8

def hXbind (h c : Nat) : Nat := bits h (271 + 16 * c) (256 + 16 * c)
def hLengthMax (h : Nat) : Nat := bits h 255 224
def hDecl (h : Nat) : Nat := bits h 223 208
def hLbBytes (h : Nat) : Nat := bits h 207 200 * 65536
def hGroups (h : Nat) : List Nat := (List.range (min 16 (bits h 199 192))).map (fun i => bits h (71 + 8 * i) (64 + 8 * i))

/-- SLOT_MAP: the physical slot a job's slot number resolves to (R196). -/
def State.jSlotOf (s : State) (v : Nat) : Option Nat := if jSlot v = 0xFF then none else some (s.dv 0x0920 (1 + jSlot v) % 16)

/-- Numbers of a list in the stacks, read by the hub; none where the list cannot be read. -/
def State.hubList (s : State) (a n w : Nat) : Option (List Nat) :=
  match s.memRead a (n * w) with
  | .ok bs => some ((List.range n).map (fun i => leNat ((bs.drop (i * w)).take w)))
  | .error _ => none

/-! ## The checks of R366 -/

/-- 1: reserved fields, operation and class, counts, alignments (Table 15-5). RELEASE_ID is reserved unless the slot is in layer
streaming. -/
def State.jobWellFormed (s : State) (v : Nat) : Bool :=
  let layer := match s.jSlotOf v with
    | some i => !s.slotOnDemand i
    | none => false
  let tier := bits v 143 128
  decide (bits v 511 360 = 0) && decide (bits v 159 144 = 0) && decide (bits v 31 28 = 0) && decide (bits v 15 12 = 0) &&
  decide (jClass v ≤ 4) && decide (jTeam v ≠ 0) && decide (jStreamCount v ≤ 4096) && decide (jAdapterCount v ≤ 64) &&
  decide (jSlot v ≤ 15 ∨ jSlot v = 0xFF) && decide (tier = 0 ∨ 10 ≤ tier ∧ tier ≤ 60000) && decide (jProg v % 2048 = 0) &&
  decide (jStreams v % 64 = 0) && decide (jAdapters v % 64 = 0) && decide (jSaveDir v % 64 = 0) &&
  (jSaveEn v || decide (jSaveDir v = 0)) && (layer || decide (bits v 127 112 = 0)) &&
  (match s.hubList (jAdapters v) (jAdapterCount v) 2 with
   | some as => as.all (fun a => decide (bits a 14 12 = 0))
   | none => true)

/-- 6: the program header (R363). -/
def State.headerOk (s : State) (h : Nat) : Bool :=
  decide (bits h 31 16 = 1) && decide (bits h 15 0 = 0) && decide (bits h 63 32 % 4 = 0) && decide (bits h 199 192 ≤ 16) &&
  decide (bits h 207 200 ≤ 64) &&
  (List.range 16).all (fun i => decide (i < bits h 199 192) || decide (bits h (71 + 8 * i) (64 + 8 * i) = 0)) &&
  (List.range 16).all (fun c =>
    let x := hXbind h c
    decide (bits x 14 10 = 0) &&
    (!bit x 15 || (bit (hDecl h) c && (hGroups h).contains (bits x 7 0) && decide (bits x 9 8 ≤ rtTop (s.routeEntry (bits x 7 0))))))

/-- 7: bytes of the tab reserve in effect (R65, R307). -/
def State.tabReserve (s : State) : Nat := if s.tabState = 1 then s.dv 0x0E10 3 * 1024 else 0
/-- 8: the epoch in effect (R57, R58): it selects the built-in tables; the arithmetic is the manual's in each (log 146). -/
def State.image (s : State) : FwBank := mget {} s.boot.banks s.boot.fwBank
def State.epochNow (s : State) : Nat := if s.dv 0x0210 3 = 0 then s.image.epochCur.toNat else s.dv 0x0210 3

/-- 10: the status of a bad adapter list (R194, R195), that of an unavailable adapter before that of a mismatch (log 34). With no
resolved slot no MODEL_ID equals: ADAPTER_MISMATCH (DESIGN CHOICE, log 235). -/
def State.adapterCheck (s : State) (v : Nat) : Option Byte :=
  if jAdapterCount v = 0 then none
  else match s.hubList (jAdapters v) (jAdapterCount v) 2 with
    | none => some 0x19
    | some as =>
      let bad := fun (a : Nat) =>
        let r := s.adapterRec (a % 4096)
        decide (adState r ≠ 1) || bit r 3 || s.car.trainable.any (fun t => t.1 == a % 4096)
      let miss := fun (a : Nat) => match s.jSlotOf v with
        | some i => decide (adModel (s.adapterRec (a % 4096)) ≠ (s.slot i).modelId.toNat)
        | none => true
      if as.any bad then some 0x19 else if as.any miss then some 0x1A else none

/-- 12: the save areas, none where the directory fails R372. An area on a stack that is fenced or OFF is refused here no more than R372
says; a save that reaches it fails. -/
def State.saveAreasOf (s : State) (v : Nat) : Option (List Nat) :=
  let n := (teamOf (BitVec.ofNat 12 (jTeam v))).length
  match s.hubList (jSaveDir v) n 8 with
  | none => none
  | some as =>
    let clear := fun (a : Nat) => decide (a % 2048 = 0) && decide (a + saveClusterBytes ≤ stackTop) && !s.meetsWeight a saveClusterBytes &&
      !meets a saveClusterBytes (s.dv 0x0C00 1) 16777216 && !s.saveRanges.any (fun r => meets a saveClusterBytes r.1 r.2)
    if as.all clear && (List.range n).all (fun i => (List.range i).all (fun k =>
        !meets ((as[i]?).getD 0) saveClusterBytes ((as[k]?).getD 0) saveClusterBytes)) then some as
    else none

/-- 13: the listed streams, none where one is not OPEN, or is listed twice. -/
def State.streamsOf (s : State) (v : Nat) : Option (List Nat) :=
  if jStreamCount v = 0 then some []
  else match s.hubList (jStreams v) (jStreamCount v) 2 with
    | none => none
    | some is => if is.all (fun i => decide ((s.stream i).sstate = .opened)) && is.Nodup then some is else none

/-- The round headers of a stream (R231). A stream whose directory names no group has none (log 16). -/
def State.roundsOk (s : State) (i : Nat) : Bool :=
  let n := s.dirGroups i
  decide (n = 0) || ((s.memRead (s.dirBase i) 64).isOk && decide (n ≤ 256) && decide (64 + 16 * n ≤ s.dv 0x0D00 2) &&
    (s.memRead (s.dirBase i + 64) (16 * n)).isOk && (List.range n).all (fun g =>
    let h := s.groupHdr i g
    decide (h.off + 8 * h.count ≤ s.dv 0x0D00 2) && decide ((s.pool h.pool).state = 1) &&
    decide ((s.pool h.pool).roomsOf h.home ≠ 0) && decide (h.count ≠ 0) && decide (h.book ≤ h.count)))
/-- The END_CODE of a stream that fails the stream checks (R366, R382). -/
def State.streamCheck (s : State) (team lengthMax i : Nat) : Option Byte :=
  match s.memRead (s.streamAddr i) 256 with
  | .error _ => some stStreamInvalid
  | .ok bs =>
    let d := leNat bs
    if bits d 2047 1536 ≠ 0 ∨ bits d 511 224 ≠ 0 ∨ lengthMax < bits d 31 0 then some stStreamInvalid
    else if epOn (bits d 1535 1024) && !s.encParamsOk (bits d 1535 1024) team then some stStreamInvalid
    else if s.roundsOk i then none else some stRoundInvalid

/-- 14: the bookings of streams (R232), none where a list cannot cover them. -/
def State.bookingsOf (s : State) (is : List Nat) : Option (List Booking) :=
  let bs : List Booking := is.flatMap (fun i => (List.range (s.dirGroups i)).map (fun g =>
    let h := s.groupHdr i g
    ⟨i, g, h.pool, h.home, h.book⟩))
  let need : Nat → Nat → Nat := fun p m => (bs.map (fun b => if b.pool = p ∧ b.stack = m then b.left else 0)).sum
  let fits := (List.range 4).all (fun p => (List.range 8).all (fun m =>
    let v := s.vac p m
    decide (need p m = 0) || decide (v.booked + need p m ≤ v.free.length)))
  if fits then some (bs.filter (fun b => decide (b.left ≠ 0))) else none

/-- What the checks found: a refusal, or what the admission takes. -/
structure Admitted where
  header : Nat
  areas : List Nat
  adapters : List (Nat × Bool)
  streams : List Nat
  bad : List (Nat × Byte)
  bookings : List Booking

/-- The fourteen checks of R366, in their order. -/
def State.checks (s : State) (e : Desc) : Except Byte Admitted :=
  let v := e.toNat
  let team := teamOf (BitVec.ofNat 12 (jTeam v))
  let hdr := match s.memRead (jProg v) 64 with
    | .ok bs => some (leNat bs)
    | .error _ => none
  if !s.jobWellFormed v then .error 0x10
  else if (s.job? (eTag e)).isSome then .error 0x1F
  else if team.any (fun k => (s.cluster k).fenced) then .error 0x12
  else if team.any (fun k => decide (s.block (blkCluster k) ≠ 1) || !s.hubOf (dieOfCluster k)) then .error 0x13
  else match hdr with
    | none => .error 0x14
    | some h =>
      if !s.headerOk h then .error 0x14
      else if 6291456 < hLbBytes h + s.tabReserve + 524288 then .error 0x15
      else if jEpoch v ≠ 0 ∧ jEpoch v ≠ s.epochNow then .error 0x16
      else match (match s.jSlotOf v with
        | none => none
        | some i => if (s.slot i).state ≠ .sealed then some 0x17 else if (s.slot i).window ≠ 1 then some 0x18 else none) with
        | some st => .error st
        | none => match s.adapterCheck v with
          | some st => .error st
          | none =>
            if (hGroups h).any (fun g => !rtValid (s.routeEntry g) || (s.group g).aborted) then .error 0x1B
            else match (if jSaveEn v then s.saveAreasOf v else some []) with
              | none => .error 0x1C
              | some areas => match s.streamsOf v with
                | none => .error 0x1D
                | some streams =>
                  let bad := streams.filterMap (fun i => (s.streamCheck team.length (hLengthMax h) i).map (fun c => (i, c)))
                  match s.bookingsOf (streams.filter (fun i => !bad.any (fun b => b.1 == i))) with
                  | none => .error 0x1E
                  | some bookings =>
                    let adapters := ((s.hubList (jAdapters v) (jAdapterCount v) 2).getD []).map (fun a => (a % 4096, bit a 15))
                    .ok ⟨h, areas, if jAdapterCount v = 0 then [] else adapters, streams, bad, bookings⟩

/-- How far the checks read: 1 the adapter list, 2 the program header, 3 the adapters' entries, 4 the save directory, 5 the stream list, 6
the streams' descriptors and directories. -/
def checkStage (st : Option Byte) : Nat :=
  match st with
  | none => 6
  | some x =>
    if x = 0x10 ∨ x = 0x1F ∨ x = 0x12 ∨ x = 0x13 then 1 else if x = 0x14 ∨ x = 0x15 ∨ x = 0x16 ∨ x = 0x17 ∨ x = 0x18 then 2
    else if x = 0x19 ∨ x = 0x1A ∨ x = 0x1B then 3 else if x = 0x1C then 4 else if x = 0x1D then 5 else 6
/-- What the hub reads of stacked memory for a submission whose checks end with the given status (none: admitted). -/
def State.admissionReads (s : State) (e : Desc) (st : Option Byte) : List (Nat × Nat) :=
  let v := e.toNat
  let n := checkStage st
  let upTo := fun (k : Nat) (rs : List (Nat × Nat)) => if k ≤ n then rs.filter (fun r => decide (r.2 ≠ 0)) else []
  let streams := if jStreamCount v = 0 then [] else (s.hubList (jStreams v) (jStreamCount v) 2).getD []
  upTo 1 [(jAdapters v, 2 * jAdapterCount v)] ++ upTo 2 [(jProg v, 64)] ++
  upTo 3 (if jAdapterCount v = 0 then [] else
    ((s.hubList (jAdapters v) (jAdapterCount v) 2).getD []).map (fun a => (s.adapterAddr (a % 4096), 64))) ++
  upTo 4 (if jSaveEn v then [(jSaveDir v, 8 * (teamOf (BitVec.ofNat 12 (jTeam v))).length)] else []) ++
  upTo 5 [(jStreams v, 2 * jStreamCount v)] ++
  upTo 6 (streams.flatMap (fun i => (s.streamAddr i, 256) ::
    (if s.hasDir i then [(s.dirBase i, 64), (s.dirBase i + 64, 16 * min 256 (s.dirGroups i))] else [])))

/-! ## Barrier channels (R95, R349) -/

/-- The first `n` numbers below `top` that are not taken. -/
def freeNumbers (taken : List Nat) (top n : Nat) : Option (List Nat) :=
  let l := (List.range top).filter (fun x => !taken.contains x)
  if n ≤ l.length then some (l.take n) else none
/-- Map the declared channels of a header to free physical channels; none where too few are free. -/
def State.mapBarriers (s : State) (h : Nat) : Option (List Barrier) :=
  let taken := s.hub.jobs.flatMap (fun j => j.barriers)
  let decl := (List.range 16).filter (fun c => bit (hDecl h) c)
  let bound := decl.filter (fun c => bit (hXbind h c) 15)
  match freeNumbers (taken.map Barrier.phys) 64 decl.length, freeNumbers (taken.filterMap Barrier.xphys) 16 bound.length with
  | some ps, some xs => some (decl.map (fun c =>
      let x := hXbind h c
      { chan := c, phys := (ps[decl.findIdx (fun d => d == c)]?).getD 0
        xbind := if bit x 15 then some (bits x 7 0, bits x 9 8) else none
        xphys := if bit x 15 then xs[bound.findIdx (fun d => d == c)]? else none }))
  | _, _ => none

/-! ## Admission (R367) -/

/-- A stream goes HELD for a job (R365); its requests are numbered from 0 again (R385), its parameters are fixed (R382); a stream with
rooms is ACTIVE (R231). -/
def State.holdStream (s : State) (j : Job) (i : Nat) : State :=
  let p := s.encDescr i
  let period := s.periodDescr i
  (s.modStream i (fun r => { r with
    sstate := .held, holderQp := BitVec.ofNat 16 j.pair, holderJob := j.id
    enc := { r.enc with reqDone := 0, posts := [], frame := none, params := p, period := period, block := encBlock p } })).setRstate i 1

/-- Take the references of an admitted job; streams that failed the stream checks end. -/
def State.enrolJob (s : State) (n : Nat) (e : Desc) (a : Admitted) (bars : List Barrier) : State :=
  let v := e.toNat
  let j : Job := {
    id := eTag e, pair := n, entry := e, header := BitVec.ofNat 512 a.header, admitSeq := s.hub.admitCount
    epoch := BitVec.ofNat 16 s.epochNow, canon := decide (s.dv 0x0210 5 = 1), tabBytes := s.tabReserve, lbBytes := hLbBytes a.header
    slot := s.jSlotOf v, streams := a.streams, adapters := a.adapters, groups := (hGroups a.header).eraseDups, barriers := bars
    saveAreas := a.areas, bookings := a.bookings, admitPacing := s.pacing, readyPacing := s.pacing, bellPacing := (s.pair n).fetchedBell }
  let s := s.modPair n (fun p => { p with fetched := none, waits := false })
  let s := s.withHub (fun h => { h with jobs := h.jobs ++ [j], admitCount := h.admitCount + 1 })
  let s := a.streams.foldl (fun t i => t.holdStream j i) s
  let s := a.bookings.foldl (fun t b => t.modVac b.pool b.stack (fun w => { w with booked := w.booked + b.left })) s
  let s := match j.slot with
    | some i => (s.modSlot i (fun x => { x with refs := x.refs + 1 })).passRegion i
    | none => s
  let s := a.adapters.foldl (fun t x =>
    let t := t.setAdapterRefs x.1 (t.adapterRefs x.1 + 1)
    if x.2 then ({ t with car := { t.car with trainable := mset t.car.trainable x.1 j.id } } : State).setAdapterBits x.1 5 else t) s
  let s := j.groups.foldl (fun t g => if (t.group g).holder.isNone then t.modGroup g (fun x => { x with holder := some j.id }) else t) s
  s.streamErrors a.bad

/-- Whether admissions go on: not in a sweep, not while paused (R377, R455, R458), not while a stack drains (Table 17-4). -/
def State.admissionRuns (s : State) : Bool :=
  s.fetchRuns && !s.hub.pausedAdmission && (List.range 8).all (fun m => decide (s.block (blkStack m) ≠ 2))
/-- JOB_SUBMIT and ADMISSION_RESUME: check the fetched job, refuse it, take it on, or let it wait for barrier channels. What the checks
read is read for the hub itself (log 161); where that starts a fault sweep, admission pauses (Table 15-11), and the entry stays fetched
(log 214). -/
def State.submit (s : State) (n : Nat) (waited : Bool) : State :=
  match (s.pair n).fetched with
  | none => s
  | some e =>
    if eOp e ≠ 1 ∨ (s.pair n).waits ≠ waited ∨ s.admissionRuns = false then s
    else
      let found := s.checks e
      let t := s.hubDone (s.admissionReads e (match found with
        | .error st => some st
        | .ok _ => none))
      if t.hub.sweeping then t
      else match found with
        | .error st => t.completeFetched n (eTag e) st
        | .ok a => match t.mapBarriers a.header with
          | none => t.modPair n (fun p => { p with waits := true })
          | some bars => t.enrolJob n e a bars

def execJobSubmit (n : PairId) (s : State) : Res := .next (s.submit n false)
def execAdmissionResume (n : PairId) (s : State) : Res := .next (s.submit n true)

end Sys2Proof.Machine
end

