-- ==== Sys2Proof/Machine/Builtin.lean ====
section
/-! DEFINITION. The built-in tables of an epoch (R261, R268): their domains, tails and bounds, and the images read from the dictionary. -/

namespace Sys2Proof.Machine

/-! ## Table 10-3 -/

/-- A table image of a header and its segment records (R250, R251). -/
def tableImage (header : Nat) (recs : List Nat) : List Byte := leBytes 64 header ++ recs.flatMap (leBytes 32)
/-- A header with FUNC_ID, FORM, tail modes and tail constants. -/
def tableHeader (id form : Nat) (lowMode highMode : Bool) (lowVal highVal : Nat) : Nat :=
  id * 2 ^ 88 + (if highMode then 2 ^ 81 else 0) + (if lowMode then 2 ^ 80 else 0) + form * 2 ^ 64 + highVal * 2 ^ 32 + lowVal
/-- A row of Table 10-3: the domain's end as a multiple of −256 widths from its start, the width's exponent, the tails, MONO. -/
structure BuiltIn where
  start : Int
  lw : Int
  lowVal : Nat
  highMode : Bool
  highVal : Nat
  mono : Nat
def builtIn (id : Nat) : BuiltIn :=
  let one := 0x3F800000
  match id with
  | 1 => ⟨-256, -3, 0, false, one, 1⟩
  | 2 => ⟨-256, -3, 0, false, one, 1⟩
  | 3 => ⟨-128, -3, 0, false, one, 1⟩
  | 4 => ⟨-128, -4, 0xBF800000, false, one, 1⟩
  | 5 => ⟨-128, -3, 0, true, 0, 0⟩
  | _ => ⟨-128, -4, 0, true, 0, 0⟩
/-- The record of segment `i` of a built-in, with the low 128 bits and the SE given. -/
def builtInRec (t : BuiltIn) (i : Nat) (se coeffs : Nat) : Nat :=
  let brk := toF32 (ofIntExp (t.start + Int.ofNat i) t.lw)
  brk * 2 ^ 224 + (se % 65536) * 2 ^ 208 + (BitVec.ofInt 16 t.lw).toNat * 2 ^ 192 + coeffs % 2 ^ 128
/-! ### The exact functions, to 512 bits after the point -/

def fxOne : Int := 2 ^ 512
def fxMul (a b : Int) : Int := a * b / fxOne
/-- The number of a finite value, scaled by 2^k; exact for an FP32 value where 149 ≤ k. -/
def scaledBy (k : Nat) (v : Val) : Int :=
  match v with
  | .fin true _ _ => -Int.ofNat (floorScaled v.negate k)
  | _ => Int.ofNat (floorScaled v k)
/-- The terms of the exponential series from x^k / k! = t on. -/
def expTerms : Nat → Nat → Int → Int → Int
  | 0, _, _, _ => 0
  | n + 1, k, x, t => t + expTerms n (k + 1) x (fxMul t x / Int.ofNat (k + 1))
def fxExp (x : Int) : Int := expTerms 512 0 x fxOne
def fxLn2 : Int := ((List.range 512).map (fun k => fxOne / ((Int.ofNat k + 1) * 2 ^ (k + 1)))).sum
/-- arctan(1/n); π by Machin's formula. -/
def fxArctan (n : Int) : Int := ((List.range 256).map (fun k => (-1) ^ k * fxOne / ((2 * Int.ofNat k + 1) * n ^ (2 * k + 1)))).sum
def fxPi : Int := 16 * fxArctan 5 - 4 * fxArctan 239
def fxSqrt (x : Int) : Int := Int.ofNat (Nat.sqrt (x * fxOne).toNat)
/-- 1 / (1 + e^−x). -/
def fxSigmoid (x : Int) : Int := fxOne * fxOne / (fxOne + fxExp (-x))
/-- The terms of √(2π) · (Φ(x) − 1/2) from that of x^(2k+1) on; `t` is that term times 2k + 1. -/
def phiTerms : Nat → Nat → Int → Int → Int
  | 0, _, _, _ => 0
  | n + 1, k, x, t => t / (2 * Int.ofNat k + 1) + phiTerms n (k + 1) x (-(fxMul t (fxMul x x)) / (2 * (Int.ofNat k + 1)))
def fxPhi (x : Int) : Int := fxOne / 2 + phiTerms 512 0 x x * fxOne / fxSqrt (2 * fxPi)
/-- f(z) of Table 10-3; the tanh form of GELU is z · sigmoid(2 √(2/π) (z + 0.044715 z³)) (log 4). -/
def builtInExact (id : Nat) (z : Int) : Int :=
  match id with
  | 1 => fxExp (fxMul z fxLn2)
  | 2 => fxExp z
  | 3 => fxSigmoid z
  | 4 => 2 * fxSigmoid (2 * z) - fxOne
  | 5 => fxMul z (fxSigmoid z)
  | 6 => fxMul z (fxSigmoid (2 * fxMul (fxSqrt (2 * fxOne * fxOne / fxPi)) (z + fxMul z (fxMul z z) * 44715 / 1000000)))
  | _ => fxMul z (fxPhi z)

/-! ### The bounds -/

/-- SFU_ULP_BOUND (Table 10-3). -/
def ulpBound (id : Nat) : Nat := if id = 1 ∨ id = 3 ∨ id = 4 then 4 else 8
/-- The absolute bound of Table 10-3, in units of 2^−149; 0 where it gives none. -/
def absBound (id : Nat) : Nat :=
  match id with
  | 3 => 2 ^ 127
  | 4 => 2 ^ 128
  | 5 => 2 ^ 131
  | 6 => 2 ^ 129
  | 7 => 2 ^ 129
  | _ => 0
/-- Whether a bank meets the bound of a built-in at one FP32 argument: an argument outside the domain is a tail's. -/
def meetsBound (b : SfuBank) (id w : Nat) : Bool :=
  let z := ofF32 w
  let y := sfuEval32 b z
  let ref := scaledBy 149 (r32 (ofIntExp (builtInExact id (scaledBy 512 z)) (-512)))
  let ulp := 2 ^ (ref.natAbs.log2 - 23)
  z.isNan || z.lt (b.lo 0) || b.endVal.le z ||
  (!y.isNan && !y.isInf && decide ((scaledBy 149 y - ref).natAbs ≤ max (ulpBound id * ulp) (absBound id)))
/-- Whether a test holds of every number below n. -/
def allBelow : Nat → (Nat → Bool) → Bool
  | 0, _ => true
  | n + 1, ok => ok n && allBelow n ok
/-- Whether an image passes the loader's checks with its MONO and meets its bound over its domain (R261). -/
def builtInOk (id : Nat) (image : List Byte) : Bool :=
  match loadTable image 256 (builtIn id).mono with
  | some b => allBelow (2 ^ 32) (meetsBound b id)
  | none => false
/-- The image of the domain, segments and tails of Table 10-3 with the SEs and coefficients that a number spells, 144 bits a segment. -/
def builtInImage (id n : Nat) : List Byte :=
  let t := builtIn id
  tableImage (tableHeader id 0 false t.highMode t.lowVal t.highVal)
    ((List.range 256).map (fun i => builtInRec t i (bits n (144 * i + 143) (144 * i + 128)) (bits n (144 * i + 127) (144 * i))))
/-- The first number at or above n, of `fuel`, that passes a test. -/
def firstFrom : Nat → (Nat → Bool) → Nat → Option Nat
  | 0, _, _ => none
  | fuel + 1, ok, n => if ok n then some n else firstFrom fuel ok (n + 1)
/-- The number of assignments of coefficients. -/
def builtInSpace : Nat := 2 ^ 36864
/-- SFU_BUILTIN: the native image of the epoch. Its coefficients are the epoch's, which the spec does not print: a FREE VALUE (log 4)
among those with the domain, tails and MONO of Table 10-3 that pass the loader's checks and meet their bound. -/
def nativeImage (epoch id : Nat) : List Byte :=
  builtInImage id ((firstFrom builtInSpace (fun n => builtInOk id (builtInImage id n)) (Config.builtinTable epoch id)).getD 0)
/-- SFU_BUILTIN_G1: the first-generation table of the same ID in G1 form. All but its form, its ID and what the loader's checks ask
is FREE (log 4). -/
def g1Image (epoch id : Nat) : List Byte :=
  let free := (Config.builtinG1 epoch id ++ List.replicate 8256 0).take 8256
  let head := leNat (free.take 64)
  let body := putBits (putBits head 103 88 id) 71 64 1
  let image := leBytes 64 body ++ free.drop 64
  if (loadTable image 256 0).isSome then image
  else tableImage (tableHeader id 1 false false 0 0) ((List.range 256).map (fun i => builtInRec (builtIn id) i 0 0))

end Sys2Proof.Machine
end

