-- ==== Sys2Proof/Machine/EncCoding.lean ====
section
/-! DEFINITION. How a frame is coded, as functions of its inputs: the input transform (R387, R388), the effort levels (R389), the OBUs
(R381), and the bits, ring bytes and reconstruction that R390 makes a function of those inputs. What the AV1 standard and the search
decide is free (log 6). -/

namespace Sys2Proof.Machine

/-! ## Input transform (R387, R388) -/

/-- A plane, row by row. -/
abbrev Plane := List (List Nat)
def Plane.width (p : Plane) : Nat := (p.headD []).length
def Plane.at (p : Plane) (y x : Nat) : Nat := (((p[y]?).getD [])[x]?).getD 0
/-- Rows and columns exchanged. -/
def Plane.flipAxes (p : Plane) : Plane := (List.range p.width).map (fun x => (List.range p.length).map (fun y => p.at y x))
/-- Rotation clockwise by 90°: the lowest row becomes the first column. -/
def Plane.turn (p : Plane) : Plane := Plane.flipAxes p.reverse
/-- Rotation by 90° × n, then FLIP_H, then FLIP_V. -/
def Plane.orient (p : Plane) (n : Nat) (flipH flipV : Bool) : Plane :=
  let p := n.repeat Plane.turn p
  let p := if flipH then p.map List.reverse else p
  if flipV then p.reverse else p

/-- The taps of a phase of the epoch's table: eight, of sum 128 (log 4). -/
def scalerPhase (epoch ph : Nat) : List Int :=
  let ts := (List.range 8).map (fun k => (Config.scalerTap epoch ph k).toInt)
  if ts.sum = 128 then ts else [0, 0, 0, 64, 64, 0, 0, 0]
/-- ENC_SCALER_TAPS. -/
def scalerBlob (epoch : Nat) : List Byte :=
  (List.range 64).flatMap (fun ph => (scalerPhase epoch ph).map (fun t => BitVec.ofInt 8 t))

/-- The position output sample x reads from, in units of 2^−16. -/
def scalerPos (src dst x : Nat) : Int := Int.ofNat ((2 * x + 1) * src * 65536 / (2 * dst)) - 32768
/-- The eight-tap sum of output sample x over a line of samples, each index clamped to the line. -/
def scalerSum (tap : Nat → List Int) (dst : Nat) (xs : List Int) (x : Nat) : Int :=
  let p := scalerPos xs.length dst x
  let i := p / 65536
  let last : Int := Int.ofNat xs.length - 1
  (((tap (p / 1024 % 64).toNat).zipIdx).map (fun t =>
    t.1 * (xs[(max 0 (min last (i - 3 + Int.ofNat t.2))).toNat]?).getD 0)).sum
/-- A line of output samples. -/
def scalerLine (tap : Nat → List Int) (dst : Nat) (xs : List Int) : List Int := (List.range dst).map (scalerSum tap dst xs)
/-- The one rounding of a sample, and its clamp. -/
def scalerRound (shift depth : Nat) (v : Int) : Nat :=
  (max 0 (min ((v + 2 ^ (shift - 1)) / 2 ^ shift) (2 ^ depth - 1))).toNat
/-- Scale a plane of a depth to an extent and a depth: columns of exact horizontal sums, then the vertical sums, rounded. An unscaled
plane passes through. -/
def Plane.scale (tap : Nat → List Int) (p : Plane) (from_ depth w h : Nat) : Plane :=
  let p : Plane := if from_ < depth then p.map (List.map (fun v => v * 4)) else p
  if p.width = w ∧ p.length = h then p
  else
    let rows := p.map (fun r => scalerLine tap w (r.map Int.ofNat))
    let cols := (List.range w).map (fun x => scalerLine tap h (rows.map (fun r => (r[x]?).getD 0)))
    (List.range h).map (fun y => cols.map (fun ys => scalerRound (if depth < from_ then 16 else 14) depth ((ys[y]?).getD 0)))

/-! ## Frame requests (Table 16-4a) -/

def rqKey (r : Nat) : Bool := bit r 292
def rqRefresh (r : Nat) : BitVec 4 := BitVec.ofNat 4 (bits r 291 288)
def rqW (r : Nat) : Nat := bits r 351 339
def rqH (r : Nat) : Nat := bits r 338 326
def rqNumber (r : Nat) : Word := BitVec.ofNat 32 (bits r 324 293)
/-- The slots in use: LAST, GOLDEN, ALTREF. -/
def rqRefs (r : Nat) : List Nat :=
  (if bit r 285 then [bits r 280 279] else []) ++ (if bit r 286 then [bits r 282 281] else []) ++ (if bit r 287 then [bits r 284 283] else [])
/-- Bytes of a sample of a request's planes. -/
def rqSample (r : Nat) : Nat := if bit r 325 then 2 else 1
/-- The rows of a plane as the transform reads them: their samples alone, also where the pitch is below a row. -/
def planeRows (base pitch w h bytes : Nat) : List (Nat × Nat) := (List.range h).map (fun y => (base + y * pitch, w * bytes))
/-- What the transform reads of the three planes. -/
def rqPlanes (r : Nat) : List (Nat × Nat) :=
  let one := fun (base pitch div : Nat) => planeRows base pitch (rqW r / div) (rqH r / div) (rqSample r)
  one (bits r 511 472) (bits r 391 372) 1 ++ one (bits r 471 432) (bits r 371 352) 2 ++ one (bits r 431 392) (bits r 371 352) 2

/-- The samples of a plane in memory. -/
def Mem.plane (m : Mem) (base pitch w h bytes : Nat) : Plane :=
  (List.range h).map (fun y => (List.range w).map (fun x => m.readLE (base + y * pitch + x * bytes) bytes))
/-- The three planes of a request as the input transform leaves them. -/
def codedPlanes (m : Mem) (epoch p r : Nat) : List Plane :=
  let b := rqSample r
  let depth := if epBit10 p then 10 else 8
  let from_ := if bit r 325 then depth else 8
  let one := fun (base pitch div : Nat) =>
    (((m.plane base pitch (rqW r / div) (rqH r / div) b).orient (bits p 217 216) (bit p 215) (bit p 214)).scale
      (scalerPhase epoch) from_ depth (epW p / div) (epH p / div))
  [one (bits r 511 472) (bits r 391 372) 1, one (bits r 471 432) (bits r 371 352) 2, one (bits r 431 392) (bits r 371 352) 2]

/-! ## Effort (R389) -/

/-- Table 16-4. -/
def effortOf (level : Nat) : Effort :=
  match level with
  | 0 => ⟨32, 16, 2, [0], false⟩
  | 1 => ⟨64, 32, 4, [0], false⟩
  | 2 => ⟨128, 64, 8, [0, 2], true⟩
  | _ => ⟨256, 128, 8, [0, 1, 2], true⟩
/-- A vector the search may choose: within its range, on the grid its refinement reaches, with a filter it tries. -/
def effortBound (e : Effort) (v : Motion) : Motion :=
  let step : Int := Int.ofNat (8 / e.fraction)
  let axis := fun (range : Nat) (c : Int) =>
    let top : Int := Int.ofNat (8 * range)
    max (-top) (min top c) / step * step
  ⟨axis e.rangeX v.x, axis e.rangeY v.y, if e.filters.contains v.filter then v.filter else 0⟩
/-- The vectors of a frame. Which of those the level allows the search finds is free (log 6). -/
def encMotions (c : EncInput) : List Motion := (Config.searchResult c).map (effortBound c.effort)

/-! ## OBUs (R381) -/

/-- The size field of an OBU, seven bits to a byte. -/
def leb128 : Nat → Nat → List Byte
  | 0, _ => []
  | k + 1, n => if n < 128 then [BitVec.ofNat 8 n] else BitVec.ofNat 8 (128 + n % 128) :: leb128 k (n / 128)
/-- An OBU with obu_has_size_field = 1 and no extension header; the places of AV1's header bits are PRESUMED (log 155). -/
def obu (type : Nat) (payload : List Byte) : List Byte := BitVec.ofNat 8 (8 * type + 2) :: (leb128 8 payload.length ++ payload)
/-- OBU_TEMPORAL_DELIMITER, OBU_SEQUENCE_HEADER, OBU_FRAME_HEADER (PRESUMED codes, log 155). -/
def obuDelimiter : List Byte := obu 2 []

/-- The sequence header of a stream. -/
def seqHeader (p : Nat) : SeqHeader :=
  { level := if epW p * epH p ≤ 8912896 then 13 else 17, width := epW p, height := epH p, bit10 := epBit10 p
    cdef := bit p 212, restoration := bit p 211 }
/-- The frame header of a request. -/
def frameFields (c : EncInput) : FrameHeader :=
  let p := c.params
  let r := c.request
  let last := bits r 280 279
  { key := rqKey r, refreshSlots := (rqRefresh r).toNat
    refFrameIdx := [last, last, last, bits r 282 281, last, last, bits r 284 283]
    highPrecMv := c.effort.highPrec, switchableFilter := decide (1 < c.effort.filters.length)
    tileColsLog2 := bits p 231 229, tileRowsLog2 := bits p 228 226
    baseQ := c.q0, deltaQRes := 2 ^ bits p 259 258
    loopFilter := if bit p 213 then Config.loopFilterLevel c.epoch c.q0 else 0
    cdefStrengths := if bit p 212 then (List.range 8).map (Config.cdefStrength c.epoch c.q0) else []
    restoration := bit p 211 }
/-- OBU_FRAME_HEADER of a frame; its bits count for rate control (R391). -/
def frameObu (c : EncInput) : List Byte := obu 3 (Config.av1FrameHeader (frameFields c))
/-- The OBUs of a temporal unit before its tile groups. -/
def headObus (c : EncInput) : List (List Byte) :=
  [obuDelimiter] ++ (if rqKey c.request then [obu 1 (Config.av1SequenceHeader (seqHeader c.params))] else []) ++ [frameObu c]

/-! ## Tiles (R390, R391, R393) -/

/-- The quantiser of the row after one that brings the bits so far to `used` (R391). -/
def rowQ (cap : Bool) (qmax step rows : Nat) (lt : Int) (row used q : Nat) : Nat :=
  if cap && decide (lt * ((row : Int) + 1) < ((used * rows : Nat) : Int)) then min qmax (q + step) else q
/-- The bits of the rows of a tile, each coded at the quantiser that the rows before it leave. -/
def codeRows (bitsOf : List Nat → Nat) (next : Nat → Nat → Nat → Nat) : Nat → Nat → Nat → List Nat → Nat → List Nat
  | 0, _, _, _, _ => []
  | n + 1, row, used, qs, q =>
    let b := bitsOf (qs ++ [q])
    b :: codeRows bitsOf next n (row + 1) (used + b) (qs ++ [q]) (next row (used + b) q)
/-- The share of the limit that a tile has. -/
def tileLimit (c : EncInput) (t : Nat) : Int :=
  (c.limit * (epTileSb c.params t : Int)).fdiv ((epSbW c.params * epSbH c.params : Nat) : Int)
/-- R391's rule for the next row of a tile. -/
def tileNextQ (c : EncInput) (t : Nat) : Nat → Nat → Nat → Nat :=
  rowQ (decide (epCap c.params ≠ 0)) (epQmax c.params) (epQstep c.params) (epTileRows c.params t) (tileLimit c t)
/-- Bits before a tile's first row: the frame header's, in tile 0. -/
def tileStartBits (c : EncInput) (t : Nat) : Nat := if t = 0 then 8 * (frameObu c).length else 0
/-- The bits of a tile's superblock rows: a function of the frame's inputs (R390). -/
def tileBits (c : EncInput) (t : Nat) : List Nat :=
  codeRows (fun qs => 1 + Config.codedRow c (encMotions c) t qs) (tileNextQ c t) (epTileRows c.params t) 0 (tileStartBits c t) [] c.q0
/-- The highest quantiser a tile whose rows take the bits given reaches. -/
def tileTopQ (next : Nat → Nat → Nat → Nat) : List Nat → Nat → Nat → Nat → Nat
  | [], _, _, q => q
  | b :: bs, row, used, q => tileTopQ next bs (row + 1) (used + b) (next row (used + b) q)
/-- A tile's bits and the quantiser it ends at. -/
def tileResult (c : EncInput) (t : Nat) (rowBits : List Nat) : Nat × Nat :=
  (rowBits.sum, tileTopQ (tileNextQ c t) rowBits 0 (tileStartBits c t) c.q0)
/-- A size in k bytes, the last without the continuation bit. -/
def leb128Pad : Nat → Nat → List Byte
  | 0, _ => []
  | 1, n => [BitVec.ofNat 8 (n % 128)]
  | k + 2, n => BitVec.ofNat 8 (128 + n % 128) :: leb128Pad (k + 1) (n / 128)
/-- Bytes of the size field of an OBU of n bytes in all: the fewest that hold the size of what follows. -/
def sizeBytes (n : Nat) : Nat := ((List.range 8).find? (fun k => decide (n < 1 + (k + 1) + 128 ^ (k + 1)))).getD 7 + 1
/-- The bytes of the OBU_TILE_GROUP of a tile row, `n` of them: the header byte, obu_size, and the coded bytes (R381). -/
def groupObu (c : EncInput) (g n : Nat) : List Byte :=
  let k := sizeBytes n
  BitVec.ofNat 8 (8 * 4 + 2) :: (leb128Pad k (n - 1 - k) ++ (List.range (n - 1 - k)).map (Config.codedByte c (encMotions c) g))
/-- The reconstruction as a reference slot holds it. -/
def reconstruction (c : EncInput) : List Byte := (List.range (epSlotBytes c.params)).map (Config.reconByte c (encMotions c))

end Sys2Proof.Machine
end

