-- ==== Sys2Proof/Machine/Schedule.lean ====
section
/-! DEFINITION. Scheduling (R368–R373): dispatch, preemption, save and restore, completion (R83). -/

namespace Sys2Proof.Machine

/-! ## Ready jobs and their rank (R368) -/

/-- The rank of a job's class: PREVIEW first, then classes 0 to 3. -/
def Job.prio (j : Job) : Nat := if j.cls = 4 then 0 else j.cls + 1
/-- A job that has SAVE_EN and whose epoch the image of an activation carries (R455). -/
def State.saveable (s : State) (j : Job) (bank : Nat) : Bool :=
  let b := mget {} s.boot.banks bank
  j.saveEn && decide (j.epoch = b.epochCur ∨ j.epoch = b.epochPrev)
/-- A saveable job starts no more while an activation pauses the module (R455, log 35). -/
def State.heldByActivation (s : State) (j : Job) : Bool :=
  match s.boot.activation with
  | some a => a.paused && s.saveable j a.bank
  | none => false
/-- Whether a job is ready: it waits neither for a group nor for a window (R336, R188), and it is not dispatched. -/
def State.isReady (s : State) (j : Job) : Bool :=
  (decide (j.phase = .waiting) || (decide (j.phase = .saved) && decide (s.heldClusters j = []))) &&
  j.groups.all (fun g => let x := s.group g; decide (x.holder = some j.id) || (x.holder.isNone && !x.aborted)) &&
  !s.windowWait j && !s.heldByActivation j
/-- The next frame deadline of a preview job (R371): the earliest over its streams that have one. -/
def State.nextDeadline (s : State) (j : Job) : Option Nat :=
  let ds := j.streams.filterMap (fun i =>
    let period := (s.stream i).enc.period
    if j.cls ≠ 4 ∨ period = 0 ∨ (s.stream i).sstate ≠ .held then none
    else some (j.admitPacing.toNat + ((s.stream i).enc.reqDone + 1) * period))
  ds.foldl (fun a d => some (match a with
    | some x => min x d
    | none => d)) none
/-- Whether the first frames of a job's weights are READY (Table 17-6): it streams none, or a frame of its slot's window is READY
(log 151). -/
def State.framesReady (s : State) (j : Job) : Bool :=
  match j.slot with
  | none => true
  | some i => s.slotOnDemand i || (s.slot i).frames.any (fun f => decide (f.2.state = .ready))
/-- Whether job x goes before job y (R368): by class; previews by their deadlines, those without last; then, once the steward's first
window has passed, a job whose first frames are READY; then in admission order. -/
def State.outranks (s : State) (x y : Job) : Bool :=
  if x.prio ≠ y.prio then decide (x.prio < y.prio)
  else
    let due := fun (j : Job) => (s.nextDeadline j).getD (2 ^ 64)
    let wait := fun (j : Job) => if s.pwr.windowPassed && !s.framesReady j then 1 else 0
    if due x ≠ due y then decide (due x < due y)
    else if wait x ≠ wait y then decide (wait x < wait y)
    else decide (x.admitSeq < y.admitSeq)
/-- Whether dispatch goes on at all (R377, R412, R448); under an ARITH override the cap is not enforced (R405). -/
def State.dispatchRuns (s : State) : Bool := 
  s.boot.ready && !s.hub.sweeping && !(s.pwr.holdDispatch && decide (s.dv 0x0401 1 = 0))
/-- Whether a ready job's team is free. -/
def State.canDispatch (s : State) (j : Job) : Bool := s.isReady j && j.team.all s.clusterFree

/-- The sequencers of a team start at the code entry, g1 to g31 zero; INVOCATIONS counts (R368, R486). -/
def State.startTeam (s : State) (j : Job) : State :=
  let pc := BitVec.ofNat 64 (bits j.entry.toNat 199 160 + bits j.header.toNat 63 32)
  j.team.foldl (fun t k =>
    (t.modCluster k (fun c => { c with holder := some j.id, seq := { active := true, pc := pc } })).bumpCluster k 27 1) s

/-- The jobs that hold clusters of a team. -/
def State.holdersOf (s : State) (team : List Nat) : List Job := s.hub.jobs.filter (fun y => team.any (fun k => decide ((s.cluster k).holder = some y.id)))
/-- Whether X may stop Y: X ranks above Y, and Y may be swapped out. -/
def Job.mayStop (x y : Job) : Bool := decide (x.prio < y.prio) && y.saveEn && decide (y.phase = .running)
/-- Whether stopping the jobs that X may stop, beside those that stop for such a job already, completes the team of X (R370). -/
def State.canFree (s : State) (x : Job) : Bool :=
  s.isReady x && x.team.all (fun k => !(s.cluster k).fenced && !s.underBist k && s.clusterServes k) &&
  (s.holdersOf x.team).all (fun y => x.mayStop y || decide (y.phase = .stopping ∧ y.why = .preempted))

/-- Whether two jobs contend: for a cluster, for a group, or for the window of a slot that streams by layer (R368, R336, R188, log 188);
any number of jobs hold an on-demand slot at once (R189). -/
def State.contend (s : State) (x y : Job) : Bool :=
  x.team.any (fun k => y.team.contains k) || x.groups.any (fun g => y.groups.contains g) ||
  x.slot.any (fun i => !s.slotOnDemand i && decide (y.slot = some i))

/-- Whether a class-0 job has stayed ready for more than QUEUE_LIMIT_MS (R415), of 175,000 pacing counts to the millisecond. -/
def State.overQueued (s : State) (j : Job) : Bool :=
  decide (j.cls = 0) && s.isReady j && decide (175000 * s.dv 0x0510 8 < (s.pacing - j.readyPacing).toNat)
/-- The steward looks at the ready jobs (Table 17-5): at each sample, and as one is dispatched. -/
def State.watchReady (s : State) : State :=
  let s := s.withPwr (fun p => { p with queued := p.queued || s.hub.jobs.any s.overQueued })
  s.withHub (fun h => { h with jobs := h.jobs.map (fun j => if s.isReady j then j else { j with readyPacing := s.pacing }) })

/-- JOB_DISPATCH (R368): a ready job whose team is free takes it, unless a job that goes before it and contends with it can dispatch,
or its team can be freed for it. A first dispatch starts the sequencers; a swapped-out job's state comes with JOB_RESTORE. -/
def State.dispatch (s : State) (id : JobId) : State :=
  match s.job? id with
  | none => s
  | some j =>
    if !s.dispatchRuns || !s.canDispatch j || s.hub.jobs.any (fun x => s.outranks x j && s.contend x j && (s.canDispatch x || s.canFree x)) then s
    else
      let s := s.watchReady
      let s := j.groups.foldl (fun t g => t.modGroup g (fun x => { x with holder := some j.id })) s
      if j.phase = .saved then j.team.foldl (fun t k => t.modCluster k (fun c => { c with holder := some j.id })) s
      else
        let s := match j.slot with
          | some i => s.claimWindow i
          | none => s
        (s.startTeam j).modJob id (fun x => { x with phase := .running, dispatchPacing := some s.pacing })

/-! ## Preemption (R370) -/

/-- PREEMPT: every running job on the team of X is one that X may stop, and stopping them completes the team; the lowest rank
stops first, within a rank the newest admission. -/
def State.preempt (s : State) (id : JobId) : State :=
  match s.job? id with
  | none => s
  | some x =>
    let victims := (s.holdersOf x.team).filter (fun y => x.mayStop y)
    if !s.dispatchRuns || victims.isEmpty || !s.canFree x then s
    else (((List.range 5).reverse).flatMap (fun p => (victims.filter (fun y => y.prio == p)).reverse)).foldl
      (fun t y => t.raiseStop y .preempted) s

/-! ## Save and restore (R372, R373) -/

/-- What a save keeps of a core: not its predictors and counters, which stay with the core (R305, R486), nor its line-buffer
tags (R273), nor what its weight buffers hold (R113, R279). -/
def Core.saved (x : Core) : Core := { x.restoreLog.abandonFills with tags := [], kept := none, shadow := none, predictors := [], ctr := [], stopReq := false, stopped := false }
def State.saveCluster (s : State) (k : Nat) : SavedCluster :=
  let c := s.cluster k
  { seq := c.seq, sync := c.sync, status := c.scache.readBytes 0 0x80
    work := c.scache.cells.filter (fun p => decide (scWork ≤ p.1) && decide (p.1 < scWorkEnd))
    roomQ := c.roomQ, pins := c.pins, cores := (coresOf k).map (fun i => (s.core i).saved), samplePend := c.samplePend }

/-- A save area is written; its layout is the module's own, so its bytes are unspecified (log 1). -/
def State.writeArea (s : State) (a : Nat) : State :=
  let (t, s) := s.stamp
  let s := ((s.snoopInv a saveClusterBytes).countWritten a saveClusterBytes)
  let s := (s.withMs (fun m => { m with mem := m.mem.forget a (a + saveClusterBytes) t })).fresh a saveClusterBytes
  (stacksOf a saveClusterBytes).foldl State.useParity s
/-- The areas are written in order, up to the first that fails: its stack is fenced or OFF, or its transfer fails (R149, R157, R158). -/
def State.writeAreas (s : State) : List Nat → Except (AccErr × State) State
  | [] => .ok s
  | a :: rest => match s.rangeErr a saveClusterBytes with
    | some e => .error (e, s)
    | none => (s.writeArea a).writeAreas rest

/-- Commits whose acknowledgement the snapshot misses take effect; the saved tile queue still holds the last members of their chains,
which run and commit again after the restore (R133). -/
def State.commitEarly (s : State) (c : Nat) : State :=
  let cs := (s.core c).commits
  let s := s.makeCommits c
  s.modCore c (fun x => { x with queue := cs.map (fun p => p.last.unstart) ++ x.queue })

/-- JOB_SAVE: a job stopped to be swapped out is saved and frees its team; it keeps its references. A write of an area that fails is the
job's fault (Table 6-4). -/
def State.saveJob (s : State) (id : JobId) : State :=
  match s.job? id with
  | none => s
  | some j =>
    if s.hub.sweeping || decide (j.phase ≠ .stopping) || !(decide (j.why = .preempted) || decide (j.why = .activation)) ||
       !s.allStopped j || decide (s.heldClusters j ≠ j.team) then s
    else
      let s := (j.team.flatMap coresOf).foldl (fun t c => t.commitEarly c) s
      let saved := j.team.map s.saveCluster
      let d := s.dupsOf j
      match s.writeAreas j.saveAreas with
      | .error (e, t) => t.accFault e (some id) 0xFF (BitVec.ofNat 8 ((j.team.head?).getD 0)) 0
      | .ok s =>
        let s := j.team.foldl (fun t k => (t.bumpCluster k 28 1).freeCluster k) s
        s.modJob id (fun x => { x with phase := .saved, why := .none, saved := saved, preempted := true, dups := d })

/-- Bring back one cluster of a job. -/
def State.restoreCluster (s : State) (p : Nat × SavedCluster) : State :=
  let k := p.1
  let v := p.2
  let s := (s.modCluster k (fun c => { c with
    seq := v.seq, sync := v.sync, roomQ := v.roomQ, pins := v.pins, samplePend := v.samplePend
    scache := v.work.foldl (fun m b => m.write b.1 b.2) (c.scache.writeBytes 0 v.status) })).bumpCluster k 29 1
  ((coresOf k).zip v.cores).foldl (fun t q => t.modCore q.1 (fun x => { q.2 with predictors := x.predictors, ctr := x.ctr })) s
/-- The first failing read of a job's save areas. -/
def State.areaErr (s : State) (j : Job) : Option AccErr :=
  j.saveAreas.findSome? (fun a => match s.rangeErr a saveClusterBytes with
    | some e => some e
    | none => (s.poisonIn a saveClusterBytes).map (fun g => .ue (32 * g)))
/-- JOB_RESTORE: a swapped-out job that has its team again gets its state back and goes on; posts that the hub held for it are
applied (R386). An uncorrectable error in an area is MEM_UE (Table 6-4). -/
def State.restoreJob (s : State) (id : JobId) : State :=
  match s.job? id with
  | none => s
  | some j =>
    if s.hub.sweeping || decide (j.phase ≠ .saved) || decide (s.heldClusters j ≠ j.team) then s
    else match s.areaErr j with
      | some e => s.accFault e (some id) 0xFF (BitVec.ofNat 8 ((j.team.head?).getD 0)) 0
      | none =>
        let s := j.saveAreas.foldl (fun t a => t.readDone a saveClusterBytes) s
        let s := (j.team.zip j.saved).foldl State.restoreCluster s
        let s := s.modJob id (fun x => { x with phase := .running, saved := [], heldPosts := [] })
        j.heldPosts.foldl (fun t p => t.applySync j 0xFF 0xFF ⟨1, p.1, p.2⟩) s

/-! ## Completion (R83, R386) -/

/-- Whether an encoded stream of a job has every posted request done. -/
def State.framesDone (s : State) (j : Job) (i : Nat) : Bool :=
  let p := s.encP i
  let r := s.stream i
  decide (r.sstate ≠ .held) || decide (r.holderJob ≠ j.id) || !epOn p || decide ((s.jobSync j (epSubmit p)).toNat ≤ r.enc.reqDone)
/-- Whether a cluster has nothing left of its job. -/
def State.clusterDone (s : State) (k : Nat) : Bool :=
  let q := s.seq k
  q.halted && q.outst.isEmpty && q.posts.isEmpty &&
  (coresOf k).all (fun c => let x := s.core c; x.queue.isEmpty && x.posts.isEmpty && x.commits.isEmpty)
/-- JOB_COMPLETE. -/
def State.completeIfDone (s : State) (id : JobId) : State :=
  match s.job? id with
  | none => s
  | some j =>
    if s.hub.sweeping || decide (j.phase ≠ .running) || !j.team.all s.clusterDone || !j.streams.all (s.framesDone j) then s
    else s.endJob j stOk none false

def execJobDispatch (job : JobId) (s : State) : Res := .next (s.dispatch job)
def execPreempt (job : JobId) (s : State) : Res := .next (s.preempt job)
def execJobSave (job : JobId) (s : State) : Res := .next (s.saveJob job)
def execJobRestore (job : JobId) (s : State) : Res := .next (s.restoreJob job)
def execJobComplete (job : JobId) (s : State) : Res := .next (s.completeIfDone job)

end Sys2Proof.Machine
end

