-- ==== Sys2Proof/Machine/Encoder.lean ====
section
/-! DEFINITION. The AV1 encoders (16): frame requests, rate control, tiles, emission into the ring, the ends of R395 and R396, and
the fences of engines. What a frame's tiles compress to is a function of its inputs (R390), in EncCoding. -/

namespace Sys2Proof.Machine

/-! ## The state block (Table 16-3) -/

/-- A field of the state block; zero where it cannot be read. -/
def State.sbGet (s : State) (p off n : Nat) : Nat := s.hubRead (epOut p + off) n
def State.sbPut (s : State) (p off n v : Nat) : State := s.memWriteHub (epOut p + off) (leBytes n v)
def State.written (s : State) (p : Nat) : Nat := s.sbGet p 0 8
def State.histFill (s : State) (p : Nat) : Nat := s.sbGet p 48 2
def State.hist (s : State) (p : Nat) : List Nat := (List.range (s.histFill p)).map (fun i => s.sbGet p (64 + 4 * i) 4)
/-- What the firmware reads of the state block: its header and the history. -/
def State.sbRange (s : State) (p : Nat) : Nat × Nat := (epOut p, 64 + 4 * s.histFill p)

/-- The limit L of the next frame: what the cap leaves after the bits of the last WINDOW_N − 1 frames (R391). -/
def State.encLimit (s : State) (p : Nat) : Int := (epCap p : Int) - ((s.hist p).sum : Int)
/-- base_q_idx of the next frame (R391). -/
def State.encQ0 (s : State) (p : Nat) : Nat :=
  let qEnd := s.sbGet p 43 1
  if s.sbGet p 32 4 = 0 then epQinit p else if qEnd = epQt p then epQt p else max (epQt p) (qEnd - epQstep p)

/-! ## Frame requests (Table 16-4a, R387) -/

def State.encReq (s : State) (p i : Nat) : Nat := s.hubRead (epReq p + 64 * (i % epReqLen p)) 64
def inScale (coded src : Nat) : Bool := decide (src ≤ 4 * coded ∧ coded ≤ 4 * src)
/-- Whether a request keeps Table 16-4a, names only slots that hold a frame, and scales within R387. -/
def State.requestOk (s : State) (i p r : Nat) : Bool :=
  let srcW := if epSwaps p then rqH r else rqW r
  let srcH := if epSwaps p then rqW r else rqH r
  decide (bits r 278 0 = 0) && decide (bits r 511 472 % 64 = 0 ∧ bits r 471 432 % 64 = 0 ∧ bits r 431 392 % 64 = 0) && decide (bits r 391 372 % 64 = 0) &&
  decide (bits r 371 352 % 64 = 0) && decide (rqW r % 2 = 0 ∧ 16 ≤ rqW r ∧ rqW r ≤ 8190) &&
  decide (rqH r % 2 = 0 ∧ 16 ≤ rqH r ∧ rqH r ≤ 8190) && decide ((rqNumber r).toNat = s.sbGet p 36 4) &&
  (if rqKey r then decide (rqRefresh r = 0xF) && decide (bits r 287 285 = 0) else decide (bits r 287 285 ≠ 0)) &&
  (rqRefs r).all (fun n => (s.stream i).enc.slots.getLsbD n) && inScale (epW p) srcW && inScale (epH p) srcH

/-! ## Engines -/

def State.engineFenced (s : State) (e : Nat) : Bool := (s.enc.fencedCmd ||| s.enc.fencedBist).getLsbD e
/-- Whether an engine takes new tiles. -/
def State.engineOn (s : State) (e : Nat) : Bool :=
  decide (s.block (blkEnc e) = 1) && !s.engineFenced e && s.hubOf (e / 2)
/-- Whether an engine can finish a tile: it is ON, or drains (R396). -/
def State.engineCodes (s : State) (e : Nat) : Bool :=
  decide (s.block (blkEnc e) ≠ 0) && (!s.engineFenced e || s.enc.fenceDrain.getLsbD e) && s.hubOf (e / 2)
/-- ENGINE_STATE (Table 16-7). -/
def State.engineState (s : State) (e : Nat) : Nat :=
  if s.block (blkEnc e) = 0 then (if s.engineFenced e then 3 else 0)
  else if s.enc.fenceDrain.getLsbD e ∨ s.block (blkEnc e) = 2 then 2
  else if s.engineFenced e then 3 else 1

def State.modEnc (s : State) (i : Nat) (f : EncStream → EncStream) : State :=
  s.setStreamRec i { s.stream i with enc := f (s.stream i).enc }

/-- The job that holds an encoded stream, and its parameters. -/
def State.encOf (s : State) (i : Nat) : Option (Job × Nat) :=
  if s.hub.sweeping then none
  else match s.streamJob i with
    | some id => match s.job? id with
      | some j => if epOn (s.encP i) then some (j, s.encP i) else none
      | none => none
    | none => none

/-! ## Which engine codes what (R392) -/

/-- Whether a tile of a frame is begun by an engine that can finish it. -/
def State.tileBegun (s : State) (f : EncFrame) (t : Nat) : Bool := f.begun.any (fun b => b.1 == t && s.engineCodes b.2)
/-- The tiles of a frame that no engine has begun. -/
def State.tilesLeft (s : State) (p : Nat) (f : EncFrame) : List Nat :=
  (List.range (epTiles p)).filter (fun t => !s.tileBegun f t && !f.tilesDone.any (fun d => d.1 == t))
/-- The deadline of a preview stream's frame in progress (R371); none comes last. -/
def State.frameDue (s : State) (j : Job) (i : Nat) : Nat :=
  let period := (s.stream i).enc.period
  if period = 0 then 2 ^ 64 else j.admitPacing.toNat + ((s.stream i).enc.reqDone + 1) * period
/-- Whether stream i is served before stream k: previews by their frames' deadlines, then the other classes in the order of R368, then
in order of posting (log 159). -/
def State.servedBefore (s : State) (i k : Nat) : Bool :=
  match s.encOf i, s.encOf k with
  | some (a, _), some (b, _) =>
    let posted := s.postOf
    if a.cls = 4 ∨ b.cls = 4 then
      if a.cls ≠ b.cls then decide (a.cls = 4)
      else if s.frameDue a i ≠ s.frameDue b k then decide (s.frameDue a i < s.frameDue b k)
      else decide (posted i < posted k)
    else if a.id = b.id then decide (posted i < posted k) else s.outranks a b
  | _, _ => false
/-- The stream whose tiles an engine takes next. -/
def State.nextStream (s : State) (e : Nat) : Option Nat :=
  let open_ := (s.hub.streams.map Prod.fst).filter (fun i => match s.encOf i, (s.stream i).enc.frame with
    | some (_, p), some f => bit (epMask p) e && !(s.tilesLeft p f).isEmpty
    | _, _ => false)
  open_.find? (fun i => open_.all (fun k => decide (k = i) || !s.servedBefore k i))
/-- Whether an engine has a tile in hand. -/
def State.engineHolds (s : State) (e : Nat) : Bool :=
  s.hub.streams.any (fun r => match r.2.enc.frame with
    | some f => f.begun.any (fun b => b.2 == e && !f.tilesDone.any (fun d => d.1 == b.1))
    | none => false)
/-- Whether the engines begin no tile: throughout an activation (R455). -/
def State.tilesPaused (s : State) : Bool := s.boot.activation.isSome
/-- The hub deals an engine that is ON and has no tile in hand the next tile (log 159). -/
def State.deal (s : State) (e : Nat) : State :=
  if !s.engineOn e || s.engineHolds e || s.tilesPaused then s
  else match s.nextStream e with
    | none => s
    | some i => match s.encOf i, (s.stream i).enc.frame with
      | some (_, p), some f => (match s.tilesLeft p f with
        | t :: _ => s.modEnc i (fun x => { x with frame := some { f with begun := f.begun ++ [(t, e)] } })
        | [] => s)
      | _, _ => s
def State.dealAll (s : State) : State := (List.range 4).foldl State.deal s

/-! ## Reads and writes of the engines (R393, Table 16-6) -/

/-- What an engine reads for a frame: the planes and the reference slots in use. -/
def encSources (p r : Nat) : List (Nat × Nat) :=
  rqPlanes r ++ (rqRefs r).map (fun n => (epDpb p + n * epSlotBytes p, epSlotBytes p))
/-- An engine's reads, each range once; a failed one is counted. -/
def State.engineRead (s : State) (rs : List (Nat × Nat)) : Except State State :=
  (s.readAll rs).mapError (fun e => e.2.countErr e.1)
/-- An engine's write; of a failed one what landed is kept, and it is counted. Into a protected range it is a bus error (R184, R372). -/
def State.engineWrite (s : State) (a : Nat) (bs : List Byte) : Except State State :=
  (s.memWrite a bs).mapError (fun e => e.2.countErr e.1)
/-- A stream ends on an encoder's error, with ENCODER_OVERRUN where the error cannot be read over (log 80). -/
def State.encEnd (s : State) (i : Nat) : State := s.streamError i stEncoderOverrun

/-! ## ENC_FRAME_START (R385, R390–R392) -/

/-- The inputs of a frame at an effort level (R390), as memory holds them. -/
def State.encInput (s : State) (j : Job) (p r level q0 : Nat) (limit : Int) : EncInput :=
  { epoch := j.epoch.toNat, effort := effortOf level, params := putBits p 225 222 0, request := r
    planes := codedPlanes s.ms.mem j.epoch.toNat p r
    refs := (rqRefs r).map (fun n => s.ms.mem.readBytes (epDpb p + n * epSlotBytes p) (epSlotBytes p))
    q0 := q0, limit := limit }
/-- The effort level of a frame (R390): EFFORT, or with EFFORT_ADAPT, while ENC_ADAPT_ALLOWED is TRUE, what the steward chooses from 0
to EFFORT: a free value (log 5). -/
def State.encLevel (s : State) (p : Nat) : Nat × State :=
  if bit p 218 ∧ s.dv 0x1400 4 = 1 then
    let (q, s) := s.draw
    (q.toNat % (bits p 220 219 + 1), s)
  else (bits p 220 219, s)

/-- The next posted request of a stream starts: an invalid one ends the stream with STREAM_INVALID; one that cannot be read, or whose
state block, planes or slots cannot, with ENCODER_OVERRUN. -/
def State.frameStart (s : State) (i : Nat) : State :=
  match s.encOf i with
  | none => s
  | some (j, p) =>
    let x := (s.stream i).enc
    let n := x.reqDone
    if x.frame.isSome || s.tilesPaused || decide ((s.jobSync j (epSubmit p)).toNat < n + 1) then s
    else
      let r := s.encReq p n
      match s.engineRead [(epReq p + 64 * (n % epReqLen p), 64), s.sbRange p] with
      | .error t => t.encEnd i
      | .ok t =>
        if !s.requestOk i p r then t.streamError i stStreamInvalid
        else match t.engineRead (encSources p r) with
          | .error t => t.encEnd i
          | .ok t =>
            let (level, t) := t.encLevel p
            let f : EncFrame := { input := s.encInput j p r level (s.encQ0 p) (s.encLimit p) }
            (t.modEnc i (fun x => { x with frame := some f })).dealAll

/-! ## ENC_TILE_DONE (R391–R393) -/

/-- The reconstruction goes into every slot that REFRESH names, once all tiles are done (R393). -/
def State.refreshSlots (s : State) (i p : Nat) (f : EncFrame) : State :=
  let set := rqRefresh f.input.request
  let go := ((List.range 4).filter (fun n => set.getLsbD n)).foldl
    (fun (t : Except State State) n => t.bind (fun t => t.engineWrite (epDpb p + n * epSlotBytes p) (reconstruction f.input))) (.ok s)
  match go with
  | .ok t => t.modEnc i (fun x => { x with slots := x.slots ||| set })
  | .error t => t.encEnd i

/-- Whether the program has changed what a frame in progress is coded from, which puts the bitstream outside R390 (R386). -/
def State.sourcesChanged (s : State) (j : Job) (p : Nat) (c : EncInput) : Bool :=
  let now := s.encInput j p c.request 0 c.q0 c.limit
  decide (now.planes ≠ c.planes) || decide (now.refs ≠ c.refs)
/-- Whether an engine may finish a tile: one it has begun, or, while it is ON, one no engine has begun of the stream whose turn it is. -/
def State.engineTakes (s : State) (e i : Nat) (f : EncFrame) (tile : Nat) : Bool :=
  (f.begun.contains (tile, e) && s.engineCodes e) ||
  (!s.tileBegun f tile && s.engineOn e && !s.tilesPaused && decide (s.nextStream e = some i))
/-- The rows of the command are the bits the tile codes to (R390); of a frame whose sources were changed any bits are (log 6). -/
def State.tileDone (s : State) (e i tile : Nat) (rowBits : List Nat) : State :=
  match s.encOf i, (s.stream i).enc.frame with
  | some (j, p), some f =>
    let changed := decide (f.input.seed ≠ 0) || s.sourcesChanged j p f.input
    if !s.engineTakes e i f tile || !bit (epMask p) e || decide (epTiles p ≤ tile) || f.tilesDone.any (fun d => d.1 == tile) ||
       decide (rowBits.length ≠ epTileRows p tile) || (!changed && decide (rowBits ≠ tileBits f.input tile)) then s
    else match s.engineRead (encSources p f.input.request) with
      | .error t => t.encEnd i
      | .ok s =>
        let (seed, s) := if changed then (s.draws + 1, { s with draws := s.draws + 1 }) else (0, s)
        let r := tileResult f.input tile rowBits
        let f := { f with tilesDone := f.tilesDone ++ [(tile, r.1, r.2)], input := { f.input with seed := seed }
                          begun := if f.begun.contains (tile, e) then f.begun else f.begun ++ [(tile, e)] }
        let s := { s with enc := { s.enc with tiles := mmod 0 s.enc.tiles e (fun q => q + 1) } }
        let s := s.modEnc i (fun x => { x with frame := some f })
        (if f.tilesDone.length = epTiles p then s.refreshSlots i p f else s).dealAll
  | _, _ => s

/-! ## ENC_TILE_GROUP_EMIT (R386, R394, R395) -/

/-- Whether CONSUMED is valid: it neither goes backward nor passes WRITTEN. -/
def State.consumedOk (s : State) (i p : Nat) : Bool :=
  let c := s.sbGet p 16 8
  decide ((s.stream i).enc.consumed ≤ c ∧ c ≤ s.written p)
/-- CONSUMED as the module takes it: the last valid one. -/
def State.consumedNow (s : State) (i p : Nat) : Nat := if s.consumedOk i p then s.sbGet p 16 8 else (s.stream i).enc.consumed
/-- Take CONSUMED; one that is not valid is logged. -/
def State.takeConsumed (s : State) (i p : Nat) : State :=
  if s.consumedOk i p then s.modEnc i (fun x => { x with consumed := s.consumedNow i p })
  else s.logNote 0 0xFF (BitVec.ofNat 128 i)

/-- Append OBUs to the ring, across its end without a gap. -/
def State.ringWrite (s : State) (p : Nat) (bs : List Byte) : Except State State :=
  let at_ := s.written p % epRing p
  let base := epOut p + 8192
  let first := epRing p - at_
  (s.engineWrite (base + at_) (bs.take first)).bind (fun t =>
    (if bs.length ≤ first then .ok t else t.engineWrite base (bs.drop first)).map (fun t => t.sbPut p 0 8 (t.written p + bs.length)))

/-- Whether the ring lacks room for an OBU of n bytes, with CONSUMED as the module took it last (R395). -/
def State.ringFull (s : State) (i p n : Nat) : Bool := decide ((s.stream i).enc.consumed + epRing p < s.written p + n)
/-- Try an OBU: larger than the ring it ends the stream, where it does not fit it waits. -/
def State.tryObu (s : State) (i p : Nat) (bs : List Byte) (done : State → State) : State :=
  if epRing p < bs.length then s.encEnd i
  else if s.ringFull i p bs.length then s
  else match s.ringWrite p bs with
    | .ok t => done t
    | .error t => t.encEnd i

/-- A preview frame that leaves the encoder after its deadline is late (R371). -/
def State.countLate (s : State) (j : Job) (i k : Nat) : State :=
  let period := (s.stream i).enc.period
  if j.cls ≠ 4 ∨ period = 0 ∨ s.pacing.toNat ≤ j.admitPacing.toNat + (k + 1) * period then s
  else ((s.modStream i (fun r => { r with late := r.late + 1 })).withPwr (fun p => { p with late := true })).modJob j.id
    (fun x => { x with framesLate := true })

/-- A frame is done: rate control keeps its bits (R391), the counts of R386 rise, the program is told. -/
def State.frameDone (s : State) (j : Job) (i p : Nat) (f : EncFrame) : State :=
  let bitsOut := 8 * (frameObu f.input).length + (f.tilesDone.map (fun d => d.2.1)).sum
  let qEnd := (f.tilesDone.map (fun d => d.2.2)).foldl max 0
  let isOver := decide (epCap p ≠ 0) && decide (f.input.limit < (bitsOut : Int))
  let all := s.hist p ++ [bitsOut]
  let h := all.drop (all.length - (epWindow p - 1))
  let s := s.memWriteHub (epOut p + 64) (h.flatMap (leBytes 4))
  let s := ((s.sbPut p 48 2 h.length).sbPut p 43 1 qEnd).sbPut p 32 4 ((s.sbGet p 32 4 + 1) % 2 ^ 32)
  let s := s.sbPut p 36 4 ((s.sbGet p 36 4 + 1) % 2 ^ 32)
  let s := if isOver then { (s.sbPut p 44 4 ((s.sbGet p 44 4 + 1) % 2 ^ 32)) with enc := { s.enc with capMisses := s.enc.capMisses + 1 } } else s
  let s := s.countLate j i (s.stream i).enc.reqDone
  let s := s.modEnc i (fun x => { x with frame := none, reqDone := x.reqDone + 1 })
  s.hubPost j (epDone p) 1

/-- Bytes of the OBU_TILE_GROUP of a tile row: the bits of its tiles' rows, in whole bytes (R391, log 160). -/
def EncFrame.groupBytes (f : EncFrame) (p g : Nat) : Nat :=
  max 2 (cdiv ((f.tilesDone.filter (fun d => d.1 / epCols p == g)).map (fun d => d.2.1)).sum 8)
/-- Whether a tile is coded. -/
def EncFrame.coded (f : EncFrame) (t : Nat) : Bool := f.tilesDone.any (fun d => d.1 == t)
/-- Whether a tile row of the frame is coded. -/
def EncFrame.rowCoded (f : EncFrame) (p g : Nat) : Bool := (List.range (epCols p)).all (fun c => f.coded (g * epCols p + c))
/-- Whether a frame's tiles are filtered with samples of their neighbours (R393): one of the in-loop filters is on. -/
def epFilters (p : Nat) : Bool := bit p 213 || bit p 212 || bit p 211
/-- Whether every tile of the next tile group is coded and filtered (R393, R394): its filtering waits for the tiles beside it, which
lie in its row and the rows above and below (log 164). -/
def EncFrame.groupReady (f : EncFrame) (p : Nat) : Bool :=
  let g := f.groupsOut
  decide (g < epRows p) && f.rowCoded p g &&
  (!epFilters p || ((decide (g = 0) || f.rowCoded p (g - 1)) && (decide (epRows p ≤ g + 1) || f.rowCoded p (g + 1))))
/-- The header OBUs of a frame that are not in the ring yet. -/
def EncFrame.headsLeft (f : EncFrame) : List (List Byte) := (headObus f.input).drop f.headsOut
/-- Bytes of the next OBU of a frame whose next group is ready. -/
def EncFrame.nextObu (f : EncFrame) (p : Nat) : Nat := (f.headsLeft.head?.map List.length).getD (f.groupBytes p f.groupsOut)
/-- Header OBUs go into the ring, each that fits for itself, and what comes after the last follows (R395). -/
def emitHeads (i p : Nat) (next : State → State) : List (List Byte) → State → State
  | [], s => next s
  | b :: rest, s => s.tryObu i p b (fun t => emitHeads i p next rest
      (t.modEnc i (fun x => { x with frame := x.frame.map (fun f => { f with headsOut := f.headsOut + 1 }) })))
/-- The next tile group of a frame is copied into the ring, its header OBUs before the first; the last one ends the frame. The bytes of
the command are those the group takes. -/
def State.groupEmit (s : State) (i bytes : Nat) : State :=
  match s.encOf i, (s.stream i).enc.frame with
  | some (j, p), some f =>
    let g := f.groupsOut
    if !f.groupReady p || decide (bytes ≠ f.groupBytes p g) then s
    else
      let emit := fun (t : State) => t.tryObu i p (groupObu f.input g bytes) (fun t =>
        let f := { f with headsOut := (headObus f.input).length, groupsOut := g + 1 }
        let t := t.modEnc i (fun x => { x with frame := some f })
        if g + 1 = epRows p then t.frameDone j i p f else t)
      match s.engineRead [s.sbRange p] with
      | .error t => t.encEnd i
      | .ok s => emitHeads i p emit f.headsLeft (s.takeConsumed i p)
  | _, _ => s

/-! ## Ends (R395, R396) -/

/-- ENC_OVERRUN_TIMEOUT: the stream has waited ENC_OVERRUN_MS for room in its ring for its next OBU, which its state block tells, or for
an engine of its mask. -/
def State.encOverrun (s : State) (i : Nat) : State :=
  match s.encOf i with
  | none => s
  | some (j, p) =>
    let x := (s.stream i).enc
    let engineWait := (List.range 4).all (fun e => !(bit (epMask p) e && s.engineOn e)) && decide (x.reqDone < (s.jobSync j (epSubmit p)).toNat)
    if engineWait then s.encEnd i
    else match x.frame with
      | none => s
      | some f =>
        if !f.groupReady p then s
        else match s.engineRead [s.sbRange p] with
          | .error t => t.encEnd i
          | .ok t =>
            let t := t.takeConsumed i p
            if t.ringFull i p (f.nextObu p) then t.encEnd i else t

/-! ## Fences of engines and clusters (R379, R396) -/

/-- Whether an engine has tiles to finish, or their tile groups to write (R396). -/
def State.engineBusy (s : State) (e : Nat) : Bool :=
  decide (s.block (blkEnc e) ≠ 0) && s.hub.streams.any (fun r => match r.2.enc.frame with
    | some f => f.begun.any (fun b => b.2 == e && decide (f.groupsOut ≤ b.1 / epCols (s.encP r.1)))
    | none => false)
/-- Fence an engine: it drains first (R396). -/
def State.fenceEngine (s : State) (e : Nat) (bist : Bool) : State :=
  let before := s.tier
  let b : BitVec 4 := 1#4 <<< e
  let busy := s.engineBusy e && !s.engineFenced e
  let s := { s with enc := { s.enc with
    fencedCmd := if bist then s.enc.fencedCmd else s.enc.fencedCmd ||| b, fencedBist := if bist then s.enc.fencedBist ||| b else s.enc.fencedBist
    fenceDrain := if busy then s.enc.fenceDrain ||| b else s.enc.fenceDrain } }
  (s.logEvent 0 0 (0x40 + e) 0).noteTier before
/-- ENGINE_FENCE. -/
def State.engineFence (s : State) : State :=
  s.serveWrite (fun i u => decide (i = 0x1410 ∧ u = 1)) (fun s _ _ bs =>
    let e := leNat bs
    if 4 ≤ e then ⟨s, dsOutOfRange, 0, none⟩ else if s.enc.fencedCmd.getLsbD e then ⟨s, dsOk, 0, none⟩ else ⟨s.fenceEngine e false, dsOk, 0, none⟩)
/-- ENGINE_UNFENCE: an engine fenced by BIST stays fenced. -/
def State.engineUnfence (s : State) : State :=
  s.serveWrite (fun i u => decide (i = 0x1410 ∧ u = 2)) (fun s _ _ bs =>
    let e := leNat bs
    if 4 ≤ e then ⟨s, dsOutOfRange, 0, none⟩
    else
      let m : BitVec 4 := ~~~ (1#4 <<< e)
      ⟨{ s with enc := { s.enc with fencedCmd := s.enc.fencedCmd &&& m
                                    fenceDrain := if s.enc.fencedBist.getLsbD e then s.enc.fenceDrain else s.enc.fenceDrain &&& m } }, dsOk, 0, none⟩)

/-- CLUSTER_FENCE. -/
def State.clusterFence (s : State) : State :=
  s.serveWrite (fun i u => decide (i = 0x0C0C ∧ u = 1)) (fun s _ _ bs =>
    let k := leNat bs
    if 12 ≤ k then ⟨s, dsOutOfRange, 0, none⟩
    else if s.clusterHeld k || (s.cluster k).rolling then ⟨s, dsClusterBusy, 0, none⟩
    else if (s.cluster k).fencedCmd then ⟨s, dsOk, 0, none⟩
    else ⟨((s.modCluster k (fun c => { c with fencedCmd := true })).logEvent 0 0 k 0).noteTier s.tier, dsOk, 0, none⟩)
/-- CLUSTER_UNFENCE: a cluster fenced by BIST stays fenced. One with a commanded run on it joins no job until the run ends (log 213). -/
def State.clusterUnfence (s : State) : State :=
  s.serveWrite (fun i u => decide (i = 0x0C0C ∧ u = 2)) (fun s _ _ bs =>
    let k := leNat bs
    if 12 ≤ k then ⟨s, dsOutOfRange, 0, none⟩ else ⟨s.modCluster k (fun c => { c with fencedCmd := false }), dsOk, 0, none⟩)

def execEncFrameStart (stream : Half) (s : State) : Res := .next (s.frameStart stream.toNat)
def execEncTileDone (e : EngineId) (stream : Half) (tile : Nat) (rowBits : List Nat) (s : State) : Res :=
  .next (s.tileDone e stream.toNat tile rowBits)
def execEncTileGroupEmit (stream : Half) (bytes : Nat) (s : State) : Res := .next (s.groupEmit stream.toNat bytes)
def execEncOverrunTimeout (stream : Half) (s : State) : Res := .next (s.encOverrun stream.toNat)
def execEngineFence (s : State) : Res := .next s.engineFence
def execEngineUnfence (s : State) : Res := .next s.engineUnfence
def execClusterFence (s : State) : Res := .next s.clusterFence
def execClusterUnfence (s : State) : Res := .next s.clusterUnfence

end Sys2Proof.Machine
end

