-- ==== Sys2Proof/Machine/StoreCmds.lean ====
section
/-! DEFINITION. The commands of the rooms (R241, R244) and of the reuse store and the tab (R293, R294, R307). -/

namespace Sys2Proof.Machine

/-! ## Rooms -/

/-- VACANCY_TIMEOUT (R244): a stream parked for NO_VACANCY_WAIT ends; while a sweep is under way, the sweep ends it (R24). -/
def State.vacancyTimeout (s : State) (stream : Nat) : State := if s.isParked stream then s.streamError stream stVacancyTimeout else s

/-- The prefix entries that ROOM_LINK copies: source and destination entry addresses, and the source entries; none where the
command is refused with ROUND_INVALID (R241). -/
def State.linkPairs (s : State) (src dst g0 n : Nat) : Option (List (Nat × Nat)) :=
  (List.range n).foldl (fun (acc : Option (List (Nat × Nat))) i =>
    let g := g0 + i
    let a := s.groupHdr src g
    let b := s.groupHdr dst g
    match acc with
    | none => none
    | some ps =>
      if s.dirGroups src ≤ g ∨ s.dirGroups dst ≤ g ∨ a.pool ≠ b.pool ∨ a.pre ≠ b.pre then none
      else
        let es := (List.range a.pre).map (fun k => (s.hubRead (s.entryAddr src a k) 8, s.entryAddr dst b k))
        if es.any (fun p => decide (dirState p.1 ≠ 1) || decide (dirState (s.hubRead p.2 8) ≠ 0)) then none else some (ps ++ es)) (some [])

/-- What ROOM_LINK reads: headers and entries of both streams. -/
def State.linkReads (s : State) (src dst g0 n : Nat) : List (Nat × Nat) :=
  [src, dst].flatMap (fun i => (s.dirBase i, 64) :: (List.range n).flatMap (fun g =>
    if s.dirGroups i ≤ g0 + g then []
    else (s.dirBase i + 64 + 16 * (g0 + g), 16) ::
      (List.range (s.groupHdr i (g0 + g)).pre).map (fun k => (s.entryAddr i (s.groupHdr i (g0 + g)) k, 8))))
/-- ROOM_LINK (R241): all or nothing; directories that cannot be read answer ROUND_INVALID (DESIGN CHOICE, log 179), as do rooms whose
entries lie on a cluster that is OFF (R409; DESIGN CHOICE, log 113). -/
def State.roomLink (s : State) : State :=
  s.serveWrite (fun i u => decide (i = 0x0D30 ∧ u = 1)) (fun s _ _ bs =>
    let src := par bs 0 2; let dst := par bs 2 2
    if bs.length ≠ 8 then ⟨s, dsType, 0, none⟩
    else if (s.stream src).sstate = .held ∨ (s.stream dst).sstate = .held then ⟨s, dsRoomsBusy, 0, none⟩
    else
      let rs := s.linkReads src dst (par bs 4 1) (par bs 5 1 + 1)
      let pairs := if rs.all (fun r => (s.memRead r.1 r.2).isOk) then s.linkPairs src dst (par bs 4 1) (par bs 5 1 + 1) else none
      let s := s.hubDone rs
      match pairs with
      | none => ⟨s, dsRound, 0, none⟩
      | some es =>
        let rooms := es.map (fun p => dirRoom p.1)
        if rooms.any s.roomGone then ⟨s, dsRound, 0, none⟩
        else if rooms.any (fun x => decide (65535 < roomRef (s.roomEntry x) + rooms.count x)) then ⟨s, dsRefFull, 0, none⟩
        else
          let s := es.foldl (fun (t : State) p => (t.memWriteHub p.2 (leBytes 8 p.1)).modRoomRef (dirRoom p.1) (fun n => n + 1)) s
          ⟨s.dirAdd dst 8 es.length, dsOk, 0, none⟩)

/-! ## The reuse store -/

/-- Clear the bits `[lo, hi)` of the bitmap in one granule: whole where the granule cannot be read, and logged (R294). -/
def State.clearGranule (s : State) (a base lo hi : Nat) : State :=
  let bad := !(s.memRead a 32).isOk
  let s := s.hubGot (a, 32)
  if bad then ((s.snoopInv a 32).memPut a (List.replicate 32 0)).logNote 0 (0x10 + addrStack a) (BitVec.ofNat 128 a)
  else
    let first := (a - base) * 8
    let old := s.ms.mem.readLE a 32
    let keep := (List.range 256).foldl (fun n i =>
      if bit old i && !(decide (lo ≤ first + i) && decide (first + i < hi)) then n + 2 ^ i else n) 0
    (s.snoopInv a 32).memPut a (leBytes 32 keep)
/-- REUSE_CLEAR. -/
def State.reuseClear (s : State) : State :=
  s.serveWrite (fun i u => decide (i = 0x0E00 ∧ u = 5)) (fun s _ _ bs =>
    let lo := par bs 0 4; let n := par bs 4 4
    let base := s.dv 0x0E00 1
    if bs.length ≠ 8 then ⟨s, dsType, 0, none⟩
    else if s.dv 0x0E00 3 < lo + n then ⟨s, dsRange, 0, none⟩
    else
      let gs := if n = 0 then [] else (List.range ((lo + n - 1) / 256 + 1 - lo / 256)).map (fun i => base + 32 * (lo / 256 + i))
      if gs.any (fun a => (stacksOf a 32).any (fun m => !s.stackServes m)) then ⟨s, dsReuseInvalid, 0, none⟩
      else ⟨gs.foldl (fun (t : State) a => t.clearGranule a base lo (lo + n)) s, dsOk, 0, none⟩)

/-- Zero a range of stacked memory, poison marks with it. -/
def State.memZero (s : State) (a n : Nat) : State :=
  let s := s.snoopInv a n
  ((s.withMs (fun m => { m with mem := m.mem.zero a (a + n) })).fresh a n).countWritten a n

/-- The hub zeroes a range: each stack serves its bytes, what lies on a fenced or OFF one is dropped, on a fenced one logged and an
uncorrectable error (R149, R161). -/
def State.memZeroHub (s : State) (a n : Nat) : State :=
  let t := (stacksOf a n).foldl (fun t m =>
    let lo := max a (m * 2 ^ 37)
    if t.stackOff m then t
    else if t.stackFails m then t.logNote 0 (0x10 + m) (BitVec.ofNat 128 lo)
    else (t.memZero lo (inStack a n m)).useParity m) s
  match s.rangeErr a n with
  | some e => t.countErr e
  | none => t

/-- REUSE_CONFIG_WRITE (R293). An invalid configuration written while a job exists answers REUSE_BUSY (DESIGN CHOICE, log 221). -/
def State.reuseConfig (s : State) : State :=
  s.serveWrite (fun i u => decide (i = 0x0E00) && decide (1 ≤ u ∧ u ≤ 3)) (fun s _ r bs =>
    let get := fun u => if r.sub = u then leNat bs else s.dv 0x0E00 u
    let base := get 1; let n := get 2; let v := validBytes (get 3)
    if s.hub.jobs ≠ [] then ⟨s, dsReuseBusy, 0, none⟩
    else if 2 ^ 24 < get 3 ∨ base % 2048 ≠ 0 ∨ stackTop < base + n ∨ s.meetsWeight base n = true ∨ n < v then ⟨s, dsReuseInvalid, 0, none⟩
    else ⟨(s.setDv 0x0E00 r.sub (leNat bs)).memZeroHub base (if n = 0 then 0 else v), dsOk, 0, none⟩)

/-- TAB_ENABLE (R307): TAB_STATE follows from it and from the tabs still open. -/
def State.tabEnable (s : State) : State :=
  s.serveWrite (fun i u => decide (i = 0x0E10 ∧ u = 1)) (fun s _ _ bs => ⟨s.setDv 0x0E10 1 (leNat bs), dsOk, 0, none⟩)

def execVacancyTimeout (stream : Half) (s : State) : Res := .next (s.vacancyTimeout stream.toNat)
def execRoomLink (s : State) : Res := .next s.roomLink
def execReuseClear (s : State) : Res := .next s.reuseClear
def execReuseConfigWrite (s : State) : Res := .next s.reuseConfig
def execTabEnable (s : State) : Res := .next s.tabEnable

end Sys2Proof.Machine
end

