-- ==== Sys2Proof/Machine/Undefined.lean ====
section
/-! DEFINITION. Undefined behaviour (R7): a state of which nothing is promised, but for what R7 names. -/

namespace Sys2Proof.Machine

/-- The memories of a state are in canonical form: stacked memory, the shared caches, the cores' stores, the sequencers' local
memories, what a save keeps of a job's clusters, the slots' streams, the firmware banks, the mailbox, the MSI-X table and the CXL
registers. -/
def State.memoriesWf (s : State) : Bool :=
  s.ms.mem.wf &&
  s.clusters.all (fun c => c.2.scache.wf && c.2.seq.loc.wf) &&
  s.cores.all (fun c => c.2.store.wf && c.2.acc.wf) &&
  s.hub.jobs.all (fun j => j.saved.all (fun v => v.seq.loc.wf && v.cores.all (fun x => x.store.wf && x.acc.wf))) &&
  s.car.slots.all (fun x => x.2.stream.wf) &&
  s.boot.banks.all (fun b => b.2.bytes.wf) &&
  s.por.reqArea.wf && s.hub.msixTable.wf && s.hub.cxlRegs.wf

/-- Any state whose memories are written down in canonical form: the free one of this draw, or the present one. FREE VALUE (log 131). -/
def State.anyState (s : State) : State :=
  let u := @Config.anyOf State ⟨State.reset⟩ s.draws
  if u.memoriesWf then u else s
/-- The firmware images as they were, each with a state that is not promised (R7, R453). -/
def State.imagesKept (s u : State) : AMap FwBank :=
  s.boot.banks.map (fun p => (p.1, { p.2 with stage := (mget {} u.boot.banks p.1).stage }))
/-- Undefined behaviour (R7): the state of every unit is free. The firmware images, the factory ledger and the anti-rollback counter stay,
the identity key is no state; so do what the surroundings drive (the input, the reference, PERST_N, ADDR_STRAP) and that the porter has
started since. What has left the module has left it (DESIGN CHOICE, log 131). -/
def State.undefined (s : State) : State :=
  let u := s.anyState
  { u with
    por := { u.por with factory := s.por.factory, fusedSvn := s.por.fusedSvn }
    boot := { u.boot with
      vin := s.boot.vin, refclk := s.boot.refclk, perst := s.boot.perst, strap := s.boot.strap, porterStarted := s.boot.porterStarted
      banks := s.imagesKept u }
    draws := s.draws + 1, out := u.out ++ s.out, pending := s.pending }

end Sys2Proof.Machine
end

