-- ==== Sys2Proof/Machine/Power.lean ====
section
/-! DEFINITION. Clocks, block enables, power and the steward (17). -/

namespace Sys2Proof.Machine

/-! ## Dividers (R400–R406) -/

/-- The ARITH divider of an operating point (Table 17-2). -/
def pointDiv (p : Nat) : Nat := if p = 1 then 8 else if p = 2 then 10 else if p = 3 then 12 else 16
/-- The dividers that ramps lead to: an override replaces the divider the domain would run (R405). -/
def State.arithTarget (s : State) : Nat := if s.dv 0x0401 1 ≠ 0 then s.dv 0x0401 1 else pointDiv s.pwr.opTarget
def State.fabricTarget (s : State) : Nat := if s.dv 0x0401 2 ≠ 0 then s.dv 0x0401 2 else 4
def State.ctrlTarget (s : State) : Nat := if s.dv 0x0401 3 ≠ 0 then s.dv 0x0401 3 else 16
/-- One step of a ramp (R403). -/
def stepTo (cur target : Nat) : Nat := if cur < target then cur + 1 else if target < cur then cur - 1 else cur
/-- The ratios of R406: FABRIC ≥ ARITH, CTRL ≥ ARITH / 4, MGMT ≤ CTRL / 2, of the dividers. -/
def ratiosOk (arith fabric ctrl : Nat) : Bool := decide (fabric ≤ arith) && decide (ctrl ≤ 4 * arith) && decide (2 * ctrl ≤ 64)
/-- Whether every step of the ramps to the given targets keeps the ratios. -/
def rampOk : Nat → Nat → Nat → Nat → Nat → Nat → Nat → Bool
  | 0, _, _, _, _, _, _ => true
  | n + 1, a, f, c, ta, tf, tc =>
    ratiosOk (stepTo a ta) (stepTo f tf) (stepTo c tc) && rampOk n (stepTo a ta) (stepTo f tf) (stepTo c tc) ta tf tc

/-- OP_IN_EFFECT: 0 under an override or in a ramp. -/
def State.opInEffect (s : State) : Nat :=
  if s.dv 0x0401 1 ≠ 0 ∨ s.pwr.arithDiv ≠ pointDiv s.pwr.opTarget then 0 else s.pwr.opTarget
/-- The divider whose voltage VDD_ARITH is left at by a step from divider `old` to `new` (R403): toward a faster point it is raised for the
next step ahead of it; toward a slower one it is lowered within the dwell that follows the step. -/
def vddAfter (old new target : Nat) : Nat := if target < new then new - 1 else if old < new then old else new
/-- RAMP_STEP: a dwell ends, and each domain moves one step toward its divider, the voltage ahead of it or behind it. Dividers that break
a ratio lead to undefined behaviour (R406, R7), from the step that brings them into effect (DESIGN CHOICE, log 131). -/
def State.rampStep (s : State) : Res :=
  let a := stepTo s.pwr.arithDiv s.arithTarget
  let f := stepTo s.pwr.fabricDiv s.fabricTarget
  let c := stepTo s.pwr.ctrlDiv s.ctrlTarget
  if a = s.pwr.arithDiv ∧ f = s.pwr.fabricDiv ∧ c = s.pwr.ctrlDiv then .next (s.withPwr (fun p => { p with vddDiv := a }))
  else if ratiosOk a f c then .next (s.withPwr (fun p => { p with
    arithDiv := a, fabricDiv := f, ctrlDiv := c, vddDiv := vddAfter p.arithDiv a s.arithTarget }))
  else .next s.undefined
/-- DIV_OVERRIDE_WRITE (R405). -/
def State.divOverride (s : State) : State :=
  s.serveWrite (fun i u => decide (i = 0x0401) && decide (1 ≤ u ∧ u ≤ 3)) (fun s _ r bs => ⟨s.setDv 0x0401 r.sub (leNat bs), dsOk, 0, none⟩)

/-! ## Block enables (R407–R409, Table 17-4) -/

def enableMask : Nat := 2 ^ 40 - 1
/-- BLOCK_ENABLES: every bit reads 0 until the end of start-up (R407). -/
def State.enables (s : State) : Nat := if s.boot.ready then s.dv 0x0410 1 % 2 ^ 40 else 0
/-- Whether a stream holds rooms: it is OPEN or HELD, and an entry of its directory names a room (R229, R246; DEDUCED, log 67). -/
def State.holdsRooms (s : State) (i : Nat) : Bool :=
  (decide ((s.stream i).sstate = .opened) || decide ((s.stream i).sstate = .held)) &&
    (s.dirEntries i).any (fun a => decide (dirState (s.dirRead a 8) ≠ 0))
/-- Whether something of Table 17-4 lies on a stack; of room directories, that of a stream that holds rooms (log 67). -/
def State.stackBusy (s : State) (m : Nat) : Bool :=
  let on := fun (a n : Nat) => meets a n (m * 2 ^ 37) (2 ^ 37)
  s.weightRanges.any (fun r => on r.1 r.2) || (List.range 4).any (fun p => decide ((s.pool p).state = 1) && decide ((s.pool p).roomsOf m ≠ 0)) ||
  (s.hub.streams.map Prod.fst).any (fun i => on (s.dirBase i) (s.dv 0x0D00 2) && s.holdsRooms i) || on (s.dv 0x0E00 1) (s.dv 0x0E00 2) || on (s.dv 0x0A00 1) (4096 * 64) ||
  on (s.dv 0x0C00 1) (65536 * 256) || s.saveRanges.any (fun r => on r.1 r.2)
/-- Whether a slot that is not FREE has a channel in a flash group. -/
def State.groupBusy (s : State) (g : Nat) : Bool :=
  (List.range 16).any (fun i => decide ((s.slot i).state ≠ .free) && (s.slot i).channels.any (fun c => decide (c / 16 = g)))
/-- Whether clearing a bit is refused with BLOCK_BUSY. -/
def State.clearRefused (s : State) (b : Nat) : Bool :=
  if 12 ≤ b ∧ b < 20 then s.stackBusy (b - 12) else if 20 ≤ b ∧ b < 28 then s.groupBusy (b - 20) else false

/-- A block goes ON. A stack that was OFF is zeroed (R162); a draining port is UP again (R322). -/
def State.blockOn (s : State) (b : Nat) : State :=
  let old := s.block b
  let s := s.setBlock b 1
  if 12 ≤ b ∧ b < 20 then (if old = 0 then s.memZero ((b - 12) * 2 ^ 37) (2 ^ 37) else s)
  else if 28 ≤ b ∧ b < 36 then
    s.modPort (b - 28) (fun x => { x with
      state := if old = 2 ∧ x.state = .draining ∧ (ringOf (b - 28)).all (fun r => !(s.ring r).leaving) then .up else x.state })
  else s
/-- An ON block begins to drain: a flash group is OFF at once, a port that is not UP too; a cluster's rolling run is abandoned
(R480); of a stack, the jobs admitted so far are remembered. -/
def State.blockClear (s : State) (b : Nat) : State :=
  if s.block b ≠ 1 then s
  else if b < 12 then (s.abandonRolling (fun k => k == b)).setBlock b 2
  else if b < 20 then (s.setBlock b 2).withPwr (fun p => { p with drainFrom := mset p.drainFrom (b - 12) s.hub.admitCount })
  else if b < 28 then s.setBlock b 0
  else if b < 36 then
    if (s.port (b - 28)).state = .up then (s.startDrain (b - 28)).setBlock b 2
    else if (s.port (b - 28)).state = .draining then s.setBlock b 2
    else (s.portOff (b - 28)).setBlock b 0
  else s.setBlock b 2
/-- BLOCK_ENABLES_WRITE (R408): the changed bits act together, or none. Before the end of start-up the value alone is kept. -/
def State.blockEnables (s : State) : State :=
  s.serveWrite (fun i u => decide (i = 0x0410 ∧ u = 1)) (fun s _ _ bs =>
    let new := leNat bs % 2 ^ 40
    let old := s.enables
    let cleared := (List.range 40).filter (fun b => bit old b && !bit new b)
    let set_ := (List.range 40).filter (fun b => bit new b && !bit old b)
    if !s.boot.ready then ⟨s.setDv 0x0410 1 new, dsOk, 0, none⟩
    else if cleared.any s.clearRefused then ⟨s, dsBlockBusy, 0, none⟩
    else
      let before := s.tier
      let s := s.setDv 0x0410 1 new
      let s := cleared.foldl (fun t b => t.blockClear b) s
      ⟨(set_.foldl (fun t b => t.blockOn b) s).noteTier before, dsOk, 0, none⟩)

/-- Whether nothing of a draining block's work remains, as far as the state tells (Table 17-4). -/
def State.drained (s : State) (b : Nat) : Bool :=
  if b < 12 then s.hub.jobs.all (fun j => !j.team.contains b) && (s.cluster b).holder.isNone && !(s.cluster b).zeroing
  else if b < 20 then s.hub.jobs.all (fun j => decide (mget 0 s.pwr.drainFrom (b - 12) ≤ j.admitSeq))
  else if 28 ≤ b ∧ b < 36 then decide ((s.port (b - 28)).state ≠ .draining)
  else if 36 ≤ b then !s.engineBusy (b - 36) else true
/-- BLOCK_DRAINED: a DRAINING block goes OFF; a fenced engine that finished its tiles is FENCED (R396). -/
def State.blockDrained (s : State) (b : Nat) : State :=
  let before := s.tier
  let s := if 36 ≤ b ∧ s.drained b = true then { s with enc := { s.enc with fenceDrain := s.enc.fenceDrain &&& ~~~ (1#4 <<< (b - 36)) } } else s
  (if s.block b = 2 ∧ s.drained b = true then s.setBlock b 0 else s).noteTier before

/-! ## The cap and the steward's points (R412, R415) -/

/-- CAP_IN_EFFECT_W: of POWER_CAP_W and 58 A at the latest sample of the input. -/
def State.capNow (s : State) : Nat :=
  if s.pwr.vinMv = 0 then s.dv 0x0500 6 else min (s.dv 0x0500 6) (58 * s.pwr.vinMv.toNat / 1000)
/-- The steward's estimate of the draw at a point: its own, and free (log 5). -/
def State.estimate (s : State) (p : Nat) : Nat := Config.powerEstimate p s.pwr.profile.estDraw
/-- The steward learns: its estimates are drawn anew (log 5). -/
def State.learn (s : State) : State :=
  { s with draws := s.draws + 1, pwr := { s.pwr with profile := { s.pwr.profile with estDraw := s.draws } } }
/-- Whether the steward decides points: it has been seeded, and no ARITH override is in effect (R405). -/
def State.stewards (s : State) : Bool := s.boot.ready && decide (s.dv 0x0401 1 = 0)
/-- Move to a point: never one whose ramp breaks a ratio of R406. -/
def State.setPoint (s : State) (p : Nat) : State :=
  if rampOk 64 s.pwr.arithDiv s.pwr.fabricDiv s.pwr.ctrlDiv (pointDiv p) s.fabricTarget s.ctrlTarget then
    s.withPwr (fun w => { w with opTarget := p })
  else s
/-- The first point of a list that a test passes, else the one given. -/
def firstPoint (ps : List Nat) (dflt : Nat) (ok : Nat → Bool) : Nat := (ps.find? ok).getD dflt
def pointsFrom (a b : Nat) : List Nat := (List.range (b + 1 - a)).map (fun i => a + i)

/-- Over the cap, the steward ramps to the fastest point, no faster than the present one and OP_FAST_LIMIT, whose estimated draw is within
it; at the slowest point it holds back dispatch until the average is within the cap. -/
def State.capStep (s : State) : State :=
  let slow := s.dv 0x0510 3
  let cur := s.pwr.opTarget
  let isOver := decide (s.capNow < s.pwr.avgW.toNat)
  if !isOver then s.withPwr (fun p => { p with holdDispatch := false })
  else
    let s := s.learn
    if slow ≤ cur then s.withPwr (fun p => { p with holdDispatch := true })
    else s.setPoint (firstPoint (pointsFrom (max cur (s.dv 0x0510 2)) slow) slow (fun p => decide (s.estimate p ≤ s.capNow)))
/-- The thermal step (R415 step 5): one point slower, within OP_FAST_LIMIT, at each sample from the first die at the threshold until every die is 5 °C
below it. -/
def State.thermalStep (s : State) : State :=
  let dies := (s.pwr.temps.take 2).map BitVec.toInt
  let limit : Int := s.dv 0x0510 9 * 10
  let hot := if dies.any (fun t => decide (limit ≤ t)) then true else s.pwr.throttled && !dies.all (fun t => decide (t ≤ limit - 50))
  let began := hot && !s.pwr.throttled
  let s := s.withPwr (fun p => { p with throttled := hot, throttledLast := p.throttledLast || hot })
  let s := if began then s.logEvent 5 0 0xFF 0 else s
  if hot && s.stewards && decide (s.pwr.opTarget < s.dv 0x0510 3) then s.setPoint (max (s.dv 0x0510 2) (s.pwr.opTarget + 1)) else s
/-- What befalls a memory array (R68, R156, R157, log 60): a correction made by a core store or a shared cache is counted; a granule
of a stack holds a wrong bit until it is read or scrubbed, or more than can be corrected; a stack's next transfer needs repeats. -/
def State.upset (s : State) : Upset → State
  | .coreCorrected c n => s.bumpCore c 9 n
  | .cacheCorrected k n => s.bumpCluster k 8 n
  | .stackFlip g => s.withMs (fun m => if m.poison.contains g.toNat then m else { m with flips := (m.flips ++ [g.toNat]).eraseDups })
  | .stackBad g => s.withMs (fun m =>
      { m with flips := m.flips.filter (fun x => decide (x ≠ g.toNat)), poison := (m.poison ++ [g.toNat]).eraseDups })
  | .parity m n => s.withMs (fun x => { x with parity := mset x.parity m (mget 0 x.parity m + n) })
/-- The draw that the module never exceeds (R17, R413), in watts, and at tier 1 (Table 22-2): a reading past it, which an error of 1 %
allows, counts as it (log 180). -/
def State.drawMax (s : State) : Nat := if s.tier ≤ 1 then 20 else 2800
/-- The input power of the latest ten samples, newest first, and their mean: the 10 ms rolling average at 1 kHz, over the samples there
are (R412, log 180). -/
def latestPins (w : Nat) (ps : List Nat) : List Nat := (w :: ps).take 10
def averageW (ps : List Nat) : Nat := ps.sum / ps.length
/-- STEWARD_SAMPLE (R410, R412, R413): what befell the arrays since the last one, the readings, the energy of one millisecond, the count of samples over the cap. -/
def State.powerSample (s : State) (m : PowerSample) : State :=
  let was := decide (s.capNow < s.pwr.avgW.toNat)
  let w := min s.drawMax m.pinW.toNat
  let s := m.upsets.foldl State.upset s
  let s := s.withPwr (fun p => { p with
    vinMv := m.vinMv, iinMa := m.iinMa, pinW := BitVec.ofNat 32 w, pins := latestPins w p.pins
    avgW := BitVec.ofNat 32 (averageW (latestPins w p.pins)), temps := m.temps.take 6
    energyMj := p.energyMj + BitVec.ofNat 64 w })
  let isOver := decide (s.capNow < s.pwr.avgW.toNat)
  let s := if isOver then s.withPwr (fun p => { p with capExceeded := p.capExceeded + 1 }) else s
  let s := if isOver && !was then s.logEvent 5 0 0xFF 1 else s
  let s := if s.stewards then s.capStep else s
  s.thermalStep.watchReady

/-! ## The steward's period (R414, R415, R190, R306) -/

/-- Steps 1 to 3 of R415: step 3 looks at the last window, and at what the one in progress has shown so far (log 40). -/
def State.wantPoint (s : State) (m : StewardMeasure) : Nat :=
  let fast := s.dv 0x0510 2
  let slow := s.dv 0x0510 3
  let cur := s.pwr.opTarget
  if s.dv 0x0510 4 ≠ 0 then s.dv 0x0510 4
  else if s.dv 0x0510 1 = 1 then fast
  else if s.pwr.lateLast || s.pwr.queuedLast || s.pwr.late || s.pwr.queued then
    (if m.stallPct.any (fun x => decide (s.dv 0x0510 7 < x)) then max fast (min slow cur) else max fast (min slow cur - 1))
  else slow
/-- Whether a point is no raise, or its estimated draw is within 95 % of the cap (R412). -/
def State.mayRaise (s : State) (p : Nat) : Bool := decide (s.pwr.opTarget ≤ p) || decide (100 * s.estimate p ≤ 95 * s.capNow)
/-- The fastest point, from the one wanted on, that is no raise past 95 % of the cap. -/
def State.raisePoint (s : State) (want : Nat) : Nat :=
  firstPoint (pointsFrom want s.pwr.opTarget) (max want s.pwr.opTarget) s.mayRaise
/-- Step 4: the fastest point, from the one wanted on, that the cap admits: a point faster than the present one at 95 % of it; the slowest
where none is. -/
def State.capPoint (s : State) (want : Nat) : Nat :=
  let slow := max (max want (s.dv 0x0510 3)) s.pwr.opTarget
  firstPoint (pointsFrom want slow) slow (fun p => s.mayRaise p && decide (s.estimate p ≤ s.capNow))
def State.periodPoint (s : State) (m : StewardMeasure) : State :=
  let p := s.capPoint (s.wantPoint m)
  s.setPoint (if s.pwr.throttled then max p s.pwr.opTarget else p)
/-- The depth of one slot (Table 17-6), from the depth in effect: 1 more past the stall limit while a frame is free, 1 less after a window without a stall. -/
def State.periodDepth (s : State) (i pct : Nat) : State :=
  let sl := s.slot i
  let n := s.winFrames i
  let top := min (s.dv 0x0901 4) n
  let free := decide ((sl.frames.filter (fun f => decide (f.1 < n) && (decide (f.2.state = .filling) || decide (f.2.state = .ready)))).length < n)
  if sl.window ≠ 1 ∨ s.slotOnDemand i = true then s
  else if s.dv 0x0510 7 < pct ∧ free = true then s.modSlot i (fun x => { x with depth := min top (s.depthOf i + 1) })
  else if pct = 0 then s.modSlot i (fun x => { x with depth := max (s.dv 0x0901 3) (s.depthOf i - 1) })
  else s
/-- A site whose voids exceed TAB_VOID_LIMIT of at least 64 resolutions is set to NEVER (R306). DESIGN CHOICE (log 231): the spec gives no
rule by which the steward chooses LAST or takes a site out of NEVER, and it does neither here. -/
def State.periodSite (s : State) (i : Nat) : State :=
  let t := mget (0, 0) s.pwr.siteTally i
  if 64 ≤ t.1 ∧ s.dv 0x0E10 8 * t.1 < 100 * t.2 then
    s.withPwr (fun p => { p with profile := { p.profile with sites := mset p.profile.sites i 0 } })
  else s
/-- The stalls of a window, logged as a recommendation past the limit (R28): the slot, and in bit 8 whether to hold it in
on-demand mode, where its weights fit, or to batch more streams into each pass (log 153). -/
def State.periodStall (s : State) (i pct : Nat) (fits : Bool) : State :=
  if s.dv 0x0510 7 < pct then s.logNote 0 0xFF (BitVec.ofNat 128 (i + if fits then 256 else 0)) else s
/-- STEWARD_PERIOD. Until the first window has passed the steward holds its seeds (R417); its counts per site start again with each
window (log 40). -/
def State.period (s : State) (m : StewardMeasure) : State :=
  if !s.boot.ready then s
  else
    let ms := s.pwr.windowMs + s.dv 0x0510 5
    let full := decide (s.dv 0x0510 6 * 1000 ≤ ms)
    let pcts := (List.range 16).map (fun i => (i, (m.stallPct[i]?).getD 0))
    let s := pcts.foldl (fun t p => t.periodStall p.1 p.2 (m.fits.contains p.1)) s
    let s := if !(s.pwr.windowPassed || full) then s
      else
        let s := s.learn
        let s := if s.stewards then s.periodPoint m else s
        let s := pcts.foldl (fun t p => t.periodDepth p.1 p.2) s
        (List.range 16).foldl (fun t i => t.periodSite i) s
    s.withPwr (fun p => { p with
      throttledLast := p.throttled, windowMs := if full then 0 else ms, windowPassed := p.windowPassed || full, siteTally := if full then [] else p.siteTally
      late := p.late && !full, queued := p.queued && !full, lateLast := if full then p.late else p.lateLast
      queuedLast := if full then p.queued else p.queuedLast })

/-! ## The profile (R416, R417) -/

/-- PROFILE_AGE_S: run time since the last save, in seconds of the pacing counter. -/
def State.profileAge (s : State) : Nat := (s.pacing - s.pwr.profileSavedAt).toNat / 175000000
/-- Take a profile: its depths within the bounds of each slot, its last point within OP_FAST_LIMIT and OP_SLOW_LIMIT (Table 17-6), which
the dividers ramp to from where they stand; under an
ARITH override no point is decided (R405), a raise keeps 95 % of the cap (R412, log 41), and there is none while a die throttles the module
or before the next period after that (R415 step 5). -/
def State.takeProfile (s : State) (p : Profile) (source : Nat) : State :=
  let s := s.withPwr (fun w => { w with
    profile := p, profileState := source, windowMs := 0, windowPassed := false, siteTally := [], late := false, queued := false
    lateLast := false, queuedLast := false })
  let want := max (s.dv 0x0510 2) (min (s.dv 0x0510 3) p.lastOp)
  let want := if s.pwr.throttled || s.pwr.throttledLast then max want s.pwr.opTarget else want
  let s := if s.stewards then s.setPoint (s.raisePoint want) else s
  (List.range 16).foldl (fun t i => t.modSlot i (fun x => { x with depth := mget 3 p.depths i })) s
/-- The profile of an image, where its format is known (R417). -/
def LedgerImage.knownProfile (i : LedgerImage) : Option Profile := i.profile.filter (fun p => p.format == 1)
/-- Sources 2 and 3 of R417: the factory seeds, else the built-in ones, whose estimates are those of draw 0 (log 5). -/
def State.seedFactory (s : State) : State :=
  match s.factoryImage.bind LedgerImage.knownProfile with
  | some p => s.takeProfile p 1
  | none => s.takeProfile {} 0
/-- Source 1, else 2 and 3. -/
def State.seed (s : State) : State :=
  match s.ledger.bind LedgerImage.knownProfile with
  | some p => s.takeProfile p 2
  | none => s.seedFactory
/-- STEWARD_SAVE and PROFILE_AUTOSAVE queue a save. -/
def State.profileSave (s : State) : State := if s.boot.ready then s.ledgerPut .profile else s
def State.stewardSave (s : State) : State :=
  s.serveWrite (fun i u => decide (i = 0x0518 ∧ u = 1)) (onTrue (fun s _ _ _ => ⟨s.profileSave, dsOk, 0, none⟩))
/-- STEWARD_RESET. -/
def State.stewardReset (s : State) : State :=
  s.serveWrite (fun i u => decide (i = 0x0518 ∧ u = 2)) (onTrue (fun s _ _ _ => ⟨if s.boot.ready then s.seedFactory else s, dsOk, 0, none⟩))

def execBlockEnablesWrite (s : State) : Res := .next s.blockEnables
def execBlockDrained (b : Fin 40) (s : State) : Res := .next (s.blockDrained b)
def execDivOverrideWrite (s : State) : Res := .next s.divOverride
def execRampStep (s : State) : Res := s.rampStep
def execStewardSample (m : PowerSample) (s : State) : Res := .next (s.powerSample m)
def execStewardPeriod (m : StewardMeasure) (s : State) : Res := .next (s.period m)
def execProfileAutosave (s : State) : Res := .next s.profileSave
def execStewardSave (s : State) : Res := .next s.stewardSave
def execStewardReset (s : State) : Res := .next s.stewardReset

end Sys2Proof.Machine
end

