-- ==== Sys2Proof/Machine/Read.lean ====
section
/-! DEFINITION. What each entry of the dictionary reads as (Tables 2-5 to 21-9): every entry that may be read, of the values in
effect, of the units' state, or of what manufacture and the image fix. -/

namespace Sys2Proof.Machine

/-! ## Records that entries hold -/

/-- A log record as ERROR_LOG shows it (Table 21-4). -/
def LogRec.bytes (r : LogRec) : List Byte :=
  leBytes 32 (r.seq.toNat + r.stamp.toNat * 2 ^ 32 + r.event * 2 ^ 104 + r.code * 2 ^ 112 + r.unit * 2 ^ 120 + r.detail.toNat * 2 ^ 128)
/-- LAST_FAULT (Table 15-14). -/
def FaultRec.bytes (r : FaultRec) : List Byte :=
  leBytes 4 r.seq.toNat ++ [r.status, r.limit, r.cluster, r.core] ++ leBytes 4 r.job.toNat ++ leBytes 4 r.ordinal.toNat ++
  [r.stack, r.channel, 0, 0] ++ leBytes 4 r.unit.toNat ++ leBytes 8 0

/-! ## Readings -/

/-- START_STATE (Table 19-8). -/
def State.startState (s : State) : Nat :=
  if s.boot.recovery then 0 else if s.boot.removalReady then 5 else if s.boot.activation.isSome then 4
  else if s.boot.ready then 3 else if s.pwr.rootLocked then 2 else 1
/-- State of the bank that does not run (FW_STAGE_STATE). -/
def State.stageState (s : State) : Nat := (mget {} s.boot.banks s.stageBank).stage
/-- Factory-written blobs (log 4). -/
def facBytes (i u n : Nat) : List Byte := fixLen n (Config.factoryBlob i u)
/-- A CONST blob whose default is a factory value: its factory ledger record (R437), else as manufacture gives it (log 99). -/
def State.factoryRecord (s : State) (i u : Nat) (else_ : List Byte) : List Byte :=
  match s.factoryImage.bind (fun m => m.entries.find? (fun r => r.index == i && r.sub == u)) with
  | some r => fixLen else_.length (leBytes r.length r.value)
  | none => else_
/-- A certificate, 3,144 bytes (R464): FORMAT 1, FAMILY, ISSUER_ID, SERIAL and reserved bytes, the public key, zero bytes, the
signature of the issuer. Subindex 1 is the identity certificate, with the module's SERIAL; 2 the CA's, whose ISSUER_ID is 0. The device
CA's number, the serial of its certificate, keys and signatures are manufacture's, free (log 4). -/
def State.certificate (s : State) (u : Nat) : List Byte :=
  let issuer := if u = 1 then Config.factoryNat 0x1C08 1 else 0
  let serial := if u = 1 then s.serial else Config.factoryNat 0x1C08 2
  leBytes 2 1 ++ leBytes 1 3 ++ leBytes 1 0 ++ leBytes 4 issuer ++ leBytes 8 serial ++ List.replicate 48 0 ++ facBytes 0x1C08 u 1793 ++
    List.replicate 7 0 ++ facBytes 0x1C08 (2 + u) 1280

/-- H512 of a key, and the key field of an image (R461, R462). -/
def h512 (key : List Byte) : List Byte := fixLen 64 (Config.shake256 key 64)
def FwBank.vendorKey (b : FwBank) : List Byte := b.bytes.readBytes 64 1793
/-- ROM_KEY_DIGEST (Table 20-4): H512 of the vendor key, whose bytes the image that manufacture loads carries (log 7). -/
def State.romKeyDigest (s : State) : List Byte := s.factoryRecord 0x1C00 1 (h512 State.factoryBank.vendorKey)

def State.readService (s : State) (i u : Nat) : Nat :=
  let im := s.image
  match i, u with
  | 0x0100, 4 => s.serial
  | 0x0100, 5 => s.factoryValue 0x0100 5 % 65536
  | 0x0100, 6 => im.version.toNat
  | 0x0100, 7 => im.epochCur.toNat
  | 0x0100, 8 => s.boot.fwBank
  | 0x0100, 9 => s.factoryValue 0x0100 9 % 256
  | 0x0108, 1 => s.por.nodeId.toNat
  | 0x0108, 6 => s.por.framesDropped.toNat
  | 0x0200, 1 => s.tier
  | 0x0200, 2 => s.startState
  | 0x0200, 3 => s.tierBlockers
  | 0x0200, 4 => s.boot.resetCause.toNat
  | 0x0200, 5 => s.boot.resetCount.toNat
  | 0x0200, 6 => s.boot.startMs.toNat
  | 0x0200, 7 => if s.boot.fallback then 1 else 0
  | 0x0200, 8 => s.boot.stops.toNat
  | 0x0201, m => (s.stack (m - 1)).training
  | 0x0204, 4 => s.stageState
  | 0x0204, 7 => s.boot.bootBank
  | 0x0210, 1 => im.epochCur.toNat
  | 0x0210, 2 => im.epochPrev.toNat
  | 0x0210, 4 => s.epochNow
  | _, _ => s.dv i u
def State.readPower (s : State) (i u : Nat) : Nat :=
  match i, u with
  | 0x0400, 3 => if s.pwr.rootLocked then 1 else 0
  | 0x0400, 4 => s.opInEffect
  | 0x0400, 5 => s.pwr.arithDiv
  | 0x0400, 6 => s.pwr.fabricDiv
  | 0x0400, 7 => s.pwr.ctrlDiv
  | 0x0410, 1 => s.enables
  | 0x0411, b => s.block (b - 1)
  | 0x0500, 1 => s.pwr.vinMv.toNat
  | 0x0500, 2 => s.pwr.iinMa.toNat
  | 0x0500, 3 => s.pwr.pinW.toNat
  | 0x0500, 4 => s.pwr.avgW.toNat
  | 0x0500, 5 => s.pwr.energyMj.toNat
  | 0x0500, 7 => s.capNow
  | 0x0500, 8 => s.pwr.capExceeded.toNat
  | 0x0500, 9 => s.boot.resetDetail.toNat
  | 0x0508, k => ((s.pwr.temps[k - 1]?).getD 0).toNat
  | 0x0510, 10 => s.pwr.profileState
  | 0x0510, 11 => s.profileAge
  | 0x0520, k => mget 0 s.pwr.wstallCycles (k - 1) / 175000 % 2 ^ 64
  | _, _ => s.dv i u
def slotCode : SlotState → Nat
  | .free => 0
  | .writing => 1
  | .sealed => 2
  | .erasing => 3
def State.readMemory (s : State) (i u : Nat) : Nat :=
  match i, u with
  | 0x0808, m => (s.stack (m - 1)).fence
  | 0x0809, m => (s.stack (m - 1)).ce.toNat
  | 0x080A, m => (s.stack (m - 1)).ue.toNat
  | 0x080B, m => (s.stack (m - 1)).retries.toNat
  | 0x0810, 3 => s.ms.bisnpIssued.toNat
  | 0x0900, 3 => s.flashFree
  | 0x0908, c => (s.flashCh (c - 1)).fence
  | 0x0909, c => (s.flashCh (c - 1)).retries.toNat
  | 0x090A, c => (s.flashCh (c - 1)).ue.toNat
  | 0x090B, c => (s.flashCh (c - 1)).wear
  | 0x0A00, 4 => s.adaptersLoaded
  | _, _ =>
    let x := s.slot (i - 0x0910)
    if i < 0x0910 ∨ 0x0920 ≤ i then s.dv i u
    else match u with
      | 1 => slotCode x.state
      | 2 => if x.degraded then 1 else 0
      | 3 => x.bytes
      | 4 => x.mask.toNat
      | 5 => x.modelId.toNat
      | 6 => x.modelVersion.toNat
      | 10 => x.window
      | 11 => x.refs
      | 12 => s.depthOf (i - 0x0910)
      | _ => s.dv i u

/-- Rooms that are IN_USE, and streams now parked. -/
def State.roomsInUse (s : State) : Nat :=
  ((roomsFrom s.roomParts 0).map (fun p => p.2.countP (fun x => decide (roomState (s.roomEntry x) = 1)))).sum
/-- Whether a stream holds rooms (R249): one that a directory's VALID entry counts, or one that an instruction holds, on a core or in a
save (R234). A room kept by its pins alone is no stream's. -/
def State.roomsHeld (s : State) : Bool :=
  (roomsFrom s.roomParts 0).any (fun p => p.2.any (fun x => decide (roomState (s.roomEntry x) = 1 ∧ roomRef (s.roomEntry x) ≠ 0))) ||
  s.cores.any (fun c => c.2.queue.any (fun e => !e.rooms.isEmpty)) ||
  s.hub.jobs.any (fun j => j.saved.any (fun v => v.cores.any (fun x => x.queue.any (fun e => !e.rooms.isEmpty))))
def State.streamsParked (s : State) : Nat := ((s.ms.vacancy.flatMap (fun v => v.2.parked.map (fun q => q.1))).eraseDups).length
/-- ROOM_TABLE_CAPACITY (R228). -/
def State.roomCapacity (s : State) : Nat :=
  if s.ms.scRoomMib = 0 then 0 else s.ms.roomClusters.length * (s.ms.scRoomMib * 131072 - 8192)
/-- A core counter summed over the module. -/
def State.sumCore (s : State) (i : Nat) : Nat := (s.cores.map (fun c => (mget 0 c.2.ctr i).toNat)).sum % 2 ^ 64
def State.readJobs (s : State) (i u : Nat) : Nat :=
  match i, u with
  | 0x0C08, k => s.clusterState (k - 1)
  | 0x0C10, 1 => s.hub.sweeps.toNat
  | 0x0C10, 3 => s.hub.cancelled.toNat
  | 0x0C43, f => ulpBound f
  | 0x0D00, 4 => s.roomCapacity
  | 0x0D00, 5 => s.roomsInUse
  | 0x0D00, 6 => s.streamsParked
  | 0x0D00, 7 => s.ms.roomsLost.toNat
  | 0x0E00, 4 => if s.dv 0x0E00 2 = 0 then 0 else validBytes (s.dv 0x0E00 3)
  | 0x0E10, 4 => s.tabState
  | 0x0E20, k => s.sitePred (k - 1)
  | 0x0E30, k => s.sumCore (k + 11)
  | _, _ =>
    let p := i - 0x0D10
    if i < 0x0D10 ∨ 0x0D14 ≤ i then s.dv i u
    else if 18 ≤ u ∧ u ≤ 25 then (s.vac p (u - 18)).free.length
    else if 26 ≤ u ∧ u ≤ 33 then (s.vac p (u - 26)).booked
    else if u = 34 then (s.pool p).state else s.dv i u
def portCode : PortState → Nat
  | .off => 0
  | .training => 1
  | .up => 2
  | .down => 3
  | .draining => 4
  | .fenced => 5
def State.readPorts (s : State) (i u : Nat) : Nat :=
  match i, u with
  | 0x1120, g => s.groupState (g - 1)
  | 0x1121, g => s.groupState (g + 127)
  | 0x1130, 1 => s.net.operations.toNat
  | 0x1130, 2 => s.net.dups.toNat
  | 0x1130, 3 => s.net.stale.toNat
  | 0x1130, 4 => s.net.abortsSent.toNat
  | 0x1130, 5 => s.net.abortsReceived.toNat
  | 0x1130, 6 => s.net.xbarRounds.toNat
  | 0x1140, 3 => s.net.relayBlock
  | 0x1140, 4 => s.net.relayForwards.toNat
  | 0x1400, 6 => s.enc.capMisses.toNat
  | 0x1408, e => s.engineState (e - 1)
  | 0x1409, e => (mget 0 s.enc.tiles (e - 1)).toNat
  | _, _ =>
    if 0x1010 ≤ i ∧ i < 0x1018 then
      let x := s.port (i - 0x1010)
      match u with
      | 1 => portCode x.state
      | 2 => x.fault
      | 3 => x.lanesOk.toNat
      | 4 => if x.state = .up then x.peerSerial.toNat else 0
      | 5 => if x.state = .up then x.peerPort.toNat else 0xFF
      | 6 => if x.state = .up then x.peerMember.toNat else 0
      | 7 => x.fecCorrected.toNat
      | 8 => x.fecUncorrected.toNat
      | 9 => x.resends.toNat
      | 10 => x.downs.toNat
      | 11 => x.starvations.toNat
      | 12 => x.unmatched.toNat
      | _ => 0
    else if i = 0x1020 ∨ i = 0x1021 then
      let r := s.ring (i - 0x1020)
      match u with
      | 2 => (match r.bypass with
        | .through => 0
        | .joined => 1
        | .moving _ => 2)
      | 4 => r.moves.toNat
      | 5 => r.autos.toNat
      | _ => s.dv i u
    else s.dv i u
def State.readHealth (s : State) (i u : Nat) : Nat :=
  match i, u with
  | 0x1800, 4 => s.por.rollingNext
  | 0x1800, 5 => s.por.bist.length
  | 0x1808, 2 => s.por.logSeq.toNat
  | 0x1808, 5 => if s.por.alertPin then 1 else 0
  | 0x19E0, k => (mget 0 s.por.bwLatched (k - 1)).toNat
  | 0x19E1, k => (mget 0 s.por.bwLatched (k + 15)).toNat
  | 0x19E2, k => (mget 0 s.por.bwLatched (k + 31)).toNat
  | 0x19E3, _ => s.por.windowSeq.toNat
  | 0x1C00, 2 => s.por.fusedSvn
  | 0x1C00, 3 => s.image.svn.toNat
  | 0x1C00, 5 => s.por.sessions.length
  | 0x1C18, 3 => if s.por.keysPending then 1 else 0
  | 0x1C28, 4 => s.por.debug
  | 0x1F00, 3 => s.ledgerState
  | 0x1F00, 4 => (s.ledger.map LedgerImage.gen).getD 0
  | 0x1F00, 5 => (s.ledger.map LedgerImage.bytes).getD 0
  | 0x1F00, 6 => s.por.ledgerWrites.toNat
  | 0x1F00, 7 => s.por.ledgerSkipped.toNat
  | 0x1F00, 8 => (s.ledger.map (fun m => (s.unknownRecs m).length)).getD 0
  | 0x1F00, 9 => if s.factoryImage.isSome then 0 else 1
  | _, _ =>
    if 0x1900 ≤ i ∧ i < 0x19C0 then (mget 0 (s.core (i - 0x1900)).ctr u).toNat
    else if 0x19C0 ≤ i ∧ i < 0x19CC then
      (if u = 34 then (s.cluster (i - 0x19C0)).sampleHead.toNat else (mget 0 (s.cluster (i - 0x19C0)).ctr u).toNat)
    else if 0x19D0 ≤ i ∧ i < 0x19D8 then (mget 0 s.por.portCtr (8 * (i - 0x19D0) + u)).toNat
    else s.dv i u

/-- A number an entry of a fixed-size type reads as, USER_VIEW_NEEDED apart. -/
def State.readNat (s : State) (i u : Nat) : Nat :=
  if i < 0x0400 then s.readService i u
  else if i < 0x0800 then s.readPower i u
  else if i < 0x0C00 then s.readMemory i u
  else if i < 0x1000 then s.readJobs i u
  else if i < 0x1800 then s.readPorts i u
  else s.readHealth i u

/-- The value of a STR or BLOB entry. -/
def State.readBlob (s : State) (i u : Nat) : List Byte :=
  match i, u with
  | 0x0100, 1 => strBytes "Eovos Semiconductor"
  | 0x0100, 2 => strBytes "EVA-9200M"
  | 0x0108, 2 => s.mgmtMac
  | 0x0C10, 2 => s.hub.lastFault.bytes
  | 0x1400, 5 => scalerBlob s.epochNow
  | 0x1808, 1 => fixLen 8192 (s.por.log.flatMap LogRec.bytes)
  | 0x1C00, 1 => s.romKeyDigest
  | 0x1C08, u => s.factoryRecord 0x1C08 u (s.certificate u)
  | 0x1C10, u => (match mget [] s.por.keys u with
    | [] => List.replicate 32 0
    | k => fixLen 32 (Config.shake256 k 32))
  | 0x1C21, u => fixLen 1536 (mget [] s.por.reports u)
  | 0x1C28, 1 => fixLen 32 s.por.challenge
  | 0x1F18, 1 => fixLen 384 (s.por.results.flatMap CmdResult.bytes)
  | _, _ =>
    if i = 0x0C41 then nativeImage s.epochNow u
    else if i = 0x0C42 then g1Image s.epochNow u
    else if 0x0910 ≤ i ∧ i < 0x0920 then leBytes 16 (s.slot (i - 0x0910)).mask.toNat
    else if i = 0x1820 then leBytes 32 (mget 0 s.por.bistResults (u - 1)).toNat
    else if 0x19C0 ≤ i ∧ i < 0x19CC then
      (List.range 2048).flatMap (fun k => leBytes 32 (mget 0 (s.cluster (i - 0x19C0)).sampleRing k).toNat)
    else leBytes ((blobSize i u).getD 0) (s.dv i u)

/-- Entries in the user view (R431, R487): those of audience U, and granted counters. -/
def State.inView (s : State) (e : DEntry) (i u : Nat) : Bool := decide (e.acc ≠ .wo) && (e.u || s.granted i u)
/-- The directory of the view, by index and subindex (subindex 0 included). -/
def State.viewEntries (s : State) : List (Nat × Nat × DEntry) :=
  ((List.range 0x2000).filter (fun i => dictAll.any (fun e => e.onIndex i))).flatMap (fun i =>
    (List.range (dictTop i + 1)).filterMap (fun u => match dictEntry i u with
      | some e => if s.inView e i u && s.defines i u then some (i, u, e) else none
      | none => none))

/-- The bytes of an entry's value, by its row. -/
def State.readWith (s : State) (e : DEntry) (i u : Nat) : List Byte :=
  if u = 0 then [BitVec.ofNat 8 e.dflt]
  else match tyBytes e.ty with
    | some n => leBytes n (s.readNat i u)
    | none => s.readBlob i u
/-- Places of the values in the view: each begins on a multiple of 32. -/
def viewOffsets : Nat → List Nat → List Nat
  | _, [] => []
  | at_, n :: rest => at_ :: viewOffsets ((at_ + n + 31) / 32 * 32) rest
/-- The view's records: entry, value, offset. -/
def State.viewRecords (s : State) : List ((Nat × Nat × DEntry) × List Byte × Nat) :=
  let es := s.viewEntries
  let vs := es.map (fun (i, u, e) => s.readWith e i u)
  let start := (64 + 16 * es.length + 31) / 32 * 32
  es.zip (vs.zip (viewOffsets start (vs.map List.length)))
/-- USER_VIEW_NEEDED. -/
def State.viewNeeded (s : State) : Nat :=
  match s.viewRecords.getLast? with
  | some (_, v, off) => cdiv (off + v.length) 2048 * 2048
  | none => 2048
/-- The value an entry reads as. -/
def State.readEntry (s : State) (e : DEntry) (i u : Nat) : List Byte :=
  if i = 0x1F08 ∧ u = 3 then leBytes 4 s.viewNeeded else s.readWith e i u

/-! ## DICT_READ (R422, R427–R429) -/

/-- Value bytes that one response frame holds on a path, with those of the records answered before (Table 18-1). -/
def frameRoom (f : InFrame) : Nat :=
  let used := (f.resps.map (fun r => (respBytes r).length)).sum
  let later := 16 * f.recs.length
  (match f.path with
   | .field => 1388
   | .mailbox => 8064) - used - later

/-- A read record: the bytes wanted from OFFSET on, as many as fit; an OFFSET beyond the value, or one of a fixed-size type, is
TYPE_MISMATCH (log 42). -/
def State.dictRead (s : State) : State :=
  match s.frontRec with
  | none => s
  | some (f, r) =>
    if r.rop = 2 then s
    else match s.recEntry f r with
      | .error st => s.answer st 0 r.total []
      | .ok e =>
        let v := s.readEntry e r.index r.sub
        if (e.ty < 10 ∧ r.offset ≠ 0) ∨ v.length < r.offset then s.answer dsType 0 v.length []
        else
          let want := if r.length = 0 then v.length else r.length
          s.answer dsOk 0 v.length ((v.drop r.offset).take (min want (frameRoom f / 4 * 4)))

def execDictRead (s : State) : Res := .next s.dictRead

end Sys2Proof.Machine
end

