-- ==== Sys2Proof/Machine/Health.lean ====
section
/-! DEFINITION. Self-test (R476–R483), ALERT_N (R485) and the bandwidth windows (R488). -/

namespace Sys2Proof.Machine

/-! ## Targets (Table 21-1) -/

inductive BistUnit where
  | cluster (k : Nat)
  | stack (m : Nat)
  | flash (g : Nat)
  | port (p : Nat)
  | engine (e : Nat)

def bistUnit (t : Nat) : Option BistUnit :=
  if t < 12 then some (.cluster t)
  else if 0x10 ≤ t ∧ t < 0x18 then some (.stack (t - 0x10))
  else if 0x20 ≤ t ∧ t < 0x28 then some (.flash (t - 0x20))
  else if 0x30 ≤ t ∧ t < 0x38 then some (.port (t - 0x30))
  else if 0x40 ≤ t ∧ t < 0x44 then some (.engine (t - 0x40))
  else none

/-- Why a commanded run is refused for its unit (R478). -/
def State.bistRefused (s : State) (u : BistUnit) : Option Nat :=
  match u with
  | .cluster k => if (s.cluster k).fenced then none else some dsClusterBusy
  | .stack m => if s.block (blkStack m) = 0 then none else some dsBlockBusy
  | .flash g => if s.block (blkFlash g) = 0 then none else some dsBlockBusy
  | .port p => if (s.port p).state = .off ∨ (s.port p).state = .fenced then none else some dsBlockBusy
  | .engine e => if s.engineState e = 0 ∨ s.engineState e = 3 then none else some dsBlockBusy
/-- BIST_RUN. -/
def State.bistRun (s : State) : State :=
  s.serveWrite (fun i u => decide (i = 0x1800 ∧ u = 1)) (fun s f r bs =>
    let t := par bs 0 1
    let mode := par bs 1 1
    match bistUnit t with
    | none => ⟨s, dsOutOfRange, 0, none⟩
    | some u =>
      if mode = 0 ∨ 3 < mode then ⟨s, dsOutOfRange, 0, none⟩
      else match s.bistRefused u with
        | some st => ⟨s, st, 0, none⟩
        | none =>
          if s.por.bist.any (fun x => x.target == t) then ⟨s, dsBlockBusy, 0, none⟩
          else s.accept f r bs (fun s k => s.withPor (fun p => { p with
            bist := p.bist ++ [{ target := t, mode := mode, kind := 0, ticket := k }] })))

/-! ## The end of a run (R481–R483) -/

/-- Set or clear bits of BIST_FENCES. -/
def State.fenceBits (s : State) (lo n : Nat) (v : Nat) : State :=
  let old := s.dv 0x1800 6
  s.setDv 0x1800 6 (old - bits old (lo + n - 1) lo * 2 ^ lo + v * 2 ^ lo)
/-- A cluster's contents after a run (Table 21-1, R479). -/
def State.bistCluster (s : State) (k kind : Nat) : State :=
  let s := s.zeroCluster k
  if kind = 1 then s
  else
    let s := s.modCluster k (fun c => { c with scache := c.scache.zero s.scUser scEnd })
    if s.roomsInUse = 0 then s.modCluster k (fun c => { c with scache := c.scache.zero scRooms s.scUser }) else s
/-- Cores whose fence a failed run adds, and whether the whole cluster is fenced. -/
def State.failCluster (s : State) (k fail : Nat) : State :=
  let cores := bits fail 15 0
  let whole := decide (bits fail 18 16 ≠ 0)
  let s := s.modCluster k (fun c => { c with coreFence := c.coreFence ||| BitVec.ofNat 16 cores, bistCores := c.bistCores ||| BitVec.ofNat 16 cores, fencedBist := c.fencedBist || whole })
  let s := s.fenceBits (16 * k) 16 (bits (s.dv 0x1800 6) (16 * k + 15) (16 * k) ||| cores)
  let s := if whole then s.fenceBits (192 + k) 1 1 else s
  s.logEvent 0 0 k (BitVec.ofNat 128 fail)
/-- What a failed run fences (R481), with its bit of BIST_FENCES (R482). -/
def State.bistFail (s : State) (u : BistUnit) (fail : Nat) : State :=
  match u with
  | .cluster k => s.failCluster k fail
  | .stack m => (s.fenceStack m 3).fenceBits (204 + m) 1 1
  | .flash g => ((List.range 16).foldl (fun (t : State) i => t.fenceFlash (16 * g + i) 2) s).fenceBits (212 + g) 1 1
  | .port p => ((s.modPort p (fun x => { x with fencedBist := true, state := .fenced, lanesOk := 0 })).fenceBits (220 + p) 1 1).logEvent 0 0 (0x30 + p) 0
  | .engine e => (s.fenceEngine e true).fenceBits (228 + e) 1 1
/-- What a passed commanded run returns (R478, R481, R482): a unit that BIST had fenced is OFF, or FENCED as by command.
Of a cluster's cores those return that BIST fenced; a core fenced under R27 alone stays so. -/
def State.bistPass (s : State) (u : BistUnit) : State :=
  match u with
  | .cluster k => ((s.modCluster k (fun c => { c with
      coreFence := c.coreFence &&& ~~~ c.bistCores, bistCores := 0, fencedCmd := c.fencedCmd || c.fencedBist, fencedBist := false })).fenceBits (16 * k) 16 0).fenceBits (192 + k) 1 0
  | .stack m => (s.modStack m (fun x => { x with fence := if x.fence = 3 then 0 else x.fence })).fenceBits (204 + m) 1 0
  | .flash g => ((List.range 16).foldl (fun (t : State) i =>
      t.modFlashCh (16 * g + i) (fun c => { c with fence := if c.fence = 2 then 0 else c.fence })) s).fenceBits (212 + g) 1 0
  | .port p => (s.modPort p (fun x => { x with
      fencedCmd := x.fencedCmd || x.fencedBist, fencedBist := false, testFails := false, fault := if x.fault = 1 then 0 else x.fault })).fenceBits (220 + p) 1 0
  | .engine e =>
    let b : BitVec 4 := 1#4 <<< e
    ({ s with enc := { s.enc with fencedCmd := s.enc.fencedCmd ||| (s.enc.fencedBist &&& b), fencedBist := s.enc.fencedBist &&& ~~~ b } }).fenceBits (228 + e) 1 0
/-- The sub-units a run tests, in order (Table 21-1): of a cluster its sixteen cores (a rolling run those of CORE_MASK), 16 the
sequencer, 17 the shared cache, 18 the counters; of a stack 0 the controller and 1 to 128 the channels; a flash group's 16 channel
controllers; of a port 0 the transmitter, 1 the receiver, 2 the framing; one of an encoder. -/
def State.bistSubs (s : State) (r : BistRun) (u : BistUnit) : List Nat :=
  match u with
  | .cluster k => (List.range 19).filter (fun i => decide (16 ≤ i) || decide (r.kind ≠ 1) || (s.coreMask k).getLsbD i)
  | .stack _ => List.range 129
  | .flash _ => List.range 16
  | .port _ => List.range 3
  | .engine _ => [0]
/-- The kind of a sub-unit, for its expected signature (R476). -/
def BistUnit.kind (u : BistUnit) (sub : Nat) : Nat :=
  match u with
  | .cluster _ => if sub < 16 then 0 else sub - 15
  | .stack _ => if sub = 0 then 4 else 5
  | .flash _ => 6
  | .port _ => 7 + sub
  | .engine _ => 10
/-- The expected signature of a kind of sub-unit in a mode, as the factory ledger holds it; what it holds where the state lists none is
manufacture's own, free (log 4). -/
def State.misrExpected (s : State) (kind mode : Nat) : Quad :=
  match s.factoryImage.bind (fun m => m.misrs.find? (fun p => p.1 == 4 * kind + mode)) with
  | some p => p.2
  | none => Config.misrExpected kind mode
/-- The sub-units whose MISR differs from the expected value, lowest first, with what they showed (R476). -/
def State.bistFailing (s : State) (r : BistRun) (u : BistUnit) (misrs : List (Nat × Quad)) : List (Nat × Quad) :=
  (s.bistSubs r u).filterMap (fun i => (misrs.find? (fun p => p.1 == i)).bind (fun p =>
    if p.2 = s.misrExpected (u.kind i) r.mode then none else some p))
/-- FAIL of Table 21-3: of a cluster a bit per sub-unit, of another target bit 0. -/
def BistUnit.fail (u : BistUnit) (bad : List (Nat × Quad)) : Nat :=
  match u with
  | .cluster _ => (bad.map (fun p => 2 ^ p.1)).sum
  | _ => if bad.isEmpty then 0 else 1
/-- Whether fencing the unit logs a drop of the tier itself (R484). -/
def BistUnit.notes (u : BistUnit) : Bool :=
  match u with
  | .cluster _ => false
  | .port _ => false
  | _ => true
/-- BIST_RUN_END: the MISRs of the sub-units are compared; a sub-unit that is not listed showed the expected value. The verdict, the unit's
contents, the fences, the command's result; a drop of the tier is logged once. -/
def State.bistEnd (s : State) (target : Nat) (misrs : List (Nat × Quad)) : State :=
  match s.por.bist.find? (fun r => r.target == target), bistUnit target with
  | some r, some u =>
    let before := s.tier
    let known := s.factoryImage.isSome
    let differ := if known then s.bistFailing r u misrs else []
    let bad := u.fail differ
    let verdict := if !known then 4 else if bad = 0 then 1 else 2
    let exp := (differ.head?.map (fun p => s.misrExpected (u.kind p.1) r.mode)).getD 0
    let s := s.bistResult r verdict (BitVec.ofNat 64 bad) ((differ.head?.map Prod.snd).getD 0) exp
    let s := match u with
      | .cluster k => s.bistCluster k r.kind
      | _ => s
    let s := if verdict = 2 then s.bistFail u bad else if verdict = 1 ∧ r.kind = 0 then s.bistPass u else s
    let s := if r.kind = 1 then s.withPor (fun p => { p with rollingNext := (target + 1) % 12 }) else s.endCmd r.ticket dsOk 0 bad
    if u.notes && verdict = 2 then s else s.noteTier before
  | _, _ => s

/-! ## Rolling BIST (R479) -/

/-- Whether the rolling run may take a cluster: ON, FREE, held by no job that is swapped out (R135), and no ready job waits for it. -/
def State.rollable (s : State) (k : Nat) : Bool :=
  decide (s.block (blkCluster k) = 1) && s.clusterFree k && !s.clusterHeld k && s.hub.jobs.all (fun j => !(s.isReady j && j.team.contains k))
/-- ROLLING_BIST_TURN; ROLLING_NEXT moves on with the run's end (Table 21-8). -/
def State.rollingTurn (s : State) : State :=
  if !s.boot.ready || s.hub.sweeping || s.factoryImage.isNone || decide (s.dv 0x1800 2 ≠ 1) || s.por.bist.any (fun r => r.kind == 1) then s
  else match ((List.range 12).filter (fun k => decide (s.por.rollingNext ≤ k))).find? s.rollable with
    | none => s
    | some k => (s.modCluster k (fun c => { c with rolling := true })).withPor (fun p => { p with
        bist := p.bist ++ [{ target := k, mode := 3, kind := 1, ticket := 0 }] })

/-! ## ALERT_N and the bandwidth windows -/

/-- ALERT_ACK: the pin is released when the SEQ covers the latest alerting record. -/
def State.alertAck (s : State) : State :=
  s.serveWrite (fun i u => decide (i = 0x1808 ∧ u = 4)) (fun s _ _ bs =>
    ⟨s.withPor (fun p => { p with alertPin := p.alertPin && decide (leNat bs < p.alertSeq.toNat) }), dsOk, 0, none⟩)
/-- BW_WINDOW_END: the counts are latched; a change of k takes effect. Windows run from the module reset on, whose units leave it at step 4
with the lock of ROOT (R449, R488). -/
def State.bwWindow (s : State) : State :=
  if s.boot.inReset && !(s.boot.vin && s.pwr.rootLocked) then s
  else
    s.withPor (fun p => { p with bwLatched := p.bwCounts, bwCounts := [], windowSeq := p.windowSeq + 1, bwLog2 := s.dv 0x19F0 2 })

def execBistRun (s : State) : Res := .next s.bistRun
def execBistRunEnd (target : Byte) (subs : List Nat) (misrs : List Quad) (s : State) : Res := .next (s.bistEnd target.toNat (subs.zip misrs))
def execRollingBistTurn (s : State) : Res := .next s.rollingTurn
def execAlertAck (s : State) : Res := .next s.alertAck
def execBwWindowEnd (s : State) : Res := .next s.bwWindow

end Sys2Proof.Machine
end

