-- ==== Sys2Proof/Machine/View.lean ====
section
/-! DEFINITION. The user view (R431): its configuration, its directory and values in stacked memory, and their refresh. -/

namespace Sys2Proof.Machine

/-- A directory record: INDEX, SUB, TYPE, LENGTH, OFFSET, SEQ. -/
def viewRecord (i u ty len off seq : Nat) : List Byte :=
  leBytes 16 (i + u * 2 ^ 16 + ty * 2 ^ 24 + len * 2 ^ 32 + off * 2 ^ 64 + seq * 2 ^ 96)
/-- Write the whole view at its base: header, directory with every SEQ 0, values. -/
def State.viewBuild (s : State) : State :=
  if s.por.viewBase = 0 ∨ s.por.viewBytes = 0 then s
  else
    let base := s.por.viewBase
    let rs := s.viewRecords
    let s := s.memWriteHub base (leBytes 64 rs.length)
    let s := s.memWriteHub (base + 64) (rs.flatMap (fun r => viewRecord r.1.1 r.1.2.1 r.1.2.2.ty r.2.1.length r.2.2 0))
    rs.foldl (fun t r => t.memWriteHub (base + r.2.2) r.2.1) s
/-- Why a configuration is refused: smaller than USER_VIEW_NEEDED, not aligned in the stacks, or over a weight range. -/
def State.viewBad (s : State) (base bytes : Nat) : Bool :=
  decide (bytes < s.viewNeeded) || decide (base % 2048 ≠ 0) || decide (stackTop < base + bytes) || s.meetsWeight base bytes
/-- Latch a configuration, COUNTER_GRANT with it, and build the view; a base or size of 0 is no view. -/
def State.viewSet (s : State) (base bytes : Nat) : State :=
  let on := decide (base ≠ 0 ∧ bytes ≠ 0)
  (s.withPor (fun p => { p with viewBase := if on then base else 0, viewBytes := if on then bytes else 0 })).viewBuild
def State.takeGrant (s : State) : State := s.withPor (fun p => { p with grant := s.dv 0x19F0 1 })
/-- The user view as its entries configure it; an unfit configuration is no view (R431). -/
def State.viewTake (s : State) : State :=
  let base := s.dv 0x1F08 1
  let bytes := s.dv 0x1F08 2
  if base = 0 ∨ bytes = 0 ∨ s.viewBad base bytes = true then s.viewSet 0 0 else s.viewSet base bytes

/-- USER_VIEW_CONFIG_WRITE (R431, R487). -/
def State.viewConfig (s : State) : State :=
  s.serveWrite (fun i u => decide (i = 0x1F08) && decide (u = 1 ∨ u = 2)) (fun s _ r bs =>
    let v := leNat bs
    let base := if r.sub = 1 then v else s.dv 0x1F08 1
    let bytes := if r.sub = 2 then v else s.dv 0x1F08 2
    if s.hub.jobs ≠ [] then ⟨s, dsJobsBusy, 0, none⟩
    else if bytes % 2048 ≠ 0 then ⟨s, dsOutOfRange, 0, none⟩
    else
      let t := s.takeGrant
      if base ≠ 0 ∧ bytes ≠ 0 ∧ t.viewBad base bytes = true then ⟨s, dsRange, 0, none⟩
      else ⟨(t.setDv 0x1F08 r.sub v).viewSet base bytes, dsOk, 0, none⟩)

/-- Refresh one value under its SEQ: odd, the value, even. A value that has not changed is left (log 43). -/
def State.viewOne (s : State) (k off : Nat) (v : List Byte) : State :=
  let base := s.por.viewBase
  if s.ms.mem.readBytes (base + off) v.length = v then s
  else
    let at_ := base + 64 + 16 * k + 12
    let seq := s.hubRead at_ 4
    let s := (s.hubGot (at_, 4)).memWriteHub at_ (leBytes 4 (seq + 1))
    (s.memWriteHub (base + off) v).memWriteHub at_ (leBytes 4 (seq + 2))
/-- USER_VIEW_REFRESH. -/
def State.viewRefresh (s : State) : State :=
  if s.por.viewBase = 0 ∨ !s.boot.ready then s
  else (s.viewRecords.zipIdx).foldl (fun (t : State) p => if p.1.1.2.2.acc = .ro then t.viewOne p.2 p.1.2.2 p.1.2.1 else t) s

def execUserViewConfigWrite (s : State) : Res := .next s.viewConfig
def execUserViewRefresh (s : State) : Res := .next s.viewRefresh

end Sys2Proof.Machine
end

