-- ==== Sys2Proof/Machine/Firmware.lean ====
section
/-! DEFINITION. Firmware images and their life (R453–R455, R461–R463): staging, verification, activation without a stop, and the
anti-rollback counter. -/

namespace Sys2Proof.Machine

/-! ## Checks of an image (R461, R462) -/

/-- Stage states of Table 19-8. -/
def fwVerified : Nat := 2
def fwBadSignature : Nat := 3
def fwRollback : Nat := 4
def fwBadFormat : Nat := 5

/-- The header of Table 20-1. -/
def FwBank.header (b : FwBank) : Nat := b.bytes.readLE 0 64
def fwBodyMax : Nat := 29356032
def fwBankBytes : Nat := 29360128
/-- Check 1: MAGIC, FORMAT, reserved bits, BODY_BYTES, EPOCH_PREV. -/
def fwFormatOk (h : Nat) : Bool :=
  decide (bits h 15 0 = 0x4657) && decide (bits h 31 16 = 1) && decide (bits h 511 160 = 0) && decide (bits h 127 104 = 0) &&
  decide (1 ≤ bits h 159 128 ∧ bits h 159 128 ≤ fwBodyMax) &&
  decide (bits h 95 80 = 0 ∨ bits h 95 80 + 1 = bits h 79 64)
/-- The signed message of an image. -/
def FwBank.message (b : FwBank) (body : Nat) : List Byte :=
  strBytes "EOVOS-FW" ++ b.bytes.readBytes 0 2048 ++ b.bytes.readBytes 4096 body
/-- The result of R462's checks: VERIFIED or the state of the first that fails. Of bytes that have passed checks 1 to 3 before, which do
not change, the rollback check alone can come out anew. -/
def State.fwCheck (s : State) (b : FwBank) : Nat :=
  if b.stage = fwVerified ∨ b.stage = fwRollback then (if b.svn.toNat < s.por.fusedSvn then fwRollback else fwVerified)
  else
    let h := b.header
    let key := b.vendorKey
    if !fwFormatOk h then fwBadFormat
    else if h512 key ≠ s.romKeyDigest then fwBadSignature
    else if !Config.falconVerify key (b.message (bits h 159 128)) (b.bytes.readBytes 2048 1280) then fwBadSignature
    else if bits h 103 96 < s.por.fusedSvn then fwRollback else fwVerified
/-- Set a bank's stage to what its checks give; a verified image's header fields are read out. One of major version 1 holds every entry
of the manual (R1, R441). -/
def State.fwSetStage (s : State) (b : Nat) : State :=
  let x := s.fwImage b
  let st := s.fwCheck x
  let h := x.header
  s.modBank b (fun y =>
    if (st = fwVerified ∨ st = fwRollback) ∧ x.stage ≠ fwVerified ∧ x.stage ≠ fwRollback then
      { y with stage := st, version := BitVec.ofNat 32 (bits h 63 32), epochCur := BitVec.ofNat 16 (bits h 79 64)
               epochPrev := BitVec.ofNat 16 (bits h 95 80), svn := BitVec.ofNat 8 (bits h 103 96), bodyBytes := bits h 159 128
               omits := if bits h 63 56 = 1 then [] else Config.imageOmits (bits h 63 32) }
    else { y with stage := st })

/-! ## Staging (R453) -/

/-- Write bytes into the bank that does not run, which is STAGING until the next FW_VERIFY. -/
def State.fwStage (s : State) (off : Nat) (bs : List Byte) : State :=
  s.modBank s.stageBank (fun b => { b with bytes := b.bytes.writeBytes off bs, stage := fwStaging })
/-- FW_STAGE_CHUNK; while an activation runs it answers NOT_READY. -/
def State.fwChunk (s : State) : State :=
  s.serveWrite (fun i u => decide (i = 0x0204 ∧ u = 1)) (fun s _ _ bs =>
    let off := par bs 0 4
    let data := bs.drop 8
    if s.boot.activation.isSome then ⟨s, dsNotReady, 0, none⟩
    else if bs.length < 8 then ⟨s, dsType, 0, none⟩
    else if fwBankBytes < off + data.length then ⟨s, dsOutOfRange, 0, none⟩
    else ⟨s.fwStage off data, dsOk, 0, none⟩)
/-- FW_STAGE_MEM starts: the image lies in the stacks. -/
def State.fwStageMem (s : State) : State :=
  s.serveWrite (fun i u => decide (i = 0x0204 ∧ u = 2)) (fun s f r bs =>
    let a := par bs 0 8
    let n := par bs 8 4
    if s.boot.activation.isSome then ⟨s, dsNotReady, 0, none⟩
    else if fwBankBytes < n ∨ stackTop < a + n then ⟨s, dsOutOfRange, 0, none⟩
    else s.accept f r bs (fun s _ => s.modBank s.stageBank (fun b => { b with stage := fwStaging })))
/-- Its end: the bytes are staged, or the source could not be read. -/
def State.fwStageMemEnd (s : State) (c : RunCmd) (sent : Option Nat) : State :=
  let a := par c.params 0 8
  let n := par c.params 8 4
  let short := fun (k : Nat) => ((s.fwStage 0 (s.ms.mem.readBytes a k)).endCmd c.ticket dsSourceUe 0 k).sourceDone a k n
  match sent, s.memRead a n with
  | none, .ok bs => ((s.fwStage 0 bs).endCmd c.ticket dsOk 0 0).sourceDone a n n
  | some k, _ => short (min k (s.readable a n))
  | none, .error _ => short (s.readable a n)
/-- FW_VERIFY starts; its end sets FW_STAGE_STATE. -/
def State.fwVerify (s : State) : State :=
  s.serveWrite (fun i u => decide (i = 0x0204 ∧ u = 3)) (onTrue (fun s f r bs => s.accept f r bs (fun s _ => s)))
def State.fwVerifyEnd (s : State) (c : RunCmd) : State := (s.fwSetStage s.stageBank).endCmd c.ticket dsOk 0 0

/-- ROLLBACK_COMMIT (R463): one step of the fuse counter, no further than the running image's SVN; the counter has 64 steps
(log 48). -/
def State.rollbackCommit (s : State) : State :=
  s.serveWrite (fun i u => decide (i = 0x1C00 ∧ u = 4)) (onTrue (fun s _ _ _ =>
    if 64 ≤ s.por.fusedSvn ∨ s.image.svn.toNat < s.por.fusedSvn + 1 then ⟨s, dsOutOfRange, 0, none⟩
    else ⟨s.withPor (fun p => { p with fusedSvn := p.fusedSvn + 1 }), dsOk, 0, none⟩))

/-! ## Activation (R455, Table 19-6) -/

/-- A saveable job that has its team again but not its state yet, stopped and saved as it is (R455): the team is free. -/
def State.stillSaved (s : State) (j : Job) : State :=
  j.team.foldl (fun t k => if (t.cluster k).holder = some j.id then t.modCluster k (fun c => { c with holder := none }) else t) s
/-- Steps 2 and 3, once the profile is saved: fetch and admission pause, and the saveable jobs that hold their teams are stopped. -/
def State.activationStep (s : State) : State :=
  match s.boot.activation with
  | none => s
  | some a =>
    if a.paused || s.profileBusy then s
    else
      let s := s.withBoot (fun b => { b with activation := some { a with paused := true } })
      let s := (s.hub.jobs.filter (fun j => decide (j.phase = .saved) && s.saveable j a.bank)).foldl State.stillSaved s
      (s.hub.jobs.filter (fun j => decide (j.phase = .running) && s.saveable j a.bank)).foldl (fun t j => t.raiseStop j .activation) s
/-- An activation begins; before READY there is no profile to save. -/
def State.activationBegin (s : State) (t : Word) (b : Nat) : State :=
  let s := s.withBoot (fun y => { y with activation := some { ticket := t, bank := b } })
  (if s.boot.ready then s.ledgerPut .profile else s).activationStep
/-- Whether a bank is the one that runs. -/
def State.bankRuns (s : State) (b : Nat) : Bool := decide (b = s.boot.fwBank) && !s.boot.recovery
/-- FW_ACTIVATE. One that comes while another runs waits for its turn (log 44). -/
def State.fwActivate (s : State) : State :=
  s.serveWrite (fun i u => decide (i = 0x0204 ∧ u = 5)) (fun s f r bs =>
    let b := leNat bs
    let x := s.fwImage b
    if 2 ≤ b ∨ x.stage ≠ fwVerified ∨ s.bankRuns b then ⟨s, dsOutOfRange, 0, none⟩
    else if x.pinBars (s.dv 0x0210 3) then ⟨s, dsEpoch, 0, none⟩
    else s.accept f r bs (fun s t => if s.boot.activation.isSome then s else s.activationBegin t b))
/-- The activations that waited for one that has ended take their turns: one whose bank runs by then ends with OK, one whose bank is no
longer VERIFIED with OUT_OF_RANGE, one whose image lacks the pinned epoch with EPOCH_UNAVAILABLE (R59), and the first other begins
(log 44). -/
def State.activationNext (s : State) : State :=
  (s.por.cmds.filter (fun c => decide (c.index = 0x0204 ∧ c.sub = 5))).foldl (fun t c =>
    let b := leNat c.params
    if t.boot.activation.isSome then t
    else if t.bankRuns b then t.endCmd c.ticket dsOk 0 0
    else if (t.fwImage b).stage ≠ fwVerified then t.endCmd c.ticket dsOutOfRange 0 0
    else if (t.fwImage b).pinBars (t.dv 0x0210 3) then t.endCmd c.ticket dsEpoch 0 0
    else t.activationBegin c.ticket b) s
/-- Whether step 5 may begin: the saveable jobs are saved or wait, and no other exists. -/
def State.activationReady (s : State) (a : Activation) : Bool :=
  a.paused && !s.hub.sweeping && s.hub.jobs.all (fun j => s.saveable j a.bank &&
    (decide (j.phase = .waiting) || (decide (j.phase = .saved) && decide (s.heldClusters j = []))))
/-- The values in effect under a new image (R438): those in effect stay, but an entry that it no longer defines leaves effect, and one
that it is the first to define takes its value under R437, the records skipped before it counted. -/
def State.resolveNew (s old : State) : State :=
  ((entriesOf (dictAll.filter (fun e => decide (e.acc = .rw)))).filter (fun (i, u, _) => s.defines i u != old.defines i u)).foldl (fun t (i, u, e) =>
    let (v, skipped) := if s.defines i u then s.resolveOne i u e else (none, 0)
    t.withPor (fun p => { p with
      ledgerSkipped := p.ledgerSkipped + BitVec.ofNat 16 skipped
      vals := match v with
        | some v => mset p.vals (dKey i u) v
        | none => mdel p.vals (dKey i u) })) s
/-- PLCA_EN takes effect as the porter starts and at an activation (Table 18-8). -/
def State.takePlca (s : State) : State := s.withPor (fun p => { p with plca := decide (s.dv 0x0108 3 = 1) })
/-- The user view at an activation: the directory is built anew (R431). A view or a grant that the new image drops, or is the first to
define, takes its value as R438 says. -/
def State.viewAfter (s old : State) : State :=
  let moved := fun (i u : Nat) => s.defines i u != old.defines i u
  let s := if moved 0x19F0 1 then s.takeGrant else s
  if moved 0x1F08 1 || moved 0x1F08 2 then s.viewTake else s.viewBuild
/-- An activation ends without the new image: service resumes on the old one. -/
def State.activationFails (s : State) (a : Activation) (status : Nat) : State :=
  ((s.withBoot (fun b => { b with activation := none })).endCmd a.ticket status 0 0).activationNext
/-- Steps 5 to 7: the bank runs and is the boot bank; entries follow R438; PLCA_EN takes effect; the steward resumes from the saved
profile; the user view's directory is built anew. A porter that was in its ROM leaves it, and start-up goes on at step 4. An EPOCH_PIN
written while the activation waited is checked here too (R59): an image that lacks the epoch does not run (log 147). -/
def State.activationEnd (s : State) (a : Activation) : State :=
  if !s.activationReady a then s
  else if (s.fwImage a.bank).pinBars (s.dv 0x0210 3) then s.activationFails a dsEpoch
  else
    let rom := s.boot.recovery
    let old := s
    let s := s.withBoot (fun b => { b with activation := none, bootBank := a.bank, fwBank := a.bank, recovery := false })
    let s := (s.resolveNew old).takePlca
    let s := if s.boot.preparing && !s.defines 0x0202 2 then s.endRemoval else s
    let s := if rom then s.lockRoot else if s.boot.ready then s.seed.viewAfter old else s
    (s.endCmd a.ticket dsOk 0 0).activationNext
/-- FW_ACTIVATE_WAIT_EXPIRY: a job that is not saveable remains, and service resumes on the old image. -/
def State.activationExpiry (s : State) : State :=
  match s.boot.activation with
  | none => s
  | some a =>
    if a.paused && s.hub.jobs.any (fun j => !s.saveable j a.bank) then
      s.activationFails a dsJobsBusy
    else s
/-- LEDGER_WRITE_DONE (R434, R468, R416): a profile save or key write ends; what waited for the profile goes on. -/
def State.ledgerDone (s : State) (ok : Bool) : State :=
  match s.por.ledgerQueue with
  | .profile :: _ => ((s.ledgerEnd ok).activationStep).removalStep
  | .keys :: _ => s.ledgerEnd ok
  | _ => s

def execFwStageChunk (s : State) : Res := .next s.fwChunk
def execFwStageMem (s : State) : Res := .next s.fwStageMem
def execFwVerify (s : State) : Res := .next s.fwVerify
def execFwActivate (s : State) : Res := .next s.fwActivate
def execFwActivateWaitExpiry (s : State) : Res := .next s.activationExpiry
def execRollbackCommit (s : State) : Res := .next s.rollbackCommit
def execLedgerWriteDone (ok : Bool) (s : State) : Res := .next (s.ledgerDone ok)

end Sys2Proof.Machine
end

