-- ==== Sys2Proof/Machine/Security.lean ====
section
/-! DEFINITION. Operator keys (R467–R469), attestation (R465), the debug port (R474), and the handshakes and ends of sessions
(R470–R473). The standards' functions are free (log 3). -/

namespace Sys2Proof.Machine

def State.serialBytes (s : State) : List Byte := leBytes 8 s.serial

/-! ## Operator keys -/

def operatorKey (s : State) (slot : Nat) : List Byte := mget [] s.por.keys slot
/-- A key write is accepted: it acts at once, and a Ledger write of its own kind is queued (R468). -/
def State.keyWrite (s : State) (keys : AMap (List Byte)) : State :=
  (s.withPor (fun p => { p with keys := keys, keysPending := true })).ledgerPut .keys
/-- KEY_ENROL. -/
def State.keyEnrol (s : State) : State :=
  s.serveWrite (fun i u => decide (i = 0x1C18 ∧ u = 1)) (fun s _ _ bs =>
    let slot := par bs 0 1
    if slot = 0 ∨ 8 < slot ∨ operatorKey s slot ≠ [] then ⟨s, dsOutOfRange, 0, none⟩
    else ⟨s.keyWrite (mset s.por.keys slot ((bs.drop 8).take 1793)), dsOk, 0, none⟩)
/-- KEY_REVOKE: the sessions opened with the key that the slot held close once the response has been sent. -/
def State.keyRevoke (s : State) : State :=
  s.serveWrite (fun i u => decide (i = 0x1C18 ∧ u = 2)) (fun s _ _ bs =>
    let slot := leNat bs
    if slot = 0 ∨ 8 < slot then ⟨s, dsOutOfRange, 0, none⟩
    else ⟨(s.keyWrite (mdel s.por.keys slot)).withPor (fun p => { p with
      closeAfter := p.closeAfter ++ if operatorKey s slot = [] then [] else [operatorKey s slot] }), dsOk, 0, none⟩)

/-! ## Attestation (R465, Table 20-2) -/

/-- What LEDGER_MEASURE covers: entry section and key section; nothing where the Ledger is empty. -/
def State.ledgerMeasured (s : State) : List Byte :=
  match s.ledger with
  | none => []
  | some m => m.entrySection ++ fixLen m.keysLen (Config.keySection m.keys)
/-- FLAGS of the report. -/
def State.reportFlags (s : State) : Nat :=
  let b := fun (p : Bool) (i : Nat) => if p then 2 ^ i else 0
  b s.boot.fallback 0 + b (decide (1 ≤ s.por.debug)) 1 + b (decide (s.por.debug = 2)) 2 + b s.por.restorePending 3 + b s.por.keysPending 4 +
  b (decide (s.dv 0x0210 5 = 1)) 5
/-- Bytes 0 to 255 of the report. -/
def State.reportBody (s : State) (nonce : List Byte) : List Byte :=
  let im := s.image
  leBytes 2 1 ++ leBytes 1 3 ++ leBytes 1 s.reportFlags ++ leBytes 4 im.version.toNat ++ s.serialBytes ++ leBytes 2 im.epochCur.toNat ++
  leBytes 2 s.epochNow ++ leBytes 1 im.svn.toNat ++ leBytes 1 s.por.fusedSvn ++ leBytes 1 s.boot.fwBank ++ leBytes 1 s.por.keys.length ++
  leBytes 8 ((s.ledger.map LedgerImage.gen).getD 0) ++ fixLen 32 nonce ++ h512 (im.message im.bodyBytes) ++ h512 s.ledgerMeasured ++
  h512 ((s.factoryImage.map LedgerImage.layout).getD [])
/-- ATTEST_NONCE: the report is built in its slot. -/
def State.attest (s : State) : State :=
  s.serveWrite (fun i u => decide (i = 0x1C20 ∧ u = 1)) (fun s _ _ bs =>
    let slot := par bs 0 1
    if slot = 0 ∨ 8 < slot then ⟨s, dsOutOfRange, 0, none⟩
    else
      let (t, s) := s.stamp
      let body := s.reportBody (bs.drop 1)
      let sig := fixLen 1280 (Config.falconSign (strBytes "EOVOS-ATT" ++ body) t)
      ⟨s.withPor (fun p => { p with reports := mset p.reports slot (body ++ sig) }), dsOk, 0, none⟩)

/-! ## Debug (R474) -/

/-- The vendor key, which the running image carries (R461). -/
def State.vendorKey (s : State) : List Byte := s.image.vendorKey
/-- DEBUG_UNLOCK: each attempt replaces the challenge. -/
def State.debugUnlock (s : State) : State :=
  s.serveWrite (fun i u => decide (i = 0x1C28 ∧ u = 2)) (fun s _ _ bs =>
    let scope := par bs 0 1
    let ok := decide (scope = 1 ∨ scope = 2) && Config.falconVerify s.vendorKey
      (strBytes "EOVOS-DBG" ++ s.serialBytes ++ s.por.challenge ++ leBytes 1 scope) (bs.drop 8)
    let s := s.newChallenge
    if ok then ⟨s.withPor (fun p => { p with debug := scope }), dsOk, 0, none⟩ else ⟨s, dsOutOfRange, 0, none⟩)
/-- DEBUG_LOCK. -/
def State.debugLock (s : State) : State :=
  s.serveWrite (fun i u => decide (i = 0x1C28 ∧ u = 3)) (onTrue (fun s _ _ _ => ⟨s.withPor (fun p => { p with debug := 0 }), dsOk, 0, none⟩))

/-! ## Handshakes (R470, R471, Table 20-3) -/

/-- A session number that is not zero and not used since the porter started, from a random candidate. -/
def freshSession : Nat → Word → List Word → Word
  | 0, c, _ => c
  | n + 1, c, used => if c = 0 ∨ used.contains c then freshSession n (c + 1) used else c
/-- The frame being served, where it is a handshake frame of the kind. -/
def State.handshakeFrame (s : State) (kind : Nat) : Option InFrame :=
  if !s.boot.porterRuns then none
  else match s.por.current with
    | some f => if f.kind.toNat = kind then some f else none
    | none => none
/-- A payload larger than a field frame travels in frames of its own, MORE set but on the last (R470). -/
def shakeFrame (kind : Nat) (txn : Half) (num : Word) (more : Bool) (payload : List Byte) : List Byte :=
  frameHeader kind txn.toNat 0 num.toNat 0 payload.length more false ++ payload
def State.emitShake (s : State) (peer : Peer) (txn : Half) (kind : Nat) (num : Word) (payload : List Byte) : State :=
  if payload.length ≤ 1388 then s.sendField peer (shakeFrame kind txn num false payload)
  else (s.sendField peer (shakeFrame kind txn num true (payload.take 1388))).sendField peer (shakeFrame kind txn num false (payload.drop 1388))
/-- Handshake frames go out: over the field each on its own, in the mailbox one after the other in the response area (log 45). -/
def State.sendShakes (s : State) (f : InFrame) (num : Word) (frames : List (Nat × List Byte)) : State :=
  let s := s.withPor (fun p => { p with current := none })
  match f.path with
  | .field => (frames.foldl (fun t x => t.emitShake f.peer f.txn x.1 num x.2) s).nextFrame
  | .mailbox => (s.mailboxDone (frames.flatMap (fun x => shakeFrame x.1 f.txn num false x.2))).nextFrame
def State.shakeFail (s : State) (f : InFrame) (reason : Nat) : State := s.sendShakes f f.session [(0x15, [BitVec.ofNat 8 reason, 0, 0, 0])]
/-- HELLO: CHALLENGE and PORTER_SIG, or SESSION_FAIL. -/
def State.hello (s : State) : State :=
  match s.handshakeFrame 0x10 with
  | none => s
  | some f =>
    let slot := par f.payload 0 1
    if f.payload.length ≠ 1604 then s.shakeFail f 5
    else if operatorKey s slot = [] then s.shakeFail f 1
    else if 8 ≤ s.por.sessions.length then s.shakeFail f 2
    else
      let (q, s) := s.draw
      let num := freshSession (s.por.usedSessions.length + 2) (q.truncate 32) s.por.usedSessions
      let (nonce, s) := s.freshBytes 4
      let (t, s) := s.stamp
      let kem := Config.kemEncaps (f.payload.drop 36) t
      let challenge := nonce ++ fixLen 1568 kem.1
      let tr := h512 (strBytes "EOVOS-SES" ++ leBytes 1 (pathCode f.path) ++ s.serialBytes ++ f.payload ++ challenge ++ leBytes 4 num.toNat)
      let key := fixLen 32 (Config.kmac256 (fixLen 32 kem.2) tr (strBytes "PORTER-SESSION"))
      let (u, s) := s.stamp
      let sig := fixLen 1280 (Config.falconSign tr u)
      let s := s.withPor (fun p => { p with
        usedSessions := num :: p.usedSessions, shakes := p.shakes ++ [{ num := num, path := f.path, keySlot := slot, transcript := tr, key := key, txn := f.txn, peer := f.peer }] })
      s.sendShakes f num [(0x11, challenge), (0x12, sig)]
/-- CLIENT_SIG: the session opens, or the handshake fails; one that has ended answers TIMEOUT (log 45). -/
def State.clientSig (s : State) : State :=
  match s.handshakeFrame 0x13 with
  | none => s
  | some f =>
    match s.por.shakes.find? (fun h => decide (h.num = f.session ∧ h.path = f.path)) with
    | none => s.shakeFail f 4
    | some h =>
      let s := s.withPor (fun p => { p with shakes := p.shakes.filter (fun x => decide (x.num ≠ h.num)) })
      let key := operatorKey s h.keySlot
      if f.payload.length ≠ 1280 then s.shakeFail f 5
      else if key = [] then s.shakeFail f 1
      else if !Config.falconVerify key h.transcript f.payload then s.shakeFail f 3
      else if 8 ≤ s.por.sessions.length then s.shakeFail f 2
      else
        let x : Session := { num := h.num, path := h.path, opKey := key, key := h.key, inCtr := 0, outCtr := 0, kept := [], peer := f.peer }
        (s.withPor (fun p => { p with sessions := p.sessions ++ [x] })).sendShakes f h.num [(0x14, [0, 0, 0, 0])]
/-- CLOSE: the session closes; no frame answers it, and a mailbox request ends with BUSY and DONE clear (log 45). -/
def State.closeFrame (s : State) : State :=
  match s.handshakeFrame 0x16 with
  | none => s
  | some f =>
    let s := (s.withPor (fun p => { p with current := none })).closeSessions (fun x => decide (x.num = f.session ∧ x.path = f.path))
    match f.path with
    | .field => s.nextFrame
    | .mailbox => (s.withPor (fun p => { p with mbBusy := false })).signalMailbox.nextFrame
/-- The oldest HELLO whose second frame has not come ends with TIMEOUT; it has no session number yet (R471, log 45). -/
def State.helloTimeout (s : State) : State :=
  match s.por.partHellos with
  | [] => s
  | y :: rest =>
    let s := s.withPor (fun p => { p with partHellos := rest })
    match y.path with
    | .field => s.emitShake y.peer y.txn 0x15 0 [4, 0, 0, 0]
    | .mailbox => s
/-- HANDSHAKE_TIMEOUT: over the field it is told; the mailbox answers the next frame of it so. Session 0 is of a HELLO whose second frame
has not come. A stopped porter ends none (R493). -/
def State.shakeTimeout (s : State) (num : Word) : State :=
  if !s.boot.porterRuns then s
  else match s.por.shakes.find? (fun h => decide (h.num = num)) with
  | none => if num = 0 then s.helloTimeout else s
  | some h =>
    let s := s.withPor (fun p => { p with shakes := p.shakes.filter (fun x => decide (x.num ≠ num)) })
    match h.path with
    | .field => s.emitShake h.peer h.txn 0x15 num [4, 0, 0, 0]
    | .mailbox => s
/-- SESSION_IDLE_TIMEOUT; a stopped porter closes none (R493). -/
def State.sessionIdle (s : State) (num : Word) : State :=
  if !s.boot.porterRuns then s else s.closeSessions (fun x => decide (x.num = num))

def execKeyEnrol (s : State) : Res := .next s.keyEnrol
def execKeyRevoke (s : State) : Res := .next s.keyRevoke
def execAttestNonce (s : State) : Res := .next s.attest
def execDebugUnlock (s : State) : Res := .next s.debugUnlock
def execDebugLock (s : State) : Res := .next s.debugLock
def execHello (s : State) : Res := .next s.hello
def execClientSig (s : State) : Res := .next s.clientSig
def execClose (s : State) : Res := .next s.closeFrame
def execHandshakeTimeout (session : Word) (s : State) : Res := .next (s.shakeTimeout session)
def execSessionIdleTimeout (session : Word) (s : State) : Res := .next (s.sessionIdle session)

end Sys2Proof.Machine
end

