-- ==== Sys2Proof/Machine/Sweep.lean ====
section
/-! DEFINITION. The fault sweep (R376, R377, Table 15-11), the resets of the CXL port (R356, R447), and the add-reduce ports of a
cluster's control window (R357). -/

namespace Sys2Proof.Machine

/-! ## Detection (Table 15-11 step 1) -/

/-- Fence a core to which an uncorrectable error is attributed (R27); CORE_MASK loses it, and the fence is logged. A core is fenced
only in a cluster that no job holds, running or swapped out (R135): where its own job fault is the sweep's, once the sweep has freed the
cluster (log 152). -/
def State.fenceCore (s : State) (c : Nat) : State :=
  let k := clusterOf c
  let b : BitVec 16 := 1#16 <<< (c % 16)
  let before := s.tier
  if s.clusterHeld k || (s.cluster k).coreFence.getLsbD (c % 16) then s
  else
  ((s.modCluster k (fun x => { x with coreFence := x.coreFence ||| b })).logEvent 0 0 k (BitVec.ofNat 128 b.toNat)).noteTier before

/-- What a sweep's cause is, where this step is the one that meets it: an illegal word (R80), an uncorrectable error of a core
store (R68), of stacked memory (Table 6-4), of a room-table entry (R247), of a save area. Within a sweep an error is counted and logged
(R484) and starts no other sweep. A LOST room's entry keeps its REF and PIN (DESIGN CHOICE, log 238). -/
def State.detect (s : State) (cause : SweepCause) : State :=
  match cause with
  | .detected => s
  | .illegalWord k w => if (s.seqJob k).isSome && (seqDecode k w).isNone then s.seqFault k stIllegal else s
  | .coreStoreUe c =>
    let s := s.logEvent 1 0x43 (clusterOf c) 0
    if (s.holderJob (clusterOf c)).isSome then s.coreFault c stCstoreUe 0 0 else s
  | .coreMemUe c a => if (s.holderJob (clusterOf c)).isSome then s.coreAccFault c 0 (.ue a) else s
  | .seqMemUe k a => if (s.seqJob k).isSome then s.seqAccFault k (.ue a) else s
  | .roomEntryUe k x =>
    let s := if roomState (s.roomEntry x) = 2 then s
      else (s.setRoomState x 2).withMs (fun m => { m with
        roomsLost := m.roomsLost + 1, vacancy := m.vacancy.map (fun (v : Nat × Vacancy) => (v.1, { v.2 with free := v.2.free.erase x })) })
    (s.logEvent 1 0x44 k 0).seqFault k stMemUe
  | .saveUe id a => match s.job? id with
    | some j => if j.saveAreas.any (fun b => within a 1 b saveClusterBytes) then s.accFault (.ue a) (some id) 0xFF 0xFF 0 else s
    | none => s

/-! ## Rooms of fenced stacks (R247) -/

/-- The rooms whose stack is fenced and that are not LOST yet. -/
def State.roomsToLose (s : State) : List Nat :=
  (roomsFrom s.roomParts 0).flatMap (fun p =>
    if (s.stack (p.1 % 8)).fence ≠ 0 then p.2.filter (fun x => decide (roomState (s.roomEntry x) ≠ 2)) else [])
/-- The rooms that a stream's directory names, wherever it lies (log 138). -/
def State.namedRooms (s : State) (i : Nat) : List Nat :=
  ((s.dirEntries i).map (fun a => s.dirRead a 8)).filterMap (fun e => if dirState e = 0 then none else some (dirRoom e))
/-- Make them LOST; the directories are read, and streams that name one end with ROOMS_LOST, held or not. -/
def State.loseRooms (s : State) : State :=
  let lost := s.roomsToLose
  if lost = [] then s
  else
    let s := lost.foldl (fun t x => t.setRoomState x 2) s
    let s := s.withMs (fun m => { m with
      roomsLost := m.roomsLost + BitVec.ofNat 32 lost.length
      vacancy := m.vacancy.map (fun (v : Nat × Vacancy) => (v.1, { v.2 with free := v.2.free.filter (fun x => !lost.contains x) })) })
    let live := (s.hub.streams.map Prod.fst).filter (fun i => decide ((s.stream i).sstate = .held ∨ (s.stream i).sstate = .opened))
    let s := live.foldl State.dirDone s
    let hit := live.filter (fun i => (s.namedRooms i).any (fun x => lost.contains x))
    hit.foldl (fun t i => match (t.stream i).sstate with
      | .held => t.closeStream i stRoomsLost
      | .opened => (t.endRooms i).modStream i (fun r => { r with sstate := .ended, endCode := stRoomsLost })
      | _ => t) s

/-- Until no room is left to lose: reading the directories may itself fence a further stack (R161), of which there are eight. -/
def State.loseAll : Nat → State → State
  | 0, s => s
  | n + 1, s => if s.roomsToLose = [] then s else State.loseAll n s.loseRooms

/-! ## Steps 2 to 5 -/

/-- CANCELs that are fetched and whose target the sweep ends complete with it (R374). -/
def State.catchCancels (s : State) : State :=
  (List.range 64).foldl (fun t n => match (t.pair n).fetched with
    | some e => if eOp e = 2 ∧ eClean e = true ∧ (t.job? (eTarget e)).isSome = true then t.cancelEntry n e else t
    | none => t) s
/-- Every cluster is freed and zeroed, its user region too, the predictors cleared (R136, R304, R305, R369, Table 6-5), one under a
commanded BIST run with them, whose run goes on (R480). -/
def State.sweepCluster (s : State) (k : Nat) : State :=
  let s := (s.zeroCluster k).modCluster k (fun c => { c with scache := c.scache.zero s.scUser scEnd })
  (coresOf k).foldl (fun t c => t.modCore c (fun x => { x with predictors := [] })) s

/-- FAULT_SWEEP: what steps 2 to 5 of Table 15-11 do. -/
def State.sweep (s : State) : State :=
  let s := s.catchCancels
  let s := State.loseAll 9 s
  let s := (s.hub.jobs.map Job.id).foldl (fun t id => t.sweepJobRefs id) s
  let s := s.withNet (fun n => { n with ops := [], early := [], keys := [], retired := [], relays := [], xheld := [] })
  let s := s.dropHeldCtrl (fun _ => true)
  let s := { s with car := { s.car with
    slots := s.car.slots.map (fun (p : Nat × Slot) => (p.1, { p.2.vacate with got := [], rewrite := [], refs := 0 })), adapterRefs := [], trainable := [] } }
  let s := s.withMs (fun m => { m with vacancy := m.vacancy.map (fun (v : Nat × Vacancy) => (v.1, { v.2 with booked := 0, parked := [] })) })
  let s := s.abandonRolling (fun _ => true)
  let s := (List.range 12).foldl (fun t k => t.sweepCluster k) s
  s.withHub (fun h => { h with swept := true })

def State.faultSweep (s : State) (cause : SweepCause) : State :=
  let s := s.detect cause
  let s := if s.hub.sweeping && !s.hub.swept then s.sweep else s
  match cause with
  | .coreStoreUe c => s.fenceCore c
  | _ => s

/-! ## The CXL port goes down (R356) -/

/-- Every job on the module is cancelled, no completion entry is written. -/
def State.cancelAll (s : State) : State :=
  (s.hub.jobs.map Job.id).foldl (fun t id => match t.job? id with
    | some j => ((t.releaseJob j (some stCancelled) true).dropJob id).withHub (fun h => { h with cancelled := h.cancelled + 1 })
    | none => t) s
/-- Every job on the module is swept, no completion entry is written. One whose references the sweep has released is gone with no more. -/
def State.dropSwept (s : State) : State :=
  (s.hub.jobs.map Job.id).foldl (fun t id => match t.job? id with
    | some j => (if j.phase = .ended then t else t.sweepJobRefs id).dropJob id
    | none => t) s
/-- The jobs' end at a reset of the CXL port (R356). In a fault sweep, and where releasing them starts one, they and their streams end with
the sweep's status (R23, R24). -/
def State.endAllJobs (s : State) : State :=
  if s.hub.sweeping then s.dropSwept
  else
    let t := s.cancelAll
    if t.hub.sweeping then s.dropSwept else t
/-- Every job ends without an entry, every pair goes OFF, BAR0's registers stand at their defaults. A request that the porter has
taken from the mailbox is answered still (log 36). -/
def State.cxlReset (s : State) : State :=
  let s := s.endAllJobs
  let s := s.withHub (fun h => { h with pairs := [], turn := 0, msixTable := msixReset, msixPending := 0, cxlRegs := {}, flrPending := false })
  let s := (List.range 12).foldl (fun t k => t.modCluster k (fun c => { c with addOff := 0 })) s
  (s.withPor (fun p => { p with reqArea := {}, respArea := [], mbBusy := false, mbDone := false, mbResult := false })).removalStep
/-- The link is down: what the host may hold of lines is gone with it (log 36). -/
def State.linkDown (s : State) : State :=
  ((s.withBoot (fun b => { b with cxlUp := false })).withMs (fun m => { m with snoop := [], snoopShared := [], snoopWait := [] })).cxlReset

/-- FUNCTION_LEVEL_RESET: in a sweep it takes effect after step 7 (R377); a loss of the link does not wait. -/
def State.functionReset (s : State) : State :=
  if !s.hostReaches then s else if s.hub.sweeping then s.withHub (fun h => { h with flrPending := true }) else s.cxlReset
/-- CXL_LINK_LOSS; a cause inside the module is a service stop (R456). -/
def State.linkLoss (s : State) (inside : Bool) : State :=
  if !s.boot.cxlUp then s else (if inside then s.serviceStop 0 else s).linkDown
def State.perstAssert (s : State) : State :=
  let t := s.withBoot (fun b => { b with perst := true })
  if s.boot.cxlUp then t.linkDown else t
/-- CXL_LINK_UP (R447): PERST_N is deasserted and step 4 has ended. -/
def State.linkUp (s : State) : State :=
  if s.boot.perst || !s.pwr.rootLocked || !s.boot.vin then s else s.withBoot (fun b => { b with cxlUp := true })

/-! ## Steps 6 and 7 -/

/-- SWEEP_COMPLETE: a stack fenced since the sweep's step 2 has its rooms lost within this sweep (R161, R247). Then the completion
entries in admission order, the cause for the job that raised it and SWEPT for the others. -/
def State.sweepComplete (s : State) : State :=
  if !(s.hub.sweeping && s.hub.swept) then s
  else
    let s := State.loseAll 9 s
    let s := (s.hub.jobs.map Job.id).foldl (fun t id => match t.job? id with
      | some j => t.closeJob j (if s.hub.sweepJob = some id then s.hub.sweepCause else stSwept)
      | none => t) s
    let s := s.withHub (fun h => { h with sweeping := false, swept := false, sweepJob := none })
    if s.hub.flrPending then s.cxlReset else s

/-! ## The add-reduce ports (R166, R357) -/

/-- Bytes of the user region of a shared cache (R164). -/
def State.userBytes (s : State) : Nat := scEnd - s.scUser
/-- A 4-byte write to an add-reduce port (R357, Table 6-6). -/
def State.addReduce (s : State) (k : Nat) (f : Nat → Nat) (off : Nat) : State :=
  let o := (s.cluster k).addOff.toNat
  let abort := (s.emit (.completerAbort off)).logNote 0 k (BitVec.ofNat 128 off)
  if !s.hostReaches then s
  else if s.blockGone (blkCluster k) = true ∨ o % 4 ≠ 0 ∨ s.userBytes < o + 4 then abort
  else (s.scWrite k (s.scUser + o) 4 (f (s.scRead k (s.scUser + o) 4) % 2 ^ 32)).countAtomic k

def execFaultSweep (cause : SweepCause) (s : State) : Res := .next (s.faultSweep cause)
def execSweepComplete (s : State) : Res := .next s.sweepComplete
def execFunctionLevelReset (s : State) : Res := .next s.functionReset
def execCxlLinkLoss (inside : Bool) (s : State) : Res := .next (s.linkLoss inside)
def execPerstAssert (s : State) : Res := .next s.perstAssert
def execPerstDeassert (s : State) : Res := .next (s.withBoot (fun b => { b with perst := false }))
def execCxlLinkUp (s : State) : Res := .next s.linkUp
def execAddReduceFp32 (k : ClusterId) (v : Word) (s : State) : Res :=
  .next (s.addReduce k (fun old => toF32 (fadd (ofF32 old) (ofF32 v.toNat))) (0x1000000 + k.val * 0x100000 + 0x1008))
def execAddReduceInt32 (k : ClusterId) (v : Word) (s : State) : Res :=
  .next (s.addReduce k (fun old => old + v.toNat) (0x1000000 + k.val * 0x100000 + 0x100C))

end Sys2Proof.Machine
end

