-- ==== Sys2Proof/Machine/Startup.lean ====
section
/-! DEFINITION. Power-up, start-up and what brings a reset (R443–R451, R459, R493, R496; Tables 19-2, 19-4, 19-5). -/

namespace Sys2Proof.Machine

/-! ## The porter starts (R454, R437, steps 2 and 3 of Table 19-2) -/

/-- Run a bank's image. -/
def State.runBank (s : State) (b : Nat) (fallback : Bool) : State :=
  s.withBoot (fun x => { x with fwBank := b, recovery := false, fallback := fallback })
/-- The ROM verifies the boot bank's image, then the other's; with neither it stays in RECOVERY. -/
def State.bootImage (s : State) : State :=
  let b := s.boot.bootBank
  let s := s.fwSetStage b
  if (s.fwImage b).stage = fwVerified then s.runBank b false
  else
    let s := s.fwSetStage (1 - b)
    if (s.fwImage (1 - b)).stage = fwVerified then s.runBank (1 - b) true
    else s.withBoot (fun x => { x with fwBank := b, recovery := true, fallback := false })
/-- What the porter loses as it starts: its sessions, the log and the results with its memory; the porter scope of debug is locked
(R449, R473, R474, R484). It reads ADDR_STRAP, whose wiring is the surroundings' own and free at each start (R492, log 98). -/
def State.porterFresh (s : State) : State :=
  let (q, s) := s.draw
  let s := s.withBoot (fun b => { b with strap := q.setWidth 5 })
  (s.withPor (fun p => { p with
    current := none, inbox := [], mbBusy := false, sessions := [], shakes := [], partHellos := [], usedSessions := [], closeAfter := [], results := []
    reports := [], log := [], logSeq := 0, alertPin := false, alertSeq := 0, debug := if p.debug = 2 then 1 else p.debug
    nodeId := s.boot.strap })).newChallenge
/-- The start after power-on: every value is resolved, and ROOT locks where an image runs (steps 2 to 4). -/
def State.porterBoot (s : State) : State :=
  let s := (s.bootImage.porterFresh.resolve).takePlca
  (s.withBoot (fun b => { b with porterStarted := true, porterRuns := true, resetCause := 0, resetDetail := 0 })).lockRoot

/-- POWER_UP: 52 V enters its range; the porter starts where the reference is present. -/
def State.powerUp (s : State) : State :=
  if s.boot.vin then s
  else
    let s := (s.withBoot (fun b => { b with vin := true })).ringsThrough
    if s.boot.refclk then s.porterBoot else s
/-- REFERENCE_RETURN (R493): the porter starts, or goes on, and ROOT locks. -/
def State.refReturn (s : State) : State :=
  if s.boot.refclk then s
  else
    let s := s.withBoot (fun b => { b with refclk := true })
    if !s.boot.vin then s
    else if !s.boot.porterStarted then s.porterBoot
    else (s.withBoot (fun b => { b with porterRuns := true })).lockRoot

/-! ## Resets (R449, R459) -/

/-- MODULE_RESET (R459): the reset starts once the response has been sent. -/
def State.moduleReset (s : State) : State :=
  s.serveWrite (fun i u => decide (i = 0x0202 ∧ u = 1)) (onTrue (fun s _ _ _ =>
    ⟨s.withBoot (fun b => { b with resetAfter := true }), dsOk, 0, none⟩))
/-- POWER_FAULT (R411), while standby power holds. -/
def State.powerFault (s : State) (cause : Byte) : State :=
  if !s.boot.vin || !s.boot.porterStarted || decide (cause = 0 ∨ 5 < cause.toNat) then s else s.enterReset 0xF1 cause
/-- ROOT_UNLOCK (R401, R493): a lost reference takes the porter with it until it returns, so neither the field network nor the mailbox
answers for longer than 500 ms (log 200): one service stop, with what the reset takes down (R456). -/
def State.rootUnlock (s : State) (refLost : Bool) : State :=
  let counted := s.pwr.rootLocked && (s.boot.cxlUp || s.ringOpen)
  let s := if s.pwr.rootLocked then s.enterReset 0xF0 0 else s
  let before := s.tier
  let s := if refLost && s.boot.refclk && s.boot.porterRuns && !counted then s.serviceStop 0xF0 else s
  if refLost && s.boot.refclk then
    ((s.withBoot (fun b => { b with refclk := false, porterRuns := false })).withPwr (fun p => { p with rootLocked := false })).noteTier before
  else s

/-! ## Start-up after step 4 (R445, R446) -/

/-- Whether the units start: ROOT is locked, and start-up has not ended. -/
def State.starting (s : State) : Bool := s.boot.vin && s.pwr.rootLocked && s.boot.inReset
/-- HUBS_READY (step 5): the D0 hub is ready, and where it was ready before, the D1 hub (log 192); without the D1 hub the units of D1 do
not serve (R443, R445). -/
def State.hubsReady (s : State) : State :=
  if s.starting then s.withBoot (fun b => { b with hub0 := true, hub1 := b.hub1 || b.hub0 }) else s
/-- Whether there are stored training values of a stack (R446): those that the porter kept from its last full training since standby power
came on, else the factory ledger's. -/
def State.trainingValues (s : State) (m : Nat) : Bool := s.boot.keptTraining.getLsbD m || s.factoryImage.isSome
/-- STACK_TRAINED (steps 6 and 7): a trained stack is zeroed with valid check bits, a failed one FENCED_TRAINING. Without stored values
the training was a full one. -/
def State.stackTrained (s : State) (m : Nat) (how : Training) : State :=
  let how := if how = .stored ∧ s.trainingValues m = false then .full else how
  if !s.starting || (s.stack m).trained || decide ((s.stack m).fence ≠ 0) then s
  else match how with
    | .failed => (s.modStack m (fun x => { x with training := 2 })).fenceStack m 1
    | .stored => (s.modStack m (fun x => { x with training := 0, trained := true })).memZero (m * 2 ^ 37) (2 ^ 37)
    | .full =>
      let s := (s.modStack m (fun x => { x with training := 1, trained := true })).memZero (m * 2 ^ 37) (2 ^ 37)
      s.withBoot (fun b => { b with keptTraining := b.keptTraining ||| (1#8 <<< m) })
/-- An erase that a power loss cut restarts, and ends (R200). -/
def State.finishErase (s : State) (i : Nat) : State :=
  if (s.slot i).state = .erasing ∧ s.por.cmds.any (fun c => decide (c.index = 0x0930 ∧ c.sub = 5 ∧ par c.params 0 1 = i)) = false then
    s.freeSlot i
  else s
/-- FLASH_TRAINED (step 8): the channels of the mask are FENCED_TRAINING. -/
def State.flashTrained (s : State) (failed : BitVec 128) : State :=
  if !s.starting || s.boot.flashReady then s
  else
    let s := ((List.range 128).filter (fun c => failed.getLsbD c)).foldl (fun t c => t.fenceFlash c 1) s
    let s := (List.range 16).foldl (fun t i => t.finishErase i) s
    s.withBoot (fun b => { b with flashReady := true })

/-! ## Step 9 (R445) -/

/-- A step past its bound fences the units it was for. -/
def State.fenceLate (s : State) : State :=
  let s := (List.range 8).foldl (fun t m => if (t.stack m).trained ∨ (t.stack m).fence ≠ 0 then t
    else (t.modStack m (fun x => { x with training := 2 })).fenceStack m 1) s
  if s.boot.flashReady then s else (List.range 128).foldl (fun t c => t.fenceFlash c 1) s
/-- Each unit whose bit is set in BIST_FENCES is fenced (R482, Table 21-2). -/
def State.bistFence (s : State) : State :=
  let v := s.dv 0x1800 6
  let on := fun (lo n : Nat) => (List.range n).filter (fun i => bit v (lo + i))
  let note := fun (s : State) (unit : Nat) => s.logEvent 0 0 unit 0
  let s := (on 192 12).foldl (fun (t : State) k => note (t.modCluster k (fun c => { c with fencedBist := true })) k) s
  let s := (List.range 12).foldl (fun (t : State) k =>
    if bits v (16 * k + 15) (16 * k) = 0 then t
    else note (t.modCluster k (fun c => { c with
      coreFence := c.coreFence ||| BitVec.ofNat 16 (bits v (16 * k + 15) (16 * k)), bistCores := BitVec.ofNat 16 (bits v (16 * k + 15) (16 * k)) })) k) s
  let s := (on 204 8).foldl (fun (t : State) m => if (t.stack m).fence ≠ 0 then t else t.fenceStack m 3) s
  let s := (on 212 8).foldl (fun (t : State) g => (List.range 16).foldl (fun (t : State) i =>
    if (t.flashCh (16 * g + i)).fence ≠ 0 then t else t.fenceFlash (16 * g + i) 2) t) s
  let s := (on 220 8).foldl (fun (t : State) p => note (t.modPort p (fun x => { x with fencedBist := true, state := .fenced })) (0x30 + p)) s
  (on 228 4).foldl (fun (t : State) e =>
    note { t with enc := { t.enc with fencedBist := t.enc.fencedBist ||| (1#4 <<< e) } } (0x40 + e)) s

/-- A pool as its entries give it. -/
def State.poolOf (s : State) (p : Nat) : Pool :=
  { size := s.dv (0x0D10 + p) 1, base := (List.range 8).map (fun m => s.dv (0x0D10 + p) (2 + m))
    rooms := (List.range 8).map (fun m => s.dv (0x0D10 + p) (10 + m)) }
/-- The rooms that a pool has: a stack that is fenced, or whose die's hub does not run, contributes none (R247, R443). Its part is checked as
every other is (R227; DEDUCED, log 211). -/
def State.poolServed (s : State) (p : Pool) : Pool :=
  { p with rooms := (List.range 8).map (fun m => if (s.stack m).fence = 0 ∧ s.hubOf (dieOfStack m) = true then p.roomsOf m else 0) }
/-- A pool's parts with rooms: stack, base, bytes. -/
def Pool.parts (p : Pool) : List (Nat × Nat × Nat) :=
  (List.range 8).filterMap (fun m => if p.roomsOf m = 0 then none
    else some (m, p.baseOf m, vacBytes (p.roomsOf m) + p.roomsOf m * roomBytes p.size))
def Pool.total (p : Pool) : Nat := ((List.range 8).map p.roomsOf).sum
/-- Alignment and place of each part (R227). -/
def Pool.placed (p : Pool) : Bool := p.parts.all (fun q => decide (q.2.1 % 2048 = 0) && within q.2.1 q.2.2 (q.1 * 2 ^ 37) (2 ^ 37))
/-- The pools that serve, in order: each keeps its place and overlaps no lower one that serves. -/
def servePools : List (Nat × Pool) → List (Nat × Pool) → List (Nat × Pool)
  | [], done => done
  | (i, p) :: rest, done =>
    let clear := p.parts.all (fun q => done.all (fun d => decide (d.2.state ≠ 1) || d.2.parts.all (fun r => !meets q.2.1 q.2.2 r.2.1 r.2.2)))
    let st := if p.size = 0 then 0 else if p.placed && clear then 1 else 2
    servePools rest (done ++ [(i, { p with state := st })])
/-- The pools of highest number are refused until the rest fit the limit. -/
def fitPools (limit : Nat) : Nat → List (Nat × Pool) → List (Nat × Pool)
  | 0, ps => ps
  | n + 1, ps =>
    if ((ps.filter (fun p => decide (p.2.state = 1))).map (fun p => p.2.total)).sum ≤ limit then ps
    else fitPools limit n (match (ps.filter (fun p => decide (p.2.state = 1))).getLast? with
      | some (i, _) => ps.map (fun p => if p.1 = i then (p.1, { p.2 with state := 2 }) else p)
      | none => ps)
/-- Latch SC_ROOM_MIB, the clusters that are not fenced and whose die's hub runs (R443), the pools and their vacancy lists (R164, R226–R228). With
no room table every pool is REFUSED. DESIGN CHOICE (log 237): the lists stand in a field of their own, and the VAC_BYTES of a part keep what
memory holds, since the spec gives them no format. -/
def State.setPools (s : State) : State :=
  let mib := s.dv 0x0801 4
  let ks := (List.range 12).filter (fun k => !(s.cluster k).fenced && s.hubOf (dieOfCluster k))
  let cap := min (2 ^ 24) (if mib = 0 then 0 else ks.length * (mib * 131072 - 8192))
  let ps := (servePools ((List.range 4).map (fun p => (p, s.poolOf p))) []).map (fun (p : Nat × Pool) => (p.1, s.poolServed p.2))
  let ps := if mib = 0 then ps.map (fun (p : Nat × Pool) => (p.1, { p.2 with state := if p.2.size = 0 then 0 else 2 })) else fitPools cap 4 ps
  let s := s.withMs (fun m => { m with scRoomMib := mib, roomClusters := ks, pools := ps, vacancy := [] })
  let lists := (roomsFrom s.roomParts 0).map (fun p => (p.1, ({ free := p.2 } : Vacancy)))
  s.withMs (fun m => { m with vacancy := lists })

/-- The clusters are zeroed (R369); what their user regions hold is unspecified. -/
def State.freshCluster (s : State) (k : Nat) : State :=
  let (t, s) := s.stamp
  s.modCluster k (fun c => { c with scache := ({} : Mem).forget s.scUser scEnd t })
/-- WINDOW_STATE of a slot at the end of start-up (R503). -/
def State.windowAtStart (s : State) (i : Nat) : State :=
  let sl := s.slot i
  let w := if sl.state ≠ .sealed ∨ sl.configured = false then 0
    else if (stacksOf (s.winBase i) (s.winLen i)).any (fun m => !s.stackServes m) then 2
    else if s.windowValid i then 1 else 0
  s.modSlot i (fun x => { x with window := w })
/-- START_READY (steps 9 and 10). A hub that is not ready has passed its bound, and the module goes on without it; without the D0 hub it
is free whether the D1 hub is ready (log 192). Fences, pools, clusters, enables, steward, windows and view; the module is READY, and a ring
persisted JOINED joins. -/
def State.startReady (s : State) : State :=
  if !s.starting then s
  else
    let (q, s) := s.draw
    let s := if s.boot.hub0 then s else s.withBoot (fun b => { b with hub1 := b.hub1 || bit q.toNat 0 })
    let s := (s.fenceLate.bistFence).setPools
    let s := (List.range 12).foldl (fun t k => t.freshCluster k) s
    let on := (List.range 40).filter (fun b => bit (s.dv 0x0410 1) b)
    let s := on.foldl (fun t b => t.setBlock b 1) s
    let (q, s) := s.draw
    let s := s.withBoot (fun b => { b with ready := true, inReset := false, startMs := q.truncate 32 })
    let s := s.seed
    let s := (List.range 16).foldl (fun t i => t.windowAtStart i) s
    let s := s.takeGrant.viewTake
    [0, 1].foldl (fun t r =>
      let t := t.bypassDone r
      (if t.dv (0x1020 + r) 1 = 1 ∧ t.canJoin r = true then t.startJoin r else t).selfTested r) s

/-! ## Standby power and the porter (R449–R451, R496) -/

/-- STANDBY_POWER_LOSS: what is left is what the flash, the NOR, the fuses and the latches hold. -/
def State.powerLoss (s : State) : State :=
  let s := s.por.cmds.foldl (fun (t : State) c => match slotWriteOf c with
    | some w => let (n, t) := t.stamp; t.modSlot w.slot (fun x => { x with stream := x.stream.forget w.off (w.off + w.len) n })
    | none => if c.stages then t.cutStage c else t) s
  let s := s.ledgerCut.ringsThrough
  { State.reset with
    car := { s.car.inFlash with slots := s.car.inFlash.slots.map (fun (p : Nat × Slot) => (p.1, { p.2 with sealing := false, configured := false })) }
    net := { rings := ringsKept false s.net.rings }
    por := { bank0 := s.por.bank0, bank1 := s.por.bank1, factory := s.por.factory, ledgerWrites := s.por.ledgerWrites, fusedSvn := s.por.fusedSvn }
    boot := { refclk := s.boot.refclk, perst := s.boot.perst, strap := s.boot.strap, banks := s.boot.banks, bootBank := s.boot.bootBank }
    draws := s.draws, out := s.out, pending := s.pending }

/-- The porter resolves its own entries as it starts; those of the hubs stay (R437, R449). -/
def State.resolvePorter (s : State) : State :=
  let t := s.resolve
  let keep := s.por.vals.filter (fun e => !porterHolds (e.1 / 256))
  let own := t.por.vals.filter (fun e => porterHolds (e.1 / 256))
  { s with por := { t.por with vals := keep.foldl (fun m e => mset m e.1 e.2) own } }
/-- The commands that end with the porter: those of its Ledger and its firmware. -/
def RunCmd.ofPorter (c : RunCmd) : Bool := decide (c.index = 0x1F00) || decide (c.index = 0x0204)
/-- The user view after the porter's entries resolved anew: where USER_VIEW_BASE or USER_VIEW_BYTES reads otherwise than before, the view is
taken as they name it, as at the end of start-up (R431, log 119). -/
def State.viewFollow (s old : State) : State :=
  if s.boot.ready && (decide (s.dv 0x1F08 1 ≠ old.dv 0x1F08 1) || decide (s.dv 0x1F08 2 ≠ old.dv 0x1F08 2)) then s.takeGrant.viewTake else s
/-- PORTER_RESTART: the porter starts from ROM; hubs, jobs and the bypass latch go on. A FW_STAGE_MEM under way is cut. A RING_AUTO_BYPASS that resolves to TRUE finds a
port of its ring that is DOWN by a local fault (R330). -/
def State.porterRestart (s : State) : State :=
  if !s.boot.porterRuns then s
  else
    let s := (s.por.cmds.filter RunCmd.stages).foldl State.cutStage s
    let s := s.ledgerCut.withPor (fun p => { p with cmds := p.cmds.filter (fun c => !c.ofPorter) })
    let s := s.withBoot (fun b => { b with activation := none, resetAfter := false })
    [0, 1].foldl State.autoBypass ((s.bootImage.porterFresh.resolvePorter).takePlca.viewFollow s)

def execPowerUp (s : State) : Res := .next s.powerUp
def execReferenceReturn (s : State) : Res := .next s.refReturn
def execHubsReady (s : State) : Res := .next s.hubsReady
def execStackTrained (m : StackId) (how : Training) (s : State) : Res := .next (s.stackTrained m how)
def execFlashTrained (failed : BitVec 128) (s : State) : Res := .next (s.flashTrained failed)
def execStartReady (s : State) : Res := .next s.startReady
def execModuleReset (s : State) : Res := .next s.moduleReset
def execPowerFault (cause : Byte) (s : State) : Res := .next (s.powerFault cause)
def execRootUnlock (refLost : Bool) (s : State) : Res := .next (s.rootUnlock refLost)
def execStandbyPowerLoss (s : State) : Res := .next s.powerLoss
def execPorterRestart (s : State) : Res := .next s.porterRestart

end Sys2Proof.Machine
end

