-- ==== Sys2Proof/Machine/Dictionary.lean ====
section
/-! DEFINITION. The dictionary's frames and writes (R421–R429), and the ends of commands that answered ACCEPTED (R424). -/

namespace Sys2Proof.Machine

/-- PORTER_FRAME_RECEIVE: a datagram over the field network; one to UDP port 5411 at the porter's link-local address or at ff02::1 is
taken in its turn (R420). -/
def State.fieldFrame (s : State) (d : Datagram) : State :=
  let all := decide (d.dst.addr = allNodes)
  if s.boot.porterRuns && decide (d.dst.port = porterPort) && (all || decide (d.dst.addr = s.linkLocal)) then
    s.frameArrives ⟨.field, all, d.src, d.bytes⟩
  else s

/-! ## DICT_WRITE -/

/-- Entries whose writes have a command of their own. -/
def ownWrite (i u : Nat) : Bool :=
  decide (i = 0x0930 ∧ 1 ≤ u ∧ u ≤ 6) || decide (i = 0x0920 ∧ 1 ≤ u) || (decide (0x0910 ≤ i ∧ i < 0x0920) && decide (7 ≤ u ∧ u ≤ 9)) ||
  decide (i = 0x0A00 ∧ (u = 2 ∨ u = 3)) || decide (i = 0x0C0C ∧ (u = 1 ∨ u = 2)) || decide (i = 0x0D30 ∧ u = 1) ||
  decide (i = 0x0E00 ∧ (u = 1 ∨ u = 2 ∨ u = 3 ∨ u = 5)) || decide (i = 0x0E10 ∧ u = 1) || decide ((i = 0x1020 ∨ i = 0x1021) ∧ u = 1) ||
  decide (i = 0x1030 ∧ (u = 1 ∨ u = 2 ∨ u = 3)) || decide (i = 0x1110 ∨ i = 0x1111) || decide (i = 0x1410 ∧ (u = 1 ∨ u = 2)) ||
  decide (i = 0x0410 ∧ u = 1) || decide (i = 0x0401 ∧ 1 ≤ u ∧ u ≤ 3) || decide (i = 0x0518 ∧ (u = 1 ∨ u = 2)) ||
  decide (i = 0x0202 ∧ (u = 1 ∨ u = 2)) || decide (i = 0x0204 ∧ (u = 1 ∨ u = 2 ∨ u = 3 ∨ u = 5)) || decide (i = 0x1C00 ∧ u = 4) ||
  decide (i = 0x1C18 ∧ (u = 1 ∨ u = 2)) || decide (i = 0x1C20 ∧ u = 1) || decide (i = 0x1C28 ∧ (u = 2 ∨ u = 3)) ||
  decide (i = 0x1F00 ∧ (u = 1 ∨ u = 2)) || decide (i = 0x1F08 ∧ (u = 1 ∨ u = 2)) || decide (i = 0x1800 ∧ u = 1) || decide (i = 0x1808 ∧ u = 4)

/-- Why a fitting value is refused still: what its entry's rule asks of other values and of the module's state (R58, R193, R249, R379,
R487; Tables 2-5, 7-10, 8-8, 17-8). ADAPTER_TABLE_BASE answers ADAPTER_BUSY while an entry is LOADED or DRAINING (DESIGN CHOICE, log 172). -/
def State.writeRefused (s : State) (i u v : Nat) : Option Nat :=
  let no := fun (p : Bool) (st : Nat) => if p then some st else none
  match i, u with
  | 0x0210, 3 => no (decide (v ≠ 0 ∧ v ≠ s.image.epochCur.toNat ∧ v ≠ s.image.epochPrev.toNat)) dsOutOfRange
  | 0x0510, 2 => no (decide (s.dv 0x0510 3 < v)) dsOutOfRange
  | 0x0510, 3 => no (decide (v < s.dv 0x0510 2)) dsOutOfRange
  | 0x0901, 3 => no (decide (s.dv 0x0901 4 < v)) dsOutOfRange
  | 0x0901, 4 => no (decide (v < s.dv 0x0901 3)) dsOutOfRange
  | 0x0A00, 1 => no (decide (s.adaptersLoaded ≠ 0)) dsAdapterBusy
  | 0x0C00, 1 => no (decide (s.hub.jobs ≠ [])) dsJobsBusy
  | 0x0D00, 1 => no s.roomsHeld dsRoomsBusy
  | 0x0D00, 2 => no s.roomsHeld dsRoomsBusy
  | 0x1140, 1 => no (decide (s.dv 0x1140 2 < v)) dsOutOfRange
  | 0x1140, 2 => no (decide (v < s.dv 0x1140 1)) dsOutOfRange
  | 0x19F0, 1 => no (decide (s.hub.jobs ≠ [])) dsJobsBusy
  | _, _ => none
/-- What a value in effect sets off at once: RING_AUTO_BYPASS written TRUE finds a port of its ring that is DOWN by a local fault
(R330). -/
def State.afterWrite (s : State) (i u : Nat) : State :=
  if (i = 0x1020 ∨ i = 0x1021) ∧ u = 3 then s.autoBypass (i - 0x1020) else s
/-- DICT_WRITE: the value is in effect at once, or reads back and applies when its rule says (R429). Reserved bits of BIST_FENCES
read zero; bits [7:5] of COUNTER_GRANT are kept (DESIGN CHOICE, log 193). A written ADAPTER_TABLE_BASE clears nothing: the entries are what the
bytes found there spell (DESIGN CHOICE, log 210). -/
def State.dictWrite (s : State) : State :=
  s.serveWrite (fun i u => !ownWrite i u) (fun s _ r bs =>
    let v := if r.index = 0x1800 ∧ r.sub = 6 then leNat bs % 2 ^ 232 else leNat bs
    match s.writeRefused r.index r.sub v with
    | some st => ⟨s, st, 0, none⟩
    | none => ⟨(s.setDv r.index r.sub v).afterWrite r.index r.sub, dsOk, 0, none⟩)

/-! ## ASYNC_COMMAND_END (R424) -/

/-- A SLOT_WRITE's end (R198): all its bytes are programmed and verified, or its source could not be read beyond a prefix. -/
def State.slotWriteEnd (s : State) (c : RunCmd) (w : SlotWrite) (how : CmdEnd) : State :=
  match how with
  | .done =>
    if w.source = 1 then (if c.arrivedPrefix = w.len then s.endSlotWrite c dsOk w.len else s)
    else if s.readable w.addr w.len = w.len then (s.programFrom w w.len).endSlotWrite c dsOk w.len else s
  | .sourceUe k =>
    if w.source = 1 then s
    else
      let n := min (s.readable w.addr w.len) (k / 2048 * 2048)
      if n = w.len then s else (s.programFrom w n).endSlotWrite c dsSourceUe n
  | _ => s
/-- What a BULK_SEND of a slot counts as a codeword of its stream cannot be read: the codeword that stands next (R173). -/
def State.bulkLost (s : State) (c : RunCmd) (b : BulkSend) : State :=
  let sl := s.slot b.slot
  let w := (b.addr + c.progress) / 4096
  (s.countTries sl w (s.cwTries sl w false 0)).cwLost b.slot w
/-- The codewords a BULK_SEND of a slot has read again, and how often (R173). -/
def State.bulkTries (s : State) (b : BulkSend) (rs : List (Nat × Nat)) : State :=
  rs.foldl (fun t p => t.countTries (s.slot b.slot) p.1 (s.cwTries (s.slot b.slot) p.1 true p.2)) s
/-- A BULK_SEND's end (R324): its last flit has left, or its source could not be read on; a slot's stream too (log 158). -/
def State.bulkEnd (s : State) (c : RunCmd) (b : BulkSend) (how : CmdEnd) : State :=
  let idle := decide ((s.port b.port).bulkLeft = 0) || (match s.bulkOn b.port with
    | some (d, _) => decide (d.ticket ≠ c.ticket)
    | none => true)
  match how with
  | .done => if c.progress = b.len ∧ idle = true then s.endCmd c.ticket dsOk 0 b.len else s
  | .sourceUe _ =>
    if c.progress < b.len ∧ idle = true then
      let t := s.endCmd c.ticket dsSourceUe 0 c.progress
      if b.source = 0 then t.sourceDone (b.addr + c.progress) 0 (b.len - c.progress) else t.bulkLost c b
    else s
  | .unreadable ws rs =>
    if b.source = 0 ∨ idle = false then s
    else if ws = [] then (if c.progress = b.len then (s.bulkTries b rs).endCmd c.ticket dsOk 0 b.len else s)
    else if c.progress < b.len then ((s.bulkTries b rs).endCmd c.ticket dsSourceUe 0 c.progress).bulkLost c b else s
  | _ => s
/-- A command of the Ledger ends where its turn has come (R434). -/
def State.ledgerCmdEnd (s : State) (c : RunCmd) (how : CmdEnd) : State :=
  let mine := match s.por.ledgerQueue with
    | .commit t :: _ => decide (t = c.ticket)
    | .restore t _ :: _ => decide (t = c.ticket)
    | _ => false
  match how with
  | .done => if mine then s.ledgerEnd true else s
  | .ledgerFault => if mine then s.ledgerEnd false else s
  | _ => s
/-- ASYNC_COMMAND_END: the command of the ticket ends as its own rule says. A self-test's end is BIST_RUN_END. -/
def State.commandEnd (s : State) (ticket : Word) (how : CmdEnd) : State :=
  if !s.boot.porterRuns then s
  else match s.cmd? ticket with
    | none => s
    | some c => match slotWriteOf c, bulkSendOf c, c.index, c.sub with
      | some w, _, _, _ => s.slotWriteEnd c w how
      | none, some b, _, _ => s.bulkEnd c b how
      | none, none, 0x0930, 3 => (match how with
        | .done => s.sealEnd c [] []
        | .unreadable ws rs => s.sealEnd c ws rs
        | _ => s)
      | none, none, 0x0930, 5 => if how = .done then s.eraseEnd c else s
      | none, none, 0x1F00, _ => s.ledgerCmdEnd c how
      | none, none, 0x0204, 2 => (match how with
        | .done => s.fwStageMemEnd c none
        | .sourceUe k => s.fwStageMemEnd c (some k)
        | _ => s)
      | none, none, 0x0204, 3 => if how = .done then s.fwVerifyEnd c else s
      | none, none, 0x0204, 5 => (match s.boot.activation with
        | some a => if how = .done ∧ a.ticket = ticket then s.activationEnd a else s
        | none => s)
      | _, _, _, _ => s

def execPorterFrameReceive (bytes : List Byte) (path : Peer × Peer) (s : State) : Res := .next (s.fieldFrame ⟨path.1, path.2, bytes⟩)
def execDictWrite (s : State) : Res := .next s.dictWrite
def execAsyncCommandEnd (ticket : Word) (how : CmdEnd) (s : State) : Res := .next (s.commandEnd ticket how)

end Sys2Proof.Machine
end

