-- ==== Sys2Proof/Machine/HostMem.lean ====
section
/-! DEFINITION. Stacked memory as the host and the scrubber reach it (06): CXL.mem reads and writes, back-invalidation responses,
the patrol scrub (R158–R160, R168–R170, R184, R409). -/

namespace Sys2Proof.Machine

/-! ## The HDM decoder (R168, R355) -/

/-- Offset of the base of HDM decoder 0 in the CXL component registers, as CXL 3.1 lays the decoder out (log 122). -/
def hdmOff : Nat := 0x1210
/-- The decoder's base, a multiple of 256 MiB, as a number of lines of host-physical memory. -/
def State.hdmBase (s : State) : Nat :=
  (bits (s.hub.cxlRegs.readLE hdmOff 4) 31 28 * 2 ^ 28 + s.hub.cxlRegs.readLE (hdmOff + 4) 4 * 2 ^ 32) / 64
/-- Lines of the HDM-DB range: 1 TiB. -/
def hdmLines : Nat := 0x400000000
/-- The device line of a host-physical line: its address minus the base; none outside the range, which the module does not claim. -/
def State.hdmLine (s : State) (hpa : Nat) : Option Nat :=
  if s.hdmBase ≤ hpa ∧ hpa < s.hdmBase + hdmLines then some (hpa - s.hdmBase) else none

/-- Lines the snoop filter holds (R169). -/
def snoopMax : Nat := 4194304

/-- Grant the host a line, which it may then hold modified: a full filter evicts its oldest entry first (R169). -/
def State.grantLine (s : State) (line : Nat) : State :=
  if s.ms.snoop.contains line then s.withMs (fun m => { m with snoopShared := m.snoopShared.filter (fun l => decide (l ≠ line)) })
  else
    let s := match s.ms.snoop with
      | old :: _ => if snoopMax ≤ s.ms.snoop.length then s.snoopInv (64 * old) 64 else s
      | [] => s
    s.withMs (fun m => { m with snoop := m.snoop ++ [line] })

/-- The poisoned granules of a range, each an uncorrectable error of its stack where it is read (R160, R161). -/
def State.countPoison (s : State) (a n : Nat) : State :=
  (s.ms.poison.filter (fun g => meets a n (32 * g) 32)).foldl (fun t g => t.countUe (32 * g)) s

/-- What a host read does in the stacks: single-bit errors are corrected and counted, those of the line's other granule too where one is
poisoned, repeats are made, the bytes are counted (R156, R157, R488). -/
def State.hostReadDone (s : State) (a : Nat) : State := ((stacksOf a 64).foldl State.useParity (s.countFlips a 64)).countRead a 64
/-- HOST_MEM_READ of a host-physical line: the 64 bytes, with CXL poison where they meet an uncorrectable error or a fenced stack;
an OFF stack answers Completer Abort (R158, R168, R409). -/
def State.hostRead (s : State) (hpa : Nat) : State :=
  match s.hdmLine hpa with
  | none => s
  | some line =>
    if !s.hostReaches then s
    else
      let a := 64 * line
      let data : Desc := BitVec.ofNat 512 (s.ms.mem.readLE a 64)
      match s.rangeErr a 64 with
      | some .bus => (s.emit (.completerAbort a)).logNote 0 0xFF (BitVec.ofNat 128 a)
      | some (.ue _) => ((s.grantLine line).emit (.cxlData line data true)).countUe a
      | none => match s.poisonIn a 64 with
        | some _ => (((s.hostReadDone a).grantLine line).emit (.cxlData line data true)).countPoison a 64
        | none => ((s.hostReadDone a).grantLine line).emit (.cxlData line data false)

/-- The bytes that a write with byte enables changes, from an address up. -/
def enabled (data : Desc) (be : Quad) : List (Nat × Byte) :=
  (List.range 64).filterMap (fun i => if be.getLsbD i then some (i, data.extractLsb' (8 * i) 8) else none)
/-- Whether a write covers part of a poisoned granule. -/
def State.partPoison (s : State) (a : Nat) (be : Quad) : Option Nat :=
  s.ms.poison.find? (fun g =>
    let i := 32 * g - a
    let m := be.toNat / 2 ^ i % 2 ^ 32
    decide (a ≤ 32 * g) && decide (32 * g < a + 64) && decide (m ≠ 0) && decide (m ≠ 2 ^ 32 - 1))

/-- A write of a host that lands: bytes and marks; a granule written whole is fresh, one written in part is read, corrected and
counted first (R154, R156, R160). -/
def State.hostPut (s : State) (a : Nat) (bs : List (Nat × Byte)) (be : Quad) : State :=
  let whole := fun (g : Nat) => decide (a ≤ 32 * g) && decide (32 * g < a + 64) && decide (be.toNat / 2 ^ (32 * g - a) % 2 ^ 32 = 2 ^ 32 - 1)
  let hit := fun (g : Nat) => bs.any (fun b => decide ((a + b.1) / 32 = g))
  let s := (s.ms.flips.filter (fun g => hit g && !whole g)).foldl
    (fun t g => t.modStack (addrStack (32 * g)) (fun x => { x with ce := x.ce + 1 })) s
  let s := s.withMs (fun m => { m with
    mem := bs.foldl (fun x b => x.write (a + b.1) b.2) m.mem
    poison := m.poison.filter (fun g => !whole g), flips := m.flips.filter (fun g => !hit g) })
  (stacksOf a 64).foldl State.useParity (s.countWritten a bs.length)

/-- HOST_MEM_WRITE of a host-physical line: dropped and logged in a protected range, on a fenced stack, or over part of a poisoned
granule (R158, R184, R193, R372, R431); a transfer that fails its repeats is dropped, logged and counted (R157). -/
def State.hostWrite (s : State) (hpa : Nat) (data : Desc) (be : Quad) : State :=
  match s.hdmLine hpa with
  | none => s
  | some line =>
    if !s.hostReaches then s
    else
      let a := 64 * line
      let bs := enabled data be
      let drop := fun (s : State) => (s.emit (.cxlDone line)).logNote 0 (0x10 + addrStack a) (BitVec.ofNat 128 a)
      match s.rangeErr a 64 with
      | some .bus => (s.emit (.completerAbort a)).logNote 0 0xFF (BitVec.ofNat 128 a)
      | some (.ue _) => if (s.stack (addrStack a)).fence = 0 then (drop s).countUe a else drop s
      | none =>
        if bs.any (fun b => s.isProtected (a + b.1) 1) then drop s
        else match s.partPoison a be with
          | some g => (drop s).countUe (32 * g)
          | none => (s.hostPut a bs be).emit (.cxlDone line)

/-- BISNP_RESPONSE: the first wait for the host-physical line is over. -/
def State.snoopAnswered (s : State) (hpa : Nat) : State :=
  match s.hdmLine hpa with
  | some line => s.withMs (fun m => { m with snoopWait := m.snoopWait.erase line })
  | none => s

def scrubUnits : Nat := 524288
/-- Device address of a granule (Table 6-2). -/
def granuleAddr (m unit ch g : Nat) : Nat := m * 2 ^ 37 + unit * 2 ^ 18 + ch * 2 ^ 11 + g * 32

/-- Granules of a unit that its transfer loses: none, or one, whichever, where the repeats for its parity do not suffice (R157). -/
def State.scrubLost (s : State) (m : Nat) : List Nat × State :=
  if s.retryLimit < mget 0 s.ms.parity m then
    let (q, s) := s.draw
    ([q.toNat % 64], s)
  else ([], s.useParity m)
/-- PATROL_SCRUB of one channel's next unit: what was corrected is counted, and the unit is then written back whole (R159, R488); what was
not is poisoned and counted; a granule that is poisoned already is an uncorrectable error again (R156, R157, R160). -/
def State.scrub (s : State) (m ch : Nat) (corrected bad : List (Fin 64)) : State :=
  if !s.stackServes m || decide (s.dv 0x0801 2 = 0) then s
  else
    let unit := mget 0 s.ms.scrubPos (128 * m + ch)
    let (lost, s) := s.scrubLost m
    let s := s.countRead (granuleAddr m unit ch 0) 2048
    let old := (List.range 64).filter (fun g => s.isPoisoned (granuleAddr m unit ch g / 32))
    let mended := ((List.range 64).filter (fun g => s.ms.flips.contains (granuleAddr m unit ch g / 32)) ++ corrected.map Fin.val).eraseDups
    let s := s.withMs (fun x => { x with
      scrubPos := mset x.scrubPos (128 * m + ch) ((unit + 1) % scrubUnits)
      flips := x.flips.filter (fun g => !mended.any (fun i => decide (g = granuleAddr m unit ch i / 32))) })
    let s := s.modStack m (fun x => { x with ce := x.ce + BitVec.ofNat 64 mended.length })
    let s := if mended.isEmpty then s else s.countWritten (granuleAddr m unit ch 0) 2048
    let ues := (old ++ bad.map Fin.val ++ lost).eraseDups
    ues.foldl (fun t g =>
      let a := granuleAddr m unit ch g
      (t.withMs (fun x => { x with poison := if x.poison.contains (a / 32) then x.poison else x.poison ++ [a / 32] })).countUe a) s

def execHostMemRead (line : BitVec 46) (s : State) : Res := .next (s.hostRead line.toNat)
def execHostMemWrite (line : BitVec 46) (data : Desc) (be : Quad) (s : State) : Res := .next (s.hostWrite line.toNat data be)
def execBisnpResponse (line : BitVec 46) (s : State) : Res := .next (s.snoopAnswered line.toNat)
def execPatrolScrub (m : StackId) (ch : ChannelId) (corrected bad : List (Fin 64)) (s : State) : Res :=
  .next (s.scrub m ch corrected bad)

end Sys2Proof.Machine
end

