-- ==== Sys2Proof/Machine/PortCmds.lean ====
section
/-! DEFINITION. The commands of the optical ports, the ring bypass and the exchange (13, 14), each by its operation. -/

namespace Sys2Proof.Machine

def execFrameReceive (p : PortId) (f : PortFrame) (s : State) : Res := .next (s.frameReceive p f)
def execFrameTransmit (p : PortId) (s : State) : Res := .next (s.frameTransmit p)
def execCreditReturnRecv (p : PortId) (s : State) : Res := .next (s.creditReturn p)
def execPeerIdentityRecv (p : PortId) (s : State) : Res := .next (s.peerIdentity p)
def execPortTrain (p : PortId) (s : State) : Res := .next (s.portTrain p)
def execPortTrainTimeout (p : PortId) (s : State) : Res := .next (s.trainTimeout p)
def execLaneCdrLoss (p : PortId) (lane : Fin 16) (s : State) : Res := .next (s.cdrLoss p lane)
def execLaneSerWindow (p : PortId) (errs : List Nat) (s : State) : Res := .next (s.serWindow p errs)
def execPortLocalFault (p : PortId) (s : State) : Res := .next (s.localFault p)
def execPortRetrainTimer (p : PortId) (s : State) : Res := .next (s.portRetrain p)
/-- A leave that a removal waits for goes on with its ports (R458). -/
def execPortDrainTimeout (p : PortId) (s : State) : Res := .next (s.drainTimeout p)
def execPortDrained (p : PortId) (s : State) : Res := .next (s.portDrained p)
def execBulkStarvation (p : PortId) (s : State) : Res := .next (s.bulkStarved p)
def execBulkMigrationRecv (p : PortId) (s : State) : Res := .next (s.migrationRecv p)
def execBulkSend (s : State) : Res := .next s.bulkSend
def execPortFence (s : State) : Res := .next s.portFence
def execPortUnfence (s : State) : Res := .next s.portUnfence
def execRingJoin (s : State) : Res := .next s.ringJoin
def execRingLeave (s : State) : Res := .next s.ringLeave
/-- The switch has moved; a removal that waited for it goes on (R458). -/
def execBypassMoveDone (r : RingId) (s : State) : Res := .next (s.bypassDone r).removalStep
def execExchMessageReceive (src : ExchSource) (s : State) : Res := .next (s.exchReceive src)
def execReduceSegment (d : Fin 2) (tag : Word) (xseq : Half) (s : State) : Res := .next (s.reduceSegment d tag xseq)
def execRelayForward (group : Byte) (step : Half) (blockLog : Nat) (s : State) : Res := .next (s.relayForward group.toNat step blockLog)
def execXbarArriveRecv (p : PortId) (s : State) : Res := .next (s.xbarArrive p)
def execXbarReleaseRecv (p : PortId) (s : State) : Res := .next (s.xbarRelease p)
def execXbarAbortRecv (p : PortId) (s : State) : Res := .next (s.xbarAbort p)
def execExchStallTimer (d : Fin 2) (tag : Word) (xseq : Half) (s : State) : Res := .next (s.exchStall d tag xseq)
def execRouteEntryWrite (s : State) : Res := .next s.routeWrite

end Sys2Proof.Machine
end

