-- ==== Sys2Proof/Machine/Registers.lean ====
section
/-! DEFINITION. BAR0 (R357, R358, R430, R486; Tables 15-2 to 15-4, 21-6): its writes, the mailbox doorbell, and what its offsets read
as. -/

namespace Sys2Proof.Machine

/-! ## Queue-pair records (Table 15-4) -/

def qstateCode : PairState → Nat
  | .off => 0
  | .on => 1
  | .draining => 2
def Pair.record (p : Pair) : Nat :=
  p.sqBase.toNat + p.cqBase.toNat * 2 ^ 64 + p.sqLog.toNat * 2 ^ 128 + p.cqLog.toNat * 2 ^ 132 + p.vector.toNat * 2 ^ 136 +
  p.coalCount.toNat * 2 ^ 144 + p.coalTime.toNat * 2 ^ 152 + (if p.enable then 2 ^ 168 else 0) + qstateCode p.qstate * 2 ^ 169 +
  p.sqHead.toNat * 2 ^ 176 + p.cqTail.toNat * 2 ^ 192
/-- The fields that software writes. -/
def Pair.withRecord (p : Pair) (v : Nat) : Pair :=
  { p with
    sqBase := BitVec.ofNat 64 (bits v 63 0), cqBase := BitVec.ofNat 64 (bits v 127 64), sqLog := BitVec.ofNat 4 (bits v 131 128)
    cqLog := BitVec.ofNat 4 (bits v 135 132), vector := BitVec.ofNat 6 (bits v 141 136), coalCount := BitVec.ofNat 8 (bits v 151 144)
    coalTime := BitVec.ofNat 16 (bits v 167 152) }
/-- A write of n bytes into pair k's record (R358): an OFF pair takes its fields, and goes ON where ENABLE is set over a good record;
of an ON pair, a write that clears ENABLE drains it; every other write is ignored. -/
def State.pairWrite (s : State) (k off n v : Nat) : State :=
  let p := s.pair k
  let old := p.record
  let new := putBits old (8 * (off + n) - 1) (8 * off) v
  match p.qstate with
  | .off =>
    if bit new 168 then
      let t := (s.modPair k (fun x => x.withRecord new)).qpEnable k
      if (t.pair k).enable then t else s.logNote 0 0xFF (BitVec.ofNat 128 k)
    else s.modPair k (fun x => x.withRecord new)
  | .on => if bit new 168 then s else s.qpDisable k
  | .draining => s

/-! ## The mailbox (R430) -/

/-- MB_DOORBELL: the request area's frame is submitted; while BUSY is set the doorbell is ignored and logged. -/
def State.mbDoorbell (s : State) : State :=
  if !s.hostReaches || !s.boot.porterRuns then s
  else if s.por.mbBusy then s.logNote 0 0xFF 0
  else
    let h := s.por.reqArea.readLE 0 32
    let bytes := s.por.reqArea.readBytes 0 (32 + bits h 175 160 + (if bit h 48 then 32 else 0))
    (s.withPor (fun p => { p with mbBusy := true, mbDone := false, mbResult := false })).frameArrives ⟨.mailbox, false, {}, bytes⟩

/-! ## CXL component registers (Table 15-2: access per CXL 3.1; the layout is the standard's, log 122) -/

/-- What a word of the component registers reads beside what is stored: the capability headers, RAS at 0x1100 and one HDM decoder at
0x1200. -/
def cxlFixed (w : Nat) : Nat := match w with
  | 0x1000 => 0x02110001
  | 0x1004 => 0x10020002
  | 0x1008 => 0x20030005
  | _ => 0
/-- The bits of a word that software writes: RAS masks and severity, the decoder's global control, base, size, control and skip. -/
def cxlWritable (w : Nat) : Nat := match w with
  | 0x1104 | 0x1108 => 0x1FFFF
  | 0x1110 => 0x7F
  | 0x1204 => 0x3
  | 0x1210 | 0x1218 | 0x1224 => 0xF0000000
  | 0x1214 | 0x121C | 0x1228 => 0xFFFFFFFF
  | 0x1220 => 0x33FF
  | _ => 0
/-- The bits of a word that a one clears: the RAS error states. -/
def cxlCleared (w : Nat) : Nat := match w with
  | 0x1100 => 0x1FFFF
  | 0x110C => 0x7F
  | _ => 0
/-- Whether the decoder is committed and locked: its registers take no more writes. -/
def cxlLocked (m : Mem) (w : Nat) : Bool := decide (0x1210 ≤ w ∧ w < 0x122C) && bit (m.readLE 0x1220 4) 8 && bit (m.readLE 0x1220 4) 9
/-- A write to one word: read-only bits stay, a one clears an error state. -/
def cxlWrite (m : Mem) (w v : Nat) : Mem :=
  if cxlLocked m w then m
  else
    let old := m.readLE w 4
    m.writeLE w 4 (old - (old &&& cxlWritable w) - (old &&& v &&& cxlCleared w) + (v &&& cxlWritable w))
/-- A word as it reads; a decoder that commits is committed. -/
def cxlRead (m : Mem) (w : Nat) : Nat :=
  cxlFixed w + m.readLE w 4 + (if w = 0x1220 ∧ bit (m.readLE w 4) 9 = true then 2 ^ 10 else 0)

/-! ## REGISTER_WRITE (R357) -/

/-- The block that a window of a cluster or of counters is gated by (Tables 15-2, 21-6). -/
def gateOf (off : Nat) : Option Nat :=
  if 0x1000000 ≤ off ∧ off < 0x1C00000 then some (blkCluster ((off - 0x1000000) / 0x100000))
  else if 0x2000000 ≤ off ∧ off < 0x2006000 then some (blkCluster ((off - 0x2000000) / 0x80 / 16))
  else if 0x2010000 ≤ off ∧ off < 0x2010C00 then some (blkCluster ((off - 0x2010000) / 0x100))
  else if 0x2011000 ≤ off ∧ off < 0x2011200 then some (blkPort ((off - 0x2011000) / 0x40))
  else if 0x2012000 ≤ off ∧ off < 0x2012180 then
    let i := (off - 0x2012000) / 8
    some (if i < 16 then blkPort (i % 8) else if i < 32 then blkStack (i % 8) else blkFlash (i % 8))
  else if 0x2800000 ≤ off ∧ off < 0x28C0000 then some (blkCluster ((off - 0x2800000) / 0x10000))
  else none
/-- An access to a window whose block is OFF, or on a die whose hub does not run (R357, R409, R443). -/
def State.gatedOff (s : State) (off : Nat) : Bool :=
  match gateOf off with
  | some b => s.blockGone b
  | none => false
/-- A write to the MSI-X table; a vector that is unmasked sends its pending message. The layout is PCI's (PRESUMED, log
22); bits [31:1] of a vector control word are reserved, so they read zero and ignore writes (R8). -/
def State.msixWrite (s : State) (off n v : Nat) : State :=
  let k := off / 16
  let was := bit (s.hub.msixTable.readLE (16 * k + 12) 4) 0
  let s := s.withHub (fun h =>
    let m := h.msixTable.writeLE off n v
    { h with msixTable := m.writeLE (16 * k + 12) 4 (m.readLE (16 * k + 12) 4 % 2) })
  let now := bit (s.hub.msixTable.readLE (16 * k + 12) 4) 0
  if was && !now && s.hub.msixPending.getLsbD k then
    (s.withHub (fun h => { h with msixPending := h.msixPending &&& ~~~(1#64 <<< k) })).emit (.msix k)
  else s
/-- A write of n bytes to a register. -/
def State.regWrite (s : State) (off n v : Nat) : State :=
  if s.gatedOff off then (s.emit (.completerAbort off)).logNote 0 0xFF (BitVec.ofNat 128 off)
  else if 0x1000 ≤ off ∧ off < 0x2000 then s.pairWrite ((off - 0x1000) / 64) ((off - 0x1000) % 64) n v
  else if 0x100000 ≤ off ∧ off < 0x140000 then
    (if off % 0x1000 = 0 then s.sqTail ((off - 0x100000) / 0x1000) (BitVec.ofNat 32 v)
     else if off % 0x1000 = 4 then s.cqHead ((off - 0x100000) / 0x1000) (BitVec.ofNat 32 v) else s)
  else if 0x200000 ≤ off ∧ off < 0x210000 then s.withHub (fun h => { h with cxlRegs := cxlWrite h.cxlRegs (off - 0x200000) v })
  else if off = 0x300000 then (if bit v 0 then s.mbDoorbell else s)
  else if 0x300040 ≤ off ∧ off < 0x302000 then
    (if s.por.mbBusy then s else s.withPor (fun p => { p with reqArea := p.reqArea.writeLE (off - 0x300040) n v }))
  else if 0x400000 ≤ off ∧ off < 0x400400 then s.msixWrite (off - 0x400000) n v
  else if 0x1000000 ≤ off ∧ off < 0x1C00000 then
    let k := (off - 0x1000000) / 0x100000
    let r := (off - 0x1000000) % 0x100000
    if r = 0x1000 then s.modCluster k (fun c => { c with addOff := BitVec.ofNat 32 v })
    else if r = 0x1008 then s.addReduce k (fun old => toF32 (fadd (ofF32 old) (ofF32 (v % 2 ^ 32)))) off
    else if r = 0x100C then s.addReduce k (fun old => old + v) off else s
  else s
/-- REGISTER_WRITE of 4 or 8 bytes. Outside the queue-pair records, a write of 8 bytes is two of 4, the lower first; a misaligned one
is ignored (log 46). -/
def State.registerWrite (s : State) (off : Nat) (v : Quad) (wide : Bool) : State :=
  if !s.hostReaches || decide (off % (if wide then 8 else 4) ≠ 0) then s
  else if !wide then s.regWrite off 4 (v.toNat % 2 ^ 32)
  else if 0x1000 ≤ off ∧ off < 0x2000 then s.regWrite off 8 v.toNat
  else (s.regWrite off 4 (v.toNat % 2 ^ 32)).regWrite (off + 4) 4 (v.toNat / 2 ^ 32)

/-! ## What BAR0 reads as -/

/-- CLUSTER_STATUS (R357). -/
def State.clusterStatus (s : State) (k : Nat) : Nat :=
  s.clusterState k + s.block (blkCluster k) * 4 + (s.coreMask k).toNat * 16 + (if (s.cluster k).rolling then 2 ^ 20 else 0)
/-- DEV_STATUS (Table 15-3). -/
def State.devStatus (s : State) : Nat :=
  (if s.boot.ready then 1 else 0) + s.tier * 2 + (if s.hub.sweeping then 16 else 0)
def mbStatus (p : Porter) : Nat := (if p.mbBusy then 1 else 0) + (if p.mbDone then 2 else 0) + (if p.mbResult then 4 else 0)
/-- The number that the 8 bytes at an aligned offset of BAR0 read as; reserved and write-only offsets read zero. An access to a
window whose block is OFF completes with Completer Abort instead, and has no value. -/
def State.bar0Read (s : State) (off : Nat) : Option Nat :=
  if s.gatedOff off then none
  else some (
    if off < 0x1000 then
      (match off with
       | 0x000 => s.devStatus
       | 0x008 => s.hub.completionSeq.toNat
       | 0x010 => s.hub.sweeps.toNat % 2 ^ 32
       | 0x018 => s.hub.jobs.length
       | 0x020 => s.pacing.toNat
       | _ => 0)
    else if off < 0x2000 then let r := off % 64; bits (s.pair ((off - 0x1000) / 64)).record (8 * r + 63) (8 * r)
    else if 0x200000 ≤ off ∧ off < 0x210000 then cxlRead s.hub.cxlRegs (off - 0x200000) + cxlRead s.hub.cxlRegs (off - 0x200000 + 4) * 2 ^ 32
    else if off = 0x300000 then mbStatus s.por * 2 ^ 32
    else if 0x300040 ≤ off ∧ off < 0x302000 then s.por.reqArea.readLE (off - 0x300040) 8
    else if 0x302000 ≤ off ∧ off < 0x304000 then leNat ((s.por.respArea.drop (off - 0x302000)).take 8)
    else if 0x400000 ≤ off ∧ off < 0x400400 then s.hub.msixTable.readLE (off - 0x400000) 8
    else if off = 0x401000 then s.hub.msixPending.toNat
    else if 0x1000000 ≤ off ∧ off < 0x1C00000 then
      let k := (off - 0x1000000) / 0x100000
      let r := (off - 0x1000000) % 0x100000
      if r = 0 then s.clusterStatus k else if r = 0x1000 then (s.cluster k).addOff.toNat else 0
    else if 0x2000000 ≤ off ∧ off < 0x2006000 then
      (mget 0 (s.core ((off - 0x2000000) / 0x80)).ctr ((off - 0x2000000) % 0x80 / 8 + 1)).toNat
    else if 0x2010000 ≤ off ∧ off < 0x2010C00 then
      (mget 0 (s.cluster ((off - 0x2010000) / 0x100)).ctr ((off - 0x2010000) % 0x100 / 8 + 1)).toNat
    else if 0x2011000 ≤ off ∧ off < 0x2011200 then (mget 0 s.por.portCtr (8 * ((off - 0x2011000) / 0x40) + (off - 0x2011000) % 0x40 / 8 + 1)).toNat
    else if 0x2012000 ≤ off ∧ off < 0x2012180 then (mget 0 s.por.bwLatched ((off - 0x2012000) / 8)).toNat
    else if off = 0x2012180 then s.por.windowSeq.toNat
    else if 0x2800000 ≤ off ∧ off < 0x28C0000 then
      let r := (off - 0x2800000) % 0x10000
      bits (mget 0 (s.cluster ((off - 0x2800000) / 0x10000)).sampleRing (r / 32)).toNat (8 * (r % 32) + 63) (8 * (r % 32))
    else 0)

/-- A read of BAR0 by the host: its number; of a window whose block is OFF, a Completer Abort, which is logged (R357). -/
def State.registerRead (s : State) (off : Nat) : Option Nat × State :=
  if !s.hostReaches then (none, s)
  else match s.bar0Read off with
    | some v => (some v, s)
    | none => (none, (s.emit (.completerAbort off)).logNote 0 0xFF (BitVec.ofNat 128 off))

/-! ## Configuration space (R356) -/

/-- What a configuration read of function 0 gives. -/
inductive ConfigAnswer where
  | retry
  | dword (v : Nat)
  deriving DecidableEq, Repr

/-- A configuration read: Request Retry Status until the hub is ready (R356, R447), then the identity of function 0 and the type of
its one 64-bit non-prefetchable BAR. What else the space holds is the CXL standard's, and reads zero here (log 122). -/
def State.configRead (s : State) (off : Nat) : ConfigAnswer :=
  if !s.hostReaches then .retry
  else .dword (match off with
    | 0x00 => s.factoryValue 0x0100 5 % 65536 + 0x9200 * 65536
    | 0x08 => 0x120000 * 256
    | 0x10 => 4
    | _ => 0)

def execMbDoorbell (s : State) : Res := .next s.mbDoorbell
def execRegisterWrite (off : BitVec 26) (v : Quad) (wide : Bool) (s : State) : Res := .next (s.registerWrite off.toNat v wide)

end Sys2Proof.Machine
end

