-- ==== Sys2Proof/Machine/TileCmds.lean ====
section
/-! DEFINITION. The commands of the cores: TILE_START and TILE_RETIRE, the families of Table 4-3 as their engines run them, and
what follows retirement. A family's command does the work of its running instruction; WAIT, POST and BAR are done where they
start, at the issue stage. -/

namespace Sys2Proof.Machine

/-- TILE_START (R72). -/
def execTileStart (c : CoreId) (s : State) : Res := .next (s.tileStart c)
/-- TILE_RETIRE (R73). -/
def execTileRetire (c : CoreId) (s : State) : Res := .next (s.tileRetire c)
/-- MMA (R112). -/
def execMma (c : CoreId) (s : State) : Res := .next (s.runMma c)
/-- MMA.LA (R114). -/
def execMmaLa (c : CoreId) (s : State) : Res := .next (s.runMmaLa c)
/-- MMA.RS (R115, R340). -/
def execMmaRs (c : CoreId) (s : State) : Res := .next (s.runMmaRs c)
/-- MMA.AG (R115, R340). -/
def execMmaAg (c : CoreId) (s : State) : Res := .next (s.runMmaAg c)
/-- ATTN.FWD (R116, R205). -/
def execAttnFwd (c : CoreId) (s : State) : Res := .next (s.runAttn c .attnFwd)
/-- ATTN.BWD (R116, R210). -/
def execAttnBwd (c : CoreId) (s : State) : Res := .next (s.runAttn c .attnBwd)
/-- ATTN.RELAY (R116, R218). -/
def execAttnRelay (c : CoreId) (s : State) : Res := .next (s.runRelay c)
/-- SFN (R117). -/
def execSfn (c : CoreId) (s : State) : Res := .next (s.runVector c .sfn sfnOf)
/-- NORM (R117). -/
def execNorm (c : CoreId) (s : State) : Res := .next (s.runVector c .norm normOf)
/-- SMAX (R117). -/
def execSmax (c : CoreId) (s : State) : Res := .next (s.runVector c .smax smaxOf)
/-- CROP (R118, R284). -/
def execCrop (c : CoreId) (s : State) : Res := .next (s.runVector c .crop cropOf)
/-- REUSE.CHK (R288). -/
def execReuseChk (c : CoreId) (s : State) : Res := .next (s.runReuse c)
/-- TAB_RESOLVE (R302). -/
def execTabResolve (c : CoreId) (s : State) : Res := .next (s.tabResolve c)
/-- TAB_LOG_RESTORE (R302, R303). -/
def execTabLogRestore (c : CoreId) (s : State) : Res := .next (s.tabLogRestore c)
/-- CONV (R119, R277). -/
def execConv (c : CoreId) (s : State) : Res := .next (s.runConv c .conv)
/-- CONV.DW (R119, R283). -/
def execConvDw (c : CoreId) (s : State) : Res := .next (s.runConv c .convDw)
/-- LINE_BUFFER_FILL (R274). -/
def execLineBufferFill (c : CoreId) (s : State) : Res := .next (s.lineFill c)
/-- MOVE (R120). -/
def execMove (c : CoreId) (s : State) : Res := .next (s.runMove c)
/-- GATH (R120). -/
def execGath (c : CoreId) (s : State) : Res := .next (s.runGath c)
/-- SCAT.KV (R233). -/
def execScatKv (c : CoreId) (s : State) : Res := .next (s.runScat c)
/-- TBL.LOAD (R256). -/
def execTblLoad (c : CoreId) (s : State) : Res := .next (s.runTblLoad c)
/-- MOVE.A2A (R341). -/
def execMoveA2a (c : CoreId) (s : State) : Res := .next (s.runMoveX c .moveA2a)
/-- MOVE.AR (R341). -/
def execMoveAr (c : CoreId) (s : State) : Res := .next (s.runMoveX c .moveAr)
/-- WAIT (R121). -/
def execWait (c : CoreId) (s : State) : Res := .next (s.startFam c .wait)
/-- POST (R121). -/
def execPost (c : CoreId) (s : State) : Res := .next (s.startFam c .post)
/-- BAR (R97, R121). -/
def execBar (c : CoreId) (s : State) : Res := .next (s.startFam c .bar)
/-- CHAIN_COMMIT (R132). -/
def execChainCommit (c : CoreId) (s : State) : Res := .next (s.chainCommit c)
/-- WEIGHT_TILE_READY (R28). -/
def execWeightTileReady (c : CoreId) (s : State) : Res := .next (s.weightReady c)
/-- TIER_DEADLINE_EXPIRY (R191). -/
def execTierDeadlineExpiry (c : CoreId) (s : State) : Res := .next (s.tierExpiry c)

end Sys2Proof.Machine
end

