-- ==== Sys2Proof/Machine/Dispatch.lean ====
section
/-! DEFINITION. The meaning of every command: one arm per constructor, each one direct call. -/

namespace Sys2Proof.Machine

def exec (i : Instr) (s : State) : Host.Outcome State Fault Refusal :=
  match i with
  | .aluAdd k gd ga gb => Sys2Proof.Machine.execAluAdd k gd ga gb s
  | .aluSub k gd ga gb => Sys2Proof.Machine.execAluSub k gd ga gb s
  | .aluAnd k gd ga gb => Sys2Proof.Machine.execAluAnd k gd ga gb s
  | .aluOr k gd ga gb => Sys2Proof.Machine.execAluOr k gd ga gb s
  | .aluXor k gd ga gb => Sys2Proof.Machine.execAluXor k gd ga gb s
  | .aluShl k gd ga gb => Sys2Proof.Machine.execAluShl k gd ga gb s
  | .aluShr k gd ga gb => Sys2Proof.Machine.execAluShr k gd ga gb s
  | .aluSra k gd ga gb => Sys2Proof.Machine.execAluSra k gd ga gb s
  | .aluMul k gd ga gb => Sys2Proof.Machine.execAluMul k gd ga gb s
  | .aluMulh k gd ga gb => Sys2Proof.Machine.execAluMulh k gd ga gb s
  | .aluMin k gd ga gb => Sys2Proof.Machine.execAluMin k gd ga gb s
  | .aluMax k gd ga gb => Sys2Proof.Machine.execAluMax k gd ga gb s
  | .aluMinu k gd ga gb => Sys2Proof.Machine.execAluMinu k gd ga gb s
  | .aluMaxu k gd ga gb => Sys2Proof.Machine.execAluMaxu k gd ga gb s
  | .aluSlt k gd ga gb => Sys2Proof.Machine.execAluSlt k gd ga gb s
  | .aluSltu k gd ga gb => Sys2Proof.Machine.execAluSltu k gd ga gb s
  | .addi k gd ga imm => Sys2Proof.Machine.execAddi k gd ga imm s
  | .andi k gd ga imm => Sys2Proof.Machine.execAndi k gd ga imm s
  | .ori k gd ga imm => Sys2Proof.Machine.execOri k gd ga imm s
  | .xori k gd ga imm => Sys2Proof.Machine.execXori k gd ga imm s
  | .shli k gd ga imm => Sys2Proof.Machine.execShli k gd ga imm s
  | .shri k gd ga imm => Sys2Proof.Machine.execShri k gd ga imm s
  | .srai k gd ga imm => Sys2Proof.Machine.execSrai k gd ga imm s
  | .lui k gd ga imm => Sys2Proof.Machine.execLui k gd ga imm s
  | .slti k gd ga imm => Sys2Proof.Machine.execSlti k gd ga imm s
  | .ld k gd ga imm => Sys2Proof.Machine.execLd k gd ga imm s
  | .st k gd ga imm => Sys2Proof.Machine.execSt k gd ga imm s
  | .ldx k gd ga imm => Sys2Proof.Machine.execLdx k gd ga imm s
  | .stx k gd ga imm => Sys2Proof.Machine.execStx k gd ga imm s
  | .amoAdd k gd ga gb => Sys2Proof.Machine.execAmoAdd k gd ga gb s
  | .amoSwap k gd ga gb => Sys2Proof.Machine.execAmoSwap k gd ga gb s
  | .amoMin k gd ga gb => Sys2Proof.Machine.execAmoMin k gd ga gb s
  | .amoMax k gd ga gb => Sys2Proof.Machine.execAmoMax k gd ga gb s
  | .narrowReturn k => Sys2Proof.Machine.execNarrowReturn k s
  | .beq k ga gb off => Sys2Proof.Machine.execBeq k ga gb off s
  | .bne k ga gb off => Sys2Proof.Machine.execBne k ga gb off s
  | .blt k ga gb off => Sys2Proof.Machine.execBlt k ga gb off s
  | .bge k ga gb off => Sys2Proof.Machine.execBge k ga gb off s
  | .bltu k ga gb off => Sys2Proof.Machine.execBltu k ga gb off s
  | .bgeu k ga gb off => Sys2Proof.Machine.execBgeu k ga gb off s
  | .jal k gd off => Sys2Proof.Machine.execJal k gd off s
  | .jalr k gd ga imm => Sys2Proof.Machine.execJalr k gd ga imm s
  | .issue k gd ga gb fn => Sys2Proof.Machine.execIssue k gd ga gb fn s
  | .issueResume k => Sys2Proof.Machine.execIssueResume k s
  | .tfence k gd ga gb fn => Sys2Proof.Machine.execTfence k gd ga gb fn s
  | .tfenceRelease k => Sys2Proof.Machine.execTfenceRelease k s
  | .cwait k gd ga gb fn => Sys2Proof.Machine.execCwait k gd ga gb fn s
  | .cwaitRelease who => Sys2Proof.Machine.execCwaitRelease who s
  | .cpost k gd ga gb fn => Sys2Proof.Machine.execCpost k gd ga gb fn s
  | .cset k gd ga gb fn => Sys2Proof.Machine.execCset k gd ga gb fn s
  | .cread k gd ga gb fn => Sys2Proof.Machine.execCread k gd ga gb fn s
  | .seqBar k gd ga gb fn => Sys2Proof.Machine.execSeqBar k gd ga gb fn s
  | .barrierRelease job chan => Sys2Proof.Machine.execBarrierRelease job chan s
  | .bcfg k gd ga gb fn => Sys2Proof.Machine.execBcfg k gd ga gb fn s
  | .pread k gd ga gb fn => Sys2Proof.Machine.execPread k gd ga gb fn s
  | .pset k gd ga gb fn => Sys2Proof.Machine.execPset k gd ga gb fn s
  | .csrr k gd ga imm => Sys2Proof.Machine.execCsrr k gd ga imm s
  | .halt k gd ga gb fn => Sys2Proof.Machine.execHalt k gd ga gb fn s
  | .tileStart c => Sys2Proof.Machine.execTileStart c s
  | .tileRetire c => Sys2Proof.Machine.execTileRetire c s
  | .mma c => Sys2Proof.Machine.execMma c s
  | .mmaLa c => Sys2Proof.Machine.execMmaLa c s
  | .mmaRs c => Sys2Proof.Machine.execMmaRs c s
  | .mmaAg c => Sys2Proof.Machine.execMmaAg c s
  | .attnFwd c => Sys2Proof.Machine.execAttnFwd c s
  | .attnBwd c => Sys2Proof.Machine.execAttnBwd c s
  | .attnRelay c => Sys2Proof.Machine.execAttnRelay c s
  | .sfn c => Sys2Proof.Machine.execSfn c s
  | .norm c => Sys2Proof.Machine.execNorm c s
  | .smax c => Sys2Proof.Machine.execSmax c s
  | .crop c => Sys2Proof.Machine.execCrop c s
  | .reuseChk c => Sys2Proof.Machine.execReuseChk c s
  | .tabResolve c => Sys2Proof.Machine.execTabResolve c s
  | .tabLogRestore c => Sys2Proof.Machine.execTabLogRestore c s
  | .conv c => Sys2Proof.Machine.execConv c s
  | .convDw c => Sys2Proof.Machine.execConvDw c s
  | .lineBufferFill c => Sys2Proof.Machine.execLineBufferFill c s
  | .move c => Sys2Proof.Machine.execMove c s
  | .gath c => Sys2Proof.Machine.execGath c s
  | .scatKv c => Sys2Proof.Machine.execScatKv c s
  | .tblLoad c => Sys2Proof.Machine.execTblLoad c s
  | .moveA2a c => Sys2Proof.Machine.execMoveA2a c s
  | .moveAr c => Sys2Proof.Machine.execMoveAr c s
  | .wait c => Sys2Proof.Machine.execWait c s
  | .post c => Sys2Proof.Machine.execPost c s
  | .bar c => Sys2Proof.Machine.execBar c s
  | .syncPostEffect who => Sys2Proof.Machine.execSyncPostEffect who s
  | .progressPostEffect c => Sys2Proof.Machine.execProgressPostEffect c s
  | .chainCommit c => Sys2Proof.Machine.execChainCommit c s
  | .weightTileReady c => Sys2Proof.Machine.execWeightTileReady c s
  | .tierDeadlineExpiry c => Sys2Proof.Machine.execTierDeadlineExpiry c s
  | .coreStopped c => Sys2Proof.Machine.execCoreStopped c s
  | .jobSave job => Sys2Proof.Machine.execJobSave job s
  | .jobRestore job => Sys2Proof.Machine.execJobRestore job s
  | .clusterZeroed k => Sys2Proof.Machine.execClusterZeroed k s
  | .hostMemRead line => Sys2Proof.Machine.execHostMemRead line s
  | .hostMemWrite line data be => Sys2Proof.Machine.execHostMemWrite line data be s
  | .bisnpResponse line => Sys2Proof.Machine.execBisnpResponse line s
  | .patrolScrub m ch corrected bad => Sys2Proof.Machine.execPatrolScrub m ch corrected bad s
  | .windowFill slot => Sys2Proof.Machine.execWindowFill slot s
  | .codewordReadDone slot cw readable retries => Sys2Proof.Machine.execCodewordReadDone slot cw readable retries s
  | .onDemandFetch c => Sys2Proof.Machine.execOnDemandFetch c s
  | .slotCreate => Sys2Proof.Machine.execSlotCreate s
  | .slotWrite => Sys2Proof.Machine.execSlotWrite s
  | .slotSeal => Sys2Proof.Machine.execSlotSeal s
  | .slotSwitch => Sys2Proof.Machine.execSlotSwitch s
  | .slotMapWrite => Sys2Proof.Machine.execSlotMapWrite s
  | .slotErase => Sys2Proof.Machine.execSlotErase s
  | .flashFence => Sys2Proof.Machine.execFlashFence s
  | .windowConfigWrite => Sys2Proof.Machine.execWindowConfigWrite s
  | .adapterLoad => Sys2Proof.Machine.execAdapterLoad s
  | .adapterUnload => Sys2Proof.Machine.execAdapterUnload s
  | .roomPin k => Sys2Proof.Machine.execRoomPin k s
  | .roomUnpin k => Sys2Proof.Machine.execRoomUnpin k s
  | .vacancyTimeout stream => Sys2Proof.Machine.execVacancyTimeout stream s
  | .roomLink => Sys2Proof.Machine.execRoomLink s
  | .reuseClear => Sys2Proof.Machine.execReuseClear s
  | .reuseConfigWrite => Sys2Proof.Machine.execReuseConfigWrite s
  | .tabEnable => Sys2Proof.Machine.execTabEnable s
  | .frameReceive p f => Sys2Proof.Machine.execFrameReceive p f s
  | .frameTransmit p => Sys2Proof.Machine.execFrameTransmit p s
  | .creditReturnRecv p => Sys2Proof.Machine.execCreditReturnRecv p s
  | .peerIdentityRecv p => Sys2Proof.Machine.execPeerIdentityRecv p s
  | .portTrain p => Sys2Proof.Machine.execPortTrain p s
  | .portTrainTimeout p => Sys2Proof.Machine.execPortTrainTimeout p s
  | .laneCdrLoss p lane => Sys2Proof.Machine.execLaneCdrLoss p lane s
  | .laneSerWindow p errs => Sys2Proof.Machine.execLaneSerWindow p errs s
  | .portLocalFault p => Sys2Proof.Machine.execPortLocalFault p s
  | .portRetrainTimer p => Sys2Proof.Machine.execPortRetrainTimer p s
  | .portDrainTimeout p => Sys2Proof.Machine.execPortDrainTimeout p s
  | .portDrained p => Sys2Proof.Machine.execPortDrained p s
  | .bulkStarvation p => Sys2Proof.Machine.execBulkStarvation p s
  | .bulkSlotDataRecv p => Sys2Proof.Machine.execBulkSlotDataRecv p s
  | .bulkMigrationRecv p => Sys2Proof.Machine.execBulkMigrationRecv p s
  | .bulkSend => Sys2Proof.Machine.execBulkSend s
  | .portFence => Sys2Proof.Machine.execPortFence s
  | .portUnfence => Sys2Proof.Machine.execPortUnfence s
  | .ringJoin => Sys2Proof.Machine.execRingJoin s
  | .ringLeave => Sys2Proof.Machine.execRingLeave s
  | .bypassMoveDone r => Sys2Proof.Machine.execBypassMoveDone r s
  | .exchMessageReceive src => Sys2Proof.Machine.execExchMessageReceive src s
  | .reduceSegment d tag xseq => Sys2Proof.Machine.execReduceSegment d tag xseq s
  | .relayForward group step blockLog => Sys2Proof.Machine.execRelayForward group step blockLog s
  | .xbarArriveRecv p => Sys2Proof.Machine.execXbarArriveRecv p s
  | .xbarReleaseRecv p => Sys2Proof.Machine.execXbarReleaseRecv p s
  | .xbarAbortRecv p => Sys2Proof.Machine.execXbarAbortRecv p s
  | .exchStallTimer d tag xseq => Sys2Proof.Machine.execExchStallTimer d tag xseq s
  | .routeEntryWrite => Sys2Proof.Machine.execRouteEntryWrite s
  | .sqTailDoorbell n tail => Sys2Proof.Machine.execSqTailDoorbell n tail s
  | .cqHeadDoorbell n head => Sys2Proof.Machine.execCqHeadDoorbell n head s
  | .qpEnable n => Sys2Proof.Machine.execQpEnable n s
  | .qpDisable n => Sys2Proof.Machine.execQpDisable n s
  | .submissionFetch n entry => Sys2Proof.Machine.execSubmissionFetch n entry s
  | .nop n => Sys2Proof.Machine.execNop n s
  | .jobSubmit n => Sys2Proof.Machine.execJobSubmit n s
  | .admissionResume n => Sys2Proof.Machine.execAdmissionResume n s
  | .cancel n => Sys2Proof.Machine.execCancel n s
  | .streamOpen n => Sys2Proof.Machine.execStreamOpen n s
  | .streamEnd n => Sys2Proof.Machine.execStreamEnd n s
  | .jobDispatch job => Sys2Proof.Machine.execJobDispatch job s
  | .preempt job => Sys2Proof.Machine.execPreempt job s
  | .jobComplete job => Sys2Proof.Machine.execJobComplete job s
  | .cqCoalTimeout n => Sys2Proof.Machine.execCqCoalTimeout n s
  | .faultSweep cause => Sys2Proof.Machine.execFaultSweep cause s
  | .sweepComplete => Sys2Proof.Machine.execSweepComplete s
  | .addReduceFp32 k v => Sys2Proof.Machine.execAddReduceFp32 k v s
  | .addReduceInt32 k v => Sys2Proof.Machine.execAddReduceInt32 k v s
  | .functionLevelReset => Sys2Proof.Machine.execFunctionLevelReset s
  | .cxlLinkLoss inside => Sys2Proof.Machine.execCxlLinkLoss inside s
  | .perstAssert => Sys2Proof.Machine.execPerstAssert s
  | .perstDeassert => Sys2Proof.Machine.execPerstDeassert s
  | .encFrameStart stream => Sys2Proof.Machine.execEncFrameStart stream s
  | .encTileDone e stream tile rowBits => Sys2Proof.Machine.execEncTileDone e stream tile rowBits s
  | .encTileGroupEmit stream bytes => Sys2Proof.Machine.execEncTileGroupEmit stream bytes s
  | .encOverrunTimeout stream => Sys2Proof.Machine.execEncOverrunTimeout stream s
  | .engineFence => Sys2Proof.Machine.execEngineFence s
  | .engineUnfence => Sys2Proof.Machine.execEngineUnfence s
  | .clusterFence => Sys2Proof.Machine.execClusterFence s
  | .clusterUnfence => Sys2Proof.Machine.execClusterUnfence s
  | .blockEnablesWrite => Sys2Proof.Machine.execBlockEnablesWrite s
  | .blockDrained b => Sys2Proof.Machine.execBlockDrained b s
  | .divOverrideWrite => Sys2Proof.Machine.execDivOverrideWrite s
  | .rampStep => Sys2Proof.Machine.execRampStep s
  | .stewardSample m => Sys2Proof.Machine.execStewardSample m s
  | .stewardPeriod m => Sys2Proof.Machine.execStewardPeriod m s
  | .profileAutosave => Sys2Proof.Machine.execProfileAutosave s
  | .stewardSave => Sys2Proof.Machine.execStewardSave s
  | .stewardReset => Sys2Proof.Machine.execStewardReset s
  | .powerFault cause => Sys2Proof.Machine.execPowerFault cause s
  | .rootUnlock refLost => Sys2Proof.Machine.execRootUnlock refLost s
  | .powerUp => Sys2Proof.Machine.execPowerUp s
  | .stackTrained m how => Sys2Proof.Machine.execStackTrained m how s
  | .flashTrained failed => Sys2Proof.Machine.execFlashTrained failed s
  | .startReady => Sys2Proof.Machine.execStartReady s
  | .moduleReset => Sys2Proof.Machine.execModuleReset s
  | .porterRestart => Sys2Proof.Machine.execPorterRestart s
  | .prepareRemoval => Sys2Proof.Machine.execPrepareRemoval s
  | .cancelRemoval => Sys2Proof.Machine.execCancelRemoval s
  | .fwStageChunk => Sys2Proof.Machine.execFwStageChunk s
  | .fwStageMem => Sys2Proof.Machine.execFwStageMem s
  | .fwVerify => Sys2Proof.Machine.execFwVerify s
  | .fwActivate => Sys2Proof.Machine.execFwActivate s
  | .fwActivateWaitExpiry => Sys2Proof.Machine.execFwActivateWaitExpiry s
  | .rollbackCommit => Sys2Proof.Machine.execRollbackCommit s
  | .keyEnrol => Sys2Proof.Machine.execKeyEnrol s
  | .keyRevoke => Sys2Proof.Machine.execKeyRevoke s
  | .attestNonce => Sys2Proof.Machine.execAttestNonce s
  | .debugUnlock => Sys2Proof.Machine.execDebugUnlock s
  | .debugLock => Sys2Proof.Machine.execDebugLock s
  | .ledgerCommit => Sys2Proof.Machine.execLedgerCommit s
  | .restoreFactory => Sys2Proof.Machine.execRestoreFactory s
  | .userViewConfigWrite => Sys2Proof.Machine.execUserViewConfigWrite s
  | .porterFrameReceive bytes path => Sys2Proof.Machine.execPorterFrameReceive bytes path s
  | .dictRead => Sys2Proof.Machine.execDictRead s
  | .dictWrite => Sys2Proof.Machine.execDictWrite s
  | .asyncCommandEnd ticket how => Sys2Proof.Machine.execAsyncCommandEnd ticket how s
  | .mbDoorbell => Sys2Proof.Machine.execMbDoorbell s
  | .hello => Sys2Proof.Machine.execHello s
  | .clientSig => Sys2Proof.Machine.execClientSig s
  | .close => Sys2Proof.Machine.execClose s
  | .handshakeTimeout session => Sys2Proof.Machine.execHandshakeTimeout session s
  | .sessionIdleTimeout session => Sys2Proof.Machine.execSessionIdleTimeout session s
  | .bistRun => Sys2Proof.Machine.execBistRun s
  | .bistRunEnd target subs misrs => Sys2Proof.Machine.execBistRunEnd target subs misrs s
  | .rollingBistTurn => Sys2Proof.Machine.execRollingBistTurn s
  | .alertAck => Sys2Proof.Machine.execAlertAck s
  | .bwWindowEnd => Sys2Proof.Machine.execBwWindowEnd s
  | .registerWrite off v wide => Sys2Proof.Machine.execRegisterWrite off v wide s
  | .standbyPowerLoss => Sys2Proof.Machine.execStandbyPowerLoss s
  | .referenceReturn => Sys2Proof.Machine.execReferenceReturn s
  | .hubsReady => Sys2Proof.Machine.execHubsReady s
  | .cxlLinkUp => Sys2Proof.Machine.execCxlLinkUp s
  | .ledgerWriteDone ok => Sys2Proof.Machine.execLedgerWriteDone ok s
  | .keyLedgerRetry => Sys2Proof.Machine.execKeyLedgerRetry s
  | .userViewRefresh => Sys2Proof.Machine.execUserViewRefresh s
  | .narrowAccepted k => Sys2Proof.Machine.execNarrowAccepted k s

end Sys2Proof.Machine
end

