-- ==== Sys2Proof/Machine/Physical.lean ====
section
/-! DEFINITION. What the module shows and drives at its connectors as functions of its state: the status lights (R501), the pins of
Table 22-1 it drives, the power of the optical engines (R407), the fibre positions (R497), the coolant it needs (R499) and VDD_ARITH
(R402, R403). -/

namespace Sys2Proof.Machine

/-! ## Status lights (R501) -/

inductive Light where
  | dark
  | amber
  | green
  deriving DecidableEq, Repr

/-- The lights and whether they blink: green at tier 3, amber at tiers 1 and 2, dark at tier 0; blinking while ALERT_N is asserted. -/
def State.lights (s : State) : Light × Bool :=
  (if s.tier = 3 then .green else if s.tier = 0 then .dark else .amber, s.por.alertPin)

/-! ## Pins and fibres (Tables 22-1, 22-4) -/

/-- ALERT_N, an open drain: low while it is asserted (R485). -/
def State.alertN (s : State) : Bool := !s.por.alertPin
/-- PRSNT_N, tied to module return: low in every state, with or without supply. -/
def State.prsntN (_ : State) : Bool := false
/-- Whether an optical engine is powered: while either of its ports is enabled (R407). -/
def State.opticalOn (s : State) (o : Nat) : Bool :=
  (List.range 8).any (fun p => decide (engineOfPort p = o) && bit s.enables (28 + p))
/-- A port transmits only while TRAINING, UP or DRAINING (R498). -/
def State.transmits (s : State) (p : Nat) : Bool :=
  decide ((s.port p).state = .training ∨ (s.port p).state = .up ∨ (s.port p).state = .draining)
/-- The connector of a port, and the MPO-16 position of a transmit or receive fibre (R497). -/
def portConnector (p : Nat) : Nat := p / 4 + 1
def txPosition (p f : Nat) : Nat := 2 * (p % 4) + 1 + f
def rxPosition (p f : Nat) : Nat := 17 - txPosition p f
/-- The fibre of a lane, of the port's pair, and its wavelength on it (R309). -/
def laneFibre (lane : Nat) : Nat := lane / 8
def laneWavelength (lane : Nat) : Nat := lane % 8
/-- The join a THROUGH switch makes on OPT2, from a receive position of the ring's odd port to a transmit position of its even port,
fibre by fibre (R497); `back` is the other join, from the even port's receive to the odd port's transmit positions. -/
def throughJoin (r f : Nat) : Nat × Nat := (rxPosition (4 + 2 * r + 1) f, txPosition (4 + 2 * r) f)
def throughJoinBack (r f : Nat) : Nat × Nat := (rxPosition (4 + 2 * r) f, txPosition (4 + 2 * r + 1) f)

/-! ## The field network (R419) -/

/-- How the porter takes its turn on the segment: under PLCA by its node ID, the coordinator with the node count, one frame to a transmit
opportunity; or by CSMA/CD. -/
inductive BusAccess where
  | plca (node : Nat) (coordinates : Option Nat) (framesPerTurn : Nat)
  | csmaCd
  deriving DecidableEq, Repr
def State.busAccess (s : State) : BusAccess :=
  if s.por.plca then .plca s.por.nodeId.toNat (if s.por.nodeId = 0 then some (s.dv 0x0108 4) else none) 1 else .csmaCd

/-! ## Coolant and supply -/

/-- F_min in millilitres per minute (R499), rounded up. -/
def State.minFlow (s : State) : Nat := max 800 (cdiv (2000 * s.dv 0x0500 6) 2800)
/-- Nominal VDD_ARITH in millivolts at an operating point (Table 17-2). -/
def pointMillivolts (p : Nat) : Nat := if p = 1 then 780 else if p = 2 then 710 else if p = 3 then 650 else 610
/-- The divider whose voltage VDD_ARITH is at (R403): while a ramp to a faster point goes on, from its first moment, that of the step to
come; else that which the last step left (log 191). -/
def State.vddAt (s : State) : Nat := if s.arithTarget < s.pwr.arithDiv then s.pwr.arithDiv - 1 else s.pwr.vddDiv
/-- VDD_ARITH: what the factory trims for its divider, and for the dividers between two points, is free (log 5). -/
def State.vddArith (s : State) : Nat := Config.vddArith s.vddAt

end Sys2Proof.Machine
end

