-- ==== Sys2Proof/WellFormed.lean ====
section
/-! DEFINITION. Well-formedness of commands: what an operand's type leaves open and the spec bounds. An ill-formed command is one
that the surroundings cannot send. -/

namespace Sys2Proof

/-- A number from lo to hi. -/
def inRange (lo hi n : Nat) : Bool := decide (lo ≤ n) && decide (n ≤ hi)
/-- A codeword number is given once at most, and not both ways. -/
def distinct (xs : List Nat) : Bool := decide (xs.Nodup)

def SweepCause.wf : SweepCause → Bool
  | .coreMemUe _ a => decide (a < 2 ^ 40)
  | .seqMemUe _ a => decide (a < 2 ^ 40)
  | .roomEntryUe _ x => decide (x < 2 ^ 24)
  | .saveUe _ a => decide (a < 2 ^ 40)
  | _ => true
/-- A frame holds eight flits (R312). -/
def PortFrame.wf (f : PortFrame) : Bool := decide (f.flits.length = 8)
/-- Six temperatures (Table 17-8). -/
def PowerSample.wf (m : PowerSample) : Bool := decide (m.temps.length = 6)
/-- A stall share for each of sixteen slots, in percent (Table 17-5). -/
def StewardMeasure.wf (m : StewardMeasure) : Bool := decide (m.stallPct.length = 16) && m.stallPct.all (fun x => decide (x ≤ 100))
/-- A target code of Table 21-1. -/
def bistTarget (t : Nat) : Bool :=
  decide (t < 12) || inRange 0x10 0x17 t || inRange 0x20 0x27 t || inRange 0x30 0x37 t || inRange 0x40 0x43 t

/-- Whether a command is well formed. -/
def Instr.wf : Instr → Bool
  | .frameReceive _ f => f.wf
  | .laneSerWindow _ errs => decide (errs.length = 16)
  | .stewardSample m => m.wf
  | .stewardPeriod m => m.wf
  | .powerFault cause => inRange 1 5 cause.toNat
  | .relayForward _ _ blockLog => inRange 20 24 blockLog
  | .porterFrameReceive bytes _ => decide (bytes.length ≤ 1452)
  | .bistRunEnd target subs misrs => bistTarget target.toNat && decide subs.Nodup && decide (subs.length = misrs.length)
  | .codewordReadDone _ _ _ retries => decide (retries ≤ 15)
  | .patrolScrub _ _ corrected bad => distinct ((corrected ++ bad).map Fin.val)
  | .encTileDone _ _ _ rowBits => !rowBits.isEmpty
  | .encTileGroupEmit _ bytes => decide (0 < bytes)
  | .faultSweep cause => cause.wf
  | .registerWrite off _ wide => decide (off.toNat % (if wide then 8 else 4) = 0)
  | _ => true

end Sys2Proof
end

