-- ==== Sys2Proof/Safety.lean ====
section
/-! DEFINITION. What counts as a safe step and a safe run, and what a command leaves unchanged, in the terms the statements use. -/

namespace Sys2Proof.Machine

/-- A step that answers a next state. -/
def SafeStep (s : State) : Prop := ∃ t, step s = .next t

/-- A run of n steps that answers a next state: no step of it stops. -/
def SafeRun (n : Nat) (s : State) : Prop := ∃ t, Sys2Proof.core.run n s = .next t

/-- Every command that waits is well formed. -/
def State.queueWf (s : State) : Bool := s.pending.all Instr.wf

/-! ## What stays unchanged -/

/-- Everything but the clusters, the cores and the model's own count of free values is as before: stacked memory, Caravan, the
network, the hub with its jobs, pairs and streams, power, the encoders, the porter, the boot state, the pacing counter, what has left
the module, the queue of commands. -/
def SameRest (s t : State) : Prop :=
  t.ms = s.ms ∧ t.car = s.car ∧ t.net = s.net ∧ t.hub = s.hub ∧ t.pwr = s.pwr ∧ t.enc = s.enc ∧ t.por = s.por ∧
  t.boot = s.boot ∧ t.pacing = s.pacing ∧ t.out = s.out ∧ t.pending = s.pending

/-- A cluster's counter of Table 21-5. -/
def State.clusterCtr (s : State) (k i : Nat) : Quad := mget 0 (s.cluster k).ctr i
/-- A core's counter of Table 21-5. -/
def State.coreCtr (s : State) (c i : Nat) : Quad := mget 0 (s.core c).ctr i

/-- Beside its sequencer and the counters named, cluster k changes at most in its samples and their two counters (R489); the other
clusters, the cores and the rest of the module are as before. -/
def OnlySequencer (k : Nat) (counters : List Nat) (s t : State) : Prop :=
  SameRest s t ∧ t.cores = s.cores ∧ (∀ j, j ≠ k → t.cluster j = s.cluster j) ∧
  t.cluster k = { s.cluster k with
    seq := t.seq k, ctr := (t.cluster k).ctr, sampleRing := (t.cluster k).sampleRing, sampleHead := (t.cluster k).sampleHead,
    sampleCount := (t.cluster k).sampleCount, samplePend := (t.cluster k).samplePend } ∧
  ∀ i, i ∉ 31 :: 32 :: counters → t.clusterCtr k i = s.clusterCtr k i

/-- The sequencer of cluster k has executed one instruction that changed it by f and goes on at pc: RETIRED and the cluster's
counter 1 count it, CYCLE has moved, nothing else of the sequencer differs (R78, R84, R486). -/
def Executed (k : Nat) (s t : State) (pc : Quad) (f : Seq → Seq) : Prop :=
  t.seq k = { f (s.seq k) with pc := pc, retired := (f (s.seq k)).retired + 1, cycle := (t.seq k).cycle } ∧
  t.clusterCtr k 1 = s.clusterCtr k 1 + 1

/-- One sequencer instruction with the value v for register gd (none where gd is g0) and the next pc, and nothing else. -/
def RegStep (k : Nat) (s t : State) (gd : BitVec 5) (v pc : Quad) : Prop :=
  OnlySequencer k [1] s t ∧ Executed k s t pc (fun q => q.setReg gd v) ∧
  ∀ r, t.gReg k r = if r = gd ∧ r ≠ 0 then v else s.gReg k r

/-- Beside core c and the counters of its cluster, a step of the core changes nothing. -/
def OnlyCore (c : Nat) (s t : State) : Prop :=
  SameRest s t ∧ (∀ d, d ≠ c → t.core d = s.core d) ∧ (∀ k, k ≠ clusterOf c → t.cluster k = s.cluster k) ∧
  t.cluster (clusterOf c) = { s.cluster (clusterOf c) with ctr := (t.cluster (clusterOf c)).ctr }

/-- Bytes written: whether an address lies in one of the blocks of an instruction's writes. -/
def Writes.hits (w : Writes) (a : Nat) : Prop := ∃ p ∈ w.cs, p.1 ≤ a ∧ a < p.1 + p.2.length
/-- Words written of the accumulator store. -/
def Writes.hitsAcc (w : Writes) (a : Nat) : Prop := ∃ p ∈ w.acc, 4 * p.1 ≤ a ∧ a < 4 * p.1 + 4

/-- Core c holds the writes of an instruction, and every byte outside them reads as before. -/
def StoresWrites (c : Nat) (w : Writes) (s t : State) : Prop :=
  (t.core c).store = w.cs.foldl (fun m p => m.writeBytes p.1 p.2) (s.core c).store ∧
  (t.core c).acc = w.acc.foldl (fun m p => m.writeLE (4 * p.1) 4 p.2) (s.core c).acc ∧
  (∀ a, ¬ w.hits a → (t.core c).store.read a = (s.core c).store.read a) ∧
  (∀ a, ¬ w.hitsAcc a → (t.core c).acc.read a = (s.core c).acc.read a)

/-- Beside its stores, its tags, its weight buffers, its counters and its queue, the core is as before; the queue differs in the
entry of that ordinal alone, which is done with the status. -/
def FinishesOnly (c : Nat) (ord : Word) (istat : Byte) (s t : State) : Prop :=
  t.core c = { s.core c with
    store := (t.core c).store, acc := (t.core c).acc, tags := (t.core c).tags, kept := (t.core c).kept, ctr := (t.core c).ctr,
    queue := (s.core c).queue.map (fun e => if e.ord = ord then { e with phase := .done istat } else e) }

/-- The instruction e of core c has done its work: its writes are in the core's stores and every other byte reads as before, its
saturations and NaN outputs are counted (R48), it waits to retire with OK, and nothing beyond the core and its cluster's counters
differs. -/
def EngineDone (c : Nat) (e : QEntry) (w : Writes) (s t : State) : Prop :=
  OnlyCore c s t ∧ StoresWrites c w s t ∧ FinishesOnly c e.ord iOk s t ∧
  t.coreCtr c 7 = s.coreCtr c 7 + BitVec.ofNat 64 w.sat ∧ t.coreCtr c 8 = s.coreCtr c 8 + BitVec.ofNat 64 w.nan

/-- The port commands of the surroundings find the core's program going on. -/
def State.opensTo (s : State) (c : Nat) (job : Job) (e : QEntry) : Prop :=
  s.issueJob c = some job ∧ (s.core c).candidate = some e ∧ (s.core c).restore = [] ∧ e.arrived = false ∧
  (s.core c).tabs = [] ∧ (s.core c).blocks = [] ∧ ¬ (dStreamEn e.d = true ∧ s.streamSkips job (dStream e.d) = true) ∧
  (e.waitMet = true ∨ s.waitOk job e.d = true)

/-- What R72, R142, R260 and Table 5-3 ask of an instruction of a port that runs the iterations given: its ports and its bank are
free, what it and its records name is clear of the instructions ahead, and it is neither illegal, past a limit, empty nor of a malformed
mask. -/
def State.meetsStart (s : State) (c : Nat) (job : Job) (e : QEntry) (f : Fam) (its : List Nat) (clip : Option Nat) : Prop :=
  let x := s.core c
  let ahead := x.queue.takeWhile (fun q => decide (q.ord ≠ e.ord))
  let before := ahead.filter QEntry.inFlight
  let recs := f.isAttn || decide (f = .crop)
  let base := descRanges f e.d its clip (s.rangeArg f e.d)
  let r := if recs then base.append (recRanges f x.store e.d its clip) else base
  f.ports ≠ 0 ∧ x.portsFree f.ports = true ∧ bankClear ahead f e.d = true ∧ s.clearOf c before base = true ∧
  (recs = true → pastGeneral job.general { cr := base.cr } = false ∧ s.clearOf c before { cr := headRanges f x.store e.d clip } = true) ∧
  s.clearOf c before r = true ∧ (f = .scatKv → s.scatWaits e = false) ∧ s.startIllegal c job e f its clip true recs = false ∧
  overflowCode f job e.d r (emptyOutput f e.d clip) = 0 ∧ emptyOutput f e.d clip = false ∧
  (f.isAttn = true → (attnRec x.store e.d).maskEn = true →
    maskMalformed x.store (attnRec x.store e.d).mask ((dSop1 e.d).clip clip).rows (dSop2 e.d).rows = false)

/-- The core as before, with one entry of its queue changed by g. -/
def Core.withEntry (x : Core) (ord : Word) (g : QEntry → QEntry) : Core :=
  { x with queue := x.queue.map (fun q => if q.ord = ord then g q else q) }

/-- The record whose turn it is writes the value bs to entry (i, u), and passes the checks every write meets (R422, R423, R427, R428); no
MODULE_RESET record stands before it in its frame (R459). -/
def State.writes (s : State) (i u : Nat) (bs : List Byte) : Prop :=
  ∃ f r t, s.boot.resetAfter = false ∧ s.frontRec = some (f, r) ∧ r.rop = 2 ∧ r.index = i ∧ r.sub = u ∧ s.lookWrite f r = .value bs t

/-- In state t the record whose turn it was in s has been answered with a status (Table 18-5). -/
def AnsweredWith (status : Nat) (s t : State) : Prop :=
  ∃ (u : State) (detail total : Nat), u.frontRec = s.frontRec ∧ t = u.answer status detail total []

/-- Ports but p, rings but those given and the rest of the module's network tables are as before. -/
def OnlyPort (p : Nat) (s t : State) : Prop :=
  (∀ q, q ≠ p → t.port q = s.port q) ∧ t.net.rings = s.net.rings ∧ t.net.groups = s.net.groups ∧ t.net.ops = s.net.ops ∧
  t.net.keys = s.net.keys ∧ t.net.relays = s.net.relays ∧ t.ms = s.ms ∧ t.clusters = s.clusters ∧ t.cores = s.cores ∧
  t.boot = s.boot ∧ t.pwr = s.pwr ∧ t.pending = s.pending ∧ t.pacing = s.pacing

/-! ## Queue pairs and jobs -/

/-- The step from s to t sends m, beside what had left the module before. -/
def Emits (m : OutMsg) (s t : State) : Prop := ∃ new, t.out = new ++ s.out ∧ m ∈ new

/-- A completion entry with that tag and status stands at the tail of pair n, its phase bit that of the queue's pass, its sequence
number the next one (R360, R375). -/
def Completes (n : Nat) (tag : JobId) (status : Byte) (s t : State) : Prop :=
  ∃ (c : Completion) (head : Half), c.tag = tag ∧ c.status = status ∧
    Emits (.completion n (s.pair n).cqTail.toNat (entryOf c head (s.hub.completionSeq + 1) (s.pair n).phase)) s t

/-- A completion entry with that tag and status has been written for pair n. -/
def CompletesToo (n : Nat) (tag : JobId) (status : Byte) (s t : State) : Prop :=
  ∃ (c : Completion) (slot : Nat) (head : Half) (seq : Word) (phase : Bool), c.tag = tag ∧ c.status = status ∧
    Emits (.completion n slot (entryOf c head seq phase)) s t

/-- The fetched entry of pair n is done with a status: its completion entry is written, the pair holds no fetched entry, one more
completion slot is used, and the other pairs are as before. -/
def EntryDone (n : Nat) (tag : JobId) (status : Byte) (s t : State) : Prop :=
  Completes n tag status s t ∧ (t.pair n).fetched = none ∧ t.hub.completionSeq = s.hub.completionSeq + 1 ∧
  (t.pair n).cqUsed = (s.pair n).cqUsed + 1 ∧ ∀ m, m ≠ n → t.pair m = s.pair m

/-- The MSI-X message of vector v has left, or its pending bit is set. -/
def Signals (v : Nat) (s t : State) : Prop := Emits (.msix v) s t ∨ t.hub.msixPending.getLsbD v = true

end Sys2Proof.Machine
end

