-- ==== Sys2Proof/Certificates/Slice0/Obligations.lean ====
section
/-! DEFINITION. The statements for the provers: what the commands do and leave alone, command family by command family, and the
statements about the whole machine. -/

open Sys2Proof Sys2Proof.Machine

/-- A step takes the command at the front of the queue and runs it with the queue's rest; on an empty queue the pacing counter alone
moves (log 47). -/
def Obligations.StepRunsFront : Prop :=
  (∀ (c : Instr) (s : State) (rest : List Instr), s.pending = c :: rest → step s = exec c { s with pending := rest }) ∧
  (∀ s : State, s.pending = [] → step s = .next { s with pacing := if s.pwr.rootLocked then s.pacing + 1 else s.pacing })

/-- Table 3-7, OPC 0x01, FN 0x000 to 0x00F: the value of gD, and the frame of the instruction. -/
def Obligations.AluResults : Prop :=
  ∀ (k : ClusterId) (gd ga gb : BitVec 5) (s : State), (s.seqJob k).isSome →
    let a := s.gReg k ga
    let b := s.gReg k gb
    let n := b.toNat % 64
    let pc := (s.seq k).pc + 4
    (∃ t, exec (.aluAdd k gd ga gb) s = .next t ∧ RegStep k s t gd (a + b) pc) ∧
    (∃ t, exec (.aluSub k gd ga gb) s = .next t ∧ RegStep k s t gd (a - b) pc) ∧
    (∃ t, exec (.aluAnd k gd ga gb) s = .next t ∧ RegStep k s t gd (a &&& b) pc) ∧
    (∃ t, exec (.aluOr k gd ga gb) s = .next t ∧ RegStep k s t gd (a ||| b) pc) ∧
    (∃ t, exec (.aluXor k gd ga gb) s = .next t ∧ RegStep k s t gd (a ^^^ b) pc) ∧
    (∃ t, exec (.aluShl k gd ga gb) s = .next t ∧ RegStep k s t gd (a <<< n) pc) ∧
    (∃ t, exec (.aluShr k gd ga gb) s = .next t ∧ RegStep k s t gd (a >>> n) pc) ∧
    (∃ t, exec (.aluSra k gd ga gb) s = .next t ∧ RegStep k s t gd (a.sshiftRight n) pc) ∧
    (∃ t, exec (.aluMul k gd ga gb) s = .next t ∧ RegStep k s t gd (BitVec.ofNat 64 (a.toNat * b.toNat)) pc) ∧
    (∃ t, exec (.aluMulh k gd ga gb) s = .next t ∧ RegStep k s t gd (BitVec.ofInt 64 (a.toInt * b.toInt / 2 ^ 64)) pc) ∧
    (∃ t, exec (.aluMin k gd ga gb) s = .next t ∧ RegStep k s t gd (BitVec.ofInt 64 (min a.toInt b.toInt)) pc) ∧
    (∃ t, exec (.aluMax k gd ga gb) s = .next t ∧ RegStep k s t gd (BitVec.ofInt 64 (max a.toInt b.toInt)) pc) ∧
    (∃ t, exec (.aluMinu k gd ga gb) s = .next t ∧ RegStep k s t gd (BitVec.ofNat 64 (min a.toNat b.toNat)) pc) ∧
    (∃ t, exec (.aluMaxu k gd ga gb) s = .next t ∧ RegStep k s t gd (BitVec.ofNat 64 (max a.toNat b.toNat)) pc) ∧
    (∃ t, exec (.aluSlt k gd ga gb) s = .next t ∧ RegStep k s t gd (if a.toInt < b.toInt then 1 else 0) pc) ∧
    (∃ t, exec (.aluSltu k gd ga gb) s = .next t ∧ RegStep k s t gd (if a.toNat < b.toNat then 1 else 0) pc)

/-- Table 3-7, OPC 0x02 to 0x0A; reserved fields under R9 and R80. -/
def Obligations.ImmediateResults : Prop :=
  ∀ (k : ClusterId) (gd ga : BitVec 5) (imm : Half) (s : State), (s.seqJob k).isSome →
    let a := s.gReg k ga
    let n := imm.toNat % 64
    let pc := (s.seq k).pc + 4
    (∃ t, exec (.addi k gd ga imm) s = .next t ∧ RegStep k s t gd (a + BitVec.ofInt 64 imm.toInt) pc) ∧
    (∃ t, exec (.andi k gd ga imm) s = .next t ∧ RegStep k s t gd (a &&& BitVec.ofNat 64 imm.toNat) pc) ∧
    (∃ t, exec (.ori k gd ga imm) s = .next t ∧ RegStep k s t gd (a ||| BitVec.ofNat 64 imm.toNat) pc) ∧
    (∃ t, exec (.xori k gd ga imm) s = .next t ∧ RegStep k s t gd (a ^^^ BitVec.ofNat 64 imm.toNat) pc) ∧
    (∃ t, exec (.slti k gd ga imm) s = .next t ∧ RegStep k s t gd (if a.toInt < imm.toInt then 1 else 0) pc) ∧
    (imm.toNat < 64 →
      (∃ t, exec (.shli k gd ga imm) s = .next t ∧ RegStep k s t gd (a <<< n) pc) ∧
      (∃ t, exec (.shri k gd ga imm) s = .next t ∧ RegStep k s t gd (a >>> n) pc) ∧
      (∃ t, exec (.srai k gd ga imm) s = .next t ∧ RegStep k s t gd (a.sshiftRight n) pc)) ∧
    (64 ≤ imm.toNat →
      exec (.shli k gd ga imm) s = .next (s.seqFault k stIllegal) ∧
      exec (.shri k gd ga imm) s = .next (s.seqFault k stIllegal) ∧
      exec (.srai k gd ga imm) s = .next (s.seqFault k stIllegal)) ∧
    (ga = 0 → ∃ t, exec (.lui k gd ga imm) s = .next t ∧ RegStep k s t gd (BitVec.ofInt 64 (imm.toInt * 2 ^ 16)) pc) ∧
    (ga ≠ 0 → exec (.lui k gd ga imm) s = .next (s.seqFault k stIllegal))

/-- R78 and R81 for local memory; little-endian under R10. -/
def Obligations.LocalLoadStore : Prop :=
  ∀ (k : ClusterId) (gd ga : BitVec 5) (imm : Half) (s : State), (s.seqJob k).isSome →
    let a := (s.gReg k ga + BitVec.ofInt 64 imm.toInt).toNat
    let pc := (s.seq k).pc + 4
    (a % 8 = 0 ∧ a + 8 ≤ 131072 →
      (∃ t, exec (.ld k gd ga imm) s = .next t ∧ RegStep k s t gd (BitVec.ofNat 64 (leNat ((s.seq k).loc.readBytes a 8))) pc) ∧
      (∃ t, exec (.st k gd ga imm) s = .next t ∧ OnlySequencer k [1] s t ∧
        Executed k s t pc (fun q => { q with loc := (t.seq k).loc }) ∧
        (∀ i, i < 8 → (t.seq k).loc.read (a + i) = BitVec.ofNat 8 ((s.gReg k gd).toNat / 256 ^ i)) ∧
        (∀ x, x < a ∨ a + 8 ≤ x → (t.seq k).loc.read x = (s.seq k).loc.read x))) ∧
    (¬ (a % 8 = 0 ∧ a + 8 ≤ 131072) →
      exec (.ld k gd ga imm) s = .next (s.seqFault k stIllegal) ∧ exec (.st k gd ga imm) s = .next (s.seqFault k stIllegal))

/-- Table 3-7, OPC 0x18 to 0x1F. -/
def Obligations.BranchesAndJumps : Prop :=
  ∀ (k : ClusterId) (gd ga gb : BitVec 5) (off : Half) (far : BitVec 21) (s : State), (s.seqJob k).isSome →
    let a := s.gReg k ga
    let b := s.gReg k gb
    let pc := (s.seq k).pc
    let goes := fun (c : Bool) => if c then pc + BitVec.ofInt 64 (4 * off.toInt) else pc + 4
    (∃ t, exec (.beq k ga gb off) s = .next t ∧ RegStep k s t 0 0 (goes (decide (a = b)))) ∧
    (∃ t, exec (.bne k ga gb off) s = .next t ∧ RegStep k s t 0 0 (goes (decide (a ≠ b)))) ∧
    (∃ t, exec (.blt k ga gb off) s = .next t ∧ RegStep k s t 0 0 (goes (decide (a.toInt < b.toInt)))) ∧
    (∃ t, exec (.bge k ga gb off) s = .next t ∧ RegStep k s t 0 0 (goes (decide (b.toInt ≤ a.toInt)))) ∧
    (∃ t, exec (.bltu k ga gb off) s = .next t ∧ RegStep k s t 0 0 (goes (decide (a.toNat < b.toNat)))) ∧
    (∃ t, exec (.bgeu k ga gb off) s = .next t ∧ RegStep k s t 0 0 (goes (decide (b.toNat ≤ a.toNat)))) ∧
    (∃ t, exec (.jal k gd far) s = .next t ∧ RegStep k s t gd (pc + 4) (pc + BitVec.ofInt 64 (4 * far.toInt))) ∧
    (∃ t, exec (.jalr k gd ga off) s = .next t ∧
      RegStep k s t gd (pc + 4) ((a + BitVec.ofInt 64 off.toInt) &&& ~~~3#64))

/-- R81, R147, R163, R166, R236 and R505: what an LDX, STX or AMO does when it issues. An STX to the room port takes its place among the
outstanding writes like any other, but where it would make a ninth unread request. That the requests still
to be accepted count among the unread ones (log 111), and that a compare-swap compares with gD's low 32 bits (log 195), are the model's
readings, as it is that an AMO at the room port is a bus error (log 112). -/
def Obligations.NarrowAccessBegins : Prop :=
  ∀ (k : ClusterId) (gd ga gb : BitVec 5) (imm : Half) (s : State) (j : Job), s.seqJob k = some j →
    let x := (s.gReg k ga + BitVec.ofInt 64 imm.toInt).toNat
    let a := (s.gReg k ga).toNat
    let arg : Word := (s.gReg k gb).truncate 32
    let cmp : Word := (s.gReg k gd).truncate 32
    let pc := (s.seq k).pc + 4
    let begins := fun (i : Instr) (n : Narrow) =>
      ∃ t, exec i s = .next t ∧ OnlySequencer k [1, 9] s t ∧ t.clusterCtr k 9 = s.clusterCtr k 9 + 1 ∧
        Executed k s t pc (fun q => { q with outst := q.outst ++ [n], stall := .narrow })
    (x % 8 = 0 → (s.narrowTarget j k x).isSome → begins (.ldx k gd ga imm) ⟨x, .ldx gd⟩) ∧
    (∀ c off, a % 4 = 0 → s.narrowTarget j k a = some (.shared c off) →
      begins (.amoAdd k gd ga gb) ⟨a, .amo 0 gd arg cmp⟩ ∧ begins (.amoSwap k gd ga gb) ⟨a, .amo 1 gd arg cmp⟩ ∧
      begins (.amoMin k gd ga gb) ⟨a, .amo 2 gd arg cmp⟩ ∧ begins (.amoMax k gd ga gb) ⟨a, .amo 3 gd arg cmp⟩) ∧
    (x % 8 = 0 → (s.narrowTarget j k x).isSome → ¬ (s.narrowTarget j k x = some .roomPort ∧ 8 ≤ s.roomUnread j k) →
      ∃ t, exec (.stx k gd ga imm) s = .next t ∧ OnlySequencer k [1, 9] s t ∧ t.clusterCtr k 9 = s.clusterCtr k 9 + 1 ∧
        Executed k s t pc (fun q =>
          if q.outst.length < 16 then { q with outst := q.outst ++ [⟨x, .stx (s.gReg k gd)⟩] }
          else { q with stall := .stxLimit ⟨x, .stx (s.gReg k gd)⟩ })) ∧
    (x % 8 = 0 → s.narrowTarget j k x = some .roomPort → 8 ≤ s.roomUnread j k →
      exec (.stx k gd ga imm) s = .next (s.seqFault k stIllegal)) ∧
    (x % 8 ≠ 0 → exec (.ldx k gd ga imm) s = .next (s.seqFault k stIllegal) ∧ exec (.stx k gd ga imm) s = .next (s.seqFault k stIllegal)) ∧
    (x % 8 = 0 → s.narrowTarget j k x = none →
      exec (.ldx k gd ga imm) s = .next (s.seqFault k stBusError) ∧ exec (.stx k gd ga imm) s = .next (s.seqFault k stBusError)) ∧
    (∀ i ∈ [Instr.amoAdd k gd ga gb, .amoSwap k gd ga gb, .amoMin k gd ga gb, .amoMax k gd ga gb],
      (a % 4 ≠ 0 → exec i s = .next (s.seqFault k stIllegal)) ∧
      (a % 4 = 0 → (∀ c off, s.narrowTarget j k a ≠ some (.shared c off)) → exec i s = .next (s.seqFault k stBusError)))

/-- R505, R236 and Table 6-6: the oldest outstanding access returns. An LDX from the room port takes the oldest result, once it is
made. That it waits for every write before it, also one to another address, is the model's choice (log 203), as is what counts
as a byte from the other die (log 204). -/
def Obligations.NarrowAccessReturns : Prop :=
  ∀ (k : ClusterId) (s : State) (j : Job) (n : Narrow) (rest : List Narrow),
    s.narrowJob k = some j → (s.seq k).outst = n :: rest →
    (∀ gd a bs, n.kind = .ldx gd → s.narrowTarget j k n.addr = some (.stack a) → s.memRead a 8 = .ok bs →
      ∃ t, exec (.narrowReturn k) s = .next t ∧ OnlySequencer k [2, 12] (s.readDone a 8) t ∧
        t.ms.mem = s.ms.mem ∧ t.ms.poison = s.ms.poison ∧ t.cores = s.cores ∧
        t.seq k = { (s.seq k).setReg gd (BitVec.ofNat 64 (leNat bs)) with outst := rest, stall := .none }) ∧
    (∀ gd a e, n.kind = .ldx gd → s.narrowTarget j k n.addr = some (.stack a) → s.memRead a 8 = .error e →
      exec (.narrowReturn k) s = .next (s.seqAccFault k e)) ∧
    (∀ gd c off, n.kind = .ldx gd → s.narrowTarget j k n.addr = some (.shared c off) →
      ∃ t, exec (.narrowReturn k) s = .next t ∧ SameRest s t ∧ t.cores = s.cores ∧
        (∀ x, (t.cluster x).scache = (s.cluster x).scache) ∧
        t.seq k = { (s.seq k).setReg gd (BitVec.ofNat 64 (leNat ((s.cluster c).scache.readBytes off 8))) with outst := rest, stall := .none }) ∧
    (∀ gd, n.kind = .ldx gd → s.narrowTarget j k n.addr = some .roomPort →
      ((s.cluster k).roomQ = [] → ∃ t, exec (.narrowReturn k) s = .next t ∧ OnlySequencer k [2] s t ∧
        t.seq k = { (s.seq k).setReg gd (BitVec.ofNat 64 (4 * 2 ^ 60)) with outst := rest, stall := .none }) ∧
      (∀ y r unread, (s.cluster k).roomQ = ⟨y, some r⟩ :: unread → ∃ t, exec (.narrowReturn k) s = .next t ∧ SameRest s t ∧
        t.cores = s.cores ∧ (t.cluster k).roomQ = unread ∧ (∀ x, x ≠ k.val → t.cluster x = s.cluster x) ∧
        t.seq k = { (s.seq k).setReg gd r with outst := rest, stall := .none }) ∧
      (∀ y unread, (s.cluster k).roomQ = ⟨y, none⟩ :: unread → exec (.narrowReturn k) s = .next s)) ∧
    (∀ fn gd arg cmp c off, n.kind = .amo fn gd arg cmp → s.narrowTarget j k n.addr = some (.shared c off) →
      let old : Word := BitVec.ofNat 32 (leNat ((s.cluster c).scache.readBytes off 4))
      ∃ t new, exec (.narrowReturn k) s = .next t ∧ SameRest s t ∧ t.cores = s.cores ∧
        (fn = 0 → new = old + arg) ∧ (fn = 1 → new = if old = cmp then arg else old) ∧
        (fn = 2 → new = BitVec.ofInt 32 (min old.toInt arg.toInt)) ∧ (fn = 3 → new = BitVec.ofInt 32 (max old.toInt arg.toInt)) ∧
        leNat ((t.cluster c).scache.readBytes off 4) = new.toNat ∧
        (∀ x, x < off ∨ off + 4 ≤ x → (t.cluster c).scache.read x = (s.cluster c).scache.read x) ∧
        (∀ d, d ≠ c → (t.cluster d).scache = (s.cluster d).scache) ∧
        (∀ r, t.gReg k r = if r = gd ∧ r ≠ 0 then BitVec.ofInt 64 old.toInt else s.gReg k r) ∧
        (t.seq k).outst = rest ∧ (t.seq k).stall = .none)

/-- R505 and R236: the oldest outstanding STX is accepted; at the room port it makes a request, whose result is BAD_REQUEST at once where it
asks neither for a PIN nor for an UNPIN. -/
def Obligations.NarrowWriteAccepted : Prop :=
  ∀ (k : ClusterId) (s : State) (j : Job) (a : Nat) (v : Quad) (rest : List Narrow),
    s.narrowJob k = some j → (s.seq k).outst = ⟨a, .stx v⟩ :: rest →
    let after := fun (t : State) =>
      (t.seq k).posts = (s.seq k).posts.map (fun p => (p.1 - 1, p.2)) ∧ (t.seq k).regs = (s.seq k).regs ∧ (t.seq k).pc = (s.seq k).pc ∧
      (∀ m, (s.seq k).stall = .stxLimit m → (t.seq k).outst = rest ++ [m] ∧ (t.seq k).stall = .none) ∧
      ((∀ m, (s.seq k).stall ≠ .stxLimit m) → (t.seq k).outst = rest ∧ (t.seq k).stall = (s.seq k).stall)
    (∀ c off, s.narrowTarget j k a = some (.shared c off) →
      ∃ t, exec (.narrowAccepted k) s = .next t ∧ after t ∧ SameRest s t ∧ t.cores = s.cores ∧
        (∀ i, i < 8 → (t.cluster c).scache.read (off + i) = BitVec.ofNat 8 (v.toNat / 256 ^ i)) ∧
        (∀ x, x < off ∨ off + 8 ≤ x → (t.cluster c).scache.read x = (s.cluster c).scache.read x) ∧
        (∀ d, d ≠ c → (t.cluster d).scache = (s.cluster d).scache)) ∧
    (∀ d u, s.narrowTarget j k a = some (.stack d) → s.memWrite d (leBytes 8 v.toNat) = .ok u →
      ∃ t, exec (.narrowAccepted k) s = .next t ∧ after t ∧ t.ms = u.ms ∧ t.cores = s.cores) ∧
    (s.narrowTarget j k a = some .roomPort →
      ∃ t, exec (.narrowAccepted k) s = .next t ∧ after t ∧ SameRest s t ∧ t.cores = s.cores ∧
        (t.cluster k).roomQ = (s.cluster k).roomQ ++ [⟨v, if v.toNat / 2 ^ 60 = 1 ∨ v.toNat / 2 ^ 60 = 2 then none
          else some (BitVec.ofNat 64 (4 * 2 ^ 60))⟩] ∧
        t.clusterCtr k 20 = s.clusterCtr k 20 + 1 ∧ (t.cluster k).scache = (s.cluster k).scache ∧
        ∀ x, x ≠ k.val → t.cluster x = s.cluster x) ∧
    (∀ d e u, s.narrowTarget j k a = some (.stack d) → s.memWrite d (leBytes 8 v.toNat) = .error (e, u) →
      exec (.narrowAccepted k) s = .next (u.seqAccFault k e))

/-- R82 with the alignment rule of R81. -/
def Obligations.IssueDeliversOrStalls : Prop :=
  ∀ (k : ClusterId) (gd ga gb : BitVec 5) (fn : BitVec 11) (s : State),
    let a := (s.gReg k ga).toNat
    let mask : BitVec 16 := (s.gReg k gb).truncate 16
    let legal := gd = 0 ∧ fn = 0 ∧ a % 64 = 0 ∧ 0x10000 ≤ a ∧ a ≤ 0x1FFC0
    let d : Desc := BitVec.ofNat 512 (leNat ((s.seq k).loc.readBytes a 64))
    let pc := (s.seq k).pc + 4
    let got := fun (m : BitVec 16) (d : Desc) (t : State) => ∀ c : CoreId,
      t.core c = if clusterOf c = k.val ∧ (m &&& s.coreMask k).getLsbD (c.val % 16) then
        { s.core c with issued := (s.core c).issued + 1, queue := (s.core c).queue ++ [{ desc := d, ord := (s.core c).issued + 1 }] }
        else s.core c
    let room := fun (m : BitVec 16) => ∀ c : CoreId, clusterOf c = k.val → (m &&& s.coreMask k).getLsbD (c.val % 16) →
      (s.core c).queue.length < 16
    ((s.seqJob k).isSome → legal →
      (room mask → ∃ t, exec (.issue k gd ga gb fn) s = .next t ∧ got mask d t ∧ SameRest s t ∧
        Executed k s t pc (fun q => { q with issued := q.issued + 1, stall := .none })) ∧
      (¬ room mask → ∃ t, exec (.issue k gd ga gb fn) s = .next t ∧ OnlySequencer k [1, 3] s t ∧
        Executed k s t pc (fun q => { q with issued := q.issued + 1, stall := .issue d mask }))) ∧
    ((s.seqJob k).isSome → ¬ legal → exec (.issue k gd ga gb fn) s = .next (s.seqFault k stIllegal)) ∧
    (∀ d' m', (s.narrowJob k).isSome → (s.seq k).stall = .issue d' m' →
      (room m' → ∃ t, exec (.issueResume k) s = .next t ∧ got m' d' t ∧ SameRest s t ∧ (t.seq k) = { s.seq k with stall := .none }) ∧
      (¬ room m' → exec (.issueResume k) s = .next s))

/-- Table 3-7, OPC 0x21 and 0x3E. A core is clear once no instruction is in its queue and no chain commit of one waits (R86). That a register field without a role is ignored, GD and GB of TFENCE and GD, GA and GB of HALT, is the
model's reading (log 114). -/
def Obligations.FenceAndHalt : Prop :=
  ∀ (k : ClusterId) (gd ga gb : BitVec 5) (s : State),
    let mask : BitVec 16 := (s.gReg k ga).truncate 16
    let clear := fun (m : BitVec 16) => ∀ c : CoreId, clusterOf c = k.val → (m &&& s.coreMask k).getLsbD (c.val % 16) →
      (s.core c).queue = [] ∧ (s.core c).commits = []
    let pc := (s.seq k).pc + 4
    ((s.seqJob k).isSome →
      (clear mask → ∃ t, exec (.tfence k gd ga gb 0) s = .next t ∧ RegStep k s t 0 0 pc) ∧
      (¬ clear mask → ∃ t, exec (.tfence k gd ga gb 0) s = .next t ∧ OnlySequencer k [1] s t ∧
        Executed k s t pc (fun q => { q with stall := .tfence mask })) ∧
      (∃ t, exec (.halt k gd ga gb 0) s = .next t ∧ OnlySequencer k [1] s t ∧ Executed k s t pc (fun q => { q with halted := true })) ∧
      ∀ fn, fn ≠ 0 → exec (.tfence k gd ga gb fn) s = .next (s.seqFault k stIllegal) ∧
        exec (.halt k gd ga gb fn) s = .next (s.seqFault k stIllegal)) ∧
    (∀ m, (s.narrowJob k).isSome → (s.seq k).stall = .tfence m →
      (clear m → ∃ t, exec (.tfenceRelease k) s = .next t ∧ OnlySequencer k [2, 4] s t ∧ t.seq k = { s.seq k with stall := .none }) ∧
      (¬ clear m → exec (.tfenceRelease k) s = .next s))

/-- R84 and Table 3-8; R85, R91 and Table 3-7, OPC 0x24, 0x25, 0x28, 0x29. A CSET of a counter that video requests are posted by, or that
releases the frames of the job's window, has that effect too (R185, R186, R385); that it has it in its own step is the model's reading
(log 115). That PREAD and PSET of an operand of 2^12 or more are ILLEGAL,
and that a register field without a role is ignored, GB of CREAD and PREAD and GD of CSET and PSET, are the model's readings (logs 112 and
114). -/
def Obligations.RegisterAndCounterReads : Prop :=
  (∀ (k : ClusterId) (gd : BitVec 5) (s : State) (j : Job), s.seqJob k = some j →
     let e := j.entry.toNat
     let rank := (teamOf (BitVec.ofNat 12 (e / 2 ^ 16))).findIdx (fun x => x == k.val)
     let reads := fun (n : Half) (v : Quad) =>
       ∃ t, exec (.csrr k gd 0 n) s = .next t ∧ RegStep k s t gd v ((s.seq k).pc + 4)
     reads 0x000 (s.seq k).cycle ∧ reads 0x001 (s.seq k).retired ∧ reads 0x002 (s.seq k).issued ∧
     reads 0x010 (j.id.zeroExtend 64) ∧ reads 0x011 (BitVec.ofNat 64 rank) ∧
     reads 0x012 (BitVec.ofNat 64 (teamOf (BitVec.ofNat 12 (e / 2 ^ 16))).length) ∧
     reads 0x013 ((~~~ (s.cluster k).coreFence).zeroExtend 64) ∧
     reads 0x014 (BitVec.ofNat 64 (e / 2 ^ 200 % 2 ^ 40)) ∧ reads 0x015 (BitVec.ofNat 64 (e / 2 ^ 240 % 2 ^ 40)) ∧
     reads 0x016 (j.epoch.zeroExtend 64) ∧
     (∀ n : Half, n.toNat ∉ [0, 1, 2, 0x10, 0x11, 0x12, 0x13, 0x14, 0x15, 0x16] → ∀ ga, exec (.csrr k gd ga n) s = .next (s.seqFault k stIllegal)) ∧
     ∀ ga n, ga ≠ 0 → exec (.csrr k gd ga n) s = .next (s.seqFault k stIllegal)) ∧
  (∀ (k : ClusterId) (gd ga gb : BitVec 5) (s : State) (j : Job), s.seqJob k = some j →
     let a := (s.gReg k ga).toNat
     let v : Word := (s.gReg k gb).truncate 32
     let pc := (s.seq k).pc + 4
     (∀ x, a < 2 ^ 16 → j.team[a / 2 ^ 12]? = some x →
       (∃ t, exec (.cread k gd ga gb 0) s = .next t ∧ RegStep k s t gd ((s.syncVal x (a % 2 ^ 12)).zeroExtend 64) pc) ∧
       (let i := a % 2 ^ 12
        let posts := fun (n : Nat) => epOn (s.stream n).enc.params = true ∧ j.syncTarget (epSubmit (s.stream n).enc.params) = some (x, i)
        let releases := fun (n : Nat) => j.slot = some n ∧ j.syncTarget j.releaseId = some (x, i) ∧ (s.streamFor n).map Job.id = some j.id
        ∃ t, exec (.cset k gd ga gb 0) s = .next t ∧ t.cores = s.cores ∧ Executed k s t pc (fun q => q) ∧
         (∀ y n, t.syncVal y n = if y = x ∧ n = i then v else s.syncVal y n) ∧
         (t.ms = s.ms ∧ t.net = s.net ∧ t.pwr = s.pwr ∧ t.por = s.por ∧ t.boot = s.boot ∧ t.pacing = s.pacing ∧ t.out = s.out ∧
           t.pending = s.pending ∧ t.hub = { s.hub with streams := t.hub.streams } ∧
           t.enc = { s.enc with posts := t.enc.posts } ∧ ∀ c, t.flashCh c = s.flashCh c) ∧
         ((∀ n ∈ j.streams, ¬ posts n) → t.hub = s.hub ∧ t.enc = s.enc) ∧
         (∀ n, posts n → n ∈ j.streams → s.heldBy j n = true →
           (((s.stream n).enc.posts.getLast?.map Prod.snd).getD 0 < v.toNat →
             (t.stream n).enc.posts.map Prod.snd = (s.stream n).enc.posts.map Prod.snd ++ [v.toNat]) ∧
           (v.toNat ≤ ((s.stream n).enc.posts.getLast?.map Prod.snd).getD 0 → t.stream n = s.stream n)) ∧
         ((∀ n, ¬ releases n) → t.car = s.car) ∧
         (∀ n, releases n → t.slot n = (s.slot n).releaseTo (s.winFrames n) (v.toNat / max 1 j.team.length) ∧
           ∀ m, m ≠ n → t.slot m = s.slot m))) ∧
     (∀ x, a < 2 ^ 12 → j.team[a / 2 ^ 8]? = some x →
       let c := 16 * x + a / 2 ^ 4 % 2 ^ 4
       (∃ t, exec (.pread k gd ga gb 0) s = .next t ∧ RegStep k s t gd ((s.progVal c (a % 2 ^ 4)).zeroExtend 64) pc) ∧
       (∃ t, exec (.pset k gd ga gb 0) s = .next t ∧ OnlySequencer k [1] s { t with cores := s.cores } ∧ Executed k s t pc (fun q => q) ∧
         (∀ d i, t.progVal d i = if d = c ∧ i = a % 2 ^ 4 then v else s.progVal d i) ∧
         (∀ d, (t.core d).store = (s.core d).store ∧ (t.core d).queue = (s.core d).queue))) ∧
     ((2 ^ 16 ≤ a ∨ j.team[a / 2 ^ 12]? = none) →
       exec (.cread k gd ga gb 0) s = .next (s.seqFault k stIllegal) ∧ exec (.cset k gd ga gb 0) s = .next (s.seqFault k stIllegal)) ∧
     ((2 ^ 12 ≤ a ∨ j.team[a / 2 ^ 8]? = none) →
       exec (.pread k gd ga gb 0) s = .next (s.seqFault k stIllegal) ∧ exec (.pset k gd ga gb 0) s = .next (s.seqFault k stIllegal)))

/-- R87 for sequencers and for header waits. That CWAIT's GD, which has no role, is ignored is the model's reading (log 114). -/
def Obligations.CounterWaits : Prop :=
  (∀ (k : ClusterId) (gd ga gb : BitVec 5) (s : State) (j : Job) (x : Nat), s.seqJob k = some j →
    let a := (s.gReg k ga).toNat
    let w : Word := (s.gReg k gb).truncate 32
    let pc := (s.seq k).pc + 4
    a < 2 ^ 16 → j.team[a / 2 ^ 12]? = some x →
    (w.toNat ≤ (s.syncVal x (a % 2 ^ 12)).toNat → ∃ t, exec (.cwait k gd ga gb 0) s = .next t ∧ RegStep k s t 0 0 pc) ∧
    ((s.syncVal x (a % 2 ^ 12)).toNat < w.toNat → ∃ t, exec (.cwait k gd ga gb 0) s = .next t ∧ OnlySequencer k [1] s t ∧
      Executed k s t pc (fun q => { q with stall := .cwait (BitVec.ofNat 16 a) w }))) ∧
  (∀ (k : ClusterId) (s : State) (j : Job) (id : Half) (w : Word) (x : Nat),
    s.narrowJob k = some j → (s.seq k).stall = .cwait id w → j.team[id.toNat / 2 ^ 12]? = some x →
    (w.toNat ≤ (s.syncVal x (id.toNat % 2 ^ 12)).toNat →
      ∃ t, exec (.cwaitRelease (.seq k)) s = .next t ∧ OnlySequencer k [2] s t ∧ t.seq k = { s.seq k with stall := .none }) ∧
    ((s.syncVal x (id.toNat % 2 ^ 12)).toNat < w.toNat → exec (.cwaitRelease (.seq k)) s = .next s)) ∧
  (∀ (c : CoreId) (s : State) (j : Job) (e : QEntry),
    s.issueJob c = some j → (s.core c).candidate = some e → dWaitKind e.d ≠ 0 → e.waitMet = false →
    (s.waitOk j e.d = true → ∃ t, exec (.cwaitRelease (.core c)) s = .next t ∧ OnlyCore c s t ∧
      (t.core c).queue = (s.core c).queue.map (fun q => if q.ord = e.ord then { q with waitMet := true } else q)) ∧
    (s.waitOk j e.d = false → exec (.cwaitRelease (.core c)) s = .next s))

/-- R86 and R88. That CPOST's GD, which has no role, is ignored is the model's reading (log 114). -/
def Obligations.SyncPosts : Prop :=
  let adds := fun (j : Job) (id : Half) (v : Word) (s t : State) => ∀ x, j.team[id.toNat / 2 ^ 12]? = some x →
    ((s.syncVal x (id.toNat % 2 ^ 12)).toNat + v.toNat < 2 ^ 32 →
      ∀ y i, t.syncVal y i = if y = x ∧ i = id.toNat % 2 ^ 12 then s.syncVal x (id.toNat % 2 ^ 12) + v else s.syncVal y i) ∧
    (2 ^ 32 ≤ (s.syncVal x (id.toNat % 2 ^ 12)).toNat + v.toNat → s.hub.sweeping = false →
      (∀ y i, t.syncVal y i = s.syncVal y i) ∧ t.hub.sweeping = true ∧ t.hub.lastFault.status = 0x41 ∧ t.hub.lastFault.limit = 4 ∧
      t.hub.lastFault.job = j.id)
  (∀ (k : ClusterId) (gd ga gb : BitVec 5) (s : State) (j : Job), s.seqJob k = some j →
    let a := (s.gReg k ga).toNat
    let v : Word := (s.gReg k gb).truncate 32
    a < 2 ^ 16 → (j.team[a / 2 ^ 12]?).isSome →
    ((s.seq k).outst = [] → ∃ t, exec (.cpost k gd ga gb 0) s = .next t ∧ adds j (BitVec.ofNat 16 a) v s t ∧
      (t.seq k).pc = (s.seq k).pc + 4 ∧ (t.seq k).posts = (s.seq k).posts ∧ t.ms = s.ms ∧ t.cores = s.cores) ∧
    ((s.seq k).outst ≠ [] → ∃ t, exec (.cpost k gd ga gb 0) s = .next t ∧ OnlySequencer k [1] s t ∧
      Executed k s t ((s.seq k).pc + 4) (fun q => { q with posts := q.posts ++ [(q.outst.length, ⟨1, BitVec.ofNat 16 a, v⟩)] }))) ∧
  (∀ (k : ClusterId) (s : State) (j : Job) (p : PendPost) (rest : List (Nat × PendPost)),
    s.narrowJob k = some j → (s.seq k).posts = (0, p) :: rest →
    ∃ t, exec (.syncPostEffect (.seq k)) s = .next t ∧ adds j p.id p.val s t ∧ (t.seq k) = { s.seq k with posts := rest } ∧
      t.ms = s.ms ∧ t.cores = s.cores) ∧
  (∀ (c : CoreId) (s : State) (j : Job) (p : PendPost) (rest : List PendPost),
    s.postJob c = some j → takePost 1 (s.core c).posts = some (p, rest) →
    ((∀ m ∈ (s.core c).commits, postsAhead 1 (s.core c).posts < m.before) →
      ∃ t, exec (.syncPostEffect (.core c)) s = .next t ∧ adds j p.id p.val s t ∧ (t.core c).posts = rest ∧
        t.core c = { s.core c with posts := rest, commits := (t.core c).commits } ∧
        (t.core c).commits = (s.core c).commits.map (fun m => { m with before := m.before - 1 }) ∧ t.ms = s.ms ∧
        ∀ d, d ≠ c → t.core d = s.core d) ∧
    ((∃ m ∈ (s.core c).commits, m.before ≤ postsAhead 1 (s.core c).posts) → exec (.syncPostEffect (.core c)) s = .next s))

/-- R92. The counter's value is PASS_TAG in bits [31:24], ROWS in [23:0] (R91). A post waits while a chain commit of an instruction before
its own has yet to write the shared cache (R86). The second part: two cores' posts to one counter, both
with a tag at or up to 127 past the counter's, leave one value in either order. -/
def Obligations.ProgressPosts : Prop :=
  (∀ (c : CoreId) (s : State) (j : Job) (p : PendPost) (rest : List PendPost) (x : Nat),
    s.postJob c = some j → takePost 2 (s.core c).posts = some (p, rest) →
    j.team[p.id.toNat / 2 ^ 8 % 2 ^ 4]? = some x →
    let d := 16 * x + p.id.toNat / 2 ^ 4 % 2 ^ 4
    let i := p.id.toNat % 2 ^ 4
    let cTag := (s.progVal d i).toNat / 2 ^ 24
    let cRows := (s.progVal d i).toNat % 2 ^ 24
    let pTag := p.val.toNat / 2 ^ 24
    let pRows := p.val.toNat % 2 ^ 24
    let dist := (pTag + 256 - cTag) % 256
    ((s.core c).postVisible 2 = false → exec (.progressPostEffect c) s = .next s) ∧
    ((s.core c).postVisible 2 = true → ∃ t, exec (.progressPostEffect c) s = .next t ∧
      (∀ e m, (e, m) ≠ (d, i) → t.progVal e m = s.progVal e m) ∧
      (t.core c).posts = rest ∧ t.ms = s.ms ∧ t.hub = s.hub ∧
      (dist = 0 → (t.progVal d i).toNat = cTag * 2 ^ 24 + max cRows pRows ∧ t.coreCtr d 10 = s.coreCtr d 10) ∧
      (1 ≤ dist ∧ dist ≤ 127 → t.progVal d i = p.val ∧ t.coreCtr d 10 = s.coreCtr d 10) ∧
      (128 ≤ dist → t.progVal d i = s.progVal d i ∧ t.coreCtr d 10 = s.coreCtr d 10 + 1))) ∧
  (∀ (c c' : CoreId) (s : State) (j j' : Job) (p p' : PendPost) (rest rest' : List PendPost) (d i : Nat), c ≠ c' →
    (s.core c).postVisible 2 = true → (s.core c').postVisible 2 = true → s.postJob c = some j → takePost 2 (s.core c).posts = some (p, rest) → j.progTarget p.id = some (d, i) →
    s.postJob c' = some j' → takePost 2 (s.core c').posts = some (p', rest') → j'.progTarget p'.id = some (d, i) →
    (∀ v ∈ [p.val, p'.val], (v.toNat / 2 ^ 24 + 256 - (s.progVal d i).toNat / 2 ^ 24) % 256 ≤ 127) →
    ∃ a b a' b', exec (.progressPostEffect c) s = .next a ∧ exec (.progressPostEffect c') a = .next b ∧
      exec (.progressPostEffect c') s = .next a' ∧ exec (.progressPostEffect c) a' = .next b' ∧
      b.progVal d i = b'.progVal d i ∧ (b.core c).posts = rest ∧ (b'.core c').posts = rest' ∧
      ∀ e m, (e, m) ≠ (d, i) → b.progVal e m = s.progVal e m ∧ b'.progVal e m = s.progVal e m)

/-- R95 to R97, and R349 and R350 for a channel bound to an exchange barrier: the last arrival of a member of a level sends ARRIVE by
the port toward rank 0, while that port sends (R322); at another port the record waits until the port is UP (the model's choice, log 222).
That register fields without a role are ignored, GD and GB of BAR and GD of BCFG, is the
model's reading (log 114). -/
def Obligations.BarrierChannels : Prop :=
  (∀ (k : ClusterId) (gd ga gb : BitVec 5) (s : State) (j : Job) (b : Barrier), s.seqJob k = some j →
    s.job? j.id = some j → j.barrier? (s.gReg k ga).toNat = some b →
    let r := rankIn j.team k
    let m : BitVec 17 := (s.gReg k gb).truncate 17 &&& (1#1 ++ ~~~ (s.cluster k).coreFence)
    (b.isMember r 16 = true →
      ∃ t, exec (.seqBar k gd ga gb 0) s = .next t ∧ (t.seq k).stall = .bar b.chan ∧ (t.seq k).pc = (s.seq k).pc + 4 ∧
        (∃ j', t.job? j.id = some j' ∧ ∃ b', j'.barrier? b.chan = some b' ∧ (r, 16) ∈ b'.arrived ∧ ∀ a ∈ b.arrived, a ∈ b'.arrived) ∧
        t.ms = s.ms ∧ t.cores = s.cores ∧
        (b.xbind = none → t.net = s.net) ∧
        ∀ g top l, b.xbind = some (g, top) → b.xsent = false → b.xreleased = false →
          { b with arrived := b.arrived ++ [(r, 16)] }.full j.team.length = true → (r, 16) ∉ b.arrived →
          let e := s.routeEntry g
          s.xFront e b.chan (b.xround + 1) (xLevels e top) = some l → rtRank e l 0 ≠ 0 →
          let p := rtPortTo e l (rtRank e l 0) 0
          let sends := (s.port p).state = .up ∨ (s.port p).state = .draining
          p < 8 →
          (sends → ∃ more, (t.port p).ctrlOut = (s.port p).ctrlOut ++ xrecord b.chan 0 l (rtTag e) (b.xround + 1) :: more) ∧
          (¬ sends → ∃ more, (t.port p).ctrlHeld = (s.port p).ctrlHeld ++ xrecord b.chan 0 l (rtTag e) (b.xround + 1) :: more)) ∧
    (b.isMember r 16 = false → exec (.seqBar k gd ga gb 0) s = .next (s.seqFault k stIllegal)) ∧
    (b.arrived = [] → ∃ t, exec (.bcfg k gd ga gb 0) s = .next t ∧ (t.seq k).pc = (s.seq k).pc + 4 ∧ t.ms = s.ms ∧ t.cores = s.cores ∧
      ∃ j', t.job? j.id = some j' ∧ ∃ b', j'.barrier? b.chan = some b' ∧ mget 0 b'.member r = m ∧
        ∀ r', r' ≠ r → mget 0 b'.member r' = mget 0 b.member r') ∧
    (b.arrived ≠ [] → exec (.bcfg k gd ga gb 0) s = .next (s.seqFault k stIllegal))) ∧
  (∀ (job : JobId) (chan : Fin 16) (s : State) (j : Job) (b : Barrier),
    s.job? job = some j → s.hub.sweeping = false → (j.phase = .running ∨ j.phase = .stopping) → j.barrier? chan = some b →
    b.arrived ≠ [] → (b.xbind = none ∨ b.xreleased = true) →
    (∀ r w, r < j.team.length → w < 17 → b.isMember r w = true → (r, w) ∈ b.arrived) →
    ∃ t, exec (.barrierRelease job chan) s = .next t ∧ t.ms = s.ms ∧
      (∃ j', t.job? job = some j' ∧ ∃ b', j'.barrier? chan = some b' ∧ b'.arrived = [] ∧ b'.xreleased = false) ∧
      (∀ r k, (r, 16) ∈ b.arrived → j.team[r]? = some k → (s.seq k).stall = .bar chan → (t.seq k).stall = .none) ∧
      ∀ r w k q, (r, w) ∈ b.arrived → w < 16 → j.team[r]? = some k → q ∈ (s.core (16 * k + w)).queue → q.arrived = true →
        q.released = false → q.phase = .queued → dOpc q.d = 0x32 → bChan q.d = chan →
        { q with released := true, phase := .done 0 } ∈ (t.core (16 * k + w)).queue)

/-- What the families on ports A and V do between their start and their retirement (R73). -/
def Obligations.EnginesStoreTheirResults : Prop :=
  ∀ (c : CoreId) (s : State) (job : Job) (e : QEntry),
    let x := s.core c
    (s.runningOf c .mma = some (job, e) → ∃ t, exec (.mma c) s = .next t ∧
      EngineDone c e (mmaWrites .mma e.d e.its e.clip x.weights none x.store x.acc) s t ∧
      (t.core c).kept = if mKeep e.d then x.kept else none) ∧
    (∀ f, (f = .conv ∨ f = .convDw) → s.runningOf c f = some (job, e) → ∃ t,
      exec (if f = .conv then .conv c else .convDw c) s = .next t ∧
      EngineDone c e (convWrites f e.d e.its e.clip x.weights x.store x.acc job.lbBase job.slotBytes) s t ∧ (t.core c).kept = x.kept) ∧
    (∀ b, x.bank (dBank e.d) = some b →
      (s.runningOf c .sfn = some (job, e) → ∃ t, exec (.sfn c) s = .next t ∧
        EngineDone c e (sfnWrites e.d e.its e.clip x.store b) s t ∧ (t.core c).acc = x.acc) ∧
      (s.runningOf c .smax = some (job, e) → ∃ t, exec (.smax c) s = .next t ∧
        EngineDone c e (smaxWrites e.d e.its e.clip x.store b) s t ∧ (t.core c).acc = x.acc)) ∧
    (s.runningOf c .norm = some (job, e) → ∃ t, exec (.norm c) s = .next t ∧
      EngineDone c e (normWrites e.d e.its e.clip x.store) s t ∧ (t.core c).acc = x.acc) ∧
    (s.runningOf c .crop = some (job, e) → ∃ t, exec (.crop c) s = .next t ∧
      EngineDone c e (cropWrites e.d x.store) s t ∧ (t.core c).acc = x.acc)

/-- R37, R42, R43 and R112 for one word of the accumulator store, without INT8, INIT 1 or 2, a batch or a claim. That the blocks past
K_EXT add +0 with a rounding (log 92), and that a block sum beyond the FP32 range is an infinity as it is rounded, before the next one is
added (log 141), are the model's readings. -/
def Obligations.MmaAccumulatorWord : Prop :=
  ∀ (c : CoreId) (s : State) (job : Job) (e : QEntry) (r n : Nat),
    s.runningOf c .mma = some (job, e) → dBatch e.d = 0 → e.claim = none → e.clip = none → mInit e.d = 0 →
    (dOp1 e.d).fmt ≠ fmtInt8 → r < (dOp1 e.d).rows → n < mNExt e.d → mNExt e.d ≤ 256 →
    ∃ t, exec (.mma c) s = .next t ∧
      leNat ((t.core c).acc.readBytes (((mAccRow e.d + r) * 256 + n) * 4) 4) =
        fp32.encode (accBlocks Val.zero (List.zipWith Val.mul
          ((dOp1 e.d).row (s.core c).store r (mKExt e.d) 256)
          (tileCol (mWFmt e.d) (s.core c).weights n (mKExt e.d))) 256)

/-- R263 for one FP32 element. -/
def Obligations.SfnElement : Prop :=
  ∀ (c : CoreId) (s : State) (job : Job) (e : QEntry) (b : SfuBank) (r j : Nat),
    s.runningOf c .sfn = some (job, e) → (s.core c).bank (dBank e.d) = some b →
    dBatch e.d = 0 → e.claim = none → e.clip = none → (dSop1 e.d).fmt = 0 → (dSop2 e.d).fmt = 0 →
    r < (dSop1 e.d).rows → j < vCols e.d → 4 * vCols e.d ≤ (dSop2 e.d).pitch →
    ∃ t, exec (.sfn c) s = .next t ∧
      leNat ((t.core c).store.readBytes ((dSop2 e.d).addr + r * (dSop2 e.d).pitch + 4 * j) 4) =
        fp32.encode (sfuEval b (ffma (vPreA e.d)
          (fp32.decode (leNat ((s.core c).store.readBytes ((dSop1 e.d).addr + r * (dSop1 e.d).pitch + 4 * j) 4))) (vPreB e.d)))

/-- R114, R195 and Table 6-4: the adapter's entry is read, leaving w, then the tile, leaving u. Over an INT8 pair the accumulators are
free before D is made of them (log 149), and an unreadable tile counts one error however many granules fail (log 135): the model's
choices. -/
def Obligations.AdapterMma : Prop :=
  ∀ (c : CoreId) (s : State) (job : Job) (e : QEntry), s.runningOf c .mmaLa = some (job, e) →
    let x := s.core c
    let w := s.readDone (s.dv 0x0A00 1 + 64 * laAdapter e.d) 64
    (∀ y, s.adapterErr .mmaLa e.d = some y → exec (.mmaLa c) s = .next (s.coreAccFault c e.ord y)) ∧
    (∀ a u, s.adapterErr .mmaLa e.d = none → w.adapterTile (clusterOf c) e.d = .ok (a, u) → ∃ t, exec (.mmaLa c) s = .next t ∧
      u.core c = x ∧ u.ms.mem = s.ms.mem ∧
      (let v := u.forgetPair c e
       ((dOp1 e.d).fmt ≠ fmtInt8 → v = u) ∧ v.core c = { x with acc := (v.core c).acc } ∧
       EngineDone c e (mmaWrites .mmaLa e.d e.its e.clip x.weights (some a) x.store (v.core c).acc) v t) ∧
      (t.core c).kept = if mKeep e.d then x.kept else none) ∧
    (∀ a, s.adapterErr .mmaLa e.d = none → w.adapterTile (clusterOf c) e.d = .error (.ue a) → ∃ t, exec (.mmaLa c) s = .next t ∧
      (t.core c).store = x.store ∧ (t.core c).acc = x.acc ∧ (t.core c).kept = (if mKeep e.d then x.kept else none) ∧
      (t.core c).queue = x.queue.map (fun q => if q.ord = e.ord then { q with phase := .done iTierError } else q) ∧
      (t.stack (addrStack a)).ue = (s.stack (addrStack a)).ue + 1)

/-- R131, R203, R205 and R215: what the attention engine leaves. -/
def Obligations.AttentionStores : Prop :=
  ∀ (c : CoreId) (s : State) (job : Job) (e : QEntry) (b : SfuBank), (s.core c).bank (dBank e.d) = some b →
    let x := s.core c
    let fwd := attnWrites e.d e.its e.clip x.store b
    let bwd := attnBwdWrites e.d e.its e.clip x.store b
    let leaves := fun (w : Writes × Nat) (rows : Nat) (s t : State) =>
      OnlyCore c s t ∧ (t.core c).store = w.1.cs.foldl (fun m p => m.writeBytes p.1 p.2) x.store ∧
      (∀ a, ¬ w.1.hits a → (t.core c).store.read a = x.store.read a) ∧
      (∀ a, rows * 1024 ≤ a → ¬ w.1.hitsAcc a → (t.core c).acc.read a = x.acc.read a) ∧
      t.coreCtr c 11 = s.coreCtr c 11 + BitVec.ofNat 64 w.2 ∧
      (∀ q ∈ (t.core c).queue, q.ord = e.ord → q.phase = .done iOk)
    (s.runningOf c .attnFwd = some (job, e) → ∃ t, exec (.attnFwd c) s = .next t ∧ leaves fwd (e.its.length * ((dSop1 e.d).clip e.clip).rows) s t) ∧
    (s.runningOf c .attnBwd = some (job, e) → ∃ t, exec (.attnBwd c) s = .next t ∧ leaves bwd 512 s t) ∧
    (∀ bs, s.runningOf c .attnRelay = some (job, e) → e.computed = false → s.memRead (xAddr e.d) 64 = .ok bs →
      let r := relayRecOf (leNat bs)
      r.spare = 0 → 0 < r.units → r.units ≤ 2097152 → r.shard % 2048 = 0 →
      (BitVec.ofNat 16 (xSeq e.d) - r.base).toNat < rtSize (s.routeEntry (xGroup e.d)) (xLevel e.d) →
      s.exchRegion (xAddr e.d) (2048 + 2 * r.units * 2048) = true →
      meets (xAddr e.d) (2048 + 2 * r.units * 2048) r.shard (r.units * 2048) = false → (job.syncTarget r.arrive).isSome = true →
      ∃ t, exec (.attnRelay c) s = .next t ∧ leaves fwd (e.its.length * ((dSop1 e.d).clip e.clip).rows) (s.readDone (xAddr e.d) 64) t) ∧
    (∀ bs, s.runningOf c .attnRelay = some (job, e) → s.memRead (xAddr e.d) 64 = .ok bs → job.syncTarget (relayRecOf (leNat bs)).arrive = none →
      exec (.attnRelay c) s = .next (s.coreFault c stIllegal 0 e.ord))

/-- R120, R131, R256 and R259; u is the state once the rows have been read (R156, R169). A GATH makes min(COUNT + 1, DST.ROWS) rows: the
spec does not say which of the two governs, and the model takes the smaller (log 21). -/
def Obligations.MemoryFamiliesCopy : Prop :=
  ∀ (c : CoreId) (s : State) (job : Job) (e : QEntry),
    let x := s.core c
    (∀ u data, s.runningOf c .move = some (job, e) →
      s.readRows c e (moveRows e.d e.its ((e.clip.map (min · (vNRows e.d))).getD (vNRows e.d))) = .ok (u, data) →
      u.ms.mem = s.ms.mem ∧ u.core c = x ∧
      (vDstCs e.d = true → ∃ t, exec (.move c) s = .next t ∧ EngineDone c e { cs := data } u t ∧ (t.core c).acc = x.acc) ∧
      (∀ v, vDstCs e.d = false → u.writeDev c e data = .ok v →
        ∃ t, exec (.move c) s = .next t ∧ t.ms = v.ms ∧ (t.core c).store = x.store ∧
          ∀ q ∈ (t.core c).queue, q.ord = e.ord → q.phase = .done iOk)) ∧
    (∀ u data, s.runningOf c .gath = some (job, e) →
      s.gathRows c e (List.range (min (gCount e.d) (dSop1 e.d).rows)) = .ok (u, data) →
      ∃ t, exec (.gath c) s = .next t ∧ u.ms.mem = s.ms.mem ∧ u.core c = x ∧ EngineDone c e { cs := data } u t ∧
        (t.core c).acc = x.acc) ∧
    (∀ u bs, s.runningOf c .tblLoad = some (job, e) →
      (if tSrcCs e.d then .bytes (x.store.readBytes (tSrc e.d) (64 + 32 * tSegs e.d)) s
       else s.devRead c e (tSrc e.d) (64 + 32 * tSegs e.d) : DevRead) = .bytes bs u →
      u.ms.mem = s.ms.mem ∧ u.core c = x ∧ (tSrcCs e.d = true → u = s) ∧
      (∀ b, loadTable bs (tSegs e.d) (tMono e.d) = some b → ∃ t, exec (.tblLoad c) s = .next t ∧ OnlyCore c u t ∧
        (t.core c).store = x.store ∧ (t.core c).bank0 = x.bank0 ∧ (t.core c).bank1 = x.bank1 ∧
        ∀ q ∈ (t.core c).queue, q.ord = e.ord → q.image = some b ∧ q.phase = .done iOk) ∧
      (loadTable bs (tSegs e.d) (tMono e.d) = none → ∃ t, exec (.tblLoad c) s = .next t ∧ OnlyCore c u t ∧
        (t.core c).store = x.store ∧ ∀ q ∈ (t.core c).queue, q.ord = e.ord → q.phase = .done iTableReject))

/-- R72, R97, R103, R110, R113, R121, R125, R129, R130, R189, R209, R291, R337, and the order of R142: the illegal checks before the
limits. A wait for weights that ends here is charged to the job's slot (R28), which is all that leaves the core where no weights are
read and no operation is opened. -/
def Obligations.TileStarts : Prop :=
  (∀ (c : CoreId) (s : State) (job : Job) (e : QEntry) (f : Fam), s.issueJob c = some job → (s.core c).candidate = some e →
    e.fam = some f → s.adapterErr f e.d = none → s.tileLegal c job (s.core c) e f = true →
    (dStreamEn e.d && s.streamSkips job (dStream e.d)) = false → e.waitMet = false → s.waitOk job e.d = false →
    exec (.tileStart c) s = .next s) ∧
  ∀ (c : CoreId) (s : State) (job : Job) (e : QEntry), s.opensTo c job e →
    let x := s.core c
    let ahead := (x.queue.takeWhile (fun q => decide (q.ord ≠ e.ord)))
    let rest := fun (t : State) => OnlyCore c { s with pwr := t.pwr } t ∧
      (x.entry? e.ord = some e → e.waitFrom = none → t.pwr = s.pwr)
    (∀ f, e.fam = some f → s.tileLegal c job x e f = true →
      (f ∈ [Fam.sfn, .norm, .smax, .crop, .move, .gath, .tblLoad, .scatKv] → dClaim e.d = false → e.clip = none → e.claim = none → e.claimed = false →
        x.portsFree f.ports = true → bankClear ahead f e.d = true → (f = .scatKv → s.scatWaits e = false) →
        let recs := decide (f = .crop)
        let base := descRanges f e.d e.its none 0
        let r := if recs then base.append (recRanges f x.store e.d e.its none) else base
        let before := ahead.filter QEntry.inFlight
        s.clearOf c before base = true → s.clearOf c before r = true →
        (recs = true → s.clearOf c before { cr := headRanges f x.store e.d none } = true ∧ pastGeneral job.general { cr := base.cr } = false) →
        (s.startIllegal c job e f e.its none true recs = false → pastGeneral job.general r = false → emptyOutput f e.d none = false →
          ∃ t, exec (.tileStart c) s = .next t ∧ rest t ∧
            t.core c = { x with queue := x.queue.map (fun q =>
              if q.ord = e.ord then { q with phase := .running, waitMet := true, waitFrom := none } else q) }) ∧
        (s.startIllegal c job e f e.its none true recs = true → exec (.tileStart c) s = .next (s.coreFault c stIllegal 0 e.ord)) ∧
        (s.startIllegal c job e f e.its none true recs = false → pastGeneral job.general r = true →
          exec (.tileStart c) s = .next (s.coreFault c stOverflow 1 e.ord))) ∧
      (f = .wait ∨ f = .post → ∃ t, exec (if f = .wait then .wait c else .post c) s = .next t ∧ rest t ∧
        t.core c = { x with queue := x.queue.map (fun q =>
          if q.ord = e.ord then { q with tab := none, waitMet := true, waitFrom := none, phase := .done iOk } else q) }) ∧
      (f = .bar → x.commits ≠ [] → exec (.bar c) s = .next s) ∧
      (f = .bar → (∀ q ∈ ahead, q.isRetired = true) → x.commits = [] → s.job? job.id = some job → ∀ b, job.barrier? (bChan e.d) = some b →
        ∃ t, exec (.bar c) s = .next t ∧
          (∃ j', t.job? job.id = some j' ∧ ∃ b', j'.barrier? (bChan e.d) = some b' ∧
            (rankIn job.team (clusterOf c), c.val % 16) ∈ b'.arrived) ∧
          ∀ q ∈ (t.core c).queue, q.ord = e.ord → q.arrived = true)) ∧
    ((e.fam = none ∨ ∃ f, e.fam = some f ∧ s.adapterErr f e.d = none ∧ s.tileLegal c job x e f = false) →
      exec (.tileStart c) s = .next (s.coreFault c stIllegal 0 e.ord)) ∧
    (∀ f y, e.fam = some f → s.adapterErr f e.d = some y → exec (.tileStart c) s = .next (s.coreAccFault c e.ord y)) ∧
    ∀ f, e.fam = some f → s.adapterErr f e.d = none → s.tileLegal c job x e f = true →
      let starts := fun (q : QEntry) => { q with phase := .running, waitMet := true, waitFrom := none }
      let n := (keptFor f e.d).tiles * tileBytes (mWFmt e.d)
      let gate := s.weightGate (mWAddr e.d) n
      let needs := keptHit f e.d x.kept = false ∧ ∀ k, x.shadow ≠ some (e.ord, k)
      let filled := f.isConv = true → s.fillsDone c e f = true
      (f.ports ≠ 0 → (x.portsFree f.ports = false ∨ bankClear ahead f e.d = false) → exec (.tileStart c) s = .next s) ∧
      (f.ports ≠ 0 → dClaim e.d = false → e.claimed = false →
        s.clearOf c (ahead.filter QEntry.inFlight) (descRanges f e.d (List.range (dBatch e.d + 1)) none (s.rangeArg f e.d)) = false →
        exec (.tileStart c) s = .next s) ∧
      (dClaim e.d = false → e.clip = none → e.claim = none → e.claimed = false → s.meetsStart c job e f e.its none →
        (f ∈ [Fam.mma, .mmaLa, .conv, .convDw] →
          (keptHit f e.d x.kept = true → filled → ∃ t, exec (.tileStart c) s = .next t ∧ rest t ∧ t.core c = x.withEntry e.ord starts) ∧
          (keptHit f e.d x.kept = true → ¬ filled → exec (.tileStart c) s = .next s) ∧
          (∀ k, keptHit f e.d x.kept = false → x.shadow = some (e.ord, k) → filled → ∃ t, exec (.tileStart c) s = .next t ∧ rest t ∧
            t.core c = { x.withEntry e.ord starts with kept := some k, shadow := none }) ∧
          (∀ bs, needs → gate = .ok → s.memRead (mWAddr e.d) n = .ok bs → filled →
            ∃ t, exec (.tileStart c) s = .next t ∧ t.ms.mem = s.ms.mem ∧
              t.core c = { x.withEntry e.ord starts with kept := some { keptFor f e.d with bytes := bs }, shadow := none } ∧
              ∀ o, o ≠ c.val → t.core o = { s.core o with shadow := (t.core o).shadow }) ∧
          (needs → gate = .wait → e.waitFrom = none → ∃ t, exec (.tileStart c) s = .next t ∧ t.ms = s.ms ∧
            t.core c = { x.withEntry e.ord (fun q => { q with waitFrom := some s.pacing.toNat }) with ctr := (t.core c).ctr }) ∧
          (needs → gate = .failed → ∃ t, exec (.tileStart c) s = .next t ∧ rest t ∧
            t.core c = x.withEntry e.ord (fun q => { q with tab := none, waitMet := true, waitFrom := none, phase := .done iTierError }))) ∧
        (f ∈ [Fam.attnFwd, .attnBwd, .attnRelay] → ∃ t, exec (.tileStart c) s = .next t ∧ rest t ∧
          t.core c = if e.computed || attnAllSkip x.store (attnRec x.store e.d) (dSop1 e.d).rows (dSop2 e.d).rows then x.withEntry e.ord starts
            else { x.withEntry e.ord starts with kept := none, shadow := none }) ∧
        (f ∈ [Fam.mmaRs, .mmaAg, .moveA2a, .moveAr] → (f.isMma = true → keptHit f e.d x.kept = true) →
          (∀ o ∈ s.net.ops, ¬ (o.core = c ∧ o.ord = e.ord ∧ o.job = job.id)) →
          ∃ t o, exec (.tileStart c) s = .next t ∧ t.ms = s.ms ∧ t.core c = x.withEntry e.ord starts ∧
            t.net = { s.net with ops := s.net.ops ++ [o] } ∧ o.core = c ∧ o.ord = e.ord ∧ o.job = job.id ∧ o.group = xGroup e.d ∧
            o.tag = rtTag (s.routeEntry (xGroup e.d)) ∧ o.xseq.toNat = xSeq e.d % 2 ^ 16 ∧ o.level = xLevel e.d ∧
            o.opc.toNat = dOpc e.d ∧ o.begun = false ∧ o.finished = false) ∧
        (∀ bs, f = .reuseChk → s.memRead (s.dv 0x0E00 1 + uEntry e.d / 8) 1 = .ok bs →
          let valid := bit (leNat bs) (uEntry e.d % 8)
          ∃ t, exec (.tileStart c) s = .next t ∧ t.ms.mem = s.ms.mem ∧ (t.core c).store = x.store ∧ (t.core c).acc = x.acc ∧
            (t.core c).queue = x.queue.map (fun q => if q.ord = e.ord then
              { q with phase := .running, computed := valid, outcome := if valid then none else some false } else q) ∧
            (valid = false → (t.core c).tabs = []) ∧
            ∃ b, (t.core c).blocks = [b] ∧ b.chk = e.ord.toNat ∧ b.last = e.ord.toNat + uSpan e.d ∧ b.desc = e.desc ∧
              (valid = false → b.skip = false ∧ b.decided = true))) ∧
      (dClaim e.d = true → e.claimed = false → f ∈ [Fam.mma, .mmaLa, .attnFwd, .attnBwd, .sfn, .norm, .smax, .conv, .convDw, .move] →
        (∀ o, x.claims.find? (fun o => o.work == dWork e.d) = some o → o.left = 0 → exec (.tileStart c) s = .next s) ∧
        (x.claims.find? (fun o => o.work == dWork e.d) = none → x.claims.length < 4 →
          let k := (s.workRec job (dWork e.d)).1
          let off := (s.workRec job (dWork e.d)).2.1
          let r := (s.workRec job (dWork e.d)).2.2
          let next := bits r 31 0
          let claimed := fun (i clip : Option Nat) (q : QEntry) =>
            { q with claimed := true, claim := i, clip := clip, chainEnd := decide (bits r 127 112 = 1) }
          workBad r = false →
          (next < bits r 63 32 → s.meetsStart c job e f [next] (rValid r next) →
            ((f.isMma || f.isConv) = true → keptHit f e.d x.kept = true) → (f.isConv = true → e.filled = false) →
            ∃ t, exec (.tileStart c) s = .next t ∧ t.ms = s.ms ∧ t.scRead k off 4 = next + 1 ∧
              (t.core c).claims = x.claims ++ [⟨dWork e.d, next, bits r 127 112 - 1, false⟩] ∧
              (t.core c).store = x.store ∧ (t.core c).acc = x.acc ∧
              (t.core c).queue = (x.withEntry e.ord (fun q =>
                if f.isConv then claimed (some next) (rValid r next) q else starts (claimed (some next) (rValid r next) q))).queue) ∧
          (bits r 63 32 ≤ next → f.isAttn = false → x.portsFree f.ports = true → bankClear ahead f e.d = true →
            s.startIllegal c job e f [] none false false = false →
            ∃ t, exec (.tileStart c) s = .next t ∧ t.ms = s.ms ∧ (∀ m i, t.scRead m i 1 = s.scRead m i 1) ∧
              (t.core c).claims = x.claims ++ [⟨dWork e.d, 0, bits r 127 112 - 1, true⟩] ∧
              (t.core c).store = x.store ∧ (t.core c).acc = x.acc ∧
              (t.core c).queue = (x.withEntry e.ord (fun q => { claimed none none q with
                tab := none, waitMet := true, waitFrom := none, phase := .done iEmpty })).queue)))

/-- R73, R104 and R124; R132 for the commit of a chain that a claimed instruction closes (that a last member that is SKIPPED makes none and
posts is the model's reading, log 170), R259 for TBL.LOAD, R234 and Table 9-5 for SCAT.KV,
R294 and R296 for REUSE.CHK without a tab, R105 for a stream-class status. BUS_ERROR for a room whose entry in the
room table lies on a cluster that is OFF follows R409 and is the model's choice (log 113). -/
def Obligations.TileRetires : Prop :=
  (∀ (c : CoreId) (s : State) (job : Job) (e : QEntry) (rest : List QEntry) (i : Byte) (f : Fam),
     s.coreJob c = some job → (s.core c).queue = e :: rest → (∀ q ∈ rest, q.ord ≠ e.ord) → e.phase = .done i → e.tab = none →
     e.claim = none → e.fam = some f → f.isExch = false →
     (f = .scatKv → s.heldBy job (dStream e.d) = true ∧ (i = iOk → ∀ h ∈ e.rooms, h.decision = .inPlace ∨ h.decision = .overwrite)) →
     (f = .tblLoad → e.image = none) → (f = .reuseChk → i ≠ iOk ∧ (s.core c).tabs = []) → endCodeOf i = none →
     ∃ t, exec (.tileRetire c) s = .next t ∧ t.ms = s.ms ∧ t.hub = s.hub ∧ (t.core c).queue = rest ∧
       (t.core c).store = (s.core c).store ∧ (t.core c).acc = (s.core c).acc ∧
       (t.core c).posts = (s.core c).posts ++ (headerPost e.d i).toList ∧
       (∀ d, d ≠ c.val → t.core d = s.core d) ∧
       (i = iOk → (t.cluster (clusterOf c)).scache = (s.cluster (clusterOf c)).scache) ∧
       (i ≠ iOk →
         let old := leNat ((s.cluster (clusterOf c)).scache.readBytes (8 * (c.val % 16)) 8)
         leNat ((t.cluster (clusterOf c)).scache.readBytes (8 * (c.val % 16)) 8) =
           i.toNat * 2 ^ 56 + min (old / 2 ^ 32 % 2 ^ 24 + 1) (2 ^ 24 - 1) * 2 ^ 32 + e.ord.toNat)) ∧
  (∀ (c : CoreId) (s : State) (job : Job) (e : QEntry) (rest : List QEntry) (i : Byte),
     s.coreJob c = some job → (s.core c).queue = e :: rest → e.phase = .done i → e.tab = none → e.claim = none → e.claimed = false →
     e.fam = some .tblLoad → endCodeOf i = none → dBank e.d ≤ 1 →
     (∀ b, e.image = some b → ∃ t, exec (.tileRetire c) s = .next t ∧ (t.core c).bank (dBank e.d) = some b ∧
       (t.core c).bank (1 - dBank e.d) = (s.core c).bank (1 - dBank e.d)) ∧
     (e.image = none → ∃ t, exec (.tileRetire c) s = .next t ∧ (t.core c).bank0 = (s.core c).bank0 ∧ (t.core c).bank1 = (s.core c).bank1)) ∧
  (∀ (c : CoreId) (s : State) (job : Job) (e : QEntry) (rest : List QEntry) (i : Byte) (f : Fam) (n : Nat),
     s.coreJob c = some job → (s.core c).queue = e :: rest → (∀ q ∈ rest, q.ord ≠ e.ord) → e.phase = .done i → e.tab = none →
     e.claim = some n → e.claimed = true → e.fam = some f → f.isExch = false → f ∉ [Fam.scatKv, .tblLoad, .reuseChk] → endCodeOf i = none →
     ∃ t, exec (.tileRetire c) s = .next t ∧ t.ms = s.ms ∧ t.hub = s.hub ∧ (t.core c).queue = rest ∧
       (t.core c).store = (s.core c).store ∧ (t.core c).acc = (s.core c).acc ∧ (∀ d, d ≠ c.val → t.core d = s.core d) ∧
       (e.chainEnd = true → i ≠ iSkipped → (t.core c).posts = (s.core c).posts ∧
         (t.core c).commits = (s.core c).commits ++ [⟨dWork e.d, n, (headerPost e.d i).getD ⟨0, 0, 0⟩, e, (s.core c).posts.length⟩]) ∧
       (e.chainEnd = false ∨ i = iSkipped → (t.core c).commits = (s.core c).commits ∧
         (t.core c).posts = (s.core c).posts ++ (headerPost e.d i).toList) ∧
       (e.chainEnd = true → ∀ k ∈ (t.core c).claims, ¬ (k.work = dWork e.d ∧ k.index = n ∧ k.exhausted = false)) ∧
       (e.chainEnd = false → (t.core c).claims = (s.core c).claims)) ∧
  (∀ (c : CoreId) (s : State) (job : Job) (e : QEntry) (rest : List QEntry) (h : RoomHold),
     s.coreJob c = some job → (s.core c).queue = e :: rest → (∀ q ∈ rest, q.ord ≠ e.ord) → e.phase = .done iOk → e.tab = none →
     e.claim = none → e.fam = some .scatKv →
     (s.heldBy job (dStream e.d) = false → e.rooms = [] → ∃ t, exec (.tileRetire c) s = .next t ∧ t.ms = s.ms ∧ (t.core c).queue = rest ∧
       (t.core c).posts = (s.core c).posts ++ (headerPost e.d iSkipped).toList) ∧
     (s.heldBy job (dStream e.d) = true → e.rooms = [h] → (h.decision = .new ∨ ∃ old, h.decision = .copy old) → s.roomGone h.room = true →
       s.rangeErr h.entryAddr 8 = none → s.poisonIn h.entryAddr 8 = none →
       ∃ t, exec (.tileRetire c) s = .next t ∧ t.hub.sweeping = true ∧ t.hub.lastFault.status = stBusError ∧ t.hub.lastFault.job = job.id ∧
         t.hub.lastFault.core = BitVec.ofNat 8 c) ∧
     (let a := h.entryAddr
      let n := s.dirBase (dStream e.d) + 8
      s.heldBy job (dStream e.d) = true → e.rooms = [h] → s.rangeErr a 8 = none → s.poisonIn a 8 = none → s.rangeErr n 4 = none →
      s.poisonIn n 4 = none → (a + 8 ≤ n ∨ n + 4 ≤ a) → (s.roomSlot h.room).isSome = true → s.roomGone h.room = false →
      let makes := fun (t : State) =>
        leNat (t.ms.mem.readBytes a 8) = putBits (leNat (s.ms.mem.readBytes a 8)) 31 30 1 ∧
        leNat (t.ms.mem.readBytes n 4) = (leNat (s.ms.mem.readBytes n 4) + 1) % 2 ^ 32 ∧
        t.roomEntry h.room = putBits (putBits (s.roomEntry h.room) 47 32 1) 31 30 1 ∧ (t.core c).queue = rest ∧
        (t.core c).posts = (s.core c).posts ++ (headerPost e.d iOk).toList
      (h.decision = .new → ∃ t, exec (.tileRetire c) s = .next t ∧ makes t ∧
        ∀ x, (x < a ∨ a + 8 ≤ x) → (x < n ∨ n + 4 ≤ x) → t.ms.mem.read x = s.ms.mem.read x) ∧
      (∀ old, h.decision = .copy old → (s.roomSlot old).isSome = true → s.roomGone old = false → s.roomSlot old ≠ s.roomSlot h.room → 0 < roomRef (s.roomEntry old) →
        (∀ pl, s.roomPlace old = some pl → (s.vac pl.pool pl.stack).parked = []) → ∃ t, exec (.tileRetire c) s = .next t ∧ makes t ∧
          (∀ x, (x < a ∨ a + 8 ≤ x) → (x < n ∨ n + 4 ≤ x) → t.ms.mem.read x = s.ms.mem.read x) ∧
          roomRef (t.roomEntry old) = roomRef (s.roomEntry old) - 1 ∧
          (roomRef (s.roomEntry old) = 1 → roomPins (s.roomEntry old) = 0 → roomState (s.roomEntry old) ≠ 2 →
            roomState (t.roomEntry old) = 0 ∧
            ∀ pl, s.roomPlace old = some pl → (t.vac pl.pool pl.stack).free = old :: (s.vac pl.pool pl.stack).free)))) ∧
  (∀ (c : CoreId) (s : State) (job : Job) (e : QEntry) (rest : List QEntry),
     s.coreJob c = some job → (s.core c).queue = e :: rest → (∀ q ∈ rest, q.ord ≠ e.ord) → e.phase = .done iOk → e.tab = none →
     e.claim = none → e.fam = some .reuseChk → (s.core c).tabs = [] → (s.core c).lateCopy e = none →
     let a := s.dv 0x0E00 1 + uEntry e.d / 8
     let reuse := e.outcome.getD false
     s.rangeErr a 1 = none → s.poisonIn a 1 = none →
     ∃ t, exec (.tileRetire c) s = .next t ∧ (t.core c).queue = rest ∧ bit (t.ms.mem.read a).toNat (uEntry e.d % 8) = true ∧
       (∀ x, x ≠ a → t.ms.mem.read x = s.ms.mem.read x) ∧ (t.core c).store = (s.core c).store ∧ (t.core c).acc = (s.core c).acc ∧
       (∀ b ∈ (t.core c).blocks, b.chk = e.ord.toNat → b.decided = true ∧ b.skip = reuse) ∧
       t.coreCtr c (if reuse then 15 else 16) = s.coreCtr c (if reuse then 15 else 16) + 1 ∧
       (t.core c).posts = (s.core c).posts ++ (headerPost e.d iOk).toList) ∧
  (∀ (c : CoreId) (s : State) (job : Job) (e : QEntry) (rest : List QEntry) (i code : Byte) (f : Fam),
     s.coreJob c = some job → (s.core c).queue = e :: rest → (∀ q ∈ rest, q.ord ≠ e.ord) → e.phase = .done i → e.tab = none →
     e.fam = some f → f.isExch = false → (f = .scatKv → s.heldBy job (dStream e.d) = true) → (f = .tblLoad → e.image = none) →
     (f = .reuseChk → (s.core c).tabs = []) → endCodeOf i = some code →
     let ends := fun (n : Nat) => (if dStreamEn e.d then n = dStream e.d else n ∈ job.streams) ∧ s.heldBy job n = true
     ∃ t, exec (.tileRetire c) s = .next t ∧
       ((∀ n, ends n → s.hasDir n = false) → t.hub.sweeping = false) ∧
       (t.hub.sweeping = false → (t.core c).queue = rest ∧
         (∀ n, ends n → (t.stream n).sstate = .ended ∧ (t.stream n).endCode = code) ∧
         ∀ n, ¬ ends n → t.stream n = s.stream n))

/-- R288, R302 and R303, for tabs without held posts. A void leaves the entries behind the check that were on a tab queued, to start anew,
and every other entry as it was. That a void also brings back what a skipped span left unspecified, and the order in
which the lines come back, are the model's choice (log 97). -/
def Obligations.ReuseAndTabs : Prop :=
  ∀ (c : CoreId) (s : State) (job : Job),
    (∀ e, s.runningOf c .reuseChk = some (job, e) → ∃ t, exec (.reuseChk c) s = .next t ∧ OnlyCore c s t ∧
      (t.core c).store = (s.core c).store ∧
      ∀ q ∈ (t.core c).queue, q.ord = e.ord → q.outcome = some (e.computed && reusePasses e.d (s.core c).store) ∧ q.phase = .done iOk) ∧
    (∀ tb rest o e, s.coreJob c = some job → (s.core c).tabs = tb :: rest → tb.outcome = some o →
      (s.core c).entry? (BitVec.ofNat 32 tb.id) = some e → e.claim = none → e.claimed = false → tb.held = [] →
      (∀ u ∈ rest, u.id ≠ tb.id) → e.ord.toNat = tb.id →
      (o = tb.pred → ∃ t, exec (.tabResolve c) s = .next t ∧ (t.core c).tabs = rest ∧
        (∀ q ∈ (t.core c).queue, q.tab ≠ some tb.id) ∧ t.coreCtr c 13 = s.coreCtr c 13 + 1) ∧
      (o ≠ tb.pred → ∃ t, exec (.tabResolve c) s = .next t ∧ (t.core c).tabs = [] ∧
        (t.core c).restore = ((tb :: rest).flatMap (fun u => u.scratch ++ u.log)).reverse ++ (s.core c).restore ∧
        (t.core c).queue = ((s.core c).queue.filter (fun q => decide (q.ord ≠ e.ord))).map (fun q =>
          if tb.id < q.ord.toNat ∧ q.tab.isSome = true then
            { q with phase := .queued, tab := none, waitMet := false, waitFrom := none, arrived := false, released := false
                     filled := false, outcome := none, image := none }
          else q) ∧
        t.coreCtr c 14 = s.coreCtr c 14 + BitVec.ofNat 64 (rest.length + 1))) ∧
    (∀ g, s.coreJob c = some job → (s.core c).portsFree 4 = true → (s.core c).restore = [g] → g.acc = false →
      let at_ := 64 * g.line + g.off
      ∃ t, exec (.tabLogRestore c) s = .next t ∧ OnlyCore c s t ∧ (t.core c).restore = [] ∧ (t.core c).acc = (s.core c).acc ∧
        (t.core c).store.readBytes at_ g.bytes.length = g.bytes ∧
        ∀ a, a < at_ ∨ at_ + g.bytes.length ≤ a → (t.core c).store.read a = (s.core c).store.read a)

/-- R132: test and set. The commit's post takes its place among the posts, where the commit stood (R86). -/
def Obligations.ChainCommits : Prop :=
  ∀ (c : CoreId) (s : State) (job : Job) (p : PendCommit) (rest : List PendCommit),
    s.postJob c = some job → (s.core c).commits = p :: rest →
    let k := (s.workRec job p.work).1
    let off := (s.workRec job p.work).2.1
    let a := scWork + bits (s.workRec job p.work).2.2 147 128 * 64 + p.index / 8
    let set := bit (s.scRead k a 1) (p.index % 8)
    (a < off + 20 ∨ off + 28 ≤ a) →
    (set = false → ∃ t, exec (.chainCommit c) s = .next t ∧ t.ms = s.ms ∧ t.hub = s.hub ∧
      (t.core c).commits = (if p.post.kind = 0 then rest else rest.map (fun m => { m with before := m.before + 1 })) ∧
      bit (t.scRead k a 1) (p.index % 8) = true ∧ t.scRead k (off + 20) 4 = (s.scRead k (off + 20) 4 + 1) % 2 ^ 32 ∧
      (t.core c).posts = (s.core c).posts.take p.before ++ (if p.post.kind = 0 then [] else [p.post]) ++ (s.core c).posts.drop p.before) ∧
    (set = true → ∃ t, exec (.chainCommit c) s = .next t ∧ t.ms = s.ms ∧ t.hub = s.hub ∧ (t.core c).commits = rest ∧
      t.scRead k a 1 = s.scRead k a 1 ∧ t.scRead k (off + 24) 4 = (s.scRead k (off + 24) 4 + 1) % 2 ^ 32 ∧
      (t.core c).posts = (s.core c).posts)

/-- R28, R76, R191 and R274. -/
def Obligations.WaitsStopsAndFills : Prop :=
  ∀ (c : CoreId) (s : State) (job : Job) (e : QEntry),
    (s.coreJob c = some job → (s.core c).waiting? = some e → s.weightsThere c e = true →
      (s.core c).entry? e.ord = some e →
      ∃ t, exec (.weightTileReady c) s = .next t ∧ OnlyCore c { s with pwr := t.pwr } t ∧
        (∀ i w, job.slot = some i → e.waitFrom = some w → t.pwr = { s.pwr with wstallCycles := t.pwr.wstallCycles } ∧
          (∀ n, mget 0 t.pwr.wstallCycles n =
            if n = i then mget 0 s.pwr.wstallCycles i + (s.pacing.toNat - w) else mget 0 s.pwr.wstallCycles n)) ∧
        (job.slot = none → t.pwr = s.pwr) ∧
        t.core c = { s.core c with queue := (s.core c).queue.map (fun q => if q.ord = e.ord then { q with waitFrom := none } else q) }) ∧
    (∀ front rest, s.coreJob c = some job → (s.core c).waiting? = some e → e.isRunning = true → e.fam ≠ some .reuseChk →
      (s.core c).queue = front :: rest → front.ord ≠ e.ord → front.phase = .running → (s.core c).tabs = [] →
      ∃ t, exec (.tierDeadlineExpiry c) s = .next t ∧ (t.core c).store = (s.core c).store ∧ (t.core c).acc = (s.core c).acc ∧ t.ms = s.ms ∧
        ∀ q ∈ (t.core c).queue, q.ord = e.ord → q.phase = .done iTierError ∧ q.waitFrom = none) ∧
    ((s.core c).stopReq = true → (s.core c).stopped = false → s.hub.sweeping = false → (s.core c).tabs = [] →
      (∀ j, s.holderJob (clusterOf c) = some j → j.why ≠ .cancelled) →
      (∀ q ∈ (s.core c).queue, q.phase = .queued) →
      ∃ t, exec (.coreStopped c) s = .next t ∧ (t.core c).stopped = true ∧ (t.core c).store = (s.core c).store ∧
        (t.core c).acc = (s.core c).acc ∧ (t.core c).progress = (s.core c).progress ∧ (t.core c).claims = (s.core c).claims ∧
        (t.core c).queue.map QEntry.desc = (s.core c).queue.map QEntry.desc ∧ t.ms = s.ms) ∧
    (∀ f rest, s.issueJob c = some job → (s.core c).queue = e :: rest → e.phase = .queued → e.fam = some f → f.isConv = true →
      e.filled = false → (s.core c).restore = [] → s.tileLegal c job (s.core c) e f = true → (dClaim e.d = false ∨ e.claimed = true) →
      emptyOutput f e.d e.clip = false → convShort e.d = false → cInW e.d ≤ 8192 → cSpanH e.d ≤ 16 → (dBatch e.d + 1) * cSpanV e.d ≤ 16 →
      cInW e.d * convPosBytes e.d ≤ job.slotBytes →
      (∀ p ∈ convFills f e.d e.its (((s.core c).tabFor e.ord.toNat).map Tab.id), p.2.src + p.2.bytes ≤ job.general) →
      ∃ t, exec (.lineBufferFill c) s = .next t ∧ OnlyCore c s t ∧ (t.core c).acc = (s.core c).acc ∧
        (∀ a, a < job.lbBase → (t.core c).store.read a = (s.core c).store.read a) ∧
        ∀ q ∈ (t.core c).queue, q.ord = e.ord → q.filled = true)

/-- R340 and R347: what the four exchange instructions do, alone and toward the other die of the module. Alone, an MMA.RS leaves its
accumulators in D's rows, converted, and an MMA.AG its own part at its place. That an operation of both dies counts as one operation,
when the last of its instructions retires, is the model's choice (log 194). -/
def Obligations.ExchangeInstructions : Prop :=
  ∀ (c : CoreId) (s : State) (job : Job) (e : QEntry) (o : ExOp),
    let x := s.core c
    let r := s.routeEntry (xGroup e.d)
    s.opOf job.id c e.ord = some o → o.group = xGroup e.d → x.entry? e.ord = some e →
    (∀ q ∈ x.queue, q.ord = e.ord → q = e) → (∀ o' ∈ s.net.ops, o'.isOf job.id c e.ord = true → o' = o) →
    let finished := fun (t : State) =>
      (∀ q ∈ (t.core c).queue, q.ord = e.ord → q.phase = .done iOk) ∧ t.net.operations = s.net.operations ∧
      (∀ o', t.opOf job.id c e.ord = some o' → o'.finished = true)
    ((∀ l, l ≤ o.level → rtSize r l ≤ 1) →
      (s.runningOf c .mmaRs = some (job, e) →
        let w := if e.computed then {} else mmaWrites .mmaRs (rsDesc e.d) e.its e.clip x.weights none x.store x.acc
        ∃ t, exec (.mmaRs c) s = .next t ∧ finished t ∧ t.ms = s.ms ∧
          (t.core c).acc = w.acc.foldl (fun m p => m.writeLE (4 * p.1) 4 p.2) x.acc ∧
          (t.core c).store = (w.cs ++ (rsWrites e.d (rsVector e.d (t.core c).acc)).cs).foldl (fun m p => m.writeBytes p.1 p.2) x.store ∧
          (∀ a, ¬ (rsWrites e.d (rsVector e.d (t.core c).acc)).hits a → ¬ w.hits a → (t.core c).store.read a = x.store.read a) ∧
          (∀ a, ¬ w.hitsAcc a → (t.core c).acc.read a = x.acc.read a)) ∧
      (s.runningOf c .mmaAg = some (job, e) →
        let w := if e.computed then {} else mmaWrites .mmaAg e.d e.its e.clip x.weights none x.store x.acc
        let st := w.cs.foldl (fun m p => m.writeBytes p.1 p.2) x.store
        ∀ u, s.writeDev c e ((List.range (exSize r o.level)).map (fun i =>
            (xAddr e.d + i * agPart e.d, ((agVector e.d st).drop (i * agPart e.d)).take (agElems e.d + agScales e.d)))) = .ok u →
          ∃ t, exec (.mmaAg c) s = .next t ∧ finished t ∧ t.ms.mem = u.ms.mem ∧ (t.core c).store = st ∧
            (t.core c).acc = w.acc.foldl (fun m p => m.writeLE (4 * p.1) 4 p.2) x.acc) ∧
      (∀ v data u, s.runningOf c .moveA2a = some (job, e) → s.readRows c e (moveRows e.d e.its (vNRows e.d)) = .ok (v, data) →
        v.writeDev c e ((List.range (exSize r o.level)).map (fun i =>
          (vDst e.d + i * o.block r, ((data.flatMap Prod.snd).drop (i * o.block r)).take (o.block r)))) = .ok u →
        ∃ t, exec (.moveA2a c) s = .next t ∧ finished t ∧ t.ms.mem = u.ms.mem ∧ (t.core c).store = x.store) ∧
      (∀ v data u, s.runningOf c .moveAr = some (job, e) → s.readRows c e (moveRows e.d e.its (vNRows e.d)) = .ok (v, data) →
        v.writeDev c e (((moveRows e.d e.its (vNRows e.d)).zip
          (chunks (vRBytes e.d) ((data.flatMap Prod.snd).length / vRBytes e.d + 1) (data.flatMap Prod.snd))).map (fun p => (p.1.dst, p.2))) = .ok u →
        ∃ t, exec (.moveAr c) s = .next t ∧ finished t ∧ t.ms.mem = u.ms.mem ∧ (t.core c).store = x.store)) ∧
    (∀ v data, rtDies r = 3 → rtSize r 0 = 2 → (∀ l, 1 ≤ l → l ≤ o.level → rtSize r l ≤ 1) → o.die < 2 → o.begun = false →
      s.net.early = [] → s.net.ops.countP (fun y => y.segOpen && decide (y.job = o.job) && decide (y.die = o.die)) < 4 → o.opc = 0x25 →
      s.runningOf c .moveAr = some (job, e) → s.readRows c e (moveRows e.d e.its (vNRows e.d)) = .ok (v, data) →
      let vec := data.flatMap Prod.snd
      let me := rtRank r 0 o.die
      ∃ t, exec (.moveAr c) s = .next t ∧ t.ms = v.ms ∧ t.ms.mem = s.ms.mem ∧
        (∃ o'', t.opOf job.id c e.ord = some o'' ∧ o''.begun = true ∧ o''.vec = vec ∧ o''.stage = 0 ∧ o''.segOpen = true) ∧
        mget [] t.net.dieIn (1 - me) = mget [] s.net.dieIn (1 - me) ++
          ((o.pieces r 1 0 me (1 - me)).filter (fun p => within p.1 p.2 0 (2 ^ 64))).flatMap (fun p =>
            BitVec.ofNat 2048 (exHeader o.tag o.xseq me (1 - me) 2 0 1 p.1 p.2 0x25) :: flitsOf ((vec.drop p.1).take p.2))) ∧
    (∀ rest i f, s.coreJob c = some job → x.queue = e :: rest → (∀ q ∈ rest, q.ord ≠ e.ord) → e.phase = .done i → e.tab = none →
      e.claim = none → e.claimed = false → e.fam = some f → f.isExch = true → f ≠ .attnRelay → endCodeOf i = none →
      (s.stillSending e = true → exec (.tileRetire c) s = .next s) ∧
      (s.stillSending e = false → ∃ t, exec (.tileRetire c) s = .next t ∧ (t.core c).queue = rest ∧
        t.net.operations = (if s.net.ops.any (fun y => !y.isOf job.id c e.ord && decide (y.tag = o.tag) &&
          decide (y.xseq = o.xseq)) then s.net.operations else s.net.operations + 1) ∧
        t.opOf job.id c e.ord = none ∧ t.ms = s.ms))

/-- R346 for a message that this module takes, R342 for one that it passes along a ring, R316 for the flits that drain. That credits are owed
as the command takes the flits, and that a message that is not whole yet stays with what has drained of it, are the model's choices
(log 25). -/
def Obligations.MessagesAcceptedOnce : Prop :=
  let outcome := fun (part : ExPart) (s t : State) =>
    (s.net.keys.contains part.key = true → t.net.dups = s.net.dups + 1 ∧ t.net.keys = s.net.keys ∧ t.net.early = s.net.early) ∧
    (s.net.keys.contains part.key = false → s.groupOfTag part.key.tag = none →
      t.net.stale = s.net.stale + 1 ∧ t.net.keys = s.net.keys ∧ t.net.early = s.net.early) ∧
    (s.net.keys.contains part.key = false → (s.groupOfTag part.key.tag).isSome = true → part.kind ≠ 4 →
      s.relayXseq part.key.tag part.key.xseq = false → (∀ o ∈ s.net.ops, ¬ (o.tag = part.key.tag ∧ o.xseq = part.key.xseq)) →
      t.net.keys = s.net.keys ++ [part.key] ∧ t.net.early = s.net.early ++ [part] ∧ t.ms = s.ms ∧ t.cores = s.cores) ∧
    (s.net.keys.contains part.key = false → (s.groupOfTag part.key.tag).isSome = true → part.kind = 4 →
      (∀ o ∈ s.net.ops, ¬ (o.tag = part.key.tag ∧ o.xseq = part.key.xseq)) →
      (∀ r ∈ s.net.relays, ¬ (s.groupOfTag part.key.tag = some r.group ∧ relayStep r.base part.key.xseq < r.n)) →
      t.net.keys = s.net.keys ++ [part.key] ∧ t.net.early = s.net.early ++ [part] ∧ t.ms = s.ms ∧ t.cores = s.cores)
  (∀ (d : Fin 2) (s : State) (h : BitVec 2048) (rest : List (BitVec 2048)),
    mget [] s.net.dieIn (1 - d.val) = h :: rest →
    let n := msgFlits h.toNat
    let part := partOfMsg h.toNat (((rest.take (n - 1)).flatMap flitBytes).take (msgLen h.toNat))
    (n ≤ rest.length + 1 → ∃ t, exec (.exchMessageReceive (.die d)) s = .next t ∧
      mget [] t.net.dieIn (1 - d.val) = (h :: rest).drop n ∧ outcome part s t) ∧
    (rest.length + 1 < n → exec (.exchMessageReceive (.die d)) s = .next s)) ∧
  (∀ (p : PortId) (s : State) (h : BitVec 2048) (rest : List (BitVec 2048)),
    (s.port p).asmE ++ (s.port p).rxE = h :: rest →
    let x := s.port p
    let n := msgFlits h.toNat
    let k := min x.rxE.length (n - x.asmE.length)
    let part := partOfMsg h.toNat (((rest.take (n - 1)).flatMap flitBytes).take (msgLen h.toNat))
    (n ≤ rest.length + 1 → s.passesOn h.toNat = false → ∃ t, exec (.exchMessageReceive (.port p)) s = .next t ∧
      (t.port p).rxE = x.rxE.drop k ∧ (t.port p).owedE = x.owedE + k ∧ (t.port p).asmE = [] ∧ outcome part s t) ∧
    (n ≤ rest.length + 1 → s.passesOn h.toNat = true → p.val ∈ [4, 5, 6, 7] → (s.port (throughPort p.val)).live = true →
      ∃ t, exec (.exchMessageReceive (.port p)) s = .next t ∧ (t.port p).rxE = x.rxE.drop k ∧
        (t.port (throughPort p.val)).txE = (s.port (throughPort p.val)).txE ++ h :: rest.take (n - 1) ∧
        t.net.keys = s.net.keys ∧ t.net.early = s.net.early ∧ t.ms = s.ms ∧ t.cores = s.cores) ∧
    (rest.length + 1 < n → ∃ t, exec (.exchMessageReceive (.port p)) s = .next t ∧ OnlyPort p s t ∧
      t.port p = { x with rxE := x.rxE.drop k, owedE := x.owedE + k, asmE := x.asmE ++ x.rxE.take k })) ∧
  (∀ (p : PortId) (s : State) (h x : BitVec 2048) (rest : List (BitVec 2048)),
    (s.port p).asmB ++ (s.port p).rxB = h :: x :: rest → bits h.toNat 7 0 = 2 → s.passesOn x.toNat = false →
    let y := s.port p
    let n := bits h.toNat 191 160 / 256
    let k := min y.rxB.length (1 + n - y.asmB.length)
    1 ≤ n →
    let part := partOfMsg x.toNat ((((((x :: rest).take n).drop 8).flatMap flitBytes)).take (msgLen x.toNat))
    (n ≤ rest.length + 1 → ∃ t, exec (.bulkMigrationRecv p) s = .next t ∧ (t.port p).rxB = y.rxB.drop k ∧
      (t.port p).owedB = y.owedB + k ∧ (t.port p).asmB = [] ∧ outcome part s t) ∧
    (rest.length + 1 < n → ∃ t, exec (.bulkMigrationRecv p) s = .next t ∧ OnlyPort p s t ∧
      t.port p = { y with rxB := y.rxB.drop k, owedB := y.owedB + k, asmB := y.asmB ++ y.rxB.take k }))

/-- R344 for the segment an operation is at: the tree sum of its members' parts leaves for the next stage, and the operation goes on
to its next segment or, after the last one of an MMA.RS, to its result. -/
def Obligations.ReduceSegments : Prop :=
  ∀ (d : Fin 2) (tag : Word) (xseq : Half) (s : State) (o : ExOp) (l0 i l : Nat) (p : Nat × Nat) (ps : List (List Byte)) (j : Job),
    s.net.ops.find? (fun o => decide (o.die = d.val ∧ o.tag = tag ∧ o.xseq = xseq) && o.begun && !o.finished) = some o →
    (∀ o' ∈ s.net.ops, o'.isOf o.job o.core.val o.ord = true → o' = o) → o.int32 = false → s.job? o.job = some j → j.canon = true →
    let e := s.routeEntry o.group
    (opStages o e)[o.stage]? = some (1, l0) → o.front e = some (i, p) → ((o.reds e)[i]?).map Prod.fst = some l →
    let m := rtSize e l
    let me := rtRank e l o.die
    let own := o.redInput e i
    allSome ((List.range m).map (fun j => if j = me then some ((own.2.drop (p.1 - own.1)).take p.2) else s.stagedPart o l j p)) = some ps →
    let out := (List.range (p.2 / 4)).flatMap (fun i => leBytes 4 (toF32 (treeSum (ps.map (fun bs => ofF32 (((wordsOf bs)[i]?).getD 0))))))
    let o1 : ExOp := { o with accs := o.accs.zipIdx.map (fun (a, k) => if k = i then a ++ out else a) }
    (o1.reduced e = false →
      (∀ k' l', (opStages o e)[i + 1]? = some (k', l') → ((o1.accs[i]?).getD []).length = out.length → s.exCheck o1 e l' = none) →
      ∃ t, exec (.reduceSegment d tag xseq) s = .next t ∧ t.ms = s.ms ∧ t.cores = s.cores ∧ t.net.early = s.net.early ∧
        ((opStages o e)[i + 1]? = none → t.opOf o.job o.core.val o.ord = some o1) ∧
        (∀ k' l', (opStages o e)[i + 1]? = some (k', l') →
          t.opOf o.job o.core.val o.ord = some { o1 with sentOn := (o1.sentOn ++ o1.stagePorts e l').eraseDups }) ∧
        (∀ k' l', (opStages o e)[i + 1]? = some (k', l') → t.net.dieIn = (s.exSend o1 e k' l' p.1 out p.1 p.2).net.dieIn ∧
          ∀ q, (t.port q).txE = ((s.exSend o1 e k' l' p.1 out p.1 p.2).port q).txE)) ∧
    (o1.reduced e = true → (opStages o e)[i + 1]? = none → (o.reds e).length = i + 1 →
      let o2 : ExOp := { o1 with vec := (o1.accs[i]?).getD [], accs := [], stage := i + 1, segOpen := false }
      exec (.reduceSegment d tag xseq) s = .next ((s.setOp o2).exFinish o2 e))

/-- R219, R222, R322, R350, R352 and R354; a RELEASE of a ring level goes on to the ranks whose arrivals came by its path, at a port
that does not send once that is UP (the model's choice, log 222). RELAY_FORWARD
waits until the step's shard has wholly landed (the model's reading, log 199). It asks nothing of what the successor has begun, and from the
first window on b is the block that ends before the step's compute: both are measured, or known to the successor alone, and the command's
to say (the model's choice, log 28). -/
def Obligations.RelaysAndBarrierRecords : Prop :=
  (∀ (g : Byte) (step : Half) (b : Nat) (s : State) (r : Relay),
    s.net.relays.find? (fun r => decide (r.group = g.toNat) && r.begun.contains step.toNat && !r.forwarded.contains step.toNat) = some r →
    step.toNat + 1 < r.n →
    let landed := step ≠ 0 → r.units * 2048 ≤ mget 0 r.landed (step.toNat - 1)
    (¬ landed → exec (.relayForward g step b) s = .next s) ∧
    ∀ bs, landed → s.portCheck (rtPortTo (s.routeEntry g.toNat) r.level r.rank ((r.rank + 1) % r.n)) true = none →
    let src := if step.toNat = 0 then r.shard else relaySlot r.xaddr r.units (step.toNat - 1)
    let want := if s.pwr.windowPassed then b else mget 22 s.pwr.profile.relayLog g.toNat
    s.memRead src (r.units * 2048) = .ok bs →
    ∃ t, exec (.relayForward g step b) s = .next t ∧ t.net.relayForwards = s.net.relayForwards + 1 ∧
      t.net.relayBlock = 2 ^ max (s.dv 0x1140 1).log2 (min (s.dv 0x1140 2).log2 want) ∧
      t.ms = (s.readDone src (r.units * 2048)).ms ∧ t.ms.mem = s.ms.mem ∧
      ∀ r' ∈ t.net.relays, r'.group = r.group → r'.xaddr = r.xaddr → step.toNat ∈ r'.forwarded) ∧
  (∀ (p : PortId) (s : State) (r : BitVec 256) (rest : List (BitVec 256)) (g : Nat),
    takeBarrier 0 (s.port p).ctrlIn = some (r, rest) → s.groupOfTag (xrecOf r p).tag = some g →
    rtRank (s.routeEntry g) (xrecOf r p).level 0 = 0 → s.boundJob (xrecOf r p).tag (xrecOf r p).chan = none →
    ∃ t, exec (.xbarArriveRecv p) s = .next t ∧ (t.port p).ctrlIn = rest ∧ t.net.xheld = s.net.xheld ++ [xrecOf r p] ∧ t.ms = s.ms) ∧
  (∀ (p : PortId) (s : State) (r : BitVec 256) (rest : List (BitVec 256)) (g : Nat),
    takeBarrier 1 (s.port p).ctrlIn = some (r, rest) → s.groupOfTag (xrecOf r p).tag = some g →
    let l := (xrecOf r p).level
    let me := rtRank (s.routeEntry g) l 0
    let half := (rtSize (s.routeEntry g) l - 1) / 2
    let goes := 2 ≤ l ∧ (if p.val = (ringPorts l).2 then me + 1 ≤ half else half < me - 1)
    let sends := (s.port (throughPort p)).state = .up ∨ (s.port (throughPort p)).state = .draining
    let on := sends ∧ goes
    let sent := (s.port (throughPort p)).ctrlOut
    (∀ j b top, s.boundJob (xrecOf r p).tag (xrecOf r p).chan = some (j, b, g, top) → b.xsent = true → b.xreleased = false →
      (xrecOf r p).round = b.xround + 1 →
      ∃ t, exec (.xbarReleaseRecv p) s = .next t ∧ t.net.xbarRounds = s.net.xbarRounds + 1 ∧ t.ms = s.ms ∧
        (on → ∃ more, (t.port (throughPort p)).ctrlOut = sent ++ r :: more) ∧
        ∀ j', t.job? j = some j' → ∀ b', j'.barrier? (xrecOf r p).chan = some b' → b'.xreleased = true) ∧
    ((∀ j b g' top, s.boundJob (xrecOf r p).tag (xrecOf r p).chan = some (j, b, g', top) → (xrecOf r p).round ≠ b.xround + 1) →
      ∃ t, exec (.xbarReleaseRecv p) s = .next t ∧ (t.port p).ctrlIn = rest ∧ t.net.xheld = s.net.xheld ++ [xrecOf r p] ∧
        (on → (t.port (throughPort p)).ctrlOut = sent ++ [r]) ∧ (¬ on → (t.port (throughPort p)).ctrlOut = sent) ∧
        (goes → ¬ sends → (t.port (throughPort p)).ctrlHeld = (s.port (throughPort p)).ctrlHeld ++ [r]) ∧ t.hub = s.hub ∧ t.ms = s.ms)) ∧
  (∀ (p : PortId) (s : State) (r : BitVec 256) (rest : List (BitVec 256)) (g : Nat),
    takeBarrier 2 (s.port p).ctrlIn = some (r, rest) → s.groupOfTag (xrecOf r p).tag = some g →
    ∃ t, exec (.xbarAbortRecv p) s = .next t ∧ t.net.abortsReceived = s.net.abortsReceived + 1 ∧ (t.group g).aborted = true) ∧
  (∀ (d : Fin 2) (tag : Word) (xseq : Half) (s : State),
    (∃ o ∈ s.net.ops, o.die = d.val ∧ o.tag = tag ∧ o.xseq = xseq ∧ o.finished = false) →
    ∃ t, exec (.exchStallTimer d tag xseq) s = .next t ∧ t = { s with por := t.por } ∧
      t.por = { s.por with log := t.por.log, logSeq := s.por.logSeq + 1 } ∧
      (t.por.log.head?).map (fun r => (r.seq, r.stamp)) = some (s.por.logSeq + 1, s.pacing))

/-- R313, R316 and R319. The outcome of an engine's self-test is one that PORT_LOCAL_FAULT has left (the model's choice, log 156). A peer's
identity waits until this port's own has left and is acknowledged (the model's reading, log 215). The barrier records that waited leave
once the port is UP, and a training port reads no lane locked (the model's choices, logs 222 and 224). -/
def Obligations.PortTraining : Prop :=
  (∀ (p : PortId) (s : State), (s.port p).fenced = false → s.portEnabled p = true →
    let training := fun (t : State) => OnlyPort p s t ∧ t.port p = { s.port p with
      state := .training, fault := 0, lanesOk := 0, txSeq := 0, rxSeq := 0, ctrlIn := [], ctrlOut := [s.identityRecord p] }
    let bypassed := ∃ r, ringOf p = some r ∧ s.dv (0x1020 + r) 3 = 1
    let failed := fun (t : State) => (t.port p).testFails = false ∧ (t.port p).lanesOk = 0 ∧ (t.port p).downs = (s.port p).downs + 1 ∧
      t.ms = s.ms ∧ t.cores = s.cores ∧ (¬ bypassed → (t.port p).state = .down ∧ (t.port p).fault = 1 ∧
        ∀ q, q ≠ p.val → t.port q = s.port q) ∧
      (∀ r, ringOf p = some r → s.dv (0x1020 + r) 3 = 1 → (t.ring r).bypass = .moving false ∧ (t.port p).state = .off)
    let trains := fun (i : Instr) =>
      ((s.port p).testFails = false → ∃ t, exec i s = .next t ∧ training t) ∧
      ((s.port p).testFails = true → ∃ t, exec i s = .next t ∧ failed t)
    ((s.port p).state = .off → trains (.portTrain p)) ∧
    ((s.port p).state = .down → trains (.portTrain p) ∧ trains (.portRetrainTimer p))) ∧
  (∀ (p : PortId) (s : State), (s.port p).fenced = true → exec (.portTrain p) s = .next s ∧ exec (.portRetrainTimer p) s = .next s) ∧
  (∀ (p : PortId) (s : State) (r : BitVec 256) (rest : List (BitVec 256)), takeCtrl 3 (s.port p).ctrlIn = some (r, rest) →
    (s.port p).state = .training → bits r.toNat 127 64 ≠ 0 →
    ((s.port p).ctrlOut ≠ [] ∨ (s.port p).replay ≠ [] → exec (.peerIdentityRecv p) s = .next s) ∧
    ((s.port p).ctrlOut = [] → (s.port p).replay = [] → ∃ t, exec (.peerIdentityRecv p) s = .next t ∧ OnlyPort p s t ∧ (t.port p).state = .up ∧ (t.port p).fault = 0 ∧
      (t.port p).peerSerial = BitVec.ofNat 64 (bits r.toNat 127 64) ∧ (t.port p).txSeq = 0 ∧ (t.port p).rxSeq = 0 ∧
      (t.port p).creditE = 8192 ∧ (t.port p).creditB = 2048 ∧ (t.port p).ctrlIn = rest ∧
      (t.port p).ctrlOut = (s.port p).ctrlHeld ∧ (t.port p).ctrlHeld = [])) ∧
  (∀ (p : PortId) (s : State), (s.port p).state = .training → (s.port p).fenced = false →
    ∃ t, exec (.portTrainTimeout p) s = .next t ∧ (t.port p).state = .down ∧ (t.port p).fault = 2 ∧
      (t.port p).downs = (s.port p).downs + 1 ∧ ∀ q, q ≠ p.val → t.port q = s.port q) ∧
  (∀ (p : PortId) (s : State) (r : BitVec 256) (rest : List (BitVec 256)), takeCtrl 1 (s.port p).ctrlIn = some (r, rest) →
    ∃ t, exec (.creditReturnRecv p) s = .next t ∧ OnlyPort p s t ∧ t.port p = { s.port p with
      ctrlIn := rest
      creditE := (s.port p).creditE + (if bits r.toNat 15 8 = 1 then bits r.toNat 63 32 else 0)
      creditB := (s.port p).creditB + (if bits r.toNat 15 8 = 2 then bits r.toNat 63 32 else 0) })

/-- R320 to R322, R329 and R330. -/
def Obligations.PortFailure : Prop :=
  (∀ (p : PortId) (lane : Fin 16) (errs : List Nat) (s : State), (s.port p).state = .up → (s.port p).fenced = false →
    let downFault := fun (n : Nat) (t : State) => (t.port p).state = .down ∧ (t.port p).fault = n ∧
      (t.port p).downs = (s.port p).downs + 1 ∧ (∀ g ∈ s.heldOn p, (t.group g).aborted = true) ∧ t.ms = s.ms ∧ t.cores = s.cores
    (∃ t, exec (.laneCdrLoss p lane) s = .next t ∧ downFault 2 t ∧ (t.port p).lanesOk.getLsbD lane = false) ∧
    ((∃ l, l < 16 ∧ s.dv 0x1000 8 < (errs[l]?).getD 0) → ∃ t, exec (.laneSerWindow p errs) s = .next t ∧ downFault 2 t) ∧
    ((∀ l, l < 16 → (errs[l]?).getD 0 ≤ s.dv 0x1000 8) → ∃ t, exec (.laneSerWindow p errs) s = .next t ∧ OnlyPort p s t ∧
      t.port p = { s.port p with lanesOk := 0xFFFF }) ∧
    ((∀ r, ringOf p = some r → (s.ring r).bypass ≠ .joined ∨ s.dv (0x1020 + r) 3 ≠ 1) →
      ∃ t, exec (.portLocalFault p) s = .next t ∧ downFault 1 t) ∧
    (∀ r, ringOf p = some r → (s.ring r).bypass = .joined → s.dv (0x1020 + r) 3 = 1 →
      ∃ t, exec (.portLocalFault p) s = .next t ∧ (t.ring r).bypass = .moving false ∧ (t.ring r).autos = (s.ring r).autos + 1 ∧
        ∀ q ∈ portsOfRing r, (t.port q).state = .off ∨ (t.port q).state = .fenced)) ∧
  (∀ (p : PortId) (s : State), (s.port p).state = .draining → (s.port p).fenced = false →
    (∃ t, exec (.portDrainTimeout p) s = .next t ∧ (t.port p).state = .off ∧ (∀ g ∈ s.busyOn p, (t.group g).aborted = true) ∧ t.ms = s.ms) ∧
    (s.portBusy p = false → ∃ t, exec (.portDrained p) s = .next t ∧ (t.port p).state = .off ∧ t.ms = s.ms) ∧
    (s.portBusy p = true → exec (.portDrained p) s = .next s) ∧
    (∀ r, s.portBusy p = false → ringOf p = some r → (s.ring r).leaving = true →
      (∀ q ∈ portsOfRing r, q ≠ p.val → (s.port q).state = .off) →
      ∃ t, exec (.portDrained p) s = .next t ∧ (t.ring r).bypass = .moving false ∧ (t.ring r).leaving = false ∧
        (t.ring r).moves = (s.ring r).moves + 1)) ∧
  (∀ (p : PortId) (s : State), (s.port p).txB ≠ [] → ∃ t, exec (.bulkStarvation p) s = .next t ∧ OnlyPort p s t ∧
    t.port p = { s.port p with starvations := (s.port p).starvations + 1 } ∧ t.por.logSeq = s.por.logSeq + 1)

/-- R312 to R317. A frame that finds no room is answered with NAK (the model's choice, log 25); how many symbols of a corrected codeword
were wrong is a free value of 1 to 15 (log 8). Control records go first. That a good frame out of order is answered with nothing (log 86), and
that the credit returns that are owed go at the head of the very next control frame (log 87), where R316 allows 256 frame times, are the
model's readings. -/
def Obligations.FramesSentAndReceived : Prop :=
  (∀ (p : PortId) (f : PortFrame) (s : State), (s.port p).live = true →
    let counted := fun (t : State) => (t.port p).fecCorrected = (s.port p).fecCorrected + BitVec.ofNat 64 f.corrected ∧
      ∃ k, f.corrected ≤ k ∧ k ≤ 15 * f.corrected ∧ mget 0 t.por.portCtr (8 * p + 8) = mget 0 s.por.portCtr (8 * p + 8) + BitVec.ofNat 64 k
    let good := f.uncorrected = 0 ∧ bits f.header.toNat 63 32 = (frameCrc (bits f.header.toNat 31 0) f.flits).toNat
    (¬ good → ∃ t, exec (.frameReceive p f) s = .next t ∧ OnlyPort p s t ∧ counted t ∧ (t.port p).nakDue = true ∧
      (t.port p).rxE = (s.port p).rxE ∧ (t.port p).rxB = (s.port p).rxB ∧ (t.port p).rxSeq = (s.port p).rxSeq ∧
      (t.port p).fecUncorrected = (s.port p).fecUncorrected + BitVec.ofNat 64 f.uncorrected) ∧
    (good → fhNak f.header = false → fhSeq f.header = (s.port p).rxSeq + 1 → (s.port p).room (fhKind f.header) (fhFlits f.header) = false →
      fhKind f.header ≠ 0 → ∃ t, exec (.frameReceive p f) s = .next t ∧ OnlyPort p s t ∧ counted t ∧ (t.port p).nakDue = true ∧
      (t.port p).rxE = (s.port p).rxE ∧ (t.port p).rxB = (s.port p).rxB ∧ (t.port p).rxSeq = (s.port p).rxSeq) ∧
    (good → fhNak f.header = false → fhSeq f.header = (s.port p).rxSeq + 1 → (s.port p).room (fhKind f.header) (fhFlits f.header) = true →
      let flits := f.flits.take (fhFlits f.header)
      (fhKind f.header = 1 → ∃ t, exec (.frameReceive p f) s = .next t ∧ OnlyPort p s t ∧ counted t ∧ (t.port p).rxSeq = (s.port p).rxSeq + 1 ∧
        (t.port p).rxE = (s.port p).rxE ++ flits ∧ (t.port p).owedE = (s.port p).owedE ∧ (t.port p).rxB = (s.port p).rxB) ∧
      (fhKind f.header = 2 → ∃ t, exec (.frameReceive p f) s = .next t ∧ OnlyPort p s t ∧ counted t ∧ (t.port p).rxSeq = (s.port p).rxSeq + 1 ∧
        (t.port p).rxB = (s.port p).rxB ++ flits ∧ (t.port p).owedB = (s.port p).owedB ∧ (t.port p).rxE = (s.port p).rxE) ∧
      (fhKind f.header = 3 → ∃ t, exec (.frameReceive p f) s = .next t ∧ OnlyPort p s t ∧ counted t ∧ (t.port p).rxSeq = (s.port p).rxSeq + 1 ∧
        (t.port p).ctrlIn = (s.port p).ctrlIn ++ ctrlRecords flits ∧ (t.port p).rxE = (s.port p).rxE ∧ (t.port p).rxB = (s.port p).rxB)) ∧
    (good → fhNak f.header = false → fhSeq f.header ≠ (s.port p).rxSeq + 1 →
      ∃ t, exec (.frameReceive p f) s = .next t ∧ OnlyPort p s t ∧ counted t ∧ (t.port p).rxSeq = (s.port p).rxSeq ∧
        (t.port p).rxE = (s.port p).rxE ∧ (t.port p).rxB = (s.port p).rxB ∧ (t.port p).ctrlIn = (s.port p).ctrlIn)) ∧
  (∀ (p : PortId) (s : State), (s.port p).state = .up →
    ((s.port p).resend = [] → (s.port p).replay.length < 510 → (s.port p).owedE = 0 → (s.port p).owedB = 0 → (s.port p).ctrlOut = [] →
      (s.port p).txE ≠ [] → 0 < (s.port p).creditE →
      let n := min 8 (min (s.port p).creditE (s.port p).txE.length)
      let f := mkFrame ((s.port p).txSeq + 1) (s.port p).rxSeq (s.port p).nakDue 1 ((s.port p).txE.take n)
      ∃ t, exec (.frameTransmit p) s = .next t ∧ t.out = .frame p f :: (s.bulkPull p).out ∧ (t.port p).txE = (s.port p).txE.drop n ∧
        (t.port p).creditE = (s.port p).creditE - n ∧ (t.port p).txSeq = (s.port p).txSeq + 1 ∧ (t.port p).replay = (s.port p).replay ++ [f] ∧
        (t.port p).nakDue = false ∧ ∀ q, q ≠ p.val → t.port q = s.port q) ∧
    ((s.port p).resend = [] → (s.port p).replay.length < 510 →
      let x := s.port p
      let credits : List (BitVec 256) := (if x.owedE = 0 then [] else [BitVec.ofNat 256 (1 + 1 * 2 ^ 8 + x.owedE * 2 ^ 32)]) ++
        (if x.owedB = 0 then [] else [BitVec.ofNat 256 (1 + 2 * 2 ^ 8 + x.owedB * 2 ^ 32)])
      credits ++ x.ctrlOut ≠ [] →
      let f := mkFrame (x.txSeq + 1) x.rxSeq x.nakDue 3 (ctrlFlits ((credits ++ x.ctrlOut).take 64))
      ∃ t, exec (.frameTransmit p) s = .next t ∧ t.out = .frame p f :: (s.bulkPull p).out ∧ (t.port p).owedE = 0 ∧ (t.port p).owedB = 0 ∧
        (t.port p).ctrlOut = x.ctrlOut.drop (64 - credits.length) ∧ (t.port p).txSeq = x.txSeq + 1 ∧ (t.port p).replay = x.replay ++ [f] ∧
        (t.port p).nakDue = false ∧ (t.port p).creditE = x.creditE ∧ (t.port p).creditB = x.creditB ∧ (t.port p).txE = x.txE ∧
        ∀ q, q ≠ p.val → t.port q = s.port q) ∧
    ((s.port p).resend = [] → (s.port p).replay.length < 510 → (s.port p).owedE = 0 → (s.port p).owedB = 0 → (s.port p).ctrlOut = [] →
      ((s.port p).txE = [] ∨ (s.port p).creditE = 0) → 0 < (s.port p).creditB →
      let x := s.port p
      let wait := ((s.bulkPull p).port p).txB
      wait ≠ [] →
      let n := min 8 (min x.creditB wait.length)
      let f := mkFrame (x.txSeq + 1) x.rxSeq x.nakDue 2 (wait.take n)
      ∃ t, exec (.frameTransmit p) s = .next t ∧ t.out = .frame p f :: (s.bulkPull p).out ∧ (t.port p).txB = wait.drop n ∧
        (t.port p).creditB = x.creditB - n ∧ (t.port p).txSeq = x.txSeq + 1 ∧ (t.port p).replay = x.replay ++ [f] ∧
        (t.port p).nakDue = false ∧ (t.port p).txE = x.txE ∧ (t.port p).creditE = x.creditE ∧ ∀ q, q ≠ p.val → t.port q = s.port q) ∧
    (∀ g rest, (s.port p).resend = g :: rest → ∃ t f, exec (.frameTransmit p) s = .next t ∧ t.out = .frame p f :: s.out ∧
      (t.port p).resend = rest ∧ (t.port p).txSeq = (s.port p).txSeq ∧ (t.port p).resends = (s.port p).resends + 1 ∧
      f = mkFrame (fhSeq g.header) (s.port p).rxSeq (s.port p).nakDue (fhKind g.header) (g.flits.take (fhFlits g.header))))

/-- R322, R326, R328, R329 and R331. A refused join uses up the outcome of the engines' self-tests (the model's choice, log 156). -/
def Obligations.RingJoinAndLeave : Prop :=
  (∀ (r : RingId) (bs : List Byte) (s : State), s.writes (0x1020 + r) 1 bs →
    (leNat bs = 1 → s.frontRec.map (fun x => leNat x.2.value) = some 1 →
      (s.ringBusy r = false → s.canJoin r = true → (s.ring r).bypass = .through → ∃ t, exec .ringJoin s = .next t ∧ AnsweredWith dsOk s t ∧
        (t.ring r).bypass = .moving true ∧ (t.ring r).moves = (s.ring r).moves + 1 ∧ (∀ q, t.port q = s.port q) ∧ t.ms = s.ms) ∧
      (s.ringBusy r = true → ∃ t, exec .ringJoin s = .next t ∧ AnsweredWith dsBypassBusy s t ∧ t.net = s.net) ∧
      (s.ringBusy r = false → s.canJoin r = false → ∃ t, exec .ringJoin s = .next t ∧ AnsweredWith dsBypassRefused s t ∧
        t.net.rings = s.net.rings ∧ ∀ q, t.port q = { s.port q with testFails := decide (q ∉ portsOfRing r) && (s.port q).testFails })) ∧
    (leNat bs = 0 → s.frontRec.map (fun x => leNat x.2.value) = some 0 →
      (s.ringBusy r = false → (s.ring r).bypass = .joined → (∀ p ∈ portsOfRing r, (s.port p).state = .up) →
        ∃ t, exec .ringLeave s = .next t ∧ AnsweredWith dsOk s t ∧ (t.ring r).leaving = true ∧
          (∀ p ∈ portsOfRing r, t.port p = { s.port p with state := .draining, inFlight :=
            (s.net.ops.filter (fun o => (o.begun || !o.sentOn.isEmpty) && !o.finished)).map (fun o => (o.core, o.ord, o.job)) }) ∧ (∀ p, p ∉ portsOfRing r → t.port p = s.port p)) ∧
      (s.ringBusy r = true → ∃ t, exec .ringLeave s = .next t ∧ AnsweredWith dsBypassBusy s t ∧ t.net = s.net))) ∧
  (∀ (r : RingId) (s : State), s.boot.preparing = false →
    ((s.ring r).bypass = .moving false → ∃ t, exec (.bypassMoveDone r) s = .next t ∧ (t.ring r).bypass = .through ∧ ∀ p, t.port p = s.port p) ∧
    ((s.ring r).bypass = .moving true → (s.ring r).leaving = false → (∀ p ∈ portsOfRing r, s.block (blkPort p) = 1 ∧ s.hubOf (dieOfPort p) = true ∧ (s.port p).fenced = false ∧
        (s.port p).testFails = false ∧ ((s.port p).state = .off ∨ (s.port p).state = .down)) →
      ∃ t, exec (.bypassMoveDone r) s = .next t ∧ (t.ring r).bypass = .joined ∧ ∀ p ∈ portsOfRing r, (t.port p).state = .training))

/-- R320, R324, R330, R333 and R353; a route entry keeps no reserved bit (R8). That a write of a route entry forgets the known keys of its tag
is the model's choice (log 26), as are the order of BULK_SEND's refusals (log 212), ROUTE_BUSY before ROUTE_INVALID (log 227), and what an entry
with TOP L0 wants in its ports' places (log 226). -/
def Obligations.PortAndRouteCommands : Prop :=
  (∀ (bs : List Byte) (s : State), s.writes 0x1030 1 bs →
    let port := par bs 0 1
    let a := par bs 8 8
    let len := par bs 24 8
    port < 8 → par bs 1 1 = 0 → par bs 3 1 < 16 → a % 2048 = 0 → par bs 16 8 % 2048 = 0 → len % 2048 = 0 → 0 < len →
    s.inOnStacks a len = true →
    ((s.port port).state = .up → s.por.cmds.length < 16 → ∃ t, exec .bulkSend s = .next t ∧ AnsweredWith dsAccepted s t ∧
      t.por.nextTicket = s.por.nextTicket + 1 ∧ (t.por.cmds.map RunCmd.ticket) = s.por.cmds.map RunCmd.ticket ++ [s.por.nextTicket] ∧
      t.net = s.net ∧ t.ms = s.ms) ∧
    ((s.port port).state ≠ .up → ∃ t, exec .bulkSend s = .next t ∧ AnsweredWith dsPortDown s t ∧ t.por.cmds = s.por.cmds)) ∧
  (∀ (p : PortId) (bs : List Byte) (s : State), s.writes 0x1030 2 bs → leNat bs = p.val →
    ∃ t, exec .portFence s = .next t ∧ (t.port p).state = .fenced ∧ (t.port p).fencedCmd = true ∧
      (∀ g ∈ s.heldOn p, (t.group g).aborted = true) ∧ (∀ q, q ≠ p.val → t.port q = s.port q) ∧ t.ms = s.ms) ∧
  (∀ (p : PortId) (bs : List Byte) (s : State), s.writes 0x1030 3 bs → leNat bs = p.val → (s.port p).fencedCmd = true →
    (s.port p).fencedBist = false →
    let bypasses := fun (r : Nat) => (s.ring r).bypass = .joined ∧ s.dv (0x1020 + r) 3 = 1 ∧ s.portEnabled p = true ∧
      ((s.port p).fault = 1 ∨ ∃ q ∈ portsOfRing r, q ≠ p.val ∧ (s.port q).state = .down ∧ (s.port q).fault = 1)
    ((∀ r, ringOf p = some r → ¬ bypasses r) → ∃ t, exec .portUnfence s = .next t ∧ AnsweredWith dsOk s t ∧
      t.port p = (if s.portEnabled p then { s.port p with fencedCmd := false, state := .down, downs := (s.port p).downs + 1 }
        else { s.port p with fencedCmd := false, state := .off }) ∧
      ∀ q, q ≠ p.val → t.port q = s.port q) ∧
    (∀ r, ringOf p = some r → bypasses r → ∃ t, exec .portUnfence s = .next t ∧ AnsweredWith dsOk s t ∧
      (t.ring r).bypass = .moving false ∧ (t.port p).state = .off)) ∧
  (∀ (g : Nat) (bs : List Byte) (s : State), g < 256 → s.writes (0x1110 + g / 128) (g % 128 + 1) bs →
    let e := routeMask (leNat bs)
    ((s.group g).holder = none → routeOk e = true → ∃ t, exec .routeEntryWrite s = .next t ∧ AnsweredWith dsOk s t ∧
      t.routeEntry g = e ∧ (∀ k ∈ t.net.keys, k.tag ≠ rtTag e) ∧ t.group g = { s.group g with aborted := false } ∧ ∀ h, h < 256 → h ≠ g → t.routeEntry h = s.routeEntry h) ∧
    ((s.group g).holder = none → routeOk e = false → ∃ t, exec .routeEntryWrite s = .next t ∧ AnsweredWith dsRouteInvalid s t ∧
      ∀ h, t.routeEntry h = s.routeEntry h) ∧
    ((s.group g).holder ≠ none → ∃ t, exec .routeEntryWrite s = .next t ∧ AnsweredWith dsRouteBusy s t ∧ ∀ h, t.routeEntry h = s.routeEntry h))

/-- R157, R158, R168 to R170 and R184: of a host-physical line, whose device line is its distance from the HDM decoder's base (R168). A line on
a fenced stack is read with CXL poison and its write dropped, as is one over a part of a poisoned granule. That BISNP_RESPONSE does no more
than take its line off the awaited ones (log 102) and how many errors an access counts (log 135) are the model's readings. -/
def Obligations.HostMemoryAccess : Prop :=
  ∀ (line : BitVec 46) (data : Desc) (be : Quad) (s : State), s.hostReaches = true →
    (s.hdmLine line.toNat = none → exec (.hostMemRead line) s = .next s ∧ exec (.hostMemWrite line data be) s = .next s ∧
      exec (.bisnpResponse line) s = .next s) ∧
    ∀ l, s.hdmLine line.toNat = some l →
    s.hdmBase + l = line.toNat ∧
    let a := 64 * l
    let word : Desc := BitVec.ofNat 512 (leNat (s.ms.mem.readBytes a 64))
    let mended := fun (t : State) => (t.stack (addrStack a)).ce = (s.stack (addrStack a)).ce +
      BitVec.ofNat 64 (s.ms.flips.countP (fun g => meets a 64 (32 * g) 32))
    (s.rangeErr a 64 = none →
      (s.poisonIn a 64 = none → ∃ t, exec (.hostMemRead line) s = .next t ∧ t.ms.mem = s.ms.mem ∧ mended t ∧
        t.out.head? = some (.cxlData l word false) ∧ t.cores = s.cores ∧ t.clusters = s.clusters) ∧
      ((s.poisonIn a 64).isSome → ∃ t, exec (.hostMemRead line) s = .next t ∧ t.ms.mem = s.ms.mem ∧
        OutMsg.cxlData l word true ∈ t.out ∧
        mended t) ∧
      ((∀ i, i < 64 → be.getLsbD i = true → s.isProtected (a + i) 1 = false) → s.partPoison a be = none →
        ∃ t, exec (.hostMemWrite line data be) s = .next t ∧ t.out = .cxlDone l :: s.out ∧ t.cores = s.cores ∧
          (∀ i, i < 64 → t.ms.mem.read (a + i) = if be.getLsbD i then data.extractLsb' (8 * i) 8 else s.ms.mem.read (a + i)) ∧
          (∀ x, x < a ∨ a + 64 ≤ x → t.ms.mem.read x = s.ms.mem.read x)) ∧
      (∀ g, (∀ i, i < 64 → be.getLsbD i = true → s.isProtected (a + i) 1 = false) → s.partPoison a be = some g →
        ∃ t, exec (.hostMemWrite line data be) s = .next t ∧ t.ms.mem = s.ms.mem ∧ t.ms.poison = s.ms.poison ∧ s.isPoisoned g = true ∧
          OutMsg.cxlDone l ∈ t.out ∧ (∃ r ∈ t.por.log, r.seq = s.por.logSeq + 1) ∧
          (t.stack (addrStack (32 * g))).ue = (s.stack (addrStack (32 * g))).ue + 1) ∧
      ((∃ i, i < 64 ∧ be.getLsbD i = true ∧ s.isProtected (a + i) 1 = true) →
        ∃ t, exec (.hostMemWrite line data be) s = .next t ∧ t.ms = s.ms ∧ t.out = .cxlDone l :: s.out)) ∧
    (s.rangeErr a 64 = some .bus →
      (∃ t, exec (.hostMemRead line) s = .next t ∧ t.ms = s.ms ∧ t.out = .completerAbort a :: s.out) ∧
      (∃ t, exec (.hostMemWrite line data be) s = .next t ∧ t.ms = s.ms ∧ t.out = .completerAbort a :: s.out)) ∧
    (∀ x, s.rangeErr a 64 = some (.ue x) →
      (∃ t, exec (.hostMemRead line) s = .next t ∧ t.ms.mem = s.ms.mem ∧ OutMsg.cxlData l word true ∈ t.out ∧
        (t.stack (addrStack a)).ue = (s.stack (addrStack a)).ue + 1) ∧
      ((s.stack (addrStack a)).fence ≠ 0 → ∃ t, exec (.hostMemWrite line data be) s = .next t ∧ t.ms = s.ms ∧ t.out = .cxlDone l :: s.out ∧
        t.por.logSeq = s.por.logSeq + 1) ∧
      ((s.stack (addrStack a)).fence = 0 → ∃ t, exec (.hostMemWrite line data be) s = .next t ∧ t.ms.mem = s.ms.mem ∧
        OutMsg.cxlDone l ∈ t.out ∧ (t.stack (addrStack a)).ue = (s.stack (addrStack a)).ue + 1)) ∧
    exec (.bisnpResponse line) s = .next { s with ms := { s.ms with snoopWait := s.ms.snoopWait.erase l } }

/-- R156, R157, R159 and R160. Which granule a transfer loses whose parity the repeats do not mend is a free value (log 184). -/
def Obligations.PatrolScrubUnit : Prop :=
  ∀ (m : StackId) (ch : ChannelId) (good bad : List (Fin 64)) (s : State),
    let unit := mget 0 s.ms.scrubPos (128 * m.val + ch.val)
    let addr := fun (g : Fin 64) => granuleAddr m unit ch g
    (s.stackServes m = true → mget 0 s.ms.parity m ≤ s.dv 0x0801 1 → s.dv 0x0801 2 ≠ 0 → unit < scrubUnits → bad.Nodup → good.Nodup →
      (∀ g : Fin 64, s.isPoisoned (addr g / 32) = false) → (∀ g : Fin 64, addr g / 32 ∉ s.ms.flips) → (s.stack m).ue.toNat + bad.length < s.dv 0x0801 3 →
      s.dv 0x0801 3 < 2 ^ 64 →
      ∃ t, exec (.patrolScrub m ch good bad) s = .next t ∧ t.ms.mem = s.ms.mem ∧
        (t.stack m).ce = (s.stack m).ce + BitVec.ofNat 64 good.length ∧ (t.stack m).ue = (s.stack m).ue + BitVec.ofNat 64 bad.length ∧
        (t.stack m).fence = (s.stack m).fence ∧
        (∀ g : Fin 64, t.isPoisoned (addr g / 32) = decide (g ∈ bad)) ∧
        mget 0 t.por.bwCounts (24 + m.val) = mget 0 s.por.bwCounts (24 + m.val) + (if good = [] then 0 else 2048) ∧
        mget 0 t.ms.scrubPos (128 * m.val + ch.val) = (unit + 1) % scrubUnits) ∧
    (s.stackServes m = true → s.dv 0x0801 1 < mget 0 s.ms.parity m → s.dv 0x0801 2 ≠ 0 →
      (∀ g : Fin 64, s.isPoisoned (addr g / 32) = false) → (s.stack m).ue.toNat + 1 < s.dv 0x0801 3 →
      ∃ t g, exec (.patrolScrub m ch [] []) s = .next t ∧ t.ms.mem = s.ms.mem ∧ t.ms.poison = s.ms.poison ++ [addr g / 32] ∧
        (t.stack m).ue = (s.stack m).ue + 1 ∧ (t.stack m).retries = (s.stack m).retries + BitVec.ofNat 64 (s.dv 0x0801 1) ∧
        mget 0 t.ms.parity m = 0) ∧
    (s.stackServes m = true → mget 0 s.ms.parity m ≤ s.dv 0x0801 1 → s.dv 0x0801 2 ≠ 0 → (∀ g : Fin 64, s.isPoisoned (addr g / 32) = false) →
      ∃ t, exec (.patrolScrub m ch [] []) s = .next t ∧ t.ms.mem = s.ms.mem ∧ t.ms.poison = s.ms.poison ∧
        (t.stack m).ce = (s.stack m).ce + BitVec.ofNat 64 ((List.range 64).countP (fun g => s.ms.flips.contains (granuleAddr m unit ch g / 32))) ∧
        ∀ g : Fin 64, addr g / 32 ∉ t.ms.flips) ∧
    (s.stackServes m = false ∨ s.dv 0x0801 2 = 0 → exec (.patrolScrub m ch good bad) s = .next s)

/-- R175, R177, R182, R196, R198 and R504. -/
def Obligations.WeightSlotCommands : Prop :=
  (∀ (i : SlotId) (bs : List Byte) (s : State), s.writes 0x0930 1 bs → par bs 0 1 = i.val →
    let n := par bs 8 8
    let cs := (List.range 128).filter (fun c => (BitVec.ofNat 128 (par bs 16 16)).getLsbD c)
    ((s.slot i).state = .free → n ≠ 0 → cs ≠ [] →
      (∀ c ∈ cs, (s.flashCh c).fence = 0 ∧ s.flashOff c = false ∧ s.reservedOn c + perChannel n cs.length ≤ channelCapacity) →
      ∃ t, exec .slotCreate s = .next t ∧ AnsweredWith dsOk s t ∧ (t.slot i).state = .writing ∧ (t.slot i).written = [] ∧
        (t.slot i).bytes = cs.length * ((n + cs.length * 16777216 - 1) / (cs.length * 16777216) * 16777216) ∧
        ∀ j, j ≠ i.val → t.slot j = s.slot j) ∧
    ((s.slot i).state ≠ .free → ∃ t, exec .slotCreate s = .next t ∧ AnsweredWith dsSlotState s t ∧ t.car = s.car)) ∧
  (∀ (i : SlotId) (bs : List Byte) (s : State), s.writes 0x0930 2 bs → par bs 0 1 = i.val → par bs 1 1 = 0 →
    let off := par bs 8 8
    let n := par bs 24 8
    ((s.slot i).state = .writing → (s.slot i).sealing = false → s.slotOff i = false → off % 2048 = 0 → n % 2048 = 0 → off + n ≤ (s.slot i).bytes →
      (s.slot i).written = [] → s.por.cmds = [] → (n ≠ 0 → s.inOnStacks (par bs 16 8) n = true) →
      ∃ t, exec .slotWrite s = .next t ∧ AnsweredWith dsAccepted s t ∧ t.car = s.car ∧
        t.por.cmds.map (fun c => (c.ticket, c.index, c.sub, c.params)) = [(s.por.nextTicket, 0x0930, 2, bs)]) ∧
    ((s.slot i).state ≠ .writing → ∃ t, exec .slotWrite s = .next t ∧ AnsweredWith dsSlotState s t ∧ t.car = s.car ∧ t.por.cmds = s.por.cmds)) ∧
  (∀ (i : SlotId) (bs : List Byte) (s : State), s.writes 0x0930 3 bs → bs.length = 2 → par bs 0 1 = i.val → par bs 1 1 < 2 →
    ((s.slot i).state = .writing → (s.slot i).sealing = false → s.slotOff i = false → s.por.cmds.length < 16 →
      ∃ t, exec .slotSeal s = .next t ∧ AnsweredWith dsAccepted s t ∧ t.slot i = { s.slot i with sealing := true } ∧
        ∀ j, j ≠ i.val → t.slot j = s.slot j) ∧
    ((s.slot i).state ≠ .writing → ∃ t, exec .slotSeal s = .next t ∧ AnsweredWith dsSlotState s t ∧ t.car = s.car)) ∧
  (∀ (i : SlotId) (bs : List Byte) (s : State), s.writes 0x0930 5 bs → leNat bs = i.val → (s.slot i).sealing = false →
    s.slotOff i = false →
    ((s.slot i).state = .sealed →
      ((s.slot i).refs = 0 → s.writesOf i = [] → s.por.cmds.length < 16 → ∃ t, exec .slotErase s = .next t ∧ AnsweredWith dsAccepted s t ∧
        (t.slot i).state = .erasing ∧ (t.slot i).window = 0 ∧ ∀ j, j ≠ i.val → t.slot j = s.slot j) ∧
      ((s.slot i).refs ≠ 0 → ∃ t, exec .slotErase s = .next t ∧ AnsweredWith dsSlotBusy s t ∧ t.car = s.car))) ∧
  (∀ (n i : SlotId) (bs : List Byte) (s : State),
    let cur := s.dv 0x0920 (n.val + 1)
    let same := (s.slot i).blockCount = (s.slot cur).blockCount ∧ (s.slot i).objectCount = (s.slot cur).objectCount ∧
      (s.slot i).tables = (s.slot cur).tables ∧ ∀ u ∈ [7, 8, 9], s.dv (0x0910 + i.val) u = s.dv (0x0910 + cur) u
    let maps := fun (status v : Nat) =>
      (s.writes 0x0930 4 bs → bs.length = 2 → par bs 0 1 = n.val → par bs 1 1 = i.val → ∃ t, exec .slotSwitch s = .next t ∧
        AnsweredWith status s t ∧ t.dv 0x0920 (n.val + 1) = v ∧ t.car = s.car) ∧
      (s.writes 0x0920 (n.val + 1) bs → leNat bs = i.val → ∃ t, exec .slotMapWrite s = .next t ∧
        AnsweredWith status s t ∧ t.dv 0x0920 (n.val + 1) = v ∧ t.car = s.car)
    ((s.slot i).state = .sealed → (cur = i.val ∨ (s.slot cur).state ≠ .sealed ∨ same) → maps dsOk i.val) ∧
    ((s.slot i).state = .sealed → cur ≠ i.val → (s.slot cur).state = .sealed → ¬ same → maps dsLayout cur) ∧
    ((s.slot i).state ≠ .sealed → maps dsSlotState cur)) ∧
  (∀ (ch : ChannelId) (bs : List Byte) (s : State), s.writes 0x0930 6 bs → leNat bs = ch.val → (s.flashCh ch).fence = 0 →
    ∃ t, exec .flashFence s = .next t ∧ AnsweredWith dsOk s t ∧ t.flashCh ch = { s.flashCh ch with fence := 3 } ∧
      (∀ i, i < 16 → (s.slot i).state = .sealed → (s.slot i).mask.getLsbD ch = true → (t.slot i).degraded = true) ∧
      ∀ c, c ≠ ch.val → t.flashCh c = s.flashCh c)

/-- R173, R183, R185, R186, R189, R192, R325 and R409. The model's choices: a window write of a referenced slot answers SLOT_BUSY also where its
fields are bad (log 220), and what BULK_SLOT_DATA_RECV does with flits of no message or of a message in part (log 25). -/
def Obligations.WindowsAndFills : Prop :=
  (∀ (i : SlotId) (u : Nat) (bs : List Byte) (s : State), 7 ≤ u → u ≤ 9 → s.writes (0x0910 + i) u bs →
    let get := fun k => if k = u then leNat bs else s.dv (0x0910 + i) k
    ((s.slot i).refs = 0 → s.windowOk i (get 7) (get 8) (get 9) = true → ∃ t, exec .windowConfigWrite s = .next t ∧ AnsweredWith dsOk s t ∧
      t.dv (0x0910 + i) u = leNat bs ∧ (t.slot i).configured = true ∧ (t.slot i).frames = [] ∧ (t.slot i).present = [] ∧
      (t.slot i).window = (if (s.slot i).state = .sealed then 1 else 0) ∧ ∀ j, j ≠ i.val → t.slot j = s.slot j) ∧
    ((s.slot i).refs ≠ 0 → ∃ t, exec .windowConfigWrite s = .next t ∧ AnsweredWith dsSlotBusy s t ∧ t.car = s.car)) ∧
  (∀ (i : SlotId) (s : State) (j : Job), s.streamFor i = some j → s.hub.sweeping = false → (s.slot i).blockCount ≠ 0 →
    s.releasedTo j = (s.slot i).relOrd → (s.slot i).relOrd ≤ (s.slot i).nextOrd →
    let q := (s.slot i).nextOrd
    let f := (s.slot i).frame (q % s.winFrames i)
    q < s.releasedTo j + s.depthOf i →
    ∃ t, exec (.windowFill i) s = .next t ∧ (t.slot i).nextOrd = q + 1 ∧ t.ms = s.ms ∧
      ((t.slot i).frame (q % s.winFrames i)).tag = some (i.val, q % (s.slot i).blockCount) ∧
      ((t.slot i).frame (q % s.winFrames i)).state =
        if f.state = .released ∧ f.tag = some (i.val, q % (s.slot i).blockCount) ∧ f.failed = [] then .ready else .filling) ∧
  (∀ (i : SlotId) (cw : Nat) (readable : Bool) (retries : Nat) (s : State), s.hub.sweeping = false →
    let sl := s.slot i
    let ch := sl.channelOf cw
    let fenced := (s.flashCh ch).fence ≠ 0
    let tries := fun (t : State) => (t.flashCh ch).retries = (s.flashCh ch).retries + BitVec.ofNat 64
      (if fenced then 0 else if readable then min retries (s.dv 0x0901 1) else s.dv 0x0901 1)
    let off := fun (r : Host.Outcome State Fault Refusal) => ∃ t, r = .next t ∧ t.hub.sweeping = true ∧
      t.hub.lastFault.status = stBusError ∧ t.ms = s.ms ∧ t.cores = s.cores ∧ ∀ c, t.flashCh c = s.flashCh c
    (∀ o, sl.window = 1 → s.slotOnDemand i = true → o ∈ sl.allObjs → o.obj ∈ sl.demand → cw ∈ o.cws →
      let a := s.winBase i + ((sl.cwBytes cw sl.wbBytes sl.dataBytes).1 - sl.wbBytes)
      let bs := (sl.cwBytes cw sl.wbBytes sl.dataBytes).2
      (s.flashOff ch = true → s.streamFor i = none → off (exec (.codewordReadDone i cw readable retries) s)) ∧
      (s.flashOff ch = false → readable = true → ¬ fenced → s.rangeErr a bs.length = none → s.poisonPart a bs.length = none →
        ∃ t, exec (.codewordReadDone i cw readable retries) s = .next t ∧ tries t ∧ t.ms.mem = s.ms.mem.writeBytes a bs ∧
          cw ∈ (t.slot i).got ∧ t.cores = s.cores ∧
          ((∀ w ∈ o.cws, w = cw ∨ w ∈ sl.got) → o.obj ∈ (t.slot i).present ∧ o.obj ∉ (t.slot i).demand ∧ o.obj ∉ (t.slot i).failedObj)) ∧
      (s.flashOff ch = false → (readable = false ∨ fenced) →
        ∃ t, exec (.codewordReadDone i cw readable retries) s = .next t ∧ tries t ∧ t.ms = s.ms ∧
        (∀ x ∈ sl.allObjs, cw ∈ x.cws → x.obj ∈ (t.slot i).failedObj ∧ x.obj ∉ (t.slot i).demand) ∧
        (t.flashCh ch).ue = (s.flashCh ch).ue + 1)) ∧
    (∀ j f b, s.streamFor i = some j → s.releasedTo j = sl.relOrd → sl.relOrd ≤ sl.nextOrd → sl.wants cw = some (f, b) →
      let a := s.winBase i + f * sl.frameBytes + ((sl.cwBytes cw (sl.blockOff b) (sl.blockOff b + sl.blockBytes b)).1 - sl.blockOff b)
      let bs := (sl.cwBytes cw (sl.blockOff b) (sl.blockOff b + sl.blockBytes b)).2
      (s.flashOff ch = true → off (exec (.codewordReadDone i cw readable retries) s)) ∧
      (s.flashOff ch = false → readable = true → ¬ fenced → s.rangeErr a bs.length = none → s.poisonPart a bs.length = none →
        ∃ t, exec (.codewordReadDone i cw readable retries) s = .next t ∧ tries t ∧ t.ms.mem = s.ms.mem.writeBytes a bs ∧
          ((t.slot i).frame f).got = (sl.frame f).got ++ [cw] ∧ ((t.slot i).frame f).tag = (sl.frame f).tag ∧
          ((t.slot i).frame f).state = if (sl.objsOf b).all ((t.slot i).frame f).settled then .ready else .filling) ∧
      (s.flashOff ch = false → (readable = false ∨ fenced) →
        ∃ t, exec (.codewordReadDone i cw readable retries) s = .next t ∧ tries t ∧ t.ms = s.ms ∧
        (∀ x ∈ sl.objsOf b, cw ∈ x.cws → x.obj ∈ ((t.slot i).frame f).failed) ∧
        (t.flashCh ch).ue = (s.flashCh ch).ue + 1))) ∧
  (∀ (c : CoreId) (s : State) (job : Job) (e : QEntry) (i : Nat), s.coreJob c = some job →
    e ∈ (s.core c).queue → e.waits = true → e.fam = some .mma → i < 16 → s.slotOnDemand i = true →
    (s.slot i).window = 1 → s.rangeSlot i = i →
    ∃ t, exec (.onDemandFetch c) s = .next t ∧ t.ms = s.ms ∧ t.cores = s.cores ∧
      (∀ o ∈ (s.slot i).regionObjs (mWAddr e.d - s.winBase i)
          (mWAddr e.d + tileBytes (mWFmt e.d) - max (mWAddr e.d) (s.winBase i)),
        o.obj ∉ (s.slot i).present → o.obj ∉ (s.slot i).failedObj → o.obj ∈ (t.slot i).demand ∧
          ∀ n, o.obj < n → n ≤ o.obj + s.dv 0x0901 5 → n < (s.slot i).objectCount → n ∉ (s.slot i).present → n ∈ (t.slot i).demand) ∧
      (t.slot i).present = (s.slot i).present ∧ (t.slot i).frames = (s.slot i).frames) ∧
  (∀ (p : PortId) (s : State) (f : BitVec 2048) (rest : List (BitVec 2048)), (s.port p).asmB ++ (s.port p).rxB = f :: rest →
    let h := f.toNat
    bits h 7 0 ≠ 2 →
    let x := s.port p
    let n := bits h 191 160
    let off := bits h 255 192
    let i := bits h 159 152
    let k := min x.rxB.length (1 + n / 256 - x.asmB.length)
    let covers := fun (w : RunCmd × SlotWrite) => decide (w.2.source = 1 ∧ w.2.port = p) && within off n w.2.off w.2.len &&
      !w.1.arrived.any (fun a => meets off n (w.2.off + a.1) a.2)
    let formed := bits h 7 0 = 1 ∧ n ≠ 0 ∧ n % 2048 = 0 ∧ n ≤ bulkMax
    (rest.length < n / 256 → ∃ t, exec (.bulkSlotDataRecv p) s = .next t ∧ OnlyPort p s t ∧ t.car = s.car ∧
      t.port p = { x with rxB := x.rxB.drop k, owedB := x.owedB + k, asmB := x.asmB ++ x.rxB.take k }) ∧
    (n / 256 ≤ rest.length →
      (∀ w, formed → (s.writesOf i).find? covers = some w → (s.slot i).state = .writing →
        ∃ t, exec (.bulkSlotDataRecv p) s = .next t ∧
          t.port p = { x with rxB := x.rxB.drop k, owedB := x.owedB + k, asmB := [] } ∧
          (t.slot i).stream = (s.slot i).stream.writeBytes off (((rest.take (n / 256)).flatMap flitBytes).take n) ∧
          (∀ j, j ≠ i → t.slot j = s.slot j) ∧ t.ms = s.ms ∧ t.cores = s.cores ∧
          t.por.cmds = s.por.cmds.map (fun c =>
            if c.ticket = w.1.ticket then { c with arrived := c.arrived ++ [(off - w.2.off, n)] } else c)) ∧
      (¬ formed ∨ (s.writesOf i).find? covers = none → ∃ t, exec (.bulkSlotDataRecv p) s = .next t ∧ OnlyPort p s t ∧ t.car = s.car ∧
        t.port p = { x with rxB := x.rxB.drop k, owedB := x.owedB + k, asmB := [], unmatched := x.unmatched + 1 })))

/-- R194 and R8. Of an entry's down tiles the first alone is held against the weight ranges (log 30), a malformed entry answers
OUT_OF_RANGE (log 171), and an unload of an entry that is not LOADED answers OK (log 178): the model's choices. -/
def Obligations.AdapterCommands : Prop :=
  (∀ (bs : List Byte) (s : State), s.writes 0x0A00 2 bs →
    let i := par bs 0 2
    let v := adapterClean (par bs 2 64)
    ((4096 ≤ i ∨ adapterOk v = false) → ∃ t, exec .adapterLoad s = .next t ∧ AnsweredWith dsOutOfRange s t ∧ t.ms = s.ms ∧ t.car = s.car) ∧
    (i < 4096 → adapterOk v = true → adState (s.adapterRec i) = 0 → s.meetsWeight (adUp v) (adTiles v * tileBytes (adFmt v)) = false →
      s.meetsWeight (adDown v) (tileBytes (adFmt v)) = false → s.rangeErr (s.adapterAddr i) 64 = none → s.poisonIn (s.adapterAddr i) 64 = none →
      ∃ t, exec .adapterLoad s = .next t ∧ AnsweredWith dsOk s t ∧ t.adapterRec i = v + 1 ∧ adState (t.adapterRec i) = 1 ∧ t.adapterRefs i = 0) ∧
    (i < 4096 → adapterOk v = true → adState (s.adapterRec i) ≠ 0 →
      ∃ t, exec .adapterLoad s = .next t ∧ AnsweredWith dsAdapterBusy s t ∧ t.ms.mem = s.ms.mem ∧ t.car = s.car)) ∧
  (∀ (bs : List Byte) (s : State), s.writes 0x0A00 3 bs → leNat bs < 4096 → s.rangeErr (s.adapterAddr (leNat bs)) 64 = none →
    s.poisonIn (s.adapterAddr (leNat bs)) 64 = none →
    let i := leNat bs
    (adState (s.adapterRec i) = 1 →
      (s.adapterRefs i = 0 → ∃ t, exec .adapterUnload s = .next t ∧ AnsweredWith dsOk s t ∧ adState (t.adapterRec i) = 0) ∧
      (s.adapterRefs i ≠ 0 → ∃ t, exec .adapterUnload s = .next t ∧ AnsweredWith dsOk s t ∧ adState (t.adapterRec i) = 2)) ∧
    (adState (s.adapterRec i) ≠ 1 → ∃ t, exec .adapterUnload s = .next t ∧ AnsweredWith dsOk s t ∧ t.ms.mem = s.ms.mem ∧ t.car = s.car))

/-- R236, R238, R240 and R244, and R24 where the end of a stream meets a job fault: the sweep ends it. That reserved bits of a request are
ignored (log 111), that a directory that cannot be read is the fault of the job that holds the stream (log 138), and that a room whose entry
lies on a cluster that is OFF is a bus error (log 113), are the model's readings. -/
def Obligations.RoomPinsAndTimeouts : Prop :=
  (∀ (k : ClusterId) (s : State) (j : Job) (w : Nat), s.narrowJob k = some j → s.roomFront k 1 = some w →
    let stream := bits w 51 36
    let answers := fun (v : Nat) (t : State) => (t.cluster k).roomQ = answerRoom (BitVec.ofNat 64 v) (s.cluster k).roomQ ∧
      t.cores = s.cores ∧ t.hub = s.hub
    ((j.streams.contains stream = false ∨ s.heldBy j stream = false) →
      ∃ t, exec (.roomPin k) s = .next t ∧ answers (2 * 2 ^ 60) t ∧ t.ms = s.ms ∧ (t.cluster k).pins = (s.cluster k).pins) ∧
    (∀ e, j.streams.contains stream = true → s.heldBy j stream = true → s.pinErr stream (bits w 59 52) (bits w 31 0) = some e →
      exec (.roomPin k) s = .next (s.seqAccFault k e)) ∧
    (j.streams.contains stream = true → s.heldBy j stream = true → s.pinErr stream (bits w 59 52) (bits w 31 0) = none →
      (s.pinRoom stream (bits w 59 52) (bits w 31 0) = none → ∃ t, exec (.roomPin k) s = .next t ∧ answers (1 * 2 ^ 60) t ∧ t.ms.mem = s.ms.mem ∧
        (t.cluster k).pins = (s.cluster k).pins) ∧
      (∀ x, s.pinRoom stream (bits w 59 52) (bits w 31 0) = some x →
        (s.roomGone x = true → ∃ t, exec (.roomPin k) s = .next t ∧ (t.cluster k).pins = (s.cluster k).pins ∧ t.ms.mem = s.ms.mem ∧
          (s.hub.sweeping = false → t.hub.sweeping = true ∧ t.hub.lastFault.status = stBusError ∧ t.hub.lastFault.job = j.id)) ∧
        (s.roomGone x = false → 64 ≤ (s.cluster k).pins.length ∨ 65535 ≤ roomPins (s.roomEntry x) → ∃ t, exec (.roomPin k) s = .next t ∧ answers (3 * 2 ^ 60) t ∧
          t.ms.mem = s.ms.mem ∧ t.clusterCtr k 22 = s.clusterCtr k 22 + 1 ∧ (t.cluster k).pins = (s.cluster k).pins) ∧
        (∀ pl, s.roomGone x = false → s.roomPlace x = some pl → (s.cluster k).pins.length < 64 → roomPins (s.roomEntry x) < 65535 →
          ∃ t, exec (.roomPin k) s = .next t ∧ answers (x * 2 ^ 32 + pl.addr / 2048) t ∧
            (t.cluster k).pins = (s.cluster k).pins ++ [x] ∧ t.clusterCtr k 21 = s.clusterCtr k 21 + 1)))) ∧
  (∀ (k : ClusterId) (s : State) (j : Job) (w : Nat), s.narrowJob k = some j → s.roomFront k 2 = some w →
    (bits w 23 0 ∉ (s.cluster k).pins → ∃ t, exec (.roomUnpin k) s = .next t ∧
      (t.cluster k).roomQ = answerRoom (BitVec.ofNat 64 (4 * 2 ^ 60)) (s.cluster k).roomQ ∧ t.ms = s.ms) ∧
    (bits w 23 0 ∈ (s.cluster k).pins → s.roomGone (bits w 23 0) = true → exec (.roomUnpin k) s = .next (s.seqAccFault k .bus)) ∧
    (bits w 23 0 ∈ (s.cluster k).pins → s.roomGone (bits w 23 0) = false → ∃ t, exec (.roomUnpin k) s = .next t ∧
      (t.cluster k).pins = (s.cluster k).pins.erase (bits w 23 0) ∧ (t.cluster k).roomQ = answerRoom 0 (s.cluster k).roomQ)) ∧
  (∀ (i : Half) (s : State),
    (s.isParked i.toNat = true → s.hub.sweeping = false → (s.stream i.toNat).sstate = .held →
      ((s.hasDir i.toNat = true → ∀ r ∈ s.dirRanges i.toNat, ∃ bs, s.memRead r.1 r.2 = .ok bs) → ∃ t, exec (.vacancyTimeout i) s = .next t ∧
        (t.stream i.toNat).sstate = .ended ∧ (t.hub.sweeping = false → (t.stream i.toNat).endCode = 0x34) ∧
        (t.hub.sweeping = true → (t.stream i.toNat).endCode = stSwept) ∧
        ((∀ k, k ≠ i.toNat → s.isParked k = false) → t.hub.sweeping = false)) ∧
      (s.hasDir i.toNat = true → (∃ r ∈ s.dirRanges i.toNat, ∃ e, s.memRead r.1 r.2 = .error e) →
        ∃ t, exec (.vacancyTimeout i) s = .next t ∧ t.hub.sweeping = true)) ∧
    (s.isParked i.toNat = false ∨ s.hub.sweeping = true → exec (.vacancyTimeout i) s = .next s))

/-- R241, R293, R294 and R307. ROOM_LINK over directories that cannot be read, or rooms whose entries
lie on a cluster that is OFF, answers ROUND_INVALID (the model's choice, logs 179 and 113); a REUSE configuration is accepted where its bitmap
lies on a fenced stack, which drops the zeroes (R149; the model's reading, log 221). -/
def Obligations.RoomLinkReuseTab : Prop :=
  (∀ (bs : List Byte) (s : State), s.writes 0x0D30 1 bs → bs.length = 8 →
    let src := par bs 0 2
    let dst := par bs 2 2
    ((s.stream src).sstate = .held ∨ (s.stream dst).sstate = .held → ∃ t, exec .roomLink s = .next t ∧ AnsweredWith dsRoomsBusy s t ∧ t.ms = s.ms) ∧
    ((s.stream src).sstate ≠ .held → (s.stream dst).sstate ≠ .held →
      let readable := ∀ r ∈ s.linkReads src dst (par bs 4 1) (par bs 5 1 + 1), ∃ bs, s.memRead r.1 r.2 = .ok bs
      (¬ readable ∨ s.linkPairs src dst (par bs 4 1) (par bs 5 1 + 1) = none →
        ∃ t, exec .roomLink s = .next t ∧ AnsweredWith dsRound s t ∧ t.ms.mem = s.ms.mem) ∧
      (∀ es, readable → s.linkPairs src dst (par bs 4 1) (par bs 5 1 + 1) = some es →
        let rooms := es.map (fun p => dirRoom p.1)
        let dups := s.dirBase dst + 8
        let copied := es.foldl (fun (m : Mem) p => m.writeBytes p.2 (leBytes 8 p.1)) s.ms.mem
        ((∃ x ∈ rooms, s.roomGone x = true) →
          ∃ t, exec .roomLink s = .next t ∧ AnsweredWith dsRound s t ∧ t.ms.mem = s.ms.mem ∧ t.clusters = s.clusters) ∧
        ((∀ x ∈ rooms, s.roomGone x = false) → (∃ x ∈ rooms, 65535 < roomRef (s.roomEntry x) + rooms.count x) →
          ∃ t, exec .roomLink s = .next t ∧ AnsweredWith dsRefFull s t ∧ t.ms.mem = s.ms.mem ∧ t.clusters = s.clusters) ∧
        ((∀ x ∈ rooms, s.roomGone x = false) → (∀ x ∈ rooms, roomRef (s.roomEntry x) + rooms.count x ≤ 65535) →
          (∀ p ∈ es, s.rangeErr p.2 8 = none ∧ s.poisonIn p.2 8 = none) → s.rangeErr dups 4 = none → s.poisonIn dups 4 = none →
          ∃ t, exec .roomLink s = .next t ∧ AnsweredWith dsOk s t ∧
            t.ms.mem = copied.writeBytes dups (leBytes 4 ((copied.readLE dups 4 + es.length) % 2 ^ 32)) ∧
            t.clusters = (es.foldl (fun (u : State) p => u.modRoomRef (dirRoom p.1) (fun n => n + 1)) s).clusters ∧ t.cores = s.cores)))) ∧
  (∀ (bs : List Byte) (s : State), s.writes 0x0E00 5 bs → bs.length = 8 →
    let lo := par bs 0 4
    let n := par bs 4 4
    (s.dv 0x0E00 3 < lo + n → ∃ t, exec .reuseClear s = .next t ∧ AnsweredWith dsRange s t ∧ t.ms = s.ms) ∧
    (lo ≤ s.dv 0x0E00 3 → n = 0 → ∃ t, exec .reuseClear s = .next t ∧ AnsweredWith dsOk s t ∧ t.ms = s.ms) ∧
    (lo + n ≤ s.dv 0x0E00 3 → n = 1 → s.dv 0x0E00 1 % 2048 = 0 →
      let a := s.dv 0x0E00 1 + 32 * (lo / 256)
      let b := s.dv 0x0E00 1 + lo / 8
      s.rangeErr a 32 = none → s.isPoisoned (a / 32) = false →
      ∃ t, exec .reuseClear s = .next t ∧ AnsweredWith dsOk s t ∧ t.ms.mem.read b = s.ms.mem.read b &&& ~~~(1#8 <<< (lo % 8)) ∧
        ∀ x, x ≠ b → t.ms.mem.read x = s.ms.mem.read x)) ∧
  (∀ (u : Nat) (bs : List Byte) (s : State), 1 ≤ u → u ≤ 3 → s.writes 0x0E00 u bs →
    let get := fun k => if k = u then leNat bs else s.dv 0x0E00 k
    (s.hub.jobs ≠ [] → ∃ t, exec .reuseConfigWrite s = .next t ∧ AnsweredWith dsReuseBusy s t ∧ t.ms = s.ms ∧ t.dv 0x0E00 u = s.dv 0x0E00 u) ∧
    (s.hub.jobs = [] → 2 ^ 24 < get 3 → ∃ t, exec .reuseConfigWrite s = .next t ∧ AnsweredWith dsReuseInvalid s t ∧ t.ms = s.ms ∧
      t.dv 0x0E00 u = s.dv 0x0E00 u) ∧
    (s.hub.jobs = [] → get 3 ≤ 2 ^ 24 → get 1 % 2048 = 0 → get 1 + get 2 ≤ stackTop → s.meetsWeight (get 1) (get 2) = false →
      validBytes (get 3) ≤ get 2 →
      (s.rangeErr (get 1) (validBytes (get 3)) = none → ∃ t, exec .reuseConfigWrite s = .next t ∧ AnsweredWith dsOk s t ∧ t.dv 0x0E00 u = leNat bs ∧
        (∀ a, get 1 ≤ a → a < get 1 + validBytes (get 3) → get 2 ≠ 0 → t.ms.mem.read a = 0) ∧
        (∀ a, a < get 1 ∨ get 1 + validBytes (get 3) ≤ a → t.ms.mem.read a = s.ms.mem.read a)) ∧
      (∀ m, stacksOf (get 1) (validBytes (get 3)) = [m] → s.stackOff m = false → (s.stack m).fence ≠ 0 →
        ∃ t, exec .reuseConfigWrite s = .next t ∧ AnsweredWith dsOk s t ∧ t.dv 0x0E00 u = leNat bs ∧ t.ms.mem = s.ms.mem ∧
          (t.stack m).ue = (s.stack m).ue + 1))) ∧
  (∀ (bs : List Byte) (s : State), s.writes 0x0E10 1 bs → ∃ t, exec .tabEnable s = .next t ∧ AnsweredWith dsOk s t ∧
    t.dv 0x0E10 1 = leNat bs ∧ t.cores = s.cores ∧ t.ms = s.ms)

/-- R233, R234 and R243. The order of the refusals, a third room first and ROUND_INVALID before ROUND_ORDER and NO_VACANCY, is the model's
choice (log 218). -/
def Obligations.ScatKvDecides : Prop :=
  ∀ (c : CoreId) (s : State) (job : Job) (e : QEntry), s.runningOf c .scatKv = some (job, e) →
    let d := e.d
    let h := s.groupHdr (dStream d) (kBgrp d)
    let base := s.dirBase (dStream d)
    let size := (s.pool h.pool).size
    let touched := touchedRooms (kPos d) (dSop1 d).rows
    let ends := fun (i : Byte) (t : State) => (∀ q ∈ (t.core c).queue, q.ord = e.ord → q.phase = .done i) ∧
      (t.core c).store = (s.core c).store
    let held := s.heldBy job (dStream d) = true
    let w := s.readDone (s.dirBase (dStream d)) 64
    let u := (w.scatTables d).foldl (fun (t : State) r => t.readDone r.1 r.2) w
    (¬ held → ∃ t, exec (.scatKv c) s = .next t ∧ ends iSkipped t ∧ t.ms = s.ms) ∧
    (held → 2 < touched.length → exec (.scatKv c) s = .next (s.coreFault c stOverflow 6 e.ord)) ∧
    (∀ x, held → touched.length ≤ 2 → s.memRead (s.dirBase (dStream d)) 64 = .error x →
      exec (.scatKv c) s = .next (s.coreAccFault c e.ord x)) ∧
    (∀ bs, held → touched.length ≤ 2 → s.memRead (s.dirBase (dStream d)) 64 = .ok bs →
      ((s.dirGroups (dStream d) ≤ kBgrp d ∨ (dSop1 d).pitch < roomStride size ∨ (dSop2 d).pitch < roomStride size ∨ size = 0) →
        ∃ t, exec (.scatKv c) s = .next t ∧ ends iRoundInvalid t ∧ t.ms = w.ms ∧ t.ms.mem = s.ms.mem) ∧
      (¬ (s.dirGroups (dStream d) ≤ kBgrp d ∨ (dSop1 d).pitch < roomStride size ∨ (dSop2 d).pitch < roomStride size ∨ size = 0) →
        (∀ x, e.rooms = [] → w.scatErr d = some x → exec (.scatKv c) s = .next (w.coreAccFault c e.ord x)) ∧
        (e.rooms = [] → w.scatErr d = none → u.ms.mem = s.ms.mem ∧ u.hub = s.hub ∧ u.cores = s.cores ∧
          let decided := u.decideRooms job (dStream d) (kBgrp d) h touched
          (decided = .wait → exec (.scatKv c) s = .next u) ∧
          (decided = .order → ∃ t, exec (.scatKv c) s = .next t ∧ ends iRoundOrder t ∧ t.ms = u.ms) ∧
          (decided = .noVacancy → ∃ t, exec (.scatKv c) s = .next t ∧ ends iNoVacancy t ∧ t.isParked (dStream d) = true ∧
            (∀ a, (a < base + 2 ∨ base + 3 ≤ a) → (a < base + 4 ∨ base + 8 ≤ a) → t.ms.mem.read a = s.ms.mem.read a) ∧
            (s.isParked (dStream d) = false → t.ms.mem.read (base + 2) = 2 ∧
              t.ms.mem.readLE (base + 4) 4 = (s.ms.mem.readLE (base + 4) 4 + 1) % 2 ^ 32) ∧
            (t.core c).queue.map QEntry.rooms = (s.core c).queue.map QEntry.rooms ∧ ∀ p m, (t.vac p m).free = (s.vac p m).free) ∧
          (∀ x, decided = .err x → exec (.scatKv c) s = .next (u.coreAccFault c e.ord x)) ∧
          (∀ hs v y, decided = .holds hs v →
            (v.bumpCluster (clusterOf c) 23 (hs.countP (fun x => decide (x.decision ≠ .inPlace ∧ x.decision ≠ .overwrite)))).scatWrite c e size
              hs.zipIdx = .ok y →
            ∃ t, exec (.scatKv c) s = .next t ∧ ends iOk t ∧ (∀ q ∈ (t.core c).queue, q.ord = e.ord → q.rooms = hs) ∧ t.ms = y.ms)) ∧
        (∀ y, e.rooms ≠ [] → w.scatWrite c e size e.rooms.zipIdx = .ok y →
          ∃ t, exec (.scatKv c) s = .next t ∧ ends iOk t ∧ t.ms = y.ms)))

/-- R358 to R362. The model's choices here: the turn, and that a fetch out of turn changes nothing (log 68); no longest delay at COAL_TIME 0
(log 69); OFF at once where no entry is owed (log 70); and that the doorbells of a pair that is OFF and a CQ head at or beyond the queue's
size are ignored, and a head within it that lies beyond the entries written is taken as it is (log 32). -/
def Obligations.QueuePairs : Prop :=
  (∀ (n : PairId) (tail : Word) (s : State), s.hostReaches = true → (s.pair n).qstate ≠ .off →
    (tail.toNat < (s.pair n).sqSize → ∃ t, exec (.sqTailDoorbell n tail) s = .next t ∧
      t.pair n = { s.pair n with sqTail := BitVec.ofNat 16 tail.toNat, bells := (t.pair n).bells } ∧ t.out = s.out ∧
      ∀ m, m ≠ n.val → t.pair m = s.pair m) ∧
    ((s.pair n).sqSize ≤ tail.toNat → ∃ t, exec (.sqTailDoorbell n tail) s = .next t ∧ t.hub = s.hub ∧
      t.por.logSeq = s.por.logSeq + 1)) ∧
  (∀ (n : PairId) (head : Word) (s : State), s.hostReaches = true → (s.pair n).qstate ≠ .off → head.toNat < (s.pair n).cqSize →
    ∃ t, exec (.cqHeadDoorbell n head) s = .next t ∧
      t.pair n = { s.pair n with
        cqHead := BitVec.ofNat 16 head.toNat
        cqUsed := (s.pair n).cqUsed - (head.toNat + (s.pair n).cqSize - (s.pair n).cqHead.toNat) % (s.pair n).cqSize } ∧
      ∀ m, m ≠ n.val → t.pair m = s.pair m) ∧
  (∀ (n : PairId) (v : Word) (s : State), (s.pair n).qstate = .off →
    exec (.sqTailDoorbell n v) s = .next s ∧ exec (.cqHeadDoorbell n v) s = .next s) ∧
  (∀ (n : PairId) (head : Word) (s : State), (s.pair n).cqSize ≤ head.toNat → exec (.cqHeadDoorbell n head) s = .next s) ∧
  (∀ (n : PairId) (s : State), s.hostReaches = true → (s.pair n).qstate = .off → (s.pair n).sqLog.toNat ≤ 12 → (s.pair n).cqLog.toNat ≤ 12 →
    (s.pair n).sqBase.toNat % 4096 = 0 → (s.pair n).cqBase.toNat % 4096 = 0 →
    ∃ t, exec (.qpEnable n) s = .next t ∧ (t.pair n).qstate = .on ∧ (t.pair n).enable = true ∧ (t.pair n).sqHead = 0 ∧ (t.pair n).sqTail = 0 ∧
      (t.pair n).cqHead = 0 ∧ (t.pair n).cqTail = 0 ∧ (t.pair n).phase = true ∧ (t.pair n).sqBase = (s.pair n).sqBase ∧
      (t.pair n).cqBase = (s.pair n).cqBase ∧ ∀ m, m ≠ n.val → t.pair m = s.pair m) ∧
  (∀ (n : PairId) (s : State), s.hostReaches = true → (s.pair n).qstate = .on →
    ∃ t, exec (.qpDisable n) s = .next t ∧ t.hub.jobs = s.hub.jobs ∧ t.out = s.out ∧
      t.pair n = { s.pair n with enable := false, qstate := if s.pairOwed n = 0 then .off else .draining } ∧
      ∀ m, m ≠ n.val → t.pair m = s.pair m) ∧
  (∀ (n : PairId) (e : Desc) (s : State), s.fetchRuns = true → s.pairTurn = some n.val → eOp e = 1 → jobsMax ≤ s.hub.jobs.length →
    ∃ t, exec (.submissionFetch n e) s = .next t ∧ t.pair n = { s.pair n with blocked := true } ∧ t.hub.turn = (n.val + 1) % 64 ∧
      t.hub.jobs = s.hub.jobs ∧ t.out = s.out ∧ ∀ m, m ≠ n.val → t.pair m = s.pair m) ∧
  (∀ (n : PairId) (e : Desc) (s : State), s.fetchRuns = false ∨ s.pairTurn ≠ some n.val → exec (.submissionFetch n e) s = .next s) ∧
  (∀ (n : PairId) (s : State), s.pairTurn = some n.val → s.canFetch n = true ∧
    ∀ i, i < (n.val + 64 - s.hub.turn % 64) % 64 → s.canFetch ((s.hub.turn + i) % 64) = false) ∧
  (∀ (n : PairId) (s : State), s.canFetch n = true ↔ (s.pair n).qstate = .on ∧ (s.pair n).fetched = none ∧
    (s.pair n).sqHead ≠ (s.pair n).sqTail ∧ (s.pair n).cqUsed + s.pairOwed n < (s.pair n).cqSize ∧
    ¬ ((s.pair n).blocked = true ∧ jobsMax ≤ s.hub.jobs.length)) ∧
  (∀ (n : PairId) (e : Desc) (s : State), s.fetchRuns = true → s.pairTurn = some n.val → (eOp e = 1 → s.hub.jobs.length < jobsMax) →
    ∃ t, exec (.submissionFetch n e) s = .next t ∧ t.hub.jobs = s.hub.jobs ∧ t.hub.turn = (n.val + 1) % 64 ∧ (t.pair n).blocked = false ∧
      (t.pair n).sqHead = BitVec.ofNat 16 (((s.pair n).sqHead.toNat + 1) % (s.pair n).sqSize) ∧ (t.pair n).sqTail = (s.pair n).sqTail ∧
      (eOp e ≤ 4 → (t.pair n).fetched = some e ∧ t.out = s.out ∧ ∀ m, m ≠ n.val → t.pair m = s.pair m) ∧
      (4 < eOp e → EntryDone n (eTag e) 0x10 s t)) ∧
  (∀ (n : PairId) (e : Desc) (s : State), (s.pair n).fetched = some e → eOp e = 0 →
    ∃ t, exec (.nop n) s = .next t ∧ EntryDone n (eTag e) (if eClean e then stOk else 0x10) s t ∧ t.hub.jobs = s.hub.jobs) ∧
  (∀ (n : PairId) (s : State), (s.pair n).unsignalled ≠ 0 → (s.pair n).coalTime ≠ 0 →
    ∃ t, exec (.cqCoalTimeout n) s = .next t ∧ t.pair n = { s.pair n with unsignalled := 0 } ∧ Signals (s.pair n).vector.toNat s t ∧
      ∀ m, m ≠ n.val → t.pair m = s.pair m)

/-- R23, R24, R95, R349, R365 to R367 and R374. That a job waits for channels only after every check of R366 is the model's choice (log 72), as
is that an unreadable table of the hub fails the check that reads it (log 161), that an entry whose checks start a sweep stays fetched
(log 214), and that CANCEL judges its target as it was at the fetch (log 71). A job whose release is what starts a sweep is the sweep's. 0x21 is STREAM_BUSY. -/
def Obligations.AdmissionAndCancel : Prop :=
  (∀ (n : PairId) (waited : Bool) (e : Desc) (s : State), (s.pair n).fetched = some e → eOp e = 1 → (s.pair n).waits = waited →
    s.admissionRuns = true →
    let cmd : Instr := if waited then .admissionResume n else .jobSubmit n
    let readable := fun (st : Option Byte) => ∀ r ∈ s.admissionReads e st, ∃ bs, s.memRead r.1 r.2 = .ok bs
    (∀ st, s.checks e = .error st → ∃ t, exec cmd s = .next t ∧ t.hub.jobs = s.hub.jobs ∧ (t.hub.sweeping = true → t.pair n = s.pair n) ∧
      (t.hub.sweeping = false → EntryDone n (eTag e) st s t) ∧ (readable (some st) → t.hub.sweeping = false)) ∧
    (∀ a, s.checks e = .ok a → readable none →
      (s.mapBarriers a.header = none → ∃ t, exec cmd s = .next t ∧ t.pair n = { s.pair n with waits := true } ∧ t.hub.jobs = s.hub.jobs ∧
        t.ms.mem = s.ms.mem) ∧
      (∀ bars, s.mapBarriers a.header = some bars → ∃ t j, exec cmd s = .next t ∧ t.job? (eTag e) = some j ∧ j.phase = .waiting ∧
        j.pair = n ∧ j.entry = e ∧ j.barriers = bars ∧ j.streams = a.streams ∧ j.admitSeq = s.hub.admitCount ∧
        t.hub.jobs.length = s.hub.jobs.length + 1 ∧ (t.pair n).fetched = none ∧ t.hub.completionSeq = s.hub.completionSeq ∧
        (∀ i ∈ a.streams, (∀ b ∈ a.bad, b.1 ≠ i) → (t.stream i).sstate = .held ∧ (t.stream i).holderJob = eTag e) ∧
        (t.hub.sweeping = false → ∀ b ∈ a.bad, (t.stream b.1).sstate = .ended ∧ (t.stream b.1).endCode = b.2) ∧
        (a.adapters = [] → (∀ i ∈ a.streams, s.hasDir i = false) → t.hub.sweeping = false) ∧
        (∀ i, j.slot = some i → (t.slot i).refs = (s.slot i).refs + 1)))) ∧
  (∀ (n : PairId) (e : Desc) (s : State), (s.pair n).fetched = some e → eClean e = true →
    let i := eStream e
    (eOp e = 3 →
      ((s.stream i).sstate = .free ∨ (s.stream i).sstate = .ended → ∃ t, exec (.streamOpen n) s = .next t ∧ EntryDone n (eTag e) stOk s t ∧
        (t.stream i).sstate = .opened ∧ ∀ k, k ≠ i → t.stream k = s.stream k) ∧
      ((s.stream i).sstate = .opened ∨ (s.stream i).sstate = .held → ∃ t, exec (.streamOpen n) s = .next t ∧
        EntryDone n (eTag e) 0x21 s t ∧ t.hub.streams = s.hub.streams)) ∧
    (eOp e = 4 →
      ((s.stream i).sstate = .opened → ∃ t, exec (.streamEnd n) s = .next t ∧ EntryDone n (eTag e) stOk s t ∧
        (t.stream i).sstate = .ended ∧ (t.stream i).endCode = stEnded ∧ ∀ k, k ≠ i → t.stream k = s.stream k) ∧
      ((s.stream i).sstate ≠ .opened → ∃ t, exec (.streamEnd n) s = .next t ∧ EntryDone n (eTag e) 0x21 s t ∧
        t.hub.streams = s.hub.streams)) ∧
    (eOp e = 2 → s.hub.sweeping = false →
      (s.job? (eTarget e) = none → ∃ t, exec (.cancel n) s = .next t ∧ t.hub.jobs = s.hub.jobs ∧
        EntryDone n (eTag e) (if (s.pair n).fetchedLive then stOk else 0x20) s t) ∧
      (∀ j, s.job? (eTarget e) = some j →
        (j.phase = .waiting ∨ j.phase = .saved → ∃ t, exec (.cancel n) s = .next t ∧ (t.pair n).fetched = none ∧
          (s.jobPins j = [] → s.jobHolds j = [] → j.adapters = [] → (∀ i ∈ j.streams, s.hasDir i = false) → t.hub.sweeping = false) ∧
          (t.hub.sweeping = false → t.job? j.id = none ∧ Completes j.pair j.id stCancelled s t ∧ CompletesToo n (eTag e) stOk s t ∧
            t.hub.cancelled = s.hub.cancelled + 1) ∧
          (t.hub.sweeping = true → t.out = s.out ∧ t.hub.cancelled = s.hub.cancelled ∧ ∃ x, t.job? j.id = some x ∧ x.phase = .ended ∧
            x.cancels = j.cancels ++ [(n.val, eTag e)])) ∧
        (j.phase = .running → (∃ k ∈ s.heldClusters j, (s.cluster k).coreFence ≠ BitVec.allOnes 16) →
          ∃ t x, exec (.cancel n) s = .next t ∧ t.job? j.id = some x ∧ x.phase = .stopping ∧ x.why = .cancelled ∧
            x.cancels = j.cancels ++ [(n.val, eTag e)] ∧ t.out = s.out ∧ (t.pair n).fetched = none ∧
            ∀ k ∈ s.heldClusters j, ∀ c ∈ coresOf k, (t.core c).stopReq = true ∧ (t.core c).stopped = false))))

/-- R23, R83, R135, R368 to R370, R372 and R373; a job whose completion is what starts a sweep is the sweep's. The model's readings: what contention is (log 188), how ready frames enter the order (log 151),
that a saved job takes its clusters at dispatch (log 83), and that preemption goes by class alone (log 73). -/
def Obligations.JobLifeCycle : Prop :=
  (∀ (id : JobId) (s : State) (j : Job), s.job? id = some j → s.dispatchRuns = true → s.canDispatch j = true →
    ((∃ x ∈ s.hub.jobs, s.outranks x j = true ∧ s.contend x j = true ∧ (s.canDispatch x = true ∨ s.canFree x = true)) →
      exec (.jobDispatch id) s = .next s) ∧
    ((∀ x ∈ s.hub.jobs, s.outranks x j = true → s.contend x j = true → s.canDispatch x = false ∧ s.canFree x = false) →
    ∃ t, exec (.jobDispatch id) s = .next t ∧ (∀ k ∈ j.team, (t.cluster k).holder = some id) ∧
      (∀ k, k ∉ j.team → t.cluster k = s.cluster k) ∧ (∀ g ∈ j.groups, (t.group g).holder = some id) ∧ t.cores = s.cores ∧ t.ms = s.ms ∧
      (j.phase = .waiting → (∀ k ∈ j.team, t.clusterCtr k 27 = s.clusterCtr k 27 + 1 ∧
          t.seq k = { active := true, pc := BitVec.ofNat 64 (bits j.entry.toNat 199 160 + bits j.header.toNat 63 32) }) ∧
        t.job? id = some { j with phase := .running, dispatchPacing := some s.pacing }) ∧
      (j.phase = .saved → t.job? id = some j ∧ ∀ k ∈ j.team, t.seq k = s.seq k))) ∧
  (∀ (id : JobId) (s : State) (x y : Job), s.job? id = some x → s.dispatchRuns = true → s.isReady x = true →
    (∀ k ∈ x.team, (s.cluster k).fenced = false ∧ s.underBist k = false ∧ s.clusterServes k = true) →
    (∀ z ∈ s.holdersOf x.team, x.mayStop z = true ∨ (z.phase = .stopping ∧ z.why = .preempted)) →
    y ∈ s.holdersOf x.team → x.mayStop y = true → y.prio < 5 →
    ∃ t z, exec (.preempt id) s = .next t ∧ t.job? y.id = some z ∧ z.phase = .stopping ∧ z.why = .preempted ∧ t.out = s.out ∧
      (∀ k ∈ s.heldClusters y, ∀ c ∈ coresOf k, (t.core c).stopReq = true ∧ (t.core c).stopped = false) ∧ t.clusters = s.clusters) ∧
  (∀ (id : JobId) (s : State) (j : Job), s.job? id = some j → s.hub.sweeping = false → j.phase = .stopping →
    (j.why = .preempted ∨ j.why = .activation) → s.allStopped j = true → s.heldClusters j = j.team →
    (∀ k ∈ j.team, ∀ c ∈ coresOf k, (s.core c).commits = []) →
    (∀ a rest e, j.saveAreas = a :: rest → s.rangeErr a saveClusterBytes = some e → ∃ t, exec (.jobSave id) s = .next t ∧
      t.job? id = some j ∧ t.hub.sweeping = true ∧ t.hub.lastFault.job = id ∧
      t.hub.lastFault.status = (match e with | .bus => stBusError | .ue _ => stMemUe) ∧ ∀ k, (t.cluster k).holder = (s.cluster k).holder) ∧
    ∀ u, s.writeAreas j.saveAreas = .ok u →
    ∃ t x, exec (.jobSave id) s = .next t ∧ t.job? id = some x ∧ x.phase = .saved ∧ x.preempted = true ∧ x.saved = j.team.map s.saveCluster ∧
      x.streams = j.streams ∧ x.adapters = j.adapters ∧ x.groups = j.groups ∧ x.slot = j.slot ∧
      (∀ k ∈ j.team, (t.cluster k).holder = none ∧ (t.cluster k).zeroing = true ∧ t.clusterCtr k 28 = s.clusterCtr k 28 + 1) ∧
      t.hub.streams = s.hub.streams ∧ t.net.groups = s.net.groups ∧ t.car = s.car) ∧
  (∀ (id : JobId) (s : State) (j : Job), s.job? id = some j → s.hub.sweeping = false → j.phase = .saved → s.heldClusters j = j.team →
    s.areaErr j = none → j.heldPosts = [] → j.saved.length = j.team.length →
    ∃ t, exec (.jobRestore id) s = .next t ∧ t.job? id = some { j with phase := .running, saved := [], heldPosts := [] } ∧
      ∀ (p : Nat × SavedCluster), p ∈ j.team.zip j.saved →
        t.seq p.1 = p.2.seq ∧ (t.cluster p.1).sync = p.2.sync ∧ (t.cluster p.1).pins = p.2.pins ∧ t.clusterCtr p.1 29 = s.clusterCtr p.1 29 + 1 ∧
        ∀ (q : Nat × Core), q ∈ (coresOf p.1).zip p.2.cores →
          t.core q.1 = { q.2 with predictors := (s.core q.1).predictors, ctr := (s.core q.1).ctr }) ∧
  (∀ (id : JobId) (s : State) (j : Job), s.job? id = some j → s.hub.sweeping = false → j.phase = .running → s.heldClusters j = j.team →
    (∀ k ∈ j.team, s.clusterDone k = true) → (∀ i ∈ j.streams, s.framesDone j i = true) →
    ∃ t, exec (.jobComplete id) s = .next t ∧ (∀ k ∈ j.team, (t.cluster k).holder = none ∧ (t.cluster k).zeroing = true) ∧
      (s.jobPins j = [] → s.jobHolds j = [] → j.adapters = [] → (∀ i ∈ j.streams, s.hasDir i = false) → t.hub.sweeping = false) ∧
      (t.hub.sweeping = false → t.job? id = none ∧ Completes j.pair id stOk s t ∧
        ∀ i ∈ j.streams, (s.stream i).sstate = .held → (s.stream i).holderJob = id → (t.stream i).sstate = .opened) ∧
      (t.hub.sweeping = true → ∃ x, t.job? id = some x ∧ x.phase = .ended)) ∧
  (∀ (k : ClusterId) (s : State),
    ((s.cluster k).zeroing = true → ∃ t, exec (.clusterZeroed k) s = .next t ∧ (t.cluster k).holder = none ∧ (t.cluster k).zeroing = false ∧
      t.seq k = {} ∧ (t.cluster k).sync = [] ∧ (t.cluster k).ctr = (s.cluster k).ctr ∧
      (∀ a, a < 0x80 ∨ (scWork ≤ a ∧ a < scWorkEnd) → (t.cluster k).scache.read a = 0) ∧
      (∀ a, 0x80 ≤ a → (a < scWork ∨ scWorkEnd ≤ a) → (t.cluster k).scache.read a = (s.cluster k).scache.read a) ∧
      (∀ c ∈ coresOf k, t.core c = { predictors := (s.core c).predictors, ctr := (s.core c).ctr }) ∧ SameRest s t) ∧
    ((s.cluster k).zeroing = false → exec (.clusterZeroed k) s = .next s))

/-- R27, R80, R135, R374 and R376 to R379; an uncorrectable error of a core store within a sweep is logged (R484). The model's choices: that
the fence of a core follows the sweep it causes (log 152), that FAULT_SWEEP does steps 2 to 5 of Table 15-11 and SWEEP_COMPLETE the rest
(log 130), that a core's record names its cluster (log 132), and that CLUSTER_UNFENCE asks nothing of the cluster (log 213). -/
def Obligations.FaultSweeps : Prop :=
  (∀ (k : ClusterId) (w : Word) (s : State), s.hub.sweeping = false → (s.seqJob k).isSome = true → seqDecode k w = none →
    ∃ t, exec (.faultSweep (.illegalWord k w)) s = .next t ∧ t.hub.lastFault.status = stIllegal ∧ t.hub.lastFault.cluster = BitVec.ofNat 8 k ∧
      t.hub.lastFault.core = 0xFF ∧ t.hub.sweeps = s.hub.sweeps + 1 ∧ t.hub.sweeping = true ∧ t.hub.sweepJob = (s.cluster k).holder) ∧
  (∀ (s : State), s.hub.sweeping = true → s.hub.swept = false →
    ∃ t, exec (.faultSweep .detected) s = .next t ∧ t.hub.swept = true ∧ t.hub.sweeping = true ∧
      t.hub.jobs.map Job.id = s.hub.jobs.map Job.id ∧ (∀ j ∈ t.hub.jobs, j.phase = .ended) ∧
      (∀ k, k < 12 → (t.cluster k).holder = none ∧ (t.cluster k).zeroing = false ∧ (t.cluster k).sync = [] ∧ t.seq k = {} ∧
        ∀ c ∈ coresOf k, t.core c = { ctr := (t.core c).ctr }) ∧
      t.net.ops = [] ∧ t.net.early = [] ∧ t.net.keys = [] ∧ t.net.relays = [] ∧ t.net.xheld = [] ∧ (∀ i, i < 16 → (t.slot i).refs = 0) ∧
      t.car.adapterRefs = [] ∧ t.car.trainable = []) ∧
  (∀ (c : CoreId) (s : State), s.hub.sweeping = false →
    let k := clusterOf c
    ((s.cluster k).holder = none → s.clusterHeld k = true → ∃ t, exec (.faultSweep (.coreStoreUe c)) s = .next t ∧
      t.clusters = s.clusters ∧ t.cores = s.cores ∧ t.hub = s.hub ∧ t.por.logSeq = s.por.logSeq + 1) ∧
    ((s.clusterHeld k = false ∨ (s.holderJob k).isSome = true) →
    ∃ t, exec (.faultSweep (.coreStoreUe c)) s = .next t ∧ (t.cluster k).coreFence.getLsbD (c.val % 16) = true ∧
      (t.coreMask k).getLsbD (c.val % 16) = false ∧ (∀ i, i ≠ k → (t.cluster i).coreFence = (s.cluster i).coreFence) ∧
      ((s.cluster k).holder = none → t.hub = s.hub ∧ t.cores = s.cores) ∧
      ((s.holderJob k).isSome = true → t.hub.lastFault.status = stCstoreUe ∧ t.hub.lastFault.core = BitVec.ofNat 8 c ∧ t.hub.swept = true))) ∧
  (∀ (c : CoreId) (s : State), s.hub.sweeping = true → s.hub.swept = true →
    ∃ t, exec (.faultSweep (.coreStoreUe c)) s = .next t ∧ t.hub = s.hub ∧ t.ms = s.ms ∧
      (∃ r ∈ t.por.log, r.seq = s.por.logSeq + 1 ∧ r.event = 1 ∧ r.code = 0x43 ∧ r.unit = clusterOf c) ∧
      (s.clusterHeld (clusterOf c) = false → (t.cluster (clusterOf c)).coreFence.getLsbD (c.val % 16) = true)) ∧
  (∀ (s : State), s.hub.sweeping = true → s.hub.swept = true → s.hub.flrPending = false → (s.hub.jobs.map Job.id).Nodup →
    ∃ t, exec .sweepComplete s = .next t ∧ t.hub.jobs = [] ∧ t.hub.sweeping = false ∧ t.hub.swept = false ∧
      (s.roomsToLose = [] → t.clusters = s.clusters) ∧
      ∀ j ∈ s.hub.jobs, CompletesToo j.pair j.id (if s.hub.sweepJob = some j.id then s.hub.sweepCause else stSwept) s t) ∧
  (∀ (k : ClusterId) (bs : List Byte) (s : State), leNat bs = k →
    (s.writes 0x0C0C 1 bs →
      (s.clusterHeld k = false → (s.cluster k).rolling = false → ∃ t, exec .clusterFence s = .next t ∧ AnsweredWith dsOk s t ∧
        t.cluster k = { s.cluster k with fencedCmd := true } ∧ ∀ i, i ≠ k.val → t.cluster i = s.cluster i) ∧
      (s.clusterHeld k = true → ∃ t, exec .clusterFence s = .next t ∧ AnsweredWith dsClusterBusy s t ∧ t.clusters = s.clusters)) ∧
    (s.writes 0x0C0C 2 bs → ∃ t, exec .clusterUnfence s = .next t ∧ AnsweredWith dsOk s t ∧
      t.cluster k = { s.cluster k with fencedCmd := false } ∧ ∀ i, i ≠ k.val → t.cluster i = s.cluster i))

/-- R166, R356 to R358, R430 and R447. That a window of a die whose hub does not run, whose units do not serve (R443), answers as one whose
block is OFF is the model's reading (log 185), that the snoop filter empties at link loss and PERST its choice (log 36). -/
def Obligations.HostLinkAndRegisters : Prop :=
  (∀ (inside : Bool) (s : State),
    let gone := fun (t : State) => t.hub.jobs = [] ∧ (∀ n, t.pair n = {}) ∧ t.hub.msixTable = msixReset ∧
      (∀ k, k < 12 → (t.cluster k).addOff = 0) ∧ t.por.reqArea = {} ∧ t.por.mbBusy = false
    (s.hub.sweeping = false → s.hostReaches = true → ∃ t, exec .functionLevelReset s = .next t ∧ gone t ∧ t.boot.cxlUp = true) ∧
    (s.hub.sweeping = true → s.hostReaches = true → exec .functionLevelReset s = .next { s with hub := { s.hub with flrPending := true } }) ∧
    (s.boot.cxlUp = true →
      (∃ t, exec (.cxlLinkLoss inside) s = .next t ∧ gone t ∧ t.boot.cxlUp = false ∧ t.ms.snoop = [] ∧
        t.boot.stops = s.boot.stops + (if inside then 1 else 0)) ∧
      (∃ t, exec .perstAssert s = .next t ∧ gone t ∧ t.boot.cxlUp = false ∧ t.boot.perst = true ∧ t.ms.snoop = [])) ∧
    exec .perstDeassert s = .next { s with boot := { s.boot with perst := false } } ∧
    (s.boot.perst = false → s.pwr.rootLocked = true → s.boot.vin = true →
      exec .cxlLinkUp s = .next { s with boot := { s.boot with cxlUp := true } }) ∧
    (s.boot.perst = true → exec .cxlLinkUp s = .next s)) ∧
  (∀ (k : ClusterId) (v : Word) (s : State), s.hostReaches = true →
    let o := (s.cluster k).addOff.toNat
    let old := s.scRead k (s.scUser + o) 4
    let adds := fun (c : Instr) (new : Nat) => ∃ t, exec c s = .next t ∧ t.scRead k (s.scUser + o) 4 = new ∧ t.cores = s.cores ∧ SameRest s t ∧
      t.clusterCtr k 7 = s.clusterCtr k 7 + 1 ∧ (∀ a, a < s.scUser + o ∨ s.scUser + o + 4 ≤ a → (t.cluster k).scache.read a = (s.cluster k).scache.read a) ∧
      ∀ i, i ≠ k.val → t.cluster i = s.cluster i
    let aborts := fun (c : Instr) (off : Nat) => ∃ t, exec c s = .next t ∧ t.clusters = s.clusters ∧ t.out = .completerAbort off :: s.out
    let offF := 0x1001008 + 0x100000 * k.val
    let offI := 0x100100C + 0x100000 * k.val
    (s.blockGone (blkCluster k) = false → o % 4 = 0 → o + 4 ≤ s.userBytes →
      adds (.addReduceFp32 k v) (toF32 (fadd (ofF32 old) (ofF32 v.toNat)) % 2 ^ 32) ∧ adds (.addReduceInt32 k v) ((old + v.toNat) % 2 ^ 32)) ∧
    (s.block (blkCluster k) = 0 ∨ s.hubOf (dieOfCluster k) = false ∨ o % 4 ≠ 0 ∨ s.userBytes < o + 4 →
      aborts (.addReduceFp32 k v) offF ∧ aborts (.addReduceInt32 k v) offI)) ∧
  (∀ (off : BitVec 26) (v : Quad) (s : State), s.hostReaches = true → off.toNat % 4 = 0 →
    (∀ (k : ClusterId), off.toNat = 0x1001000 + 0x100000 * k.val → s.blockGone (blkCluster k) = false →
      ∃ t, exec (.registerWrite off v false) s = .next t ∧ t.cluster k = { s.cluster k with addOff := BitVec.ofNat 32 v.toNat } ∧
        t.cores = s.cores ∧ SameRest s t ∧ ∀ i, i ≠ k.val → t.cluster i = s.cluster i) ∧
    (0x300040 ≤ off.toNat → off.toNat < 0x302000 →
      (s.por.mbBusy = true → exec (.registerWrite off v false) s = .next s) ∧
      (s.por.mbBusy = false → ∃ t, exec (.registerWrite off v false) s = .next t ∧ t.hub = s.hub ∧ t.clusters = s.clusters ∧ t.ms = s.ms ∧
        t.por.reqArea.readLE (off.toNat - 0x300040) 4 = v.toNat % 2 ^ 32 ∧
        ∀ a, a < off.toNat - 0x300040 ∨ off.toNat - 0x300040 + 4 ≤ a → t.por.reqArea.read a = s.por.reqArea.read a)) ∧
    (off.toNat < 0x1000 → exec (.registerWrite off v false) s = .next s)) ∧
  (∀ (s : State), s.hostReaches = true → s.boot.porterRuns = true → s.por.mbBusy = true →
    ∃ t, exec .mbDoorbell s = .next t ∧ t.por.logSeq = s.por.logSeq + 1 ∧ t.por.reqArea = s.por.reqArea ∧ t.por.current = s.por.current ∧
      t.por.inbox = s.por.inbox ∧ t.hub = s.hub ∧ t.out = s.out) ∧
  (∀ (s : State), s.hostReaches = true → s.boot.porterRuns = true → s.por.mbBusy = false → s.por.current.isSome = true →
    ∃ t, exec .mbDoorbell s = .next t ∧ t.por.mbBusy = true ∧ t.por.mbDone = false ∧ t.por.current = s.por.current ∧
      t.por.inbox.length = s.por.inbox.length + 1 ∧ t.hub = s.hub ∧ t.out = s.out)

/-- R372 and R385, R387 to R396: the frames of a stream. A slot or a ring that meets a protected range is a bus error of the engine. The bits that a tile codes to and the bytes of a group are free functions of the frame's
inputs (logs 6 and 160). ENCODER_OVERRUN of a request, a state block, a plane or a slot that cannot be read is the model's choice
(log 80); where that error, or one of reading the stream's directory as it ends, starts a sweep, the sweep governs (R24). -/
def Obligations.EncodersCodeFrames : Prop :=
  (∀ (stream : Half) (s : State) (j : Job) (p : Nat), s.encOf stream.toNat = some (j, p) →
    let i := stream.toNat
    let x := (s.stream i).enc
    let ends := fun (code : Byte) (t : State) => (t.stream i).sstate = .ended ∧ (t.stream i).endCode = code
    let readable := fun (rs : List (Nat × Nat)) => ∀ q ∈ rs, s.rangeErr q.1 q.2 = none ∧ s.poisonIn q.1 q.2 = none
    let fails := fun (code : Byte) (t : State) => ends code t ∨ (t.hub.sweeping = true ∧ (ends stSwept t ∨
      ((t.stream i).sstate = (s.stream i).sstate ∧ (t.stream i).endCode = (s.stream i).endCode)))
    let failed := fails stEncoderOverrun
    let ended := fun (code : Byte) (t : State) => fails code t ∧ (s.hasDir i = false → ends code t)
    let dealt := fun (f g : EncFrame) => ∃ b, g = { f with begun := f.begun ++ b }
    let others := fun (t : State) => ∀ k, k ≠ i → ∃ b, t.stream k = { s.stream k with
      enc := { (s.stream k).enc with frame := (s.stream k).enc.frame.map (fun f => { f with begun := f.begun ++ b }) } }
    (x.frame = none → s.tilesPaused = false → x.reqDone + 1 ≤ (s.jobSync j (epSubmit p)).toNat →
      let r := s.encReq p x.reqDone
      let entry := [(epReq p + 64 * (x.reqDone % epReqLen p), 64), s.sbRange p]
      (readable entry → s.requestOk i p r = true → readable (encSources p r) →
        ∃ t f level, exec (.encFrameStart stream) s = .next t ∧ (t.stream i).enc.frame = some f ∧
          dealt { input := s.encInput j p r level (s.encQ0 p) (s.encLimit p) } f ∧
          level ≤ bits p 220 219 ∧ (¬ (bit p 218 = true ∧ s.dv 0x1400 4 = 1) → level = bits p 220 219) ∧
          t.ms.mem = s.ms.mem ∧ t.hub.jobs = s.hub.jobs ∧ others t) ∧
      (readable entry → s.requestOk i p r = false → ∃ t, exec (.encFrameStart stream) s = .next t ∧ ended stStreamInvalid t) ∧
      ((∃ q y, q ∈ entry ∧ s.memRead q.1 q.2 = .error y) → ∃ t, exec (.encFrameStart stream) s = .next t ∧ failed t) ∧
      (readable entry → s.requestOk i p r = true → (∃ q ∈ encSources p r, s.poisonIn q.1 q.2 ≠ none) →
        ∃ t, exec (.encFrameStart stream) s = .next t ∧ failed t)) ∧
    (∀ (f : EncFrame), x.frame = some f →
      (∀ (e : EngineId) (tile : Nat) (rowBits : List Nat), bit (epMask p) e = true → tile < epTiles p →
        (∀ d ∈ f.tilesDone, d.1 ≠ tile) → rowBits.length = epTileRows p tile →
        let changed := f.input.seed ≠ 0 ∨ s.sourcesChanged j p f.input = true
        let r := tileResult f.input tile rowBits
        let g : EncFrame := { f with
          tilesDone := f.tilesDone ++ [(tile, r.1, r.2)], input := { f.input with seed := if changed then s.draws + 1 else 0 }
          begun := if f.begun.contains (tile, e.val) then f.begun else f.begun ++ [(tile, e.val)] }
        let slots := (List.range 4).filter (fun n => (rqRefresh f.input.request).getLsbD n)
        let at_ := fun (n : Nat) => epDpb p + n * epSlotBytes p
        let len := epSlotBytes f.input.params
        (s.engineTakes e i f tile = true → (¬ changed → rowBits = tileBits f.input tile) → readable (encSources p f.input.request) →
          (g.tilesDone.length ≠ epTiles p → ∃ t h, exec (.encTileDone e stream tile rowBits) s = .next t ∧
            (t.stream i).enc.frame = some h ∧ dealt g h ∧ mget 0 t.enc.tiles e = mget 0 s.enc.tiles e + 1 ∧ t.ms.mem = s.ms.mem ∧
            (t.stream i).enc.slots = x.slots ∧ t.hub.jobs = s.hub.jobs ∧ others t) ∧
          (g.tilesDone.length = epTiles p → (∀ n ∈ slots, s.rangeErr (at_ n) len = none ∧ s.poisonPart (at_ n) len = none ∧ s.isProtected (at_ n) len = false) →
            ∃ t h, exec (.encTileDone e stream tile rowBits) s = .next t ∧ (t.stream i).enc.frame = some h ∧ dealt g h ∧
              (t.stream i).enc.slots = x.slots ||| rqRefresh f.input.request ∧ mget 0 t.enc.tiles e = mget 0 s.enc.tiles e + 1 ∧
              t.ms.mem = slots.foldl (fun (m : Mem) n => m.writeBytes (at_ n) (reconstruction g.input)) s.ms.mem) ∧
          (g.tilesDone.length = epTiles p → (∃ n ∈ slots, s.isProtected (at_ n) len = true) →
            ∃ t, exec (.encTileDone e stream tile rowBits) s = .next t ∧ failed t)) ∧
        (s.engineTakes e i f tile = true → (¬ changed → rowBits = tileBits f.input tile) →
          (∃ q ∈ encSources p f.input.request, s.poisonIn q.1 q.2 ≠ none) →
          ∃ t, exec (.encTileDone e stream tile rowBits) s = .next t ∧ failed t) ∧
        (s.engineOn e = false → (tile, e.val) ∉ f.begun → exec (.encTileDone e stream tile rowBits) s = .next s)) ∧
      (f.groupReady p = true →
        let bytes := f.groupBytes p f.groupsOut
        let group := groupObu f.input f.groupsOut bytes
        let w := s.written p
        let c := s.sbGet p 16 8
        let consumed := if x.consumed ≤ c ∧ c ≤ w then c else x.consumed
        let obus := (headObus f.input).drop f.headsOut ++ [group]
        let out := obus.flatten
        let first := (obus.head?).getD group
        let holds := fun (bs : List Byte) (t : State) => t.written p = w + bs.length ∧ ∀ k, k < bs.length →
          some (t.ms.mem.read (epOut p + 8192 + (w + k) % epRing p)) = bs[k]?
        let inRing := holds out
        (readable [s.sbRange p] → out.length ≤ epRing p → w + out.length ≤ consumed + epRing p →
          (∀ a, a < epRing p → s.isProtected (epOut p + 8192 + a) 1 = true) →
          ∃ t, exec (.encTileGroupEmit stream bytes) s = .next t ∧ ended stEncoderOverrun t) ∧
        (readable [s.sbRange p] → out.length ≤ epRing p → w + out.length ≤ consumed + epRing p → w + out.length < 2 ^ 64 →
          s.isProtected (epOut p + 8192) (epRing p) = false →
          s.rangeErr (epOut p) (8192 + epRing p) = none → s.poisonIn (epOut p) (8192 + epRing p) = none →
          (f.groupsOut + 1 ≠ epRows p → ∃ t, exec (.encTileGroupEmit stream bytes) s = .next t ∧ inRing t ∧
            (t.stream i).enc.frame = some { f with headsOut := (headObus f.input).length, groupsOut := f.groupsOut + 1 } ∧
            (t.stream i).enc.consumed = consumed ∧ t.hub.jobs = s.hub.jobs) ∧
          (f.groupsOut + 1 = epRows p → ∃ t, exec (.encTileGroupEmit stream bytes) s = .next t ∧ inRing t ∧
            (t.stream i).enc.frame = none ∧ (t.stream i).enc.reqDone = x.reqDone + 1 ∧
            t.sbGet p 43 1 = ((f.tilesDone.map (fun d => d.2.2)).foldl max 0) % 256 ∧
            t.sbGet p 32 4 = (s.sbGet p 32 4 + 1) % 2 ^ 32 ∧ t.sbGet p 36 4 = (s.sbGet p 36 4 + 1) % 2 ^ 32)) ∧
        (∀ n b, obus[n]? = some b →
          let done := (obus.take n).flatten
          readable [s.sbRange p] → (∀ o ∈ obus, o.length ≤ epRing p) → done.length ≤ epRing p → w + done.length ≤ consumed + epRing p →
          consumed + epRing p < w + done.length + b.length → w + done.length < 2 ^ 64 →
          s.isProtected (epOut p + 8192) (epRing p) = false → s.rangeErr (epOut p) (8192 + epRing p) = none →
          s.poisonIn (epOut p) (8192 + epRing p) = none →
          ∃ t, exec (.encTileGroupEmit stream bytes) s = .next t ∧ holds done t ∧ (t.stream i).sstate = (s.stream i).sstate ∧
            (t.stream i).enc.frame = some { f with headsOut := f.headsOut + n }) ∧
        (readable [s.sbRange p] → first.length ≤ epRing p → consumed + epRing p < w + first.length →
          ∃ t, exec (.encTileGroupEmit stream bytes) s = .next t ∧
          (t.stream i).enc.frame = some f ∧ t.ms.mem = s.ms.mem ∧ (t.stream i).sstate = (s.stream i).sstate) ∧
        (readable [s.sbRange p] → epRing p < first.length → ∃ t, exec (.encTileGroupEmit stream bytes) s = .next t ∧ ended stEncoderOverrun t) ∧
        (∀ y, s.memRead (s.sbRange p).1 (s.sbRange p).2 = .error y → ∃ t, exec (.encTileGroupEmit stream bytes) s = .next t ∧ failed t) ∧
        let next := if f.headsOut < (headObus f.input).length then first.length else bytes
        let coded := ∃ e, e < 4 ∧ bit (epMask p) e = true ∧ s.engineOn e = true
        (readable [s.sbRange p] → consumed + epRing p < w + next → ∃ t, exec (.encOverrunTimeout stream) s = .next t ∧ ended stEncoderOverrun t) ∧
        (readable [s.sbRange p] → w + next ≤ consumed + epRing p → coded → ∃ t, exec (.encOverrunTimeout stream) s = .next t ∧
          t.stream i = { s.stream i with enc := { x with consumed := consumed } } ∧ (∀ n, n ≠ i → t.stream n = s.stream n) ∧
          t.hub.jobs = s.hub.jobs ∧ t.ms.mem = s.ms.mem ∧ t.enc = s.enc) ∧
        (∀ y, coded → s.memRead (s.sbRange p).1 (s.sbRange p).2 = .error y → ∃ t, exec (.encOverrunTimeout stream) s = .next t ∧ failed t)) ∧
      (f.groupReady p = false → (∃ e, e < 4 ∧ bit (epMask p) e = true ∧ s.engineOn e = true) →
        exec (.encOverrunTimeout stream) s = .next s)) ∧
    ((∀ e, e < 4 → bit (epMask p) e = true → s.engineOn e = false) → x.reqDone < (s.jobSync j (epSubmit p)).toNat →
      ∃ t, exec (.encOverrunTimeout stream) s = .next t ∧ ended stEncoderOverrun t) ∧
    (x.frame = none → (s.jobSync j (epSubmit p)).toNat ≤ x.reqDone → exec (.encOverrunTimeout stream) s = .next s)) ∧
  (∀ (e : EngineId) (bs : List Byte) (s : State), leNat bs = e →
    (s.writes 0x1410 1 bs → ∃ t, exec .engineFence s = .next t ∧ AnsweredWith dsOk s t ∧ t.enc.fencedCmd = s.enc.fencedCmd ||| (1#4 <<< e.val) ∧
      t.enc.fencedBist = s.enc.fencedBist ∧ t.enc.tiles = s.enc.tiles ∧ t.hub.streams = s.hub.streams ∧ t.pwr = s.pwr ∧
      (s.engineBusy e = true → s.engineFenced e = false → t.engineState e = 2)) ∧
    (s.writes 0x1410 2 bs → ∃ t, exec .engineUnfence s = .next t ∧ AnsweredWith dsOk s t ∧
      t.enc.fencedCmd = s.enc.fencedCmd &&& ~~~ (1#4 <<< e.val) ∧ t.enc.fencedBist = s.enc.fencedBist ∧ t.enc.tiles = s.enc.tiles ∧ t.pwr = s.pwr)) ∧
  (∀ (epoch ph : Nat), (scalerPhase epoch ph).length = 8 ∧ (scalerPhase epoch ph).sum = 128) ∧
  (∀ (level : Nat) (v : Motion),
    let e := effortOf level
    let m := effortBound e v
    0 ≤ m.x + 8 * Int.ofNat e.rangeX ∧ m.x ≤ 8 * Int.ofNat e.rangeX ∧ 0 ≤ m.y + 8 * Int.ofNat e.rangeY ∧ m.y ≤ 8 * Int.ofNat e.rangeY ∧
    m.x * Int.ofNat e.fraction % 8 = 0 ∧ m.y * Int.ofNat e.fraction % 8 = 0 ∧ m.filter ∈ e.filters)

/-- R403, R405, R406, R408, R410, R412, R413 and R415 to R417. R7: dividers that break a ratio lead to a state of
which only what R7 names is promised. The model's choices: that state begins with the step that brings them into effect, and the pins and
the draws stay in it (log 131), what a sample's energy amounts to (log 53), that a sample carries the upsets since the last (log 60), VDD_ARITH is raised for the next divider within the dwell of the step before and comes down one step behind (log 191), windows
follow each other and the one in progress counts (log 40), a reading past 2,800 W, or past 20 W at tier 1 or below, counts as that bound and
the rolling average is over the samples there are (log 180), and each sample looks at the ready jobs (log 187). -/
def Obligations.BlocksClocksAndSteward : Prop :=
  (∀ (bs : List Byte) (s : State), s.writes 0x0410 1 bs → s.boot.ready = true →
    let new := leNat bs % 2 ^ 40
    let old := s.enables
    ((∃ b, b < 40 ∧ bit old b = true ∧ bit new b = false ∧ s.clearRefused b = true) →
      ∃ t, exec .blockEnablesWrite s = .next t ∧ AnsweredWith dsBlockBusy s t ∧ t.pwr = s.pwr ∧ t.net = s.net ∧ t.clusters = s.clusters) ∧
    ((∀ b, b < 40 → bit old b = true → bit new b = false → s.clearRefused b = false) →
      ∃ t, exec .blockEnablesWrite s = .next t ∧ AnsweredWith dsOk s t ∧ t.dv 0x0410 1 = new ∧
        ∀ b, b < 40 → t.block b =
          if bit old b = false ∧ bit new b = true then 1
          else if bit old b = true ∧ bit new b = false ∧ s.block b = 1 then
            (if 20 ≤ b ∧ b < 28 then 0
             else if 28 ≤ b ∧ b < 36 ∧ (s.port (b - 28)).state ≠ .up ∧ (s.port (b - 28)).state ≠ .draining then 0 else 2)
          else s.block b)) ∧
  (∀ (b : Fin 40) (s : State),
    (s.block b = 2 → s.drained b = true → ∃ t, exec (.blockDrained b) s = .next t ∧ t.block b = 0 ∧ (∀ c, c ≠ b.val → t.block c = s.block c) ∧
      t.clusters = s.clusters ∧ t.ms = s.ms) ∧
    (s.block b ≠ 2 ∨ s.drained b = false → ∃ t, exec (.blockDrained b) s = .next t ∧ t.pwr = s.pwr ∧ t.clusters = s.clusters ∧ t.ms = s.ms)) ∧
  (∀ (u : Nat) (bs : List Byte) (s : State), 1 ≤ u → u ≤ 3 → s.writes 0x0401 u bs →
    ∃ t, exec .divOverrideWrite s = .next t ∧ AnsweredWith dsOk s t ∧ t.dv 0x0401 u = leNat bs ∧ t.pwr = s.pwr) ∧
  (∀ (s : State),
    let a := stepTo s.pwr.arithDiv s.arithTarget
    let f := stepTo s.pwr.fabricDiv s.fabricTarget
    let c := stepTo s.pwr.ctrlDiv s.ctrlTarget
    (f ≤ a → c ≤ 4 * a → 2 * c ≤ 64 →
      exec .rampStep s = .next { s with pwr := { s.pwr with
        arithDiv := a, fabricDiv := f, ctrlDiv := c
        vddDiv := if s.arithTarget < a then a - 1 else if s.pwr.arithDiv < a then s.pwr.arithDiv else a } }) ∧
    ((a, f, c) ≠ (s.pwr.arithDiv, s.pwr.fabricDiv, s.pwr.ctrlDiv) → (a < f ∨ 4 * a < c ∨ 64 < 2 * c) →
      ∃ t, exec .rampStep s = .next t ∧ t.por.factory = s.por.factory ∧ t.por.fusedSvn = s.por.fusedSvn ∧
        (∀ b, { t.fwImage b with stage := 0 } = { s.fwImage b with stage := 0 }) ∧ t.boot.vin = s.boot.vin ∧ t.boot.refclk = s.boot.refclk ∧
        t.boot.perst = s.boot.perst ∧ t.boot.porterStarted = s.boot.porterStarted ∧ t.pending = s.pending ∧ (∃ new, t.out = new ++ s.out))) ∧
  (∀ (m : PowerSample) (s : State),
    let u := m.upsets.foldl State.upset s
    let w := min (if s.tier ≤ 1 then 20 else 2800) m.pinW.toNat
    let pins := (w :: s.pwr.pins).take 10
    ∃ t, exec (.stewardSample m) s = .next t ∧ t.pwr.vinMv = m.vinMv ∧ t.pwr.iinMa = m.iinMa ∧
    t.pwr.pinW = BitVec.ofNat 32 w ∧ t.pwr.pins = pins ∧ t.pwr.avgW = BitVec.ofNat 32 (pins.sum / pins.length) ∧
    t.pwr.temps = m.temps.take 6 ∧ t.pwr.energyMj = s.pwr.energyMj + BitVec.ofNat 64 w ∧
    t.pwr.capExceeded = s.pwr.capExceeded + (if t.capNow < t.pwr.avgW.toNat then 1 else 0) ∧ t.pwr.blocks = s.pwr.blocks ∧
    t.pwr.arithDiv = s.pwr.arithDiv ∧ t.clusters = u.clusters ∧ t.cores = u.cores ∧ t.ms = u.ms ∧ t.ms.mem = s.ms.mem ∧
    t.hub = { s.hub with jobs := s.hub.jobs.map (fun j => if s.isReady j then j else { j with readyPacing := s.pacing }) } ∧
    (m.upsets = [] → t.clusters = s.clusters ∧ t.cores = s.cores ∧ t.ms = s.ms) ∧
    (∀ c n, m.upsets = [.coreCorrected c n] → t.coreCtr c 9 = s.coreCtr c 9 + BitVec.ofNat 64 n ∧ t.clusters = s.clusters ∧ t.ms = s.ms) ∧
    (∀ k n, m.upsets = [.cacheCorrected k n] → t.clusterCtr k 8 = s.clusterCtr k 8 + BitVec.ofNat 64 n ∧ t.cores = s.cores ∧ t.ms = s.ms)) ∧
  (∀ (m : StewardMeasure) (s : State),
    (s.boot.ready = true →
      let ms := s.pwr.windowMs + s.dv 0x0510 5
      let full := s.dv 0x0510 6 * 1000 ≤ ms
      ∃ t, exec (.stewardPeriod m) s = .next t ∧ t.pwr.windowMs = (if full then 0 else ms) ∧ (full → t.pwr.windowPassed = true) ∧
        (s.pwr.windowPassed = false → ¬ full → t.pwr.opTarget = s.pwr.opTarget ∧ t.car = s.car) ∧ t.pwr.arithDiv = s.pwr.arithDiv ∧
        (full → t.pwr.lateLast = s.pwr.late ∧ t.pwr.queuedLast = s.pwr.queued ∧ t.pwr.late = false ∧ t.pwr.queued = false) ∧
        (¬ full → t.pwr.lateLast = s.pwr.lateLast ∧ t.pwr.queuedLast = s.pwr.queuedLast ∧ t.pwr.late = s.pwr.late ∧ t.pwr.queued = s.pwr.queued) ∧
        (s.pwr.throttled = true → s.pwr.opTarget ≤ t.pwr.opTarget) ∧ t.pwr.throttledLast = s.pwr.throttled ∧
        t.clusters = s.clusters ∧ t.ms = s.ms ∧ t.hub = s.hub) ∧
    (s.boot.ready = false → exec (.stewardPeriod m) s = .next s)) ∧
  (∀ (s : State),
    (s.boot.ready = true → ∃ t, exec .profileAutosave s = .next t ∧ t.por.ledgerQueue = s.por.ledgerQueue ++ [.profile] ∧ t.pwr = s.pwr) ∧
    (s.boot.ready = false → exec .profileAutosave s = .next s) ∧
    (∀ bs, leNat bs = 1 → s.boot.ready = true →
      (s.writes 0x0518 1 bs → ∃ t, exec .stewardSave s = .next t ∧ AnsweredWith dsOk s t ∧
        t.por.ledgerQueue = s.por.ledgerQueue ++ [.profile] ∧ t.pwr = s.pwr) ∧
      (s.writes 0x0518 2 bs → ∃ t, exec .stewardReset s = .next t ∧ AnsweredWith dsOk s t ∧
        (s.pwr.throttled = true ∨ s.pwr.throttledLast = true → s.pwr.opTarget ≤ t.pwr.opTarget) ∧
        t.pwr.profileState = (if (s.factoryImage.bind LedgerImage.knownProfile).isSome then 1 else 0) ∧ t.pwr.windowMs = 0 ∧
        t.pwr.windowPassed = false ∧ t.pwr.siteTally = [])))

/-- R326, R401, R445 to R447, R449 to R451, R458, R459, R484 (a porter start empties the log), R493 and R496. The model's choices: the dividers ramp at start-up
to the point the steward seeds (log 41), command fences go at a reset and those of BIST_FENCES stay (log 64), a commanded reset starts
in the step that sends its frame's response (log 66), the porter and ROOT go on where the reference returns (log 120), a stored training
without stored values counts as a full one (log 190), what a porter start reads of ADDR_STRAP is free (log 98), one HUBS_READY makes
one hub ready and a start without it goes on (log 192), a porter start empties the results, and the user view follows its entries (log 119).
A bank that a FW_STAGE_MEM was writing is STAGING again after a reset or a loss of power (log 232), and the ends of the commands that a reset cuts
are reported in its own step (log 242). -/
def Obligations.StartUpAndResets : Prop :=
  (∀ (s : State),
    let through := fun (t : State) => ∀ r, r < 2 → (t.ring r).bypass = if (s.ring r).bypass = .through then .through else .moving false
    let cut := fun (t : State) => ∀ c ∈ s.por.cmds, c.index = 0x0204 → c.sub = 2 → (t.fwImage s.stageBank).stage = fwStaging
    let told := fun (t : State) => ∀ c, s.cmd? c.ticket = some c → c.path = .mailbox → (slotWriteOf c).isSome ∨ (bulkSendOf c).isSome →
      t.cmd? c.ticket = none ∧ t.por.mbResult = true ∧ (t.dv 0x1F10 1 < 64 → t.hub.msixPending.getLsbD (t.dv 0x1F10 1) = true)
    let reset := fun (cause : Byte) (t : State) => cut t ∧ told t ∧ t.boot.resetCause = cause ∧ t.boot.resetCount = s.boot.resetCount + 1 ∧ t.boot.ready = false ∧
      t.boot.inReset = true ∧ t.boot.cxlUp = false ∧ t.pacing = 0 ∧ t.clusters = [] ∧ t.cores = [] ∧ t.hub.jobs = [] ∧ (∀ n, t.pair n = {}) ∧
      (∀ b, t.block b = 0) ∧ through t ∧ (∀ i, (t.slot i).state = (s.slot i).state) ∧ t.por.fusedSvn = s.por.fusedSvn ∧
      t.por.factory = s.por.factory ∧ t.boot.bootBank = s.boot.bootBank
    (s.boot.vin = false → s.boot.refclk = true → ∃ t, exec .powerUp s = .next t ∧ t.boot.vin = true ∧ t.boot.porterRuns = true ∧ t.por.nodeId = t.boot.strap ∧
      t.boot.resetCause = 0 ∧ t.pwr.rootLocked = !t.boot.recovery ∧ through t ∧ t.por.sessions = [] ∧ t.por.fusedSvn = s.por.fusedSvn) ∧
    (s.boot.vin = true → exec .powerUp s = .next s) ∧
    (s.starting = true →
      (exec .hubsReady s = .next { s with boot := { s.boot with hub0 := true, hub1 := s.boot.hub1 || s.boot.hub0 } }) ∧
      (∀ (m : StackId), (s.stack m).trained = false → (s.stack m).fence = 0 →
        (∃ t, exec (.stackTrained m .failed) s = .next t ∧ (t.stack m).fence = 1 ∧ (t.stack m).training = 2 ∧ (t.stack m).trained = false ∧
          t.ms.mem = s.ms.mem) ∧
        (∀ how, how ≠ .failed → ∃ t, exec (.stackTrained m how) s = .next t ∧ (t.stack m).fence = 0 ∧ (t.stack m).trained = true ∧
          (t.stack m).training = (if how = .stored ∧ s.trainingValues m = true then 0 else 1) ∧
          (∀ a, m.val * 2 ^ 37 ≤ a → a < (m.val + 1) * 2 ^ 37 → t.ms.mem.read a = 0) ∧
          ∀ a, a < m.val * 2 ^ 37 ∨ (m.val + 1) * 2 ^ 37 ≤ a → t.ms.mem.read a = s.ms.mem.read a)) ∧
      (∀ (failed : BitVec 128), s.boot.flashReady = false → ∃ t, exec (.flashTrained failed) s = .next t ∧ t.boot.flashReady = true ∧
        ∀ c, c < 128 → (t.flashCh c).fence = if failed.getLsbD c then 1 else (s.flashCh c).fence) ∧
      (∃ t, exec .startReady s = .next t ∧ t.boot.ready = true ∧ t.boot.inReset = false ∧ t.boot.hub0 = s.boot.hub0 ∧
        (s.boot.hub0 = true → t.boot.hub1 = s.boot.hub1) ∧
        (∀ b, b < 40 → t.block b = if bit (s.dv 0x0410 1) b then 1 else s.block b) ∧
        (∀ m, m < 8 → (s.stack m).trained = false → (s.stack m).fence = 0 → (t.stack m).fence = 1) ∧
        t.pwr.arithDiv = s.pwr.arithDiv ∧ t.ms.scRoomMib = s.dv 0x0801 4 ∧ t.hub.jobs = s.hub.jobs ∧ t.pacing = s.pacing)) ∧
    (∀ bs f r, s.writes 0x0202 1 bs → leNat bs = 1 → s.frontRec = some (f, r) →
      (f.recs = [r] → ∃ t, exec .moduleReset s = .next t ∧ reset 1 t) ∧
      (f.recs ≠ [r] → ∃ t, exec .moduleReset s = .next t ∧ AnsweredWith dsOk s t ∧ t.boot = { s.boot with resetAfter := true } ∧ t.hub = s.hub)) ∧
    (∀ f r, s.frontRec = some (f, r) → f.recs = [r] → r.rop ≠ 2 → s.boot.resetAfter = true → ∃ t, exec .dictRead s = .next t ∧ reset 1 t) ∧
    (∀ (cause : Byte), s.boot.vin = true → s.boot.porterStarted = true → 1 ≤ cause.toNat → cause.toNat ≤ 5 →
      ∃ t, exec (.powerFault cause) s = .next t ∧ reset 0xF1 t ∧ t.boot.resetDetail = cause) ∧
    (s.pwr.rootLocked = true → s.boot.refclk = true →
      (∃ t, exec (.rootUnlock false) s = .next t ∧ reset 0xF0 t ∧ t.boot.refclk = true ∧ t.boot.porterRuns = s.boot.porterRuns) ∧
      (∃ t, exec (.rootUnlock true) s = .next t ∧ reset 0xF0 t ∧ t.boot.refclk = false ∧ t.boot.porterRuns = false ∧
        t.pwr.rootLocked = false ∧ t.tier = 0)) ∧
    (s.boot.refclk = false → s.boot.vin = true → s.boot.porterStarted = true → exec .referenceReturn s = .next { s with
      boot := { s.boot with refclk := true, porterRuns := true }, pwr := { s.pwr with rootLocked := !s.boot.recovery }
      por := { s.por with bwLog2 := s.dv 0x19F0 2 } }) ∧
    (s.boot.porterRuns = true →
      let failed := fun r => (s.ring r).bypass = .joined ∧ ∃ p ∈ portsOfRing r, (s.port p).state = .down ∧ (s.port p).fault = 1
      let sameView := fun (t : State) => t.dv 0x1F08 1 = s.dv 0x1F08 1 ∧ t.dv 0x1F08 2 = s.dv 0x1F08 2
      ∃ t, exec .porterRestart s = .next t ∧ t.por.sessions = [] ∧ t.por.fusedSvn = s.por.fusedSvn ∧ t.boot.ready = s.boot.ready ∧
        t.por.nodeId = t.boot.strap ∧
        (s.boot.ready = true → ¬ sameView t → (t.por.viewBase = 0 ∧ t.por.viewBytes = 0) ∨
          (t.por.viewBase = t.dv 0x1F08 1 ∧ t.por.viewBytes = t.dv 0x1F08 2)) ∧
        ((∀ r, r < 2 → ¬ failed r) → s.boot.ready = false ∨ sameView t → t.hub = s.hub ∧ t.clusters = s.clusters ∧ t.cores = s.cores ∧ t.ms = s.ms ∧ t.net = s.net ∧
          t.car = s.car ∧ t.pwr = { s.pwr with profileSavedAt := t.pwr.profileSavedAt } ∧ (s.por.ledgerImage = none → t.pwr = s.pwr) ∧
          t.enc = s.enc ∧ t.pacing = s.pacing ∧ t.por.results = [] ∧ t.por.log = []) ∧
        (∀ r, r < 2 → failed r → t.dv (0x1020 + r) 3 = 1 → (t.ring r).bypass = .moving false ∧
          ∀ p ∈ portsOfRing r, (t.port p).state = if (s.port p).fenced then .fenced else .off)) ∧
    (∃ t, exec .standbyPowerLoss s = .next t ∧ t.boot.vin = false ∧ t.boot.porterRuns = false ∧ t.tier = 0 ∧ t.hub = {} ∧ t.clusters = [] ∧
      t.cores = [] ∧ t.ms = {} ∧ t.pwr = {} ∧ (∀ r, (t.ring r).bypass = .through) ∧ t.por.fusedSvn = s.por.fusedSvn ∧ t.por.factory = s.por.factory ∧
      (∀ i, (t.slot i).state = (s.slot i).state) ∧ cut t ∧
      (s.por.ledgerImage = none → t.por.bank0 = s.por.bank0 ∧ t.por.bank1 = s.por.bank1)) ∧
    (∀ bs f r, s.writes 0x0202 2 bs → s.frontRec = some (f, r) → r.value = bs →
      (leNat bs = 1 → s.boot.preparing = false → ∃ t, exec .prepareRemoval s = .next t ∧ AnsweredWith dsOk s t ∧ t.boot.preparing = true ∧
        t.hub.pausedAdmission = true ∧ t.admissionRuns = false ∧ t.dv 0x0202 2 = 1 ∧ t.hub.jobs = s.hub.jobs) ∧
      (leNat bs = 0 → ∃ t, exec .cancelRemoval s = .next t ∧ AnsweredWith dsOk s t ∧ t.boot.preparing = false ∧ t.boot.removalReady = false ∧
        t.hub.pausedAdmission = false ∧ t.dv 0x0202 2 = 0 ∧ t.hub.jobs = s.hub.jobs)))

/-- R59, R200, R424, R434, R453, R455, R462, R463 and R468. The model's choices: KEYS_PENDING clears with the last waiting key write (log 39),
a FW_ACTIVATE that comes while another runs waits for its turn (log 44), and the pin is checked again at that turn and at the end
(log 147). -/
def Obligations.FirmwareAndLedger : Prop :=
  (∀ (bs : List Byte) (s : State), s.writes 0x0204 1 bs → s.boot.activation = none → 8 ≤ bs.length →
    let off := par bs 0 4
    let data := bs.drop 8
    let b := s.stageBank
    (off + data.length ≤ fwBankBytes → ∃ t, exec .fwStageChunk s = .next t ∧ AnsweredWith dsOk s t ∧
      (t.fwImage b).bytes.readBytes off data.length = data ∧ (t.fwImage b).stage = fwStaging ∧
      (∀ a, a < off ∨ off + data.length ≤ a → (t.fwImage b).bytes.read a = (s.fwImage b).bytes.read a) ∧
      ∀ c, c ≠ b → t.fwImage c = s.fwImage c) ∧
    (fwBankBytes < off + data.length → ∃ t, exec .fwStageChunk s = .next t ∧ AnsweredWith dsOutOfRange s t ∧ t.boot = s.boot)) ∧
  (∀ (bs : List Byte) (s : State), s.por.cmds.length < 16 →
    (s.writes 0x0204 2 bs → s.boot.activation = none → par bs 8 4 ≤ fwBankBytes → par bs 0 8 + par bs 8 4 ≤ stackTop →
      ∃ t, exec .fwStageMem s = .next t ∧ AnsweredWith dsAccepted s t ∧ (t.fwImage s.stageBank).stage = fwStaging ∧
        t.por.cmds.map RunCmd.ticket = s.por.cmds.map RunCmd.ticket ++ [s.por.nextTicket] ∧ t.por.nextTicket = s.por.nextTicket + 1) ∧
    (s.writes 0x0204 3 bs → leNat bs = 1 → ∃ t, exec .fwVerify s = .next t ∧ AnsweredWith dsAccepted s t ∧ t.boot = s.boot ∧
        t.por.cmds.map RunCmd.ticket = s.por.cmds.map RunCmd.ticket ++ [s.por.nextTicket]) ∧
    (s.writes 0x0204 5 bs →
      let b := leNat bs
      let pin := s.dv 0x0210 3
      (b < 2 → (s.fwImage b).stage = fwVerified → b ≠ s.boot.fwBank ∨ s.boot.recovery = true → s.boot.activation = none →
        (pin = 0 ∨ pin = (s.fwImage b).epochCur.toNat ∨ pin = (s.fwImage b).epochPrev.toNat) →
        ∃ t a, exec .fwActivate s = .next t ∧ AnsweredWith dsAccepted s t ∧ t.boot.activation = some a ∧ a.bank = b ∧
          a.ticket = s.por.nextTicket ∧ t.boot.fwBank = s.boot.fwBank ∧ t.boot.banks = s.boot.banks) ∧
      (b < 2 → (s.fwImage b).stage = fwVerified → b ≠ s.boot.fwBank ∨ s.boot.recovery = true → s.boot.activation.isSome = true →
        (pin = 0 ∨ pin = (s.fwImage b).epochCur.toNat ∨ pin = (s.fwImage b).epochPrev.toNat) →
        ∃ t, exec .fwActivate s = .next t ∧ AnsweredWith dsAccepted s t ∧ t.boot = s.boot ∧
          t.por.cmds.map RunCmd.ticket = s.por.cmds.map RunCmd.ticket ++ [s.por.nextTicket]) ∧
      (b < 2 → (s.fwImage b).stage = fwVerified → b ≠ s.boot.fwBank ∨ s.boot.recovery = true →
        pin ≠ 0 → pin ≠ (s.fwImage b).epochCur.toNat → pin ≠ (s.fwImage b).epochPrev.toNat →
        ∃ t, exec .fwActivate s = .next t ∧ AnsweredWith dsEpoch s t ∧ t.boot = s.boot ∧ t.por.cmds = s.por.cmds) ∧
      ((s.fwImage b).stage ≠ fwVerified → ∃ t, exec .fwActivate s = .next t ∧ AnsweredWith dsOutOfRange s t ∧ t.boot = s.boot))) ∧
  (∀ (s : State) (a : Activation) (c : RunCmd), s.boot.activation = some a → s.cmd? a.ticket = some c →
    let waiting := s.por.cmds.filter (fun d => decide (d.index = 0x0204 ∧ d.sub = 5 ∧ d.ticket ≠ a.ticket))
    let expired := fun (t : State) => t.cmd? a.ticket = none ∧ t.por.results.head? = some ⟨a.ticket, c.index, c.sub, dsJobsBusy, 0, 0⟩ ∧
      t.boot.fwBank = s.boot.fwBank
    (a.paused = true → (∃ j ∈ s.hub.jobs, s.saveable j a.bank = false) →
      (waiting = [] → ∃ t, exec .fwActivateWaitExpiry s = .next t ∧ expired t ∧ t.boot.activation = none ∧ t.hub.jobs = s.hub.jobs) ∧
      (∀ d, waiting = [d] → (s.fwImage (leNat d.params)).stage = fwVerified → leNat d.params ≠ s.boot.fwBank ∨ s.boot.recovery = true →
        (s.fwImage (leNat d.params)).pinBars (s.dv 0x0210 3) = true → ∃ t, exec .fwActivateWaitExpiry s = .next t ∧
          t.cmd? a.ticket = none ∧ t.cmd? d.ticket = none ∧ t.por.results.head? = some ⟨d.ticket, d.index, d.sub, dsEpoch, 0, 0⟩ ∧
          t.boot.activation = none ∧ t.boot.fwBank = s.boot.fwBank ∧ t.hub.jobs = s.hub.jobs) ∧
      (∀ d, waiting.head? = some d → (s.fwImage (leNat d.params)).stage = fwVerified →
        leNat d.params ≠ s.boot.fwBank ∨ s.boot.recovery = true → (s.fwImage (leNat d.params)).pinBars (s.dv 0x0210 3) = false → ∃ t b, exec .fwActivateWaitExpiry s = .next t ∧ expired t ∧
          t.boot.activation = some b ∧ b.ticket = d.ticket ∧ b.bank = leNat d.params)) ∧
    (a.paused = false → exec .fwActivateWaitExpiry s = .next s)) ∧
  (∀ (ticket : Word) (s : State) (c : RunCmd), s.boot.porterRuns = true → s.cmd? ticket = some c →
    let ended := fun (t : State) => t.cmd? ticket = none ∧ t.por.results.head? = some ⟨ticket, c.index, c.sub, dsOk, 0, 0⟩
    (c.index = 0x0204 → c.sub = 3 → ∃ t, exec (.asyncCommandEnd ticket .done) s = .next t ∧ ended t ∧
      (t.fwImage s.stageBank).stage = s.fwCheck (s.fwImage s.stageBank) ∧ ∀ b, b ≠ s.stageBank → t.fwImage b = s.fwImage b) ∧
    (c.index = 0x0204 → c.sub = 2 → ∀ bs, s.memRead (par c.params 0 8) (par c.params 8 4) = .ok bs →
      ∃ t, exec (.asyncCommandEnd ticket .done) s = .next t ∧ ended t ∧ (t.fwImage s.stageBank).bytes.readBytes 0 bs.length = bs ∧
        (t.fwImage s.stageBank).stage = fwStaging) ∧
    (c.index = 0x0204 → c.sub = 5 → ∀ a, s.boot.activation = some a → a.ticket = ticket → s.activationReady a = true →
      (∀ d ∈ s.por.cmds, d.index = 0x0204 → d.sub = 5 → d.ticket = ticket) →
      ((s.fwImage a.bank).pinBars (s.dv 0x0210 3) = false → ∃ t, exec (.asyncCommandEnd ticket .done) s = .next t ∧ ended t ∧
        t.boot.fwBank = a.bank ∧ t.boot.bootBank = a.bank ∧ t.boot.recovery = false ∧ t.boot.activation = none ∧
        t.boot.banks = s.boot.banks) ∧
      ((s.fwImage a.bank).pinBars (s.dv 0x0210 3) = true → ∃ t, exec (.asyncCommandEnd ticket .done) s = .next t ∧ t.cmd? ticket = none ∧
        t.por.results.head? = some ⟨ticket, c.index, c.sub, dsEpoch, 0, 0⟩ ∧ t.boot = { s.boot with activation := none } ∧
        t.hub.jobs = s.hub.jobs)) ∧
    (c.index = 0x0930 → c.sub = 5 → ∃ t, exec (.asyncCommandEnd ticket .done) s = .next t ∧ ended t ∧
      (t.slot (par c.params 0 1)).state = .free ∧ ∀ i, i ≠ par c.params 0 1 → t.slot i = s.slot i)) ∧
  (∀ (bs : List Byte) (s : State), leNat bs = 1 →
    (s.writes 0x1C00 4 bs →
      (s.por.fusedSvn < 64 → s.por.fusedSvn + 1 ≤ s.image.svn.toNat → ∃ t, exec .rollbackCommit s = .next t ∧ AnsweredWith dsOk s t ∧
        t.por.fusedSvn = s.por.fusedSvn + 1 ∧ t.boot = s.boot) ∧
      (s.image.svn.toNat < s.por.fusedSvn + 1 → ∃ t, exec .rollbackCommit s = .next t ∧ AnsweredWith dsOutOfRange s t ∧
        t.por.fusedSvn = s.por.fusedSvn ∧ t.boot = s.boot)) ∧
    (s.writes 0x1F00 1 bs →
      (s.por.ledgerQueue = [] → s.por.cmds.length < 16 → ∃ t, exec .ledgerCommit s = .next t ∧ AnsweredWith dsAccepted s t ∧
        t.por.ledgerQueue = [.commit s.por.nextTicket]) ∧
      (s.por.ledgerQueue ≠ [] → ∃ t, exec .ledgerCommit s = .next t ∧ AnsweredWith dsLedgerBusy s t ∧
        t.por.ledgerQueue = s.por.ledgerQueue ∧ t.por.bank0 = s.por.bank0 ∧ t.por.bank1 = s.por.bank1))) ∧
  (∀ (bs : List Byte) (s : State), s.writes 0x1F00 2 bs → leNat bs < 2 →
    (s.por.ledgerQueue = [] → s.por.ledgerImage = none → s.por.cmds.length < 16 → ∃ t, exec .restoreFactory s = .next t ∧
      AnsweredWith dsAccepted s t ∧ t.por.ledgerQueue = [.restore s.por.nextTicket (leNat bs)] ∧
      t.por.keys = if leNat bs = 1 then [] else s.por.keys) ∧
    (s.por.ledgerQueue ≠ [] → ∃ t, exec .restoreFactory s = .next t ∧ AnsweredWith dsLedgerBusy s t ∧
      t.por.ledgerQueue = s.por.ledgerQueue ∧ t.por.keys = s.por.keys)) ∧
  (∀ (s : State) (img : LedgerImage), s.por.ledgerQueue = [.keys] → s.por.ledgerImage = some img →
    (∃ t, exec (.ledgerWriteDone true) s = .next t ∧ t.por.ledgerQueue = [] ∧ t.por.ledgerWrites = s.por.ledgerWrites + 1 ∧
      (if s.ledgerTarget = 0 then t.por.bank0 else t.por.bank1) = some img ∧ t.por.keysPending = decide (s.por.keysRetry ≠ 0)) ∧
    (∃ t, exec (.ledgerWriteDone false) s = .next t ∧ t.por.ledgerQueue = [] ∧ t.por.ledgerWrites = s.por.ledgerWrites ∧
      t.por.bank0 = s.por.bank0 ∧ t.por.bank1 = s.por.bank1 ∧ t.por.keysRetry = s.por.keysRetry + 1)) ∧
  (∀ (s : State),
    (s.por.keysRetry ≠ 0 → ∃ t, exec .keyLedgerRetry s = .next t ∧ t.por.ledgerQueue = s.por.ledgerQueue ++ [.keys] ∧
      t.por.keysRetry + 1 = s.por.keysRetry ∧ t.por.keys = s.por.keys) ∧
    (s.por.keysRetry = 0 → exec .keyLedgerRetry s = .next s))

/-- R465, R467, R468, R470, R471, R473, R474 and R493. The model's choices: revoking an empty slot answers OK and a failed unlock leaves the
debug state (log 126); a handshake's datagram carries the TXN of the frame it answers, the SESSION_FAIL of a timeout that of the HELLO,
and the timeout of session 0 is that of a HELLO whose second frame has not come (log 45). -/
def Obligations.KeysReportsAndSessions : Prop :=
  (∀ (bs : List Byte) (s : State), s.writes 0x1C18 1 bs →
    let slot := par bs 0 1
    (1 ≤ slot → slot ≤ 8 → operatorKey s slot = [] → ∃ t, exec .keyEnrol s = .next t ∧ AnsweredWith dsOk s t ∧
      operatorKey t slot = (bs.drop 8).take 1793 ∧ (∀ i, i ≠ slot → operatorKey t i = operatorKey s i) ∧ t.por.keysPending = true ∧
      t.por.ledgerQueue = s.por.ledgerQueue ++ [.keys]) ∧
    ((slot = 0 ∨ 8 < slot ∨ operatorKey s slot ≠ []) → ∃ t, exec .keyEnrol s = .next t ∧ AnsweredWith dsOutOfRange s t ∧
      t.por.keys = s.por.keys ∧ t.por.ledgerQueue = s.por.ledgerQueue)) ∧
  (∀ (bs : List Byte) (s : State) (f : InFrame) (r : Req), s.writes 0x1C18 2 bs → s.frontRec = some (f, r) → f.recs = [r] →
    1 ≤ leNat bs → leNat bs ≤ 8 → ∃ t, exec .keyRevoke s = .next t ∧ AnsweredWith dsOk s t ∧ operatorKey t (leNat bs) = [] ∧
      (∀ i, i ≠ leNat bs → operatorKey t i = operatorKey s i) ∧ t.por.ledgerQueue = s.por.ledgerQueue ++ [.keys] ∧
      (operatorKey s (leNat bs) ≠ [] → ∀ x ∈ t.por.sessions, x.opKey ≠ operatorKey s (leNat bs)) ∧
      (operatorKey s (leNat bs) = [] → s.por.closeAfter = [] → s.por.inbox = [] →
        ∀ x ∈ s.por.sessions, x.num ≠ f.session → x ∈ t.por.sessions)) ∧
  (∀ (bs : List Byte) (s : State), s.writes 0x1C20 1 bs → 1 ≤ par bs 0 1 → par bs 0 1 ≤ 8 →
    ∃ t sig, exec .attestNonce s = .next t ∧ AnsweredWith dsOk s t ∧ sig.length = 1280 ∧
      mget [] t.por.reports (par bs 0 1) = s.reportBody (bs.drop 1) ++ sig ∧
      ∀ i, i ≠ par bs 0 1 → mget [] t.por.reports i = mget [] s.por.reports i) ∧
  (∀ (bs : List Byte) (s : State), s.writes 0x1C28 2 bs →
    let scope := par bs 0 1
    let ok := (scope = 1 ∨ scope = 2) ∧ Config.falconVerify s.vendorKey
      (strBytes "EOVOS-DBG" ++ s.serialBytes ++ s.por.challenge ++ leBytes 1 scope) (bs.drop 8) = true
    (ok → ∃ t, exec .debugUnlock s = .next t ∧ AnsweredWith dsOk s t ∧ t.por.debug = scope ∧ t.por.challenge.length = 32) ∧
    (¬ ok → ∃ t, exec .debugUnlock s = .next t ∧ AnsweredWith dsOutOfRange s t ∧ t.por.debug = s.por.debug ∧ t.por.challenge.length = 32)) ∧
  (∀ (bs : List Byte) (s : State), s.writes 0x1C28 3 bs → leNat bs = 1 →
    ∃ t, exec .debugLock s = .next t ∧ AnsweredWith dsOk s t ∧ t.por.debug = 0 ∧ t.por.challenge = s.por.challenge) ∧
  (∀ (f : InFrame) (s : State), s.handshakeFrame 0x10 = some f →
    let slot := par f.payload 0 1
    (f.payload.length = 1604 → operatorKey s slot ≠ [] → s.por.sessions.length < 8 → ∃ t h, exec .hello s = .next t ∧
      t.por.shakes = s.por.shakes ++ [h] ∧ h.keySlot = slot ∧ h.path = f.path ∧ h.key.length = 32 ∧ h.peer = f.peer ∧ h.txn = f.txn ∧
      t.por.usedSessions = h.num :: s.por.usedSessions ∧
      (s.por.usedSessions.length < 2 ^ 31 → h.num ≠ 0 ∧ h.num ∉ s.por.usedSessions) ∧
      (f.path = .field → ∃ p q, p.length = 1388 ∧ q.length = 212 ∧ Emits (.datagram ⟨⟨s.linkLocal, porterPort⟩, f.peer, shakeFrame 0x11 f.txn h.num true p⟩) s t ∧
        Emits (.datagram ⟨⟨s.linkLocal, porterPort⟩, f.peer, shakeFrame 0x11 f.txn h.num false q⟩) s t)) ∧
    (f.payload.length ≠ 1604 → ∃ t, exec .hello s = .next t ∧ t.por.shakes = s.por.shakes ∧ t.por.usedSessions = s.por.usedSessions ∧
      (f.path = .field → Emits (.datagram ⟨⟨s.linkLocal, porterPort⟩, f.peer, shakeFrame 0x15 f.txn f.session false [5, 0, 0, 0]⟩) s t))) ∧
  (∀ (f : InFrame) (s : State) (h : Handshake), s.handshakeFrame 0x13 = some f → s.por.inbox = [] →
    s.por.shakes.find? (fun x => decide (x.num = f.session ∧ x.path = f.path)) = some h → f.payload.length = 1280 →
    operatorKey s h.keySlot ≠ [] →
    let gone := fun (t : State) => t.por.shakes = s.por.shakes.filter (fun x => decide (x.num ≠ h.num))
    (Config.falconVerify (operatorKey s h.keySlot) h.transcript f.payload = true → s.por.sessions.length < 8 →
      ∃ t, exec (.clientSig) s = .next t ∧ gone t ∧ t.por.sessions = s.por.sessions ++
        [{ num := h.num, path := h.path, opKey := operatorKey s h.keySlot, key := h.key, inCtr := 0, outCtr := 0, kept := [],
            staged := [], peer := f.peer }]) ∧
    (Config.falconVerify (operatorKey s h.keySlot) h.transcript f.payload = false →
      ∃ t, exec (.clientSig) s = .next t ∧ gone t ∧ t.por.sessions = s.por.sessions)) ∧
  (∀ (f : InFrame) (s : State), s.handshakeFrame 0x16 = some f →
    ∃ t, exec .close s = .next t ∧ ∀ x ∈ t.por.sessions, ¬ (x.num = f.session ∧ x.path = f.path)) ∧
  (∀ (num : Word) (s : State), s.boot.porterRuns = false →
    exec (.handshakeTimeout num) s = .next s ∧ exec (.sessionIdleTimeout num) s = .next s) ∧
  (∀ (num : Word) (s : State), s.boot.porterRuns = true →
    (∃ t, exec (.handshakeTimeout num) s = .next t ∧ (∀ h ∈ t.por.shakes, h.num ≠ num) ∧ t.por.sessions = s.por.sessions ∧
      ∀ h, s.por.shakes.find? (fun h => decide (h.num = num)) = some h → h.path = .field →
        t.out = .datagram ⟨⟨s.linkLocal, porterPort⟩, h.peer, shakeFrame 0x15 h.txn num false [4, 0, 0, 0]⟩ :: s.out) ∧
    (∀ y rest, s.por.shakes.find? (fun h => decide (h.num = 0)) = none → s.por.partHellos = y :: rest → y.path = .field →
      exec (.handshakeTimeout 0) s = .next { s with
        por := { s.por with partHellos := rest }
        out := .datagram ⟨⟨s.linkLocal, porterPort⟩, y.peer, shakeFrame 0x15 y.txn 0 false [4, 0, 0, 0]⟩ :: s.out }) ∧
    exec (.sessionIdleTimeout num) s =
      .next { s with por := { s.por with sessions := s.por.sessions.filter (fun x => !decide (x.num = num)) } })

/-- R469: KEY_ENROL without a session, by path. -/
def Obligations.FirstKeyOverTheMailbox : Prop :=
  ∀ (f : InFrame) (r : Req) (s : State), s.frontRec = some (f, r) → s.por.keys = [] → f.session = 0 → (∀ x ∈ s.por.sessions, x.num ≠ 0) →
    s.boot.resetAfter = false → r.rop = 2 → r.index = 0x1C18 → r.sub = 1 → r.offset = 0 → r.length = 1801 → r.total = 1801 → r.value.length = 1801 →
    s.boot.recovery = false → s.defines 0x1C18 1 = true →
    (f.path = .mailbox → s.boot.ready = true → 2 ≤ s.tier → 1 ≤ par r.value 0 1 → par r.value 0 1 ≤ 8 →
      ∃ t, exec .keyEnrol s = .next t ∧ AnsweredWith dsOk s t ∧ operatorKey t (par r.value 0 1) = (r.value.drop 8).take 1793) ∧
    (f.path = .field → ∃ t, exec .keyEnrol s = .next t ∧ AnsweredWith dsSession s t ∧ t.por.keys = [])

/-- R420 to R422, R427 to R429, R431 and R487. That an OFFSET beyond a value is TYPE_MISMATCH, and that a refresh leaves a value that has
not changed with its SEQ, are logs 42 and 43's choices. -/
def Obligations.FramesEntriesAndView : Prop :=
  (∀ (d : Datagram) (s : State), s.boot.porterRuns = true →
    let x : Inbound := ⟨.field, decide (d.dst.addr = allNodes), d.src, d.bytes⟩
    (¬ (d.dst.port = 5411 ∧ (d.dst.addr = allNodes ∨ d.dst.addr = s.linkLocal)) → exec (.porterFrameReceive d.bytes (d.src, d.dst)) s = .next s) ∧
    (d.dst.port = 5411 → d.dst.addr = allNodes ∨ d.dst.addr = s.linkLocal →
      (s.por.current.isSome = true → exec (.porterFrameReceive d.bytes (d.src, d.dst)) s = .next { s with por := { s.por with inbox := s.por.inbox ++ [x] } }) ∧
      (s.por.current = none → s.por.inbox = [] → d.bytes.length < 32 → exec (.porterFrameReceive d.bytes (d.src, d.dst)) s =
        .next { s with por := { s.por with framesDropped := s.por.framesDropped + 1 } }) ∧
      (s.por.current = none → s.por.inbox = [] → exec (.porterFrameReceive d.bytes (d.src, d.dst)) s = .next (s.takeFrame x)))) ∧
  (∀ (f : InFrame) (r : Req) (s : State), s.frontRec = some (f, r) → r.rop ≠ 2 →
    (∀ st, s.recEntry f r = .error st → exec .dictRead s = .next (s.answer st 0 r.total [])) ∧
    (∀ e, s.recEntry f r = .ok e →
      let v := s.readEntry e r.index r.sub
      (r.offset ≤ v.length → (e.ty < 10 → r.offset = 0) → exec .dictRead s = .next (s.answer dsOk 0 v.length
        ((v.drop r.offset).take (min (if r.length = 0 then v.length else r.length) (frameRoom f / 4 * 4)))))  ∧
      (v.length < r.offset → exec .dictRead s = .next (s.answer dsType 0 v.length [])))) ∧
  (∀ (i u : Nat) (bs : List Byte) (s : State), s.writes i u bs → ownWrite i u = false →
    let v := if i = 0x1800 ∧ u = 6 then leNat bs % 2 ^ 232 else leNat bs
    (s.writeRefused i u v = none → ∃ t, exec .dictWrite s = .next t ∧ AnsweredWith dsOk s t ∧ t.dv i u = v ∧
      (∀ j w, dKey j w ≠ dKey i u → t.dv j w = s.dv j w) ∧
      (¬ ((i = 0x1020 ∨ i = 0x1021) ∧ u = 3) → t.boot = s.boot ∧ t.pwr = s.pwr ∧ t.clusters = s.clusters ∧ t.ms = s.ms ∧
        t.car = s.car ∧ t.net = s.net) ∧
      (∀ r, r < 2 → i = 0x1020 + r → u = 3 → v = 1 → (s.ring r).bypass = .joined →
        (∃ p ∈ portsOfRing r, (s.port p).state = .down ∧ (s.port p).fault = 1) →
        (t.ring r).bypass = .moving false ∧ (t.ring r).autos = (s.ring r).autos + 1 ∧
        ∀ p ∈ portsOfRing r, (t.port p).state = if (s.port p).fenced then .fenced else .off)) ∧
    (∀ st, s.writeRefused i u v = some st → ∃ t, exec .dictWrite s = .next t ∧ AnsweredWith st s t ∧ t.por.vals = s.por.vals ∧
      t.boot = s.boot ∧ t.ms = s.ms ∧ t.car = s.car ∧ t.net = s.net)) ∧
  (∀ (u : Nat) (bs : List Byte) (s : State), u = 1 ∨ u = 2 → s.writes 0x1F08 u bs →
    let base := if u = 1 then leNat bs else s.dv 0x1F08 1
    let bytes := if u = 2 then leNat bs else s.dv 0x1F08 2
    (s.hub.jobs ≠ [] → ∃ t, exec .userViewConfigWrite s = .next t ∧ AnsweredWith dsJobsBusy s t ∧ t.por.viewBase = s.por.viewBase ∧
      t.por.viewBytes = s.por.viewBytes ∧ t.por.grant = s.por.grant ∧ t.por.vals = s.por.vals) ∧
    (s.hub.jobs = [] → bytes % 2048 = 0 → base = 0 ∨ bytes = 0 → ∃ t, exec .userViewConfigWrite s = .next t ∧ AnsweredWith dsOk s t ∧
      t.por.viewBase = 0 ∧ t.por.viewBytes = 0 ∧ t.dv 0x1F08 u = leNat bs ∧ t.ms = s.ms) ∧
    (s.hub.jobs = [] → bytes % 2048 = 0 → base ≠ 0 → bytes ≠ 0 → s.takeGrant.viewBad base bytes = false →
      (s.session? 0).isNone = true → (∀ x ∈ s.por.sessions, x.staged = []) →
      ∃ t, exec .userViewConfigWrite s = .next t ∧ AnsweredWith dsOk s t ∧ t.por.viewBase = base ∧ t.por.viewBytes = bytes ∧
        t.por.grant = s.dv 0x19F0 1 ∧ t.dv 0x1F08 u = leNat bs)) ∧
  (∀ (s : State), ∃ t, exec .userViewRefresh s = .next t ∧ t.por.vals = s.por.vals ∧ t.por.viewBase = s.por.viewBase ∧
    t.clusters = s.clusters ∧ t.cores = s.cores ∧ t.hub.jobs = s.hub.jobs ∧ t.boot = s.boot ∧ t.car = s.car ∧ t.net = s.net ∧
    ((∀ x ∈ s.viewRecords, x.1.2.2.acc = .ro → s.ms.mem.readBytes (s.por.viewBase + x.2.2) x.2.1.length = x.2.1) → t = s)) ∧
  (∀ (s : State) (k : Nat) (x : (Nat × Nat × DEntry) × List Byte × Nat), s.viewRecords[k]? = some x → x.1.2.2.acc = .ro →
    let base := s.por.viewBase
    let shown := fun (r : (Nat × Nat × DEntry) × List Byte × Nat) => s.ms.mem.readBytes (base + r.2.2) r.2.1.length = r.2.1
    let seqAt := base + 64 + 16 * k + 12
    s.boot.ready = true → base ≠ 0 → s.viewBad base s.por.viewBytes = false → s.rangeErr base s.por.viewBytes = none →
    s.poisonIn base s.por.viewBytes = none → ¬ shown x → (∀ j y, s.viewRecords[j]? = some y → y.1.2.2.acc = .ro → j ≠ k → shown y) →
    ∃ t, exec .userViewRefresh s = .next t ∧ t.ms.mem.readBytes (base + x.2.2) x.2.1.length = x.2.1 ∧
      t.ms.mem.readLE seqAt 4 = (s.ms.mem.readLE seqAt 4 + 2) % 2 ^ 32 ∧
      ∀ a, (a < base + x.2.2 ∨ base + x.2.2 + x.2.1.length ≤ a) → (a < seqAt ∨ seqAt + 4 ≤ a) → t.ms.mem.read a = s.ms.mem.read a)

/-- R478, R479, R481, R485 and R488. -/
def Obligations.SelfTestAlertsAndWindows : Prop :=
  (∀ (bs : List Byte) (s : State), s.writes 0x1800 1 bs →
    let target := par bs 0 1
    let mode := par bs 1 1
    (∀ u, bistUnit target = some u → 1 ≤ mode → mode ≤ 3 → s.bistRefused u = none → (∀ r ∈ s.por.bist, r.target ≠ target) →
      s.por.cmds.length < 16 → ∃ t, exec .bistRun s = .next t ∧ AnsweredWith dsAccepted s t ∧
        t.por.bist = s.por.bist ++ [{ target := target, mode := mode, kind := 0, ticket := s.por.nextTicket }] ∧ t.clusters = s.clusters) ∧
    (∀ k, bistUnit target = some (.cluster k) → 1 ≤ mode → mode ≤ 3 → (s.cluster k).fenced = false →
      ∃ t, exec .bistRun s = .next t ∧ AnsweredWith dsClusterBusy s t ∧ t.por.bist = s.por.bist ∧ t.clusters = s.clusters)) ∧
  (∀ (target : Byte) (subs : List Nat) (misrs : List Quad) (s : State) (r : BistRun) (u : BistUnit),
    s.por.bist.find? (fun r => r.target == target.toNat) = some r → bistUnit target.toNat = some u → s.factoryImage.isSome = true →
    r.mode < 256 → r.kind < 256 →
    let bad := u.fail (s.bistFailing r u (subs.zip misrs))
    let ended := fun (verdict : Nat) (t : State) => (∀ x ∈ t.por.bist, x.target ≠ target.toNat) ∧
      (mget 0 t.por.bistResults target.toNat).extractLsb' 24 8 = BitVec.ofNat 8 verdict ∧
      (mget 0 t.por.bistResults target.toNat).extractLsb' 64 64 = BitVec.ofNat 64 bad
    (bad = 0 → ∃ t, exec (.bistRunEnd target subs misrs) s = .next t ∧ ended 1 t ∧
      ∀ k, u = .cluster k → (t.cluster k).rolling = false ∧ (r.kind = 0 → (t.cluster k).coreFence = (s.cluster k).coreFence &&& ~~~ (s.cluster k).bistCores ∧
        (t.cluster k).fencedBist = false ∧ (t.cluster k).fencedCmd = ((s.cluster k).fencedCmd || (s.cluster k).fencedBist))) ∧
    (bad ≠ 0 → ∃ t, exec (.bistRunEnd target subs misrs) s = .next t ∧ ended 2 t ∧
      ∀ k, u = .cluster k → (t.cluster k).coreFence = (s.cluster k).coreFence ||| BitVec.ofNat 16 (bits bad 15 0))) ∧
  (∀ (s : State) (k : Nat), s.boot.ready = true → s.hub.sweeping = false → s.factoryImage.isSome = true → s.dv 0x1800 2 = 1 →
    (∀ r ∈ s.por.bist, r.kind ≠ 1) → k < 12 → s.por.rollingNext ≤ k → s.rollable k = true →
    (∀ i, s.por.rollingNext ≤ i → i < k → s.rollable i = false) →
    ∃ t, exec .rollingBistTurn s = .next t ∧ t.cluster k = { s.cluster k with rolling := true } ∧
      (∀ i, i ≠ k → t.cluster i = s.cluster i) ∧ t.por.bist = s.por.bist ++ [{ target := k, mode := 3, kind := 1, ticket := 0 }] ∧
      t.hub = s.hub ∧ t.cores = s.cores) ∧
  (∀ (bs : List Byte) (s : State), s.writes 0x1808 4 bs →
    ∃ t, exec .alertAck s = .next t ∧ AnsweredWith dsOk s t ∧ t.por.alertSeq = s.por.alertSeq ∧
      (s.por.alertSeq.toNat ≤ leNat bs → t.por.alertPin = false) ∧ (leNat bs < s.por.alertSeq.toNat → t.por.alertPin = s.por.alertPin)) ∧
  (∀ (s : State),
    (s.boot.inReset = false ∨ s.starting = true → ∃ t, exec .bwWindowEnd s = .next t ∧ t.por.windowSeq = s.por.windowSeq + 1 ∧ t.por.bwCounts = [] ∧
      t.por.bwLog2 = s.dv 0x19F0 2 ∧ (∀ i, mget 0 t.por.bwLatched i = mget 0 s.por.bwCounts i) ∧ t.hub = s.hub ∧ t.ms = s.ms) ∧
    (s.boot.inReset = true → s.starting = false → exec .bwWindowEnd s = .next s)) ∧
  (∀ (s : State), s.tier ≤ 3 ∧ (s.tier = 3 → s.lights.1 = .green) ∧ (s.tier = 1 ∨ s.tier = 2 → s.lights.1 = .amber) ∧
    (s.tier = 0 → s.lights.1 = .dark) ∧ (s.lights.2 = true ↔ s.por.alertPin = true))

/-- R93. The tag stands in bits 31 to 24, the rows below it. -/
def Obligations.ProgressWaitRule : Prop :=
  ∀ (c w : Byte) (r q : BitVec 24),
    let d := (c - w).toNat
    (progMet (c ++ r) (w ++ q) = true ↔ (d = 0 ∧ q.toNat ≤ r.toNat) ∨ (1 ≤ d ∧ d ≤ 127)) ∧
    (128 ≤ d → progMet (c ++ r) (w ++ q) = false)

/-- R326, R407, R443, R449, R484 and R486. Zero where the spec names no reset value is the model's choice (log 54). -/
def Obligations.ResetState : Prop :=
  let s := State.reset
  s.tier = 0 ∧ (∀ r, (s.ring r).bypass = .through) ∧ (∀ b, s.block b = 0) ∧ s.hub.jobs = [] ∧ (∀ n, (s.pair n).qstate = .off) ∧
  (∀ i, (s.stream i).sstate = .free) ∧ s.por.sessions = [] ∧ s.por.cmds = [] ∧ s.por.log = [] ∧ (∀ k i, s.clusterCtr k i = 0) ∧
  (∀ c i, s.coreCtr c i = 0) ∧ (∀ i, mget 0 s.por.portCtr i = 0) ∧ (∀ m, (s.stack m).ce = 0 ∧ (s.stack m).ue = 0) ∧
  (∀ k, (s.cluster k).holder = none) ∧ (∀ k, (s.seq k).active = false) ∧ (∀ a, s.ms.mem.read a = 0) ∧
  (∀ i, (s.slot i).state = .free) ∧ (∀ p, (s.port p).state = .off) ∧ s.pending = [] ∧ s.pacing = 0 ∧ s.por.fusedSvn = 0 ∧
  s.boot.ready = false ∧ s.boot.vin = false ∧ s.pwr.rootLocked = false ∧ s.memoriesWf = true

/-- R79 and R80, Tables 3-6 and 3-7: a word decodes to one command at most on a cluster, whose word it is; which words decode does not
depend on the cluster. -/
def Obligations.SequencerWordsRoundTrip : Prop :=
  (∀ (k : ClusterId) (w : Word) (i : Instr), seqDecode k w = some i → seqEncode i = some w) ∧
  (∀ (i : Instr) (w : Word), seqEncode i = some w → ∃ k, seqDecode k w = some i) ∧
  (∀ (k l : ClusterId) (w : Word), (seqDecode k w).isSome = (seqDecode l w).isSome) ∧
  (∀ (k : ClusterId) (w : Word),
    wOpc w ∉ [0x01, 0x02, 0x03, 0x04, 0x05, 0x06, 0x07, 0x08, 0x09, 0x0A, 0x10, 0x11, 0x12, 0x13, 0x14, 0x18, 0x19, 0x1A, 0x1B, 0x1C, 0x1D, 0x1E,
      0x1F, 0x20, 0x21, 0x22, 0x23, 0x24, 0x25, 0x26, 0x27, 0x28, 0x29, 0x2C, 0x3E] → seqDecode k w = none)

/-- R439, R463 and R7: what no step alters. Every memory keeps its canonical form, how the model writes memories down. The bound of 64 is a
reading of R463 (log 48); what undefined behaviour keeps beside is log 131's choice. -/
def Obligations.FactoryAndFusesKept : Prop :=
  (∀ (c : Instr) (s t : State), exec c s = .next t →
    t.por.factory = s.por.factory ∧ t.pending = s.pending ∧
    (t.por.fusedSvn = s.por.fusedSvn ∨ (c = .rollbackCommit ∧ t.por.fusedSvn = s.por.fusedSvn + 1))) ∧
  (∀ (s t : State), step s = .next t → s.por.fusedSvn ≤ 64 →
    t.por.fusedSvn ≤ 64 ∧ t.por.factory = s.por.factory ∧ t.pending = s.pending.drop 1) ∧
  (∀ (s t : State), step s = .next t → s.memoriesWf = true → t.memoriesWf = true)
end

