-- ==== Sys2Proof/Laws/Maps.lean ====
section
/-! SUPPORT. Sparse maps: reading after setting, changing and removing. -/

namespace Sys2Proof.Machine

@[simp] theorem mget_nil {α : Type} (d : α) (i : Nat) : mget d [] i = d := rfl

@[simp] theorem mget_mset_self {α : Type} (d : α) (m : AMap α) (i : Nat) (v : α) : mget d (mset m i v) i = v := by
  induction m with
  | nil => simp [mset, mget]
  | cons p rest ih =>
    obtain ⟨k, w⟩ := p
    by_cases h : k = i
    · simp [mset, mget, h]
    · by_cases h' : i < k
      · simp [mset, mget, h, h']
      · simp [mset, mget, h, h', ih]

theorem mget_mset_ne {α : Type} (d : α) (m : AMap α) {i j : Nat} (v : α) (h : j ≠ i) : mget d (mset m i v) j = mget d m j := by
  induction m with
  | nil => simp [mset, mget, Ne.symm h]
  | cons p rest ih =>
    obtain ⟨k, w⟩ := p
    by_cases hk : k = i
    · subst hk; simp [mset, mget, Ne.symm h]
    · by_cases hlt : i < k
      · simp [mset, hk, hlt, mget, Ne.symm h]
      · by_cases hkj : k = j
        · subst hkj; simp only [mset, if_neg hk, if_neg hlt, mget, if_true]
        · simp only [mset, if_neg hk, if_neg hlt, mget, if_neg hkj, ih]

theorem mget_mset {α : Type} (d : α) (m : AMap α) (i j : Nat) (v : α) :
    mget d (mset m i v) j = if j = i then v else mget d m j := by
  by_cases h : j = i
  · subst h; simp
  · simp [h, mget_mset_ne]

theorem mget_mmod {α : Type} (d : α) (m : AMap α) (i j : Nat) (f : α → α) :
    mget d (mmod d m i f) j = if j = i then f (mget d m i) else mget d m j := mget_mset d m i j _

theorem mget_filter {α : Type} (d : α) (m : AMap α) (p : Nat → Bool) (j : Nat) :
    mget d (m.filter (fun e => p e.1)) j = if p j then mget d m j else d := by
  induction m with
  | nil => simp [mget]
  | cons e rest ih =>
    obtain ⟨k, w⟩ := e
    by_cases hk : k = j
    · subst hk
      by_cases hp : p k = true
      · simp [hp, mget]
      · simp only [Bool.not_eq_true] at hp; simp [hp, ih]
    · by_cases hp : p k = true
      · simp [hp, mget, hk, ih]
      · simp only [Bool.not_eq_true] at hp; simp [hp, mget, hk, ih]

theorem mget_mdel {α : Type} (d : α) (m : AMap α) (i j : Nat) :
    mget d (mdel m i) j = if j = i then d else mget d m j := by
  have h := mget_filter d m (fun k => decide (k ≠ i)) j
  by_cases hj : j = i <;> simp_all [mdel]

/-- Changing every value by a function that keeps the default. -/
theorem mget_map {α β : Type} (d : α) (e : β) (m : AMap α) (f : α → β) (h : f d = e) (j : Nat) :
    mget e (m.map (fun p => (p.1, f p.2))) j = f (mget d m j) := by
  induction m with
  | nil => simp [mget, h]
  | cons p rest ih =>
    obtain ⟨k, w⟩ := p
    by_cases hk : k = j
    · simp [mget, hk]
    · simp [mget, hk, ih]

end Sys2Proof.Machine
end

