-- ==== Sys2Proof/Laws/Memory.lean ====
section
/-! SUPPORT. Byte memories: what is read after writing, zeroing and forgetting, and that each operation keeps the canonical form. -/

namespace Sys2Proof.Machine

/-! ## Cells -/

theorem cellAt_setCell (cs : List Host.Cell) (a b : Nat) (v : Byte) :
    cellAt (setCell cs a v) b = if b = a then some v else cellAt cs b := by
  induction cs with
  | nil =>
    by_cases h : b = a
    · simp [setCell, cellAt, h]
    · simp [setCell, cellAt, h, Ne.symm h]
  | cons p rest ih =>
    obtain ⟨k, w⟩ := p
    by_cases hk : k = a
    · subst hk
      by_cases hb : b = k
      · subst hb; simp [setCell, cellAt]
      · simp [setCell, cellAt, hb, Ne.symm hb]
    · by_cases hl : a < k
      · by_cases hb : b = a
        · subst hb; simp [setCell, cellAt, hk, hl]
        · simp [setCell, cellAt, hk, hl, hb, Ne.symm hb]
      · by_cases hb : k = b
        · subst hb; simp [setCell, cellAt, hk, hl]
        · simp [setCell, cellAt, hk, hl, hb, ih]

theorem cellAt_filter (cs : List Host.Cell) (p : Nat → Bool) (b : Nat) :
    cellAt (cs.filter (fun c => p c.1)) b = if p b then cellAt cs b else none := by
  induction cs with
  | nil => simp [cellAt]
  | cons c rest ih =>
    obtain ⟨k, w⟩ := c
    by_cases hb : k = b
    · subst hb
      by_cases hp : p k = true
      · simp [hp, cellAt]
      · simp only [Bool.not_eq_true] at hp; simp [hp, ih]
    · by_cases hp : p k = true
      · simp [hp, cellAt, hb, ih]
      · simp only [Bool.not_eq_true] at hp; simp [hp, cellAt, hb, ih]

/-! ## Free ranges -/

theorem FreeRange.cut_has (lo hi : Nat) (r : FreeRange) (b : Nat) :
    (FreeRange.cut lo hi r).any (fun q => q.has b) = (r.has b && !(decide (lo ≤ b) && decide (b < hi))) := by
  unfold FreeRange.cut
  split
  · simp [FreeRange.has]
    by_cases h : r.lo ≤ b ∧ b < r.hi
    · have : ¬ (lo ≤ b ∧ b < hi) := by omega
      by_cases h1 : lo ≤ b <;> simp_all
    · intro h1 h2; exact absurd ⟨h1, h2⟩ h
  · rw [Bool.eq_iff_iff]
    split <;> split <;> simp [FreeRange.has] <;> omega

theorem FreeRange.cut_stamp (lo hi : Nat) (r : FreeRange) : ∀ q ∈ FreeRange.cut lo hi r, q.stamp = r.stamp := by
  unfold FreeRange.cut
  intro q hq
  split at hq
  · simp at hq; simp [hq]
  · simp only [List.mem_append] at hq
    rcases hq with hq | hq <;> split at hq <;> simp at hq <;> simp [hq]

theorem find_cut (rs : List FreeRange) (lo hi b : Nat) (h : b < lo ∨ hi ≤ b) :
    ((rs.flatMap (FreeRange.cut lo hi)).find? (fun r => r.has b)).map FreeRange.stamp =
      (rs.find? (fun r => r.has b)).map FreeRange.stamp := by
  induction rs with
  | nil => rfl
  | cons r rest ih =>
    simp only [List.flatMap_cons, List.find?_append, List.find?_cons]
    have hh := FreeRange.cut_has lo hi r b
    have hn : (decide (lo ≤ b) && decide (b < hi)) = false := by
      rcases h with h | h <;> simp <;> omega
    rw [hn] at hh; simp only [Bool.not_false, Bool.and_true] at hh
    cases hf : (FreeRange.cut lo hi r).find? (fun r => r.has b) with
    | none =>
      have : r.has b = false := by
        rw [← hh]; simpa [List.any_eq_false] using (List.find?_eq_none.mp hf)
      simp only [this, Option.none_or]; exact ih
    | some q =>
      have hq := List.mem_of_find?_eq_some hf
      have hqb := List.find?_some hf
      have : r.has b = true := by rw [← hh]; exact List.any_eq_true.mpr ⟨q, hq, hqb⟩
      simp only [this, Option.some_or, Option.map_some, FreeRange.cut_stamp lo hi r q hq]

theorem find_cut_inside (rs : List FreeRange) (lo hi b : Nat) (h1 : lo ≤ b) (h2 : b < hi) :
    (rs.flatMap (FreeRange.cut lo hi)).find? (fun r => r.has b) = none := by
  rw [List.find?_eq_none]
  intro q hq
  simp only [List.mem_flatMap] at hq
  obtain ⟨r, _, hqr⟩ := hq
  have hh := FreeRange.cut_has lo hi r b
  simp only [h1, h2, decide_true, Bool.and_true, Bool.not_true, Bool.and_false, List.any_eq_false] at hh
  exact hh q hqr

/-! ## Reading after an operation -/

@[simp] theorem Mem.read_empty (a : Nat) : ({} : Mem).read a = 0 := rfl

/-- Outside a cut range the memory reads as before, where its cells do. -/
theorem Mem.read_cut (m : Mem) (cs : List Host.Cell) (lo hi b : Nat) (hc : cellAt cs b = cellAt m.cells b) (h : b < lo ∨ hi ≤ b) :
    Mem.read { cells := cs, free := m.free.flatMap (FreeRange.cut lo hi) } b = m.read b := by
  simp only [Mem.read, Mem.stampAt, hc, find_cut m.free lo hi b h]

theorem Mem.read_write_self (m : Mem) (a : Nat) (v : Byte) : (m.write a v).read a = v := by
  have hf := find_cut_inside m.free a (a + 1) a (Nat.le_refl a) (Nat.lt_succ_self a)
  by_cases hv : v = 0
  · have hc := cellAt_filter m.cells (fun k => decide (k ≠ a)) a
    simp only [decide_not, decide_true, Bool.not_true, Bool.false_eq_true, if_false] at hc
    simp only [Mem.write, hv, if_true, Mem.read, Mem.stampAt, decide_not, hc, hf, Option.map_none]
  · simp only [Mem.write, if_neg hv, Mem.read, cellAt_setCell, if_true]

theorem Mem.read_write_ne (m : Mem) {a b : Nat} (v : Byte) (h : b ≠ a) : (m.write a v).read b = m.read b := by
  unfold Mem.write
  apply Mem.read_cut
  · by_cases hv : v = 0
    · rw [if_pos hv, cellAt_filter m.cells (fun k => decide (k ≠ a)) b]; simp [h]
    · rw [if_neg hv, cellAt_setCell, if_neg h]
  · omega

theorem Mem.read_write (m : Mem) (a b : Nat) (v : Byte) : (m.write a v).read b = if b = a then v else m.read b := by
  by_cases h : b = a
  · subst h; simp [Mem.read_write_self]
  · simp [h, Mem.read_write_ne]

theorem Mem.read_zero (m : Mem) (lo hi b : Nat) : (m.zero lo hi).read b = if lo ≤ b ∧ b < hi then 0 else m.read b := by
  have hc := cellAt_filter m.cells (fun k => decide (k < lo) || decide (hi ≤ k)) b
  by_cases h : lo ≤ b ∧ b < hi
  · have h2 : (decide (b < lo) || decide (hi ≤ b)) = false := by simp; omega
    simp only [h2, Bool.false_eq_true, if_false] at hc
    simp only [Mem.zero, Mem.read, Mem.stampAt, hc, if_pos h, find_cut_inside m.free lo hi b h.1 h.2, Option.map_none]
  · have h2 : (decide (b < lo) || decide (hi ≤ b)) = true := by simp; omega
    simp only [h2, if_true] at hc
    rw [if_neg h]
    exact Mem.read_cut m _ lo hi b hc (by omega)

/-- Outside a forgotten range the memory reads as before. -/
theorem Mem.read_forget (m : Mem) (lo hi stamp b : Nat) (h : b < lo ∨ hi ≤ b) : (m.forget lo hi stamp).read b = m.read b := by
  have hz := Mem.read_zero m lo hi b
  rw [if_neg (by omega)] at hz
  rw [← hz]
  unfold Mem.forget Mem.read Mem.stampAt
  by_cases hl : lo < hi
  · have : (FreeRange.has ⟨lo, hi, stamp⟩ b) = false := by simp [FreeRange.has]; omega
    simp [hl, this]
  · simp [hl]

theorem Mem.read_writeBytes (m : Mem) (a : Nat) (bs : List Byte) (b : Nat) :
    (m.writeBytes a bs).read b = if a ≤ b ∧ b < a + bs.length then (bs[b - a]?).getD 0 else m.read b := by
  induction bs generalizing m a with
  | nil => rw [if_neg (by simp)]; rfl
  | cons x rest ih =>
    simp only [Mem.writeBytes, ih, List.length_cons]
    by_cases h : a + 1 ≤ b ∧ b < a + 1 + rest.length
    · have h2 : a ≤ b ∧ b < a + (rest.length + 1) := by omega
      obtain ⟨k, rfl⟩ : ∃ k, b = a + 1 + k := ⟨b - (a + 1), by omega⟩
      have e1 : a + 1 + k - (a + 1) = k := by omega
      have e2 : a + 1 + k - a = k + 1 := by omega
      simp [h, h2, e1, e2]
    · rw [if_neg h, Mem.read_write]
      by_cases hb : b = a
      · subst hb; simp
      · have : ¬ (a ≤ b ∧ b < a + (rest.length + 1)) := by omega
        simp [hb, this]

theorem Mem.read_writeBytes_out (m : Mem) (a : Nat) (bs : List Byte) (b : Nat) (h : b < a ∨ a + bs.length ≤ b) :
    (m.writeBytes a bs).read b = m.read b := by
  rw [Mem.read_writeBytes, if_neg (by omega)]

theorem Mem.readBytes_length (m : Mem) (a n : Nat) : (m.readBytes a n).length = n := by simp [Mem.readBytes]

theorem Mem.readBytes_writeBytes (m : Mem) (a : Nat) (bs : List Byte) : (m.writeBytes a bs).readBytes a bs.length = bs := by
  apply List.ext_getElem
  · simp [Mem.readBytes]
  · intro i h1 h2
    simp only [Mem.readBytes, List.getElem_map, List.getElem_range, Mem.read_writeBytes]
    have : a ≤ a + i ∧ a + i < a + bs.length := by omega
    have e : a + i - a = i := by omega
    simp [this, e, h2]

@[simp] theorem leBytes_length (n v : Nat) : (leBytes n v).length = n := by
  induction n generalizing v with
  | zero => rfl
  | succ n ih => simp [leBytes, ih]

theorem leNat_leBytes (n v : Nat) : leNat (leBytes n v) = v % 256 ^ n := by
  induction n generalizing v with
  | zero => simp [leBytes, leNat, Nat.mod_one]
  | succ n ih =>
    have e : (2 : Nat) ^ 8 = 256 := by decide
    rw [leBytes, leNat, ih, BitVec.toNat_ofNat, e, Nat.pow_succ, Nat.mul_comm (256 ^ n) 256, Nat.mod_mul]

theorem Mem.readLE_writeLE (m : Mem) (a n v : Nat) : (m.writeLE a n v).readLE a n = v % 256 ^ n := by
  have h := Mem.readBytes_writeBytes m a (leBytes n v)
  rw [leBytes_length] at h
  simp [Mem.readLE, Mem.writeLE, h, leNat_leBytes]

theorem Mem.read_writeLE_out (m : Mem) (a n v b : Nat) (h : b < a ∨ a + n ≤ b) : (m.writeLE a n v).read b = m.read b := by
  apply Mem.read_writeBytes_out; simpa using h

/-- Two memories that read alike at every byte of a range spell the same bytes there. -/
theorem Mem.readBytes_congr (m k : Mem) (a n : Nat) (h : ∀ i, i < n → m.read (a + i) = k.read (a + i)) :
    m.readBytes a n = k.readBytes a n := by
  simp only [Mem.readBytes]
  apply List.map_congr_left
  intro i hi; exact h i (List.mem_range.mp hi)

/-! ## The canonical form -/

theorem setCell_pairwise (cs : List Host.Cell) (a : Nat) (v : Byte) (h : cs.Pairwise (fun x y => x.1 < y.1)) :
    (setCell cs a v).Pairwise (fun x y => x.1 < y.1) ∧ ∀ c ∈ setCell cs a v, c = (a, v) ∨ c ∈ cs := by
  induction cs with
  | nil => simp [setCell]
  | cons p rest ih =>
    obtain ⟨k, w⟩ := p
    rw [List.pairwise_cons] at h
    obtain ⟨hp, hr⟩ := h
    obtain ⟨i1, i2⟩ := ih hr
    by_cases hk : k = a
    · subst hk
      refine ⟨?_, ?_⟩
      · simp only [setCell, if_true, List.pairwise_cons]; exact ⟨hp, hr⟩
      · intro c hc; simp [setCell] at hc ⊢; rcases hc with hc | hc <;> simp [hc]
    · by_cases hl : a < k
      · refine ⟨?_, ?_⟩
        · simp only [setCell, if_neg hk, if_pos hl, List.pairwise_cons]
          refine ⟨?_, hp, hr⟩
          intro c hc; rcases List.mem_cons.mp hc with hc | hc
          · subst hc; exact hl
          · exact Nat.lt_trans hl (hp c hc)
        · intro c hc; simpa [setCell, hk, hl] using hc
      · refine ⟨?_, ?_⟩
        · simp only [setCell, if_neg hk, if_neg hl, List.pairwise_cons]
          refine ⟨?_, i1⟩
          intro c hc; rcases i2 c hc with hc | hc
          · subst hc; exact Nat.lt_of_le_of_ne (Nat.le_of_not_lt hl) hk
          · exact hp c hc
        · intro c hc
          simp only [setCell, if_neg hk, if_neg hl, List.mem_cons] at hc
          rcases hc with hc | hc
          · simp [hc]
          · rcases i2 c hc with hc | hc <;> simp [hc]

/-- The canonical form as a proposition. -/
theorem Mem.wf_iff (m : Mem) : m.wf = true ↔
    m.cells.Pairwise (fun a b => a.1 < b.1) ∧ ∀ c ∈ m.cells, c.2 ≠ 0 ∧ ∀ r ∈ m.free, r.has c.1 = false := by
  simp [Mem.wf]

theorem has_of_mem_cut {rs : List FreeRange} {lo hi b : Nat} {q : FreeRange} (hq : q ∈ rs.flatMap (FreeRange.cut lo hi))
    (h : q.has b = true) : (lo ≤ b → hi ≤ b) ∧ ∃ r ∈ rs, r.has b = true := by
  simp only [List.mem_flatMap] at hq
  obtain ⟨r, hr, hqr⟩ := hq
  have hh := FreeRange.cut_has lo hi r b
  have : (FreeRange.cut lo hi r).any (fun q => q.has b) = true := List.any_eq_true.mpr ⟨q, hqr, h⟩
  rw [this] at hh
  have hh := hh.symm
  simp only [Bool.and_eq_true, Bool.not_eq_true', Bool.and_eq_false_iff, decide_eq_false_iff_not] at hh
  exact ⟨by intro h1; rcases hh.2 with h2 | h2 <;> omega, r, hr, hh.1⟩

theorem Mem.wf_write (m : Mem) (a : Nat) (v : Byte) (h : m.wf = true) : (m.write a v).wf = true := by
  rw [Mem.wf_iff] at h ⊢
  obtain ⟨h1, h2⟩ := h
  by_cases hv : v = 0
  · refine ⟨?_, ?_⟩
    · simp only [Mem.write, if_pos hv]; exact h1.filter _
    · intro c hc
      simp only [Mem.write, if_pos hv, List.mem_filter] at hc
      refine ⟨(h2 c hc.1).1, ?_⟩
      intro q hq
      simp only [Mem.write] at hq
      by_cases hb : q.has c.1 = true
      · obtain ⟨_, r, hr, hrb⟩ := has_of_mem_cut hq hb
        rw [(h2 c hc.1).2 r hr] at hrb; exact absurd hrb (by simp)
      · simpa using hb
  · obtain ⟨p1, p2⟩ := setCell_pairwise m.cells a v h1
    refine ⟨by simpa only [Mem.write, if_neg hv] using p1, ?_⟩
    intro c hc
    simp only [Mem.write, if_neg hv] at hc
    have hcut : ∀ q ∈ m.free.flatMap (FreeRange.cut a (a + 1)), q.has a = false := by
      intro q hq
      by_cases hb : q.has a = true
      · have := (has_of_mem_cut hq hb).1 (Nat.le_refl a); omega
      · simpa using hb
    rcases p2 c hc with rfl | hm
    · exact ⟨hv, hcut⟩
    · refine ⟨(h2 c hm).1, ?_⟩
      intro q hq
      by_cases hb : q.has c.1 = true
      · obtain ⟨_, r, hr, hrb⟩ := has_of_mem_cut hq hb
        rw [(h2 c hm).2 r hr] at hrb; exact absurd hrb (by simp)
      · simpa using hb

theorem Mem.wf_zero (m : Mem) (lo hi : Nat) (h : m.wf = true) : (m.zero lo hi).wf = true := by
  rw [Mem.wf_iff] at h ⊢
  refine ⟨h.1.filter _, ?_⟩
  intro c hc
  simp only [Mem.zero, List.mem_filter] at hc
  refine ⟨(h.2 c hc.1).1, ?_⟩
  intro q hq
  by_cases hb : q.has c.1 = true
  · obtain ⟨_, r, hr, hrb⟩ := has_of_mem_cut hq hb
    rw [(h.2 c hc.1).2 r hr] at hrb; exact absurd hrb (by simp)
  · simpa using hb

theorem Mem.wf_forget (m : Mem) (lo hi stamp : Nat) (h : m.wf = true) : (m.forget lo hi stamp).wf = true := by
  have hz := Mem.wf_zero m lo hi h
  rw [Mem.wf_iff] at hz ⊢
  refine ⟨hz.1, ?_⟩
  intro c hc
  refine ⟨(hz.2 c hc).1, ?_⟩
  intro q hq
  simp only [Mem.forget] at hq
  split at hq
  · rcases List.mem_cons.mp hq with rfl | hq
    · simp only [Mem.forget, Mem.zero, List.mem_filter] at hc
      simp [FreeRange.has]; simp at hc; omega
    · exact (hz.2 c hc).2 q hq
  · exact (hz.2 c hc).2 q hq

theorem Mem.wf_writeBytes (m : Mem) (a : Nat) (bs : List Byte) (h : m.wf = true) : (m.writeBytes a bs).wf = true := by
  induction bs generalizing m a with
  | nil => exact h
  | cons b rest ih => exact ih _ _ (Mem.wf_write m a b h)

theorem Mem.wf_writeLE (m : Mem) (a n v : Nat) (h : m.wf = true) : (m.writeLE a n v).wf = true := Mem.wf_writeBytes m a _ h

@[simp] theorem Mem.wf_empty : ({} : Mem).wf = true := by decide

end Sys2Proof.Machine
end

