-- ==== Sys2Proof/Laws/State.lean ====
section
/-! SUPPORT. The updates of the state: what each leaves unchanged (one simp lemma per field), what a read finds after each, what
the shared operations of the sequencer, the log and the fault sweep do. -/

namespace Sys2Proof.Machine

variable (s : State)

/-! ## Fields an update leaves -/

@[simp] theorem setCluster_pacing (k : Nat) (v : Cluster) : (s.setCluster k v).pacing = s.pacing := rfl
@[simp] theorem setCluster_cores (k : Nat) (v : Cluster) : (s.setCluster k v).cores = s.cores := rfl
@[simp] theorem setCluster_ms (k : Nat) (v : Cluster) : (s.setCluster k v).ms = s.ms := rfl
@[simp] theorem setCluster_car (k : Nat) (v : Cluster) : (s.setCluster k v).car = s.car := rfl
@[simp] theorem setCluster_net (k : Nat) (v : Cluster) : (s.setCluster k v).net = s.net := rfl
@[simp] theorem setCluster_hub (k : Nat) (v : Cluster) : (s.setCluster k v).hub = s.hub := rfl
@[simp] theorem setCluster_pwr (k : Nat) (v : Cluster) : (s.setCluster k v).pwr = s.pwr := rfl
@[simp] theorem setCluster_enc (k : Nat) (v : Cluster) : (s.setCluster k v).enc = s.enc := rfl
@[simp] theorem setCluster_por (k : Nat) (v : Cluster) : (s.setCluster k v).por = s.por := rfl
@[simp] theorem setCluster_boot (k : Nat) (v : Cluster) : (s.setCluster k v).boot = s.boot := rfl
@[simp] theorem setCluster_draws (k : Nat) (v : Cluster) : (s.setCluster k v).draws = s.draws := rfl
@[simp] theorem setCluster_out (k : Nat) (v : Cluster) : (s.setCluster k v).out = s.out := rfl
@[simp] theorem setCluster_pending (k : Nat) (v : Cluster) : (s.setCluster k v).pending = s.pending := rfl

@[simp] theorem modCluster_pacing (k : Nat) (f : Cluster → Cluster) : (s.modCluster k f).pacing = s.pacing := rfl
@[simp] theorem modCluster_cores (k : Nat) (f : Cluster → Cluster) : (s.modCluster k f).cores = s.cores := rfl
@[simp] theorem modCluster_ms (k : Nat) (f : Cluster → Cluster) : (s.modCluster k f).ms = s.ms := rfl
@[simp] theorem modCluster_car (k : Nat) (f : Cluster → Cluster) : (s.modCluster k f).car = s.car := rfl
@[simp] theorem modCluster_net (k : Nat) (f : Cluster → Cluster) : (s.modCluster k f).net = s.net := rfl
@[simp] theorem modCluster_hub (k : Nat) (f : Cluster → Cluster) : (s.modCluster k f).hub = s.hub := rfl
@[simp] theorem modCluster_pwr (k : Nat) (f : Cluster → Cluster) : (s.modCluster k f).pwr = s.pwr := rfl
@[simp] theorem modCluster_enc (k : Nat) (f : Cluster → Cluster) : (s.modCluster k f).enc = s.enc := rfl
@[simp] theorem modCluster_por (k : Nat) (f : Cluster → Cluster) : (s.modCluster k f).por = s.por := rfl
@[simp] theorem modCluster_boot (k : Nat) (f : Cluster → Cluster) : (s.modCluster k f).boot = s.boot := rfl
@[simp] theorem modCluster_draws (k : Nat) (f : Cluster → Cluster) : (s.modCluster k f).draws = s.draws := rfl
@[simp] theorem modCluster_out (k : Nat) (f : Cluster → Cluster) : (s.modCluster k f).out = s.out := rfl
@[simp] theorem modCluster_pending (k : Nat) (f : Cluster → Cluster) : (s.modCluster k f).pending = s.pending := rfl

@[simp] theorem setSeq_pacing (k : Nat) (q : Seq) : (s.setSeq k q).pacing = s.pacing := rfl
@[simp] theorem setSeq_cores (k : Nat) (q : Seq) : (s.setSeq k q).cores = s.cores := rfl
@[simp] theorem setSeq_ms (k : Nat) (q : Seq) : (s.setSeq k q).ms = s.ms := rfl
@[simp] theorem setSeq_car (k : Nat) (q : Seq) : (s.setSeq k q).car = s.car := rfl
@[simp] theorem setSeq_net (k : Nat) (q : Seq) : (s.setSeq k q).net = s.net := rfl
@[simp] theorem setSeq_hub (k : Nat) (q : Seq) : (s.setSeq k q).hub = s.hub := rfl
@[simp] theorem setSeq_pwr (k : Nat) (q : Seq) : (s.setSeq k q).pwr = s.pwr := rfl
@[simp] theorem setSeq_enc (k : Nat) (q : Seq) : (s.setSeq k q).enc = s.enc := rfl
@[simp] theorem setSeq_por (k : Nat) (q : Seq) : (s.setSeq k q).por = s.por := rfl
@[simp] theorem setSeq_boot (k : Nat) (q : Seq) : (s.setSeq k q).boot = s.boot := rfl
@[simp] theorem setSeq_draws (k : Nat) (q : Seq) : (s.setSeq k q).draws = s.draws := rfl
@[simp] theorem setSeq_out (k : Nat) (q : Seq) : (s.setSeq k q).out = s.out := rfl
@[simp] theorem setSeq_pending (k : Nat) (q : Seq) : (s.setSeq k q).pending = s.pending := rfl

@[simp] theorem bumpCluster_pacing (k i n : Nat) : (s.bumpCluster k i n).pacing = s.pacing := rfl
@[simp] theorem bumpCluster_cores (k i n : Nat) : (s.bumpCluster k i n).cores = s.cores := rfl
@[simp] theorem bumpCluster_ms (k i n : Nat) : (s.bumpCluster k i n).ms = s.ms := rfl
@[simp] theorem bumpCluster_car (k i n : Nat) : (s.bumpCluster k i n).car = s.car := rfl
@[simp] theorem bumpCluster_net (k i n : Nat) : (s.bumpCluster k i n).net = s.net := rfl
@[simp] theorem bumpCluster_hub (k i n : Nat) : (s.bumpCluster k i n).hub = s.hub := rfl
@[simp] theorem bumpCluster_pwr (k i n : Nat) : (s.bumpCluster k i n).pwr = s.pwr := rfl
@[simp] theorem bumpCluster_enc (k i n : Nat) : (s.bumpCluster k i n).enc = s.enc := rfl
@[simp] theorem bumpCluster_por (k i n : Nat) : (s.bumpCluster k i n).por = s.por := rfl
@[simp] theorem bumpCluster_boot (k i n : Nat) : (s.bumpCluster k i n).boot = s.boot := rfl
@[simp] theorem bumpCluster_draws (k i n : Nat) : (s.bumpCluster k i n).draws = s.draws := rfl
@[simp] theorem bumpCluster_out (k i n : Nat) : (s.bumpCluster k i n).out = s.out := rfl
@[simp] theorem bumpCluster_pending (k i n : Nat) : (s.bumpCluster k i n).pending = s.pending := rfl

@[simp] theorem setSync_pacing (k i : Nat) (v : Word) : (s.setSync k i v).pacing = s.pacing := rfl
@[simp] theorem setSync_cores (k i : Nat) (v : Word) : (s.setSync k i v).cores = s.cores := rfl
@[simp] theorem setSync_ms (k i : Nat) (v : Word) : (s.setSync k i v).ms = s.ms := rfl
@[simp] theorem setSync_car (k i : Nat) (v : Word) : (s.setSync k i v).car = s.car := rfl
@[simp] theorem setSync_net (k i : Nat) (v : Word) : (s.setSync k i v).net = s.net := rfl
@[simp] theorem setSync_hub (k i : Nat) (v : Word) : (s.setSync k i v).hub = s.hub := rfl
@[simp] theorem setSync_pwr (k i : Nat) (v : Word) : (s.setSync k i v).pwr = s.pwr := rfl
@[simp] theorem setSync_enc (k i : Nat) (v : Word) : (s.setSync k i v).enc = s.enc := rfl
@[simp] theorem setSync_por (k i : Nat) (v : Word) : (s.setSync k i v).por = s.por := rfl
@[simp] theorem setSync_boot (k i : Nat) (v : Word) : (s.setSync k i v).boot = s.boot := rfl
@[simp] theorem setSync_draws (k i : Nat) (v : Word) : (s.setSync k i v).draws = s.draws := rfl
@[simp] theorem setSync_out (k i : Nat) (v : Word) : (s.setSync k i v).out = s.out := rfl
@[simp] theorem setSync_pending (k i : Nat) (v : Word) : (s.setSync k i v).pending = s.pending := rfl

@[simp] theorem setCore_pacing (c : Nat) (v : Core) : (s.setCore c v).pacing = s.pacing := rfl
@[simp] theorem setCore_clusters (c : Nat) (v : Core) : (s.setCore c v).clusters = s.clusters := rfl
@[simp] theorem setCore_ms (c : Nat) (v : Core) : (s.setCore c v).ms = s.ms := rfl
@[simp] theorem setCore_car (c : Nat) (v : Core) : (s.setCore c v).car = s.car := rfl
@[simp] theorem setCore_net (c : Nat) (v : Core) : (s.setCore c v).net = s.net := rfl
@[simp] theorem setCore_hub (c : Nat) (v : Core) : (s.setCore c v).hub = s.hub := rfl
@[simp] theorem setCore_pwr (c : Nat) (v : Core) : (s.setCore c v).pwr = s.pwr := rfl
@[simp] theorem setCore_enc (c : Nat) (v : Core) : (s.setCore c v).enc = s.enc := rfl
@[simp] theorem setCore_por (c : Nat) (v : Core) : (s.setCore c v).por = s.por := rfl
@[simp] theorem setCore_boot (c : Nat) (v : Core) : (s.setCore c v).boot = s.boot := rfl
@[simp] theorem setCore_draws (c : Nat) (v : Core) : (s.setCore c v).draws = s.draws := rfl
@[simp] theorem setCore_out (c : Nat) (v : Core) : (s.setCore c v).out = s.out := rfl
@[simp] theorem setCore_pending (c : Nat) (v : Core) : (s.setCore c v).pending = s.pending := rfl

@[simp] theorem modCore_pacing (c : Nat) (f : Core → Core) : (s.modCore c f).pacing = s.pacing := rfl
@[simp] theorem modCore_clusters (c : Nat) (f : Core → Core) : (s.modCore c f).clusters = s.clusters := rfl
@[simp] theorem modCore_ms (c : Nat) (f : Core → Core) : (s.modCore c f).ms = s.ms := rfl
@[simp] theorem modCore_car (c : Nat) (f : Core → Core) : (s.modCore c f).car = s.car := rfl
@[simp] theorem modCore_net (c : Nat) (f : Core → Core) : (s.modCore c f).net = s.net := rfl
@[simp] theorem modCore_hub (c : Nat) (f : Core → Core) : (s.modCore c f).hub = s.hub := rfl
@[simp] theorem modCore_pwr (c : Nat) (f : Core → Core) : (s.modCore c f).pwr = s.pwr := rfl
@[simp] theorem modCore_enc (c : Nat) (f : Core → Core) : (s.modCore c f).enc = s.enc := rfl
@[simp] theorem modCore_por (c : Nat) (f : Core → Core) : (s.modCore c f).por = s.por := rfl
@[simp] theorem modCore_boot (c : Nat) (f : Core → Core) : (s.modCore c f).boot = s.boot := rfl
@[simp] theorem modCore_draws (c : Nat) (f : Core → Core) : (s.modCore c f).draws = s.draws := rfl
@[simp] theorem modCore_out (c : Nat) (f : Core → Core) : (s.modCore c f).out = s.out := rfl
@[simp] theorem modCore_pending (c : Nat) (f : Core → Core) : (s.modCore c f).pending = s.pending := rfl

@[simp] theorem bumpCore_pacing (c i n : Nat) : (s.bumpCore c i n).pacing = s.pacing := rfl
@[simp] theorem bumpCore_clusters (c i n : Nat) : (s.bumpCore c i n).clusters = s.clusters := rfl
@[simp] theorem bumpCore_ms (c i n : Nat) : (s.bumpCore c i n).ms = s.ms := rfl
@[simp] theorem bumpCore_car (c i n : Nat) : (s.bumpCore c i n).car = s.car := rfl
@[simp] theorem bumpCore_net (c i n : Nat) : (s.bumpCore c i n).net = s.net := rfl
@[simp] theorem bumpCore_hub (c i n : Nat) : (s.bumpCore c i n).hub = s.hub := rfl
@[simp] theorem bumpCore_pwr (c i n : Nat) : (s.bumpCore c i n).pwr = s.pwr := rfl
@[simp] theorem bumpCore_enc (c i n : Nat) : (s.bumpCore c i n).enc = s.enc := rfl
@[simp] theorem bumpCore_por (c i n : Nat) : (s.bumpCore c i n).por = s.por := rfl
@[simp] theorem bumpCore_boot (c i n : Nat) : (s.bumpCore c i n).boot = s.boot := rfl
@[simp] theorem bumpCore_draws (c i n : Nat) : (s.bumpCore c i n).draws = s.draws := rfl
@[simp] theorem bumpCore_out (c i n : Nat) : (s.bumpCore c i n).out = s.out := rfl
@[simp] theorem bumpCore_pending (c i n : Nat) : (s.bumpCore c i n).pending = s.pending := rfl

@[simp] theorem setProg_pacing (c i : Nat) (v : Word) : (s.setProg c i v).pacing = s.pacing := rfl
@[simp] theorem setProg_clusters (c i : Nat) (v : Word) : (s.setProg c i v).clusters = s.clusters := rfl
@[simp] theorem setProg_ms (c i : Nat) (v : Word) : (s.setProg c i v).ms = s.ms := rfl
@[simp] theorem setProg_car (c i : Nat) (v : Word) : (s.setProg c i v).car = s.car := rfl
@[simp] theorem setProg_net (c i : Nat) (v : Word) : (s.setProg c i v).net = s.net := rfl
@[simp] theorem setProg_hub (c i : Nat) (v : Word) : (s.setProg c i v).hub = s.hub := rfl
@[simp] theorem setProg_pwr (c i : Nat) (v : Word) : (s.setProg c i v).pwr = s.pwr := rfl
@[simp] theorem setProg_enc (c i : Nat) (v : Word) : (s.setProg c i v).enc = s.enc := rfl
@[simp] theorem setProg_por (c i : Nat) (v : Word) : (s.setProg c i v).por = s.por := rfl
@[simp] theorem setProg_boot (c i : Nat) (v : Word) : (s.setProg c i v).boot = s.boot := rfl
@[simp] theorem setProg_draws (c i : Nat) (v : Word) : (s.setProg c i v).draws = s.draws := rfl
@[simp] theorem setProg_out (c i : Nat) (v : Word) : (s.setProg c i v).out = s.out := rfl
@[simp] theorem setProg_pending (c i : Nat) (v : Word) : (s.setProg c i v).pending = s.pending := rfl

@[simp] theorem modStack_pacing (m : Nat) (f : Stack → Stack) : (s.modStack m f).pacing = s.pacing := rfl
@[simp] theorem modStack_clusters (m : Nat) (f : Stack → Stack) : (s.modStack m f).clusters = s.clusters := rfl
@[simp] theorem modStack_cores (m : Nat) (f : Stack → Stack) : (s.modStack m f).cores = s.cores := rfl
@[simp] theorem modStack_car (m : Nat) (f : Stack → Stack) : (s.modStack m f).car = s.car := rfl
@[simp] theorem modStack_net (m : Nat) (f : Stack → Stack) : (s.modStack m f).net = s.net := rfl
@[simp] theorem modStack_hub (m : Nat) (f : Stack → Stack) : (s.modStack m f).hub = s.hub := rfl
@[simp] theorem modStack_pwr (m : Nat) (f : Stack → Stack) : (s.modStack m f).pwr = s.pwr := rfl
@[simp] theorem modStack_enc (m : Nat) (f : Stack → Stack) : (s.modStack m f).enc = s.enc := rfl
@[simp] theorem modStack_por (m : Nat) (f : Stack → Stack) : (s.modStack m f).por = s.por := rfl
@[simp] theorem modStack_boot (m : Nat) (f : Stack → Stack) : (s.modStack m f).boot = s.boot := rfl
@[simp] theorem modStack_draws (m : Nat) (f : Stack → Stack) : (s.modStack m f).draws = s.draws := rfl
@[simp] theorem modStack_out (m : Nat) (f : Stack → Stack) : (s.modStack m f).out = s.out := rfl
@[simp] theorem modStack_pending (m : Nat) (f : Stack → Stack) : (s.modStack m f).pending = s.pending := rfl

@[simp] theorem setMem_pacing (m : Mem) : (s.setMem m).pacing = s.pacing := rfl
@[simp] theorem setMem_clusters (m : Mem) : (s.setMem m).clusters = s.clusters := rfl
@[simp] theorem setMem_cores (m : Mem) : (s.setMem m).cores = s.cores := rfl
@[simp] theorem setMem_car (m : Mem) : (s.setMem m).car = s.car := rfl
@[simp] theorem setMem_net (m : Mem) : (s.setMem m).net = s.net := rfl
@[simp] theorem setMem_hub (m : Mem) : (s.setMem m).hub = s.hub := rfl
@[simp] theorem setMem_pwr (m : Mem) : (s.setMem m).pwr = s.pwr := rfl
@[simp] theorem setMem_enc (m : Mem) : (s.setMem m).enc = s.enc := rfl
@[simp] theorem setMem_por (m : Mem) : (s.setMem m).por = s.por := rfl
@[simp] theorem setMem_boot (m : Mem) : (s.setMem m).boot = s.boot := rfl
@[simp] theorem setMem_draws (m : Mem) : (s.setMem m).draws = s.draws := rfl
@[simp] theorem setMem_out (m : Mem) : (s.setMem m).out = s.out := rfl
@[simp] theorem setMem_pending (m : Mem) : (s.setMem m).pending = s.pending := rfl

@[simp] theorem withMs_pacing (f : MemSys → MemSys) : (s.withMs f).pacing = s.pacing := rfl
@[simp] theorem withMs_clusters (f : MemSys → MemSys) : (s.withMs f).clusters = s.clusters := rfl
@[simp] theorem withMs_cores (f : MemSys → MemSys) : (s.withMs f).cores = s.cores := rfl
@[simp] theorem withMs_car (f : MemSys → MemSys) : (s.withMs f).car = s.car := rfl
@[simp] theorem withMs_net (f : MemSys → MemSys) : (s.withMs f).net = s.net := rfl
@[simp] theorem withMs_hub (f : MemSys → MemSys) : (s.withMs f).hub = s.hub := rfl
@[simp] theorem withMs_pwr (f : MemSys → MemSys) : (s.withMs f).pwr = s.pwr := rfl
@[simp] theorem withMs_enc (f : MemSys → MemSys) : (s.withMs f).enc = s.enc := rfl
@[simp] theorem withMs_por (f : MemSys → MemSys) : (s.withMs f).por = s.por := rfl
@[simp] theorem withMs_boot (f : MemSys → MemSys) : (s.withMs f).boot = s.boot := rfl
@[simp] theorem withMs_draws (f : MemSys → MemSys) : (s.withMs f).draws = s.draws := rfl
@[simp] theorem withMs_out (f : MemSys → MemSys) : (s.withMs f).out = s.out := rfl
@[simp] theorem withMs_pending (f : MemSys → MemSys) : (s.withMs f).pending = s.pending := rfl

@[simp] theorem setSlot_pacing (i : Nat) (v : Slot) : (s.setSlot i v).pacing = s.pacing := rfl
@[simp] theorem setSlot_clusters (i : Nat) (v : Slot) : (s.setSlot i v).clusters = s.clusters := rfl
@[simp] theorem setSlot_cores (i : Nat) (v : Slot) : (s.setSlot i v).cores = s.cores := rfl
@[simp] theorem setSlot_ms (i : Nat) (v : Slot) : (s.setSlot i v).ms = s.ms := rfl
@[simp] theorem setSlot_net (i : Nat) (v : Slot) : (s.setSlot i v).net = s.net := rfl
@[simp] theorem setSlot_hub (i : Nat) (v : Slot) : (s.setSlot i v).hub = s.hub := rfl
@[simp] theorem setSlot_pwr (i : Nat) (v : Slot) : (s.setSlot i v).pwr = s.pwr := rfl
@[simp] theorem setSlot_enc (i : Nat) (v : Slot) : (s.setSlot i v).enc = s.enc := rfl
@[simp] theorem setSlot_por (i : Nat) (v : Slot) : (s.setSlot i v).por = s.por := rfl
@[simp] theorem setSlot_boot (i : Nat) (v : Slot) : (s.setSlot i v).boot = s.boot := rfl
@[simp] theorem setSlot_draws (i : Nat) (v : Slot) : (s.setSlot i v).draws = s.draws := rfl
@[simp] theorem setSlot_out (i : Nat) (v : Slot) : (s.setSlot i v).out = s.out := rfl
@[simp] theorem setSlot_pending (i : Nat) (v : Slot) : (s.setSlot i v).pending = s.pending := rfl

@[simp] theorem modSlot_pacing (i : Nat) (f : Slot → Slot) : (s.modSlot i f).pacing = s.pacing := rfl
@[simp] theorem modSlot_clusters (i : Nat) (f : Slot → Slot) : (s.modSlot i f).clusters = s.clusters := rfl
@[simp] theorem modSlot_cores (i : Nat) (f : Slot → Slot) : (s.modSlot i f).cores = s.cores := rfl
@[simp] theorem modSlot_ms (i : Nat) (f : Slot → Slot) : (s.modSlot i f).ms = s.ms := rfl
@[simp] theorem modSlot_net (i : Nat) (f : Slot → Slot) : (s.modSlot i f).net = s.net := rfl
@[simp] theorem modSlot_hub (i : Nat) (f : Slot → Slot) : (s.modSlot i f).hub = s.hub := rfl
@[simp] theorem modSlot_pwr (i : Nat) (f : Slot → Slot) : (s.modSlot i f).pwr = s.pwr := rfl
@[simp] theorem modSlot_enc (i : Nat) (f : Slot → Slot) : (s.modSlot i f).enc = s.enc := rfl
@[simp] theorem modSlot_por (i : Nat) (f : Slot → Slot) : (s.modSlot i f).por = s.por := rfl
@[simp] theorem modSlot_boot (i : Nat) (f : Slot → Slot) : (s.modSlot i f).boot = s.boot := rfl
@[simp] theorem modSlot_draws (i : Nat) (f : Slot → Slot) : (s.modSlot i f).draws = s.draws := rfl
@[simp] theorem modSlot_out (i : Nat) (f : Slot → Slot) : (s.modSlot i f).out = s.out := rfl
@[simp] theorem modSlot_pending (i : Nat) (f : Slot → Slot) : (s.modSlot i f).pending = s.pending := rfl

@[simp] theorem modFlashCh_pacing (i : Nat) (f : FlashChannel → FlashChannel) : (s.modFlashCh i f).pacing = s.pacing := rfl
@[simp] theorem modFlashCh_clusters (i : Nat) (f : FlashChannel → FlashChannel) : (s.modFlashCh i f).clusters = s.clusters := rfl
@[simp] theorem modFlashCh_cores (i : Nat) (f : FlashChannel → FlashChannel) : (s.modFlashCh i f).cores = s.cores := rfl
@[simp] theorem modFlashCh_ms (i : Nat) (f : FlashChannel → FlashChannel) : (s.modFlashCh i f).ms = s.ms := rfl
@[simp] theorem modFlashCh_net (i : Nat) (f : FlashChannel → FlashChannel) : (s.modFlashCh i f).net = s.net := rfl
@[simp] theorem modFlashCh_hub (i : Nat) (f : FlashChannel → FlashChannel) : (s.modFlashCh i f).hub = s.hub := rfl
@[simp] theorem modFlashCh_pwr (i : Nat) (f : FlashChannel → FlashChannel) : (s.modFlashCh i f).pwr = s.pwr := rfl
@[simp] theorem modFlashCh_enc (i : Nat) (f : FlashChannel → FlashChannel) : (s.modFlashCh i f).enc = s.enc := rfl
@[simp] theorem modFlashCh_por (i : Nat) (f : FlashChannel → FlashChannel) : (s.modFlashCh i f).por = s.por := rfl
@[simp] theorem modFlashCh_boot (i : Nat) (f : FlashChannel → FlashChannel) : (s.modFlashCh i f).boot = s.boot := rfl
@[simp] theorem modFlashCh_draws (i : Nat) (f : FlashChannel → FlashChannel) : (s.modFlashCh i f).draws = s.draws := rfl
@[simp] theorem modFlashCh_out (i : Nat) (f : FlashChannel → FlashChannel) : (s.modFlashCh i f).out = s.out := rfl
@[simp] theorem modFlashCh_pending (i : Nat) (f : FlashChannel → FlashChannel) : (s.modFlashCh i f).pending = s.pending := rfl

@[simp] theorem setPort_pacing (p : Nat) (v : Port) : (s.setPort p v).pacing = s.pacing := rfl
@[simp] theorem setPort_clusters (p : Nat) (v : Port) : (s.setPort p v).clusters = s.clusters := rfl
@[simp] theorem setPort_cores (p : Nat) (v : Port) : (s.setPort p v).cores = s.cores := rfl
@[simp] theorem setPort_ms (p : Nat) (v : Port) : (s.setPort p v).ms = s.ms := rfl
@[simp] theorem setPort_car (p : Nat) (v : Port) : (s.setPort p v).car = s.car := rfl
@[simp] theorem setPort_hub (p : Nat) (v : Port) : (s.setPort p v).hub = s.hub := rfl
@[simp] theorem setPort_pwr (p : Nat) (v : Port) : (s.setPort p v).pwr = s.pwr := rfl
@[simp] theorem setPort_enc (p : Nat) (v : Port) : (s.setPort p v).enc = s.enc := rfl
@[simp] theorem setPort_por (p : Nat) (v : Port) : (s.setPort p v).por = s.por := rfl
@[simp] theorem setPort_boot (p : Nat) (v : Port) : (s.setPort p v).boot = s.boot := rfl
@[simp] theorem setPort_draws (p : Nat) (v : Port) : (s.setPort p v).draws = s.draws := rfl
@[simp] theorem setPort_out (p : Nat) (v : Port) : (s.setPort p v).out = s.out := rfl
@[simp] theorem setPort_pending (p : Nat) (v : Port) : (s.setPort p v).pending = s.pending := rfl

@[simp] theorem modPort_pacing (p : Nat) (f : Port → Port) : (s.modPort p f).pacing = s.pacing := rfl
@[simp] theorem modPort_clusters (p : Nat) (f : Port → Port) : (s.modPort p f).clusters = s.clusters := rfl
@[simp] theorem modPort_cores (p : Nat) (f : Port → Port) : (s.modPort p f).cores = s.cores := rfl
@[simp] theorem modPort_ms (p : Nat) (f : Port → Port) : (s.modPort p f).ms = s.ms := rfl
@[simp] theorem modPort_car (p : Nat) (f : Port → Port) : (s.modPort p f).car = s.car := rfl
@[simp] theorem modPort_hub (p : Nat) (f : Port → Port) : (s.modPort p f).hub = s.hub := rfl
@[simp] theorem modPort_pwr (p : Nat) (f : Port → Port) : (s.modPort p f).pwr = s.pwr := rfl
@[simp] theorem modPort_enc (p : Nat) (f : Port → Port) : (s.modPort p f).enc = s.enc := rfl
@[simp] theorem modPort_por (p : Nat) (f : Port → Port) : (s.modPort p f).por = s.por := rfl
@[simp] theorem modPort_boot (p : Nat) (f : Port → Port) : (s.modPort p f).boot = s.boot := rfl
@[simp] theorem modPort_draws (p : Nat) (f : Port → Port) : (s.modPort p f).draws = s.draws := rfl
@[simp] theorem modPort_out (p : Nat) (f : Port → Port) : (s.modPort p f).out = s.out := rfl
@[simp] theorem modPort_pending (p : Nat) (f : Port → Port) : (s.modPort p f).pending = s.pending := rfl

@[simp] theorem modRing_pacing (r : Nat) (f : Ring → Ring) : (s.modRing r f).pacing = s.pacing := rfl
@[simp] theorem modRing_clusters (r : Nat) (f : Ring → Ring) : (s.modRing r f).clusters = s.clusters := rfl
@[simp] theorem modRing_cores (r : Nat) (f : Ring → Ring) : (s.modRing r f).cores = s.cores := rfl
@[simp] theorem modRing_ms (r : Nat) (f : Ring → Ring) : (s.modRing r f).ms = s.ms := rfl
@[simp] theorem modRing_car (r : Nat) (f : Ring → Ring) : (s.modRing r f).car = s.car := rfl
@[simp] theorem modRing_hub (r : Nat) (f : Ring → Ring) : (s.modRing r f).hub = s.hub := rfl
@[simp] theorem modRing_pwr (r : Nat) (f : Ring → Ring) : (s.modRing r f).pwr = s.pwr := rfl
@[simp] theorem modRing_enc (r : Nat) (f : Ring → Ring) : (s.modRing r f).enc = s.enc := rfl
@[simp] theorem modRing_por (r : Nat) (f : Ring → Ring) : (s.modRing r f).por = s.por := rfl
@[simp] theorem modRing_boot (r : Nat) (f : Ring → Ring) : (s.modRing r f).boot = s.boot := rfl
@[simp] theorem modRing_draws (r : Nat) (f : Ring → Ring) : (s.modRing r f).draws = s.draws := rfl
@[simp] theorem modRing_out (r : Nat) (f : Ring → Ring) : (s.modRing r f).out = s.out := rfl
@[simp] theorem modRing_pending (r : Nat) (f : Ring → Ring) : (s.modRing r f).pending = s.pending := rfl

@[simp] theorem modGroup_pacing (g : Nat) (f : Group → Group) : (s.modGroup g f).pacing = s.pacing := rfl
@[simp] theorem modGroup_clusters (g : Nat) (f : Group → Group) : (s.modGroup g f).clusters = s.clusters := rfl
@[simp] theorem modGroup_cores (g : Nat) (f : Group → Group) : (s.modGroup g f).cores = s.cores := rfl
@[simp] theorem modGroup_ms (g : Nat) (f : Group → Group) : (s.modGroup g f).ms = s.ms := rfl
@[simp] theorem modGroup_car (g : Nat) (f : Group → Group) : (s.modGroup g f).car = s.car := rfl
@[simp] theorem modGroup_hub (g : Nat) (f : Group → Group) : (s.modGroup g f).hub = s.hub := rfl
@[simp] theorem modGroup_pwr (g : Nat) (f : Group → Group) : (s.modGroup g f).pwr = s.pwr := rfl
@[simp] theorem modGroup_enc (g : Nat) (f : Group → Group) : (s.modGroup g f).enc = s.enc := rfl
@[simp] theorem modGroup_por (g : Nat) (f : Group → Group) : (s.modGroup g f).por = s.por := rfl
@[simp] theorem modGroup_boot (g : Nat) (f : Group → Group) : (s.modGroup g f).boot = s.boot := rfl
@[simp] theorem modGroup_draws (g : Nat) (f : Group → Group) : (s.modGroup g f).draws = s.draws := rfl
@[simp] theorem modGroup_out (g : Nat) (f : Group → Group) : (s.modGroup g f).out = s.out := rfl
@[simp] theorem modGroup_pending (g : Nat) (f : Group → Group) : (s.modGroup g f).pending = s.pending := rfl

@[simp] theorem withNet_pacing (f : Net → Net) : (s.withNet f).pacing = s.pacing := rfl
@[simp] theorem withNet_clusters (f : Net → Net) : (s.withNet f).clusters = s.clusters := rfl
@[simp] theorem withNet_cores (f : Net → Net) : (s.withNet f).cores = s.cores := rfl
@[simp] theorem withNet_ms (f : Net → Net) : (s.withNet f).ms = s.ms := rfl
@[simp] theorem withNet_car (f : Net → Net) : (s.withNet f).car = s.car := rfl
@[simp] theorem withNet_hub (f : Net → Net) : (s.withNet f).hub = s.hub := rfl
@[simp] theorem withNet_pwr (f : Net → Net) : (s.withNet f).pwr = s.pwr := rfl
@[simp] theorem withNet_enc (f : Net → Net) : (s.withNet f).enc = s.enc := rfl
@[simp] theorem withNet_por (f : Net → Net) : (s.withNet f).por = s.por := rfl
@[simp] theorem withNet_boot (f : Net → Net) : (s.withNet f).boot = s.boot := rfl
@[simp] theorem withNet_draws (f : Net → Net) : (s.withNet f).draws = s.draws := rfl
@[simp] theorem withNet_out (f : Net → Net) : (s.withNet f).out = s.out := rfl
@[simp] theorem withNet_pending (f : Net → Net) : (s.withNet f).pending = s.pending := rfl

@[simp] theorem setPair_pacing (n : Nat) (v : Pair) : (s.setPair n v).pacing = s.pacing := rfl
@[simp] theorem setPair_clusters (n : Nat) (v : Pair) : (s.setPair n v).clusters = s.clusters := rfl
@[simp] theorem setPair_cores (n : Nat) (v : Pair) : (s.setPair n v).cores = s.cores := rfl
@[simp] theorem setPair_ms (n : Nat) (v : Pair) : (s.setPair n v).ms = s.ms := rfl
@[simp] theorem setPair_car (n : Nat) (v : Pair) : (s.setPair n v).car = s.car := rfl
@[simp] theorem setPair_net (n : Nat) (v : Pair) : (s.setPair n v).net = s.net := rfl
@[simp] theorem setPair_pwr (n : Nat) (v : Pair) : (s.setPair n v).pwr = s.pwr := rfl
@[simp] theorem setPair_enc (n : Nat) (v : Pair) : (s.setPair n v).enc = s.enc := rfl
@[simp] theorem setPair_por (n : Nat) (v : Pair) : (s.setPair n v).por = s.por := rfl
@[simp] theorem setPair_boot (n : Nat) (v : Pair) : (s.setPair n v).boot = s.boot := rfl
@[simp] theorem setPair_draws (n : Nat) (v : Pair) : (s.setPair n v).draws = s.draws := rfl
@[simp] theorem setPair_out (n : Nat) (v : Pair) : (s.setPair n v).out = s.out := rfl
@[simp] theorem setPair_pending (n : Nat) (v : Pair) : (s.setPair n v).pending = s.pending := rfl

@[simp] theorem modPair_pacing (n : Nat) (f : Pair → Pair) : (s.modPair n f).pacing = s.pacing := rfl
@[simp] theorem modPair_clusters (n : Nat) (f : Pair → Pair) : (s.modPair n f).clusters = s.clusters := rfl
@[simp] theorem modPair_cores (n : Nat) (f : Pair → Pair) : (s.modPair n f).cores = s.cores := rfl
@[simp] theorem modPair_ms (n : Nat) (f : Pair → Pair) : (s.modPair n f).ms = s.ms := rfl
@[simp] theorem modPair_car (n : Nat) (f : Pair → Pair) : (s.modPair n f).car = s.car := rfl
@[simp] theorem modPair_net (n : Nat) (f : Pair → Pair) : (s.modPair n f).net = s.net := rfl
@[simp] theorem modPair_pwr (n : Nat) (f : Pair → Pair) : (s.modPair n f).pwr = s.pwr := rfl
@[simp] theorem modPair_enc (n : Nat) (f : Pair → Pair) : (s.modPair n f).enc = s.enc := rfl
@[simp] theorem modPair_por (n : Nat) (f : Pair → Pair) : (s.modPair n f).por = s.por := rfl
@[simp] theorem modPair_boot (n : Nat) (f : Pair → Pair) : (s.modPair n f).boot = s.boot := rfl
@[simp] theorem modPair_draws (n : Nat) (f : Pair → Pair) : (s.modPair n f).draws = s.draws := rfl
@[simp] theorem modPair_out (n : Nat) (f : Pair → Pair) : (s.modPair n f).out = s.out := rfl
@[simp] theorem modPair_pending (n : Nat) (f : Pair → Pair) : (s.modPair n f).pending = s.pending := rfl

@[simp] theorem setStreamRec_pacing (i : Nat) (v : Stream) : (s.setStreamRec i v).pacing = s.pacing := rfl
@[simp] theorem setStreamRec_clusters (i : Nat) (v : Stream) : (s.setStreamRec i v).clusters = s.clusters := rfl
@[simp] theorem setStreamRec_cores (i : Nat) (v : Stream) : (s.setStreamRec i v).cores = s.cores := rfl
@[simp] theorem setStreamRec_ms (i : Nat) (v : Stream) : (s.setStreamRec i v).ms = s.ms := rfl
@[simp] theorem setStreamRec_car (i : Nat) (v : Stream) : (s.setStreamRec i v).car = s.car := rfl
@[simp] theorem setStreamRec_net (i : Nat) (v : Stream) : (s.setStreamRec i v).net = s.net := rfl
@[simp] theorem setStreamRec_pwr (i : Nat) (v : Stream) : (s.setStreamRec i v).pwr = s.pwr := rfl
@[simp] theorem setStreamRec_enc (i : Nat) (v : Stream) : (s.setStreamRec i v).enc = s.enc := rfl
@[simp] theorem setStreamRec_por (i : Nat) (v : Stream) : (s.setStreamRec i v).por = s.por := rfl
@[simp] theorem setStreamRec_boot (i : Nat) (v : Stream) : (s.setStreamRec i v).boot = s.boot := rfl
@[simp] theorem setStreamRec_draws (i : Nat) (v : Stream) : (s.setStreamRec i v).draws = s.draws := rfl
@[simp] theorem setStreamRec_out (i : Nat) (v : Stream) : (s.setStreamRec i v).out = s.out := rfl
@[simp] theorem setStreamRec_pending (i : Nat) (v : Stream) : (s.setStreamRec i v).pending = s.pending := rfl

@[simp] theorem modJob_pacing (id : JobId) (f : Job → Job) : (s.modJob id f).pacing = s.pacing := rfl
@[simp] theorem modJob_clusters (id : JobId) (f : Job → Job) : (s.modJob id f).clusters = s.clusters := rfl
@[simp] theorem modJob_cores (id : JobId) (f : Job → Job) : (s.modJob id f).cores = s.cores := rfl
@[simp] theorem modJob_ms (id : JobId) (f : Job → Job) : (s.modJob id f).ms = s.ms := rfl
@[simp] theorem modJob_car (id : JobId) (f : Job → Job) : (s.modJob id f).car = s.car := rfl
@[simp] theorem modJob_net (id : JobId) (f : Job → Job) : (s.modJob id f).net = s.net := rfl
@[simp] theorem modJob_pwr (id : JobId) (f : Job → Job) : (s.modJob id f).pwr = s.pwr := rfl
@[simp] theorem modJob_enc (id : JobId) (f : Job → Job) : (s.modJob id f).enc = s.enc := rfl
@[simp] theorem modJob_por (id : JobId) (f : Job → Job) : (s.modJob id f).por = s.por := rfl
@[simp] theorem modJob_boot (id : JobId) (f : Job → Job) : (s.modJob id f).boot = s.boot := rfl
@[simp] theorem modJob_draws (id : JobId) (f : Job → Job) : (s.modJob id f).draws = s.draws := rfl
@[simp] theorem modJob_out (id : JobId) (f : Job → Job) : (s.modJob id f).out = s.out := rfl
@[simp] theorem modJob_pending (id : JobId) (f : Job → Job) : (s.modJob id f).pending = s.pending := rfl

@[simp] theorem dropJob_pacing (id : JobId) : (s.dropJob id).pacing = s.pacing := rfl
@[simp] theorem dropJob_clusters (id : JobId) : (s.dropJob id).clusters = s.clusters := rfl
@[simp] theorem dropJob_cores (id : JobId) : (s.dropJob id).cores = s.cores := rfl
@[simp] theorem dropJob_ms (id : JobId) : (s.dropJob id).ms = s.ms := rfl
@[simp] theorem dropJob_car (id : JobId) : (s.dropJob id).car = s.car := rfl
@[simp] theorem dropJob_net (id : JobId) : (s.dropJob id).net = s.net := rfl
@[simp] theorem dropJob_pwr (id : JobId) : (s.dropJob id).pwr = s.pwr := rfl
@[simp] theorem dropJob_enc (id : JobId) : (s.dropJob id).enc = s.enc := rfl
@[simp] theorem dropJob_por (id : JobId) : (s.dropJob id).por = s.por := rfl
@[simp] theorem dropJob_boot (id : JobId) : (s.dropJob id).boot = s.boot := rfl
@[simp] theorem dropJob_draws (id : JobId) : (s.dropJob id).draws = s.draws := rfl
@[simp] theorem dropJob_out (id : JobId) : (s.dropJob id).out = s.out := rfl
@[simp] theorem dropJob_pending (id : JobId) : (s.dropJob id).pending = s.pending := rfl

@[simp] theorem withHub_pacing (f : Hub → Hub) : (s.withHub f).pacing = s.pacing := rfl
@[simp] theorem withHub_clusters (f : Hub → Hub) : (s.withHub f).clusters = s.clusters := rfl
@[simp] theorem withHub_cores (f : Hub → Hub) : (s.withHub f).cores = s.cores := rfl
@[simp] theorem withHub_ms (f : Hub → Hub) : (s.withHub f).ms = s.ms := rfl
@[simp] theorem withHub_car (f : Hub → Hub) : (s.withHub f).car = s.car := rfl
@[simp] theorem withHub_net (f : Hub → Hub) : (s.withHub f).net = s.net := rfl
@[simp] theorem withHub_pwr (f : Hub → Hub) : (s.withHub f).pwr = s.pwr := rfl
@[simp] theorem withHub_enc (f : Hub → Hub) : (s.withHub f).enc = s.enc := rfl
@[simp] theorem withHub_por (f : Hub → Hub) : (s.withHub f).por = s.por := rfl
@[simp] theorem withHub_boot (f : Hub → Hub) : (s.withHub f).boot = s.boot := rfl
@[simp] theorem withHub_draws (f : Hub → Hub) : (s.withHub f).draws = s.draws := rfl
@[simp] theorem withHub_out (f : Hub → Hub) : (s.withHub f).out = s.out := rfl
@[simp] theorem withHub_pending (f : Hub → Hub) : (s.withHub f).pending = s.pending := rfl

@[simp] theorem withPor_pacing (f : Porter → Porter) : (s.withPor f).pacing = s.pacing := rfl
@[simp] theorem withPor_clusters (f : Porter → Porter) : (s.withPor f).clusters = s.clusters := rfl
@[simp] theorem withPor_cores (f : Porter → Porter) : (s.withPor f).cores = s.cores := rfl
@[simp] theorem withPor_ms (f : Porter → Porter) : (s.withPor f).ms = s.ms := rfl
@[simp] theorem withPor_car (f : Porter → Porter) : (s.withPor f).car = s.car := rfl
@[simp] theorem withPor_net (f : Porter → Porter) : (s.withPor f).net = s.net := rfl
@[simp] theorem withPor_hub (f : Porter → Porter) : (s.withPor f).hub = s.hub := rfl
@[simp] theorem withPor_pwr (f : Porter → Porter) : (s.withPor f).pwr = s.pwr := rfl
@[simp] theorem withPor_enc (f : Porter → Porter) : (s.withPor f).enc = s.enc := rfl
@[simp] theorem withPor_boot (f : Porter → Porter) : (s.withPor f).boot = s.boot := rfl
@[simp] theorem withPor_draws (f : Porter → Porter) : (s.withPor f).draws = s.draws := rfl
@[simp] theorem withPor_out (f : Porter → Porter) : (s.withPor f).out = s.out := rfl
@[simp] theorem withPor_pending (f : Porter → Porter) : (s.withPor f).pending = s.pending := rfl

@[simp] theorem setDv_pacing (i sub v : Nat) : (s.setDv i sub v).pacing = s.pacing := rfl
@[simp] theorem setDv_clusters (i sub v : Nat) : (s.setDv i sub v).clusters = s.clusters := rfl
@[simp] theorem setDv_cores (i sub v : Nat) : (s.setDv i sub v).cores = s.cores := rfl
@[simp] theorem setDv_ms (i sub v : Nat) : (s.setDv i sub v).ms = s.ms := rfl
@[simp] theorem setDv_car (i sub v : Nat) : (s.setDv i sub v).car = s.car := rfl
@[simp] theorem setDv_net (i sub v : Nat) : (s.setDv i sub v).net = s.net := rfl
@[simp] theorem setDv_hub (i sub v : Nat) : (s.setDv i sub v).hub = s.hub := rfl
@[simp] theorem setDv_pwr (i sub v : Nat) : (s.setDv i sub v).pwr = s.pwr := rfl
@[simp] theorem setDv_enc (i sub v : Nat) : (s.setDv i sub v).enc = s.enc := rfl
@[simp] theorem setDv_boot (i sub v : Nat) : (s.setDv i sub v).boot = s.boot := rfl
@[simp] theorem setDv_draws (i sub v : Nat) : (s.setDv i sub v).draws = s.draws := rfl
@[simp] theorem setDv_out (i sub v : Nat) : (s.setDv i sub v).out = s.out := rfl
@[simp] theorem setDv_pending (i sub v : Nat) : (s.setDv i sub v).pending = s.pending := rfl

@[simp] theorem bumpPort_pacing (p i n : Nat) : (s.bumpPort p i n).pacing = s.pacing := rfl
@[simp] theorem bumpPort_clusters (p i n : Nat) : (s.bumpPort p i n).clusters = s.clusters := rfl
@[simp] theorem bumpPort_cores (p i n : Nat) : (s.bumpPort p i n).cores = s.cores := rfl
@[simp] theorem bumpPort_ms (p i n : Nat) : (s.bumpPort p i n).ms = s.ms := rfl
@[simp] theorem bumpPort_car (p i n : Nat) : (s.bumpPort p i n).car = s.car := rfl
@[simp] theorem bumpPort_net (p i n : Nat) : (s.bumpPort p i n).net = s.net := rfl
@[simp] theorem bumpPort_hub (p i n : Nat) : (s.bumpPort p i n).hub = s.hub := rfl
@[simp] theorem bumpPort_pwr (p i n : Nat) : (s.bumpPort p i n).pwr = s.pwr := rfl
@[simp] theorem bumpPort_enc (p i n : Nat) : (s.bumpPort p i n).enc = s.enc := rfl
@[simp] theorem bumpPort_boot (p i n : Nat) : (s.bumpPort p i n).boot = s.boot := rfl
@[simp] theorem bumpPort_draws (p i n : Nat) : (s.bumpPort p i n).draws = s.draws := rfl
@[simp] theorem bumpPort_out (p i n : Nat) : (s.bumpPort p i n).out = s.out := rfl
@[simp] theorem bumpPort_pending (p i n : Nat) : (s.bumpPort p i n).pending = s.pending := rfl

@[simp] theorem bumpBw_pacing (i n : Nat) : (s.bumpBw i n).pacing = s.pacing := rfl
@[simp] theorem bumpBw_clusters (i n : Nat) : (s.bumpBw i n).clusters = s.clusters := rfl
@[simp] theorem bumpBw_cores (i n : Nat) : (s.bumpBw i n).cores = s.cores := rfl
@[simp] theorem bumpBw_ms (i n : Nat) : (s.bumpBw i n).ms = s.ms := rfl
@[simp] theorem bumpBw_car (i n : Nat) : (s.bumpBw i n).car = s.car := rfl
@[simp] theorem bumpBw_net (i n : Nat) : (s.bumpBw i n).net = s.net := rfl
@[simp] theorem bumpBw_hub (i n : Nat) : (s.bumpBw i n).hub = s.hub := rfl
@[simp] theorem bumpBw_pwr (i n : Nat) : (s.bumpBw i n).pwr = s.pwr := rfl
@[simp] theorem bumpBw_enc (i n : Nat) : (s.bumpBw i n).enc = s.enc := rfl
@[simp] theorem bumpBw_boot (i n : Nat) : (s.bumpBw i n).boot = s.boot := rfl
@[simp] theorem bumpBw_draws (i n : Nat) : (s.bumpBw i n).draws = s.draws := rfl
@[simp] theorem bumpBw_out (i n : Nat) : (s.bumpBw i n).out = s.out := rfl
@[simp] theorem bumpBw_pending (i n : Nat) : (s.bumpBw i n).pending = s.pending := rfl

@[simp] theorem logEvent_pacing (event code unit : Nat) (detail : BitVec 128) : (s.logEvent event code unit detail).pacing = s.pacing := rfl
@[simp] theorem logEvent_clusters (event code unit : Nat) (detail : BitVec 128) : (s.logEvent event code unit detail).clusters = s.clusters := rfl
@[simp] theorem logEvent_cores (event code unit : Nat) (detail : BitVec 128) : (s.logEvent event code unit detail).cores = s.cores := rfl
@[simp] theorem logEvent_ms (event code unit : Nat) (detail : BitVec 128) : (s.logEvent event code unit detail).ms = s.ms := rfl
@[simp] theorem logEvent_car (event code unit : Nat) (detail : BitVec 128) : (s.logEvent event code unit detail).car = s.car := rfl
@[simp] theorem logEvent_net (event code unit : Nat) (detail : BitVec 128) : (s.logEvent event code unit detail).net = s.net := rfl
@[simp] theorem logEvent_hub (event code unit : Nat) (detail : BitVec 128) : (s.logEvent event code unit detail).hub = s.hub := rfl
@[simp] theorem logEvent_pwr (event code unit : Nat) (detail : BitVec 128) : (s.logEvent event code unit detail).pwr = s.pwr := rfl
@[simp] theorem logEvent_enc (event code unit : Nat) (detail : BitVec 128) : (s.logEvent event code unit detail).enc = s.enc := rfl
@[simp] theorem logEvent_boot (event code unit : Nat) (detail : BitVec 128) : (s.logEvent event code unit detail).boot = s.boot := rfl
@[simp] theorem logEvent_draws (event code unit : Nat) (detail : BitVec 128) : (s.logEvent event code unit detail).draws = s.draws := rfl
@[simp] theorem logEvent_out (event code unit : Nat) (detail : BitVec 128) : (s.logEvent event code unit detail).out = s.out := rfl
@[simp] theorem logEvent_pending (event code unit : Nat) (detail : BitVec 128) : (s.logEvent event code unit detail).pending = s.pending := rfl

@[simp] theorem logNote_pacing (code unit : Nat) (detail : BitVec 128) : (s.logNote code unit detail).pacing = s.pacing := rfl
@[simp] theorem logNote_clusters (code unit : Nat) (detail : BitVec 128) : (s.logNote code unit detail).clusters = s.clusters := rfl
@[simp] theorem logNote_cores (code unit : Nat) (detail : BitVec 128) : (s.logNote code unit detail).cores = s.cores := rfl
@[simp] theorem logNote_ms (code unit : Nat) (detail : BitVec 128) : (s.logNote code unit detail).ms = s.ms := rfl
@[simp] theorem logNote_car (code unit : Nat) (detail : BitVec 128) : (s.logNote code unit detail).car = s.car := rfl
@[simp] theorem logNote_net (code unit : Nat) (detail : BitVec 128) : (s.logNote code unit detail).net = s.net := rfl
@[simp] theorem logNote_hub (code unit : Nat) (detail : BitVec 128) : (s.logNote code unit detail).hub = s.hub := rfl
@[simp] theorem logNote_pwr (code unit : Nat) (detail : BitVec 128) : (s.logNote code unit detail).pwr = s.pwr := rfl
@[simp] theorem logNote_enc (code unit : Nat) (detail : BitVec 128) : (s.logNote code unit detail).enc = s.enc := rfl
@[simp] theorem logNote_boot (code unit : Nat) (detail : BitVec 128) : (s.logNote code unit detail).boot = s.boot := rfl
@[simp] theorem logNote_draws (code unit : Nat) (detail : BitVec 128) : (s.logNote code unit detail).draws = s.draws := rfl
@[simp] theorem logNote_out (code unit : Nat) (detail : BitVec 128) : (s.logNote code unit detail).out = s.out := rfl
@[simp] theorem logNote_pending (code unit : Nat) (detail : BitVec 128) : (s.logNote code unit detail).pending = s.pending := rfl

@[simp] theorem withBoot_pacing (f : Boot → Boot) : (s.withBoot f).pacing = s.pacing := rfl
@[simp] theorem withBoot_clusters (f : Boot → Boot) : (s.withBoot f).clusters = s.clusters := rfl
@[simp] theorem withBoot_cores (f : Boot → Boot) : (s.withBoot f).cores = s.cores := rfl
@[simp] theorem withBoot_ms (f : Boot → Boot) : (s.withBoot f).ms = s.ms := rfl
@[simp] theorem withBoot_car (f : Boot → Boot) : (s.withBoot f).car = s.car := rfl
@[simp] theorem withBoot_net (f : Boot → Boot) : (s.withBoot f).net = s.net := rfl
@[simp] theorem withBoot_hub (f : Boot → Boot) : (s.withBoot f).hub = s.hub := rfl
@[simp] theorem withBoot_pwr (f : Boot → Boot) : (s.withBoot f).pwr = s.pwr := rfl
@[simp] theorem withBoot_enc (f : Boot → Boot) : (s.withBoot f).enc = s.enc := rfl
@[simp] theorem withBoot_por (f : Boot → Boot) : (s.withBoot f).por = s.por := rfl
@[simp] theorem withBoot_draws (f : Boot → Boot) : (s.withBoot f).draws = s.draws := rfl
@[simp] theorem withBoot_out (f : Boot → Boot) : (s.withBoot f).out = s.out := rfl
@[simp] theorem withBoot_pending (f : Boot → Boot) : (s.withBoot f).pending = s.pending := rfl

@[simp] theorem withPwr_pacing (f : Power → Power) : (s.withPwr f).pacing = s.pacing := rfl
@[simp] theorem withPwr_clusters (f : Power → Power) : (s.withPwr f).clusters = s.clusters := rfl
@[simp] theorem withPwr_cores (f : Power → Power) : (s.withPwr f).cores = s.cores := rfl
@[simp] theorem withPwr_ms (f : Power → Power) : (s.withPwr f).ms = s.ms := rfl
@[simp] theorem withPwr_car (f : Power → Power) : (s.withPwr f).car = s.car := rfl
@[simp] theorem withPwr_net (f : Power → Power) : (s.withPwr f).net = s.net := rfl
@[simp] theorem withPwr_hub (f : Power → Power) : (s.withPwr f).hub = s.hub := rfl
@[simp] theorem withPwr_enc (f : Power → Power) : (s.withPwr f).enc = s.enc := rfl
@[simp] theorem withPwr_por (f : Power → Power) : (s.withPwr f).por = s.por := rfl
@[simp] theorem withPwr_boot (f : Power → Power) : (s.withPwr f).boot = s.boot := rfl
@[simp] theorem withPwr_draws (f : Power → Power) : (s.withPwr f).draws = s.draws := rfl
@[simp] theorem withPwr_out (f : Power → Power) : (s.withPwr f).out = s.out := rfl
@[simp] theorem withPwr_pending (f : Power → Power) : (s.withPwr f).pending = s.pending := rfl

@[simp] theorem setBlock_pacing (b v : Nat) : (s.setBlock b v).pacing = s.pacing := rfl
@[simp] theorem setBlock_clusters (b v : Nat) : (s.setBlock b v).clusters = s.clusters := rfl
@[simp] theorem setBlock_cores (b v : Nat) : (s.setBlock b v).cores = s.cores := rfl
@[simp] theorem setBlock_ms (b v : Nat) : (s.setBlock b v).ms = s.ms := rfl
@[simp] theorem setBlock_car (b v : Nat) : (s.setBlock b v).car = s.car := rfl
@[simp] theorem setBlock_net (b v : Nat) : (s.setBlock b v).net = s.net := rfl
@[simp] theorem setBlock_hub (b v : Nat) : (s.setBlock b v).hub = s.hub := rfl
@[simp] theorem setBlock_enc (b v : Nat) : (s.setBlock b v).enc = s.enc := rfl
@[simp] theorem setBlock_por (b v : Nat) : (s.setBlock b v).por = s.por := rfl
@[simp] theorem setBlock_boot (b v : Nat) : (s.setBlock b v).boot = s.boot := rfl
@[simp] theorem setBlock_draws (b v : Nat) : (s.setBlock b v).draws = s.draws := rfl
@[simp] theorem setBlock_out (b v : Nat) : (s.setBlock b v).out = s.out := rfl
@[simp] theorem setBlock_pending (b v : Nat) : (s.setBlock b v).pending = s.pending := rfl

@[simp] theorem emit_pacing (m : OutMsg) : (s.emit m).pacing = s.pacing := rfl
@[simp] theorem emit_clusters (m : OutMsg) : (s.emit m).clusters = s.clusters := rfl
@[simp] theorem emit_cores (m : OutMsg) : (s.emit m).cores = s.cores := rfl
@[simp] theorem emit_ms (m : OutMsg) : (s.emit m).ms = s.ms := rfl
@[simp] theorem emit_car (m : OutMsg) : (s.emit m).car = s.car := rfl
@[simp] theorem emit_net (m : OutMsg) : (s.emit m).net = s.net := rfl
@[simp] theorem emit_hub (m : OutMsg) : (s.emit m).hub = s.hub := rfl
@[simp] theorem emit_pwr (m : OutMsg) : (s.emit m).pwr = s.pwr := rfl
@[simp] theorem emit_enc (m : OutMsg) : (s.emit m).enc = s.enc := rfl
@[simp] theorem emit_por (m : OutMsg) : (s.emit m).por = s.por := rfl
@[simp] theorem emit_boot (m : OutMsg) : (s.emit m).boot = s.boot := rfl
@[simp] theorem emit_draws (m : OutMsg) : (s.emit m).draws = s.draws := rfl
@[simp] theorem emit_pending (m : OutMsg) : (s.emit m).pending = s.pending := rfl

@[simp] theorem bumpCoreFree_pacing (c i : Nat) : (s.bumpCoreFree c i).pacing = s.pacing := rfl
@[simp] theorem bumpCoreFree_clusters (c i : Nat) : (s.bumpCoreFree c i).clusters = s.clusters := rfl
@[simp] theorem bumpCoreFree_ms (c i : Nat) : (s.bumpCoreFree c i).ms = s.ms := rfl
@[simp] theorem bumpCoreFree_car (c i : Nat) : (s.bumpCoreFree c i).car = s.car := rfl
@[simp] theorem bumpCoreFree_net (c i : Nat) : (s.bumpCoreFree c i).net = s.net := rfl
@[simp] theorem bumpCoreFree_hub (c i : Nat) : (s.bumpCoreFree c i).hub = s.hub := rfl
@[simp] theorem bumpCoreFree_pwr (c i : Nat) : (s.bumpCoreFree c i).pwr = s.pwr := rfl
@[simp] theorem bumpCoreFree_enc (c i : Nat) : (s.bumpCoreFree c i).enc = s.enc := rfl
@[simp] theorem bumpCoreFree_por (c i : Nat) : (s.bumpCoreFree c i).por = s.por := rfl
@[simp] theorem bumpCoreFree_boot (c i : Nat) : (s.bumpCoreFree c i).boot = s.boot := rfl
@[simp] theorem bumpCoreFree_out (c i : Nat) : (s.bumpCoreFree c i).out = s.out := rfl
@[simp] theorem bumpCoreFree_pending (c i : Nat) : (s.bumpCoreFree c i).pending = s.pending := rfl

@[simp] theorem bumpClusterFree_pacing (k i : Nat) : (s.bumpClusterFree k i).pacing = s.pacing := rfl
@[simp] theorem bumpClusterFree_cores (k i : Nat) : (s.bumpClusterFree k i).cores = s.cores := rfl
@[simp] theorem bumpClusterFree_ms (k i : Nat) : (s.bumpClusterFree k i).ms = s.ms := rfl
@[simp] theorem bumpClusterFree_car (k i : Nat) : (s.bumpClusterFree k i).car = s.car := rfl
@[simp] theorem bumpClusterFree_net (k i : Nat) : (s.bumpClusterFree k i).net = s.net := rfl
@[simp] theorem bumpClusterFree_hub (k i : Nat) : (s.bumpClusterFree k i).hub = s.hub := rfl
@[simp] theorem bumpClusterFree_pwr (k i : Nat) : (s.bumpClusterFree k i).pwr = s.pwr := rfl
@[simp] theorem bumpClusterFree_enc (k i : Nat) : (s.bumpClusterFree k i).enc = s.enc := rfl
@[simp] theorem bumpClusterFree_por (k i : Nat) : (s.bumpClusterFree k i).por = s.por := rfl
@[simp] theorem bumpClusterFree_boot (k i : Nat) : (s.bumpClusterFree k i).boot = s.boot := rfl
@[simp] theorem bumpClusterFree_out (k i : Nat) : (s.bumpClusterFree k i).out = s.out := rfl
@[simp] theorem bumpClusterFree_pending (k i : Nat) : (s.bumpClusterFree k i).pending = s.pending := rfl

/-! ## Fields an update changes -/

@[simp] theorem withPor_por (f : Porter → Porter) : (s.withPor f).por = f s.por := rfl
@[simp] theorem withBoot_boot (f : Boot → Boot) : (s.withBoot f).boot = f s.boot := rfl
@[simp] theorem withPwr_pwr (f : Power → Power) : (s.withPwr f).pwr = f s.pwr := rfl
@[simp] theorem withHub_hub (f : Hub → Hub) : (s.withHub f).hub = f s.hub := rfl
@[simp] theorem withNet_net (f : Net → Net) : (s.withNet f).net = f s.net := rfl
@[simp] theorem withMs_ms (f : MemSys → MemSys) : (s.withMs f).ms = f s.ms := rfl
@[simp] theorem setMem_mem (m : Mem) : (s.setMem m).ms.mem = m := rfl
@[simp] theorem emit_out (m : OutMsg) : (s.emit m).out = m :: s.out := rfl
@[simp] theorem draw_fst : s.draw.1 = Config.freeQuad s.draws := rfl
@[simp] theorem draw_snd : s.draw.2 = { s with draws := s.draws + 1 } := rfl

/-! ## Reading a part after an update -/

theorem cluster_setCluster (k j : Nat) (v : Cluster) : (s.setCluster k v).cluster j = if j = k then v else s.cluster j :=
  mget_mset ..
theorem cluster_modCluster (k j : Nat) (f : Cluster → Cluster) :
    (s.modCluster k f).cluster j = if j = k then f (s.cluster k) else s.cluster j := mget_mset ..
@[simp] theorem cluster_modCluster_self (k : Nat) (f : Cluster → Cluster) : (s.modCluster k f).cluster k = f (s.cluster k) :=
  mget_mset_self ..
theorem cluster_modCluster_ne {k j : Nat} (f : Cluster → Cluster) (h : j ≠ k) : (s.modCluster k f).cluster j = s.cluster j :=
  mget_mset_ne _ _ _ h
theorem cluster_setSeq (k j : Nat) (q : Seq) :
    (s.setSeq k q).cluster j = if j = k then { s.cluster k with seq := q } else s.cluster j := cluster_modCluster ..
theorem cluster_bumpCluster (k j i n : Nat) : (s.bumpCluster k i n).cluster j =
    if j = k then { s.cluster k with ctr := mmod 0 (s.cluster k).ctr i (fun q => q + BitVec.ofNat 64 n) } else s.cluster j :=
  cluster_modCluster ..
theorem seq_setSeq (k j : Nat) (q : Seq) : (s.setSeq k q).seq j = if j = k then q else s.seq j := by
  simp only [State.seq, cluster_setSeq]; split <;> rfl
@[simp] theorem seq_setSeq_self (k : Nat) (q : Seq) : (s.setSeq k q).seq k = q := by simp [seq_setSeq]
@[simp] theorem seq_bumpCluster (k j i n : Nat) : (s.bumpCluster k i n).seq j = s.seq j := by
  simp only [State.seq, cluster_bumpCluster]; split <;> simp_all

theorem core_setCore (c d : Nat) (v : Core) : (s.setCore c v).core d = if d = c then v else s.core d := mget_mset ..
theorem core_modCore (c d : Nat) (f : Core → Core) : (s.modCore c f).core d = if d = c then f (s.core c) else s.core d :=
  mget_mset ..
@[simp] theorem core_modCore_self (c : Nat) (f : Core → Core) : (s.modCore c f).core c = f (s.core c) := mget_mset_self ..
theorem core_modCore_ne {c d : Nat} (f : Core → Core) (h : d ≠ c) : (s.modCore c f).core d = s.core d := mget_mset_ne _ _ _ h

theorem slot_setSlot (i j : Nat) (v : Slot) : (s.setSlot i v).slot j = if j = i then v else s.slot j := mget_mset ..
theorem slot_modSlot (i j : Nat) (f : Slot → Slot) : (s.modSlot i f).slot j = if j = i then f (s.slot i) else s.slot j :=
  mget_mset ..
theorem flashCh_modFlashCh (i j : Nat) (f : FlashChannel → FlashChannel) :
    (s.modFlashCh i f).flashCh j = if j = i then f (s.flashCh i) else s.flashCh j := mget_mmod ..
theorem stack_modStack (m n : Nat) (f : Stack → Stack) :
    (s.modStack m f).stack n = if n = m then f (s.stack m) else s.stack n := mget_mmod ..
theorem port_setPort (p q : Nat) (v : Port) : (s.setPort p v).port q = if q = p then v else s.port q := mget_mset ..
theorem port_modPort (p q : Nat) (f : Port → Port) : (s.modPort p f).port q = if q = p then f (s.port p) else s.port q :=
  mget_mset ..
theorem ring_modRing (r q : Nat) (f : Ring → Ring) : (s.modRing r f).ring q = if q = r then f (s.ring r) else s.ring q :=
  mget_mmod ..
theorem group_modGroup (g h : Nat) (f : Group → Group) :
    (s.modGroup g f).group h = if h = g then f (s.group g) else s.group h := mget_mmod ..
theorem pair_setPair (n m : Nat) (v : Pair) : (s.setPair n v).pair m = if m = n then v else s.pair m := mget_mset ..
theorem pair_modPair (n m : Nat) (f : Pair → Pair) : (s.modPair n f).pair m = if m = n then f (s.pair n) else s.pair m :=
  mget_mset ..
theorem stream_setStreamRec (i j : Nat) (v : Stream) : (s.setStreamRec i v).stream j = if j = i then v else s.stream j :=
  mget_mset ..
theorem block_setBlock (b c v : Nat) : (s.setBlock b v).block c = if c = b then v else s.block c := mget_mset ..
theorem syncVal_setSync (k i j : Nat) (v : Word) : (s.setSync k i v).syncVal k j = if j = i then v else s.syncVal k j := by
  simp only [State.syncVal, State.setSync, cluster_modCluster_self, mget_mset]
theorem progVal_setProg (c i j : Nat) (v : Word) : (s.setProg c i v).progVal c j = if j = i then v else s.progVal c j := by
  simp only [State.progVal, State.setProg, core_modCore_self, mget_mset]

/-- Entries have keys of their own: an index of four hexadecimal digits and a subindex of two. -/
theorem dKey_inj {i u j v : Nat} (hu : u < 256) (hv : v < 256) : dKey i u = dKey j v ↔ i = j ∧ u = v := by
  unfold dKey; omega
theorem dv_setDv_self (i u v : Nat) : (s.setDv i u v).dv i u = v := by simp [State.dv, State.setDv]
theorem dv_setDv_ne {i u j w : Nat} (v : Nat) (h : dKey j w ≠ dKey i u) : (s.setDv i u v).dv j w = s.dv j w := by
  simp [State.dv, State.setDv, mget_mset_ne _ _ _ h]

/-! ## Jobs -/

theorem job?_some {id : JobId} {j : Job} (h : s.job? id = some j) : j ∈ s.hub.jobs ∧ j.id = id := by
  unfold State.job? at h
  exact ⟨List.mem_of_find?_eq_some h, by simpa using List.find?_some h⟩

theorem job?_dropJob (id id' : JobId) : (s.dropJob id).job? id' = if id' = id then none else s.job? id' := by
  simp only [State.job?, State.dropJob, List.find?_filter]
  split
  · next h => subst h; simp
  · next h =>
    congr 1; funext j
    by_cases hj : j.id = id' <;> simp_all

theorem job?_modJob (id id' : JobId) (f : Job → Job) (hf : ∀ j, (f j).id = j.id) :
    (s.modJob id f).job? id' = (s.job? id').map (fun j => if j.id = id then f j else j) := by
  simp only [State.job?, State.modJob, List.find?_map]
  congr 2; funext j
  simp only [Function.comp]; split <;> simp [hf]

/-! ## What the shared operations do -/

/-- Detecting a fault while a sweep is under way changes nothing; else it writes LAST_FAULT, sets the sweep's record and the log. -/
theorem jobFault_sweeping (job : Option JobId) (f : FaultInfo) (h : s.hub.sweeping = true) : s.jobFault job f = s := by
  simp [State.jobFault, h]

theorem jobFault_hub (job : Option JobId) (f : FaultInfo) (h : s.hub.sweeping = false) :
    (s.jobFault job f).hub = { s.hub with
      sweeping := true, swept := false, sweepJob := job, sweepCause := f.status,
      lastFault := (s.jobFault job f).hub.lastFault, sweeps := s.hub.sweeps + 1 } := by
  simp [State.jobFault, h]

/-- A detected fault touches the hub and the log alone. -/
theorem jobFault_rest (job : Option JobId) (f : FaultInfo) :
    (s.jobFault job f).clusters = s.clusters ∧ (s.jobFault job f).cores = s.cores ∧ (s.jobFault job f).ms = s.ms ∧
    (s.jobFault job f).car = s.car ∧ (s.jobFault job f).net = s.net ∧ (s.jobFault job f).pwr = s.pwr ∧
    (s.jobFault job f).enc = s.enc ∧ (s.jobFault job f).boot = s.boot ∧ (s.jobFault job f).pacing = s.pacing ∧
    (s.jobFault job f).draws = s.draws ∧ (s.jobFault job f).out = s.out ∧ (s.jobFault job f).pending = s.pending := by
  unfold State.jobFault; split <;> simp

/-- A sync post either adds to the counter, and is counted, or is the fault given (R88). -/
theorem postSync_cases (k i : Nat) (v : Word) (fault : State → State) :
    ((s.syncVal k i).toNat + v.toNat < 2 ^ 32 ∧
      s.postSync k i v fault = (s.setSync k i (s.syncVal k i + v)).bumpCluster k 17 1) ∨
    (2 ^ 32 ≤ (s.syncVal k i).toNat + v.toNat ∧ s.postSync k i v fault = fault s) := by
  by_cases h : (s.syncVal k i).toNat + v.toNat < 2 ^ 32
  · exact .inl ⟨h, if_pos h⟩
  · exact .inr ⟨by omega, if_neg h⟩

end Sys2Proof.Machine
end

