-- ==== Sys2Proof/Laws/Access.lean ====
section
/-! SUPPORT. What the shared reads and writes of stacked memory do: a read that succeeds leaves every byte, a write that succeeds
stores its bytes and no others, and each of them keeps the memory's canonical form. -/

namespace Sys2Proof.Machine

/-- Beside the records of stacked memory, the porter's counts and what has left the module, nothing differs. -/
def OnlyMemory (s t : State) : Prop :=
  t.clusters = s.clusters ∧ t.cores = s.cores ∧ t.car = s.car ∧ t.net = s.net ∧ t.hub = s.hub ∧ t.pwr = s.pwr ∧ t.enc = s.enc ∧
  t.boot = s.boot ∧ t.draws = s.draws ∧ t.pacing = s.pacing ∧ t.pending = s.pending

theorem OnlyMemory.refl (s : State) : OnlyMemory s s := ⟨rfl, rfl, rfl, rfl, rfl, rfl, rfl, rfl, rfl, rfl, rfl⟩
theorem OnlyMemory.trans {s t u : State} (h : OnlyMemory s t) (h' : OnlyMemory t u) : OnlyMemory s u := by
  simp only [OnlyMemory] at *; simp_all
theorem OnlyMemory.foldl {α : Type} (f : State → α → State) (h : ∀ s a, OnlyMemory s (f s a)) (l : List α) (s : State) :
    OnlyMemory s (l.foldl f s) := by
  induction l generalizing s with
  | nil => exact OnlyMemory.refl s
  | cons a l ih => exact (h s a).trans (ih _)

/-- The bytes and the marks of stacked memory are as before, and nothing beyond its records differs. -/
def KeepsBytes (s t : State) : Prop := OnlyMemory s t ∧ t.ms.mem = s.ms.mem ∧ t.ms.poison = s.ms.poison

theorem KeepsBytes.refl (s : State) : KeepsBytes s s := ⟨OnlyMemory.refl s, rfl, rfl⟩
theorem KeepsBytes.trans {s t u : State} (h : KeepsBytes s t) (h' : KeepsBytes t u) : KeepsBytes s u :=
  ⟨h.1.trans h'.1, h'.2.1.trans h.2.1, h'.2.2.trans h.2.2⟩
theorem KeepsBytes.foldl {α : Type} (f : State → α → State) (h : ∀ s a, KeepsBytes s (f s a)) (l : List α) (s : State) :
    KeepsBytes s (l.foldl f s) := by
  induction l generalizing s with
  | nil => exact KeepsBytes.refl s
  | cons a l ih => exact (h s a).trans (ih _)

theorem keepsBytes_emit (s : State) (m : OutMsg) : KeepsBytes s (s.emit m) := KeepsBytes.refl s
theorem keepsBytes_modStack (s : State) (m : Nat) (f : Stack → Stack) : KeepsBytes s (s.modStack m f) := KeepsBytes.refl s
theorem keepsBytes_bumpBw (s : State) (i n : Nat) : KeepsBytes s (s.bumpBw i n) := KeepsBytes.refl s

theorem useParity_keeps (s : State) (m : Nat) : KeepsBytes s (s.useParity m) := by
  show KeepsBytes s (if mget 0 s.ms.parity m = 0 then s else _)
  split
  · exact KeepsBytes.refl s
  · exact KeepsBytes.refl s
theorem countFlips_keeps (s : State) (a n : Nat) : KeepsBytes s (s.countFlips a n) :=
  KeepsBytes.foldl _ (fun s _ => keepsBytes_modStack s _ _) _ s
theorem snoopData_keeps (s : State) (a n : Nat) : KeepsBytes s (s.snoopData a n) :=
  (KeepsBytes.foldl _ (fun s _ => keepsBytes_emit s _) _ s).trans (KeepsBytes.refl _)
theorem snoopInv_keeps (s : State) (a n : Nat) : KeepsBytes s (s.snoopInv a n) :=
  (KeepsBytes.foldl _ (fun s _ => keepsBytes_emit s _) _ s).trans (KeepsBytes.refl _)
theorem countRead_keeps (s : State) (a n : Nat) : KeepsBytes s (s.countRead a n) :=
  KeepsBytes.foldl _ (fun s _ => keepsBytes_bumpBw s _ _) _ s
theorem countWritten_keeps (s : State) (a n : Nat) : KeepsBytes s (s.countWritten a n) :=
  KeepsBytes.foldl _ (fun s _ => keepsBytes_bumpBw s _ _) _ s
/-- What a read that succeeds does beside giving its bytes leaves every byte and every mark. -/
theorem readDone_keeps (s : State) (a n : Nat) : KeepsBytes s (s.readDone a n) :=
  (((snoopData_keeps s a n).trans (countFlips_keeps _ a n)).trans (KeepsBytes.foldl _ useParity_keeps _ _)).trans
    (countRead_keeps _ a n)

/-- Storing bytes stores them and nothing else. -/
theorem memPut_mem (s : State) (a : Nat) (bs : List Byte) :
    OnlyMemory s (s.memPut a bs) ∧ (s.memPut a bs).ms.mem = s.ms.mem.writeBytes a bs := by
  have h1 : (s.fresh a bs.length).ms.mem = s.ms.mem ∧ OnlyMemory s (s.fresh a bs.length) := ⟨rfl, OnlyMemory.refl s⟩
  have h2 := countFlips_keeps (s.fresh a bs.length) a bs.length
  set t := (s.fresh a bs.length).mergeFlips a bs.length with ht
  have h3 : t.ms.mem = s.ms.mem ∧ OnlyMemory s t := by
    rw [ht]; exact ⟨h2.2.1.trans h1.1, h1.2.trans (h2.1.trans (OnlyMemory.refl _))⟩
  have h4 := countWritten_keeps (t.setMem (t.ms.mem.writeBytes a bs)) a bs.length
  exact ⟨h3.2.trans ((OnlyMemory.refl t).trans h4.1), h4.2.1.trans (by rw [← h3.1]; rfl)⟩

/-- A write of the module's own engines that succeeds: its bytes, and no others. -/
theorem memWriteOwn_ok {s t : State} {a : Nat} {bs : List Byte} (h : s.memWriteOwn a bs = .ok t) :
    OnlyMemory s t ∧ t.ms.mem = s.ms.mem.writeBytes a bs := by
  unfold State.memWriteOwn at h
  split at h
  · cases h
  split at h
  · cases h
  injection h with h
  subst h
  have h1 := snoopInv_keeps s a bs.length
  have h2 := memPut_mem (s.snoopInv a bs.length) a bs
  have h3 := KeepsBytes.foldl State.useParity useParity_keeps (stacksOf a bs.length) ((s.snoopInv a bs.length).memPut a bs)
  exact ⟨h1.1.trans (h2.1.trans h3.1), by rw [h3.2.1, h2.2, h1.2.1]⟩

/-- A write that succeeds keeps the canonical form. -/
theorem memWriteOwn_wf {s t : State} {a : Nat} {bs : List Byte} (h : s.memWriteOwn a bs = .ok t) (hw : s.ms.mem.wf = true) :
    t.ms.mem.wf = true := by
  rw [(memWriteOwn_ok h).2]; exact Mem.wf_writeBytes _ _ _ hw

theorem foldl_writeBytes_wf {α : Type} (l : List α) (f : α → Nat × List Byte) (m : Mem) (h : m.wf = true) :
    (l.foldl (fun (m : Mem) x => m.writeBytes (f x).1 (f x).2) m).wf = true := by
  induction l generalizing m with
  | nil => exact h
  | cons x l ih => exact ih _ (Mem.wf_writeBytes m _ _ h)

/-- What lands of a write that fails keeps it too. -/
theorem memLand_wf (s : State) (a : Nat) (bs : List Byte) (h : s.ms.mem.wf = true) : (s.memLand a bs).ms.mem.wf = true := by
  unfold State.memLand
  generalize writeParts a bs = ps
  suffices ∀ (t : State), t.ms.mem.wf = true → (ps.foldl (fun t p =>
      if t.stackOff p.1 then t
      else if t.stackFails p.1 then t.logNote 0 (0x10 + p.1) (BitVec.ofNat 128 p.2.1)
      else
        let bad := t.ms.poison.filter (fun g => meets p.2.1 p.2.2.length (32 * g) 32 && !within (32 * g) 32 p.2.1 p.2.2.length)
        let t := (t.snoopInv p.2.1 p.2.2.length).memPut p.2.1 p.2.2
        t.setMem (bad.foldl (fun m g => m.writeBytes (32 * g) (s.ms.mem.readBytes (32 * g) 32)) t.ms.mem)) t).ms.mem.wf = true from
    this s h
  induction ps with
  | nil => exact fun t ht => ht
  | cons p ps ih =>
    intro t ht
    rw [List.foldl_cons]
    apply ih
    split
    · exact ht
    split
    · exact ht
    · refine foldl_writeBytes_wf _ (fun g => (32 * g, s.ms.mem.readBytes (32 * g) 32)) _ ?_
      rw [(memPut_mem _ _ _).2, (snoopInv_keeps t _ _).2.1]
      exact Mem.wf_writeBytes _ _ _ ht

end Sys2Proof.Machine
end

