-- ==== Sys2Proof/Laws/Ports.lean ====
section
/-! SUPPORT. Frames as a port sends them: the fields of the header read back, and the CRC is that of the frame. -/

namespace Sys2Proof.Machine

/-- The header word of a frame below its CRC. -/
def frameLow (seq ack : BitVec 12) (nak : Bool) (kind n : Nat) : Nat :=
  seq.toNat * 2 ^ 20 + ack.toNat * 2 ^ 8 + (if nak then 2 ^ 7 else 0) + kind * 2 ^ 5 + (n - 1) * 4

theorem frameLow_lt (seq ack : BitVec 12) (nak : Bool) {kind n : Nat} (hk : kind < 4) (hn : n ≤ 8) :
    frameLow seq ack nak kind n < 2 ^ 32 := by
  have := seq.isLt; have := ack.isLt
  unfold frameLow; cases nak <;> simp only [Bool.false_eq_true, if_true, if_false] <;> omega

theorem mkFrame_header (seq ack : BitVec 12) (nak : Bool) {kind : Nat} {fl : List (BitVec 2048)} (hk : kind < 4) (hn : fl.length ≤ 8) :
    (mkFrame seq ack nak kind fl).header.toNat =
      (frameCrc (frameLow seq ack nak kind fl.length) (mkFrame seq ack nak kind fl).flits).toNat * 2 ^ 32 + frameLow seq ack nak kind fl.length := by
  have h := frameLow_lt seq ack nak hk hn
  have hc := (frameCrc (frameLow seq ack nak kind fl.length) (mkFrame seq ack nak kind fl).flits).isLt
  show (BitVec.ofNat 64 _).toNat = _
  rw [BitVec.toNat_ofNat]
  have key : ∀ c l : Nat, c < 2 ^ 32 → l < 2 ^ 32 → (c * 2 ^ 32 + l) % 2 ^ 64 = c * 2 ^ 32 + l := by intros; omega
  exact key _ _ hc h

/-- The CRC of a frame as sent is that of its header word and flits (R312). -/
theorem mkFrame_good (seq ack : BitVec 12) (nak : Bool) {kind : Nat} {fl : List (BitVec 2048)} (hk : kind < 4) (hn : fl.length ≤ 8) :
    bits (mkFrame seq ack nak kind fl).header.toNat 63 32 =
      (frameCrc (bits (mkFrame seq ack nak kind fl).header.toNat 31 0) (mkFrame seq ack nak kind fl).flits).toNat := by
  have h := frameLow_lt seq ack nak hk hn
  have hc := (frameCrc (frameLow seq ack nak kind fl.length) (mkFrame seq ack nak kind fl).flits).isLt
  have e : bits (mkFrame seq ack nak kind fl).header.toNat 31 0 = frameLow seq ack nak kind fl.length := by
    rw [mkFrame_header seq ack nak hk hn]; unfold bits; omega
  rw [e, mkFrame_header seq ack nak hk hn]; unfold bits; omega

theorem mkFrame_fields (seq ack : BitVec 12) (nak : Bool) {kind : Nat} {fl : List (BitVec 2048)} (hk : kind < 4) (hn : fl.length ≤ 8)
    (h0 : 0 < fl.length) :
    fhSeq (mkFrame seq ack nak kind fl).header = seq ∧ fhAck (mkFrame seq ack nak kind fl).header = ack ∧
    fhKind (mkFrame seq ack nak kind fl).header = kind ∧ fhFlits (mkFrame seq ack nak kind fl).header = fl.length := by
  have hs := seq.isLt; have ha := ack.isLt
  have e := mkFrame_header seq ack nak hk hn
  generalize (frameCrc (frameLow seq ack nak kind fl.length) (mkFrame seq ack nak kind fl).flits).toNat = c at e
  refine ⟨?_, ?_, ?_, ?_⟩
  · apply BitVec.eq_of_toNat_eq; unfold fhSeq; rw [e, BitVec.toNat_ofNat]; unfold bits frameLow; cases nak <;> simp <;> omega
  · apply BitVec.eq_of_toNat_eq; unfold fhAck; rw [e, BitVec.toNat_ofNat]; unfold bits frameLow; cases nak <;> simp <;> omega
  · unfold fhKind; rw [e]; unfold bits frameLow; cases nak <;> simp <;> omega
  · unfold fhFlits; rw [e]; unfold bits frameLow; cases nak <;> simp <;> omega

end Sys2Proof.Machine
end

