-- ==== Sys2Proof/Laws/Sequencer.lean ====
section
/-! SUPPORT. What the sequencer's shared operations do: sampling, one executed instruction, an instruction that may be illegal. -/

namespace Sys2Proof.Machine

/-! ## The rest of the module -/

theorem SameRest.refl (s : State) : SameRest s s := ⟨rfl, rfl, rfl, rfl, rfl, rfl, rfl, rfl, rfl, rfl, rfl⟩
theorem SameRest.trans {s t u : State} (h : SameRest s t) (h' : SameRest t u) : SameRest s u := by
  simp only [SameRest] at *; simp_all
theorem SameRest.modCluster (s : State) (k : Nat) (f : Cluster → Cluster) : SameRest s (s.modCluster k f) := SameRest.refl s
theorem SameRest.modCore (s : State) (c : Nat) (f : Core → Core) : SameRest s (s.modCore c f) := SameRest.refl s
theorem SameRest.draw (s : State) : SameRest s s.draw.2 := SameRest.refl s

/-- Beside cluster k's samples and the counters named, a step changes nothing. -/
def OnlySamples (k : Nat) (counters : List Nat) (s t : State) : Prop :=
  SameRest s t ∧ t.cores = s.cores ∧ (∀ j, j ≠ k → t.cluster j = s.cluster j) ∧
  t.cluster k = { s.cluster k with
    ctr := (t.cluster k).ctr, sampleRing := (t.cluster k).sampleRing, sampleHead := (t.cluster k).sampleHead,
    sampleCount := (t.cluster k).sampleCount, samplePend := (t.cluster k).samplePend } ∧
  ∀ i, i ∉ counters → t.clusterCtr k i = s.clusterCtr k i

theorem OnlySamples.refl (k : Nat) (l : List Nat) (s : State) : OnlySamples k l s s :=
  ⟨SameRest.refl s, rfl, fun _ _ => rfl, rfl, fun _ _ => rfl⟩

theorem OnlySamples.trans {k : Nat} {l l' : List Nat} {s t u : State} (h : OnlySamples k l s t) (h' : OnlySamples k l' t u)
    (hl : l ⊆ l') : OnlySamples k l' s u := by
  obtain ⟨a, b, c, d, e⟩ := h
  obtain ⟨a', b', c', d', e'⟩ := h'
  refine ⟨a.trans a', b'.trans b, fun j hj => (c' j hj).trans (c j hj), ?_, fun i hi => (e' i hi).trans (e i (fun x => hi (hl x)))⟩
  rw [d']; generalize (u.cluster k) = w; rw [d]

theorem OnlySamples.mono {k : Nat} {l l' : List Nat} {s t : State} (h : OnlySamples k l s t) (hl : l ⊆ l') : OnlySamples k l' s t :=
  h.trans (OnlySamples.refl k l' t) hl

theorem OnlySamples.seq {k : Nat} {l : List Nat} {s t : State} (h : OnlySamples k l s t) : t.seq k = s.seq k := by
  unfold State.seq; rw [h.2.2.2.1]

/-- Changing the samples of cluster k alone. -/
theorem onlySamples_mod (s : State) (k : Nat) (f : Cluster → Cluster)
    (hf : ∀ c, f c = { c with
      sampleRing := (f c).sampleRing, sampleHead := (f c).sampleHead, sampleCount := (f c).sampleCount,
      samplePend := (f c).samplePend }) : OnlySamples k [] s (s.modCluster k f) := by
  refine ⟨SameRest.modCluster s k f, rfl, fun j hj => cluster_modCluster_ne s f hj, ?_, fun i _ => ?_⟩
  · rw [cluster_modCluster_self, hf]
  · simp only [State.clusterCtr, cluster_modCluster_self]; rw [hf]

theorem clusterCtr_bumpCluster (s : State) (k j i n m : Nat) : (s.bumpCluster k i n).clusterCtr j m =
    if j = k ∧ m = i then s.clusterCtr k i + BitVec.ofNat 64 n else s.clusterCtr j m := by
  simp only [State.clusterCtr, cluster_bumpCluster]
  by_cases h : j = k
  · subst h; simp only [if_true, mget_mmod, true_and]
  · simp [h]

theorem onlySamples_bump (s : State) (k i n : Nat) : OnlySamples k [i] s (s.bumpCluster k i n) := by
  refine ⟨SameRest.modCluster s k _, rfl, fun j hj => cluster_modCluster_ne s _ hj, ?_, fun m hm => ?_⟩
  · simp [cluster_bumpCluster]
  · simp only [List.mem_singleton] at hm; simp [clusterCtr_bumpCluster, hm]

theorem onlySamples_draw (s : State) (k : Nat) : OnlySamples k [] s s.draw.2 := OnlySamples.refl k [] s

/-- Writing a sample's record (R489) touches the ring and its two counters. -/
theorem sampleWrite_only (s : State) (k : Nat) (p : SamplePend) : OnlySamples k [31, 32] s (s.sampleWrite k p) := by
  unfold State.sampleWrite
  split
  next lat u hu =>
    have h1 : OnlySamples k [] s u := by have h := onlySamples_draw s k; rwa [hu] at h
    extract_lets job head r held v w
    have h2 : OnlySamples k [31, 32] s v :=
      (h1.trans (onlySamples_mod u k _ (fun _ => rfl)) (List.Subset.refl _)).mono (by simp)
    have h3 : OnlySamples k [31, 32] s w := h2.trans ((onlySamples_bump v k 31 1).mono (by simp)) (List.Subset.refl _)
    split
    · exact h3.trans ((onlySamples_bump w k 32 1).mono (by simp)) (List.Subset.refl _)
    · exact h3

/-- Sampling an instruction (R489) touches the samples and their two counters. -/
theorem sample_only (s : State) (k : Nat) (word : Word) (pc : Quad) (cores : BitVec 16) (desc : Quad) (left : List (Nat × Nat)) :
    OnlySamples k [31, 32] s (s.sample k word pc cores desc left) := by
  unfold State.sample
  simp only []
  have h : OnlySamples k [31, 32] s (s.modCluster k (fun c => { c with sampleCount := c.sampleCount + 1 })) :=
    OnlySamples.trans (l' := [31, 32]) (onlySamples_mod s k _ (fun _ => rfl)) (OnlySamples.refl k _ _) (by simp)
  split
  · exact h
  · split
    · exact h.trans (sampleWrite_only _ k _) (List.Subset.refl _)
    · exact h.trans (OnlySamples.trans (l' := [31, 32]) (onlySamples_mod _ k _ (fun _ => rfl)) (OnlySamples.refl k _ _) (by simp)) (List.Subset.refl _)

theorem sampleDone_fold (k : Nat) (ps : List SamplePend) (s : State) :
    OnlySamples k [31, 32] s (ps.foldl (fun t p => t.sampleWrite k p) s) := by
  induction ps generalizing s with
  | nil => exact OnlySamples.refl k _ s
  | cons p ps ih => exact (sampleWrite_only s k p).trans (ih _) (List.Subset.refl _)

/-- The end of a wait touches the samples and their two counters. -/
theorem sampleDone_only (s : State) (k : Nat) (w : Nat × Nat) : OnlySamples k [31, 32] s (s.sampleDone k w) := by
  unfold State.sampleDone
  exact (OnlySamples.trans (l' := [31, 32]) (onlySamples_mod s k _ (fun _ => rfl)) (OnlySamples.refl k _ _) (by simp)).trans
    (sampleDone_fold k _ _) (List.Subset.refl _)

/-! ## One executed instruction -/

/-- Beside its sequencer and the counters named, cluster k changes in its samples alone. -/
theorem OnlySamples.setSeq {k : Nat} {l : List Nat} {s t : State} (h : OnlySamples k (31 :: 32 :: l) s t) (q : Seq) :
    OnlySequencer k l s (t.setSeq k q) := by
  obtain ⟨a, b, c, d, e⟩ := h
  refine ⟨a.trans (SameRest.modCluster t k _), b, fun j hj => (cluster_modCluster_ne t _ hj).trans (c j hj), ?_, fun i hi => ?_⟩
  · simp only [cluster_setSeq, if_true, seq_setSeq_self]; rw [d]
  · rw [← e i hi]; simp [State.clusterCtr, cluster_setSeq]

/-- What executing an instruction does (R78, R84, R486): the sequencer's change and new pc, the counts, the samples; nothing else. -/
theorem seqAdvance_spec (s : State) (k : Nat) (word : Word) (cores : BitVec 16) (desc : Quad) (left : List (Nat × Nat)) (pc : Quad)
    (f : Seq → Seq) :
    OnlySequencer k [1] s (s.seqAdvance k word cores desc left pc f) ∧
    Executed k s (s.seqAdvance k word cores desc left pc f) pc f := by
  have h : OnlySamples k [31, 32, 1] s
      (((s.draw.2).sample k word (s.draw.2.seq k).pc cores desc left).bumpCluster k 1 1) :=
    ((onlySamples_draw s k).trans (sample_only s.draw.2 k word _ cores desc left) (by simp)).trans
      (OnlySamples.trans (l' := [31, 32, 1]) (onlySamples_bump _ k 1 1) (OnlySamples.refl k _ _) (by simp)) (by simp)
  have hc := (sample_only s.draw.2 k word (s.draw.2.seq k).pc cores desc left).2.2.2.2 1 (by simp)
  refine ⟨h.setSeq _, ?_, ?_⟩
  · simp only [State.seqAdvance, seq_setSeq_self]
    have e := h.seq
    rw [e]
  · simp only [State.seqAdvance]
    unfold State.clusterCtr at *
    simp only [cluster_setSeq, if_true, cluster_bumpCluster, mget_mmod]
    rw [hc]; rfl

theorem reg_setReg (q : Seq) (r d : BitVec 5) (v : Quad) : (q.setReg d v).reg r = if r = d ∧ r ≠ 0 then v else q.reg r := by
  unfold Seq.setReg Seq.reg
  by_cases hd : d = 0
  · by_cases hr : r = d <;> simp_all
  · simp only [hd, if_false, mget_mset, BitVec.toNat_inj]
    by_cases hr : r = 0 <;> by_cases hrd : r = d <;> simp_all

/-- An instruction that writes one general register and goes on at pc. -/
theorem regStep_seqAdvance (s : State) (k : Nat) (word : Word) (pc : Quad) (gd : BitVec 5) (v : Quad) (f : Seq → Seq)
    (hf : f (s.seq k) = (s.seq k).setReg gd v) : RegStep k s (s.seqAdvance k word 0 0 [] pc f) gd v pc := by
  obtain ⟨h, he, hc⟩ := seqAdvance_spec s k word 0 0 [] pc f
  refine ⟨h, ⟨?_, hc⟩, fun r => ?_⟩
  · rw [he, hf]
  · unfold State.gReg; rw [he, hf, ← reg_setReg]; rfl

theorem seqOp_eq {s : State} {k : Nat} (h : (s.seqJob k).isSome) (word : Word) (f : Seq → Seq) :
    s.seqOp k word f = s.seqAdvance k word 0 0 [] ((s.seq k).pc + 4) f := by simp [State.seqOp, State.seqNext, h]

/-- An instruction that writes one general register and goes on to the next word. -/
theorem regStep_seqOp {s : State} {k : Nat} (h : (s.seqJob k).isSome) (word : Word) (gd : BitVec 5) (v : Quad) (f : Seq → Seq)
    (hf : f (s.seq k) = (s.seq k).setReg gd v) : RegStep k s (s.seqOp k word f) gd v ((s.seq k).pc + 4) := by
  rw [seqOp_eq h]; exact regStep_seqAdvance s k word _ gd v f hf

/-- A legal instruction runs, an illegal one is a fault of its sequencer (R9, R80). -/
theorem seqLegal_eq {s : State} {k : Nat} (h : (s.seqJob k).isSome) (legal : Bool) (t : State) :
    s.seqLegal k legal t = if legal then t else s.seqFault k stIllegal := by
  unfold State.seqLegal
  rw [if_neg (by simpa [Option.isNone_iff_eq_none, Option.isSome_iff_ne_none] using h)]

end Sys2Proof.Machine
end

