-- ==== Sys2Proof/Laws/Units.lean ====
section
/-! SUPPORT. The updates of the units' own records (a queue entry, an encoder's stream, an exchange operation, a barrier, a vacancy list,
a firmware bank, a Ledger bank, a session, a running command): what each leaves unchanged, one simp lemma per field. -/

namespace Sys2Proof.Machine

variable (s : State)

@[simp] theorem modEntry_pacing (c : Nat) (ord : Word) (f : QEntry → QEntry) : (s.modEntry c ord f).pacing = s.pacing := rfl
@[simp] theorem modEntry_clusters (c : Nat) (ord : Word) (f : QEntry → QEntry) : (s.modEntry c ord f).clusters = s.clusters := rfl
@[simp] theorem modEntry_ms (c : Nat) (ord : Word) (f : QEntry → QEntry) : (s.modEntry c ord f).ms = s.ms := rfl
@[simp] theorem modEntry_car (c : Nat) (ord : Word) (f : QEntry → QEntry) : (s.modEntry c ord f).car = s.car := rfl
@[simp] theorem modEntry_net (c : Nat) (ord : Word) (f : QEntry → QEntry) : (s.modEntry c ord f).net = s.net := rfl
@[simp] theorem modEntry_hub (c : Nat) (ord : Word) (f : QEntry → QEntry) : (s.modEntry c ord f).hub = s.hub := rfl
@[simp] theorem modEntry_pwr (c : Nat) (ord : Word) (f : QEntry → QEntry) : (s.modEntry c ord f).pwr = s.pwr := rfl
@[simp] theorem modEntry_enc (c : Nat) (ord : Word) (f : QEntry → QEntry) : (s.modEntry c ord f).enc = s.enc := rfl
@[simp] theorem modEntry_por (c : Nat) (ord : Word) (f : QEntry → QEntry) : (s.modEntry c ord f).por = s.por := rfl
@[simp] theorem modEntry_boot (c : Nat) (ord : Word) (f : QEntry → QEntry) : (s.modEntry c ord f).boot = s.boot := rfl
@[simp] theorem modEntry_draws (c : Nat) (ord : Word) (f : QEntry → QEntry) : (s.modEntry c ord f).draws = s.draws := rfl
@[simp] theorem modEntry_out (c : Nat) (ord : Word) (f : QEntry → QEntry) : (s.modEntry c ord f).out = s.out := rfl
@[simp] theorem modEntry_pending (c : Nat) (ord : Word) (f : QEntry → QEntry) : (s.modEntry c ord f).pending = s.pending := rfl

@[simp] theorem modEnc_pacing (i : Nat) (f : EncStream → EncStream) : (s.modEnc i f).pacing = s.pacing := rfl
@[simp] theorem modEnc_clusters (i : Nat) (f : EncStream → EncStream) : (s.modEnc i f).clusters = s.clusters := rfl
@[simp] theorem modEnc_cores (i : Nat) (f : EncStream → EncStream) : (s.modEnc i f).cores = s.cores := rfl
@[simp] theorem modEnc_ms (i : Nat) (f : EncStream → EncStream) : (s.modEnc i f).ms = s.ms := rfl
@[simp] theorem modEnc_car (i : Nat) (f : EncStream → EncStream) : (s.modEnc i f).car = s.car := rfl
@[simp] theorem modEnc_net (i : Nat) (f : EncStream → EncStream) : (s.modEnc i f).net = s.net := rfl
@[simp] theorem modEnc_pwr (i : Nat) (f : EncStream → EncStream) : (s.modEnc i f).pwr = s.pwr := rfl
@[simp] theorem modEnc_enc (i : Nat) (f : EncStream → EncStream) : (s.modEnc i f).enc = s.enc := rfl
@[simp] theorem modEnc_por (i : Nat) (f : EncStream → EncStream) : (s.modEnc i f).por = s.por := rfl
@[simp] theorem modEnc_boot (i : Nat) (f : EncStream → EncStream) : (s.modEnc i f).boot = s.boot := rfl
@[simp] theorem modEnc_draws (i : Nat) (f : EncStream → EncStream) : (s.modEnc i f).draws = s.draws := rfl
@[simp] theorem modEnc_out (i : Nat) (f : EncStream → EncStream) : (s.modEnc i f).out = s.out := rfl
@[simp] theorem modEnc_pending (i : Nat) (f : EncStream → EncStream) : (s.modEnc i f).pending = s.pending := rfl

@[simp] theorem setOp_pacing (o : ExOp) : (s.setOp o).pacing = s.pacing := rfl
@[simp] theorem setOp_clusters (o : ExOp) : (s.setOp o).clusters = s.clusters := rfl
@[simp] theorem setOp_cores (o : ExOp) : (s.setOp o).cores = s.cores := rfl
@[simp] theorem setOp_ms (o : ExOp) : (s.setOp o).ms = s.ms := rfl
@[simp] theorem setOp_car (o : ExOp) : (s.setOp o).car = s.car := rfl
@[simp] theorem setOp_hub (o : ExOp) : (s.setOp o).hub = s.hub := rfl
@[simp] theorem setOp_pwr (o : ExOp) : (s.setOp o).pwr = s.pwr := rfl
@[simp] theorem setOp_enc (o : ExOp) : (s.setOp o).enc = s.enc := rfl
@[simp] theorem setOp_por (o : ExOp) : (s.setOp o).por = s.por := rfl
@[simp] theorem setOp_boot (o : ExOp) : (s.setOp o).boot = s.boot := rfl
@[simp] theorem setOp_draws (o : ExOp) : (s.setOp o).draws = s.draws := rfl
@[simp] theorem setOp_out (o : ExOp) : (s.setOp o).out = s.out := rfl
@[simp] theorem setOp_pending (o : ExOp) : (s.setOp o).pending = s.pending := rfl

@[simp] theorem modBarrier_pacing (job : JobId) (chan : Nat) (f : Barrier → Barrier) : (s.modBarrier job chan f).pacing = s.pacing := rfl
@[simp] theorem modBarrier_clusters (job : JobId) (chan : Nat) (f : Barrier → Barrier) : (s.modBarrier job chan f).clusters = s.clusters := rfl
@[simp] theorem modBarrier_cores (job : JobId) (chan : Nat) (f : Barrier → Barrier) : (s.modBarrier job chan f).cores = s.cores := rfl
@[simp] theorem modBarrier_ms (job : JobId) (chan : Nat) (f : Barrier → Barrier) : (s.modBarrier job chan f).ms = s.ms := rfl
@[simp] theorem modBarrier_car (job : JobId) (chan : Nat) (f : Barrier → Barrier) : (s.modBarrier job chan f).car = s.car := rfl
@[simp] theorem modBarrier_net (job : JobId) (chan : Nat) (f : Barrier → Barrier) : (s.modBarrier job chan f).net = s.net := rfl
@[simp] theorem modBarrier_pwr (job : JobId) (chan : Nat) (f : Barrier → Barrier) : (s.modBarrier job chan f).pwr = s.pwr := rfl
@[simp] theorem modBarrier_enc (job : JobId) (chan : Nat) (f : Barrier → Barrier) : (s.modBarrier job chan f).enc = s.enc := rfl
@[simp] theorem modBarrier_por (job : JobId) (chan : Nat) (f : Barrier → Barrier) : (s.modBarrier job chan f).por = s.por := rfl
@[simp] theorem modBarrier_boot (job : JobId) (chan : Nat) (f : Barrier → Barrier) : (s.modBarrier job chan f).boot = s.boot := rfl
@[simp] theorem modBarrier_draws (job : JobId) (chan : Nat) (f : Barrier → Barrier) : (s.modBarrier job chan f).draws = s.draws := rfl
@[simp] theorem modBarrier_out (job : JobId) (chan : Nat) (f : Barrier → Barrier) : (s.modBarrier job chan f).out = s.out := rfl
@[simp] theorem modBarrier_pending (job : JobId) (chan : Nat) (f : Barrier → Barrier) : (s.modBarrier job chan f).pending = s.pending := rfl

@[simp] theorem modVac_pacing (p m : Nat) (f : Vacancy → Vacancy) : (s.modVac p m f).pacing = s.pacing := rfl
@[simp] theorem modVac_clusters (p m : Nat) (f : Vacancy → Vacancy) : (s.modVac p m f).clusters = s.clusters := rfl
@[simp] theorem modVac_cores (p m : Nat) (f : Vacancy → Vacancy) : (s.modVac p m f).cores = s.cores := rfl
@[simp] theorem modVac_car (p m : Nat) (f : Vacancy → Vacancy) : (s.modVac p m f).car = s.car := rfl
@[simp] theorem modVac_net (p m : Nat) (f : Vacancy → Vacancy) : (s.modVac p m f).net = s.net := rfl
@[simp] theorem modVac_hub (p m : Nat) (f : Vacancy → Vacancy) : (s.modVac p m f).hub = s.hub := rfl
@[simp] theorem modVac_pwr (p m : Nat) (f : Vacancy → Vacancy) : (s.modVac p m f).pwr = s.pwr := rfl
@[simp] theorem modVac_enc (p m : Nat) (f : Vacancy → Vacancy) : (s.modVac p m f).enc = s.enc := rfl
@[simp] theorem modVac_por (p m : Nat) (f : Vacancy → Vacancy) : (s.modVac p m f).por = s.por := rfl
@[simp] theorem modVac_boot (p m : Nat) (f : Vacancy → Vacancy) : (s.modVac p m f).boot = s.boot := rfl
@[simp] theorem modVac_draws (p m : Nat) (f : Vacancy → Vacancy) : (s.modVac p m f).draws = s.draws := rfl
@[simp] theorem modVac_out (p m : Nat) (f : Vacancy → Vacancy) : (s.modVac p m f).out = s.out := rfl
@[simp] theorem modVac_pending (p m : Nat) (f : Vacancy → Vacancy) : (s.modVac p m f).pending = s.pending := rfl

@[simp] theorem modBank_pacing (b : Nat) (f : FwBank → FwBank) : (s.modBank b f).pacing = s.pacing := rfl
@[simp] theorem modBank_clusters (b : Nat) (f : FwBank → FwBank) : (s.modBank b f).clusters = s.clusters := rfl
@[simp] theorem modBank_cores (b : Nat) (f : FwBank → FwBank) : (s.modBank b f).cores = s.cores := rfl
@[simp] theorem modBank_ms (b : Nat) (f : FwBank → FwBank) : (s.modBank b f).ms = s.ms := rfl
@[simp] theorem modBank_car (b : Nat) (f : FwBank → FwBank) : (s.modBank b f).car = s.car := rfl
@[simp] theorem modBank_net (b : Nat) (f : FwBank → FwBank) : (s.modBank b f).net = s.net := rfl
@[simp] theorem modBank_hub (b : Nat) (f : FwBank → FwBank) : (s.modBank b f).hub = s.hub := rfl
@[simp] theorem modBank_pwr (b : Nat) (f : FwBank → FwBank) : (s.modBank b f).pwr = s.pwr := rfl
@[simp] theorem modBank_enc (b : Nat) (f : FwBank → FwBank) : (s.modBank b f).enc = s.enc := rfl
@[simp] theorem modBank_por (b : Nat) (f : FwBank → FwBank) : (s.modBank b f).por = s.por := rfl
@[simp] theorem modBank_draws (b : Nat) (f : FwBank → FwBank) : (s.modBank b f).draws = s.draws := rfl
@[simp] theorem modBank_out (b : Nat) (f : FwBank → FwBank) : (s.modBank b f).out = s.out := rfl
@[simp] theorem modBank_pending (b : Nat) (f : FwBank → FwBank) : (s.modBank b f).pending = s.pending := rfl

@[simp] theorem setBank_pacing (b : Nat) (v : Option LedgerImage) : (s.setBank b v).pacing = s.pacing := rfl
@[simp] theorem setBank_clusters (b : Nat) (v : Option LedgerImage) : (s.setBank b v).clusters = s.clusters := rfl
@[simp] theorem setBank_cores (b : Nat) (v : Option LedgerImage) : (s.setBank b v).cores = s.cores := rfl
@[simp] theorem setBank_ms (b : Nat) (v : Option LedgerImage) : (s.setBank b v).ms = s.ms := rfl
@[simp] theorem setBank_car (b : Nat) (v : Option LedgerImage) : (s.setBank b v).car = s.car := rfl
@[simp] theorem setBank_net (b : Nat) (v : Option LedgerImage) : (s.setBank b v).net = s.net := rfl
@[simp] theorem setBank_hub (b : Nat) (v : Option LedgerImage) : (s.setBank b v).hub = s.hub := rfl
@[simp] theorem setBank_pwr (b : Nat) (v : Option LedgerImage) : (s.setBank b v).pwr = s.pwr := rfl
@[simp] theorem setBank_enc (b : Nat) (v : Option LedgerImage) : (s.setBank b v).enc = s.enc := rfl
@[simp] theorem setBank_boot (b : Nat) (v : Option LedgerImage) : (s.setBank b v).boot = s.boot := rfl
@[simp] theorem setBank_draws (b : Nat) (v : Option LedgerImage) : (s.setBank b v).draws = s.draws := rfl
@[simp] theorem setBank_out (b : Nat) (v : Option LedgerImage) : (s.setBank b v).out = s.out := rfl
@[simp] theorem setBank_pending (b : Nat) (v : Option LedgerImage) : (s.setBank b v).pending = s.pending := rfl

@[simp] theorem modSession_pacing (n : Word) (f : Session → Session) : (s.modSession n f).pacing = s.pacing := rfl
@[simp] theorem modSession_clusters (n : Word) (f : Session → Session) : (s.modSession n f).clusters = s.clusters := rfl
@[simp] theorem modSession_cores (n : Word) (f : Session → Session) : (s.modSession n f).cores = s.cores := rfl
@[simp] theorem modSession_ms (n : Word) (f : Session → Session) : (s.modSession n f).ms = s.ms := rfl
@[simp] theorem modSession_car (n : Word) (f : Session → Session) : (s.modSession n f).car = s.car := rfl
@[simp] theorem modSession_net (n : Word) (f : Session → Session) : (s.modSession n f).net = s.net := rfl
@[simp] theorem modSession_hub (n : Word) (f : Session → Session) : (s.modSession n f).hub = s.hub := rfl
@[simp] theorem modSession_pwr (n : Word) (f : Session → Session) : (s.modSession n f).pwr = s.pwr := rfl
@[simp] theorem modSession_enc (n : Word) (f : Session → Session) : (s.modSession n f).enc = s.enc := rfl
@[simp] theorem modSession_boot (n : Word) (f : Session → Session) : (s.modSession n f).boot = s.boot := rfl
@[simp] theorem modSession_draws (n : Word) (f : Session → Session) : (s.modSession n f).draws = s.draws := rfl
@[simp] theorem modSession_out (n : Word) (f : Session → Session) : (s.modSession n f).out = s.out := rfl
@[simp] theorem modSession_pending (n : Word) (f : Session → Session) : (s.modSession n f).pending = s.pending := rfl

@[simp] theorem modCmd_pacing (t : Word) (f : RunCmd → RunCmd) : (s.modCmd t f).pacing = s.pacing := rfl
@[simp] theorem modCmd_clusters (t : Word) (f : RunCmd → RunCmd) : (s.modCmd t f).clusters = s.clusters := rfl
@[simp] theorem modCmd_cores (t : Word) (f : RunCmd → RunCmd) : (s.modCmd t f).cores = s.cores := rfl
@[simp] theorem modCmd_ms (t : Word) (f : RunCmd → RunCmd) : (s.modCmd t f).ms = s.ms := rfl
@[simp] theorem modCmd_car (t : Word) (f : RunCmd → RunCmd) : (s.modCmd t f).car = s.car := rfl
@[simp] theorem modCmd_net (t : Word) (f : RunCmd → RunCmd) : (s.modCmd t f).net = s.net := rfl
@[simp] theorem modCmd_hub (t : Word) (f : RunCmd → RunCmd) : (s.modCmd t f).hub = s.hub := rfl
@[simp] theorem modCmd_pwr (t : Word) (f : RunCmd → RunCmd) : (s.modCmd t f).pwr = s.pwr := rfl
@[simp] theorem modCmd_enc (t : Word) (f : RunCmd → RunCmd) : (s.modCmd t f).enc = s.enc := rfl
@[simp] theorem modCmd_boot (t : Word) (f : RunCmd → RunCmd) : (s.modCmd t f).boot = s.boot := rfl
@[simp] theorem modCmd_draws (t : Word) (f : RunCmd → RunCmd) : (s.modCmd t f).draws = s.draws := rfl
@[simp] theorem modCmd_out (t : Word) (f : RunCmd → RunCmd) : (s.modCmd t f).out = s.out := rfl
@[simp] theorem modCmd_pending (t : Word) (f : RunCmd → RunCmd) : (s.modCmd t f).pending = s.pending := rfl

theorem stream_modEnc (i j : Nat) (f : EncStream → EncStream) :
    (s.modEnc i f).stream j = if j = i then { s.stream i with enc := f (s.stream i).enc } else s.stream j := stream_setStreamRec ..
theorem core_modEntry_self (c : Nat) (ord : Word) (f : QEntry → QEntry) :
    (s.modEntry c ord f).core c = { s.core c with queue := (s.core c).queue.map (fun e => if e.ord = ord then f e else e) } := core_modCore_self ..

/-! ## Operations over units -/

/-- What queueing a control record does (R315, R322, R350): one port takes it, to send or to keep; nothing else changes. -/
theorem sendCtrl_eq (p : Nat) (r : BitVec 256) :
    s.sendCtrl p r = s.modPort p (fun x => if (s.port p).state = .up ∨ (s.port p).state = .draining then { x with ctrlOut := x.ctrlOut ++ [r] }
      else { x with ctrlHeld := x.ctrlHeld ++ [r] }) := by
  unfold State.sendCtrl; split <;> simp_all
/-- A FW_STAGE_MEM that is cut leaves its bank STAGING (R453), and changes nothing but that bank and the draws. -/
theorem cutStage_stage (c : RunCmd) : ((s.cutStage c).fwImage s.stageBank).stage = fwStaging := by
  simp [State.cutStage, State.stamp, State.stageBank, State.modBank, State.fwImage, State.withBoot, mget_mmod]
theorem cutStage_rest (c : RunCmd) :
    s.cutStage c = { s with draws := (s.cutStage c).draws, boot := { s.boot with banks := (s.cutStage c).boot.banks } } := rfl
/-- The commits that wait are made one by one. -/
theorem makeCommits_cons (c : CoreId) (p : PendCommit) (rest : List PendCommit) (h : (s.core c).commits = p :: rest) :
    s.makeCommits c = rest.foldl (fun t _ => t.chainCommit c) (s.chainCommit c) := by
  simp [State.makeCommits, h]
/-- A codeword written to a window: its bytes land, or the state counts the error of a rewrite, or it is the job's fault (Table 6-4). -/
theorem windowWrite_cases (i a : Nat) (bs : List Byte) (rw : Bool) :
    (∃ t, s.memWriteOwn a bs = .ok t ∧ s.windowWrite i a bs rw = (.here, t)) ∨
    (∃ e t, s.memWriteOwn a bs = .error (e, t) ∧ s.windowWrite i a bs rw =
      if rw then (.lost, t.countErr e) else (.faulted, t.accFault e (s.fillJob i) 0xFF 0xFF 0)) := by
  unfold State.windowWrite
  cases h : s.memWriteOwn a bs with
  | ok t => exact .inl ⟨t, rfl, rfl⟩
  | error p => exact .inr ⟨p.1, p.2, rfl, rfl⟩
/-- What undefined behaviour keeps (R7, log 131). -/
@[simp] theorem undefined_factory : s.undefined.por.factory = s.por.factory := rfl
@[simp] theorem undefined_fusedSvn : s.undefined.por.fusedSvn = s.por.fusedSvn := rfl
@[simp] theorem undefined_banks : s.undefined.boot.banks = s.imagesKept s.anyState := rfl
@[simp] theorem undefined_pending : s.undefined.pending = s.pending := rfl
@[simp] theorem undefined_draws : s.undefined.draws = s.draws + 1 := rfl
@[simp] theorem undefined_out : s.undefined.out = s.anyState.out ++ s.out := rfl
/-- The free state is one whose memories are written down in canonical form. -/
theorem anyState_wf (h : s.memoriesWf = true) : s.anyState.memoriesWf = true := by
  unfold State.anyState; simp only; split <;> assumption
/-- A step of the ramp moves nothing but the dividers and the voltage, or leads to undefined behaviour (R403, R406). -/
theorem rampStep_cases : (∃ f, s.rampStep = .next (s.withPwr f)) ∨ s.rampStep = .next s.undefined := by
  unfold State.rampStep; simp only; split
  · exact .inl ⟨_, rfl⟩
  · split
    · exact .inl ⟨_, rfl⟩
    · exact .inr rfl
/-- Header OBUs go into the ring in order, each as one (R395). -/
@[simp] theorem emitHeads_nil (i p : Nat) (next : State → State) : emitHeads i p next [] s = next s := rfl
theorem emitHeads_cons (i p : Nat) (next : State → State) (b : List Byte) (rest : List (List Byte)) :
    emitHeads i p next (b :: rest) s = s.tryObu i p b (fun t => emitHeads i p next rest
      (t.modEnc i (fun x => { x with frame := x.frame.map (fun f => { f with headsOut := f.headsOut + 1 }) }))) := rfl
/-- A reset cuts the commands one by one, each after what the earlier ones left (R198). -/
@[simp] theorem cutCmds_nil : s.cutCmds [] = (s, []) := rfl
theorem cutCmds_cons (c : RunCmd) (rest : List RunCmd) : s.cutCmds (c :: rest) =
    (((s.cutCmd c).1.cutCmds rest).1, ((s.cutCmd c).2.map (fun n => (c.ticket, n))).toList ++ ((s.cutCmd c).1.cutCmds rest).2) := rfl
/-- A repeat of a faulted key write takes one off their number (R468). -/
theorem keyRetry_eq : s.keyRetry = if s.por.keysRetry = 0 then s
    else (s.withPor (fun p => { p with keysRetry := p.keysRetry - 1 })).ledgerPut .keys := rfl

end Sys2Proof.Machine
end

