-- ==== Sys2Proof/Tests/Slice0.lean ====
section
/-! SUPPORT. The author's tests: the well-formedness smoke, words of the sequencer written out from Tables 3-6 and 3-7, and for
every statement with hypotheses a state and operands that meet them all (one theorem per statement, a line per clause). Expected
values come from the spec's tables and worked numbers. -/

namespace Sys2Proof.Tests

open Sys2Proof Sys2Proof.Machine

-- One theorem after another: each runs on a thread of its own, and their stacks together would not fit.
set_option Elab.async false

/-! ## Well-formedness: every check refuses an ill-formed term -/

def badFrame : PortFrame := ⟨0, [], 0, 0⟩

theorem test_wf_refuses :
    Instr.wf (.frameReceive 0 badFrame) = false ∧ Instr.wf (.laneSerWindow 0 [1]) = false ∧
    Instr.wf (.stewardSample ⟨0, 0, 0, [], []⟩) = false ∧ Instr.wf (.stewardPeriod ⟨[101], []⟩) = false ∧
    Instr.wf (.stewardPeriod ⟨List.replicate 16 101, []⟩) = false ∧
    Instr.wf (.powerFault 0) = false ∧ Instr.wf (.powerFault 6) = false ∧
    Instr.wf (.relayForward 0 0 19) = false ∧ Instr.wf (.relayForward 0 0 25) = false ∧
    Instr.wf (.porterFrameReceive (List.replicate 1453 0) ({}, {})) = false ∧
    Instr.wf (.bistRunEnd 0x0C [] []) = false ∧ Instr.wf (.bistRunEnd 0xFF [] []) = false ∧ Instr.wf (.bistRunEnd 0 [1, 1] [0, 5]) = false ∧
    Instr.wf (.bistRunEnd 0 [1] []) = false ∧
    Instr.wf (.codewordReadDone 0 0 true 16) = false ∧ Instr.wf (.patrolScrub 0 0 [1] [1]) = false ∧
    Instr.wf (.encTileDone 0 0 0 []) = false ∧ Instr.wf (.encTileGroupEmit 0 0) = false ∧
    Instr.wf (.faultSweep (.coreMemUe 0 (2 ^ 40))) = false ∧ Instr.wf (.faultSweep (.seqMemUe 0 (2 ^ 40))) = false ∧
    Instr.wf (.faultSweep (.roomEntryUe 0 (2 ^ 24))) = false ∧ Instr.wf (.faultSweep (.saveUe 0 (2 ^ 40))) = false ∧
    Instr.wf (.registerWrite 4 0 true) = false ∧ Instr.wf (.registerWrite 2 0 false) = false := by decide +kernel

theorem test_wf_accepts :
    Instr.wf (.powerFault 5) = true ∧ Instr.wf (.relayForward 0 0 24) = true ∧ Instr.wf (.bistRunEnd 0x43 [0] [5]) = true ∧
    Instr.wf (.registerWrite 8 0 true) = true ∧ Instr.wf (.patrolScrub 0 0 [1] [2]) = true := by decide +kernel

/-! ## Words of Table 3-7, bit by bit: OPC in bits 31–26, then the fields of Table 3-6 -/

/-- G: OPC(6) GD(5) GA(5) GB(5) FN(11). -/
theorem test_word_add : seqDecode 3 0b000001_00011_00001_00010_00000000000#32 = some (.aluAdd 3 3 1 2) := by decide +kernel
theorem test_word_sltu : seqDecode 3 0b000001_11111_00001_00010_00000001111#32 = some (.aluSltu 3 31 1 2) := by decide +kernel
theorem test_word_amoswap : seqDecode 0 0b010100_00100_00101_00110_00000000001#32 = some (.amoSwap 0 4 5 6) := by decide +kernel
theorem test_word_issue : seqDecode 0 0b100000_00000_00101_00110_00000000000#32 = some (.issue 0 0 5 6 0) := by decide +kernel
theorem test_word_halt : seqDecode 0 0b111110_00000_00000_00000_00000000000#32 = some (.halt 0 0 0 0 0) := by decide +kernel
theorem test_word_bar : seqDecode 0 0b100110_00000_00111_00000_00000000000#32 = some (.seqBar 0 0 7 0 0) := by decide +kernel
/-- I: OPC(6) GD(5) GA(5) IMM16(16). -/
theorem test_word_addi : seqDecode 1 0b000010_00010_00011_1111111111111111#32 = some (.addi 1 2 3 0xFFFF) := by decide +kernel
theorem test_word_ldx : seqDecode 1 0b010010_00010_00011_0000000000001000#32 = some (.ldx 1 2 3 8) := by decide +kernel
theorem test_word_csrr : seqDecode 1 0b101100_00010_00000_0000000000010000#32 = some (.csrr 1 2 0 0x10) := by decide +kernel
/-- B: OPC(6) GA(5) GB(5) OFF16(16). -/
theorem test_word_beq : seqDecode 1 0b011000_00010_00011_1111111111111110#32 = some (.beq 1 2 3 0xFFFE) := by decide +kernel
/-- J: OPC(6) GD(5) OFF21(21). -/
theorem test_word_jal : seqDecode 1 0b011110_00001_100000000000000000000#32 = some (.jal 1 1 0x100000) := by decide +kernel
/-- OPC 0 and an FN that Table 3-7 does not list stand for nothing. -/
theorem test_word_illegal : seqDecode 1 0#32 = none ∧ seqDecode 1 0b000001_00011_00001_00010_00000010000#32 = none ∧
    seqDecode 1 0b010100_00100_00101_00110_00000000100#32 = none := by decide +kernel

/-! ## A small module: one running job on clusters 2 and 5 -/

/-- A submission entry with a team mask in bits 27–16. -/
def teamEntry (mask : Nat) : Desc := BitVec.ofNat 512 (mask * 2 ^ 16)

def wJob : Job := {
  id := 0x70001, pair := 3, entry := teamEntry 0b100100, header := 0, admitSeq := 1, phase := .running, epoch := 7, canon := false,
  tabBytes := 0, lbBytes := 0, slot := none, streams := [], adapters := [], groups := [], barriers := [], saveAreas := [],
  bookings := [], admitPacing := 0, bellPacing := 0 }

/-- Cluster 2 runs wJob with these registers; stalls, posts and accesses as given. The adapter table lies on stack M2. -/
def wSeq (regs : AMap Quad) (q : Seq := {}) : State :=
  { clusters := [(2, { holder := some 0x70001, seq := { q with active := true, regs := regs, pc := 0x1000 } }),
                 (5, { holder := some 0x70001 })],
    hub := { jobs := [wJob] }, pwr := { rootLocked := true, blocks := [(12, 1), (13, 1), (14, 1)] },
    boot := { hub0 := true, hub1 := true }, por := { vals := [(dKey 0x0A00 1, 2 ^ 38)] } }

def Nxt (r : Res) (p : State → Bool) : Bool :=
  match r with
  | .next t => p t
  | _ => false

/-- The module in service: every block ON, the hubs run, the porter runs. -/
def wUp : State :=
  { wSeq [] with
    pwr := { rootLocked := true, blocks := (List.range 40).map (fun b => (b, 1)) },
    boot := { hub0 := true, hub1 := true, vin := true, refclk := true, porterStarted := true, porterRuns := true, ready := true,
              inReset := false, flashReady := true, cxlUp := true } }

/-- The request being served: one record that writes bs to entry (i, u), in session 5 on the field path. -/
def wWrite (i u : Nat) (bs : List Byte) (s : State := wUp) : State :=
  { s with por := { s.por with
      current := some { path := .field, kind := 1, session := 5, txn := 1, more := false, multicast := false,
                        recs := [⟨i, u, 2, bs.length, 0, bs.length, bs⟩] } } }
def isWrites (s : State) (i u : Nat) (bs : List Byte) : Bool :=
  match s.frontRec with
  | some (f, r) => !s.boot.resetAfter && r.rop == 2 && r.index == i && r.sub == u && (match s.lookWrite f r with
    | .value b _ => b == bs
    | _ => false)
  | none => false
theorem writes_of {s : State} {i u : Nat} {bs : List Byte} (h : isWrites s i u bs = true) : s.writes i u bs := by
  unfold isWrites at h
  split at h
  · next f r hf =>
    simp only [Bool.and_eq_true, Bool.not_eq_true', beq_iff_eq] at h
    obtain ⟨⟨⟨⟨h0, h1⟩, h2⟩, h3⟩, h4⟩ := h
    split at h4
    · next b t hv => exact ⟨f, r, t, h0, hf, h1, h2, h3, by rw [hv]; simp_all⟩
    · cases h4
  · cases h

/-! ## Sequencer: a state for every hypothesis, and single steps -/

theorem test_hyp_StepRunsFront :
    ({ wSeq [] with pending := [.nop 0] } : State).pending = [.nop 0] ∧ (wSeq []).pending = [] := by decide +kernel
theorem test_hyp_seqJob : (wSeq []).seqJob (2 : ClusterId) = some wJob ∧ (wSeq []).narrowJob (2 : ClusterId) = some wJob := by decide +kernel

theorem test_alu_add : Nxt (exec (.aluAdd 2 3 1 2) (wSeq [(1, 2 ^ 64 - 1), (2, 3)]))
    (fun t => t.gReg 2 3 == 2 && (t.seq 2).pc == 0x1004) = true := by decide +kernel
theorem test_alu_add_g0 : Nxt (exec (.aluAdd 2 0 1 2) (wSeq [(1, 5), (2, 3)])) (fun t => t.gReg 2 0 == 0) = true := by decide +kernel
theorem test_alu_sub : Nxt (exec (.aluSub 2 1 1 2) (wSeq [(1, 5), (2, 7)])) (fun t => t.gReg 2 1 == 0xFFFFFFFFFFFFFFFE) = true := by decide +kernel
theorem test_alu_and : Nxt (exec (.aluAnd 2 3 1 2) (wSeq [(1, 12), (2, 10)])) (fun t => t.gReg 2 3 == 8) = true := by decide +kernel
theorem test_alu_or : Nxt (exec (.aluOr 2 3 1 2) (wSeq [(1, 12), (2, 10)])) (fun t => t.gReg 2 3 == 14) = true := by decide +kernel
theorem test_alu_xor : Nxt (exec (.aluXor 2 3 1 2) (wSeq [(1, 12), (2, 10)])) (fun t => t.gReg 2 3 == 6) = true := by decide +kernel
/-- Shifts take bits [5:0] of gB. -/
theorem test_alu_shl : Nxt (exec (.aluShl 2 3 1 2) (wSeq [(1, 3), (2, 65)])) (fun t => t.gReg 2 3 == 6) = true := by decide +kernel
theorem test_alu_shr : Nxt (exec (.aluShr 2 3 1 2) (wSeq [(1, 2 ^ 63), (2, 63)])) (fun t => t.gReg 2 3 == 1) = true := by decide +kernel
theorem test_alu_sra : Nxt (exec (.aluSra 2 3 1 2) (wSeq [(1, 2 ^ 63), (2, 63)])) (fun t => t.gReg 2 3 == 0xFFFFFFFFFFFFFFFF) = true := by decide +kernel
theorem test_alu_mul : Nxt (exec (.aluMul 2 3 1 2) (wSeq [(1, 2 ^ 40), (2, 2 ^ 24 + 1)])) (fun t => t.gReg 2 3 == 2 ^ 40) = true := by decide +kernel
theorem test_alu_mulh : Nxt (exec (.aluMulh 2 3 1 2) (wSeq [(1, 2 ^ 64 - 1), (2, 1)]))
    (fun t => t.gReg 2 3 == 0xFFFFFFFFFFFFFFFF) = true := by decide +kernel
theorem test_alu_min_max : Nxt (exec (.aluMin 2 3 1 2) (wSeq [(1, 2 ^ 64 - 1), (2, 1)])) (fun t => t.gReg 2 3 == 0xFFFFFFFFFFFFFFFF) = true ∧
    Nxt (exec (.aluMax 2 3 1 2) (wSeq [(1, 2 ^ 64 - 1), (2, 1)])) (fun t => t.gReg 2 3 == 1) = true := by decide +kernel
theorem test_alu_minu_maxu : Nxt (exec (.aluMinu 2 3 1 2) (wSeq [(1, 2 ^ 64 - 1), (2, 1)])) (fun t => t.gReg 2 3 == 1) = true ∧
    Nxt (exec (.aluMaxu 2 3 1 2) (wSeq [(1, 2 ^ 64 - 1), (2, 1)])) (fun t => t.gReg 2 3 == 0xFFFFFFFFFFFFFFFF) = true := by decide +kernel
theorem test_alu_slt_sltu : Nxt (exec (.aluSlt 2 3 1 2) (wSeq [(1, 2 ^ 64 - 1), (2, 1)])) (fun t => t.gReg 2 3 == 1) = true ∧
    Nxt (exec (.aluSltu 2 3 1 2) (wSeq [(1, 2 ^ 64 - 1), (2, 1)])) (fun t => t.gReg 2 3 == 0) = true := by decide +kernel
/-- IMM16 is signed for ADDI and SLTI, unsigned for the logic operations. -/
theorem test_imm_signs : Nxt (exec (.addi 2 3 1 0xFFFF) (wSeq [(1, 5)])) (fun t => t.gReg 2 3 == 4) = true ∧
    Nxt (exec (.andi 2 3 1 0xFFFF) (wSeq [(1, 2 ^ 64 - 1)])) (fun t => t.gReg 2 3 == 0xFFFF) = true ∧
    Nxt (exec (.ori 2 3 1 0x8000) (wSeq [])) (fun t => t.gReg 2 3 == 0x8000) = true ∧
    Nxt (exec (.xori 2 3 1 0xFFFF) (wSeq [(1, 1)])) (fun t => t.gReg 2 3 == 0xFFFE) = true ∧
    Nxt (exec (.slti 2 3 1 0xFFFF) (wSeq [(1, 0)])) (fun t => t.gReg 2 3 == 0) = true := by decide +kernel
theorem test_lui : Nxt (exec (.lui 2 3 0 0x8000) (wSeq [])) (fun t => t.gReg 2 3 == 0xFFFFFFFF80000000) = true ∧
    Nxt (exec (.lui 2 3 1 0) (wSeq [])) (fun t => t.hub.sweeping) = true := by decide +kernel
theorem test_shli_bound : Nxt (exec (.shli 2 3 1 63) (wSeq [(1, 1)])) (fun t => t.gReg 2 3 == 2 ^ 63) = true ∧
    Nxt (exec (.shli 2 3 1 64) (wSeq [(1, 1)])) (fun t => t.hub.sweeping && t.gReg 2 3 == 0) = true := by decide +kernel
/-- The last local address a load reaches, and the first it does not. -/
theorem test_local_bounds : Nxt (exec (.st 2 1 2 0) (wSeq [(1, 0x1122334455667788), (2, 131064)]))
      (fun t => (t.seq 2).loc.read 131064 == 0x88#8 && (t.seq 2).loc.read 131071 == 0x11#8) = true ∧
    Nxt (exec (.ld 2 1 2 0) (wSeq [(2, 131072)])) (fun t => t.hub.sweeping) = true ∧
    Nxt (exec (.ld 2 1 2 0) (wSeq [(2, 4)])) (fun t => t.hub.sweeping) = true := by decide +kernel
theorem test_branches : Nxt (exec (.beq 2 1 2 0xFFFF) (wSeq [])) (fun t => (t.seq 2).pc == 0xFFC) = true ∧
    Nxt (exec (.bne 2 1 2 0xFFFF) (wSeq [])) (fun t => (t.seq 2).pc == 0x1004) = true ∧
    Nxt (exec (.blt 2 1 2 2) (wSeq [(1, 2 ^ 64 - 1)])) (fun t => (t.seq 2).pc == 0x1008) = true ∧
    Nxt (exec (.bltu 2 1 2 2) (wSeq [(1, 2 ^ 64 - 1)])) (fun t => (t.seq 2).pc == 0x1004) = true := by decide +kernel
theorem test_jumps : Nxt (exec (.jal 2 1 0x1FFFFF) (wSeq [])) (fun t => (t.seq 2).pc == 0xFFC && t.gReg 2 1 == 0x1004) = true ∧
    Nxt (exec (.jalr 2 1 1 3) (wSeq [(1, 0x2000)])) (fun t => (t.seq 2).pc == 0x2000 && t.gReg 2 1 == 0x1004) = true := by decide +kernel

theorem test_hyp_LocalLoadStore :
    ((wSeq [(2, 131064)]).gReg 2 2 + BitVec.ofInt 64 (0 : Half).toInt).toNat % 8 = 0 ∧
    ((wSeq [(2, 131064)]).gReg 2 2 + BitVec.ofInt 64 (0 : Half).toInt).toNat + 8 ≤ 131072 := by decide +kernel

/-! ### Narrow accesses -/

/-- The second cluster of the team, through the team window: rank 1, the first byte of the status words and of the work area. -/
theorem test_hyp_narrowTarget :
    (wSeq []).narrowTarget wJob 2 0x2000 = some (.stack 0x2000) ∧
    (wSeq []).narrowTarget wJob 2 (0x10004000000 + 0x10000) = some (.shared 5 0x10000) ∧
    (wSeq []).narrowTarget wJob 2 (0x10000000000 + 0x110000) = some .roomPort ∧
    (wSeq []).narrowTarget wJob 2 (0x10004000000 + 0x110000) = none ∧
    (wSeq []).narrowTarget wJob 2 0x10008000000 = none := by decide +kernel

theorem test_hyp_NarrowAccessBegins :
    (wSeq [(1, 0x2000)]).seqJob 2 = some wJob ∧ ((wSeq [(1, 0x2000)]).gReg 2 1 + BitVec.ofInt 64 (8 : Half).toInt).toNat = 0x2008 ∧
    ((wSeq [(1, 0x10000010000)]).gReg 2 1).toNat % 4 = 0 ∧
    (wSeq []).narrowTarget wJob 2 0x10000010000 = some (.shared 2 0x10000) := by decide +kernel

def wNarrow (k : NarrowKind) (a : Nat) (q : Seq := {}) : State := wSeq [] { q with outst := [⟨a, k⟩], stall := .narrow }

theorem test_hyp_NarrowAccessReturns :
    (wNarrow (.ldx 4) 0x2000).narrowJob 2 = some wJob ∧ ((wNarrow (.ldx 4) 0x2000).seq 2).outst = [⟨0x2000, .ldx 4⟩] ∧
    ((wNarrow (.ldx 4) 0x2000).memRead 0x2000 8).toOption.isSome = true ∧
    ((wNarrow (.amo 3 4 1 0) 0x10004010000).seq 2).outst = [⟨0x10004010000, .amo 3 4 1 0⟩] ∧
    (wNarrow (.amo 3 4 1 0) 0x10004010000).narrowTarget wJob 2 0x10004010000 = some (.shared 5 0x10000) := by decide +kernel

theorem test_amo_max : Nxt (exec (.narrowReturn 2) (wNarrow (.amo 3 4 0xFFFFFFFF 0) 0x10004010000))
    (fun t => t.gReg 2 4 == 0 && t.scRead 5 0x10000 4 == 0 && (t.seq 2).stall == .none) = true := by decide +kernel
theorem test_amo_add : Nxt (exec (.narrowReturn 2) (wNarrow (.amo 0 4 0xFFFFFFFF 0) 0x10004010000))
    (fun t => t.scRead 5 0x10000 4 == 0xFFFFFFFF) = true := by decide +kernel

theorem test_hyp_NarrowWriteAccepted :
    ((wNarrow (.stx 9) 0x10004010000).seq 2).outst = [⟨0x10004010000, .stx 9⟩] ∧
    ((wNarrow (.stx 9) 0x2000).memWrite 0x2000 (leBytes 8 9)).toOption.isSome = true ∧
    (wSeq [] { outst := [⟨0x2000, .stx 9⟩], stall := .stxLimit ⟨0x2008, .stx 1⟩ }).narrowJob 2 = some wJob := by decide +kernel
theorem test_stx_accepted : Nxt (exec (.narrowAccepted 2) (wNarrow (.stx 0x0102) 0x2000))
    (fun t => t.ms.mem.read 0x2000 == 2#8 && t.ms.mem.read 0x2001 == 1#8 && (t.seq 2).outst == []) = true := by decide +kernel

/-! ### ISSUE, TFENCE, counters -/

def fullQueue : Core := { issued := 16, queue := (List.range 16).map (fun i => { desc := 0, ord := BitVec.ofNat 32 (i + 1) }) }

theorem test_hyp_IssueDeliversOrStalls :
    ((wSeq [(1, 0x1FFC0), (2, 3)]).gReg 2 1).toNat % 64 = 0 ∧ ((wSeq [(1, 0x1FFC0)]).gReg 2 1).toNat ≤ 0x1FFC0 ∧
    ({ wSeq [] with cores := [(33, fullQueue)] } : State).core 33 = fullQueue ∧
    (wSeq [] { stall := .issue 5 3 }).narrowJob 2 = some wJob ∧ ((wSeq [] { stall := .issue 5 3 }).seq 2).stall = .issue 5 3 := by decide +kernel
theorem test_issue : Nxt (exec (.issue 2 0 1 2 0) (wSeq [(1, 0x10000), (2, 0b10)]))
    (fun t => (t.core 33).queue.length == 1 && (t.core 32).queue.length == 0 && (t.core 33).issued == 1) = true := by decide +kernel
theorem test_issue_full : Nxt (exec (.issue 2 0 1 2 0) { wSeq [(1, 0x10000), (2, 3)] with cores := [(33, fullQueue)] })
    (fun t => (t.core 33).queue.length == 16 && (t.core 32).queue.length == 0 && (t.seq 2).stall == .issue 0 3) = true := by decide +kernel

theorem test_hyp_FenceAndHalt :
    (wSeq [(1, 3)]).fenceClear [32, 33] = true ∧ ({ wSeq [] with cores := [(33, fullQueue)] } : State).fenceClear [32, 33] = false ∧
    (wSeq [] { stall := .tfence 3 }).narrowJob 2 = some wJob ∧ ((wSeq [] { stall := .tfence 3 }).seq 2).stall = .tfence 3 := by decide +kernel
theorem test_halt : Nxt (exec (.halt 2 0 0 0 0) (wSeq [])) (fun t => (t.seq 2).halted) = true ∧
    Nxt (exec (.halt 2 0 0 0 1) (wSeq [])) (fun t => !(t.seq 2).halted && t.hub.sweeping) = true := by decide +kernel

/-- An identifier's rank, and the first rank outside the team. -/
theorem test_hyp_counters :
    wJob.team = [2, 5] ∧ wJob.team[0x1005 / 2 ^ 12]? = some 5 ∧ wJob.team[0x2000 / 2 ^ 12]? = none ∧
    wJob.team[0x0FF / 2 ^ 8]? = some 2 ∧ wJob.team[0x1FF / 2 ^ 8]? = some 5 ∧ wJob.team[0x200 / 2 ^ 8]? = none := by decide +kernel
theorem test_csrr_team : Nxt (exec (.csrr 5 1 0 0x011) { wSeq [] with clusters := [(5, { holder := some 0x70001, seq := { active := true } })] })
    (fun t => t.gReg 5 1 == 1) = true ∧ Nxt (exec (.csrr 2 1 0 0x012) (wSeq [])) (fun t => t.gReg 2 1 == 2) = true ∧
    Nxt (exec (.csrr 2 1 0 0x003) (wSeq [])) (fun t => t.hub.sweeping) = true := by decide +kernel
theorem test_cset : Nxt (exec (.cset 2 0 1 2 0) (wSeq [(1, 0x1FFF), (2, 7)])) (fun t => t.syncVal 5 0xFFF == 7) = true ∧
    Nxt (exec (.cset 2 0 1 2 0) (wSeq [(1, 0x2000), (2, 7)])) (fun t => t.hub.sweeping) = true := by decide +kernel
theorem test_pset : Nxt (exec (.pset 2 0 1 2 0) (wSeq [(1, 0x1FF), (2, 7)])) (fun t => t.progVal (16 * 5 + 15) 15 == 7) = true ∧
    Nxt (exec (.pread 2 3 1 0 0) ((wSeq [(1, 0x012)]).setProg 33 2 9)) (fun t => t.gReg 2 3 == 9) = true := by decide +kernel

theorem test_hyp_CounterWaits :
    ((wSeq []).setSync 5 0xFFF 7).syncVal 5 0xFFF = 7 ∧
    (wSeq [] { stall := .cwait 0x1FFF 7 }).narrowJob 2 = some wJob ∧ ((wSeq [] { stall := .cwait 0x1FFF 7 }).seq 2).stall = .cwait 0x1FFF 7 := by decide +kernel
theorem test_cwait : Nxt (exec (.cwait 2 0 1 2 0) ((wSeq [(1, 0x1FFF), (2, 7)]).setSync 5 0xFFF 7)) (fun t => (t.seq 2).stall == .none) = true ∧
    Nxt (exec (.cwait 2 0 1 2 0) ((wSeq [(1, 0x1FFF), (2, 8)]).setSync 5 0xFFF 7)) (fun t => (t.seq 2).stall == .cwait 0x1FFF 8) = true := by decide +kernel

/-! ### Posts and barriers -/

def wSeqPost : State := wSeq [(1, 0x1005), (2, 7)]
theorem test_hyp_SyncPosts :
    wSeqPost.seqJob 2 = some wJob ∧ (wJob.team[(wSeqPost.gReg 2 1).toNat / 2 ^ 12]?).isSome = true ∧ (wSeqPost.seq 2).outst = [] ∧
    (wNarrow (.stx 9) 0x2000 { outst := [] }).narrowJob 2 = some wJob ∧ ((wSeq [] { outst := [⟨0x2000, .stx 9⟩] }).seq 2).outst ≠ [] ∧
    ((wSeq [] { posts := [(0, ⟨1, 0x1005, 7⟩)] }).seq 2).posts = [(0, ⟨1, 0x1005, 7⟩)] ∧
    ({ wSeq [] with cores := [(33, { posts := [⟨2, 0, 1⟩, ⟨1, 0x1005, 7⟩] })] } : State).postJob 33 = some wJob ∧
    takePost 1 [⟨2, 0, 1⟩, ⟨1, 0x1005, 7⟩] = some (⟨1, 0x1005, 7⟩, [⟨2, 0, 1⟩]) ∧
    (((wSeq []).setSync 5 5 0xFFFFFFFF).syncVal 5 5).toNat + (1 : Word).toNat = 2 ^ 32 ∧ (wSeq []).hub.sweeping = false := by decide +kernel
theorem test_cpost : Nxt (exec (.cpost 2 0 1 2 0) wSeqPost) (fun t => t.syncVal 5 5 == 7) = true ∧
    Nxt (exec (.cpost 2 0 1 2 0) (wSeqPost.setSync 5 5 0xFFFFFFF9)) (fun t => t.syncVal 5 5 == 0xFFFFFFF9 && t.hub.lastFault.status == 0x41 &&
      t.hub.lastFault.limit == 4) = true := by decide +kernel

/-- R92: tag distances 0, 127 and 128. -/
def wProg (v : Word) : State := { wSeq [] with cores := [(33, { posts := [⟨2, 0x012, v⟩], progress := [(2, 0x05000009)] })] }
theorem test_hyp_ProgressPosts :
    (wProg 0x05000004).postJob 33 = some wJob ∧ takePost 2 ((wProg 0x05000004).core 33).posts = some (⟨2, 0x012, 0x05000004⟩, []) ∧
    wJob.team[(0x012 : Half).toNat / 2 ^ 8 % 2 ^ 4]? = some 2 := by decide +kernel
theorem test_progress : Nxt (exec (.progressPostEffect 33) (wProg 0x05000004)) (fun t => t.progVal 33 2 == 0x05000009) = true ∧
    Nxt (exec (.progressPostEffect 33) (wProg 0x84000001)) (fun t => t.progVal 33 2 == 0x84000001) = true ∧
    Nxt (exec (.progressPostEffect 33) (wProg 0x85000001)) (fun t => t.progVal 33 2 == 0x05000009 && t.coreCtr 33 10 == 1) = true := by decide +kernel

def wBar (arrived : List (Nat × Nat)) (st : Stall := .none) : State :=
  let s := wSeq [(1, 3), (2, 2 ^ 16)] { stall := st }
  { s with hub := { jobs := [{ wJob with barriers := [{ chan := 3, phys := 0, member := [(0, 0x10000)], arrived := arrived }] }] } }
def wBarJob (arrived : List (Nat × Nat)) : Job :=
  { wJob with barriers := [{ chan := 3, phys := 0, member := [(0, 0x10000)], arrived := arrived }] }
theorem test_hyp_BarrierChannels :
    (wBar []).seqJob 2 = some (wBarJob []) ∧ (wBar []).job? 0x70001 = some (wBarJob []) ∧
    (wBarJob []).barrier? ((wBar []).gReg 2 1).toNat = some { chan := 3, phys := 0, member := [(0, 0x10000)] } ∧
    ({ chan := 3, phys := 0, member := [(0, 0x10000)] } : Barrier).isMember 0 16 = true ∧
    ({ chan := 3, phys := 0, member := [(0, 0x10000)] } : Barrier).isMember 1 16 = false ∧
    (wBar [(0, 16)] (.bar 3)).job? 0x70001 = some (wBarJob [(0, 16)]) ∧
    ((List.range 2).all (fun r => (List.range 17).all (fun w =>
      !({ chan := 3, phys := 0, member := [(0, 0x10000)] } : Barrier).isMember r w || [(0, 16)].contains (r, w)))) = true := by decide +kernel
theorem test_bar : Nxt (exec (.seqBar 2 0 1 0 0) (wBar [])) (fun t => (t.seq 2).stall == .bar 3) = true ∧
    Nxt (exec (.barrierRelease 0x70001 3) (wBar [(0, 16)] (.bar 3))) (fun t => (t.seq 2).stall == .none) = true := by decide +kernel

/-! ## Tile instructions -/

/-- A descriptor from fields: (value, lowest bit). -/
def D (fs : List (Nat × Nat)) : Desc := BitVec.ofNat 512 (fs.foldl (fun a p => a + p.1 * 2 ^ p.2) 0)
/-- An operand (Table 4-3): address, format, rows, pitch. -/
def opnd (addr fmt rows pitch : Nat) : Nat := addr / 64 + fmt * 2 ^ 17 + rows * 2 ^ 23 + pitch / 64 * 2 ^ 33

def onePoly : SfuSeg := ⟨0xFF800000, 0, 0, 0x3F800000, 0x40000000, 0, 0⟩
def wBank : SfuBank := ⟨0, 0, false, false, 0, 0, [onePoly]⟩

/-- Core 33, of cluster 2, with this queue. -/
def wCore (q : List QEntry) (f : Core → Core := fun x => x) : State :=
  { wSeq [] with cores := [(33, f { queue := q, issued := 9, bank0 := some wBank })] }
def run (d : Desc) : QEntry := { desc := d, ord := 9, phase := .running }
def isRun (f : Fam) (d : Desc) : Bool := (wCore [run d]).runningOf 33 f == some (wJob, run d)

def dMma : Desc := D [(0x01, 0), (opnd 0 1 1 64, 160), (opnd 64 0 1 64, 256), (1, 392), (1, 396), (1, 405), (1, 425)]
def dConv (o : Nat) : Desc := D [(o, 0)]
def dSfn : Desc := D [(0x10, 0), (opnd 0 0 2 64, 160), (opnd 128 0 2 64, 224)]
theorem test_hyp_EnginesStoreTheirResults :
    isRun .mma dMma = true ∧ isRun .conv (dConv 0x18) = true ∧ isRun .convDw (dConv 0x19) = true ∧ isRun .sfn dSfn = true ∧
    isRun .smax (D [(0x12, 0)]) = true ∧ isRun .norm (D [(0x11, 0)]) = true ∧ isRun .crop (D [(0x13, 0)]) = true ∧
    ((wCore []).core 33).bank (dBank dSfn.toNat) = some wBank := by decide +kernel
/-- A 1 × 1 MMA in BF16 with K = 1: 1.5 × 2 = 3, in the accumulator and in the D operand. -/
def wMma : State := wCore [run dMma] (fun x => { x with
  store := x.store.writeLE 0 2 0x3FC0, kept := some { addr := 0, fmt := 1, tiles := 1, filter := false, bytes := [0, 0x40] } })
theorem test_mma : Nxt (exec (.mma 33) wMma) (fun t => (t.core 33).acc.readLE 0 4 == 0x40400000 && (t.core 33).store.readLE 64 4 == 0x40400000 &&
    (t.core 33).kept == none && (t.core 33).queue.map QEntry.phase == [.done iOk]) = true := by decide +kernel
theorem test_hyp_MmaAccumulatorWord :
    isRun .mma dMma = true ∧ dBatch dMma.toNat = 0 ∧ mInit dMma.toNat = 0 ∧ (dOp1 dMma.toNat).fmt ≠ fmtInt8 ∧
    0 < (dOp1 dMma.toNat).rows ∧ 0 < mNExt dMma.toNat ∧ mNExt dMma.toNat ≤ 256 := by decide +kernel

/-- SFN with a table of one segment 1 + 2 (u − b) is out of scope of a hand check; here the hypotheses alone. -/
def dSfn1 : Desc := D [(0x10, 0), (opnd 0 0 2 64, 160), (opnd 128 0 2 64, 224), (1, 288), (0x3F800000, 302)]
theorem test_hyp_SfnElement :
    isRun .sfn dSfn1 = true ∧ (dSop1 dSfn1.toNat).fmt = 0 ∧ (dSop2 dSfn1.toNat).fmt = 0 ∧ 1 < (dSop1 dSfn1.toNat).rows ∧
    0 < vCols dSfn1.toNat ∧ 4 * vCols dSfn1.toNat ≤ (dSop2 dSfn1.toNat).pitch ∧ ((wCore []).core 33).bank (dBank dSfn1.toNat) = some wBank := by
  decide +kernel

/-- MMA.LA: adapter 0 stands in the table at 2^38; its tile reads, or is poisoned. -/
def dLa : Desc := D [(0x02, 0), (opnd 0 1 1 64, 160), (opnd 64 0 1 64, 256), (1, 392), (1, 396), (1, 405)]
def wLa (bad : Bool) : State :=
  let s := wCore [run dLa]
  { s with ms := { mem := s.ms.mem.writeLE (2 ^ 38) 64 (1 + 1 * 2 ^ 70 + 1 * 2 ^ 74 + 1 * 2 ^ 83 + 0x1000 * 2 ^ 92), poison := if bad then [0x1000 / 32] else [] } }
def resOk {α : Type} (r : Except AccErr α) : Bool :=
  match r with
  | .ok _ => true
  | .error _ => false
theorem test_hyp_AdapterMma :
    (wLa false).runningOf 33 .mmaLa = some (wJob, run dLa) ∧ resOk ((wLa false).adapterTile (clusterOf 33) dLa.toNat) = true ∧
    (match (wLa true).adapterTile (clusterOf 33) dLa.toNat with
     | .error (.ue a) => a == 0x1000
     | _ => false) = true := by decide +kernel

theorem test_hyp_AttentionStores :
    isRun .attnFwd (D [(0x08, 0)]) = true ∧ isRun .attnBwd (D [(0x09, 0)]) = true ∧ isRun .attnRelay (D [(0x0A, 0)]) = true ∧
    ((wCore []).core 33).bank (dBank (D [(0x08, 0)]).toNat) = some wBank ∧ (run (D [(0x0A, 0)])).computed = false := by decide +kernel
/-- A relay record (Table 8-6) at 0x1000: 2 units, the shard at 0x8000; the group has 2 members at L1. -/
def relayWord : Nat := 2 + 0x8000 * 2 ^ 32
def dRelay : Desc := D [(0x0A, 0), (1, 446), (0x1000, 456)]
def relayEntry : Nat := 7 + 2 ^ 32 + 1 * 2 ^ 40 + 1 * 2 ^ 64 + 2 * 2 ^ 70
def wRelay : State :=
  let s := (wCore [run dRelay]).setDv 0x1110 1 relayEntry
  { s with ms := { mem := s.ms.mem.writeLE 0x1000 64 relayWord } }
theorem test_hyp_AttentionStores_relay :
    wRelay.runningOf 33 .attnRelay = some (wJob, run dRelay) ∧ resOk (wRelay.memRead (xAddr dRelay.toNat) 64) = true ∧
    (relayRecOf relayWord).spare = 0 ∧ (relayRecOf relayWord).units = 2 ∧ (relayRecOf relayWord).shard % 2048 = 0 ∧
    wRelay.exchRegion 0x1000 (2048 + 2 * 2 * 2048) = true ∧ (BitVec.ofNat 16 (xSeq dRelay.toNat) - (relayRecOf relayWord).base).toNat <
      rtSize (wRelay.routeEntry (xGroup dRelay.toNat)) (xLevel dRelay.toNat) := by decide +kernel

/-- MOVE: two rows of 32 bytes, core store to core store and core store to memory; GATH of one row; a table image. -/
def dMove (dev : Bool) : Desc := D [(0x20, 0), (0, 160), (256, 200), (1, 240), (if dev then 0 else 1, 241), (1, 242), (1, 258), (64, 274), (64, 306)]
def exOk {α β : Type} (r : Except α β) : Bool :=
  match r with
  | .ok _ => true
  | .error _ => false
theorem test_hyp_MemoryFamiliesCopy :
    isRun .move (dMove false) = true ∧ exOk ((wCore []).readRows 33 (run (dMove false)) (moveRows (dMove false).toNat [0] 2)) = true ∧
    isRun .move (dMove true) = true ∧ exOk ((wCore []).writeDev 33 (run (dMove true)) [(256, [1, 2])]) = true ∧
    isRun .gath (D [(0x21, 0), (opnd 0 0 1 64, 160)]) = true ∧
    exOk ((wCore []).gathRows 33 (run (D [(0x21, 0), (opnd 0 0 1 64, 160)])) [0]) = true ∧
    isRun .tblLoad (D [(0x23, 0), (1, 200), (1, 201)]) = true := by decide +kernel
theorem test_move : Nxt (exec (.move 33) (wCore [run (dMove false)] (fun x => { x with store := x.store.writeBytes 64 [5, 6] })))
    (fun t => (t.core 33).store.readBytes 320 2 == [5, 6]) = true ∧
    Nxt (exec (.move 33) (wCore [run (dMove true)] (fun x => { x with store := x.store.writeBytes 64 [5, 6] })))
    (fun t => t.ms.mem.readBytes 320 2 == [5, 6]) = true := by decide +kernel

def que (d : Desc) : QEntry := { desc := d, ord := 9 }
def opens (s : State) (e : QEntry) : Bool :=
  s.issueJob 33 == some wJob && (s.core 33).candidate == some e && (s.core 33).restore.isEmpty && (s.core 33).tabs.isEmpty &&
  (s.core 33).blocks.isEmpty && !dStreamEn e.d && s.waitOk wJob e.d
def dWait : Desc := D [(0x30, 0), (1, 139), (0, 32), (0, 64)]
def dPost : Desc := D [(0x31, 0), (1, 141), (0x1005, 48), (7, 96)]
theorem test_hyp_TileStarts :
    opens (wCore [que dSfn1]) (que dSfn1) = true ∧ (wCore [que dSfn1]).tileLegal 33 wJob ((wCore [que dSfn1]).core 33) (que dSfn1) .sfn = true ∧
    ((wCore [que dSfn1]).core 33).portsFree 2 = true ∧ bankClear [] .sfn dSfn1.toNat = true ∧
    pastGeneral wJob.general ((descRanges .sfn dSfn1.toNat [0] none 0).append (recRanges .sfn {} dSfn1.toNat [0] none)) = false ∧
    emptyOutput .sfn dSfn1.toNat none = false ∧ (wCore [que dSfn1]).startIllegal 33 wJob (que dSfn1) .sfn [0] none true false = false ∧
    (wCore [que dSfn1] (fun x => { x with bank0 := none })).startIllegal 33 wJob (que dSfn1) .sfn [0] none true false = true ∧
    (wCore [que dSfn1]).clearOf 33 [] (descRanges .sfn dSfn1.toNat [0] none 0) = true ∧
    pastGeneral wJob.general (descRanges .sfn (D [(0x10, 0), (opnd 0 0 2 64, 160), (opnd 0x600000 0 2 64, 224), (1, 288), (0x3F800000, 302)]).toNat [0] none 0) = true ∧
    opens (wCore [que dWait]) (que dWait) = true ∧ (wCore [que dWait]).tileLegal 33 wJob ((wCore [que dWait]).core 33) (que dWait) .wait = true ∧
    opens (wCore [que dPost]) (que dPost) = true ∧ (wCore [que dPost]).tileLegal 33 wJob ((wCore [que dPost]).core 33) (que dPost) .post = true ∧
    opens (wCore [que 0]) (que 0) = true ∧ (que 0).fam = none := by decide +kernel
theorem test_tile_start : Nxt (exec (.tileStart 33) (wCore [que dSfn1])) (fun t => (t.core 33).queue.map QEntry.phase == [.running]) = true ∧
    Nxt (exec (.post 33) (wCore [que dPost])) (fun t => (t.core 33).queue.map QEntry.phase == [.done iOk]) = true ∧
    Nxt (exec (.tileStart 33) (wCore [que 0])) (fun t => t.hub.lastFault.status == stIllegal && t.hub.lastFault.ordinal == 9) = true := by decide +kernel
/-- BAR on channel 3, of which core 1 of rank 0 is a member. -/
def dBarT : Desc := D [(0x32, 0), (3, 160)]
def wBarT : State :=
  let j := { wJob with barriers := [{ chan := 3, phys := 0, member := [(0, 0x00002)] }] }
  { wCore [que dBarT] with hub := { jobs := [j] } }
theorem test_hyp_TileStarts_bar :
    (wBarT.issueJob 33).isSome = true ∧ (wBarT.job? 0x70001).map (fun j => (j.barrier? 3).map Barrier.xbind) = some (some none) ∧
    Nxt (exec (.bar 33) wBarT) (fun t => (t.core 33).queue.map QEntry.arrived == [true]) = true := by decide +kernel

def fin (d : Desc) (i : Byte) : QEntry := { desc := d, ord := 9, phase := .done i }
theorem test_hyp_TileRetires :
    (wCore [fin dPost iOk]).coreJob 33 = some wJob ∧ (fin dPost iOk).fam = some .post ∧ Fam.isExch .post = false ∧ endCodeOf iOk = none ∧
    endCodeOf iNoVacancy = none ∧ (fin (D [(0x23, 0)]) iOk).fam = some .tblLoad ∧ dBank (D [(0x23, 0)]).toNat ≤ 1 := by decide +kernel
theorem test_retire : Nxt (exec (.tileRetire 33) (wCore [fin dPost iOk])) (fun t => (t.core 33).posts == [⟨1, 0x1005, 7⟩]) = true ∧
    Nxt (exec (.tileRetire 33) (wCore [fin dPost iNoVacancy])) (fun t => t.scRead 2 8 8 == 4 * 2 ^ 56 + 2 ^ 32 + 9) = true := by decide +kernel

/-- A check that runs, and the oldest tab of two with its check retired. -/
def dChk : Desc := D [(0x14, 0)]
def wTab (o : Bool) : State := wCore [{ desc := dChk, ord := 9, phase := .retired iOk }] (fun x => { x with
  tabs := [{ id := 9, pred := true, outcome := some o }, { id := 12, pred := true }], queue := x.queue })
theorem test_hyp_ReuseAndTabs :
    isRun .reuseChk dChk = true ∧ (wTab true).coreJob 33 = some wJob ∧ ((wTab true).core 33).tabs.length = 2 ∧
    (((wTab true).core 33).entry? (BitVec.ofNat 32 9)).isSome = true ∧ ((wTab true).core 33).portsFree 4 = true ∧
    ((wCore [] (fun x => { x with restore := [⟨false, 2, [7], 3⟩] })).core 33).restore = [⟨false, 2, [7], 3⟩] := by decide +kernel
theorem test_tabs : Nxt (exec (.tabResolve 33) (wTab true)) (fun t => (t.core 33).tabs.length == 1 && t.coreCtr 33 13 == 1) = true ∧
    Nxt (exec (.tabResolve 33) (wTab false)) (fun t => (t.core 33).tabs.length == 0 && t.coreCtr 33 14 == 2) = true ∧
    Nxt (exec (.tabLogRestore 33) (wCore [] (fun x => { x with restore := [⟨false, 2, [7], 3⟩] }))) (fun t => (t.core 33).store.read 131 == 7#8) = true := by
  decide +kernel

/-- A commit of index 11 in work 0: its bit is clear, then set. -/
def wCommit (b : Nat) : State :=
  let s := wCore [] (fun x => { x with commits := [⟨0, 11, ⟨1, 0x1005, 7⟩, que 0, 0⟩] })
  (s.scWrite 2 (scWork + 16) 4 (0x2000 / 64 * 2 ^ 0)).scWrite 2 (scWork + 0x2000 + 1) 1 b
theorem test_hyp_ChainCommits :
    (wCommit 0).postJob 33 = some wJob ∧ ((wCommit 0).core 33).commits = [⟨0, 11, ⟨1, 0x1005, 7⟩, que 0, 0⟩] ∧
    bits ((wCommit 0).workRec wJob 0).2.2 147 128 * 64 = 0x2000 ∧ ((wCommit 0).workRec wJob 0).1 = 2 ∧
    bit ((wCommit 0).scRead 2 (scWork + 0x2000 + 1) 1) 3 = false ∧ bit ((wCommit 8).scRead 2 (scWork + 0x2000 + 1) 1) 3 = true := by decide +kernel
theorem test_commit : Nxt (exec (.chainCommit 33) (wCommit 0)) (fun t => t.scRead 2 (scWork + 0x2001) 1 == 8 && t.scRead 2 (scWork + 20) 4 == 1 &&
      (t.core 33).posts.length == 1) = true ∧
    Nxt (exec (.chainCommit 33) (wCommit 8)) (fun t => t.scRead 2 (scWork + 20) 4 == 0 && t.scRead 2 (scWork + 24) 4 == 1 &&
      (t.core 33).posts.length == 0) = true := by decide +kernel

/-! ## Stops, fills, exchange -/

def wWaits (e : QEntry) : State := wCore [{ desc := dMma, ord := 8, phase := .running }, e]
def waitE : QEntry := { desc := D [(0x20, 0), (0, 160), (1, 241), (1, 242)], ord := 9, phase := .running, waitFrom := some 3 }
theorem test_hyp_WaitsStopsAndFills :
    (wWaits waitE).coreJob 33 = some wJob ∧ ((wWaits waitE).core 33).waiting? = some waitE ∧ (wWaits waitE).weightsThere 33 waitE = true ∧
    waitE.isRunning = true ∧ waitE.fam = some .move ∧ ((wWaits waitE).core 33).tabs = [] ∧
    ((wCore [que dMma] (fun x => { x with stopReq := true })).core 33).stopReq = true ∧
    ((wCore [que dMma] (fun x => { x with stopReq := true })).holderJob (clusterOf 33)).map Job.why = some .none := by decide +kernel
theorem test_stops : Nxt (exec (.tierDeadlineExpiry 33) (wWaits waitE)) (fun t => (t.core 33).queue.map QEntry.phase == [.running, .done iTierError]) = true ∧
    Nxt (exec (.coreStopped 33) (wCore [que dMma] (fun x => { x with stopReq := true }))) (fun t => (t.core 33).stopped) = true ∧
    Nxt (exec (.weightTileReady 33) (wWaits waitE)) (fun t => (t.core 33).queue.map QEntry.waitFrom == [none, none]) = true := by decide +kernel

/-- A 1 × 1 convolution over a line of 4 positions; the job's line buffer has 16 slots of 64 bytes. -/
def dFill : Desc := D [(0x18, 0), (opnd 0 3 1 64, 160), (opnd 0x10000 0 1 1024, 256), (3, 392), (4, 418), (1, 432), (1, 452), (1, 482)]
def wFill : State :=
  let j := { wJob with lbBytes := 16 * 64 }
  { wCore [que dFill] (fun x => { x with store := x.store.writeBytes 0 [9, 8] }) with hub := { jobs := [j] } }
theorem test_hyp_fill : (wFill.issueJob 33).isSome = true ∧ (que dFill).fam = some .conv ∧
    wFill.tileLegal 33 { wJob with lbBytes := 16 * 64 } (wFill.core 33) (que dFill) .conv = true ∧ emptyOutput .conv dFill.toNat none = false ∧
    convShort dFill.toNat = false ∧ cInW dFill.toNat ≤ 8192 ∧ cSpanH dFill.toNat ≤ 16 ∧ cSpanV dFill.toNat ≤ 16 ∧
    cInW dFill.toNat * convPosBytes dFill.toNat ≤ 64 ∧ dClaim dFill.toNat = false := by decide +kernel
theorem test_fill : Nxt (exec (.lineBufferFill 33) wFill) (fun t => (t.core 33).store.readBytes (6291456 - 1024) 2 == [9, 8] &&
    (t.core 33).queue.map QEntry.filled == [true]) = true := by decide +kernel

/-- A group of one die, and one of both dies of the module (Table 14-1): tag 7, valid, TOP 0. -/
def soloEntry : Nat := 7 + 2 ^ 32 + 1 * 2 ^ 64
def dualEntry : Nat := 7 + 2 ^ 32 + 3 * 2 ^ 64
def wOp (opc total : Nat) (die : Nat := 0) : ExOp :=
  { die := die, tag := 7, xseq := 4, group := 0, opc := BitVec.ofNat 8 opc, level := 0, core := 33, ord := 9, job := 0x70001, total := total }
def dXMove (opc : Nat) : Desc := D [(opc, 0), (0, 160), (0x1000, 200), (1, 240), (2, 242), (4, 496)]
def wX (entry : Nat) (d : Desc) (opc : Nat) (computed : Bool := false) : State :=
  let s := (wCore [{ desc := d, ord := 9, phase := .running, computed := computed }]).setDv 0x1110 1 entry
  { s with net := { ops := [wOp opc 64] } }
def xOk (s : State) (f : Fam) : Bool :=
  (s.runningOf 33 f).isSome && (s.opOf 0x70001 33 9).isSome && ((s.core 33).entry? 9).isSome
theorem test_hyp_ExchangeInstructions :
    xOk (wX soloEntry (D [(0x03, 0)]) 0x03) .mmaRs = true ∧ xOk (wX soloEntry (D [(0x04, 0), (0x1000, 456)]) 0x04 true) .mmaAg = true ∧
    xOk (wX soloEntry (dXMove 0x24) 0x24) .moveA2a = true ∧ xOk (wX soloEntry (dXMove 0x25) 0x25) .moveAr = true ∧
    rtSize soloEntry 0 = 1 ∧ rtDies dualEntry = 3 ∧ rtSize dualEntry 0 = 2 ∧ (wX dualEntry (dXMove 0x25) 0x25).routeEntry 0 = dualEntry ∧
    exOk ((wX soloEntry (dXMove 0x25) 0x25).readRows 33 (run (dXMove 0x25)) (moveRows (dXMove 0x25).toNat [0] 1)) = true := by decide +kernel
theorem test_exchange : Nxt (exec (.moveAr 33) (wX soloEntry (dXMove 0x25) 0x25)) (fun t => t.net.ops.map ExOp.finished == [true]) = true ∧
    Nxt (exec (.moveAr 33) (wX dualEntry (dXMove 0x25) 0x25)) (fun t => (mget [] t.net.dieIn 1).length == 2 && t.net.ops.map ExOp.segOpen == [true]) = true ∧
    Nxt (exec (.moveA2a 33) (wX soloEntry (dXMove 0x24) 0x24)) (fun t => t.net.ops.map ExOp.finished == [true]) = true := by decide +kernel

/-- A message of 32 data bytes of group tag 7: one header flit and one data flit. -/
def wMsg (kind : Nat) : BitVec 2048 := BitVec.ofNat 2048 (32 / 32 * 2 ^ 104 + kind * 2 ^ 178 + 4 * 2 ^ 208 + 7 * 2 ^ 224 + 0x25 * 2 ^ 96)
def wDie (kind : Nat) (tag : Nat := 7) : State :=
  let s := (wSeq []).setDv 0x1110 1 (soloEntry - 7 + tag)
  { s with net := { dieIn := [(1, [wMsg kind, 5])] } }
theorem test_hyp_MessagesAcceptedOnce :
    mget [] (wDie 1).net.dieIn 1 = [wMsg 1, 5] ∧ msgFlits (wMsg 1).toNat = 2 ∧ (wDie 1).groupOfTag 7 = some 0 ∧ (wDie 1 8).groupOfTag 7 = none ∧
    (partOfMsg (wMsg 1).toNat []).kind = 1 ∧ (partOfMsg (wMsg 1).toNat []).key.tag = 7 := by decide +kernel
theorem test_accept : Nxt (exec (.exchMessageReceive (.die 0)) (wDie 1)) (fun t => t.net.early.length == 1 && t.net.keys.length == 1) = true := by decide +kernel
def wPort (x : Port) (p : Nat := 4) (s : State := wUp) : State := { s with net := { s.net with ports := [(p, x)] } }
def bulkMsg : BitVec 2048 := BitVec.ofNat 2048 (2 + (2048 + 256) * 2 ^ 160)
def wBulkIn : State := (wPort { rxB := bulkMsg :: wMsg 3 :: List.replicate 8 5 }).setDv 0x1110 1 soloEntry
theorem test_hyp_MessagesAcceptedOnce_ports :
    ((wPort { rxE := [wMsg 1, 5] }).port 4).rxE = [wMsg 1, 5] ∧ ((wPort { rxE := [wMsg 1, 5] }).setDv 0x1110 1 soloEntry).passesOn (wMsg 1).toNat = false ∧
    (wBulkIn.port 4).rxB = bulkMsg :: wMsg 3 :: List.replicate 8 5 ∧ bits bulkMsg.toNat 7 0 = 2 ∧ wBulkIn.passesOn (wMsg 3).toNat = false ∧
    bits bulkMsg.toNat 191 160 / 256 = 9 ∧
    Nxt (exec (.bulkMigrationRecv 4) wBulkIn) (fun t => (t.port 4).rxB == [] && t.net.early.length == 1) = true := by decide +kernel

/-- The first segment of a reduction over the two dies: 16 MiB of output, the other die's part staged. -/
def wReduce : State :=
  let s := (wSeq []).setDv 0x1110 1 dualEntry
  { s with
    hub := { jobs := [{ wJob with canon := true }] }
    net := { ops := [{ wOp 0x25 64 with begun := true, segOpen := true, accs := [[]], vec := List.replicate 64 0 }],
             early := [⟨⟨7, 4, 0, 1, 0⟩, 1, 2, 0x25, List.replicate 32 0⟩] } }
theorem test_hyp_ReduceSegments_short :
    Nxt (exec (.reduceSegment 0 7 4) wReduce) (fun t => t.net.ops.map ExOp.stage == [1]) = true := by decide +kernel
/-- MMA.RS over the two dies, whose one segment is its last; and over two modules besides, where a second reduce stage follows. -/
def pairEntry : Nat := 7 + 2 ^ 32 + 1 * 2 ^ 40 + 3 * 2 ^ 64 + 2 * 2 ^ 70 + 15 * 2 ^ 76 + 1 * 2 ^ 80 + 0xFFF * 2 ^ 84
def wRs (entry : Nat) (level : Nat) (accs : List (List Byte)) : State :=
  let s := (wSeq []).setDv 0x1110 1 entry
  { s with
    hub := { jobs := [{ wJob with canon := true }] }
    net := { ops := [{ wOp 0x03 128 with level := level, begun := true, segOpen := true, accs := accs, vec := List.replicate 128 0 }],
             ports := [(1, { state := .up })],
             early := [⟨⟨7, 4, 0, 1, 0⟩, 1, 2, 0x03, List.replicate 64 0⟩] } }
/-- The hypotheses of ReduceSegments, and whether the segment is the operation's last. -/
def redAt (s : State) (last : Bool) : Bool :=
  match s.net.ops.find? (fun o => decide (o.die = 0 ∧ o.tag = 7 ∧ o.xseq = 4) && o.begun && !o.finished) with
  | none => false
  | some o =>
    let e := s.routeEntry o.group
    match o.front e with
    | none => false
    | some (i, p) =>
      let l := (((o.reds e)[i]?).map Prod.fst).getD 9
      let me := rtRank e l o.die
      let own := o.redInput e i
      let ps := allSome ((List.range (rtSize e l)).map (fun j =>
        if j = me then some ((own.2.drop (p.1 - own.1)).take p.2) else s.stagedPart o l j p))
      let out := reduceBytes false true (ps.getD []) [] p.2
      let o1 : ExOp := { o with accs := o.accs.zipIdx.map (fun (a, k) => if k = i then a ++ out else a) }
      !o.int32 && ((opStages o e)[o.stage]?).map Prod.fst == some 1 && ps.isSome && ((s.job? o.job).map Job.canon == some true) &&
      (o1.reduced e == last) && (if last then ((opStages o e)[i + 1]?).isNone && (o.reds e).length == i + 1 else (s.exCheck o1 e 1).isNone)
theorem test_hyp_ReduceSegments :
    redAt (wRs dualEntry 0 [[]]) true = true ∧ redAt (wRs pairEntry 1 [[], []]) false = true := by decide +kernel
theorem test_reduce_passes_on :
    Nxt (exec (.reduceSegment 0 7 4) (wRs pairEntry 1 [[], []])) (fun t => (t.port 1).txE.length == 2) = true := by decide +kernel

/-- A relay of three members at L1, at its first step; exchange barrier records (Table 14-4) at port 1 and port 4. -/
def trioEntry (rank : Nat) : Nat := 7 + 2 ^ 32 + 1 * 2 ^ 40 + 1 * 2 ^ 64 + 3 * 2 ^ 70 + rank * 2 ^ 73 +
  (if rank = 0 then 15 * 2 ^ 76 + 1 * 2 ^ 80 + 2 * 2 ^ 84 else 1 * 2 ^ 76 + 15 * 2 ^ 80 + 2 * 2 ^ 84) + 255 * 2 ^ 88
def wTrio (rank : Nat) (x : Port) (js : List Job) : State :=
  let s := wUp.setDv 0x1110 1 (trioEntry rank)
  { s with hub := { jobs := js },
           net := { ports := [(1, { x with state := .up }), (2, { state := .up })],
                    relays := [{ group := 0, tag := 7, level := 1, job := 0x70001, xaddr := 0x10000, arriveId := 0, base := 4, shard := 0x2000,
                                 units := 1, n := 3, rank := rank, begun := [0] }] } }
def bindJob : Job := { wJob with barriers := [{ chan := 3, phys := 0, xbind := some (0, 1), xsent := true }] }
def xrec (kind : Nat) (round : Word) : BitVec 256 := xrecord 3 kind 1 7 round
theorem test_hyp_RelaysAndBarrierRecords :
    ((wTrio 0 {} []).net.relays.find? (fun r => decide (r.group = 0) && r.begun.contains 0 && !r.forwarded.contains 0)).map Relay.n = some 3 ∧
    (wTrio 0 {} []).dv 0x1140 1 ≤ 2 ^ 22 ∧ 2 ^ 22 ≤ (wTrio 0 {} []).dv 0x1140 2 ∧
    (wTrio 0 {} []).portCheck (rtPortTo ((wTrio 0 {} []).routeEntry 0) 1 0 1) true = none ∧ (wTrio 1 {} []).boundJob 7 3 = none ∧ resOk ((wTrio 0 {} []).memRead 0x2000 2048) = true ∧
    takeBarrier 0 [xrec 0 1] = some (xrec 0 1, []) ∧ (xrecOf (xrec 0 1) 1).tag = 7 ∧ (wTrio 0 {} []).groupOfTag 7 = some 0 ∧
    rtRank (trioEntry 0) 1 0 = 0 ∧ (wTrio 0 {} []).boundJob 7 3 = none ∧
    takeBarrier 1 [xrec 1 1] = some (xrec 1 1, []) ∧ (xrecOf (xrec 1 1) 1).level = 1 ∧
    ((wTrio 1 {} [bindJob]).boundJob 7 3).map (fun x => (x.1, x.2.1.xsent, x.2.1.xreleased, x.2.1.xround)) = some (0x70001, true, false, 0) ∧
    (xrecOf (xrec 1 1) 1).round = 0 + 1 ∧ takeBarrier 2 [xrec 2 0] = some (xrec 2 0, []) ∧
    (wX soloEntry (dXMove 0x24) 0x24).net.ops.map (fun o => (o.die, o.tag, o.xseq, o.finished)) = [(0, 7, 4, false)] := by decide +kernel
theorem test_barrier_records :
    Nxt (exec (.xbarArriveRecv 1) (wTrio 0 { ctrlIn := [xrec 0 1] } [])) (fun t => t.net.xheld.length == 1) = true ∧
    Nxt (exec (.xbarReleaseRecv 1) (wTrio 1 { ctrlIn := [xrec 1 1] } [bindJob])) (fun t => t.net.xbarRounds == 1) = true ∧
    Nxt (exec (.xbarAbortRecv 1) (wTrio 1 { ctrlIn := [xrec 2 0] } [])) (fun t => (t.group 0).aborted) = true ∧
    Nxt (exec (.relayForward 0 0 22) (wTrio 0 {} [])) (fun t => t.net.relayForwards == 1 && (t.port 1).txE.length == 9) = true := by decide +kernel

/-! ## Ports and rings -/

def downPort : Port := { state := .down }
def identWord : BitVec 256 := BitVec.ofNat 256 (3 + 77 * 2 ^ 64 + 5 * 2 ^ 128)
def creditWord : BitVec 256 := BitVec.ofNat 256 (1 + 2 * 2 ^ 8 + 9 * 2 ^ 32)
theorem test_hyp_PortTraining :
    ((wPort downPort 1).port 1).fenced = false ∧ (wPort downPort 1).portEnabled 1 = true ∧ ((wPort {} 1).port 1).state = .off ∧
    ((wPort { fencedCmd := true, state := .fenced } 1).port 1).fenced = true ∧
    takeCtrl 3 [identWord] = some (identWord, []) ∧ bits identWord.toNat 127 64 = 77 ∧ takeCtrl 1 [creditWord] = some (creditWord, []) := by decide +kernel
theorem test_training : Nxt (exec (.portTrain 1) (wPort {} 1)) (fun t => (t.port 1).state == .training) = true ∧
    Nxt (exec (.peerIdentityRecv 1) (wPort { state := .training, ctrlIn := [identWord] } 1))
      (fun t => (t.port 1).state == .up && (t.port 1).peerSerial == 77 && (t.port 1).creditB == 2048) = true ∧
    Nxt (exec (.creditReturnRecv 1) (wPort { state := .up, ctrlIn := [creditWord] } 1)) (fun t => (t.port 1).creditB == 9 && (t.port 1).creditE == 0) = true := by
  decide +kernel

def upPort : Port := { state := .up, lanesOk := 0xFFFF }
def ringUp (auto : Nat) : State :=
  let s := (wPort upPort 4).setDv 0x1020 3 auto
  { s with net := { s.net with rings := [(0, { bypass := .joined })] } }
theorem test_hyp_PortFailure :
    ((wPort upPort 1).port 1).state = .up ∧ ringOf 1 = none ∧ ringOf 4 = some 0 ∧ ((ringUp 1).ring 0).bypass = .joined ∧
    (ringUp 1).dv 0x1020 3 = 1 ∧ (wPort upPort 1).dv 0x1000 8 < 10 ^ 9 ∧
    (wPort { state := .draining } 1).portBusy 1 = false ∧ (wPort { state := .draining } 4).portBusy 4 = false ∧ ((wPort {} 4).port 5).state = .off ∧ (wPort { state := .draining, txE := [1] } 1).portBusy 1 = true ∧
    ((wPort { state := .up, txB := [1] } 1).port 1).txB ≠ [] := by decide +kernel
theorem test_failure : Nxt (exec (.laneCdrLoss 1 15) (wPort upPort 1)) (fun t => (t.port 1).state == .down && (t.port 1).fault == 2 && (t.port 1).lanesOk == 0x7FFF) = true ∧
    Nxt (exec (.portLocalFault 4) (ringUp 1)) (fun t => (t.ring 0).bypass == .moving false && (t.port 4).state == .off) = true ∧
    Nxt (exec (.portLocalFault 4) (ringUp 0)) (fun t => (t.ring 0).bypass == .joined && (t.port 4).state == .down && (t.port 4).fault == 1) = true := by decide +kernel

/-- A frame as a port sends it: SEQ 1, ACK 0, one EXCH or BULK flit. -/
def goodFrame (kind : Nat) : PortFrame := mkFrame 1 0 false kind [5]
theorem test_hyp_FramesSentAndReceived :
    ((wPort upPort 1).port 1).live = true ∧ (goodFrame 1).uncorrected = 0 ∧
    bits (goodFrame 1).header.toNat 63 32 = (frameCrc (bits (goodFrame 1).header.toNat 31 0) (goodFrame 1).flits).toNat ∧
    fhSeq (goodFrame 1).header = ((wPort upPort 1).port 1).rxSeq + 1 ∧ fhKind (goodFrame 1).header = 1 ∧ fhKind (goodFrame 2).header = 2 ∧
    fhSeq (mkFrame 2 0 false 1 [5]).header ≠ ((wPort upPort 1).port 1).rxSeq + 1 ∧
    ((wPort { state := .up, txE := [5], creditE := 3 } 1).port 1).replay.length < 510 := by
  obtain ⟨h1, -, h2, -⟩ := mkFrame_fields 1 0 false (kind := 1) (fl := [5]) (by decide) (by decide) (by decide)
  obtain ⟨-, -, h3, -⟩ := mkFrame_fields 1 0 false (kind := 2) (fl := [5]) (by decide) (by decide) (by decide)
  obtain ⟨h4, -, -, -⟩ := mkFrame_fields 2 0 false (kind := 1) (fl := [5]) (by decide) (by decide) (by decide)
  refine ⟨by decide +kernel, rfl, mkFrame_good 1 0 false (by decide) (by decide), ?_, h2, h3, ?_, by decide +kernel⟩
  · exact h1.trans (by decide +kernel)
  · rw [h4]; decide +kernel
def ringSt (b : Bypass) (st : PortState) (s : State := wUp) : State :=
  { s with net := { s.net with rings := [(0, { bypass := b })], ports := [(4, { state := st }), (5, { state := st })] } }
theorem test_hyp_RingJoinAndLeave :
    isWrites (wWrite 0x1020 1 [1] (ringSt .through .off)) 0x1020 1 [1] = true ∧ (wWrite 0x1020 1 [1] (ringSt .through .off)).ringBusy 0 = false ∧
    (wWrite 0x1020 1 [1] (ringSt .through .off)).canJoin 0 = true ∧
    (wWrite 0x1020 1 [1] (ringSt .through .off)).frontRec.map (fun x => leNat x.2.value) = some 1 ∧ (wWrite 0x1020 1 [1] (ringSt (.moving true) .off)).ringBusy 0 = true ∧
    isWrites (wWrite 0x1020 1 [0] (ringSt .joined .up)) 0x1020 1 [0] = true ∧ (wWrite 0x1020 1 [0] (ringSt .joined .up)).ringBusy 0 = false ∧
    ((wWrite 0x1020 1 [1] { ringSt .through .off with pwr := { rootLocked := true } })).canJoin 0 = false ∧
    (ringSt (.moving true) .off).boot.preparing = false ∧ ((portsOfRing 0).all (fun p => (ringSt (.moving true) .off).block (blkPort p) == 1)) = true := by
  decide +kernel
theorem test_ring : Nxt (exec .ringJoin (wWrite 0x1020 1 [1] (ringSt .through .off))) (fun t => (t.ring 0).bypass == .moving true) = true ∧
    Nxt (exec .ringLeave (wWrite 0x1020 1 [0] (ringSt .joined .up))) (fun t => (t.port 4).state == .draining && (t.port 5).state == .draining) = true ∧
    Nxt (exec (.bypassMoveDone 0) (ringSt (.moving true) .off)) (fun t => (t.ring 0).bypass == .joined && (t.port 5).state == .training) = true := by decide +kernel

/-- Table 14-1 for one die: tag 7, valid, TOP 0, no L1 ports. -/
def soloRoute : Nat := 7 + 2 ^ 32 + 1 * 2 ^ 64 + 0xFFFFF * 2 ^ 76
def bulkPar : List Byte := [1, 0, 0, 2, 0, 0, 0, 0] ++ leBytes 8 0x10000 ++ leBytes 8 0 ++ leBytes 8 4096
theorem test_hyp_PortAndRouteCommands :
    isWrites (wWrite 0x1030 1 bulkPar (wPort upPort 1)) 0x1030 1 bulkPar = true ∧ par bulkPar 0 1 = 1 ∧ par bulkPar 3 1 = 2 ∧
    (wWrite 0x1030 1 bulkPar (wPort upPort 1)).inOnStacks 0x10000 4096 = true ∧
    isWrites (wWrite 0x1030 2 [1] (wPort upPort 1)) 0x1030 2 [1] = true ∧
    isWrites (wWrite 0x1030 3 [1] (wPort { fencedCmd := true, state := .fenced } 1)) 0x1030 3 [1] = true ∧
    isWrites (wWrite 0x1111 1 (leBytes 64 soloRoute)) 0x1111 1 (leBytes 64 soloRoute) = true ∧ routeOk soloRoute = true ∧ routeOk 7 = false ∧
    (wWrite 0x1111 1 (leBytes 64 soloRoute)).group 128 = {} ∧
    (wWrite 0x1030 3 [4] { ringUp 1 with net := { (ringUp 1).net with ports := [(4, { fencedCmd := true, state := .fenced, fault := 1 })] } }).portEnabled 4 = true ∧
    (ringUp 1).ring 0 = { bypass := .joined } := by decide +kernel
theorem test_port_cmds : Nxt (exec .portFence (wWrite 0x1030 2 [1] (wPort upPort 1))) (fun t => (t.port 1).state == .fenced) = true ∧
    Nxt (exec .portUnfence (wWrite 0x1030 3 [1] (wPort { fencedCmd := true, state := .fenced } 1))) (fun t => (t.port 1).state == .down) = true ∧
    Nxt (exec .routeEntryWrite (wWrite 0x1111 1 (leBytes 64 soloRoute))) (fun t => t.routeEntry 128 == soloRoute && t.routeEntry 127 == 0) = true ∧
    Nxt (exec .bulkSend (wWrite 0x1030 1 bulkPar (wPort upPort 1))) (fun t => t.por.cmds.length == 1 && t.por.nextTicket == 2) = true := by decide +kernel

/-! ## Memory, flash and rooms -/

def wHost (ms : MemSys) (s : State := wUp) : State := { s with ms := ms }
theorem test_hyp_HostMemoryAccess :
    wUp.hostReaches = true ∧ wUp.hdmLine 5 = some 5 ∧ wUp.hdmLine hdmLines = none ∧ wUp.rangeErr 320 64 = none ∧ wUp.poisonIn 320 64 = none ∧
    ((wHost { poison := [10] }).poisonIn 320 64).isSome = true ∧ wUp.isProtected 325 1 = false ∧ wUp.partPoison 320 0xFF = none ∧
    ({ wUp with por := { wUp.por with viewBase := 0, viewBytes := 2048 } } : State).isProtected 325 1 = true ∧
    ({ wUp with pwr := { wUp.pwr with blocks := mset wUp.pwr.blocks 12 0 } } : State).rangeErr 320 64 = some .bus := by decide +kernel
theorem test_host : Nxt (exec (.hostMemRead 5) (wHost { mem := ({} : Mem).writeBytes 320 [7] })) (fun t => t.out.head? == some (.cxlData 5 7 false)) = true ∧
    Nxt (exec (.hostMemWrite 5 0x0201 1) wUp) (fun t => t.ms.mem.readBytes 320 2 == [1, 0] && t.out == [.cxlDone 5]) = true := by decide +kernel

theorem test_hyp_PatrolScrub :
    wUp.stackServes 0 = true ∧ wUp.dv 0x0801 2 = 65536 ∧ mget 0 wUp.ms.scrubPos 3 = 0 ∧ ([4, 5] : List (Fin 64)).Nodup ∧
    wUp.isPoisoned (granuleAddr 0 0 3 4 / 32) = false ∧ (wUp.stack 0).ue.toNat + 2 < wUp.dv 0x0801 3 ∧ wUp.dv 0x0801 3 < 2 ^ 64 ∧
    ({ wUp with ms := { stackRecs := [(0, { fence := 2 })] } } : State).stackServes 0 = false := by decide +kernel
theorem test_scrub : Nxt (exec (.patrolScrub 0 3 [4] [5]) wUp) (fun t => (t.stack 0).ce == 1 && (t.stack 0).ue == 1 &&
    t.isPoisoned (granuleAddr 0 0 3 5 / 32)) = true ∧
    Nxt (exec (.patrolScrub 0 3 [] []) (wHost { flips := [granuleAddr 0 0 3 9 / 32] })) (fun t => (t.stack 0).ce == 1 && t.ms.flips == []) = true := by
  decide +kernel

def wSlot (x : Slot) (s : State := wUp) : State := { s with car := { s.car with slots := [(2, x)] } }
/-- SLOT_CREATE of slot 2, 16 MiB on channel 1; SLOT_WRITE of 4 KiB from memory at 0x10000. -/
def parCreate : List Byte := [2, 0, 0, 0, 0, 0, 0, 0] ++ leBytes 8 16777216 ++ leBytes 16 2
def parWrite (src port : Byte) (n : Nat := 4096) : List Byte := [2, src, port, 0, 0, 0, 0, 0] ++ leBytes 8 0 ++ leBytes 8 0x10000 ++ leBytes 8 n
theorem test_hyp_WeightSlotCommands :
    isWrites (wWrite 0x0930 1 parCreate) 0x0930 1 parCreate = true ∧ wUp.reservedOn 1 + perChannel 16777216 1 ≤ channelCapacity ∧
    (wUp.flashCh 1).fence = 0 ∧ par parCreate 16 16 = 2 ∧
    isWrites (wWrite 0x0930 2 (parWrite 0 0)) 0x0930 2 (parWrite 0 0) = true ∧ wUp.inOnStacks 0x10000 4096 = true ∧
    isWrites (wWrite 0x0930 3 [2, 0]) 0x0930 3 [2, 0] = true ∧ isWrites (wWrite 0x0930 5 [2]) 0x0930 5 [2] = true ∧
    isWrites (wWrite 0x0930 4 [3, 2]) 0x0930 4 [3, 2] = true ∧ isWrites (wWrite 0x0920 4 [2]) 0x0920 4 [2] = true ∧
    ((wSlot { state := .sealed }).slot (wUp.dv 0x0920 4)).state ≠ .sealed ∧ isWrites (wWrite 0x0930 6 [1]) 0x0930 6 [1] = true := by decide +kernel
theorem test_slots : Nxt (exec .slotCreate (wWrite 0x0930 1 parCreate)) (fun t => (t.slot 2).state == .writing && (t.slot 2).bytes == 16777216) = true ∧
    Nxt (exec .slotWrite (wWrite 0x0930 2 (parWrite 0 0) (wSlot { state := .writing, bytes := 16777216 }))) (fun t => t.por.cmds.length == 1) = true ∧
    Nxt (exec .slotSeal (wWrite 0x0930 3 [2, 0] (wSlot { state := .writing }))) (fun t => (t.slot 2).sealing) = true ∧
    Nxt (exec .slotErase (wWrite 0x0930 5 [2] (wSlot { state := .sealed }))) (fun t => (t.slot 2).state == .erasing) = true ∧
    Nxt (exec .slotErase (wWrite 0x0930 5 [2] (wSlot { state := .sealed, refs := 1 }))) (fun t => (t.slot 2).state == .sealed) = true ∧
    Nxt (exec .slotSwitch (wWrite 0x0930 4 [3, 2] (wSlot { state := .sealed }))) (fun t => t.dv 0x0920 4 == 2) = true ∧
    Nxt (exec .flashFence (wWrite 0x0930 6 [1] (wSlot { state := .sealed, mask := 2 }))) (fun t => (t.slot 2).degraded && (t.flashCh 1).fence == 3) = true := by
  decide +kernel

/-- A waybill of one block with one object of 2,048 bytes at stream offset 4,096 (Tables 7-2 to 7-4), after a waybill of 2,048 bytes. -/
def wStream : Mem := ((({} : Mem).writeLE 0 64 (1 * 2 ^ 16 + 1 * 2 ^ 32 + 2048 * 2 ^ 160 + 2048 * 2 ^ 192 + 6144 * 2 ^ 256)).writeLE 64 32
  (4096 + 2048 * 2 ^ 64 + 0 * 2 ^ 128 + 1 * 2 ^ 160)).writeLE 96 8 1 |>.writeBytes 4096 [0xAB]
def sealedSlot : Slot := { state := .sealed, mask := 2, stream := wStream, configured := true, window := 1 }
/-- Slot 2 on demand at 0x100000, its object demanded; and streamed by layers, its block filling frame 0 for a job in its place. -/
def wDemand : State := ((wSlot { sealedSlot with demand := [0] }).setDv 0x0912 7 1).setDv 0x0912 8 0x100000
def winJob : Job := { wJob with slot := some 2, dispatchPacing := some 0 }
def wStreamed (f : Frame) : State :=
  let s := (wSlot { sealedSlot with frames := [(0, f)], nextOrd := if f.tag.isSome then 1 else 0 }).setDv 0x0912 8 0x100000
  { s with hub := { jobs := [winJob] } }
def wFilling : State := wStreamed { state := .filling, tag := some (2, 0) }
theorem test_hyp_CodewordReads :
    wDemand.slotOnDemand 2 = true ∧ (wDemand.slot 2).allObjs.map (fun o => (o.obj, o.cws)) = [(0, [1])] ∧ (wDemand.slot 2).channelOf 1 = 1 ∧
    (wDemand.slot 2).cwBytes 1 (wDemand.slot 2).wbBytes (wDemand.slot 2).dataBytes = (4096, wStream.readBytes 4096 2048) ∧
    wDemand.rangeErr 0x100800 2048 = none ∧ wDemand.poisonPart 0x100800 2048 = none ∧ wDemand.hub.sweeping = false ∧
    wFilling.streamFor 2 = some winJob ∧ wFilling.releasedTo winJob = 0 ∧ (wFilling.slot 2).wants 1 = some (0, 0) ∧
    wFilling.rangeErr 0x100000 2048 = none ∧ (wDemand.flashCh 1).fence = 0 := by decide +kernel
theorem test_codewords :
    Nxt (exec (.codewordReadDone 2 1 false 0) wDemand) (fun t => (t.slot 2).failedObj == [0] && (t.flashCh 1).ue == 1 && (t.flashCh 1).retries == 6) = true ∧
    Nxt (exec (.codewordReadDone 2 1 false 0) wFilling) (fun t => ((t.slot 2).frame 0).failed == [0] && ((t.slot 2).frame 0).state == .ready) = true := by
  decide +kernel
def bulkSlot (n : Nat) : BitVec 2048 := bulkHeader 1 0 2 n 0
def wSlotIn (flits : Nat) : State :=
  let s := wPort { state := .up, rxB := bulkSlot 2048 :: List.replicate flits 5 } 4 (wSlot { state := .writing, bytes := 16777216 })
  { s with por := { s.por with cmds := [{ ticket := 1, index := 0x0930, sub := 2, path := .field, session := 5, params := parWrite 1 4 }] } }
theorem test_hyp_WindowsAndFills :
    isWrites (wWrite 0x0912 8 (leBytes 8 0x100000) (wSlot { sealedSlot with window := 0 })) 0x0912 8 (leBytes 8 0x100000) = true ∧
    (wSlot sealedSlot).windowOk 2 0 0x100000 3 = true ∧
    (wStreamed {}).streamFor 2 = some winJob ∧ (sealedSlot).blockCount = 1 ∧ (wStreamed {}).depthOf 2 = 3 ∧
    (wStreamed {}).releasedTo winJob = ((wStreamed {}).slot 2).relOrd ∧
    ((wSlotIn 8).writesOf 2).map (fun w => (w.2.source, w.2.port, w.2.off, w.2.len)) = [(1, 4, 0, 4096)] ∧
    bits (bulkSlot 2048).toNat 7 0 = 1 ∧ bits (bulkSlot 2048).toNat 191 160 / 256 = 8 ∧
    ((wSlotIn 8).port 4).asmB ++ ((wSlotIn 8).port 4).rxB = bulkSlot 2048 :: List.replicate 8 5 := by decide +kernel
theorem test_window_cmds :
    Nxt (exec (.windowFill 2) (wStreamed {})) (fun t => ((t.slot 2).frame 0).state == .filling && (t.slot 2).nextOrd == 1) = true ∧
    Nxt (exec .windowConfigWrite (wWrite 0x0912 8 (leBytes 8 0x100000) (wSlot { sealedSlot with window := 0 }))) (fun t =>
      (t.slot 2).window == 1 && t.dv 0x0912 8 == 0x100000) = true ∧
    Nxt (exec (.bulkSlotDataRecv 4) (wSlotIn 3)) (fun t => (t.port 4).asmB.length == 4 && (t.port 4).unmatched == 0) = true ∧
    Nxt (exec (.bulkSlotDataRecv 4) { wSlotIn 8 with por := wUp.por }) (fun t => (t.port 4).unmatched == 1) = true := by decide +kernel
/-- A core of the job waits for a weight tile that its slot holds on demand. -/
def wFetch : State :=
  let e : QEntry := { desc := D [(0x01, 0), (0x100800, 352)], ord := 9, phase := .running, waitFrom := some 3 }
  { wDemand with hub := { jobs := [{ winJob with slot := some 2 }] }, cores := [(33, { queue := [e] })],
                 clusters := [(2, { holder := some 0x70001 })], car := { slots := [(2, sealedSlot)] } }
theorem test_hyp_OnDemandFetch :
    (wFetch.coreJob 33).isSome = true ∧ ((wFetch.core 33).queue.find? (fun e => e.waitFrom.isSome)).map QEntry.fam = some (some .mma) ∧
    wFetch.slotOnDemand 2 = true ∧ (wFetch.slot 2).window = 1 := by decide +kernel

/-- An adapter of rank 1 with one tile in format 1 at 0x200000, and its record in the table at 0x300000. -/
def adEntry : Nat := 1 * 2 ^ 70 + 1 * 2 ^ 74 + 1 * 2 ^ 83 + 0x200000 * 2 ^ 92 + 0x280000 * 2 ^ 132 + 5 * 2 ^ 448
def wTable (st : Nat) (refs : Nat) : State :=
  { wUp.setDv 0x0A00 1 0x300000 with ms := { mem := ({} : Mem).writeLE (0x300000 + 64 * 7) 64 (if st = 0 then 0 else adEntry + st) }, car := { adapterRefs := [(7, refs)] } }
def parAdapter : List Byte := leBytes 2 7 ++ leBytes 64 adEntry
theorem test_hyp_AdapterCommands :
    isWrites (wWrite 0x0A00 2 parAdapter (wTable 0 0)) 0x0A00 2 parAdapter = true ∧ adapterOk adEntry = true ∧
    (wTable 0 0).meetsWeight (adUp adEntry) (tileBytes 1) = false ∧ adState ((wTable 0 0).adapterRec 7) = 0 ∧
    (wTable 0 0).rangeErr ((wTable 0 0).adapterAddr 7) 64 = none ∧ (wTable 1 0).poisonIn ((wTable 1 0).adapterAddr 7) 64 = none ∧
    isWrites (wWrite 0x0A00 3 (leBytes 2 7) (wTable 1 2)) 0x0A00 3 (leBytes 2 7) = true ∧ adState ((wTable 1 2).adapterRec 7) = 1 ∧
    (wTable 1 2).adapterRefs 7 = 2 := by decide +kernel
theorem test_adapters : Nxt (exec .adapterLoad (wWrite 0x0A00 2 parAdapter (wTable 0 0))) (fun t => t.adapterRec 7 == adEntry + 1) = true ∧
    Nxt (exec .adapterUnload (wWrite 0x0A00 3 (leBytes 2 7) (wTable 1 0))) (fun t => adState (t.adapterRec 7) == 0) = true ∧
    Nxt (exec .adapterUnload (wWrite 0x0A00 3 (leBytes 2 7) (wTable 1 2))) (fun t => adState (t.adapterRec 7) == 2) = true := by decide +kernel

/-- Directories of streams 1 and 2 at 0x400000 + 4,096 i: one group of pool 0, stack 0, with one prefix entry (R229); the room table
says of room 0 what is given; the pool has 4 rooms of size 1 from 0x8000000 on. -/
def wDir (e1 e2 room : Nat) (held : Bool) (s : State := wUp) : State :=
  let hdr := 128 * 2 ^ 96 + 1 * 2 ^ 80 + 1 * 2 ^ 56
  let put := fun (m : Mem) (b e : Nat) => ((m.writeLE b 8 1).writeLE (b + 64) 16 hdr).writeLE (b + 128) 8 e
  let s := ((s.setDv 0x0D00 1 0x400000).setDv 0x0D00 2 4096)
  let s := { s with
    ms := { s.ms with
      mem := put (put {} 0x401000 e1) 0x402000 e2, roomClusters := [2]
      pools := [(0, { size := 1, state := 1, base := [0x8000000], rooms := [4] })], vacancy := [(0, { free := [1, 2, 3] })] }
    hub := { s.hub with streams := if held then [(1, { sstate := .held, holderJob := 0x70001 })] else [] } }
  s.setRoomEntry 0 room
def validEntry : Nat := dirEntry 0 1 0
def roomWord (ref pins : Nat) : Nat := pins * 2 ^ 48 + ref * 2 ^ 32 + 1 * 2 ^ 30
def pinWord (pos : Nat) : Quad := BitVec.ofNat 64 (1 * 2 ^ 60 + 1 * 2 ^ 36 + pos)
def wPin (w : Quad) (e1 : Nat) (held : Bool) (pins : List Nat) : State :=
  let s := wDir e1 0 (roomWord 1 pins.length) held
  { s with
    hub := { s.hub with jobs := [{ wJob with streams := [1] }] }
    clusters := s.clusters.map (fun p => if p.1 = 2 then (2, { p.2 with roomQ := [{ word := w }], pins := pins }) else p) }
theorem test_hyp_RoomPins :
    ((wPin (pinWord 7) validEntry true []).narrowJob 2).map Job.streams = some [1] ∧
    (wPin (pinWord 7) validEntry true []).roomFront 2 1 = some (pinWord 7).toNat ∧
    bits (pinWord 7).toNat 51 36 = 1 ∧ (wPin (pinWord 7) validEntry true []).pinErr 1 0 7 = none ∧
    (wPin (pinWord 7) validEntry true []).pinRoom 1 0 7 = some 0 ∧ (wPin (pinWord 7) 0 true []).pinRoom 1 0 7 = none ∧
    ((wPin (pinWord 7) validEntry true []).roomPlace 0).map RoomPlace.addr = some 0x8000800 ∧
    ((wPin (pinWord 7) validEntry false []).stream 1).sstate ≠ .held ∧
    (wPin (BitVec.ofNat 64 (2 * 2 ^ 60)) validEntry true [0]).roomFront 2 2 = some (2 * 2 ^ 60) ∧
    ({ wUp with ms := { vacancy := [(0, { parked := [(1, 0, 0)] })] } } : State).isParked 1 = true := by decide +kernel
theorem test_room_pins : Nxt (exec (.roomPin 2) (wPin (pinWord 7) validEntry true [])) (fun t => (t.cluster 2).pins == [0] &&
      (t.cluster 2).roomQ.map RoomReq.result == [some (pinResult 0 0x8000800)] && roomPins (t.roomEntry 0) == 1) = true ∧
    Nxt (exec (.roomUnpin 2) (wPin (BitVec.ofNat 64 (2 * 2 ^ 60)) validEntry true [0])) (fun t => (t.cluster 2).pins == [] &&
      roomPins (t.roomEntry 0) == 0) = true ∧
    Nxt (exec (.vacancyTimeout 1) (let s := wDir validEntry 0 (roomWord 1 0) true; { s with ms := { s.ms with vacancy := [(0, { parked := [(1, 0, 0)] })] } }))
      (fun t => (t.stream 1).endCode == 0x34 && roomState (t.roomEntry 0) == 0) = true := by decide +kernel

/-- ROOM_LINK of group 0 from stream 1 to stream 2 (R241). -/
def parLink : List Byte := [1, 0, 2, 0, 0, 0, 0, 0]
def wLink (e2 ref : Nat) (held : Bool) : State := wWrite 0x0D30 1 parLink (wDir validEntry e2 (roomWord ref 0) held)
theorem test_hyp_RoomLinkReuseTab :
    isWrites (wLink 0 1 false) 0x0D30 1 parLink = true ∧ ((wLink 0 1 true).stream 1).sstate = .held ∧
    (wLink 0 1 false).linkPairs 1 2 0 1 = some [(validEntry, 0x402080)] ∧ (wLink validEntry 1 false).linkPairs 1 2 0 1 = none ∧
    roomRef ((wLink 0 65535 false).roomEntry 0) + 1 = 65536 ∧ (wLink 0 1 false).rangeErr 0x402080 8 = none ∧
    (wLink 0 1 false).poisonIn 0x402008 4 = none ∧
    isWrites (wWrite 0x0E00 5 (leBytes 4 9 ++ leBytes 4 1) (wUp.setDv 0x0E00 3 16)) 0x0E00 5 (leBytes 4 9 ++ leBytes 4 1) = true ∧
    isWrites (wWrite 0x0E00 3 (leBytes 4 (2 ^ 24 + 1))) 0x0E00 3 (leBytes 4 (2 ^ 24 + 1)) = true ∧
    isWrites (wWrite 0x0E00 2 (leBytes 8 2048)) 0x0E00 2 (leBytes 8 2048) = true ∧
    isWrites (wWrite 0x0E10 1 [1]) 0x0E10 1 [1] = true := by decide +kernel
theorem test_room_link : Nxt (exec .roomLink (wLink 0 1 false)) (fun t => t.ms.mem.readLE 0x402080 8 == validEntry && roomRef (t.roomEntry 0) == 2 &&
      t.ms.mem.readLE 0x402008 4 == 1) = true ∧
    Nxt (exec .roomLink (wLink 0 65535 false)) (fun t => t.ms.mem.readLE 0x402080 8 == 0 && roomRef (t.roomEntry 0) == 65535) = true := by decide +kernel
theorem test_reuse : Nxt (exec .reuseClear (wWrite 0x0E00 5 (leBytes 4 9 ++ leBytes 4 1)
      { wUp.setDv 0x0E00 3 16 with ms := { mem := ({} : Mem).writeBytes 1 [0xFF] } })) (fun t => t.ms.mem.read 1 == 0xFD) = true ∧
    Nxt (exec .reuseConfigWrite (wWrite 0x0E00 3 (leBytes 4 (2 ^ 24 + 1)))) (fun t => t.dv 0x0E00 3 == 0) = true := by decide +kernel

/-- SCAT.KV of one row to stream 1, group 0, position 7. -/
def dScat : Desc := D [(0x22, 0), (1, 16), (opnd 0 0 1 128, 160), (opnd 128 0 1 128, 224), (7, 288)]
def wScat (e1 : Nat) (held : Bool) (d : Desc := dScat) : State :=
  let s := wDir e1 0 (roomWord 1 0) held (wCore [run d])
  { s with pwr := wUp.pwr, boot := wUp.boot, ms := { s.ms with pools := [(0, { size := 1, state := 1, base := [0x8000000], rooms := [4] })] } }
theorem test_hyp_ScatKvDecides :
    (wScat validEntry true).runningOf 33 .scatKv = some (wJob, run dScat) ∧ touchedRooms (kPos dScat.toNat) (dSop1 dScat.toNat).rows = [7] ∧
    touchedRooms 255 258 = [255, 256, 512] ∧ resOk ((wScat validEntry true).memRead ((wScat validEntry true).dirBase 1) 64) = true ∧
    (wScat validEntry true).dirGroups 1 = 1 ∧ (wScat validEntry true).scatErr dScat.toNat = none ∧
    (dSop1 dScat.toNat).pitch = roomStride 1 ∧ ((wScat validEntry true).stream 1).sstate = .held ∧
    ((wScat validEntry false).stream 1).sstate ≠ .held ∧
    (match (wScat validEntry true).decideRooms wJob 1 0 ((wScat validEntry true).groupHdr 1 0) [7] with
     | .holds hs _ => hs.map RoomHold.room == [0]
     | _ => false) = true ∧
    (match (wScat (dirEntry 0 3 0) true).decideRooms wJob 1 0 ((wScat (dirEntry 0 3 0) true).groupHdr 1 0) [7] with
     | .wait => true
     | _ => false) = true := by decide +kernel
theorem test_scat : Nxt (exec (.scatKv 33) (wScat validEntry false)) (fun t => (t.core 33).queue.map QEntry.phase == [.done iSkipped]) = true ∧
    Nxt (exec (.scatKv 33) (wScat (dirEntry 0 3 0) true)) (fun t => (t.core 33).queue.map QEntry.phase == [.running]) = true := by decide +kernel

/-! ## Queue pairs and jobs -/

def subEntry (op tag : Nat) (rest : Nat := 0) : Desc := BitVec.ofNat 512 (op + tag * 2 ^ 32 + rest)
def wPair (x : Pair) (js : List Job := []) (s : State := wUp) : State := { s with hub := { s.hub with pairs := [(3, x)], jobs := js } }
def onPair : Pair := { qstate := .on, enable := true, sqLog := 4, cqLog := 4, sqTail := 2 }
theorem test_hyp_QueuePairs :
    wUp.hostReaches = true ∧ (2 : Word).toNat < ((wPair onPair).pair 3).sqSize ∧ 2 < ((wPair onPair).pair 3).cqSize ∧ (wUp.pair 3).qstate = .off ∧
    (wPair onPair).fetchRuns = true ∧ (wPair onPair).pairTurn = some 3 ∧ (wPair onPair).canFetch 3 = true ∧
    wUp.pairTurn = none ∧ (wPair { onPair with blocked := true } (List.replicate 256 { wJob with pair := 4 })).canFetch 3 = false ∧
    (wPair onPair (List.replicate 256 { wJob with pair := 4 })).pairTurn = some 3 ∧ eOp (subEntry 1 9) = 1 ∧ eOp (subEntry 5 9) = 5 ∧
    eClean (subEntry 0 9) = true ∧ ((wPair { onPair with unsignalled := 1, coalTime := 5 }).pair 3).unsignalled ≠ 0 := by decide +kernel
theorem test_pairs : Nxt (exec (.submissionFetch 3 (subEntry 0 9)) (wPair onPair)) (fun t => (t.pair 3).fetched == some (subEntry 0 9) && t.hub.turn == 4) = true ∧
    Nxt (exec (.submissionFetch 3 (subEntry 5 9)) (wPair onPair)) (fun t => (t.pair 3).fetched == none && t.hub.completionSeq == 1) = true ∧
    Nxt (exec (.nop 3) (wPair { onPair with fetched := some (subEntry 0 9) })) (fun t => (t.pair 3).cqUsed == 1 && t.hub.completionSeq == 1) = true ∧
    Nxt (exec (.qpEnable 3) wUp) (fun t => (t.pair 3).qstate == .on) = true ∧
    Nxt (exec (.qpDisable 3) (wPair onPair)) (fun t => (t.pair 3).qstate == .off) = true ∧
    Nxt (exec (.sqTailDoorbell 3 0x10000) (wPair onPair)) (fun t => (t.pair 3).sqTail == 2) = true := by decide +kernel

/-- A job submission for cluster 2, with its program at 0x10000 (Tables 15-5 and 15-7): one declared barrier channel or none. -/
def jobEntry : Desc := subEntry 1 9 (2 ^ 18 + 0xFF * 2 ^ 64 + 0x10000 * 2 ^ 160)
def wSubmit (decl : Nat) (js : List Job) : State :=
  let s := wPair { onPair with fetched := some jobEntry } js { wUp with clusters := [] }
  { s with ms := { mem := ({} : Mem).writeLE 0x10000 64 (1 * 2 ^ 16 + decl * 2 ^ 208) } }
def checksOk (s : State) : Bool := exOk (s.checks jobEntry)
def full : List Job := [{ wJob with barriers := (List.range 64).map (fun i => { chan := 0, phys := i }) }]
theorem test_hyp_Admission :
    checksOk (wSubmit 0 []) = true ∧ (wSubmit 0 []).admissionRuns = true ∧ eTag jobEntry = 9 ∧
    (match (wPair { onPair with fetched := some jobEntry } [] { wUp with clusters := [] }).checks jobEntry with
     | .error st => st == 0x14
     | .ok _ => false) = true ∧
    ((wSubmit 1 []).mapBarriers (1 * 2 ^ 16 + 1 * 2 ^ 208)).map List.length = some 1 ∧ checksOk (wSubmit 1 full) = true ∧
    (wSubmit 1 full).mapBarriers (1 * 2 ^ 16 + 1 * 2 ^ 208) = none := by decide +kernel
theorem test_admission : Nxt (exec (.jobSubmit 3) (wSubmit 0 [])) (fun t => (t.job? 9).map Job.phase == some .waiting && (t.pair 3).fetched == none) = true ∧
    Nxt (exec (.jobSubmit 3) (wSubmit 1 full)) (fun t => (t.pair 3).waits && (t.pair 3).fetched.isSome) = true := by decide +kernel

def wCmd (op rest : Nat) (js : List Job) (st : SState) : State :=
  let s := wPair { onPair with fetched := some (subEntry op 9 rest) } js
  { s with hub := { s.hub with streams := [(6, { sstate := st })] } }
theorem test_hyp_StreamsAndCancel :
    eClean (subEntry 3 9 (6 * 2 ^ 64)) = true ∧ eStream (subEntry 3 9 (6 * 2 ^ 64)) = 6 ∧ eClean (subEntry 2 9 (0x70001 * 2 ^ 64)) = true ∧
    (wCmd 2 (0x70001 * 2 ^ 64) [wJob] .free).job? (eTarget (subEntry 2 9 (0x70001 * 2 ^ 64))) = some wJob ∧
    (wCmd 2 (0x70001 * 2 ^ 64) [wJob] .free).heldClusters wJob = [2, 5] ∧
    ((wCmd 2 (0x70001 * 2 ^ 64) [wJob] .free).cluster 2).coreFence ≠ BitVec.allOnes 16 := by decide +kernel
theorem test_streams : Nxt (exec (.streamOpen 3) (wCmd 3 (6 * 2 ^ 64) [] .free)) (fun t => (t.stream 6).sstate == .opened) = true ∧
    Nxt (exec (.streamOpen 3) (wCmd 3 (6 * 2 ^ 64) [] .held)) (fun t => (t.stream 6).sstate == .held) = true ∧
    Nxt (exec (.streamEnd 3) (wCmd 4 (6 * 2 ^ 64) [] .opened)) (fun t => (t.stream 6).sstate == .ended) = true ∧
    Nxt (exec (.cancel 3) (wCmd 2 (0x70001 * 2 ^ 64) [wJob] .free)) (fun t => (t.job? 0x70001).map Job.why == some .cancelled && (t.core 33).stopReq) = true ∧
    Nxt (exec (.cancel 3) (wCmd 2 (0x70001 * 2 ^ 64) [{ wJob with phase := .waiting }] .free)) (fun t => t.hub.jobs == [] && t.hub.completionSeq == 2) = true := by
  decide +kernel

/-- A job of the given class and save enable in its phase; cluster 2 and 5 held, or free. -/
def jobAs (id : JobId) (cls : Nat) (save : Bool) (ph : JobPhase) (why : StopWhy := .none) : Job :=
  { wJob with id := id, phase := ph, why := why, entry := BitVec.ofNat 512 (cls * 2 ^ 8 + (if save then 2 ^ 11 else 0) + 0b100100 * 2 ^ 16) }
def wJobs (js : List Job) (held : Bool) (f : Cluster → Cluster := fun x => x) : State :=
  { wUp with hub := { jobs := js },
             clusters := if held then [(2, f { holder := some 0x70001 }), (5, f { holder := some 0x70001 })] else [] }
def stopped (s : State) : State := { s with cores := ((coresOf 2) ++ (coresOf 5)).map (fun c => (c, { stopReq := true, stopped := true })) }
def waitingJob : Job := jobAs 0x70001 3 true .waiting
def savingJob : Job := jobAs 0x70001 3 true .stopping .preempted
def savedJob : Job := { jobAs 0x70001 3 true .saved with saved := (wJobs [] true).saveCluster 2 :: (wJobs [] true).saveCluster 5 :: [] }
def doneJob : Job := jobAs 0x70001 3 true .running
def haltedSeq (x : Cluster) : Cluster := { x with seq := { halted := true } }
theorem test_hyp_JobLifeCycle :
    (wJobs [waitingJob] false).dispatchRuns = true ∧ (wJobs [waitingJob] false).canDispatch waitingJob = true ∧
    (wJobs [waitingJob] false).outranks waitingJob waitingJob = false ∧
    (wJobs [jobAs 8 0 false .waiting, doneJob] true).isReady (jobAs 8 0 false .waiting) = true ∧
    (wJobs [jobAs 8 0 false .waiting, doneJob] true).holdersOf [2, 5] = [doneJob] ∧ (jobAs 8 0 false .waiting).mayStop doneJob = true ∧ doneJob.prio = 4 ∧
    (wJobs [] true).clusterServes 2 = true ∧ (stopped (wJobs [savingJob] true)).allStopped savingJob = true ∧
    (wJobs [savingJob] true).heldClusters savingJob = savingJob.team ∧ (wJobs [savedJob] true).heldClusters savedJob = savedJob.team ∧
    (wJobs [savedJob] true).areaErr savedJob = none ∧ savedJob.saved.length = savedJob.team.length ∧
    (wJobs [doneJob] true haltedSeq).clusterDone 2 = true ∧ (wJobs [doneJob] true haltedSeq).clusterDone 5 = true ∧ savedJob.heldPosts = [] := by
  decide +kernel
theorem test_jobs : Nxt (exec (.jobDispatch 0x70001) (wJobs [waitingJob] false)) (fun t => (t.cluster 2).holder == some 0x70001 && (t.seq 5).active) = true ∧
    Nxt (exec (.preempt 8) (wJobs [jobAs 8 0 false .waiting, doneJob] true)) (fun t => (t.job? 0x70001).map Job.why == some .preempted && (t.core 32).stopReq) = true ∧
    Nxt (exec (.jobSave 0x70001) (stopped (wJobs [savingJob] true))) (fun t => (t.job? 0x70001).map Job.phase == some .saved && (t.cluster 2).zeroing) = true ∧
    Nxt (exec (.jobRestore 0x70001) (wJobs [savedJob] true)) (fun t => (t.job? 0x70001).map Job.phase == some .running) = true ∧
    Nxt (exec (.clusterZeroed 2) (wJobs [] false)) (fun t => t == wJobs [] false) = true := by decide +kernel
theorem test_job_complete : Nxt (exec (.jobComplete 0x70001) (wJobs [doneJob] true haltedSeq)) (fun t => t.hub.jobs == [] && t.hub.completionSeq == 1) = true := by
  decide +kernel

/-! ## Faults, the host link, encoders -/

def sweptState (js : List Job) : State := { wUp with hub := { jobs := js, sweeping := true, swept := true, sweepJob := some 0x70001, sweepCause := stIllegal } }
def endedJob : Job := { wJob with phase := .ended }
theorem test_hyp_FaultSweeps :
    seqDecode 2 0 = none ∧ ((wSeq []).seqJob 2).isSome = true ∧ (wSeq []).hub.sweeping = false ∧
    (({ wUp with clusters := [] } : State).cluster (clusterOf 33)).holder = none ∧ (wUp.holderJob (clusterOf 33)).isSome = true ∧
    (sweptState [endedJob]).hub.flrPending = false ∧ ((sweptState [endedJob]).hub.jobs.map Job.id).Nodup ∧
    isWrites (wWrite 0x0C0C 1 [4]) 0x0C0C 1 [4] = true ∧ (wWrite 0x0C0C 1 [4]).clusterHeld 4 = false ∧ (wUp.cluster 4).rolling = false ∧
    isWrites (wWrite 0x0C0C 1 [2]) 0x0C0C 1 [2] = true ∧ (wWrite 0x0C0C 1 [2]).clusterHeld 2 = true ∧
    isWrites (wWrite 0x0C0C 2 [2]) 0x0C0C 2 [2] = true := by decide +kernel
theorem test_sweeps : Nxt (exec (.faultSweep (.illegalWord 2 0)) (wSeq [])) (fun t => t.hub.sweeping && t.hub.lastFault.cluster == 2) = true ∧
    Nxt (exec (.faultSweep (.coreStoreUe 33)) { wUp with clusters := [], hub := {} }) (fun t => (t.cluster 2).coreFence == 2 && !t.hub.sweeping) = true ∧
    Nxt (exec (.faultSweep (.coreStoreUe 33)) wUp) (fun t => (t.cluster 2).coreFence == 2 && t.hub.lastFault.core == 33) = true ∧
    Nxt (exec .sweepComplete (sweptState [endedJob])) (fun t => t.hub.jobs == [] && t.hub.completionSeq == 1 && !t.hub.sweeping) = true ∧
    Nxt (exec .clusterFence (wWrite 0x0C0C 1 [4])) (fun t => (t.cluster 4).fencedCmd) = true ∧
    Nxt (exec .clusterFence (wWrite 0x0C0C 1 [2])) (fun t => !(t.cluster 2).fencedCmd) = true := by decide +kernel

theorem test_hyp_HostLinkAndRegisters :
    wUp.hostReaches = true ∧ wUp.hub.sweeping = false ∧ (sweptState []).hostReaches = true ∧ wUp.boot.cxlUp = true ∧
    ({ wUp.boot with perst := false } : Boot).perst = false ∧ wUp.boot.perst = true ∧ wUp.block (blkCluster 2) ≠ 0 ∧
    (wUp.cluster 2).addOff.toNat + 4 ≤ wUp.userBytes ∧ wUp.userBytes < (0xFFFFFFFC : Word).toNat + 4 ∧
    (0x1201000 : BitVec 26).toNat = 0x1001000 + 0x100000 * 2 ∧ (0x300040 : BitVec 26).toNat % 4 = 0 ∧
    ({ wUp with por := { mbBusy := true } } : State).boot.porterRuns = true := by decide +kernel
theorem test_host_link : Nxt (exec .functionLevelReset wUp) (fun t => t.hub.jobs == [] && t.boot.cxlUp) = true ∧
    Nxt (exec (.cxlLinkLoss true) wUp) (fun t => !t.boot.cxlUp && t.boot.stops == 1) = true ∧
    Nxt (exec (.addReduceInt32 2 5) wUp) (fun t => t.scRead 2 wUp.scUser 4 == 5) = true ∧
    Nxt (exec (.registerWrite 0x1201000 8 false) wUp) (fun t => (t.cluster 2).addOff == 8) = true ∧
    Nxt (exec (.registerWrite 0x300040 7 false) wUp) (fun t => t.por.reqArea.read 0 == 7) = true := by decide +kernel

/-- ENC_PARAMS of stream 6 for a frame of 16 × 16 in one tile on engine 0 (Table 16-2), and its frame request (Table 16-4a). -/
def encWord : Nat := 1 + 1 * 2 ^ 222 + 16 * 2 ^ 232 + 16 * 2 ^ 245 + 4 * 2 ^ 260 + 10 * 2 ^ 266 + 200 * 2 ^ 274 + 10 * 2 ^ 282 + 1 * 2 ^ 290 +
  5 * 2 ^ 332 + 4 * 2 ^ 348 + 0x3000000 * 2 ^ 360 + 0x2000000 * 2 ^ 400 + 1048576 * 2 ^ 440 + 0x1000000 * 2 ^ 472
def reqWord : Nat := 15 * 2 ^ 288 + 1 * 2 ^ 292 + 16 * 2 ^ 326 + 16 * 2 ^ 339 + 64 * 2 ^ 352 + 64 * 2 ^ 372 + 0x6000 * 2 ^ 392 + 0x5000 * 2 ^ 432 + 0x4000 * 2 ^ 472
def encJob : Job := { wJob with streams := [6] }
def wEnc (req posts : Nat) (fr : Option EncFrame) (f : MemSys → MemSys := fun x => x) : State :=
  let s := (wSeq []).setSync 2 5 (BitVec.ofNat 32 posts)
  let s := { s with pwr := wUp.pwr, boot := wUp.boot }
  { s with
    ms := f { mem := (({} : Mem).writeLE (256 * 6 + 128) 64 encWord).writeLE 0x3000000 64 req }
    hub := { jobs := [encJob], streams := [(6, { sstate := .held, holderJob := 0x70001, enc := { frame := fr, params := encWord, block := encBlock encWord } })] } }
/-- The same with WRITTEN at its ring's size and nothing consumed. -/
def wFull (fr : EncFrame) : State :=
  wEnc reqWord 1 (some fr) (fun m => { m with mem := m.mem.writeLE (epOut encWord) 8 (epRing encWord) })
def encIn : EncInput := { epoch := 7, effort := effortOf 0, params := encWord, request := reqWord, planes := [], refs := [], q0 := 10, limit := 0, seed := 1 }
def frameAt (done : Bool) : EncFrame :=
  { input := encIn, headsOut := 3, begun := [(0, 0)], tilesDone := if done then [(0, 100, 10)] else [] }
theorem test_hyp_EncodersCodeFrames :
    (wEnc reqWord 1 none).encOf 6 = some (encJob, encWord) ∧ (wEnc reqWord 1 none).tilesPaused = false ∧
    ((wEnc reqWord 1 none).jobSync encJob (epSubmit encWord)).toNat = 1 ∧ (wEnc reqWord 1 none).encReq encWord 0 = reqWord ∧
    (wEnc reqWord 1 none).requestOk 6 encWord reqWord = true ∧ (wEnc 1 1 none).requestOk 6 encWord 1 = false ∧
    (encSources encWord reqWord).all (fun q => decide ((wEnc reqWord 1 none).rangeErr q.1 q.2 = none ∧ (wEnc reqWord 1 none).poisonIn q.1 q.2 = none)) = true ∧
    (encSources encWord reqWord).any (fun q => ((wEnc reqWord 1 none (fun m => { m with poison := [0x4000 / 32] })).poisonIn q.1 q.2).isSome) = true ∧
    resOk ((wEnc reqWord 1 none (fun m => { m with poison := [0x3000000 / 32] })).memRead 0x3000000 64) = false ∧
    epTiles encWord = 1 ∧ epTileRows encWord 0 = 1 ∧ bit (epMask encWord) 0 = true ∧ (frameAt false).input.seed ≠ 0 ∧
    (wEnc reqWord 1 (some (frameAt false))).engineTakes 0 6 (frameAt false) 0 = true ∧ (wEnc reqWord 1 none).engineOn 0 = true ∧
    (frameAt true).groupReady encWord = true ∧ (frameAt true).groupBytes encWord 0 = 13 ∧ (wEnc reqWord 1 none).written encWord = 0 ∧
    (wEnc reqWord 1 none).rangeErr (epOut encWord) (8192 + epRing encWord) = none ∧
    (wEnc reqWord 1 none).poisonIn (epOut encWord) (8192 + epRing encWord) = none ∧
    isWrites (wWrite 0x1410 1 [1]) 0x1410 1 [1] = true ∧ isWrites (wWrite 0x1410 2 [1]) 0x1410 2 [1] = true := by decide +kernel
theorem test_encoder : Nxt (exec (.encFrameStart 6) (wEnc 1 1 none)) (fun t => (t.stream 6).endCode == stStreamInvalid) = true ∧
    Nxt (exec (.encOverrunTimeout 6) (wFull (frameAt true))) (fun t => (t.stream 6).endCode == stEncoderOverrun) = true ∧
    Nxt (exec (.encOverrunTimeout 6) (wEnc reqWord 1 (some (frameAt true)))) (fun t => (t.stream 6).sstate == .held) = true ∧
    Nxt (exec (.encOverrunTimeout 6) (wEnc reqWord 0 none)) (fun t => (t.stream 6).sstate == .held) = true ∧
    Nxt (exec .engineFence (wWrite 0x1410 1 [1])) (fun t => t.engineState 1 == 3) = true := by decide +kernel
-- R389: what an effort level bounds stays bounded.
theorem test_effort_bound : effortBound (effortOf 0) ⟨1000, -1000, 9⟩ = effortBound (effortOf 0) (effortBound (effortOf 0) ⟨1000, -1000, 9⟩) := by
  decide +kernel

/-! ## Power, start-up, firmware -/

theorem test_hyp_BlocksClocksAndSteward :
    isWrites (wWrite 0x0410 1 (leBytes 8 (2 ^ 40 - 2))) 0x0410 1 (leBytes 8 (2 ^ 40 - 2)) = true ∧ wUp.boot.ready = true ∧
    wUp.clearRefused 0 = false ∧ bit wUp.enables 0 = true ∧
    (wSlot { state := .sealed, mask := 1, refs := 1 }).clearRefused 20 = true ∧
    ({ wUp with pwr := { wUp.pwr with blocks := [(4, 2)] } } : State).drained 4 = true ∧
    ({ wUp with pwr := { wUp.pwr with blocks := [(2, 2)] } } : State).drained 2 = false ∧
    isWrites (wWrite 0x0401 1 [8]) 0x0401 1 [8] = true ∧
    stepTo wUp.pwr.fabricDiv wUp.fabricTarget ≤ stepTo wUp.pwr.arithDiv wUp.arithTarget ∧
    4 * stepTo 8 8 < stepTo 63 64 ∧ wUp.pwr.windowPassed = false ∧ wUp.pwr.windowMs + wUp.dv 0x0510 5 < wUp.dv 0x0510 6 * 1000 ∧
    isWrites (wWrite 0x0518 1 [1]) 0x0518 1 [1] = true ∧ isWrites (wWrite 0x0518 2 [1]) 0x0518 2 [1] = true := by decide +kernel
theorem test_power : Nxt (exec .blockEnablesWrite (wWrite 0x0410 1 (leBytes 8 (2 ^ 40 - 2)))) (fun t => t.block 0 == 2 && t.block 1 == 1) = true ∧
    Nxt (exec (.blockDrained 4) { wUp with pwr := { wUp.pwr with blocks := [(4, 2)] } }) (fun t => t.block 4 == 0) = true ∧
    Nxt (exec (.stewardSample ⟨52000, 1000, 3000, [], [.coreCorrected 33 2]⟩) { wUp with pwr := { wUp.pwr with pins := [200] } })
      (fun t => t.coreCtr 33 9 == 2 && t.pwr.pinW == 2800 && t.pwr.avgW == 1500) = true ∧
    Nxt (exec .profileAutosave wUp) (fun t => t.por.ledgerQueue == [.profile]) = true := by decide +kernel

def wStart (f : Boot → Boot := fun x => x) : State :=
  { pwr := { rootLocked := true }, boot := f { vin := true, refclk := true, porterStarted := true, porterRuns := true, inReset := true, hub0 := true } }
theorem test_hyp_StartUpAndResets :
    State.reset.boot.vin = false ∧ State.reset.boot.refclk = true ∧ (wStart).starting = true ∧ (wStart.stack 0).trained = false ∧
    (wStart.stack 0).fence = 0 ∧ wStart.boot.flashReady = false ∧ isWrites (wWrite 0x0202 1 [1]) 0x0202 1 [1] = true ∧
    (wWrite 0x0202 1 [1]).frontRec.map (fun x => decide (x.1.recs = [x.2])) = some true ∧
    isWrites (wWrite 0x0202 2 [1]) 0x0202 2 [1] = true ∧ isWrites (wWrite 0x0202 2 [0]) 0x0202 2 [0] = true ∧ wUp.boot.preparing = false ∧
    (wStart (fun b => { b with refclk := false })).boot.refclk = false ∧ wUp.por.ledgerImage = none := by decide +kernel
theorem test_start : Nxt (exec (.stackTrained 0 .failed) wStart) (fun t => (t.stack 0).fence == 1) = true ∧
    Nxt (exec (.stackTrained 0 .full) wStart) (fun t => (t.stack 0).trained && (t.stack 0).training == 1) = true := by decide +kernel
theorem test_start_ready :
    Nxt (exec .startReady wStart) (fun t => t.boot.ready && !t.boot.inReset && (t.stack 0).fence == 1) = true := by decide +kernel
theorem test_removal :
    Nxt (exec .prepareRemoval (wWrite 0x0202 2 [1])) (fun t => t.boot.preparing && t.hub.pausedAdmission) = true := by decide +kernel

def wFw (f : Boot → Boot := fun x => x) (cs : List RunCmd := []) (s : State := wUp) : State :=
  { s with boot := f { s.boot with banks := [(0, State.factoryBank), (1, State.factoryBank)] }, por := { s.por with cmds := cs } }
def fwCmd (i u : Nat) (ps : List Byte) : RunCmd := { ticket := 1, index := i, sub := u, path := .field, session := 5, params := ps }
def actBoot (paused : Bool) (b : Boot) : Boot := { b with activation := some { ticket := 1, bank := 1, paused := paused } }
theorem test_hyp_FirmwareAndLedger :
    isWrites (wWrite 0x0204 1 (leBytes 8 16 ++ [1, 2]) wFw) 0x0204 1 (leBytes 8 16 ++ [1, 2]) = true ∧ par (leBytes 8 16 ++ [1, 2]) 0 4 + 2 ≤ fwBankBytes ∧
    fwBankBytes < par (leBytes 8 (2 ^ 32 - 1) ++ [1, 2]) 0 4 + 2 ∧
    isWrites (wWrite 0x0204 2 (leBytes 8 0x10000 ++ leBytes 8 64) wFw) 0x0204 2 (leBytes 8 0x10000 ++ leBytes 8 64) = true ∧
    isWrites (wWrite 0x0204 3 [1] wFw) 0x0204 3 [1] = true ∧ isWrites (wWrite 0x0204 5 [1] wFw) 0x0204 5 [1] = true ∧
    (wFw.fwImage 1).stage = fwVerified ∧ wFw.dv 0x0210 3 = 0 ∧ (wFw (actBoot true) [fwCmd 0x0204 5 [1]]).cmd? 1 = some (fwCmd 0x0204 5 [1]) ∧
    (wFw (actBoot true)).hub.jobs.all (fun j => !(wFw (actBoot true)).saveable j 1) = true ∧
    resOk ((wFw).memRead 0x10000 64) = true ∧ isWrites (wWrite 0x1C00 4 [1] wFw) 0x1C00 4 [1] = true ∧
    isWrites (wWrite 0x1F00 1 [1]) 0x1F00 1 [1] = true ∧ isWrites (wWrite 0x1F00 2 [0]) 0x1F00 2 [0] = true ∧ wUp.por.ledgerQueue = [] := by decide +kernel
theorem test_firmware : Nxt (exec .fwStageChunk (wWrite 0x0204 1 (leBytes 8 16 ++ [1, 2]) wFw)) (fun t => (t.fwImage 1).stage == fwStaging &&
      (t.fwImage 1).bytes.readBytes 16 2 == [1, 2]) = true ∧
    Nxt (exec .fwActivate (wWrite 0x0204 5 [1] wFw)) (fun t => t.boot.activation.map Activation.bank == some 1) = true ∧
    Nxt (exec .fwActivateWaitExpiry (wFw (actBoot true) [fwCmd 0x0204 5 [1]])) (fun t => t.boot.activation == none &&
      t.por.results.map CmdResult.status == [dsJobsBusy]) = true ∧
    Nxt (exec (.asyncCommandEnd 1 .done) { wFw (fun b => b) [fwCmd 0x0930 5 [2]] with car := { slots := [(2, { state := .erasing })] } })
      (fun t => (t.slot 2).state == .free) = true ∧
    Nxt (exec .ledgerCommit (wWrite 0x1F00 1 [1])) (fun t => t.por.ledgerQueue == [.commit 1]) = true := by decide +kernel
def wLedger : State := { wUp with por := { ledgerQueue := [.keys], ledgerImage := some { gen := 4 } } }
theorem test_ledger_writes : Nxt (exec (.ledgerWriteDone true) wLedger) (fun t => t.por.ledgerWrites == 1 && t.por.ledgerQueue == []) = true ∧
    Nxt (exec (.ledgerWriteDone false) wLedger) (fun t => t.por.keysRetry == 1 && t.por.bank0 == none) = true ∧
    Nxt (exec .keyLedgerRetry { wUp with por := { keysRetry := 2 } }) (fun t => t.por.ledgerQueue == [.keys] && t.por.keysRetry == 1) = true := by decide +kernel

/-! ## Keys, sessions, the dictionary, self-test -/

def keyPar (slot : Byte) : List Byte := slot :: List.replicate 1800 7
def wKeys (ks : AMap (List Byte)) (s : State := wUp) : State := { s with por := { s.por with keys := ks } }
def wFrame (k : Byte) (payload : List Byte) (path : Path := .field) (s : State := wUp) : State :=
  { s with por := { s.por with current := some { path := path, kind := k, session := 9, txn := 0, more := false, multicast := false, recs := [], payload := payload } } }
def wShake : Handshake := { num := 9, path := .field, keySlot := 1, transcript := [], key := [] }
def wSess : Session := { num := 9, path := .field, opKey := [5], key := [], inCtr := 0, outCtr := 0, kept := [] }
theorem test_hyp_KeysReportsAndSessions :
    isWrites (wWrite 0x1C18 1 (keyPar 1)) 0x1C18 1 (keyPar 1) = true ∧ par (keyPar 1) 0 1 = 1 ∧ operatorKey wUp 1 = [] ∧ par (keyPar 9) 0 1 = 9 ∧
    isWrites (wWrite 0x1C18 2 [1] (wKeys [(1, [5])])) 0x1C18 2 [1] = true ∧
    isWrites (wWrite 0x1C20 1 (1 :: List.replicate 32 0)) 0x1C20 1 (1 :: List.replicate 32 0) = true ∧
    isWrites (wWrite 0x1C28 2 (leBytes 8 3 ++ List.replicate 1280 0)) 0x1C28 2 (leBytes 8 3 ++ List.replicate 1280 0) = true ∧
    par (leBytes 8 3 ++ List.replicate 1280 0) 0 1 = 3 ∧ isWrites (wWrite 0x1C28 3 [1]) 0x1C28 3 [1] = true ∧
    ((wFrame 0x10 (1 :: List.replicate 1603 0)).handshakeFrame 0x10).map (fun f => f.payload.length) = some 1604 ∧
    operatorKey (wKeys [(1, [5])] (wFrame 0x10 [])) 1 ≠ [] ∧ ((wFrame 0x13 (List.replicate 1280 0)).handshakeFrame 0x13).map (fun f => f.payload.length) = some 1280 ∧
    ([wShake].find? (fun x => decide (x.num = 9 ∧ x.path = .field))) = some wShake ∧ ((wFrame 0x16 []).handshakeFrame 0x16).isSome = true := by decide +kernel
theorem test_keys : Nxt (exec .keyRevoke (wWrite 0x1C18 2 [1] (wKeys [(1, [5])]))) (fun t => operatorKey t 1 == [] && t.por.ledgerQueue == [.keys]) = true ∧
    Nxt (exec .close { wFrame 0x16 [] with por := { (wFrame 0x16 []).por with sessions := [wSess] } }) (fun t => t.por.sessions == []) = true ∧
    Nxt (exec (.handshakeTimeout 9) { wUp with por := { wUp.por with shakes := [wShake] } }) (fun t => t.por.shakes == [] &&
      t.out == [.datagram ⟨⟨wUp.linkLocal, 5411⟩, {}, shakeFrame 0x15 0 9 false [4, 0, 0, 0]⟩]) = true ∧
    Nxt (exec (.sessionIdleTimeout 9) { wUp with por := { sessions := [wSess] } }) (fun t => t.por.sessions == []) = true := by decide +kernel
def wFirst (path : Path) : State :=
  { wUp with por := { wUp.por with
      current := some { path := path, kind := 1, session := 0, txn := 1, more := false, multicast := false,
                        recs := [⟨0x1C18, 1, 2, 1801, 0, 1801, keyPar 1⟩] } } }
theorem test_hyp_FirstKeyOverTheMailbox :
    (wFirst .mailbox).frontRec.map (fun x => (x.1.session, x.2.rop, x.2.index, x.2.sub, x.2.length, x.2.value.length)) = some (0, 2, 0x1C18, 1, 1801, 1801) ∧
    (wFirst .mailbox).por.keys = [] ∧ (wFirst .mailbox).boot.recovery = false ∧ 2 ≤ (wFirst .mailbox).tier ∧ (wFirst .field).por.sessions = [] := by decide +kernel

def wRead (i u : Nat) (s : State := wUp) : State :=
  { s with por := { s.por with
      current := some { path := .field, kind := 1, session := 5, txn := 1, more := false, multicast := false, recs := [⟨i, u, 1, 0, 0, 0, []⟩] } } }
theorem test_hyp_FramesEntriesAndView :
    wUp.boot.porterRuns = true ∧ (wRead 0x0108 3).por.current.isSome = true ∧ wUp.por.inbox = [] ∧
    (wRead 0x0108 3).frontRec.map (fun x => x.2.rop) = some 1 ∧
    (match (wRead 0x0108 3).frontRec with
     | some (f, r) => exOk ((wRead 0x0108 3).recEntry f r)
     | none => false) = true ∧
    (match (wRead 0x0109 0).frontRec with
     | some (f, r) => exOk ((wRead 0x0109 0).recEntry f r)
     | none => false) = false ∧
    isWrites (wWrite 0x0901 5 [9]) 0x0901 5 [9] = true ∧ ownWrite 0x0901 5 = false ∧
    isWrites (wWrite 0x1020 3 [1] (wPort { state := .down, fault := 1 } 4)) 0x1020 3 [1] = true ∧
    isWrites (wWrite 0x0901 3 [9]) 0x0901 3 [9] = false ∧ wUp.writeRefused 0x0901 3 8 = none ∧
    (wUp.setDv 0x0901 4 4).writeRefused 0x0901 3 8 = some dsOutOfRange ∧
    isWrites (wWrite 0x1F08 1 (leBytes 8 0)) 0x1F08 1 (leBytes 8 0) = true ∧ (wUp.setDv 0x1F08 2 0x100000).dv 0x1F08 2 % 2048 = 0 ∧
    (wUp.session? 0).isNone = true := by decide +kernel
theorem test_entries : Nxt (exec .dictWrite (wWrite 0x0901 5 [9])) (fun t => t.dv 0x0901 5 == 9) = true ∧
    Nxt (exec .dictWrite (wWrite 0x1020 3 [1] { wPort { state := .down, fault := 1 } 4 with
      net := { ports := [(4, { state := .down, fault := 1 })], rings := [(0, { bypass := .joined })] } })) (fun t => (t.ring 0).bypass == .moving false) = true ∧
    Nxt (exec .dictRead (wRead 0x0901 5)) (fun t => t.por.current.isNone && t.out.length == 1) = true ∧
    Nxt (exec (.porterFrameReceive [1] ({}, ⟨allNodes, 5411⟩)) wUp) (fun t => t.por.framesDropped == 1) = true ∧
    Nxt (exec (.porterFrameReceive [1] ({}, ⟨allNodes, 5412⟩)) wUp) (fun t => t.por.framesDropped == 0) = true := by decide +kernel

def bistPar (t m : Byte) : List Byte := [t, m, 0, 0, 0, 0, 0, 0]
/-- The factory ledger lists the signature of a core in mode 3. -/
def wBist (u : BistRun) : State := { wUp with clusters := [], hub := {}, por := { bist := [u], factory := some { factoryLedger with misrs := [(3, 0xAB)] } } }
theorem test_hyp_SelfTestAlertsAndWindows :
    isWrites (wWrite 0x1800 1 (bistPar 4 3) { wUp with clusters := [(4, { fencedCmd := true })] }) 0x1800 1 (bistPar 4 3) = true ∧
    (match bistUnit 4 with
     | some (.cluster k) => k == 4
     | _ => false) = true ∧ ({ wUp with clusters := [(4, { fencedCmd := true })] } : State).bistRefused (.cluster 4) = none ∧
    (wUp.cluster 4).fenced = false ∧ ([⟨4, 3, 1, 0⟩] : List BistRun).find? (fun r => r.target == 4) = some ⟨4, 3, 1, 0⟩ ∧
    wUp.factoryImage.isSome = true ∧ wUp.dv 0x1800 2 = 1 ∧ wUp.rollable 0 = true ∧ wUp.rollable 2 = false ∧
    isWrites (wWrite 0x1808 4 (leBytes 4 3)) 0x1808 4 (leBytes 4 3) = true ∧ wUp.boot.inReset = false ∧ State.reset.boot.inReset = true := by decide +kernel
theorem test_bist : Nxt (exec .bistRun (wWrite 0x1800 1 (bistPar 4 3) { wUp with clusters := [(4, { fencedCmd := true })] })) (fun t => t.por.bist.length == 1) = true ∧
    Nxt (exec (.bistRunEnd 4 [1] [0xAB]) (wBist ⟨4, 3, 0, 0⟩)) (fun t => t.por.bist == [] && !(t.cluster 4).rolling) = true ∧
    Nxt (exec (.bistRunEnd 4 [1] [0xAC]) (wBist ⟨4, 3, 0, 0⟩)) (fun t => (t.cluster 4).coreFence == 2) = true ∧
    Nxt (exec .rollingBistTurn wUp) (fun t => (t.cluster 0).rolling) = true ∧
    Nxt (exec .alertAck (wWrite 0x1808 4 (leBytes 4 3) { wUp with por := { alertPin := true, alertSeq := 3 } })) (fun t => !t.por.alertPin) = true ∧
    Nxt (exec .bwWindowEnd wUp) (fun t => t.por.windowSeq == 1) = true := by decide +kernel

/-! ## Further witnesses, by statement -/

/-- Two cores' posts to one progress counter, at tag distances 0 and 127. -/
def wProg2 : State := { wSeq [] with cores := [(33, { posts := [⟨2, 0x012, 0x05000004⟩], progress := [(2, 0x05000003)] }), (34, { posts := [⟨2, 0x012, 0x84000001⟩] })] }
theorem test_hyp_ProgressPosts_order :
    wProg2.postJob 33 = some wJob ∧ wProg2.postJob 34 = some wJob ∧ takePost 2 (wProg2.core 33).posts = some (⟨2, 0x012, 0x05000004⟩, []) ∧
    takePost 2 (wProg2.core 34).posts = some (⟨2, 0x012, 0x84000001⟩, []) ∧ wJob.progTarget 0x012 = some (33, 2) ∧
    ([0x05000004, 0x84000001] : List Word).all (fun v => decide ((v.toNat / 2 ^ 24 + 256 - (wProg2.progVal 33 2).toNat / 2 ^ 24) % 256 ≤ 127)) = true := by
  decide +kernel

/-- Channel 3 bound to the exchange barrier of a group of three at L1, where this module is rank 1 and the sequencer the last member. -/
def wBound : State :=
  let b : Barrier := { chan := 3, phys := 0, member := [(0, 0x10000)], xbind := some (0, 1) }
  { wTrio 1 {} [{ wJob with barriers := [b] }] with
    clusters := [(2, { holder := some 0x70001, seq := { active := true, regs := [(1, 3), (2, 2 ^ 16)], pc := 0x1000 } }), (5, { holder := some 0x70001 })] }
theorem test_hyp_BarrierChannels_bound :
    let b : Barrier := { chan := 3, phys := 0, member := [(0, 0x10000)], xbind := some (0, 1) }
    wBound.seqJob 2 = some { wJob with barriers := [b] } ∧ ({ wJob with barriers := [b] }).barrier? (wBound.gReg 2 1).toNat = some b ∧
    b.isMember 0 16 = true ∧ { b with arrived := [(0, 16)] }.full 2 = true ∧
    wBound.xFront (trioEntry 1) 3 1 (xLevels (trioEntry 1) 1) = some 1 ∧ wBound.routeEntry 0 = trioEntry 1 ∧ rtRank (trioEntry 1) 1 0 = 1 ∧
    rtPortTo (trioEntry 1) 1 1 0 = 1 ∧ (wBound.port 1).state = .up := by decide +kernel
theorem test_bar_bound : Nxt (exec (.seqBar 2 0 1 0 0) wBound) (fun t => (t.port 1).ctrlOut.length == 1) = true := by decide +kernel
/-- A core's BAR that arrived on channel 3. -/
def barE : QEntry := { desc := dBarT, ord := 9, arrived := true }
def wBarC : State :=
  { wCore [barE] with hub := { jobs := [{ wJob with barriers := [{ chan := 3, phys := 0, member := [(0, 0x00002)], arrived := [(0, 1)] }] }] } }
theorem test_hyp_BarrierChannels_core :
    wJob.team[0]? = some 2 ∧ (wBarC.core (16 * 2 + 1)).queue = [barE] ∧ dOpc barE.d = 0x32 ∧ bChan barE.d = 3 ∧
    ((wBarC.job? 0x70001).bind (fun j => (j.barrier? 3).map (fun b => b.full 2))) = some true := by decide +kernel
theorem test_bar_core : Nxt (exec (.barrierRelease 0x70001 3) wBarC) (fun t => (t.core 33).queue == [{ barE with released := true, phase := .done 0 }]) = true := by
  decide +kernel

theorem test_hyp_AdapterMma_entry :
    (wLa false).adapterErr .mmaLa dLa.toNat = none ∧ (wLa true).adapterErr .mmaLa dLa.toNat = none ∧
    ({ wLa false with ms := { (wLa false).ms with poison := [2 ^ 38 / 32] } } : State).adapterErr .mmaLa dLa.toNat = some (.ue (2 ^ 38)) := by decide +kernel

/-- MOVE with the row clip 1 of a claim, and TBL.LOAD of one segment from stacked memory. -/
def dTbl : Desc := D [(0x23, 0), (0x2000, 160), (1, 201)]
theorem test_hyp_MemoryFamiliesCopy_more :
    exOk ((wCore []).readRows 33 { run (dMove false) with clip := some 1 } (moveRows (dMove false).toNat [0] (((some 1).map (min · (vNRows (dMove false).toNat))).getD 2))) = true ∧
    isRun .tblLoad dTbl = true ∧ tSrcCs dTbl.toNat = false ∧ (match (wCore []).devRead 33 (run dTbl) (tSrc dTbl.toNat) (64 + 32 * tSegs dTbl.toNat) with
      | .bytes bs _ => bs.length == 64 + 32 * tSegs dTbl.toNat
      | _ => false) = true := by decide +kernel
/-! ### TILE_START: instructions that start, and what they wait for -/

def meetsB (s : State) (e : QEntry) (f : Fam) (its : List Nat) (clip : Option Nat) (j : Job := wJob) : Bool :=
  @decide (s.meetsStart 33 j e f its clip) (by delta State.meetsStart; infer_instance)
/-- The start of the entry is legal and meets its conditions. -/
def readyB (s : State) (e : QEntry) (f : Fam) (j : Job := wJob) : Bool :=
  s.issueJob 33 == some j && (s.core 33).candidate == some e && e.fam == some f && (s.adapterErr f e.d).isNone &&
  s.tileLegal 33 j (s.core 33) e f && meetsB s e f e.its none j
def dMmaK : Desc := D [(0x01, 0), (opnd 0 1 1 512, 160), (opnd 0x1000 0 1 1024, 256), (0x800, 352), (1, 392), (1, 396), (1, 405), (1, 428)]
def dMmaL : Desc := D [(0x01, 0), (opnd 0 1 1 512, 160), (opnd 0x1000 0 1 1024, 256), (0x800, 352), (1, 392), (1, 396), (1, 405)]
def tile800 : KeptTile := ⟨0x800, 1, 1, false, []⟩
def sMma (d : Desc) (f : Core → Core) : State := wCore [que d] f


def dAttn (o : Nat) (more : List (Nat × Nat)) : Desc := D ([(o, 0), (opnd 0 1 1 64, 160), (opnd 0x400 1 1 64, 224), (opnd 0x800 1 1 64, 288), (opnd 0xC00 1 1 64, 352),
  (0x1000 / 64, 416), (1, 433), (1, 434)] ++ more)
def aprWord : Nat := 0x2000 / 64 + 1 * 2 ^ 201 + 0x3F800000 * 2 ^ 169 + 0x4000 / 64 * 2 ^ 85 + 0x5000 / 64 * 2 ^ 102 + 0x6000 / 64 * 2 ^ 119 + 0x7000 / 64 * 2 ^ 136
def sAttn (d : Desc) : State := wCore [que d] (fun x => { x with store := x.store.writeLE 0x1000 64 aprWord })
def xJob : Job := { wJob with groups := [0] }
def sX (d : Desc) (f : Core → Core := fun x => x) : State := { (wCore [que d] f).setDv 0x1110 1 soloEntry with hub := { jobs := [xJob] } }
def dRelay1 : Desc := dAttn 0x0A [(1, 446), (0x10000, 456)]
def sRelay : State := { (sAttn dRelay1).setDv 0x1110 1 relayEntry with hub := { jobs := [xJob] } }
def dChk1 : Desc := D [(0x14, 0), (opnd 0 0 1 64, 160), (opnd 0x400 0 1 64, 224), (opnd 0x800 0 1 64, 288), (opnd 0xC00 0 1 64, 352), (1, 475)]
def dClaimS : Desc := D [(0x10, 0), (1, 137), (opnd 0 0 2 64, 160), (opnd 128 0 2 64, 224), (1, 288), (0x3F800000, 302)]
def sClaim (next limit : Nat) : State :=
  (wCore [que dClaimS]).scWrite 2 scWork 32 (next + limit * 2 ^ 32 + 1 * 2 ^ 112 + 0x2000 / 64 * 2 ^ 128)
def dSfnW : Desc := D [(0x10, 0), (1, 139), (0x1005, 32), (5, 64), (opnd 0 0 2 64, 160), (opnd 128 0 2 64, 224), (1, 288), (0x3F800000, 302)]
def sBehind (d : Desc) (p : Phase) : State := wCore [{ desc := d, ord := 8, phase := p }, que dSfn1]

def dMoveIn : Desc := D [(0x20, 0), (0x800, 160), (0, 200), (1, 240), (1, 241), (1, 242), (1, 258), (64, 274), (64, 306)]
/-- A tile of the job's window, whose frame is RELEASED, or READY with its object failed. -/
def dMmaWin : Desc := D [(0x01, 0), (opnd 0 1 1 512, 160), (opnd 0x1000 0 1 1024, 256), (0x100000, 352), (1, 392), (1, 396), (1, 405)]
def sWin (f : Frame) : State :=
  { wStreamed f with cores := [(33, { queue := [que dMmaWin], issued := 9 })], clusters := [(2, { holder := some 0x70001 })] }

theorem memRead_ok {s : State} {a n : Nat} (hr : s.rangeErr a n = none) (hp : s.poisonIn a n = none) : ∃ bs, s.memRead a n = .ok bs := by
  simp [State.memRead, hr, hp]
theorem test_hyp_TileStarts_waits :
    (wCore [que dSfnW]).tileLegal 33 wJob ((wCore [que dSfnW]).core 33) (que dSfnW) .sfn = true ∧ (wCore [que dSfnW]).waitOk wJob dSfnW.toNat = false ∧
    opens (sBehind dSfn1 .running) (que dSfn1) = true ∧ ((sBehind dSfn1 .running).core 33).portsFree 2 = false ∧
    opens (sBehind (D [(0x23, 0)]) .running) (que dSfn1) = true ∧ bankClear [run (D [(0x23, 0)])] .sfn dSfn1.toNat = false ∧
    opens (sBehind dMoveIn .running) (que dSfn1) = true ∧
    (sBehind dMoveIn .running).clearOf 33 [{ desc := dMoveIn, ord := 8, phase := .running }] (descRanges .sfn dSfn1.toNat [0] none 0) = false := by decide +kernel
theorem test_hyp_TileStarts_weights :
    readyB (sMma dMmaK (fun x => { x with kept := some { tile800 with bytes := [1] } })) (que dMmaK) .mma = true ∧ keptHit .mma dMmaK.toNat (some { tile800 with bytes := [1] }) = true ∧
    readyB (sMma dMmaL (fun x => { x with shadow := some (9, tile800) })) (que dMmaL) .mma = true ∧
    readyB (sMma dMmaL id) (que dMmaL) .mma = true ∧ (sMma dMmaL id).weightGate 0x800 131072 = .ok ∧
    (sMma dMmaL id).rangeErr 0x800 131072 = none ∧ (sMma dMmaL id).poisonIn 0x800 131072 = none ∧
    readyB (sWin {}) (que dMmaWin) .mma winJob = true ∧ (sWin {}).weightGate 0x100000 131072 = .wait ∧
    readyB (sWin { state := .ready, tag := some (2, 0), failed := [0] }) (que dMmaWin) .mma winJob = true ∧
    (sWin { state := .ready, tag := some (2, 0), failed := [0] }).weightGate 0x100000 131072 = .failed ∧
    readyB wFill (que dFill) .conv { wJob with lbBytes := 16 * 64 } = true ∧ keptHit .conv dFill.toNat (some (keptFor .conv dFill.toNat)) = true ∧
    wFill.fillsDone 33 (que dFill) .conv = false ∧ Nxt (exec (.lineBufferFill 33) wFill) (fun t => t.fillsDone 33 { que dFill with filled := true } .conv) = true := by
  decide +kernel
theorem test_hyp_TileStarts_families :
    readyB (sAttn (dAttn 0x08 [])) (que (dAttn 0x08 [])) .attnFwd = true ∧ readyB (sAttn (dAttn 0x09 [])) (que (dAttn 0x09 [])) .attnBwd = true ∧
    readyB sRelay (que dRelay1) .attnRelay xJob = true ∧ readyB (sX (dXMove 0x25)) (que (dXMove 0x25)) .moveAr xJob = true ∧
    readyB ((wCore [que dChk1]).setDv 0x0E00 3 16) (que dChk1) .reuseChk = true ∧ resOk ((wCore [que dChk1]).memRead 0 1) = true := by decide +kernel
theorem test_hyp_TileStarts_claims :
    (sClaim 0 4).tileLegal 33 wJob ((sClaim 0 4).core 33) (que dClaimS) .sfn = true ∧ workBad ((sClaim 0 4).workRec wJob 0).2.2 = false ∧
    meetsB (sClaim 0 4) (que dClaimS) .sfn [0] (rValid ((sClaim 0 4).workRec wJob 0).2.2 0) = true ∧ ((sClaim 0 4).core 33).claims = [] ∧
    (sClaim 4 4).startIllegal 33 wJob (que dClaimS) .sfn [] none false false = false := by decide +kernel
theorem test_tile_start_families :
    Nxt (exec (.tileStart 33) (sMma dMmaK (fun x => { x with kept := some { tile800 with bytes := [1] } }))) (fun t => (t.core 33).queue.map QEntry.phase == [.running]) = true ∧
    Nxt (exec (.tileStart 33) (sWin {})) (fun t => (t.core 33).queue.map QEntry.waitFrom == [some 0]) = true ∧
    Nxt (exec (.tileStart 33) (sX (dXMove 0x25))) (fun t => t.net.ops.length == 1) = true ∧
    Nxt (exec (.tileStart 33) (sClaim 0 4)) (fun t => t.scRead 2 scWork 4 == 1 && (t.core 33).queue.map QEntry.phase == [.running]) = true ∧
    Nxt (exec (.tileStart 33) (sClaim 4 4)) (fun t => t.scRead 2 scWork 4 == 4 && (t.core 33).queue.map QEntry.phase == [.done iEmpty]) = true := by decide +kernel
/-! ### Exchange, ports, memory -/

theorem test_hyp_MessagesAcceptedOnce_relay :
    (partOfMsg (wMsg 4).toNat []).kind = 4 ∧ (wDie 4).groupOfTag 7 = some 0 ∧ (wDie 4).relayXseq 7 4 = false ∧ (wDie 4).net.ops = [] ∧
    (wDie 4).net.relays = [] := by decide +kernel
/-- A port of a JOINED ring with RING_AUTO_BYPASS whose next self-test fails. -/
def wRingDown : State := let s := ringUp 1; { s with net := { s.net with ports := [(4, { state := .down, testFails := true })] } }
theorem test_hyp_PortTraining_fails :
    (wPort { downPort with testFails := true } 1).portEnabled 1 = true ∧ wRingDown.portEnabled 4 = true ∧ wRingDown.dv 0x1020 3 = 1 ∧
    ((wPort { state := .training, ctrlIn := [identWord], ctrlOut := [creditWord] } 1).port 1).ctrlOut ≠ [] := by decide +kernel
theorem test_training_fails :
    Nxt (exec (.portTrain 1) (wPort { downPort with testFails := true } 1)) (fun t => (t.port 1).state == .down && (t.port 1).fault == 1 && (t.port 1).downs == 1) = true ∧
    Nxt (exec (.portTrain 4) wRingDown) (fun t => (t.ring 0).bypass == .moving false && (t.port 4).state == .off) = true ∧
    Nxt (exec (.peerIdentityRecv 1) (wPort { state := .training, ctrlIn := [identWord], ctrlOut := [creditWord] } 1)) (fun t => (t.port 1).state == .training) = true := by
  decide +kernel
theorem test_hyp_RingJoin_selfTest : (portsOfRing 0).all (fun p => (ringSt (.moving true) .off).hubOf (dieOfPort p) && !((ringSt (.moving true) .off).port p).testFails &&
    !((ringSt (.moving true) .off).port p).fenced) = true := by decide +kernel
/-- More parity errors than STACK_RETRY_LIMIT on stack 0. -/
def wParity : State := wHost { parity := [(0, 9)] }
theorem test_hyp_PatrolScrub_parity : wParity.dv 0x0801 1 < mget 0 wParity.ms.parity 0 ∧ wParity.stackServes 0 = true := by decide +kernel

/-! ### Slots, adapters, rooms -/

/-- Name 3 maps slot 5, and slot 2 is SEALED beside it, with the same layout or another. -/
def wTwo (x : Slot) : State := ({ wUp with car := { slots := [(2, { state := .sealed }), (5, x)] } } : State).setDv 0x0920 4 5
theorem test_hyp_WeightSlotCommands_maps :
    isWrites (wWrite 0x0930 4 [3, 2] (wTwo {})) 0x0930 4 [3, 2] = true ∧ (wTwo {}).dv 0x0920 4 = 5 ∧ wUp.flashOff 1 = false ∧ wUp.slotOff 2 = false ∧
    ({ state := .sealed, stream := wStream } : Slot).blockCount ≠ ({ state := .sealed } : Slot).blockCount ∧
    ((wTwo { state := .sealed }).slot 5).tables = ((wTwo { state := .sealed }).slot 2).tables := by decide +kernel
theorem test_slot_maps :
    Nxt (exec .slotSwitch (wWrite 0x0930 4 [3, 2] (wTwo { state := .sealed }))) (fun t => t.dv 0x0920 4 == 2) = true ∧
    Nxt (exec .slotSwitch (wWrite 0x0930 4 [3, 2] (wTwo { state := .sealed, stream := wStream }))) (fun t => t.dv 0x0920 4 == 5) = true := by decide +kernel
/-- The flash group of channel 1 is OFF. -/
def offFlash (s : State) : State := { s with pwr := { s.pwr with blocks := mset s.pwr.blocks 20 0 } }
theorem test_hyp_CodewordReads_off : (offFlash wDemand).flashOff 1 = true ∧ (offFlash wDemand).streamFor 2 = none ∧ (offFlash wFilling).flashOff 1 = true ∧
    wDemand.flashOff 1 = false ∧ wFilling.flashOff 1 = false := by decide +kernel
theorem test_codeword_off : Nxt (exec (.codewordReadDone 2 1 true 0) (offFlash wDemand)) (fun t => t.hub.sweeping && t.hub.lastFault.status == stBusError) = true := by
  decide +kernel
theorem test_hyp_AdapterCommands_more :
    adapterOk 0 = false ∧ isWrites (wWrite 0x0A00 2 (leBytes 66 7) (wTable 0 0)) 0x0A00 2 (leBytes 66 7) = true ∧ adapterClean (par parAdapter 2 64) = adEntry ∧
    adState ((wTable 2 1).adapterRec 7) = 2 ∧ isWrites (wWrite 0x0A00 3 (leBytes 2 7) (wTable 0 0)) 0x0A00 3 (leBytes 2 7) = true := by decide +kernel
/-- The prefix entry of the source's directory is lost. -/
def wLinkBad : State := let s := wLink 0 1 false; { s with ms := { s.ms with poison := [0x401080 / 32] } }
theorem test_hyp_RoomLink_readable :
    ((wLink 0 1 false).linkReads 1 2 0 1).all (fun r => resOk ((wLink 0 1 false).memRead r.1 r.2)) = true ∧
    (wLinkBad.linkReads 1 2 0 1).all (fun r => resOk (wLinkBad.memRead r.1 r.2)) = false ∧ isWrites wLinkBad 0x0D30 1 parLink = true := by decide +kernel

/-! ### Jobs, encoders, start-up -/

theorem test_hyp_Admission_readable : ((wSubmit 0 []).admissionReads jobEntry none).all (fun r => resOk ((wSubmit 0 []).memRead r.1 r.2)) = true := by decide +kernel
def firstJob : Job := jobAs 8 0 false .waiting
/-- The save area of a job lies on a stack that is OFF. -/
def wSaveOff : State :=
  let s := stopped (wJobs [{ savingJob with saveAreas := [2 ^ 37] }] true)
  { s with pwr := { s.pwr with blocks := mset s.pwr.blocks 13 0 } }
theorem test_hyp_JobLifeCycle_more :
    (wJobs [waitingJob, firstJob] false).dispatchRuns = true ∧ (wJobs [waitingJob, firstJob] false).outranks firstJob waitingJob = true ∧
    (wJobs [waitingJob, firstJob] false).contend firstJob waitingJob = true ∧ (wJobs [waitingJob, firstJob] false).canDispatch firstJob = true ∧
    wSaveOff.rangeErr (2 ^ 37) saveClusterBytes = some .bus ∧ (match (stopped (wJobs [savingJob] true)).writeAreas savingJob.saveAreas with
      | .ok _ => true
      | .error _ => false) = true := by decide +kernel
theorem test_job_waits : Nxt (exec (.jobDispatch 0x70001) (wJobs [waitingJob, firstJob] false)) (fun t => (t.job? 0x70001).map Job.phase == some .waiting) = true ∧
    Nxt (exec (.jobSave 0x70001) wSaveOff) (fun t => t.hub.sweeping && t.hub.lastFault.status == stBusError) = true := by decide +kernel
/-- A job that is swapped out holds its clusters. -/
def wSwapped : State := wJobs [{ savedJob with dispatchPacing := some 0 }] false
theorem test_hyp_FaultSweeps_held : wSwapped.clusterHeld (clusterOf 33) = true ∧ (wSwapped.cluster (clusterOf 33)).holder = none := by decide +kernel
theorem test_core_store_held : Nxt (exec (.faultSweep (.coreStoreUe 33)) wSwapped) (fun t => (t.cluster 2).coreFence == 0 && t.por.logSeq == 1) = true := by
  decide +kernel
/-- The stream's state block cannot be read. -/
def wSbBad (fr : Option EncFrame) : State := wEnc reqWord 1 fr (fun m => { m with poison := [epOut encWord / 32] })
theorem test_hyp_Encoders_failed :
    resOk ((wSbBad (some (frameAt true))).memRead ((wSbBad (some (frameAt true))).sbRange encWord).1 ((wSbBad (some (frameAt true))).sbRange encWord).2) = false ∧
    (wFull (frameAt true)).sbGet encWord 16 8 + epRing encWord < (wFull (frameAt true)).written encWord + 13 ∧ 13 ≤ epRing encWord ∧
    (wEnc reqWord 1 (some (frameAt true))).written encWord + 13 ≤ (wEnc reqWord 1 (some (frameAt true))).sbGet encWord 16 8 + epRing encWord := by decide +kernel
theorem test_encoder_failed :
    Nxt (exec (.encFrameStart 6) (wSbBad none)) (fun t => (t.stream 6).endCode == stEncoderOverrun) = true ∧
    Nxt (exec (.encTileGroupEmit 6 13) (wSbBad (some (frameAt true)))) (fun t => (t.stream 6).endCode == stEncoderOverrun) = true ∧
    Nxt (exec (.encTileGroupEmit 6 13) (wFull (frameAt true))) (fun t => (t.stream 6).enc.frame == some (frameAt true)) = true := by decide +kernel
/-- A JOINED ring with a port DOWN by a local fault as the porter restarts. -/
def wRestart : State :=
  let s := (ringSt .joined .up).setDv 0x1020 3 1
  { s with net := { s.net with ports := [(4, { state := .down, fault := 1 }), (5, { state := .up })] } }
theorem test_hyp_StartUpAndResets_more :
    wRestart.boot.porterRuns = true ∧ (wRestart.ring 0).bypass = .joined ∧ (wRestart.port 4).state = .down ∧ (wRestart.port 4).fault = 1 ∧ 4 ∈ portsOfRing 0 ∧
    wStart.trainingValues 0 = true ∧ ({ wStart with por := { factory := none } } : State).trainingValues 0 = false := by decide +kernel
theorem test_hubs : Nxt (exec .hubsReady wStart) (fun t => t.boot.hub1) = true ∧
    Nxt (exec .hubsReady (wStart (fun b => { b with hub0 := false }))) (fun t => t.boot.hub0 && !t.boot.hub1) = true := by decide +kernel
def wActive : State := wFw (actBoot true) [fwCmd 0x0204 5 [1]] { wUp with hub := {} }
theorem test_hyp_Firmware_activates : wActive.boot.activation = some { ticket := 1, bank := 1, paused := true } ∧
    wActive.activationReady { ticket := 1, bank := 1, paused := true } = true ∧ wActive.cmd? 1 = some (fwCmd 0x0204 5 [1]) := by decide +kernel
def wOpen (slot : Byte) : State := wWrite 0x1C18 2 [slot] (wKeys [(1, [5])] { wUp with por := { wUp.por with sessions := [wSess] } })
theorem test_hyp_Keys_revoke : isWrites (wOpen 2) 0x1C18 2 [2] = true ∧ operatorKey (wOpen 2) 2 = [] ∧ (wOpen 2).por.closeAfter = [] ∧ (wOpen 2).por.inbox = [] ∧
    operatorKey (wOpen 1) 1 ≠ [] ∧ (wFirst .mailbox).defines 0x1C18 1 = true := by decide +kernel
theorem test_revoke : Nxt (exec .keyRevoke (wOpen 2)) (fun t => t.por.sessions.length == 1) = true ∧
    Nxt (exec .keyRevoke (wOpen 1)) (fun t => t.por.sessions.length == 0) = true := by decide +kernel

/-! ### More forms: the room port, exchange before its array part, ring releases, frames, prefetch, directories, activations -/

def wRoomPort (q : List RoomReq) : State :=
  let s := wNarrow (.ldx 4) (windowBase + scRooms)
  { s with ms := { s.ms with scRoomMib := 1 }, clusters := s.clusters.map (fun p => (p.1, { p.2 with roomQ := q })) }
theorem test_hyp_NarrowAccessReturns_port :
    (wRoomPort []).narrowTarget wJob 2 (((wRoomPort []).seq 2).outst.map Narrow.addr).sum = some .roomPort ∧
    ((wRoomPort [⟨5, some 6⟩]).cluster 2).roomQ = [⟨5, some 6⟩] ∧ ((wRoomPort [⟨5, none⟩]).cluster 2).roomQ = [⟨5, none⟩] := by decide +kernel
theorem test_narrow_port : Nxt (exec (.narrowReturn 2) (wRoomPort [⟨5, some 6⟩])) (fun t => t.gReg 2 4 == 6 && (t.cluster 2).roomQ == []) = true ∧
    Nxt (exec (.narrowReturn 2) (wRoomPort [])) (fun t => t.gReg 2 4 == 4 * 2 ^ 60) = true := by decide +kernel

/-- An MMA.RS whose accumulator word 0 is 1.0, its array part done; one and an MMA.AG whose array part is to come. -/
def dRs : Desc := D [(0x03, 0), (opnd 0 1 1 64, 160), (opnd 64 0 1 64, 256), (1, 392), (1, 396), (1, 405)]
def wRsDone (computed : Bool) : State :=
  let s := wX soloEntry dRs 0x03 computed
  { s with cores := s.cores.map (fun p => (p.1, { p.2 with acc := ({} : Mem).writeLE 0 4 0x3F800000 })) }
theorem test_hyp_ExchangeInstructions_fused : xOk (wRsDone true) .mmaRs = true ∧ xOk (wRsDone false) .mmaRs = true ∧
    xOk (wX soloEntry (D [(0x04, 0), (0x1000, 456)]) 0x04) .mmaAg = true ∧
    (match (wX soloEntry (D [(0x04, 0), (0x1000, 456)]) 0x04).writeDev 33 (run (D [(0x04, 0), (0x1000, 456)])) [(0x1000, [])] with
      | .ok _ => true
      | .error _ => false) = true := by decide +kernel
theorem test_mma_rs : Nxt (exec (.mmaRs 33) (wRsDone true)) (fun t => t.net.ops.map ExOp.finished == [true]) = true ∧
    Nxt (exec (.mmaRs 33) (wRsDone true)) (fun t => (t.core 33).acc.readLE 0 4 == 0x3F800000 && (t.core 33).store.readLE 64 4 == 0x3F800000) = true ∧
    Nxt (exec (.mmaAg 33) (wX soloEntry (D [(0x04, 0), (0x1000, 456)]) 0x04)) (fun t => t.net.ops.map ExOp.finished == [true]) = true := by decide +kernel
/-- The other die's instruction of the same operation still stands. -/
def wTwoDies : State :=
  let s := wCore [fin (dXMove 0x25) iOk]
  { s with net := { ops := [{ wOp 0x25 64 with finished := true }, { wOp 0x25 64 1 with core := 100 }] } }
theorem test_hyp_ExchangeInstructions_retire : (wTwoDies.core 33).queue = [fin (dXMove 0x25) iOk] ∧ (wTwoDies.opOf 0x70001 33 9).isSome = true ∧
    wTwoDies.stillSending (fin (dXMove 0x25) iOk) = false := by decide +kernel
theorem test_exchange_retires : Nxt (exec (.tileRetire 33) wTwoDies) (fun t => t.net.operations == 0 && t.net.ops.length == 1) = true := by decide +kernel

theorem test_hyp_FramesSent_control :
    ((wPort { state := .up, owedE := 3 } 1).port 1).owedE ≠ 0 ∧ ((wPort { state := .up, owedE := 3 } 1).port 1).resend = [] ∧
    ((wPort { state := .up, txB := [5], creditB := 2 } 1).port 1).creditB = 2 ∧
    (((wPort { state := .up, txB := [5], creditB := 2 } 1).bulkPull 1).port 1).txB = [5] ∧
    ((wPort { state := .up, resend := [badFrame] } 1).port 1).resend = [badFrame] ∧
    ((wPort upPort 1).port 1).room 3 1 = true ∧ ((wPort upPort 1).port 1).room 1 1 = true := by decide +kernel
theorem test_hyp_FramesReceived_control : fhKind (goodFrame 3).header = 3 ∧
    bits (goodFrame 3).header.toNat 63 32 = (frameCrc (bits (goodFrame 3).header.toNat 31 0) (goodFrame 3).flits).toNat := by
  obtain ⟨-, -, h, -⟩ := mkFrame_fields 1 0 false (kind := 3) (fl := [5]) (by decide) (by decide) (by decide)
  exact ⟨h, mkFrame_good 1 0 false (by decide) (by decide)⟩

theorem test_hyp_OnDemandFetch_waits : wFetch.hub.sweeping = false ∧ (wFetch.core 33).queue.any (fun e => e.waits && decide (e.fam = some .mma)) = true := by
  decide +kernel
/-- A parked stream whose directory header is lost. -/
def wParkedBad : State :=
  let s := wDir validEntry 0 (roomWord 1 0) true
  { s with ms := { s.ms with vacancy := [(0, { parked := [(1, 0, 0)] })], poison := [0x401000 / 32] } }
theorem test_hyp_VacancyTimeout :
    wParkedBad.isParked 1 = true ∧ wParkedBad.hasDir 1 = true ∧ (wParkedBad.dirRanges 1).any (fun r => !resOk (wParkedBad.memRead r.1 r.2)) = true ∧
    ((wDir validEntry 0 (roomWord 1 0) true).dirRanges 1).all (fun r => resOk ((wDir validEntry 0 (roomWord 1 0) true).memRead r.1 r.2)) = true := by
  decide +kernel
theorem test_vacancy_unreadable : Nxt (exec (.vacancyTimeout 1) wParkedBad) (fun t => t.hub.sweeping && (t.stream 1).endCode != 0x34) = true := by
  decide +kernel
theorem test_core_store_in_sweep : Nxt (exec (.faultSweep (.coreStoreUe 33)) (sweptState [endedJob])) (fun t => t.por.logSeq == 1 && t.hub.swept) = true ∧
    (sweptState [endedJob]).roomsToLose = [] := by decide +kernel
theorem test_hyp_AddReduce_gone : ({ wUp with boot := { wUp.boot with hub1 := false } } : State).hubOf (dieOfCluster 7) = false ∧
    wUp.blockGone (blkCluster 2) = false := by decide +kernel
theorem test_add_reduce_gone : Nxt (exec (.addReduceInt32 7 5) { wUp with boot := { wUp.boot with hub1 := false } }) (fun t => t.out.length == 1) = true := by
  decide +kernel

/-- A start whose D0 hub is late; a second activation; a HELLO whose second frame has not come. -/
theorem test_start_late_hub : Nxt (exec .startReady (wStart (fun b => { b with hub0 := false, hub1 := true }))) (fun t => t.boot.ready && !t.boot.hub0) = true := by
  decide +kernel
def wActive2 : State := wFw (actBoot true) [fwCmd 0x0204 5 [1], { fwCmd 0x0204 5 [1] with ticket := 2 }]
theorem test_hyp_Firmware_second : isWrites (wWrite 0x0204 5 [1] wActive2) 0x0204 5 [1] = true ∧ wActive2.boot.activation.isSome = true ∧
    (wActive2.por.cmds.filter (fun d => decide (d.index = 0x0204 ∧ d.sub = 5 ∧ d.ticket ≠ 1))).map RunCmd.ticket = [2] ∧
    (wActive2.fwImage (leNat [1])).stage = fwVerified ∧ wActive2.boot.fwBank = 0 ∧ (wActive.por.cmds.all (fun d => decide (d.ticket = 1))) = true := by decide +kernel
theorem test_firmware_second :
    Nxt (exec .fwActivate (wWrite 0x0204 5 [1] wActive2)) (fun t => t.por.cmds.length == 3 && t.boot == wActive2.boot) = true ∧
    Nxt (exec .fwActivateWaitExpiry wActive2) (fun t => t.boot.activation.map Activation.ticket == some 2) = true := by decide +kernel
def wPart : State := { wUp with por := { wUp.por with partHellos := [⟨.field, {}, 3, []⟩] } }
theorem test_hyp_Keys_partHello : wPart.por.partHellos.map PartHello.path = [.field] ∧ wPart.por.shakes = [] := by decide +kernel
theorem test_hello_timeout : Nxt (exec (.handshakeTimeout 0) wPart) (fun t => t.por.partHellos == [] && t.out.length == 1) = true := by decide +kernel
-- R261 (Table 10-3): the exact functions behind the bounds: 1 / (1 + e^0), and ln 2 to 32 bits.
theorem test_exact_functions : fxSigmoid 0 = fxOne / 2 ∧ fxLn2 / 2 ^ 480 = 2977044471 := by decide +kernel

/-! ### More forms: the room port as a target, the counters that CSET moves, what retires, relays that wait, fences the host meets -/

/-- An STX to the room port with n unread results, and one of a request that is to be accepted. -/
def wRoomStx (n : Nat) : State :=
  let s := wSeq [(1, BitVec.ofNat 64 (windowBase + scRooms)), (2, 7)]
  { s with ms := { s.ms with scRoomMib := 1 }, clusters := s.clusters.map (fun p => (p.1, { p.2 with roomQ := List.replicate n ⟨5, some 6⟩ })) }
def wRoomAccept : State :=
  let s := wNarrow (.stx (BitVec.ofNat 64 (3 * 2 ^ 60))) (windowBase + scRooms)
  { s with ms := { s.ms with scRoomMib := 1 } }
theorem test_hyp_NarrowAccess_port :
    (wRoomStx 7).narrowTarget wJob 2 ((wRoomStx 7).gReg 2 1).toNat = some .roomPort ∧ ((wRoomStx 7).gReg 2 1).toNat % 8 = 0 ∧
    (wRoomStx 7).roomUnread wJob 2 = 7 ∧ (wRoomStx 8).roomUnread wJob 2 = 8 ∧
    wRoomAccept.narrowJob 2 = some wJob ∧ wRoomAccept.narrowTarget wJob 2 (((wRoomAccept.seq 2).outst.map Narrow.addr).sum) = some .roomPort := by decide +kernel
theorem test_stx_port : Nxt (exec (.stx 2 2 1 0) (wRoomStx 7)) (fun t => (t.seq 2).outst.length == 1 && (t.cluster 2).roomQ.length == 7) = true ∧
    Nxt (exec (.stx 2 2 1 0) (wRoomStx 8)) (fun t => t.hub.lastFault.status == stIllegal) = true ∧
    Nxt (exec (.narrowAccepted 2) wRoomAccept) (fun t => (t.cluster 2).roomQ.map RoomReq.result == [some (BitVec.ofNat 64 (4 * 2 ^ 60))] &&
      t.clusterCtr 2 20 == 1) = true := by decide +kernel

/-- CSET of counter 5 of rank 0: the submit counter of stream 6 (R385); the release counter of the job whose window slot 2 streams (R186). -/
def wCsetPost : State := { wEnc reqWord 0 none with clusters := [(2, { holder := some 0x70001, seq := { active := true, regs := [(1, 5), (2, 1)] } })] }
def relJob : Job := { winJob with entry := teamEntry 0b100100 + BitVec.ofNat 512 (5 * 2 ^ 112) }
def wCsetRel : State :=
  let s := wStreamed { state := .ready, tag := some (2, 0) }
  { s with hub := { jobs := [relJob] }, clusters := [(2, { holder := some 0x70001, seq := { active := true, regs := [(1, 5), (2, 2)] } }), (5, { holder := some 0x70001 })] }
theorem test_hyp_Cset :
    wCsetPost.seqJob 2 = some encJob ∧ epOn (wCsetPost.stream 6).enc.params = true ∧
    encJob.syncTarget (epSubmit (wCsetPost.stream 6).enc.params) = some (2, 5) ∧ wCsetPost.heldBy encJob 6 = true ∧
    (wCsetPost.stream 6).enc.posts = [] ∧ wCsetRel.seqJob 2 = some relJob ∧ relJob.syncTarget relJob.releaseId = some (2, 5) ∧
    (wCsetRel.streamFor 2).map Job.id = some 0x70001 ∧ relJob.slot = some 2 := by decide +kernel
theorem test_cset_posts : Nxt (exec (.cset 2 0 1 2 0) wCsetPost) (fun t => (t.stream 6).enc.posts.map Prod.snd == [1]) = true ∧
    Nxt (exec (.cset 2 0 1 2 0) wCsetRel) (fun t => ((t.slot 2).frame 0).state == .released && (t.slot 2).relOrd == 1) = true := by decide +kernel

/-- A claimed instruction of index 3 of counter 0, the last of its chain or not. -/
def wClaimed (last : Bool) : State :=
  wCore [{ fin dPost iOk with claim := some 3, claimed := true, chainEnd := last }] (fun x => { x with claims := [⟨0, 3, 0, false⟩] })
theorem test_hyp_TileRetires_claimed : (wClaimed true).coreJob 33 = some wJob ∧ (wClaimed true).coreJob 33 = (wClaimed false).coreJob 33 ∧
    (fin dPost iOk).fam = some .post ∧ dWork dPost.toNat = 0 := by decide +kernel
theorem test_retire_claimed :
    Nxt (exec (.tileRetire 33) (wClaimed true)) (fun t => (t.core 33).commits.map PendCommit.index == [3] && (t.core 33).posts == [] && (t.core 33).claims == []) = true ∧
    Nxt (exec (.tileRetire 33) (wClaimed false)) (fun t => (t.core 33).commits == [] && (t.core 33).posts == [⟨1, 0x1005, 7⟩] && (t.core 33).claims.length == 1) = true := by
  decide +kernel

/-- A SCAT.KV whose stream is not held, and one that makes room 2 valid, new or in place of room 0. -/
def wScatEnd (dec : RoomDecision) (held : Bool) : State :=
  let s := wScat validEntry held
  { s with cores := [(33, { queue := [{ fin dScat iOk with rooms := if held then [⟨2, 0, 0x401080, dec⟩] else [] }] })] }
theorem test_hyp_TileRetires_scat :
    (wScatEnd .new true).coreJob 33 = some wJob ∧ (wScatEnd .new false).heldBy wJob (dStream dScat.toNat) = false ∧
    (wScatEnd .new true).heldBy wJob (dStream dScat.toNat) = true ∧ (wScatEnd .new true).rangeErr 0x401080 8 = none ∧
    (wScatEnd .new true).poisonIn 0x401080 8 = none ∧ (wScatEnd .new true).dirBase 1 + 8 = 0x401008 ∧
    (wScatEnd .new true).rangeErr 0x401008 4 = none ∧ (wScatEnd .new true).poisonIn 0x401008 4 = none ∧
    ((wScatEnd .new true).roomSlot 2).isSome = true ∧ ((wScatEnd (.copy 0) true).roomSlot 0).isSome = true ∧
    (wScatEnd (.copy 0) true).roomSlot 0 ≠ (wScatEnd (.copy 0) true).roomSlot 2 ∧ 0 < roomRef ((wScatEnd (.copy 0) true).roomEntry 0) ∧
    (((wScatEnd (.copy 0) true).roomPlace 0).map (fun pl => ((wScatEnd (.copy 0) true).vac pl.pool pl.stack).parked)) = some [] := by decide +kernel
theorem test_retire_scat :
    Nxt (exec (.tileRetire 33) (wScatEnd .new true)) (fun t => roomState (t.roomEntry 2) == 1 && roomRef (t.roomEntry 2) == 1 &&
      t.ms.mem.readLE 0x401008 4 == 1) = true ∧
    Nxt (exec (.tileRetire 33) (wScatEnd (.copy 0) true)) (fun t => roomState (t.roomEntry 0) == 0 && (t.vac 0 0).free == [0, 1, 2, 3]) = true ∧
    Nxt (exec (.tileRetire 33) (wScatEnd .new false)) (fun t => (t.core 33).queue == [] && t.clusterCtr 2 26 == 1) = true := by decide +kernel

/-- A REUSE.CHK without a tab, decided for REUSE; a retirement whose status ends the job's streams, none of which has a directory. -/
def wChkEnd : State := wCore [{ fin dChk iOk with outcome := some true }] (fun x => { x with blocks := [⟨9, 12, dChk, false, false⟩] })
def wStreamEnd : State :=
  { wCore [fin dPost iTierError] with hub := { jobs := [{ wJob with streams := [6] }], streams := [(6, { sstate := .held, holderJob := 0x70001 })] } }
theorem test_hyp_TileRetires_ends :
    wChkEnd.coreJob 33 = some wJob ∧ (wChkEnd.core 33).tabs = [] ∧ (wChkEnd.core 33).lateCopy { fin dChk iOk with outcome := some true } = none ∧
    wChkEnd.rangeErr (wChkEnd.dv 0x0E00 1 + uEntry dChk.toNat / 8) 1 = none ∧ wChkEnd.poisonIn (wChkEnd.dv 0x0E00 1 + uEntry dChk.toNat / 8) 1 = none ∧
    endCodeOf iTierError = some stTierError ∧ wStreamEnd.hasDir 6 = false ∧ (wStreamEnd.coreJob 33).isSome = true ∧
    wStreamEnd.heldBy { wJob with streams := [6] } 6 = true := by decide +kernel
theorem test_retire_ends :
    Nxt (exec (.tileRetire 33) wChkEnd) (fun t => (t.core 33).blocks.map ReuseBlock.skip == [true] && t.ms.mem.read 0 == 1#8 && t.coreCtr 33 15 == 1) = true ∧
    Nxt (exec (.tileRetire 33) wStreamEnd) (fun t => (t.stream 6).sstate == .ended && (t.stream 6).endCode == stTierError && !t.hub.sweeping) = true := by
  decide +kernel

/-- A relay at its second step, its slot landed or not, over a port that drains; a port that waits for its own identity's acknowledgement. -/
def wTrio2 (landed : Nat) : State :=
  let s := wTrio 0 {} []
  { s with net := { s.net with relays := s.net.relays.map (fun r => { r with begun := [0, 1], forwarded := [0], landed := [(0, landed)] })
                               ports := [(1, { state := .draining }), (2, { state := .up })] } }
theorem test_hyp_Relays_landed :
    ((wTrio2 2048).net.relays.find? (fun r => decide (r.group = 0) && r.begun.contains 1 && !r.forwarded.contains 1)).map (fun r => (r.n, mget 0 r.landed 0)) =
      some (3, 2048) ∧ (wTrio2 2048).portCheck (rtPortTo ((wTrio2 2048).routeEntry 0) 1 0 1) true = none := by decide +kernel
theorem test_relay_landed : Nxt (exec (.relayForward 0 1 22) (wTrio2 2048)) (fun t => t.net.relayForwards == 1) = true ∧
    Nxt (exec (.relayForward 0 1 22) (wTrio2 0)) (fun t => t == wTrio2 0) = true := by decide +kernel
theorem test_identity_waits : Nxt (exec (.peerIdentityRecv 1) (wPort { state := .training, ctrlIn := [identWord], replay := [badFrame] } 1))
    (fun t => (t.port 1).state == .training && (t.port 1).ctrlIn == [identWord]) = true := by decide +kernel

/-- A line on a fenced stack, and one whose transfer fails its parity. -/
def wFenced : State := wHost { stackRecs := [(0, { fence := 2 })] }
theorem test_hyp_HostMemory_ue : (match wFenced.rangeErr 320 64 with
      | some (.ue _) => true
      | _ => false) = true ∧ (wFenced.stack 0).fence ≠ 0 ∧ wUp.hdmLine 5 = some 5 := by decide +kernel
theorem test_host_ue : Nxt (exec (.hostMemRead 5) wFenced) (fun t => t.out.head? == some (.cxlData 5 0 true) && (t.stack 0).ue == 1) = true ∧
    Nxt (exec (.hostMemWrite 5 0x0201 1) wFenced) (fun t => t.out == [.cxlDone 5] && t.ms == wFenced.ms && t.por.logSeq == 1) = true := by decide +kernel
theorem test_doorbells_ignored : Nxt (exec (.sqTailDoorbell 3 1) wUp) (fun t => t == wUp) = true ∧
    Nxt (exec (.cqHeadDoorbell 3 1) wUp) (fun t => t == wUp) = true ∧ ((wPair onPair).pair 3).cqSize ≤ (256 : Word).toNat ∧
    Nxt (exec (.cqHeadDoorbell 3 256) (wPair onPair)) (fun t => (t.pair 3).cqHead == 0) = true := by decide +kernel

/-- What a job has that its release reads: nothing here; a sample at tier 1; a room-stack's only parked stream. -/
theorem test_hyp_release_quiet : (wJobs [doneJob] true).jobPins doneJob = [] ∧ (wJobs [doneJob] true).jobHolds doneJob = [] ∧ doneJob.adapters = [] ∧
    (wJobs [jobAs 8 0 false .waiting, doneJob] true).underBist 2 = false ∧ (wJobs [jobAs 8 0 false .waiting, doneJob] true).underBist 5 = false ∧
    doneJob.streams.all (fun i => !(wJobs [doneJob] true).hasDir i) = true ∧
    (wCmd 2 (0x70001 * 2 ^ 64) [{ wJob with phase := .waiting }] .free).jobPins { wJob with phase := .waiting } = [] ∧
    ((List.range 4).all (fun k => decide (k = 1) || !wParkedBad.isParked k)) = true := by decide +kernel
theorem test_sample_tier1 : Nxt (exec (.stewardSample ⟨52000, 1000, 3000, [], []⟩) { wUp with boot := { vin := true, refclk := true, porterRuns := true } })
    (fun t => t.pwr.pinW == 20) = true ∧ ({ wUp with boot := { vin := true, refclk := true, porterRuns := true } } : State).tier = 1 := by decide +kernel

/-- The last record of a frame whose earlier record was MODULE_RESET; a bank that lacks the pinned epoch. -/
def wLastRec : State := { wRead 0x0901 5 with boot := { wUp.boot with resetAfter := true } }
theorem test_hyp_Resets_after : wLastRec.frontRec.map (fun x => (decide (x.1.recs = [x.2]), x.2.rop)) = some (true, 1) ∧ wLastRec.boot.resetAfter = true := by
  decide +kernel
def wPinned (pin : Nat) (s : State) : State :=
  ({ s with boot := { s.boot with banks := [(0, {}), (1, { stage := fwVerified, epochCur := 4, epochPrev := 3 })] } }).setDv 0x0210 3 pin
theorem test_hyp_Firmware_pin :
    isWrites (wPinned 2 (wWrite 0x0204 5 [1] wFw)) 0x0204 5 [1] = true ∧ ((wPinned 2 wActive).fwImage 1).pinBars ((wPinned 2 wActive).dv 0x0210 3) = true ∧
    ((wPinned 4 wActive).fwImage 1).pinBars ((wPinned 4 wActive).dv 0x0210 3) = false ∧
    (wPinned 2 wActive).activationReady { ticket := 1, bank := 1, paused := true } = true ∧ ((wPinned 2 wActive2).fwImage 1).stage = fwVerified ∧
    ((wPinned 2 wActive2).fwImage (leNat [1])).pinBars 2 = true := by decide +kernel
theorem test_firmware_pin :
    Nxt (exec .fwActivate (wPinned 2 (wWrite 0x0204 5 [1] wFw))) (fun t => t.boot.activation == none && t.por.cmds == []) = true ∧
    Nxt (exec (.asyncCommandEnd 1 .done) (wPinned 2 wActive)) (fun t => t.boot.fwBank == 0 && t.boot.activation == none &&
      t.por.results.map CmdResult.status == [dsEpoch]) = true ∧
    Nxt (exec .fwActivateWaitExpiry (wPinned 2 wActive2)) (fun t => t.boot.activation == none &&
      t.por.results.map CmdResult.status == [dsEpoch, dsJobsBusy]) = true := by decide +kernel

/-! ## Commits before posts, tabs that void, rooms on clusters that are OFF -/

/-- A core with a post behind a commit of an earlier instruction, or before it. -/
def wBehind (kind before : Nat) : State :=
  wCore [] (fun x => { x with posts := [⟨kind, 0x1012, 7⟩], commits := [⟨0, 11, ⟨0, 0, 0⟩, que 0, before⟩] })
theorem test_hyp_posts_behind :
    (wBehind 1 1).postJob 33 = some wJob ∧ takePost 1 ((wBehind 1 1).core 33).posts = some (⟨1, 0x1012, 7⟩, []) ∧
    postsAhead 1 ((wBehind 1 1).core 33).posts = 0 ∧ ((wBehind 2 0).core 33).postVisible 2 = false ∧ ((wBehind 2 1).core 33).postVisible 2 = true ∧
    takePost 2 ((wBehind 2 0).core 33).posts = some (⟨2, 0x1012, 7⟩, []) ∧ wJob.progTarget 0x1012 = some (33, 2) ∧
    (wProg2.core 33).postVisible 2 = true ∧ (wProg2.core 34).postVisible 2 = true := by decide +kernel
theorem test_posts_behind :
    Nxt (exec (.syncPostEffect (.core 33)) (wBehind 1 0)) (fun t => t == wBehind 1 0) = true ∧
    Nxt (exec (.syncPostEffect (.core 33)) (wBehind 1 1)) (fun t => t.syncVal 5 0x12 == 7 && (t.core 33).commits.map PendCommit.before == [0]) = true ∧
    Nxt (exec (.progressPostEffect 33) (wBehind 2 0)) (fun t => (t.core 33).posts.length == 1) = true := by decide +kernel
/-- A TFENCE and a BAR that such a commit holds up. -/
def wFence : State := { wBehind 1 1 with clusters := (wSeq [] { stall := .tfence 2 }).clusters }
def wBarHeld : State := { wBarT with cores := [(33, { queue := [que dBarT], issued := 9, commits := [⟨0, 11, ⟨0, 0, 0⟩, que 0, 0⟩] })] }
theorem test_hyp_commits_hold : (wFence.narrowJob 2).isSome = true ∧ (wFence.seq 2).stall = .tfence 2 ∧ (wFence.coreMask 2).getLsbD 1 = true ∧
    (wFence.core 33).queue = [] ∧ (wFence.core 33).commits ≠ [] ∧ (wBarHeld.issueJob 33).isSome = true ∧ (wBarHeld.core 33).commits ≠ [] := by decide +kernel
theorem test_commits_hold : Nxt (exec (.tfenceRelease 2) wFence) (fun t => (t.seq 2).stall == .tfence 2) = true ∧
    Nxt (exec (.bar 33) wBarHeld) (fun t => (t.core 33).queue.map QEntry.arrived == [false]) = true := by decide +kernel

/-- The last member of a chain that retires SKIPPED. -/
def wSkipped : State :=
  wCore [{ fin dPost iSkipped with claim := some 3, claimed := true, chainEnd := true }] (fun x => { x with claims := [⟨0, 3, 0, false⟩] })
theorem test_hyp_TileRetires_skipped : wSkipped.coreJob 33 = some wJob ∧ (fin dPost iSkipped).fam = some .post ∧ endCodeOf iSkipped = none ∧
    (wSkipped.core 33).queue = [{ fin dPost iSkipped with claim := some 3, claimed := true, chainEnd := true }] := by decide +kernel
theorem test_retire_skipped : Nxt (exec (.tileRetire 33) wSkipped) (fun t => (t.core 33).commits == [] && (t.core 33).posts == [⟨1, 0x1005, 7⟩] &&
    (t.core 33).claims == []) = true := by decide +kernel

/-- A tab whose check came out otherwise, with an instruction on it and one on no tab. -/
def wVoid : State := wCore [{ desc := dChk, ord := 9, phase := .retired iOk }, { fin dSfn1 iOk with ord := 10, tab := some 9, arrived := true },
  { que dPost with ord := 11 }] (fun x => { x with tabs := [{ id := 9, pred := true, outcome := some false }] })
theorem test_hyp_ReuseAndTabs_void : wVoid.coreJob 33 = some wJob ∧
    (wVoid.core 33).entry? (BitVec.ofNat 32 9) = some { desc := dChk, ord := 9, phase := .retired iOk } ∧ (9 : Word).toNat = 9 := by decide +kernel
theorem test_tab_voids : Nxt (exec (.tabResolve 33) wVoid) (fun t => (t.core 33).queue == [{ que dSfn1 with ord := 10 }, { que dPost with ord := 11 }]) = true := by
  decide +kernel

/-- Cluster 2, which holds every entry of the room table here, OFF. -/
def clusterOff (s : State) : State := { s with pwr := { s.pwr with blocks := mset s.pwr.blocks 2 0 } }
theorem test_hyp_rooms_gone :
    (clusterOff (wPin (pinWord 7) validEntry true [])).roomGone 0 = true ∧ (wPin (pinWord 7) validEntry true []).roomGone 0 = false ∧
    ((clusterOff (wPin (pinWord 7) validEntry true [])).narrowJob 2).isSome = true ∧ (clusterOff (wPin (pinWord 7) validEntry true [])).pinRoom 1 0 7 = some 0 ∧
    (wPin (pinWord 7) validEntry true []).hub.sweeping = false ∧ (wLink 0 1 false).roomGone 0 = false ∧ (clusterOff (wLink 0 1 false)).roomGone 0 = true ∧
    (clusterOff (wLink 0 1 false)).linkPairs 1 2 0 1 = some [(validEntry, 0x402080)] ∧
    (wScatEnd .new true).roomGone 2 = false ∧ (wScatEnd (.copy 0) true).roomGone 0 = false ∧ (clusterOff (wScatEnd .new true)).roomGone 2 = true ∧
    (clusterOff (wScatEnd .new true)).rangeErr 0x401080 8 = none := by decide +kernel
theorem test_rooms_gone :
    Nxt (exec (.roomPin 2) (clusterOff (wPin (pinWord 7) validEntry true []))) (fun t => t.hub.sweeping && t.hub.lastFault.status == stBusError) = true ∧
    Nxt (exec (.roomUnpin 2) (clusterOff (wPin (BitVec.ofNat 64 (2 * 2 ^ 60)) validEntry true [0]))) (fun t => t.hub.sweeping && (t.cluster 2).pins == [0]) = true ∧
    Nxt (exec .roomLink (clusterOff (wLink 0 1 false))) (fun t => t.ms.mem.readLE 0x402080 8 == 0) = true ∧
    Nxt (exec (.tileRetire 33) (clusterOff (wScatEnd .new true))) (fun t => t.hub.lastFault.status == stBusError && t.hub.lastFault.core == 33) = true := by
  decide +kernel

/-! ## Ports that do not send, host writes over poison, protected encoder memory -/

/-- The bound channel of `wBound` with its port DOWN; a RELEASE of ring level 2 at rank 1 of 5, whose next port is DOWN. -/
def wBoundDown : State := { wBound with net := { wBound.net with ports := [(1, downPort)] } }
def ringEntry : Nat := 7 + 2 ^ 32 + 2 * 2 ^ 40 + 1 * 2 ^ 64 + 1 * 2 ^ 70 + 0xFFFFF * 2 ^ 76 + 5 * 2 ^ 104 + 1 * 2 ^ 112
def ringRelease : BitVec 256 := xrecord 3 1 2 7 1
def wRingRelease : State := { wUp.setDv 0x1110 1 ringEntry with net := { ports := [(5, { state := .up, ctrlIn := [ringRelease] }), (4, downPort)] } }
theorem test_hyp_ports_hold :
    (wBoundDown.port 1).state ≠ .up ∧ (wBoundDown.port 1).state ≠ .draining ∧ wBoundDown.xFront (trioEntry 1) 3 1 (xLevels (trioEntry 1) 1) = some 1 ∧
    takeBarrier 1 [ringRelease] = some (ringRelease, []) ∧ wRingRelease.groupOfTag (xrecOf ringRelease 5).tag = some 0 ∧ (xrecOf ringRelease 5).level = 2 ∧
    (ringPorts 2).2 = 5 ∧ rtRank (wRingRelease.routeEntry 0) 2 0 + 1 ≤ (rtSize (wRingRelease.routeEntry 0) 2 - 1) / 2 ∧ throughPort 5 = 4 ∧
    wRingRelease.boundJob 7 3 = none := by decide +kernel
theorem test_ports_hold :
    Nxt (exec (.seqBar 2 0 1 0 0) wBoundDown) (fun t => (t.port 1).ctrlHeld.length == 1 && (t.port 1).ctrlOut == []) = true ∧
    Nxt (exec (.xbarReleaseRecv 5) wRingRelease) (fun t => (t.port 4).ctrlHeld == [ringRelease]) = true ∧
    Nxt (exec (.peerIdentityRecv 1) (wPort { state := .training, ctrlIn := [identWord], ctrlHeld := [ringRelease] } 1))
      (fun t => (t.port 1).state == .up && (t.port 1).ctrlOut == [ringRelease]) = true := by decide +kernel

def wPoisoned : State := wHost { poison := [10], snoopWait := [5, 7] }
theorem test_hyp_HostMemory_poisoned : wPoisoned.partPoison 320 0xFF = some 10 ∧ wPoisoned.isPoisoned 10 = true ∧ wPoisoned.isProtected 320 1 = false ∧
    wPoisoned.rangeErr 320 64 = none ∧ wPoisoned.hostReaches = true ∧ wPoisoned.hdmLine 5 = some 5 := by decide +kernel
theorem test_host_poisoned : Nxt (exec (.hostMemWrite 5 0x0201 0xFF) wPoisoned) (fun t => t.ms.poison == [10] && t.ms.mem == wPoisoned.ms.mem &&
      (t.stack 0).ue == 1 && t.out == [.cxlDone 5]) = true ∧
    Nxt (exec (.bisnpResponse 5) wPoisoned) (fun t => t == { wPoisoned with ms := { wPoisoned.ms with snoopWait := [7] } }) = true := by decide +kernel

/-- REUSE_CONFIG over a bitmap on a stack that serves, and on a fenced one. -/
def wReuse (fence : Nat) : State :=
  wWrite 0x0E00 2 (leBytes 8 2048) ((wHost { stackRecs := [(0, { fence := fence })], mem := ({} : Mem).writeBytes 4096 [7] } { wUp with hub := {} }).setDv 0x0E00 1 4096 |>.setDv 0x0E00 3 16)
theorem test_hyp_ReuseConfig : isWrites (wReuse 2) 0x0E00 2 (leBytes 8 2048) = true ∧ (wReuse 0).rangeErr 4096 (validBytes 16) = none ∧ (wReuse 0).hub.jobs = [] ∧
    stacksOf 4096 (validBytes 16) = [0] ∧ (wReuse 2).stackOff 0 = false ∧ ((wReuse 2).stack 0).fence ≠ 0 ∧ (wReuse 2).meetsWeight 4096 2048 = false := by decide +kernel
theorem test_reuse_config : Nxt (exec .reuseConfigWrite (wReuse 0)) (fun t => t.ms.mem.read 4096 == 0) = true ∧
    Nxt (exec .reuseConfigWrite (wReuse 2)) (fun t => t.ms.mem.read 4096 == 7 && (t.stack 0).ue == 1) = true := by decide +kernel

/-- The user view over the slots and the ring of the encoded stream. -/
def wViewed (fr : Option EncFrame) : State :=
  let s := wEnc reqWord 1 fr
  { s with por := { s.por with viewBase := 0x1000000, viewBytes := 0x1800000 } }
theorem test_hyp_Encoders_protected :
    (wViewed none).isProtected (epOut encWord + 8192) 1 = true ∧ meets (epOut encWord + 8192) (epRing encWord) 0x1000000 0x1800000 = true ∧
    within (epOut encWord + 8192) (epRing encWord) 0x1000000 0x1800000 = true ∧ (wViewed none).isProtected (epDpb encWord) 64 = true ∧
    (wEnc reqWord 1 none).isProtected (epOut encWord + 8192) (epRing encWord) = false ∧ (wEnc reqWord 1 none).isProtected (epDpb encWord) 64 = false ∧
    (wViewed none).encOf 6 = some (encJob, encWord) ∧ (rqRefresh reqWord).getLsbD 0 = true ∧
    (wViewed (some (frameAt false))).engineTakes 0 6 (frameAt false) 0 = true := by decide +kernel
theorem test_encoder_protected :
    Nxt (exec (.encTileGroupEmit 6 13) (wViewed (some (frameAt true)))) (fun t => (t.stream 6).endCode == stEncoderOverrun) = true := by decide +kernel

/-! ## Throttling, windows during start-up, the porter's restart -/

def wHot : State := { wUp with pwr := { wUp.pwr with throttled := true, throttledLast := true, opTarget := 4 } }
theorem test_hyp_throttled : wHot.boot.ready = true ∧ isWrites (wWrite 0x0518 2 [1] wHot) 0x0518 2 [1] = true ∧ wHot.stewards = true := by decide +kernel
theorem test_windows_start : wStart.boot.inReset = true ∧ wStart.starting = true ∧ ({ wStart with pwr := {} } : State).starting = false ∧
    Nxt (exec .bwWindowEnd wStart) (fun t => t.por.windowSeq == 1) = true ∧
    Nxt (exec .bwWindowEnd { wStart with pwr := {} }) (fun t => t.por.windowSeq == 0) = true := by decide +kernel
/-- A running FW_STAGE_MEM of 64 bytes over a bank that a verify has passed; a view entry that the ROM's resolve changes. -/
def wStaging : State := wFw (fun b => b) [fwCmd 0x0204 2 (leBytes 8 0x10000 ++ leBytes 8 64)]
def wViewMoved : State := ({ wUp with hub := {}, por := { wUp.por with viewBase := 0x200000, viewBytes := 0x100000 } } : State).setDv 0x1F08 1 0x200000 |>.setDv 0x1F08 2 0x100000
theorem test_hyp_StartUpAndResets_cut : (wStaging.fwImage wStaging.stageBank).stage = fwVerified ∧ wStaging.por.cmds.length = 1 ∧
    wStaging.por.cmds.all RunCmd.stages = true ∧ wViewMoved.boot.ready = true ∧ wViewMoved.boot.porterRuns = true ∧
    wViewMoved.dv 0x1F08 1 = 0x200000 ∧ (wViewMoved.setDv 0x1F08 1 0).dv 0x1F08 1 = 0 := by decide +kernel
theorem test_cut_stages :
    wStaging.por.cmds.all (fun c => ((wStaging.cutStage c).fwImage 1).stage == fwStaging) = true ∧
    (let t := (wViewMoved.setDv 0x1F08 1 0).viewFollow wViewMoved; t.por.viewBase == 0 && t.por.viewBytes == 0) = true ∧
    (let t := wViewMoved.viewFollow wViewMoved; t.por.viewBase == 0x200000) = true := by decide +kernel

/-! ## Relay records, windows of other slots, undefined behaviour, cut commands -/

/-- The relay's ARRIVE_ID names rank 15, which the team does not have. -/
def wRelayFar : State := { wRelay with ms := { mem := wRelay.ms.mem.writeLE 0x1000 64 (relayWord + 15 * 2 ^ 100) } }
theorem test_hyp_AttentionStores_arrive :
    meets 0x1000 (2048 + 2 * 2 * 2048) (relayRecOf relayWord).shard (2 * 2048) = false ∧ (wJob.syncTarget (relayRecOf relayWord).arrive).isSome = true ∧
    wRelayFar.runningOf 33 .attnRelay = some (wJob, run dRelay) ∧ resOk (wRelayFar.memRead (xAddr dRelay.toNat) 64) = true ∧
    wJob.syncTarget (relayRecOf (relayWord + 15 * 2 ^ 100)).arrive = none := by decide +kernel
theorem test_relay_arrive : Nxt (exec (.attnRelay 33) wRelayFar) (fun t => t.hub.lastFault.status == stIllegal) = true := by decide +kernel
/-- A line with one poisoned granule and a single-bit error in the other; a scrub that corrects writes its unit back. -/
theorem test_flips_counted :
    Nxt (exec (.hostMemRead 5) (wHost { poison := [10], flips := [11] })) (fun t => (t.stack 0).ce == 1 && (t.stack 0).ue == 1) = true ∧
    Nxt (exec (.patrolScrub 0 3 [4] []) wUp) (fun t => mget 0 t.por.bwCounts 24 == 2048 && mget 0 t.por.bwCounts 16 == 2048) = true ∧
    Nxt (exec (.patrolScrub 0 3 [] []) wUp) (fun t => mget 0 t.por.bwCounts 24 == 0) = true := by decide +kernel
/-- The job that waits has no slot of its own. -/
def wFetchOther : State := { wFetch with hub := { jobs := [{ winJob with slot := none }] } }
theorem test_hyp_OnDemandFetch_other : wFetchOther.rangeSlot 2 = 2 ∧ wFetch.rangeSlot 2 = 2 ∧ wFetchOther.slotOnDemand 2 = true ∧
    (wFetchOther.slot 2).window = 1 ∧ (wFetchOther.core 33).queue.any (fun e => e.waits && decide (e.fam = some .mma)) = true ∧
    ((wFetchOther.slot 2).regionObjs (0x100800 - 0x100000) 2048).map ObjLoc.obj = [0] := by decide +kernel
theorem test_fetch_other : Nxt (exec (.onDemandFetch 33) wFetchOther) (fun t => (t.slot 2).demand == [0] && (t.slot 2).owner) = true := by decide +kernel
/-- No room of the list is free. -/
def wScatFull : State := { wScat 0 true with ms := { (wScat 0 true).ms with vacancy := [] } }
theorem test_hyp_ScatKv_noVacancy : wScatFull.scatErr dScat.toNat = none ∧ wScatFull.isParked 1 = false ∧
    (match wScatFull.decideRooms wJob 1 0 (wScatFull.groupHdr 1 0) [7] with
     | .noVacancy => true
     | _ => false) = true := by decide +kernel
theorem test_no_vacancy : Nxt (exec (.scatKv 33) wScatFull) (fun t => (t.core 33).queue.map QEntry.phase == [.done iNoVacancy] && t.isParked 1 &&
    t.ms.mem.read (wScatFull.dirBase 1 + 2) == 2 && t.ms.mem.readLE (wScatFull.dirBase 1 + 4) 4 == 1) = true := by decide +kernel
/-- A stack with the directory of a stream that holds rooms stays ON; one whose entries are EMPTY does not hold it. -/
theorem test_stack_busy : ((wScat validEntry true).holdsRooms 1) = true ∧ ((wScat 0 true).holdsRooms 1) = false ∧
    (wScat validEntry false).holdsRooms 1 = false ∧ (wScat validEntry true).stackBusy 0 = true := by decide +kernel
/-- Dividers whose next step breaks FABRIC ≥ ARITH: FABRIC is overridden to 16 while ARITH runs at its point. -/
def wBroken : State := let s := wUp.setDv 0x0401 2 16
  { s with pwr := { s.pwr with fabricDiv := 12, arithDiv := 12 }, por := { s.por with fusedSvn := 3 } }
theorem test_hyp_rampBreaks :
    let a := stepTo wBroken.pwr.arithDiv wBroken.arithTarget
    let f := stepTo wBroken.pwr.fabricDiv wBroken.fabricTarget
    (a, f) ≠ (wBroken.pwr.arithDiv, wBroken.pwr.fabricDiv) ∧ a < f := by decide +kernel
theorem test_undefined : Nxt (exec .rampStep wBroken) (fun t => t.por.fusedSvn == 3 && t.boot.vin && t.boot.porterStarted && t.pending == []) = true := by decide +kernel
/-- A BULK_SEND written through the mailbox runs as power fails. -/
def wCut : State := { wUp with por := { cmds := [{ ticket := 7, index := 0x1030, sub := 1, path := .mailbox, session := 5, params := List.replicate 32 0 }] } }
theorem test_hyp_StartUpAndResets_told : (wCut.cmd? 7).map RunCmd.path = some .mailbox ∧ wCut.por.cmds.all (fun c => (bulkSendOf c).isSome) = true ∧
    wCut.boot.porterStarted = true ∧ wCut.dv 0x1F10 1 < 64 := by decide +kernel
theorem test_cut_told : (let r := wCut.cutCmds wCut.por.cmds
    let t := r.1.clearUnits.reportCut r.2
    t.por.cmds == [] && t.por.mbResult && t.hub.msixPending.getLsbD 0 && t.por.results.map CmdResult.status == [dsResetAborted]) = true := by decide +kernel
/-- A stopped porter; a cluster two of whose cores are fenced, one of them by BIST. -/
theorem test_stopped_porter : ({ wUp with boot := { wUp.boot with porterRuns := false }, por := { sessions := [wSess], shakes := [wShake] } } : State).boot.porterRuns = false ∧
    Nxt (exec (.sessionIdleTimeout 9) { wUp with boot := { wUp.boot with porterRuns := false }, por := { sessions := [wSess] } }) (fun t => t.por.sessions == [wSess]) = true ∧
    Nxt (exec (.handshakeTimeout 9) { wUp with boot := { wUp.boot with porterRuns := false }, por := { shakes := [wShake] } }) (fun t => t.por.shakes == [wShake]) = true := by decide +kernel
theorem test_bist_returns :
    Nxt (exec (.bistRunEnd 4 [] []) { wBist ⟨4, 3, 0, 0⟩ with clusters := [(4, { fencedBist := true, coreFence := 6, bistCores := 2 })] }) (fun t =>
      (t.cluster 4).coreFence == 4 && (t.cluster 4).fencedCmd && !(t.cluster 4).fencedBist) = true ∧
    Nxt (exec (.bistRunEnd 4 [] []) { wBist ⟨4, 3, 0, 0⟩ with clusters := [(4, {})] }) (fun t => !(t.cluster 4).fencedCmd) = true := by decide +kernel
/-- The group's OBU, the first that is left, does not fit a full ring: nothing of the frame goes out. -/
theorem test_hyp_Encoders_part :
    let s := wFull (frameAt true)
    (headObus (frameAt true).input).drop 3 = [] ∧ (groupObu (frameAt true).input 0 13).length ≤ epRing encWord ∧
    s.written encWord ≤ s.sbGet encWord 16 8 + epRing encWord ∧ s.sbGet encWord 16 8 + epRing encWord < s.written encWord + (groupObu (frameAt true).input 0 13).length ∧
    s.written encWord < 2 ^ 64 ∧ s.isProtected (epOut encWord + 8192) (epRing encWord) = false ∧
    s.rangeErr (epOut encWord) (8192 + epRing encWord) = none ∧ s.poisonIn (epOut encWord) (8192 + epRing encWord) = none := by decide +kernel

end Sys2Proof.Tests
end

/-! PROOFS. Weight waits, stops and line-buffer fills (R28, R76, R191, R274): what each of the four commands leaves unchanged. -/

namespace Sys2Proof.Machine

/-! ## A step of one core -/

/-- Changing core c changes nothing beside it. -/
theorem onlyCore_modCore (s : State) (c : Nat) (f : Core → Core) : OnlyCore c s (s.modCore c f) :=
  ⟨SameRest.modCore s c f, fun _ hd => core_modCore_ne s f hd, fun _ _ => rfl, rfl⟩

/-- Which job holds a cluster follows from the hub and the clusters. -/
theorem holderJob_congr {s t : State} (hhub : t.hub = s.hub) (hcl : t.clusters = s.clusters) (k : Nat) :
    t.holderJob k = s.holderJob k := by
  simp only [State.holderJob, State.job?, State.cluster, hhub, hcl]

/-- The job that runs on a core holds its cluster. -/
theorem holderJob_of_coreJob {s : State} {c : Nat} {job : Job} (h : s.coreJob c = some job) :
    s.holderJob (clusterOf c) = some job := by
  unfold State.coreJob at h
  split at h
  · cases h
  · split at h
    · next j hj =>
      split at h
      · rw [hj]; exact h
      · cases h
    · cases h

/-- In a queue where the entries of one ordinal are changed, an entry of that ordinal is a changed one. -/
theorem exists_of_mem_map_ord {es : List QEntry} {ord : Word} {f : QEntry → QEntry} {q : QEntry}
    (hq : q ∈ es.map (fun e => if e.ord = ord then f e else e)) (ho : q.ord = ord) : ∃ r, q = f r := by
  obtain ⟨r, -, rfl⟩ := List.mem_map.mp hq
  by_cases hr : r.ord = ord
  · exact ⟨r, if_pos hr⟩
  · rw [if_neg hr] at ho; exact absurd ho hr

/-! ## The end of a wait (R28) -/

/-- The charge of n cycles of waiting to slot i. -/
def Power.chargeWait (p : Power) (i n : Nat) : Power := { p with wstallCycles := mmod 0 p.wstallCycles i (fun m => m + n) }

theorem chargeWait_cycles (p : Power) (i n j : Nat) :
    mget 0 (p.chargeWait i n).wstallCycles j = if j = i then mget 0 p.wstallCycles i + n else mget 0 p.wstallCycles j :=
  mget_mmod 0 p.wstallCycles i j (fun m => m + n)

theorem endWait_of_slot {s : State} {c : Nat} {e : QEntry} {job : Job} {w i : Nat} (he : (s.core c).entry? e.ord = some e)
    (hw : e.waitFrom = some w) (hj : s.holderJob (clusterOf c) = some job) (hi : job.slot = some i) :
    s.endWait c e.ord = (s.withPwr (fun p => p.chargeWait i (s.pacing.toNat - w))).modEntry c e.ord
      (fun q => { q with waitFrom := none }) := by
  simp [State.endWait, he, hw, hj, hi, Power.chargeWait]

theorem endWait_of_noSlot {s : State} {c : Nat} {ord : Word} {job : Job} (hj : s.holderJob (clusterOf c) = some job)
    (hi : job.slot = none) : s.endWait c ord = s.modEntry c ord (fun q => { q with waitFrom := none }) := by
  simp [State.endWait, hj, hi]

/-- Whatever it charges, the end of a wait clears the mark of the entry and changes no more of the core. -/
theorem endWait_eq (s : State) (c : Nat) (ord : Word) :
    ∃ p, s.endWait c ord = (s.withPwr p).modEntry c ord (fun q => { q with waitFrom := none }) := by
  unfold State.endWait
  split
  · exact ⟨_, rfl⟩
  · exact ⟨fun p => p, rfl⟩

/-- WEIGHT_TILE_READY ends the oldest wait where what it waits for is there. -/
theorem weightReady_of_there {s : State} {c : Nat} {job : Job} {e : QEntry} (hj : s.coreJob c = some job)
    (hw : (s.core c).waiting? = some e) (ht : s.weightsThere c e = true) : s.weightReady c = s.endWait c e.ord := by
  simp [State.weightReady, hj, hw, ht]

/-- The wait that WEIGHT_TILE_READY ends: its core's queue without the mark, and the charge to the job's slot. -/
theorem endWait_effect {s : State} {c : Nat} {job : Job} {e : QEntry} (hj : s.coreJob c = some job)
    (he : (s.core c).entry? e.ord = some e) :
    let t := s.endWait c e.ord
    OnlyCore c { s with pwr := t.pwr } t ∧
    (∀ i w, job.slot = some i → e.waitFrom = some w → t.pwr = { s.pwr with wstallCycles := t.pwr.wstallCycles } ∧
      (∀ n, mget 0 t.pwr.wstallCycles n =
        if n = i then mget 0 s.pwr.wstallCycles i + (s.pacing.toNat - w) else mget 0 s.pwr.wstallCycles n)) ∧
    (job.slot = none → t.pwr = s.pwr) ∧
    t.core c = { s.core c with queue := (s.core c).queue.map (fun q => if q.ord = e.ord then { q with waitFrom := none } else q) } := by
  intro t
  have hh := holderJob_of_coreJob hj
  obtain ⟨p, hp⟩ := endWait_eq s c e.ord
  refine ⟨?_, fun i w hi hw => ?_, fun hi => ?_, ?_⟩
  · show OnlyCore c { s with pwr := (s.endWait c e.ord).pwr } (s.endWait c e.ord)
    rw [hp]; exact onlyCore_modCore (s.withPwr p) c _
  · have ht : t = _ := endWait_of_slot he hw hh hi
    rw [ht]; exact ⟨rfl, chargeWait_cycles s.pwr i (s.pacing.toNat - w)⟩
  · have ht : t = _ := endWait_of_noSlot hh hi
    rw [ht]; rfl
  · show (s.endWait c e.ord).core c = _
    rw [hp]; exact core_modEntry_self ..

/-! ## A wait that meets its deadline (R191) -/

/-- Nothing retires past an instruction that runs at the queue's front, where no tab is open (R73). -/
theorem retirable_of_running {x : Core} {front : QEntry} {rest : List QEntry} (hr : front.phase = .running) (ht : x.tabs = []) :
    x.retirable (front :: rest) = none := by
  simp [Core.retirable, QEntry.isDone, QEntry.isRetired, QEntry.isRunning, Core.ownTab, hr, ht]

/-- Nothing retires of a queue whose front has not started. -/
theorem retirable_of_queued {x : Core} {es : List QEntry} (h : ∀ q ∈ es, q.phase = .queued) : x.retirable es = none := by
  cases es with
  | nil => rfl
  | cons e es =>
    have he : e.phase = .queued := h e List.mem_cons_self
    simp [Core.retirable, QEntry.isDone, QEntry.isRetired, QEntry.isRunning, he]

theorem tileRetire_of_none {s : State} {c : Nat} (h : (s.core c).retirable (s.core c).queue = none) : s.tileRetire c = s := by
  unfold State.tileRetire
  split
  · rfl
  · simp only [h]

/-- What a deadline makes of the entry that waits: done with TIER_ERROR, its wait over, on the tab it is on if it has started. -/
def QEntry.expire (tab : Option Nat) (q : QEntry) : QEntry :=
  { q with waitFrom := none, tab := if q.isQueued then tab else q.tab, phase := .done iTierError }

/-- The entry as the deadline finds it, before anything retires. -/
def State.expired (s : State) (c : Nat) (ord : Word) : State :=
  (s.endWait c ord).modEntry c ord (fun q => { q with
    tab := if q.isQueued then ((s.core c).tabFor ord.toNat).map Tab.id else q.tab, phase := .done iTierError })

theorem tierExpiry_of_waiting {s : State} {c : Nat} {job : Job} {e : QEntry} (hj : s.coreJob c = some job)
    (hw : (s.core c).waiting? = some e) : s.tierExpiry c = (s.expired c e.ord).tileRetire c := by
  simp only [State.tierExpiry, hj, hw]; rfl

theorem expired_core (s : State) (c : Nat) (ord : Word) :
    let tab := ((s.core c).tabFor ord.toNat).map Tab.id
    (s.expired c ord).core c = { s.core c with queue := (s.core c).queue.map (fun q => if q.ord = ord then q.expire tab else q) } := by
  obtain ⟨p, hp⟩ := endWait_eq s c ord
  have hc : (s.withPwr p).core c = s.core c := rfl
  simp only [State.expired, hp, core_modEntry_self, hc, List.map_map]
  congr 1
  refine List.map_congr_left fun q _ => ?_
  by_cases h : q.ord = ord
  · simp [h, QEntry.expire]; rfl
  · simp [h]

theorem expired_ms (s : State) (c : Nat) (ord : Word) : (s.expired c ord).ms = s.ms := by
  obtain ⟨p, hp⟩ := endWait_eq s c ord
  simp only [State.expired, hp, modEntry_ms, withPwr_ms]

/-- Behind an instruction that runs, the expired entry stays in the queue: TIER_DEADLINE_EXPIRY retires nothing. -/
theorem tierExpiry_behind_running {s : State} {c : Nat} {job : Job} {e front : QEntry} {rest : List QEntry}
    (hj : s.coreJob c = some job) (hw : (s.core c).waiting? = some e) (hq : (s.core c).queue = front :: rest)
    (hne : front.ord ≠ e.ord) (hr : front.phase = .running) (ht : (s.core c).tabs = []) :
    s.tierExpiry c = s.expired c e.ord := by
  rw [tierExpiry_of_waiting hj hw]
  apply tileRetire_of_none
  rw [expired_core]
  simp only [hq, List.map_cons, if_neg hne]
  exact retirable_of_running hr ht

theorem expired_entries {s : State} {c : Nat} {ord : Word} {q : QEntry} (hq : q ∈ ((s.expired c ord).core c).queue)
    (ho : q.ord = ord) : q.phase = .done iTierError ∧ q.waitFrom = none := by
  rw [expired_core] at hq
  obtain ⟨r, rfl⟩ := exists_of_mem_map_ord hq ho
  exact ⟨rfl, rfl⟩

/-! ## A stop between instructions (R76) -/

/-- What the steps of a stop leave where no instruction runs: the hub, the clusters and stacked memory, and of the core all but what its
queue's entries say beside their descriptors, its tags, its counters and the report. -/
def StopsOnly (c : Nat) (s t : State) : Prop :=
  t.hub = s.hub ∧ t.clusters = s.clusters ∧ t.ms = s.ms ∧
  t.core c = { s.core c with
    queue := (t.core c).queue, tags := (t.core c).tags, ctr := (t.core c).ctr, stopped := (t.core c).stopped } ∧
  (t.core c).queue.map QEntry.desc = (s.core c).queue.map QEntry.desc

theorem StopsOnly.refl (c : Nat) (s : State) : StopsOnly c s s := ⟨rfl, rfl, rfl, rfl, rfl⟩

theorem StopsOnly.trans {c : Nat} {s t u : State} (h : StopsOnly c s t) (h' : StopsOnly c t u) : StopsOnly c s u := by
  obtain ⟨hhub, hcl, hms, hcore, hq⟩ := h
  obtain ⟨hhub', hcl', hms', hcore', hq'⟩ := h'
  refine ⟨hhub'.trans hhub, hcl'.trans hcl, hms'.trans hms, ?_, hq'.trans hq⟩
  rw [hcore']; generalize u.core c = y; rw [hcore]

theorem StopsOnly.foldl {α : Type} {c : Nat} (f : State → α → State) (h : ∀ s a, StopsOnly c s (f s a)) (l : List α) (s : State) :
    StopsOnly c s (l.foldl f s) := by
  induction l generalizing s with
  | nil => exact StopsOnly.refl c s
  | cons a l ih => exact (h s a).trans (ih _)

theorem stopsOnly_modCore (s : State) (c : Nat) (f : Core → Core)
    (hf : ∀ x, f x = { x with queue := (f x).queue, tags := (f x).tags, ctr := (f x).ctr, stopped := (f x).stopped })
    (hd : ∀ x, (f x).queue.map QEntry.desc = x.queue.map QEntry.desc) : StopsOnly c s (s.modCore c f) := by
  refine ⟨rfl, rfl, rfl, ?_, ?_⟩
  · rw [core_modCore_self]; exact hf _
  · rw [core_modCore_self]; exact hd _

theorem stopsOnly_endWait (s : State) (c : Nat) (ord : Word) : StopsOnly c s (s.endWait c ord) := by
  obtain ⟨p, hp⟩ := endWait_eq s c ord
  rw [hp]
  refine stopsOnly_modCore (s.withPwr p) c _ (fun _ => rfl) (fun x => ?_)
  rw [List.map_map]
  refine List.map_congr_left fun q _ => ?_
  simp only [Function.comp]; split <;> rfl

/-- Abandoning the fills of queued entries keeps their descriptors. -/
theorem abandonFills_desc (x : Core) : x.abandonFills.queue.map QEntry.desc = x.queue.map QEntry.desc := by
  simp only [Core.abandonFills, List.map_map]
  refine List.map_congr_left fun q _ => ?_
  simp only [Function.comp]; split <;> rfl

/-- So does step 3 of Table 3-5, whichever entries it abandons. -/
theorem stopsOnly_abandon (s : State) (c : Nat) (gone : List QEntry) :
    StopsOnly c s (s.modCore c (fun x => { x.abandonFills with
      queue := x.abandonFills.queue.map (fun e => if gone.any (fun g => g.ord == e.ord) then e.abandon
        else if e.isQueued then { e with waitFrom := none, waitMet := e.arrived } else e) })) := by
  refine stopsOnly_modCore s c _ (fun _ => rfl) (fun x => ?_)
  rw [← abandonFills_desc x, List.map_map]
  refine List.map_congr_left fun q _ => ?_
  simp only [Function.comp]; split
  · rfl
  · split <;> rfl

theorem stopsOnly_withNet (s : State) (c : Nat) (f : Net → Net) : StopsOnly c s (s.withNet f) := StopsOnly.refl c s

theorem stopsOnly_bumpCore (s : State) (c i n : Nat) : StopsOnly c s (s.bumpCore c i n) :=
  stopsOnly_modCore s c _ (fun _ => rfl) (fun _ => rfl)

/-- No entry of a queue in which nothing has started is running. -/
theorem filter_isRunning_of_queued {es : List QEntry} (h : ∀ q ∈ es, q.phase = .queued) : es.filter QEntry.isRunning = [] :=
  List.filter_eq_nil_iff.mpr fun q hq => by simp [QEntry.isRunning, h q hq]

theorem retireAll_of_none {s : State} {c : Nat} (h : (s.core c).retirable (s.core c).queue = none) (n : Nat) :
    State.retireAll n c s = s := by
  induction n with
  | zero => rfl
  | succ n ih => rw [State.retireAll, tileRetire_of_none h, ih]

theorem StopsOnly.tabs {c : Nat} {s t : State} (h : StopsOnly c s t) : (t.core c).tabs = (s.core c).tabs := by
  obtain ⟨-, -, -, hcore, -⟩ := h
  rw [hcore]

/-- The last step of a stop where no tab is open: the core reports stopped. -/
theorem StopsOnly.report {c : Nat} {s t : State} {f : Core → Core} (h : StopsOnly c s t)
    (hf : f (t.core c) = { t.core c with stopped := true }) :
    StopsOnly c s (t.modCore c f) ∧ ((t.modCore c f).core c).stopped = true := by
  have hreport : t.modCore c f = t.modCore c (fun x => { x with stopped := true }) := congrArg (t.setCore c) hf
  rw [hreport, core_modCore_self]
  exact ⟨h.trans (stopsOnly_modCore t c _ (fun _ => rfl) (fun _ => rfl)), rfl⟩

/-- A core asked to stop, in whose queue nothing has started and which has no tab open, reports stopped. -/
theorem stopCore_of_queued {s : State} {c : Nat} (hreq : (s.core c).stopReq = true) (hst : (s.core c).stopped = false)
    (hsw : s.hub.sweeping = false) (ht : (s.core c).tabs = []) (hq : ∀ q ∈ (s.core c).queue, q.phase = .queued) :
    StopsOnly c s (s.stopCore c) ∧ ((s.stopCore c).core c).stopped = true := by
  simp only [State.stopCore, hreq, hst, hsw, filter_isRunning_of_queued hq, List.foldl_nil,
    retireAll_of_none (retirable_of_queued hq), Bool.not_true, Bool.or_self, Bool.false_eq_true, if_false]
  generalize List.filter (fun e => s.abandons e) (s.core c).queue = gone
  have hwaits := StopsOnly.foldl (c := c) (fun (t : State) (e : QEntry) => if e.waitFrom.isSome then t.endWait c e.ord else t)
    (fun t e => by
      split
      · exact stopsOnly_endWait t c e.ord
      · exact StopsOnly.refl c t) (s.core c).queue s
  have h := fun f n => ((hwaits.trans (stopsOnly_abandon _ c gone)).trans (stopsOnly_withNet _ c f)).trans (stopsOnly_bumpCore _ c 14 n)
  refine StopsOnly.report (h _ _) ?_
  simp only [(h _ _).tabs.trans ht]

/-- CORE_STOPPED of a job that is not cancelled is the core's stop alone. -/
theorem coreStopped_of_notCancelled {s : State} {c : Nat}
    (h : ∀ j, (s.stopCore c).holderJob (clusterOf c) = some j → j.why ≠ .cancelled) : s.coreStopped c = s.stopCore c := by
  unfold State.coreStopped
  dsimp only
  split
  · next j hj => simp [h j hj]
  · rfl

/-! ## The fills of a convolution (R274) -/

/-- Fills change the store and the tags of a core, and of the store no byte below the line buffer. -/
def FillsOnly (base : Nat) (x y : Core) : Prop :=
  y = { x with store := y.store, tags := y.tags } ∧ ∀ a, a < base → y.store.read a = x.store.read a

theorem FillsOnly.refl (base : Nat) (x : Core) : FillsOnly base x x := ⟨rfl, fun _ _ => rfl⟩

theorem FillsOnly.trans {base : Nat} {x y z : Core} (h : FillsOnly base x y) (h' : FillsOnly base y z) : FillsOnly base x z := by
  obtain ⟨hxy, hread⟩ := h
  obtain ⟨hyz, hread'⟩ := h'
  refine ⟨?_, fun a ha => (hread' a ha).trans (hread a ha)⟩
  rw [hyz]; generalize z.store = m; generalize z.tags = g; rw [hxy]

/-- Blocks that are all written from an address on leave what is below it. -/
theorem read_foldl_writeBytes_below {α : Type} (l : List α) (addr : α → Nat) (bs : α → List Byte) (m : Mem) {a : Nat}
    (h : ∀ x, a < addr x) : (l.foldl (fun m x => m.writeBytes (addr x) (bs x)) m).read a = m.read a := by
  induction l generalizing m with
  | nil => rfl
  | cons x l ih => rw [List.foldl_cons, ih, Mem.read_writeBytes_out _ _ _ _ (.inl (h x))]

theorem fillsOnly_fillSlot (x : Core) (job : Job) (d : Nat) (p : Nat × LineTag) : FillsOnly job.lbBase x (fillSlot x job d p) := by
  unfold fillSlot
  split
  · exact FillsOnly.refl _ x
  · refine ⟨rfl, fun a ha => read_foldl_writeBytes_below _ _ _ _ (fun pos => ?_)⟩
    rw [Nat.add_assoc]; exact Nat.lt_add_right _ ha

theorem fillsOnly_foldl_fillSlot (job : Job) (d : Nat) (l : List (Nat × LineTag)) (x : Core) :
    FillsOnly job.lbBase x (l.foldl (fun y p => fillSlot y job d p) x) := by
  induction l generalizing x with
  | nil => exact FillsOnly.refl _ x
  | cons p l ih => exact (fillsOnly_fillSlot x job d p).trans (ih _)

/-- The lines to fill are the same for every tab, but for the tab their tags name. -/
theorem mem_convFills_tab {f : Fam} {d : Nat} {its : List Nat} {t : Option Nat} (u : Option Nat) {p : Nat × LineTag}
    (h : p ∈ convFills f d its t) : (p.1, { p.2 with tab := u }) ∈ convFills f d its u := by
  unfold convFills at h ⊢
  by_cases hc : f.isConv = true
  · simp only [if_pos hc, List.mem_flatMap, List.mem_map] at h ⊢
    obtain ⟨i, hi, y, hy, rfl⟩ := h
    exact ⟨i, hi, y, hy, rfl⟩
  · rw [if_neg hc] at h; cases h

/-- The lines that a core needs for a convolution lie in the general region where those of its fills do. -/
theorem pastGeneral_convNeed {x : Core} {f : Fam} {d general : Nat} {its : List Nat} {t : Option Nat}
    (h : ∀ p ∈ convFills f d its t, p.2.src + p.2.bytes ≤ general) :
    pastGeneral general { cr := (x.convNeed f d its).map (fun p => (p.2.src, p.2.src + p.2.bytes)) } = false := by
  simp only [pastGeneral, List.append_nil, List.any_eq_false, List.mem_map, decide_eq_true_eq]
  rintro _ ⟨p, hp, rfl⟩
  have hmem := mem_convFills_tab t (List.mem_of_mem_filter hp)
  have hle := h _ hmem
  exact Nat.not_lt.mpr hle

/-- A convolution within the limits of Table 5-3 overflows none. -/
theorem overflowCode_of_within {f : Fam} {job : Job} {d : Nat} {r : IterRngs} {empty : Bool} (hr : pastGeneral job.general r = false)
    (hw : cInW d ≤ 8192) (hh : cSpanH d ≤ 16) (hv : (dBatch d + 1) * cSpanV d ≤ 16)
    (hs : cInW d * convPosBytes d ≤ job.slotBytes) : overflowCode f job d r empty = 0 := by
  have hv1 : cSpanV d ≤ 16 := le_trans (Nat.le_mul_of_pos_left _ (Nat.succ_pos _)) hv
  simp [overflowCode, hr, Nat.not_lt.mpr hw, Nat.not_lt.mpr hh, Nat.not_lt.mpr hv, Nat.not_lt.mpr hs, Nat.not_lt.mpr hv1]

/-- LINE_BUFFER_FILL of a convolution at the queue's front, within its limits and claimed where it claims. -/
theorem lineFill_of_front {s : State} {c : Nat} {job : Job} {e : QEntry} {f : Fam} {rest : List QEntry}
    (hj : s.issueJob c = some job) (hq : (s.core c).queue = e :: rest) (hph : e.phase = .queued) (hf : e.fam = some f)
    (hconv : f.isConv = true) (hfilled : e.filled = false) (hres : (s.core c).restore = [])
    (hlegal : s.tileLegal c job (s.core c) e f = true) (hclaim : dClaim e.d = false ∨ e.claimed = true)
    (hempty : emptyOutput f e.d e.clip = false) (hshort : convShort e.d = false)
    (hover : overflowCode f job e.d
      { cr := ((s.core c).convNeed f e.d e.its).map (fun p => (p.2.src, p.2.src + p.2.bytes)) } false = 0) :
    s.lineFill c = (s.modCore c (fun x =>
      (convFills f e.d e.its (((s.core c).tabFor e.ord.toNat).map Tab.id)).foldl (fun y p => fillSlot y job e.d p) x)).modEntry c e.ord
        (fun q => { q with filled := true }) := by
  have hclaim' : (dClaim e.d && !e.claimed) = false := by
    rcases hclaim with h | h <;> simp [h]
  have hdone : s.fillsDone c e f = false := by simp [State.fillsDone, hfilled]
  simp [State.lineFill, hj, hq, QEntry.isQueued, hph, hf, hconv, hres, hlegal, hclaim', hempty, hshort, hover, hdone, State.clearOf]

/-- What a fill leaves of a core, and the mark of its convolution. -/
theorem fill_effect (s : State) (c : Nat) (job : Job) (d : Nat) (l : List (Nat × LineTag)) (ord : Word) :
    let t := (s.modCore c (fun x => l.foldl (fun y p => fillSlot y job d p) x)).modEntry c ord (fun q => { q with filled := true })
    OnlyCore c s t ∧ (t.core c).acc = (s.core c).acc ∧
    (∀ a, a < job.lbBase → (t.core c).store.read a = (s.core c).store.read a) ∧
    ∀ q ∈ (t.core c).queue, q.ord = ord → q.filled = true := by
  obtain ⟨hcore, hread⟩ := fillsOnly_foldl_fillSlot job d l (s.core c)
  refine ⟨⟨SameRest.refl s, fun e he => (core_modCore_ne _ _ he).trans (core_modCore_ne s _ he), fun _ _ => rfl, rfl⟩, ?_, fun a h => ?_,
    fun q hq ho => ?_⟩
  · rw [core_modEntry_self, core_modCore_self, hcore]
  · rw [core_modEntry_self, core_modCore_self]; exact hread a h
  · rw [core_modEntry_self] at hq
    obtain ⟨r, rfl⟩ := exists_of_mem_map_ord hq ho
    rfl

/-- Settles O26: each command is the core's own operation (the end of a wait, the expiry, the stop, the fill), whose effect the lemmas
above say. -/
theorem waitsStopsAndFills : Obligations.WaitsStopsAndFills := by
  unfold Obligations.WaitsStopsAndFills
  intro c s job e
  refine ⟨?ready, ?expiry, ?stop, ?fill⟩
  case ready =>
    intro hj hw hthere he
    exact ⟨s.endWait c e.ord, congrArg Host.Outcome.next (weightReady_of_there hj hw hthere), endWait_effect hj he⟩
  case expiry =>
    intro front rest hj hw _ _ hq hne hr ht
    refine ⟨s.expired c e.ord, congrArg Host.Outcome.next (tierExpiry_behind_running hj hw hq hne hr ht), ?_, ?_, expired_ms s c e.ord,
      fun _ => expired_entries⟩ <;> rw [expired_core]
  case stop =>
    intro hreq hst hsw ht hwhy hq
    obtain ⟨⟨hhub, hcl, hms, hcore, hdesc⟩, hstopped⟩ := stopCore_of_queued hreq hst hsw ht hq
    have halone : s.coreStopped c = s.stopCore c :=
      coreStopped_of_notCancelled fun j hj => hwhy j ((holderJob_congr hhub hcl _).symm.trans hj)
    exact ⟨s.stopCore c, congrArg Host.Outcome.next halone, hstopped, by rw [hcore], by rw [hcore], by rw [hcore],
      by rw [hcore], hdesc, hms⟩
  case fill =>
    intro f rest hj hq hph hf hconv hfilled hres hlegal hclaim hempty hshort hw hh hv hs hsrc
    have hover := overflowCode_of_within (f := f) (empty := false) (pastGeneral_convNeed (x := s.core c) hsrc) hw hh hv hs
    exact ⟨_, congrArg Host.Outcome.next (lineFill_of_front hj hq hph hf hconv hfilled hres hlegal hclaim hempty hshort hover),
      fill_effect s c job e.d _ e.ord⟩

end Sys2Proof.Machine

/-! PROOFS. The words that a floating-point MMA leaves in the accumulators (R37, R42, R43, R112). -/

namespace Sys2Proof.Machine

/-! ## Sums that start from a positive zero (R43) -/

/-- An exact sum does not see the exponent of a positive zero. -/
theorem add_posZero (e : Int) (b : Val) : (Val.fin false 0 e).add b = Val.zero.add b := by
  cases b <;> rfl

/-- A tile of one block or more has the same sum from every positive zero: the first addition, of a block or of the padding, rounds. -/
theorem accBlocks_posZero (e : Int) (ps : List Val) {k : Nat} (hk : 32 ≤ k) :
    accBlocks (.fin false 0 e) ps k = accBlocks Val.zero ps k := by
  have hblock (b : Val) : blockAdd (.fin false 0 e) b = blockAdd Val.zero b := congrArg r32 (add_posZero e _)
  cases ps with
  | nil =>
    have hpads : cdiv ([] : List Val).length 32 < k / 32 := Nat.div_pos hk (by decide)
    simp only [accBlocks, if_pos hpads]
    exact congrArg r32 (add_posZero e _)
  | cons p ps =>
    have hchunks : chunks32 (p :: ps) =
        (p :: ps).take 32 :: chunks 32 ((p :: ps).length / 32) ((p :: ps).drop 32) := rfl
    simp only [accBlocks, hchunks, List.foldl_cons, hblock]

/-- A magnitude code of binary32 with its sign is a 32-bit word. -/
theorem sign_add_lt (neg : Bool) {c : Nat} (hc : c < 2 ^ 31) : (if neg then 2 ^ 31 else 0) + c < 2 ^ 32 := by
  cases neg <;> simp only [if_true, Bool.false_eq_true, if_false] <;> omega

/-- An FP32 code is a 32-bit word. -/
theorem fp32_encode_lt (v : Val) : fp32.encode v < 2 ^ 32 := by
  cases v with
  | nan => decide
  | inf neg => exact sign_add_lt neg (by decide)
  | fin neg m e =>
    by_cases hc : fp32.magCode m e ≤ fp32.maxCode
    · have hcode : fp32.encode (.fin neg m e) = (if neg then 2 ^ 31 else 0) + fp32.magCode m e := by
        simp only [FloatFmt.encode, FloatFmt.conv, if_pos hc]; rfl
      rw [hcode]; exact sign_add_lt neg (hc.trans_lt (by decide))
    · have hcode : fp32.encode (.fin neg m e) = (if neg then 2 ^ 31 else 0) + 0x7F800000 := by
        simp only [FloatFmt.encode, FloatFmt.conv, if_neg hc]; rfl
      rw [hcode]; exact sign_add_lt neg (by decide)

/-- A floating-point word that starts from +0 (R43) becomes the code of the block sums added to +0. -/
theorem accumulate_float_zero (as ws : List Val) {k : Nat} (hk : 32 ≤ k) :
    accumulate false 0 as ws k = fp32.encode (accBlocks Val.zero (List.zipWith Val.mul as ws) k) :=
  congrArg fp32.encode (accBlocks_posZero (-149) _ hk)

/-! ## The accumulator words among an instruction's writes -/

theorem Writes.foldl_append_acc (ws : List Writes) (w : Writes) :
    (ws.foldl Writes.append w).acc = w.acc ++ ws.flatMap Writes.acc := by
  induction ws generalizing w with
  | nil => exact (List.append_nil _).symm
  | cons v ws ih => rw [List.foldl_cons, ih, List.flatMap_cons]; exact List.append_assoc ..

@[simp] theorem Writes.join_acc (ws : List Writes) : (Writes.join ws).acc = ws.flatMap Writes.acc :=
  Writes.foldl_append_acc ws {}

@[simp] theorem Writes.append_acc (v w : Writes) : (v.append w).acc = v.acc ++ w.acc := rfl

/-- A row of an operand goes to the core store alone. -/
@[simp] theorem Operand.writeRow_acc (o : Operand) (r width : Nat) (vs : List Val) : (o.writeRow r width vs).acc = [] := by
  simp only [Operand.writeRow]
  split
  · rfl
  · split <;> rfl

theorem mem_accRow_acc {r : Nat} {ws : List Nat} {p : Nat × Nat} :
    p ∈ (accRow r ws).acc ↔ ∃ n w, ws[n]? = some w ∧ p = (r * 256 + n, w) := by
  simp only [accRow, List.mem_map, Prod.exists, List.mem_zipIdx_iff_getElem?]
  exact ⟨fun ⟨w, n, hw, hp⟩ => ⟨n, w, hw, hp.symm⟩, fun ⟨n, w, hw, hp⟩ => ⟨w, n, hw, hp.symm⟩⟩

/-- The word that `arrayRows` leaves in column n of its row r. -/
def arrayWord (ints : Bool) (init accRow0 nExt : Nat) (m acc : Mem) (o : Operand)
    (acts : Nat → Nat → List (List Val × List Val × Nat)) (r n : Nat) : Nat :=
  (acts r n).foldl (fun w p => accumulate ints w p.1 p.2.1 p.2.2)
    (accInit ints init (if init = 1 then o.row m r nExt 256 else [])[n]? (accWord acc (accRow0 + r) n))

/-- Whether or not it writes an output, `arrayRows` writes one accumulator word for each column of each row. -/
theorem mem_arrayRows_acc {ints : Bool} {init outm accRow0 nExt rows : Nat} {scale : Val} {m acc : Mem} {o : Operand}
    {acts : Nat → Nat → List (List Val × List Val × Nat)} {p : Nat × Nat} :
    p ∈ (arrayRows ints init outm accRow0 nExt scale m acc o rows acts).acc ↔
      ∃ r < rows, ∃ n < nExt, p = ((accRow0 + r) * 256 + n, arrayWord ints init accRow0 nExt m acc o acts r n) := by
  have hout (a b : Writes) (hb : b.acc = []) : (if outm = 1 then a.append b else a).acc = a.acc := by
    split
    · rw [Writes.append_acc, hb, List.append_nil]
    · rfl
  have hcol (f : Nat → Nat) (n w : Nat) : ((List.range nExt).map f)[n]? = some w ↔ n < nExt ∧ w = f n := by
    simp only [List.getElem?_map, Option.map_eq_some_iff, List.getElem?_eq_some_iff, List.length_range, List.getElem_range]
    exact ⟨fun ⟨_, ⟨h, rfl⟩, hw⟩ => ⟨h, hw.symm⟩, fun ⟨h, hw⟩ => ⟨n, ⟨h, rfl⟩, hw.symm⟩⟩
  simp only [arrayRows, Writes.join_acc, List.flatMap_map, List.mem_flatMap, List.mem_range, hout _ _ (Operand.writeRow_acc ..),
    mem_accRow_acc, hcol, arrayWord]
  constructor
  · rintro ⟨r, hr, n, _, ⟨hn, rfl⟩, rfl⟩; exact ⟨r, hr, n, hn, rfl⟩
  · rintro ⟨r, hr, n, hn, rfl⟩; exact ⟨r, hr, n, _, ⟨hn, rfl⟩, rfl⟩

/-! ## Words of the accumulator store -/

theorem Mem.readLE_writeLE_ne (m : Mem) {k l : Nat} (v : Nat) (h : k ≠ l) :
    (m.writeLE (4 * k) 4 v).readLE (4 * l) 4 = m.readLE (4 * l) 4 :=
  congrArg leNat (Mem.readBytes_congr _ _ _ _ fun _ hi => Mem.read_writeLE_out _ _ _ _ _ (by omega))

/-- After a list of word writes that agree on word k, word k is as written. -/
theorem readLE_foldl_writeLE {l : List (Nat × Nat)} (m : Mem) {k v : Nat} (hmem : (k, v) ∈ l) (hv : v < 2 ^ 32)
    (hagree : ∀ p ∈ l, p.1 = k → p.2 = v) : (l.foldl (fun m p => m.writeLE (4 * p.1) 4 p.2) m).readLE (4 * k) 4 = v := by
  induction l using List.reverseRecOn with
  | nil => cases hmem
  | append_singleton l p ih =>
    rw [List.foldl_concat]
    by_cases hp : p.1 = k
    · rw [hp, hagree p (by simp) hp, Mem.readLE_writeLE]; exact Nat.mod_eq_of_lt hv
    · have hin : (k, v) ∈ l := (List.mem_append.mp hmem).resolve_right fun h => hp (by rw [← List.mem_singleton.mp h])
      rw [Mem.readLE_writeLE_ne _ _ hp, ih hin fun q hq => hagree q (List.mem_append_left _ hq)]

/-! ## What a completed instruction leaves in the accumulators -/

/-- A change of a core that keeps the accumulators. -/
theorem acc_modCore (s : State) (c : Nat) {f : Core → Core} (h : (f (s.core c)).acc = (s.core c).acc) :
    ((s.modCore c f).core c).acc = (s.core c).acc := (congrArg Core.acc (core_modCore_self s c f)).trans h

@[simp] theorem acc_bumpCore (s : State) (c i n : Nat) : ((s.bumpCore c i n).core c).acc = (s.core c).acc :=
  acc_modCore s c rfl

@[simp] theorem acc_bumpCoreFree (s : State) (c i : Nat) : ((s.bumpCoreFree c i).core c).acc = (s.core c).acc :=
  acc_modCore s.draw.2 c rfl

@[simp] theorem acc_countPorts (s : State) (c : Nat) (f : Fam) : ((s.countPorts c f).core c).acc = (s.core c).acc := by
  have hif (b : Bool) (t : State) (i : Nat) : ((if b then t.bumpCoreFree c i else t).core c).acc = (t.core c).acc := by
    cases b
    · rfl
    · exact acc_bumpCoreFree t c i
  simp only [State.countPorts, hif]

@[simp] theorem acc_finish (s : State) (c : Nat) (ord : Word) (i : Byte) : ((s.finish c ord i).core c).acc = (s.core c).acc :=
  acc_modCore s c rfl

@[simp] theorem acc_keepAfter (s : State) (c d : Nat) : ((s.keepAfter c d).core c).acc = (s.core c).acc := by
  unfold State.keepAfter
  split
  · rfl
  · exact acc_modCore s c rfl

@[simp] theorem acc_applyWrites (s : State) (c : Nat) (w : Writes) :
    ((s.applyWrites c w).core c).acc = w.acc.foldl (fun m p => m.writeLE (4 * p.1) 4 p.2) (s.core c).acc := by
  simp [State.applyWrites]

@[simp] theorem acc_complete (s : State) (c : Nat) (e : QEntry) (f : Fam) (w : Writes) :
    ((s.complete c e f w).core c).acc = w.acc.foldl (fun m p => m.writeLE (4 * p.1) 4 p.2) (s.core c).acc := by
  simp [State.complete]

/-- A running MMA completes with its writes. -/
theorem runMma_of_running {s : State} {c : Nat} {job : Job} {e : QEntry} (h : s.runningOf c .mma = some (job, e)) :
    s.runMma c = (s.complete c e .mma
      (mmaWrites .mma e.d e.its e.clip (s.core c).weights none (s.core c).store (s.core c).acc)).keepAfter c e.d := by
  simp [State.runMma, h]

/-! ## One iteration of a floating-point MMA -/

/-- An instruction without batch or claim runs iteration 0 alone (R109). -/
theorem its_of_single {e : QEntry} (hb : dBatch e.d = 0) (hc : e.claim = none) : e.its = [0] := by
  simp [QEntry.its, hb, hc]

/-- Iteration 0 has the operand as the descriptor gives it. -/
@[simp] theorem Operand.iter_zero (o : Operand) : o.iter 0 = o := by simp [Operand.iter]

@[simp] theorem Operand.clip_none (o : Operand) : o.clip none = o := rfl

/-- The products of one iteration of an MMA: row r of A with column n of the tile, for each column below N_EXT. -/
theorem mem_mmaWrites_acc {d : Nat} {tile : List Byte} {m acc : Mem} (hinit : mInit d = 0) (hfmt : (dOp1 d).fmt ≠ fmtInt8)
    {p : Nat × Nat} : p ∈ (mmaWrites .mma d [0] none tile none m acc).acc ↔
      ∃ r < (dOp1 d).rows, ∃ n < mNExt d, p = ((mAccRow d + r) * 256 + n,
        fp32.encode (accBlocks Val.zero (List.zipWith Val.mul ((dOp1 d).row m r (mKExt d) 256)
          (tileCol (mWFmt d) tile n (mKExt d))) 256)) := by
  simp only [mmaWrites, mmaIter, Writes.join_acc, List.zipIdx_singleton, List.map_cons, List.map_nil, List.flatMap_cons,
    List.flatMap_nil, List.append_nil, Operand.iter_zero, Operand.clip_none, mem_arrayRows_acc, hinit, hfmt, arrayWord,
    decide_false, Bool.false_and, Bool.false_eq_true, if_false, Nat.zero_mul, Nat.add_zero, List.foldl_cons, List.foldl_nil]
  refine exists_congr fun r => and_congr_right fun _ => exists_congr fun n => and_congr_right fun hn => ?_
  have hcol : ((List.range (mNExt d)).map (fun n => tileCol (mWFmt d) tile n (mKExt d)))[n]?.getD [] =
      tileCol (mWFmt d) tile n (mKExt d) := by simp [hn]
  rw [hcol]
  exact Eq.congr_right (congrArg _ (accumulate_float_zero _ _ (by decide)))

/-- Settles O17: the word is among the writes of the one iteration, and no other write meets it, since N_EXT is at most the 256 words
of an accumulator row. -/
theorem mmaAccumulatorWord : Obligations.MmaAccumulatorWord := by
  unfold Obligations.MmaAccumulatorWord
  intro c s job e r n hrun hbatch hclaim hclip hinit hfmt hr hn hwide
  refine ⟨s.runMma c, rfl, ?_⟩
  rw [runMma_of_running hrun, acc_keepAfter, acc_complete, its_of_single hbatch hclaim, hclip, Nat.mul_comm]
  refine readLE_foldl_writeLE _ ((mem_mmaWrites_acc hinit hfmt).mpr ⟨r, hr, n, hn, rfl⟩) (fp32_encode_lt _) fun p hp hk => ?_
  obtain ⟨r', _, n', hn', rfl⟩ := (mem_mmaWrites_acc hinit hfmt).mp hp
  obtain ⟨rfl, rfl⟩ : r' = r ∧ n' = n := by dsimp only at hk; omega
  rfl

end Sys2Proof.Machine

/-! PROOFS. The sequencer's words and its own instructions (R78–R81, R93): decoding and encoding, the progress wait, the immediate
operations, local memory, branches and jumps. -/

namespace Sys2Proof.Machine

/-- A field stands above the fields appended to it. -/
theorem toNat_append_eq_add {v w : Nat} (x : BitVec v) (y : BitVec w) : (x ++ y).toNat = x.toNat * 2 ^ w + y.toNat := by
  rw [BitVec.toNat_append, Nat.shiftLeft_eq, Nat.mul_comm, Nat.two_pow_add_eq_or_of_lt y.isLt]

/-! ## The progress wait (R93) -/

/-- Settles O57: on a tag and rows the rule reads the distance of the tags, then the rows. -/
theorem progressWaitRule : Obligations.ProgressWaitRule := by
  unfold Obligations.ProgressWaitRule
  intro c w r q d
  have hd : d = (c.toNat + 256 - w.toNat) % 256 := by
    simp only [d, BitVec.toNat_sub]; omega
  have hmet : progMet (c ++ r) (w ++ q) = if d = 0 then decide (q.toNat ≤ r.toNat) else decide (d ≤ 127) := by
    have hfields : ∀ x y : Nat, y < 2 ^ 24 → (x * 2 ^ 24 + y) / 2 ^ 24 = x ∧ (x * 2 ^ 24 + y) % 2 ^ 24 = y := by omega
    simp only [progMet, toNat_append_eq_add, hfields _ _ r.isLt, hfields _ _ q.isLt, hd]
  rw [hmet]
  by_cases h0 : d = 0
  · simp [h0]
  · simp [h0]; omega

/-! ## The formats of Table 3-6 -/

theorem toNat_encG (opc : Nat) (gd ga gb : BitVec 5) (fn : BitVec 11) : (encG opc gd ga gb fn).toNat =
    opc % 64 * 2 ^ 26 + gd.toNat * 2 ^ 21 + ga.toNat * 2 ^ 16 + gb.toNat * 2 ^ 11 + fn.toNat := by
  unfold encG; simp only [toNat_append_eq_add, BitVec.toNat_ofNat]; omega

theorem toNat_encI (opc : Nat) (gd ga : BitVec 5) (imm : Half) : (encI opc gd ga imm).toNat =
    opc % 64 * 2 ^ 26 + gd.toNat * 2 ^ 21 + ga.toNat * 2 ^ 16 + imm.toNat := by
  unfold encI; simp only [toNat_append_eq_add, BitVec.toNat_ofNat]; omega

/-- Format B has the bits of format I. -/
theorem encB_eq_encI (opc : Nat) (ga gb : BitVec 5) (off : Half) : encB opc ga gb off = encI opc ga gb off := rfl

theorem toNat_encJ (opc : Nat) (gd : BitVec 5) (off : BitVec 21) : (encJ opc gd off).toNat =
    opc % 64 * 2 ^ 26 + gd.toNat * 2 ^ 21 + off.toNat := by
  unfold encJ; simp only [toNat_append_eq_add, BitVec.toNat_ofNat]; omega

/-- The fields of a word, as numbers. -/
theorem toNat_wFields (w : Word) : wOpc w = w.toNat / 2 ^ 26 % 2 ^ 6 ∧ (wGd w).toNat = w.toNat / 2 ^ 21 % 2 ^ 5 ∧
    (wGa w).toNat = w.toNat / 2 ^ 16 % 2 ^ 5 ∧ (wGb w).toNat = w.toNat / 2 ^ 11 % 2 ^ 5 ∧ (wFn w).toNat = w.toNat % 2 ^ 11 ∧
    (wImm w).toNat = w.toNat % 2 ^ 16 ∧ (wOff w).toNat = w.toNat % 2 ^ 21 := by
  simp [wOpc, wGd, wGa, wGb, wFn, wImm, wOff, BitVec.extractLsb'_toNat, Nat.shiftRight_eq_div_pow]

/-- A word of format G gives its fields back. -/
theorem fields_encG {opc : Nat} (gd ga gb : BitVec 5) (fn : BitVec 11) (h : opc < 64) :
    wOpc (encG opc gd ga gb fn) = opc ∧ wGd (encG opc gd ga gb fn) = gd ∧ wGa (encG opc gd ga gb fn) = ga ∧
    wGb (encG opc gd ga gb fn) = gb ∧ wFn (encG opc gd ga gb fn) = fn := by
  have hd := gd.isLt; have ha := ga.isLt; have hb := gb.isLt; have hf := fn.isLt
  simp only [← BitVec.toNat_inj, toNat_wFields, toNat_encG]
  omega

theorem fields_encI {opc : Nat} (gd ga : BitVec 5) (imm : Half) (h : opc < 64) :
    wOpc (encI opc gd ga imm) = opc ∧ wGd (encI opc gd ga imm) = gd ∧ wGa (encI opc gd ga imm) = ga ∧
    wImm (encI opc gd ga imm) = imm := by
  have hd := gd.isLt; have ha := ga.isLt; have hi := imm.isLt
  simp only [← BitVec.toNat_inj, toNat_wFields, toNat_encI]
  omega

theorem fields_encJ {opc : Nat} (gd : BitVec 5) (off : BitVec 21) (h : opc < 64) :
    wOpc (encJ opc gd off) = opc ∧ wGd (encJ opc gd off) = gd ∧ wOff (encJ opc gd off) = off := by
  have hd := gd.isLt; have ho := off.isLt
  simp only [← BitVec.toNat_inj, toNat_wFields, toNat_encJ]
  omega

/-- A word is spelled by its fields, in each format. -/
theorem encG_fields (w : Word) : encG (wOpc w) (wGd w) (wGa w) (wGb w) (wFn w) = w := by
  have h := w.isLt
  simp only [← BitVec.toNat_inj, toNat_encG, toNat_wFields]
  omega

theorem encI_fields (w : Word) : encI (wOpc w) (wGd w) (wGa w) (wImm w) = w := by
  have h := w.isLt
  simp only [← BitVec.toNat_inj, toNat_encI, toNat_wFields]
  omega

theorem encJ_fields (w : Word) : encJ (wOpc w) (wGd w) (wOff w) = w := by
  have h := w.isLt
  simp only [← BitVec.toNat_inj, toNat_encJ, toNat_wFields]
  omega

/-! ## The operations of Table 3-7: which numbers stand for one, and the word of each -/

section
variable {k : ClusterId} {gd ga gb : BitVec 5} {fn : BitVec 11} {imm : Half} {n : Nat} {i : Instr}

theorem aluOf_isSome : (aluOf k gd ga gb n).isSome = decide (n < 16) := by
  unfold aluOf; split <;> grind

theorem amoOf_isSome : (amoOf k gd ga gb n).isSome = decide (n < 4) := by
  unfold amoOf; split <;> grind

theorem immOf_isSome : (immOf k gd ga imm n).isSome =
    decide (n ∈ [0x02, 0x03, 0x04, 0x05, 0x06, 0x07, 0x08, 0x09, 0x0A, 0x10, 0x11, 0x12, 0x13, 0x1F, 0x2C]) := by
  unfold immOf; split <;> simp_all

theorem branchOf_isSome : (branchOf k ga gb imm n).isSome = decide (n ∈ [0x18, 0x19, 0x1A, 0x1B, 0x1C, 0x1D]) := by
  unfold branchOf; split <;> simp_all

theorem syncOf_isSome : (syncOf k gd ga gb fn n).isSome =
    decide (n ∈ [0x20, 0x21, 0x22, 0x23, 0x24, 0x25, 0x26, 0x27, 0x28, 0x29, 0x3E]) := by
  unfold syncOf; split <;> simp_all

theorem seqEncode_aluOf (h : aluOf k gd ga gb n = some i) : seqEncode i = some (encG 0x01 gd ga gb (BitVec.ofNat 11 n)) := by
  unfold aluOf at h; split at h <;> cases h <;> rfl

theorem seqEncode_amoOf (h : amoOf k gd ga gb n = some i) : seqEncode i = some (encG 0x14 gd ga gb (BitVec.ofNat 11 n)) := by
  unfold amoOf at h; split at h <;> cases h <;> rfl

theorem seqEncode_immOf (h : immOf k gd ga imm n = some i) : seqEncode i = some (encI n gd ga imm) := by
  unfold immOf at h; split at h <;> cases h <;> rfl

theorem seqEncode_branchOf (h : branchOf k ga gb imm n = some i) : seqEncode i = some (encI n ga gb imm) := by
  unfold branchOf at h; split at h <;> cases h <;> rfl

theorem seqEncode_syncOf (h : syncOf k gd ga gb fn n = some i) : seqEncode i = some (encG n gd ga gb fn) := by
  unfold syncOf at h; split at h <;> cases h <;> rfl

end

/-- Which words stand for a command: by the opcode, and by FN where it selects. -/
theorem seqDecode_isSome (k : ClusterId) (w : Word) : (seqDecode k w).isSome =
    if wOpc w = 0x01 then decide ((wFn w).toNat < 16) else if wOpc w = 0x14 then decide ((wFn w).toNat < 4)
    else decide (wOpc w ∈ [0x02, 0x03, 0x04, 0x05, 0x06, 0x07, 0x08, 0x09, 0x0A, 0x10, 0x11, 0x12, 0x13, 0x18, 0x19, 0x1A, 0x1B, 0x1C, 0x1D,
      0x1E, 0x1F, 0x20, 0x21, 0x22, 0x23, 0x24, 0x25, 0x26, 0x27, 0x28, 0x29, 0x2C, 0x3E]) := by
  unfold seqDecode
  dsimp only
  split
  · exact aluOf_isSome
  · split
    · exact amoOf_isSome
    · split
      · simp [*]
      · simp only [Option.isSome_or, immOf_isSome, branchOf_isSome, syncOf_isSome]
        simp only [List.mem_cons, List.not_mem_nil, or_false, Bool.decide_or]
        generalize wOpc w = o at *
        rw [Bool.eq_iff_iff]; simp; omega

/-- A command's word is the word it was decoded from (R80). -/
theorem seqEncode_of_seqDecode {k : ClusterId} {w : Word} {i : Instr} (h : seqDecode k w = some i) : seqEncode i = some w := by
  have hfn : BitVec.ofNat 11 (wFn w).toNat = wFn w := by simp
  unfold seqDecode at h
  dsimp only at h
  split at h
  next ho => rw [seqEncode_aluOf h, ← ho, hfn, encG_fields]
  next =>
    split at h
    next ho => rw [seqEncode_amoOf h, ← ho, hfn, encG_fields]
    next =>
      split at h
      next ho => cases h; rw [seqEncode, ← ho, encJ_fields]
      next =>
        simp only [Option.or_eq_some_iff] at h
        rcases h with h | ⟨-, h | ⟨-, h⟩⟩
        · rw [seqEncode_immOf h, encI_fields]
        · rw [seqEncode_branchOf h, encI_fields]
        · rw [seqEncode_syncOf h, encG_fields]

/-- The word of a sequencer command decodes to it on the cluster it is for, command by command. -/
theorem seqDecode_of_seqEncode {i : Instr} {w : Word} (h : seqEncode i = some w) : ∃ k, seqDecode k w = some i := by
  unfold seqEncode at h
  split at h <;> cases h <;>
  exact ⟨‹ClusterId›, by simp [seqDecode, encB_eq_encI, fields_encG, fields_encI, fields_encJ, aluOf, amoOf, immOf, branchOf, syncOf]⟩

/-- Settles O59: the two directions, and which words decode. -/
theorem sequencerWordsRoundTrip : Obligations.SequencerWordsRoundTrip := by
  unfold Obligations.SequencerWordsRoundTrip
  refine ⟨fun k w i => seqEncode_of_seqDecode, fun i w => seqDecode_of_seqEncode,
    fun k l w => by rw [seqDecode_isSome, seqDecode_isSome], fun k w h => ?_⟩
  rw [← Option.not_isSome_iff_eq_none, seqDecode_isSome]
  simp only [List.mem_cons, List.not_mem_nil, or_false, not_or] at h
  simp [h]

/-! ## One instruction (R78, R80) -/

theorem Executed.congr {k : Nat} {s t : State} {pc : Quad} {f g : Seq → Seq} (h : Executed k s t pc f)
    (hg : g (s.seq k) = f (s.seq k)) : Executed k s t pc g := by
  obtain ⟨hseq, hctr⟩ := h
  exact ⟨by rw [hseq, hg], hctr⟩

theorem sext_eq_ofInt (i : Half) : sext i = BitVec.ofInt 64 i.toInt := rfl

theorem zext_eq_ofNat (i : Half) : zext i = BitVec.ofNat 64 i.toNat := (BitVec.ofNat_toNat 64 i).symm

/-- A signed number shifted left is the number times a power of two. -/
theorem ofInt_shiftLeft (n : Int) (m : Nat) : BitVec.ofInt 64 n <<< m = BitVec.ofInt 64 (n * 2 ^ m) := by
  have htwo : BitVec.twoPow 64 m = BitVec.ofInt 64 (2 ^ m) := by
    have hcast : (2 : Int) ^ m = ((2 ^ m : Nat) : Int) := by simp
    rw [hcast, BitVec.ofInt_natCast, ← BitVec.toNat_inj, BitVec.toNat_twoPow, BitVec.toNat_ofNat]
  rw [BitVec.shiftLeft_eq_mul_twoPow, htwo, BitVec.ofInt_mul]

theorem slt_sext (a : Quad) (i : Half) : a.slt (sext i) = decide (a.toInt < i.toInt) := by
  rw [BitVec.slt_eq_decide, sext, BitVec.toInt_signExtend_of_le (by decide)]

/-- Clearing the two low bits. -/
theorem shift_two_eq_and (x : Quad) : x >>> 2 <<< 2 = x &&& ~~~3#64 := by
  have hmask : ∀ i : Fin 64, (~~~3#64)[i.val] = decide (2 ≤ i.val) := by decide
  ext i hi
  rw [BitVec.getElem_and, hmask ⟨i, hi⟩, BitVec.getElem_shiftLeft]
  by_cases h : i < 2
  · simp [h]
  · have hback : 2 + (i - 2) = i := by omega
    simp [h, hback, BitVec.getLsbD_eq_getElem hi, Nat.le_of_not_lt h]

/-! ## The immediate operations (Table 3-7, OPC 0x02 to 0x0A) -/

theorem regStep_immOp {s : State} {k : Nat} (h : (s.seqJob k).isSome) (opc : Nat) (gd ga : BitVec 5) (imm : Half)
    (f : Quad → Half → Quad) : RegStep k s (s.immOp k opc gd ga imm f) gd (f (s.gReg k ga) imm) ((s.seq k).pc + 4) :=
  regStep_seqOp h _ gd _ _ rfl

/-- Settles O3: each operation is `immOp` with its function, behind the check of its reserved field. -/
theorem immediateResults : Obligations.ImmediateResults := by
  unfold Obligations.ImmediateResults
  intro k gd ga imm s h a n pc
  have hop : ∀ (i : Instr) (opc : Nat) (f : Quad → Half → Quad) (v : Quad), exec i s = .next (s.immOp k opc gd ga imm f) →
      f a imm = v → ∃ t, exec i s = .next t ∧ RegStep k s t gd v pc :=
    fun i opc f v hi hv => ⟨_, hi, hv ▸ regStep_immOp h opc gd ga imm f⟩
  have hlegal : ∀ (i : Instr) (c : Bool) (t : State), exec i s = .next (s.seqLegal k c t) →
      (c = true → exec i s = .next t) ∧ (c = false → exec i s = .next (s.seqFault k stIllegal)) :=
    fun i c t hi => by rw [hi, seqLegal_eq h]; exact ⟨fun hc => by rw [if_pos hc], fun hc => by rw [if_neg (by simp [hc])]⟩
  have hshl := hlegal (.shli k gd ga imm) _ _ rfl
  have hshr := hlegal (.shri k gd ga imm) _ _ rfl
  have hsra := hlegal (.srai k gd ga imm) _ _ rfl
  have hlui := hlegal (.lui k gd ga imm) _ _ rfl
  refine ⟨hop _ _ _ _ rfl rfl, hop _ _ _ _ rfl ?_, hop _ _ _ _ rfl ?_, hop _ _ _ _ rfl ?_, hop _ _ _ _ rfl ?_,
    fun hn => ?_, fun hn => ?_, fun hga => ?_, fun hga => ?_⟩
  · exact congrArg (a &&& ·) (zext_eq_ofNat imm)
  · exact congrArg (a ||| ·) (zext_eq_ofNat imm)
  · exact congrArg (a ^^^ ·) (zext_eq_ofNat imm)
  · simp [slt_sext, flag]
  · have hlow : (imm.toNat / 64 == 0) = true := by simp; omega
    exact ⟨hop _ _ _ _ (hshl.1 hlow) rfl, hop _ _ _ _ (hshr.1 hlow) rfl, hop _ _ _ _ (hsra.1 hlow) rfl⟩
  · have hhigh : (imm.toNat / 64 == 0) = false := by simp; omega
    exact ⟨hshl.2 hhigh, hshr.2 hhigh, hsra.2 hhigh⟩
  · exact hop _ _ _ _ (hlui.1 (by simp [hga])) (ofInt_shiftLeft imm.toInt 16)
  · exact hlui.2 (beq_eq_false_iff_ne.mpr hga)

/-! ## Local memory (R78, R81) -/

theorem getElem?_leBytes {n v i : Nat} (h : i < n) : (leBytes n v)[i]? = some (BitVec.ofNat 8 (v / 256 ^ i)) := by
  induction n generalizing v i with
  | zero => cases h
  | succ n ih =>
    cases i with
    | zero => simp [leBytes]
    | succ i =>
      rw [leBytes, List.getElem?_cons_succ, ih (Nat.lt_of_succ_lt_succ h), Nat.div_div_eq_div_mul, Nat.pow_succ']

/-- A stored number reads back byte by byte, the lowest address least significant (R10). -/
theorem Mem.read_writeLE_in (m : Mem) (a v : Nat) {n i : Nat} (h : i < n) :
    (m.writeLE a n v).read (a + i) = BitVec.ofNat 8 (v / 256 ^ i) := by
  have hin : a ≤ a + i ∧ a + i < a + (leBytes n v).length := by rw [leBytes_length]; omega
  rw [Mem.writeLE, Mem.read_writeBytes, if_pos hin, Nat.add_sub_cancel_left, getElem?_leBytes h, Option.getD_some]

theorem localOk_iff (a : Quad) : localOk a = true ↔ a.toNat % 8 = 0 ∧ a.toNat + 8 ≤ 131072 := by simp [localOk]

/-- Settles O4: both are legal exactly at the aligned addresses inside local memory; LD writes one register, ST eight bytes. -/
theorem localLoadStore : Obligations.LocalLoadStore := by
  unfold Obligations.LocalLoadStore
  intro k gd ga imm s h a pc
  have hok : localOk (s.gReg k ga + sext imm) = true ↔ a % 8 = 0 ∧ a + 8 ≤ 131072 := localOk_iff _
  have hld : exec (.ld k gd ga imm) s = .next (s.seqLegal k (localOk (s.gReg k ga + sext imm)) (s.seqOp k (encI 0x10 gd ga imm)
    (fun q => q.setReg gd (BitVec.ofNat 64 (q.loc.readLE a 8))))) := rfl
  have hst : exec (.st k gd ga imm) s = .next (s.seqLegal k (localOk (s.gReg k ga + sext imm)) (s.seqOp k (encI 0x11 gd ga imm)
    (fun q => { q with loc := q.loc.writeLE a 8 (q.reg gd).toNat }))) := rfl
  rw [hld, hst, seqLegal_eq h, seqLegal_eq h]
  refine ⟨fun hin => ?_, fun hout => ?_⟩
  · rw [if_pos (hok.mpr hin), if_pos (hok.mpr hin)]
    refine ⟨⟨_, rfl, regStep_seqOp h _ gd _ _ rfl⟩, _, rfl, ?_⟩
    rw [seqOp_eq h]
    obtain ⟨honly, hexec⟩ := seqAdvance_spec s k (encI 0x11 gd ga imm) 0 0 [] ((s.seq k).pc + 4)
      (fun q => { q with loc := q.loc.writeLE a 8 (q.reg gd).toNat })
    have hloc := congrArg Seq.loc hexec.1
    refine ⟨honly, hexec.congr (by rw [hloc]), fun i hi => ?_, fun x hx => ?_⟩ <;> rw [hloc]
    · exact Mem.read_writeLE_in _ _ _ hi
    · exact Mem.read_writeLE_out _ _ _ _ _ hx
  · rw [if_neg (mt hok.mp hout), if_neg (mt hok.mp hout)]
    exact ⟨rfl, rfl⟩

/-! ## Branches and jumps (Table 3-7, OPC 0x18 to 0x1F) -/

theorem branchTo_eq (pc : Quad) (off : Half) : branchTo pc off = pc + BitVec.ofInt 64 (4 * off.toInt) := by
  rw [branchTo, sext_eq_ofInt, ofInt_shiftLeft, mul_comm]; rfl

theorem isNone_seqJob {s : State} {k : Nat} (h : (s.seqJob k).isSome) : (s.seqJob k).isNone = false := by
  rw [← Option.not_isSome, h]; rfl

/-- A branch writes no register. -/
theorem regStep_branchOp {s : State} {k : Nat} (h : (s.seqJob k).isSome) (opc : Nat) (ga gb : BitVec 5) (off : Half)
    (f : Quad → Quad → Bool) : RegStep k s (s.branchOp k opc ga gb off f) 0 0
      (if f (s.gReg k ga) (s.gReg k gb) then (s.seq k).pc + BitVec.ofInt 64 (4 * off.toInt) else (s.seq k).pc + 4) := by
  simp only [State.branchOp, isNone_seqJob h, Bool.false_eq_true, if_false, branchTo_eq]
  exact regStep_seqAdvance s k _ _ 0 0 _ rfl

/-- Settles O5: each branch is `branchOp` with its condition; each jump links and goes to its target. -/
theorem branchesAndJumps : Obligations.BranchesAndJumps := by
  unfold Obligations.BranchesAndJumps
  intro k gd ga gb off far s h a b pc goes
  have hop : ∀ (i : Instr) (opc : Nat) (f : Quad → Quad → Bool) (c : Bool), exec i s = .next (s.branchOp k opc ga gb off f) →
      f a b = c → ∃ t, exec i s = .next t ∧ RegStep k s t 0 0 (goes c) :=
    fun i opc f c hi hc => ⟨_, hi, hc ▸ regStep_branchOp h opc ga gb off f⟩
  refine ⟨hop _ _ _ _ rfl ?_, hop _ _ _ _ rfl ?_, hop _ _ _ _ rfl ?_, hop _ _ _ _ rfl ?_, hop _ _ _ _ rfl ?_, hop _ _ _ _ rfl ?_,
    ⟨_, rfl, ?_⟩, ⟨_, rfl, ?_⟩⟩
  · exact beq_eq_decide a b
  · simp [bne, beq_eq_decide]
  · exact BitVec.slt_eq_decide
  · rw [BitVec.slt_eq_decide, ← decide_not]; simp only [not_lt]
  · exact BitVec.ult_eq_decide
  · rw [BitVec.ult_eq_decide, ← decide_not]; simp only [not_lt]
  · have hfar : far.signExtend 64 <<< 2 = BitVec.ofInt 64 (4 * far.toInt) := by
      rw [BitVec.signExtend, ofInt_shiftLeft, mul_comm]; rfl
    simp only [isNone_seqJob h, Bool.false_eq_true, if_false, ← hfar]
    exact regStep_seqAdvance s k _ _ gd _ _ rfl
  · simp only [isNone_seqJob h, Bool.false_eq_true, if_false, ← shift_two_eq_and]
    exact regStep_seqAdvance s k _ _ gd _ _ rfl

end Sys2Proof.Machine

/-! PROOFS. What a sequencer does with the rest of its cluster (R81–R83, R236, R505): narrow accesses, ISSUE, TFENCE and HALT. -/

namespace Sys2Proof.Machine

/-! ## Steps of one sequencer -/

theorem OnlySequencer.mono {k : Nat} {l l' : List Nat} {s t : State} (h : OnlySequencer k l s t) (hl : l ⊆ l') :
    OnlySequencer k l' s t := by
  obtain ⟨hrest, hcores, hother, hk, hctr⟩ := h
  exact ⟨hrest, hcores, hother, hk, fun i hi => hctr i fun hm => hi (by simp only [List.mem_cons] at hm ⊢; tauto)⟩

theorem OnlySequencer.trans {k : Nat} {l : List Nat} {s t u : State} (h : OnlySequencer k l s t) (h' : OnlySequencer k l t u) :
    OnlySequencer k l s u := by
  obtain ⟨hrest, hcores, hother, hk, hctr⟩ := h
  obtain ⟨hrest', hcores', hother', hk', hctr'⟩ := h'
  refine ⟨hrest.trans hrest', hcores'.trans hcores, fun j hj => (hother' j hj).trans (hother j hj), ?_,
    fun i hi => (hctr' i hi).trans (hctr i hi)⟩
  rw [hk']; generalize u.cluster k = w; generalize u.seq k = q; rw [hk]

/-- A change of the samples and counters of a cluster is a step of its sequencer. -/
theorem OnlySamples.onlySequencer {k : Nat} {l : List Nat} {s t : State} (h : OnlySamples k (31 :: 32 :: l) s t) :
    OnlySequencer k l s t := by
  have hseq := h.seq
  obtain ⟨hrest, hcores, hother, hk, hctr⟩ := h
  refine ⟨hrest, hcores, hother, ?_, hctr⟩
  rw [hseq]; exact hk

theorem OnlySamples.comp {k : Nat} {l l' m : List Nat} {s t u : State} (h : OnlySamples k l s t) (h' : OnlySamples k l' t u)
    (hl : l ⊆ m) (hl' : l' ⊆ m) : OnlySamples k m s u := (h.mono hl).trans (h'.mono hl') (List.Subset.refl m)

theorem onlySequencer_setSeq (s : State) (k : Nat) (q : Seq) : OnlySequencer k [] s (s.setSeq k q) :=
  (OnlySamples.refl k [31, 32] s).setSeq q

theorem onlySequencer_bump (s : State) (k i n : Nat) : OnlySequencer k [i] s (s.bumpCluster k i n) :=
  ((onlySamples_bump s k i n).mono (by simp)).onlySequencer

theorem clusterCtr_modCluster_ctr (s : State) (k i j : Nat) (g : Quad → Quad) (h : j ≠ i) :
    (s.modCluster k (fun x => { x with ctr := mmod 0 x.ctr i g })).clusterCtr k j = s.clusterCtr k j := by
  simp only [State.clusterCtr, cluster_modCluster_self, mget_mmod, if_neg h]

theorem onlySamples_bumpClusterFree (s : State) (k i : Nat) : OnlySamples k [i] s (s.bumpClusterFree k i) := by
  refine ⟨SameRest.refl s, rfl, fun j hj => cluster_modCluster_ne s.draw.2 _ hj, ?_, fun j hj => ?_⟩
  · simp only [State.bumpClusterFree, draw_snd, cluster_modCluster_self]; rfl
  · exact clusterCtr_modCluster_ctr s.draw.2 k i j _ (by simpa using hj)

/-- What resuming does (R489): the sequencer's change, its stall over, one count of cycles. -/
theorem seqResume_spec (s : State) (k : Nat) (f : Seq → Seq) :
    OnlySequencer k [2] s (s.seqResume k f) ∧ (s.seqResume k f).seq k = { f (s.seq k) with stall := .none } := by
  have hbump := onlySamples_bumpClusterFree (s.setSeq k { f (s.seq k) with stall := .none }) k 2
  have hdone := sampleDone_only ((s.setSeq k { f (s.seq k) with stall := .none }).bumpClusterFree k 2) k waitMark
  refine ⟨((onlySequencer_setSeq s k _).mono (by simp)).trans
    (hbump.comp (m := [31, 32, 2]) hdone (by simp) (by simp)).onlySequencer, ?_⟩
  rw [State.seqResume, hdone.seq, hbump.seq, seq_setSeq_self]

/-- An instruction that counts one of its kind. -/
theorem seqAdvance_counted (s : State) (k i : Nat) (word : Word) (cores : BitVec 16) (desc : Quad) (left : List (Nat × Nat)) (pc : Quad)
    (f : Seq → Seq) (hi : i ∉ [1, 31, 32]) :
    let t := (s.bumpCluster k i 1).seqAdvance k word cores desc left pc f
    OnlySequencer k [1, i] s t ∧ t.clusterCtr k i = s.clusterCtr k i + 1 ∧ Executed k s t pc f := by
  intro t
  obtain ⟨honly, hseq, hctr⟩ := seqAdvance_spec (s.bumpCluster k i 1) k word cores desc left pc f
  simp only [List.mem_cons, List.not_mem_nil, or_false, not_or] at hi
  refine ⟨((onlySequencer_bump s k i 1).mono (by simp)).trans (honly.mono (by simp)), ?_, ?_, ?_⟩
  · rw [honly.2.2.2.2 i (by simp; tauto), clusterCtr_bumpCluster, if_pos ⟨rfl, rfl⟩]; rfl
  · rw [hseq, seq_bumpCluster]
  · rw [hctr, clusterCtr_bumpCluster, if_neg (fun h => hi.1 h.2.symm)]

/-! ## Where a narrow access goes (R81, R147, R163, R166) -/

section
variable {s : State} {k : Nat} {j : Job} (hj : s.seqJob k = some j)
include hj

theorem narrowLook_misaligned {a align : Nat} (atomic : Bool) (h : a % align ≠ 0) : s.narrowLook k a align atomic = .illegal := by
  simp only [State.narrowLook, hj, if_pos h]

theorem narrowLook_nowhere {a align : Nat} (atomic : Bool) (h : a % align = 0) (ht : s.narrowTarget j k a = none) :
    s.narrowLook k a align atomic = .bus := by
  simp only [State.narrowLook, hj, h, ht, ne_eq, not_true_eq_false, if_false]

theorem narrowLook_shared {a align c off : Nat} (atomic : Bool) (h : a % align = 0) (ht : s.narrowTarget j k a = some (.shared c off)) :
    s.narrowLook k a align atomic = .ok (.shared c off) := by
  simp only [State.narrowLook, hj, h, ht, ne_eq, not_true_eq_false, if_false]

theorem narrowLook_plain {a align : Nat} (h : a % align = 0) {t : NarrowTarget} (ht : s.narrowTarget j k a = some t) :
    s.narrowLook k a align false = .ok t := by
  cases t <;> simp [State.narrowLook, hj, h, ht]

/-- An atomic reaches the shared cache alone. -/
theorem narrowLook_atomic_elsewhere {a align : Nat} (h : a % align = 0) (ht : ∀ c off, s.narrowTarget j k a ≠ some (.shared c off)) :
    s.narrowLook k a align true = .bus := by
  cases hn : s.narrowTarget j k a with
  | none => exact narrowLook_nowhere hj true h hn
  | some t => cases t <;> simp_all [State.narrowLook]

end

/-- Beginning a narrow access that goes somewhere stalls the sequencer behind it. -/
theorem narrowBegin_of_ok {s : State} {k : Nat} {word : Word} {a align : Nat} {kind : NarrowKind} {atomic : Bool} {t : NarrowTarget}
    (h : s.narrowLook k a align atomic = .ok t) :
    s.narrowBegin k word a align kind atomic = (s.bumpCluster k 9 1).seqAdvance k word 0 0 [waitMark] ((s.seq k).pc + 4)
      (fun q => { q with outst := q.outst ++ [⟨a, kind⟩], stall := .narrow }) := by
  simp only [State.narrowBegin, h]

theorem narrowBegin_of_illegal {s : State} {k : Nat} {word : Word} {a align : Nat} {kind : NarrowKind} {atomic : Bool}
    (h : s.narrowLook k a align atomic = .illegal) : s.narrowBegin k word a align kind atomic = s.seqFault k stIllegal := by
  simp only [State.narrowBegin, h]

theorem narrowBegin_of_bus {s : State} {k : Nat} {word : Word} {a align : Nat} {kind : NarrowKind} {atomic : Bool}
    (h : s.narrowLook k a align atomic = .bus) : s.narrowBegin k word a align kind atomic = s.seqFault k stBusError := by
  simp only [State.narrowBegin, h]

/-- What STX does where its address goes somewhere: illegal as a ninth unread request at the room port (R236), else issued. -/
def State.stxIssue (s : State) (k : Nat) (word : Word) (n : Narrow) : State :=
  if s.portFull k n.addr then s.seqFault k stIllegal
  else (s.bumpCluster k 9 1).seqNext k word (fun q =>
    if q.outst.length < 16 then { q with outst := q.outst ++ [n] } else { q with stall := .stxLimit n })

theorem stxIssue_of_full {s : State} {k : Nat} {word : Word} {n : Narrow} (h : s.portFull k n.addr = true) :
    s.stxIssue k word n = s.seqFault k stIllegal := if_pos h

theorem stxIssue_of_room {s : State} {k : Nat} {word : Word} {n : Narrow} (h : ¬ s.portFull k n.addr = true) :
    s.stxIssue k word n = (s.bumpCluster k 9 1).seqAdvance k word 0 0 [] ((s.seq k).pc + 4) (fun q =>
      if q.outst.length < 16 then { q with outst := q.outst ++ [n] } else { q with stall := .stxLimit n }) := by
  rw [State.stxIssue, if_neg h, State.seqNext, seq_bumpCluster]

section
variable {k : ClusterId} {gd ga : BitVec 5} {imm : Half} {s : State}

theorem exec_stx_of_ok {t : NarrowTarget} (h : s.narrowLook k (s.gReg k ga + sext imm).toNat 8 false = .ok t) :
    exec (.stx k gd ga imm) s =
      .next (s.stxIssue k (encI 0x13 gd ga imm) ⟨(s.gReg k ga + sext imm).toNat, .stx (s.gReg k gd)⟩) := by
  show execStx k gd ga imm s = _
  simp only [execStx, h, State.stxIssue]

theorem exec_stx_of_illegal (h : s.narrowLook k (s.gReg k ga + sext imm).toNat 8 false = .illegal) :
    exec (.stx k gd ga imm) s = .next (s.seqFault k stIllegal) := by
  show execStx k gd ga imm s = _
  simp only [execStx, h]

theorem exec_stx_of_bus (h : s.narrowLook k (s.gReg k ga + sext imm).toNat 8 false = .bus) :
    exec (.stx k gd ga imm) s = .next (s.seqFault k stBusError) := by
  show execStx k gd ga imm s = _
  simp only [execStx, h]

end

theorem portFull_eq {s : State} {k : Nat} {j : Job} (hj : s.seqJob k = some j) (a : Nat) :
    s.portFull k a = true ↔ s.narrowTarget j k a = some .roomPort ∧ 8 ≤ s.roomUnread j k := by
  simp [State.portFull, hj]

/-- The atomics of a cluster: each begins its access, an atomic one of four bytes. -/
theorem exec_amo (k : ClusterId) (gd ga gb : BitVec 5) (s : State) : ∀ i ∈ [Instr.amoAdd k gd ga gb, .amoSwap k gd ga gb,
    .amoMin k gd ga gb, .amoMax k gd ga gb], ∃ word kind, exec i s = .next (s.narrowBegin k word (s.gReg k ga).toNat 4 kind true) := by
  intro i hi
  simp only [List.mem_cons, List.not_mem_nil, or_false] at hi
  rcases hi with rfl | rfl | rfl | rfl <;> exact ⟨_, _, rfl⟩

/-- Settles O6: where the address goes decides, and what begins is one counted instruction. -/
theorem narrowAccessBegins : Obligations.NarrowAccessBegins := by
  unfold Obligations.NarrowAccessBegins
  intro k gd ga gb imm s j hj x a arg cmp pc begins
  have hbegins : ∀ (i : Instr) (word : Word) (addr align : Nat) (kind : NarrowKind) (atomic : Bool) (t : NarrowTarget),
      exec i s = .next (s.narrowBegin k word addr align kind atomic) → s.narrowLook k addr align atomic = .ok t →
      begins i ⟨addr, kind⟩ := by
    intro i word addr align kind atomic t hi hlook
    rw [narrowBegin_of_ok hlook] at hi
    obtain ⟨honly, hctr, hexec⟩ := seqAdvance_counted s k 9 word 0 0 [waitMark] pc
      (fun q => { q with outst := q.outst ++ [⟨addr, kind⟩], stall := .narrow }) (by decide)
    exact ⟨_, hi, honly, hctr, hexec⟩
  have hldx : exec (.ldx k gd ga imm) s = .next (s.narrowBegin k (encI 0x12 gd ga imm) x 8 (.ldx gd) false) := rfl
  refine ⟨fun hx ht => ?_, fun c off ha ht => ?_, fun hx ht hfull => ?_, fun hx ht hfull => ?_, fun hx => ?_, fun hx ht => ?_,
    fun i hi => ⟨fun ha => ?_, fun ha ht => ?_⟩⟩
  · obtain ⟨t, ht⟩ := Option.isSome_iff_exists.mp ht
    exact hbegins _ _ _ _ _ _ _ hldx (narrowLook_plain hj hx ht)
  · have hlook := narrowLook_shared hj true ha ht
    exact ⟨hbegins _ _ _ _ _ _ _ rfl hlook, hbegins _ _ _ _ _ _ _ rfl hlook, hbegins _ _ _ _ _ _ _ rfl hlook,
      hbegins _ _ _ _ _ _ _ rfl hlook⟩
  · obtain ⟨t, ht⟩ := Option.isSome_iff_exists.mp ht
    have hstx := exec_stx_of_ok (gd := gd) (narrowLook_plain hj hx ht)
    have hissue := stxIssue_of_room (word := encI 0x13 gd ga imm) (n := ⟨x, .stx (s.gReg k gd)⟩) (mt (portFull_eq hj x).mp hfull)
    obtain ⟨honly, hctr, hexec⟩ := seqAdvance_counted s k 9 (encI 0x13 gd ga imm) 0 0 [] pc
      (fun q => if q.outst.length < 16 then { q with outst := q.outst ++ [⟨x, .stx (s.gReg k gd)⟩] }
        else { q with stall := .stxLimit ⟨x, .stx (s.gReg k gd)⟩ }) (by decide)
    exact ⟨_, hstx.trans (congrArg _ hissue), honly, hctr, hexec⟩
  · exact (exec_stx_of_ok (narrowLook_plain hj hx ht)).trans (congrArg _ (stxIssue_of_full ((portFull_eq hj x).mpr ⟨ht, hfull⟩)))
  · have hlook := narrowLook_misaligned hj false hx
    exact ⟨by rw [hldx, narrowBegin_of_illegal hlook], exec_stx_of_illegal hlook⟩
  · have hlook := narrowLook_nowhere hj false hx ht
    exact ⟨by rw [hldx, narrowBegin_of_bus hlook], exec_stx_of_bus hlook⟩
  · obtain ⟨word, kind, hexec⟩ := exec_amo k gd ga gb s i hi
    rw [hexec, narrowBegin_of_illegal (narrowLook_misaligned hj true ha)]
  · obtain ⟨word, kind, hexec⟩ := exec_amo k gd ga gb s i hi
    rw [hexec, narrowBegin_of_bus (narrowLook_atomic_elsewhere hj ha ht)]

end Sys2Proof.Machine

/-! PROOFS. Narrow accesses as they return and as they are accepted (R86, R166, R236, R505). -/

namespace Sys2Proof.Machine

/-! ## Counts and the shared cache beside a sequencer -/

/-- Nothing but the clusters differs, and cluster k's sequencer is as before. -/
def KeepsSeq (k : Nat) (s t : State) : Prop := SameRest s t ∧ t.cores = s.cores ∧ t.seq k = s.seq k

theorem KeepsSeq.trans {k : Nat} {s t u : State} (h : KeepsSeq k s t) (h' : KeepsSeq k t u) : KeepsSeq k s u :=
  ⟨h.1.trans h'.1, h'.2.1.trans h.2.1, h'.2.2.trans h.2.2⟩

theorem keepsSeq_modCluster (s : State) (k c : Nat) (f : Cluster → Cluster) (hf : ∀ x, (f x).seq = x.seq) :
    KeepsSeq k s (s.modCluster c f) := by
  refine ⟨SameRest.modCluster s c f, rfl, ?_⟩
  simp only [State.seq, cluster_modCluster]
  split
  next h => rw [hf, h]
  next => rfl

theorem keepsSeq_bump (s : State) (k c i n : Nat) : KeepsSeq k s (s.bumpCluster c i n) := keepsSeq_modCluster s k c _ fun _ => rfl

theorem keepsSeq_scWrite (s : State) (k c off n v : Nat) : KeepsSeq k s (s.scWrite c off n v) := keepsSeq_modCluster s k c _ fun _ => rfl

/-- What crosses the dies is counted on one counter, of its own cluster (log 204). -/
theorem countRemote_only (s : State) (k n : Nat) (t : NarrowTarget) : OnlySamples k [12] s (s.countRemote k n t) := by
  cases t with
  | stack a => exact onlySamples_bump s k 12 _
  | shared c off => exact onlySamples_bump s k 12 _
  | roomPort => exact OnlySamples.refl k [12] s

theorem OnlySamples.keepsSeq {k : Nat} {l : List Nat} {s t : State} (h : OnlySamples k l s t) : KeepsSeq k s t := ⟨h.1, h.2.1, h.seq⟩

theorem scache_bumpCluster (s : State) (k i n x : Nat) : ((s.bumpCluster k i n).cluster x).scache = (s.cluster x).scache := by
  rw [cluster_bumpCluster]; split
  next h => rw [h]
  next => rfl

theorem scache_scWrite (s : State) (k off n v x : Nat) : ((s.scWrite k off n v).cluster x).scache =
    if x = k then (s.cluster k).scache.writeLE off n v else (s.cluster x).scache := by
  rw [State.scWrite, cluster_modCluster]; split <;> rfl

theorem OnlySamples.scache {k : Nat} {l : List Nat} {s t : State} (h : OnlySamples k l s t) (x : Nat) :
    (t.cluster x).scache = (s.cluster x).scache := by
  obtain ⟨-, -, hother, hk, -⟩ := h
  by_cases hx : x = k
  · rw [hx, hk]
  · rw [hother x hx]

theorem OnlySequencer.scache {k : Nat} {l : List Nat} {s t : State} (h : OnlySequencer k l s t) (x : Nat) :
    (t.cluster x).scache = (s.cluster x).scache := by
  obtain ⟨-, -, hother, hk, -⟩ := h
  by_cases hx : x = k
  · rw [hx, hk]
  · rw [hother x hx]

theorem OnlySequencer.roomQ {k : Nat} {l : List Nat} {s t : State} (h : OnlySequencer k l s t) :
    (t.cluster k).roomQ = (s.cluster k).roomQ := by
  rw [h.2.2.2.1]

/-- A resumed sequencer after a step that kept it. -/
theorem KeepsSeq.resume {k : Nat} {s u : State} (h : KeepsSeq k s u) (f : Seq → Seq) :
    SameRest s (u.seqResume k f) ∧ (u.seqResume k f).cores = s.cores ∧
    (u.seqResume k f).seq k = { f (s.seq k) with stall := .none } := by
  obtain ⟨hrest, hcores, hseq⟩ := h
  obtain ⟨⟨hrest', hcores', -⟩, hseq'⟩ := seqResume_spec u k f
  exact ⟨hrest.trans hrest', hcores'.trans hcores, by rw [hseq', hseq]⟩

/-! ## NARROW_ACCESS_RETURN -/

theorem setReg_outst (q : Seq) (gd : BitVec 5) (v : Quad) (l : List Narrow) :
    { q with outst := l }.setReg gd v = { q.setReg gd v with outst := l } := by
  unfold Seq.setReg; split <;> rfl

/-- The oldest access taken off the queue, its value in gD. -/
theorem returned_seq {q : Seq} {n : Narrow} {rest : List Narrow} (h : q.outst = n :: rest) (gd : BitVec 5) (v : Quad) :
    { ({ q with outst := q.outst.drop 1 }.setReg gd v) with stall := .none } =
      { q.setReg gd v with outst := rest, stall := .none } := by
  rw [setReg_outst, h]; rfl

/-- An atomic on the word at `off` of cluster c's shared cache ends: the new value stands there, the old one goes to gD. -/
def State.amoReturned (s : State) (k c off : Nat) (gd : BitVec 5) (old new : Word) : State :=
  (((s.scWrite c off 4 new.toNat).countAtomic c).countRemote k 4 (.shared c off)).seqResume k
    (fun q => q.writeDone.setReg gd (old.signExtend 64))

section
variable {k : ClusterId} {s : State} {j : Job} {n : Narrow} {rest : List Narrow} (hj : s.narrowJob k = some j)
  (hout : (s.seq k).outst = n :: rest)
include hj hout

theorem narrowReturn_stack {gd : BitVec 5} {a : Nat} {bs : List Byte} (hk : n.kind = .ldx gd)
    (ht : s.narrowTarget j k n.addr = some (.stack a)) (hr : s.memRead a 8 = .ok bs) :
    s.narrowReturn k = ((s.readDone a 8).countRemote k 8 (.stack a)).seqResume k
      (fun q => { q with outst := q.outst.drop 1 }.setReg gd (BitVec.ofNat 64 (leNat bs))) := by
  simp only [State.narrowReturn, hj, hout, hk, ht, hr]

theorem narrowReturn_stack_fails {gd : BitVec 5} {a : Nat} {e : AccErr} (hk : n.kind = .ldx gd)
    (ht : s.narrowTarget j k n.addr = some (.stack a)) (hr : s.memRead a 8 = .error e) : s.narrowReturn k = s.seqAccFault k e := by
  simp only [State.narrowReturn, hj, hout, hk, ht, hr]

theorem narrowReturn_shared {gd : BitVec 5} {c off : Nat} (hk : n.kind = .ldx gd)
    (ht : s.narrowTarget j k n.addr = some (.shared c off)) :
    s.narrowReturn k = ((s.bumpCluster c 5 1).countRemote k 8 (.shared c off)).seqResume k
      (fun q => { q with outst := q.outst.drop 1 }.setReg gd (BitVec.ofNat 64 (s.scRead c off 8))) := by
  simp only [State.narrowReturn, hj, hout, hk, ht]

theorem narrowReturn_port_empty {gd : BitVec 5} (hk : n.kind = .ldx gd) (ht : s.narrowTarget j k n.addr = some .roomPort)
    (hq : (s.cluster k).roomQ = []) :
    s.narrowReturn k = s.seqResume k (fun q => { q with outst := q.outst.drop 1 }.setReg gd (BitVec.ofNat 64 (4 * 2 ^ 60))) := by
  simp only [State.narrowReturn, hj, hout, hk, ht, hq]

theorem narrowReturn_port_made {gd : BitVec 5} {y r : Quad} {unread : List RoomReq} (hk : n.kind = .ldx gd)
    (ht : s.narrowTarget j k n.addr = some .roomPort) (hq : (s.cluster k).roomQ = ⟨y, some r⟩ :: unread) :
    s.narrowReturn k = (s.modCluster k (fun c => { c with roomQ := unread })).seqResume k
      (fun q => { q with outst := q.outst.drop 1 }.setReg gd r) := by
  simp only [State.narrowReturn, hj, hout, hk, ht, hq]

theorem narrowReturn_port_unmade {gd : BitVec 5} {y : Quad} {unread : List RoomReq} (hk : n.kind = .ldx gd)
    (ht : s.narrowTarget j k n.addr = some .roomPort) (hq : (s.cluster k).roomQ = ⟨y, none⟩ :: unread) : s.narrowReturn k = s := by
  simp only [State.narrowReturn, hj, hout, hk, ht, hq]

theorem narrowReturn_amo {fn : BitVec 11} {gd : BitVec 5} {arg cmp : Word} {c off : Nat} (hk : n.kind = .amo fn gd arg cmp)
    (ht : s.narrowTarget j k n.addr = some (.shared c off)) {old : Word}
    (hold : BitVec.ofNat 32 (leNat ((s.cluster c).scache.readBytes off 4)) = old) :
    s.narrowReturn k = s.amoReturned k c off gd old (amoValue fn old arg cmp) := by
  have hread : BitVec.ofNat 32 (s.scRead c off 4) = old := hold
  simp only [State.narrowReturn, hj, hout, hk, ht, State.amoReturned, hread]

end

/-- The word replaced, and of the sequencer the oldest access gone and the old value in gD. -/
theorem amoReturned_spec (s : State) (k c off : Nat) (gd : BitVec 5) (old new : Word) :
    let t := s.amoReturned k c off gd old new
    SameRest s t ∧ t.cores = s.cores ∧ t.seq k = { (s.seq k).writeDone.setReg gd (old.signExtend 64) with stall := .none } ∧
    ∀ x, (t.cluster x).scache = if x = c then (s.cluster c).scache.writeLE off 4 new.toNat else (s.cluster x).scache := by
  intro t
  have hcount := countRemote_only ((s.scWrite c off 4 new.toNat).countAtomic c) k 4 (.shared c off)
  have hkept := ((keepsSeq_scWrite s k c off 4 new.toNat).trans (keepsSeq_bump _ k c 7 1)).trans hcount.keepsSeq
  obtain ⟨hrest, hcores, hseq⟩ := hkept.resume (fun q => q.writeDone.setReg gd (old.signExtend 64))
  refine ⟨hrest, hcores, hseq, fun x => ?_⟩
  show ((State.seqResume _ k _).cluster x).scache = _
  rw [(seqResume_spec _ _ _).1.scache, hcount.scache, State.countAtomic, scache_bumpCluster, scache_scWrite]

theorem setReg_outst_eq (q : Seq) (gd : BitVec 5) (v : Quad) : (q.setReg gd v).outst = q.outst := by
  unfold Seq.setReg; split <;> rfl

/-- The same, as what is read afterwards. -/
theorem amoReturned_reads (s : State) (k c off : Nat) (gd : BitVec 5) (old new : Word) :
    let t := s.amoReturned k c off gd old new
    leNat ((t.cluster c).scache.readBytes off 4) = new.toNat ∧
    (∀ x, x < off ∨ off + 4 ≤ x → (t.cluster c).scache.read x = (s.cluster c).scache.read x) ∧
    (∀ d, d ≠ c → (t.cluster d).scache = (s.cluster d).scache) ∧
    (∀ r, t.gReg k r = if r = gd ∧ r ≠ 0 then BitVec.ofInt 64 old.toInt else s.gReg k r) ∧
    (t.seq k).outst = (s.seq k).outst.drop 1 ∧ (t.seq k).stall = .none := by
  intro t
  obtain ⟨-, -, hseq, hcache⟩ := amoReturned_spec s k c off gd old new
  have hc : (t.cluster c).scache = (s.cluster c).scache.writeLE off 4 new.toNat := (hcache c).trans (if_pos rfl)
  have hq : t.seq k = { (s.seq k).writeDone.setReg gd (old.signExtend 64) with stall := .none } := hseq
  refine ⟨?_, fun x hx => ?_, fun d hd => (hcache d).trans (if_neg hd), fun r => ?_, ?_, ?_⟩
  · rw [hc]; exact (Mem.readLE_writeLE _ _ _ _).trans (Nat.mod_eq_of_lt new.isLt)
  · rw [hc]; exact Mem.read_writeLE_out _ _ _ _ _ hx
  · rw [State.gReg, hq]; exact reg_setReg (s.seq k).writeDone r gd _
  · rw [hq]; exact setReg_outst_eq _ _ _
  · rw [hq]

/-- The signed choices of Table 6-6. -/
theorem amoValue_min (old arg cmp : Word) : amoValue 2 old arg cmp = BitVec.ofInt 32 (min old.toInt arg.toInt) := by
  show (if old.slt arg then old else arg) = _
  rw [BitVec.slt_eq_decide]
  split
  next h => rw [min_eq_left (le_of_lt (by simpa using h)), BitVec.ofInt_toInt]
  next h => rw [min_eq_right (by simpa using h), BitVec.ofInt_toInt]

theorem amoValue_max (old arg cmp : Word) : amoValue 3 old arg cmp = BitVec.ofInt 32 (max old.toInt arg.toInt) := by
  show (if old.slt arg then arg else old) = _
  rw [BitVec.slt_eq_decide]
  split
  next h => rw [max_eq_right (le_of_lt (by simpa using h)), BitVec.ofInt_toInt]
  next h => rw [max_eq_left (by simpa using h), BitVec.ofInt_toInt]

/-- Settles O7: each access ends by its target with the sequencer resumed, and the shared cache changes for an atomic alone. -/
theorem narrowAccessReturns : Obligations.NarrowAccessReturns := by
  unfold Obligations.NarrowAccessReturns
  intro k s j n rest hj hout
  have hexec : ∀ t, s.narrowReturn k = t → exec (.narrowReturn k) s = .next t := fun t ht => congrArg _ ht
  refine ⟨fun gd a bs hk ht hr => ?_, fun gd a e hk ht hr => ?_, fun gd c off hk ht => ?_, fun gd hk ht => ⟨fun hq => ?_,
    fun y r unread hq => ?_, fun y unread hq => ?_⟩, fun fn gd arg cmp c off hk ht => ?_⟩
  · obtain ⟨⟨hcl, hcores, -⟩, hmem, hpoison⟩ := readDone_keeps s a 8
    have hcount := countRemote_only (s.readDone a 8) k 8 (.stack a)
    obtain ⟨honly, hseq⟩ := seqResume_spec ((s.readDone a 8).countRemote k 8 (.stack a)) k
      (fun q => { q with outst := q.outst.drop 1 }.setReg gd (BitVec.ofNat 64 (leNat bs)))
    have hstep := (hcount.mono (l' := [31, 32, 2, 12]) (by simp)).onlySequencer.trans (honly.mono (by simp))
    have hkept : (s.readDone a 8).seq k = s.seq k := by rw [State.seq, State.cluster, hcl]; rfl
    refine ⟨_, hexec _ (narrowReturn_stack hj hout hk ht hr), hstep, ?_, ?_, hstep.2.1.trans hcores, ?_⟩
    · rw [hstep.1.1, hmem]
    · rw [hstep.1.1, hpoison]
    · rw [hseq, hcount.seq, hkept]; exact returned_seq hout gd _
  · exact hexec _ (narrowReturn_stack_fails hj hout hk ht hr)
  · have hcount := countRemote_only (s.bumpCluster c 5 1) k 8 (.shared c off)
    obtain ⟨hrest, hcores, hseq⟩ := ((keepsSeq_bump s k c 5 1).trans hcount.keepsSeq).resume
      (fun q => { q with outst := q.outst.drop 1 }.setReg gd (BitVec.ofNat 64 (s.scRead c off 8)))
    refine ⟨_, hexec _ (narrowReturn_shared hj hout hk ht), hrest, hcores, fun x => ?_, hseq.trans (returned_seq hout gd _)⟩
    rw [(seqResume_spec _ _ _).1.scache, hcount.scache, scache_bumpCluster]
  · obtain ⟨honly, hseq⟩ := seqResume_spec s k (fun q => { q with outst := q.outst.drop 1 }.setReg gd (BitVec.ofNat 64 (4 * 2 ^ 60)))
    exact ⟨_, hexec _ (narrowReturn_port_empty hj hout hk ht hq), honly, hseq.trans (returned_seq hout gd _)⟩
  · obtain ⟨hrest, hcores, hseq⟩ := (keepsSeq_modCluster s k k (fun c => { c with roomQ := unread }) fun _ => rfl).resume
      (fun q => { q with outst := q.outst.drop 1 }.setReg gd r)
    obtain ⟨honly, -⟩ := seqResume_spec (s.modCluster k (fun c => { c with roomQ := unread })) k
      (fun q => { q with outst := q.outst.drop 1 }.setReg gd r)
    refine ⟨_, hexec _ (narrowReturn_port_made hj hout hk ht hq), hrest, hcores, ?_, fun x hx => ?_, hseq.trans (returned_seq hout gd _)⟩
    · rw [honly.roomQ, cluster_modCluster_self]
    · rw [honly.2.2.1 x hx, cluster_modCluster_ne s _ hx]
  · exact hexec _ (narrowReturn_port_unmade hj hout hk ht hq)
  · intro old
    obtain ⟨hrest, hcores, -⟩ := amoReturned_spec s k c off gd old (amoValue fn old arg cmp)
    obtain ⟨hword, hbytes, hcaches, hregs, houts, hstall⟩ := amoReturned_reads s k c off gd old (amoValue fn old arg cmp)
    refine ⟨s.amoReturned k c off gd old (amoValue fn old arg cmp), amoValue fn old arg cmp,
      hexec _ (narrowReturn_amo hj hout hk ht rfl), hrest, hcores, ?_, ?_, ?_, ?_, hword, hbytes, hcaches, hregs, ?_, hstall⟩
    · rintro rfl; rfl
    · rintro rfl; rfl
    · rintro rfl; exact amoValue_min old arg cmp
    · rintro rfl; exact amoValue_max old arg cmp
    · rw [houts, hout]; rfl

/-! ## NARROW_WRITE_ACCEPTED -/

/-- What an accepted write leaves of its sequencer: the access off the queue, and a stall at the limit of 16 over (R505). -/
def State.writeTaken (s : State) (k : Nat) : State :=
  let t := s.setSeq k (s.seq k).writeDone
  match (t.seq k).stall with
  | .stxLimit m => t.seqResume k (fun q => { q with outst := q.outst ++ [m] })
  | _ => t

theorem writeTaken_of_limit {s : State} {k : Nat} {m : Narrow} (h : (s.seq k).stall = .stxLimit m) :
    s.writeTaken k = (s.setSeq k (s.seq k).writeDone).seqResume k (fun q => { q with outst := q.outst ++ [m] }) := by
  have hs : ((s.setSeq k (s.seq k).writeDone).seq k).stall = .stxLimit m := by rw [seq_setSeq_self]; exact h
  simp only [State.writeTaken, hs]

theorem writeTaken_of_other {s : State} {k : Nat} (h : ∀ m, (s.seq k).stall ≠ .stxLimit m) :
    s.writeTaken k = s.setSeq k (s.seq k).writeDone := by
  unfold State.writeTaken
  dsimp only
  split
  next m hm => rw [seq_setSeq_self] at hm; exact absurd hm (h m)
  next => rfl

theorem writeTaken_only (s : State) (k : Nat) : OnlySequencer k [2] s (s.writeTaken k) := by
  have hset := (onlySequencer_setSeq s k (s.seq k).writeDone).mono (l' := [2]) (by simp)
  unfold State.writeTaken
  dsimp only
  split
  · exact hset.trans (seqResume_spec _ _ _).1
  · exact hset

/-- The sequencer afterwards: one write fewer before each waiting CPOST, and the write that waited at the limit in the queue. -/
theorem writeTaken_seq {s : State} {k : Nat} {q : Seq} {n : Narrow} {rest : List Narrow} (hq : s.seq k = q) (hout : q.outst = n :: rest) :
    let t := s.writeTaken k
    (t.seq k).posts = q.posts.map (fun p => (p.1 - 1, p.2)) ∧ (t.seq k).regs = q.regs ∧ (t.seq k).pc = q.pc ∧
    (∀ m, q.stall = .stxLimit m → (t.seq k).outst = rest ++ [m] ∧ (t.seq k).stall = .none) ∧
    ((∀ m, q.stall ≠ .stxLimit m) → (t.seq k).outst = rest ∧ (t.seq k).stall = q.stall) := by
  subst hq
  intro t
  have hdone : (s.seq k).writeDone.outst = rest := by rw [Seq.writeDone, hout]; rfl
  by_cases hl : ∃ m, (s.seq k).stall = .stxLimit m
  · obtain ⟨m, hm⟩ := hl
    have ht : t.seq k = { (s.seq k).writeDone with outst := (s.seq k).writeDone.outst ++ [m], stall := .none } := by
      show (s.writeTaken k).seq k = _
      rw [writeTaken_of_limit hm, (seqResume_spec _ _ _).2, seq_setSeq_self]
    rw [ht, hdone]
    refine ⟨rfl, rfl, rfl, fun m' hm' => ?_, fun h => absurd hm (h m)⟩
    rw [hm] at hm'; cases hm'; exact ⟨rfl, rfl⟩
  · have hother : ∀ m, (s.seq k).stall ≠ .stxLimit m := fun m hm => hl ⟨m, hm⟩
    have ht : t.seq k = (s.seq k).writeDone := by
      show (s.writeTaken k).seq k = _
      rw [writeTaken_of_other hother, seq_setSeq_self]
    rw [ht]
    exact ⟨rfl, rfl, rfl, fun m hm => absurd hm (hother m), fun _ => ⟨hdone, rfl⟩⟩

section
variable {k : ClusterId} {s : State} {j : Job} {a : Nat} {v : Quad} {rest : List Narrow} (hj : s.narrowJob k = some j)
  (hout : (s.seq k).outst = ⟨a, .stx v⟩ :: rest)
include hj hout

theorem narrowAccepted_shared {c off : Nat} (ht : s.narrowTarget j k a = some (.shared c off)) :
    s.narrowAccepted k = (((s.scWrite c off 8 v.toNat).bumpCluster c 6 1).countRemote k 8 (.shared c off)).writeTaken k := by
  simp only [State.narrowAccepted, hj, hout, ht]; rfl

theorem narrowAccepted_stack {d : Nat} {u : State} (ht : s.narrowTarget j k a = some (.stack d))
    (hw : s.memWrite d (leBytes 8 v.toNat) = .ok u) : s.narrowAccepted k = (u.countRemote k 8 (.stack d)).writeTaken k := by
  simp only [State.narrowAccepted, hj, hout, ht, hw]; rfl

theorem narrowAccepted_stack_fails {d : Nat} {e : AccErr} {u : State} (ht : s.narrowTarget j k a = some (.stack d))
    (hw : s.memWrite d (leBytes 8 v.toNat) = .error (e, u)) : s.narrowAccepted k = u.seqAccFault k e := by
  simp only [State.narrowAccepted, hj, hout, ht, hw]

theorem narrowAccepted_port (ht : s.narrowTarget j k a = some .roomPort) : s.narrowAccepted k = (s.roomRequest k v).writeTaken k := by
  simp only [State.narrowAccepted, hj, hout, ht]; rfl

end

/-- A write for a job that succeeds is a write of the module. -/
theorem memWriteOwn_of_memWrite {s u : State} {a : Nat} {bs : List Byte} (h : s.memWrite a bs = .ok u) : s.memWriteOwn a bs = .ok u := by
  unfold State.memWrite at h
  split at h
  · cases h
  · exact h

/-- A request counted at the room port of cluster k. -/
theorem roomRequest_spec (s : State) (k : Nat) (v : Quad) :
    let u := s.roomRequest k v
    KeepsSeq k s u ∧ (u.cluster k).roomQ = (s.cluster k).roomQ ++ [⟨v, if v.toNat / 2 ^ 60 = 1 ∨ v.toNat / 2 ^ 60 = 2 then none
      else some (BitVec.ofNat 64 (4 * 2 ^ 60))⟩] ∧ u.clusterCtr k 20 = s.clusterCtr k 20 + 1 ∧
    (u.cluster k).scache = (s.cluster k).scache ∧ ∀ x, x ≠ k → u.cluster x = s.cluster x := by
  refine ⟨?_, ?_, ?_, ?_, fun x hx => ?_⟩
  · refine KeepsSeq.trans ?_ (keepsSeq_bump _ k k 20 1)
    exact keepsSeq_modCluster s k k _ fun _ => rfl
  · simp only [State.roomRequest, cluster_bumpCluster, if_true, cluster_modCluster_self]
  · rw [State.roomRequest, clusterCtr_bumpCluster, if_pos ⟨rfl, rfl⟩, State.clusterCtr, cluster_modCluster_self]; rfl
  · rw [State.roomRequest, scache_bumpCluster, cluster_modCluster_self]
  · rw [State.roomRequest, cluster_bumpCluster, if_neg hx, cluster_modCluster_ne s _ hx]

/-- Settles O8: by the target, and what the sequencer is then is `writeTaken`'s. -/
theorem narrowWriteAccepted : Obligations.NarrowWriteAccepted := by
  unfold Obligations.NarrowWriteAccepted
  intro k s j a v rest hj hout after
  have hexec : ∀ t, s.narrowAccepted k = t → exec (.narrowAccepted k) s = .next t := fun t ht => congrArg _ ht
  refine ⟨fun c off ht => ?_, fun d u ht hw => ?_, fun ht => ?_, fun d e u ht hw => hexec _ (narrowAccepted_stack_fails hj hout ht hw)⟩
  · set w := s.scWrite c off 8 v.toNat with hw
    have hcount := countRemote_only (w.bumpCluster c 6 1) k 8 (.shared c off)
    obtain ⟨hrest, hcores, hseq⟩ := ((keepsSeq_scWrite s k c off 8 v.toNat).trans (keepsSeq_bump w k c 6 1)).trans hcount.keepsSeq
    have honly := writeTaken_only ((w.bumpCluster c 6 1).countRemote k 8 (.shared c off)) k
    have hcache : ∀ x, ((((w.bumpCluster c 6 1).countRemote k 8 (.shared c off)).writeTaken k).cluster x).scache =
        if x = c then (s.cluster c).scache.writeLE off 8 v.toNat else (s.cluster x).scache := fun x => by
      rw [honly.scache, hcount.scache, scache_bumpCluster, hw, scache_scWrite]
    refine ⟨_, hexec _ (narrowAccepted_shared hj hout ht), writeTaken_seq hseq hout, hrest.trans honly.1, honly.2.1.trans hcores,
      fun i hi => ?_, fun x hx => ?_, fun d hd => ?_⟩
    · rw [hcache, if_pos rfl]; exact Mem.read_writeLE_in _ _ _ hi
    · rw [hcache, if_pos rfl]; exact Mem.read_writeLE_out _ _ _ _ _ hx
    · rw [hcache, if_neg hd]
  · obtain ⟨⟨hcl, hcores, -⟩, -⟩ := memWriteOwn_ok (memWriteOwn_of_memWrite hw)
    have hcount := countRemote_only u k 8 (.stack d)
    have honly := writeTaken_only (u.countRemote k 8 (.stack d)) k
    have hseq : (u.countRemote k 8 (.stack d)).seq k = s.seq k := by
      rw [hcount.seq, State.seq, State.cluster, hcl]; rfl
    exact ⟨_, hexec _ (narrowAccepted_stack hj hout ht hw), writeTaken_seq hseq hout, honly.1.1.trans hcount.1.1,
      honly.2.1.trans (hcount.2.1.trans hcores)⟩
  · obtain ⟨⟨hrest, hcores, hseq⟩, hq, hctr, hcache, hother⟩ := roomRequest_spec s k v
    have honly := writeTaken_only (s.roomRequest k v) k
    refine ⟨_, hexec _ (narrowAccepted_port hj hout ht), writeTaken_seq hseq hout, hrest.trans honly.1, honly.2.1.trans hcores,
      honly.roomQ.trans hq, (honly.2.2.2.2 20 (by decide)).trans hctr, (honly.scache k).trans hcache,
      fun x hx => (honly.2.2.1 x hx).trans (hother x hx)⟩

end Sys2Proof.Machine

/-! PROOFS. ISSUE, TFENCE and HALT (R82, R83, R86): the cores a mask names, their queues, and the waits for them. -/

namespace Sys2Proof.Machine

/-! ## The cores that a mask names -/

theorem mem_targets {s : State} {k c : Nat} {mask : BitVec 16} :
    c ∈ s.targets k mask ↔ clusterOf c = k ∧ (mask &&& s.coreMask k).getLsbD (c % 16) = true := by
  simp only [State.targets, clusterOf, List.mem_filterMap, List.mem_range, Option.ite_none_right_eq_some, Option.some.injEq]
  constructor
  · rintro ⟨i, hi, hbit, rfl⟩
    have hdiv : (16 * k + i) / 16 = k := by omega
    have hmod : (16 * k + i) % 16 = i := by omega
    rw [hdiv, hmod]; exact ⟨rfl, hbit⟩
  · rintro ⟨rfl, hbit⟩
    exact ⟨c % 16, Nat.mod_lt _ (by decide), hbit, by omega⟩

theorem targets_nodup (s : State) (k : Nat) (mask : BitVec 16) : (s.targets k mask).Nodup := by
  refine List.Nodup.filterMap (fun i i' b hb hb' => ?_) List.nodup_range
  simp only [Option.mem_def, Option.ite_none_right_eq_some, Option.some.injEq] at hb hb'
  omega

/-- A cluster's targets are cores of the module. -/
theorem targets_lt {s : State} {k : ClusterId} {c : Nat} {mask : BitVec 16} (h : c ∈ s.targets k mask) : c < 192 := by
  have hk := k.isLt
  have hc := (mem_targets.mp h).1
  unfold clusterOf at hc
  omega

/-- What holds of every target holds of every core of the cluster that the mask names. -/
theorem forall_targets {s : State} {k : ClusterId} {mask : BitVec 16} {p : Nat → Prop} :
    (∀ c ∈ s.targets k mask, p c) ↔ ∀ c : CoreId, clusterOf c = k.val → (mask &&& s.coreMask k).getLsbD (c.val % 16) → p c :=
  ⟨fun h c hc hbit => h c (mem_targets.mpr ⟨hc, hbit⟩),
   fun h c hc => h ⟨c, targets_lt hc⟩ (mem_targets.mp hc).1 (mem_targets.mp hc).2⟩

theorem queueRoom_iff {s : State} {k : ClusterId} {mask : BitVec 16} : s.queueRoom (s.targets k mask) = true ↔
    ∀ c : CoreId, clusterOf c = k.val → (mask &&& s.coreMask k).getLsbD (c.val % 16) → (s.core c).queue.length < 16 := by
  rw [← forall_targets (p := fun c => (s.core c).queue.length < 16)]
  simp [State.queueRoom]

theorem fenceClear_iff {s : State} {k : ClusterId} {mask : BitVec 16} : s.fenceClear (s.targets k mask) = true ↔
    ∀ c : CoreId, clusterOf c = k.val → (mask &&& s.coreMask k).getLsbD (c.val % 16) → (s.core c).queue = [] ∧ (s.core c).commits = [] := by
  rw [← forall_targets (p := fun c => (s.core c).queue = [] ∧ (s.core c).commits = [])]
  simp [State.fenceClear]

/-! ## Delivery -/

/-- Changing cores alone. -/
theorem foldl_modCore_eq (f : Core → Core) (cs : List Nat) (s : State) :
    ∃ m, cs.foldl (fun t c => t.modCore c f) s = { s with cores := m } := by
  induction cs generalizing s with
  | nil => exact ⟨s.cores, rfl⟩
  | cons c cs ih =>
    obtain ⟨m, hm⟩ := ih (s.modCore c f)
    exact ⟨m, hm⟩

/-- Each core of a list without repeats is changed once. -/
theorem core_foldl_modCore (f : Core → Core) {cs : List Nat} (h : cs.Nodup) (s : State) (d : Nat) :
    (cs.foldl (fun t c => t.modCore c f) s).core d = if d ∈ cs then f (s.core d) else s.core d := by
  induction cs generalizing s with
  | nil => simp
  | cons c cs ih =>
    obtain ⟨hc, hcs⟩ := List.nodup_cons.mp h
    rw [List.foldl_cons, ih hcs, core_modCore]
    by_cases hd : d = c
    · subst hd; simp [hc]
    · simp [hd]

/-- A core with one more queued copy of a descriptor, of the next ordinal (R82). -/
def Core.deliver (d : Desc) (x : Core) : Core :=
  { x with issued := x.issued + 1, queue := x.queue ++ [{ desc := d, ord := x.issued + 1 }] }

theorem issueTo_eq (s : State) (cs : List Nat) (d : Desc) : ∃ m, s.issueTo cs d = { s with cores := m } :=
  foldl_modCore_eq (Core.deliver d) cs s

theorem core_issueTo {s t : State} (k : Nat) (mask : BitVec 16) (d : Desc) (c : Nat) (hcore : t.core c = s.core c) :
    (t.issueTo (s.targets k mask) d).core c =
      if clusterOf c = k ∧ (mask &&& s.coreMask k).getLsbD (c % 16) = true then (s.core c).deliver d else s.core c := by
  have h := core_foldl_modCore (Core.deliver d) (targets_nodup s k mask) t c
  rw [hcore] at h
  simp only [mem_targets] at h
  exact h

theorem core_of_cores {s t : State} (h : t.cores = s.cores) (c : Nat) : t.core c = s.core c := by rw [State.core, h]; rfl

theorem Executed.withCores {k : Nat} {s t : State} {pc : Quad} {f : Seq → Seq} (m : AMap Core) (h : Executed k s t pc f) :
    Executed k s { t with cores := m } pc f := h

/-! ## ISSUE -/

/-- What R81 and R82 ask of an ISSUE. -/
def issueLegal (gd : BitVec 5) (fn : BitVec 11) (a : Quad) : Bool :=
  gd == 0 && fn == 0 && a.toNat % 64 == 0 && decide (0x10000 ≤ a.toNat ∧ a.toNat ≤ 0x1FFC0)

theorem issueLegal_iff {gd : BitVec 5} {fn : BitVec 11} {a : Quad} : issueLegal gd fn a = true ↔
    gd = 0 ∧ fn = 0 ∧ a.toNat % 64 = 0 ∧ 0x10000 ≤ a.toNat ∧ a.toNat ≤ 0x1FFC0 := by
  simp [issueLegal, and_assoc]

/-- The sequencer's part of an ISSUE: one more in ISSUED, and the stall where a queue is full. -/
def State.issueCount (s : State) (k : Nat) (word : Word) (a : Quad) (mask : BitVec 16) (d : Desc) : State :=
  (s.bumpCluster k 3 1).seqAdvance k word (mask &&& s.coreMask k) a
    ((s.targets k mask).map (fun c => (c, (s.core c).issued.toNat + 1))) ((s.seq k).pc + 4)
    (fun q => { q with issued := q.issued + 1, stall := if s.queueRoom (s.targets k mask) then .none else .issue d mask })

theorem exec_issue (k : ClusterId) (gd ga gb : BitVec 5) (fn : BitVec 11) (s : State) :
    exec (.issue k gd ga gb fn) s = .next (s.seqLegal k (issueLegal gd fn (s.gReg k ga))
      (let mask : BitVec 16 := (s.gReg k gb).truncate 16
       let d : Desc := BitVec.ofNat 512 (leNat ((s.seq k).loc.readBytes (s.gReg k ga).toNat 64))
       let go := s.issueCount k (encG 0x20 gd ga gb fn) (s.gReg k ga) mask d
       if s.queueRoom (s.targets k mask) then go.issueTo (s.targets k mask) d else go)) := rfl

theorem issueResume_of_stalled {s : State} {k : ClusterId} {d : Desc} {mask : BitVec 16} (hj : (s.narrowJob k).isSome)
    (hs : (s.seq k).stall = .issue d mask) : exec (.issueResume k) s = .next
      (if s.queueRoom (s.targets k mask) then (s.seqResume k (fun q => q)).issueTo (s.targets k mask) d else s) := by
  obtain ⟨j, hj⟩ := Option.isSome_iff_exists.mp hj
  show execIssueResume k s = _
  simp only [execIssueResume, hj, hs]

/-- Settles O9: a legal ISSUE counts, and delivers at once or at its resumption. -/
theorem issueDeliversOrStalls : Obligations.IssueDeliversOrStalls := by
  unfold Obligations.IssueDeliversOrStalls
  intro k gd ga gb fn s a mask legal d pc got room
  have hroom : ∀ m : BitVec 16, s.queueRoom (s.targets k m) = true ↔ room m := fun m => queueRoom_iff
  have hgot : ∀ (m : BitVec 16) (d : Desc) (t : State), t.cores = s.cores → got m d (t.issueTo (s.targets k m) d) :=
    fun m d t ht c => core_issueTo k m d c (core_of_cores ht c)
  have hlegal : issueLegal gd fn (s.gReg k ga) = true ↔ legal := issueLegal_iff
  refine ⟨fun hj hok => ?_, fun hj hbad => ?_, fun d' m' hj hs => ⟨fun hr => ?_, fun hr => ?_⟩⟩
  · have hcount := seqAdvance_counted s k 3 (encG 0x20 gd ga gb fn) (mask &&& s.coreMask k) (s.gReg k ga)
      ((s.targets k mask).map (fun c => (c, (s.core c).issued.toNat + 1))) pc
      (fun q => { q with issued := q.issued + 1, stall := if s.queueRoom (s.targets k mask) then .none else .issue d mask }) (by decide)
    change OnlySequencer k [1, 3] s (s.issueCount k (encG 0x20 gd ga gb fn) (s.gReg k ga) mask d) ∧ _ ∧
      Executed k s (s.issueCount k (encG 0x20 gd ga gb fn) (s.gReg k ga) mask d) pc _ at hcount
    obtain ⟨honly, -, hexec⟩ := hcount
    rw [exec_issue, seqLegal_eq hj, if_pos (hlegal.mpr hok)]
    refine ⟨fun hr => ?_, fun hr => ?_⟩
    · have hq := (hroom mask).mpr hr
      obtain ⟨m, hm⟩ := issueTo_eq (s.issueCount k (encG 0x20 gd ga gb fn) (s.gReg k ga) mask d) (s.targets k mask) d
      refine ⟨_, congrArg _ (if_pos hq), hgot mask d _ honly.2.1, ?_⟩
      rw [hm]
      refine ⟨honly.1, Executed.withCores m (hexec.congr ?_)⟩
      rw [if_pos hq]
    · have hq := mt (hroom mask).mp hr
      refine ⟨_, congrArg _ (if_neg hq), honly, hexec.congr ?_⟩
      rw [if_neg hq]
  · rw [exec_issue, seqLegal_eq hj, if_neg (mt hlegal.mp hbad)]
  · obtain ⟨honly, hseq⟩ := seqResume_spec s k (fun q => q)
    obtain ⟨m, hm⟩ := issueTo_eq (s.seqResume k (fun q => q)) (s.targets k m') d'
    refine ⟨_, (issueResume_of_stalled hj hs).trans (congrArg _ (if_pos ((hroom m').mpr hr))), hgot m' d' _ honly.2.1, ?_⟩
    rw [hm]
    exact ⟨honly.1, hseq⟩
  · exact (issueResume_of_stalled hj hs).trans (congrArg _ (if_neg (mt (hroom m').mp hr)))

/-! ## TFENCE and HALT -/

theorem exec_tfence (k : ClusterId) (gd ga gb : BitVec 5) (fn : BitVec 11) (s : State) :
    exec (.tfence k gd ga gb fn) s = .next (s.seqLegal k (fn == 0)
      (let mask : BitVec 16 := (s.gReg k ga).truncate 16
       if s.fenceClear (s.targets k mask) then s.seqNext k (encG 0x21 gd ga gb fn) (fun q => q)
       else s.seqAdvance k (encG 0x21 gd ga gb fn) 0 0 [waitMark] ((s.seq k).pc + 4) (fun q => { q with stall := .tfence mask }))) := rfl

theorem exec_halt (k : ClusterId) (gd ga gb : BitVec 5) (fn : BitVec 11) (s : State) : exec (.halt k gd ga gb fn) s =
    .next (s.seqLegal k (fn == 0) (s.seqNext k (encG 0x3E gd ga gb fn) (fun q => { q with halted := true }))) := rfl

theorem tfenceRelease_of_stalled {s : State} {k : ClusterId} {mask : BitVec 16} (hj : (s.narrowJob k).isSome)
    (hs : (s.seq k).stall = .tfence mask) : exec (.tfenceRelease k) s = .next
      (if s.fenceClear (s.targets k mask) then (s.seqResume k (fun q => q)).bumpClusterFree k 4 else s) := by
  obtain ⟨j, hj⟩ := Option.isSome_iff_exists.mp hj
  show execTfenceRelease k s = _
  simp only [execTfenceRelease, hj, hs]

/-- Settles O10: the wait is `fenceClear` of the cores named. -/
theorem fenceAndHalt : Obligations.FenceAndHalt := by
  unfold Obligations.FenceAndHalt
  intro k gd ga gb s mask clear pc
  have hclear : ∀ m : BitVec 16, s.fenceClear (s.targets k m) = true ↔ clear m := fun m => fenceClear_iff
  refine ⟨fun hj => ⟨fun hc => ?_, fun hc => ?_, ?_, fun fn hfn => ?_⟩, fun m hj hs => ⟨fun hc => ?_, fun hc => ?_⟩⟩
  · rw [exec_tfence, seqLegal_eq hj, if_pos (beq_self_eq_true _)]
    exact ⟨_, congrArg _ (if_pos ((hclear mask).mpr hc)), regStep_seqAdvance s k _ _ 0 0 _ rfl⟩
  · rw [exec_tfence, seqLegal_eq hj, if_pos (beq_self_eq_true _)]
    exact ⟨_, congrArg _ (if_neg (mt (hclear mask).mp hc)), seqAdvance_spec s k _ 0 0 [waitMark] pc _⟩
  · rw [exec_halt, seqLegal_eq hj, if_pos (beq_self_eq_true _)]
    exact ⟨_, rfl, seqAdvance_spec s k _ 0 0 [] pc _⟩
  · have hbad : ¬ (fn == 0) = true := fun h => hfn (eq_of_beq h)
    rw [exec_tfence, exec_halt, seqLegal_eq hj, seqLegal_eq hj, if_neg hbad, if_neg hbad]
    exact ⟨rfl, rfl⟩
  · obtain ⟨honly, hseq⟩ := seqResume_spec s k (fun q => q)
    have hbump := onlySamples_bumpClusterFree (s.seqResume k (fun q => q)) k 4
    exact ⟨_, (tfenceRelease_of_stalled hj hs).trans (congrArg _ (if_pos ((hclear m).mpr hc))),
      (honly.mono (by simp)).trans (hbump.mono (l' := [31, 32, 2, 4]) (by simp)).onlySequencer, hbump.seq.trans hseq⟩
  · exact (tfenceRelease_of_stalled hj hs).trans (congrArg _ (if_neg (mt (hclear m).mp hc)))

end Sys2Proof.Machine

/-! PROOFS. Counters (R84–R93): the control registers, waits on a counter, and what a CSET or PSET reaches. -/

namespace Sys2Proof.Machine

/-! ## The counter that an operand or an identifier names (R85, R91) -/

theorem syncTarget_of_rank {j : Job} {id : Half} {x : Nat} (h : j.team[id.toNat / 2 ^ 12]? = some x) :
    j.syncTarget id = some (x, id.toNat % 2 ^ 12) := by
  simp only [Nat.reducePow] at h ⊢
  simp only [Job.syncTarget, h]

theorem syncTarget_of_none {j : Job} {id : Half} (h : j.team[id.toNat / 2 ^ 12]? = none) : j.syncTarget id = none := by
  simp only [Nat.reducePow] at h
  simp only [Job.syncTarget, h]

theorem toNat_truncate_half {a : Quad} (h : a.toNat < 2 ^ 16) : (a.truncate 16).toNat = a.toNat := by
  rw [BitVec.truncate, BitVec.toNat_setWidth, Nat.mod_eq_of_lt h]

theorem truncate_eq_ofNat (a : Quad) : a.truncate 16 = BitVec.ofNat 16 a.toNat :=
  BitVec.eq_of_toNat_eq (by simp)

theorem syncOperand_of_rank {j : Job} {a : Quad} {x : Nat} (ha : a.toNat < 2 ^ 16) (h : j.team[a.toNat / 2 ^ 12]? = some x) :
    syncOperand j a = some (x, a.toNat % 2 ^ 12) := by
  have hid := toNat_truncate_half ha
  rw [syncOperand, if_pos (Nat.div_eq_of_lt ha), syncTarget_of_rank (by rw [hid]; exact h), hid]

theorem syncOperand_of_none {j : Job} {a : Quad} (h : 2 ^ 16 ≤ a.toNat ∨ j.team[a.toNat / 2 ^ 12]? = none) :
    syncOperand j a = none := by
  unfold syncOperand
  split
  · next ha =>
    have ha : a.toNat < 2 ^ 16 := (Nat.div_eq_zero_iff_lt (by decide)).mp ha
    exact syncTarget_of_none (by rw [toNat_truncate_half ha]; exact h.resolve_left (by omega))
  · rfl

theorem progTarget_of_rank {j : Job} {id : Half} {x : Nat} (h : j.team[id.toNat / 2 ^ 8 % 2 ^ 4]? = some x) :
    j.progTarget id = some (16 * x + id.toNat / 2 ^ 4 % 2 ^ 4, id.toNat % 2 ^ 4) := by
  have hr : id.toNat / 16 % 256 / 16 = id.toNat / 2 ^ 8 % 2 ^ 4 := by omega
  have hc : id.toNat / 16 % 256 % 16 = id.toNat / 2 ^ 4 % 2 ^ 4 := by omega
  simp only [Job.progTarget, hr, h, hc]
  rfl

theorem progTarget_of_none {j : Job} {id : Half} (h : j.team[id.toNat / 2 ^ 8 % 2 ^ 4]? = none) : j.progTarget id = none := by
  have hr : id.toNat / 16 % 256 / 16 = id.toNat / 2 ^ 8 % 2 ^ 4 := by omega
  simp only [Job.progTarget, hr, h]

theorem progOperand_of_rank {j : Job} {a : Quad} {x : Nat} (ha : a.toNat < 2 ^ 12) (h : j.team[a.toNat / 2 ^ 8]? = some x) :
    progOperand j a = some (16 * x + a.toNat / 2 ^ 4 % 2 ^ 4, a.toNat % 2 ^ 4) := by
  have hid := toNat_truncate_half (a := a) (by omega)
  have hr : a.toNat / 2 ^ 8 % 2 ^ 4 = a.toNat / 2 ^ 8 := by omega
  rw [progOperand, if_pos (Nat.div_eq_of_lt ha), progTarget_of_rank (by rw [hid, hr]; exact h), hid]

theorem progOperand_of_none {j : Job} {a : Quad} (h : 2 ^ 12 ≤ a.toNat ∨ j.team[a.toNat / 2 ^ 8]? = none) :
    progOperand j a = none := by
  unfold progOperand
  split
  · next ha =>
    have ha : a.toNat < 2 ^ 12 := (Nat.div_eq_zero_iff_lt (by decide)).mp ha
    have hr : a.toNat / 2 ^ 8 % 2 ^ 4 = a.toNat / 2 ^ 8 := by omega
    exact progTarget_of_none (by rw [toNat_truncate_half (by omega), hr]; exact h.resolve_left (by omega))
  · rfl

/-- A counter operation whose operand names a counter does what it does with that one. -/
theorem withCounter_of_some {s : State} {k : Nat} {j : Job} {find : Job → Option (Nat × Nat)} {x i : Nat}
    (hj : s.seqJob k = some j) (h : find j = some (x, i)) (f : Job → Nat → Nat → State) : s.withCounter k 0 find f = f j x i := by
  simp only [State.withCounter, hj, h, if_true]

theorem withCounter_of_none {s : State} {k : Nat} {j : Job} {find : Job → Option (Nat × Nat)} (hj : s.seqJob k = some j)
    (h : find j = none) (fn : BitVec 11) (f : Job → Nat → Nat → State) : s.withCounter k fn find f = s.seqFault k stIllegal := by
  simp only [State.withCounter, hj, h]

/-! ## Waits on a counter (R87) -/

theorem cwaitRelease_of_stalled {s : State} {k : ClusterId} {j : Job} {id : Half} {w : Word} {x i : Nat} (hj : s.narrowJob k = some j)
    (hs : (s.seq k).stall = .cwait id w) (ht : j.syncTarget id = some (x, i)) : exec (.cwaitRelease (.seq k)) s = .next
      (if w.toNat ≤ (s.syncVal x i).toNat then s.seqResume k (fun q => q) else s) := by
  show Host.Outcome.next (s.seqCwaitRelease k) = _
  simp only [State.seqCwaitRelease, hj, hs, ht]

theorem onlyCore_bumpCoreFree (s : State) (c i : Nat) : OnlyCore c s (s.bumpCoreFree c i) := onlyCore_modCore s.draw.2 c _

theorem OnlyCore.trans {c : Nat} {s t u : State} (h : OnlyCore c s t) (h' : OnlyCore c t u) : OnlyCore c s u := by
  obtain ⟨hrest, hcore, hcl, hk⟩ := h
  obtain ⟨hrest', hcore', hcl', hk'⟩ := h'
  refine ⟨hrest.trans hrest', fun d hd => (hcore' d hd).trans (hcore d hd), fun k hne => (hcl' k hne).trans (hcl k hne), ?_⟩
  rw [hk']; generalize u.cluster (clusterOf c) = w; rw [hk]

theorem coreCwaitRelease_of_waiting {s : State} {c : CoreId} {j : Job} {e : QEntry} (hj : s.issueJob c = some j)
    (he : (s.core c).candidate = some e) (hw : dWaitKind e.d ≠ 0) (hmet : e.waitMet = false) :
    exec (.cwaitRelease (.core c)) s = .next (if s.waitOk j e.d = true then
      (s.modEntry c e.ord (fun q => { q with waitMet := true })).bumpCoreFree c 6 else s) := by
  show Host.Outcome.next (s.coreCwaitRelease c) = _
  simp only [State.coreCwaitRelease, hj, he, hw, hmet, ne_eq, not_false_eq_true, true_and]

/-- Settles O12: a wait is over exactly where the counter has reached the target. -/
theorem counterWaits : Obligations.CounterWaits := by
  unfold Obligations.CounterWaits
  refine ⟨fun k gd ga gb s j x hj => ?_, fun k s j id w x hj hs hx => ?_, fun c s j e hj he hw hmet => ?_⟩
  · intro a w pc ha hx
    have hexec : exec (.cwait k gd ga gb 0) s = .next
        (if w.toNat ≤ (s.syncVal x (a % 2 ^ 12)).toNat then s.seqNext k (encG 0x22 gd ga gb 0) (fun q => q)
         else s.seqAdvance k (encG 0x22 gd ga gb 0) 0 0 [waitMark] pc (fun q => { q with stall := .cwait (BitVec.ofNat 16 a) w })) := by
      rw [← truncate_eq_ofNat]
      exact congrArg Host.Outcome.next (withCounter_of_some hj (syncOperand_of_rank ha hx) _)
    refine ⟨fun hle => ⟨_, hexec.trans (congrArg _ (if_pos hle)), regStep_seqAdvance s k _ _ 0 0 _ rfl⟩, fun hlt => ?_⟩
    exact ⟨_, hexec.trans (congrArg _ (if_neg (by omega))), seqAdvance_spec s k _ 0 0 [waitMark] pc _⟩
  · have hexec := cwaitRelease_of_stalled hj hs (syncTarget_of_rank hx)
    exact ⟨fun hle => ⟨_, hexec.trans (congrArg _ (if_pos hle)), seqResume_spec s k _⟩,
      fun hlt => hexec.trans (congrArg _ (if_neg (by omega)))⟩
  · have hexec := coreCwaitRelease_of_waiting hj he hw hmet
    refine ⟨fun hok => ⟨_, hexec.trans (congrArg _ (if_pos hok)), (onlyCore_modCore s c _).trans (onlyCore_bumpCoreFree _ c 6), ?_⟩,
      fun hok => hexec.trans (congrArg _ (if_neg (by simp [hok])))⟩
    exact (congrArg Core.queue (core_modCore_self _ c _)).trans (congrArg Core.queue (core_modEntry_self s c e.ord _))

end Sys2Proof.Machine

/-! PROOFS. Registers and counters (R84, R85, R91, R385): the control registers, CREAD and PREAD, and what a counter that is set
posts and releases. -/

namespace Sys2Proof.Machine

/-! ## The control registers (Table 3-8) -/

theorem exec_csrr_of_some {s : State} {k : ClusterId} {j : Job} {n : Half} {v : Quad} (hj : s.seqJob k = some j)
    (h : s.csr k j n.toNat = some v) (gd : BitVec 5) : exec (.csrr k gd 0 n) s =
      .next (s.seqNext k (encI 0x2C gd 0 n) (fun q => q.setReg gd v)) := by
  show execCsrr k gd 0 n s = _
  simp only [execCsrr, hj, h, if_true]

theorem exec_csrr_of_none {s : State} {k : ClusterId} {j : Job} {n : Half} (hj : s.seqJob k = some j)
    (h : s.csr k j n.toNat = none) (gd ga : BitVec 5) : exec (.csrr k gd ga n) s = .next (s.seqFault k stIllegal) := by
  show execCsrr k gd ga n s = _
  simp only [execCsrr, hj, h]

theorem exec_csrr_of_reserved {s : State} {k : ClusterId} {j : Job} {ga : BitVec 5} (hj : s.seqJob k = some j) (hga : ga ≠ 0)
    (gd : BitVec 5) (n : Half) : exec (.csrr k gd ga n) s = .next (s.seqFault k stIllegal) := by
  show execCsrr k gd ga n s = _
  simp only [execCsrr, hj, if_neg hga]
  split <;> rfl

theorem csr_unlisted (s : State) (k : Nat) (j : Job) {n : Nat}
    (h : n ∉ [0, 1, 2, 0x10, 0x11, 0x12, 0x13, 0x14, 0x15, 0x16]) : s.csr k j n = none := by
  unfold State.csr
  split
  case h_11 => rfl
  all_goals exact absurd (by decide) h

theorem team_eq (j : Job) : j.team = teamOf (BitVec.ofNat 12 (j.entry.toNat / 2 ^ 16)) := by
  refine congrArg teamOf (BitVec.eq_of_toNat_eq ?_)
  simp [bits]

/-! ## What a counter that changes posts and releases (R385, R186) -/

/-- Whether a post to counter (k, i) of job j is a request of stream n. -/
def State.requests (s : State) (j : Job) (k i n : Nat) : Prop :=
  (s.stream n).sstate = .held ∧ (s.stream n).holderJob = j.id ∧ epOn (s.stream n).enc.params = true ∧
    j.syncTarget (epSubmit (s.stream n).enc.params) = some (k, i)

/-- The number up to which requests of stream n have been posted. -/
def State.postedTo (s : State) (n : Nat) : Nat := ((s.stream n).enc.posts.getLast?.map Prod.snd).getD 0

/-- The part of `noteRequests` for one stream. -/
def State.noteRequest (j : Job) (k i : Nat) (s : State) (n : Nat) : State :=
  let r := s.stream n
  let top := (r.enc.posts.getLast?.map Prod.snd).getD 0
  let v := (s.syncVal k i).toNat
  if r.sstate = .held ∧ r.holderJob = j.id ∧ epOn r.enc.params = true ∧ j.syncTarget (epSubmit r.enc.params) = some (k, i) ∧ top < v then
    { s.setStreamRec n { r with enc := { r.enc with posts := r.enc.posts ++ [(s.enc.posts, v)] } } with enc := { s.enc with posts := s.enc.posts + 1 } }
  else s

theorem noteRequests_eq (s : State) (j : Job) (k i : Nat) : s.noteRequests j k i = j.streams.foldl (State.noteRequest j k i) s := rfl

/-- Beside the streams and the number of posts a step changes nothing. -/
def PostsOnly (s t : State) : Prop :=
  t = { s with hub := { s.hub with streams := t.hub.streams }, enc := { s.enc with posts := t.enc.posts } }

theorem PostsOnly.refl (s : State) : PostsOnly s s := rfl

theorem PostsOnly.trans {s t u : State} (h : PostsOnly s t) (h' : PostsOnly t u) : PostsOnly s u := by
  unfold PostsOnly at *
  rw [h']; generalize u.hub.streams = m; generalize u.enc.posts = n; rw [h]

section
variable {s : State} {j : Job} {k i : Nat}

theorem noteRequest_of_posts {n : Nat} (h : s.requests j k i n) (hv : s.postedTo n < (s.syncVal k i).toNat) :
    s.noteRequest j k i n = { s.setStreamRec n { s.stream n with enc := { (s.stream n).enc with
      posts := (s.stream n).enc.posts ++ [(s.enc.posts, (s.syncVal k i).toNat)] } } with enc := { s.enc with posts := s.enc.posts + 1 } } := by
  obtain ⟨hheld, hid, hon, hsub⟩ := h
  exact if_pos ⟨hheld, hid, hon, hsub, hv⟩

theorem noteRequest_of_quiet {n : Nat} (h : s.requests j k i n → (s.syncVal k i).toNat ≤ s.postedTo n) :
    s.noteRequest j k i n = s :=
  if_neg fun ⟨hheld, hid, hon, hsub, hv⟩ => absurd hv (Nat.not_lt.mpr (h ⟨hheld, hid, hon, hsub⟩))

theorem noteRequest_only (n : Nat) : PostsOnly s (s.noteRequest j k i n) := by
  by_cases h : s.requests j k i n ∧ s.postedTo n < (s.syncVal k i).toNat
  · rw [noteRequest_of_posts h.1 h.2]; rfl
  · rw [noteRequest_of_quiet fun hr => Nat.not_lt.mp fun hv => h ⟨hr, hv⟩]; rfl

theorem stream_noteRequest_ne {n m : Nat} (h : m ≠ n) : (s.noteRequest j k i n).stream m = s.stream m := by
  by_cases hp : s.requests j k i n ∧ s.postedTo n < (s.syncVal k i).toNat
  · rw [noteRequest_of_posts hp.1 hp.2]; exact mget_mset_ne _ _ _ h
  · rw [noteRequest_of_quiet fun hr => Nat.not_lt.mp fun hv => hp ⟨hr, hv⟩]

theorem stream_noteRequest_self {n : Nat} (h : s.requests j k i n) (hv : s.postedTo n < (s.syncVal k i).toNat) :
    (s.noteRequest j k i n).stream n = { s.stream n with enc := { (s.stream n).enc with
      posts := (s.stream n).enc.posts ++ [(s.enc.posts, (s.syncVal k i).toNat)] } } := by
  rw [noteRequest_of_posts h hv]; exact mget_mset_self ..

end

theorem PostsOnly.syncVal {s t : State} (h : PostsOnly s t) (k i : Nat) : t.syncVal k i = s.syncVal k i := by rw [h]; rfl

section
variable {j : Job} {k i : Nat}

theorem foldl_noteRequest_only (l : List Nat) (s : State) : PostsOnly s (l.foldl (State.noteRequest j k i) s) := by
  induction l generalizing s with
  | nil => exact PostsOnly.refl s
  | cons n l ih => exact (noteRequest_only n).trans (ih _)

theorem requests_congr {s t : State} {n : Nat} (h : t.stream n = s.stream n) : t.requests j k i n ↔ s.requests j k i n := by
  simp only [State.requests, h]

theorem postedTo_congr {s t : State} {n : Nat} (h : t.stream n = s.stream n) : t.postedTo n = s.postedTo n := by
  simp only [State.postedTo, h]

/-- A stream to which the counter posts nothing, or nothing new, stays. -/
theorem stream_foldl_noteRequest_quiet {n : Nat} (l : List Nat) (s : State)
    (h : s.requests j k i n → (s.syncVal k i).toNat ≤ s.postedTo n) : (l.foldl (State.noteRequest j k i) s).stream n = s.stream n := by
  induction l generalizing s with
  | nil => rfl
  | cons m l ih =>
    have hstep : (s.noteRequest j k i m).stream n = s.stream n := by
      by_cases hm : n = m
      · subst hm; rw [noteRequest_of_quiet h]
      · exact stream_noteRequest_ne hm
    refine (ih (s.noteRequest j k i m) ?_).trans hstep
    rwa [requests_congr hstep, postedTo_congr hstep, (noteRequest_only m).syncVal]

/-- A stream to which the counter posts something new gets one post, however often the job names the stream. -/
theorem posts_foldl_noteRequest {n : Nat} {l : List Nat} {s : State} (hn : n ∈ l) (h : s.requests j k i n)
    (hv : s.postedTo n < (s.syncVal k i).toNat) : ((l.foldl (State.noteRequest j k i) s).stream n).enc.posts.map Prod.snd =
      (s.stream n).enc.posts.map Prod.snd ++ [(s.syncVal k i).toNat] := by
  induction l generalizing s with
  | nil => cases hn
  | cons m l ih =>
    rw [List.foldl_cons]
    by_cases hm : n = m
    · subst hm
      have hself := stream_noteRequest_self h hv
      rw [stream_foldl_noteRequest_quiet l _ fun _ => ?_, hself, List.map_append]; rfl
      rw [(noteRequest_only n).syncVal, State.postedTo, hself, List.getLast?_concat]; exact Nat.le_refl _
    · have hstep : (s.noteRequest j k i m).stream n = s.stream n := stream_noteRequest_ne hm
      rw [ih ((List.mem_cons.mp hn).resolve_left hm) ((requests_congr hstep).mpr h)
        (by rwa [postedTo_congr hstep, (noteRequest_only m).syncVal]), hstep, (noteRequest_only m).syncVal]

theorem foldl_noteRequest_none {l : List Nat} {s : State} (h : ∀ n ∈ l, ¬ s.requests j k i n) : l.foldl (State.noteRequest j k i) s = s := by
  induction l with
  | nil => rfl
  | cons n l ih =>
    rw [List.foldl_cons, noteRequest_of_quiet fun hr => absurd hr (h n List.mem_cons_self)]
    exact ih fun m hm => h m (List.mem_cons_of_mem n hm)

end

/-! ## The frames that a release counter releases (R185, R186) -/

/-- Whether counter (k, i) of job j releases frames of slot n. -/
def State.releases (s : State) (j : Job) (k i n : Nat) : Prop :=
  j.slot = some n ∧ j.syncTarget j.releaseId = some (k, i) ∧ (s.streamFor n).map Job.id = some j.id

theorem releaseFrames_of_releases {s : State} {j : Job} {k i n : Nat} (h : s.releases j k i n) :
    s.releaseFrames j k i = s.modSlot n (fun x => x.releaseTo (s.winFrames n) (s.releasedTo j)) := by
  obtain ⟨hslot, hid, hfor⟩ := h
  simp only [State.releaseFrames, hslot, if_pos (And.intro hid hfor)]

theorem releaseFrames_of_not {s : State} {j : Job} {k i : Nat} (h : ∀ n, ¬ s.releases j k i n) : s.releaseFrames j k i = s := by
  unfold State.releaseFrames
  split
  · rfl
  · next n hslot => exact if_neg fun ⟨hid, hfor⟩ => h n ⟨hslot, hid, hfor⟩

/-- Beside the slots a release changes nothing. -/
theorem releaseFrames_only (s : State) (j : Job) (k i : Nat) :
    ∃ m, s.releaseFrames j k i = { s with car := { s.car with slots := m } } := by
  by_cases h : ∃ n, s.releases j k i n
  · obtain ⟨n, hn⟩ := h
    exact ⟨_, releaseFrames_of_releases hn⟩
  · exact ⟨s.car.slots, releaseFrames_of_not (not_exists.mp h)⟩

/-- A counter that changes posts requests and releases frames; nothing beside the streams, the number of posts and the slots changes. -/
theorem counterChanged_only (s : State) (j : Job) (k i : Nat) : ∃ m str n, s.counterChanged j k i =
    { s with car := { s.car with slots := m }, hub := { s.hub with streams := str }, enc := { s.enc with posts := n } } := by
  have hnote := foldl_noteRequest_only (j := j) (k := k) (i := i) j.streams s
  rw [← noteRequests_eq] at hnote
  obtain ⟨m, hm⟩ := releaseFrames_only (s.noteRequests j k i) j k i
  refine ⟨m, (s.noteRequests j k i).hub.streams, (s.noteRequests j k i).enc.posts, ?_⟩
  exact hm.trans (congrArg (fun t : State => { t with car := { t.car with slots := m } }) hnote)

/-- Which job streams through a slot does not depend on the requests posted. -/
theorem PostsOnly.streamFor {s t : State} (h : PostsOnly s t) (n : Nat) : t.streamFor n = s.streamFor n := by rw [h]; rfl

theorem releasedTo_of_running {s : State} {j : Job} {k i : Nat} (hj : j.phase = .running) (h : j.syncTarget j.releaseId = some (k, i)) :
    s.releasedTo j = (s.syncVal k i).toNat / max 1 j.team.length := by
  simp only [State.releasedTo, State.jobSync, h, hj]

theorem seqJob_running {s : State} {k : Nat} {j : Job} (h : s.seqJob k = some j) : j.phase = .running := by
  unfold State.seqJob at h
  simp only [] at h
  split at h
  · cases h
  · split at h
    · split at h
      · cases h; assumption
      · cases h
    · cases h

/-! ## CSET and PSET -/

theorem exec_cset {s : State} {k : ClusterId} {j : Job} {ga : BitVec 5} {x i : Nat} (hj : s.seqJob k = some j)
    (h : syncOperand j (s.gReg k ga) = some (x, i)) (gd gb : BitVec 5) : exec (.cset k gd ga gb 0) s =
      .next (((s.seqNext k (encG 0x24 gd ga gb 0) (fun q => q)).setSync x i ((s.gReg k gb).truncate 32)).counterChanged j x i) :=
  congrArg Host.Outcome.next (withCounter_of_some hj h _)

theorem exec_cread {s : State} {k : ClusterId} {j : Job} {ga : BitVec 5} {x i : Nat} (hj : s.seqJob k = some j)
    (h : syncOperand j (s.gReg k ga) = some (x, i)) (gd gb : BitVec 5) : exec (.cread k gd ga gb 0) s =
      .next (s.seqNext k (encG 0x25 gd ga gb 0) (fun q => q.setReg gd ((s.syncVal x i).zeroExtend 64))) :=
  congrArg Host.Outcome.next (withCounter_of_some hj h _)

theorem exec_pread {s : State} {k : ClusterId} {j : Job} {ga : BitVec 5} {c i : Nat} (hj : s.seqJob k = some j)
    (h : progOperand j (s.gReg k ga) = some (c, i)) (gd gb : BitVec 5) : exec (.pread k gd ga gb 0) s =
      .next (s.seqNext k (encG 0x28 gd ga gb 0) (fun q => q.setReg gd ((s.progVal c i).zeroExtend 64))) :=
  congrArg Host.Outcome.next (withCounter_of_some hj h _)

theorem exec_pset {s : State} {k : ClusterId} {j : Job} {ga : BitVec 5} {c i : Nat} (hj : s.seqJob k = some j)
    (h : progOperand j (s.gReg k ga) = some (c, i)) (gd gb : BitVec 5) : exec (.pset k gd ga gb 0) s =
      .next ((s.seqNext k (encG 0x29 gd ga gb 0) (fun q => q)).setProg c i ((s.gReg k gb).truncate 32)) :=
  congrArg Host.Outcome.next (withCounter_of_some hj h _)

theorem syncVal_of_sync {s t : State} (h : ∀ y, (t.cluster y).sync = (s.cluster y).sync) (y n : Nat) : t.syncVal y n = s.syncVal y n := by
  simp only [State.syncVal, h]

theorem syncVal_setSync_eq (s : State) (x i y n : Nat) (v : Word) :
    (s.setSync x i v).syncVal y n = if y = x ∧ n = i then v else s.syncVal y n := by
  by_cases h : y = x
  · subst h; simp only [syncVal_setSync, true_and]
  · simp only [State.syncVal, State.setSync, cluster_modCluster_ne s _ h, h, false_and, if_false]

theorem progVal_setProg_eq (s : State) (c i d n : Nat) (v : Word) :
    (s.setProg c i v).progVal d n = if d = c ∧ n = i then v else s.progVal d n := by
  by_cases h : d = c
  · subst h; simp only [progVal_setProg, true_and]
  · simp only [State.progVal, State.setProg, core_modCore_ne s _ h, h, false_and, if_false]

theorem OnlySequencer.sync {k : Nat} {l : List Nat} {s t : State} (h : OnlySequencer k l s t) (y n : Nat) : t.syncVal y n = s.syncVal y n := by
  refine syncVal_of_sync (fun y => ?_) y n
  by_cases hy : y = k
  · subst hy; rw [h.2.2.2.1]
  · rw [h.2.2.1 y hy]

/-- A change of the counters of clusters is no part of what an instruction does to its sequencer. -/
theorem Executed.of_seq {k : Nat} {s t u : State} {pc : Quad} {f : Seq → Seq} (h : Executed k s t pc f) (hseq : u.seq k = t.seq k)
    (hctr : u.clusterCtr k 1 = t.clusterCtr k 1) : Executed k s u pc f := by
  obtain ⟨hs, hc⟩ := h
  exact ⟨by rw [hseq]; exact hs, hctr.trans hc⟩

theorem cluster_setSync (s : State) (x i k : Nat) (v : Word) :
    (s.setSync x i v).cluster k = { s.cluster k with sync := ((s.setSync x i v).cluster k).sync } := by
  by_cases h : k = x
  · subst h; simp only [State.setSync, cluster_modCluster_self]
  · simp only [State.setSync, cluster_modCluster_ne s _ h]

theorem core_setProg (s : State) (c i d : Nat) (v : Word) :
    (s.setProg c i v).core d = { s.core d with progress := ((s.setProg c i v).core d).progress } := by
  by_cases h : d = c
  · subst h; simp only [State.setProg, core_modCore_self]
  · simp only [State.setProg, core_modCore_ne s _ h]

/-- The state in which a CSET has set its counter, its posts and releases yet to come. -/
theorem setSync_seqNext (s : State) (k x i : Nat) (word : Word) (v : Word) :
    let u := (s.seqNext k word (fun q => q)).setSync x i v
    SameRest s u ∧ u.cores = s.cores ∧ Executed k s u ((s.seq k).pc + 4) (fun q => q) ∧
      ∀ y n, u.syncVal y n = if y = x ∧ n = i then v else s.syncVal y n := by
  intro u
  obtain ⟨honly, hexec⟩ := seqAdvance_spec s k word 0 0 [] ((s.seq k).pc + 4) (fun q => q)
  have hk := cluster_setSync (s.seqNext k word (fun q => q)) x i k v
  refine ⟨honly.1.trans (SameRest.modCluster _ x _), honly.2.1, hexec.of_seq (congrArg Cluster.seq hk :)
    (congrArg (fun c : Cluster => mget 0 c.ctr 1) hk :), fun y n => ?_⟩
  exact (syncVal_setSync_eq _ x i y n v).trans (if_congr Iff.rfl rfl (honly.sync y n))

theorem SameRest.eq {s t : State} (h : SameRest s t) : t = { s with clusters := t.clusters, cores := t.cores, draws := t.draws } := by
  cases s; cases t; simp only [SameRest] at h; simp [h]

theorem SameRest.streamFor {s t : State} (h : SameRest s t) (n : Nat) : t.streamFor n = s.streamFor n := by rw [h.eq]; rfl

theorem SameRest.stream {s t : State} (h : SameRest s t) (n : Nat) : t.stream n = s.stream n := by rw [h.eq]; rfl

theorem SameRest.slot {s t : State} (h : SameRest s t) (n : Nat) : t.slot n = s.slot n := by rw [h.eq]; rfl

theorem SameRest.winFrames {s t : State} (h : SameRest s t) (n : Nat) : t.winFrames n = s.winFrames n := by rw [h.eq]; rfl

/-- What a counter that has come to the value v posts of a stream's requests. -/
theorem counterChanged_posts {u : State} {j : Job} {x i n : Nat} (h : u.requests j x i n) :
    (u.postedTo n < (u.syncVal x i).toNat → n ∈ j.streams → ((u.counterChanged j x i).stream n).enc.posts.map Prod.snd =
      (u.stream n).enc.posts.map Prod.snd ++ [(u.syncVal x i).toNat]) ∧
    ((u.syncVal x i).toNat ≤ u.postedTo n → (u.counterChanged j x i).stream n = u.stream n) := by
  obtain ⟨m, hm⟩ := releaseFrames_only (u.noteRequests j x i) j x i
  have hstream : (u.counterChanged j x i).stream n = (u.noteRequests j x i).stream n := (congrArg (fun t : State => t.stream n) hm :)
  rw [hstream, noteRequests_eq]
  exact ⟨fun hv hn => posts_foldl_noteRequest hn h hv, fun hv => stream_foldl_noteRequest_quiet _ u fun _ => hv⟩

theorem counterChanged_silent {u : State} {j : Job} {x i : Nat} (h : ∀ n ∈ j.streams, ¬ u.requests j x i n) :
    (u.counterChanged j x i).hub = u.hub ∧ (u.counterChanged j x i).enc = u.enc := by
  have hnote : u.noteRequests j x i = u := (noteRequests_eq u j x i).trans (foldl_noteRequest_none h)
  obtain ⟨m, hm⟩ := releaseFrames_only u j x i
  rw [State.counterChanged, hnote, hm]; exact ⟨rfl, rfl⟩

theorem PostsOnly.releases {s t : State} (h : PostsOnly s t) (j : Job) (x i n : Nat) : t.releases j x i n ↔ s.releases j x i n := by
  simp only [State.releases, h.streamFor]

theorem noteRequests_only (s : State) (j : Job) (x i : Nat) : PostsOnly s (s.noteRequests j x i) := by
  rw [noteRequests_eq]; exact foldl_noteRequest_only _ s

theorem counterChanged_keepsFrames {u : State} {j : Job} {x i : Nat} (h : ∀ n, ¬ u.releases j x i n) : (u.counterChanged j x i).car = u.car := by
  have hnote := noteRequests_only u j x i
  rw [State.counterChanged, releaseFrames_of_not fun n hn => h n ((hnote.releases j x i n).mp hn), hnote]

theorem slot_counterChanged {u : State} {j : Job} {x i n : Nat} (hj : j.phase = .running) (h : u.releases j x i n) (m : Nat) :
    (u.counterChanged j x i).slot m = if m = n then
      (u.slot n).releaseTo (u.winFrames n) ((u.syncVal x i).toNat / max 1 j.team.length) else u.slot m := by
  have hnote := noteRequests_only u j x i
  have hto := (releasedTo_of_running (s := u.noteRequests j x i) hj h.2.1).trans (by rw [hnote.syncVal])
  rw [State.counterChanged, releaseFrames_of_releases ((hnote.releases j x i n).mpr h), slot_modSlot, hto, hnote]; rfl

/-- What a CSET does to the rest of the module: the posts and the releases of the counter it sets, and nothing else. -/
def CsetRest (s t : State) : Prop :=
  t.ms = s.ms ∧ t.net = s.net ∧ t.pwr = s.pwr ∧ t.por = s.por ∧ t.boot = s.boot ∧ t.pacing = s.pacing ∧ t.out = s.out ∧
    t.pending = s.pending ∧ t.hub = { s.hub with streams := t.hub.streams } ∧ t.enc = { s.enc with posts := t.enc.posts } ∧
    ∀ c, t.flashCh c = s.flashCh c

theorem counterChanged_rest {s u : State} (h : SameRest s u) (j : Job) (x i : Nat) : CsetRest s (u.counterChanged j x i) := by
  obtain ⟨m, str, n, he⟩ := counterChanged_only u j x i
  rw [he, h.eq]
  exact ⟨rfl, rfl, rfl, rfl, rfl, rfl, rfl, rfl, rfl, rfl, fun _ => rfl⟩

theorem counterChanged_clusters (u : State) (j : Job) (x i : Nat) :
    (u.counterChanged j x i).clusters = u.clusters ∧ (u.counterChanged j x i).cores = u.cores := by
  obtain ⟨m, str, n, he⟩ := counterChanged_only u j x i
  rw [he]; exact ⟨rfl, rfl⟩

theorem cluster_of_clusters {s t : State} (h : t.clusters = s.clusters) (k : Nat) : t.cluster k = s.cluster k := by
  simp only [State.cluster, h]

/-- Settles O11: CSRR is the table of control registers; CSET is the counter's new value and what that posts and releases. -/
theorem registerAndCounterReads : Obligations.RegisterAndCounterReads := by
  unfold Obligations.RegisterAndCounterReads
  refine ⟨fun k gd s j hj => ?_, fun k gd ga gb s j hj => ?_⟩
  · intro e rank reads
    have hreads : ∀ (n : Half) (v : Quad), s.csr k j n.toNat = some v → reads n v := fun n v hv =>
      ⟨_, exec_csrr_of_some hj hv gd, regStep_seqAdvance s k _ _ gd v _ rfl⟩
    have hteam := team_eq j
    refine ⟨hreads _ _ rfl, hreads _ _ rfl, hreads _ _ rfl, hreads _ _ rfl, hreads _ _ ?_, hreads _ _ ?_, hreads _ _ rfl,
      hreads _ _ rfl, hreads _ _ rfl, hreads _ _ rfl, fun n hn ga => exec_csrr_of_none hj (csr_unlisted s k j hn) gd ga,
      fun ga n hga => exec_csrr_of_reserved hj hga gd n⟩
    · exact congrArg (fun t => some (BitVec.ofNat 64 (rankIn t k))) hteam
    · exact congrArg (fun t => some (BitVec.ofNat 64 t.length)) hteam
  · intro a v pc
    refine ⟨fun x ha hx => ⟨⟨_, exec_cread hj (syncOperand_of_rank ha hx) gd gb,
        regStep_seqAdvance s k _ _ gd _ _ rfl⟩, ?_⟩, fun x ha hx => ?_, fun h => ?_, fun h => ?_⟩
    · intro i posts releases
      let u := (s.seqNext k (encG 0x24 gd ga gb 0) (fun q => q)).setSync x i v
      obtain ⟨hrest, hcores, hexec, hsync⟩ : SameRest s u ∧ u.cores = s.cores ∧ Executed k s u pc (fun q => q) ∧
        ∀ y n, u.syncVal y n = if y = x ∧ n = i then v else s.syncVal y n := setSync_seqNext s k x i _ v
      obtain ⟨hcl, hco⟩ := counterChanged_clusters u j x i
      have hv : u.syncVal x i = v := (hsync x i).trans (if_pos ⟨rfl, rfl⟩)
      have hreq : ∀ n, u.requests j x i n → posts n := fun n hr => by
        have := (requests_congr (hrest.stream n)).mp hr; exact ⟨this.2.2.1, this.2.2.2⟩
      obtain ⟨hms, hnet, hpwr, hpor, hboot, hpac, hout, hpend, hhub, henc, hfl⟩ := counterChanged_rest hrest j x i
      refine ⟨_, exec_cset hj (syncOperand_of_rank ha hx) gd gb, hco.trans hcores,
        hexec.of_seq (congrArg Cluster.seq (cluster_of_clusters hcl k))
          (congrArg (fun c : Cluster => mget 0 c.ctr 1) (cluster_of_clusters hcl k)),
        fun y n => (congrArg (fun c : Cluster => mget 0 c.sync n) (cluster_of_clusters hcl y)).trans (hsync y n),
        ⟨hms, hnet, hpwr, hpor, hboot, hpac, hout, hpend, hhub, henc, hfl⟩, fun hno => ?_, fun n hp hn hheld => ?_,
        fun hno => ?_, fun n hr => ?_⟩
      · obtain ⟨hh, he⟩ := counterChanged_silent (u := u) (x := x) (i := i) fun n hn hr => hno n hn (hreq n hr)
        exact ⟨hh.trans hrest.2.2.2.1, he.trans hrest.2.2.2.2.2.1⟩
      · have hheld : (s.stream n).sstate = .held ∧ (s.stream n).holderJob = j.id := by
          simpa [State.heldBy] using hheld
        have hr : u.requests j x i n := (requests_congr (hrest.stream n)).mpr ⟨hheld.1, hheld.2, hp.1, hp.2⟩
        have hposted := counterChanged_posts hr
        rw [hv, State.postedTo, hrest.stream] at hposted
        exact ⟨fun hlt => hposted.1 hlt hn, hposted.2⟩
      · exact (counterChanged_keepsFrames (u := u) (x := x) (i := i) fun n hn => by
          rw [State.releases, hrest.streamFor n] at hn; exact hno n hn).trans hrest.2.1
      · have hr' : u.releases j x i n := by rw [State.releases, hrest.streamFor n]; exact hr
        have hslot := slot_counterChanged (seqJob_running hj) hr'
        rw [hv, hrest.slot, hrest.winFrames] at hslot
        exact ⟨(hslot n).trans (if_pos rfl), fun m hm => (hslot m).trans ((if_neg hm).trans (hrest.slot m))⟩
    · intro c
      obtain ⟨honly, hexec⟩ := seqAdvance_spec s k (encG 0x29 gd ga gb 0) 0 0 [] pc (fun q => q)
      refine ⟨⟨_, exec_pread hj (progOperand_of_rank ha hx) gd gb, regStep_seqAdvance s k _ _ gd _ _ rfl⟩,
        _, exec_pset hj (progOperand_of_rank ha hx) gd gb, ?_, hexec, fun d i => ?_, fun d => ?_⟩
      · rw [← honly.2.1]; exact honly
      · exact (progVal_setProg_eq _ c (a % 2 ^ 4) d i v).trans
          (if_congr Iff.rfl rfl (congrArg (fun y : Core => mget 0 y.progress i) (core_of_cores honly.2.1 d)))
      · have hcore : (s.seqNext k (encG 0x29 gd ga gb 0) (fun q => q)).core d = s.core d := core_of_cores honly.2.1 d
        have hset := core_setProg (s.seqNext k (encG 0x29 gd ga gb 0) (fun q => q)) c (a % 2 ^ 4) d v
        exact ⟨(congrArg Core.store hset :).trans (congrArg Core.store hcore :), (congrArg Core.queue hset :).trans (congrArg Core.queue hcore :)⟩
    · have hnone := syncOperand_of_none h
      exact ⟨congrArg Host.Outcome.next (withCounter_of_none hj hnone 0 _), congrArg Host.Outcome.next (withCounter_of_none hj hnone 0 _)⟩
    · have hnone := progOperand_of_none h
      exact ⟨congrArg Host.Outcome.next (withCounter_of_none hj hnone 0 _), congrArg Host.Outcome.next (withCounter_of_none hj hnone 0 _)⟩

end Sys2Proof.Machine

/-! PROOFS. Posts (R86, R88, R92): what a sync post adds, what a progress post leaves, and which posts wait. -/

namespace Sys2Proof.Machine

/-! ## Sync posts (R86, R88) -/

/-- From s to t the post of v to counter id of job j is made: added, or the fault of a counter that overflows. -/
def Posted (j : Job) (id : Half) (v : Word) (s t : State) : Prop := ∀ x, j.team[id.toNat / 2 ^ 12]? = some x →
  ((s.syncVal x (id.toNat % 2 ^ 12)).toNat + v.toNat < 2 ^ 32 →
    ∀ y i, t.syncVal y i = if y = x ∧ i = id.toNat % 2 ^ 12 then s.syncVal x (id.toNat % 2 ^ 12) + v else s.syncVal y i) ∧
  (2 ^ 32 ≤ (s.syncVal x (id.toNat % 2 ^ 12)).toNat + v.toNat → s.hub.sweeping = false →
    (∀ y i, t.syncVal y i = s.syncVal y i) ∧ t.hub.sweeping = true ∧ t.hub.lastFault.status = 0x41 ∧ t.hub.lastFault.limit = 4 ∧
    t.hub.lastFault.job = j.id)

theorem Posted.congr {j : Job} {id : Half} {v : Word} {s u t : State} (h : Posted j id v u t)
    (hsync : ∀ y i, u.syncVal y i = s.syncVal y i) (hhub : u.hub = s.hub) : Posted j id v s t := by
  unfold Posted at *
  simpa only [hsync, hhub] using h

theorem lastFault_jobFault {s : State} (job : Option JobId) (f : FaultInfo) (h : s.hub.sweeping = false) :
    (s.jobFault job f).hub.sweeping = true ∧ (s.jobFault job f).hub.lastFault.status = f.status ∧
    (s.jobFault job f).hub.lastFault.limit = f.limit ∧ (s.jobFault job f).hub.lastFault.job = job.getD 0 := by
  simp [State.jobFault, h]

theorem counterChanged_hub (u : State) (j : Job) (k i : Nat) :
    (u.counterChanged j k i).hub.sweeping = u.hub.sweeping ∧ (u.counterChanged j k i).hub.lastFault = u.hub.lastFault := by
  obtain ⟨m, str, n, he⟩ := counterChanged_only u j k i
  rw [he]; exact ⟨rfl, rfl⟩

theorem counterChanged_syncVal (u : State) (j : Job) (k i y n : Nat) : (u.counterChanged j k i).syncVal y n = u.syncVal y n :=
  congrArg (fun c : Cluster => mget 0 c.sync n) (cluster_of_clusters (counterChanged_clusters u j k i).1 y)

theorem syncVal_bumpCluster (s : State) (k i n y m : Nat) : (s.bumpCluster k i n).syncVal y m = s.syncVal y m := by
  by_cases h : y = k
  · subst h; simp only [State.syncVal, cluster_bumpCluster, if_true]
  · simp only [State.syncVal, cluster_bumpCluster, if_neg h]

theorem applySync_of_target {s : State} {j : Job} {core cl : Byte} {p : PendPost} {k i : Nat} (h : j.syncTarget p.id = some (k, i)) :
    s.applySync j core cl p =
      (s.postSync k i p.val (fun t => t.jobFault (some j.id) { status := stOverflow, limit := 4, cluster := cl, core := core })).counterChanged
        j k i := by
  simp only [State.applySync, h]

theorem applySync_of_none {s : State} {j : Job} {core cl : Byte} {p : PendPost} (h : j.syncTarget p.id = none) :
    s.applySync j core cl p = s := by
  simp only [State.applySync, h]

theorem applySync_posted (s : State) (j : Job) (core cl : Byte) (p : PendPost) : Posted j p.id p.val s (s.applySync j core cl p) := by
  intro x hx
  rw [applySync_of_target (syncTarget_of_rank hx)]
  rcases postSync_cases s x (p.id.toNat % 2 ^ 12) p.val
    (fun t => t.jobFault (some j.id) { status := stOverflow, limit := 4, cluster := cl, core := core }) with ⟨hfits, heq⟩ | ⟨hover, heq⟩
  · refine ⟨fun _ y n => ?_, fun hover => absurd hover (by omega)⟩
    rw [counterChanged_syncVal, heq, syncVal_bumpCluster, syncVal_setSync_eq]
  · refine ⟨fun hfits => absurd hfits (by omega), fun _ hsweep => ?_⟩
    obtain ⟨hswept, hlast⟩ := counterChanged_hub (s.jobFault (some j.id) { status := stOverflow, limit := 4, cluster := cl, core := core })
      j x (p.id.toNat % 2 ^ 12)
    obtain ⟨hnow, hst, hlim, hjob⟩ :=
      lastFault_jobFault (some j.id) { status := stOverflow, limit := 4, cluster := cl, core := core } hsweep
    rw [heq, hlast]
    refine ⟨fun y n => ?_, hswept.trans hnow, hst, hlim, hjob⟩
    rw [counterChanged_syncVal]
    exact congrArg (fun c : Cluster => mget 0 c.sync n) (cluster_of_clusters (jobFault_rest s _ _).1 y)

/-- A sync post leaves the cores, stacked memory and the sequencers. -/
theorem applySync_frame (s : State) (j : Job) (core cl : Byte) (p : PendPost) :
    (s.applySync j core cl p).cores = s.cores ∧ (s.applySync j core cl p).ms = s.ms ∧
    ∀ k, (s.applySync j core cl p).seq k = s.seq k := by
  cases ht : j.syncTarget p.id with
  | none => rw [applySync_of_none ht]; exact ⟨rfl, rfl, fun _ => rfl⟩
  | some t =>
    obtain ⟨x, i⟩ := t
    rw [applySync_of_target ht]
    obtain ⟨m, str, n, he⟩ := counterChanged_only (s.postSync x i p.val
      (fun t => t.jobFault (some j.id) { status := stOverflow, limit := 4, cluster := cl, core := core })) j x i
    rw [he]
    rcases postSync_cases s x i p.val
      (fun t => t.jobFault (some j.id) { status := stOverflow, limit := 4, cluster := cl, core := core }) with ⟨-, heq⟩ | ⟨-, heq⟩
    · rw [heq]
      refine ⟨rfl, rfl, fun k => ?_⟩
      exact (seq_bumpCluster _ x k 17 1).trans (congrArg Cluster.seq (cluster_setSync s x i k _) :)
    · rw [heq]
      obtain ⟨hcl, hco, hms, -⟩ := jobFault_rest s (some j.id) { status := stOverflow, limit := 4, cluster := cl, core := core }
      exact ⟨hco, hms, fun k => congrArg Cluster.seq (cluster_of_clusters hcl k)⟩

theorem exec_cpost {s : State} {k : ClusterId} {j : Job} {ga : BitVec 5} {x i : Nat} (hj : s.seqJob k = some j)
    (h : syncOperand j (s.gReg k ga) = some (x, i)) (gd gb : BitVec 5) : exec (.cpost k gd ga gb 0) s =
      let p : PendPost := ⟨1, BitVec.ofNat 16 (s.gReg k ga).toNat, (s.gReg k gb).truncate 32⟩
      .next (if (s.seq k).outst.isEmpty then (s.seqNext k (encG 0x23 gd ga gb 0) (fun q => q)).seqPost k j p
        else s.seqNext k (encG 0x23 gd ga gb 0) (fun q => { q with posts := q.posts ++ [(q.outst.length, p)] })) := by
  rw [← truncate_eq_ofNat]
  exact congrArg Host.Outcome.next (withCounter_of_some hj h _)

theorem seqSyncPost_of_due {s : State} {k : ClusterId} {j : Job} {p : PendPost} {rest : List (Nat × PendPost)}
    (hj : s.narrowJob k = some j) (hp : (s.seq k).posts = (0, p) :: rest) : exec (.syncPostEffect (.seq k)) s =
      .next ((s.setSeq k { s.seq k with posts := rest }).seqPost k j p) := by
  show Host.Outcome.next (s.seqSyncPost k) = _
  simp only [State.seqSyncPost, hj, hp]

/-! ## Which posts of a core are due (R86) -/

theorem postVisible_iff {x : Core} {n : Nat} : x.postVisible n = true ↔ ∀ m ∈ x.commits, postsAhead n x.posts < m.before := by
  simp only [Core.postVisible, List.all_eq_true, decide_eq_true_eq]

/-- The core once its oldest post of a kind has been taken out, the commits behind it one nearer. -/
def Core.popped (x : Core) (rest : List PendPost) : Core :=
  { x with posts := rest, commits := x.commits.map (fun m => { m with before := m.before - 1 }) }

theorem popPost_of_visible {x : Core} {n : Nat} {p : PendPost} {rest : List PendPost} (h : x.postVisible n = true)
    (hp : takePost n x.posts = some (p, rest)) : x.popPost n = some (p, x.popped rest) := by
  simp only [Core.popPost, h, if_true, hp, Option.map_some]; rfl

theorem popPost_of_hidden {x : Core} {n : Nat} (h : x.postVisible n = false) : x.popPost n = none := by
  simp only [Core.popPost, h, Bool.false_eq_true, if_false]

theorem coreSyncPost_of_due {s : State} {c : CoreId} {j : Job} {p : PendPost} {x : Core} (hj : s.postJob c = some j)
    (hp : (s.core c).popPost 1 = some (p, x)) : exec (.syncPostEffect (.core c)) s =
      .next ((s.modCore c (fun _ => x)).applySync j (BitVec.ofNat 8 c) (BitVec.ofNat 8 (clusterOf c)) p) := by
  show Host.Outcome.next (s.coreSyncPost c) = _
  simp only [State.coreSyncPost, hj, hp]

theorem coreSyncPost_of_hidden {s : State} {c : CoreId} (hp : (s.core c).popPost 1 = none) :
    exec (.syncPostEffect (.core c)) s = .next s := by
  show Host.Outcome.next (s.coreSyncPost c) = _
  unfold State.coreSyncPost
  rw [hp]
  split <;> simp_all

/-- Settles O13: every sync post is `applySync` in the state that no longer holds it. -/
theorem syncPosts : Obligations.SyncPosts := by
  unfold Obligations.SyncPosts
  intro adds
  refine ⟨fun k gd ga gb s j hj => ?_, fun k s j p rest hj hp => ?_, fun c s j p rest hj hp => ⟨fun hdue => ?_, fun hwait => ?_⟩⟩
  · intro a v ha hteam
    obtain ⟨x, hx⟩ := Option.isSome_iff_exists.mp hteam
    have hexec := exec_cpost hj (syncOperand_of_rank ha hx) gd gb
    refine ⟨fun hempty => ?_, fun hsome => ?_⟩
    · let p : PendPost := ⟨1, BitVec.ofNat 16 a, v⟩
      let u := s.seqNext k (encG 0x23 gd ga gb 0) (fun q => q)
      obtain ⟨honly, hseq, -⟩ := seqAdvance_spec s k (encG 0x23 gd ga gb 0) 0 0 [] ((s.seq k).pc + 4) (fun q => q)
      obtain ⟨hcores, hms, hkeep⟩ := applySync_frame u j 0xFF (BitVec.ofNat 8 k) p
      have hpost : (u.seqPost k j p).seq k = u.seq k := hkeep k
      refine ⟨_, hexec.trans (congrArg _ (if_pos (by rw [hempty]; rfl))),
        (applySync_posted u j 0xFF _ p).congr honly.sync honly.1.2.2.2.1, ?_, ?_, hms.trans honly.1.1, hcores.trans honly.2.1⟩
      · rw [hpost]; exact (congrArg Seq.pc hseq :)
      · rw [hpost]; exact (congrArg Seq.posts hseq :)
    · exact ⟨_, hexec.trans (congrArg _ (if_neg (by rw [List.isEmpty_iff]; exact hsome))), seqAdvance_spec s k _ 0 0 [] _ _⟩
  · obtain ⟨hcores, hms, hkeep⟩ := applySync_frame (s.setSeq k { s.seq k with posts := rest }) j 0xFF (BitVec.ofNat 8 k) p
    have hsync : ∀ y i, (s.setSeq k { s.seq k with posts := rest }).syncVal y i = s.syncVal y i :=
      (onlySequencer_setSeq s k _).sync
    exact ⟨_, seqSyncPost_of_due hj hp, (applySync_posted _ j 0xFF _ p).congr hsync rfl, (hkeep k).trans (seq_setSeq_self s k _), hms, hcores⟩
  · have hpop := popPost_of_visible (postVisible_iff.mpr hdue) hp
    let u := s.modCore c (fun _ => (s.core c).popped rest)
    obtain ⟨hcores, hms, -⟩ := applySync_frame u j (BitVec.ofNat 8 c) (BitVec.ofNat 8 (clusterOf c)) p
    have hcore : ∀ d, (u.applySync j (BitVec.ofNat 8 c) (BitVec.ofNat 8 (clusterOf c)) p).core d = if d = c then (s.core c).popped rest else s.core d :=
      fun d => (core_of_cores hcores d).trans (core_modCore s c d _)
    have hself := (hcore c).trans (if_pos rfl)
    refine ⟨_, coreSyncPost_of_due hj hpop, (applySync_posted u j _ _ p).congr (fun _ _ => rfl) rfl, ?_, ?_, ?_, hms,
      fun d hd => (hcore d).trans (if_neg (Fin.val_ne_of_ne hd))⟩
    all_goals rw [hself]; rfl
  · refine coreSyncPost_of_hidden (popPost_of_hidden ?_)
    obtain ⟨m, hm, hle⟩ := hwait
    exact Bool.eq_false_iff.mpr fun h => absurd (postVisible_iff.mp h m hm) (by omega)

/-! ## Progress posts (R91, R92) -/

/-- How far the tag of a post lies past that of its counter. -/
def tagDist (old new : Word) : Nat := (new.toNat / 2 ^ 24 + 256 - old.toNat / 2 ^ 24) % 256

/-- What a counter holds after a post. -/
def progAfter (old new : Word) : Word := (progPost old new).getD old

theorem progPost_same {old new : Word} (h : tagDist old new = 0) : progPost old new =
    some (BitVec.ofNat 32 (old.toNat / 2 ^ 24 * 2 ^ 24 + max (old.toNat % 2 ^ 24) (new.toNat % 2 ^ 24))) := if_pos h

theorem progPost_later {old new : Word} (h : 1 ≤ tagDist old new) (h' : tagDist old new ≤ 127) : progPost old new = some new :=
  (if_neg (fun h0 : tagDist old new = 0 => by omega)).trans (if_pos h')

theorem progPost_stale {old new : Word} (h : 128 ≤ tagDist old new) : progPost old new = none :=
  (if_neg (fun h0 : tagDist old new = 0 => by omega)).trans (if_neg (fun h0 : tagDist old new ≤ 127 => by omega))

theorem toNat_progAfter_same {old new : Word} (h : tagDist old new = 0) : (progAfter old new).toNat =
    old.toNat / 2 ^ 24 * 2 ^ 24 + max (old.toNat % 2 ^ 24) (new.toNat % 2 ^ 24) := by
  rw [progAfter, progPost_same h, Option.getD_some, BitVec.toNat_ofNat]
  omega

theorem progAfter_later {old new : Word} (h : 1 ≤ tagDist old new) (h' : tagDist old new ≤ 127) : progAfter old new = new := by
  rw [progAfter, progPost_later h h', Option.getD_some]

theorem progAfter_stale {old new : Word} (h : 128 ≤ tagDist old new) : progAfter old new = old := by
  rw [progAfter, progPost_stale h, Option.getD_none]

/-- A post whose tag lies before another's, both at or past the counter's, leaves no trace of itself in either order. -/
theorem progAfter_of_lt {old p q : Word} (hp : tagDist old p < tagDist old q) (hq : tagDist old q ≤ 127) :
    progAfter (progAfter old p) q = q ∧ progAfter (progAfter old q) p = q := by
  have hqself : progAfter old q = q := progAfter_later (by omega) hq
  have hstale : progAfter q p = q := progAfter_stale (by unfold tagDist at *; omega)
  refine ⟨?_, by rw [hqself, hstale]⟩
  by_cases hp0 : tagDist old p = 0
  · have hn := toNat_progAfter_same hp0
    exact progAfter_later (by unfold tagDist at *; omega) (by unfold tagDist at *; omega)
  · rw [progAfter_later (old := old) (new := p) (by omega) (by omega)]
    exact progAfter_later (by unfold tagDist at *; omega) (by unfold tagDist at *; omega)

/-- Two posts at or up to 127 tags past their counter leave one value in either order. -/
theorem progAfter_comm {old p q : Word} (hp : tagDist old p ≤ 127) (hq : tagDist old q ≤ 127) :
    progAfter (progAfter old p) q = progAfter (progAfter old q) p := by
  rcases Nat.lt_trichotomy (tagDist old p) (tagDist old q) with hlt | heq | hgt
  · obtain ⟨h, h'⟩ := progAfter_of_lt hlt hq; rw [h, h']
  · refine BitVec.eq_of_toNat_eq ?_
    by_cases hp0 : tagDist old p = 0
    · have hq0 : tagDist old q = 0 := heq ▸ hp0
      have hnp := toNat_progAfter_same hp0
      have hnq := toNat_progAfter_same hq0
      rw [toNat_progAfter_same (old := progAfter old p) (by unfold tagDist at *; omega),
        toNat_progAfter_same (old := progAfter old q) (by unfold tagDist at *; omega)]
      omega
    · rw [progAfter_later (old := old) (new := p) (by omega) hp, progAfter_later (old := old) (new := q) (by omega) hq,
        toNat_progAfter_same (old := p) (by unfold tagDist at *; omega), toNat_progAfter_same (old := q) (by unfold tagDist at *; omega)]
      unfold tagDist at *; omega
  · obtain ⟨h, h'⟩ := progAfter_of_lt hgt hp; rw [h, h']

theorem applyProgress_of_live {s : State} {j : Job} {p : PendPost} {d i : Nat} {v : Word} (h : j.progTarget p.id = some (d, i))
    (hv : progPost (s.progVal d i) p.val = some v) : s.applyProgress j p = (s.setProg d i v).bumpCluster (clusterOf d) 18 1 := by
  simp only [State.applyProgress, h, hv]

theorem applyProgress_of_stale {s : State} {j : Job} {p : PendPost} {d i : Nat} (h : j.progTarget p.id = some (d, i))
    (hv : progPost (s.progVal d i) p.val = none) : s.applyProgress j p = (s.bumpCore d 10 1).bumpCluster (clusterOf d) 18 1 := by
  simp only [State.applyProgress, h, hv]

/-- A progress post leaves all but its counter and the counts of its core and cluster. -/
def ProgressKept (s t : State) : Prop :=
  t.ms = s.ms ∧ t.hub = s.hub ∧ (∀ k, (t.cluster k).holder = (s.cluster k).holder) ∧
  ∀ e, (t.core e).posts = (s.core e).posts ∧ (t.core e).commits = (s.core e).commits

theorem holder_bumpCluster (s : State) (k i n x : Nat) : ((s.bumpCluster k i n).cluster x).holder = (s.cluster x).holder := by
  by_cases h : x = k
  · subst h; simp only [cluster_bumpCluster, if_true]
  · simp only [cluster_bumpCluster, if_neg h]

theorem progVal_bumpCore (s : State) (d i n e m : Nat) : (s.bumpCore d i n).progVal e m = s.progVal e m := by
  by_cases h : e = d
  · subst h; simp only [State.progVal, State.bumpCore, core_modCore_self]
  · simp only [State.progVal, State.bumpCore, core_modCore_ne s _ h]

theorem core_bumpCore (s : State) (d i n e : Nat) :
    (s.bumpCore d i n).core e = { s.core e with ctr := ((s.bumpCore d i n).core e).ctr } := by
  by_cases h : e = d
  · subst h; simp only [State.bumpCore, core_modCore_self]
  · simp only [State.bumpCore, core_modCore_ne s _ h]

theorem coreCtr_bumpCore (s : State) (d i n : Nat) : (s.bumpCore d i n).coreCtr d i = s.coreCtr d i + BitVec.ofNat 64 n := by
  simp only [State.coreCtr, State.bumpCore, core_modCore_self, mget_mmod, if_true]

theorem coreCtr_setProg (s : State) (c i d n : Nat) (v : Word) : (s.setProg c i v).coreCtr d n = s.coreCtr d n :=
  (congrArg (fun x : Core => mget 0 x.ctr n) (core_setProg s c i d v) :)

theorem applyProgress_spec {s : State} {j : Job} {p : PendPost} {d i : Nat} (h : j.progTarget p.id = some (d, i)) :
    ProgressKept s (s.applyProgress j p) ∧
    (∀ e m, (s.applyProgress j p).progVal e m = if e = d ∧ m = i then progAfter (s.progVal d i) p.val else s.progVal e m) ∧
    (s.applyProgress j p).coreCtr d 10 = if tagDist (s.progVal d i) p.val ≤ 127 then s.coreCtr d 10 else s.coreCtr d 10 + 1 := by
  by_cases hd : tagDist (s.progVal d i) p.val ≤ 127
  · have hlive : progPost (s.progVal d i) p.val = some (progAfter (s.progVal d i) p.val) := by
      by_cases h0 : tagDist (s.progVal d i) p.val = 0
      · rw [progAfter, progPost_same h0]; rfl
      · rw [progAfter, progPost_later (by omega) hd]; rfl
    rw [applyProgress_of_live h hlive, if_pos hd]
    refine ⟨⟨rfl, rfl, holder_bumpCluster _ _ 18 1, fun e => ?_⟩, fun e m => progVal_setProg_eq s d i e m _,
      coreCtr_setProg s d i d 10 _⟩
    have hset := core_setProg s d i e (progAfter (s.progVal d i) p.val)
    exact ⟨(congrArg Core.posts hset :), (congrArg Core.commits hset :)⟩
  · have hstale := progPost_stale (old := s.progVal d i) (new := p.val) (by omega)
    rw [applyProgress_of_stale h hstale, if_neg hd, progAfter_stale (by omega)]
    refine ⟨⟨rfl, rfl, holder_bumpCluster _ _ 18 1, fun e => ?_⟩, fun e m => ?_, coreCtr_bumpCore s d 10 1⟩
    · have hbump := core_bumpCore s d 10 1 e
      exact ⟨(congrArg Core.posts hbump :), (congrArg Core.commits hbump :)⟩
    · refine (progVal_bumpCore s d 10 1 e m).trans ?_
      split
      · next heq => rw [heq.1, heq.2]
      · rfl

theorem coreProgressPost_of_due {s : State} {c : CoreId} {j : Job} {p : PendPost} {x : Core} (hj : s.postJob c = some j)
    (hp : (s.core c).popPost 2 = some (p, x)) : exec (.progressPostEffect c) s = .next ((s.modCore c (fun _ => x)).applyProgress j p) := by
  show Host.Outcome.next (s.coreProgressPost c) = _
  simp only [State.coreProgressPost, hj, hp]

theorem coreProgressPost_of_hidden {s : State} {c : CoreId} (hp : (s.core c).popPost 2 = none) :
    exec (.progressPostEffect c) s = .next s := by
  show Host.Outcome.next (s.coreProgressPost c) = _
  unfold State.coreProgressPost
  rw [hp]
  split <;> simp_all

/-- What the oldest progress post of a core does once it is due. -/
theorem progressPost_of_due {s : State} {c : CoreId} {j : Job} {p : PendPost} {rest : List PendPost} {d i : Nat}
    (hj : s.postJob c = some j) (hdue : (s.core c).postVisible 2 = true) (hp : takePost 2 (s.core c).posts = some (p, rest))
    (ht : j.progTarget p.id = some (d, i)) :
    ∃ t, exec (.progressPostEffect c) s = .next t ∧ t.ms = s.ms ∧ t.hub = s.hub ∧
      (∀ k, (t.cluster k).holder = (s.cluster k).holder) ∧ (t.core c).posts = rest ∧
      (∀ e, e ≠ c.val → (t.core e).posts = (s.core e).posts ∧ (t.core e).commits = (s.core e).commits) ∧
      (∀ e m, t.progVal e m = if e = d ∧ m = i then progAfter (s.progVal d i) p.val else s.progVal e m) ∧
      t.coreCtr d 10 = if tagDist (s.progVal d i) p.val ≤ 127 then s.coreCtr d 10 else s.coreCtr d 10 + 1 := by
  have hexec := coreProgressPost_of_due hj (popPost_of_visible hdue hp)
  let u := s.modCore c (fun _ => (s.core c).popped rest)
  have hself : u.core c = (s.core c).popped rest := core_modCore_self s c _
  have hother : ∀ e, e ≠ c.val → u.core e = s.core e := fun e he => core_modCore_ne s _ he
  have hprog : ∀ e m, u.progVal e m = s.progVal e m := fun e m => by
    by_cases he : e = c
    · rw [he]; exact (congrArg (fun x : Core => mget 0 x.progress m) hself :)
    · exact (congrArg (fun x : Core => mget 0 x.progress m) (hother e he) :)
  have hctr : u.coreCtr d 10 = s.coreCtr d 10 := by
    by_cases he : d = c
    · rw [he]; exact (congrArg (fun x : Core => mget 0 x.ctr 10) hself :)
    · exact (congrArg (fun x : Core => mget 0 x.ctr 10) (hother d he) :)
  obtain ⟨⟨hms, hhub, hholder, hcore⟩, hval, hcount⟩ := applyProgress_spec (s := u) ht
  rw [hprog d i, hctr] at hcount
  refine ⟨_, hexec, hms, hhub, hholder, ?_, fun e he => ?_, fun e m => ?_, hcount⟩
  · exact (hcore c).1.trans (congrArg Core.posts hself)
  · exact ⟨(hcore e).1.trans (congrArg Core.posts (hother e he)), (hcore e).2.trans (congrArg Core.commits (hother e he))⟩
  · rw [hval e m, hprog d i, hprog e m]

/-- Settles O14: a post's effect is `progAfter` of its counter, which two posts within reach of it apply in either order. -/
theorem progressPosts : Obligations.ProgressPosts := by
  unfold Obligations.ProgressPosts
  refine ⟨fun c s j p rest x hj hp hx => ?_, ?_⟩
  · intro d i cTag cRows pTag pRows dist
    refine ⟨fun hwait => coreProgressPost_of_hidden (popPost_of_hidden hwait), fun hdue => ?_⟩
    obtain ⟨t, hexec, hms, hhub, -, hposts, -, hval, hcount⟩ := progressPost_of_due hj hdue hp (progTarget_of_rank hx)
    have hself : t.progVal d i = progAfter (s.progVal d i) p.val := (hval d i).trans (if_pos ⟨rfl, rfl⟩)
    refine ⟨t, hexec, fun e m hne => (hval e m).trans (if_neg fun h => hne (Prod.ext h.1 h.2)), hposts, hms, hhub,
      fun h0 => ⟨?_, hcount.trans (if_pos (show dist ≤ 127 by omega))⟩, fun h => ⟨hself.trans (progAfter_later h.1 h.2), hcount.trans (if_pos h.2)⟩,
      fun h => ⟨hself.trans (progAfter_stale h), hcount.trans (if_neg (show ¬ dist ≤ 127 by omega))⟩⟩
    rw [hself]; exact toNat_progAfter_same h0
  · intro c c' s j j' p p' rest rest' d i hne hdue hdue' hj hp ht hj' hp' ht' hnear
    have hne : c'.val ≠ c.val := Fin.val_ne_of_ne hne.symm
    have hstep : ∀ (c c' : CoreId) (j j' : Job) (p p' : PendPost) (rest rest' : List PendPost), c'.val ≠ c.val →
        (s.core c).postVisible 2 = true → (s.core c').postVisible 2 = true → s.postJob c = some j →
        takePost 2 (s.core c).posts = some (p, rest) → j.progTarget p.id = some (d, i) → s.postJob c' = some j' →
        takePost 2 (s.core c').posts = some (p', rest') → j'.progTarget p'.id = some (d, i) →
        ∃ a b, exec (.progressPostEffect c) s = .next a ∧ exec (.progressPostEffect c') a = .next b ∧
          b.progVal d i = progAfter (progAfter (s.progVal d i) p.val) p'.val ∧ (b.core c).posts = rest ∧
          ∀ e m, (e, m) ≠ (d, i) → b.progVal e m = s.progVal e m := by
      intro c c' j j' p p' rest rest' hne hdue hdue' hj hp ht hj' hp' ht'
      obtain ⟨a, hexec, -, hhub, hholder, hposts, hother, hval, -⟩ := progressPost_of_due hj hdue hp ht
      obtain ⟨hkeep, hcommits⟩ := hother c' hne
      have hja : a.postJob c' = some j' := by
        simp only [State.postJob, State.holderJob, State.job?, hhub, hholder] at hj' ⊢
        exact hj'
      have hduea : (a.core c').postVisible 2 = true := by
        simp only [Core.postVisible, hcommits, hkeep] at hdue' ⊢
        exact hdue'
      obtain ⟨b, hexecb, -, -, -, -, hotherb, hvalb, -⟩ := progressPost_of_due hja hduea (by rw [hkeep]; exact hp') ht'
      have hself : a.progVal d i = progAfter (s.progVal d i) p.val := (hval d i).trans (if_pos ⟨rfl, rfl⟩)
      refine ⟨a, b, hexec, hexecb, ?_, (hotherb c hne.symm).1.trans hposts, fun e m h => ?_⟩
      · rw [hvalb, if_pos ⟨rfl, rfl⟩, hself]
      · have hn : ¬ (e = d ∧ m = i) := fun h' => h (Prod.ext h'.1 h'.2)
        rw [hvalb, if_neg hn, hval, if_neg hn]
    obtain ⟨a, b, ha, hb, hab, hposts, hrest⟩ := hstep c c' j j' p p' rest rest' hne hdue hdue' hj hp ht hj' hp' ht'
    obtain ⟨a', b', ha', hb', hab', hposts', hrest'⟩ := hstep c' c j' j p' p rest' rest hne.symm hdue' hdue hj' hp' ht' hj hp ht
    refine ⟨a, b, a', b', ha, hb, ha', hb', ?_, hposts, hposts', fun e m h => ⟨hrest e m h, hrest' e m h⟩⟩
    rw [hab, hab']
    exact progAfter_comm (hnear p.val (by simp)) (hnear p'.val (by simp))

end Sys2Proof.Machine

/-! PROOFS. Barrier channels (R95–R97, R349, R350): arrivals, their ARRIVE records, memberships, and the release of a round. -/

namespace Sys2Proof.Machine

/-! ## A channel of a job -/

theorem barrier?_chan {j : Job} {n : Nat} {b : Barrier} (h : j.barrier? n = some b) : b.chan = n := by
  simpa using List.find?_some h

theorem barrier?_map {j : Job} {n chan : Nat} {b : Barrier} {f : Barrier → Barrier} (hf : ∀ x, (f x).chan = x.chan)
    (h : j.barrier? n = some b) :
    ({ j with barriers := j.barriers.map (fun b => if b.chan = chan then f b else b) } : Job).barrier? n =
      some (if n = chan then f b else b) := by
  have hchan : (fun b : Barrier => b.chan == n) ∘ (fun b => if b.chan = chan then f b else b) = fun b => b.chan == n := by
    funext x; simp only [Function.comp]; split <;> simp [hf]
  have hb := barrier?_chan h
  simp only [Job.barrier?] at h ⊢
  rw [List.find?_map, hchan, h, Option.map_some, hb]

theorem job?_modBarrier {s : State} {id : JobId} {j : Job} (h : s.job? id = some j) (chan : Nat) (f : Barrier → Barrier) :
    (s.modBarrier id chan f).job? id =
      some { j with barriers := j.barriers.map (fun b => if b.chan = chan then f b else b) } := by
  rw [State.modBarrier, job?_modJob s id id (fun j => { j with barriers := j.barriers.map (fun b => if b.chan = chan then f b else b) })
    fun _ => rfl, h, Option.map_some, if_pos (job?_some s h).2]

theorem job?_of_hub {s t : State} (h : t.hub = s.hub) (id : JobId) : t.job? id = s.job? id := by simp only [State.job?, h]

/-! ## What an arrival sends (R350) -/

/-- A step of the exchange barrier of a channel: the network and the channel's round change; the arrivals stay, and records that
wait at the ports stay in front. -/
def ExchangeStep (job : JobId) (chan : Nat) (s t : State) : Prop :=
  t = { s with net := t.net, hub := { s.hub with jobs := t.hub.jobs } } ∧
  (∀ p, (t.port p).state = (s.port p).state ∧ (∃ more, (t.port p).ctrlOut = (s.port p).ctrlOut ++ more) ∧
    ∃ more, (t.port p).ctrlHeld = (s.port p).ctrlHeld ++ more) ∧
  ∀ j b, s.job? job = some j → j.barrier? chan = some b →
    ∃ j', t.job? job = some j' ∧ ∃ b', j'.barrier? chan = some b' ∧ b'.arrived = b.arrived

theorem ExchangeStep.refl (job : JobId) (chan : Nat) (s : State) : ExchangeStep job chan s s :=
  ⟨rfl, fun _ => ⟨rfl, ⟨[], by simp⟩, [], by simp⟩, fun j b hj hb => ⟨j, hj, b, hb, rfl⟩⟩

theorem ExchangeStep.trans {job : JobId} {chan : Nat} {s t u : State} (h : ExchangeStep job chan s t) (h' : ExchangeStep job chan t u) :
    ExchangeStep job chan s u := by
  obtain ⟨hst, hport, hbar⟩ := h
  obtain ⟨hst', hport', hbar'⟩ := h'
  refine ⟨?_, fun p => ?_, fun j b hj hb => ?_⟩
  · rw [hst']; generalize u.net = n; generalize u.hub.jobs = js; rw [hst]
  · obtain ⟨hs, ⟨m, hm⟩, m', hm'⟩ := hport p
    obtain ⟨hs', ⟨n, hn⟩, n', hn'⟩ := hport' p
    exact ⟨hs'.trans hs, ⟨m ++ n, by rw [hn, hm, List.append_assoc]⟩, m' ++ n', by rw [hn', hm', List.append_assoc]⟩
  · obtain ⟨j', hj', b', hb', harr⟩ := hbar j b hj hb
    obtain ⟨j'', hj'', b'', hb'', harr'⟩ := hbar' j' b' hj' hb'
    exact ⟨j'', hj'', b'', hb'', harr'.trans harr⟩

theorem ExchangeStep.foldl {α : Type} {job : JobId} {chan : Nat} (f : State → α → State)
    (h : ∀ s a, ExchangeStep job chan s (f s a)) (l : List α) (s : State) : ExchangeStep job chan s (l.foldl f s) := by
  induction l generalizing s with
  | nil => exact ExchangeStep.refl job chan s
  | cons a l ih => exact (h s a).trans (ih _)

theorem port_sendCtrl (s : State) (p : Nat) (r : BitVec 256) :
    ((s.port p).state = .up ∨ (s.port p).state = .draining → ((s.sendCtrl p r).port p).ctrlOut = (s.port p).ctrlOut ++ [r]) ∧
    (¬ ((s.port p).state = .up ∨ (s.port p).state = .draining) → ((s.sendCtrl p r).port p).ctrlHeld = (s.port p).ctrlHeld ++ [r]) := by
  rw [sendCtrl_eq, port_modPort, if_pos rfl]
  exact ⟨fun h => by rw [if_pos h], fun h => by rw [if_neg h]⟩

theorem exchangeStep_sendCtrl (job : JobId) (chan : Nat) (s : State) (p : Nat) (r : BitVec 256) :
    ExchangeStep job chan s (s.sendCtrl p r) := by
  rw [sendCtrl_eq]
  refine ⟨rfl, fun q => ?_, fun j b hj hb => ⟨j, hj, b, hb, rfl⟩⟩
  rw [port_modPort]
  split
  · next hq =>
    subst hq
    split
    · exact ⟨rfl, ⟨[r], rfl⟩, [], (List.append_nil _).symm⟩
    · exact ⟨rfl, ⟨[], (List.append_nil _).symm⟩, [r], rfl⟩
  · exact ⟨rfl, ⟨[], (List.append_nil _).symm⟩, [], (List.append_nil _).symm⟩

theorem exchangeStep_modBarrier (job : JobId) (chan : Nat) (s : State) (f : Barrier → Barrier)
    (hf : ∀ b, (f b).chan = b.chan ∧ (f b).arrived = b.arrived) : ExchangeStep job chan s (s.modBarrier job chan f) := by
  refine ⟨rfl, fun _ => ⟨rfl, ⟨[], (List.append_nil _).symm⟩, [], (List.append_nil _).symm⟩, fun j b hj hb => ?_⟩
  exact ⟨_, job?_modBarrier hj chan f, _, barrier?_map (fun x => (hf x).1) hb, by rw [if_pos rfl]; exact (hf b).2⟩

theorem exchangeStep_rounds (job : JobId) (chan : Nat) (s : State) :
    ExchangeStep job chan s (s.withNet (fun n => { n with xbarRounds := n.xbarRounds + 1 })) :=
  ⟨rfl, fun _ => ⟨rfl, ⟨[], (List.append_nil _).symm⟩, [], (List.append_nil _).symm⟩, fun j b hj hb => ⟨j, hj, b, hb, rfl⟩⟩

theorem exchangeStep_releaseLevel (job : JobId) (c chan e l : Nat) (round : Word) (s : State) :
    ExchangeStep job c s (s.xReleaseLevel e l chan round) := by
  have hsend : ∀ (s : State) p r, ExchangeStep job c s (s.sendCtrl p r) := exchangeStep_sendCtrl job c
  unfold State.xReleaseLevel
  split
  · exact ExchangeStep.refl job c s
  · simp only []
    split
    · exact ExchangeStep.foldl _ (fun _ _ => hsend _ _ _) _ s
    · by_cases h3 : 3 ≤ rtSize e l
      · rw [if_pos h3, if_pos (by omega)]; exact (hsend s _ _).trans (hsend _ _ _)
      · rw [if_neg h3]
        split
        · exact hsend s _ _
        · exact ExchangeStep.refl job c s

theorem exchangeStep_release (job : JobId) (chan e top : Nat) (round : Word) (s : State) :
    ExchangeStep job chan s (s.xRelease job chan e top round) :=
  (ExchangeStep.foldl _ (fun t l => exchangeStep_releaseLevel job chan chan e l round t) _ s).trans
    ((exchangeStep_modBarrier job chan _ (fun b => { b with xreleased := true }) fun _ => ⟨rfl, rfl⟩).trans (exchangeStep_rounds job chan _))

theorem exchangeStep_heldRelease (job : JobId) (chan e : Nat) (round : Word) (s : State) :
    ExchangeStep job chan s (s.xHeldRelease job chan e round) := by
  unfold State.xHeldRelease
  split
  · exact exchangeStep_release job chan e _ round s
  · exact ExchangeStep.refl job chan s

/-- What follows the ARRIVE of a die: its round is marked as sent, and a RELEASE that was held acts. -/
theorem exchangeStep_afterSend (job : JobId) (chan e : Nat) (round : Word) (s : State) :
    ExchangeStep job chan s ((s.modBarrier job chan (fun b => { b with xsent := true })).xHeldRelease job chan e round) :=
  (exchangeStep_modBarrier job chan s (fun b => { b with xsent := true }) fun _ => ⟨rfl, rfl⟩).trans (exchangeStep_heldRelease job chan e round _)

theorem exchangeStep_arrive (job : JobId) (chan : Nat) (s : State) : ExchangeStep job chan s (s.xArrive job chan) := by
  have hrefl := ExchangeStep.refl job chan s
  unfold State.xArrive
  split
  · exact hrefl
  · split
    · exact hrefl
    · split
      · exact hrefl
      · split
        · exact hrefl
        · simp only []
          split
          · exact exchangeStep_release job chan _ _ _ s
          · split
            · exact hrefl
            · exact (exchangeStep_sendCtrl job chan s _ _).trans (exchangeStep_afterSend job chan _ _ _)

section
variable {s : State} {job : JobId} {chan : Nat} {j : Job} {b : Barrier} (hj : s.job? job = some j) (hb : j.barrier? chan = some b)
include hj hb

theorem xArrive_of_unbound (hx : b.xbind = none) : s.xArrive job chan = s := by
  simp only [State.xArrive, hj, hb, hx]

/-- The last arrival of a die that is a member of a level sends ARRIVE toward rank 0. -/
theorem xArrive_of_member {g top l : Nat} (hx : b.xbind = some (g, top)) (hfull : b.full j.team.length = true)
    (hrel : b.xreleased = false) (hsent : b.xsent = false)
    (hl : s.xFront (s.routeEntry g) chan (b.xround + 1) (xLevels (s.routeEntry g) top) = some l) (hr : rtRank (s.routeEntry g) l 0 ≠ 0) :
    let e := s.routeEntry g
    s.xArrive job chan = ((s.sendCtrl (rtPortTo e l (rtRank e l 0) 0) (xrecord chan 0 l (rtTag e) (b.xround + 1))).modBarrier job chan
      (fun b => { b with xsent := true })).xHeldRelease job chan e (b.xround + 1) := by
  simp only [State.xArrive, hj, hb, hx, hfull, hrel, hsent, hl, if_neg hr, Bool.not_true, Bool.or_self, Bool.false_eq_true, if_false]

end

/-! ## BAR and BCFG -/

/-- The participant joins those that have arrived. -/
def Barrier.joined (rank who : Nat) (b : Barrier) : Barrier :=
  { b with arrived := if b.arrived.contains (rank, who) then b.arrived else b.arrived ++ [(rank, who)] }

theorem barArrive_eq (s : State) (job : JobId) (chan rank who : Nat) :
    s.barArrive job chan rank who = (s.modBarrier job chan (Barrier.joined rank who)).xArrive job chan := rfl

theorem Barrier.mem_joined (rank who : Nat) (b : Barrier) :
    (rank, who) ∈ (b.joined rank who).arrived ∧ ∀ a ∈ b.arrived, a ∈ (b.joined rank who).arrived := by
  unfold Barrier.joined
  by_cases h : b.arrived.contains (rank, who) = true
  · simp only [if_pos h]; exact ⟨by simpa using h, fun a ha => ha⟩
  · simp only [if_neg h]; exact ⟨by simp, fun a ha => List.mem_append_left _ ha⟩

theorem Barrier.joined_of_new {rank who : Nat} {b : Barrier} (h : (rank, who) ∉ b.arrived) :
    b.joined rank who = { b with arrived := b.arrived ++ [(rank, who)] } := by
  rw [Barrier.joined, if_neg (by simpa using h)]

theorem chanOperand_of_some {j : Job} {a : Quad} {b : Barrier} (h : j.barrier? a.toNat = some b) : chanOperand j a = some (b.chan, 0) := by
  simp only [chanOperand, h, Option.map_some]

theorem exec_seqBar {s : State} {k : ClusterId} {j : Job} {ga : BitVec 5} {b : Barrier} (hj : s.seqJob k = some j)
    (hb : j.barrier? (s.gReg k ga).toNat = some b) (gd gb : BitVec 5) : exec (.seqBar k gd ga gb 0) s =
      .next (if b.isMember (rankIn j.team k) 16 = true then
        (s.seqAdvance k (encG 0x26 gd ga gb 0) 0 0 [waitMark] ((s.seq k).pc + 4) (fun q => { q with stall := .bar b.chan })).barArrive
          j.id b.chan (rankIn j.team k) 16 else s.seqFault k stIllegal) := by
  refine (congrArg Host.Outcome.next (withCounter_of_some hj (chanOperand_of_some hb) _)).trans ?_
  have hb' : j.barrier? b.chan = some b := (barrier?_chan hb).symm ▸ hb
  simp only [hb']

theorem exec_bcfg {s : State} {k : ClusterId} {j : Job} {ga : BitVec 5} {b : Barrier} (hj : s.seqJob k = some j)
    (hb : j.barrier? (s.gReg k ga).toNat = some b) (gd gb : BitVec 5) : exec (.bcfg k gd ga gb 0) s =
      .next (if b.arrived.isEmpty then
        (s.seqNext k (encG 0x27 gd ga gb 0) (fun q => q)).modBarrier j.id b.chan (fun b => { b with
          member := mset b.member (rankIn j.team k) ((s.gReg k gb).truncate 17 &&& (1#1 ++ s.coreMask k)) })
        else s.seqFault k stIllegal) := by
  refine (congrArg Host.Outcome.next (withCounter_of_some hj (chanOperand_of_some hb) _)).trans ?_
  have hb' : j.barrier? b.chan = some b := (barrier?_chan hb).symm ▸ hb
  simp only [hb']

/-! ## The release of a round (R97) -/

/-- Where a step keeps P and takes P to Q at one member of the list, and keeps Q, a fold takes P to Q. -/
theorem foldl_reaches {σ α : Type} {f : σ → α → σ} {P Q : σ → Prop} (hP : ∀ t a, P t → P (f t a)) (hQ : ∀ t a, Q t → Q (f t a)) {a : α}
    (ha : ∀ t, P t → Q (f t a)) {l : List α} {s : σ} (hmem : a ∈ l) (hs : P s) : Q (l.foldl f s) := by
  have hkeep : ∀ (l : List α) (t : σ), Q t → Q (l.foldl f t) := fun l => by
    induction l with
    | nil => exact fun _ h => h
    | cons b l ih => exact fun t h => ih _ (hQ t b h)
  induction l generalizing s with
  | nil => cases hmem
  | cons b l ih =>
    rcases List.mem_cons.mp hmem with rfl | hmem
    · exact hkeep l _ (ha s hs)
    · exact ih hmem (hP s b hs)

/-- A BAR entry that has arrived at the channel is released. -/
def releasedEntry (chan : Nat) (e : QEntry) : QEntry :=
  if e.arrived && !e.released && decide (e.phase = .queued) && decide (dOpc e.desc.toNat = 0x32) && decide (bChan e.desc.toNat = chan)
  then { e with released := true, phase := .done 0 } else e

theorem releasedEntry_of_waiting {chan : Nat} {q : QEntry} (ha : q.arrived = true) (hr : q.released = false) (hp : q.phase = .queued)
    (ho : dOpc q.d = 0x32) (hc : bChan q.d = chan) : releasedEntry chan q = { q with released := true, phase := .done 0 } := by
  refine if_pos ?_
  rw [QEntry.d] at ho hc
  simp only [ha, hr, hp, ho, hc, Bool.not_false, decide_true, Bool.and_self]

theorem releasedEntry_idem (chan : Nat) (q : QEntry) : releasedEntry chan (releasedEntry chan q) = releasedEntry chan q := by
  by_cases h : (q.arrived && !q.released && decide (q.phase = .queued) && decide (dOpc q.desc.toNat = 0x32) &&
      decide (bChan q.desc.toNat = chan)) = true
  · have hq : releasedEntry chan q = { q with released := true, phase := .done 0 } := if_pos h
    rw [hq]; exact if_neg (by simp)
  · have hq : releasedEntry chan q = q := if_neg h
    rw [hq, hq]

/-- The release of the sequencer of cluster k. -/
def State.releaseSeq (s : State) (k : Nat) : State :=
  ((s.setSeq k { s.seq k with stall := .none }).bumpClusterFree k 2).sampleDone k waitMark

/-- The release of core c. -/
def State.releaseCore (s : State) (chan c : Nat) : State :=
  (s.bumpCoreFree c 6).modCore c (fun x => { x with queue := x.queue.map (releasedEntry chan) })

/-- The release of one participant. -/
def releaseArrival (team : List Nat) (chan : Nat) (t : State) (a : Nat × Nat) : State :=
  match team[a.1]? with
  | none => t
  | some k => if a.2 = 16 then (match (t.seq k).stall with
      | .bar c => if c = chan then t.releaseSeq k else t
      | _ => t) else t.releaseCore chan (16 * k + a.2)

theorem releaseSeq_spec (s : State) (k : Nat) : SameRest s (s.releaseSeq k) ∧ (s.releaseSeq k).cores = s.cores ∧
    (s.releaseSeq k).seq k = { s.seq k with stall := .none } ∧ ∀ x, x ≠ k → (s.releaseSeq k).seq x = s.seq x := by
  obtain ⟨⟨hrest, hcores, hother, -, -⟩, hseq⟩ := seqResume_spec s k (fun q => q)
  exact ⟨hrest, hcores, hseq, fun x hx => congrArg Cluster.seq (hother x hx)⟩

theorem releaseCore_queue (s : State) (chan c d : Nat) : ((s.releaseCore chan c).core d).queue =
    if d = c then (s.core c).queue.map (releasedEntry chan) else (s.core d).queue := by
  have hfree : ∀ e, ((s.bumpCoreFree c 6).core e).queue = (s.core e).queue := fun e => by
    rw [State.bumpCoreFree, core_modCore]; split
    · next h => rw [h]; rfl
    · rfl
  rw [State.releaseCore, core_modCore]
  split
  · exact congrArg (List.map (releasedEntry chan)) (hfree c)
  · exact hfree d

section
variable (team : List Nat) (chan : Nat)

/-- What one release does: it ends at most one stall, and marks at most the entries of one core. -/
theorem releaseArrival_spec (t : State) (a : Nat × Nat) : SameRest t (releaseArrival team chan t a) ∧
    (∀ k, ((releaseArrival team chan t a).seq k).stall = (t.seq k).stall ∨ ((releaseArrival team chan t a).seq k).stall = .none) ∧
    ∀ c, ((releaseArrival team chan t a).core c).queue = (t.core c).queue ∨
      ((releaseArrival team chan t a).core c).queue = (t.core c).queue.map (releasedEntry chan) := by
  have hrefl : SameRest t t ∧ (∀ k, (t.seq k).stall = (t.seq k).stall ∨ (t.seq k).stall = .none) ∧
      ∀ c, (t.core c).queue = (t.core c).queue ∨ (t.core c).queue = (t.core c).queue.map (releasedEntry chan) :=
    ⟨SameRest.refl t, fun _ => .inl rfl, fun _ => .inl rfl⟩
  unfold releaseArrival
  split
  · exact hrefl
  next k hk =>
    split
    · split
      · split
        · obtain ⟨hrest, hcores, hself, hother⟩ := releaseSeq_spec t k
          refine ⟨hrest, fun x => ?_, fun c => .inl (by rw [core_of_cores hcores])⟩
          by_cases hx : x = k
          · rw [hx, hself]; exact .inr rfl
          · rw [hother x hx]; exact .inl rfl
        · exact hrefl
      · exact hrefl
    · refine ⟨SameRest.refl t, fun _ => .inl rfl, fun c => ?_⟩
      rw [releaseCore_queue]
      split
      · next h => rw [h]; exact .inr rfl
      · exact .inl rfl

theorem releaseArrival_seq {t : State} {r k : Nat} (hk : team[r]? = some k) (h : (t.seq k).stall = .bar chan ∨ (t.seq k).stall = .none) :
    ((releaseArrival team chan t (r, 16)).seq k).stall = .none := by
  rcases h with h | h
  · simp only [releaseArrival, hk, if_true, h, (releaseSeq_spec t k).2.2.1]
  · simp only [releaseArrival, hk, if_true, h]

theorem releaseArrival_core {t : State} {r w k : Nat} (hk : team[r]? = some k) (hw : w < 16) :
    ((releaseArrival team chan t (r, w)).core (16 * k + w)).queue = (t.core (16 * k + w)).queue.map (releasedEntry chan) := by
  have hstep : releaseArrival team chan t (r, w) = t.releaseCore chan (16 * k + w) := by
    simp only [releaseArrival, hk, if_neg (show w ≠ 16 by omega)]
  rw [hstep, releaseCore_queue, if_pos rfl]

theorem foldl_releaseArrival_rest (l : List (Nat × Nat)) (s : State) : SameRest s (l.foldl (releaseArrival team chan) s) := by
  induction l generalizing s with
  | nil => exact SameRest.refl s
  | cons a l ih => exact (releaseArrival_spec team chan s a).1.trans (ih _)

theorem foldl_releaseArrival_seq {l : List (Nat × Nat)} {s : State} {r k : Nat} (hmem : (r, 16) ∈ l) (hk : team[r]? = some k)
    (hs : (s.seq k).stall = .bar chan) : ((l.foldl (releaseArrival team chan) s).seq k).stall = .none := by
  refine foldl_reaches (P := fun t : State => (t.seq k).stall = .bar chan ∨ (t.seq k).stall = .none) (Q := fun t : State => (t.seq k).stall = .none)
    (fun t a h => ?_) (fun t a h => ?_) (fun t h => releaseArrival_seq team chan hk h) hmem (.inl hs)
  · rcases (releaseArrival_spec team chan t a).2.1 k with h' | h'
    · rw [h']; exact h
    · exact .inr h'
  · rcases (releaseArrival_spec team chan t a).2.1 k with h' | h'
    · rw [h']; exact h
    · exact h'

theorem foldl_releaseArrival_core {l : List (Nat × Nat)} {s : State} {r w k : Nat} {q : QEntry} (hmem : (r, w) ∈ l) (hw : w < 16)
    (hk : team[r]? = some k) (hq : q ∈ (s.core (16 * k + w)).queue) :
    releasedEntry chan q ∈ ((l.foldl (releaseArrival team chan) s).core (16 * k + w)).queue := by
  refine foldl_reaches
    (P := fun t : State => q ∈ (t.core (16 * k + w)).queue ∨ releasedEntry chan q ∈ (t.core (16 * k + w)).queue)
    (Q := fun t : State => releasedEntry chan q ∈ (t.core (16 * k + w)).queue) (fun t a h => ?_) (fun t a h => ?_) (fun t h => ?_) hmem (.inl hq)
  · rcases (releaseArrival_spec team chan t a).2.2 (16 * k + w) with h' | h' <;> rw [h']
    · exact h
    · exact .inr (h.elim (fun h => List.mem_map.mpr ⟨_, h, rfl⟩) fun h => List.mem_map.mpr ⟨_, h, releasedEntry_idem chan q⟩)
  · rcases (releaseArrival_spec team chan t a).2.2 (16 * k + w) with h' | h' <;> rw [h']
    · exact h
    · exact List.mem_map.mpr ⟨_, h, releasedEntry_idem chan q⟩
  · rw [releaseArrival_core team chan hk hw]
    exact h.elim (fun h => List.mem_map.mpr ⟨_, h, rfl⟩) fun h => List.mem_map.mpr ⟨_, h, releasedEntry_idem chan q⟩

end

/-- The channel once its round is over, ready for the next. -/
def Barrier.renewed (b : Barrier) : Barrier :=
  { b with arrived := [], xround := if b.xbind.isSome then b.xround + 1 else b.xround, xsent := false, xreleased := false }

theorem seq_foldl_bump (i : Nat) (l : List Nat) (s : State) :
    SameRest s (l.foldl (fun t k => t.bumpCluster k i 1) s) ∧ (l.foldl (fun t k => t.bumpCluster k i 1) s).cores = s.cores ∧
    ∀ x, (l.foldl (fun t k => t.bumpCluster k i 1) s).seq x = s.seq x := by
  induction l generalizing s with
  | nil => exact ⟨SameRest.refl s, rfl, fun _ => rfl⟩
  | cons k l ih =>
    obtain ⟨hrest, hcores, hseq⟩ := ih (s.bumpCluster k i 1)
    exact ⟨(SameRest.modCluster s k _).trans hrest, hcores, fun x => (hseq x).trans (seq_bumpCluster s k x i 1)⟩

/-- A channel that is ready renews its round and releases those that arrived, in turn. -/
theorem barRelease_of_ready {s : State} {job : JobId} {chan : Nat} {j : Job} {b : Barrier} (hj : s.job? job = some j)
    (hb : j.barrier? chan = some b) (h : b.ready j.team.length = true) :
    ∃ u, s.barRelease job chan = b.arrived.foldl (releaseArrival j.team chan) u ∧ u.ms = s.ms ∧ u.cores = s.cores ∧
      (∀ k, u.seq k = s.seq k) ∧ u.job? job = (s.modBarrier job chan Barrier.renewed).job? job := by
  let v := s.modBarrier job chan Barrier.renewed
  let w : State := match b.xbind with
    | some (g, _) => v.withNet (fun n => { n with xheld := n.xheld.filter (fun x =>
        !decide (x.tag = rtTag (v.routeEntry g) ∧ x.chan = chan ∧ x.round = b.xround + 1)) })
    | none => v
  have hw : w.ms = s.ms ∧ w.cores = s.cores ∧ w.clusters = s.clusters ∧ w.hub = v.hub := by
    simp only [w]; split <;> exact ⟨rfl, rfl, rfl, rfl⟩
  obtain ⟨hms, hcores, hcl, hhub⟩ := hw
  obtain ⟨hrest, hco, hseq⟩ := seq_foldl_bump 19 j.team w
  refine ⟨j.team.foldl (fun t k => t.bumpCluster k 19 1) w, ?_, hrest.1.trans hms, hco.trans hcores,
    fun k => (hseq k).trans (congrArg Cluster.seq (cluster_of_clusters hcl k)), job?_of_hub (hrest.2.2.2.1.trans hhub) job⟩
  simp only [State.barRelease, hj, hb, h, Bool.not_true, Bool.false_eq_true, if_false]
  rfl

theorem ExchangeStep.kept {job : JobId} {chan : Nat} {s t : State} (h : ExchangeStep job chan s t) :
    t.ms = s.ms ∧ t.cores = s.cores ∧ ∀ k, t.seq k = s.seq k := by
  rw [h.1]; exact ⟨rfl, rfl, fun _ => rfl⟩

theorem SameRest.job? {s t : State} (h : SameRest s t) (id : JobId) : t.job? id = s.job? id := job?_of_hub h.2.2.2.1 id

theorem barrierRelease_of_running {s : State} {job : JobId} {j : Job} (hj : s.job? job = some j) (hsweep : s.hub.sweeping = false)
    (hp : j.phase = .running ∨ j.phase = .stopping) (chan : Fin 16) : exec (.barrierRelease job chan) s = .next (s.barRelease job chan) := by
  show execBarrierRelease job chan s = _
  simp only [execBarrierRelease, hj, hsweep, hp, and_self, if_true]

theorem Barrier.ready_of_full {b : Barrier} {n : Nat} (ha : b.arrived ≠ []) (hx : b.xbind = none ∨ b.xreleased = true)
    (hall : ∀ r w, r < n → w < 17 → b.isMember r w = true → (r, w) ∈ b.arrived) : b.ready n = true := by
  have hfull : b.full n = true := by
    simp only [Barrier.full, List.all_eq_true, List.mem_range, Bool.or_eq_true, Bool.not_eq_true']
    intro r hr w hw
    by_cases hm : b.isMember r w = true
    · exact .inr (by simpa using hall r w hr hw hm)
    · exact .inl (by simpa using hm)
  have hbound : (b.xbind.isNone || b.xreleased) = true := by
    rcases hx with h | h <;> simp [h]
  simp [Barrier.ready, ha, hfull, hbound]

/-- Settles O15: an arrival joins its channel and may send ARRIVE; a release renews the channel and frees those that arrived. -/
theorem barrierChannels : Obligations.BarrierChannels := by
  unfold Obligations.BarrierChannels
  refine ⟨fun k gd ga gb s j b hj hjob hb => ?_, fun job chan s j b hjob hsweep hphase hb harr hx hall => ?_⟩
  · intro r m
    have hbc : j.barrier? b.chan = some b := (barrier?_chan hb).symm ▸ hb
    refine ⟨fun hmem => ?_, fun hmem => (exec_seqBar hj hb gd gb).trans (congrArg _ (if_neg (by rw [hmem]; decide))),
      fun harr => ?_, fun harr => (exec_bcfg hj hb gd gb).trans (congrArg _ (if_neg (by rw [List.isEmpty_iff]; exact harr)))⟩
    · let u := s.seqAdvance k (encG 0x26 gd ga gb 0) 0 0 [waitMark] ((s.seq k).pc + 4) (fun q => { q with stall := .bar b.chan })
      let v := u.modBarrier j.id b.chan (Barrier.joined r 16)
      obtain ⟨honly, hseq, -⟩ := seqAdvance_spec s k (encG 0x26 gd ga gb 0) 0 0 [waitMark] ((s.seq k).pc + 4)
        (fun q => { q with stall := .bar b.chan })
      have hju : u.job? j.id = some j := (honly.1.job? j.id).trans hjob
      have hjv := job?_modBarrier hju b.chan (Barrier.joined r 16)
      have hbv := (barrier?_map (chan := b.chan) (f := Barrier.joined r 16) (fun _ => rfl) hbc).trans (congrArg some (if_pos rfl))
      have hstep := exchangeStep_arrive j.id b.chan v
      obtain ⟨hms, hcores, hkeep⟩ := hstep.kept
      have htseq : (v.xArrive j.id b.chan).seq k = u.seq k := hkeep k
      obtain ⟨j', hj', b', hb', harr⟩ := hstep.2.2 _ _ hjv hbv
      refine ⟨v.xArrive j.id b.chan, (exec_seqBar hj hb gd gb).trans (congrArg _ (if_pos hmem)), ?_, ?_,
        ⟨j', hj', b', hb', ?_, ?_⟩, hms.trans honly.1.1, hcores.trans honly.2.1, fun hnone => ?_, ?_⟩
      · rw [htseq]; exact (congrArg Seq.stall hseq :)
      · rw [htseq]; exact (congrArg Seq.pc hseq :)
      · rw [harr]; exact (Barrier.mem_joined r 16 b).1
      · rw [harr]; exact (Barrier.mem_joined r 16 b).2
      · rw [xArrive_of_unbound hjv hbv hnone]; exact honly.1.2.2.1
      · intro g top l hbind hsent hrel hfull hnew e hfront hrank p sends hp
        have hnet : v.net = s.net := honly.1.2.2.1
        have hpor : v.por = s.por := honly.1.2.2.2.2.2.2.1
        have hroute : v.routeEntry g = e := by simp only [State.routeEntry, State.dv, hpor, e]
        have hport : v.port p = s.port p := by simp only [State.port, hnet]
        have hfv : v.xFront (v.routeEntry g) b.chan ((b.joined r 16).xround + 1) (xLevels (v.routeEntry g) top) = some l := by
          rw [hroute]
          refine Eq.trans ?_ hfront
          simp only [State.xFront, State.xGot, hnet]; rfl
        have hsend := xArrive_of_member (j := { j with barriers := j.barriers.map fun x => if x.chan = b.chan then x.joined r 16 else x })
          hjv hbv hbind (by rw [Barrier.joined_of_new hnew]; exact hfull) hrel hsent hfv (by rw [hroute]; exact hrank)
        rw [hroute] at hsend
        obtain ⟨-, ⟨more, hout⟩, held, hheld⟩ := (exchangeStep_afterSend j.id b.chan e (b.xround + 1)
          (v.sendCtrl p (xrecord b.chan 0 l (rtTag e) (b.xround + 1)))).2.1 p
        obtain ⟨hgo, hkept⟩ := port_sendCtrl v p (xrecord b.chan 0 l (rtTag e) (b.xround + 1))
        rw [hport] at hgo hkept
        refine ⟨fun h => ⟨more, ?_⟩, fun h => ⟨held, ?_⟩⟩
        · rw [hsend]; refine hout.trans ?_; rw [hgo h, List.append_assoc]; rfl
        · rw [hsend]; refine hheld.trans ?_; rw [hkept h, List.append_assoc]; rfl
    · let f : Barrier → Barrier := fun b => { b with member := mset b.member r m }
      obtain ⟨honly, hseq, -⟩ := seqAdvance_spec s k (encG 0x27 gd ga gb 0) 0 0 [] ((s.seq k).pc + 4) (fun q => q)
      have hju : (s.seqNext k (encG 0x27 gd ga gb 0) (fun q => q)).job? j.id = some j := (honly.1.job? j.id).trans hjob
      refine ⟨_, (exec_bcfg hj hb gd gb).trans (congrArg _ (if_pos (by rw [harr]; rfl))), (congrArg Seq.pc hseq :), honly.1.1, honly.2.1,
        _, job?_modBarrier hju b.chan f, _, (barrier?_map (f := f) (fun _ => rfl) hbc).trans (congrArg some (if_pos rfl)), ?_,
        fun r' hr' => mget_mset_ne _ _ _ hr'⟩
      exact mget_mset_self ..
  · obtain ⟨u, heq, hms, hcores, hseq, hju⟩ := barRelease_of_ready hjob hb (Barrier.ready_of_full harr hx hall)
    have hrest := foldl_releaseArrival_rest j.team chan b.arrived u
    refine ⟨s.barRelease job chan, barrierRelease_of_running hjob hsweep hphase chan, ?_, ?_, fun r k hmem hk hstall => ?_,
      fun r w k q hmem hw hk hq harrived hrel hph hop hch => ?_⟩ <;> rw [heq]
    · exact hrest.1.trans hms
    · exact ⟨_, (hrest.job? job).trans (hju.trans (job?_modBarrier hjob chan _)), _,
        (barrier?_map (f := Barrier.renewed) (fun _ => rfl) hb).trans (congrArg some (if_pos rfl)), rfl, rfl⟩
    · exact foldl_releaseArrival_seq j.team chan hmem hk (by rw [hseq]; exact hstall)
    · rw [← releasedEntry_of_waiting harrived hrel hph hop hch]
      exact foldl_releaseArrival_core j.team chan hmem hw hk (by rw [core_of_cores hcores]; exact hq)

end Sys2Proof.Machine

/-! PROOFS. The array, vector and sampling engines (R48, R73, R112, R113): what completing an instruction leaves. -/

namespace Sys2Proof.Machine

/-! ## Steps that change the counters of one core -/

/-- Beside core c's counters below 5 a step changes nothing. -/
def CountsOnly (c : Nat) (s t : State) : Prop :=
  OnlyCore c s t ∧ t.core c = { s.core c with ctr := (t.core c).ctr } ∧ ∀ i, 5 ≤ i → t.coreCtr c i = s.coreCtr c i

theorem OnlyCore.refl (c : Nat) (s : State) : OnlyCore c s s := ⟨SameRest.refl s, fun _ _ => rfl, fun _ _ => rfl, rfl⟩

theorem CountsOnly.refl (c : Nat) (s : State) : CountsOnly c s s := ⟨OnlyCore.refl c s, rfl, fun _ _ => rfl⟩

theorem CountsOnly.trans {c : Nat} {s t u : State} (h : CountsOnly c s t) (h' : CountsOnly c t u) : CountsOnly c s u := by
  obtain ⟨honly, hcore, hctr⟩ := h
  obtain ⟨honly', hcore', hctr'⟩ := h'
  refine ⟨honly.trans honly', ?_, fun i hi => (hctr' i hi).trans (hctr i hi)⟩
  rw [hcore']; generalize (u.core c).ctr = m; rw [hcore]

theorem Core.eq_withCtr {x y : Core} {m : AMap Quad} (h : y = { x with ctr := m }) : y = { x with ctr := y.ctr } := by subst h; rfl

theorem countsOnly_bumpCoreFree (c : Nat) (s : State) (b : Bool) {i : Nat} (hi : i < 5) :
    CountsOnly c s (if b then s.bumpCoreFree c i else s) := by
  cases b with
  | false => exact CountsOnly.refl c s
  | true =>
    have hcore := core_modCore_self s.draw.2 c (fun x => { x with ctr := mmod 0 x.ctr i (fun v => v + s.draw.1) })
    refine ⟨onlyCore_bumpCoreFree s c i, ?_, fun n hn => ?_⟩
    · exact Core.eq_withCtr hcore
    · have hne : n ≠ i := by omega
      have hget : mget 0 (mmod 0 (s.core c).ctr i (fun v => v + s.draw.1)) n = mget 0 (s.core c).ctr n := by rw [mget_mmod, if_neg hne]
      exact (congrArg (fun x : Core => mget 0 x.ctr n) hcore :).trans hget

theorem countsOnly_countPorts (c : Nat) (s : State) (f : Fam) : CountsOnly c s (s.countPorts c f) :=
  (((countsOnly_bumpCoreFree c s f.onA (by decide)).trans (countsOnly_bumpCoreFree c _ f.onV (by decide))).trans
    (countsOnly_bumpCoreFree c _ f.onM (by decide))).trans (countsOnly_bumpCoreFree c _ f.onX (by decide))

/-! ## What completing an instruction does -/

theorem read_foldl_writeBytes_out {l : List (Nat × List Byte)} {a : Nat} (h : ¬ ∃ p ∈ l, p.1 ≤ a ∧ a < p.1 + p.2.length) (m : Mem) :
    (l.foldl (fun m p => m.writeBytes p.1 p.2) m).read a = m.read a := by
  induction l generalizing m with
  | nil => rfl
  | cons p l ih =>
    rw [List.foldl_cons, ih fun ⟨q, hq, hr⟩ => h ⟨q, List.mem_cons_of_mem p hq, hr⟩]
    have hp : ¬ (p.1 ≤ a ∧ a < p.1 + p.2.length) := fun hr => h ⟨p, List.mem_cons_self, hr⟩
    exact Mem.read_writeBytes_out m p.1 p.2 a (by omega)

theorem read_foldl_writeLE_out {l : List (Nat × Nat)} {a : Nat} (h : ¬ ∃ p ∈ l, 4 * p.1 ≤ a ∧ a < 4 * p.1 + 4) (m : Mem) :
    (l.foldl (fun m p => m.writeLE (4 * p.1) 4 p.2) m).read a = m.read a := by
  induction l generalizing m with
  | nil => rfl
  | cons p l ih =>
    rw [List.foldl_cons, ih fun ⟨q, hq, hr⟩ => h ⟨q, List.mem_cons_of_mem p hq, hr⟩]
    have hp : ¬ (4 * p.1 ≤ a ∧ a < 4 * p.1 + 4) := fun hr => h ⟨p, List.mem_cons_self, hr⟩
    exact Mem.read_writeLE_out m (4 * p.1) 4 p.2 a (by omega)

/-- The core in which an instruction's writes are stored, its counters aside. -/
def Core.written (x : Core) (w : Writes) : Core :=
  { x with
    store := w.cs.foldl (fun m p => m.writeBytes p.1 p.2) x.store
    acc := w.acc.foldl (fun m p => m.writeLE (4 * p.1) 4 p.2) x.acc
    tags := w.cs.foldl (fun ts p => clearTags ts p.1 p.2.length) x.tags }

theorem core_applyWrites (s : State) (c : Nat) (w : Writes) :
    (s.applyWrites c w).core c = { (s.core c).written w with ctr := ((s.applyWrites c w).core c).ctr } := by
  have h : (s.applyWrites c w).core c = { (s.core c).written w with
      ctr := mmod 0 (mmod 0 (s.core c).ctr 7 (fun q => q + BitVec.ofNat 64 w.sat)) 8 (fun q => q + BitVec.ofNat 64 w.nan) } := by
    simp only [State.applyWrites, State.bumpCore, core_modCore_self]; rfl
  exact Core.eq_withCtr h

theorem coreCtr_applyWrites (s : State) (c : Nat) (w : Writes) :
    (s.applyWrites c w).coreCtr c 7 = s.coreCtr c 7 + BitVec.ofNat 64 w.sat ∧
    (s.applyWrites c w).coreCtr c 8 = s.coreCtr c 8 + BitVec.ofNat 64 w.nan := by
  simp only [State.coreCtr, State.applyWrites, State.bumpCore, core_modCore_self, mget_mmod]
  exact ⟨rfl, rfl⟩

theorem onlyCore_applyWrites (s : State) (c : Nat) (w : Writes) : OnlyCore c s (s.applyWrites c w) :=
  (onlyCore_modCore s c _).trans ((onlyCore_modCore _ c _).trans (onlyCore_modCore _ c _))

/-- An instruction that completes has its writes stored and counted, waits to retire with OK, and keeps its weight tile. -/
theorem engineDone_complete (s : State) (c : CoreId) (e : QEntry) (f : Fam) (w : Writes) :
    EngineDone c e w s (s.complete c e f w) ∧ ((s.complete c e f w).core c).kept = (s.core c).kept := by
  obtain ⟨honly, hcore, hctr⟩ := countsOnly_countPorts c (s.applyWrites c w) f
  have happly := core_applyWrites s c w
  obtain ⟨hsat, hnan⟩ := coreCtr_applyWrites s c w
  have hfinish : (s.complete c e f w).core c = _ := core_modEntry_self ((s.applyWrites c w).countPorts c f) c e.ord _
  rw [hcore, happly] at hfinish
  have hcounts : ∀ i, (s.complete c e f w).coreCtr c i = ((s.applyWrites c w).countPorts c f).coreCtr c i := fun i => by
    exact (congrArg (fun x : Core => mget 0 x.ctr i) (core_modEntry_self ((s.applyWrites c w).countPorts c f) c e.ord _) :)
  refine ⟨⟨(onlyCore_applyWrites s c w).trans (honly.trans (onlyCore_modCore _ c _)), ?_, ?_,
    (hcounts 7).trans ((hctr 7 (by decide)).trans hsat), (hcounts 8).trans ((hctr 8 (by decide)).trans hnan)⟩, ?_⟩
  · unfold StoresWrites
    rw [hfinish]
    exact ⟨rfl, rfl, fun a ha => read_foldl_writeBytes_out ha _, fun a ha => read_foldl_writeLE_out ha _⟩
  · unfold FinishesOnly
    rw [hfinish]; rfl
  · rw [hfinish]; rfl

/-- Where writes leave the accumulator store alone, so does completing. -/
theorem acc_complete_of_none {s : State} {c : Nat} {e : QEntry} {f : Fam} {w : Writes} (h : w.acc = []) :
    ((s.complete c e f w).core c).acc = (s.core c).acc := by
  rw [acc_complete, h]; rfl

/-- Giving up a weight tile changes nothing else. -/
theorem EngineDone.keepAfter {c : CoreId} {e : QEntry} {w : Writes} {s t : State} (h : EngineDone c e w s t) (d : Nat) :
    EngineDone c e w s (t.keepAfter c d) := by
  unfold State.keepAfter
  split
  · exact h
  obtain ⟨honly, ⟨hstore, hacc, hsout, haout⟩, hfin, hsat, hnan⟩ := h
  have hcore := core_modCore_self t c (fun x => { x with kept := none })
  refine ⟨honly.trans (onlyCore_modCore t c _), ?_, ?_, (congrArg (fun x : Core => mget 0 x.ctr 7) hcore).trans hsat,
    (congrArg (fun x : Core => mget 0 x.ctr 8) hcore).trans hnan⟩
  · unfold StoresWrites
    rw [hcore]; exact ⟨hstore, hacc, hsout, haout⟩
  · unfold FinishesOnly at hfin ⊢
    rw [hcore]; dsimp only; rw [hfin]

/-! ## Writes to the core store alone -/

theorem rowMap_acc (d : Nat) (its : List Nat) (clip : Option Nat) (m : Mem) (g : Nat → List Val → List Val) :
    (rowMap d its clip m g).acc = [] := by
  simp only [rowMap, Writes.join_acc, List.flatMap_map, Operand.writeRow_acc, List.flatMap_eq_nil_iff, implies_true]

theorem cropWrites_acc (d : Nat) (m : Mem) : (cropWrites d m).acc = [] := by
  simp only [cropWrites, Writes.join_acc, List.flatMap_eq_nil_iff, List.mem_flatMap, List.mem_map]
  rintro w ⟨b, -, y, -, x, -, rfl⟩
  exact Operand.writeRow_acc ..

/-! ## The engines -/

theorem runVector_of_running {s : State} {c : Nat} {f : Fam} {job : Job} {e : QEntry} (h : s.runningOf c f = some (job, e))
    (g : Core → QEntry → Writes) : s.runVector c f g = s.complete c e f (g (s.core c) e) := by
  simp only [State.runVector, h]

theorem runConv_of_running {s : State} {c : Nat} {f : Fam} {job : Job} {e : QEntry} (h : s.runningOf c f = some (job, e)) :
    s.runConv c f = s.complete c e f (convWrites f e.d e.its e.clip (s.core c).weights (s.core c).store (s.core c).acc job.lbBase job.slotBytes) := by
  simp only [State.runConv, h]

theorem kept_keepAfter (s : State) (c d : Nat) : ((s.keepAfter c d).core c).kept = if mKeep d then (s.core c).kept else none := by
  unfold State.keepAfter
  split
  · rfl
  · rw [core_modCore_self]

/-- Settles O16: every engine completes its instruction with its writes; an MMA gives up its tile unless KEEP is set. -/
theorem enginesStoreTheirResults : Obligations.EnginesStoreTheirResults := by
  unfold Obligations.EnginesStoreTheirResults
  intro c s job e x
  have hvector : ∀ (i : Instr) (f : Fam) (g : Core → QEntry → Writes), exec i s = .next (s.runVector c f g) → (g x e).acc = [] →
      s.runningOf c f = some (job, e) → ∃ t, exec i s = .next t ∧ EngineDone c e (g x e) s t ∧ (t.core c).acc = x.acc :=
    fun i f g hi hacc hrun =>
      ⟨_, hi.trans (congrArg _ (runVector_of_running hrun g)), (engineDone_complete s c e f _).1, acc_complete_of_none hacc⟩
  refine ⟨fun hrun => ?_, fun f hf hrun => ?_, fun b hb => ⟨fun hrun => ?_, fun hrun => ?_⟩, fun hrun => ?_, fun hrun => ?_⟩
  · obtain ⟨hdone, hkept⟩ := engineDone_complete s c e .mma (mmaWrites .mma e.d e.its e.clip x.weights none x.store x.acc)
    exact ⟨_, congrArg Host.Outcome.next (runMma_of_running hrun), hdone.keepAfter e.d, (kept_keepAfter _ c e.d).trans (by rw [hkept])⟩
  · obtain ⟨hdone, hkept⟩ := engineDone_complete s c e f
      (convWrites f e.d e.its e.clip x.weights x.store x.acc job.lbBase job.slotBytes)
    refine ⟨_, Eq.trans ?_ (congrArg Host.Outcome.next (runConv_of_running hrun)), hdone, hkept⟩
    rcases hf with rfl | rfl <;> rfl
  · have hw : sfnOf x e = sfnWrites e.d e.its e.clip x.store b := by simp only [sfnOf, hb]
    have h := hvector (.sfn c) .sfn sfnOf rfl (by rw [hw]; exact rowMap_acc ..) hrun
    rwa [hw] at h
  · have hw : smaxOf x e = smaxWrites e.d e.its e.clip x.store b := by simp only [smaxOf, hb]
    have h := hvector (.smax c) .smax smaxOf rfl (by rw [hw]; exact rowMap_acc ..) hrun
    rwa [hw] at h
  · exact hvector (.norm c) .norm normOf rfl (rowMap_acc ..) hrun
  · exact hvector (.crop c) .crop cropOf rfl (cropWrites_acc ..) hrun

end Sys2Proof.Machine

/-! PROOFS. TILE_START (R72, R110, R142), part one: which check a start meets, and what a start that meets none does. -/

namespace Sys2Proof.Machine

/-! ## The checks of a descriptor whose adapter is not read -/

theorem rowLimit_anti {m n : Nat} (hm : 1 ≤ m) (h : m ≤ n) : rowLimit n ≤ rowLimit m := Nat.div_le_div_left h hm

theorem one_le_fmtCycles (f : Nat) : 1 ≤ fmtCycles f := by
  unfold fmtCycles
  split
  · exact Nat.le_refl 1
  · split <;> decide

/-- What an MMA may do with an adapter of more cycles, it may do with one of fewer. -/
theorem mmaLegal_anti {f : Fam} {d a b : Nat} (hab : a ≤ b) (h : mmaLegal f d b = true) : mmaLegal f d a = true := by
  have hmode : 1 ≤ modeOf (dOp1 d).fmt (mWFmt d) := le_max_of_le_left (one_le_fmtCycles _)
  have hlimit : (if f = .mmaLa then rowLimit (max (modeOf (dOp1 d).fmt (mWFmt d)) (if f = .mmaLa then max b (fmtCycles (laT d).fmt) else 1)) / 2
        else rowLimit (max (modeOf (dOp1 d).fmt (mWFmt d)) (if f = .mmaLa then max b (fmtCycles (laT d).fmt) else 1))) ≤
      if f = .mmaLa then rowLimit (max (modeOf (dOp1 d).fmt (mWFmt d)) (if f = .mmaLa then max a (fmtCycles (laT d).fmt) else 1)) / 2
        else rowLimit (max (modeOf (dOp1 d).fmt (mWFmt d)) (if f = .mmaLa then max a (fmtCycles (laT d).fmt) else 1)) := by
    by_cases hf : f = .mmaLa
    · simp only [if_pos hf]; exact Nat.div_le_div_right (rowLimit_anti (by omega) (by omega))
    · simp only [if_neg hf, Nat.le_refl]
  simp only [mmaLegal, Bool.and_eq_true, decide_eq_true_eq] at h ⊢
  obtain ⟨⟨⟨⟨hops, hrows⟩, hacc⟩, hla⟩, hx⟩ := h
  exact ⟨⟨⟨⟨hops, hrows.trans hlimit⟩, hacc⟩, hla⟩, hx⟩

theorem bodyLegal_anti {f : Fam} {d a b : Nat} (hab : a ≤ b) (h : bodyLegal f d b = true) : bodyLegal f d a = true := by
  simp only [bodyLegal, Bool.and_eq_true] at h ⊢
  refine ⟨h.1, ?_⟩
  cases f
  case mma | mmaLa | mmaRs | mmaAg => exact mmaLegal_anti hab h.2
  all_goals exact h.2

/-- An instruction that is legal with its adapter is legal where the adapter is not read. -/
theorem tileLegalWith_none {s : State} {c : Nat} {job : Job} {x : Core} {e : QEntry} {f : Fam} {ad : Option Nat}
    (h : s.tileLegalWith c job x e f ad = true) : s.tileLegalWith c job x e f none = true := by
  simp only [State.tileLegalWith, Bool.and_eq_true] at h ⊢
  obtain ⟨⟨⟨⟨⟨⟨⟨⟨⟨hhead, hbody⟩, hstream⟩, hids⟩, hbar⟩, hexch⟩, -⟩, hreuse⟩, hblock⟩, hbatch⟩ := h
  exact ⟨⟨⟨⟨⟨⟨⟨⟨⟨hhead, bodyLegal_anti (Nat.zero_le _) hbody⟩, hstream⟩, hids⟩, hbar⟩, hexch⟩, rfl⟩, hreuse⟩, hblock⟩, hbatch⟩

/-! ## TILE_START up to the checks of the issue stage -/

section
variable {s : State} {c : Nat} {job : Job} {e : QEntry} {f : Fam}

/-- A legal candidate whose header wait is not satisfied leaves the state. -/
theorem tileStart_of_waiting (hj : s.issueJob c = some job) (he : (s.core c).candidate = some e) (hf : e.fam = some f)
    (had : s.adapterErr f e.d = none) (hlegal : s.tileLegal c job (s.core c) e f = true)
    (hskip : (dStreamEn e.d && s.streamSkips job (dStream e.d)) = false) (hmet : e.waitMet = false) (hwait : s.waitOk job e.d = false) :
    s.tileStart c = s := by
  have hquiet (b : Bool) : (if b then none else s.adapterErr f e.d) = none := by cases b <;> simp [had]
  have hwith (b : Bool) : s.tileLegalWith c job (s.core c) e f (if b then none else s.adapterOf f e.d) = true := by
    cases b
    · exact hlegal
    · exact tileLegalWith_none hlegal
  simp only [State.tileStart, hj, he, hf, hquiet, hwith, hskip, Bool.not_true, Bool.false_eq_true, if_false]
  split
  · rfl
  · unfold State.startLegal
    simp only [hmet, hwait, Bool.or_self, Bool.not_false, if_true]
    split <;> rfl

section
variable (h : s.opensTo c job e)
include h

theorem opensTo_readsNot : s.readsNot job (s.core c) e = false := by
  obtain ⟨-, -, -, -, -, hblocks, hskip, -⟩ := h
  simp only [State.readsNot, Core.skipBlock, hblocks, List.find?_nil, Option.isSome_none, List.any_nil, Bool.or_false,
    Bool.and_eq_false_iff]
  by_cases hen : dStreamEn e.d = true
  · exact .inr (by simpa using fun hs => hskip ⟨hen, hs⟩)
  · exact .inl (by simpa using hen)

theorem tileStart_of_noFam (hf : e.fam = none) : s.tileStart c = s.coreFault c stIllegal 0 e.ord := by
  obtain ⟨hj, he, hrestore, harrived, -⟩ := h
  simp only [State.tileStart, hj, he, hf, hrestore, harrived, List.isEmpty_nil, Bool.not_true, Bool.or_self, Bool.false_eq_true, if_false]

/-- TILE_START of a core whose program goes on, outside any tab or block, comes to the checks of the instruction. -/
theorem tileStart_of_unreadable {y : AccErr} (hf : e.fam = some f) (had : s.adapterErr f e.d = some y) :
    s.tileStart c = s.coreAccFault c e.ord y := by
  have hquiet := opensTo_readsNot h
  obtain ⟨hj, he, hrestore, harrived, -⟩ := h
  simp only [State.tileStart, hj, he, hf, hrestore, harrived, List.isEmpty_nil, Bool.not_true, Bool.or_self, Bool.false_eq_true, if_false,
    hquiet, had]

theorem tileStart_of_illegal (hf : e.fam = some f) (had : s.adapterErr f e.d = none)
    (hlegal : s.tileLegal c job (s.core c) e f = false) : s.tileStart c = s.coreFault c stIllegal 0 e.ord := by
  have hquiet := opensTo_readsNot h
  obtain ⟨hj, he, hrestore, harrived, -⟩ := h
  have hlegal' : s.tileLegalWith c job (s.core c) e f (s.adapterOf f e.d) = false := hlegal
  simp only [State.tileStart, hj, he, hf, hrestore, harrived, List.isEmpty_nil, Bool.not_true, Bool.or_self, Bool.false_eq_true, if_false,
    hquiet, had, hlegal', Bool.not_false, if_true]

theorem tileStart_of_legal (hf : e.fam = some f) (had : s.adapterErr f e.d = none)
    (hlegal : s.tileLegal c job (s.core c) e f = true) : s.tileStart c = s.startLegal c job (s.core c) e f := by
  have hquiet := opensTo_readsNot h
  obtain ⟨hj, he, hrestore, harrived, -, -, hskip, -⟩ := h
  have hlegal' : s.tileLegalWith c job (s.core c) e f (s.adapterOf f e.d) = true := hlegal
  have hskip' : (dStreamEn e.d && s.streamSkips job (dStream e.d)) = false := by
    rw [Bool.eq_false_iff, ne_eq, Bool.and_eq_true]; exact hskip
  simp only [State.tileStart, hj, he, hf, hrestore, harrived, List.isEmpty_nil, Bool.not_true, Bool.or_self, Bool.false_eq_true, if_false,
    hquiet, had, hlegal', hskip']

/-- What startLegal asks of a BAR beside what the other families meet. -/
theorem startLegal_of_opens : s.startLegal c job (s.core c) e f =
    let before := (s.core c).queue.takeWhile (fun q => decide (q.ord ≠ e.ord))
    if decide (f = .bar) && (!before.all (fun q => q.isRetired || (q.isRunning && ((s.core c).ownTab q).isSome)) ||
      !(s.core c).commits.isEmpty) then s
    else if f.ports = 0 then s.startSync c job e f none
    else if !((s.core c).portsFree f.ports && bankClear before f e.d) then s
    else s.startPorts c job e f (before.filter QEntry.inFlight) := by
  obtain ⟨-, -, -, -, htabs, hblocks, -, hwait⟩ := h
  have hok : (e.waitMet || s.waitOk job e.d) = true := by simpa using hwait
  have htab : (s.core c).tabFor e.ord.toNat = none := by simp [Core.tabFor, htabs]
  have hallow : s.tabAllows (s.core c) f e.d none = true := by simp [State.tabAllows, State.tabRoom, htabs]
  have hblock : (s.core c).skipBlock e.ord.toNat = none := by simp [Core.skipBlock, hblocks]
  simp only [State.startLegal, hblocks, List.any_nil, Bool.false_eq_true, if_false, hok, htab, hallow, hblock, Bool.not_true,
    Option.isNone_none, Bool.true_and, decide_eq_true_eq]

theorem startLegal_of_busy (hports : f.ports ≠ 0)
    (hbusy : (s.core c).portsFree f.ports = false ∨
      bankClear ((s.core c).queue.takeWhile (fun q => decide (q.ord ≠ e.ord))) f e.d = false) :
    s.startLegal c job (s.core c) e f = s := by
  have hbar : f ≠ .bar := fun hb => hports (by rw [hb]; rfl)
  rw [startLegal_of_opens h]
  simp only [hbar, hports, decide_false, Bool.false_and, Bool.false_eq_true, if_false]
  refine if_pos ?_
  rw [Bool.not_eq_true', Bool.and_eq_false_iff]; exact hbusy

theorem startLegal_of_free (hports : f.ports ≠ 0) (hfree : (s.core c).portsFree f.ports = true)
    (hbank : bankClear ((s.core c).queue.takeWhile (fun q => decide (q.ord ≠ e.ord))) f e.d = true) :
    s.startLegal c job (s.core c) e f =
      s.startPorts c job e f (((s.core c).queue.takeWhile (fun q => decide (q.ord ≠ e.ord))).filter QEntry.inFlight) := by
  have hbar : f ≠ .bar := fun hb => hports (by rw [hb]; rfl)
  rw [startLegal_of_opens h]
  simp only [hbar, hports, hfree, hbank, decide_false, Bool.false_and, Bool.false_eq_true, if_false, Bool.and_self, Bool.not_true]

end

/-- A plain instruction starts all its iterations. -/
theorem startPorts_of_plain (ahead : List QEntry) (hc : dClaim e.d = false) (hnew : e.claimed = false) :
    s.startPorts c job e f ahead = s.startBody c job e f ahead none none true 0 (fun s => s) := by
  simp only [State.startPorts, State.lookClaim, hc, hnew, Bool.not_false, if_true, Bool.true_or]

end

/-! ## The checks of a port's instruction -/

theorem clearOf_empty (s : State) (c : Nat) (es : List QEntry) : s.clearOf c es {} = true := by
  simp [State.clearOf]

/-- What an instruction of a port reads and writes, by its descriptor and its records. -/
def State.startRanges (s : State) (c : Nat) (e : QEntry) (f : Fam) (its : List Nat) (clip : Option Nat) : IterRngs :=
  let base := descRanges f e.d its clip (s.rangeArg f e.d)
  if f.isAttn || decide (f = .crop) then base.append (recRanges f (s.core c).store e.d its clip) else base

/-- Beside its ports, an instruction's ranges and rooms are clear of what runs ahead of it. -/
def State.clearsStart (s : State) (c : Nat) (job : Job) (e : QEntry) (f : Fam) (its : List Nat) (clip : Option Nat) (ahead : List QEntry) : Prop :=
  let base := descRanges f e.d its clip (s.rangeArg f e.d)
  let recs := f.isAttn || decide (f = .crop)
  s.clearOf c ahead base = true ∧
  (recs = true → pastGeneral job.general { cr := base.cr } = false ∧ s.clearOf c ahead { cr := headRanges f (s.core c).store e.d clip } = true) ∧
  s.clearOf c ahead (s.startRanges c e f its clip) = true ∧ (f = .scatKv → s.scatWaits e = false)

/-- The rest of a start once no check holds it back and its claim is made: `m` is the store as its records were read. -/
def State.startClaimed (s : State) (c : Nat) (job : Job) (e : QEntry) (f : Fam) (clip : Option Nat) (its : List Nat) (r : IterRngs) (m : Mem) : State :=
  if emptyOutput f e.d clip then s.finishAt c e none iEmpty
  else if f.isAttn && (attnRec m e.d).maskEn && maskMalformed m (attnRec m e.d).mask ((dSop1 e.d).clip clip).rows (dSop2 e.d).rows then
    s.finishAt c e none iMaskMalformed
  else match s.loadWeights c e f none with
    | .stop u => u
    | k => if f.isConv && !s.fillsDone c e f then s else s.launch c job { e with clip := clip } f none its r k

/-- The iterations of a start: those of the claimed index, or all of the batch. -/
def itsOf (e : QEntry) (j : Option Nat) : List Nat := (j.map (fun n => [n])).getD (List.range (dBatch e.d + 1))

theorem itsOf_none (e : QEntry) : itsOf e none = List.range (dBatch e.d + 1) := rfl

theorem itsOf_some (e : QEntry) (n : Nat) : itsOf e (some n) = [n] := rfl

section
variable {s : State} {c : Nat} {job : Job} {e : QEntry} {f : Fam} {j clip : Option Nat} {ahead : List QEntry}

theorem startBody_of_blocked (h : s.clearOf c ahead (descRanges f e.d (itsOf e j) clip (s.rangeArg f e.d)) = false) (code : Byte)
    (claim : State → State) : s.startBody c job e f ahead j clip true code claim = s := by
  cases j with
  | none => rw [itsOf_none] at h; simp only [State.startBody, if_true, h, Bool.not_false, Bool.true_or]
  | some n => rw [itsOf_some] at h; simp only [State.startBody, if_true, h, Bool.not_false, Bool.true_or]

theorem startRanges_of_recs {its : List Nat} (h : (f.isAttn || decide (f = .crop)) = true) : s.startRanges c e f its clip =
    (descRanges f e.d its clip (s.rangeArg f e.d)).append (recRanges f (s.core c).store e.d its clip) := if_pos h

theorem startRanges_of_plain {its : List Nat} (h : (f.isAttn || decide (f = .crop)) = false) :
    s.startRanges c e f its clip = descRanges f e.d its clip (s.rangeArg f e.d) := if_neg (by rw [h]; decide)

/-- A start that nothing ahead holds back is illegal, past a limit, or goes on with its claim (R142). -/
theorem startBody_of_clear (htabs : (s.core c).tabs = []) (h : s.clearsStart c job e f (itsOf e j) clip ahead) (code : Byte)
    (claim : State → State) : s.startBody c job e f ahead j clip true code claim =
      if s.startIllegal c job e f (itsOf e j) clip true (f.isAttn || decide (f = .crop)) then s.coreFault c stIllegal 0 e.ord
      else if overflowCode f job e.d (s.startRanges c e f (itsOf e j) clip) (emptyOutput f e.d clip) ≠ 0 ∨ code ≠ 0 then
        s.coreFault c stOverflow (if overflowCode f job e.d (s.startRanges c e f (itsOf e j) clip) (emptyOutput f e.d clip) ≠ 0 then
          overflowCode f job e.d (s.startRanges c e f (itsOf e j) clip) (emptyOutput f e.d clip) else code) e.ord
      else (claim s).startClaimed c job e f clip (itsOf e j) (s.startRanges c e f (itsOf e j) clip) (s.core c).store := by
  have htab : (s.core c).tabFor e.ord.toNat = none := by simp [Core.tabFor, htabs]
  obtain ⟨hbase, hrecs, hall, hscat⟩ := h
  have hscat' : (decide (f = .scatKv) && s.scatWaits e) = false := by
    by_cases hf : f = .scatKv
    · rw [hscat hf, Bool.and_false]
    · rw [decide_eq_false hf, Bool.false_and]
  by_cases hr : (f.isAttn || decide (f = .crop)) = true
  · obtain ⟨hpast, hheads⟩ := hrecs hr
    rw [startRanges_of_recs hr] at hall ⊢
    cases j <;>
    · simp only [itsOf_none, itsOf_some] at hbase hpast hall ⊢
      simp only [State.startBody, State.startClaimed, if_true, hbase, hr, hpast, hheads, hall, hscat', htab, Bool.not_false,
        Bool.and_self, Bool.not_true, Bool.or_self, Bool.false_or, Bool.false_eq_true, if_false] <;> rfl
  · have hr : (f.isAttn || decide (f = .crop)) = false := by simpa using hr
    have hnil : s.clearOf c ahead { cr := [] } = true := clearOf_empty s c ahead
    rw [startRanges_of_plain hr]
    cases j <;>
    · simp only [itsOf_none, itsOf_some] at hbase ⊢
      simp only [State.startBody, State.startClaimed, if_true, hbase, hr, hnil, hscat', htab, Bool.false_and,
        Bool.not_true, Bool.or_self, Bool.false_eq_true, if_false] <;> rfl

end

end Sys2Proof.Machine

/-! PROOFS. TILE_START (R28, R72, R113, R125, R279), part two: what putting an instruction on its ports changes. -/

namespace Sys2Proof.Machine

/-! ## Changes of one entry -/

theorem core_modEntry (s : State) (c : Nat) (ord : Word) (g : QEntry → QEntry) :
    (s.modEntry c ord g).core c = (s.core c).withEntry ord g := core_modEntry_self s c ord g

theorem withEntry_withEntry (x : Core) (ord : Word) {f g : QEntry → QEntry} (hf : ∀ q, (f q).ord = q.ord) :
    (x.withEntry ord f).withEntry ord g = x.withEntry ord (fun q => g (f q)) := by
  simp only [Core.withEntry, List.map_map]
  congr 1
  refine List.map_congr_left fun q _ => ?_
  simp only [Function.comp]
  split
  · next h => rw [if_pos (by rw [hf]; exact h)]
  · rfl

/-- A start touches its core alone, and charges the job's slot only for a wait that it ends (R28). -/
def StartsOnly (c : Nat) (e : QEntry) (s t : State) : Prop :=
  OnlyCore c { s with pwr := t.pwr } t ∧ ((s.core c).entry? e.ord = some e → e.waitFrom = none → t.pwr = s.pwr)

/-- The end of a wait and a change of the entry are one change of the entry. -/
theorem endWait_modEntry (s : State) (c : Nat) (e : QEntry) (g : QEntry → QEntry) :
    StartsOnly c e s ((s.endWait c e.ord).modEntry c e.ord g) ∧
    ((s.endWait c e.ord).modEntry c e.ord g).core c = (s.core c).withEntry e.ord (fun q => g { q with waitFrom := none }) := by
  have hcore (u : State) : ((u.modEntry c e.ord (fun q => { q with waitFrom := none })).modEntry c e.ord g).core c =
      (u.core c).withEntry e.ord (fun q => g { q with waitFrom := none }) := by
    rw [core_modEntry, core_modEntry]
    exact withEntry_withEntry (u.core c) e.ord (f := fun q => { q with waitFrom := none }) fun _ => rfl
  have honly (u : State) : OnlyCore c u ((u.modEntry c e.ord (fun q => { q with waitFrom := none })).modEntry c e.ord g) :=
    (onlyCore_modCore u c _).trans (onlyCore_modCore _ c _)
  unfold State.endWait
  split
  · next w i hw hi => exact ⟨⟨honly _, fun he hnone => by rw [he, Option.bind_some, hnone] at hw; cases hw⟩, hcore _⟩
  · exact ⟨⟨honly s, fun _ _ => rfl⟩, hcore s⟩

theorem finishAt_spec (s : State) (c : Nat) (e : QEntry) (istat : Byte) : StartsOnly c e s (s.finishAt c e none istat) ∧
    (s.finishAt c e none istat).core c =
      (s.core c).withEntry e.ord (fun q => { q with tab := none, waitMet := true, waitFrom := none, phase := .done istat }) :=
  endWait_modEntry s c e _

/-- What runs on its ports from now on. -/
def QEntry.started (q : QEntry) : QEntry := { q with phase := .running, waitMet := true, waitFrom := none }

/-- The end of a start: the wait is over and the entry runs. -/
def State.goes (s : State) (c : Nat) (e : QEntry) : State :=
  (s.endWait c e.ord).modEntry c e.ord (fun q => { q with phase := .running, waitMet := true, waitFrom := none })

theorem goes_spec (s : State) (c : Nat) (e : QEntry) :
    StartsOnly c e s (s.goes c e) ∧ (s.goes c e).core c = (s.core c).withEntry e.ord QEntry.started := endWait_modEntry s c e _

/-- A change of the core that keeps its queue may go before a start. -/
theorem StartsOnly.of_modCore {c : Nat} {e : QEntry} {s t : State} {f : Core → Core} (hq : ∀ x, (f x).queue = x.queue)
    (h : StartsOnly c e (s.modCore c f) t) : StartsOnly c e s t := by
  obtain ⟨honly, hpwr⟩ := h
  refine ⟨(onlyCore_modCore { s with pwr := t.pwr } c f).trans honly, fun he hw => hpwr ?_ hw⟩
  rw [core_modCore_self, Core.entry?, hq]; exact he

/-! ## Launching off tab -/

section
variable {s : State} {c : Nat} {job : Job} {e : QEntry} {f : Fam} {its : List Nat} {r : IterRngs}

/-- An instruction that is no exchange opens no operation. -/
theorem openOp_of_local (h : f.isExch = false ∨ f = .attnRelay) : s.openOp c job e f = s := by
  refine if_pos ?_
  rcases h with h | h <;> simp [h]

theorem launch_of_none (hf : f ≠ .reuseChk) (hattn : f.isAttn = false) (hexch : f.isExch = false) :
    s.launch c job e f none its r .none = s.goes c e := by
  simp only [State.launch, State.enterTab, hattn, Bool.false_and, Bool.false_eq_true, if_false, if_neg hf,
    openOp_of_local (.inl hexch)]
  rfl

theorem launch_of_exchange (hf : f ≠ .reuseChk) (hattn : f.isAttn = false) :
    s.launch c job e f none its r .none = (s.openOp c job e f).goes c e := by
  simp only [State.launch, State.enterTab, hattn, Bool.false_and, Bool.false_eq_true, if_false, if_neg hf]
  rfl

theorem launch_of_tile (hf : f ≠ .reuseChk) (hexch : f.isExch = false) (k : KeptTile) (read : Bool) :
    s.launch c job e f none its r (.tile k read) =
      (if read then (s.modCore c (fun x => { x with kept := some k, shadow := none })).tileRead c k
        else s.modCore c (fun x => { x with kept := some k, shadow := none })).goes c e := by
  simp only [State.launch, State.enterTab, if_neg hf, openOp_of_local (.inl hexch)]
  rfl

theorem launch_of_attn (hattn : f.isAttn = true) :
    s.launch c job e f none its r .none = (if e.computed || attnAllSkip (s.core c).store (attnRec (s.core c).store e.d)
        ((dSop1 e.d).clip e.clip).rows (dSop2 e.d).rows then s
      else s.modCore c (fun x => { x with kept := none, shadow := none })).goes c e := by
  have hf : f ≠ .reuseChk := fun h => by rw [h] at hattn; cases hattn
  have hexch : f.isExch = false ∨ f = .attnRelay := by
    cases f
    case attnFwd | attnBwd => exact .inl rfl
    case attnRelay => exact .inr rfl
    all_goals cases hattn
  by_cases hskip : (e.computed || attnAllSkip (s.core c).store (attnRec (s.core c).store e.d)
      ((dSop1 e.d).clip e.clip).rows (dSop2 e.d).rows) = true
  · have hno : (f.isAttn && !e.computed && !attnAllSkip (s.core c).store (attnRec (s.core c).store e.d)
        ((dSop1 e.d).clip e.clip).rows (dSop2 e.d).rows) = false := by
      rw [hattn, Bool.true_and, ← Bool.not_or, hskip]; rfl
    simp only [State.launch, State.enterTab, hno, hskip, Bool.false_eq_true, if_false, if_true, if_neg hf, openOp_of_local hexch]
    rfl
  · have hyes : (f.isAttn && !e.computed && !attnAllSkip (s.core c).store (attnRec (s.core c).store e.d)
        ((dSop1 e.d).clip e.clip).rows (dSop2 e.d).rows) = true := by
      rw [hattn, Bool.true_and, ← Bool.not_or, Bool.eq_false_iff.mpr hskip]; rfl
    simp only [State.launch, State.enterTab, hyes, hskip, Bool.false_eq_true, if_false, if_true, if_neg hf, openOp_of_local hexch]
    rfl

theorem launch_of_reuse : s.launch c job e .reuseChk none its r .none = s.startReuse c job e := by
  simp only [State.launch, State.enterTab, if_true]
  rfl

end

/-! ## The weights (R28, R113, R125, R189) -/

section
variable {s : State} {c : Nat} {e : QEntry} {f : Fam}

theorem loadWeights_of_other (h : (f.isMma || f.isConv) = false) (t : Option Tab) : s.loadWeights c e f t = .none := by
  simp only [State.loadWeights, h, Bool.not_false, Bool.true_or, if_true]

theorem loadWeights_of_kept (h : keptHit f e.d (s.core c).kept = true) (t : Option Tab) : s.loadWeights c e f t = .none := by
  simp only [State.loadWeights, h, Bool.or_true, if_true]

theorem shadow_filter (hs : ∀ k, (s.core c).shadow ≠ some (e.ord, k)) :
    (s.core c).shadow.filter (fun x => decide (x.1 = e.ord)) = none := by
  cases hx : (s.core c).shadow with
  | none => rfl
  | some p =>
    have hne : p.1 ≠ e.ord := fun h => hs p.2 (by rw [hx, ← h])
    rw [Option.filter_some, if_neg (by simpa using hne)]

section
variable (hfam : f = .mma ∨ f = .mmaLa ∨ f = .conv ∨ f = .convDw) (hmiss : keptHit f e.d (s.core c).kept = false)
include hfam hmiss

theorem loadWeights_loads : (!(f.isMma || f.isConv) || (f.isExch && e.computed) || keptHit f e.d (s.core c).kept) = false := by
  rw [hmiss]
  rcases hfam with rfl | rfl | rfl | rfl <;> rfl

theorem loadWeights_of_shadow {k : KeptTile} (hs : (s.core c).shadow = some (e.ord, k)) (t : Option Tab) :
    s.loadWeights c e f t = .tile k false := by
  simp only [State.loadWeights, loadWeights_loads hfam hmiss, Bool.false_eq_true, if_false, hs, Option.filter_some, decide_true, if_true]

section
variable (hs : ∀ k, (s.core c).shadow ≠ some (e.ord, k))
include hs

theorem loadWeights_of_failed (hg : s.weightGate (mWAddr e.d) ((keptFor f e.d).tiles * tileBytes (mWFmt e.d)) = .failed) (t : Option Tab) :
    s.loadWeights c e f t = .stop (s.finishAt c e t iTierError) := by
  have hg' : s.weightGate (keptFor f e.d).addr ((keptFor f e.d).tiles * tileBytes (keptFor f e.d).fmt) = .failed := hg
  simp only [State.loadWeights, loadWeights_loads hfam hmiss, Bool.false_eq_true, if_false, shadow_filter hs, hg']

theorem loadWeights_of_wait (hg : s.weightGate (mWAddr e.d) ((keptFor f e.d).tiles * tileBytes (mWFmt e.d)) = .wait) (t : Option Tab) :
    s.loadWeights c e f t = .stop (s.beginWait c e) := by
  have hg' : s.weightGate (keptFor f e.d).addr ((keptFor f e.d).tiles * tileBytes (keptFor f e.d).fmt) = .wait := hg
  simp only [State.loadWeights, loadWeights_loads hfam hmiss, Bool.false_eq_true, if_false, shadow_filter hs, hg']

theorem loadWeights_of_read {bs : List Byte}
    (hg : s.weightGate (mWAddr e.d) ((keptFor f e.d).tiles * tileBytes (mWFmt e.d)) = .ok)
    (hr : s.memRead (mWAddr e.d) ((keptFor f e.d).tiles * tileBytes (mWFmt e.d)) = .ok bs) (t : Option Tab) :
    s.loadWeights c e f t = .tile { keptFor f e.d with bytes := bs } true := by
  have hg' : s.weightGate (keptFor f e.d).addr ((keptFor f e.d).tiles * tileBytes (keptFor f e.d).fmt) = .ok := hg
  have hr' : s.memRead (keptFor f e.d).addr ((keptFor f e.d).tiles * tileBytes (keptFor f e.d).fmt) = .ok bs := hr
  simp only [State.loadWeights, loadWeights_loads hfam hmiss, Bool.false_eq_true, if_false, shadow_filter hs, hg', hr']

end
end
end

/-- The cores a read serves beside its own: their shadow buffers alone change. -/
theorem foldl_shadow (c : Nat) (g : Nat → Option (Word × KeptTile)) (l : List Nat) (h : ∀ o ∈ l, o ≠ c) (s : State) :
    let t := l.foldl (fun t o => t.modCore o (fun x => { x with shadow := g o })) s
    t.ms = s.ms ∧ t.core c = s.core c ∧ ∀ o, t.core o = { s.core o with shadow := (t.core o).shadow } := by
  induction l generalizing s with
  | nil => exact ⟨rfl, rfl, fun _ => rfl⟩
  | cons a l ih =>
    obtain ⟨hms, hself, hother⟩ := ih (fun o ho => h o (List.mem_cons_of_mem a ho)) (s.modCore a (fun x => { x with shadow := g a }))
    have hac : c ≠ a := fun hca => h a List.mem_cons_self hca.symm
    refine ⟨hms, hself.trans (core_modCore_ne s _ hac), fun o => (hother o).trans ?_⟩
    rw [core_modCore]
    split
    · next ho => subst ho; rfl
    · rfl

theorem tileRead_spec (s : State) (c : Nat) (k : KeptTile) : (s.tileRead c k).ms.mem = s.ms.mem ∧ (s.tileRead c k).core c = s.core c ∧
    ∀ o, (s.tileRead c k).core o = { s.core o with shadow := ((s.tileRead c k).core o).shadow } := by
  obtain ⟨⟨-, hcores, -⟩, hmem, -⟩ := readDone_keeps s k.addr k.bytes.length
  let u := ((s.readDone k.addr k.bytes.length).countBurst (clusterOf c) 10 k.addr k.bytes.length).bumpCluster (clusterOf c) 13 1
  have hu : ∀ o, u.core o = s.core o := core_of_cores hcores
  obtain ⟨hms, hself, hother⟩ := foldl_shadow c (fun o => u.pendingLoad o k)
    ((coresOf (clusterOf c)).filter (fun o => decide (o ≠ c) && (u.pendingLoad o k).isSome))
    (fun o ho => by have := (List.mem_filter.mp ho).2; simp at this; exact this.1) u
  refine ⟨(congrArg MemSys.mem hms).trans hmem, hself.trans (hu c), fun o => ?_⟩
  have ho := hother o
  rw [hu o] at ho
  exact ho

/-- An instruction that begins to wait for its weights is marked, and counted at its core and at its job's slot. -/
theorem beginWait_spec (s : State) (c : Nat) (e : QEntry) (h : e.waitFrom = none) : (s.beginWait c e).ms = s.ms ∧
    (s.beginWait c e).core c = { (s.core c).withEntry e.ord (fun q => { q with waitFrom := some s.pacing.toNat }) with
      ctr := ((s.beginWait c e).core c).ctr } := by
  have hcore : ((s.bumpCoreFree c 5).modEntry c e.ord (fun q => { q with waitFrom := some s.pacing.toNat })).core c =
      { (s.core c).withEntry e.ord (fun q => { q with waitFrom := some s.pacing.toNat }) with
        ctr := mmod 0 (s.core c).ctr 5 (fun v => v + s.draw.1) } := by
    rw [core_modEntry, State.bumpCoreFree, core_modCore_self]; rfl
  simp only [State.beginWait, h, Option.isSome_none, Bool.false_eq_true, if_false]
  split
  · exact ⟨rfl, Core.eq_withCtr hcore⟩
  · exact ⟨rfl, Core.eq_withCtr hcore⟩

end Sys2Proof.Machine

/-! PROOFS. TILE_START (R72, R97, R129, R130, R296, R337), part three: exchanges, reuse checks, claims and the settled statement. -/

namespace Sys2Proof.Machine

/-! ## Exchanges and reuse checks -/

/-- The operation that an exchange instruction opens (R337). -/
def State.opened (s : State) (c : CoreId) (job : Job) (e : QEntry) (f : Fam) : ExOp :=
  let r := s.routeEntry (xGroup e.d)
  { die := dieOfCore c, tag := rtTag r, xseq := BitVec.ofNat 16 (xSeq e.d), group := xGroup e.d, opc := BitVec.ofNat 8 (dOpc e.d),
    level := xLevel e.d, core := c, ord := e.ord, job := job.id
    total := if f = .mmaAg then exSize r (xLevel e.d) * agPart e.d else exVector f e.d
    int32 := (decide (f = .moveAr) && decide (vRType e.d = 1)) || (decide (f = .mmaRs) && decide ((dOp1 e.d).fmt = fmtInt8)) }

theorem openOp_of_new {s : State} {c : CoreId} {job : Job} {e : QEntry} {f : Fam} (hx : f.isExch = true) (hf : f ≠ .attnRelay)
    (hnew : ∀ o ∈ s.net.ops, ¬ (o.core = c ∧ o.ord = e.ord ∧ o.job = job.id)) :
    s.openOp c job e f = s.withNet (fun n => { n with ops := n.ops ++ [s.opened c job e f] }) := by
  have hcc : (Fin.ofNat 192 c.val : CoreId) = c := Fin.ext (Nat.mod_eq_of_lt c.isLt)
  have hany : s.net.ops.any (fun o => o.isOf job.id c.val e.ord) = false := by
    rw [List.any_eq_false]
    intro o ho hof
    simp only [ExOp.isOf, Bool.and_eq_true, decide_eq_true_eq] at hof
    exact hnew o ho ⟨Fin.ext hof.1.1, hof.1.2, hof.2⟩
  simp only [State.openOp, hx, hf, hcc, hany, decide_false, Bool.not_true, Bool.or_self, Bool.false_eq_true, if_false]
  rfl

/-- A REUSE.CHK's block is opened, and its tab where one opens; the valid bit has been read. -/
def State.reuseOpened (s : State) (c : Nat) (opens : Bool) (blk : ReuseBlock) (tab : Tab) (n : Nat) : State :=
  let v := s.modCore c (fun x => { x with
    blocks := x.blocks.filter (fun b => decide (b.chk ≠ blk.chk)) ++ [blk]
    tabs := if opens then x.tabs ++ [tab] else x.tabs })
  let w := if opens then v.bumpCore c 12 1 else v
  w.readDone (w.dv 0x0E00 1 + n) 1

theorem reuseOpened_spec (s : State) (c : Nat) (opens : Bool) (blk : ReuseBlock) (tab : Tab) (n : Nat) :
    (s.reuseOpened c opens blk tab n).ms.mem = s.ms.mem ∧ (s.reuseOpened c opens blk tab n).core c = { s.core c with
      blocks := (s.core c).blocks.filter (fun b => decide (b.chk ≠ blk.chk)) ++ [blk]
      tabs := if opens then (s.core c).tabs ++ [tab] else (s.core c).tabs
      ctr := ((s.reuseOpened c opens blk tab n).core c).ctr } := by
  let v := s.modCore c (fun x => { x with
    blocks := x.blocks.filter (fun b => decide (b.chk ≠ blk.chk)) ++ [blk]
    tabs := if opens then x.tabs ++ [tab] else x.tabs })
  obtain ⟨⟨-, hcores, -⟩, hmem, -⟩ := readDone_keeps (if opens then v.bumpCore c 12 1 else v) ((if opens then v.bumpCore c 12 1 else v).dv 0x0E00 1 + n) 1
  have hcore : (s.reuseOpened c opens blk tab n).core c = (if opens then v.bumpCore c 12 1 else v).core c := core_of_cores hcores c
  have hv : v.core c = _ := core_modCore_self s c _
  refine ⟨hmem.trans (by cases opens <;> rfl), ?_⟩
  cases opens with
  | false =>
    have hplain : (if false = true then v.bumpCore c 12 1 else v).core c = v.core c := rfl
    rw [hcore, hplain, hv]
  | true =>
    have hbump := core_bumpCore v c 12 1 c
    rw [hv] at hbump
    rw [hcore]; exact hbump

/-- What the predictor of a REUSE.CHK's site says (R305). -/
def State.predictsReuse (s : State) (c : Nat) (e : QEntry) : Bool :=
  let p := mget {} (s.core c).predictors (uEntry e.d % 1024)
  if s.sitePred (bits (uEntry e.d) 23 20) = 1 then p.last else decide (2 ≤ p.count)

/-- Starting a REUSE.CHK reads its valid bit, opens its block, and starts it. -/
theorem startReuse_of_read {s : State} {c : Nat} {job : Job} {e : QEntry} {bs : List Byte} (hblocks : (s.core c).blocks = [])
    (htabs : (s.core c).tabs = []) (hr : s.memRead (s.dv 0x0E00 1 + uEntry e.d / 8) 1 = .ok bs) :
    let valid := bit (leNat bs) (uEntry e.d % 8)
    let t := s.startReuse c job e
    t.ms.mem = s.ms.mem ∧ (t.core c).store = (s.core c).store ∧ (t.core c).acc = (s.core c).acc ∧
      (t.core c).queue = (s.core c).queue.map (fun q => if q.ord = e.ord then
        { q with phase := .running, computed := valid, outcome := if valid then none else some false } else q) ∧
      (valid = false → (t.core c).tabs = []) ∧
      ∃ b, (t.core c).blocks = [b] ∧ b.chk = e.ord.toNat ∧ b.last = e.ord.toNat + uSpan e.d ∧ b.desc = e.desc ∧
        (valid = false → b.skip = false ∧ b.decided = true) := by
  intro valid t
  obtain ⟨opens, pred, tab, hquiet, ht⟩ : ∃ (opens pred : Bool) (tab : Tab), (valid = false → opens = false) ∧
      t = (s.reuseOpened c opens ⟨e.ord.toNat, e.ord.toNat + uSpan e.d, e.desc, opens && pred, opens || !valid⟩ tab
        (uEntry e.d / 8)).modEntry c e.ord (fun q => { q with
          phase := .running, computed := valid, outcome := if valid then none else some false }) := by
    refine ⟨valid && decide (job.tabBytes ≠ 0) && decide (s.tabState = 1) && decide (s.sitePred (bits (uEntry e.d) 23 20) ≠ 0),
      s.predictsReuse c e, { id := e.ord.toNat, pred := s.predictsReuse c e }, fun hv => by rw [hv]; rfl, ?_⟩
    simp only [t, State.startReuse, hr]
    rfl
  obtain ⟨hmem, hcore⟩ := reuseOpened_spec s c opens ⟨e.ord.toNat, e.ord.toNat + uSpan e.d, e.desc, opens && pred, opens || !valid⟩ tab
    (uEntry e.d / 8)
  rw [hblocks, htabs] at hcore
  have htc := congrArg (fun u : State => u.core c) ht
  simp only [core_modEntry] at htc
  rw [hcore] at htc
  refine ⟨?_, ?_, ?_, ?_, fun hv => ?_,
    ⟨⟨e.ord.toNat, e.ord.toNat + uSpan e.d, e.desc, opens && pred, opens || !valid⟩, ?_, rfl, rfl, rfl, fun hv => ?_⟩⟩
  · rw [ht]; exact hmem
  · rw [htc]; rfl
  · rw [htc]; rfl
  · rw [htc]; rfl
  · rw [htc, hquiet hv]; rfl
  · rw [htc]; rfl
  · rw [hquiet hv, hv]; exact ⟨rfl, rfl⟩

/-! ## Claims (R129, R130) -/

/-- An entry that has claimed an index, or found its counter exhausted. -/
def QEntry.claims (i clip : Option Nat) (last : Bool) (q : QEntry) : QEntry :=
  { q with claimed := true, claim := i, clip := clip, chainEnd := last }

section
variable {s : State} {c : Nat} {job : Job} {e : QEntry} {f : Fam} (hc : dClaim e.d = true) (hnew : e.claimed = false)
include hc hnew

theorem startPorts_of_closed {o : OpenClaim} (ho : (s.core c).claims.find? (fun o => o.work == dWork e.d) = some o) (hleft : o.left = 0)
    (ahead : List QEntry) : s.startPorts c job e f ahead = s := by
  simp only [State.startPorts, State.lookClaim, hc, hnew, ho, hleft, Bool.not_true, Bool.false_eq_true, if_false, if_true]

section
variable (hnone : (s.core c).claims.find? (fun o => o.work == dWork e.d) = none) (hlen : (s.core c).claims.length < 4)
  (hok : workBad (s.workRec job (dWork e.d)).2.2 = false)
include hnone hlen hok

theorem startPorts_of_index (hnext : bits (s.workRec job (dWork e.d)).2.2 31 0 < bits (s.workRec job (dWork e.d)).2.2 63 32) (ahead : List QEntry) :
    let k := (s.workRec job (dWork e.d)).1
    let off := (s.workRec job (dWork e.d)).2.1
    let r := (s.workRec job (dWork e.d)).2.2
    s.startPorts c job e f ahead = s.startBody c job e f ahead (some (bits r 31 0)) (rValid r (bits r 31 0)) true 0
      (fun s => s.makeClaim c e (.first (some (bits r 31 0)) (rValid r (bits r 31 0)) k off (bits r 127 112) 0)) := by
  simp only [State.startPorts, State.lookClaim, hc, hnew, hnone, if_neg (Nat.not_le.mpr hlen), hok, Bool.not_true, Bool.false_eq_true,
    if_false, hnext, if_true, Option.bind_some, Option.isSome_some]

theorem startPorts_of_exhausted (hnext : bits (s.workRec job (dWork e.d)).2.2 63 32 ≤ bits (s.workRec job (dWork e.d)).2.2 31 0)
    (ahead : List QEntry) :
    let k := (s.workRec job (dWork e.d)).1
    let off := (s.workRec job (dWork e.d)).2.1
    let r := (s.workRec job (dWork e.d)).2.2
    s.startPorts c job e f ahead = s.startBody c job e f ahead none none false 0
      (fun s => s.makeClaim c e (.first none none k off (bits r 127 112) 0)) := by
  simp only [State.startPorts, State.lookClaim, hc, hnew, hnone, if_neg (Nat.not_le.mpr hlen), hok, Bool.not_true, Bool.false_eq_true,
    if_false, if_neg (Nat.not_lt.mpr hnext), Option.bind_none, Option.isSome_none]

end
end

/-- Where a chain's claim finds the counter exhausted, an instruction that meets no illegal check retires EMPTY. -/
theorem startBody_of_exhausted {s : State} {c : Nat} {job : Job} {e : QEntry} {f : Fam} {ahead : List QEntry} (htabs : (s.core c).tabs = [])
    (hattn : f.isAttn = false) (hcrop : f ≠ .crop) (hscat : f ≠ .scatKv)
    (hok : s.startIllegal c job e f [] none false false = false) (claim : State → State) :
    s.startBody c job e f ahead none none false 0 claim = (claim s).finishAt c e none iEmpty := by
  have htab : (s.core c).tabFor e.ord.toNat = none := by simp [Core.tabFor, htabs]
  have hclear : s.clearOf c ahead { cr := [] } = true := clearOf_empty s c ahead
  simp only [State.startBody, hattn, hcrop, hscat, hok, htab, hclear, decide_false, Bool.or_self, Bool.false_and,
    Bool.false_eq_true, if_false, Bool.not_true, Bool.not_false, Bool.true_or, if_true, ne_eq, not_true_eq_false, or_self]

theorem scRead_of_scache {s t : State} {k : Nat} (h : (t.cluster k).scache = (s.cluster k).scache) (off n : Nat) :
    t.scRead k off n = s.scRead k off n := by simp only [State.scRead, h]

theorem OnlyCore.scache {c : Nat} {s t : State} (h : OnlyCore c s t) (k : Nat) : (t.cluster k).scache = (s.cluster k).scache := by
  by_cases hk : k = clusterOf c
  · subst hk; rw [h.2.2.2]
  · rw [h.2.2.1 k hk]

theorem core_claimed (s : State) (c : Nat) (ord : Word) (o : OpenClaim) (g : QEntry → QEntry) :
    ((s.modCore c (fun x => { x with claims := x.claims ++ [o] })).modEntry c ord g).core c =
      { (s.core c).withEntry ord g with claims := (s.core c).claims ++ [o] } := by
  rw [core_modEntry, core_modCore_self]; rfl

/-- The first member of a chain takes the next index of its record, and opens the chain. -/
theorem makeClaim_of_index (s : State) (c : Nat) (e : QEntry) (n k off chain : Nat) (clip : Option Nat) (code : Byte) (hn : n + 1 < 2 ^ 32) :
    let t := s.makeClaim c e (.first (some n) clip k off chain code)
    t.ms = s.ms ∧ t.scRead k off 4 = n + 1 ∧
    t.core c = { (s.core c).withEntry e.ord (QEntry.claims (some n) clip (decide (chain = 1))) with
      claims := (s.core c).claims ++ [⟨dWork e.d, n, chain - 1, false⟩] } := by
  intro t
  refine ⟨rfl, ?_, core_claimed _ c e.ord _ _⟩
  have hsc : (t.cluster k).scache = ((s.scWrite k off 4 (n + 1)).cluster k).scache :=
    ((scache_bumpCluster _ k 7 1 k).trans (scache_bumpCluster _ k 5 1 k)).trans (scache_bumpCluster _ (clusterOf c) 15 1 k)
  rw [scRead_of_scache hsc, State.scRead, scache_scWrite, if_pos rfl, Mem.readLE_writeLE]
  omega

/-- A chain whose claim finds the counter exhausted takes no index. -/
theorem makeClaim_of_exhausted (s : State) (c : Nat) (e : QEntry) (k off chain : Nat) (code : Byte) :
    let t := s.makeClaim c e (.first none none k off chain code)
    t.ms = s.ms ∧ (∀ m i, t.scRead m i 1 = s.scRead m i 1) ∧
    t.core c = { (s.core c).withEntry e.ord (QEntry.claims none none (decide (chain = 1))) with
      claims := (s.core c).claims ++ [⟨dWork e.d, 0, chain - 1, true⟩] } := by
  intro t
  refine ⟨rfl, fun m i => scRead_of_scache ?_ i 1, core_claimed _ c e.ord _ _⟩
  exact (scache_bumpCluster _ k 7 1 m).trans (scache_bumpCluster s k 5 1 m)

end Sys2Proof.Machine

/-! PROOFS. TILE_START (R72, R142), part four: each kind of instruction that meets its start conditions, and the settled statement. -/

namespace Sys2Proof.Machine

/-! ## After the checks -/

/-- An attention instruction whose mask is enabled and malformed (R209). -/
def badMask (f : Fam) (m : Mem) (d : Nat) (clip : Option Nat) : Bool :=
  f.isAttn && (attnRec m d).maskEn && maskMalformed m (attnRec m d).mask ((dSop1 d).clip clip).rows (dSop2 d).rows

theorem filled_of_imp {s : State} {c : Nat} {e : QEntry} {f : Fam} (hfill : f.isConv = true → s.fillsDone c e f = true) :
    (f.isConv && !s.fillsDone c e f) = false := by
  cases hc : f.isConv with
  | false => rfl
  | true => rw [hfill hc]; rfl

section
variable {s : State} {c : Nat} {job : Job} {e : QEntry} {f : Fam} {clip : Option Nat} {its : List Nat} {r : IterRngs} {m : Mem}
  (hempty : emptyOutput f e.d clip = false) (hmask : badMask f m e.d clip = false)
include hempty hmask

theorem startClaimed_of_stop {u : State} (hl : s.loadWeights c e f none = .stop u) : s.startClaimed c job e f clip its r m = u := by
  unfold badMask at hmask
  simp only [State.startClaimed, hempty, hmask, hl, Bool.false_eq_true, if_false]

theorem startClaimed_of_unfilled (hl : s.loadWeights c e f none = .none) (hconv : f.isConv = true) (hfill : s.fillsDone c e f = false) :
    s.startClaimed c job e f clip its r m = s := by
  unfold badMask at hmask
  simp only [State.startClaimed, hempty, hmask, hl, hconv, hfill, Bool.false_eq_true, if_false, Bool.not_false, Bool.and_self, if_true]

theorem startClaimed_of_none (hl : s.loadWeights c e f none = .none) (hfill : f.isConv = true → s.fillsDone c e f = true) :
    s.startClaimed c job e f clip its r m = s.launch c job { e with clip := clip } f none its r .none := by
  have hfill' := filled_of_imp hfill
  unfold badMask at hmask
  simp only [State.startClaimed, hempty, hmask, hl, hfill', Bool.false_eq_true, if_false]

theorem startClaimed_of_tile {k : KeptTile} {read : Bool} (hl : s.loadWeights c e f none = .tile k read)
    (hfill : f.isConv = true → s.fillsDone c e f = true) :
    s.startClaimed c job e f clip its r m = s.launch c job { e with clip := clip } f none its r (.tile k read) := by
  have hfill' := filled_of_imp hfill
  unfold badMask at hmask
  simp only [State.startClaimed, hempty, hmask, hl, hfill', Bool.false_eq_true, if_false]

end

/-! ## A start that meets every condition -/

theorem adapterErr_of_plain {s : State} {f : Fam} {d : Nat} (h : f ≠ .mmaLa) : s.adapterErr f d = none := if_neg h

theorem rangeArg_of_plain {s : State} {f : Fam} {d : Nat} (hla : f ≠ .mmaLa) (hrs : f ≠ .mmaRs) : s.rangeArg f d = 0 := by
  rw [State.rangeArg, if_neg hla, if_neg hrs]

theorem its_of_unclaimed {e : QEntry} (h : e.claim = none) : e.its = itsOf e none := by simp only [QEntry.its, h, itsOf_none]

theorem clip_eta {e : QEntry} (h : e.clip = none) : { e with clip := none } = e := by rw [← h]

theorem emptyOutput_of_meets {s : State} {c : Nat} {job : Job} {e : QEntry} {f : Fam} {its : List Nat} {clip : Option Nat}
    (hm : s.meetsStart c job e f its clip) : emptyOutput f e.d clip = false := by
  obtain ⟨-, -, -, -, -, -, -, -, -, hempty, -⟩ := hm
  exact hempty

theorem badMask_of_meets {s : State} {c : Nat} {job : Job} {e : QEntry} {f : Fam} {its : List Nat} {clip : Option Nat} (hm : s.meetsStart c job e f its clip) :
    badMask f (s.core c).store e.d clip = false := by
  obtain ⟨-, -, -, -, -, -, -, -, -, -, hmask⟩ := hm
  cases hattn : f.isAttn with
  | false => simp only [badMask, hattn, Bool.false_and]
  | true =>
    cases hen : (attnRec (s.core c).store e.d).maskEn with
    | false => simp only [badMask, hen, Bool.and_false, Bool.false_and]
    | true => simp only [badMask, hattn, hen, hmask hattn hen, Bool.and_false]

section
variable {s : State} {c : CoreId} {job : Job} {e : QEntry} {f : Fam} (h : s.opensTo c job e)
include h

theorem tileStart_of_free (hf : e.fam = some f) (had : s.adapterErr f e.d = none) (hlegal : s.tileLegal c job (s.core c) e f = true)
    (hports : f.ports ≠ 0) (hfree : (s.core c).portsFree f.ports = true)
    (hbank : bankClear ((s.core c).queue.takeWhile (fun q => decide (q.ord ≠ e.ord))) f e.d = true) :
    s.tileStart c = s.startPorts c job e f (((s.core c).queue.takeWhile (fun q => decide (q.ord ≠ e.ord))).filter QEntry.inFlight) :=
  (tileStart_of_legal h hf had hlegal).trans (startLegal_of_free h hports hfree hbank)

theorem tileStart_of_busy (hf : e.fam = some f) (had : s.adapterErr f e.d = none) (hlegal : s.tileLegal c job (s.core c) e f = true)
    (hports : f.ports ≠ 0) (hbusy : (s.core c).portsFree f.ports = false ∨
      bankClear ((s.core c).queue.takeWhile (fun q => decide (q.ord ≠ e.ord))) f e.d = false) : s.tileStart c = s :=
  (tileStart_of_legal h hf had hlegal).trans (startLegal_of_busy h hports hbusy)

/-- A start that holds back wherever its ports and its bank are free holds back. -/
theorem tileStart_of_held (hf : e.fam = some f) (had : s.adapterErr f e.d = none) (hlegal : s.tileLegal c job (s.core c) e f = true)
    (hports : f.ports ≠ 0) (hheld : ∀ ahead, ahead = ((s.core c).queue.takeWhile (fun q => decide (q.ord ≠ e.ord))).filter QEntry.inFlight →
      s.startPorts c job e f ahead = s) : s.tileStart c = s := by
  by_cases hbusy : (s.core c).portsFree f.ports = false ∨
      bankClear ((s.core c).queue.takeWhile (fun q => decide (q.ord ≠ e.ord))) f e.d = false
  · exact tileStart_of_busy h hf had hlegal hports hbusy
  · rw [not_or, Bool.not_eq_false, Bool.not_eq_false] at hbusy
    rw [tileStart_of_free h hf had hlegal hports hbusy.1 hbusy.2]
    exact hheld _ rfl

/-- What meets its start conditions goes on with its claim. -/
theorem startBody_of_meets {j clip : Option Nat} (hm : s.meetsStart c job e f (itsOf e j) clip) (claim : State → State) :
    s.startBody c job e f (((s.core c).queue.takeWhile (fun q => decide (q.ord ≠ e.ord))).filter QEntry.inFlight) j clip true 0 claim =
      (claim s).startClaimed c job e f clip (itsOf e j) (s.startRanges c e f (itsOf e j) clip) (s.core c).store := by
  obtain ⟨-, -, -, -, htabs, -⟩ := h
  obtain ⟨-, -, -, hbase, hrecs, hall, hscat, hillegal, hover, -⟩ := hm
  rw [startBody_of_clear htabs ⟨hbase, hrecs, hall, hscat⟩, hillegal]
  have hno : ¬ (overflowCode f job e.d (s.startRanges c e f (itsOf e j) clip) (emptyOutput f e.d clip) ≠ 0 ∨ (0 : Byte) ≠ 0) := by
    rintro (h | h)
    · exact h hover
    · exact h rfl
  rw [if_neg Bool.false_ne_true, if_neg hno]

/-- A plain instruction that meets its start conditions comes to its weights. -/
theorem tileStart_of_meets (hf : e.fam = some f) (had : s.adapterErr f e.d = none) (hlegal : s.tileLegal c job (s.core c) e f = true)
    (hc : dClaim e.d = false) (hclaim : e.claim = none) (hnew : e.claimed = false) (hm : s.meetsStart c job e f e.its none) :
    s.tileStart c = s.startClaimed c job e f none e.its (s.startRanges c e f e.its none) (s.core c).store := by
  rw [its_of_unclaimed hclaim] at hm ⊢
  have hm' := hm
  obtain ⟨hports, hfree, hbank, -⟩ := hm'
  rw [tileStart_of_free h hf had hlegal hports hfree hbank, startPorts_of_plain _ hc hnew, startBody_of_meets h hm]

end

end Sys2Proof.Machine

/-! PROOFS. TILE_START (R72, R97, R113, R129, R337), part five: the starts by family. -/

namespace Sys2Proof.Machine

section
variable {s : State} {c : CoreId} {job : Job} {e : QEntry} {f : Fam} (h : s.opensTo c job e)
include h

/-! ## Families of the vector and memory ports without a claim -/

theorem tileStart_of_port (hf : e.fam = some f) (hlegal : s.tileLegal c job (s.core c) e f = true)
    (hfam : f ∈ [Fam.sfn, .norm, .smax, .crop, .move, .gath, .tblLoad, .scatKv]) (hc : dClaim e.d = false)
    (hclaim : e.claim = none) (hnew : e.claimed = false) (hfree : (s.core c).portsFree f.ports = true)
    (hbank : bankClear ((s.core c).queue.takeWhile (fun q => decide (q.ord ≠ e.ord))) f e.d = true)
    (hscat : f = .scatKv → s.scatWaits e = false) :
    let recs := decide (f = .crop)
    let base := descRanges f e.d e.its none 0
    let r := if recs then base.append (recRanges f (s.core c).store e.d e.its none) else base
    let before := ((s.core c).queue.takeWhile (fun q => decide (q.ord ≠ e.ord))).filter QEntry.inFlight
    s.clearOf c before base = true → s.clearOf c before r = true →
    (recs = true → s.clearOf c before { cr := headRanges f (s.core c).store e.d none } = true ∧ pastGeneral job.general { cr := base.cr } = false) →
    (s.startIllegal c job e f e.its none true recs = false → pastGeneral job.general r = false → emptyOutput f e.d none = false →
      s.tileStart c = s.goes c e) ∧
    (s.startIllegal c job e f e.its none true recs = true → s.tileStart c = s.coreFault c stIllegal 0 e.ord) ∧
    (s.startIllegal c job e f e.its none true recs = false → pastGeneral job.general r = true →
      s.tileStart c = s.coreFault c stOverflow 1 e.ord) := by
  intro recs base r before hbase hall hrecs
  obtain ⟨hports, hattn, hmma, hconv, hexch, hla, hrs, hreuse⟩ : f.ports ≠ 0 ∧ f.isAttn = false ∧ f.isMma = false ∧ f.isConv = false ∧
      f.isExch = false ∧ f ≠ .mmaLa ∧ f ≠ .mmaRs ∧ f ≠ .reuseChk := by
    have hall : ∀ f ∈ [Fam.sfn, .norm, .smax, .crop, .move, .gath, .tblLoad, .scatKv], f.ports ≠ 0 ∧ f.isAttn = false ∧ f.isMma = false ∧
        f.isConv = false ∧ f.isExch = false ∧ f ≠ .mmaLa ∧ f ≠ .mmaRs ∧ f ≠ .reuseChk := by decide
    exact hall f hfam
  have htabs : (s.core c).tabs = [] := h.2.2.2.2.1
  have hits := its_of_unclaimed hclaim
  have harg : s.rangeArg f e.d = 0 := rangeArg_of_plain hla hrs
  have hrecs' : (f.isAttn || decide (f = .crop)) = recs := by rw [hattn, Bool.false_or]
  have hr : s.startRanges c e f e.its none = r := by simp only [State.startRanges, hrecs', harg]; rfl
  have hclear : s.clearsStart c job e f e.its none before := by
    refine ⟨by rw [harg]; exact hbase, fun hx => ?_, by rw [hr]; exact hall, hscat⟩
    rw [harg]
    exact (hrecs (hrecs' ▸ hx)).symm
  have hover : overflowCode f job e.d r (emptyOutput f e.d none) = if pastGeneral job.general r then 1 else 0 := by
    simp only [overflowCode, hconv, Bool.false_and, Bool.false_eq_true, if_false]
  have hbody := startBody_of_clear (j := none) htabs (hits ▸ hclear) 0 (fun s => s)
  rw [← hits, hr, hrecs', hover] at hbody
  rw [tileStart_of_free h hf (adapterErr_of_plain hla) hlegal hports hfree hbank, startPorts_of_plain _ hc hnew, hbody]
  refine ⟨fun hill hpast hempty => ?_, fun hill => if_pos hill, fun hill hpast => ?_⟩
  · rw [if_neg (by rw [hill]; decide), hpast]
    refine (startClaimed_of_none hempty (by simp only [badMask, hattn, Bool.false_and])
      (loadWeights_of_other (by rw [hmma, hconv]; rfl) none) (fun hx => by rw [hconv] at hx; cases hx)).trans ?_
    exact launch_of_none hreuse hattn hexch
  · rw [if_neg (by rw [hill]; decide), hpast]; rfl

/-! ## Sync instructions -/

theorem tileStart_of_sync (hf : e.fam = some f) (hlegal : s.tileLegal c job (s.core c) e f = true) (hfam : f = .wait ∨ f = .post) :
    s.tileStart c = s.finishAt c e none iOk := by
  rcases hfam with rfl | rfl <;>
  · rw [tileStart_of_legal h hf (adapterErr_of_plain (by decide)) hlegal, startLegal_of_opens h]
    rfl

theorem startFam_of_candidate (hf : e.fam = some f) : s.startFam c f = s.tileStart c := by
  simp only [State.startFam, h.2.1, hf, if_true]

/-- A BAR waits for the commits of the instructions ahead (R86). -/
theorem tileStart_bar_of_commits (hf : e.fam = some .bar) (hlegal : s.tileLegal c job (s.core c) e .bar = true)
    (hcom : (s.core c).commits ≠ []) : s.tileStart c = s := by
  have hne : (s.core c).commits.isEmpty = false := by simpa using hcom
  rw [tileStart_of_legal h hf (adapterErr_of_plain (by decide)) hlegal, startLegal_of_opens h]
  simp only [hne, decide_true, Bool.true_and, Bool.not_false, Bool.or_true, if_true]

theorem tileStart_bar_of_clear (hf : e.fam = some .bar) (hlegal : s.tileLegal c job (s.core c) e .bar = true)
    (hret : ∀ q ∈ (s.core c).queue.takeWhile (fun q => decide (q.ord ≠ e.ord)), q.isRetired = true) (hcom : (s.core c).commits = []) :
    s.tileStart c = (s.modEntry c e.ord (fun q => { q with arrived := true, waitMet := true, tab := none })).barArrive job.id (bChan e.d)
      (rankIn job.team (clusterOf c)) (c.val % 16) := by
  have hall : (((s.core c).queue.takeWhile (fun q => decide (q.ord ≠ e.ord))).all
      (fun q => q.isRetired || (q.isRunning && ((s.core c).ownTab q).isSome))) = true := by
    rw [List.all_eq_true]; intro q hq; rw [hret q hq, Bool.true_or]
  have hemp : (s.core c).commits.isEmpty = true := by rw [hcom]; rfl
  rw [tileStart_of_legal h hf (adapterErr_of_plain (by decide)) hlegal, startLegal_of_opens h]
  simp only [hall, hemp, Bool.not_true, Bool.or_self, Bool.and_false, Bool.false_eq_true, if_false]
  rfl

theorem bar_arrives {b : Barrier} (hf : e.fam = some .bar) (hlegal : s.tileLegal c job (s.core c) e .bar = true)
    (hret : ∀ q ∈ (s.core c).queue.takeWhile (fun q => decide (q.ord ≠ e.ord)), q.isRetired = true) (hcom : (s.core c).commits = [])
    (hjob : s.job? job.id = some job) (hb : job.barrier? (bChan e.d) = some b) :
    (∃ j', (s.tileStart c).job? job.id = some j' ∧ ∃ b', j'.barrier? (bChan e.d) = some b' ∧
      (rankIn job.team (clusterOf c), c.val % 16) ∈ b'.arrived) ∧
    ∀ q ∈ ((s.tileStart c).core c).queue, q.ord = e.ord → q.arrived = true := by
  have ht := tileStart_bar_of_clear h hf hlegal hret hcom
  rw [barArrive_eq] at ht
  have hjv := job?_modBarrier (s := s.modEntry c e.ord (fun q => { q with arrived := true, waitMet := true, tab := none })) hjob (bChan e.d)
    (Barrier.joined (rankIn job.team (clusterOf c)) (c.val % 16))
  have hbv := (barrier?_map (chan := bChan e.d) (f := Barrier.joined (rankIn job.team (clusterOf c)) (c.val % 16)) (fun _ => rfl) hb).trans
    (congrArg some (if_pos rfl))
  obtain ⟨hst, -, hbar⟩ := exchangeStep_arrive job.id (bChan e.d)
    ((s.modEntry c e.ord (fun q => { q with arrived := true, waitMet := true, tab := none })).modBarrier job.id (bChan e.d)
      (Barrier.joined (rankIn job.team (clusterOf c)) (c.val % 16)))
  rw [← ht] at hst hbar
  constructor
  · obtain ⟨j', hj', b', hb', harr⟩ := hbar _ _ hjv hbv
    exact ⟨j', hj', b', hb', by rw [harr]; exact (Barrier.mem_joined _ _ b).1⟩
  · have hcore : (s.tileStart c).core c = _ := (congrArg (fun u : State => u.core c) hst).trans (core_modEntry s c e.ord _)
    rw [hcore]
    intro q hq hord
    obtain ⟨p, -, rfl⟩ := List.mem_map.mp hq
    by_cases hp : p.ord = e.ord
    · rw [if_pos hp]
    · rw [if_neg hp] at hord; exact absurd hord hp

/-! ## Plain instructions that meet their conditions -/

section
variable (hf : e.fam = some f) (had : s.adapterErr f e.d = none) (hlegal : s.tileLegal c job (s.core c) e f = true)
  (hc : dClaim e.d = false) (hclip : e.clip = none) (hclaim : e.claim = none) (hnew : e.claimed = false)
  (hm : s.meetsStart c job e f e.its none)
include hf had hlegal hc hclaim hnew hm

theorem tileStart_of_stop {u : State} (hl : s.loadWeights c e f none = .stop u) : s.tileStart c = u := by
  rw [tileStart_of_meets h hf had hlegal hc hclaim hnew hm]
  exact startClaimed_of_stop (emptyOutput_of_meets hm) (badMask_of_meets hm) hl

theorem tileStart_of_unfilled (hl : s.loadWeights c e f none = .none) (hconv : f.isConv = true) (hfill : s.fillsDone c e f = false) :
    s.tileStart c = s := by
  rw [tileStart_of_meets h hf had hlegal hc hclaim hnew hm]
  exact startClaimed_of_unfilled (emptyOutput_of_meets hm) (badMask_of_meets hm) hl hconv hfill

include hclip

theorem tileStart_of_none (hl : s.loadWeights c e f none = .none) (hfill : f.isConv = true → s.fillsDone c e f = true) :
    s.tileStart c = s.launch c job e f none e.its (s.startRanges c e f e.its none) .none := by
  rw [tileStart_of_meets h hf had hlegal hc hclaim hnew hm,
    startClaimed_of_none (emptyOutput_of_meets hm) (badMask_of_meets hm) hl hfill, clip_eta hclip]

theorem tileStart_of_tile {k : KeptTile} {read : Bool} (hl : s.loadWeights c e f none = .tile k read)
    (hfill : f.isConv = true → s.fillsDone c e f = true) :
    s.tileStart c = s.launch c job e f none e.its (s.startRanges c e f e.its none) (.tile k read) := by
  rw [tileStart_of_meets h hf had hlegal hc hclaim hnew hm,
    startClaimed_of_tile (emptyOutput_of_meets hm) (badMask_of_meets hm) hl hfill, clip_eta hclip]

end
end

end Sys2Proof.Machine

/-! PROOFS. TILE_START (R28, R113, R129, R130, R209, R296, R337), part six: weights, attention, exchanges, reuse checks and claims,
and the settled statement. -/

namespace Sys2Proof.Machine

theorem StartsOnly.ms {c : Nat} {e : QEntry} {s t : State} (h : StartsOnly c e s t) : t.ms = s.ms := h.1.1.1

theorem StartsOnly.core_ne {c : Nat} {e : QEntry} {s t : State} (h : StartsOnly c e s t) {o : Nat} (ho : o ≠ c) : t.core o = s.core o :=
  h.1.2.1 o ho

theorem StartsOnly.scache {c : Nat} {e : QEntry} {s t : State} (h : StartsOnly c e s t) (k : Nat) :
    (t.cluster k).scache = (s.cluster k).scache := OnlyCore.scache h.1 k

/-- A change of the core that keeps its queue, before the entry runs. -/
theorem goes_modCore (s : State) (c : Nat) (e : QEntry) (g : Core → Core) (hq : ∀ x, (g x).queue = x.queue) :
    StartsOnly c e s ((s.modCore c g).goes c e) ∧ ((s.modCore c g).goes c e).core c = (g (s.core c)).withEntry e.ord QEntry.started := by
  obtain ⟨honly, hcore⟩ := goes_spec (s.modCore c g) c e
  exact ⟨honly.of_modCore hq, hcore.trans (by rw [core_modCore_self])⟩

/-! ## Plain instructions -/

section
variable {s : State} {c : CoreId} {job : Job} {e : QEntry} {f : Fam} (h : s.opensTo c job e) (hf : e.fam = some f)
  (had : s.adapterErr f e.d = none) (hlegal : s.tileLegal c job (s.core c) e f = true) (hc : dClaim e.d = false)
  (hclip : e.clip = none) (hclaim : e.claim = none) (hnew : e.claimed = false) (hm : s.meetsStart c job e f e.its none)
include h hf had hlegal hc hclip hclaim hnew hm

/-! ### Instructions with weights (R113, R125, R189) -/

section
variable (hfam : f ∈ [Fam.mma, .mmaLa, .conv, .convDw])
include hfam

omit h hf had hlegal hc hclip hclaim hnew hm in
theorem weights_cases : (f = .mma ∨ f = .mmaLa ∨ f = .conv ∨ f = .convDw) ∧ f ≠ .reuseChk ∧ f.isAttn = false ∧ f.isExch = false := by
  have hall : ∀ f ∈ [Fam.mma, .mmaLa, .conv, .convDw],
      (f = .mma ∨ f = .mmaLa ∨ f = .conv ∨ f = .convDw) ∧ f ≠ .reuseChk ∧ f.isAttn = false ∧ f.isExch = false := by decide
  exact hall f hfam

theorem weights_kept (hhit : keptHit f e.d (s.core c).kept = true) (hfill : f.isConv = true → s.fillsDone c e f = true) :
    StartsOnly c e s (s.tileStart c) ∧ (s.tileStart c).core c = (s.core c).withEntry e.ord QEntry.started := by
  obtain ⟨-, hreuse, hattn, hexch⟩ := weights_cases hfam
  rw [tileStart_of_none h hf had hlegal hc hclip hclaim hnew hm (loadWeights_of_kept hhit none) hfill, launch_of_none hreuse hattn hexch]
  exact goes_spec s c e

omit hclip hfam in
theorem weights_unfilled (hhit : keptHit f e.d (s.core c).kept = true) (hfill : ¬ (f.isConv = true → s.fillsDone c e f = true)) :
    s.tileStart c = s := by
  rw [Classical.not_imp, Bool.not_eq_true] at hfill
  exact tileStart_of_unfilled h hf had hlegal hc hclaim hnew hm (loadWeights_of_kept hhit none) hfill.1 hfill.2

section
variable (hmiss : keptHit f e.d (s.core c).kept = false)
include hmiss

theorem weights_shadow {k : KeptTile} (hs : (s.core c).shadow = some (e.ord, k)) (hfill : f.isConv = true → s.fillsDone c e f = true) :
    StartsOnly c e s (s.tileStart c) ∧
      (s.tileStart c).core c = { (s.core c).withEntry e.ord QEntry.started with kept := some k, shadow := none } := by
  obtain ⟨hcases, hreuse, -, hexch⟩ := weights_cases hfam
  rw [tileStart_of_tile h hf had hlegal hc hclip hclaim hnew hm (loadWeights_of_shadow hcases hmiss hs none) hfill,
    launch_of_tile hreuse hexch]
  exact goes_modCore s c e (fun x => { x with kept := some k, shadow := none }) fun _ => rfl

section
variable (hs : ∀ k, (s.core c).shadow ≠ some (e.ord, k))
include hs

theorem weights_read {bs : List Byte} (hg : s.weightGate (mWAddr e.d) ((keptFor f e.d).tiles * tileBytes (mWFmt e.d)) = .ok)
    (hr : s.memRead (mWAddr e.d) ((keptFor f e.d).tiles * tileBytes (mWFmt e.d)) = .ok bs)
    (hfill : f.isConv = true → s.fillsDone c e f = true) :
    (s.tileStart c).ms.mem = s.ms.mem ∧
      (s.tileStart c).core c = { (s.core c).withEntry e.ord QEntry.started with
        kept := some { keptFor f e.d with bytes := bs }, shadow := none } ∧
      ∀ o, o ≠ c.val → (s.tileStart c).core o = { s.core o with shadow := ((s.tileStart c).core o).shadow } := by
  obtain ⟨hcases, hreuse, -, hexch⟩ := weights_cases hfam
  rw [tileStart_of_tile h hf had hlegal hc hclip hclaim hnew hm (loadWeights_of_read hcases hmiss hs hg hr none) hfill,
    launch_of_tile hreuse hexch, if_pos rfl]
  obtain ⟨hmem, hself, hother⟩ := tileRead_spec
    (s.modCore c (fun x => { x with kept := some { keptFor f e.d with bytes := bs }, shadow := none })) c { keptFor f e.d with bytes := bs }
  obtain ⟨honly, hcore⟩ := goes_spec ((s.modCore c (fun x => { x with
    kept := some { keptFor f e.d with bytes := bs }, shadow := none })).tileRead c { keptFor f e.d with bytes := bs }) c e
  refine ⟨(congrArg MemSys.mem honly.ms).trans hmem, hcore.trans ?_, fun o ho => ?_⟩
  · rw [hself, core_modCore_self]; rfl
  · have hshadow := hother o
    rw [core_modCore_ne s _ ho] at hshadow
    rw [honly.core_ne ho]; exact hshadow

omit hclip in
theorem weights_wait (hg : s.weightGate (mWAddr e.d) ((keptFor f e.d).tiles * tileBytes (mWFmt e.d)) = .wait) (hw : e.waitFrom = none) :
    (s.tileStart c).ms = s.ms ∧ (s.tileStart c).core c = { (s.core c).withEntry e.ord (fun q => { q with waitFrom := some s.pacing.toNat }) with
      ctr := ((s.tileStart c).core c).ctr } := by
  rw [tileStart_of_stop h hf had hlegal hc hclaim hnew hm (loadWeights_of_wait (weights_cases hfam).1 hmiss hs hg none)]
  exact beginWait_spec s c e hw

omit hclip in
theorem weights_failed (hg : s.weightGate (mWAddr e.d) ((keptFor f e.d).tiles * tileBytes (mWFmt e.d)) = .failed) :
    StartsOnly c e s (s.tileStart c) ∧ (s.tileStart c).core c =
      (s.core c).withEntry e.ord (fun q => { q with tab := none, waitMet := true, waitFrom := none, phase := .done iTierError }) := by
  rw [tileStart_of_stop h hf had hlegal hc hclaim hnew hm (loadWeights_of_failed (weights_cases hfam).1 hmiss hs hg none)]
  exact finishAt_spec s c e iTierError

end
end
end

/-! ### Attention, exchanges and reuse checks -/

omit h hf had hlegal hc hclip hclaim hnew hm in
/-- Whether an attention instruction reads K and V into the weight buffers, which ends what they keep (R113, R209). -/
theorem goes_attn (s : State) (c : Nat) (e : QEntry) (b : Bool) :
    let t := (if b then s else s.modCore c (fun x => { x with kept := none, shadow := none })).goes c e
    StartsOnly c e s t ∧ t.core c = if b then (s.core c).withEntry e.ord QEntry.started
      else { (s.core c).withEntry e.ord QEntry.started with kept := none, shadow := none } := by
  cases b with
  | true => exact goes_spec s c e
  | false => exact goes_modCore s c e (fun x => { x with kept := none, shadow := none }) fun _ => rfl

theorem attention_starts (hfam : f ∈ [Fam.attnFwd, .attnBwd, .attnRelay]) : StartsOnly c e s (s.tileStart c) ∧ (s.tileStart c).core c =
    if e.computed || attnAllSkip (s.core c).store (attnRec (s.core c).store e.d) (dSop1 e.d).rows (dSop2 e.d).rows then
      (s.core c).withEntry e.ord QEntry.started
    else { (s.core c).withEntry e.ord QEntry.started with kept := none, shadow := none } := by
  obtain ⟨hattn, hweights, hconv⟩ : f.isAttn = true ∧ (f.isMma || f.isConv) = false ∧ f.isConv = false := by
    have hall : ∀ f ∈ [Fam.attnFwd, .attnBwd, .attnRelay], f.isAttn = true ∧ (f.isMma || f.isConv) = false ∧ f.isConv = false := by decide
    exact hall f hfam
  rw [tileStart_of_none h hf had hlegal hc hclip hclaim hnew hm (loadWeights_of_other hweights none)
    (fun hx => by rw [hconv] at hx; cases hx), launch_of_attn hattn, hclip]
  exact goes_attn s c e _

theorem exchange_starts (hfam : f ∈ [Fam.mmaRs, .mmaAg, .moveA2a, .moveAr]) (hhit : f.isMma = true → keptHit f e.d (s.core c).kept = true)
    (hop : ∀ o ∈ s.net.ops, ¬ (o.core = c ∧ o.ord = e.ord ∧ o.job = job.id)) :
    (s.tileStart c).ms = s.ms ∧ (s.tileStart c).core c = (s.core c).withEntry e.ord QEntry.started ∧
      (s.tileStart c).net = { s.net with ops := s.net.ops ++ [s.opened c job e f] } := by
  obtain ⟨hattn, hconv, hexch, hrelay, hreuse⟩ : f.isAttn = false ∧ f.isConv = false ∧ f.isExch = true ∧ f ≠ .attnRelay ∧ f ≠ .reuseChk := by
    have hall : ∀ f ∈ [Fam.mmaRs, .mmaAg, .moveA2a, .moveAr],
        f.isAttn = false ∧ f.isConv = false ∧ f.isExch = true ∧ f ≠ .attnRelay ∧ f ≠ .reuseChk := by decide
    exact hall f hfam
  have hl : s.loadWeights c e f none = .none := by
    cases hmma : f.isMma with
    | true => exact loadWeights_of_kept (hhit hmma) none
    | false => exact loadWeights_of_other (by rw [hmma, hconv]; rfl) none
  rw [tileStart_of_none h hf had hlegal hc hclip hclaim hnew hm hl (fun hx => by rw [hconv] at hx; cases hx),
    launch_of_exchange hreuse hattn, openOp_of_new hexch hrelay hop]
  obtain ⟨⟨⟨hrest, -⟩, -⟩, hcore⟩ := goes_spec (s.withNet (fun n => { n with ops := n.ops ++ [s.opened c job e f] })) c e
  obtain ⟨hms, -, hnet, -⟩ := hrest
  exact ⟨hms, hcore, hnet⟩

theorem reuse_starts {bs : List Byte} (hfam : f = .reuseChk) (hr : s.memRead (s.dv 0x0E00 1 + uEntry e.d / 8) 1 = .ok bs) :
    let valid := bit (leNat bs) (uEntry e.d % 8)
    let t := s.tileStart c
    t.ms.mem = s.ms.mem ∧ (t.core c).store = (s.core c).store ∧ (t.core c).acc = (s.core c).acc ∧
      (t.core c).queue = (s.core c).queue.map (fun q => if q.ord = e.ord then
        { q with phase := .running, computed := valid, outcome := if valid then none else some false } else q) ∧
      (valid = false → (t.core c).tabs = []) ∧
      ∃ b, (t.core c).blocks = [b] ∧ b.chk = e.ord.toNat ∧ b.last = e.ord.toNat + uSpan e.d ∧ b.desc = e.desc ∧
        (valid = false → b.skip = false ∧ b.decided = true) := by
  subst hfam
  have ht := tileStart_of_none h hf had hlegal hc hclip hclaim hnew hm (loadWeights_of_other rfl none) (fun hx => by cases hx)
  rw [launch_of_reuse] at ht
  rw [ht]
  obtain ⟨-, -, -, -, htabs, hblocks, -⟩ := h
  exact startReuse_of_read hblocks htabs hr

end

/-- An instruction that is put on its ports without a tile to load changes its core in its entry and what is kept of the weights. -/
theorem launch_keeps {s t : State} {c : Nat} {job : Job} {e : QEntry} {f : Fam} {its : List Nat} {r : IterRngs}
    (hf : f ≠ .reuseChk ∧ (f.isAttn = true ∨ f.isAttn = false ∧ f.isExch = false)) (ht : t = s.launch c job e f none its r .none) :
    StartsOnly c e s t ∧ t.core c = { (s.core c).withEntry e.ord QEntry.started with kept := (t.core c).kept, shadow := (t.core c).shadow } := by
  obtain ⟨hreuse, hattn | ⟨hattn, hexch⟩⟩ := hf
  · rw [launch_of_attn hattn] at ht
    obtain ⟨honly, hcore⟩ := goes_attn s c e (e.computed || attnAllSkip (s.core c).store (attnRec (s.core c).store e.d)
      ((dSop1 e.d).clip e.clip).rows (dSop2 e.d).rows)
    rw [← ht] at honly hcore
    refine ⟨honly, ?_⟩
    split at hcore <;> rw [hcore]
  · rw [launch_of_none hreuse hattn hexch] at ht
    obtain ⟨honly, hcore⟩ := goes_spec s c e
    rw [← ht] at honly hcore
    exact ⟨honly, by rw [hcore]⟩

theorem withEntry_claims (x : Core) (cs : List OpenClaim) (ord : Word) (g : QEntry → QEntry) :
    ({ x with claims := cs } : Core).withEntry ord g = { x.withEntry ord g with claims := cs } := rfl

/-! ## Claiming instructions (R129, R130) -/

section
variable {s : State} {c : CoreId} {job : Job} {e : QEntry} {f : Fam} (h : s.opensTo c job e) (hf : e.fam = some f)
  (had : s.adapterErr f e.d = none) (hlegal : s.tileLegal c job (s.core c) e f = true) (hc : dClaim e.d = true) (hnew : e.claimed = false)
include h hf had hlegal hc hnew

theorem claim_waits {o : OpenClaim} (hports : f.ports ≠ 0) (ho : (s.core c).claims.find? (fun o => o.work == dWork e.d) = some o)
    (hleft : o.left = 0) : s.tileStart c = s :=
  tileStart_of_held h hf had hlegal hports fun ahead _ => startPorts_of_closed hc hnew ho hleft ahead

section
variable (hnone : (s.core c).claims.find? (fun o => o.work == dWork e.d) = none) (hlen : (s.core c).claims.length < 4)
  (hok : workBad (s.workRec job (dWork e.d)).2.2 = false)
include hnone hlen hok

/-- What an exhausted record leaves of the instruction: it retires EMPTY. -/
theorem claim_exhausted (hfam : f.isAttn = false ∧ f ≠ .crop ∧ f ≠ .scatKv ∧ f.ports ≠ 0)
    (hnext : bits (s.workRec job (dWork e.d)).2.2 63 32 ≤ bits (s.workRec job (dWork e.d)).2.2 31 0)
    (hfree : (s.core c).portsFree f.ports = true)
    (hbank : bankClear ((s.core c).queue.takeWhile (fun q => decide (q.ord ≠ e.ord))) f e.d = true)
    (hlegal' : s.startIllegal c job e f [] none false false = false) :
    let r := (s.workRec job (dWork e.d)).2.2
    let t := s.tileStart c
    t.ms = s.ms ∧ (∀ m i, t.scRead m i 1 = s.scRead m i 1) ∧
      t.core c = { (s.core c).withEntry e.ord (fun q => { q.claims none none (decide (bits r 127 112 = 1)) with
          tab := none, waitMet := true, waitFrom := none, phase := .done iEmpty }) with
        claims := (s.core c).claims ++ [⟨dWork e.d, 0, bits r 127 112 - 1, true⟩] } := by
  obtain ⟨hattn, hcrop, hscat, hports⟩ := hfam
  obtain ⟨-, -, -, -, htabs, -⟩ := id h
  intro r t
  obtain ⟨hms, hsc, hcore⟩ := makeClaim_of_exhausted s c e (s.workRec job (dWork e.d)).1 (s.workRec job (dWork e.d)).2.1 (bits r 127 112) 0
  obtain ⟨honly, hfin⟩ := finishAt_spec (s.makeClaim c e (.first none none (s.workRec job (dWork e.d)).1 (s.workRec job (dWork e.d)).2.1
    (bits r 127 112) 0)) c e iEmpty
  have ht : t = _ := (tileStart_of_free h hf had hlegal hports hfree hbank).trans
    ((startPorts_of_exhausted hc hnew hnone hlen hok hnext _).trans (startBody_of_exhausted htabs hattn hcrop hscat hlegal' _))
  rw [← ht] at honly hfin
  refine ⟨honly.ms.trans hms, fun m i => (scRead_of_scache (honly.scache m) i 1).trans (hsc m i), hfin.trans ?_⟩
  rw [hcore, withEntry_claims, withEntry_withEntry (f := QEntry.claims none none _) _ _ fun _ => rfl]

/-- A claiming instruction of a family without weights to load: a kept tile, or none at all. -/
theorem claim_starts {next : Nat} (hfam : f ∈ [Fam.mma, .mmaLa, .attnFwd, .attnBwd, .sfn, .norm, .smax, .conv, .convDw, .move])
    (hn : next = bits (s.workRec job (dWork e.d)).2.2 31 0) (hnext : next < bits (s.workRec job (dWork e.d)).2.2 63 32)
    (hm : s.meetsStart c job e f [next] (rValid (s.workRec job (dWork e.d)).2.2 next))
    (hhit : (f.isMma || f.isConv) = true → keptHit f e.d (s.core c).kept = true) (hfill : f.isConv = true → e.filled = false) :
    let k := (s.workRec job (dWork e.d)).1
    let off := (s.workRec job (dWork e.d)).2.1
    let r := (s.workRec job (dWork e.d)).2.2
    let claim := QEntry.claims (some next) (rValid r next) (decide (bits r 127 112 = 1))
    let t := s.tileStart c
    t.ms = s.ms ∧ t.scRead k off 4 = next + 1 ∧ (t.core c).claims = (s.core c).claims ++ [⟨dWork e.d, next, bits r 127 112 - 1, false⟩] ∧
      (t.core c).store = (s.core c).store ∧ (t.core c).acc = (s.core c).acc ∧
      (t.core c).queue = ((s.core c).withEntry e.ord (fun q => if f.isConv then claim q else (claim q).started)).queue := by
  intro k off r claim t
  subst hn
  have hcases : f ≠ .reuseChk ∧ (f.isAttn = true ∨ f.isAttn = false ∧ f.isExch = false) := by
    have hall : ∀ f ∈ [Fam.mma, .mmaLa, .attnFwd, .attnBwd, .sfn, .norm, .smax, .conv, .convDw, .move],
        f ≠ .reuseChk ∧ (f.isAttn = true ∨ f.isAttn = false ∧ f.isExch = false) := by decide
    exact hall f hfam
  obtain ⟨hports, hfree, hbank, -⟩ := id hm
  have hlt : bits r 31 0 + 1 < 2 ^ 32 := by
    have hb : bits r 63 32 < 2 ^ 32 := Nat.mod_lt _ (by decide)
    exact Nat.lt_of_le_of_lt hnext hb
  obtain ⟨hms, hsc, hcore⟩ := makeClaim_of_index s c e (bits r 31 0) k off (bits r 127 112) (rValid r (bits r 31 0)) 0 hlt
  have ht : t = _ := (tileStart_of_free h hf had hlegal hports hfree hbank).trans
    ((startPorts_of_index hc hnew hnone hlen hok hnext _).trans (startBody_of_meets h (j := some (bits r 31 0)) hm _))
  generalize hu : s.makeClaim c e (.first (some (bits r 31 0)) (rValid r (bits r 31 0)) k off (bits r 127 112) 0) = u at hms hsc hcore
  rw [hu] at ht
  have hl : u.loadWeights c e f none = .none := by
    cases hw : (f.isMma || f.isConv) with
    | false => exact loadWeights_of_other hw none
    | true => exact loadWeights_of_kept (by rw [hcore]; exact hhit hw) none
  cases hconv : f.isConv with
  | true =>
    have hfd : u.fillsDone c e f = false := by rw [State.fillsDone, hfill hconv, Bool.false_and]
    rw [startClaimed_of_unfilled (emptyOutput_of_meets hm) (badMask_of_meets hm) hl hconv hfd] at ht
    rw [ht]
    exact ⟨hms, hsc, by rw [hcore], by rw [hcore]; rfl, by rw [hcore]; rfl, by rw [hcore]; rfl⟩
  | false =>
    rw [startClaimed_of_none (emptyOutput_of_meets hm) (badMask_of_meets hm) hl (fun hx => by rw [hconv] at hx; cases hx)] at ht
    obtain ⟨honly, hgo⟩ := launch_keeps hcases ht
    rw [hcore, withEntry_claims, withEntry_withEntry (f := QEntry.claims (some (bits r 31 0)) (rValid r (bits r 31 0)) _) _ _ fun _ => rfl] at hgo
    refine ⟨honly.ms.trans hms, (scRead_of_scache (honly.scache k) off 4).trans hsc, by rw [hgo], by rw [hgo]; rfl, by rw [hgo]; rfl, ?_⟩
    rw [hgo]
    rfl

end
end

end Sys2Proof.Machine

/-! PROOFS. TILE_START (R72, R142), part seven: the settled statement. -/

namespace Sys2Proof.Machine

theorem opc_opened (s : State) (c : CoreId) (job : Job) (e : QEntry) (f : Fam) : (s.opened c job e f).opc.toNat = dOpc e.d :=
  (BitVec.toNat_ofNat _ _).trans (Nat.mod_eq_of_lt (Nat.mod_lt _ (by decide)))

/-- Settles O22: each start comes to the checks of its instruction, which are taken in R142's order, and what meets them all is put on
its ports by its family. -/
theorem tileStarts : Obligations.TileStarts := by
  refine ⟨fun c s job e f hj he hf had hlegal hskip hmet hwait =>
    congrArg Host.Outcome.next (tileStart_of_waiting hj he hf had hlegal hskip hmet hwait), fun c s job e h => ?_⟩
  intro x ahead rest
  refine ⟨fun f hf hlegal => ⟨?_, ?_, ?_, ?_⟩, ?_, ?_, fun f hf had hlegal => ?_⟩
  · intro hfam hc hclip hclaim hnew hfree hbank hscat recs base r before hbase hall hrecs
    obtain ⟨hgo, hill, hpast⟩ := tileStart_of_port h hf hlegal hfam hc hclaim hnew hfree hbank hscat hbase hall hrecs
    refine ⟨fun h1 h2 h3 => ⟨s.goes c e, congrArg Host.Outcome.next (hgo h1 h2 h3), goes_spec s c e⟩, fun h1 => congrArg Host.Outcome.next (hill h1),
      fun h1 h2 => congrArg Host.Outcome.next (hpast h1 h2)⟩
  · intro hfam
    refine ⟨s.finishAt c e none iOk, ?_, finishAt_spec s c e iOk⟩
    have ht := (startFam_of_candidate h hf).trans (tileStart_of_sync h hf hlegal hfam)
    rcases hfam with rfl | rfl
    · exact congrArg Host.Outcome.next ht
    · exact congrArg Host.Outcome.next ht
  · rintro rfl hcom
    exact congrArg Host.Outcome.next ((startFam_of_candidate h hf).trans (tileStart_bar_of_commits h hf hlegal hcom))
  · rintro rfl hret hcom hjob b hb
    exact ⟨s.tileStart c, congrArg Host.Outcome.next (startFam_of_candidate h hf), bar_arrives h hf hlegal hret hcom hjob hb⟩
  · rintro (hf | ⟨f, hf, had, hlegal⟩)
    · exact congrArg Host.Outcome.next (tileStart_of_noFam h hf)
    · exact congrArg Host.Outcome.next (tileStart_of_illegal h hf had hlegal)
  · exact fun f y hf had => congrArg Host.Outcome.next (tileStart_of_unreadable h hf had)
  intro starts n gate needs filled
  refine ⟨fun hports hbusy => congrArg Host.Outcome.next (tileStart_of_busy h hf had hlegal hports hbusy), fun hports hc hnew hblock => ?_,
    fun hc hclip hclaim hnew hm => ⟨fun hfam => ⟨?_, ?_, ?_, ?_, ?_, ?_⟩, ?_, ?_, ?_⟩, fun hc hnew hfam => ⟨?_, ?_⟩⟩
  · refine congrArg Host.Outcome.next (tileStart_of_held h hf had hlegal hports fun before hbefore => ?_)
    subst hbefore
    rw [startPorts_of_plain _ hc hnew]
    exact startBody_of_blocked (j := none) hblock 0 _
  · exact fun hhit hfill => ⟨s.tileStart c, rfl, weights_kept h hf had hlegal hc hclip hclaim hnew hm hfam hhit hfill⟩
  · exact fun hhit hfill => congrArg Host.Outcome.next (weights_unfilled h hf had hlegal hc hclaim hnew hm hhit hfill)
  · exact fun k hmiss hs hfill => ⟨s.tileStart c, rfl, weights_shadow h hf had hlegal hc hclip hclaim hnew hm hfam hmiss hs hfill⟩
  · rintro bs ⟨hmiss, hs⟩ hg hr hfill
    exact ⟨s.tileStart c, rfl, weights_read h hf had hlegal hc hclip hclaim hnew hm hfam hmiss hs hg hr hfill⟩
  · rintro ⟨hmiss, hs⟩ hg hw
    exact ⟨s.tileStart c, rfl, weights_wait h hf had hlegal hc hclaim hnew hm hfam hmiss hs hg hw⟩
  · rintro ⟨hmiss, hs⟩ hg
    exact ⟨s.tileStart c, rfl, weights_failed h hf had hlegal hc hclaim hnew hm hfam hmiss hs hg⟩
  · exact fun hfam => ⟨s.tileStart c, rfl, attention_starts h hf had hlegal hc hclip hclaim hnew hm hfam⟩
  · intro hfam hhit hop
    obtain ⟨hms, hcore, hnet⟩ := exchange_starts h hf had hlegal hc hclip hclaim hnew hm hfam hhit hop
    exact ⟨s.tileStart c, s.opened c job e f, rfl, hms, hcore, hnet, rfl, rfl, rfl, rfl, rfl, BitVec.toNat_ofNat _ _, rfl,
      opc_opened s c job e f, rfl, rfl⟩
  · exact fun bs hfam hr => ⟨s.tileStart c, rfl, reuse_starts h hf had hlegal hc hclip hclaim hnew hm hfam hr⟩
  · have hports : f.ports ≠ 0 := by
      have hall : ∀ f ∈ [Fam.mma, .mmaLa, .attnFwd, .attnBwd, .sfn, .norm, .smax, .conv, .convDw, .move], f.ports ≠ 0 := by decide
      exact hall f hfam
    exact fun o ho hleft => congrArg Host.Outcome.next (claim_waits h hf had hlegal hc hnew hports ho hleft)
  · intro hnone hlen k off r next claimed hok
    refine ⟨fun hnext hm hhit hfill => ⟨s.tileStart c, rfl,
      claim_starts h hf had hlegal hc hnew hnone hlen hok hfam rfl hnext hm hhit hfill⟩, fun hnext hattn hfree hbank hill => ?_⟩
    have hcases : f ≠ .crop ∧ f ≠ .scatKv ∧ f.ports ≠ 0 := by
      have hall : ∀ f ∈ [Fam.mma, .mmaLa, .attnFwd, .attnBwd, .sfn, .norm, .smax, .conv, .convDw, .move],
          f ≠ .crop ∧ f ≠ .scatKv ∧ f.ports ≠ 0 := by decide
      exact hall f hfam
    obtain ⟨hms, hsc, hcore⟩ := claim_exhausted h hf had hlegal hc hnew hnone hlen hok ⟨hattn, hcases⟩ hnext hfree hbank hill
    exact ⟨s.tileStart c, rfl, hms, hsc, by rw [hcore], by rw [hcore]; rfl, by rw [hcore]; rfl, by rw [hcore]; rfl⟩

end Sys2Proof.Machine

/-! PROOFS. TILE_RETIRE with a stream-class status (R105): ending a stream mirrors its record in the stream table, and that write may
itself meet the error that fences a stack (R161) and starts a sweep. -/

namespace Sys2Proof.Machine

/-- A job that holds stream 6, on clusters 2 and 5. -/
def streamJob6 : Job := {
  id := 0x70001, pair := 3, entry := 0x240000, header := 0, admitSeq := 1, phase := .running, epoch := 7, canon := false
  tabBytes := 0, lbBytes := 0, slot := none, streams := [6], adapters := [], groups := [], barriers := [], saveAreas := []
  bookings := [], admitPacing := 0, bellPacing := 0 }

/-- A POST that is done with TIER_ERROR. -/
def failedPost : QEntry := { desc := 0x31, ord := 9, phase := .done iTierError }

/-- Stream 6 has no directory; the granule of the stream table that holds its record's module fields is marked (R160), and stack 0 is one
uncorrectable error short of its threshold of 16. -/
def markedTable : State :=
  { clusters := [(2, { holder := some 0x70001 }), (5, { holder := some 0x70001 })]
    cores := [(33, { queue := [failedPost] })]
    hub := { jobs := [streamJob6], streams := [(6, { sstate := .held, holderJob := 0x70001 })] }
    ms := { poison := [48], stackRecs := [(0, { ue := 15 })] }
    pwr := { rootLocked := true, blocks := [(12, 1)] }
    boot := { hub0 := true, hub1 := true } }

theorem markedTable_noDir : markedTable.hasDir 6 = false := by decide +kernel

/-- The mirror of the ended stream meets the marked granule, the sixteenth error fences the stack, and a sweep starts. -/
theorem markedTable_sweeps : (markedTable.tileRetire 33).hub.sweeping = true := by decide +kernel

theorem markedTable_job : markedTable.coreJob 33 = some streamJob6 := by decide +kernel

theorem markedTable_queue : (markedTable.core 33).queue = [failedPost] := by decide +kernel

theorem failedPost_fam : failedPost.fam = some .post := by decide +kernel

theorem failedPost_streamless : dStreamEn failedPost.d = false := by decide +kernel

theorem markedTable_quiet (n : Nat) (h : n ∈ streamJob6.streams) : markedTable.hasDir n = false := by
  rw [List.mem_singleton.mp h]
  exact markedTable_noDir

/-- Refutes O23: a stream without a directory ends, and the write that mirrors its record in the stream table meets a marked granule as
the stack's last error before its threshold, which starts a sweep. -/
theorem not_tileRetires : ¬ Obligations.TileRetires := by
  unfold Obligations.TileRetires
  rintro ⟨-, -, -, -, -, hends⟩
  have hrest : ∀ q ∈ ([] : List QEntry), q.ord ≠ failedPost.ord := List.forall_mem_nil _
  have hfam {f : Fam} {p : Prop} (hf : f ≠ .post) (h : .post = f) : p := absurd h.symm hf
  obtain ⟨t, ht, hquiet, -⟩ := hends 33 markedTable streamJob6 failedPost [] iTierError stTierError .post markedTable_job
    markedTable_queue hrest rfl rfl failedPost_fam rfl (hfam (by decide)) (hfam (by decide)) (hfam (by decide)) rfl
  rw [failedPost_streamless] at hquiet
  have heq : markedTable.tileRetire 33 = t := Host.Outcome.next.inj ht
  have hsweeps := markedTable_sweeps
  rw [heq, hquiet fun n hn => markedTable_quiet n hn.1] at hsweeps
  exact Bool.false_ne_true hsweeps

end Sys2Proof.Machine

/-! PROOFS. What an engine's accesses of stacked memory leave, and the end of an instruction that stores nothing in its core (R73, R156,
R161, R169): the layer under MMA.LA and the memory families. -/

namespace Sys2Proof.Machine

/-! ## Reads for an instruction -/

/-- The cores and the bytes of stacked memory are as before. -/
def ReadsOnly (s t : State) : Prop := t.cores = s.cores ∧ t.ms.mem = s.ms.mem

theorem ReadsOnly.refl (s : State) : ReadsOnly s s := ⟨rfl, rfl⟩

theorem ReadsOnly.trans {s t u : State} (h : ReadsOnly s t) (h' : ReadsOnly t u) : ReadsOnly s u :=
  ⟨h'.1.trans h.1, h'.2.trans h.2⟩

theorem ReadsOnly.core {s t : State} (h : ReadsOnly s t) (c : Nat) : t.core c = s.core c := core_of_cores h.1 c

theorem readsOnly_readDone (s : State) (a n : Nat) : ReadsOnly s (s.readDone a n) := by
  obtain ⟨⟨-, hcores, -⟩, hmem, -⟩ := readDone_keeps s a n
  exact ⟨hcores, hmem⟩

/-- A device read that gives its bytes leaves the cores and the memory's bytes. -/
theorem devRead_bytes {s u : State} {c : Nat} {e : QEntry} {a n : Nat} {bs : List Byte} (h : s.devRead c e a n = .bytes bs u) :
    ReadsOnly s u := by
  have hcount (t : State) :
      ReadsOnly t (if e.fam = some .gath then t.countNarrow (clusterOf c) a n else t.countBurst (clusterOf c) 10 a n) := by
    split <;> exact ReadsOnly.refl t
  cases hgate : s.weightGate a n with
  | failed => simp only [State.devRead, hgate, reduceCtorEq] at h
  | wait => simp only [State.devRead, hgate, reduceCtorEq] at h
  | ok =>
    cases hread : s.memRead a n with
    | error y => simp only [State.devRead, hgate, hread, reduceCtorEq] at h
    | ok got =>
      simp only [State.devRead, hgate, hread] at h
      injection h with _ hu
      exact hu ▸ (readsOnly_readDone s a n).trans (hcount _)

/-- The same of a source that the core store may hold, whose read changes nothing. -/
theorem sourceRead_bytes {s u : State} {c : Nat} {e : QEntry} {a n : Nat} {held bs : List Byte} {cs : Bool}
    (h : (if cs then .bytes held s else s.devRead c e a n : DevRead) = .bytes bs u) : ReadsOnly s u ∧ (cs = true → u = s) := by
  cases cs with
  | true =>
    rw [if_pos rfl] at h
    injection h with _ hu
    exact ⟨hu ▸ ReadsOnly.refl s, fun _ => hu.symm⟩
  | false => exact ⟨devRead_bytes h, Bool.noConfusion⟩

theorem readRows_ok {c : Nat} {e : QEntry} {rows : List MoveRow} {s u : State} {data : List (Nat × List Byte)}
    (h : s.readRows c e rows = .ok (u, data)) : ReadsOnly s u := by
  induction rows generalizing s data with
  | nil =>
    cases h
    exact ReadsOnly.refl _
  | cons r rs ih =>
    simp only [State.readRows] at h
    split at h
    · cases h
    next v hv =>
    split at h
    · cases h
    next w rest hw =>
    cases h
    exact (sourceRead_bytes hv).1.trans (ih hw)

theorem gathRows_ok {c : Nat} {e : QEntry} {rows : List Nat} {s u : State} {data : List (Nat × List Byte)}
    (h : s.gathRows c e rows = .ok (u, data)) : ReadsOnly s u := by
  induction rows generalizing s data with
  | nil =>
    cases h
    exact ReadsOnly.refl _
  | cons r rs ih =>
    simp only [State.gathRows] at h
    split at h
    · cases h
    next v hv =>
    split at h
    · cases h
    next w rest hw =>
    cases h
    exact (devRead_bytes hv).trans (ih hw)

/-- Rows that are all stored in stacked memory leave the cores. -/
theorem writeDev_cores {c : Nat} {e : QEntry} {data : List (Nat × List Byte)} {s u : State} (h : s.writeDev c e data = .ok u) :
    u.cores = s.cores := by
  induction data generalizing s with
  | nil =>
    cases h
    rfl
  | cons p rest ih =>
    simp only [State.writeDev] at h
    split at h
    next v hv =>
      obtain ⟨⟨-, hcores, -⟩, -⟩ := memWriteOwn_ok (memWriteOwn_of_memWrite hv)
      exact (ih h).trans hcores
    · cases h

/-! ## Uncorrectable errors (R161) -/

/-- The cores and the stacks' counts of uncorrectable errors are as before. -/
def KeepsUe (s t : State) : Prop := t.cores = s.cores ∧ ∀ m, (t.stack m).ue = (s.stack m).ue

theorem KeepsUe.refl (s : State) : KeepsUe s s := ⟨rfl, fun _ => rfl⟩

theorem KeepsUe.trans {s t u : State} (h : KeepsUe s t) (h' : KeepsUe t u) : KeepsUe s u :=
  ⟨h'.1.trans h.1, fun m => (h'.2 m).trans (h.2 m)⟩

theorem KeepsUe.foldl {α : Type} {f : State → α → State} (h : ∀ s a, KeepsUe s (f s a)) (l : List α) (s : State) :
    KeepsUe s (l.foldl f s) := by
  induction l generalizing s with
  | nil => exact KeepsUe.refl s
  | cons a l ih => exact (h s a).trans (ih _)

theorem stack_of_ms {s t : State} (h : t.ms = s.ms) (m : Nat) : t.stack m = s.stack m := by rw [State.stack, h]; rfl

theorem keepsUe_of_ms {s t : State} (hcores : t.cores = s.cores) (hms : t.ms = s.ms) : KeepsUe s t :=
  ⟨hcores, fun m => by rw [stack_of_ms hms]⟩

theorem keepsUe_modStack (s : State) (m : Nat) {f : Stack → Stack} (h : ∀ x, (f x).ue = x.ue) : KeepsUe s (s.modStack m f) :=
  ⟨rfl, fun n => by
    rw [stack_modStack]
    split
    · next hn => rw [h, hn]
    · rfl⟩

theorem keepsUe_useParity (s : State) (m : Nat) : KeepsUe s (s.useParity m) := by
  unfold State.useParity
  dsimp only
  split
  · exact KeepsUe.refl s
  · exact keepsUe_modStack (s.withMs fun x => { x with parity := mset x.parity m 0 }) m fun _ => rfl

theorem keepsUe_emit (s : State) (m : OutMsg) : KeepsUe s (s.emit m) := KeepsUe.refl s

theorem keepsUe_bumpBw (s : State) (i n : Nat) : KeepsUe s (s.bumpBw i n) := KeepsUe.refl s

theorem keepsUe_readDone (s : State) (a n : Nat) : KeepsUe s (s.readDone a n) := by
  have hsnoop : KeepsUe s (s.snoopData a n) := (KeepsUe.foldl (fun t _ => keepsUe_emit t _) _ s).trans (KeepsUe.refl _)
  have hflips (t : State) : KeepsUe t (t.countFlips a n) :=
    KeepsUe.foldl (fun t _ => keepsUe_modStack t _ (f := fun x => { x with ce := x.ce + 1 }) fun _ => rfl) _ t
  have hcount (t : State) : KeepsUe t (t.countRead a n) := KeepsUe.foldl (fun t _ => keepsUe_bumpBw t _ _) _ t
  exact ((hsnoop.trans (hflips _)).trans (KeepsUe.foldl keepsUe_useParity _ _)).trans (hcount _)

theorem keepsUe_noteTier (s : State) (before : Nat) : KeepsUe s (s.noteTier before) := by
  unfold State.noteTier
  split
  · exact keepsUe_of_ms rfl rfl
  · exact KeepsUe.refl s

theorem keepsUe_fenceStack (s : State) (m code : Nat) : KeepsUe s (s.fenceStack m code) := by
  unfold State.fenceStack
  refine (((keepsUe_modStack s m ?_).trans (KeepsUe.foldl (fun t i => ?_) _ _)).trans (keepsUe_of_ms rfl rfl)).trans (keepsUe_noteTier _ _)
  · exact fun _ => rfl
  · split
    · exact keepsUe_of_ms rfl rfl
    · exact KeepsUe.refl t

theorem keepsUe_jobFault (s : State) (job : Option JobId) (f : FaultInfo) : KeepsUe s (s.jobFault job f) := by
  obtain ⟨-, hcores, hms, -⟩ := jobFault_rest s job f
  exact keepsUe_of_ms hcores hms

/-- An error is counted once for its stack, whether or not it fences the stack, and the cores do not see it. -/
theorem countUe_spec (s : State) (a : Nat) : (s.countUe a).cores = s.cores ∧
    ((s.countUe a).stack (addrStack a)).ue = (s.stack (addrStack a)).ue + 1 := by
  let u := ((s.useParity (addrStack a)).modStack (addrStack a) (fun x => { x with ue := x.ue + 1 })).logEvent 1 0x44
    (0x10 + addrStack a) (BitVec.ofNat 128 a)
  obtain ⟨hcores, hue⟩ := keepsUe_useParity s (addrStack a)
  have hcount : (u.stack (addrStack a)).ue = (s.stack (addrStack a)).ue + 1 := by
    rw [← hue]
    exact congrArg Stack.ue ((stack_modStack _ _ _ _).trans (if_pos rfl))
  have hfence : KeepsUe u (s.countUe a) := by
    unfold State.countUe
    dsimp only
    split
    · exact (keepsUe_fenceStack u _ 2).trans (keepsUe_jobFault _ _ _)
    · exact KeepsUe.refl u
  exact ⟨hfence.1.trans hcores, (hfence.2 _).trans hcount⟩

/-! ## Ends without a store -/

/-- An entry that is done waits with its status. -/
theorem phase_of_mem_finish {s : State} {c : Nat} {ord : Word} {istat : Byte} {q : QEntry}
    (hq : q ∈ ((s.finish c ord istat).core c).queue) (ho : q.ord = ord) : q.phase = .done istat := by
  rw [State.finish, core_modEntry] at hq
  obtain ⟨r, rfl⟩ := exists_of_mem_map_ord hq ho
  rfl

/-- A change of one entry beside the count of the ports' cycles: the core's counters and that entry, and nothing else of the core. -/
theorem countPorts_modEntry_spec (s : State) (c : Nat) (f : Fam) (ord : Word) (g : QEntry → QEntry) :
    OnlyCore c s ((s.countPorts c f).modEntry c ord g) ∧
    ((s.countPorts c f).modEntry c ord g).core c =
      { (s.core c).withEntry ord g with ctr := (((s.countPorts c f).modEntry c ord g).core c).ctr } := by
  obtain ⟨honly, hcore, -⟩ := countsOnly_countPorts c s f
  refine ⟨honly.trans (onlyCore_modCore _ c _), Core.eq_withCtr (m := ((s.countPorts c f).core c).ctr) ?_⟩
  rw [core_modEntry, hcore]; rfl

theorem core_keepAfter (s : State) (c d : Nat) :
    (s.keepAfter c d).core c = { s.core c with kept := if mKeep d then (s.core c).kept else none } := by
  unfold State.keepAfter
  split
  · rfl
  · exact core_modCore_self s c _

@[simp] theorem ms_keepAfter (s : State) (c d : Nat) : (s.keepAfter c d).ms = s.ms := by
  unfold State.keepAfter
  split <;> rfl

end Sys2Proof.Machine

/-! PROOFS. MMA.LA (R114, R195, Table 6-4): the adapter's entry, its tile, and the two ways the instruction ends. -/

namespace Sys2Proof.Machine

/-- A tile that reads leaves the cores and the memory's bytes. -/
theorem adapterTile_ok {s u : State} {k d : Nat} {a : AdapterTile} (h : s.adapterTile k d = .ok (a, u)) : ReadsOnly s u := by
  unfold State.adapterTile at h
  dsimp only at h
  split at h
  · cases h
    exact readsOnly_readDone s _ _
  · cases h

/-- Making an INT8 pair's accumulators free changes nothing else, and happens for such a pair alone. -/
theorem forgetPair_spec (s : State) (c : Nat) (e : QEntry) : ((dOp1 e.d).fmt ≠ fmtInt8 → s.forgetPair c e = s) ∧
    (s.forgetPair c e).core c = { s.core c with acc := ((s.forgetPair c e).core c).acc } := by
  by_cases h : (dOp1 e.d).fmt = fmtInt8
  · have hcore : (s.forgetPair c e).core c = _ := (congrArg (State.core · c) (if_pos h)).trans (core_modCore_self s.stamp.2 c _)
    exact ⟨fun hne => absurd h hne, by rw [hcore]; rfl⟩
  · have hself : s.forgetPair c e = s := if_neg h
    exact ⟨fun _ => hself, by rw [hself]⟩

/-- What an MMA.LA whose tile cannot be read does (R195). -/
def State.tileFailed (s : State) (c : Nat) (e : QEntry) (a : Nat) : State :=
  ((s.countUe a).finish c e.ord iTierError).keepAfter c e.d

theorem tileFailed_spec (s : State) (c : Nat) (e : QEntry) (a : Nat) :
    (s.tileFailed c e a).core c =
      { (s.core c).withEntry e.ord (fun q => { q with phase := .done iTierError }) with
        kept := if mKeep e.d then (s.core c).kept else none } ∧
    ((s.tileFailed c e a).stack (addrStack a)).ue = (s.stack (addrStack a)).ue + 1 := by
  obtain ⟨hcores, hue⟩ := countUe_spec s a
  have hend := core_keepAfter ((s.countUe a).finish c e.ord iTierError) c e.d
  rw [State.finish, core_modEntry, core_of_cores hcores c] at hend
  exact ⟨hend, (congrArg Stack.ue (stack_of_ms (ms_keepAfter _ c e.d) _)).trans hue⟩

section MmaLa

variable {s : State} {c : CoreId} {job : Job} {e : QEntry} (hrun : s.runningOf c .mmaLa = some (job, e))
include hrun

theorem execMmaLa_entryFails {y : AccErr} (h : s.adapterErr .mmaLa e.d = some y) :
    exec (.mmaLa c) s = .next (s.coreAccFault c e.ord y) :=
  congrArg Host.Outcome.next (by simp only [State.runMmaLa, hrun, h])

/-- The instruction whose tile reads completes with the accumulations of both tiles. -/
theorem execMmaLa_reads {a : AdapterTile} {u : State} (h : s.adapterErr .mmaLa e.d = none)
    (ht : (s.readDone (s.dv 0x0A00 1 + 64 * laAdapter e.d) 64).adapterTile (clusterOf c) e.d = .ok (a, u)) :
    let v := u.forgetPair c e
    exec (.mmaLa c) s = .next ((v.complete c e .mmaLa
      (mmaWrites .mmaLa e.d e.its e.clip (v.core c).weights (some a) (v.core c).store (v.core c).acc)).keepAfter c e.d) :=
  congrArg Host.Outcome.next (by simp only [State.runMmaLa, hrun, h, ht])

theorem execMmaLa_tileFails {a : Nat} (h : s.adapterErr .mmaLa e.d = none)
    (ht : (s.readDone (s.dv 0x0A00 1 + 64 * laAdapter e.d) 64).adapterTile (clusterOf c) e.d = .error (.ue a)) :
    exec (.mmaLa c) s = .next ((s.readDone (s.dv 0x0A00 1 + 64 * laAdapter e.d) 64).tileFailed c e a) :=
  congrArg Host.Outcome.next (by simp only [State.runMmaLa, hrun, h, ht, State.tileFailed])

end MmaLa

/-- Settles O19: MMA.LA completes as the other engines do once its tile is read; a tile that cannot be read is one counted error. -/
theorem adapterMma : Obligations.AdapterMma := by
  unfold Obligations.AdapterMma
  intro c s job e hrun x w
  refine ⟨fun y h => execMmaLa_entryFails hrun h, fun a u h ht => ?_, fun a h ht => ?_⟩
  · have hreads : ReadsOnly s u := (readsOnly_readDone s _ _).trans (adapterTile_ok ht)
    obtain ⟨hsame, hcore⟩ := forgetPair_spec u c e
    rw [hreads.core c] at hcore
    obtain ⟨hdone, hkept⟩ := engineDone_complete (u.forgetPair c e) c e .mmaLa
      (mmaWrites .mmaLa e.d e.its e.clip x.weights (some a) x.store ((u.forgetPair c e).core c).acc)
    have hw : ((u.forgetPair c e).core c).weights = x.weights := by rw [hcore]; rfl
    have hstore : ((u.forgetPair c e).core c).store = x.store := by rw [hcore]
    have hx : ((u.forgetPair c e).core c).kept = x.kept := by rw [hcore]
    refine ⟨_, execMmaLa_reads hrun h ht, hreads.core c, hreads.2, ⟨hsame, hcore, ?_⟩, ?_⟩
    · rw [hw, hstore]
      exact hdone.keepAfter e.d
    · rw [hw, hstore, kept_keepAfter, hkept, hx]
  · obtain ⟨hcores, hue⟩ := keepsUe_readDone s (s.dv 0x0A00 1 + 64 * laAdapter e.d) 64
    obtain ⟨hcore, hcount⟩ := tileFailed_spec w c e a
    rw [core_of_cores hcores c] at hcore
    exact ⟨_, execMmaLa_tileFails hrun h ht, (congrArg Core.store hcore :), (congrArg Core.acc hcore :), (congrArg Core.kept hcore :),
      (congrArg Core.queue hcore :), hcount.trans (congrArg (· + 1) (hue _))⟩

end Sys2Proof.Machine

/-! PROOFS. MOVE, GATH and TBL.LOAD (R120, R131, R256, R259): what they read, and where they put it. -/

namespace Sys2Proof.Machine

section Families

variable {s u : State} {c : CoreId} {job : Job} {e : QEntry} {data : List (Nat × List Byte)}

/-- The rows of a MOVE that its claim leaves it (R131). -/
def moveCount (e : QEntry) : Nat := (e.clip.map (min · (vNRows e.d))).getD (vNRows e.d)

/-- Where a MOVE puts the rows that it has read. -/
def State.putRows (s : State) (c : Nat) (e : QEntry) (data : List (Nat × List Byte)) : State :=
  if vDstCs e.d then s.complete c e .move { cs := data }
  else match s.writeDev c e data with
    | .ok t => (t.countPorts c .move).finish c e.ord iOk
    | .error t => t

theorem runMove_of_read (hrun : s.runningOf c .move = some (job, e))
    (hread : s.readRows c e (moveRows e.d e.its (moveCount e)) = .ok (u, data)) : s.runMove c = u.putRows c e data := by
  unfold moveCount at hread
  cases hclip : e.clip with
  | none =>
    rw [hclip, Option.map_none, Option.getD_none] at hread
    simp only [State.runMove, hrun, hclip, hread]
    rfl
  | some n =>
    rw [hclip, Option.map_some, Option.getD_some] at hread
    simp only [State.runMove, hrun, hclip, hread]
    rfl

theorem execMove_toStore (hrun : s.runningOf c .move = some (job, e))
    (hread : s.readRows c e (moveRows e.d e.its (moveCount e)) = .ok (u, data)) (hdst : vDstCs e.d = true) :
    exec (.move c) s = .next (u.complete c e .move { cs := data }) :=
  congrArg Host.Outcome.next ((runMove_of_read hrun hread).trans (if_pos hdst))

theorem execMove_toMemory {v : State} (hrun : s.runningOf c .move = some (job, e))
    (hread : s.readRows c e (moveRows e.d e.its (moveCount e)) = .ok (u, data)) (hdst : vDstCs e.d = false)
    (hwrite : u.writeDev c e data = .ok v) : exec (.move c) s = .next ((v.countPorts c .move).finish c e.ord iOk) :=
  congrArg Host.Outcome.next ((runMove_of_read hrun hread).trans (by simp only [State.putRows, hdst, hwrite, Bool.false_eq_true, if_false]))

theorem execGath_of_read (hrun : s.runningOf c .gath = some (job, e))
    (hread : s.gathRows c e (List.range (min (gCount e.d) (dSop1 e.d).rows)) = .ok (u, data)) :
    exec (.gath c) s = .next (u.complete c e .gath { cs := data }) :=
  congrArg Host.Outcome.next (by simp only [State.runGath, hrun, hread])

/-- How a TBL.LOAD ends once its image is read: a valid table is kept for its retirement, any other is rejected (R256). -/
def State.tableRead (s : State) (c : Nat) (e : QEntry) (bs : List Byte) : State :=
  match loadTable bs (tSegs e.d) (tMono e.d) with
  | some b => ((s.countPorts c .tblLoad).modEntry c e.ord (fun q => { q with image := some b })).finish c e.ord iOk
  | none => (s.countPorts c .tblLoad).finish c e.ord iTableReject

theorem execTblLoad_of_read {bs : List Byte} (hrun : s.runningOf c .tblLoad = some (job, e))
    (hread : (if tSrcCs e.d then .bytes ((s.core c).store.readBytes (tSrc e.d) (64 + 32 * tSegs e.d)) s
      else s.devRead c e (tSrc e.d) (64 + 32 * tSegs e.d) : DevRead) = .bytes bs u) :
    exec (.tblLoad c) s = .next (u.tableRead c e bs) := by
  refine congrArg Host.Outcome.next ?_
  simp only [State.runTblLoad, hrun, hread]
  rfl

/-- A table that passes its checks waits in its entry; the banks stay (R259). -/
theorem tableRead_of_valid {bs : List Byte} {b : SfuBank} (h : loadTable bs (tSegs e.d) (tMono e.d) = some b) :
    OnlyCore c s (s.tableRead c e bs) ∧ (s.tableRead c e bs).core c =
      { (s.core c).withEntry e.ord (fun q => { q with image := some b, phase := .done iOk }) with
        ctr := ((s.tableRead c e bs).core c).ctr } := by
  let t := (s.countPorts c .tblLoad).modEntry c e.ord (fun q => { q with image := some b })
  have hend : s.tableRead c e bs = t.finish c e.ord iOk := by simp only [State.tableRead, h, t]
  obtain ⟨honly, hcore⟩ := countPorts_modEntry_spec s c .tblLoad e.ord (fun q => { q with image := some b })
  refine ⟨hend ▸ honly.trans (onlyCore_modCore t c _), Core.eq_withCtr (m := (t.core c).ctr) ?_⟩
  have hboth := withEntry_withEntry (s.core c) e.ord (f := fun q => { q with image := some b })
    (g := fun q => { q with phase := .done iOk }) fun _ => rfl
  rw [hend, State.finish, core_modEntry, hcore, ← hboth]
  rfl

theorem tableRead_of_invalid {bs : List Byte} (h : loadTable bs (tSegs e.d) (tMono e.d) = none) :
    OnlyCore c s (s.tableRead c e bs) ∧ (s.tableRead c e bs).core c =
      { (s.core c).withEntry e.ord (fun q => { q with phase := .done iTableReject }) with
        ctr := ((s.tableRead c e bs).core c).ctr } := by
  have hend : s.tableRead c e bs = (s.countPorts c .tblLoad).finish c e.ord iTableReject := by simp only [State.tableRead, h]
  rw [hend]
  exact countPorts_modEntry_spec s c .tblLoad e.ord _

end Families

/-- Settles O21: what each family reads leaves the cores and the memory's bytes, and what it read goes where its operands say. R120 is
silent on a MOVE whose source and destination overlap; that every row is read before any is written is the model's choice. -/
theorem memoryFamiliesCopy : Obligations.MemoryFamiliesCopy := by
  unfold Obligations.MemoryFamiliesCopy
  intro c s job e x
  refine ⟨fun u data hrun hread => ?_, fun u data hrun hread => ?_, fun u bs hrun hread => ?_⟩
  · have hreads := readRows_ok hread
    refine ⟨hreads.2, hreads.core c, fun hdst => ?_, fun v hdst hwrite => ?_⟩
    · exact ⟨_, execMove_toStore hrun hread hdst, (engineDone_complete u c e .move _).1,
        (acc_complete_of_none rfl).trans (congrArg Core.acc (hreads.core c))⟩
    · obtain ⟨⟨⟨hms, -⟩, -⟩, hcore⟩ := countPorts_modEntry_spec v c .move e.ord (fun q => { q with phase := .done iOk })
      have hv : v.core c = x := (core_of_cores (writeDev_cores hwrite) c).trans (hreads.core c)
      rw [hv] at hcore
      exact ⟨_, execMove_toMemory hrun hread hdst hwrite, hms, (congrArg Core.store hcore :), fun q => phase_of_mem_finish⟩
  · have hreads := gathRows_ok hread
    exact ⟨_, execGath_of_read hrun hread, hreads.2, hreads.core c, (engineDone_complete u c e .gath _).1,
      (acc_complete_of_none rfl).trans (congrArg Core.acc (hreads.core c))⟩
  · obtain ⟨hreads, hsame⟩ := sourceRead_bytes hread
    refine ⟨hreads.2, hreads.core c, hsame, fun b hb => ?_, fun hnone => ?_⟩
    · obtain ⟨honly, hcore⟩ := tableRead_of_valid (s := u) (c := c) hb
      rw [hreads.core c] at hcore
      refine ⟨_, execTblLoad_of_read hrun hread, honly, (congrArg Core.store hcore :), (congrArg Core.bank0 hcore :),
        (congrArg Core.bank1 hcore :), fun q hq ho => ?_⟩
      rw [hcore] at hq
      obtain ⟨r, rfl⟩ := exists_of_mem_map_ord hq ho
      exact ⟨rfl, rfl⟩
    · obtain ⟨honly, hcore⟩ := tableRead_of_invalid (s := u) (c := c) hnone
      rw [hreads.core c] at hcore
      refine ⟨_, execTblLoad_of_read hrun hread, honly, (congrArg Core.store hcore :), fun q hq ho => ?_⟩
      rw [hcore] at hq
      obtain ⟨r, rfl⟩ := exists_of_mem_map_ord hq ho
      rfl

end Sys2Proof.Machine

/-! PROOFS. CHAIN_COMMIT (R86, R132, Table 6-6): words of the shared cache as they read after a write, and the two ways a commit ends. -/

namespace Sys2Proof.Machine

/-! ## Words of the shared cache -/

/-- A number of a memory reads as before when a write lies beside it. -/
theorem Mem.readLE_writeLE_apart (m : Mem) {a n b l : Nat} (v : Nat) (h : b + l ≤ a ∨ a + n ≤ b) :
    (m.writeLE a n v).readLE b l = m.readLE b l :=
  congrArg leNat (Mem.readBytes_congr _ _ b l fun _ _ => Mem.read_writeLE_out m a n v _ (by omega))

theorem scRead_bumpCluster (s : State) (j i m k off n : Nat) : (s.bumpCluster j i m).scRead k off n = s.scRead k off n :=
  scRead_of_scache (scache_bumpCluster s j i m k) off n

theorem scRead_scWrite_self (s : State) (k off n v : Nat) : (s.scWrite k off n v).scRead k off n = v % 256 ^ n := by
  rw [State.scRead, scache_scWrite, if_pos rfl, Mem.readLE_writeLE]

theorem scRead_scWrite_apart (s : State) {k off n b l : Nat} (v : Nat) (h : b + l ≤ off ∨ off + n ≤ b) :
    (s.scWrite k off n v).scRead k b l = s.scRead k b l := by
  rw [State.scRead, scache_scWrite, if_pos rfl, Mem.readLE_writeLE_apart _ v h, State.scRead]

theorem scRead_scAdd32_self (s : State) (k off n : Nat) : (s.scAdd32 k off n).scRead k off 4 = (s.scRead k off 4 + n) % 2 ^ 32 :=
  (scRead_scWrite_self s k off 4 _).trans (Nat.mod_mod _ _)

theorem scRead_scAdd32_apart (s : State) {k off b l : Nat} (n : Nat) (h : b + l ≤ off ∨ off + 4 ≤ b) :
    (s.scAdd32 k off n).scRead k b l = s.scRead k b l :=
  scRead_scWrite_apart s _ h

/-- Adding the power of a clear bit of a byte sets the bit, also as the byte is stored. -/
theorem bit_add_two_pow {b i : Nat} (hi : i < 8) (h : bit b i = false) : bit ((b + 2 ^ i) % 256 ^ 1) i = true := by
  change ((b + 2 ^ i) % 2 ^ 8).testBit i = true
  have hclear : b.testBit i = false := h
  rw [Nat.testBit_mod_two_pow, Nat.add_comm, Nat.testBit_two_pow_add_eq, hclear]
  simpa using hi

/-! ## The commit -/

/-- A commit has left the core, and its two atomic operations on cluster k are counted (R132, R505). -/
def State.commitTaken (s : State) (c k : Nat) (rest : List PendCommit) : State :=
  (((s.modCore c (fun x => { x with commits := rest })).bumpCluster k 5 1).countAtomic k).countAtomic k

theorem scRead_commitTaken (s : State) (c k : Nat) (rest : List PendCommit) (off n : Nat) :
    (s.commitTaken c k rest).scRead k off n = s.scRead k off n := by
  simp only [State.commitTaken, State.countAtomic, scRead_bumpCluster]
  rfl

theorem core_commitTaken (s : State) (c k : Nat) (rest : List PendCommit) :
    (s.commitTaken c k rest).core c = { s.core c with commits := rest } :=
  core_modCore_self s c fun x => { x with commits := rest }

/-- The first commit of an index, before its post: the bit is set and COMMITS rises. -/
def State.firstCommit (s : State) (c k off a : Nat) (p : PendCommit) (rest : List PendCommit) : State :=
  ((s.commitTaken c k rest).scWrite k a 1 (s.scRead k a 1 + 2 ^ (p.index % 8))).scAdd32 k (off + 20) 1

/-- A commit of an index whose bit is set: DUPS rises, and the cluster's counter of duplicates. -/
def State.dupCommit (s : State) (c k off : Nat) (rest : List PendCommit) : State :=
  ((s.commitTaken c k rest).scAdd32 k (off + 24) 1).bumpCluster (clusterOf c) 16 1

/-- The post of a commit, where it has one, takes its place (R86). -/
def State.makeCommitPost (s : State) (c : Nat) (p : PendCommit) : State :=
  if p.post.kind = 0 then s else s.modCore c (fun x => x.insertPost p.before p.post)

/-- The oldest commit of a core tests its index's bit, and is a duplicate or the first (R132). -/
theorem chainCommit_of_waiting {s : State} {c : Nat} {job : Job} {p : PendCommit} {rest : List PendCommit}
    (hjob : s.postJob c = some job) (hcom : (s.core c).commits = p :: rest) :
    let k := (s.workRec job p.work).1
    let off := (s.workRec job p.work).2.1
    let a := scWork + bits (s.workRec job p.work).2.2 147 128 * 64 + p.index / 8
    s.chainCommit c = if bit (s.scRead k a 1) (p.index % 8) = true then s.dupCommit c k off rest
      else (s.firstCommit c k off a p rest).makeCommitPost c p := by
  simp only [State.chainCommit, hjob, hcom]
  rfl

theorem core_firstCommit (s : State) (c k off a : Nat) (p : PendCommit) (rest : List PendCommit) :
    (s.firstCommit c k off a p rest).core c = { s.core c with commits := rest } :=
  core_commitTaken s c k rest

theorem core_dupCommit (s : State) (c k off : Nat) (rest : List PendCommit) :
    (s.dupCommit c k off rest).core c = { s.core c with commits := rest } :=
  core_commitTaken s c k rest

/-- What the claim table and COMMITS hold after a first commit, where the table's byte lies beside COMMITS. -/
theorem scRead_firstCommit {s : State} {k off a : Nat} {p : PendCommit} (c : Nat) (rest : List PendCommit)
    (hapart : a + 1 ≤ off + 20 ∨ off + 24 ≤ a) (hclear : bit (s.scRead k a 1) (p.index % 8) = false) :
    let t := s.firstCommit c k off a p rest
    bit (t.scRead k a 1) (p.index % 8) = true ∧ t.scRead k (off + 20) 4 = (s.scRead k (off + 20) 4 + 1) % 2 ^ 32 := by
  constructor
  · rw [State.firstCommit, scRead_scAdd32_apart _ _ hapart, scRead_scWrite_self]
    exact bit_add_two_pow (Nat.mod_lt _ (by decide)) hclear
  · rw [State.firstCommit, scRead_scAdd32_self, scRead_scWrite_apart _ _ (by omega), scRead_commitTaken]

/-- What the claim table and DUPS hold after a duplicate, where the table's byte lies beside DUPS. -/
theorem scRead_dupCommit {k off a : Nat} (s : State) (c : Nat) (rest : List PendCommit) (hapart : a + 1 ≤ off + 24 ∨ off + 28 ≤ a) :
    let t := s.dupCommit c k off rest
    t.scRead k a 1 = s.scRead k a 1 ∧ t.scRead k (off + 24) 4 = (s.scRead k (off + 24) 4 + 1) % 2 ^ 32 := by
  constructor
  · rw [State.dupCommit, scRead_bumpCluster, scRead_scAdd32_apart _ _ hapart, scRead_commitTaken]
  · rw [State.dupCommit, scRead_bumpCluster, scRead_scAdd32_self, scRead_commitTaken]

/-- A commit's post changes the waiting lists of its core alone. -/
theorem onlyCore_makeCommitPost (s : State) (c : Nat) (p : PendCommit) : OnlyCore c s (s.makeCommitPost c p) := by
  unfold State.makeCommitPost
  split
  · exact OnlyCore.refl c s
  · exact onlyCore_modCore s c _

theorem core_makeCommitPost (s : State) (c : Nat) (p : PendCommit) :
    ((s.makeCommitPost c p).core c).commits = (if p.post.kind = 0 then (s.core c).commits
      else (s.core c).commits.map (fun m => { m with before := m.before + 1 })) ∧
    ((s.makeCommitPost c p).core c).posts =
      (s.core c).posts.take p.before ++ (if p.post.kind = 0 then [] else [p.post]) ++ (s.core c).posts.drop p.before := by
  unfold State.makeCommitPost
  split
  next => exact ⟨rfl, by simp⟩
  next => rw [core_modCore_self]; exact ⟨rfl, by simp [Core.insertPost]⟩

/-- Settles O25: where the index's bit is clear, the commit sets it, counts in COMMITS and makes its post where it stood; where it is
set, the commit counts in DUPS alone. -/
theorem chainCommits : Obligations.ChainCommits := by
  unfold Obligations.ChainCommits
  intro c s job p rest hjob hcom k off a set hapart
  have hrun : s.chainCommit c = if set = true then s.dupCommit c k off rest
      else (s.firstCommit c k off a p rest).makeCommitPost c p := chainCommit_of_waiting hjob hcom
  refine ⟨fun hclear => ?_, fun hset => ?_⟩
  · rw [if_neg (by simp [hclear])] at hrun
    have hread := scRead_of_scache ((onlyCore_makeCommitPost (s.firstCommit c k off a p rest) c p).scache k)
    obtain ⟨⟨hms, -, -, hhub, -⟩, -⟩ := onlyCore_makeCommitPost (s.firstCommit c k off a p rest) c p
    obtain ⟨hcommits, hposts⟩ := core_makeCommitPost (s.firstCommit c k off a p rest) c p
    obtain ⟨hbit, hcount⟩ := scRead_firstCommit (p := p) c rest (show a + 1 ≤ off + 20 ∨ off + 24 ≤ a by omega) hclear
    rw [core_firstCommit] at hcommits hposts
    refine ⟨_, congrArg Host.Outcome.next hrun, hms, hhub, hcommits, ?_, ?_, hposts⟩
    · rw [hread]; exact hbit
    · rw [hread]; exact hcount
  · rw [if_pos hset] at hrun
    have hcore := core_dupCommit s c k off rest
    obtain ⟨hkept, hcount⟩ := scRead_dupCommit s c rest (show a + 1 ≤ off + 24 ∨ off + 28 ≤ a by omega)
    exact ⟨_, congrArg Host.Outcome.next hrun, rfl, rfl, (congrArg Core.commits hcore :), hkept, hcount, (congrArg Core.posts hcore :)⟩

end Sys2Proof.Machine

/-! PROOFS. Lines of stacked memory as the host reads and writes them (R156–R158, R160, R168–R170, R184). -/

namespace Sys2Proof.Machine

/-! ## Steps that store no byte and send no message -/

/-- The cores, the clusters, what has left the module, and the bytes and marks of stacked memory are as before. -/
structure Quiet (s t : State) : Prop where
  cores : t.cores = s.cores
  clusters : t.clusters = s.clusters
  out : t.out = s.out
  mem : t.ms.mem = s.ms.mem
  poison : t.ms.poison = s.ms.poison

theorem Quiet.refl (s : State) : Quiet s s := ⟨rfl, rfl, rfl, rfl, rfl⟩

theorem Quiet.trans {s t u : State} (h : Quiet s t) (h' : Quiet t u) : Quiet s u :=
  ⟨h'.cores.trans h.cores, h'.clusters.trans h.clusters, h'.out.trans h.out, h'.mem.trans h.mem, h'.poison.trans h.poison⟩

theorem quiet_foldl {α : Type} {f : State → α → State} (h : ∀ s a, Quiet s (f s a)) (l : List α) (s : State) : Quiet s (l.foldl f s) :=
  l.foldlRecOn f (Quiet.refl s) fun t ht a _ => ht.trans (h t a)

theorem quiet_modStack (s : State) (m : Nat) (f : Stack → Stack) : Quiet s (s.modStack m f) := ⟨rfl, rfl, rfl, rfl, rfl⟩

theorem quiet_bumpBw (s : State) (i n : Nat) : Quiet s (s.bumpBw i n) := ⟨rfl, rfl, rfl, rfl, rfl⟩

theorem quiet_countWritten (s : State) (a n : Nat) : Quiet s (s.countWritten a n) := quiet_foldl (fun t _ => quiet_bumpBw t _ _) _ s

/-- A quiet step that corrects no error: the stacks' counts of corrected ones are as before too. -/
def KeepsCe (s t : State) : Prop := Quiet s t ∧ ∀ m, (t.stack m).ce = (s.stack m).ce

theorem KeepsCe.refl (s : State) : KeepsCe s s := ⟨Quiet.refl s, fun _ => rfl⟩

theorem KeepsCe.trans {s t u : State} (h : KeepsCe s t) (h' : KeepsCe t u) : KeepsCe s u :=
  ⟨h.1.trans h'.1, fun m => (h'.2 m).trans (h.2 m)⟩

theorem keepsCe_foldl {α : Type} {f : State → α → State} (h : ∀ s a, KeepsCe s (f s a)) (l : List α) (s : State) : KeepsCe s (l.foldl f s) :=
  l.foldlRecOn f (KeepsCe.refl s) fun t ht a _ => ht.trans (h t a)

theorem keepsCe_modStack (s : State) (m : Nat) {f : Stack → Stack} (h : ∀ x, (f x).ce = x.ce) : KeepsCe s (s.modStack m f) :=
  ⟨quiet_modStack s m f, fun n => by
    rw [stack_modStack]
    split
    next hn => rw [h, hn]
    next => rfl⟩

theorem keepsCe_countRead (s : State) (a n : Nat) : KeepsCe s (s.countRead a n) :=
  keepsCe_foldl (fun t _ => ⟨quiet_bumpBw t _ _, fun _ => rfl⟩) _ s

theorem keepsCe_useParity (s : State) (m : Nat) : KeepsCe s (s.useParity m) := by
  unfold State.useParity
  dsimp only
  split
  · exact KeepsCe.refl s
  · have hparity : KeepsCe s (s.withMs fun x => { x with parity := mset x.parity m 0 }) := ⟨⟨rfl, rfl, rfl, rfl, rfl⟩, fun _ => rfl⟩
    refine hparity.trans (keepsCe_modStack _ m ?_)
    exact fun _ => rfl

/-! ## Uncorrectable errors (R161) -/

/-- At most n records more in the log; stacked memory with its records, the cores, the clusters and what has left are as before. -/
structure OnlyNotes (n : Nat) (s t : State) : Prop where
  ms : t.ms = s.ms
  cores : t.cores = s.cores
  clusters : t.clusters = s.clusters
  out : t.out = s.out
  log : ∀ k, k + n ≤ 256 → ∀ r ∈ s.por.log.take k, r ∈ t.por.log.take (k + n)

theorem OnlyNotes.refl (s : State) : OnlyNotes 0 s s := ⟨rfl, rfl, rfl, rfl, fun _ _ _ h => h⟩

theorem OnlyNotes.trans {m n : Nat} {s t u : State} (h : OnlyNotes m s t) (h' : OnlyNotes n t u) : OnlyNotes (m + n) s u :=
  ⟨h'.ms.trans h.ms, h'.cores.trans h.cores, h'.clusters.trans h.clusters, h'.out.trans h.out, fun k hk r hr =>
    Nat.add_assoc k m n ▸ h'.log (k + m) (by omega) r (h.log k (by omega) r hr)⟩

theorem OnlyNotes.mono {m n : Nat} {s t : State} (h : OnlyNotes m s t) (hmn : m ≤ n) : OnlyNotes n s t :=
  ⟨h.ms, h.cores, h.clusters, h.out, fun k hk r hr =>
    List.take_subset_take_left _ (by omega) (h.log k (by omega) r hr)⟩

theorem OnlyNotes.keepsCe {n : Nat} {s t : State} (h : OnlyNotes n s t) : KeepsCe s t :=
  ⟨⟨h.cores, h.clusters, h.out, by rw [h.ms], by rw [h.ms]⟩, fun m => by rw [stack_of_ms h.ms]⟩

/-- A new record stands before the others. -/
theorem mem_take_push {r x : LogRec} {l : List LogRec} {k : Nat} (hk : k + 1 ≤ 256) (hr : r ∈ l.take k) :
    r ∈ ((x :: l).take 256).take (k + 1) := by
  rw [List.take_take, Nat.min_eq_left hk, List.take_succ_cons]
  exact List.mem_cons_of_mem x hr

theorem onlyNotes_logEvent (s : State) (event code unit : Nat) (d : BitVec 128) : OnlyNotes 1 s (s.logEvent event code unit d) :=
  ⟨rfl, rfl, rfl, rfl, fun _ hk _ hr => mem_take_push hk hr⟩

theorem onlyNotes_noteTier (s : State) (before : Nat) : OnlyNotes 1 s (s.noteTier before) := by
  unfold State.noteTier
  split
  · exact onlyNotes_logEvent s _ _ _ _
  · exact (OnlyNotes.refl s).mono (by decide)

theorem onlyNotes_jobFault (s : State) (job : Option JobId) (f : FaultInfo) : OnlyNotes 1 s (s.jobFault job f) := by
  unfold State.jobFault
  split
  · exact (OnlyNotes.refl s).mono (by decide)
  · exact ⟨rfl, rfl, rfl, rfl, fun _ hk _ hr => mem_take_push hk hr⟩

/-- Fencing a stack writes its record; the windows that lie on it are the slots'. -/
theorem onlyNotes_fenceStack (s : State) (m code : Nat) :
    OnlyNotes 2 (s.modStack m fun x => { x with fence := code }) (s.fenceStack m code) := by
  unfold State.fenceStack
  refine (OnlyNotes.trans (m := 0) ?_ (onlyNotes_logEvent _ _ _ _ _)).trans (onlyNotes_noteTier _ _)
  refine List.foldlRecOn _ _ (OnlyNotes.refl _) fun t ht i _ => ?_
  split
  · exact ht.trans (n := 0) ⟨rfl, rfl, rfl, rfl, fun _ _ _ h => h⟩
  · exact ht

@[simp] theorem por_useParity (s : State) (m : Nat) : (s.useParity m).por = s.por := by
  unfold State.useParity
  dsimp only
  split <;> rfl

/-- An uncorrectable error makes the waiting repeats, writes its stack's record, and leaves at most four records in the log: its own, the
fence's, the tier's and the sweep's. -/
theorem countUe_steps (s : State) (a : Nat) : ∃ u, KeepsCe (s.useParity (addrStack a)) u ∧ u.por = s.por ∧
    u.ms.parity = (s.useParity (addrStack a)).ms.parity ∧ OnlyNotes 4 u (s.countUe a) := by
  let v := (s.useParity (addrStack a)).modStack (addrStack a) fun x => { x with ue := x.ue + 1 }
  have hv : KeepsCe (s.useParity (addrStack a)) v := keepsCe_modStack _ _ fun _ => rfl
  let logged := v.logEvent 1 0x44 (0x10 + addrStack a) (BitVec.ofNat 128 a)
  have hlog (f : Stack → Stack) : OnlyNotes 1 (v.modStack (addrStack a) f) (logged.modStack (addrStack a) f) := onlyNotes_logEvent _ _ _ _ _
  unfold State.countUe
  dsimp only
  split
  · exact ⟨v.modStack (addrStack a) fun x => { x with fence := 2 }, hv.trans (keepsCe_modStack v _ fun _ => rfl), por_useParity s _, rfl,
      ((hlog _).trans (onlyNotes_fenceStack logged _ 2)).trans (onlyNotes_jobFault _ _ _)⟩
  · exact ⟨v, hv, por_useParity s _, rfl, (onlyNotes_logEvent v _ _ _ _).mono (by decide)⟩

theorem keepsCe_countUe (s : State) (a : Nat) : KeepsCe s (s.countUe a) := by
  obtain ⟨u, hu, -, -, hnotes⟩ := countUe_steps s a
  exact ((keepsCe_useParity s _).trans hu).trans hnotes.keepsCe

/-- The log's newest record is still there once an error is counted. -/
theorem log_countUe {s : State} {a : Nat} {r : LogRec} (h : r ∈ s.por.log.take 1) : r ∈ (s.countUe a).por.log := by
  obtain ⟨u, -, hpor, -, hnotes⟩ := countUe_steps s a
  exact List.mem_of_mem_take (hnotes.log 1 (by decide) r (hpor ▸ h))

theorem parity_countUe (s : State) (a : Nat) : (s.countUe a).ms.parity = (s.useParity (addrStack a)).ms.parity := by
  obtain ⟨u, -, -, hparity, hnotes⟩ := countUe_steps s a
  rw [hnotes.ms, hparity]

/-! ## A line of stacked memory (R168) -/

theorem hdmBase_add_of_hdmLine {s : State} {hpa l : Nat} (h : s.hdmLine hpa = some l) : s.hdmBase + l = hpa := by
  unfold State.hdmLine at h
  split at h
  next hr => cases h; omega
  next => cases h

/-- A granule that meets a line is one of its two, in the line's stack. -/
theorem addrStack_of_meets_line {l g : Nat} (h : meets (64 * l) 64 (32 * g) 32 = true) : addrStack (32 * g) = addrStack (64 * l) := by
  simp only [meets, Bool.and_eq_true, decide_eq_true_eq] at h
  simp only [addrStack, bits]
  omega

/-- Errors corrected at granules of one stack raise its count by their number. -/
theorem ce_foldl_corrected {m : Nat} {gs : List Nat} (h : ∀ g ∈ gs, addrStack (32 * g) = m) (s : State) :
    ((gs.foldl (fun t g => t.modStack (addrStack (32 * g)) (fun x => { x with ce := x.ce + 1 })) s).stack m).ce =
      (s.stack m).ce + BitVec.ofNat 64 gs.length := by
  induction gs generalizing s with
  | nil => simp
  | cons g gs ih =>
    obtain ⟨hg, hgs⟩ := List.forall_mem_cons.mp h
    rw [List.foldl_cons, ih hgs, hg, stack_modStack, if_pos rfl, List.length_cons]
    dsimp only
    rw [BitVec.add_assoc, Nat.add_comm gs.length, BitVec.ofNat_add]
    rfl

/-- What has been corrected of a line when a read of it is done (R156). -/
theorem ce_countFlips_line (s : State) (l : Nat) : ((s.countFlips (64 * l) 64).stack (addrStack (64 * l))).ce =
    (s.stack (addrStack (64 * l))).ce + BitVec.ofNat 64 (s.ms.flips.countP fun g => meets (64 * l) 64 (32 * g) 32) := by
  rw [List.countP_eq_length_filter]
  exact ce_foldl_corrected (fun g hg => addrStack_of_meets_line (List.mem_filter.mp hg).2) s

theorem quiet_countFlips (s : State) (a n : Nat) : Quiet s (s.countFlips a n) := quiet_foldl (fun t _ => quiet_modStack t _ _) _ s

/-- A read of the host that is done has corrected the line's single-bit errors and has changed nothing else that is seen. -/
theorem hostReadDone_spec (s : State) (l : Nat) : Quiet s (s.hostReadDone (64 * l)) ∧
    ((s.hostReadDone (64 * l)).stack (addrStack (64 * l))).ce =
      (s.stack (addrStack (64 * l))).ce + BitVec.ofNat 64 (s.ms.flips.countP fun g => meets (64 * l) 64 (32 * g) 32) := by
  obtain ⟨hquiet, hce⟩ := (keepsCe_foldl keepsCe_useParity (stacksOf (64 * l) 64) (s.countFlips (64 * l) 64)).trans
    (keepsCe_countRead _ (64 * l) 64)
  exact ⟨(quiet_countFlips s _ _).trans hquiet, (hce _).trans (ce_countFlips_line s l)⟩

theorem stackRecs_snoopInv (s : State) (a n : Nat) : (s.snoopInv a n).ms.stackRecs = s.ms.stackRecs := by
  have hemits : ((s.snooped a n).foldl (fun t l => t.emit (.bisnp l true)) s).ms = s.ms :=
    (s.snooped a n).foldlRecOn _ (motive := fun t : State => t.ms = s.ms) rfl fun _ ht _ _ => ht
  rw [State.snoopInv, withMs_ms, hemits]

/-- Granting a line may send back-invalidations; it leaves the bytes, the marks, the stacks' records and the clusters (R169). -/
theorem grantLine_spec (s : State) (l : Nat) :
    KeepsBytes s (s.grantLine l) ∧ (s.grantLine l).ms.stackRecs = s.ms.stackRecs := by
  unfold State.grantLine
  split
  · exact ⟨KeepsBytes.refl s, rfl⟩
  · dsimp only
    split
    · split
      · exact ⟨(snoopInv_keeps s _ _).trans (KeepsBytes.refl _), stackRecs_snoopInv s _ _⟩
      · exact ⟨KeepsBytes.refl s, rfl⟩
    · exact ⟨KeepsBytes.refl s, rfl⟩

/-! ## The bytes of a write (R158) -/

/-- The i-th byte of a write, where it is enabled. -/
def enabledByte (data : Desc) (be : Quad) (i : Nat) : Option (Nat × Byte) :=
  if be.getLsbD i then some (i, data.extractLsb' (8 * i) 8) else none

theorem enabled_eq (data : Desc) (be : Quad) : enabled data be = (List.range 64).filterMap (enabledByte data be) := rfl

theorem any_enabled (data : Desc) (be : Quad) (p : Nat → Bool) : (enabled data be).any (fun b => p b.1) = true ↔
    ∃ i, i < 64 ∧ be.getLsbD i = true ∧ p i = true := by
  simp only [enabled_eq, List.any_filterMap, List.any_eq_true, List.mem_range]
  refine exists_congr fun i => and_congr_right fun _ => ?_
  unfold enabledByte
  cases be.getLsbD i <;> simp

/-- The enabled ones of the first n bytes, stored one after the other. -/
theorem read_foldl_enabled (m : Mem) (a : Nat) (data : Desc) (be : Quad) (n x : Nat) :
    (((List.range n).filterMap (enabledByte data be)).foldl (fun (m : Mem) b => m.write (a + b.1) b.2) m).read x =
    if a ≤ x ∧ x < a + n ∧ be.getLsbD (x - a) = true then data.extractLsb' (8 * (x - a)) 8 else m.read x := by
  induction n with
  | zero => rw [if_neg (by omega)]; rfl
  | succ n ih =>
    have hlast (m : Mem) : (([n].filterMap (enabledByte data be)).foldl (fun (m : Mem) b => m.write (a + b.1) b.2) m).read x =
        if x = a + n ∧ be.getLsbD n = true then data.extractLsb' (8 * n) 8 else m.read x := by
      by_cases hn : be.getLsbD n = true <;> simp [enabledByte, hn, Mem.read_write]
    rw [List.range_succ, List.filterMap_append, List.foldl_append, hlast, ih]
    by_cases hx : x = a + n
    · subst hx; simp
    · have hbelow : x < a + (n + 1) ↔ x < a + n := by omega
      simp only [hx, false_and, if_false, hbelow]

/-- A write of the host that lands stores its bytes and sends nothing. -/
theorem hostPut_spec (s : State) (a : Nat) (bs : List (Nat × Byte)) (be : Quad) :
    (s.hostPut a bs be).out = s.out ∧ (s.hostPut a bs be).cores = s.cores ∧
    (s.hostPut a bs be).ms.mem = bs.foldl (fun m b => m.write (a + b.1) b.2) s.ms.mem := by
  unfold State.hostPut
  dsimp only
  generalize hu : List.foldl _ s (List.filter _ _) = u
  have hbefore : Quiet s u := hu ▸ quiet_foldl (fun t _ => quiet_modStack t _ _) _ s
  generalize hv : u.withMs _ = v
  have hafter : Quiet v ((stacksOf a 64).foldl State.useParity (v.countWritten a bs.length)) :=
    (quiet_countWritten v a _).trans (quiet_foldl (fun t m => (keepsCe_useParity t m).1) _ _)
  subst hv
  exact ⟨hafter.out.trans hbefore.out, hafter.cores.trans hbefore.cores, hafter.mem.trans (by rw [withMs_ms, hbefore.mem])⟩

/-! ## HOST_MEM_READ, HOST_MEM_WRITE and BISNP_RESPONSE by what the line meets -/

/-- A write of the host that is dropped: it completes, and the log has a record of it (R158). -/
def State.hostDrop (s : State) (l : Nat) : State :=
  (s.emit (.cxlDone l)).logNote 0 (0x10 + addrStack (64 * l)) (BitVec.ofNat 128 (64 * l))

/-- A line on an OFF stack is answered by a Completer Abort (R409). -/
def State.hostAbort (s : State) (l : Nat) : State :=
  (s.emit (.completerAbort (64 * l))).logNote 0 0xFF (BitVec.ofNat 128 (64 * l))

/-- The answer of a read: the line's bytes, with or without CXL poison. -/
def State.hostAnswer (s : State) (l : Nat) (poisoned : Bool) : OutMsg :=
  .cxlData l (BitVec.ofNat 512 (leNat (s.ms.mem.readBytes (64 * l) 64))) poisoned

/-- A read of the device line l, by what stops its transfer and by the poisoned granule it meets. -/
def State.hostReadBy (s : State) (l : Nat) : Option AccErr → Option Nat → State
  | some .bus, _ => s.hostAbort l
  | some (.ue _), _ => ((s.grantLine l).emit (s.hostAnswer l true)).countUe (64 * l)
  | none, some _ => (((s.hostReadDone (64 * l)).grantLine l).emit (s.hostAnswer l true)).countPoison (64 * l) 64
  | none, none => ((s.hostReadDone (64 * l)).grantLine l).emit (s.hostAnswer l false)

/-- A write of the device line l, by what stops its transfer, whether an enabled byte is protected, and the poisoned granule it covers in
part. -/
def State.hostWriteBy (s : State) (l : Nat) (data : Desc) (be : Quad) : Option AccErr → Bool → Option Nat → State
  | some .bus, _, _ => s.hostAbort l
  | some (.ue _), _, _ => if (s.stack (addrStack (64 * l))).fence = 0 then (s.hostDrop l).countUe (64 * l) else s.hostDrop l
  | none, true, _ => s.hostDrop l
  | none, false, some g => (s.hostDrop l).countUe (32 * g)
  | none, false, none => (s.hostPut (64 * l) (enabled data be) be).emit (.cxlDone l)

/-- Whether a write of the device line l has an enabled byte in a protected range. -/
def State.hostProtected (s : State) (l : Nat) (data : Desc) (be : Quad) : Bool :=
  (enabled data be).any fun b => s.isProtected (64 * l + b.1) 1

/-! A line that the decoder does not claim, and one that it does. The kernel must not evaluate the decoder's base, a division of open
terms, so each proof unfolds the command's function by itself, before its arguments are met. -/

section
variable {s : State} {hpa : Nat}

theorem hostRead_outside (h : s.hdmLine hpa = none) : s.hostRead hpa = s := by
  conv_lhs => fun; fun; delta State.hostRead
  rw [h]

theorem hostWrite_outside (h : s.hdmLine hpa = none) (data : Desc) (be : Quad) : s.hostWrite hpa data be = s := by
  conv_lhs => fun; fun; fun; fun; delta State.hostWrite
  rw [h]

theorem snoopAnswered_outside (h : s.hdmLine hpa = none) : s.snoopAnswered hpa = s := by
  conv_lhs => fun; fun; delta State.snoopAnswered
  rw [h]

variable {l : Nat} (hline : s.hdmLine hpa = some l) (hreach : s.hostReaches = true)
include hline

theorem snoopAnswered_inside : s.snoopAnswered hpa = { s with ms := { s.ms with snoopWait := s.ms.snoopWait.erase l } } := by
  conv_lhs => fun; fun; delta State.snoopAnswered
  rw [hline]
  rfl

include hreach

theorem hostRead_inside : s.hostRead hpa = s.hostReadBy l (s.rangeErr (64 * l) 64) (s.poisonIn (64 * l) 64) := by
  conv_lhs => fun; fun; delta State.hostRead
  rw [hline]
  dsimp only
  rw [hreach]
  generalize s.rangeErr (64 * l) 64 = e
  generalize s.poisonIn (64 * l) 64 = p
  match e, p with
  | some .bus, _ => rfl
  | some (.ue _), _ => rfl
  | none, some _ => rfl
  | none, none => rfl

theorem hostWrite_inside (data : Desc) (be : Quad) : s.hostWrite hpa data be =
    s.hostWriteBy l data be (s.rangeErr (64 * l) 64) (s.hostProtected l data be) (s.partPoison (64 * l) be) := by
  conv_lhs => fun; fun; fun; fun; delta State.hostWrite
  rw [hline]
  dsimp only
  rw [hreach, State.hostProtected]
  generalize s.rangeErr (64 * l) 64 = e
  generalize List.any (enabled data be) _ = b
  generalize s.partPoison (64 * l) be = p
  match e, b, p with
  | some .bus, _, _ => rfl
  | some (.ue _), _, _ => rfl
  | none, true, _ => rfl
  | none, false, some _ => rfl
  | none, false, none => rfl

end

theorem hostProtected_iff {s : State} {l : Nat} {data : Desc} {be : Quad} : s.hostProtected l data be = true ↔
    ∃ i, i < 64 ∧ be.getLsbD i = true ∧ s.isProtected (64 * l + i) 1 = true :=
  any_enabled data be fun i => s.isProtected (64 * l + i) 1

theorem hostProtected_clear {s : State} {l : Nat} {data : Desc} {be : Quad}
    (h : ∀ i, i < 64 → be.getLsbD i = true → s.isProtected (64 * l + i) 1 = false) : s.hostProtected l data be = false := by
  refine Bool.eq_false_iff.mpr fun hp => ?_
  obtain ⟨i, hi, hbe, hprot⟩ := hostProtected_iff.mp hp
  exact Bool.false_ne_true ((h i hi hbe).symm.trans hprot)

/-! ## What a read and a write leave -/

/-- The line's single-bit errors have been corrected, and counted for its stack (R156). -/
def CorrectsLine (l : Nat) (s t : State) : Prop := (t.stack (addrStack (64 * l))).ce =
  (s.stack (addrStack (64 * l))).ce + BitVec.ofNat 64 (s.ms.flips.countP fun g => meets (64 * l) 64 (32 * g) 32)

theorem stack_grantLine (s : State) (l m : Nat) : (s.grantLine l).stack m = s.stack m := by
  rw [State.stack, (grantLine_spec s l).2]
  rfl

theorem keepsCe_countPoison (s : State) (a n : Nat) : KeepsCe s (s.countPoison a n) :=
  keepsCe_foldl (fun t g => keepsCe_countUe t (32 * g)) _ s

/-- A read that is done and answered: the bytes, the cores and the clusters are as before, and the line is corrected. -/
theorem readAnswered_spec (s : State) (l : Nat) (m : OutMsg) : let t := ((s.hostReadDone (64 * l)).grantLine l).emit m
    t.ms.mem = s.ms.mem ∧ CorrectsLine l s t ∧ t.cores = s.cores ∧ t.clusters = s.clusters := by
  obtain ⟨hdone, hce⟩ := hostReadDone_spec s l
  obtain ⟨⟨⟨hclusters, hcores, -⟩, hmem, -⟩, -⟩ := grantLine_spec (s.hostReadDone (64 * l)) l
  refine ⟨hmem.trans hdone.mem, ?_, hcores.trans hdone.cores, hclusters.trans hdone.clusters⟩
  exact (congrArg Stack.ce (stack_grantLine _ l _)).trans hce

/-- A poisoned line is answered with CXL poison, its other granule corrected all the same (R156, R160). -/
theorem readPoisoned_spec (s : State) (l g : Nat) : let t := s.hostReadBy l none (some g)
    t.ms.mem = s.ms.mem ∧ s.hostAnswer l true ∈ t.out ∧ CorrectsLine l s t := by
  obtain ⟨hmem, hce, -, -⟩ := readAnswered_spec s l (s.hostAnswer l true)
  obtain ⟨hquiet, hkept⟩ := keepsCe_countPoison (((s.hostReadDone (64 * l)).grantLine l).emit (s.hostAnswer l true)) (64 * l) 64
  exact ⟨hquiet.mem.trans hmem, hquiet.out ▸ List.mem_cons_self, (hkept _).trans hce⟩

/-- A line that cannot be read is answered with CXL poison and counted as one error of its stack (R149, R157, R161). -/
theorem readFailed_spec (s : State) (l x : Nat) (p : Option Nat) : let t := s.hostReadBy l (some (.ue x)) p
    t.ms.mem = s.ms.mem ∧ s.hostAnswer l true ∈ t.out ∧
      (t.stack (addrStack (64 * l))).ue = (s.stack (addrStack (64 * l))).ue + 1 := by
  obtain ⟨⟨-, hmem, -⟩, -⟩ := grantLine_spec s l
  obtain ⟨hquiet, -⟩ := keepsCe_countUe ((s.grantLine l).emit (s.hostAnswer l true)) (64 * l)
  refine ⟨hquiet.mem.trans hmem, hquiet.out ▸ List.mem_cons_self, (countUe_spec _ _).2.trans ?_⟩
  exact congrArg (fun x : Stack => x.ue + 1) (stack_grantLine s l _)

/-- A write that lands completes and stores each enabled byte and no other (R158). -/
theorem writeLands_spec (s : State) (l : Nat) (data : Desc) (be : Quad) : let t := s.hostWriteBy l data be none false none
    t.out = .cxlDone l :: s.out ∧ t.cores = s.cores ∧
    (∀ i, i < 64 → t.ms.mem.read (64 * l + i) =
      if be.getLsbD i then data.extractLsb' (8 * i) 8 else s.ms.mem.read (64 * l + i)) ∧
    (∀ x, x < 64 * l ∨ 64 * l + 64 ≤ x → t.ms.mem.read x = s.ms.mem.read x) := by
  obtain ⟨hout, hcores, hmem⟩ := hostPut_spec s (64 * l) (enabled data be) be
  have hread (x : Nat) : (s.hostWriteBy l data be none false none).ms.mem.read x = _ :=
    (congrArg (Mem.read · x) hmem).trans (read_foldl_enabled s.ms.mem (64 * l) data be 64 x)
  refine ⟨congrArg (OutMsg.cxlDone l :: ·) hout, hcores, fun i hi => ?_, fun x hx => ?_⟩
  · rw [hread, Nat.add_sub_cancel_left]
    simp only [Nat.le_add_right, Nat.add_lt_add_iff_left, hi, true_and]
  · rw [hread, if_neg (by omega)]

/-- A dropped write that is counted as an error: it completes, and memory, the marks and the log's record of it stay. -/
theorem dropCounted_spec (s : State) (l a : Nat) : let t := (s.hostDrop l).countUe a
    t.ms.mem = s.ms.mem ∧ t.ms.poison = s.ms.poison ∧ OutMsg.cxlDone l ∈ t.out ∧ (∃ r ∈ t.por.log, r.seq = s.por.logSeq + 1) ∧
      (t.stack (addrStack a)).ue = (s.stack (addrStack a)).ue + 1 := by
  obtain ⟨hquiet, -⟩ := keepsCe_countUe (s.hostDrop l) a
  refine ⟨hquiet.mem, hquiet.poison, hquiet.out ▸ List.mem_cons_self, ?_, (countUe_spec _ _).2⟩
  exact ⟨_, log_countUe (s := s.hostDrop l) List.mem_cons_self, rfl⟩

theorem isPoisoned_of_partPoison {s : State} {a g : Nat} {be : Quad} (h : s.partPoison a be = some g) : s.isPoisoned g = true :=
  List.contains_iff_mem.mpr (List.mem_of_find?_eq_some h)

/-- Settles O36: a line outside the decoder's range is none of the module's; one inside is read and written by what stops its transfer,
what protects it and what of it is poisoned. -/
theorem hostMemoryAccess : Obligations.HostMemoryAccess := by
  unfold Obligations.HostMemoryAccess
  intro line data be s hreach
  refine ⟨fun hout => ⟨congrArg Host.Outcome.next (hostRead_outside hout), congrArg Host.Outcome.next (hostWrite_outside hout data be),
    congrArg Host.Outcome.next (snoopAnswered_outside hout)⟩, fun l hline => ⟨hdmBase_add_of_hdmLine hline, ?_⟩⟩
  have hread : exec (.hostMemRead line) s = .next (s.hostReadBy l _ _) := congrArg Host.Outcome.next (hostRead_inside hline hreach)
  have hwrite : exec (.hostMemWrite line data be) s = .next (s.hostWriteBy l data be _ _ _) :=
    congrArg Host.Outcome.next (hostWrite_inside hline hreach data be)
  refine ⟨fun hok => ?_, fun hbus => ?_, fun x hue => ?_, congrArg Host.Outcome.next (snoopAnswered_inside hline)⟩
  · rw [hok] at hread hwrite
    refine ⟨fun hp => ?_, fun hp => ?_, fun hfree hp => ?_, fun g hfree hp => ?_, fun hprot => ?_⟩
    · rw [hp] at hread
      obtain ⟨hmem, hce, hcores, hclusters⟩ := readAnswered_spec s l (s.hostAnswer l false)
      exact ⟨_, hread, hmem, hce, rfl, hcores, hclusters⟩
    · obtain ⟨g, hg⟩ := Option.isSome_iff_exists.mp hp
      rw [hg] at hread
      exact ⟨_, hread, readPoisoned_spec s l g⟩
    · rw [hostProtected_clear hfree, hp] at hwrite
      exact ⟨_, hwrite, writeLands_spec s l data be⟩
    · rw [hostProtected_clear hfree, hp] at hwrite
      obtain ⟨hmem, hpoison, hout, hlog, hcount⟩ := dropCounted_spec s l (32 * g)
      exact ⟨_, hwrite, hmem, hpoison, isPoisoned_of_partPoison hp, hout, hlog, hcount⟩
    · rw [hostProtected_iff.mpr hprot] at hwrite
      exact ⟨_, hwrite, rfl, rfl⟩
  · rw [hbus] at hread hwrite
    exact ⟨⟨_, hread, rfl, rfl⟩, ⟨_, hwrite, rfl, rfl⟩⟩
  · rw [hue] at hread hwrite
    refine ⟨⟨_, hread, readFailed_spec s l x _⟩, fun hf => ?_, fun hf => ?_⟩
    · exact ⟨_, hwrite.trans (congrArg Host.Outcome.next (if_neg hf)), rfl, rfl, rfl⟩
    · obtain ⟨hmem, -, hout, -, hcount⟩ := dropCounted_spec s l (64 * l)
      exact ⟨_, hwrite.trans (congrArg Host.Outcome.next (if_pos hf)), hmem, hout, hcount⟩

end Sys2Proof.Machine

/-! PROOFS. The patrol scrub (R157, R159): the repeats that a stack waits for, and a scrub whose unit lies in another stack. -/

namespace Sys2Proof.Machine

theorem ms_countRead (s : State) (a n : Nat) : (s.countRead a n).ms = s.ms :=
  List.foldlRecOn _ _ (motive := fun t : State => t.ms = s.ms) rfl fun _ ht _ _ => ht

theorem ms_countWritten (s : State) (a n : Nat) : (s.countWritten a n).ms = s.ms :=
  List.foldlRecOn _ _ (motive := fun t : State => t.ms = s.ms) rfl fun _ ht _ _ => ht

theorem parity_modStack (s : State) (m : Nat) (f : Stack → Stack) : (s.modStack m f).ms.parity = s.ms.parity := rfl

/-- An uncorrectable error makes the waiting repeats of its own stack alone. -/
theorem parity_countUe_ne (s : State) {a m : Nat} (h : m ≠ addrStack a) : mget 0 (s.countUe a).ms.parity m = mget 0 s.ms.parity m := by
  rw [parity_countUe, State.useParity]
  split
  · rfl
  · exact mget_mset_ne 0 _ 0 h

/-- A transfer that its repeats do not mend loses a granule, and makes no repeats yet (R157). -/
theorem scrubLost_of_failed {s : State} {m : Nat} (h : s.retryLimit < mget 0 s.ms.parity m) :
    s.scrubLost m = ([(Config.freeQuad s.draws).toNat % 64], { s with draws := s.draws + 1 }) := by
  rw [State.scrubLost, if_pos h]
  rfl

/-- Where the granules of the channel's next unit lie in other stacks, a scrub whose transfer fails leaves its stack's repeats waiting. -/
theorem parity_scrub_of_strayed {s : State} {m ch : Nat} (h : s.retryLimit < mget 0 s.ms.parity m)
    (hunit : ∀ g, g < 64 → m ≠ addrStack (granuleAddr m (mget 0 s.ms.scrubPos (128 * m + ch)) ch g)) (corrected bad : List (Fin 64)) :
    mget 0 (s.scrub m ch corrected bad).ms.parity m = mget 0 s.ms.parity m := by
  generalize hu : s.scrub m ch corrected bad = u
  conv at hu => lhs; fun; fun; fun; fun; fun; delta State.scrub
  dsimp only at hu
  rw [scrubLost_of_failed h] at hu
  dsimp only at hu
  split at hu
  · rw [hu]
  subst hu
  refine List.foldlRecOn _ _ (motive := fun t : State => mget 0 t.ms.parity m = mget 0 s.ms.parity m) ?_ fun t ht g hg => ?_
  · split
    · rw [parity_modStack, withMs_ms, ms_countRead]
    · rw [ms_countWritten, parity_modStack, withMs_ms, ms_countRead]
  · have hg64 : g < 64 := by
      simp only [List.mem_eraseDups, List.mem_append, List.mem_filter, List.mem_range, List.mem_map, List.mem_singleton] at hg
      rcases hg with (⟨hg, -⟩ | ⟨i, -, rfl⟩) | rfl
      · exact hg
      · exact i.isLt
      · exact Nat.mod_lt _ (by decide)
    exact (parity_countUe_ne _ (hunit g hg64)).trans ht

theorem exec_patrolScrub (m : StackId) (ch : ChannelId) (corrected bad : List (Fin 64)) (s : State) :
    exec (.patrolScrub m ch corrected bad) s = .next (s.scrub m ch corrected bad) := rfl

/-- A module that runs, whose stack 0 waits for 16 repeats, one more than its limit may be, and whose next unit of channel 0 is numbered
one past the last, which no scrub writes: its granules would lie in stack 1. -/
def strayedScrub : State :=
  { ms := { parity := [(0, 16)], scrubPos := [(0, scrubUnits)] }
    pwr := { rootLocked := true, blocks := [(12, 1)] }
    boot := { hub0 := true, hub1 := true } }

theorem strayedScrub_serves : strayedScrub.stackServes 0 = true := by decide +kernel

theorem strayedScrub_fails : strayedScrub.dv 0x0801 1 < mget 0 strayedScrub.ms.parity 0 := by decide +kernel

theorem strayedScrub_scrubs : strayedScrub.dv 0x0801 2 ≠ 0 := by decide +kernel

theorem strayedScrub_below : (strayedScrub.stack 0).ue.toNat + 1 < strayedScrub.dv 0x0801 3 := by decide +kernel

theorem strayedScrub_unit {g : Nat} (h : g < 64) : 0 ≠ addrStack (granuleAddr 0 scrubUnits 0 g) := by
  simp only [addrStack, granuleAddr, scrubUnits, bits]
  omega

/-- Refutes O37: its clause on a failed transfer does not ask that the channel's next unit be one of the 524,288, as its first clause does.
In a state whose unit is numbered one past the last, the lost granule's address is in stack 1, so stack 0's repeats stay waiting. -/
theorem not_patrolScrubUnit : ¬ Obligations.PatrolScrubUnit := by
  unfold Obligations.PatrolScrubUnit
  intro h
  obtain ⟨-, hfailed, -⟩ := h 0 0 [] [] strayedScrub
  obtain ⟨t, g, ht, -, -, -, -, hmade⟩ := hfailed strayedScrub_serves strayedScrub_fails strayedScrub_scrubs (fun _ => rfl) strayedScrub_below
  rw [exec_patrolScrub] at ht
  have hwaits := parity_scrub_of_strayed (m := (0 : StackId)) (ch := (0 : ChannelId)) strayedScrub_fails (fun g hg => strayedScrub_unit hg) [] []
  rw [Host.Outcome.next.inj ht, hmade] at hwaits
  exact absurd hwaits (by decide)

end Sys2Proof.Machine

/-! PROOFS. Answering a record (R422, R425, R427, R429): what it leaves, and the command that serves a write. -/

namespace Sys2Proof.Machine

/-! ## What answering a record leaves (R422, R425, R429) -/

/-- The porter without what its frames move: the frame being served and those that wait, the sessions, the mailbox's area and flags. -/
def Porter.sansFrames (p : Porter) : Porter :=
  { p with
    current := none, inbox := [], respArea := [], mbBusy := false, mbDone := false, framesDropped := 0, sessions := [], partHellos := []
    closeAfter := [] }

/-- The state without what the porter's frames move, what has left the module and the pending signals. -/
def State.sansFrames (s : State) : State :=
  { s with out := [], hub := { s.hub with msixPending := 0 }, por := s.por.sansFrames }

/-- Beside the porter's frames, nothing differs. -/
def SameButFrames (s t : State) : Prop := t.sansFrames = s.sansFrames

theorem SameButFrames.refl (s : State) : SameButFrames s s := rfl

theorem SameButFrames.trans {s t u : State} (h : SameButFrames s t) (h' : SameButFrames t u) : SameButFrames s u := Eq.trans h' h

theorem SameButFrames.foldl {α : Type} {f : State → α → State} (h : ∀ s a, SameButFrames s (f s a)) (l : List α) (s : State) :
    SameButFrames s (l.foldl f s) := by
  induction l generalizing s with
  | nil => exact SameButFrames.refl s
  | cons a l ih => exact (h s a).trans (ih _)

theorem sameButFrames_withPor (s : State) {f : Porter → Porter}
    (h : ∀ p, (f p).sansFrames = p.sansFrames := by exact fun _ => rfl) :
    SameButFrames s (s.withPor f) := by
  show { s.sansFrames with por := (f s.por).sansFrames } = s.sansFrames
  rw [h]; rfl

theorem sameButFrames_emit (s : State) (m : OutMsg) : SameButFrames s (s.emit m) := rfl

theorem sameButFrames_signal (s : State) (v : Nat) : SameButFrames s (s.signal v) := by
  unfold State.signal; split <;> rfl

theorem sameButFrames_modSession (s : State) (n : Word) (f : Session → Session) : SameButFrames s (s.modSession n f) :=
  sameButFrames_withPor s

theorem sameButFrames_closeSessions (s : State) (f : Session → Bool) : SameButFrames s (s.closeSessions f) :=
  sameButFrames_withPor s

theorem sameButFrames_dropFrame (s : State) (path : Path) : SameButFrames s (s.dropFrame path) := by
  have hcount := sameButFrames_withPor s (f := fun p => { p with framesDropped := p.framesDropped + 1 })
  cases path with
  | field => exact hcount
  | mailbox => exact hcount.trans ((sameButFrames_withPor _).trans (sameButFrames_signal _ _))

theorem sameButFrames_mailboxDone (s : State) (bytes : List Byte) : SameButFrames s (s.mailboxDone bytes) :=
  (sameButFrames_withPor s).trans (sameButFrames_signal _ _)

theorem sameButFrames_respond (s : State) (f : InFrame) (rs : List Resp) (keep : Bool) : SameButFrames s (s.respond f rs keep) := by
  unfold State.respond
  extract_lets bytes u v w gone
  have hv : SameButFrames u v := by
    show SameButFrames u (match f.path with
      | .field => u.sendField f.peer bytes
      | .mailbox => u.mailboxDone bytes)
    cases f.path with
    | field => exact sameButFrames_emit u _
    | mailbox => exact sameButFrames_mailboxDone u bytes
  have hw : SameButFrames s w := ((sameButFrames_modSession s _ _).trans hv).trans (sameButFrames_closeSessions v _)
  split
  · exact hw
  · exact hw.trans ((sameButFrames_withPor w).trans (sameButFrames_closeSessions _ _))

theorem SameButFrames.ite {s t u : State} {p : Prop} [Decidable p] (ht : SameButFrames s t) (hu : SameButFrames s u) :
    SameButFrames s (if p then t else u) := by
  split
  · exact ht
  · exact hu

/-- Taking a frame drops it, answers it, or makes it the one being served. -/
theorem sameButFrames_takeFrame (s : State) (x : Inbound) : SameButFrames s (s.takeFrame x) := by
  have hdrop := sameButFrames_dropFrame s x.path
  have hserve (f : InFrame) : SameButFrames s (s.withPor fun p => { p with current := some f }) := sameButFrames_withPor s
  unfold State.takeFrame
  extract_lets path multicast bytes h kind auth ses txn n payload frame parted mine first ctr counted
  have hparted : SameButFrames s parted := sameButFrames_withPor s
  have hcounted : SameButFrames s counted := sameButFrames_modSession s _ _
  refine .ite hdrop (.ite (.ite hdrop (.ite (.refl s) (.ite ?hello (sameButFrames_withPor s)))) (.ite hdrop ?request))
  case hello =>
    clear_value path
    split
    · exact hparted
    · exact hparted.trans ((sameButFrames_withPor _).trans (sameButFrames_signal _ _))
  case request =>
    split
    · exact hdrop
    refine .ite (.ite (.refl s) (hserve _)) ?_
    split
    · exact hdrop
    refine .ite (.refl s) (.ite hdrop ?_)
    split
    · exact hcounted.trans (sameButFrames_respond _ _ _ _)
    · exact hcounted.trans (sameButFrames_withPor _)

theorem sameButFrames_takeFrames (n : Nat) (s : State) : SameButFrames s (State.takeFrames n s) := by
  induction n generalizing s with
  | zero => exact .refl s
  | succ n ih =>
    unfold State.takeFrames
    refine .ite (.refl s) ?_
    split
    · exact .refl s
    · exact ((sameButFrames_withPor s).trans (sameButFrames_takeFrame _ _)).trans (ih _)

theorem sameButFrames_endSegments (s : State) (f : InFrame) (rs : List Resp) : SameButFrames s (s.endSegments f rs) :=
  .ite (.refl s) (.foldl (fun t _ => sameButFrames_modSession t _ _) _ s)

theorem SameButFrames.boot {s t : State} (h : SameButFrames s t) : t.boot = s.boot := (congrArg State.boot h :)

/-- Where no reset waits for it (R459), answering a record moves the porter's frames alone. -/
theorem sameButFrames_answer {s : State} (h : s.boot.resetAfter = false) (status detail total : Nat) (value : List Byte) :
    SameButFrames s (s.answer status detail total value) := by
  unfold State.answer
  split
  · exact .refl s
  extract_lets rs rest t
  have ht : SameButFrames s t :=
    ((sameButFrames_withPor s).trans (sameButFrames_endSegments _ _ _)).trans (sameButFrames_respond _ _ _ _)
  have hreset : t.boot.resetAfter ≠ true := by rw [ht.boot, h]; decide
  rw [if_neg hreset]
  exact .ite (ht.trans (sameButFrames_takeFrames _ _)) (sameButFrames_withPor s)

namespace SameButFrames
variable {s t : State} (h : SameButFrames s t)
include h

theorem ms : t.ms = s.ms := (congrArg State.ms h :)
theorem car : t.car = s.car := (congrArg State.car h :)
theorem cmds : t.por.cmds = s.por.cmds := (congrArg (fun x => x.por.cmds) h :)
theorem vals : t.por.vals = s.por.vals := (congrArg (fun x => x.por.vals) h :)
theorem dv (i u : Nat) : t.dv i u = s.dv i u := by rw [State.dv, h.vals]; rfl
theorem slot (i : Nat) : t.slot i = s.slot i := by rw [State.slot, h.car]; rfl
theorem flashCh (c : Nat) : t.flashCh c = s.flashCh c := by rw [State.flashCh, h.car]; rfl

end SameButFrames

/-! ## A record that writes an entry (R422, R427) -/

/-- The state with other sessions. -/
def State.withSessions (s : State) (l : List Session) : State := s.withPor (fun p => { p with sessions := l })

/-- A write whose value is taken has touched the staged segments of its session alone. -/
theorem lookWrite_value {s t : State} {f : InFrame} {r : Req} {bs : List Byte} (h : s.lookWrite f r = .value bs t) :
    ∃ l, t = s.withSessions l := by
  unfold State.lookWrite at h
  split at h
  · cases h
  · next e _ =>
    extract_lets whole u at h
    have hwhole (v : State) (l : List Byte) (hv : whole v l = .value bs t) : t = v := by
      simp only [whole] at hv
      split at hv
      · split at hv
        · cases hv
        · split at hv
          · injection hv with _ hv; exact hv.symm
          · cases hv
      · split at hv
        · split at hv
          · cases hv
          · injection hv with _ hv; exact hv.symm
        · injection hv with _ hv; exact hv.symm
    split at h
    · split at h
      · exact ⟨s.por.sessions, hwhole s _ h⟩
      · split at h <;> cases h
    · split at h
      · cases h
      · extract_lets joined at h
        split at h
        · exact ⟨_, hwhole u _ h⟩
        · cases h

theorem frontRec_congr {s t : State} (hboot : t.boot = s.boot) (hcur : t.por.current = s.por.current) : t.frontRec = s.frontRec := by
  simp only [State.frontRec, hboot, hcur]

/-- A command t that serves a write: its own act runs on the whole value, in the state as the checks left it. Where the act leaves the
frame being served and the boot state, the record is answered with the act's status, and beside the frames nothing moves any more. -/
theorem served_of_writes {s : State} {i u : Nat} {bs : List Byte} (h : s.writes i u bs) : ∃ f r l, r.index = i ∧ r.sub = u ∧
    ∀ (t : State) {own : Nat → Nat → Bool} {act : State → InFrame → Req → List Byte → Ans} {a : Ans}, t = s.serveWrite own act →
      own i u = true → act (s.withSessions l) f r bs = a → a.st.boot = s.boot → a.st.por.current = s.por.current →
      AnsweredWith a.status s t ∧ SameButFrames a.st t := by
  obtain ⟨f, r, t, hreset, hfront, hrop, rfl, rfl, hlook⟩ := h
  obtain ⟨l, rfl⟩ := lookWrite_value hlook
  refine ⟨f, r, l, rfl, rfl, fun t own act a ht hown hact hboot hcur => ?_⟩
  have hruns : ¬ (r.rop ≠ 2 ∨ own r.index r.sub = false) := by simp [hrop, hown]
  have hanswer : ∃ total, t = a.st.answer a.status a.detail total [] := by
    simp only [ht, State.serveWrite, hfront, if_neg hruns, hlook, hact]
    exact ⟨_, rfl⟩
  obtain ⟨total, rfl⟩ := hanswer
  have hreset : a.st.boot.resetAfter = false := by rw [hboot, hreset]
  exact ⟨⟨a.st, _, _, frontRec_congr hboot hcur, rfl⟩, sameButFrames_answer hreset _ _ _ _⟩

end Sys2Proof.Machine

/-! PROOFS. The commands of weight slots (R175, R177, R179, R182, R196, R198, R504): creation, writes, seals, erasure, the map of slots and the
fence of a flash channel. -/

namespace Sys2Proof.Machine

/-! ## One slot after a step over the slots -/

@[simp] theorem slot_modSlot_self (s : State) (i : Nat) (f : Slot → Slot) : (s.modSlot i f).slot i = f (s.slot i) := mget_mset_self ..

theorem slot_modSlot_ne (s : State) {i j : Nat} (f : Slot → Slot) (h : j ≠ i) : (s.modSlot i f).slot j = s.slot j := mget_mset_ne _ _ _ h

/-- A fold whose step changes the slot it names alone changes each slot of its list once. -/
theorem slot_foldl {f : State → Nat → State} {g : Nat → Slot → Slot} (hself : ∀ t i, (f t i).slot i = g i (t.slot i))
    (hne : ∀ t i j, j ≠ i → (f t i).slot j = t.slot j) {l : List Nat} (hl : l.Nodup) (s : State) (j : Nat) :
    (l.foldl f s).slot j = if j ∈ l then g j (s.slot j) else s.slot j := by
  induction l generalizing s with
  | nil => rfl
  | cons i l ih =>
    obtain ⟨hi, hl⟩ := List.nodup_cons.mp hl
    rw [List.foldl_cons, ih hl]
    by_cases hj : j = i
    · subst hj; simp [hi, hself]
    · simp [hj, hne]

/-! ## Commands that start (R424) -/

/-- The state in which a command has been entered that writes the value bs. -/
def State.started (s : State) (f : InFrame) (r : Req) (bs : List Byte) : State :=
  s.withPor (fun p => { p with
    nextTicket := p.nextTicket + 1
    cmds := p.cmds ++ [{ ticket := s.por.nextTicket, index := r.index, sub := r.sub, path := f.path, session := f.session, params := bs }] })

theorem accept_of_room {s : State} {f : InFrame} {r : Req} {bs : List Byte} {start : State → Word → State} (h : s.por.cmds.length < 16) :
    s.accept f r bs start = ⟨start (s.started f r bs) s.por.nextTicket, dsAccepted, 0, some s.por.nextTicket⟩ :=
  if_neg (Nat.not_le.mpr h)

/-- A command that is no SLOT_WRITE is none of a slot's writes. -/
theorem writesOf_started {s : State} {f : InFrame} {r : Req} (bs : List Byte) (h : r.index ≠ 0x0930 ∨ r.sub ≠ 2) (i : Nat) :
    (s.started f r bs).writesOf i = s.writesOf i := by
  have hnone : slotWriteOf { ticket := s.por.nextTicket, index := r.index, sub := r.sub, path := f.path, session := f.session, params := bs } = none :=
    if_neg fun ⟨hindex, hsub⟩ => h.elim (· hindex) (· hsub)
  simp [State.writesOf, State.started, State.withPor, List.filterMap_append, hnone]

/-! ## The slot commands (Table 7-11) -/

section
variable {s : State} {i : SlotId} {bs : List Byte}

theorem slot_in_range (h : par bs 0 1 = i.val) : ¬ 16 ≤ par bs 0 1 := by rw [h]; exact Nat.not_le.mpr i.isLt

/-- SLOT_CREATE where there is room on every channel of the mask (R177). -/
theorem slotCreate_creates (h : s.writes 0x0930 1 bs) (hi : par bs 0 1 = i.val) :
    let n := par bs 8 8
    let cs := (List.range 128).filter (fun c => (BitVec.ofNat 128 (par bs 16 16)).getLsbD c)
    (s.slot i).state = .free → n ≠ 0 → cs ≠ [] →
      (∀ c ∈ cs, (s.flashCh c).fence = 0 ∧ s.flashOff c = false ∧ s.reservedOn c + perChannel n cs.length ≤ channelCapacity) →
      ∃ t, exec .slotCreate s = .next t ∧ AnsweredWith dsOk s t ∧ (t.slot i).state = .writing ∧ (t.slot i).written = [] ∧
        (t.slot i).bytes = cs.length * ((n + cs.length * 16777216 - 1) / (cs.length * 16777216) * 16777216) ∧
        ∀ j, j ≠ i.val → t.slot j = s.slot j := by
  intro n cs hfree hn hcs hroom
  obtain ⟨f, r, l, -, -, hserve⟩ := served_of_writes h
  have hstate : ¬ (s.slot (par bs 0 1)).state ≠ .free := by rw [hi]; exact not_not.mpr hfree
  have hsize : ¬ (cs.isEmpty = true ∨ n = 0) := by simp [hcs, hn]
  have hfits : ¬ cs.any (fun c => decide ((s.flashCh c).fence ≠ 0) || s.flashOff c ||
      decide (channelCapacity < s.reservedOn c + perChannel n cs.length)) = true := by
    rw [Bool.not_eq_true, List.any_eq_false]
    intro c hc
    obtain ⟨hfence, hoff, hfree⟩ := hroom c hc
    simp [hfence, hoff, Nat.not_lt.mpr hfree]
  obtain ⟨hans, hsame⟩ := hserve s.slotCreate rfl rfl
    (a := ⟨(s.withSessions l).stamp.2.modSlot i (fun x => { x with
        state := .writing, bytes := perChannel n cs.length * cs.length, mask := BitVec.ofNat 128 (par bs 16 16)
        stream := ({} : Mem).forget 0 (perChannel n cs.length * cs.length) s.draws
        written := [], bad := [], degraded := false }), dsOk, 0, none⟩)
    ((if_neg (slot_in_range hi)).trans ((if_neg hstate).trans ((if_neg hsize).trans ((if_neg hfits).trans (by rw [hi]; rfl))))) rfl rfl
  refine ⟨_, rfl, hans, ?_, ?_, ?_, fun j hj => ?_⟩
  · rw [hsame.slot, slot_modSlot_self]
  · rw [hsame.slot, slot_modSlot_self]
  · rw [hsame.slot, slot_modSlot_self]; exact Nat.mul_comm _ _
  · rw [hsame.slot, slot_modSlot_ne _ _ hj]; rfl

theorem slotCreate_refused (h : s.writes 0x0930 1 bs) (hi : par bs 0 1 = i.val) (hstate : (s.slot i).state ≠ .free) :
    ∃ t, exec .slotCreate s = .next t ∧ AnsweredWith dsSlotState s t ∧ t.car = s.car := by
  obtain ⟨f, r, l, -, -, hserve⟩ := served_of_writes h
  have hstate : (s.slot (par bs 0 1)).state ≠ .free := by rwa [hi]
  obtain ⟨hans, hsame⟩ := hserve s.slotCreate rfl rfl ((if_neg (slot_in_range hi)).trans (if_pos hstate)) rfl rfl
  exact ⟨_, rfl, hans, hsame.car⟩

/-- SLOT_WRITE of an aligned range that meets no other, empty or from readable memory (R198). -/
theorem slotWrite_starts (h : s.writes 0x0930 2 bs) (hi : par bs 0 1 = i.val) (hsrc : par bs 1 1 = 0) :
    let off := par bs 8 8
    let n := par bs 24 8
    (s.slot i).state = .writing → (s.slot i).sealing = false → s.slotOff i = false → off % 2048 = 0 → n % 2048 = 0 →
      off + n ≤ (s.slot i).bytes → (s.slot i).written = [] → s.por.cmds = [] → (n ≠ 0 → s.inOnStacks (par bs 16 8) n = true) →
      ∃ t, exec .slotWrite s = .next t ∧ AnsweredWith dsAccepted s t ∧ t.car = s.car ∧
        t.por.cmds.map (fun c => (c.ticket, c.index, c.sub, c.params)) = [(s.por.nextTicket, 0x0930, 2, bs)] := by
  intro off n hstate hsealing hoff halign hsize hfits hwritten hcmds hmem
  obtain ⟨f, r, l, hindex, hsub, hserve⟩ := served_of_writes h
  have hparams : ¬ (16 ≤ par bs 0 1 ∨ 2 ≤ par bs 1 1 ∨ par bs 1 1 = 1 ∧ 8 ≤ par bs 2 1) := by
    have := slot_in_range hi
    omega
  have hopen : ¬ ((s.slot (par bs 0 1)).state ≠ .writing ∨ (s.slot (par bs 0 1)).sealing = true ∨ s.slotOff (par bs 0 1) = true) := by
    simp [hi, hstate, hsealing, hoff]
  have hwrites : s.writesOf (par bs 0 1) = [] := by simp [State.writesOf, hcmds]
  have hrange : ¬ (off % 2048 ≠ 0 ∨ n % 2048 ≠ 0 ∨ (s.slot (par bs 0 1)).bytes < off + n ∨
      (s.slot (par bs 0 1)).written.any (fun w => meets off n w.1 w.2) = true ∨
      (s.writesOf (par bs 0 1)).any (fun w => meets off n w.2.off w.2.len) = true ∨
      par bs 1 1 = 0 ∧ n ≠ 0 ∧ s.inOnStacks (par bs 16 8) n = false) := by
    rintro (hbad | hbad | hbad | hbad | hbad | ⟨-, hn, hbad⟩)
    · exact hbad halign
    · exact hbad hsize
    · rw [hi] at hbad; exact absurd hfits (Nat.not_le.mpr hbad)
    · rw [hi, hwritten] at hbad; cases hbad
    · rw [hwrites] at hbad; cases hbad
    · rw [hmem hn] at hbad; cases hbad
  have hroom : (s.withSessions l).por.cmds.length < 16 := by
    show s.por.cmds.length < 16
    simp [hcmds]
  obtain ⟨hans, hsame⟩ := hserve s.slotWrite rfl rfl
    ((if_neg hparams).trans ((if_neg hopen).trans ((if_neg hrange).trans (accept_of_room hroom)))) rfl rfl
  refine ⟨_, rfl, hans, hsame.car, ?_⟩
  rw [hsame.cmds]
  show (s.por.cmds ++ [_]).map _ = _
  simp [hcmds, hindex, hsub]
  rfl

theorem slotWrite_refused (h : s.writes 0x0930 2 bs) (hi : par bs 0 1 = i.val) (hsrc : par bs 1 1 = 0) (hstate : (s.slot i).state ≠ .writing) :
    ∃ t, exec .slotWrite s = .next t ∧ AnsweredWith dsSlotState s t ∧ t.car = s.car ∧ t.por.cmds = s.por.cmds := by
  obtain ⟨f, r, l, -, -, hserve⟩ := served_of_writes h
  have hparams : ¬ (16 ≤ par bs 0 1 ∨ 2 ≤ par bs 1 1 ∨ par bs 1 1 = 1 ∧ 8 ≤ par bs 2 1) := by
    have := slot_in_range hi
    omega
  have hclosed : (s.slot (par bs 0 1)).state ≠ .writing ∨ (s.slot (par bs 0 1)).sealing = true ∨ s.slotOff (par bs 0 1) = true :=
    .inl (by rwa [hi])
  obtain ⟨hans, hsame⟩ := hserve s.slotWrite rfl rfl ((if_neg hparams).trans (if_pos hclosed)) rfl rfl
  exact ⟨_, rfl, hans, hsame.car, hsame.cmds⟩

theorem slotSeal_starts (h : s.writes 0x0930 3 bs) (hlen : bs.length = 2) (hi : par bs 0 1 = i.val) (hverify : par bs 1 1 < 2)
    (hstate : (s.slot i).state = .writing) (hsealing : (s.slot i).sealing = false) (hoff : s.slotOff i = false) (hroom : s.por.cmds.length < 16) :
    ∃ t, exec .slotSeal s = .next t ∧ AnsweredWith dsAccepted s t ∧ t.slot i = { s.slot i with sealing := true } ∧
      ∀ j, j ≠ i.val → t.slot j = s.slot j := by
  obtain ⟨f, r, l, -, -, hserve⟩ := served_of_writes h
  have hparams : ¬ (16 ≤ par bs 0 1 ∨ 2 ≤ par bs 1 1) := not_or.mpr ⟨slot_in_range hi, Nat.not_le.mpr hverify⟩
  have hopen : ¬ ((s.slot (par bs 0 1)).state ≠ .writing ∨ (s.slot (par bs 0 1)).sealing = true ∨ s.slotOff (par bs 0 1) = true) := by
    simp [hi, hstate, hsealing, hoff]
  have hroom : (s.withSessions l).por.cmds.length < 16 := hroom
  obtain ⟨hans, hsame⟩ := hserve s.slotSeal rfl rfl
    ((if_neg (not_not.mpr hlen)).trans ((if_neg hparams).trans ((if_neg hopen).trans (accept_of_room hroom)))) rfl rfl
  refine ⟨_, rfl, hans, ?_, fun j hj => ?_⟩
  · rw [hsame.slot, hi, slot_modSlot_self]; rfl
  · rw [hsame.slot, hi, slot_modSlot_ne _ _ hj]; rfl

theorem slotSeal_refused (h : s.writes 0x0930 3 bs) (hlen : bs.length = 2) (hi : par bs 0 1 = i.val) (hverify : par bs 1 1 < 2)
    (hstate : (s.slot i).state ≠ .writing) : ∃ t, exec .slotSeal s = .next t ∧ AnsweredWith dsSlotState s t ∧ t.car = s.car := by
  obtain ⟨f, r, l, -, -, hserve⟩ := served_of_writes h
  have hparams : ¬ (16 ≤ par bs 0 1 ∨ 2 ≤ par bs 1 1) := not_or.mpr ⟨slot_in_range hi, Nat.not_le.mpr hverify⟩
  have hclosed : (s.slot (par bs 0 1)).state ≠ .writing ∨ (s.slot (par bs 0 1)).sealing = true ∨ s.slotOff (par bs 0 1) = true :=
    .inl (by rwa [hi])
  obtain ⟨hans, hsame⟩ := hserve s.slotSeal rfl rfl ((if_neg (not_not.mpr hlen)).trans ((if_neg hparams).trans (if_pos hclosed))) rfl rfl
  exact ⟨_, rfl, hans, hsame.car⟩

/-- SLOT_ERASE of a SEALED slot that nothing refers to and that no write runs on (R179, R197). -/
theorem slotErase_starts (h : s.writes 0x0930 5 bs) (hi : leNat bs = i.val) (hsealing : (s.slot i).sealing = false) (hoff : s.slotOff i = false)
    (hstate : (s.slot i).state = .sealed) (hrefs : (s.slot i).refs = 0) (hwrites : s.writesOf i = []) (hroom : s.por.cmds.length < 16) :
    ∃ t, exec .slotErase s = .next t ∧ AnsweredWith dsAccepted s t ∧ (t.slot i).state = .erasing ∧ (t.slot i).window = 0 ∧
      ∀ j, j ≠ i.val → t.slot j = s.slot j := by
  obtain ⟨f, r, l, -, hsub, hserve⟩ := served_of_writes h
  have h16 : ¬ 16 ≤ leNat bs := by rw [hi]; exact Nat.not_le.mpr i.isLt
  have hopen : ¬ ((s.slot (leNat bs)).state ≠ .writing ∧ (s.slot (leNat bs)).state ≠ .sealed ∨ (s.slot (leNat bs)).sealing = true ∨
      s.slotOff (leNat bs) = true) := by
    simp [hi, hstate, hsealing, hoff]
  have hroom : (s.withSessions l).por.cmds.length < 16 := hroom
  have hfree : ¬ (s.slot (leNat bs)).refs ≠ 0 := by rw [hi]; exact not_not.mpr hrefs
  have hnone : ((s.withSessions l).started f r bs).writesOf (leNat bs) = [] := by
    rw [writesOf_started bs (.inr (by rw [hsub]; decide)), hi]
    exact hwrites
  obtain ⟨hans, hsame⟩ := hserve s.slotErase rfl rfl
    (a := ⟨((s.withSessions l).started f r bs).modSlot (leNat bs) (fun x => { x.dropWindow with state := .erasing, window := 0 }), dsAccepted, 0,
      some s.por.nextTicket⟩)
    ((if_neg h16).trans ((if_neg hopen).trans ((if_neg hfree).trans ((accept_of_room hroom).trans (by simp only [hnone]; rfl))))) rfl rfl
  refine ⟨_, rfl, hans, ?_, ?_, fun j hj => ?_⟩
  · rw [hsame.slot, hi, slot_modSlot_self]
  · rw [hsame.slot, hi, slot_modSlot_self]
  · rw [hsame.slot, hi, slot_modSlot_ne _ _ hj]; rfl

theorem slotErase_refused (h : s.writes 0x0930 5 bs) (hi : leNat bs = i.val) (hsealing : (s.slot i).sealing = false) (hoff : s.slotOff i = false)
    (hstate : (s.slot i).state = .sealed) (hrefs : (s.slot i).refs ≠ 0) :
    ∃ t, exec .slotErase s = .next t ∧ AnsweredWith dsSlotBusy s t ∧ t.car = s.car := by
  obtain ⟨f, r, l, -, -, hserve⟩ := served_of_writes h
  have h16 : ¬ 16 ≤ leNat bs := by rw [hi]; exact Nat.not_le.mpr i.isLt
  have hopen : ¬ ((s.slot (leNat bs)).state ≠ .writing ∧ (s.slot (leNat bs)).state ≠ .sealed ∨ (s.slot (leNat bs)).sealing = true ∨
      s.slotOff (leNat bs) = true) := by
    simp [hi, hstate, hsealing, hoff]
  have hbusy : (s.slot (leNat bs)).refs ≠ 0 := by rwa [hi]
  obtain ⟨hans, hsame⟩ := hserve s.slotErase rfl rfl ((if_neg h16).trans ((if_neg hopen).trans (if_pos hbusy))) rfl rfl
  exact ⟨_, rfl, hans, hsame.car⟩

end

/-! ## The map of slots (R196) -/

/-- What R196 asks of two SEALED slots: the same blocks, objects and tables, and the same window fields. -/
def State.sameLayout (s : State) (i j : Nat) : Prop :=
  (s.slot i).blockCount = (s.slot j).blockCount ∧ (s.slot i).objectCount = (s.slot j).objectCount ∧
  (s.slot i).tables = (s.slot j).tables ∧ ∀ u ∈ [7, 8, 9], s.dv (0x0910 + i) u = s.dv (0x0910 + j) u

/-- The checks of R196 between two SEALED slots. -/
theorem switchCheck_of_sealed {s : State} {n i : Nat} (hi : (s.slot i).state = .sealed) (hne : i ≠ s.dv 0x0920 (n + 1))
    (hcur : (s.slot (s.dv 0x0920 (n + 1))).state = .sealed) :
    (s.sameLayout i (s.dv 0x0920 (n + 1)) → s.switchCheck n i = none) ∧
    (¬ s.sameLayout i (s.dv 0x0920 (n + 1)) → s.switchCheck n i = some dsLayout) := by
  have hboth : ¬ (i = s.dv 0x0920 (n + 1) ∨ (s.slot (s.dv 0x0920 (n + 1))).state ≠ .sealed) := by simp [hne, hcur]
  refine ⟨fun hsame => ?_, fun hdiff => ?_⟩ <;>
    refine (if_neg (not_not.mpr hi)).trans ((if_neg hboth).trans ?_)
  · obtain ⟨hblocks, hobjs, htables, hwin⟩ := hsame
    simp [hblocks, hobjs, htables, hwin]
  · refine if_pos ?_
    by_contra hall
    simp only [not_or, not_not] at hall
    obtain ⟨hblocks, hobjs, htables, h7, h8, h9⟩ := hall
    exact hdiff ⟨hblocks, hobjs, htables, by simp [h7, h8, h9]⟩

/-- SLOT_SWITCH and a write of SLOT_MAP that name number n and slot i answer with the status and leave the number at slot v. -/
def State.switches (s : State) (n i : SlotId) (bs : List Byte) (status v : Nat) : Prop :=
  (s.writes 0x0930 4 bs → bs.length = 2 → par bs 0 1 = n.val → par bs 1 1 = i.val → ∃ t, exec .slotSwitch s = .next t ∧
    AnsweredWith status s t ∧ t.dv 0x0920 (n.val + 1) = v ∧ t.car = s.car) ∧
  (s.writes 0x0920 (n.val + 1) bs → leNat bs = i.val → ∃ t, exec .slotMapWrite s = .next t ∧
    AnsweredWith status s t ∧ t.dv 0x0920 (n.val + 1) = v ∧ t.car = s.car)

/-- Both commands are the one switch of the number. -/
theorem switches_of_switchTo {s : State} {n i : SlotId} {status v : Nat}
    (h : ∀ l, ∃ u, (s.withSessions l).switchTo n i = ⟨u, status, 0, none⟩ ∧ u.boot = s.boot ∧ u.por.current = s.por.current ∧
      u.dv 0x0920 (n.val + 1) = v ∧ u.car = s.car) (bs : List Byte) : s.switches n i bs status v := by
  refine ⟨fun hw hlen hn hi => ?_, fun hw hi => ?_⟩ <;> obtain ⟨f, r, l, -, hsub, hserve⟩ := served_of_writes hw <;>
    obtain ⟨u, hto, hboot, hcur, hdv, hcar⟩ := h l
  · have hparams : ¬ (16 ≤ par bs 0 1 ∨ 16 ≤ par bs 1 1) := by omega
    obtain ⟨hans, hsame⟩ := hserve s.slotSwitch rfl rfl (a := ⟨u, status, 0, none⟩)
      ((if_neg (not_not.mpr hlen)).trans ((if_neg hparams).trans (by rw [hn, hi]; exact hto))) hboot hcur
    exact ⟨_, rfl, hans, (hsame.dv _ _).trans hdv, hsame.car.trans hcar⟩
  · obtain ⟨hans, hsame⟩ := hserve s.slotMapWrite rfl (by simp) (a := ⟨u, status, 0, none⟩) (by rw [hsub, hi]; exact hto) hboot hcur
    exact ⟨_, rfl, hans, (hsame.dv _ _).trans hdv, hsame.car.trans hcar⟩

theorem switches_of_allowed {s : State} {n i : SlotId} (h : s.switchCheck n i = none) (bs : List Byte) : s.switches n i bs dsOk i :=
  switches_of_switchTo (fun l => by
    have hto : (s.withSessions l).switchTo n i = ⟨(s.withSessions l).setDv 0x0920 (n + 1) i, dsOk, 0, none⟩ := by
      have h : (s.withSessions l).switchCheck n i = none := h
      simp only [State.switchTo, h]
    exact ⟨_, hto, rfl, rfl, dv_setDv_self .., rfl⟩) bs

theorem switches_of_refused {s : State} {n i : SlotId} {e : Nat} (h : s.switchCheck n i = some e) (bs : List Byte) :
    s.switches n i bs e (s.dv 0x0920 (n.val + 1)) :=
  switches_of_switchTo (fun l => by
    have hto : (s.withSessions l).switchTo n i = ⟨s.withSessions l, e, 0, none⟩ := by
      have h : (s.withSessions l).switchCheck n i = some e := h
      simp only [State.switchTo, h]
    exact ⟨_, hto, rfl, rfl, rfl, rfl⟩) bs

/-! ## FLASH_FENCE (R175, R180) -/

theorem noteTier_keeps (s : State) (before : Nat) : (s.noteTier before).car = s.car ∧ (s.noteTier before).boot = s.boot ∧
    (s.noteTier before).por.current = s.por.current := by
  unfold State.noteTier
  split <;> exact ⟨rfl, rfl, rfl⟩

/-- Fencing a flash channel writes its state, marks the SEALED slots on it, and notes it in the log. -/
theorem fenceFlash_spec (s : State) (ch code : Nat) :
    (s.fenceFlash ch code).boot = s.boot ∧ (s.fenceFlash ch code).por.current = s.por.current ∧
    (∀ c, (s.fenceFlash ch code).flashCh c = if c = ch then { s.flashCh ch with fence := code } else s.flashCh c) ∧
    ∀ i, i < 16 → (s.slot i).state = .sealed → (s.slot i).mask.getLsbD ch = true → ((s.fenceFlash ch code).slot i).degraded = true := by
  unfold State.fenceFlash
  extract_lets before u hit v
  obtain ⟨hcar, hboot, hcur⟩ := noteTier_keeps (v.logEvent 0 0 (0x20 + ch / 16) (BitVec.ofNat 128 ch)) before
  have hv : v.boot = u.boot ∧ v.por = u.por ∧ v.car.channels = u.car.channels :=
    List.foldlRecOn (motive := fun t : State => t.boot = u.boot ∧ t.por = u.por ∧ t.car.channels = u.car.channels) _ _ ⟨rfl, rfl, rfl⟩
      fun t ht i _ => by
        split <;> exact ht
  have hslot (i : Nat) : v.slot i = if i ∈ List.range 16 then (if hit i then { u.slot i with degraded := true } else u.slot i) else u.slot i :=
    slot_foldl (g := fun i x => if hit i then { x with degraded := true } else x)
      (fun t i => by split <;> simp only [slot_modSlot_self])
      (fun t i j hj => by split <;> simp only [slot_modSlot_ne _ _ hj]) List.nodup_range u i
  refine ⟨hboot.trans hv.1, hcur.trans (show v.por.current = s.por.current by rw [hv.2.1]; rfl), fun c => ?_, fun i hi hstate hmask => ?_⟩
  · rw [State.flashCh, hcar]
    show mget {} v.car.channels c = _
    rw [hv.2.2]
    exact flashCh_modFlashCh s ch c _
  · have hhit : hit i = true := by
      show (decide ((s.slot i).state = .sealed) && (s.slot i).mask.getLsbD ch) = true
      simp [hstate, hmask]
    rw [State.slot, hcar]
    show (v.slot i).degraded = true
    rw [hslot, if_pos (List.mem_range.mpr hi), if_pos hhit]

theorem flashFence_fences {s : State} {ch : ChannelId} {bs : List Byte} (h : s.writes 0x0930 6 bs) (hch : leNat bs = ch.val)
    (hfence : (s.flashCh ch).fence = 0) : ∃ t, exec .flashFence s = .next t ∧ AnsweredWith dsOk s t ∧
      t.flashCh ch = { s.flashCh ch with fence := 3 } ∧
      (∀ i, i < 16 → (s.slot i).state = .sealed → (s.slot i).mask.getLsbD ch = true → (t.slot i).degraded = true) ∧
      ∀ c, c ≠ ch.val → t.flashCh c = s.flashCh c := by
  obtain ⟨f, r, l, -, -, hserve⟩ := served_of_writes h
  have h128 : ¬ 128 ≤ leNat bs := by rw [hch]; exact Nat.not_le.mpr ch.isLt
  have hopen : ¬ (s.flashCh (leNat bs)).fence ≠ 0 := by rw [hch]; exact not_not.mpr hfence
  obtain ⟨hboot, hcur, hflash, hslot⟩ := fenceFlash_spec (s.withSessions l) (leNat bs) 3
  obtain ⟨hans, hsame⟩ := hserve s.flashFence rfl rfl ((if_neg h128).trans (if_neg hopen)) hboot hcur
  rw [hch] at hflash hslot
  refine ⟨_, rfl, hans, ?_, fun i hi hstate hmask => ?_, fun c hc => ?_⟩
  · rw [hsame.flashCh, hch, hflash, if_pos rfl]; rfl
  · rw [hsame.slot, hch]; exact hslot i hi hstate hmask
  · rw [hsame.flashCh, hch, hflash, if_neg hc]; rfl

/-- Settles O38: each command by the lemma of its case; the switches by what the checks of R196 come to. -/
theorem weightSlotCommands : Obligations.WeightSlotCommands := by
  unfold Obligations.WeightSlotCommands
  refine ⟨fun i bs s h hi => ⟨slotCreate_creates h hi, slotCreate_refused h hi⟩,
    fun i bs s h hi hsrc => ⟨slotWrite_starts h hi hsrc, slotWrite_refused h hi hsrc⟩,
    fun i bs s h hlen hi hverify => ⟨slotSeal_starts h hlen hi hverify, slotSeal_refused h hlen hi hverify⟩,
    fun i bs s h hi hsealing hoff hstate => ⟨slotErase_starts h hi hsealing hoff hstate, slotErase_refused h hi hsealing hoff hstate⟩,
    ?_, fun ch bs s => flashFence_fences⟩
  intro n i bs s cur same maps
  refine ⟨fun hi hcases => switches_of_allowed ?_ bs, fun hi hne hcur hdiff => switches_of_refused ?_ bs,
    fun hi => switches_of_refused (if_pos hi) bs⟩
  · by_cases hfree : i.val = cur ∨ (s.slot cur).state ≠ .sealed
    · exact (if_neg (not_not.mpr hi)).trans (if_pos hfree)
    · obtain ⟨hne, hcur⟩ := not_or.mp hfree
      have hsame : same := (hcases.resolve_left (Ne.symm hne)).resolve_left hcur
      exact (switchCheck_of_sealed hi hne (not_not.mp hcur)).1 hsame
  · exact (switchCheck_of_sealed hi (Ne.symm hne) hcur).2 hdiff

end Sys2Proof.Machine

/-! PROOFS. The adapter table (R193, R194): its entries as they read after the hub's reads and writes, ADAPTER_LOAD and ADAPTER_UNLOAD. -/

namespace Sys2Proof.Machine

/-! ## Reads and writes after which the stacks still answer -/

/-- A step of the hub's reads and writes: beside stacked memory and the bandwidth counts nothing differs, no stack has been fenced, none
needs more repeats, and no granule has been poisoned. -/
structure KeepsServing (s t : State) : Prop where
  only : OnlyMemory s t
  por : ∃ m, t.por = { s.por with bwCounts := m }
  fence : ∀ m, (t.stack m).fence = (s.stack m).fence
  parity : ∀ m, mget 0 t.ms.parity m ≤ mget 0 s.ms.parity m
  poison : t.ms.poison ⊆ s.ms.poison

theorem KeepsServing.refl (s : State) : KeepsServing s s :=
  ⟨OnlyMemory.refl s, ⟨_, rfl⟩, fun _ => rfl, fun _ => Nat.le_refl _, List.Subset.refl _⟩

theorem KeepsServing.trans {s t u : State} (h : KeepsServing s t) (h' : KeepsServing t u) : KeepsServing s u := by
  obtain ⟨m, hm⟩ := h.por
  obtain ⟨k, hk⟩ := h'.por
  exact ⟨h.only.trans h'.only, ⟨k, by rw [hk, hm]⟩, fun n => (h'.fence n).trans (h.fence n), fun n => (h'.parity n).trans (h.parity n),
    List.Subset.trans h'.poison h.poison⟩

theorem keepsServing_foldl {α : Type} {f : State → α → State} (h : ∀ s a, KeepsServing s (f s a)) (l : List α) (s : State) :
    KeepsServing s (l.foldl f s) :=
  l.foldlRecOn f (KeepsServing.refl s) fun t ht a _ => ht.trans (h t a)

/-- Changes of stacked memory that leave its stacks and their repeats, and add no poison. -/
theorem keepsServing_withMs (s : State) {f : MemSys → MemSys} (hpoison : (f s.ms).poison ⊆ s.ms.poison)
    (hstack : (f s.ms).stackRecs = s.ms.stackRecs := by rfl) (hparity : (f s.ms).parity = s.ms.parity := by rfl) : KeepsServing s (s.withMs f) :=
  ⟨OnlyMemory.refl s, ⟨_, rfl⟩, fun m => congrArg (fun r => (mget {} r m).fence) hstack,
    fun m => Nat.le_of_eq (congrArg (fun r => mget 0 r m) hparity), hpoison⟩

theorem keepsServing_emit (s : State) (m : OutMsg) : KeepsServing s (s.emit m) :=
  ⟨OnlyMemory.refl s, ⟨_, rfl⟩, fun _ => rfl, fun _ => Nat.le_refl _, List.Subset.refl _⟩

theorem keepsServing_bumpBw (s : State) (i n : Nat) : KeepsServing s (s.bumpBw i n) :=
  ⟨OnlyMemory.refl s, ⟨_, rfl⟩, fun _ => rfl, fun _ => Nat.le_refl _, List.Subset.refl _⟩

theorem keepsServing_modStack (s : State) (m : Nat) {f : Stack → Stack} (h : ∀ x, (f x).fence = x.fence) : KeepsServing s (s.modStack m f) :=
  ⟨OnlyMemory.refl s, ⟨_, rfl⟩, fun n => by
    rw [stack_modStack]
    split
    next hn => rw [h, hn]
    next => rfl, fun _ => Nat.le_refl _, List.Subset.refl _⟩

theorem keepsServing_useParity (s : State) (m : Nat) : KeepsServing s (s.useParity m) := by
  unfold State.useParity
  dsimp only
  split
  · exact KeepsServing.refl s
  · have hmade : KeepsServing s (s.withMs fun x => { x with parity := mset x.parity m 0 }) :=
      ⟨OnlyMemory.refl s, ⟨_, rfl⟩, fun _ => rfl, fun n => by
        show mget 0 (mset s.ms.parity m 0) n ≤ _
        rw [mget_mset]
        split
        · exact Nat.zero_le _
        · exact Nat.le_refl _, List.Subset.refl _⟩
    refine hmade.trans (keepsServing_modStack _ m ?_)
    exact fun _ => rfl

theorem keepsServing_countFlips (s : State) (a n : Nat) : KeepsServing s (s.countFlips a n) :=
  keepsServing_foldl (fun t _ => keepsServing_modStack t _ (f := fun x => { x with ce := x.ce + 1 }) fun _ => rfl) _ s

theorem keepsServing_readDone (s : State) (a n : Nat) : KeepsServing s (s.readDone a n) := by
  have hsnoop : KeepsServing s (s.snoopData a n) := by
    unfold State.snoopData
    dsimp only
    refine (keepsServing_foldl ?_ _ s).trans (keepsServing_withMs _ (List.Subset.refl _))
    exact fun t l => keepsServing_emit t _
  exact ((hsnoop.trans (keepsServing_countFlips _ a n)).trans (keepsServing_foldl keepsServing_useParity _ _)).trans
    (keepsServing_foldl (fun t _ => keepsServing_bumpBw t _ _) _ _)

theorem keepsServing_memPut (s : State) (a : Nat) (bs : List Byte) : KeepsServing s (s.memPut a bs) := by
  have hfresh : KeepsServing s (s.fresh a bs.length) := keepsServing_withMs s (List.filter_subset_self _)
  have hmerge : KeepsServing s ((s.fresh a bs.length).mergeFlips a bs.length) :=
    (hfresh.trans (keepsServing_countFlips _ a bs.length)).trans (keepsServing_withMs _ (List.Subset.refl _))
  exact (hmerge.trans (keepsServing_withMs _ (f := fun x => { x with mem := x.mem.writeBytes a bs }) (List.Subset.refl _))).trans
    (keepsServing_foldl (fun t _ => keepsServing_bumpBw t _ _) _ _)

theorem keepsServing_memWriteOwn {s t : State} {a : Nat} {bs : List Byte} (h : s.memWriteOwn a bs = .ok t) : KeepsServing s t := by
  unfold State.memWriteOwn at h
  split at h
  · cases h
  split at h
  · cases h
  injection h with h
  subst h
  have hsnoop : KeepsServing s (s.snoopInv a bs.length) := by
    unfold State.snoopInv
    dsimp only
    refine (keepsServing_foldl ?_ _ s).trans (keepsServing_withMs _ (List.Subset.refl _))
    exact fun t l => keepsServing_emit t _
  exact (hsnoop.trans (keepsServing_memPut _ a bs)).trans (keepsServing_foldl keepsServing_useParity _ _)

/-! ## Ranges that can be read (R147, R149, R157, R160) -/

theorem rangeErr_eq_none_iff {s : State} {a n : Nat} : s.rangeErr a n = none ↔
    a + n ≤ stackTop ∧ ∀ m ∈ stacksOf a n, s.stackOff m = false ∧ s.stackFails m = false := by
  unfold State.rangeErr
  by_cases htop : stackTop < a + n
  · simp [htop]
  by_cases hoff : (stacksOf a n).any s.stackOff = true
  · obtain ⟨m, hm, hoff⟩ := List.any_eq_true.mp hoff
    simp only [if_neg htop, if_pos (List.any_eq_true.mpr ⟨m, hm, hoff⟩), reduceCtorEq, false_iff, not_and, not_forall]
    exact fun _ => ⟨m, hm, by simp [hoff]⟩
  · rw [if_neg htop, if_neg hoff]
    simp only [List.any_eq_true, not_exists, not_and, Bool.not_eq_true] at hoff
    cases hfind : (stacksOf a n).find? s.stackFails with
    | some m =>
      simp only [reduceCtorEq, false_iff, not_and, not_forall]
      exact fun _ => ⟨m, List.mem_of_find?_eq_some hfind, by simp [List.find?_some hfind]⟩
    | none =>
      rw [List.find?_eq_none] at hfind
      exact ⟨fun _ => ⟨Nat.not_lt.mp htop, fun m hm => ⟨hoff m hm, Bool.not_eq_true _ ▸ hfind m hm⟩⟩, fun _ => rfl⟩

/-- Every byte of a range can be read. -/
def State.clear (s : State) (a n : Nat) : Prop := s.rangeErr a n = none ∧ s.poisonIn a n = none

theorem KeepsServing.vals {s t : State} (h : KeepsServing s t) : t.por.vals = s.por.vals := by
  obtain ⟨m, hm⟩ := h.por
  rw [hm]

theorem KeepsServing.current {s t : State} (h : KeepsServing s t) : t.por.current = s.por.current := by
  obtain ⟨m, hm⟩ := h.por
  rw [hm]

theorem KeepsServing.dv {s t : State} (h : KeepsServing s t) (i u : Nat) : t.dv i u = s.dv i u := by rw [State.dv, h.vals]; rfl

theorem KeepsServing.car {s t : State} (h : KeepsServing s t) : t.car = s.car := by
  obtain ⟨-, -, hcar, -⟩ := h.only
  exact hcar

theorem KeepsServing.boot {s t : State} (h : KeepsServing s t) : t.boot = s.boot := by
  obtain ⟨-, -, -, -, -, -, -, hboot, -⟩ := h.only
  exact hboot

theorem KeepsServing.clear {s t : State} (h : KeepsServing s t) {a n : Nat} (hc : s.clear a n) : t.clear a n := by
  obtain ⟨-, -, -, -, -, hpwr, -⟩ := h.only
  obtain ⟨herr, hpoison⟩ := hc
  refine ⟨?_, ?_⟩
  · rw [rangeErr_eq_none_iff] at herr ⊢
    refine herr.imp_right fun hall m hm => ?_
    obtain ⟨hoff, hfails⟩ := hall m hm
    have hlimit : t.retryLimit = s.retryLimit := h.dv _ _
    refine ⟨by rw [← hoff]; unfold State.stackOff State.block State.hubOf; rw [hpwr, h.boot], ?_⟩
    simp only [State.stackFails, Bool.or_eq_false_iff, decide_eq_false_iff_not, Nat.not_lt] at hfails ⊢
    obtain ⟨hfence, hparity⟩ := hfails
    exact ⟨by rw [h.fence]; exact hfence, hlimit ▸ (h.parity m).trans hparity⟩
  · rw [State.poisonIn, List.find?_eq_none] at hpoison ⊢
    exact fun g hg => hpoison g (h.poison hg)

section
variable {s : State} {a n : Nat} (hc : s.clear a n)
include hc

theorem memRead_of_clear : s.memRead a n = .ok (s.ms.mem.readBytes a n) := by
  obtain ⟨herr, hpoison⟩ := hc
  simp only [State.memRead, herr, hpoison]

theorem hubRead_of_clear : s.hubRead a n = leNat (s.ms.mem.readBytes a n) := by simp only [State.hubRead, memRead_of_clear hc]

theorem hubGot_of_clear : s.hubGot (a, n) = s.readDone a n := by simp only [State.hubGot, memRead_of_clear hc]

/-- A write of the hub's tables where every byte can be read stores its bytes. -/
theorem memWriteHub_of_clear {bs : List Byte} (hlen : bs.length = n) :
    KeepsServing s (s.memWriteHub a bs) ∧ (s.memWriteHub a bs).ms.mem = s.ms.mem.writeBytes a bs := by
  subst hlen
  obtain ⟨herr, hpoison⟩ := hc
  have hpart : s.poisonPart a bs.length = none := by
    rw [State.poisonIn, List.find?_eq_none] at hpoison
    rw [State.poisonPart, List.find?_eq_none]
    exact fun g hg => by simp [hpoison g hg]
  have hok : s.memWriteOwn a bs = .ok ((stacksOf a bs.length).foldl State.useParity ((s.snoopInv a bs.length).memPut a bs)) := by
    simp only [State.memWriteOwn, herr, hpart]
  have hput : s.memWriteHub a bs = (stacksOf a bs.length).foldl State.useParity ((s.snoopInv a bs.length).memPut a bs) := by
    simp only [State.memWriteHub, hok]
  rw [hput]
  exact ⟨keepsServing_memWriteOwn hok, (memWriteOwn_ok hok).2⟩

end

/-! ## Entries of the adapter table (R193) -/

theorem leNat_lt (bs : List Byte) : leNat bs < 256 ^ bs.length := by
  induction bs with
  | nil => decide
  | cons b bs ih =>
    have hb : b.toNat < 256 := b.isLt
    rw [leNat, List.length_cons, Nat.pow_succ]
    omega

theorem adState_eq_mod (r : Nat) : adState r = r % 4 := by simp [adState, bits]

theorem adapterAddr_congr {s t : State} (h : ∀ i u, t.dv i u = s.dv i u) (i : Nat) : t.adapterAddr i = s.adapterAddr i := by
  simp only [State.adapterAddr, h]

/-- An entry reads as the hub has written it. -/
theorem adapterRec_memWriteHub {s : State} {i : Nat} (hc : s.clear (s.adapterAddr i) 64) (v : Nat) :
    (s.memWriteHub (s.adapterAddr i) (leBytes 64 v)).adapterRec i = v % 256 ^ 64 := by
  obtain ⟨hkeeps, hmem⟩ := memWriteHub_of_clear hc (leBytes_length 64 v)
  have haddr := adapterAddr_congr hkeeps.dv i
  show State.hubRead _ (State.adapterAddr _ i) 64 = _
  rw [haddr, hubRead_of_clear (hkeeps.clear hc), hmem]
  exact Mem.readLE_writeLE s.ms.mem (s.adapterAddr i) 64 v

theorem KeepsServing.meetsWeight {s t : State} (h : KeepsServing s t) (a n : Nat) : t.meetsWeight a n = s.meetsWeight a n := by
  have hslot : t.slot = s.slot := funext fun i => by rw [State.slot, h.car]; rfl
  have hdv : t.dv = s.dv := funext fun i => funext fun u => h.dv i u
  unfold State.meetsWeight State.weightRanges State.winLen State.winBase State.slotOnDemand State.winFrames
  rw [hslot, hdv]

theorem SameButFrames.adapterRec {s t : State} (h : SameButFrames s t) (i : Nat) : t.adapterRec i = s.adapterRec i :=
  (congrArg (fun x => x.adapterRec i) h :)

theorem SameButFrames.adapterRefs {s t : State} (h : SameButFrames s t) (i : Nat) : t.adapterRefs i = s.adapterRefs i := by
  rw [State.adapterRefs, h.car]; rfl

theorem adapterRec_setAdapterRefs (s : State) (i n j : Nat) : (s.setAdapterRefs i n).adapterRec j = s.adapterRec j := rfl

theorem adapterRefs_setAdapterRefs_self (s : State) (i n : Nat) : (s.setAdapterRefs i n).adapterRefs i = n := mget_mset_self ..

/-- An entry that says anything has been read. -/
theorem memRead_of_adState {s : State} {i : Nat} (h : adState (s.adapterRec i) ≠ 0) :
    ∃ bs, s.memRead (s.adapterAddr i) 64 = .ok bs := by
  cases hread : s.memRead (s.adapterAddr i) 64 with
  | ok bs => exact ⟨bs, rfl⟩
  | error e =>
    have hzero : s.adapterRec i = 0 := by
      show s.hubRead (s.adapterAddr i) 64 = 0
      simp only [State.hubRead, hread]
    rw [hzero] at h
    exact absurd rfl h

/-- Changing STATE and FLAGS of an entry that can be read and written. -/
theorem setAdapterBits_spec {s : State} {i : Nat} (hc : s.clear (s.adapterAddr i) 64) (v : Nat) :
    KeepsServing s (s.setAdapterBits i v) ∧ adState ((s.setAdapterBits i v).adapterRec i) = v % 4 := by
  let u := s.readDone (s.adapterAddr i) 64
  let w := putBits (leNat (s.ms.mem.readBytes (s.adapterAddr i) 64)) 3 0 v
  have hu : KeepsServing s u := keepsServing_readDone s _ _
  have haddr : u.adapterAddr i = s.adapterAddr i := adapterAddr_congr hu.dv i
  have hset : s.setAdapterBits i v = u.memWriteHub (u.adapterAddr i) (leBytes 64 w) := by
    rw [haddr]
    simp only [State.setAdapterBits, memRead_of_clear hc]
    rfl
  have hclear : u.clear (u.adapterAddr i) 64 := haddr ▸ hu.clear hc
  rw [hset]
  refine ⟨hu.trans (memWriteHub_of_clear hclear (leBytes_length 64 w)).1, ?_⟩
  rw [adapterRec_memWriteHub hclear, adState_eq_mod, Nat.mod_mod_of_dvd w (by decide)]
  simp only [w, putBits, bits]
  omega

/-- The STATE and FLAGS of a well-formed entry are zero. -/
theorem low_bits_of_adapterOk {v : Nat} (h : adapterOk v = true) : v % 16 = 0 := by
  simp only [adapterOk, bits, Bool.and_eq_true, decide_eq_true_eq] at h
  obtain ⟨⟨⟨⟨⟨hlow, -⟩, -⟩, -⟩, -⟩, -⟩ := h
  simpa using hlow

/-- So its STATE can be set without a carry out of the 64 bytes. -/
theorem adapterClean_succ_lt {bs : List Byte} (h : adapterOk (adapterClean (par bs 2 64)) = true) :
    adapterClean (par bs 2 64) + 1 < 256 ^ 64 := by
  have hpar : par bs 2 64 < 256 ^ 64 :=
    (leNat_lt _).trans_le (Nat.pow_le_pow_right (by decide) (List.length_take_le 64 _))
  have hclean : adapterClean (par bs 2 64) ≤ par bs 2 64 := by simp only [adapterClean, putBits]; omega
  have hlow := low_bits_of_adapterOk h
  generalize adapterClean (par bs 2 64) = v at *
  omega

/-! ## ADAPTER_LOAD and ADAPTER_UNLOAD (R194) -/

section
variable {s : State} {bs : List Byte}

theorem adapterLoad_outOfRange (h : s.writes 0x0A00 2 bs)
    (hbad : 4096 ≤ par bs 0 2 ∨ adapterOk (adapterClean (par bs 2 64)) = false) :
    ∃ t, exec .adapterLoad s = .next t ∧ AnsweredWith dsOutOfRange s t ∧ t.ms = s.ms ∧ t.car = s.car := by
  obtain ⟨f, r, l, -, -, hserve⟩ := served_of_writes h
  obtain ⟨hans, hsame⟩ := hserve s.adapterLoad rfl rfl (if_pos hbad) rfl rfl
  exact ⟨_, rfl, hans, hsame.ms, hsame.car⟩

theorem adapterLoad_loads (h : s.writes 0x0A00 2 bs) :
    let i := par bs 0 2
    let v := adapterClean (par bs 2 64)
    i < 4096 → adapterOk v = true → adState (s.adapterRec i) = 0 → s.meetsWeight (adUp v) (adTiles v * tileBytes (adFmt v)) = false →
      s.meetsWeight (adDown v) (tileBytes (adFmt v)) = false → s.clear (s.adapterAddr i) 64 →
      ∃ t, exec .adapterLoad s = .next t ∧ AnsweredWith dsOk s t ∧ t.adapterRec i = v + 1 ∧ adState (t.adapterRec i) = 1 ∧ t.adapterRefs i = 0 := by
  intro i v hi hok hempty hup hdown hc
  obtain ⟨f, r, l, -, -, hserve⟩ := served_of_writes h
  have hc : (s.withSessions l).clear ((s.withSessions l).adapterAddr i) 64 := hc
  let u := (s.withSessions l).hubGot ((s.withSessions l).adapterAddr i, 64)
  have hu : KeepsServing (s.withSessions l) u := by
    show KeepsServing _ (State.hubGot _ _)
    rw [hubGot_of_clear hc]
    exact keepsServing_readDone _ _ _
  have haddr : u.adapterAddr i = (s.withSessions l).adapterAddr i := adapterAddr_congr hu.dv i
  have hclear : u.clear (u.adapterAddr i) 64 := haddr ▸ hu.clear hc
  have hput := (memWriteHub_of_clear hclear (leBytes_length 64 (v + 1))).1
  have hparams : ¬ (4096 ≤ i ∨ adapterOk v = false) := by simp [hok, hi]
  have hrec : ¬ adState (s.adapterRec i) ≠ 0 := not_not.mpr hempty
  have hapart : ¬ (u.meetsWeight (adUp v) (adTiles v * tileBytes (adFmt v)) || u.meetsWeight (adDown v) (tileBytes (adFmt v))) = true := by
    rw [hu.meetsWeight, hu.meetsWeight]
    show ¬ (s.meetsWeight _ _ || s.meetsWeight _ _) = true
    rw [hup, hdown]
    decide
  obtain ⟨hans, hsame⟩ := hserve s.adapterLoad rfl rfl
    (a := ⟨(u.memWriteHub (u.adapterAddr i) (leBytes 64 (v + 1))).setAdapterRefs i 0, dsOk, 0, none⟩)
    ((if_neg hparams).trans ((if_neg hrec).trans (if_neg hapart))) (hput.boot.trans hu.boot) (hput.current.trans hu.current)
  have hload : s.adapterLoad.adapterRec i = v + 1 := by
    rw [hsame.adapterRec, adapterRec_setAdapterRefs, adapterRec_memWriteHub hclear, Nat.mod_eq_of_lt (adapterClean_succ_lt hok)]
  refine ⟨_, rfl, hans, hload, ?_, ?_⟩
  · have hlow : v % 16 = 0 := low_bits_of_adapterOk hok
    rw [hload, adState_eq_mod]
    omega
  · rw [hsame.adapterRefs, adapterRefs_setAdapterRefs_self]

theorem adapterLoad_busy (h : s.writes 0x0A00 2 bs) (hi : par bs 0 2 < 4096) (hok : adapterOk (adapterClean (par bs 2 64)) = true)
    (hrec : adState (s.adapterRec (par bs 0 2)) ≠ 0) :
    ∃ t, exec .adapterLoad s = .next t ∧ AnsweredWith dsAdapterBusy s t ∧ t.ms.mem = s.ms.mem ∧ t.car = s.car := by
  obtain ⟨f, r, l, -, -, hserve⟩ := served_of_writes h
  have hrec : adState ((s.withSessions l).adapterRec (par bs 0 2)) ≠ 0 := hrec
  obtain ⟨got, hread⟩ := memRead_of_adState hrec
  let u := (s.withSessions l).hubGot ((s.withSessions l).adapterAddr (par bs 0 2), 64)
  have hgot : u = (s.withSessions l).readDone ((s.withSessions l).adapterAddr (par bs 0 2)) 64 := by
    show State.hubGot _ _ = _
    simp only [State.hubGot, hread]
  have hu : KeepsServing (s.withSessions l) u := hgot ▸ keepsServing_readDone _ _ _
  have hmem : u.ms.mem = s.ms.mem := by
    rw [hgot]
    exact (readsOnly_readDone _ _ _).2
  have hparams : ¬ (4096 ≤ par bs 0 2 ∨ adapterOk (adapterClean (par bs 2 64)) = false) := by simp [hok, hi]
  obtain ⟨hans, hsame⟩ := hserve s.adapterLoad rfl rfl (a := ⟨u, dsAdapterBusy, 0, none⟩)
    ((if_neg hparams).trans (if_pos hrec)) hu.boot hu.current
  exact ⟨_, rfl, hans, by rw [hsame.ms]; exact hmem, hsame.car.trans hu.car⟩

variable (h : s.writes 0x0A00 3 bs) (hi : leNat bs < 4096) (hc : s.clear (s.adapterAddr (leNat bs)) 64)
include h hi hc

/-- An unload of a LOADED entry writes its STATE. -/
theorem adapterUnload_writes (hrec : adState (s.adapterRec (leNat bs)) = 1) :
    ∃ t, exec .adapterUnload s = .next t ∧ AnsweredWith dsOk s t ∧
      adState (t.adapterRec (leNat bs)) = if s.adapterRefs (leNat bs) = 0 then 0 else 2 := by
  obtain ⟨f, r, l, -, -, hserve⟩ := served_of_writes h
  have hparams : ¬ 4096 ≤ leNat bs := Nat.not_le.mpr hi
  have hloaded : ¬ adState ((s.withSessions l).adapterRec (leNat bs)) ≠ 1 := not_not.mpr hrec
  have hset := fun v => setAdapterBits_spec (s := s.withSessions l) (i := leNat bs) hc v
  by_cases hrefs : s.adapterRefs (leNat bs) = 0
  · obtain ⟨hkeeps, hstate⟩ := hset 0
    obtain ⟨hans, hsame⟩ := hserve s.adapterUnload rfl rfl ((if_neg hparams).trans ((if_neg hloaded).trans (if_pos hrefs))) hkeeps.boot hkeeps.current
    exact ⟨_, rfl, hans, by rw [hsame.adapterRec, hstate, if_pos hrefs]⟩
  · obtain ⟨hkeeps, hstate⟩ := hset (bits ((s.withSessions l).adapterRec (leNat bs)) 3 2 * 4 + 2)
    obtain ⟨hans, hsame⟩ := hserve s.adapterUnload rfl rfl ((if_neg hparams).trans ((if_neg hloaded).trans (if_neg hrefs))) hkeeps.boot hkeeps.current
    exact ⟨_, rfl, hans, by rw [hsame.adapterRec, hstate, if_neg hrefs]; omega⟩

theorem adapterUnload_of_notLoaded (hrec : adState (s.adapterRec (leNat bs)) ≠ 1) :
    ∃ t, exec .adapterUnload s = .next t ∧ AnsweredWith dsOk s t ∧ t.ms.mem = s.ms.mem ∧ t.car = s.car := by
  obtain ⟨f, r, l, -, -, hserve⟩ := served_of_writes h
  have hparams : ¬ 4096 ≤ leNat bs := Nat.not_le.mpr hi
  have hc : (s.withSessions l).clear ((s.withSessions l).adapterAddr (leNat bs)) 64 := hc
  have hu := keepsServing_readDone (s.withSessions l) ((s.withSessions l).adapterAddr (leNat bs)) 64
  obtain ⟨hans, hsame⟩ := hserve s.adapterUnload rfl rfl
    (a := ⟨(s.withSessions l).readDone ((s.withSessions l).adapterAddr (leNat bs)) 64, dsOk, 0, none⟩)
    ((if_neg hparams).trans ((if_pos hrec).trans (by rw [hubGot_of_clear hc]))) hu.boot hu.current
  exact ⟨_, rfl, hans, by rw [hsame.ms]; exact (readsOnly_readDone _ _ _).2, hsame.car.trans hu.car⟩

end

/-- Settles O40: what each command does with an entry by its STATE, whose place in the table the hub reads and writes. -/
theorem adapterCommands : Obligations.AdapterCommands := by
  unfold Obligations.AdapterCommands
  refine ⟨fun bs s h => ⟨adapterLoad_outOfRange h, fun hi hok hempty hup hdown herr hpoison =>
    adapterLoad_loads h hi hok hempty hup hdown ⟨herr, hpoison⟩, adapterLoad_busy h⟩, fun bs s h hi herr hpoison => ?_⟩
  refine ⟨fun hrec => ⟨fun hrefs => ?_, fun hrefs => ?_⟩, adapterUnload_of_notLoaded h hi ⟨herr, hpoison⟩⟩ <;>
    obtain ⟨t, hexec, hans, hstate⟩ := adapterUnload_writes h hi ⟨herr, hpoison⟩ hrec
  · exact ⟨t, hexec, hans, hstate.trans (if_pos hrefs)⟩
  · exact ⟨t, hexec, hans, hstate.trans (if_neg hrefs)⟩

end Sys2Proof.Machine

/-! PROOFS. Windows (R183, R185, R186): WINDOW_CONFIG_WRITE, WINDOW_FILL, and slot data on a port (R316, R325). -/

namespace Sys2Proof.Machine

/-! ## WINDOW_CONFIG_WRITE (R183) -/

section
variable {s : State} {i : SlotId} {u : Nat} {bs : List Byte}

/-- A write of a window field of a slot. -/
theorem windowField_own (hlo : 7 ≤ u) (hhi : u ≤ 9) :
    (decide (0x0910 ≤ 0x0910 + i.val ∧ 0x0910 + i.val < 0x0920) && decide (7 ≤ u ∧ u ≤ 9)) = true := by
  have := i.isLt
  simp [hlo, hhi]
  omega

theorem windowConfig_takes (hlo : 7 ≤ u) (hhi : u ≤ 9) (h : s.writes (0x0910 + i) u bs) :
    let get := fun k => if k = u then leNat bs else s.dv (0x0910 + i) k
    (s.slot i).refs = 0 → s.windowOk i (get 7) (get 8) (get 9) = true → ∃ t, exec .windowConfigWrite s = .next t ∧ AnsweredWith dsOk s t ∧
      t.dv (0x0910 + i) u = leNat bs ∧ (t.slot i).configured = true ∧ (t.slot i).frames = [] ∧ (t.slot i).present = [] ∧
      (t.slot i).window = (if (s.slot i).state = .sealed then 1 else 0) ∧ ∀ j, j ≠ i.val → t.slot j = s.slot j := by
  intro get hrefs hok
  obtain ⟨f, r, l, hindex, hsub, hserve⟩ := served_of_writes h
  have hi : r.index - 0x0910 = i.val := by rw [hindex, Nat.add_sub_cancel_left]
  have hget (k : Nat) : (if r.sub = k then leNat bs else s.dv r.index k) = get k := by simp only [hindex, hsub, get, eq_comm]
  have hfree : ¬ (s.slot (r.index - 0x0910)).refs ≠ 0 := by rw [hi]; exact not_not.mpr hrefs
  have hplace : ¬ s.windowOk (r.index - 0x0910) (if r.sub = 7 then leNat bs else s.dv r.index 7) (if r.sub = 8 then leNat bs else s.dv r.index 8)
      (if r.sub = 9 then leNat bs else s.dv r.index 9) = false := by
    rw [hi, hget, hget, hget, hok]
    decide
  obtain ⟨hans, hsame⟩ := hserve s.windowConfig rfl (windowField_own hlo hhi) ((if_neg hfree).trans (if_neg hplace)) rfl rfl
  rw [hi] at hsame
  refine ⟨_, rfl, hans, ?_, ?_, ?_, ?_, ?_, fun j hj => ?_⟩
  · rw [hsame.dv, ← hindex, ← hsub]
    exact dv_setDv_self (s.withSessions l) r.index r.sub (leNat bs)
  · rw [hsame.slot, slot_modSlot_self]
  · rw [hsame.slot, slot_modSlot_self]; rfl
  · rw [hsame.slot, slot_modSlot_self]; rfl
  · rw [hsame.slot, slot_modSlot_self]; rfl
  · rw [hsame.slot, slot_modSlot_ne _ _ hj]; rfl

theorem windowConfig_busy (hlo : 7 ≤ u) (hhi : u ≤ 9) (h : s.writes (0x0910 + i) u bs) (hrefs : (s.slot i).refs ≠ 0) :
    ∃ t, exec .windowConfigWrite s = .next t ∧ AnsweredWith dsSlotBusy s t ∧ t.car = s.car := by
  obtain ⟨f, r, l, hindex, hsub, hserve⟩ := served_of_writes h
  have hbusy : (s.slot (r.index - 0x0910)).refs ≠ 0 := by rwa [hindex, Nat.add_sub_cancel_left]
  obtain ⟨hans, hsame⟩ := hserve s.windowConfig rfl (windowField_own hlo hhi) (if_pos hbusy) rfl rfl
  exact ⟨_, rfl, hans, hsame.car⟩

end

/-! ## WINDOW_FILL (R185, R186) -/

/-- Where every release has been made already, none is left to make. -/
theorem releaseTo_of_released {sl : Slot} {r : Nat} (h : r = sl.relOrd) (hnext : sl.relOrd ≤ sl.nextOrd) (n : Nat) : sl.releaseTo n r = sl := by
  subst h
  simp [Slot.releaseTo, Nat.max_eq_right hnext]

theorem othersOn_ms (s : State) (i : Nat) (f : Slot → Slot) : (s.othersOn i f).ms = s.ms := by
  unfold State.othersOn
  refine List.foldlRecOn (motive := fun t : State => t.ms = s.ms) _ _ rfl fun t ht k _ => ?_
  split
  · exact ht
  · exact ht

/-- What the next ordinal makes of its frame: READY where the frame still holds the block whole, else it begins to fill. -/
def Frame.entered (f : Frame) (tag : Nat × Nat) : Frame :=
  if decide (f.state = .released ∧ f.tag = some tag ∧ f.failed = []) then { f with state := .ready } else { state := .filling, tag := some tag }

theorem windowFill_of_lead {s : State} {i : SlotId} {j : Job} (hj : s.streamFor i = some j) (hsweep : s.hub.sweeping = false)
    (hblocks : (s.slot i).blockCount ≠ 0) (hrel : s.releasedTo j = (s.slot i).relOrd) (hord : (s.slot i).relOrd ≤ (s.slot i).nextOrd)
    (hlead : (s.slot i).nextOrd < s.releasedTo j + s.depthOf i) :
    let q := (s.slot i).nextOrd
    let f := (s.slot i).frame (q % s.winFrames i)
    ∃ u : State, u.ms = s.ms ∧ s.windowFill i = u.setSlot i { s.slot i with
      frames := mset (s.slot i).frames (q % s.winFrames i) (f.entered (i.val, q % (s.slot i).blockCount)), nextOrd := q + 1 } := by
  intro q f
  let release := fun (x : Slot) => x.releaseTo (s.winFrames i) (s.releasedTo j)
  have hslot : (s.modSlot i release).slot i = s.slot i := by rw [slot_modSlot_self]; exact releaseTo_of_released hrel hord _
  have hdepth : (s.modSlot i release).depthOf i = s.depthOf i := by
    show min (min (max ((s.modSlot i release).slot i).depth _) _) _ = _
    rw [hslot]; rfl
  have hopen : ¬ (s.releasedTo j + (s.modSlot i release).depthOf i ≤ ((s.modSlot i release).slot i).nextOrd ∨
      (s.modSlot i release).hub.sweeping = true ∨ ((s.modSlot i release).slot i).blockCount = 0) := by
    rw [hslot, hdepth, not_or, not_or, modSlot_hub, hsweep]
    exact ⟨Nat.not_le.mpr hlead, Bool.false_ne_true, hblocks⟩
  simp only [State.windowFill, hj]
  refine ⟨if decide (f.state = .released ∧ f.tag = some (i.val, q % (s.slot i).blockCount) ∧ f.failed = []) then s.modSlot i release
    else (s.modSlot i release).othersOn i (fun x => { x with frames := mdel x.frames (q % s.winFrames i) }), ?_, (if_neg hopen).trans ?_⟩
  · split
    · rfl
    · exact othersOn_ms _ _ _
  · simp only [release] at hslot
    simp only [hslot]
    rfl

/-- The frame that the next ordinal enters. -/
theorem Frame.entered_spec (f : Frame) (tag : Nat × Nat) : (f.entered tag).tag = some tag ∧
    (f.entered tag).state = if f.state = .released ∧ f.tag = some tag ∧ f.failed = [] then .ready else .filling := by
  unfold Frame.entered
  by_cases h : f.state = .released ∧ f.tag = some tag ∧ f.failed = []
  · obtain ⟨-, htag, -⟩ := id h
    rw [if_pos (decide_eq_true h), if_pos h]
    exact ⟨htag, rfl⟩
  · rw [if_neg (by simpa using h), if_neg h]
    exact ⟨rfl, rfl⟩

theorem windowFill_fills {s : State} {i : SlotId} {j : Job} (hj : s.streamFor i = some j) (hsweep : s.hub.sweeping = false)
    (hblocks : (s.slot i).blockCount ≠ 0) (hrel : s.releasedTo j = (s.slot i).relOrd) (hord : (s.slot i).relOrd ≤ (s.slot i).nextOrd) :
    let q := (s.slot i).nextOrd
    let f := (s.slot i).frame (q % s.winFrames i)
    q < s.releasedTo j + s.depthOf i →
    ∃ t, exec (.windowFill i) s = .next t ∧ (t.slot i).nextOrd = q + 1 ∧ t.ms = s.ms ∧
      ((t.slot i).frame (q % s.winFrames i)).tag = some (i.val, q % (s.slot i).blockCount) ∧
      ((t.slot i).frame (q % s.winFrames i)).state =
        if f.state = .released ∧ f.tag = some (i.val, q % (s.slot i).blockCount) ∧ f.failed = [] then .ready else .filling := by
  intro q f hlead
  obtain ⟨u, hms, hfill⟩ := windowFill_of_lead hj hsweep hblocks hrel hord hlead
  have hslot : (s.windowFill i).slot i = _ := hfill ▸ (slot_setSlot u i i _).trans (if_pos rfl)
  obtain ⟨htag, hstate⟩ := f.entered_spec (i.val, q % (s.slot i).blockCount)
  refine ⟨s.windowFill i, rfl, by rw [hslot], by rw [hfill]; exact hms, ?_, ?_⟩ <;> rw [hslot, Slot.frame, mget_mset_self]
  · exact htag
  · exact hstate

/-! ## BULK_SLOT_DATA_RECV (R316, R325) -/

theorem onlyPort_modPort (s : State) (p : Nat) (f : Port → Port) : OnlyPort p s (s.modPort p f) :=
  ⟨fun q hq => (port_modPort s p q f).trans (if_neg hq), rfl, rfl, rfl, rfl, rfl, rfl, rfl, rfl, rfl, rfl, rfl, rfl⟩

theorem OnlyPort.trans {p : Nat} {s t u : State} (h : OnlyPort p s t) (h' : OnlyPort p t u) : OnlyPort p s u := by
  obtain ⟨hports, hrest⟩ := h
  obtain ⟨hports', hrest'⟩ := h'
  exact ⟨fun q hq => (hports' q hq).trans (hports q hq), by simp_all⟩

theorem port_modPort_self (s : State) (p : Nat) (f : Port → Port) : (s.modPort p f).port p = f (s.port p) := mget_mset_self ..

/-- Counting flash traffic touches the bandwidth counts alone. -/
theorem countFlash_eq (s : State) (base : Nat) (sl : Slot) (off n : Nat) :
    ∃ m, s.countFlash base sl off n = s.withPor (fun p => { p with bwCounts := m }) :=
  List.foldlRecOn (motive := fun t : State => ∃ m, t = s.withPor (fun p => { p with bwCounts := m })) _ _ ⟨s.por.bwCounts, rfl⟩
    fun _ ⟨_, hm⟩ _ _ => hm ▸ ⟨_, rfl⟩

theorem program_of_writing {s : State} {i : Nat} (h : (s.slot i).state = .writing) (off : Nat) (bs : List Byte) :
    ∃ m, s.program i off bs = (s.modSlot i (fun x => { x with stream := x.stream.writeBytes off bs })).withPor
      (fun p => { p with bwCounts := m }) := by
  rw [State.program, if_neg (not_not.mpr h)]
  exact countFlash_eq _ _ _ _ _

/-- A write of a slot's writes writes that slot. -/
theorem slot_of_mem_writesOf {s : State} {i : Nat} {w : RunCmd × SlotWrite} (h : w ∈ s.writesOf i) : w.2.slot = i := by
  simp only [State.writesOf, List.mem_filter, decide_eq_true_eq] at h
  exact h.2

/-- A running write that a message of n bytes to an offset of the stream fills (R325). -/
def coversData (p off n : Nat) (w : RunCmd × SlotWrite) : Bool :=
  decide (w.2.source = 1 ∧ w.2.port = p) && within off n w.2.off w.2.len && !w.1.arrived.any (fun a => meets off n (w.2.off + a.1) a.2)

/-- A message of slot data in the form of R323. -/
def formedData (h : Nat) : Prop :=
  bits h 7 0 = 1 ∧ bits h 191 160 ≠ 0 ∧ bits h 191 160 % 2048 = 0 ∧ bits h 191 160 ≤ bulkMax

section
variable {p : PortId} {s : State} {f : BitVec 2048} {rest : List (BitVec 2048)}
variable (hq : (s.port p).asmB ++ (s.port p).rxB = f :: rest)
include hq

/-- The message is there in part: all that has come drains. -/
theorem bulkTake_of_part (hpart : rest.length < bits f.toNat 191 160 / 256) :
    let k := min (s.port p).rxB.length (1 + bits f.toNat 191 160 / 256 - (s.port p).asmB.length)
    s.bulkTake p = (none, s.modPort p (fun x => { x with rxB := x.rxB.drop k, owedB := x.owedB + k, asmB := x.asmB ++ x.rxB.take k })) := by
  intro k
  have hshort : rest.length + 1 < bulkFlits f.toNat := by rw [bulkFlits]; omega
  simp only [State.bulkTake, drainMsg, hq, if_pos hshort]
  rfl

/-- The message is there whole: its header and its data flits are taken. -/
theorem bulkTake_of_whole (hwhole : bits f.toNat 191 160 / 256 ≤ rest.length) :
    let k := min (s.port p).rxB.length (1 + bits f.toNat 191 160 / 256 - (s.port p).asmB.length)
    s.bulkTake p = (some (f.toNat, rest.take (bits f.toNat 191 160 / 256)),
      s.modPort p (fun x => { x with rxB := x.rxB.drop k, owedB := x.owedB + k, asmB := [] })) := by
  intro k
  have hlong : ¬ rest.length + 1 < bulkFlits f.toNat := by rw [bulkFlits]; omega
  have hflits : bulkFlits f.toNat - 1 = bits f.toNat 191 160 / 256 := by rw [bulkFlits]; omega
  simp only [State.bulkTake, drainMsg, hq, if_neg hlong, hflits]
  rfl

/-- The front message is one of slot data. -/
theorem bulkHead_isData (hkind : bits f.toNat 7 0 ≠ 2) : ¬ (s.bulkHead p).all (fun h => decide (bits h 7 0 = 2)) = true := by
  simp [State.bulkHead, hq, hkind]

variable (hkind : bits f.toNat 7 0 ≠ 2)
include hkind

theorem slotDataRecv_of_part (hpart : rest.length < bits f.toNat 191 160 / 256) :
    let x := s.port p
    let k := min x.rxB.length (1 + bits f.toNat 191 160 / 256 - x.asmB.length)
    ∃ t, exec (.bulkSlotDataRecv p) s = .next t ∧ OnlyPort p s t ∧ t.car = s.car ∧
      t.port p = { x with rxB := x.rxB.drop k, owedB := x.owedB + k, asmB := x.asmB ++ x.rxB.take k } := by
  intro x k
  have hrecv : s.slotDataRecv p =
      s.modPort p (fun x => { x with rxB := x.rxB.drop k, owedB := x.owedB + k, asmB := x.asmB ++ x.rxB.take k }) := by
    rw [State.slotDataRecv, if_neg (bulkHead_isData hq hkind), bulkTake_of_part hq hpart]
  exact ⟨s.slotDataRecv p, rfl, hrecv ▸ onlyPort_modPort s p _, by rw [hrecv]; rfl, by rw [hrecv, port_modPort_self]⟩

end

/-- The write that a message of slot data belongs to. -/
def State.dataWrite (s : State) (p h : Nat) : Option (RunCmd × SlotWrite) :=
  if bits h 7 0 ≠ 1 ∨ bits h 191 160 = 0 ∨ bits h 191 160 % 2048 ≠ 0 ∨ bulkMax < bits h 191 160 then none
  else (s.writesOf (bits h 159 152)).find? (coversData p (bits h 255 192) (bits h 191 160))

theorem dataWrite_of_formed {s : State} {p h : Nat} (hf : formedData h) :
    s.dataWrite p h = (s.writesOf (bits h 159 152)).find? (coversData p (bits h 255 192) (bits h 191 160)) := by
  obtain ⟨hkind, hsize, halign, hmax⟩ := hf
  exact if_neg (by simp [hkind, hsize, halign, Nat.not_lt.mpr hmax])

theorem dataWrite_of_malformed {s : State} {p h : Nat} (hf : ¬ formedData h) : s.dataWrite p h = none := by
  refine if_pos ?_
  by_contra hall
  simp only [not_or, not_not, Nat.not_lt] at hall
  exact hf hall

section
variable {p : PortId} {s : State} {f : BitVec 2048} {rest : List (BitVec 2048)}
variable (hq : (s.port p).asmB ++ (s.port p).rxB = f :: rest) (hkind : bits f.toNat 7 0 ≠ 2)
  (hwhole : bits f.toNat 191 160 / 256 ≤ rest.length)
include hq hkind hwhole

theorem slotDataRecv_unmatched (hw : s.dataWrite p f.toNat = none) :
    let x := s.port p
    let k := min x.rxB.length (1 + bits f.toNat 191 160 / 256 - x.asmB.length)
    ∃ t, exec (.bulkSlotDataRecv p) s = .next t ∧ OnlyPort p s t ∧ t.car = s.car ∧
      t.port p = { x with rxB := x.rxB.drop k, owedB := x.owedB + k, asmB := [], unmatched := x.unmatched + 1 } := by
  intro x k
  have hrecv : s.slotDataRecv p = (s.modPort p (fun x => { x with rxB := x.rxB.drop k, owedB := x.owedB + k, asmB := [] })).modPort p
      (fun x => { x with unmatched := x.unmatched + 1 }) := by
    unfold State.dataWrite coversData at hw
    rw [State.slotDataRecv, if_neg (bulkHead_isData hq hkind), bulkTake_of_whole hq hwhole]
    simp only [hw]
    rfl
  refine ⟨s.slotDataRecv p, rfl, ?_, by rw [hrecv]; rfl, by rw [hrecv, port_modPort_self, port_modPort_self]⟩
  rw [hrecv]
  exact (onlyPort_modPort s p _).trans (onlyPort_modPort _ p _)

theorem slotDataRecv_matched {w : RunCmd × SlotWrite} (hw : s.dataWrite p f.toNat = some w)
    (hstate : (s.slot (bits f.toNat 159 152)).state = .writing) :
    let h := f.toNat
    let x := s.port p
    let n := bits h 191 160
    let off := bits h 255 192
    let i := bits h 159 152
    let k := min x.rxB.length (1 + n / 256 - x.asmB.length)
    ∃ t, exec (.bulkSlotDataRecv p) s = .next t ∧
      t.port p = { x with rxB := x.rxB.drop k, owedB := x.owedB + k, asmB := [] } ∧
      (t.slot i).stream = (s.slot i).stream.writeBytes off (((rest.take (n / 256)).flatMap flitBytes).take n) ∧
      (∀ j, j ≠ i → t.slot j = s.slot j) ∧ t.ms = s.ms ∧ t.cores = s.cores ∧
      t.por.cmds = s.por.cmds.map (fun c =>
        if c.ticket = w.1.ticket then { c with arrived := c.arrived ++ [(off - w.2.off, n)] } else c) := by
  intro h x n off i k
  let drain := fun (x : Port) => { x with rxB := x.rxB.drop k, owedB := x.owedB + k, asmB := [] }
  let u := s.modPort p drain
  let data := ((rest.take (n / 256)).flatMap flitBytes).take n
  let store := fun (x : Slot) => { x with stream := x.stream.writeBytes off data }
  have hslot : w.2.slot = i := by
    unfold State.dataWrite at hw
    split at hw
    · cases hw
    · exact slot_of_mem_writesOf (List.mem_of_find?_eq_some hw)
  obtain ⟨m, hprogram⟩ := program_of_writing (s := u) (i := i) hstate off data
  have hrecv : s.slotDataRecv p = ((u.modSlot i store).withPor
      (fun p => { p with bwCounts := m })).modCmd w.1.ticket (fun c => { c with arrived := c.arrived ++ [(off - w.2.off, n)] }) := by
    rw [← hprogram, ← hslot]
    unfold State.dataWrite coversData at hw
    rw [State.slotDataRecv, if_neg (bulkHead_isData hq hkind), bulkTake_of_whole hq hwhole]
    simp only [hw]
    rfl
  refine ⟨s.slotDataRecv p, rfl, ?_, ?_, fun j hj => ?_, ?_, ?_, ?_⟩ <;> rw [hrecv]
  · exact port_modPort_self s p drain
  · exact congrArg Slot.stream (slot_modSlot_self u i store)
  · exact slot_modSlot_ne u store hj
  · rfl
  · rfl
  · rfl

end

end Sys2Proof.Machine

/-! PROOFS. A codeword read for a window (R173, R175, R186, R189, R192, R409): the stages of CODEWORD_READ_DONE, and its outcomes at a frame and
at an on-demand region. -/

namespace Sys2Proof.Machine

/-! ## A slot's objects (R181) -/

/-- The objects of a block are told by the slot's stream. -/
theorem objsOf_congr {x y : Slot} (h : x.stream = y.stream) (b : Nat) : x.objsOf b = y.objsOf b := by
  have hsize : x.objSize = y.objSize := by
    funext o
    rw [Slot.objSize, Slot.objRec, Slot.blockCount, Slot.header, h]
    rfl
  have hfrom (n o off : Nat) : x.objsFrom n o off = y.objsFrom n o off := by
    induction n generalizing o off with
    | zero => rfl
    | succ n ih => rw [Slot.objsFrom, Slot.objsFrom, ih, hsize]
  have hrec : x.blockRec b = y.blockRec b := by rw [Slot.blockRec, h]; rfl
  rw [Slot.objsOf, Slot.objsOf, hfrom, Slot.blockObjs, Slot.blockFirst, Slot.blockOff, hrec]
  rfl

theorem allObjs_congr {x y : Slot} (h : x.stream = y.stream) : x.allObjs = y.allObjs := by
  have hblocks : x.blockCount = y.blockCount := by rw [Slot.blockCount, Slot.header, h]; rfl
  rw [Slot.allObjs, Slot.allObjs, hblocks, funext (objsOf_congr h)]

/-! ## The stages of CODEWORD_READ_DONE (R173, R186, R189, R409) -/

/-- The slot's frames after the releases that its job has made. -/
def State.released (s : State) (i : Nat) : State :=
  match s.streamFor i with
  | some j => s.modSlot i (fun x => x.releaseTo (s.winFrames i) (s.releasedTo j))
  | none => s

/-- Whether demanded objects of the region of slot i want a codeword. -/
def State.regionWants (s : State) (i cw : Nat) : Bool :=
  decide ((s.slot i).window = 1) && s.slotOnDemand i && (s.slot i).allObjs.any (fun o => (s.slot i).demand.contains o.obj && o.cws.contains cw)

/-- The filling frame of slot i that wants a codeword. -/
def State.frameWants (s : State) (i cw : Nat) : Option (Nat × Nat) :=
  if decide ((s.slot i).window = 1) && !s.slotOnDemand i && (s.streamFor i).isSome then (s.slot i).wants cw else none

/-- What the reads of a codeword count: its tries and the bytes read. -/
def State.codewordRead (s : State) (i cw : Nat) (readable : Bool) (retries : Nat) : State :=
  (s.countTries (s.slot i) cw (s.cwTries (s.slot i) cw readable retries)).bumpBw (32 + (s.slot i).channelOf cw / 16) 4096

/-- Whether a read gives the codeword's bytes. -/
def State.codewordOk (s : State) (i cw : Nat) (readable : Bool) : Bool := readable && !s.cwFenced (s.slot i) cw

theorem codewordOk_of_unfenced {s : State} {i cw : Nat} (h : (s.flashCh ((s.slot i).channelOf cw)).fence = 0) :
    s.codewordOk i cw true = true := by
  simp [State.codewordOk, State.cwFenced, h]

theorem codewordOk_of_lost {s : State} {i cw : Nat} {readable : Bool}
    (h : readable = false ∨ (s.flashCh ((s.slot i).channelOf cw)).fence ≠ 0) : s.codewordOk i cw readable = false := by
  simpa [State.codewordOk, State.cwFenced, imp_iff_not_or] using h

/-- The read's outcome goes to the frame that wants the codeword, or to the region. -/
def State.codewordGot (s : State) (i cw : Nat) (ok : Bool) (want : Option (Nat × Nat)) : State :=
  match want with
  | some (f, b) => s.frameGot i f b cw ok
  | none => s.regionGot i cw ok

theorem codewordDone_eq (s : State) (i cw : Nat) (readable : Bool) (retries : Nat) :
    s.codewordDone i cw readable retries =
      let u := s.released i
      let ok := u.codewordOk i cw readable
      if u.hub.sweeping || !(u.regionWants i cw || (u.frameWants i cw).isSome) then u
      else if u.flashOff ((u.slot i).channelOf cw) then u.jobFault (u.fillJob i) { status := stBusError }
      else
        let v := u.codewordRead i cw readable retries
        (if ok then v else v.cwLost i cw).codewordGot i cw ok (u.frameWants i cw) := rfl

/-- What the reads of a codeword count on its channel (R173, R175). -/
theorem flashCh_codewordRead (s : State) (i cw : Nat) (readable : Bool) (retries : Nat) :
    let x := s.flashCh ((s.slot i).channelOf cw)
    (s.codewordRead i cw readable retries).flashCh ((s.slot i).channelOf cw) = { x with
      retries := x.retries + BitVec.ofNat 64 (if x.fence ≠ 0 then 0 else if readable then min retries (s.dv 0x0901 1) else s.dv 0x0901 1) } := by
  intro x
  let count := fun (c : FlashChannel) => { c with retries := c.retries + BitVec.ofNat 64 (s.cwTries (s.slot i) cw readable retries) }
  have hcount : (s.codewordRead i cw readable retries).flashCh ((s.slot i).channelOf cw) = count x :=
    (flashCh_modFlashCh s _ _ count).trans (if_pos rfl)
  rw [hcount]
  simp [count, State.cwTries, State.cwFenced, x]

/-- A codeword that is lost is counted on its channel (R173). -/
theorem flashCh_cwLost (s : State) (i cw : Nat) : (s.cwLost i cw).flashCh ((s.slot i).channelOf cw) =
    { s.flashCh ((s.slot i).channelOf cw) with ue := (s.flashCh ((s.slot i).channelOf cw)).ue + 1 } :=
  (flashCh_modFlashCh s _ _ (fun c => { c with ue := c.ue + 1 })).trans (if_pos rfl)

theorem stream_cwLost (s : State) (i cw : Nat) : ((s.cwLost i cw).slot i).stream = (s.slot i).stream := by
  rw [State.cwLost, slot_modSlot_self]; rfl

theorem demand_cwLost (s : State) (i cw : Nat) : ((s.cwLost i cw).slot i).demand = (s.slot i).demand := by
  rw [State.cwLost, slot_modSlot_self]; rfl

/-! ## What the releases and the reads leave -/

/-- States that differ in how the slots are kept alone. -/
def SameSlots (s t : State) : Prop := (∀ i, t.slot i = s.slot i) ∧ t = { s with car := { s.car with slots := t.car.slots } }

theorem SameSlots.refl (s : State) : SameSlots s s := ⟨fun _ => rfl, rfl⟩

theorem SameSlots.streamFor {s t : State} (h : SameSlots s t) (i : Nat) : t.streamFor i = s.streamFor i := by
  obtain ⟨hslot, ht⟩ := h
  have hslot : t.slot = s.slot := funext hslot
  have hhub : t.hub = s.hub := by rw [ht]
  have hdv : t.dv = s.dv := by rw [ht]; rfl
  unfold State.streamFor State.windowJobs State.sameWindow State.winLen State.winBase State.slotOnDemand State.winFrames
  rw [hslot, hhub, hdv]

/-- Where the job's releases have all been made, the frames are as before. -/
theorem sameSlots_released {s : State} {i : Nat} (h : ∀ j, s.streamFor i = some j →
    s.releasedTo j = (s.slot i).relOrd ∧ (s.slot i).relOrd ≤ (s.slot i).nextOrd) : SameSlots s (s.released i) := by
  unfold State.released
  cases hj : s.streamFor i with
  | none => exact SameSlots.refl s
  | some j =>
    obtain ⟨hrel, hord⟩ := h j hj
    let release := fun (x : Slot) => x.releaseTo (s.winFrames i) (s.releasedTo j)
    refine ⟨fun k => ?_, rfl⟩
    by_cases hk : k = i
    · subst hk
      exact (slot_modSlot_self s k release).trans (releaseTo_of_released hrel hord _)
    · exact slot_modSlot_ne s release hk

/-- A slot that streams has a window of frames in effect. -/
theorem window_of_streamFor {s : State} {i : Nat} {j : Job} (h : s.streamFor i = some j) : s.slotOnDemand i = false ∧ (s.slot i).window = 1 := by
  unfold State.streamFor at h
  split at h
  · split at h
    next hcond =>
      obtain ⟨-, -, hframes, hwindow⟩ := hcond
      exact ⟨hframes, hwindow⟩
    · cases h
  · cases h

/-- The times that a codeword is read again (R173, R175). -/
def State.triesOf (s : State) (ch : Nat) (readable : Bool) (retries : Nat) : Nat :=
  if (s.flashCh ch).fence ≠ 0 then 0 else if readable then min retries (s.dv 0x0901 1) else s.dv 0x0901 1

/-- The state in which a codeword of slot i has been read: memory, cores and slots are as before, and its tries are counted. -/
structure HasRead (s v : State) (ch : Nat) (tries : Nat) : Prop where
  ms : v.ms = s.ms
  cores : v.cores = s.cores
  slot : v.slot = s.slot
  winBase : v.winBase = s.winBase
  rangeErr : v.rangeErr = s.rangeErr
  poisonPart : v.poisonPart = s.poisonPart
  channel : v.flashCh ch = { s.flashCh ch with retries := (s.flashCh ch).retries + BitVec.ofNat 64 tries }

theorem SameSlots.hasRead {s u : State} (h : SameSlots s u) (i cw : Nat) (readable : Bool) (retries : Nat) :
    let ch := (s.slot i).channelOf cw
    HasRead s (u.codewordRead i cw readable retries) ch (s.triesOf ch readable retries) := by
  intro ch
  obtain ⟨hslot, hu⟩ := h
  have hch : (u.slot i).channelOf cw = ch := by rw [hslot]
  have hchannel := flashCh_codewordRead u i cw readable retries
  rw [hch] at hchannel
  generalize u.car.slots = m at hu
  subst hu
  exact ⟨rfl, rfl, funext hslot, rfl, rfl, rfl, hchannel⟩

section
variable {s : State} {i cw : Nat} (hsame : SameSlots s (s.released i)) (hsweep : s.hub.sweeping = false)
  (hwanted : ((s.released i).regionWants i cw || ((s.released i).frameWants i cw).isSome) = true)
include hsame hsweep hwanted

/-- A codeword that is wanted has its read. -/
theorem codeword_wanted : ¬ ((s.released i).hub.sweeping ||
    !((s.released i).regionWants i cw || ((s.released i).frameWants i cw).isSome)) = true := by
  obtain ⟨-, hu⟩ := hsame
  rw [hwanted, hu, hsweep]
  decide

/-- A codeword that is wanted on a flash group that is OFF (R409). -/
theorem codewordDone_of_off (hoff : s.flashOff ((s.slot i).channelOf cw) = true) (readable : Bool) (retries : Nat) :
    let t := s.codewordDone i cw readable retries
    t.hub.sweeping = true ∧ t.hub.lastFault.status = stBusError ∧ t.ms = s.ms ∧ t.cores = s.cores ∧ ∀ c, t.flashCh c = s.flashCh c := by
  intro t
  have hgo := codeword_wanted hsame hsweep hwanted
  obtain ⟨hslot, hu⟩ := hsame
  have hoff : (s.released i).flashOff (((s.released i).slot i).channelOf cw) = true := by rw [hslot, hu]; exact hoff
  have hsweep : (s.released i).hub.sweeping = false := by rw [hu]; exact hsweep
  have ht : t = (s.released i).jobFault ((s.released i).fillJob i) { status := stBusError } :=
    (codewordDone_eq s i cw readable retries).trans ((if_neg hgo).trans (if_pos hoff))
  obtain ⟨hsweeping, hstatus, -⟩ := lastFault_jobFault ((s.released i).fillJob i) { status := stBusError } hsweep
  obtain ⟨-, hcores, hms, hcar, -⟩ := jobFault_rest (s.released i) ((s.released i).fillJob i) { status := stBusError }
  rw [ht]
  refine ⟨hsweeping, hstatus, hms.trans (by rw [hu]), hcores.trans (by rw [hu]), fun c => ?_⟩
  rw [State.flashCh, hcar, hu]
  rfl

/-- A codeword that is wanted, its flash group ON. -/
theorem codewordDone_of_on (hon : s.flashOff ((s.slot i).channelOf cw) = false) (readable : Bool) (retries : Nat) :
    let ok := s.codewordOk i cw readable
    let ch := (s.slot i).channelOf cw
    ∃ v, HasRead s v ch (s.triesOf ch readable retries) ∧ s.codewordDone i cw readable retries =
      (if ok then v else v.cwLost i cw).codewordGot i cw ok ((s.released i).frameWants i cw) := by
  intro ok ch
  have hgo := codeword_wanted hsame hsweep hwanted
  have hread := hsame.hasRead i cw readable retries
  obtain ⟨hslot, hu⟩ := hsame
  have hon : ¬ (s.released i).flashOff (((s.released i).slot i).channelOf cw) = true := by rw [hslot, hu]; exact Bool.eq_false_iff.mp hon
  have hok : (s.released i).codewordOk i cw readable = ok := by rw [State.codewordOk, hslot, hu]; rfl
  have hdone := (codewordDone_eq s i cw readable retries).trans ((if_neg hgo).trans (if_neg hon))
  simp only [hok] at hdone
  exact ⟨_, hread, hdone⟩

end

/-! ## A codeword's bytes in the window -/

/-- Where the range can be read and poison is covered whole, the bytes land. -/
theorem windowWrite_of_readable {s : State} {a : Nat} {bs : List Byte} (herr : s.rangeErr a bs.length = none)
    (hpoison : s.poisonPart a bs.length = none) (i : Nat) (rewrite : Bool) :
    ∃ t, s.windowWrite i a bs rewrite = (.here, t) ∧ OnlyMemory s t ∧ t.ms.mem = s.ms.mem.writeBytes a bs := by
  have hok : s.memWriteOwn a bs = .ok ((stacksOf a bs.length).foldl State.useParity ((s.snoopInv a bs.length).memPut a bs)) := by
    simp only [State.memWriteOwn, herr, hpoison]
  obtain ⟨t, hown, hwrite⟩ | ⟨e, t, hown, -⟩ := windowWrite_cases (s := s) i a bs rewrite
  · exact ⟨t, hwrite, memWriteOwn_ok hown⟩
  · exact nomatch hok.symm.trans hown

/-! ### Frames (R186, R192) -/

/-- A frame after a codeword's outcome: what has come is told by the codeword, what has failed by the objects it overlaps. -/
theorem frameMark_spec (s : State) (i f b cw : Nat) (here : Bool) :
    ∃ fr : Frame, ((s.frameMark i f b cw here).slot i).frame f = { fr with state := if ((s.slot i).objsOf b).all fr.settled then .ready else .filling } ∧
      fr.tag = ((s.slot i).frame f).tag ∧ (here = true → fr.got = ((s.slot i).frame f).got ++ [cw]) ∧
      (here = false → ∀ x ∈ (s.slot i).objsOf b, cw ∈ x.cws → x.obj ∈ fr.failed) := by
  simp only [State.frameMark, slot_modSlot_self, Slot.frame, mget_mset_self]
  refine ⟨_, rfl, ?_, ?_, ?_⟩
  · split <;> rfl
  · rintro rfl; rfl
  · rintro rfl x hx hcw
    simp
    exact .inr ⟨x, ⟨hx, hcw⟩, rfl⟩

/-- A codeword whose bytes land in its frame. -/
theorem frameGot_of_readable {s : State} {i f b cw : Nat} :
    let sl := s.slot i
    let a := s.winBase i + f * sl.frameBytes + ((sl.cwBytes cw (sl.blockOff b) (sl.blockOff b + sl.blockBytes b)).1 - sl.blockOff b)
    let bs := (sl.cwBytes cw (sl.blockOff b) (sl.blockOff b + sl.blockBytes b)).2
    s.rangeErr a bs.length = none → s.poisonPart a bs.length = none →
      ∃ t, s.frameGot i f b cw true = t.frameMark i f b cw true ∧ OnlyMemory s t ∧ t.ms.mem = s.ms.mem.writeBytes a bs := by
  intro sl a bs herr hpoison
  obtain ⟨t, hwrite, honly, hmem⟩ := windowWrite_of_readable herr hpoison i
    ((sl.objsOf b).any (fun o => (sl.frame f).rewrite.contains o.obj && o.cws.contains cw))
  refine ⟨t, ?_, honly, hmem⟩
  simp only [State.frameGot]
  rw [hwrite]
  rfl

section
variable {s : State} {i : SlotId} {cw : Nat} {readable : Bool} {retries : Nat} {j : Job} {f b : Nat} (hsweep : s.hub.sweeping = false)
  (hj : s.streamFor i = some j) (hrel : s.releasedTo j = (s.slot i).relOrd) (hord : (s.slot i).relOrd ≤ (s.slot i).nextOrd)
  (hwants : (s.slot i).wants cw = some (f, b))
include hj

include hrel hord in
theorem sameSlots_of_streamFor : SameSlots s (s.released i) :=
  sameSlots_released fun j' hj' => by
    cases hj.symm.trans hj'
    exact ⟨hrel, hord⟩

include hwants

theorem SameSlots.frameWants {u : State} (h : SameSlots s u) : u.frameWants i cw = some (f, b) := by
  obtain ⟨hframes, hwindow⟩ := window_of_streamFor hj
  have hstream := h.streamFor i
  obtain ⟨hslot, hu⟩ := h
  have hframes : u.slotOnDemand i = false := by rw [hu]; exact hframes
  rw [State.frameWants, hslot, hstream, hframes, hwindow, hj]
  exact hwants

/-- The frame is among what the read is for. -/
theorem frame_wanted (h : SameSlots s (s.released i)) :
    ((s.released i).regionWants i cw || ((s.released i).frameWants i cw).isSome) = true := by
  rw [h.frameWants hj hwants]
  exact Bool.or_true _

include hsweep hrel hord

theorem codewordDone_frame_lands (hon : s.flashOff ((s.slot i).channelOf cw) = false)
    (hfence : (s.flashCh ((s.slot i).channelOf cw)).fence = 0) :
    let sl := s.slot i
    let ch := sl.channelOf cw
    let a := s.winBase i + f * sl.frameBytes + ((sl.cwBytes cw (sl.blockOff b) (sl.blockOff b + sl.blockBytes b)).1 - sl.blockOff b)
    let bs := (sl.cwBytes cw (sl.blockOff b) (sl.blockOff b + sl.blockBytes b)).2
    s.rangeErr a bs.length = none → s.poisonPart a bs.length = none →
      ∃ t, exec (.codewordReadDone i cw true retries) s = .next t ∧
        (t.flashCh ch).retries = (s.flashCh ch).retries + BitVec.ofNat 64 (s.triesOf ch true retries) ∧ t.ms.mem = s.ms.mem.writeBytes a bs ∧
        ((t.slot i).frame f).got = (sl.frame f).got ++ [cw] ∧ ((t.slot i).frame f).tag = (sl.frame f).tag ∧
        ((t.slot i).frame f).state = if (sl.objsOf b).all ((t.slot i).frame f).settled then .ready else .filling := by
  intro sl ch a bs herr hpoison
  have hsame := sameSlots_of_streamFor hj hrel hord
  obtain ⟨v, hread, hdone⟩ := codewordDone_of_on hsame hsweep (frame_wanted hj hwants hsame) hon true retries
  have hok : s.codewordOk i cw true = true := codewordOk_of_unfenced hfence
  rw [hok, hsame.frameWants hj hwants] at hdone
  obtain ⟨t, hgot, ⟨-, -, hcar, -⟩, hmem⟩ := frameGot_of_readable (s := v) (i := i) (f := f) (b := b) (cw := cw)
    (by rw [hread.slot, hread.winBase, hread.rangeErr]; exact herr) (by rw [hread.slot, hread.winBase, hread.poisonPart]; exact hpoison)
  have hslot : t.slot i = sl := by rw [State.slot, hcar]; exact congrFun hread.slot i
  obtain ⟨fr, hframe, htag, hgotten, -⟩ := frameMark_spec t i f b cw true
  rw [hslot] at hframe htag hgotten
  have ht : s.codewordDone i cw true retries = t.frameMark i f b cw true := hdone.trans hgot
  refine ⟨_, rfl, ?_, ?_, ?_, ?_, ?_⟩ <;> rw [ht]
  · show (mget {} t.car.channels ch).retries = _
    rw [hcar]
    exact congrArg FlashChannel.retries hread.channel
  · refine hmem.trans ?_
    rw [hread.ms, hread.slot, hread.winBase]
  · rw [hframe]; exact hgotten rfl
  · rw [hframe]; exact htag
  · rw [hframe]; rfl

theorem codewordDone_frame_lost (hon : s.flashOff ((s.slot i).channelOf cw) = false)
    (hlost : readable = false ∨ (s.flashCh ((s.slot i).channelOf cw)).fence ≠ 0) :
    let ch := (s.slot i).channelOf cw
    ∃ t, exec (.codewordReadDone i cw readable retries) s = .next t ∧
      (t.flashCh ch).retries = (s.flashCh ch).retries + BitVec.ofNat 64 (s.triesOf ch readable retries) ∧ t.ms = s.ms ∧
      (∀ x ∈ (s.slot i).objsOf b, cw ∈ x.cws → x.obj ∈ ((t.slot i).frame f).failed) ∧ (t.flashCh ch).ue = (s.flashCh ch).ue + 1 := by
  intro ch
  have hsame := sameSlots_of_streamFor hj hrel hord
  obtain ⟨v, hread, hdone⟩ := codewordDone_of_on hsame hsweep (frame_wanted hj hwants hsame) hon readable retries
  have hok : s.codewordOk i cw readable = false := codewordOk_of_lost hlost
  rw [hok, hsame.frameWants hj hwants] at hdone
  have hch := flashCh_cwLost v i cw
  rw [hread.slot, hread.channel] at hch
  obtain ⟨fr, hframe, -, -, hfailed⟩ := frameMark_spec (v.cwLost i cw) i f b cw false
  have ht : s.codewordDone i cw readable retries = (v.cwLost i cw).frameMark i f b cw false := hdone
  refine ⟨_, rfl, ?_, ?_, fun x hx hcw => ?_, ?_⟩ <;> rw [ht]
  · exact congrArg FlashChannel.retries hch
  · exact hread.ms
  · rw [hframe]
    have hobjs := objsOf_congr ((stream_cwLost v i cw).trans (by rw [hread.slot])) b
    exact hfailed rfl x (hobjs ▸ hx) hcw
  · exact congrArg FlashChannel.ue hch

end

/-! ### On-demand regions (R189, R192) -/

theorem not_mem_dropped (l : List Nat) {dropped : List Nat} {o : Nat} (h : o ∈ dropped) : o ∉ l.filter (fun x => !dropped.contains x) := by
  simp [h]

/-- A region after the last codeword of an object has come, and after one is lost. -/
theorem regionMark_present {s : State} {i cw : Nat} {o : ObjLoc} (ho : o ∈ (s.slot i).allObjs) (hdemand : o.obj ∈ (s.slot i).demand)
    (hcw : cw ∈ o.cws) (hall : ∀ w ∈ o.cws, w = cw ∨ w ∈ (s.slot i).got) :
    let x := (s.regionMark i cw true).slot i
    o.obj ∈ x.present ∧ o.obj ∉ x.demand ∧ o.obj ∉ x.failedObj := by
  have hdone : o.obj ∈ ((((s.slot i).allObjs.filter (fun o => (s.slot i).demand.contains o.obj && o.cws.contains cw)).filter
      (fun o => o.cws.all (cw :: (s.slot i).got).contains)).map ObjLoc.obj) :=
    List.mem_map_of_mem (List.mem_filter.mpr ⟨List.mem_filter.mpr ⟨ho, by simp [hdemand, hcw]⟩, by simpa using hall⟩)
  simp only [State.regionMark, if_true, slot_modSlot_self, List.mem_eraseDups, List.mem_append]
  exact ⟨.inr hdone, not_mem_dropped _ hdone, not_mem_dropped _ hdone⟩

theorem got_regionMark (s : State) (i cw : Nat) : ((s.regionMark i cw true).slot i).got = cw :: (s.slot i).got := by
  simp [State.regionMark]

theorem regionMark_lost {s : State} {i cw : Nat} {x : ObjLoc} (hx : x ∈ (s.slot i).allObjs) (hcw : cw ∈ x.cws) :
    x.obj ∈ ((s.regionMark i cw false).slot i).failedObj ∧ x.obj ∉ ((s.regionMark i cw false).slot i).demand := by
  have hlost : x.obj ∈ ((s.slot i).allObjs.filter (fun o => o.cws.contains cw)).map ObjLoc.obj :=
    List.mem_map_of_mem (List.mem_filter.mpr ⟨hx, by simpa using hcw⟩)
  simp only [State.regionMark, Bool.false_eq_true, if_false, slot_modSlot_self, List.mem_eraseDups, List.mem_append]
  exact ⟨.inr hlost, not_mem_dropped _ hlost⟩

/-- A codeword that demanded objects want: its bytes land in the region. -/
theorem regionGot_of_readable {s : State} {i cw : Nat}
    (hwant : (s.slot i).allObjs.any (fun o => (s.slot i).demand.contains o.obj && o.cws.contains cw) = true) :
    let sl := s.slot i
    let a := s.winBase i + ((sl.cwBytes cw sl.wbBytes sl.dataBytes).1 - sl.wbBytes)
    let bs := (sl.cwBytes cw sl.wbBytes sl.dataBytes).2
    s.rangeErr a bs.length = none → s.poisonPart a bs.length = none →
      ∃ t, s.regionGot i cw true = t.regionMark i cw true ∧ OnlyMemory s t ∧ t.ms.mem = s.ms.mem.writeBytes a bs := by
  intro sl a bs herr hpoison
  obtain ⟨t, hwrite, honly, hmem⟩ := windowWrite_of_readable herr hpoison i
    (sl.allObjs.any (fun o => sl.rewrite.contains o.obj && o.cws.contains cw))
  refine ⟨t, ?_, honly, hmem⟩
  simp only [State.regionGot, hwant]
  rw [hwrite]
  rfl

theorem regionGot_of_unreadable {s : State} {i cw : Nat}
    (hwant : (s.slot i).allObjs.any (fun o => (s.slot i).demand.contains o.obj && o.cws.contains cw) = true) :
    s.regionGot i cw false = s.regionMark i cw false := by
  simp only [State.regionGot, hwant]
  rfl

section
variable {s : State} {i : SlotId} {cw : Nat} {readable : Bool} {retries : Nat} {o : ObjLoc} (hsweep : s.hub.sweeping = false)
  (hwindow : (s.slot i).window = 1) (hregion : s.slotOnDemand i = true) (ho : o ∈ (s.slot i).allObjs)
  (hdemand : o.obj ∈ (s.slot i).demand) (hcw : cw ∈ o.cws)

include hregion in
/-- A slot with a region streams for no job. -/
theorem streamFor_of_region : s.streamFor i = none := by
  rw [← Option.not_isSome_iff_eq_none, Option.isSome_iff_exists]
  rintro ⟨j, hj⟩
  obtain ⟨hframes, -⟩ := window_of_streamFor hj
  exact Bool.false_ne_true (hframes.symm.trans hregion)

include hregion in
theorem released_of_region : s.released i = s := by rw [State.released, streamFor_of_region hregion]

include hregion in
theorem sameSlots_of_region : SameSlots s (s.released i) := by
  rw [released_of_region hregion]
  exact SameSlots.refl s

include hregion in
theorem frameWants_of_region : (s.released i).frameWants i cw = none := by
  rw [released_of_region hregion, State.frameWants, if_neg]
  simp [hregion]

include ho hdemand hcw in
theorem codeword_demanded : (s.slot i).allObjs.any (fun o => (s.slot i).demand.contains o.obj && o.cws.contains cw) = true :=
  List.any_eq_true.mpr ⟨o, ho, by simp [hdemand, hcw]⟩

include hwindow hregion ho hdemand hcw

theorem region_wanted : ((s.released i).regionWants i cw || ((s.released i).frameWants i cw).isSome) = true := by
  rw [released_of_region hregion, State.regionWants, codeword_demanded ho hdemand hcw, hregion, hwindow]
  rfl

include hsweep

theorem codewordDone_region_lands (hon : s.flashOff ((s.slot i).channelOf cw) = false)
    (hfence : (s.flashCh ((s.slot i).channelOf cw)).fence = 0) :
    let sl := s.slot i
    let ch := sl.channelOf cw
    let a := s.winBase i + ((sl.cwBytes cw sl.wbBytes sl.dataBytes).1 - sl.wbBytes)
    let bs := (sl.cwBytes cw sl.wbBytes sl.dataBytes).2
    s.rangeErr a bs.length = none → s.poisonPart a bs.length = none →
      ∃ t, exec (.codewordReadDone i cw true retries) s = .next t ∧
        (t.flashCh ch).retries = (s.flashCh ch).retries + BitVec.ofNat 64 (s.triesOf ch true retries) ∧ t.ms.mem = s.ms.mem.writeBytes a bs ∧
        cw ∈ (t.slot i).got ∧ t.cores = s.cores ∧
        ((∀ w ∈ o.cws, w = cw ∨ w ∈ sl.got) → o.obj ∈ (t.slot i).present ∧ o.obj ∉ (t.slot i).demand ∧ o.obj ∉ (t.slot i).failedObj) := by
  intro sl ch a bs herr hpoison
  have hwant := region_wanted hwindow hregion ho hdemand hcw
  obtain ⟨v, hread, hdone⟩ := codewordDone_of_on (sameSlots_of_region hregion) hsweep hwant hon true retries
  have hok : s.codewordOk i cw true = true := codewordOk_of_unfenced hfence
  rw [hok, frameWants_of_region hregion] at hdone
  have hdemanded := codeword_demanded ho hdemand hcw
  obtain ⟨t, hgot, ⟨-, hcores, hcar, -⟩, hmem⟩ := regionGot_of_readable (s := v) (i := i) (cw := cw) (by rw [hread.slot]; exact hdemanded)
    (by rw [hread.slot, hread.winBase, hread.rangeErr]; exact herr) (by rw [hread.slot, hread.winBase, hread.poisonPart]; exact hpoison)
  have hslot : t.slot i = sl := by rw [State.slot, hcar]; exact congrFun hread.slot i
  have ht : s.codewordDone i cw true retries = t.regionMark i cw true := hdone.trans hgot
  refine ⟨_, rfl, ?_, ?_, ?_, ?_, fun hall => ?_⟩ <;> rw [ht]
  · show (mget {} t.car.channels ch).retries = _
    rw [hcar]
    exact congrArg FlashChannel.retries hread.channel
  · refine hmem.trans ?_
    rw [hread.ms, hread.slot, hread.winBase]
  · rw [got_regionMark]; exact List.mem_cons_self
  · exact hcores.trans hread.cores
  · exact regionMark_present (hslot ▸ ho) (hslot ▸ hdemand) hcw (hslot ▸ hall)

theorem codewordDone_region_lost (hon : s.flashOff ((s.slot i).channelOf cw) = false)
    (hlost : readable = false ∨ (s.flashCh ((s.slot i).channelOf cw)).fence ≠ 0) :
    let ch := (s.slot i).channelOf cw
    ∃ t, exec (.codewordReadDone i cw readable retries) s = .next t ∧
      (t.flashCh ch).retries = (s.flashCh ch).retries + BitVec.ofNat 64 (s.triesOf ch readable retries) ∧ t.ms = s.ms ∧
      (∀ x ∈ (s.slot i).allObjs, cw ∈ x.cws → x.obj ∈ (t.slot i).failedObj ∧ x.obj ∉ (t.slot i).demand) ∧
      (t.flashCh ch).ue = (s.flashCh ch).ue + 1 := by
  intro ch
  have hwant := region_wanted hwindow hregion ho hdemand hcw
  obtain ⟨v, hread, hdone⟩ := codewordDone_of_on (sameSlots_of_region hregion) hsweep hwant hon readable retries
  have hok : s.codewordOk i cw readable = false := codewordOk_of_lost hlost
  rw [hok, frameWants_of_region hregion] at hdone
  have hch := flashCh_cwLost v i cw
  rw [hread.slot, hread.channel] at hch
  have hobjs : ((v.cwLost i cw).slot i).allObjs = (s.slot i).allObjs := allObjs_congr ((stream_cwLost v i cw).trans (by rw [hread.slot]))
  have hdemanded : ((v.cwLost i cw).slot i).allObjs.any
      (fun o => ((v.cwLost i cw).slot i).demand.contains o.obj && o.cws.contains cw) = true := by
    rw [hobjs, demand_cwLost, hread.slot]
    exact codeword_demanded ho hdemand hcw
  have ht : s.codewordDone i cw readable retries = (v.cwLost i cw).regionMark i cw false := hdone.trans (regionGot_of_unreadable hdemanded)
  refine ⟨_, rfl, ?_, ?_, fun x hx hcw => ?_, ?_⟩ <;> rw [ht]
  · exact congrArg FlashChannel.retries hch
  · exact hread.ms
  · exact regionMark_lost (hobjs ▸ hx) hcw
  · exact congrArg FlashChannel.ue hch

end

end Sys2Proof.Machine

/-! PROOFS. ON_DEMAND_FETCH (R189), and the statement of windows and fills. -/

namespace Sys2Proof.Machine

/-! ## ON_DEMAND_FETCH (R189) -/

/-- Whether what a core's waiting instructions read leaves slot i as it is: its region does not stand for the range, or nothing there is
newly demanded. -/
def State.fetchesNone (s : State) (c i : Nat) : Bool :=
  !s.slotOnDemand i || decide ((s.slot i).window ≠ 1) || decide (s.rangeSlot i ≠ i) || (s.newDemand c i).isEmpty

/-- A slot after a fetch. -/
def State.fetched (s : State) (c i : Nat) (x : Slot) : Slot :=
  if s.fetchesNone c i then x else { x with demand := x.demand ++ s.newDemand c i, owner := true }

/-- One slot's part of a fetch. -/
def State.fetchSlot (s : State) (c : Nat) (t : State) (i : Nat) : State :=
  if s.fetchesNone c i then t else t.modSlot i (fun x => { x with demand := x.demand ++ s.newDemand c i, owner := true })

theorem onDemandFetch_eq {s : State} {c : Nat} {job : Job} (h : s.coreJob c = some job) :
    s.onDemandFetch c = (List.range 16).foldl (s.fetchSlot c) s := by
  rw [State.onDemandFetch, h]
  rfl

theorem slot_onDemandFetch {s : State} {c i : Nat} {job : Job} (h : s.coreJob c = some job) (hi : i < 16) :
    (s.onDemandFetch c).slot i = s.fetched c i (s.slot i) := by
  have hself (t : State) (k : Nat) : (s.fetchSlot c t k).slot k = s.fetched c k (t.slot k) := by
    unfold State.fetchSlot State.fetched
    split
    · rfl
    · exact slot_modSlot_self t k _
  have hne (t : State) (k j : Nat) (hj : j ≠ k) : (s.fetchSlot c t k).slot j = t.slot j := by
    unfold State.fetchSlot
    split
    · rfl
    · exact slot_modSlot_ne t _ hj
  rw [onDemandFetch_eq h, slot_foldl hself hne List.nodup_range s i, if_pos (List.mem_range.mpr hi)]

theorem onDemandFetch_rest {s : State} {c : Nat} {job : Job} (h : s.coreJob c = some job) :
    (s.onDemandFetch c).ms = s.ms ∧ (s.onDemandFetch c).cores = s.cores := by
  rw [onDemandFetch_eq h]
  refine List.foldlRecOn (motive := fun t : State => t.ms = s.ms ∧ t.cores = s.cores) _ _ ⟨rfl, rfl⟩ fun t ht i _ => ?_
  unfold State.fetchSlot
  split <;> exact ht

section
variable {s : State} {c i : Nat}

/-- What the slot that stands for a region has after a fetch. -/
theorem fetched_of_region (hregion : s.slotOnDemand i = true) (hwindow : (s.slot i).window = 1) (hrange : s.rangeSlot i = i) (x : Slot) :
    (s.fetched c i x).demand = x.demand ++ s.newDemand c i ∧ (s.fetched c i x).present = x.present ∧ (s.fetched c i x).frames = x.frames := by
  have hnone : s.fetchesNone c i = (s.newDemand c i).isEmpty := by simp [State.fetchesNone, hregion, hwindow, hrange]
  unfold State.fetched
  split
  next hempty =>
    rw [hnone, List.isEmpty_iff] at hempty
    simp [hempty]
  next => exact ⟨rfl, rfl, rfl⟩

/-- An object wanted that is not in the region is demanded, now or before. -/
theorem demanded_of_wanted {e : QEntry} {o n : Nat} (he : e ∈ (s.core c).queue) (hwaits : e.waits = true) (ho : o ∈ s.absentObjs c i e)
    (hn : n ∈ s.withPrefetch i o) (habsent : n ∉ (s.slot i).present) : n ∈ (s.slot i).demand ++ s.newDemand c i := by
  by_cases hdemand : n ∈ (s.slot i).demand
  · exact List.mem_append_left _ hdemand
  · have hwant : n ∈ ((s.core c).queue.filter QEntry.waits).flatMap (fun e => (s.absentObjs c i e).flatMap (s.withPrefetch i)) :=
      List.mem_flatMap_of_mem (List.mem_filter.mpr ⟨he, hwaits⟩) (List.mem_flatMap_of_mem ho hn)
    exact List.mem_append_right _ (List.mem_eraseDups.mpr (List.mem_filter.mpr ⟨hwant, by simp [habsent, hdemand]⟩))

/-- The objects of an MMA's tile that are not in the region are absent to it. -/
theorem mem_absentObjs_of_mma {e : QEntry} {o : ObjLoc} (hfam : e.fam = some .mma)
    (ho : o ∈ (s.slot i).regionObjs (mWAddr e.d - s.winBase i) (mWAddr e.d + tileBytes (mWFmt e.d) - max (mWAddr e.d) (s.winBase i)))
    (hpresent : o.obj ∉ (s.slot i).present) (hfailed : o.obj ∉ (s.slot i).failedObj) : o.obj ∈ s.absentObjs c i e := by
  have hreads : s.deviceReads c e = [(mWAddr e.d, mWAddr e.d + tileBytes (mWFmt e.d))] := by
    simp only [State.deviceReads, hfam]
    exact (if_pos rfl).trans (by rw [show (keptFor .mma e.d).tiles = 1 from rfl, Nat.one_mul])
  rw [State.absentObjs, hreads, List.flatMap_singleton]
  exact List.mem_filter.mpr ⟨List.mem_map_of_mem ho, by simp [hpresent, hfailed]⟩

theorem self_mem_withPrefetch (o : Nat) : o ∈ s.withPrefetch i o := List.mem_cons_self

theorem mem_withPrefetch {o n : Nat} (hlo : o < n) (hhi : n ≤ o + s.dv 0x0901 5) (hn : n < (s.slot i).objectCount) : n ∈ s.withPrefetch i o :=
  List.mem_cons_of_mem _ (List.mem_filter.mpr
    ⟨List.mem_map.mpr ⟨n - o - 1, List.mem_range.mpr (by omega), by omega⟩, decide_eq_true hn⟩)

end

theorem onDemandFetch_demands {c : CoreId} {s : State} {job : Job} {e : QEntry} {i : Nat} (hjob : s.coreJob c = some job)
    (he : e ∈ (s.core c).queue) (hwaits : e.waits = true) (hfam : e.fam = some .mma) (hi : i < 16) (hregion : s.slotOnDemand i = true)
    (hwindow : (s.slot i).window = 1) (hrange : s.rangeSlot i = i) :
    ∃ t, exec (.onDemandFetch c) s = .next t ∧ t.ms = s.ms ∧ t.cores = s.cores ∧
      (∀ o ∈ (s.slot i).regionObjs (mWAddr e.d - s.winBase i)
          (mWAddr e.d + tileBytes (mWFmt e.d) - max (mWAddr e.d) (s.winBase i)),
        o.obj ∉ (s.slot i).present → o.obj ∉ (s.slot i).failedObj → o.obj ∈ (t.slot i).demand ∧
          ∀ n, o.obj < n → n ≤ o.obj + s.dv 0x0901 5 → n < (s.slot i).objectCount → n ∉ (s.slot i).present → n ∈ (t.slot i).demand) ∧
      (t.slot i).present = (s.slot i).present ∧ (t.slot i).frames = (s.slot i).frames := by
  obtain ⟨hms, hcores⟩ := onDemandFetch_rest hjob
  obtain ⟨hdemand, hpresent, hframes⟩ := fetched_of_region (c := c) hregion hwindow hrange (s.slot i)
  rw [← slot_onDemandFetch hjob hi] at hdemand hpresent hframes
  refine ⟨_, rfl, hms, hcores, fun o ho habsent hfailed => ?_, hpresent, hframes⟩
  have hobj := mem_absentObjs_of_mma (c := c) hfam ho habsent hfailed
  rw [hdemand]
  exact ⟨demanded_of_wanted he hwaits hobj (self_mem_withPrefetch _) habsent,
    fun n hlo hhi hn hout => demanded_of_wanted he hwaits hobj (mem_withPrefetch hlo hhi hn) hout⟩

/-! ## The settled statement -/

/-- Settles O39: each command by the lemmas of its cases; a codeword read by whether its flash group is ON and the codeword readable. -/
theorem windowsAndFills : Obligations.WindowsAndFills := by
  unfold Obligations.WindowsAndFills
  refine ⟨fun i u bs s hlo hhi h => ⟨windowConfig_takes hlo hhi h, windowConfig_busy hlo hhi h⟩,
    fun i s j hj hsweep hblocks hrel hord => windowFill_fills hj hsweep hblocks hrel hord, ?codewords,
    fun c s job e i hjob he hwaits hfam hi hregion hwindow hrange => onDemandFetch_demands hjob he hwaits hfam hi hregion hwindow hrange, ?data⟩
  case codewords =>
    intro i cw readable retries s hsweep sl ch fenced tries off
    refine ⟨fun o hwindow hregion ho hdemand hcw => ⟨fun hoff _ => ?_, ?_, ?_⟩, fun j f b hj hrel hord hwants => ⟨fun hoff => ?_, ?_, ?_⟩⟩
    · exact ⟨_, rfl, codewordDone_of_off (sameSlots_of_region hregion) hsweep (region_wanted hwindow hregion ho hdemand hcw) hoff readable retries⟩
    · rintro hon rfl hfence
      exact codewordDone_region_lands hsweep hwindow hregion ho hdemand hcw hon (not_not.mp hfence)
    · exact codewordDone_region_lost hsweep hwindow hregion ho hdemand hcw
    · have hsame := sameSlots_of_streamFor hj hrel hord
      exact ⟨_, rfl, codewordDone_of_off hsame hsweep (frame_wanted hj hwants hsame) hoff readable retries⟩
    · rintro hon rfl hfence
      exact codewordDone_frame_lands hsweep hj hrel hord hwants hon (not_not.mp hfence)
    · exact codewordDone_frame_lost hsweep hj hrel hord hwants
  case data =>
    intro p s f rest hq h hkind x n off i k covers formed
    refine ⟨slotDataRecv_of_part hq hkind, fun hwhole => ⟨fun w hformed hw hstate => ?_, fun hnone => ?_⟩⟩
    · exact slotDataRecv_matched hq hkind hwhole ((dataWrite_of_formed hformed).trans hw) hstate
    · refine slotDataRecv_unmatched hq hkind hwhole ?_
      by_cases hformed : formed
      · exact (dataWrite_of_formed hformed).trans (hnone.resolve_left (not_not.mpr hformed))
      · exact dataWrite_of_malformed hformed

end Sys2Proof.Machine

/-! PROOFS. Attention (R131, R203, R205, R215, R218): what the engine's computation leaves of its core, and how each of its
instructions ends. -/

namespace Sys2Proof.Machine

/-! ## The computation of an attention instruction -/

/-- What an attention instruction's computation w, over that many scratch rows, makes of its core x: the writes are in the store, no
other byte of the store differs, nor one of the accumulators above the scratch rows, and the clamps are counted. -/
def AttnStored (c : Nat) (x : Core) (w : Writes × Nat) (rows : Nat) (s t : State) : Prop :=
  OnlyCore c s t ∧ (t.core c).store = w.1.cs.foldl (fun m p => m.writeBytes p.1 p.2) x.store ∧
  (∀ a, ¬ w.1.hits a → (t.core c).store.read a = x.store.read a) ∧
  (∀ a, rows * 1024 ≤ a → ¬ w.1.hitsAcc a → (t.core c).acc.read a = x.acc.read a) ∧
  t.coreCtr c 11 = s.coreCtr c 11 + BitVec.ofNat 64 w.2

section

variable {c rows : Nat} {x : Core} {w : Writes × Nat} {s t u : State}

/-- A later change that keeps the two stores and the count of clamps keeps what the computation left. -/
theorem AttnStored.then (h : AttnStored c x w rows s t) (honly : OnlyCore c t u) (hstore : (u.core c).store = (t.core c).store)
    (hacc : (u.core c).acc = (t.core c).acc) (hctr : u.coreCtr c 11 = t.coreCtr c 11) : AttnStored c x w rows s u := by
  obtain ⟨honly', hstore', hread', hacc', hctr'⟩ := h
  refine ⟨honly'.trans honly, hstore.trans hstore', fun a ha => ?_, fun a hlo ha => ?_, hctr.trans hctr'⟩
  · rw [hstore]; exact hread' a ha
  · rw [hacc]; exact hacc' a hlo ha

theorem AttnStored.modEntry (h : AttnStored c x w rows s t) (ord : Word) (g : QEntry → QEntry) :
    AttnStored c x w rows s (t.modEntry c ord g) := by
  have hcore := core_modEntry_self t c ord g
  exact h.then (onlyCore_modCore t c _) (congrArg Core.store hcore :) (congrArg Core.acc hcore :)
    (congrArg (fun y : Core => mget 0 y.ctr 11) hcore :)

/-- So the instruction's end keeps it: its entry then waits to retire with OK. -/
theorem AttnStored.finish (h : AttnStored c x w rows s t) (f : Fam) (e : QEntry) :
    AttnStored c x w rows s ((t.countPorts c f).finish c e.ord iOk) ∧
    ∀ q ∈ (((t.countPorts c f).finish c e.ord iOk).core c).queue, q.ord = e.ord → q.phase = .done iOk := by
  obtain ⟨honly, hcore, hctr⟩ := countsOnly_countPorts c t f
  have hcount := h.then honly (congrArg Core.store hcore :) (congrArg Core.acc hcore :) (hctr 11 (by decide))
  exact ⟨hcount.modEntry e.ord _, fun q => phase_of_mem_finish⟩

end

/-- Leaving accumulator rows undefined changes nothing else of the core. -/
theorem forgetAcc_spec (s : State) (c rows : Nat) : OnlyCore c s (s.forgetAcc c rows) ∧
    (s.forgetAcc c rows).core c = { s.core c with acc := (s.core c).acc.forget 0 (rows * 1024) s.draws } :=
  ⟨onlyCore_modCore s.stamp.2 c _, core_modCore_self s.stamp.2 c _⟩

/-- Storing an instruction's writes counts no clamps (R48). -/
theorem coreCtr_applyWrites_clamps (s : State) (c : Nat) (w : Writes) : (s.applyWrites c w).coreCtr c 11 = s.coreCtr c 11 := by
  simp [State.coreCtr, State.applyWrites, State.bumpCore, mget_mmod]

/-- What is written after the scratch rows are forgotten and before the clamps are counted. -/
theorem attnStored_writes (s : State) (c rows : Nat) (w : Writes × Nat) :
    AttnStored c (s.core c) w rows s (((s.forgetAcc c rows).applyWrites c w.1).bumpCore c 11 w.2) := by
  obtain ⟨hforget, hcore⟩ := forgetAcc_spec s c rows
  have hwritten := core_applyWrites (s.forgetAcc c rows) c w.1
  have hbump := core_bumpCore ((s.forgetAcc c rows).applyWrites c w.1) c 11 w.2 c
  rw [hwritten, hcore] at hbump
  refine ⟨hforget.trans ((onlyCore_applyWrites _ c w.1).trans (onlyCore_modCore _ c _)), (congrArg Core.store hbump :), fun a ha => ?_,
    fun a hlo ha => ?_, ?_⟩
  · rw [hbump]; exact read_foldl_writeBytes_out ha _
  · rw [hbump]; exact (read_foldl_writeLE_out ha _).trans (Mem.read_forget _ _ _ _ _ (.inr hlo))
  · rw [coreCtr_bumpCore, coreCtr_applyWrites_clamps]
    exact congrArg (· + BitVec.ofNat 64 w.2) (congrArg (fun x : Core => mget 0 x.ctr 11) hcore :)

theorem attnResult_of_bank {x : Core} {e : QEntry} {b : SfuBank} (hb : x.bank (dBank e.d) = some b) (f : Fam) :
    attnResult f x e = if f = .attnBwd then attnBwdWrites e.d e.its e.clip x.store b else attnWrites e.d e.its e.clip x.store b := by
  simp only [attnResult, hb]

/-- Over a loaded table bank an attention instruction stores the result of its family. -/
theorem attnStored_storeAll {s : State} {c : Nat} {e : QEntry} {b : SfuBank} (hb : (s.core c).bank (dBank e.d) = some b) (f : Fam) :
    AttnStored c (s.core c) (if f = .attnBwd then attnBwdWrites e.d e.its e.clip (s.core c).store b else attnWrites e.d e.its e.clip (s.core c).store b)
      (attnScratch f e.d e.its.length e.clip) s (s.attnStoreAll c f e) := by
  rw [← attnResult_of_bank hb]
  exact attnStored_writes s c _ _

/-! ## How an attention instruction ends -/

theorem runAttn_of_running {s : State} {c : Nat} {f : Fam} {job : Job} {e : QEntry} (h : s.runningOf c f = some (job, e)) :
    s.runAttn c f = ((s.attnStoreAll c f e).countPorts c f).finish c e.ord iOk := by
  simp only [State.runAttn, h]

/-! ## ATTN.RELAY (R218) -/

/-- The checks of a relay's parameter record (R85, R218, R340; log 177). -/
structure RelayRecOk (s : State) (job : Job) (d : Nat) (r : RelayRec) : Prop where
  spare : r.spare = 0
  someUnits : 0 < r.units
  unitsLe : r.units ≤ 2097152
  aligned : r.shard % 2048 = 0
  step : relayStep r.base (BitVec.ofNat 16 (xSeq d)) < relayMembers (s.routeEntry (xGroup d)) (xLevel d)
  region : s.exchRegion (xAddr d) (2048 + 2 * r.units * 2048) = true
  apart : meets (xAddr d) (2048 + 2 * r.units * 2048) r.shard (r.units * 2048) = false
  arrives : (job.syncTarget r.arrive).isSome = true

section
variable {s : State} {c : CoreId} {job : Job} {e : QEntry} {bs : List Byte} (hrun : s.runningOf c .attnRelay = some (job, e))
  (hread : s.memRead (xAddr e.d) 64 = .ok bs)
include hrun hread

theorem runRelay_of_valid (hok : RelayRecOk s job e.d (relayRecOf (leNat bs))) :
    s.runRelay c = (((s.readDone (xAddr e.d) 64).computeRelay c e).countPorts c .attnRelay).finish c e.ord iOk := by
  simp only [State.runRelay, hrun, hread]
  refine if_neg ?_
  have hsome := Option.isNone_eq_false_iff.mpr hok.arrives
  simp [hok.spare, hok.someUnits.ne', hok.unitsLe.not_gt, hok.aligned, hok.step.not_ge, hok.region, hok.apart, hsome]

theorem runRelay_of_noTarget (h : job.syncTarget (relayRecOf (leNat bs)).arrive = none) :
    s.runRelay c = s.coreFault c stIllegal 0 e.ord := by
  simp only [State.runRelay, hrun, hread, h]
  exact if_pos (by simp)

end

/-- The compute part of an ATTN.RELAY that is not done is that of an ATTN.FWD. -/
theorem attnStored_computeRelay {s : State} {c : Nat} {e : QEntry} {b : SfuBank} (hb : (s.core c).bank (dBank e.d) = some b)
    (hnew : e.computed = false) :
    AttnStored c (s.core c) (attnWrites e.d e.its e.clip (s.core c).store b) (e.its.length * ((dSop1 e.d).clip e.clip).rows) s (s.computeRelay c e) := by
  have hrun : s.computeRelay c e = (s.attnStoreAll c .attnRelay e).modEntry c e.ord (fun q => { q with computed := true }) := by
    simp only [State.computeRelay, hnew, Bool.false_eq_true, if_false]
  rw [hrun]
  exact (attnStored_storeAll hb .attnRelay).modEntry e.ord _

/-- Settles O20: the computation of each family is stored over its scratch rows, then counted and ended; a relay's follows the read of a
record that its checks pass. -/
theorem attentionStores : Obligations.AttentionStores := by
  unfold Obligations.AttentionStores
  intro c s job e b hb x fwd bwd leaves
  have hleaves : ∀ w rows s t, AttnStored c x w rows s t ∧ (∀ q ∈ (t.core c).queue, q.ord = e.ord → q.phase = .done iOk) →
      leaves w rows s t := by
    rintro w rows s t ⟨⟨honly, hstore, hread, hacc, hctr⟩, hqueue⟩
    exact ⟨honly, hstore, hread, hacc, hctr, hqueue⟩
  refine ⟨fun hrun => ?forward, fun hrun => ?backward, fun bs hrun hnew hread => ?relay, fun bs hrun hread hnone => ?noTarget⟩
  case forward =>
    exact ⟨_, congrArg Host.Outcome.next (runAttn_of_running hrun), hleaves _ _ _ _ ((attnStored_storeAll hb .attnFwd).finish .attnFwd e)⟩
  case backward =>
    exact ⟨_, congrArg Host.Outcome.next (runAttn_of_running hrun), hleaves _ _ _ _ ((attnStored_storeAll hb .attnBwd).finish .attnBwd e)⟩
  case relay =>
    intro r hspare hpos hle halign hstep hregion hapart harrive
    have hok : RelayRecOk s job e.d r := ⟨hspare, hpos, hle, halign, hstep, hregion, hapart, harrive⟩
    have hcore : (s.readDone (xAddr e.d) 64).core c = s.core c := (readsOnly_readDone s _ _).core c
    have hstored := attnStored_computeRelay (hcore ▸ hb) hnew
    rw [hcore] at hstored
    exact ⟨_, congrArg Host.Outcome.next (runRelay_of_valid hrun hread hok), hleaves _ _ _ _ (hstored.finish .attnRelay e)⟩
  case noTarget =>
    exact congrArg Host.Outcome.next (runRelay_of_noTarget hrun hread hnone)

end Sys2Proof.Machine

/-! PROOFS. Relays (R219, R222, R322), exchange barrier records (R350, R352) and the exchange's stall timer (R354). -/

namespace Sys2Proof.Machine

/-! ## What only puts messages on their way -/

/-- Beside the traffic at the ports and on the die-to-die link, nothing differs. -/
def OnlyTraffic (s t : State) : Prop :=
  t = { s with net := { s.net with ports := t.net.ports, dieIn := t.net.dieIn } }

theorem OnlyTraffic.refl (s : State) : OnlyTraffic s s := rfl

theorem OnlyTraffic.trans {s t u : State} (h : OnlyTraffic s t) (h' : OnlyTraffic t u) : OnlyTraffic s u := by
  unfold OnlyTraffic at *
  rw [h']; generalize u.net.ports = ps; generalize u.net.dieIn = ds; rw [h]

theorem OnlyTraffic.foldl {α : Type} {f : State → α → State} (h : ∀ s a, OnlyTraffic s (f s a)) (l : List α) (s : State) :
    OnlyTraffic s (l.foldl f s) := by
  induction l generalizing s with
  | nil => exact OnlyTraffic.refl s
  | cons a l ih => exact (h s a).trans (ih _)

theorem onlyTraffic_modPort (s : State) (p : Nat) (f : Port → Port) : OnlyTraffic s (s.modPort p f) := rfl

theorem onlyTraffic_sendCtrl (s : State) (p : Nat) (r : BitVec 256) : OnlyTraffic s (s.sendCtrl p r) := by
  rw [sendCtrl_eq]; exact onlyTraffic_modPort s p _

theorem onlyTraffic_exPost (s : State) (e l src dst h : Nat) (bs : List Byte) : OnlyTraffic s (s.exPost e l src dst h bs) := by
  unfold State.exPost
  dsimp only
  split
  · rfl
  · split <;> exact onlyTraffic_modPort s _ _

theorem onlyTraffic_releaseLevel (s : State) (e l chan : Nat) (round : Word) : OnlyTraffic s (s.xReleaseLevel e l chan round) := by
  unfold State.xReleaseLevel
  split
  · exact OnlyTraffic.refl s
  · dsimp only
    split
    · exact OnlyTraffic.foldl (fun _ _ => onlyTraffic_sendCtrl _ _ _) _ s
    · have hfirst : OnlyTraffic s (if 3 ≤ rtSize e l then s.sendCtrl (ringPorts l).1 (xrecord chan 1 l (rtTag e) round) else s) := by
        split
        · exact onlyTraffic_sendCtrl s _ _
        · exact OnlyTraffic.refl s
      split
      · exact hfirst.trans (onlyTraffic_sendCtrl _ _ _)
      · exact hfirst

/-! ## A relay's forward (R219, R222) -/

/-- Retiring an operation keeps the relays and their counts. -/
theorem Net.retireOp_relays (n : Net) (tag : Word) (xseq : Half) : (n.retireOp tag xseq).relayForwards = n.relayForwards ∧
    (n.retireOp tag xseq).relayBlock = n.relayBlock ∧ (n.retireOp tag xseq).relays = n.relays := by
  unfold Net.retireOp
  dsimp only
  split
  · exact ⟨rfl, rfl, rfl⟩
  · split <;> exact ⟨rfl, rfl, rfl⟩

/-- Where step k of a relay reads its shard: the first step the local one, a later step the one that landed before (R219). -/
def Relay.source (r : Relay) (k : Nat) : Nat := if k = 0 then r.shard else relaySlot r.xaddr r.units (k - 1)

/-- The shard's blocks put on their way to the successor. -/
def State.postShard (s : State) (group : Nat) (step : Half) (blockLog : Nat) (r : Relay) (bs : List Byte) : State :=
  (cut (2 ^ blockLog) 0 bs).foldl (fun t m => t.exPost (s.routeEntry group) r.level r.rank ((r.rank + 1) % r.n)
    (exHeader r.tag (r.base + step) r.rank ((r.rank + 1) % r.n) r.n r.level 4 m.1 m.2.length 0x0A) m.2)
    (s.readDone (r.source step.toNat) (r.units * 2048))

theorem onlyTraffic_postShard (s : State) (group : Nat) (step : Half) (blockLog : Nat) (r : Relay) (bs : List Byte) :
    OnlyTraffic (s.readDone (r.source step.toNat) (r.units * 2048)) (s.postShard group step blockLog r bs) :=
  OnlyTraffic.foldl (fun _ _ => onlyTraffic_exPost _ _ _ _ _ _ _) _ _

/-- The network once a relay's step has forwarded: the step marked, the forward counted, its block size recorded. -/
def Net.forwarded (n : Net) (step : Half) (blockLog : Nat) (r : Relay) : Net :=
  ({ n with
    relayForwards := n.relayForwards + 1, relayBlock := 2 ^ blockLog
    relays := n.relays.map (fun x =>
      if x.group = r.group ∧ x.xaddr = r.xaddr then { x with forwarded := x.forwarded ++ [step.toNat] } else x) } : Net).retireOp
        r.tag (r.base + step)

theorem Net.forwarded_spec (n : Net) (step : Half) (blockLog : Nat) (r : Relay) :
    (n.forwarded step blockLog r).relayForwards = n.relayForwards + 1 ∧ (n.forwarded step blockLog r).relayBlock = 2 ^ blockLog ∧
    ∀ r' ∈ (n.forwarded step blockLog r).relays, r'.group = r.group → r'.xaddr = r.xaddr → step.toNat ∈ r'.forwarded := by
  obtain ⟨hcount, hblock, hrelays⟩ := Net.retireOp_relays { n with
    relayForwards := n.relayForwards + 1, relayBlock := 2 ^ blockLog
    relays := n.relays.map (fun x =>
      if x.group = r.group ∧ x.xaddr = r.xaddr then { x with forwarded := x.forwarded ++ [step.toNat] } else x) } r.tag (r.base + step)
  refine ⟨hcount, hblock, fun r' hr' hgroup hxaddr => ?_⟩
  rw [Net.forwarded, hrelays] at hr'
  obtain ⟨x, -, rfl⟩ := List.mem_map.mp hr'
  by_cases hx : x.group = r.group ∧ x.xaddr = r.xaddr
  · rw [if_pos hx]; exact List.mem_append_right _ List.mem_cons_self
  · rw [if_neg hx] at hgroup hxaddr; exact absurd ⟨hgroup, hxaddr⟩ hx

/-- A relay's step forwarded: its blocks on their way, the block size kept in the profile (R417), and the network's record of it. -/
def State.relaySent (s : State) (group : Nat) (step : Half) (blockLog : Nat) (r : Relay) (bs : List Byte) : State :=
  ((s.postShard group step blockLog r bs).withPwr
    (fun w => { w with profile := { w.profile with relayLog := mset w.profile.relayLog group blockLog } })).withNet
      (fun n => n.forwarded step blockLog r)

theorem relaySent_spec (s : State) (group : Nat) (step : Half) (blockLog : Nat) (r : Relay) (bs : List Byte) :
    let t := s.relaySent group step blockLog r bs
    t.net.relayForwards = s.net.relayForwards + 1 ∧ t.net.relayBlock = 2 ^ blockLog ∧
    t.ms = (s.readDone (r.source step.toNat) (r.units * 2048)).ms ∧
    ∀ r' ∈ t.net.relays, r'.group = r.group → r'.xaddr = r.xaddr → step.toNat ∈ r'.forwarded := by
  intro t
  obtain ⟨⟨-, -, -, hnet, -⟩, -⟩ := readDone_keeps s (r.source step.toNat) (r.units * 2048)
  have hpost := onlyTraffic_postShard s group step blockLog r bs
  obtain ⟨hcount, hblock, hrelays⟩ := Net.forwarded_spec (s.postShard group step blockLog r bs).net step blockLog r
  have hforwards : (s.postShard group step blockLog r bs).net.relayForwards = s.net.relayForwards := by rw [hpost, hnet]
  exact ⟨hcount.trans (by rw [hforwards]), hblock, (congrArg State.ms hpost :), hrelays⟩

section

variable {s : State} {group : Nat} {step : Half} {r : Relay}
  (hfind : s.net.relays.find? (fun r => decide (r.group = group) && r.begun.contains step.toNat && !r.forwarded.contains step.toNat) = some r)
include hfind

theorem relayForward_waits (fits : Nat) (h0 : step.toNat ≠ 0) (hland : mget 0 r.landed (step.toNat - 1) < r.units * 2048) :
    s.relayForward group step fits = s := by
  simp only [State.relayForward, hfind]
  exact if_pos (.inr ⟨h0, hland⟩)

theorem relayForward_sends (fits : Nat) {bs : List Byte} (hn : step.toNat + 1 < r.n)
    (hland : step.toNat ≠ 0 → r.units * 2048 ≤ mget 0 r.landed (step.toNat - 1))
    (hport : s.portCheck (rtPortTo (s.routeEntry group) r.level r.rank ((r.rank + 1) % r.n)) true = none)
    (hread : s.memRead (r.source step.toNat) (r.units * 2048) = .ok bs) :
    s.relayForward group step fits =
      s.relaySent group step (s.relayBlockLog group fits) r bs := by
  have hgo : ¬ (r.n ≤ step.toNat + 1 ∨ step.toNat ≠ 0 ∧ mget 0 r.landed (step.toNat - 1) < r.units * 2048) := by
    rintro (h | ⟨h0, h⟩)
    · omega
    · have := hland h0
      omega
  unfold Relay.source at hread
  simp only [State.relayForward, hfind, if_neg hgo, hport, hread]
  rfl

end

/-! ## Barrier records taken at a port (R350) -/

/-- The port without the record that is taken. -/
def State.ctrlTaken (s : State) (p : Nat) (rest : List (BitVec 256)) : State := s.modPort p (fun y => { y with ctrlIn := rest })

theorem port_ctrlTaken (s : State) (p q : Nat) (rest : List (BitVec 256)) :
    (s.ctrlTaken p rest).port q = if q = p then { s.port p with ctrlIn := rest } else s.port q := port_modPort ..

/-- Whether a RELEASE of a level that came by port p has ranks to reach further round the ring (R350, R353). -/
def releaseGoesOn (e l p : Nat) : Bool :=
  if l < 2 then false
  else if p = (ringPorts l).2 then decide (rtRank e l 0 + 1 ≤ (rtSize e l - 1) / 2)
  else decide ((rtSize e l - 1) / 2 < rtRank e l 0 - 1)

theorem releaseGoesOn_iff (e l p : Nat) : releaseGoesOn e l p = true ↔
    2 ≤ l ∧ (if p = (ringPorts l).2 then rtRank e l 0 + 1 ≤ (rtSize e l - 1) / 2 else (rtSize e l - 1) / 2 < rtRank e l 0 - 1) := by
  unfold releaseGoesOn
  by_cases hl : l < 2
  · simp [hl]
  · rw [if_neg hl]
    split <;> simp [Nat.not_lt.mp hl]

/-- A RELEASE taken at a port, and passed on where it has ranks to reach. -/
def State.releaseTaken (s : State) (p : Nat) (r : BitVec 256) (rest : List (BitVec 256)) (e : Nat) : State :=
  if releaseGoesOn e (xrecOf r p).level p then (s.ctrlTaken p rest).sendCtrl (throughPort p) r else s.ctrlTaken p rest

section

variable {s : State} {p g : Nat} {r : BitVec 256} {rest : List (BitVec 256)} (hg : s.groupOfTag (xrecOf r p).tag = some g)
include hg

/-- Rank 0 of its level passes no ARRIVE on. -/
theorem xTake_arrive (htake : takeBarrier 0 (s.port p).ctrlIn = some (r, rest))
    (h0 : rtRank (s.routeEntry g) (xrecOf r p).level 0 = 0) :
    s.xTake p 0 = some (xrecOf r p, s.routeEntry g, s.ctrlTaken p rest) := by
  have hgroup : (s.ctrlTaken p rest).groupOfTag (xrecOf r p).tag = some g := hg
  have hentry : (s.ctrlTaken p rest).routeEntry g = s.routeEntry g := rfl
  unfold State.ctrlTaken at hgroup hentry
  simp [State.xTake, htake, hgroup, hentry, h0, State.ctrlTaken]

theorem xTake_release (htake : takeBarrier 1 (s.port p).ctrlIn = some (r, rest)) :
    s.xTake p 1 = some (xrecOf r p, s.routeEntry g, s.releaseTaken p r rest (s.routeEntry g)) := by
  have hgroup : (s.ctrlTaken p rest).groupOfTag (xrecOf r p).tag = some g := hg
  have hentry : (s.ctrlTaken p rest).routeEntry g = s.routeEntry g := rfl
  unfold State.ctrlTaken at hgroup hentry
  simp only [State.xTake, htake, hgroup, hentry, State.releaseTaken, releaseGoesOn, State.ctrlTaken]
  rfl

theorem xTake_abort (htake : takeBarrier 2 (s.port p).ctrlIn = some (r, rest)) :
    s.xTake p 2 = some (xrecOf r p, s.routeEntry g, s.ctrlTaken p rest) := by
  have hgroup : (s.ctrlTaken p rest).groupOfTag (xrecOf r p).tag = some g := hg
  have hentry : (s.ctrlTaken p rest).routeEntry g = s.routeEntry g := rfl
  unfold State.ctrlTaken at hgroup hentry
  simp [State.xTake, htake, hgroup, hentry, State.ctrlTaken]

end

/-! ## What a RELEASE that is taken leaves -/

theorem OnlyTraffic.boundJob {s t : State} (h : OnlyTraffic s t) (tag : Word) (chan : Nat) : t.boundJob tag chan = s.boundJob tag chan := by
  rw [h]; rfl

theorem onlyTraffic_releaseTaken (s : State) (p : Nat) (r : BitVec 256) (rest : List (BitVec 256)) (e : Nat) :
    OnlyTraffic s (s.releaseTaken p r rest e) := by
  unfold State.releaseTaken
  split
  · exact (onlyTraffic_modPort s p _).trans (onlyTraffic_sendCtrl _ _ _)
  · exact onlyTraffic_modPort s p _

/-- Taking a record keeps all of a port but what has come in. -/
theorem ctrlTaken_keeps (s : State) (p q : Nat) (rest : List (BitVec 256)) :
    (s.ctrlTaken p rest).port q = { s.port q with ctrlIn := ((s.ctrlTaken p rest).port q).ctrlIn } := by
  rw [port_ctrlTaken]
  split
  · next h => rw [h]
  · rfl

theorem ctrlIn_sendCtrl (s : State) (p q : Nat) (r : BitVec 256) : ((s.sendCtrl p r).port q).ctrlIn = (s.port q).ctrlIn := by
  rw [sendCtrl_eq, port_modPort]
  split
  · next h => rw [h]; split <;> rfl
  · rfl

theorem ctrlOut_sendCtrl_of_held {s : State} {p : Nat} (h : ¬ ((s.port p).state = .up ∨ (s.port p).state = .draining)) (r : BitVec 256) :
    ((s.sendCtrl p r).port p).ctrlOut = (s.port p).ctrlOut := by
  rw [sendCtrl_eq, port_modPort, if_pos rfl, if_neg h]

section

variable (s : State) (p : Nat) (r : BitVec 256) (rest : List (BitVec 256)) (e : Nat)

theorem ctrlIn_releaseTaken : ((s.releaseTaken p r rest e).port p).ctrlIn = rest := by
  have htaken : ((s.ctrlTaken p rest).port p).ctrlIn = rest := by rw [port_ctrlTaken, if_pos rfl]
  unfold State.releaseTaken
  split
  · exact (ctrlIn_sendCtrl _ _ _ _).trans htaken
  · exact htaken

/-- The port further round takes a RELEASE that goes on, to send or to keep until it is UP (R350, log 222). -/
theorem throughPort_releaseTaken :
    let goes := releaseGoesOn e (xrecOf r p).level p = true
    let sends := (s.port (throughPort p)).state = .up ∨ (s.port (throughPort p)).state = .draining
    let x := s.port (throughPort p)
    let y := (s.releaseTaken p r rest e).port (throughPort p)
    (sends ∧ goes → y.ctrlOut = x.ctrlOut ++ [r]) ∧ (¬ (sends ∧ goes) → y.ctrlOut = x.ctrlOut) ∧
    (goes → ¬ sends → y.ctrlHeld = x.ctrlHeld ++ [r]) := by
  intro goes sends x y
  have htaken := ctrlTaken_keeps s p (throughPort p) rest
  have hstate : ((s.ctrlTaken p rest).port (throughPort p)).state = x.state := (congrArg Port.state htaken :)
  have hout : ((s.ctrlTaken p rest).port (throughPort p)).ctrlOut = x.ctrlOut := (congrArg Port.ctrlOut htaken :)
  have hheld : ((s.ctrlTaken p rest).port (throughPort p)).ctrlHeld = x.ctrlHeld := (congrArg Port.ctrlHeld htaken :)
  obtain ⟨hsend, hkeep⟩ := port_sendCtrl (s.ctrlTaken p rest) (throughPort p) r
  have hstay := ctrlOut_sendCtrl_of_held (s := s.ctrlTaken p rest) (p := throughPort p) (r := r)
  rw [hstate] at hsend hkeep hstay
  rw [hout] at hsend hstay
  rw [hheld] at hkeep
  by_cases hgoes : goes
  · have hy : y = ((s.ctrlTaken p rest).sendCtrl (throughPort p) r).port (throughPort p) := congrArg (State.port · _) (if_pos hgoes)
    rw [hy]
    exact ⟨fun h => hsend h.1, fun h => hstay fun hs => h ⟨hs, hgoes⟩, fun _ => hkeep⟩
  · have hy : y = (s.ctrlTaken p rest).port (throughPort p) := congrArg (State.port · _) (if_neg hgoes)
    rw [hy]
    exact ⟨fun h => absurd h.2 hgoes, fun _ => hout, fun h => absurd h hgoes⟩

end

/-! ## Barrier records -/

/-- A record held for its round (R350). -/
def State.holdRecord (s : State) (x : XRecord) : State := s.withNet (fun n => { n with xheld := n.xheld ++ [x] })

/-- A release counts its round, and the job's channel is released; what waits at the ports stays in front. -/
theorem xRelease_spec (s : State) (job : JobId) (chan e top : Nat) (round : Word) :
    let t := s.xRelease job chan e top round
    t.net.xbarRounds = s.net.xbarRounds + 1 ∧ t.ms = s.ms ∧ (∀ p, ∃ more, (t.port p).ctrlOut = (s.port p).ctrlOut ++ more) ∧
    ∀ j, t.job? job = some j → ∀ b, j.barrier? chan = some b → b.xreleased = true := by
  intro t
  obtain ⟨hstep, hports, -⟩ := exchangeStep_release job chan e top round s
  have hsends : OnlyTraffic s (((List.range (top + 1)).reverse.filter (fun l => decide (1 ≤ l ∧ 1 < rtSize e l))).foldl
      (fun t l => t.xReleaseLevel e l chan round) s) := OnlyTraffic.foldl (fun _ _ => onlyTraffic_releaseLevel _ _ _ _ _) _ s
  refine ⟨(congrArg (fun u : State => u.net.xbarRounds + 1) hsends :), (congrArg State.ms hstep :), fun p => (hports p).2.1,
    fun j hj b hb => ?_⟩
  obtain ⟨j', hj', rfl⟩ := Option.map_eq_some_iff.mp ((job?_modJob _ job job
    (fun j => { j with barriers := j.barriers.map (fun b => if b.chan = chan then { b with xreleased := true } else b) }) fun _ => rfl).symm.trans hj)
  rw [if_pos (job?_some _ hj').2] at hb
  obtain ⟨b', -, hb'⟩ := List.mem_map.mp (List.mem_of_find?_eq_some hb)
  have hchan := barrier?_chan hb
  split at hb' <;> subst hb'
  · rfl
  · next hne => exact absurd hchan hne

section

variable {s : State} {p g : Nat} {r : BitVec 256} {rest : List (BitVec 256)} (hg : s.groupOfTag (xrecOf r p).tag = some g)
include hg

theorem xbarArrive_holds (htake : takeBarrier 0 (s.port p).ctrlIn = some (r, rest))
    (h0 : rtRank (s.routeEntry g) (xrecOf r p).level 0 = 0) (hunbound : s.boundJob (xrecOf r p).tag (xrecOf r p).chan = none) :
    s.xbarArrive p = (s.ctrlTaken p rest).holdRecord (xrecOf r p) := by
  have hheld : ((s.ctrlTaken p rest).holdRecord (xrecOf r p)).boundJob (xrecOf r p).tag (xrecOf r p).chan = none := hunbound
  unfold State.holdRecord at hheld
  simp only [State.xbarArrive, xTake_arrive hg htake h0, h0, ne_eq, not_true_eq_false, if_false, hheld]
  rfl

variable (htake : takeBarrier 1 (s.port p).ctrlIn = some (r, rest))
include htake

theorem xbarRelease_releases {j : JobId} {b : Barrier} {g' top : Nat}
    (hbound : s.boundJob (xrecOf r p).tag (xrecOf r p).chan = some (j, b, g', top)) (hsent : b.xsent = true) (hrel : b.xreleased = false)
    (hround : (xrecOf r p).round = b.xround + 1) :
    s.xbarRelease p = (s.releaseTaken p r rest (s.routeEntry g)).xRelease j (xrecOf r p).chan (s.routeEntry g) (xrecOf r p).level
      (xrecOf r p).round := by
  have hbound' := ((onlyTraffic_releaseTaken s p r rest (s.routeEntry g)).boundJob _ _).trans hbound
  simp [State.xbarRelease, xTake_release hg htake, hbound', hsent, hrel, hround]

theorem xbarRelease_holds (hother : ∀ j b g' top, s.boundJob (xrecOf r p).tag (xrecOf r p).chan = some (j, b, g', top) →
      (xrecOf r p).round ≠ b.xround + 1) :
    s.xbarRelease p = (s.releaseTaken p r rest (s.routeEntry g)).holdRecord (xrecOf r p) := by
  have hsame := (onlyTraffic_releaseTaken s p r rest (s.routeEntry g)).boundJob (xrecOf r p).tag (xrecOf r p).chan
  cases hbound : s.boundJob (xrecOf r p).tag (xrecOf r p).chan with
  | none => simp [State.xbarRelease, xTake_release hg htake, hsame, hbound, State.holdRecord]
  | some x =>
    obtain ⟨j, b, g', top⟩ := x
    have hoff : (b.xsent && !b.xreleased && decide ((xrecOf r p).round = b.xround + 1)) = false := by
      rw [decide_eq_false (hother j b g' top hbound), Bool.and_false]
    simp only [State.xbarRelease, xTake_release hg htake, hsame, hbound, hoff, Bool.false_eq_true, if_false, State.holdRecord]

end

/-! ## ABORT records (R352) -/

/-- The groups that were ABORTED are, and no more ABORT records have come. -/
def KeepsAborts (s t : State) : Prop :=
  t.net.abortsReceived = s.net.abortsReceived ∧ ∀ g, (s.group g).aborted = true → (t.group g).aborted = true

theorem KeepsAborts.refl (s : State) : KeepsAborts s s := ⟨rfl, fun _ h => h⟩

theorem KeepsAborts.trans {s t u : State} (h : KeepsAborts s t) (h' : KeepsAborts t u) : KeepsAborts s u :=
  ⟨h'.1.trans h.1, fun g hg => h'.2 g (h.2 g hg)⟩

theorem abortGroup_spec (s : State) (g : Nat) (st : Byte) : KeepsAborts s (s.abortGroup g st) ∧ ((s.abortGroup g st).group g).aborted = true := by
  have hnet : (s.abortGroup g st).net = (s.modGroup g (fun x => { x with aborted := true })).net := by
    unfold State.abortGroup
    dsimp only
    split
    · obtain ⟨-, -, -, -, hnet, -⟩ := jobFault_rest (s.modGroup g (fun x => { x with aborted := true })) (some _) { status := st }
      exact hnet
    · rfl
  have hgroup (h : Nat) : (s.abortGroup g st).group h = if h = g then { s.group g with aborted := true } else s.group h := by
    rw [State.group, hnet]; exact group_modGroup s g h _
  refine ⟨⟨by rw [hnet]; rfl, fun h hh => ?_⟩, by rw [hgroup, if_pos rfl]⟩
  rw [hgroup]
  split
  · rfl
  · exact hh

/-- A group that is not ABORTED yet is given up. -/
def State.abortOnce (s : State) (g : Nat) : State := if (s.group g).aborted then s else s.abortGroup g stPeerLost

theorem abortOnce_spec (s : State) (g : Nat) : KeepsAborts s (s.abortOnce g) ∧ ((s.abortOnce g).group g).aborted = true := by
  unfold State.abortOnce
  split
  · next h => exact ⟨KeepsAborts.refl s, h⟩
  · exact abortGroup_spec s g stPeerLost

theorem foldl_abortOnce_spec (l : List Nat) (s : State) : KeepsAborts s (l.foldl State.abortOnce s) ∧
    ∀ g ∈ l, ((l.foldl State.abortOnce s).group g).aborted = true := by
  induction l generalizing s with
  | nil => exact ⟨KeepsAborts.refl s, fun _ h => nomatch h⟩
  | cons a l ih =>
    obtain ⟨hkeeps, hdone⟩ := abortOnce_spec s a
    obtain ⟨hkeeps', hdone'⟩ := ih (s.abortOnce a)
    refine ⟨hkeeps.trans hkeeps', fun g hg => ?_⟩
    rcases List.mem_cons.mp hg with rfl | hg
    · exact hkeeps'.2 _ hdone
    · exact hdone' g hg

/-- The valid groups of a tag. -/
def State.groupsOfTag (s : State) (tag : Word) : List Nat :=
  (List.range 256).filter (fun g => rtValid (s.routeEntry g) && decide (rtTag (s.routeEntry g) = tag))

theorem mem_groupsOfTag {s : State} {tag : Word} {g : Nat} (h : s.groupOfTag tag = some g) : g ∈ s.groupsOfTag tag := by
  have hfound := List.find?_some h
  simp only [Bool.and_eq_true] at hfound
  exact List.mem_filter.mpr ⟨List.mem_of_find?_eq_some h, Bool.and_eq_true_iff.mpr hfound.1⟩

/-- An ABORT record taken at a port and counted. -/
def State.abortTaken (s : State) (p : Nat) (rest : List (BitVec 256)) : State :=
  (s.ctrlTaken p rest).withNet (fun n => { n with abortsReceived := n.abortsReceived + 1 })

theorem xbarAbort_of_taken {s : State} {p g : Nat} {r : BitVec 256} {rest : List (BitVec 256)}
    (htake : takeBarrier 2 (s.port p).ctrlIn = some (r, rest)) (hg : s.groupOfTag (xrecOf r p).tag = some g) :
    s.xbarAbort p = (s.groupsOfTag (xrecOf r p).tag).foldl State.abortOnce (s.abortTaken p rest) := by
  simp only [State.xbarAbort, xTake_abort hg htake]
  rfl

theorem xbarAbort_aborts {s : State} {p g : Nat} {r : BitVec 256} {rest : List (BitVec 256)}
    (htake : takeBarrier 2 (s.port p).ctrlIn = some (r, rest)) (hg : s.groupOfTag (xrecOf r p).tag = some g) :
    (s.xbarAbort p).net.abortsReceived = s.net.abortsReceived + 1 ∧ ((s.xbarAbort p).group g).aborted = true := by
  obtain ⟨⟨hcount, -⟩, hdone⟩ := foldl_abortOnce_spec (s.groupsOfTag (xrecOf r p).tag) (s.abortTaken p rest)
  rw [xbarAbort_of_taken htake hg]
  exact ⟨hcount, hdone g (mem_groupsOfTag hg)⟩

/-! ## EXCH_STALL_TIMER (R354) -/

theorem exchStall_of_open {s : State} {d : Nat} {tag : Word} {xseq : Half}
    (h : ∃ o ∈ s.net.ops, o.die = d ∧ o.tag = tag ∧ o.xseq = xseq ∧ o.finished = false) :
    s.exchStall d tag xseq = s.logNote 0 0xFF (BitVec.ofNat 128 (tag.toNat + xseq.toNat * 2 ^ 32 + d * 2 ^ 48)) := by
  obtain ⟨o, ho, hdie, htag, hxseq, hopen⟩ := h
  refine if_pos (Bool.or_eq_true_iff.mpr (.inl (List.any_eq_true.mpr ⟨o, ho, ?_⟩)))
  simp [hdie, htag, hxseq, hopen]

/-- Settles O30: a relay's step by what it waits for and what it sends; each barrier record by what is taken at its port and the round its
channel is at; an ABORT by the groups of its tag. -/
theorem relaysAndBarrierRecords : Obligations.RelaysAndBarrierRecords := by
  unfold Obligations.RelaysAndBarrierRecords
  refine ⟨?relay, ?arrive, ?release, ?abort, ?stall⟩
  case relay =>
    intro group step b s r hfind hn landed
    refine ⟨fun hwait => ?waits, fun bs hland hport => ?sends⟩
    case waits =>
      obtain ⟨hstep, hshort⟩ := Classical.not_imp.mp hwait
      have h0 : step.toNat ≠ 0 := fun h => hstep (BitVec.eq_of_toNat_eq h)
      exact congrArg Host.Outcome.next (relayForward_waits hfind b h0 (Nat.lt_of_not_le hshort))
    case sends =>
      intro src want hread
      have hland' : step.toNat ≠ 0 → r.units * 2048 ≤ mget 0 r.landed (step.toNat - 1) := fun h => hland fun h0 => h (congrArg BitVec.toNat h0)
      obtain ⟨hcount, hblock, hms, hmarked⟩ := relaySent_spec s group.toNat step (s.relayBlockLog group.toNat b) r bs
      exact ⟨_, congrArg Host.Outcome.next (relayForward_sends hfind b hn hland' hport hread), hcount, hblock, hms,
        (congrArg MemSys.mem hms).trans (readsOnly_readDone s _ _).2, hmarked⟩
  case arrive =>
    intro p s r rest g htake hg h0 hunbound
    exact ⟨_, congrArg Host.Outcome.next (xbarArrive_holds hg htake h0 hunbound),
      (congrArg Port.ctrlIn ((port_ctrlTaken s p p rest).trans (if_pos rfl)) :), rfl, rfl⟩
  case release =>
    intro p s r rest g htake hg l me half goes sends on sent
    have hgoes := releaseGoesOn_iff (s.routeEntry g) l p
    have htaken := onlyTraffic_releaseTaken s p r rest (s.routeEntry g)
    obtain ⟨hout, hstay, hheld⟩ := throughPort_releaseTaken s p r rest (s.routeEntry g)
    refine ⟨fun j b top hbound hsent hrel hround => ?_, fun hother => ?_⟩
    · obtain ⟨hcount, hms, hports, hreleased⟩ :=
        xRelease_spec (s.releaseTaken p r rest (s.routeEntry g)) j (xrecOf r p).chan (s.routeEntry g) l (xrecOf r p).round
      refine ⟨_, congrArg Host.Outcome.next (xbarRelease_releases hg htake hbound hsent hrel hround), ?_, ?_, fun hon => ?_, hreleased⟩
      · rw [hcount, htaken]
      · rw [hms, htaken]
      · obtain ⟨more, hmore⟩ := hports (throughPort p)
        exact ⟨more, by rw [hmore, hout ⟨hon.1, hgoes.mpr hon.2⟩, List.append_assoc]; rfl⟩
    · refine ⟨_, congrArg Host.Outcome.next (xbarRelease_holds hg htake hother), ctrlIn_releaseTaken s p r rest _, ?_,
        fun hon => hout ⟨hon.1, hgoes.mpr hon.2⟩, fun hoff => hstay fun h => hoff ⟨h.1, hgoes.mp h.2⟩, fun h => hheld (hgoes.mpr h), ?_, ?_⟩
      · exact (congrArg (fun u : State => u.net.xheld ++ [xrecOf r p]) htaken :)
      · exact (congrArg State.hub htaken :)
      · exact (congrArg State.ms htaken :)
  case abort =>
    intro p s r rest g htake hg
    exact ⟨_, rfl, xbarAbort_aborts htake hg⟩
  case stall =>
    intro d tag xseq s hopen
    exact ⟨_, congrArg Host.Outcome.next (exchStall_of_open hopen), rfl, rfl, rfl⟩

end Sys2Proof.Machine

/-! PROOFS. VACANCY_TIMEOUT (R244, R246): a parked stream ends, and the write that mirrors its record in the stream table may itself meet
the error that fences a stack (R161) and starts a sweep. -/

namespace Sys2Proof.Machine

/-- `markedTable` where stream 6 has a directory, whose bytes can all be read, and is parked: its one group has one room in its round, whose
entry is EMPTY, and no other stream waits in any vacancy list. RSTATE reads PARKED, and PARKS is 1. -/
def parkedMarked : State :=
  { markedTable with
    ms := { markedTable.ms with
      mem := { cells := [(98304, 1), (98306, 2), (98308, 1), (98376, 1), (98380, 128)] }
      vacancy := [(0, { parked := [(6, 0, 0)] })] } }

theorem parkedMarked_parked : parkedMarked.isParked 6 = true := by decide +kernel

theorem parkedMarked_held : (parkedMarked.stream 6).sstate = .held := by decide +kernel

theorem parkedMarked_alone {k : Nat} (h : k ≠ 6) : parkedMarked.isParked k = false := by
  simp [State.isParked, parkedMarked, h.symm]

theorem parkedMarked_clear :
    ∀ r ∈ parkedMarked.dirRanges 6, parkedMarked.rangeErr r.1 r.2 = none ∧ parkedMarked.poisonIn r.1 r.2 = none := by decide +kernel

/-- The mirror of the ended stream meets the marked granule, the sixteenth error fences the stack, and a sweep starts. -/
theorem parkedMarked_sweeps : (parkedMarked.vacancyTimeout 6).hub.sweeping = true := by decide +kernel

/-- Refutes O41: a parked stream whose directory can be read, the only one that waits, times out, and the write that mirrors its record in
the stream table meets a marked granule as the stack's last error before its threshold, which starts a sweep. -/
theorem not_roomPinsAndTimeouts : ¬ Obligations.RoomPinsAndTimeouts := by
  unfold Obligations.RoomPinsAndTimeouts
  rintro ⟨-, -, htimeout⟩
  obtain ⟨hends, -⟩ := (htimeout 6 parkedMarked).1 parkedMarked_parked rfl parkedMarked_held
  obtain ⟨t, ht, -, -, -, hquiet⟩ := hends fun _ r hr => ⟨_, memRead_of_clear (parkedMarked_clear r hr)⟩
  have heq : parkedMarked.vacancyTimeout 6 = t := Host.Outcome.next.inj ht
  have hsweeps := parkedMarked_sweeps
  rw [heq, hquiet fun k hk => parkedMarked_alone hk] at hsweeps
  exact Bool.false_ne_true hsweeps

end Sys2Proof.Machine

/-! PROOFS. What an access of stacked memory may touch, whether it succeeds or fails (R147, R149, R157, R161, R169), and the writes of
directories (R229) that succeed. -/

namespace Sys2Proof.Machine

/-! ## What an access may touch -/

/-- The state without what an access of stacked memory may touch: the bytes, marks, stacks and back-invalidations of stacked memory, the
porter's counts and log, what has left the module, the sweep that a fault starts, and the windows that a fence loses. -/
def State.sansAccess (s : State) : State :=
  { s with
    out := []
    ms := { s.ms with
      mem := {}, poison := [], flips := [], parity := [], stackRecs := [], snoop := [], snoopShared := [], snoopWait := []
      bisnpIssued := 0 }
    por := { s.por with bwCounts := [], log := [], logSeq := 0, alertPin := false, alertSeq := 0 }
    hub := { s.hub with sweeping := false, swept := false, sweepJob := none, sweepCause := 0, lastFault := {}, sweeps := 0 }
    car := { s.car with slots := [] } }

/-- Beside what an access of stacked memory may touch, nothing differs. -/
structure OnlyAccess (s t : State) : Prop where
  same : t.sansAccess = s.sansAccess

theorem OnlyAccess.refl (s : State) : OnlyAccess s s := ⟨rfl⟩

theorem OnlyAccess.trans {s t u : State} (h : OnlyAccess s t) (h' : OnlyAccess t u) : OnlyAccess s u := ⟨h'.same.trans h.same⟩

theorem onlyAccess_foldl {α : Type} {f : State → α → State} (h : ∀ s a, OnlyAccess s (f s a)) (l : List α) (s : State) :
    OnlyAccess s (l.foldl f s) :=
  l.foldlRecOn f (OnlyAccess.refl s) fun t ht a _ => ht.trans (h t a)

theorem OnlyAccess.ite {s t u : State} {p : Prop} [Decidable p] (ht : OnlyAccess s t) (hu : OnlyAccess s u) :
    OnlyAccess s (if p then t else u) := by
  split
  · exact ht
  · exact hu

namespace OnlyAccess
variable {s t : State} (h : OnlyAccess s t)
include h

theorem cores : t.cores = s.cores := (congrArg State.cores h.same :)
theorem clusters : t.clusters = s.clusters := (congrArg State.clusters h.same :)
theorem boot : t.boot = s.boot := (congrArg State.boot h.same :)
theorem current : t.por.current = s.por.current := (congrArg (fun x => x.por.current) h.same :)
theorem dv (i u : Nat) : t.dv i u = s.dv i u := (congrArg (fun x => x.dv i u) h.same :)
theorem roomEntry (x : Nat) : t.roomEntry x = s.roomEntry x := (congrArg (fun u => u.roomEntry x) h.same :)
theorem roomGone (x : Nat) : t.roomGone x = s.roomGone x := (congrArg (fun u => u.roomGone x) h.same :)
theorem dirBase (i : Nat) : t.dirBase i = s.dirBase i := (congrArg (fun u => u.dirBase i) h.same :)
theorem isParked (i : Nat) : t.isParked i = s.isParked i := (congrArg (fun u => u.isParked i) h.same :)
theorem vac (p m : Nat) : t.vac p m = s.vac p m := (congrArg (fun u => u.vac p m) h.same :)

end OnlyAccess

/-! ## Reads -/

theorem onlyAccess_emit (s : State) (m : OutMsg) : OnlyAccess s (s.emit m) := ⟨rfl⟩

theorem onlyAccess_modStack (s : State) (m : Nat) (f : Stack → Stack) : OnlyAccess s (s.modStack m f) := ⟨rfl⟩

theorem onlyAccess_bumpBw (s : State) (i n : Nat) : OnlyAccess s (s.bumpBw i n) := ⟨rfl⟩

theorem onlyAccess_logEvent (s : State) (event code unit : Nat) (d : BitVec 128) : OnlyAccess s (s.logEvent event code unit d) := ⟨rfl⟩

theorem onlyAccess_useParity (s : State) (m : Nat) : OnlyAccess s (s.useParity m) := by
  unfold State.useParity
  dsimp only
  split <;> exact ⟨rfl⟩

theorem onlyAccess_countFlips (s : State) (a n : Nat) : OnlyAccess s (s.countFlips a n) :=
  onlyAccess_foldl (fun t _ => onlyAccess_modStack t _ _) _ s

theorem onlyAccess_readDone (s : State) (a n : Nat) : OnlyAccess s (s.readDone a n) := by
  have hsnoop : OnlyAccess s (s.snoopData a n) := (onlyAccess_foldl (fun t _ => onlyAccess_emit t _) _ s).trans ⟨rfl⟩
  exact ((hsnoop.trans (onlyAccess_countFlips _ a n)).trans (onlyAccess_foldl onlyAccess_useParity _ _)).trans
    (onlyAccess_foldl (fun t _ => onlyAccess_bumpBw t _ _) _ _)

/-! ## Errors (R161) and the faults they cause (Table 6-4) -/

theorem onlyAccess_logNote (s : State) (code unit : Nat) (d : BitVec 128) : OnlyAccess s (s.logNote code unit d) := ⟨rfl⟩

theorem onlyAccess_noteTier (s : State) (before : Nat) : OnlyAccess s (s.noteTier before) :=
  .ite ⟨rfl⟩ (.refl s)

theorem onlyAccess_jobFault (s : State) (job : Option JobId) (f : FaultInfo) : OnlyAccess s (s.jobFault job f) :=
  .ite (.refl s) ⟨rfl⟩

theorem onlyAccess_fenceStack (s : State) (m code : Nat) : OnlyAccess s (s.fenceStack m code) := by
  unfold State.fenceStack
  refine OnlyAccess.trans (OnlyAccess.trans ?_ (onlyAccess_logEvent _ _ _ _ _)) (onlyAccess_noteTier _ _)
  refine (onlyAccess_modStack s m _).trans (onlyAccess_foldl (fun t i => ?_) _ _)
  split
  · exact ⟨rfl⟩
  · exact .refl t

theorem onlyAccess_countUe (s : State) (a : Nat) : OnlyAccess s (s.countUe a) := by
  unfold State.countUe
  dsimp only
  generalize addrStack a = m
  have hcounted := ((onlyAccess_useParity s m).trans (onlyAccess_modStack _ m fun x => { x with ue := x.ue + 1 })).trans
    (onlyAccess_logEvent _ 1 0x44 (0x10 + m) (BitVec.ofNat 128 a))
  split
  · exact (hcounted.trans (onlyAccess_fenceStack _ m 2)).trans (onlyAccess_jobFault _ _ _)
  · exact hcounted

theorem onlyAccess_countErr (s : State) (e : AccErr) : OnlyAccess s (s.countErr e) := by
  cases e with
  | bus => exact .refl s
  | ue a => exact onlyAccess_countUe s a

theorem onlyAccess_accFault (s : State) (e : AccErr) (job : Option JobId) (core cluster : Byte) (ord : Word) :
    OnlyAccess s (s.accFault e job core cluster ord) :=
  (onlyAccess_jobFault s _ _).trans (onlyAccess_countErr _ e)

/-- A read of the module for itself: an error is counted, and no byte changes. -/
theorem hubGot_spec (s : State) (r : Nat × Nat) : OnlyAccess s (s.hubGot r) ∧ ReadsOnly s (s.hubGot r) := by
  unfold State.hubGot
  split
  · exact ⟨onlyAccess_readDone s _ _, readsOnly_readDone s _ _⟩
  · next e _ =>
    refine ⟨onlyAccess_countErr s e, (onlyAccess_countErr s e).cores, ?_⟩
    cases e with
    | bus => rfl
    | ue a => exact (keepsCe_countUe s a).1.mem

theorem hubDone_spec (s : State) (rs : List (Nat × Nat)) : OnlyAccess s (s.hubDone rs) ∧ ReadsOnly s (s.hubDone rs) :=
  rs.foldlRecOn (motive := fun t => OnlyAccess s t ∧ ReadsOnly s t) _ ⟨.refl s, .refl s⟩ fun t ht r _ =>
    ⟨ht.1.trans (hubGot_spec t r).1, ht.2.trans (hubGot_spec t r).2⟩

/-! ## Writes -/

theorem onlyAccess_snoopInv (s : State) (a n : Nat) : OnlyAccess s (s.snoopInv a n) :=
  (onlyAccess_foldl (fun t _ => onlyAccess_emit t _) _ s).trans ⟨rfl⟩

theorem onlyAccess_countWritten (s : State) (a n : Nat) : OnlyAccess s (s.countWritten a n) :=
  onlyAccess_foldl (fun t _ => onlyAccess_bumpBw t _ _) _ s

theorem onlyAccess_setMem (s : State) (m : Mem) : OnlyAccess s (s.setMem m) := ⟨rfl⟩

theorem onlyAccess_memPut (s : State) (a : Nat) (bs : List Byte) : OnlyAccess s (s.memPut a bs) := by
  have hfresh : OnlyAccess s (s.fresh a bs.length) := ⟨rfl⟩
  have hmerge (t : State) : OnlyAccess t (t.mergeFlips a bs.length) := (onlyAccess_countFlips t a _).trans ⟨rfl⟩
  exact ((hfresh.trans (hmerge _)).trans (onlyAccess_setMem _ _)).trans (onlyAccess_countWritten _ _ _)

theorem onlyAccess_memLand (s : State) (a : Nat) (bs : List Byte) : OnlyAccess s (s.memLand a bs) := by
  unfold State.memLand
  refine onlyAccess_foldl (fun t p => ?_) _ s
  split
  · exact .refl t
  split
  · exact onlyAccess_logNote t _ _ _
  · exact ((onlyAccess_snoopInv t _ _).trans (onlyAccess_memPut _ _ _)).trans (onlyAccess_setMem _ _)

theorem onlyAccess_memWriteOwn_ok {s t : State} {a : Nat} {bs : List Byte} (h : s.memWriteOwn a bs = .ok t) : OnlyAccess s t := by
  unfold State.memWriteOwn at h
  split at h
  · cases h
  split at h
  · cases h
  injection h with h
  subst h
  exact ((onlyAccess_snoopInv s a bs.length).trans (onlyAccess_memPut _ a bs)).trans (onlyAccess_foldl onlyAccess_useParity _ _)

theorem onlyAccess_memWriteOwn_error {s t : State} {a : Nat} {bs : List Byte} {e : AccErr} (h : s.memWriteOwn a bs = .error (e, t)) :
    OnlyAccess s t := by
  have hland : t = s.memLand a bs := by
    unfold State.memWriteOwn at h
    split at h
    · cases h; rfl
    split at h
    · cases h; rfl
    · cases h
  rw [hland]
  exact onlyAccess_memLand s a bs

theorem onlyAccess_memWriteHub (s : State) (a : Nat) (bs : List Byte) : OnlyAccess s (s.memWriteHub a bs) := by
  unfold State.memWriteHub
  split
  · next t h => exact onlyAccess_memWriteOwn_ok h
  · next e t h => exact (onlyAccess_memWriteOwn_error h).trans (onlyAccess_countErr t e)

theorem onlyAccess_memWriteJob (s : State) (job : Option JobId) (core cluster : Byte) (ord : Word) (a : Nat) (bs : List Byte) :
    OnlyAccess s (s.memWriteJob job core cluster ord a bs) := by
  unfold State.memWriteJob
  split
  · next t h => exact onlyAccess_memWriteOwn_ok h
  · next e t h => exact (onlyAccess_memWriteOwn_error h).trans (onlyAccess_accFault t e _ _ _ _)

theorem onlyAccess_writeFor (s : State) (job : Option JobId) (a : Nat) (bs : List Byte) : OnlyAccess s (s.writeFor job a bs) := by
  cases job with
  | none => exact onlyAccess_memWriteHub s a bs
  | some id => exact onlyAccess_memWriteJob s _ _ _ _ a bs

theorem onlyAccess_readFor (s : State) (job : Option JobId) (r : Nat × Nat) : OnlyAccess s (s.readFor job r) := by
  unfold State.readFor
  split
  · exact onlyAccess_readDone s _ _
  · exact onlyAccess_accFault s _ _ _ _ _
  · exact onlyAccess_countErr s _

theorem onlyAccess_setRstate (s : State) (stream v : Nat) : OnlyAccess s (s.setRstate stream v) :=
  .ite (onlyAccess_writeFor s _ _ _) (.refl s)

theorem onlyAccess_dirAdd (s : State) (stream off n : Nat) : OnlyAccess s (s.dirAdd stream off n) := by
  unfold State.dirAdd
  split
  · exact (onlyAccess_readDone s _ _).trans (onlyAccess_writeFor _ _ _ _)
  · exact onlyAccess_readFor s _ _

/-! ## Ranges that can be read and written -/

/-- A range that reads is clear. -/
theorem clear_of_memRead {s : State} {a n : Nat} {bs : List Byte} (h : s.memRead a n = .ok bs) : s.clear a n := by
  unfold State.memRead at h
  split at h
  · cases h
  next herr =>
  split at h
  · cases h
  next hpoison => exact ⟨herr, hpoison⟩

/-- What lies in a clear range is clear. -/
theorem clear_of_within {s : State} {a n b k : Nat} (h : s.clear b k) (hlo : b ≤ a) (hhi : a + n ≤ b + k) : s.clear a n := by
  obtain ⟨herr, hpoison⟩ := h
  rw [rangeErr_eq_none_iff] at herr
  obtain ⟨htop, hstacks⟩ := herr
  have hmeets {x l : Nat} (hm : meets a n x l = true) : meets b k x l = true := by
    simp only [meets, Bool.and_eq_true, decide_eq_true_eq] at hm ⊢
    omega
  refine ⟨rangeErr_eq_none_iff.mpr ⟨by omega, fun m hm => hstacks m ?_⟩, ?_⟩
  · unfold stacksOf at hm ⊢
    split at hm
    · cases hm
    · rw [if_neg (by omega)]
      obtain ⟨hm8, hmeet⟩ := List.mem_filter.mp hm
      exact List.mem_filter.mpr ⟨hm8, hmeets hmeet⟩
  · rw [State.poisonIn, List.find?_eq_none] at hpoison ⊢
    exact fun g hg hm => hpoison g hg (hmeets hm)

/-- Reads of which every one gives its bytes leave the stacks serving. -/
theorem keepsServing_hubDone {rs : List (Nat × Nat)} {s : State} (h : ∀ r ∈ rs, ∃ bs, s.memRead r.1 r.2 = .ok bs) :
    KeepsServing s (s.hubDone rs) := by
  refine rs.foldlRecOn State.hubGot (KeepsServing.refl s) fun t ht r hr => ?_
  obtain ⟨bs, hbs⟩ := h r hr
  rw [hubGot_of_clear (ht.clear (clear_of_memRead hbs))]
  exact ht.trans (keepsServing_readDone t _ _)

/-- A write into a clear range succeeds and stores its bytes. -/
theorem memWriteOwn_of_clear {s : State} {a n : Nat} (hc : s.clear a n) {bs : List Byte} (hlen : bs.length = n) :
    ∃ t, s.memWriteOwn a bs = .ok t ∧ KeepsServing s t ∧ t.ms.mem = s.ms.mem.writeBytes a bs := by
  subst hlen
  obtain ⟨herr, hpoison⟩ := hc
  have hpart : s.poisonPart a bs.length = none := by
    rw [State.poisonIn, List.find?_eq_none] at hpoison
    rw [State.poisonPart, List.find?_eq_none]
    exact fun g hg => by simp [hpoison g hg]
  have hok : s.memWriteOwn a bs = .ok ((stacksOf a bs.length).foldl State.useParity ((s.snoopInv a bs.length).memPut a bs)) := by
    simp only [State.memWriteOwn, herr, hpart]
  exact ⟨_, hok, keepsServing_memWriteOwn hok, (memWriteOwn_ok hok).2⟩

/-- A write of a directory into a clear range stores its bytes, whoever it is made for. -/
theorem writeFor_of_clear {s : State} {a n : Nat} (hc : s.clear a n) (job : Option JobId) {bs : List Byte} (hlen : bs.length = n) :
    KeepsServing s (s.writeFor job a bs) ∧ (s.writeFor job a bs).ms.mem = s.ms.mem.writeBytes a bs := by
  obtain ⟨t, ht, hwritten⟩ := memWriteOwn_of_clear hc hlen
  suffices hsame : s.writeFor job a bs = t by rwa [hsame]
  cases job with
  | none => simp only [State.writeFor, State.memWriteHub, ht]
  | some id => simp only [State.writeFor, State.memWriteJob, ht]

/-- Adding to a word of a directory that can be read. -/
theorem dirAdd_of_clear {s : State} {stream off : Nat} (hc : s.clear (s.dirBase stream + off) 4) (n : Nat) :
    KeepsServing s (s.dirAdd stream off n) ∧ (s.dirAdd stream off n).ms.mem = s.ms.mem.writeBytes (s.dirBase stream + off)
      (leBytes 4 ((s.ms.mem.readLE (s.dirBase stream + off) 4 + n) % 2 ^ 32)) := by
  have hread := keepsServing_readDone s (s.dirBase stream + off) 4
  obtain ⟨hkeeps, hmem⟩ := writeFor_of_clear (hread.clear hc) (s.streamJob stream) 
    (leBytes_length 4 ((s.ms.mem.readLE (s.dirBase stream + off) 4 + n) % 2 ^ 32))
  have hadd : s.dirAdd stream off n = (s.readDone (s.dirBase stream + off) 4).writeFor (s.streamJob stream) (s.dirBase stream + off)
      (leBytes 4 ((s.ms.mem.readLE (s.dirBase stream + off) 4 + n) % 2 ^ 32)) := by
    simp only [State.dirAdd, memRead_of_clear hc]
    rfl
  rw [hadd]
  exact ⟨hread.trans hkeeps, by rw [hmem, (readsOnly_readDone s _ _).2]⟩

end Sys2Proof.Machine

/-! PROOFS. ROOM_LINK (R241): the entries it copies, the references it adds, and its refusals. -/

namespace Sys2Proof.Machine

/-! ## References added (R240) -/

theorem modRoomCount_of_slot {s : State} {x k off : Nat} (h : s.roomSlot x = some (k, off)) (v : Nat) :
    s.modRoomCount x v = if s.roomGone x = true then s else (s.scWrite k off 8 v).countAtomic k := by
  simp only [State.modRoomCount, State.setRoomEntry, h]

theorem modRoomCount_of_none {s : State} {x : Nat} (h : s.roomSlot x = none) (v : Nat) : s.modRoomCount x v = s := by
  simp only [State.modRoomCount, h]

/-- A change of a room's count changes the clusters alone. -/
theorem modRoomCount_eq (s : State) (x v : Nat) : ∃ cl, s.modRoomCount x v = { s with clusters := cl } := by
  cases h : s.roomSlot x with
  | none => exact ⟨s.clusters, modRoomCount_of_none h v⟩
  | some r =>
    rw [modRoomCount_of_slot h]
    split
    · exact ⟨s.clusters, rfl⟩
    · exact ⟨_, rfl⟩

/-- It goes by the clusters, by where the room table lies and by the blocks that are OFF, which an access of stacked memory leaves. -/
theorem sansAccess_modRoomCount (s : State) (x v : Nat) : (s.modRoomCount x v).sansAccess = s.sansAccess.modRoomCount x v := by
  cases h : s.roomSlot x with
  | none => rw [modRoomCount_of_none h, modRoomCount_of_none (s := s.sansAccess) h]
  | some r =>
    rw [modRoomCount_of_slot h, modRoomCount_of_slot (s := s.sansAccess) h, apply_ite State.sansAccess]
    rfl

theorem withSessions_modRoomCount (s : State) (x v : Nat) (l : List Session) :
    (s.modRoomCount x v).withSessions l = (s.withSessions l).modRoomCount x v := by
  cases h : s.roomSlot x with
  | none => rw [modRoomCount_of_none h, modRoomCount_of_none (s := s.withSessions l) h]
  | some r =>
    rw [modRoomCount_of_slot h, modRoomCount_of_slot (s := s.withSessions l) h, apply_ite (fun u => State.withSessions u l)]
    rfl

theorem OnlyAccess.modRoomRef {s t : State} (h : OnlyAccess s t) (x : Nat) (f : Nat → Nat) : OnlyAccess (s.modRoomRef x f) (t.modRoomRef x f) := by
  refine ⟨(sansAccess_modRoomCount t x _).trans (Eq.trans ?_ (sansAccess_modRoomCount s x _).symm)⟩
  rw [h.same, h.roomEntry]

theorem modRoomRef_eq (s : State) (x : Nat) (f : Nat → Nat) : ∃ cl, s.modRoomRef x f = { s with clusters := cl } := modRoomCount_eq s x _

theorem withSessions_modRoomRef (s : State) (x : Nat) (f : Nat → Nat) (l : List Session) :
    (s.modRoomRef x f).withSessions l = (s.withSessions l).modRoomRef x f := withSessions_modRoomCount s x _ l

/-! ## The entries copied (R241) -/

/-- The room that an entry names has one reference more. -/
def State.linkRef (s : State) (p : Nat × Nat) : State := s.modRoomRef (dirRoom p.1) (fun n => n + 1)

/-- One entry is copied, and its room referenced. -/
def State.linkEntry (s : State) (p : Nat × Nat) : State := (s.memWriteHub p.2 (leBytes 8 p.1)).linkRef p

/-- The memory with an entry's copy. -/
def linkBytes (m : Mem) (p : Nat × Nat) : Mem := m.writeBytes p.2 (leBytes 8 p.1)

theorem onlyAccess_linkEntry {s t : State} (h : OnlyAccess s t) (p : Nat × Nat) : OnlyAccess (s.linkRef p) (t.linkEntry p) :=
  (h.trans (onlyAccess_memWriteHub t _ _)).modRoomRef _ _

/-- In state t those entries have been copied, from s on: their rooms have the references, their copies are stored, and what could be read
can be read still. -/
structure Linked (s : State) (es : List (Nat × Nat)) (t : State) : Prop where
  access : OnlyAccess (es.foldl State.linkRef s) t
  mem : t.ms.mem = es.foldl linkBytes s.ms.mem
  clear : ∀ a n, s.clear a n → t.clear a n

theorem Linked.concat {s t : State} {es : List (Nat × Nat)} {p : Nat × Nat} (h : Linked s es t) (hp : s.clear p.2 8) :
    Linked s (es ++ [p]) (t.linkEntry p) := by
  obtain ⟨hkeeps, hmem⟩ := memWriteHub_of_clear (h.clear _ _ hp) (leBytes_length 8 p.1)
  obtain ⟨cl, href⟩ := modRoomRef_eq (t.memWriteHub p.2 (leBytes 8 p.1)) (dirRoom p.1) (fun n => n + 1)
  have hentry : t.linkEntry p = { t.memWriteHub p.2 (leBytes 8 p.1) with clusters := cl } := href
  refine ⟨?_, ?_, fun a n ha => ?_⟩
  · rw [List.foldl_append]
    exact onlyAccess_linkEntry h.access p
  · rw [List.foldl_append, hentry, ← h.mem]
    exact hmem
  · rw [hentry]
    exact hkeeps.clear (h.clear a n ha)

theorem Linked.foldl {s t : State} (h : Linked s [] t) {es : List (Nat × Nat)} (hes : ∀ p ∈ es, s.clear p.2 8) :
    Linked s es (es.foldl State.linkEntry t) := by
  induction es using List.reverseRecOn with
  | nil => exact h
  | append_singleton es p ih =>
    rw [List.foldl_append]
    exact (ih fun q hq => hes q (List.mem_append_left _ hq)).concat (hes p List.mem_concat_self)

theorem withSessions_foldl_linkRef (s : State) (es : List (Nat × Nat)) (l : List Session) :
    (es.foldl State.linkRef s).withSessions l = es.foldl State.linkRef (s.withSessions l) := by
  induction es generalizing s with
  | nil => rfl
  | cons p es ih => exact (ih _).trans (congrArg (fun u => es.foldl State.linkRef u) (withSessions_modRoomRef s _ _ l))

theorem foldl_linkRef_eq (s : State) (es : List (Nat × Nat)) : ∃ cl, es.foldl State.linkRef s = { s with clusters := cl } := by
  refine es.foldlRecOn (motive := fun t => ∃ cl, t = { s with clusters := cl }) State.linkRef ⟨s.clusters, rfl⟩ ?_
  rintro _ ⟨cl, rfl⟩ p -
  exact modRoomRef_eq { s with clusters := cl } _ _

/-! ## ROOM_LINK -/

theorem SameButFrames.clusters {s t : State} (h : SameButFrames s t) : t.clusters = s.clusters := (congrArg State.clusters h :)

theorem SameButFrames.cores {s t : State} (h : SameButFrames s t) : t.cores = s.cores := (congrArg State.cores h :)

/-- The reads of ROOM_LINK can all be made. -/
def State.linkReadable (s : State) (src dst g0 n : Nat) : Prop := ∀ r ∈ s.linkReads src dst g0 n, ∃ bs, s.memRead r.1 r.2 = .ok bs

theorem all_isOk_iff {s : State} {rs : List (Nat × Nat)} :
    rs.all (fun r => (s.memRead r.1 r.2).isOk) = true ↔ ∀ r ∈ rs, ∃ bs, s.memRead r.1 r.2 = .ok bs := by
  rw [List.all_eq_true]
  refine forall₂_congr fun r _ => ?_
  cases s.memRead r.1 r.2 <;> simp [Except.isOk, Except.toBool]

section
variable {s : State} {bs : List Byte} (h : s.writes 0x0D30 1 bs) (hlen : bs.length = 8)
include h hlen

theorem roomLink_busy (hheld : (s.stream (par bs 0 2)).sstate = .held ∨ (s.stream (par bs 2 2)).sstate = .held) :
    ∃ t, exec .roomLink s = .next t ∧ AnsweredWith dsRoomsBusy s t ∧ t.ms = s.ms := by
  obtain ⟨f, r, l, -, -, hserve⟩ := served_of_writes h
  obtain ⟨hans, hsame⟩ := hserve s.roomLink rfl rfl ((if_neg (not_not.mpr hlen)).trans (if_pos hheld)) rfl rfl
  exact ⟨_, rfl, hans, hsame.ms⟩

variable (hfree : ¬ ((s.stream (par bs 0 2)).sstate = .held ∨ (s.stream (par bs 2 2)).sstate = .held))
include hfree

theorem roomLink_unmatched (hbad : ¬ s.linkReadable (par bs 0 2) (par bs 2 2) (par bs 4 1) (par bs 5 1 + 1) ∨
      s.linkPairs (par bs 0 2) (par bs 2 2) (par bs 4 1) (par bs 5 1 + 1) = none) :
    ∃ t, exec .roomLink s = .next t ∧ AnsweredWith dsRound s t ∧ t.ms.mem = s.ms.mem := by
  obtain ⟨f, r, l, -, -, hserve⟩ := served_of_writes h
  let v := s.withSessions l
  let rs := v.linkReads (par bs 0 2) (par bs 2 2) (par bs 4 1) (par bs 5 1 + 1)
  have hpairs : (if rs.all (fun r => (v.memRead r.1 r.2).isOk) then v.linkPairs (par bs 0 2) (par bs 2 2) (par bs 4 1) (par bs 5 1 + 1)
      else none) = none := by
    rw [ite_eq_right_iff, all_isOk_iff]
    exact hbad.neg_resolve_left
  obtain ⟨haccess, hread⟩ := hubDone_spec v rs
  obtain ⟨hans, hsame⟩ := hserve s.roomLink rfl rfl (a := ⟨v.hubDone rs, dsRound, 0, none⟩)
    ((if_neg (not_not.mpr hlen)).trans ((if_neg hfree).trans (by dsimp only; rw [hpairs]))) haccess.boot haccess.current
  exact ⟨_, rfl, hans, by rw [hsame.ms]; exact hread.2⟩

section
variable {es : List (Nat × Nat)} (hread : s.linkReadable (par bs 0 2) (par bs 2 2) (par bs 4 1) (par bs 5 1 + 1))
  (hpairs : s.linkPairs (par bs 0 2) (par bs 2 2) (par bs 4 1) (par bs 5 1 + 1) = some es)
include hread hpairs

/-- What ROOM_LINK does with the entries to copy, in the state after its reads. -/
theorem roomLink_served : ∃ l u, KeepsServing (s.withSessions l) u ∧ OnlyAccess (s.withSessions l) u ∧ u.ms.mem = s.ms.mem ∧
    ∀ a : Ans, (if (es.map fun p => dirRoom p.1).any u.roomGone then ⟨u, dsRound, 0, none⟩
      else if (es.map fun p => dirRoom p.1).any (fun x => decide (65535 < roomRef (u.roomEntry x) + (es.map fun p => dirRoom p.1).count x))
      then ⟨u, dsRefFull, 0, none⟩
      else ⟨(es.foldl State.linkEntry u).dirAdd (par bs 2 2) 8 es.length, dsOk, 0, none⟩) = a →
    a.st.boot = s.boot → a.st.por.current = s.por.current → AnsweredWith a.status s s.roomLink ∧ SameButFrames a.st s.roomLink := by
  obtain ⟨f, r, l, -, -, hserve⟩ := served_of_writes h
  let v := s.withSessions l
  let rs := v.linkReads (par bs 0 2) (par bs 2 2) (par bs 4 1) (par bs 5 1 + 1)
  have hpairs : (if rs.all (fun r => (v.memRead r.1 r.2).isOk) then v.linkPairs (par bs 0 2) (par bs 2 2) (par bs 4 1) (par bs 5 1 + 1)
      else none) = some es := (if_pos (all_isOk_iff.mpr hread)).trans hpairs
  obtain ⟨haccess, hreads⟩ := hubDone_spec v rs
  refine ⟨l, v.hubDone rs, keepsServing_hubDone hread, haccess, hreads.2, fun a ha => hserve s.roomLink rfl rfl ?_⟩
  refine (if_neg (not_not.mpr hlen)).trans ((if_neg hfree).trans (Eq.trans ?_ ha))
  dsimp only
  rw [hpairs]
  rfl

theorem roomLink_gone (hgone : ∃ x ∈ es.map (fun p => dirRoom p.1), s.roomGone x = true) :
    ∃ t, exec .roomLink s = .next t ∧ AnsweredWith dsRound s t ∧ t.ms.mem = s.ms.mem ∧ t.clusters = s.clusters := by
  obtain ⟨l, u, -, haccess, hmem, hserved⟩ := roomLink_served h hlen hfree hread hpairs
  have hany : (es.map fun p => dirRoom p.1).any u.roomGone = true := by
    rw [funext haccess.roomGone]
    exact List.any_eq_true.mpr hgone
  obtain ⟨hans, hsame⟩ := hserved _ (if_pos hany) haccess.boot haccess.current
  exact ⟨_, rfl, hans, by rw [hsame.ms]; exact hmem, hsame.clusters.trans haccess.clusters⟩

variable (hon : ∀ x ∈ es.map (fun p => dirRoom p.1), s.roomGone x = false)
include hon

omit h hlen hfree hread hpairs in
theorem not_any_gone {u : State} {l : List Session} (haccess : OnlyAccess (s.withSessions l) u) :
    ¬ (es.map fun p => dirRoom p.1).any u.roomGone = true := by
  rw [funext haccess.roomGone, List.any_eq_true]
  rintro ⟨x, hx, hgone⟩
  exact Bool.eq_false_iff.mp (hon x hx) hgone

theorem roomLink_full (hfull : ∃ x ∈ es.map (fun p => dirRoom p.1), 65535 < roomRef (s.roomEntry x) + (es.map fun p => dirRoom p.1).count x) :
    ∃ t, exec .roomLink s = .next t ∧ AnsweredWith dsRefFull s t ∧ t.ms.mem = s.ms.mem ∧ t.clusters = s.clusters := by
  obtain ⟨l, u, -, haccess, hmem, hserved⟩ := roomLink_served h hlen hfree hread hpairs
  have hany : (es.map fun p => dirRoom p.1).any
      (fun x => decide (65535 < roomRef (u.roomEntry x) + (es.map fun p => dirRoom p.1).count x)) = true := by
    rw [funext haccess.roomEntry]
    obtain ⟨x, hx, hover⟩ := hfull
    exact List.any_eq_true.mpr ⟨x, hx, decide_eq_true hover⟩
  obtain ⟨hans, hsame⟩ := hserved _ ((if_neg (not_any_gone hon haccess)).trans (if_pos hany)) haccess.boot haccess.current
  exact ⟨_, rfl, hans, by rw [hsame.ms]; exact hmem, hsame.clusters.trans haccess.clusters⟩

theorem roomLink_links (hroom : ∀ x ∈ es.map (fun p => dirRoom p.1), roomRef (s.roomEntry x) + (es.map fun p => dirRoom p.1).count x ≤ 65535)
    (hes : ∀ p ∈ es, s.clear p.2 8) (hdups : s.clear (s.dirBase (par bs 2 2) + 8) 4) :
    let dups := s.dirBase (par bs 2 2) + 8
    let copied := es.foldl linkBytes s.ms.mem
    ∃ t, exec .roomLink s = .next t ∧ AnsweredWith dsOk s t ∧
      t.ms.mem = copied.writeBytes dups (leBytes 4 ((copied.readLE dups 4 + es.length) % 2 ^ 32)) ∧
      t.clusters = (es.foldl State.linkRef s).clusters ∧ t.cores = s.cores := by
  intro dups copied
  obtain ⟨l, u, hkeeps, haccess, hmem, hserved⟩ := roomLink_served h hlen hfree hread hpairs
  have hfits : ¬ (es.map fun p => dirRoom p.1).any
      (fun x => decide (65535 < roomRef (u.roomEntry x) + (es.map fun p => dirRoom p.1).count x)) = true := by
    rw [funext haccess.roomEntry, List.any_eq_true]
    rintro ⟨x, hx, hover⟩
    exact absurd (of_decide_eq_true hover) (Nat.not_lt.mpr (hroom x hx))
  have hlinked : Linked (s.withSessions l) es (es.foldl State.linkEntry u) :=
    Linked.foldl ⟨haccess, hmem, fun a n ha => hkeeps.clear ha⟩ hes
  obtain ⟨cl, hcl⟩ := foldl_linkRef_eq (s.withSessions l) es
  have hlinks := hlinked.access
  rw [hcl] at hlinks
  have hbase : (es.foldl State.linkEntry u).dirBase (par bs 2 2) + 8 = dups := congrArg (· + 8) (hlinks.dirBase _)
  have hadd := onlyAccess_dirAdd (es.foldl State.linkEntry u) (par bs 2 2) 8 es.length
  obtain ⟨-, hadded⟩ := dirAdd_of_clear (s := es.foldl State.linkEntry u) (stream := par bs 2 2) (off := 8)
    (by rw [hbase]; exact hlinked.clear _ _ hdups) es.length
  rw [hbase, hlinked.mem] at hadded
  obtain ⟨hans, hsame⟩ := hserved _ ((if_neg (not_any_gone hon haccess)).trans (if_neg hfits)) (hlinks.trans hadd).boot
    (hlinks.trans hadd).current
  refine ⟨_, rfl, hans, by rw [hsame.ms]; exact hadded, hsame.clusters.trans (hadd.clusters.trans (hlinked.access.clusters.trans ?_)),
    hsame.cores.trans (hlinks.trans hadd).cores⟩
  rw [← withSessions_foldl_linkRef]
  rfl

end

end

end Sys2Proof.Machine

/-! PROOFS. The reuse store and the tab by command (R293, R294, R307): REUSE_CLEAR, REUSE_CONFIG_WRITE and TAB_ENABLE. -/

namespace Sys2Proof.Machine

/-! ## Bits of little-endian numbers -/

/-- Bit i of a number is a bit of one of its bytes. -/
theorem testBit_leNat (bs : List Byte) (i : Nat) : (leNat bs).testBit i = (bs.getD (i / 8) 0).getLsbD (i % 8) := by
  induction bs generalizing i with
  | nil => simp [leNat]
  | cons b bs ih =>
    have hb : b.toNat < 2 ^ 8 := b.isLt
    rw [leNat, show (256 : Nat) = 2 ^ 8 from rfl, Nat.add_comm, Nat.testBit_two_pow_mul_add _ hb]
    by_cases hi : i < 8
    · rw [if_pos hi, Nat.div_eq_of_lt hi, Nat.mod_eq_of_lt hi]
      rfl
    · obtain ⟨k, rfl⟩ := Nat.exists_eq_add_of_le' (Nat.not_lt.mp hi)
      rw [if_neg hi, ih, Nat.add_sub_cancel, Nat.add_div_right _ (by decide), Nat.add_mod_right]
      rfl

/-- The sum of the powers of two that p picks. -/
def pickedPowers (p : Nat → Bool) (n : Nat) : Nat := (List.range n).foldl (fun v i => if p i then v + 2 ^ i else v) 0

theorem pickedPowers_succ (p : Nat → Bool) (n : Nat) : pickedPowers p (n + 1) = 2 ^ n * (p n).toNat + pickedPowers p n := by
  simp only [pickedPowers, List.range_succ, List.foldl_append, List.foldl_cons, List.foldl_nil]
  cases p n <;> simp [Nat.add_comm]

theorem pickedPowers_lt (p : Nat → Bool) (n : Nat) : pickedPowers p n < 2 ^ n := by
  induction n with
  | zero => exact Nat.one_pos
  | succ n ih =>
    rw [pickedPowers_succ, Nat.pow_succ]
    cases p n
    · simp only [Bool.toNat_false]; omega
    · simp only [Bool.toNat_true]; omega

/-- It has the bits that p picks. -/
theorem testBit_pickedPowers (p : Nat → Bool) (n j : Nat) : (pickedPowers p n).testBit j = (decide (j < n) && p j) := by
  induction n with
  | zero => simp [pickedPowers]
  | succ n ih =>
    rw [pickedPowers_succ, Nat.testBit_two_pow_mul_add _ (pickedPowers_lt p n)]
    rcases Nat.lt_trichotomy j n with hj | rfl | hj
    · rw [if_pos hj, ih]; simp [hj, Nat.lt_succ_of_lt hj]
    · rw [if_neg (Nat.lt_irrefl j)]; cases p j <;> simp
    · obtain ⟨k, rfl⟩ := Nat.exists_eq_add_of_lt hj
      rw [if_neg (by omega), show n + k + 1 - n = k + 1 by omega]
      cases p n <;> simp [Nat.testBit_succ]

/-! ## REUSE_CLEAR (R294) -/

/-- Of a granule that reads, the bits of the range are cleared. -/
theorem clearGranule_of_clear {s : State} {a : Nat} (hc : s.clear a 32) (base lo hi : Nat) :
    OnlyAccess s (s.clearGranule a base lo hi) ∧
    (∀ x, x < a ∨ a + 32 ≤ x → (s.clearGranule a base lo hi).ms.mem.read x = s.ms.mem.read x) ∧
    ∀ j i, j < 32 → i < 8 → ((s.clearGranule a base lo hi).ms.mem.read (a + j)).getLsbD i = ((s.ms.mem.read (a + j)).getLsbD i &&
      !(decide (lo ≤ (a - base) * 8 + (8 * j + i)) && decide ((a - base) * 8 + (8 * j + i) < hi))) := by
  let u := s.readDone a 32
  let keep := pickedPowers (fun i => bit (u.ms.mem.readLE a 32) i && !(decide (lo ≤ (a - base) * 8 + i) && decide ((a - base) * 8 + i < hi))) 256
  have hmem : u.ms.mem = s.ms.mem := (readsOnly_readDone s a 32).2
  have hgranule : s.clearGranule a base lo hi = (u.snoopInv a 32).memPut a (leBytes 32 keep) := by
    simp only [State.clearGranule, memRead_of_clear hc, hubGot_of_clear hc]
    rfl
  have hput : ((u.snoopInv a 32).memPut a (leBytes 32 keep)).ms.mem = s.ms.mem.writeLE a 32 keep := by
    rw [(memPut_mem _ _ _).2, (snoopInv_keeps u a 32).2.1, hmem]; rfl
  rw [hgranule, hput]
  refine ⟨((onlyAccess_readDone s a 32).trans (onlyAccess_snoopInv u a 32)).trans (onlyAccess_memPut _ _ _),
    fun x hx => Mem.read_writeLE_out _ _ _ _ _ hx, fun j i hj hi => ?_⟩
  have hbyte : (u.ms.mem.readBytes a 32).getD j 0 = s.ms.mem.read (a + j) := by
    simp [Mem.readBytes, hmem, hj]
  have hold : bit (u.ms.mem.readLE a 32) (8 * j + i) = (s.ms.mem.read (a + j)).getLsbD i := by
    rw [bit, Mem.readLE, testBit_leNat, show (8 * j + i) / 8 = j by omega, show (8 * j + i) % 8 = i by omega, hbyte]
  have hkeep : (BitVec.ofNat 8 (keep / 256 ^ j)).getLsbD i = keep.testBit (8 * j + i) := by
    rw [BitVec.getLsbD_ofNat, show (256 : Nat) = 2 ^ 8 from rfl, ← Nat.pow_mul, Nat.testBit_div_two_pow, decide_eq_true hi, Bool.true_and,
      Nat.add_comm]
  rw [Mem.read_writeLE_in _ _ _ hj, hkeep, testBit_pickedPowers, hold, decide_eq_true (by omega), Bool.true_and]

/-- A byte whose bits are those of another but for bit k, which is clear. -/
theorem eq_clearBit {v w : Byte} {k : Nat} (h : ∀ i, i < 8 → w.getLsbD i = (v.getLsbD i && !decide (i = k))) :
    w = v &&& ~~~(1#8 <<< k) := by
  refine BitVec.eq_of_getLsbD_eq fun i hi => ?_
  have hbit : (1#8 <<< k).getLsbD i = decide (i = k) := by
    rw [BitVec.getLsbD_shiftLeft, BitVec.getLsbD_one, decide_eq_true hi, Bool.eq_iff_iff]
    simp
    omega
  rw [h i hi, BitVec.getLsbD_and, BitVec.getLsbD_not, hbit, decide_eq_true hi, Bool.true_and]

/-- A granule in which no byte is marked reads. -/
theorem clear_granule {s : State} {a : Nat} (ha : a % 32 = 0) (herr : s.rangeErr a 32 = none) (hp : s.isPoisoned (a / 32) = false) :
    s.clear a 32 := by
  refine ⟨herr, ?_⟩
  rw [State.poisonIn, List.find?_eq_none]
  intro g hg hmeets
  simp only [meets, Bool.and_eq_true, decide_eq_true_eq] at hmeets
  have hself : g = a / 32 := by omega
  rw [State.isPoisoned, ← hself] at hp
  exact Bool.eq_false_iff.mp hp (List.contains_iff_mem.mpr hg)

/-- The stacks of a range that can be read serve. -/
theorem all_stackServes {s : State} {a n : Nat} (h : s.rangeErr a n = none) : ¬ (stacksOf a n).any (fun m => !s.stackServes m) = true := by
  rw [rangeErr_eq_none_iff] at h
  simp only [List.any_eq_true, Bool.not_eq_true', not_exists, not_and, Bool.not_eq_false]
  intro m hm
  obtain ⟨hoff, hfails⟩ := h.2 m hm
  simp only [State.stackFails, Bool.or_eq_false_iff, decide_eq_false_iff_not, not_not] at hfails
  simp [State.stackServes, hoff, hfails.1]

section
variable {s : State} {bs : List Byte} (h : s.writes 0x0E00 5 bs) (hlen : bs.length = 8)
include h hlen

theorem reuseClear_range (hbeyond : s.dv 0x0E00 3 < par bs 0 4 + par bs 4 4) :
    ∃ t, exec .reuseClear s = .next t ∧ AnsweredWith dsRange s t ∧ t.ms = s.ms := by
  obtain ⟨f, r, l, -, -, hserve⟩ := served_of_writes h
  obtain ⟨hans, hsame⟩ := hserve s.reuseClear rfl rfl ((if_neg (not_not.mpr hlen)).trans (if_pos hbeyond)) rfl rfl
  exact ⟨_, rfl, hans, hsame.ms⟩

theorem reuseClear_none (hlo : par bs 0 4 ≤ s.dv 0x0E00 3) (hn : par bs 4 4 = 0) :
    ∃ t, exec .reuseClear s = .next t ∧ AnsweredWith dsOk s t ∧ t.ms = s.ms := by
  obtain ⟨f, r, l, -, -, hserve⟩ := served_of_writes h
  obtain ⟨hans, hsame⟩ := hserve s.reuseClear rfl rfl (a := ⟨s.withSessions l, dsOk, 0, none⟩)
    ((if_neg (not_not.mpr hlen)).trans ((if_neg (by rw [hn]; exact Nat.not_lt.mpr hlo)).trans (by simp only [hn]; rfl))) rfl rfl
  exact ⟨_, rfl, hans, hsame.ms⟩

theorem reuseClear_one (hin : par bs 0 4 + par bs 4 4 ≤ s.dv 0x0E00 3) (hn : par bs 4 4 = 1) (hbase : s.dv 0x0E00 1 % 2048 = 0) :
    let lo := par bs 0 4
    let a := s.dv 0x0E00 1 + 32 * (lo / 256)
    let b := s.dv 0x0E00 1 + lo / 8
    s.rangeErr a 32 = none → s.isPoisoned (a / 32) = false →
    ∃ t, exec .reuseClear s = .next t ∧ AnsweredWith dsOk s t ∧ t.ms.mem.read b = s.ms.mem.read b &&& ~~~(1#8 <<< (lo % 8)) ∧
      ∀ x, x ≠ b → t.ms.mem.read x = s.ms.mem.read x := by
  intro lo a b herr hpoison
  obtain ⟨f, r, l, -, -, hserve⟩ := served_of_writes h
  let v := s.withSessions l
  have hc : v.clear a 32 := clear_granule (by simp only [a]; omega) herr hpoison
  obtain ⟨haccess, hout, hin'⟩ := clearGranule_of_clear hc (s.dv 0x0E00 1) lo (lo + 1)
  have hone : (List.range ((lo + 1 - 1) / 256 + 1 - lo / 256)).map (fun i => v.dv 0x0E00 1 + 32 * (lo / 256 + i)) = [a] := by
    rw [Nat.add_sub_cancel, Nat.add_sub_cancel_left]; rfl
  have hserves : ¬ [a].any (fun a => (stacksOf a 32).any fun m => !v.stackServes m) = true := by
    rw [List.any_cons, List.any_nil, Bool.or_false]
    exact all_stackServes herr
  obtain ⟨hans, hsame⟩ := hserve s.reuseClear rfl rfl (a := ⟨v.clearGranule a (s.dv 0x0E00 1) lo (lo + 1), dsOk, 0, none⟩)
    ((if_neg (not_not.mpr hlen)).trans ((if_neg (Nat.not_lt.mpr hin)).trans (by
      simp only [hn]
      rw [if_neg Nat.one_ne_zero, hone, if_neg hserves]
      rfl))) haccess.boot haccess.current
  have hpick (j i : Nat) (hi : i < 8) : (decide (lo ≤ (a - s.dv 0x0E00 1) * 8 + (8 * j + i)) &&
      decide ((a - s.dv 0x0E00 1) * 8 + (8 * j + i) < lo + 1)) = decide (a + j = b ∧ i = lo % 8) := by
    rw [← Bool.decide_and, decide_eq_decide]
    simp only [a, b, Nat.add_sub_cancel_left]
    omega
  have hread (x : Nat) : s.reuseClear.ms.mem.read x = (v.clearGranule a (s.dv 0x0E00 1) lo (lo + 1)).ms.mem.read x := by rw [hsame.ms]
  have hbyte : b = a + (lo / 8 - 32 * (lo / 256)) := by simp only [a, b]; omega
  refine ⟨_, rfl, hans, ?_, fun x hx => ?_⟩
  · rw [hread, hbyte]
    refine eq_clearBit fun i hi => ?_
    rw [hin' _ i (by omega) hi, hpick _ i hi, ← hbyte]
    simp
    rfl
  · rw [hread]
    by_cases hgranule : x < a ∨ a + 32 ≤ x
    · exact hout x hgranule
    · obtain ⟨j, rfl⟩ := Nat.exists_eq_add_of_le (show a ≤ x by omega)
      refine BitVec.eq_of_getLsbD_eq fun i hi => ?_
      rw [hin' j i (by omega) hi, hpick j i hi]
      simp [hx]
      rfl

end

/-! ## REUSE_CONFIG_WRITE (R293) -/

/-- The stacks of a range are those that hold bytes of it. -/
theorem mem_stacksOf {a n m : Nat} : m ∈ stacksOf a n ↔ m < 8 ∧ max a (m * 2 ^ 37) < min (a + n) ((m + 1) * 2 ^ 37) := by
  unfold stacksOf
  split
  · next h =>
    subst h
    simp only [List.not_mem_nil, false_iff]
    omega
  · simp only [List.mem_filter, List.mem_range, meets, Bool.and_eq_true, decide_eq_true_eq]
    omega

theorem keepsServing_snoopInv (s : State) (a n : Nat) : KeepsServing s (s.snoopInv a n) := by
  unfold State.snoopInv
  dsimp only
  refine (keepsServing_foldl ?_ _ s).trans (keepsServing_withMs _ (List.Subset.refl _))
  exact fun t l => keepsServing_emit t _

/-- Zeroing a range of stacked memory zeroes its bytes and no others. -/
theorem memZero_spec (s : State) (a n : Nat) :
    OnlyAccess s (s.memZero a n) ∧ KeepsServing s (s.memZero a n) ∧ (s.memZero a n).ms.mem = s.ms.mem.zero a (a + n) := by
  let u := (s.snoopInv a n).withMs fun m => { m with mem := m.mem.zero a (a + n) }
  have hmem : u.ms.mem = s.ms.mem.zero a (a + n) := congrArg (fun m : Mem => m.zero a (a + n)) (snoopInv_keeps s a n).2.1
  have haccess : OnlyAccess s (u.fresh a n) := (onlyAccess_snoopInv s a n).trans ⟨rfl⟩
  have hkeeps : KeepsServing s (u.fresh a n) :=
    ((keepsServing_snoopInv s a n).trans (keepsServing_withMs _ (List.Subset.refl _))).trans
      (keepsServing_withMs u (List.filter_subset_self _))
  have hzero : s.memZero a n = (u.fresh a n).countWritten a n := rfl
  rw [hzero]
  refine ⟨haccess.trans (onlyAccess_countWritten _ a n), hkeeps.trans (keepsServing_foldl (fun t _ => keepsServing_bumpBw t _ _) _ _), ?_⟩
  rw [(countWritten_keeps _ a n).2.1]
  exact hmem

/-- One stack's part of the hub's zeroing (R149). -/
def State.zeroPart (a n : Nat) (t : State) (m : Nat) : State :=
  if t.stackOff m then t
  else if t.stackFails m then t.logNote 0 (0x10 + m) (BitVec.ofNat 128 (max a (m * 2 ^ 37)))
  else (t.memZero (max a (m * 2 ^ 37)) (inStack a n m)).useParity m

theorem memZeroHub_of_none {s : State} {a n : Nat} (h : s.rangeErr a n = none) :
    s.memZeroHub a n = (stacksOf a n).foldl (State.zeroPart a n) s := by
  simp only [State.memZeroHub, h]
  rfl

theorem memZeroHub_of_some {s : State} {a n : Nat} {e : AccErr} (h : s.rangeErr a n = some e) :
    s.memZeroHub a n = ((stacksOf a n).foldl (State.zeroPart a n) s).countErr e := by
  simp only [State.memZeroHub, h]
  rfl

theorem onlyAccess_memZeroHub (s : State) (a n : Nat) : OnlyAccess s (s.memZeroHub a n) := by
  have hparts : OnlyAccess s ((stacksOf a n).foldl (State.zeroPart a n) s) := by
    refine onlyAccess_foldl (fun t m => ?_) _ s
    refine .ite (.refl t) (.ite (onlyAccess_logNote t _ _ _) ?_)
    exact (memZero_spec t _ _).1.trans (onlyAccess_useParity _ m)
  cases h : s.rangeErr a n with
  | none => rw [memZeroHub_of_none h]; exact hparts
  | some e => rw [memZeroHub_of_some h]; exact hparts.trans (onlyAccess_countErr _ e)

theorem KeepsServing.stack_ok {s t : State} (h : KeepsServing s t) {m : Nat} (hm : s.stackOff m = false ∧ s.stackFails m = false) :
    t.stackOff m = false ∧ t.stackFails m = false := by
  obtain ⟨-, -, -, -, -, hpwr, -⟩ := h.only
  obtain ⟨hoff, hfails⟩ := hm
  have hlimit : t.retryLimit = s.retryLimit := h.dv _ _
  refine ⟨by rw [← hoff]; unfold State.stackOff State.block State.hubOf; rw [hpwr, h.boot], ?_⟩
  simp only [State.stackFails, Bool.or_eq_false_iff, decide_eq_false_iff_not, Nat.not_lt] at hfails ⊢
  exact ⟨by rw [h.fence]; exact hfails.1, hlimit ▸ (h.parity m).trans hfails.2⟩

/-- The part of a stack that serves. -/
theorem zeroPart_of_serving {t : State} {m : Nat} (h : t.stackOff m = false ∧ t.stackFails m = false) (a n : Nat) :
    KeepsServing t (t.zeroPart a n m) ∧
    (t.zeroPart a n m).ms.mem = t.ms.mem.zero (max a (m * 2 ^ 37)) (max a (m * 2 ^ 37) + inStack a n m) := by
  have hpart : t.zeroPart a n m = (t.memZero (max a (m * 2 ^ 37)) (inStack a n m)).useParity m := by
    rw [State.zeroPart, if_neg (Bool.eq_false_iff.mp h.1), if_neg (Bool.eq_false_iff.mp h.2)]
  obtain ⟨-, hkeeps, hmem⟩ := memZero_spec t (max a (m * 2 ^ 37)) (inStack a n m)
  rw [hpart]
  exact ⟨hkeeps.trans (keepsServing_useParity _ m), (useParity_keeps _ m).2.1.trans hmem⟩

/-- The parts of stacks that serve. -/
theorem foldl_zeroPart_spec {s : State} (a n : Nat) {l : List Nat} (h : ∀ m ∈ l, s.stackOff m = false ∧ s.stackFails m = false) :
    let t := l.foldl (State.zeroPart a n) s
    KeepsServing s t ∧ ∀ x, t.ms.mem.read x =
      if ∃ m ∈ l, max a (m * 2 ^ 37) ≤ x ∧ x < max a (m * 2 ^ 37) + inStack a n m then 0 else s.ms.mem.read x := by
  induction l using List.reverseRecOn with
  | nil => exact ⟨.refl s, fun x => by simp⟩
  | append_singleton l m ih =>
    obtain ⟨hkeeps, hread⟩ := ih fun k hk => h k (List.mem_append_left _ hk)
    obtain ⟨hkeeps', hmem⟩ := zeroPart_of_serving (hkeeps.stack_ok (h m List.mem_concat_self)) a n
    rw [List.foldl_append]
    refine ⟨hkeeps.trans hkeeps', fun x => ?_⟩
    rw [List.foldl_cons, List.foldl_nil, hmem, Mem.read_zero, hread]
    simp only [List.mem_append, List.mem_singleton, or_and_right, exists_or, exists_eq_left]
    by_cases hx : max a (m * 2 ^ 37) ≤ x ∧ x < max a (m * 2 ^ 37) + inStack a n m
    · rw [if_pos hx, if_pos (.inr hx)]
    · rw [if_neg hx]
      simp only [hx, or_false]

/-- The hub's zeroing of a range that can be written zeroes its bytes and no others. -/
theorem read_memZeroHub {s : State} {a n : Nat} (h : s.rangeErr a n = none) (x : Nat) :
    (s.memZeroHub a n).ms.mem.read x = if a ≤ x ∧ x < a + n then 0 else s.ms.mem.read x := by
  obtain ⟨htop, hstacks⟩ := rangeErr_eq_none_iff.mp h
  rw [memZeroHub_of_none h, (foldl_zeroPart_spec a n hstacks).2]
  refine if_congr ⟨?_, fun hx => ⟨x / 2 ^ 37, mem_stacksOf.mpr ?_, ?_⟩⟩ rfl rfl
  · rintro ⟨m, hm, hx⟩
    have hm := mem_stacksOf.mp hm
    simp only [inStack] at hx
    omega
  · simp only [stackTop] at htop
    omega
  · simp only [inStack]
    omega

/-- On a fenced stack the hub's zeroing leaves the bytes, and an uncorrectable error is counted (R149, R161). -/
theorem memZeroHub_of_fenced {s : State} {a n m : Nat} (htop : a + n ≤ stackTop) (hstacks : stacksOf a n = [m]) (hon : s.stackOff m = false)
    (hfence : (s.stack m).fence ≠ 0) : (s.memZeroHub a n).ms.mem = s.ms.mem ∧
    ((s.memZeroHub a n).stack m).ue = (s.stack m).ue + 1 := by
  have hfails : s.stackFails m = true := by simp [State.stackFails, hfence]
  have herr : s.rangeErr a n = some (.ue (max a (m * 2 ^ 37))) := by
    simp [State.rangeErr, Nat.not_lt.mpr htop, hstacks, hon, hfails]
  let u := s.logNote 0 (0x10 + m) (BitVec.ofNat 128 (max a (m * 2 ^ 37)))
  have hpart : s.zeroPart a n m = u := by
    rw [State.zeroPart, if_neg (Bool.eq_false_iff.mp hon), if_pos hfails]
  have hhub : s.memZeroHub a n = u.countUe (max a (m * 2 ^ 37)) := by
    rw [memZeroHub_of_some herr, hstacks, List.foldl_cons, List.foldl_nil, hpart]
    rfl
  have hstack : addrStack (max a (m * 2 ^ 37)) = m := by
    have hm := mem_stacksOf.mp (hstacks ▸ List.mem_singleton_self m)
    simp only [addrStack, bits]
    omega
  obtain ⟨-, hue⟩ := countUe_spec u (max a (m * 2 ^ 37))
  rw [hstack] at hue
  rw [hhub]
  exact ⟨(keepsCe_countUe u _).1.mem, hue⟩

/-- The value of an entry of the configuration, the written one replaced. -/
def State.reuseGet (s : State) (u : Nat) (bs : List Byte) (k : Nat) : Nat := if k = u then leNat bs else s.dv 0x0E00 k

section
variable {s : State} {u : Nat} {bs : List Byte} (h : s.writes 0x0E00 u bs) (hu : 1 ≤ u ∧ u ≤ 3)
include h hu

theorem reuseConfig_busy (hjobs : s.hub.jobs ≠ []) :
    ∃ t, exec .reuseConfigWrite s = .next t ∧ AnsweredWith dsReuseBusy s t ∧ t.ms = s.ms ∧ t.dv 0x0E00 u = s.dv 0x0E00 u := by
  obtain ⟨f, r, l, -, -, hserve⟩ := served_of_writes h
  obtain ⟨hans, hsame⟩ := hserve s.reuseConfig rfl (by simp [hu]) (if_pos hjobs) rfl rfl
  exact ⟨_, rfl, hans, hsame.ms, hsame.dv _ _⟩

variable (hjobs : s.hub.jobs = [])
include hjobs

theorem reuseConfig_tooMany (hmany : 2 ^ 24 < s.reuseGet u bs 3) : ∃ t, exec .reuseConfigWrite s = .next t ∧
    AnsweredWith dsReuseInvalid s t ∧ t.ms = s.ms ∧ t.dv 0x0E00 u = s.dv 0x0E00 u := by
  obtain ⟨f, r, l, -, rfl, hserve⟩ := served_of_writes h
  have hmany : 2 ^ 24 < if r.sub = 3 then leNat bs else s.dv 0x0E00 3 := by
    rw [State.reuseGet] at hmany
    simpa only [eq_comm] using hmany
  obtain ⟨hans, hsame⟩ := hserve s.reuseConfig rfl (by simp [hu]) ((if_neg (not_not.mpr hjobs)).trans (if_pos (.inl hmany))) rfl rfl
  exact ⟨_, rfl, hans, hsame.ms, hsame.dv _ _⟩

/-- A configuration that passes R293 takes effect, and its bitmap is zeroed. -/
theorem reuseConfig_accepted (hentries : s.reuseGet u bs 3 ≤ 2 ^ 24) (hbase : s.reuseGet u bs 1 % 2048 = 0)
    (htop : s.reuseGet u bs 1 + s.reuseGet u bs 2 ≤ stackTop) (hapart : s.meetsWeight (s.reuseGet u bs 1) (s.reuseGet u bs 2) = false)
    (hbitmap : validBytes (s.reuseGet u bs 3) ≤ s.reuseGet u bs 2) :
    ∃ l, AnsweredWith dsOk s s.reuseConfig ∧ s.reuseConfig.dv 0x0E00 u = leNat bs ∧ s.reuseConfig.ms =
      (((s.withSessions l).setDv 0x0E00 u (leNat bs)).memZeroHub (s.reuseGet u bs 1) (validBytes (s.reuseGet u bs 3))).ms := by
  obtain ⟨f, r, l, -, rfl, hserve⟩ := served_of_writes h
  have hget : (fun k => if r.sub = k then leNat bs else (s.withSessions l).dv 0x0E00 k) = s.reuseGet r.sub bs :=
    funext fun k => if_congr eq_comm rfl rfl
  have hvalid : ¬ (2 ^ 24 < s.reuseGet r.sub bs 3 ∨ s.reuseGet r.sub bs 1 % 2048 ≠ 0 ∨
      stackTop < s.reuseGet r.sub bs 1 + s.reuseGet r.sub bs 2 ∨
      (s.withSessions l).meetsWeight (s.reuseGet r.sub bs 1) (s.reuseGet r.sub bs 2) = true ∨
      s.reuseGet r.sub bs 2 < validBytes (s.reuseGet r.sub bs 3)) := by
    have hapart : (s.withSessions l).meetsWeight (s.reuseGet r.sub bs 1) (s.reuseGet r.sub bs 2) = false := hapart
    rw [hapart]
    simp only [hbase, Bool.false_eq_true, ne_eq, not_true_eq_false, false_or]
    omega
  have hzeroed : (if s.reuseGet r.sub bs 2 = 0 then 0 else validBytes (s.reuseGet r.sub bs 3)) = validBytes (s.reuseGet r.sub bs 3) := by
    split <;> omega
  have haccess := onlyAccess_memZeroHub ((s.withSessions l).setDv 0x0E00 r.sub (leNat bs)) (s.reuseGet r.sub bs 1)
    (validBytes (s.reuseGet r.sub bs 3))
  obtain ⟨hans, hsame⟩ := hserve s.reuseConfig rfl (by simp [hu]) (a := ⟨State.memZeroHub _ _ _, dsOk, 0, none⟩)
    ((if_neg (not_not.mpr hjobs)).trans (by
      show (if 2 ^ 24 < (fun k => if r.sub = k then leNat bs else (s.withSessions l).dv 0x0E00 k) 3 ∨ _ then _ else _) = _
      rw [hget, if_neg hvalid, hzeroed])) haccess.boot haccess.current
  exact ⟨l, hans, (hsame.dv _ _).trans ((haccess.dv _ _).trans (dv_setDv_self _ _ _ _)), hsame.ms⟩

end

/-- What can be reached of stacked memory does not go by the entries of the reuse store. -/
theorem rangeErr_setDv_reuse (s : State) {u : Nat} (hu : u < 256) (v a n : Nat) : (s.setDv 0x0E00 u v).rangeErr a n = s.rangeErr a n := by
  have hlimit : (s.setDv 0x0E00 u v).retryLimit = s.retryLimit :=
    dv_setDv_ne _ v fun heq => absurd ((dKey_inj (by decide) hu).mp heq).1 (by decide)
  have hfails : (s.setDv 0x0E00 u v).stackFails = s.stackFails := by
    funext m
    rw [State.stackFails, hlimit]
    rfl
  rw [State.rangeErr, hfails]
  rfl

/-! ## TAB_ENABLE (R307) -/

theorem tabEnable_spec {s : State} {bs : List Byte} (h : s.writes 0x0E10 1 bs) : ∃ t, exec .tabEnable s = .next t ∧
    AnsweredWith dsOk s t ∧ t.dv 0x0E10 1 = leNat bs ∧ t.cores = s.cores ∧ t.ms = s.ms := by
  obtain ⟨f, r, l, -, -, hserve⟩ := served_of_writes h
  obtain ⟨hans, hsame⟩ := hserve s.tabEnable rfl rfl rfl rfl rfl
  exact ⟨_, rfl, hans, (hsame.dv _ _).trans (dv_setDv_self _ _ _ _), hsame.cores, hsame.ms⟩

/-- Settles O42: each command by the lemmas of its cases; the entries of ROOM_LINK are copied one after the other, and the bitmap of a new
configuration is zeroed by what serves its stacks. -/
theorem roomLinkReuseTab : Obligations.RoomLinkReuseTab := by
  unfold Obligations.RoomLinkReuseTab
  refine ⟨fun bs s h hlen => ⟨roomLink_busy h hlen, fun hsrc hdst => ?link⟩,
    fun bs s h hlen => ⟨reuseClear_range h hlen, reuseClear_none h hlen, reuseClear_one h hlen⟩,
    fun u bs s hlo hhi h => ⟨reuseConfig_busy h ⟨hlo, hhi⟩, fun hjobs => reuseConfig_tooMany h ⟨hlo, hhi⟩ hjobs,
      fun hjobs hentries hbase htop hapart hbitmap => ?config⟩, fun bs s h => tabEnable_spec h⟩
  case link =>
    have hfree := not_or.mpr ⟨hsrc, hdst⟩
    refine ⟨roomLink_unmatched h hlen hfree, fun es hread hpairs => ⟨roomLink_gone h hlen hfree hread hpairs,
      roomLink_full h hlen hfree hread hpairs, fun hon hroom hes herr hpoison => ?_⟩⟩
    exact roomLink_links h hlen hfree hread hpairs hon hroom hes ⟨herr, hpoison⟩
  case config =>
    obtain ⟨l, hans, hdv, hms⟩ := reuseConfig_accepted h ⟨hlo, hhi⟩ hjobs hentries hbase htop hapart hbitmap
    refine ⟨fun herr => ⟨_, rfl, hans, hdv, ?_⟩, fun m hstacks hon hfence => ⟨_, rfl, hans, hdv, ?_⟩⟩
    · have herr := (rangeErr_setDv_reuse (s.withSessions l) (Nat.lt_of_le_of_lt hhi (by decide)) (leNat bs) _ _).trans herr
      have hread := read_memZeroHub herr
      rw [hms]
      exact ⟨fun a hlo hhi _ => (hread a).trans (if_pos ⟨hlo, hhi⟩), fun a hout => (hread a).trans (if_neg (by omega))⟩
    · obtain ⟨hmem, hue⟩ := memZeroHub_of_fenced (s := (s.withSessions l).setDv 0x0E00 u (leNat bs))
        ((Nat.add_le_add_left hbitmap _).trans htop) hstacks hon hfence
      rw [State.stack, hms]
      exact ⟨hmem, hue⟩

end Sys2Proof.Machine

/-! PROOFS. SCAT.KV (R233, R234, R243): what its decisions leave of the cores, what parking its stream leaves, and how it ends. -/

namespace Sys2Proof.Machine

/-! ## Parking a stream (R243) -/

theorem mem_mset {α : Type} (m : AMap α) (i : Nat) (v : α) : (i, v) ∈ mset m i v := by
  induction m with
  | nil => simp [mset]
  | cons p m ih =>
    unfold mset
    split
    · exact List.mem_cons_self
    split
    · exact List.mem_cons_self
    · exact List.mem_cons_of_mem _ ih

theorem vac_modVac (s : State) (p m q n : Nat) (f : Vacancy → Vacancy) :
    (s.modVac p m f).vac q n = if 8 * q + n = 8 * p + m then f (s.vac p m) else s.vac q n := mget_mmod ..

/-- The state in which a stream waits in a vacancy list, before its directory says so. -/
def State.parked (s : State) (stream g p m : Nat) : State := s.modVac p m (fun v => { v with parked := v.parked ++ [(stream, g, s.pacing)] })

theorem isParked_parked (s : State) (stream g p m : Nat) : (s.parked stream g p m).isParked stream = true :=
  List.any_eq_true.mpr ⟨_, mem_mset s.ms.vacancy (8 * p + m) _, by simp⟩

theorem free_parked (s : State) (stream g p m q n : Nat) : ((s.parked stream g p m).vac q n).free = (s.vac q n).free := by
  rw [State.parked, vac_modVac]
  split
  · next h => rw [State.vac, State.vac, h]
  · rfl

theorem park_of_waiting {s : State} {stream : Nat} (h : s.isParked stream = true) (g p m : Nat) : s.park stream g p m = s := if_pos h

theorem park_of_new {s : State} {stream : Nat} (h : s.isParked stream = false) (g p m : Nat) :
    s.park stream g p m = ((s.parked stream g p m).setRstate stream 2).dirAdd stream 4 1 := if_neg (Bool.eq_false_iff.mp h)

/-- Parking a stream keeps the cores and the free rooms of every list, and the stream is parked then. -/
theorem park_spec (s : State) (stream g p m : Nat) : let t := s.park stream g p m
    t.cores = s.cores ∧ t.isParked stream = true ∧ ∀ q n, (t.vac q n).free = (s.vac q n).free := by
  intro t
  by_cases h : s.isParked stream = true
  · have ht : t = s := park_of_waiting h g p m
    rw [ht]
    exact ⟨rfl, h, fun _ _ => rfl⟩
  · have haccess : OnlyAccess (s.parked stream g p m) t := by
      rw [show t = _ from park_of_new (Bool.eq_false_iff.mpr h) g p m]
      exact (onlyAccess_setRstate _ stream 2).trans (onlyAccess_dirAdd _ stream 4 1)
    exact ⟨haccess.cores, (haccess.isParked stream).trans (isParked_parked s stream g p m),
      fun q n => (congrArg Vacancy.free (haccess.vac q n)).trans (free_parked s stream g p m q n)⟩

/-- Of a directory that can be read and written, parking writes RSTATE and PARKS. -/
theorem mem_park_of_new {s : State} {stream : Nat} (hdir : s.hasDir stream = true) (hc : s.clear (s.dirBase stream) 64)
    (h : s.isParked stream = false) (g p m : Nat) : let base := s.dirBase stream
    (s.park stream g p m).ms.mem =
      (s.ms.mem.writeLE (base + 2) 1 2).writeLE (base + 4) 4 ((s.ms.mem.readLE (base + 4) 4 + 1) % 2 ^ 32) := by
  intro base
  let v := s.parked stream g p m
  have hc : v.clear base 64 := hc
  have hrstate : v.setRstate stream 2 = v.writeFor (v.streamJob stream) (base + 2) (leBytes 1 2) := if_pos hdir
  obtain ⟨hkeeps, hmem⟩ := writeFor_of_clear (clear_of_within hc (a := base + 2) (n := 1) (by omega) (by omega)) (v.streamJob stream)
    (leBytes_length 1 2)
  rw [← hrstate] at hkeeps hmem
  have hbase : (v.setRstate stream 2).dirBase stream = base := (onlyAccess_setRstate v stream 2).dirBase stream
  have hword := hkeeps.clear (clear_of_within hc (a := base + 4) (n := 4) (by omega) (by omega))
  rw [← hbase] at hword
  obtain ⟨-, hadd⟩ := dirAdd_of_clear hword 1
  rw [park_of_new h, hadd, hbase, hmem]
  have hapart : (s.ms.mem.writeLE (base + 2) 1 2).readLE (base + 4) 4 = s.ms.mem.readLE (base + 4) 4 :=
    Mem.readLE_writeLE_apart _ _ (.inr (by omega))
  rw [← hapart]
  rfl

/-- So every byte is as before but RSTATE, which reads PARKED, and PARKS, which is one more. -/
theorem read_park {s : State} {stream : Nat} (hdir : s.hasDir stream = true) (hc : s.clear (s.dirBase stream) 64) (g p m : Nat) :
    let base := s.dirBase stream
    let t := s.park stream g p m
    (∀ a, (a < base + 2 ∨ base + 3 ≤ a) → (a < base + 4 ∨ base + 8 ≤ a) → t.ms.mem.read a = s.ms.mem.read a) ∧
    (s.isParked stream = false → t.ms.mem.read (base + 2) = 2 ∧
      t.ms.mem.readLE (base + 4) 4 = (s.ms.mem.readLE (base + 4) 4 + 1) % 2 ^ 32) := by
  intro base t
  by_cases h : s.isParked stream = true
  · have ht : t = s := park_of_waiting h g p m
    rw [ht]
    exact ⟨fun _ _ _ => rfl, fun hnew => absurd h (Bool.eq_false_iff.mp hnew)⟩
  · have hmem : t.ms.mem = _ := mem_park_of_new hdir hc (Bool.eq_false_iff.mpr h) g p m
    rw [hmem]
    refine ⟨fun a hrstate hparks => ?_, fun _ => ⟨?_, ?_⟩⟩
    · rw [Mem.read_writeLE_out _ _ _ _ _ hparks, Mem.read_writeLE_out _ _ _ _ _ hrstate]
    · rw [Mem.read_writeLE_out _ _ _ _ _ (.inl (by omega))]
      exact Mem.read_writeLE_in _ (base + 2) 2 (i := 0) Nat.one_pos
    · rw [Mem.readLE_writeLE]
      exact Nat.mod_mod _ _

/-! ## The decisions (Table 9-5) -/

theorem takeRoom_cores {s t : State} {job : JobId} {stream g p m x : Nat} (h : s.takeRoom job stream g p m = some (x, t)) :
    t.cores = s.cores := by
  unfold State.takeRoom at h
  extract_lets left v at h
  clear_value left
  split at h
  · cases h
  dsimp only at h
  split at h
  · cases h
  · cases h
    split <;> rfl

theorem copyRoom_cores {s t : State} {old new n : Nat} (h : s.copyRoom old new n = .ok t) : t.cores = s.cores := by
  unfold State.copyRoom at h
  split at h
  · split at h
    · cases h
    · obtain ⟨⟨-, hcores, -⟩, -⟩ := memWriteOwn_ok (memWriteOwn_of_memWrite h)
      exact hcores.trans (onlyAccess_readDone s _ _).cores
  · cases h
    rfl

/-- Decisions that are all made leave the cores. -/
theorem decideRooms_cores {job : Job} {stream g : Nat} {hdr : GroupHdr} {l : List Nat} {s v : State} {hs : List RoomHold}
    (h : s.decideRooms job stream g hdr l = .holds hs v) : v.cores = s.cores := by
  induction l generalizing s hs with
  | nil =>
    cases h
    rfl
  | cons pos rest ih =>
    unfold State.decideRooms at h
    extract_lets put at h
    have hput {u : State} {k ord room : Nat} {x : RoomDecision} (hu : put u k ord room x = .holds hs v) : v.cores = u.cores := by
      have hentry : (if x = .overwrite then u.memWriteHub (u.entryAddr stream hdr k) (leBytes 8 (dirEntry ord 1 room))
          else if x = .inPlace then u else u.memWriteHub (u.entryAddr stream hdr k) (leBytes 8 (dirEntry ord 2 room))).cores = u.cores :=
        (OnlyAccess.ite (onlyAccess_memWriteHub u _ _) (.ite (.refl u) (onlyAccess_memWriteHub u _ _))).cores
      simp only [put] at hu
      split at hu
      · next hrest =>
        cases hu
        exact (ih hrest).trans hentry
      · next hnot => exact absurd hu (hnot _ _)
    split at h
    · cases h
    · cases h
    · exact hput h
    · exact hput h
    · split at h
      · cases h
      · next ht => exact (hput h).trans (takeRoom_cores ht)
    · split at h
      · cases h
      · next ht =>
        split at h
        · cases h
        · next hcopy => exact (hput h).trans ((onlyAccess_dirAdd _ _ _ _).cores.trans ((copyRoom_cores hcopy).trans (takeRoom_cores ht)))

/-! ## Its directory's reads -/

/-- The state once SCAT.KV has read the directory's header. -/
def State.scatHeader (s : State) (d : Nat) : State := s.readDone (s.dirBase (dStream d)) 64

/-- The state once it has read the group's header and the entries too. -/
def State.scatRead (s : State) (d : Nat) : State :=
  ((s.scatHeader d).scatTables d).foldl (fun (t : State) r => t.readDone r.1 r.2) (s.scatHeader d)

theorem foldl_readDone_spec (l : List (Nat × Nat)) (s : State) : let t := l.foldl (fun (t : State) r => t.readDone r.1 r.2) s
    OnlyAccess s t ∧ KeepsBytes s t ∧ KeepsServing s t :=
  ⟨onlyAccess_foldl (fun t _ => onlyAccess_readDone t _ _) l s, KeepsBytes.foldl _ (fun t _ => readDone_keeps t _ _) l s,
    keepsServing_foldl (fun t _ => keepsServing_readDone t _ _) l s⟩

theorem scatRead_spec (s : State) (d : Nat) : OnlyAccess s (s.scatRead d) ∧ KeepsBytes s (s.scatRead d) ∧ KeepsServing s (s.scatRead d) := by
  obtain ⟨haccess, hbytes, hkeeps⟩ := foldl_readDone_spec ((s.scatHeader d).scatTables d) (s.scatHeader d)
  exact ⟨(onlyAccess_readDone s _ _).trans haccess, (readDone_keeps s _ _).trans hbytes, (keepsServing_readDone s _ _).trans hkeeps⟩

theorem dirGroups_congr {s t : State} (haccess : OnlyAccess s t) (hmem : t.ms.mem = s.ms.mem) (stream : Nat) :
    t.dirGroups stream = s.dirGroups stream := by
  rw [State.dirGroups, State.dirRead, haccess.dirBase, hmem]
  rfl

/-! ## How SCAT.KV ends -/

/-- The instruction waits to retire with a status, and the core store is as it was. -/
def EndsWith (c : Nat) (ord : Word) (i : Byte) (s t : State) : Prop :=
  (∀ q ∈ (t.core c).queue, q.ord = ord → q.phase = .done i) ∧ (t.core c).store = (s.core c).store

theorem endsWith_finish {s t : State} (h : t.cores = s.cores) (c : Nat) (ord : Word) (i : Byte) : EndsWith c ord i s (t.finish c ord i) := by
  refine ⟨fun q => phase_of_mem_finish, ?_⟩
  rw [State.finish, core_modEntry, core_of_cores h]
  rfl

/-- The end of a SCAT.KV whose rows are stored: its entry keeps the hold. -/
def State.rowsStored (t : State) (c : Nat) (e : QEntry) (hs : List RoomHold) : State :=
  ((t.modEntry c e.ord (fun q => { q with rooms := hs })).countPorts c .scatKv).finish c e.ord iOk

theorem rowsStored_spec {s t : State} (h : t.cores = s.cores) (c : Nat) (e : QEntry) (hs : List RoomHold) : let u := t.rowsStored c e hs
    EndsWith c e.ord iOk s u ∧ (∀ q ∈ (u.core c).queue, q.ord = e.ord → q.rooms = hs) ∧ u.ms = t.ms := by
  obtain ⟨⟨⟨hms, -⟩, -⟩, hcore⟩ := countPorts_modEntry_spec (t.modEntry c e.ord fun q => { q with rooms := hs }) c .scatKv e.ord
    fun q => { q with phase := .done iOk }
  rw [core_modEntry t c e.ord fun q => { q with rooms := hs }, core_of_cores h, withEntry_withEntry] at hcore
  case hf => exact fun _ => rfl
  refine ⟨⟨fun q => phase_of_mem_finish, (congrArg Core.store hcore :)⟩, fun q hq ho => ?_, hms⟩
  have hqueue := (congrArg Core.queue hcore :)
  obtain ⟨r, rfl⟩ := exists_of_mem_map_ord (hqueue ▸ hq) ho
  rfl

/-- Rows go to the rooms of a hold; where they cannot be stored, the entry keeps the hold all the same (R234). -/
def State.scatStore (s : State) (c : Nat) (e : QEntry) (size : Nat) (hs : List RoomHold) : State :=
  match s.scatWrite c e size hs.zipIdx with
  | .ok t => t.rowsStored c e hs
  | .error t => t.modEntry c e.ord (fun q => { q with rooms := hs })

theorem scatStore_ok {s y : State} {c size : Nat} {e : QEntry} {hs : List RoomHold} (h : s.scatWrite c e size hs.zipIdx = .ok y) :
    s.scatStore c e size hs = y.rowsStored c e hs := by
  simp only [State.scatStore, h]

/-- A hold that is taken is counted: its rooms that a NEW or a COPY took (Table 21-5). -/
def State.holdTaken (v : State) (c : Nat) (hs : List RoomHold) : State :=
  v.bumpCluster (clusterOf c) 23 (hs.countP (fun x => decide (x.decision ≠ .inPlace ∧ x.decision ≠ .overwrite)))

/-- What follows the decisions of a SCAT.KV (Table 9-5, R243). -/
def State.scatDecided (u : State) (c : Nat) (e : QEntry) (hdr : GroupHdr) (size : Nat) : Decided → State
  | .wait => u
  | .order => u.finish c e.ord iRoundOrder
  | .noVacancy => (u.park (dStream e.d) (kBgrp e.d) hdr.pool hdr.home).finish c e.ord iNoVacancy
  | .err x => u.coreAccFault c e.ord x
  | .holds hs v => (v.holdTaken c hs).scatStore c e size hs

section
variable {s : State} {c : CoreId} {job : Job} {e : QEntry} (hrun : s.runningOf c .scatKv = some (job, e))
include hrun

theorem runScat_ended (h : s.heldBy job (dStream e.d) = false) : s.runScat c = s.finish c e.ord iSkipped := by
  simp only [State.runScat, hrun, h]
  rfl

variable (hheld : s.heldBy job (dStream e.d) = true)
include hheld

theorem runScat_thirdRoom (h : 2 < (touchedRooms (kPos e.d) (dSop1 e.d).rows).length) : s.runScat c = s.coreFault c stOverflow 6 e.ord := by
  simp only [State.runScat, hrun, hheld, h]
  rfl

variable (hrooms : ¬ 2 < (touchedRooms (kPos e.d) (dSop1 e.d).rows).length)
include hrooms

theorem runScat_unreadable {x : AccErr} (h : s.memRead (s.dirBase (dStream e.d)) 64 = .error x) : s.runScat c = s.coreAccFault c e.ord x := by
  simp only [State.runScat, hrun, hheld, hrooms, h]
  rfl

variable {got : List Byte} (hgot : s.memRead (s.dirBase (dStream e.d)) 64 = .ok got)
include hgot

/-- A group that the directory does not have, or pitches that do not hold a row (R233). -/
theorem runScat_roundInvalid (h : (s.scatHeader e.d).dirGroups (dStream e.d) ≤ kBgrp e.d ∨
      ((dSop1 e.d).pitch < roomStride (s.pool (s.groupHdr (dStream e.d) (kBgrp e.d)).pool).size ∨
      (dSop2 e.d).pitch < roomStride (s.pool (s.groupHdr (dStream e.d) (kBgrp e.d)).pool).size ∨
      (s.pool (s.groupHdr (dStream e.d) (kBgrp e.d)).pool).size = 0)) :
    s.runScat c = (s.scatHeader e.d).finish c e.ord iRoundInvalid := by
  simp only [State.runScat, hrun, hheld, hrooms, hgot, Bool.not_true, Bool.false_eq_true, if_false]
  by_cases hgroup : (s.scatHeader e.d).dirGroups (dStream e.d) ≤ kBgrp e.d
  · exact if_pos hgroup
  · exact (if_neg hgroup).trans (if_pos (h.resolve_left hgroup))

variable (hvalid : ¬ ((s.scatHeader e.d).dirGroups (dStream e.d) ≤ kBgrp e.d ∨
      ((dSop1 e.d).pitch < roomStride (s.pool (s.groupHdr (dStream e.d) (kBgrp e.d)).pool).size ∨
      (dSop2 e.d).pitch < roomStride (s.pool (s.groupHdr (dStream e.d) (kBgrp e.d)).pool).size ∨
      (s.pool (s.groupHdr (dStream e.d) (kBgrp e.d)).pool).size = 0)))
include hvalid

/-- An instruction that finds its hold writes its rows there (R234). -/
theorem runScat_reuses (h : e.rooms ≠ []) :
    s.runScat c = (s.scatHeader e.d).scatStore c e (s.pool (s.groupHdr (dStream e.d) (kBgrp e.d)).pool).size e.rooms := by
  simp only [State.runScat, hrun, hheld, hrooms, hgot, Bool.not_true, Bool.false_eq_true, if_false]
  refine (if_neg (not_or.mp hvalid).1).trans ((if_neg (not_or.mp hvalid).2).trans ((if_pos ?_).trans ?_))
  · simp [h]
  · rfl

variable (hnew : e.rooms = [])
include hnew

theorem runScat_tablesUnreadable {x : AccErr} (h : (s.scatHeader e.d).scatErr e.d = some x) :
    s.runScat c = (s.scatHeader e.d).coreAccFault c e.ord x := by
  have h : (s.readDone (s.dirBase (dStream e.d)) 64).scatErr e.d = some x := h
  simp only [State.runScat, hrun, hheld, hrooms, hgot, h, Bool.not_true, Bool.false_eq_true, if_false]
  refine (if_neg (not_or.mp hvalid).1).trans ((if_neg (not_or.mp hvalid).2).trans ((if_neg ?_).trans ?_))
  · simp [hnew]
  · rfl

theorem runScat_decides (h : (s.scatHeader e.d).scatErr e.d = none) : s.runScat c =
    (s.scatRead e.d).scatDecided c e (s.groupHdr (dStream e.d) (kBgrp e.d)) (s.pool (s.groupHdr (dStream e.d) (kBgrp e.d)).pool).size
      ((s.scatRead e.d).decideRooms job (dStream e.d) (kBgrp e.d) (s.groupHdr (dStream e.d) (kBgrp e.d))
        (touchedRooms (kPos e.d) (dSop1 e.d).rows)) := by
  have h : (s.readDone (s.dirBase (dStream e.d)) 64).scatErr e.d = none := h
  simp only [State.runScat, hrun, hheld, hrooms, hgot, h, Bool.not_true, Bool.false_eq_true, if_false]
  refine (if_neg (not_or.mp hvalid).1).trans ((if_neg (not_or.mp hvalid).2).trans ((if_neg ?_).trans ?_))
  · simp [hnew]
  · rfl

end

/-- What NO_VACANCY leaves, for a directory that has been read (R243). -/
theorem noVacancy_spec {s : State} {d c : Nat} {got : List Byte} (hgot : s.memRead (s.dirBase (dStream d)) 64 = .ok got)
    (hgroup : kBgrp d < s.dirGroups (dStream d)) (p m : Nat) (ord : Word) :
    let base := s.dirBase (dStream d)
    let t := ((s.scatRead d).park (dStream d) (kBgrp d) p m).finish c ord iNoVacancy
    EndsWith c ord iNoVacancy s t ∧ t.isParked (dStream d) = true ∧
      (∀ a, (a < base + 2 ∨ base + 3 ≤ a) → (a < base + 4 ∨ base + 8 ≤ a) → t.ms.mem.read a = s.ms.mem.read a) ∧
      (s.isParked (dStream d) = false → t.ms.mem.read (base + 2) = 2 ∧
        t.ms.mem.readLE (base + 4) 4 = (s.ms.mem.readLE (base + 4) 4 + 1) % 2 ^ 32) ∧
      (t.core c).queue.map QEntry.rooms = (s.core c).queue.map QEntry.rooms ∧ ∀ p m, (t.vac p m).free = (s.vac p m).free := by
  intro base t
  let u := s.scatRead d
  obtain ⟨haccess, ⟨-, hmem, -⟩, hkeeps⟩ := scatRead_spec s d
  have hbase : u.dirBase (dStream d) = base := haccess.dirBase _
  have hdir : u.hasDir (dStream d) = true := by
    have hgroups : u.dirGroups (dStream d) = s.dirGroups (dStream d) := dirGroups_congr haccess hmem _
    rw [State.hasDir, hgroups]
    exact decide_eq_true (by omega)
  have hc : u.clear (u.dirBase (dStream d)) 64 := hbase ▸ hkeeps.clear (clear_of_memRead hgot)
  obtain ⟨hcores, hparked, hfree⟩ := park_spec u (dStream d) (kBgrp d) p m
  obtain ⟨hout, hnew⟩ := read_park hdir hc (kBgrp d) p m
  rw [hbase, hmem, haccess.isParked] at hnew
  rw [hbase, hmem] at hout
  refine ⟨endsWith_finish (hcores.trans haccess.cores) c ord _, hparked, hout, hnew, ?_,
    fun p m => (hfree p m).trans (congrArg Vacancy.free (haccess.vac p m))⟩
  have hcore : t.core c = (s.core c).withEntry ord fun q => { q with phase := .done iNoVacancy } := by
    rw [← core_of_cores (hcores.trans haccess.cores) c]
    exact core_modEntry _ c ord _
  rw [hcore, Core.withEntry, List.map_map]
  refine List.map_congr_left fun q _ => ?_
  rw [Function.comp_apply]
  split <;> rfl

/-- Settles O43: each case of the command, in the order in which it looks at them; what the reads leave, what parking leaves, and what the
decisions leave of the core. -/
theorem scatKvDecides : Obligations.ScatKvDecides := by
  unfold Obligations.ScatKvDecides
  intro c s job e hrun d hdr base size touched ends held w u
  have hexec {t : State} (h : s.runScat c = t) : exec (.scatKv c) s = .next t := congrArg Host.Outcome.next h
  obtain ⟨haccess, ⟨⟨-, hcores, -, -, hhub, -⟩, hmem, -⟩, -⟩ := scatRead_spec s d
  have hheader := readsOnly_readDone s (s.dirBase (dStream d)) 64
  have hgroups : w.dirGroups (dStream d) = s.dirGroups (dStream d) := dirGroups_congr (onlyAccess_readDone s _ _) hheader.2 _
  refine ⟨fun hnot => ?_, fun hheld hthird => hexec (runScat_thirdRoom hrun hheld hthird),
    fun x hheld hrooms hx => hexec (runScat_unreadable hrun hheld (Nat.not_lt.mpr hrooms) hx), fun got hheld hrooms hgot => ?_⟩
  · exact ⟨_, hexec (runScat_ended hrun (Bool.eq_false_iff.mpr hnot)), endsWith_finish rfl c e.ord _, rfl⟩
  have hrooms := Nat.not_lt.mpr hrooms
  refine ⟨fun hbad => ?_, fun hgood => ?_⟩
  · rw [← hgroups] at hbad
    exact ⟨_, hexec (runScat_roundInvalid hrun hheld hrooms hgot hbad), endsWith_finish hheader.1 c e.ord _, rfl, hheader.2⟩
  have hvalid := hgood
  rw [← hgroups] at hvalid
  refine ⟨fun x hnew hx => hexec (runScat_tablesUnreadable hrun hheld hrooms hgot hvalid hnew hx), fun hnew hread => ?_,
    fun y hold hy => ?_⟩
  · have hdecides := runScat_decides hrun hheld hrooms hgot hvalid hnew hread
    refine ⟨hmem, hhub, hcores, fun hd => ?_, fun hd => ?_, fun hd => ?_, fun x hd => ?_, fun hs v y hd hy => ?_⟩
    · exact hexec (hdecides.trans (congrArg (State.scatDecided u c e hdr size) hd))
    · exact ⟨_, hexec (hdecides.trans (congrArg (State.scatDecided u c e hdr size) hd)), endsWith_finish hcores c e.ord _, rfl⟩
    · exact ⟨_, hexec (hdecides.trans (congrArg (State.scatDecided u c e hdr size) hd)),
        noVacancy_spec hgot (Nat.not_le.mp (not_or.mp hgood).1) _ _ _⟩
    · exact hexec (hdecides.trans (congrArg (State.scatDecided u c e hdr size) hd))
    · have hstored : y.cores = s.cores := (writeDev_cores hy).trans ((decideRooms_cores hd).trans hcores)
      obtain ⟨hends, hrooms, hms⟩ := rowsStored_spec hstored c e hs
      exact ⟨_, hexec (hdecides.trans ((congrArg (State.scatDecided u c e hdr size) hd).trans (scatStore_ok hy))), hends, hrooms, hms⟩
  · obtain ⟨hends, -, hms⟩ := rowsStored_spec ((writeDev_cores hy).trans hheader.1) c e e.rooms
    exact ⟨_, hexec ((runScat_reuses hrun hheld hrooms hgot hvalid hold).trans (scatStore_ok hy)), hends, hms⟩

end Sys2Proof.Machine

/-! PROOFS. The elements that an SFN leaves in the core store (R33, R253, R262, R263). -/

namespace Sys2Proof.Machine

/-! ## Elements of packed bytes (R33) -/

theorem leNat_append (as bs : List Byte) : leNat (as ++ bs) = leNat as + 256 ^ as.length * leNat bs := by
  induction as with
  | nil => rw [List.nil_append, List.length_nil, Nat.pow_zero, Nat.one_mul]; exact (Nat.zero_add _).symm
  | cons a as ih => rw [List.cons_append, leNat, leNat, ih, List.length_cons]; ring

theorem Mem.readBytes_add (m : Mem) (a k n : Nat) : m.readBytes a (k + n) = m.readBytes a k ++ m.readBytes (a + k) n := by
  simp only [Mem.readBytes, List.range_add, List.map_append, List.map_map, Function.comp_def, Nat.add_assoc]

/-- The number that a part of a range spells is a field of the whole range's number. -/
theorem leNat_readBytes_part (m : Mem) (a : Nat) {k n l : Nat} (h : k + n ≤ l) :
    leNat (m.readBytes (a + k) n) = leNat (m.readBytes a l) / 256 ^ k % 256 ^ n := by
  obtain ⟨rest, rfl⟩ := Nat.exists_eq_add_of_le h
  have hbefore := leNat_lt (m.readBytes a k)
  have hpart := leNat_lt (m.readBytes (a + k) n)
  rw [Mem.readBytes_length] at hbefore hpart
  rw [Nat.add_assoc, Mem.readBytes_add, Mem.readBytes_add, leNat_append, leNat_append, Mem.readBytes_length, Mem.readBytes_length,
    Nat.add_mul_div_left _ _ (by positivity), Nat.div_eq_of_lt hbefore, Nat.zero_add, Nat.add_mul_mod_self_left,
    Nat.mod_eq_of_lt hpart]

/-- Four bytes within packed FP32 elements spell an element. -/
theorem leNat_readBytes_fp32 (m : Mem) (a : Nat) {j n : Nat} (hj : j < n) :
    leNat (m.readBytes (a + 4 * j) 4) = elemAt 0 (leNat (m.readBytes a (4 * n))) j := by
  have hpow : (256 : Nat) ^ (4 * j) = 2 ^ (j * 32) := by
    rw [show (256 : Nat) = 2 ^ 8 by decide, ← Nat.pow_mul]; congr 1; omega
  rw [leNat_readBytes_part m a (l := 4 * n) (by omega), hpow]; rfl

theorem elemAt_succ (f v i : Nat) : elemAt f v (i + 1) = elemAt f (v / 2 ^ fmtBits f) i := by
  simp only [elemAt, Nat.div_div_eq_div_mul, ← Nat.pow_add, Nat.succ_mul, Nat.add_comm]

theorem getElem?_unpack (f v : Nat) {n i : Nat} (h : i < n) : (unpack (fmtBits f) n v)[i]? = some (elemAt f v i) := by
  induction n generalizing v i with
  | zero => cases h
  | succ n ih =>
    cases i with
    | zero => simp [unpack, elemAt]
    | succ i => rw [unpack, List.getElem?_cons_succ, ih _ (Nat.lt_of_succ_lt_succ h), elemAt_succ]

theorem unpack_length (w n v : Nat) : (unpack w n v).length = n := by
  induction n generalizing v with
  | zero => rfl
  | succ n ih => rw [unpack, List.length_cons, ih]

theorem elemAt_packNat (f : Nat) {cs : List Nat} {i c : Nat} (h : cs[i]? = some c) :
    elemAt f (packNat (fmtBits f) cs) i = c % 2 ^ fmtBits f := by
  induction cs generalizing i with
  | nil => cases h
  | cons x cs ih =>
    have hlow : x % 2 ^ fmtBits f < 2 ^ fmtBits f := Nat.mod_lt _ (by positivity)
    cases i with
    | zero =>
      obtain rfl : x = c := Option.some.inj h
      simp [packNat, elemAt]
    | succ i =>
      rw [elemAt_succ, packNat, Nat.add_mul_div_left _ _ (by positivity), Nat.div_eq_of_lt hlow, Nat.zero_add]
      exact ih h

theorem packNat_lt (w : Nat) (cs : List Nat) : packNat w cs < 2 ^ (w * cs.length) := by
  induction cs with
  | nil => exact Nat.one_pos
  | cons c cs ih =>
    have hlow : c % 2 ^ w < 2 ^ w := Nat.mod_lt _ (by positivity)
    calc c % 2 ^ w + 2 ^ w * packNat w cs
        < 2 ^ w * (packNat w cs + 1) := by rw [Nat.mul_succ]; omega
      _ ≤ 2 ^ w * 2 ^ (w * cs.length) := Nat.mul_le_mul_left _ ih
      _ = 2 ^ (w * (c :: cs).length) := by rw [← Nat.pow_add, List.length_cons, Nat.mul_succ, Nat.add_comm]

/-- The bytes of packed FP32 codes spell the packed number, which fits in them. -/
theorem leNat_leBytes_packNat_fp32 (cs : List Nat) : leNat (leBytes (4 * cs.length) (packNat 32 cs)) = packNat 32 cs := by
  have hpow : (256 : Nat) ^ (4 * cs.length) = 2 ^ (32 * cs.length) := by
    rw [show (256 : Nat) = 2 ^ 8 by decide, ← Nat.pow_mul]; congr 1; omega
  rw [leNat_leBytes, hpow, Nat.mod_eq_of_lt (packNat_lt 32 cs)]

/-! ## Rows of an FP32 operand -/

theorem rowBytes_fp32 (n : Nat) : rowBytes 0 n = 4 * n := by
  simp only [rowBytes, fmtBits, cdiv]; omega

/-- Element j of an FP32 row is the value of its four bytes. -/
theorem Operand.getElem?_row_fp32 {o : Operand} (hf : o.fmt = 0) (m : Mem) (r width : Nat) {j n : Nat} (hj : j < n) :
    (o.row m r n width)[j]? = some (fp32.decode (leNat (m.readBytes (o.addr + r * o.pitch + 4 * j) 4))) := by
  have hrow : o.row m r n width =
      (unpack (fmtBits 0) n (leNat (m.readBytes (o.addr + r * o.pitch) (4 * n)))).map (decodeElem 0) := by
    simp [Operand.row, Operand.rowCodes, Mem.readLE, hf, rowBytes_fp32, isMx]
  rw [hrow, List.getElem?_map, getElem?_unpack 0 _ hj, ← leNat_readBytes_fp32 m _ hj]
  rfl

theorem Operand.row_length_fp32 {o : Operand} (hf : o.fmt = 0) (m : Mem) (r n width : Nat) : (o.row m r n width).length = n := by
  simp [Operand.row, Operand.rowCodes, hf, isMx, unpack_length]

/-- A row of FP32 values is one write of their packed codes. -/
theorem Operand.writeRow_cs_fp32 {o : Operand} (hf : o.fmt = 0) (r width : Nat) {vs : List Val} (hvs : vs ≠ []) :
    (o.writeRow r width vs).cs = [(o.addr + r * o.pitch, leBytes (4 * vs.length) (packNat 32 (vs.map fp32.encode)))] := by
  have hcodes : (vs.map (encodeElem 0)).map Conv.code = vs.map fp32.encode := by rw [List.map_map]; rfl
  have hmx : isMx 0 = false := by decide
  simp only [Operand.writeRow, hf, hmx, List.isEmpty_eq_false_iff.mpr hvs, rowBytes_fp32, hcodes, Bool.false_eq_true, if_false]
  rfl

/-! ## The bytes of the core store among an instruction's writes -/

theorem Writes.foldl_append_cs (ws : List Writes) (w : Writes) :
    (ws.foldl Writes.append w).cs = w.cs ++ ws.flatMap Writes.cs := by
  induction ws generalizing w with
  | nil => exact (List.append_nil _).symm
  | cons v ws ih => rw [List.foldl_cons, ih, List.flatMap_cons]; exact List.append_assoc ..

@[simp] theorem Writes.join_cs (ws : List Writes) : (Writes.join ws).cs = ws.flatMap Writes.cs :=
  Writes.foldl_append_cs ws {}

/-- One iteration of a row map writes each row of OUT. -/
theorem mem_rowMap_cs {d : Nat} {m : Mem} {g : Nat → List Val → List Val} {p : Nat × List Byte} :
    p ∈ (rowMap d [0] none m g).cs ↔ ∃ r < (dSop1 d).rows,
      p ∈ ((dSop2 d).writeRow r (vCols d) (g r ((dSop1 d).row m r (vCols d) (vCols d)))).cs := by
  simp only [rowMap, Writes.join_cs, List.map_cons, List.map_nil, List.flatMap_cons, List.flatMap_nil, List.append_nil,
    Operand.iter_zero, Operand.clip_none, List.flatMap_map, List.mem_flatMap, List.mem_range]

/-- After writes of which each is the given one or apart from it, its bytes are as written. -/
theorem readBytes_foldl_writeBytes {l : List (Nat × List Byte)} (m : Mem) {a : Nat} {bs : List Byte} (hmem : (a, bs) ∈ l)
    (hapart : ∀ p ∈ l, p = (a, bs) ∨ p.1 + p.2.length ≤ a ∨ a + bs.length ≤ p.1) :
    (l.foldl (fun m p => m.writeBytes p.1 p.2) m).readBytes a bs.length = bs := by
  induction l using List.reverseRecOn with
  | nil => cases hmem
  | append_singleton l p ih =>
    rw [List.foldl_concat]
    by_cases hp : p = (a, bs)
    · rw [hp]; exact Mem.readBytes_writeBytes _ a bs
    · have hin : (a, bs) ∈ l := (List.mem_append.mp hmem).resolve_right fun h => hp (List.mem_singleton.mp h).symm
      have hout := (hapart p (by simp)).resolve_left hp
      rw [Mem.readBytes_congr _ _ _ _ fun i hi => Mem.read_writeBytes_out _ p.1 p.2 (a + i) (by omega)]
      exact ih hin fun q hq => hapart q (List.mem_append_left _ hq)

/-! ## One iteration of an FP32 SFN -/

/-- The codes of row r of OUT: each value of row r of IN through the pre-affine step and the table (R263). -/
def sfnCodes (d : Nat) (m : Mem) (b : SfuBank) (r : Nat) : List Nat :=
  ((dSop1 d).row m r (vCols d) (vCols d)).map fun x => fp32.encode (sfuEval b (ffma (vPreA d) x (vPreB d)))

section Sfn
variable {d : Nat} {m : Mem} {b : SfuBank}

theorem sfnCodes_length (hin : (dSop1 d).fmt = 0) (r : Nat) : (sfnCodes d m b r).length = vCols d := by
  rw [sfnCodes, List.length_map, Operand.row_length_fp32 hin]

theorem getElem?_sfnCodes (hin : (dSop1 d).fmt = 0) (r : Nat) {j : Nat} (hj : j < vCols d) :
    (sfnCodes d m b r)[j]? = some (fp32.encode (sfuEval b (ffma (vPreA d)
      (fp32.decode (leNat (m.readBytes ((dSop1 d).addr + r * (dSop1 d).pitch + 4 * j) 4))) (vPreB d)))) := by
  rw [sfnCodes, List.getElem?_map, Operand.getElem?_row_fp32 hin m r _ hj]; rfl

theorem mem_sfnWrites_cs (hin : (dSop1 d).fmt = 0) (hout : (dSop2 d).fmt = 0) (hcols : 0 < vCols d) {p : Nat × List Byte} :
    p ∈ (sfnWrites d [0] none m b).cs ↔ ∃ r < (dSop1 d).rows,
      p = ((dSop2 d).addr + r * (dSop2 d).pitch, leBytes (4 * vCols d) (packNat 32 (sfnCodes d m b r))) := by
  rw [sfnWrites, mem_rowMap_cs]
  refine exists_congr fun r => and_congr_right fun _ => ?_
  have hlen := Operand.row_length_fp32 hin m r (vCols d) (vCols d)
  have hne : (dSop1 d).row m r (vCols d) (vCols d) ≠ [] := List.ne_nil_of_length_pos (by omega)
  rw [Operand.writeRow_cs_fp32 hout _ _ (mt List.map_eq_nil_iff.mp hne), List.length_map, hlen, List.map_map, List.mem_singleton]
  rfl

/-- A row that fits the pitch ends before every later row begins. -/
theorem rowEnd_le (a : Nat) {n pitch r r' : Nat} (hfits : n ≤ pitch) (h : r < r') : a + r * pitch + n ≤ a + r' * pitch := by
  have hnext : (r + 1) * pitch ≤ r' * pitch := Nat.mul_le_mul_right pitch h
  rw [Nat.succ_mul] at hnext
  omega

/-- Rows of OUT that fit their pitch do not meet, so each row's bytes are its packed codes. -/
theorem readBytes_sfnWrites (hin : (dSop1 d).fmt = 0) (hout : (dSop2 d).fmt = 0) (hcols : 0 < vCols d)
    (hpitch : 4 * vCols d ≤ (dSop2 d).pitch) {r : Nat} (hr : r < (dSop1 d).rows) (k : Mem) :
    ((sfnWrites d [0] none m b).cs.foldl (fun m p => m.writeBytes p.1 p.2) k).readBytes
      ((dSop2 d).addr + r * (dSop2 d).pitch) (4 * vCols d) = leBytes (4 * vCols d) (packNat 32 (sfnCodes d m b r)) := by
  have h := readBytes_foldl_writeBytes k ((mem_sfnWrites_cs (m := m) (b := b) hin hout hcols).mpr ⟨r, hr, rfl⟩) fun p hp => ?_
  · rwa [leBytes_length] at h
  obtain ⟨r', _, rfl⟩ := (mem_sfnWrites_cs hin hout hcols).mp hp
  simp only [leBytes_length]
  rcases Nat.lt_trichotomy r' r with hlt | rfl | hlt
  · exact .inr (.inl (rowEnd_le _ hpitch hlt))
  · exact .inl rfl
  · exact .inr (.inr (rowEnd_le _ hpitch hlt))

end Sfn

/-- Settles O18: the row's bytes after the instruction are its packed codes, of which the element's four bytes are code j. Where OUT
overlaps IN, the values are those of the store at the start, which is the model's choice (log 229). -/
theorem sfnElement : Obligations.SfnElement := by
  unfold Obligations.SfnElement
  intro c s job e b r j hrun hbank hbatch hclaim hclip hin hout hr hj hpitch
  obtain ⟨-, -, hengines, -⟩ := enginesStoreTheirResults c s job e
  obtain ⟨t, hexec, ⟨-, ⟨hstore, -⟩, -⟩, -⟩ := (hengines b hbank).1 hrun
  refine ⟨t, hexec, ?_⟩
  rw [its_of_single hbatch hclaim, hclip] at hstore
  have hcodes := leNat_leBytes_packNat_fp32 (sfnCodes e.d (s.core c).store b r)
  rw [sfnCodes_length hin] at hcodes
  rw [leNat_readBytes_fp32 _ _ hj, hstore, readBytes_sfnWrites hin hout (Nat.zero_lt_of_lt hj) hpitch hr, hcodes]
  exact (elemAt_packNat 0 (getElem?_sfnCodes hin r hj)).trans (Nat.mod_eq_of_lt (fp32_encode_lt _))

end Sys2Proof.Machine

/-! PROOFS. Reuse checks and tabs (R288, R302, R303): what a retirement that is made visible leaves of its core, the two ways a tab
resolves, and the lines that a void restores. -/

namespace Sys2Proof.Machine

/-! ## The effects of a retirement (R104, R294) -/

/-- Making effects visible changes of core c its pending posts, its predictors and its counts of settled checks. -/
def EffectsOnly (c : Nat) (s t : State) : Prop :=
  t.core c = { s.core c with posts := (t.core c).posts, predictors := (t.core c).predictors, ctr := (t.core c).ctr } ∧
  ∀ i, i ≠ 15 → i ≠ 16 → t.coreCtr c i = s.coreCtr c i

theorem EffectsOnly.refl (c : Nat) (s : State) : EffectsOnly c s s := ⟨rfl, fun _ _ _ => rfl⟩

theorem EffectsOnly.trans {c : Nat} {s t u : State} (h : EffectsOnly c s t) (h' : EffectsOnly c t u) : EffectsOnly c s u := by
  obtain ⟨hcore, hctr⟩ := h
  obtain ⟨hcore', hctr'⟩ := h'
  refine ⟨?_, fun i h15 h16 => (hctr' i h15 h16).trans (hctr i h15 h16)⟩
  rw [hcore']; generalize u.core c = y; rw [hcore]

theorem effectsOnly_of_cores {s t : State} (h : t.cores = s.cores) (c : Nat) : EffectsOnly c s t := by
  have hcore := core_of_cores h c
  exact ⟨by rw [hcore], fun i _ _ => congrArg (fun x : Core => mget 0 x.ctr i) hcore⟩

theorem effectsOnly_modCore (s : State) (c : Nat) {f : Core → Core}
    (hf : ∀ x, f x = { x with posts := (f x).posts, predictors := (f x).predictors }) : EffectsOnly c s (s.modCore c f) := by
  have hcore := core_modCore_self s c f
  have hctr : (f (s.core c)).ctr = (s.core c).ctr := by rw [hf]
  refine ⟨?_, fun i _ _ => ?_⟩
  · rw [hcore, hctr]; exact hf _
  · rw [State.coreCtr, hcore, hctr]; rfl

theorem coreCtr_bumpCore_ne (s : State) (c i n : Nat) {j : Nat} (h : j ≠ i) : (s.bumpCore c i n).coreCtr c j = s.coreCtr c j := by
  simp only [State.coreCtr, State.bumpCore, core_modCore_self, mget_mmod, if_neg h]

/-- The check counts as found or as not found (Table 21-5). -/
theorem effectsOnly_bumpCore (s : State) (c : Nat) (reuse : Bool) : EffectsOnly c s (s.bumpCore c (if reuse then 15 else 16) 1) := by
  refine ⟨?_, fun i h15 h16 => coreCtr_bumpCore_ne s c _ 1 ?_⟩
  · rw [core_bumpCore]
  · cases reuse
    · exact h16
    · exact h15

/-- Setting a valid bit touches what an access of stacked memory may touch, whether it succeeds or faults (Table 6-4). -/
theorem onlyAccess_setValid (s : State) (c : Nat) (ord : Word) (entry : Nat) : OnlyAccess s (s.setValid c ord entry) := by
  unfold State.setValid
  dsimp only
  split
  · exact onlyAccess_accFault s _ _ _ _ _
  · exact (onlyAccess_readDone s _ _).trans (onlyAccess_memWriteJob _ _ _ _ _ _ _)

theorem effectsOnly_post (s : State) (c : Nat) (job : Job) (p : PendPost) : EffectsOnly c s (s.makeEffect c job (.post p)) :=
  effectsOnly_modCore s c fun _ => rfl

theorem effectsOnly_recordOutcome (s : State) (c entry : Nat) (reuse : Bool) : EffectsOnly c s (s.recordOutcome c entry reuse) :=
  effectsOnly_modCore s c fun _ => rfl

theorem effectsOnly_valid (s : State) (c : Nat) (job : Job) (ord : Word) (entry : Nat) (reuse record : Bool) :
    EffectsOnly c s (s.makeEffect c job (.valid ord entry reuse record)) := by
  have hset : EffectsOnly c s ((s.setValid c ord entry).bumpCore c (if reuse then 15 else 16) 1) :=
    (effectsOnly_of_cores (onlyAccess_setValid s c ord entry).cores c).trans (effectsOnly_bumpCore _ c reuse)
  cases record with
  | false => exact hset
  | true => exact hset.trans (effectsOnly_recordOutcome _ c entry reuse)

/-- An instruction without a claim that retires with OK makes visible at most its valid bit and its post. -/
theorem mem_effects_of_unclaimed {e : QEntry} {h : Held} (hclaim : e.claim = none) (hmem : h ∈ e.effects iOk) :
    (∃ p, h = .post p) ∨ ∃ reuse record, h = .valid e.ord (uEntry e.d) reuse record := by
  simp only [QEntry.effects, hclaim, if_true, List.nil_append] at hmem
  rcases List.mem_append.mp hmem with hvalid | hpost
  · split at hvalid
    · exact .inr ⟨_, _, List.mem_singleton.mp hvalid⟩
    · cases hvalid
  · obtain ⟨p, -, rfl⟩ := List.mem_map.mp hpost
    exact .inl ⟨p, rfl⟩

theorem effectsOnly_effects (s : State) (c : Nat) (job : Job) {e : QEntry} (hclaim : e.claim = none) :
    EffectsOnly c s ((e.effects iOk).foldl (fun t h => t.makeEffect c job h) s) := by
  refine List.foldlRecOn _ _ (EffectsOnly.refl c s) fun t ht h hmem => ht.trans ?_
  rcases mem_effects_of_unclaimed hclaim hmem with ⟨p, rfl⟩ | ⟨reuse, record, rfl⟩
  · exact effectsOnly_post t c job p
  · exact effectsOnly_valid t c job _ _ reuse record

/-! ## A check leaves the queue -/

theorem core_sampleDone (s : State) (k : Nat) (what : Nat × Nat) (c : Nat) : (s.sampleDone k what).core c = s.core c :=
  core_of_cores (sampleDone_only s k what).2.1 c

/-- Beside its queue, which the entries of that ordinal have left, the core changes as its effects ask and in its reuse blocks. -/
def LeavesQueue (c : Nat) (ord : Word) (s t : State) : Prop :=
  t.core c = { s.core c with
    queue := (s.core c).queue.filter (fun q => decide (q.ord ≠ ord))
    posts := (t.core c).posts, predictors := (t.core c).predictors, ctr := (t.core c).ctr, blocks := (t.core c).blocks } ∧
  ∀ i, i ≠ 15 → i ≠ 16 → t.coreCtr c i = s.coreCtr c i

theorem leavesQueue_resolveOwn (s : State) (c : Nat) (job : Job) {e : QEntry} (hclaim : e.claim = none) (hclaimed : e.claimed = false) :
    LeavesQueue c e.ord s (s.resolveOwn c job e) := by
  obtain ⟨hcore, hctr⟩ := effectsOnly_effects s c job hclaim
  generalize ht : (e.effects iOk).foldl (fun t h => t.makeEffect c job h) s = t at hcore hctr
  have hleft : (s.resolveOwn c job e).core c =
      ({ t.core c with queue := (t.core c).queue.filter (fun q => decide (q.ord ≠ e.ord)) } : Core).purge := by
    simp only [State.resolveOwn, State.retireEntry, ht, core_sampleDone, core_modCore_self, Core.closeClaim, hclaimed, Bool.false_and,
      Bool.false_eq_true, if_false]
  refine ⟨?_, fun i h15 h16 => Eq.trans ?_ (hctr i h15 h16)⟩
  · rw [hleft, hcore]; rfl
  · rw [State.coreCtr, hleft]; rfl

/-- The counts of a resolved tab come after its check has left the queue. -/
theorem LeavesQueue.counted {c i : Nat} {ord : Word} {s t : State} (h : LeavesQueue c ord s t) (n : Nat) (h15 : i ≠ 15) (h16 : i ≠ 16)
    (e : QEntry) (voided : Bool) : let u := (t.bumpCore c i n).tallySite e voided
    u.core c = { s.core c with
      queue := (s.core c).queue.filter (fun q => decide (q.ord ≠ ord))
      posts := (t.core c).posts, predictors := (t.core c).predictors, ctr := (u.core c).ctr, blocks := (t.core c).blocks } ∧
    u.coreCtr c i = s.coreCtr c i + BitVec.ofNat 64 n := by
  obtain ⟨hcore, hctr⟩ := h
  have hbump := core_bumpCore t c i n c
  rw [hcore] at hbump
  exact ⟨hbump, (coreCtr_bumpCore t c i n).trans (by rw [hctr i h15 h16])⟩

/-! ## A tab settles (R302) -/

/-- The core once a tab is closed and what its instructions filled is no longer on tab. -/
def Core.withoutTab (x : Core) (id : Nat) : Core :=
  { x with
    tabs := x.tabs.filter (fun u => decide (u.id ≠ id))
    tags := x.tags.map (fun p => if p.2.tab = some id then (p.1, { p.2 with tab := none }) else p) }

/-- The oldest tab is closed, and its check is retired and counted. -/
def State.checkSettled (s : State) (c : Nat) (job : Job) (t : Tab) (e : QEntry) : State :=
  (((s.modCore c (fun x => x.withoutTab t.id)).resolveOwn c job e).bumpCore c 13 1).tallySite e false

/-- The instructions on a tab that have retired. -/
def Core.goneWith (x : Core) (id : Nat) : List QEntry :=
  x.queue.filter (fun q => decide (q.tab = some id) && q.isRetired && (x.ownTab q).isNone)

/-- Its instructions are off the tab: those that have retired leave the queue. -/
def State.offTab (s : State) (c id : Nat) : State :=
  (((s.core c).goneWith id).foldl (fun u q => u.sampleDone (clusterOf c) (c, q.ord.toNat)) (s.modCore c fun x =>
    ((s.core c).goneWith id).foldl Core.closeClaim { x with
      queue := (x.queue.filter (fun q => !((s.core c).goneWith id).any (fun g => g.ord == q.ord))).map
        (fun q => if q.tab = some id then { q with tab := none } else q) })).modCore c Core.purge

theorem settleTab_of_noHeld {t : Tab} (h : t.held = []) (s : State) (c : Nat) (job : Job) (e : QEntry) :
    s.settleTab c job t e = (s.checkSettled c job t e).offTab c t.id := by
  simp only [State.settleTab, h, List.foldl_nil]
  rfl

/-- A tab that is closed leaves the tabs of other names, and counts as settled. -/
theorem checkSettled_spec (s : State) (c : Nat) (job : Job) (t : Tab) {e : QEntry} (hclaim : e.claim = none) (hclaimed : e.claimed = false) :
    ((s.checkSettled c job t e).core c).tabs = (s.core c).tabs.filter (fun u => decide (u.id ≠ t.id)) ∧
    (s.checkSettled c job t e).coreCtr c 13 = s.coreCtr c 13 + 1 := by
  have hclosed := core_modCore_self s c fun x => x.withoutTab t.id
  have hleft := leavesQueue_resolveOwn (s.modCore c fun x => x.withoutTab t.id) c job hclaim hclaimed
  obtain ⟨hcore, hctr⟩ := hleft.counted (i := 13) 1 (by decide) (by decide) e false
  rw [State.coreCtr, State.coreCtr, hclosed] at hctr
  rw [hclosed] at hcore
  exact ⟨(congrArg Core.tabs hcore :), hctr⟩

theorem closeClaim_eq (x : Core) (e : QEntry) : x.closeClaim e = { x with claims := (x.closeClaim e).claims } := by
  unfold Core.closeClaim
  split <;> rfl

theorem foldl_closeClaim_eq (l : List QEntry) (x : Core) :
    l.foldl Core.closeClaim x = { x with claims := (l.foldl Core.closeClaim x).claims } := by
  induction l generalizing x with
  | nil => rfl
  | cons e l ih =>
    rw [List.foldl_cons, ih]; generalize (l.foldl Core.closeClaim (x.closeClaim e)).claims = m; rw [closeClaim_eq]

theorem foldl_sampleDone_core (l : List QEntry) (s : State) (k c d : Nat) :
    (l.foldl (fun u q => u.sampleDone k (d, q.ord.toNat)) s).core c = s.core c :=
  List.foldlRecOn (motive := fun u => u.core c = s.core c) l _ rfl fun u hu _ _ => (core_sampleDone u k _ c).trans hu

/-- Nothing in the queue is on the tab then, and the other tabs and the counters are as before. -/
theorem offTab_spec (s : State) (c id : Nat) : ((s.offTab c id).core c).tabs = (s.core c).tabs ∧
    (∀ q ∈ ((s.offTab c id).core c).queue, q.tab ≠ some id) ∧ ∀ i, (s.offTab c id).coreCtr c i = s.coreCtr c i := by
  let kept := (s.core c).queue.filter (fun q => !((s.core c).goneWith id).any (fun g => g.ord == q.ord))
  obtain ⟨m, hm⟩ : ∃ m, (s.offTab c id).core c = ({ s.core c with
      queue := kept.map (fun q => if q.tab = some id then { q with tab := none } else q), claims := m } : Core).purge := by
    rw [State.offTab, core_modCore_self, foldl_sampleDone_core, core_modCore_self, foldl_closeClaim_eq]
    exact ⟨_, rfl⟩
  refine ⟨(congrArg Core.tabs hm :), fun q hq => ?_, fun i => (congrArg (fun x : Core => mget 0 x.ctr i) hm :)⟩
  have hqueue := (congrArg Core.queue hm :)
  obtain ⟨r, -, rfl⟩ := List.mem_map.mp (hqueue ▸ hq)
  split
  · exact nofun
  · assumption

/-- That the streams it ended end with the sweep's status leaves the cores as they are (R24). -/
theorem governed_cores (s t : State) : (s.governed t).cores = t.cores := by
  unfold State.governed
  split
  · rfl
  · refine List.foldlRecOn (motive := fun u : State => u.cores = t.cores) _ _ rfl fun u hu i _ => Eq.trans ?_ hu
    exact ((onlyAccess_memWriteHub _ _ _).trans (onlyAccess_memWriteHub _ _ _)).cores

/-! ## A tab voids (R302) -/

/-- The core once its tabs are void and the check has decided its block. -/
def Core.voidedBy (x : Core) (id : Nat) (reuse : Bool) : Core :=
  { x.voidTabs id with blocks := decideBlock (x.voidTabs id).blocks id reuse }

/-- Voiding the tabs and taking the check out of the queue: the lines that wait, the entries that go back, and the count. -/
theorem voidTab_spec (s : State) (c : Nat) (job : Job) (t : Tab) {e : QEntry} (reuse : Bool) (hclaim : e.claim = none)
    (hclaimed : e.claimed = false) : let u := s.voidTab c job t e reuse
    (u.core c).tabs = [] ∧ (u.core c).restore = ((s.core c).voidTabs t.id).restore ∧
    (u.core c).queue = ((s.core c).voidTabs t.id).queue.filter (fun q => decide (q.ord ≠ e.ord)) ∧
    u.coreCtr c 14 = s.coreCtr c 14 + BitVec.ofNat 64 (s.core c).tabs.length := by
  have hvoid := core_modCore_self s c fun x => x.voidedBy t.id reuse
  have hleft := leavesQueue_resolveOwn (s.modCore c fun x => x.voidedBy t.id reuse) c job hclaim hclaimed
  obtain ⟨hcore, hctr⟩ := hleft.counted (i := 14) (s.core c).tabs.length (by decide) (by decide) e true
  rw [State.coreCtr, State.coreCtr, hvoid] at hctr
  rw [hvoid] at hcore
  exact ⟨(congrArg Core.tabs hcore :), (congrArg Core.restore hcore :), (congrArg Core.queue hcore :), hctr⟩

/-- Taking an ordinal out of a queue and putting entries back as unstarted may go in either order. -/
theorem filter_ord_map (l : List QEntry) (ord : Word) {g : QEntry → QEntry} (hg : ∀ q, (g q).ord = q.ord) :
    (l.map g).filter (fun q => decide (q.ord ≠ ord)) = (l.filter (fun q => decide (q.ord ≠ ord))).map g := by
  rw [List.filter_map]
  congr 2
  exact funext fun q => by rw [Function.comp_apply, hg]

/-! ## The three commands -/

theorem runReuse_of_running {s : State} {c : Nat} {job : Job} {e : QEntry} (h : s.runningOf c .reuseChk = some (job, e)) :
    s.runReuse c = ((s.modEntry c e.ord (fun q => { q with outcome := some (e.computed && reusePasses e.d (s.core c).store) })).countPorts c
      .reuseChk).finish c e.ord iOk := by
  simp only [State.runReuse, h]

/-- The check is done with its outcome, and beside its entry and the counters nothing changes. -/
theorem runReuse_spec {s : State} {c : Nat} {job : Job} {e : QEntry} (h : s.runningOf c .reuseChk = some (job, e)) :
    OnlyCore c s (s.runReuse c) ∧ (s.runReuse c).core c = { (s.core c).withEntry e.ord (fun q => { q with
      outcome := some (e.computed && reusePasses e.d (s.core c).store), phase := .done iOk }) with ctr := ((s.runReuse c).core c).ctr } := by
  rw [runReuse_of_running h, State.finish]
  generalize (e.computed && reusePasses e.d (s.core c).store) = o
  obtain ⟨honly, hcore⟩ := countPorts_modEntry_spec (s.modEntry c e.ord (fun q => { q with outcome := some o })) c .reuseChk e.ord
    (fun q => { q with phase := .done iOk })
  refine ⟨(onlyCore_modCore s c _).trans honly, hcore.trans ?_⟩
  rw [core_modEntry s, withEntry_withEntry (s.core c) e.ord (f := fun q => { q with outcome := some o }) fun _ => rfl]

theorem tabResolve_of_oldest {s : State} {c : Nat} {job : Job} {t : Tab} {rest : List Tab} {o : Bool} {e : QEntry}
    (hjob : s.coreJob c = some job) (htabs : (s.core c).tabs = t :: rest) (hout : t.outcome = some o)
    (he : (s.core c).entry? (BitVec.ofNat 32 t.id) = some e) :
    s.tabResolve c = if o = t.pred then s.governed (s.settleTab c job t e) else s.voidTab c job t e o := by
  simp only [State.tabResolve, hjob, htabs, hout, he]

theorem restoreLog_of_single {x : Core} {g : LogLine} (hrestore : x.restore = [g]) (hacc : g.acc = false) :
    x.restoreLog = { x with
      store := x.store.writeBytes (64 * g.line + g.off) g.bytes
      tags := clearTags x.tags (64 * g.line + g.off) g.bytes.length
      restore := [] } := by
  simp only [Core.restoreLog, hrestore, List.foldl_cons, List.foldl_nil, Core.restoreLine, hacc, Bool.false_eq_true, if_false]

theorem tabLogRestore_of_free {s : State} {c : Nat} {job : Job} (hjob : s.coreJob c = some job) (hfree : (s.core c).portsFree 4 = true) :
    s.tabLogRestore c = s.modCore c Core.restoreLog := by
  simp [State.tabLogRestore, hjob, hfree]

/-- Settles O24: the running check is done with its outcome; the oldest tab settles or voids as its check came out; a line that waits is
written back. -/
theorem reuseAndTabs : Obligations.ReuseAndTabs := by
  unfold Obligations.ReuseAndTabs
  intro c s job
  refine ⟨fun e hrun => ?_, fun tb rest o e hjob htabs hout he hclaim hclaimed hheld hrest _ => ?_,
    fun g hjob hfree hrestore hacc => ?_⟩
  · obtain ⟨honly, hcore⟩ := runReuse_spec hrun
    refine ⟨_, rfl, honly, (congrArg Core.store hcore :), fun q hq ho => ?_⟩
    have hqueue := (congrArg Core.queue hcore :)
    obtain ⟨r, rfl⟩ := exists_of_mem_map_ord (hqueue ▸ hq) ho
    exact ⟨rfl, rfl⟩
  · have hresolve := tabResolve_of_oldest hjob htabs hout he
    refine ⟨fun hpred => ?_, fun hpred => ?_⟩
    · rw [if_pos hpred, settleTab_of_noHeld hheld] at hresolve
      obtain ⟨htaken, hcount⟩ := checkSettled_spec s c job tb hclaim hclaimed
      obtain ⟨hkept, hoff, hctr⟩ := offTab_spec (s.checkSettled c job tb e) c tb.id
      have hcore := core_of_cores (governed_cores s ((s.checkSettled c job tb e).offTab c tb.id)) c
      refine ⟨_, congrArg Host.Outcome.next hresolve, ?_, ?_, ?_⟩
      · have hothers : (tb :: rest).filter (fun u => decide (u.id ≠ tb.id)) = rest := by simpa using hrest
        rw [hcore, hkept, htaken, htabs, hothers]
      · rw [hcore]; exact hoff
      · rw [State.coreCtr, hcore]; exact (hctr 13).trans hcount
    · rw [if_neg hpred] at hresolve
      obtain ⟨hgone, hlines, hqueue, hcount⟩ := voidTab_spec s c job tb o hclaim hclaimed
      refine ⟨_, congrArg Host.Outcome.next hresolve, hgone, ?_, ?_, ?_⟩
      · rw [hlines, ← htabs]; rfl
      · refine hqueue.trans (filter_ord_map _ _ fun q => ?_)
        split <;> rfl
      · rw [hcount, htabs]; rfl
  · intro at_
    have hcore := (core_modCore_self s c Core.restoreLog).trans (restoreLog_of_single hrestore hacc)
    have hstore : ((s.modCore c Core.restoreLog).core c).store = (s.core c).store.writeBytes at_ g.bytes :=
      (congrArg Core.store hcore :)
    refine ⟨_, congrArg Host.Outcome.next (tabLogRestore_of_free hjob hfree), onlyCore_modCore s c _, (congrArg Core.restore hcore :),
      (congrArg Core.acc hcore :), ?_, fun a ha => ?_⟩
    · rw [hstore]; exact Mem.readBytes_writeBytes _ at_ g.bytes
    · rw [hstore]; exact Mem.read_writeBytes_out _ _ _ _ ha

end Sys2Proof.Machine

/-! PROOFS. One step of the queue, the state before the first power-on, and the ALU operations (R78, R326, R407, Table 3-7). -/

namespace Sys2Proof.Machine

/-- Settles O1: a step is its definition by the queue; the idle tick counts where ROOT is locked. -/
theorem stepRunsFront : Obligations.StepRunsFront := by
  unfold Obligations.StepRunsFront
  refine ⟨fun c s rest h => by rw [step, h], fun s h => ?_⟩
  have hidle : step s = .next s.idle := by rw [step, h]
  rw [hidle, State.idle]
  split <;> rfl

/-- Settles O58: each part is at its default, and the two memories that are not empty are written in canonical form. -/
theorem resetState : Obligations.ResetState := by
  unfold Obligations.ResetState
  refine ⟨by decide, fun _ => rfl, fun _ => rfl, rfl, fun _ => rfl, fun _ => rfl, rfl, rfl, rfl, fun _ _ => rfl, fun _ _ => rfl,
    fun _ => rfl, fun _ => ⟨rfl, rfl⟩, fun _ => rfl, fun _ => rfl, fun _ => rfl, fun _ => rfl, fun _ => rfl, rfl, rfl, rfl, rfl, rfl, rfl, ?_⟩
  decide

/-- The high half of a signed product is the product divided by 2^64, rounded down. -/
theorem mulh_eq (a b : Quad) : mulh a b = BitVec.ofInt 64 (a.toInt * b.toInt / 2 ^ 64) := by
  have hproduct : a.signExtend 128 * b.signExtend 128 = BitVec.ofInt 128 (a.toInt * b.toInt) := by
    rw [BitVec.signExtend, BitVec.signExtend, ← BitVec.ofInt_mul]
  rw [mulh, hproduct]
  generalize a.toInt * b.toInt = p
  apply BitVec.eq_of_toNat_eq
  simp only [BitVec.truncate_eq_setWidth, BitVec.toNat_setWidth, BitVec.toNat_ushiftRight, BitVec.toNat_ofInt, Nat.shiftRight_eq_div_pow]
  omega

theorem ofInt_min_toInt (a b : Quad) : (if a.slt b then a else b) = BitVec.ofInt 64 (min a.toInt b.toInt) := by
  simp only [BitVec.slt_eq_decide, decide_eq_true_eq]
  split
  · rw [min_eq_left (by omega), BitVec.ofInt_toInt]
  · rw [min_eq_right (by omega), BitVec.ofInt_toInt]

theorem ofInt_max_toInt (a b : Quad) : (if a.slt b then b else a) = BitVec.ofInt 64 (max a.toInt b.toInt) := by
  simp only [BitVec.slt_eq_decide, decide_eq_true_eq]
  split
  · rw [max_eq_right (by omega), BitVec.ofInt_toInt]
  · rw [max_eq_left (by omega), BitVec.ofInt_toInt]

theorem ofNat_min_toNat (a b : Quad) : (if a.ult b then a else b) = BitVec.ofNat 64 (min a.toNat b.toNat) := by
  simp only [BitVec.ult_eq_decide, decide_eq_true_eq]
  split
  · rw [min_eq_left (by omega), BitVec.ofNat_toNat, BitVec.setWidth_eq]
  · rw [min_eq_right (by omega), BitVec.ofNat_toNat, BitVec.setWidth_eq]

theorem ofNat_max_toNat (a b : Quad) : (if a.ult b then b else a) = BitVec.ofNat 64 (max a.toNat b.toNat) := by
  simp only [BitVec.ult_eq_decide, decide_eq_true_eq]
  split
  · rw [max_eq_right (by omega), BitVec.ofNat_toNat, BitVec.setWidth_eq]
  · rw [max_eq_left (by omega), BitVec.ofNat_toNat, BitVec.setWidth_eq]

theorem regStep_aluOp {s : State} {k : Nat} (h : (s.seqJob k).isSome) (fn : Nat) (gd ga gb : BitVec 5) (f : Quad → Quad → Quad) :
    RegStep k s (s.aluOp k fn gd ga gb f) gd (f (s.gReg k ga) (s.gReg k gb)) ((s.seq k).pc + 4) :=
  regStep_seqOp h _ gd _ _ rfl

/-- Settles O2: each operation is `aluOp` with its function. -/
theorem aluResults : Obligations.AluResults := by
  unfold Obligations.AluResults
  intro k gd ga gb s h a b n pc
  have hop : ∀ (i : Instr) (fn : Nat) (f : Quad → Quad → Quad) (v : Quad), exec i s = .next (s.aluOp k fn gd ga gb f) →
      f a b = v → ∃ t, exec i s = .next t ∧ RegStep k s t gd v pc :=
    fun i fn f v hi hv => ⟨_, hi, hv ▸ regStep_aluOp h fn gd ga gb f⟩
  refine ⟨hop _ _ _ _ rfl rfl, hop _ _ _ _ rfl rfl, hop _ _ _ _ rfl rfl, hop _ _ _ _ rfl rfl, hop _ _ _ _ rfl rfl, hop _ _ _ _ rfl rfl,
    hop _ _ _ _ rfl rfl, hop _ _ _ _ rfl rfl, hop _ _ _ _ rfl ?_, hop _ _ _ _ rfl ?_, hop _ _ _ _ rfl ?_, hop _ _ _ _ rfl ?_,
    hop _ _ _ _ rfl ?_, hop _ _ _ _ rfl ?_, hop _ _ _ _ rfl ?_, hop _ _ _ _ rfl ?_⟩
  · exact BitVec.eq_of_toNat_eq (by simp [BitVec.toNat_mul])
  · exact mulh_eq a b
  · exact ofInt_min_toInt a b
  · exact ofInt_max_toInt a b
  · exact ofNat_min_toNat a b
  · exact ofNat_max_toNat a b
  · simp [flag, BitVec.slt_eq_decide]
  · simp [flag, BitVec.ult_eq_decide]

end Sys2Proof.Machine

/-! PROOFS. What a port loses as it goes down, goes off or is fenced (R320–R322, R352), and what AUTO_BYPASS does (R330). -/

namespace Sys2Proof.Machine

/-! ## What losing a port may touch -/

/-- The porter without the commands that end, how their ends are told, and the log. -/
def Porter.sansLoss (p : Porter) : Porter :=
  { p with cmds := [], results := [], mbResult := false, sessions := [], log := [], logSeq := 0, alertPin := false, alertSeq := 0 }

/-- The state without what losing a port may touch: the ports, rings and groups, the sweep that a lost group starts, the commands that end
with the port and how their ends are told, the slots they wrote, the log, the count of service stops and the enables of drained ports. -/
def State.sansLoss (s : State) : State :=
  { s with
    out := [], draws := 0
    net := { s.net with ports := [], rings := [], groups := [] }
    hub := { s.hub with
      msixPending := 0, sweeping := false, swept := false, sweepJob := none, sweepCause := 0, lastFault := {}, sweeps := 0 }
    car := { s.car with slots := [] }
    por := s.por.sansLoss
    boot := { s.boot with stops := 0 }
    pwr := { s.pwr with blocks := [] } }

/-- Beside what losing a port may touch, nothing differs. -/
structure OnlyLoss (s t : State) : Prop where
  same : t.sansLoss = s.sansLoss

theorem OnlyLoss.refl (s : State) : OnlyLoss s s := ⟨rfl⟩

theorem OnlyLoss.trans {s t u : State} (h : OnlyLoss s t) (h' : OnlyLoss t u) : OnlyLoss s u := ⟨h'.same.trans h.same⟩

theorem onlyLoss_foldl {α : Type} {f : State → α → State} (h : ∀ s a, OnlyLoss s (f s a)) (l : List α) (s : State) :
    OnlyLoss s (l.foldl f s) :=
  l.foldlRecOn f (OnlyLoss.refl s) fun t ht a _ => ht.trans (h t a)

theorem OnlyLoss.ite {s t u : State} {p : Prop} [Decidable p] (ht : OnlyLoss s t) (hu : OnlyLoss s u) : OnlyLoss s (if p then t else u) := by
  split
  · exact ht
  · exact hu

namespace OnlyLoss
variable {s t : State} (h : OnlyLoss s t)
include h

theorem ms : t.ms = s.ms := (congrArg State.ms h.same :)
theorem cores : t.cores = s.cores := (congrArg State.cores h.same :)
theorem clusters : t.clusters = s.clusters := (congrArg State.clusters h.same :)
theorem current : t.por.current = s.por.current := (congrArg (fun x => x.por.current) h.same :)
theorem vals : t.por.vals = s.por.vals := (congrArg (fun x => x.por.vals) h.same :)
theorem dv (i u : Nat) : t.dv i u = s.dv i u := (congrArg (fun x => x.dv i u) h.same :)
theorem ops : t.net.ops = s.net.ops := (congrArg (fun x => x.net.ops) h.same :)
theorem jobs : t.hub.jobs = s.hub.jobs := (congrArg (fun x => x.hub.jobs) h.same :)
theorem preparing : t.boot.preparing = s.boot.preparing := (congrArg (fun x => x.boot.preparing) h.same :)
theorem resetAfter : t.boot.resetAfter = s.boot.resetAfter := (congrArg (fun x => x.boot.resetAfter) h.same :)
theorem porterRuns : t.boot.porterRuns = s.boot.porterRuns := (congrArg (fun x => x.boot.porterRuns) h.same :)
theorem hubOf (d : Nat) : t.hubOf d = s.hubOf d := (congrArg (fun x => x.hubOf d) h.same :)
theorem routeEntry (g : Nat) : t.routeEntry g = s.routeEntry g := (congrArg (fun x => x.routeEntry g) h.same :)

end OnlyLoss

theorem onlyLoss_modPort (s : State) (p : Nat) (f : Port → Port) : OnlyLoss s (s.modPort p f) := ⟨rfl⟩
theorem onlyLoss_modRing (s : State) (r : Nat) (f : Ring → Ring) : OnlyLoss s (s.modRing r f) := ⟨rfl⟩
theorem onlyLoss_logEvent (s : State) (event code unit : Nat) (d : BitVec 128) : OnlyLoss s (s.logEvent event code unit d) := ⟨rfl⟩

theorem onlyLoss_jobFault (s : State) (job : Option JobId) (f : FaultInfo) : OnlyLoss s (s.jobFault job f) :=
  .ite (.refl s) ⟨rfl⟩

theorem onlyLoss_noteTier (s : State) (before : Nat) : OnlyLoss s (s.noteTier before) := .ite ⟨rfl⟩ (.refl s)

theorem onlyLoss_signal (s : State) (v : Nat) : OnlyLoss s (s.signal v) := .ite ⟨rfl⟩ ⟨rfl⟩

theorem onlyLoss_abortGroup (s : State) (g : Nat) (st : Byte) : OnlyLoss s (s.abortGroup g st) := by
  have hmark : OnlyLoss s (s.modGroup g fun x => { x with aborted := true }) := ⟨rfl⟩
  unfold State.abortGroup
  dsimp only
  split
  · exact hmark.trans (onlyLoss_jobFault _ _ _)
  · exact hmark

theorem onlyLoss_emit (s : State) (m : OutMsg) : OnlyLoss s (s.emit m) := ⟨rfl⟩

theorem onlyLoss_withPor (s : State) {f : Porter → Porter} (h : ∀ p, (f p).sansLoss = p.sansLoss := by exact fun _ => rfl) :
    OnlyLoss s (s.withPor f) := ⟨by
  show { s.sansLoss with por := (f s.por).sansLoss } = s.sansLoss
  rw [h]; rfl⟩

theorem onlyLoss_modSession (s : State) (n : Word) (f : Session → Session) : OnlyLoss s (s.modSession n f) := onlyLoss_withPor s

theorem onlyLoss_closeSessions (s : State) (f : Session → Bool) : OnlyLoss s (s.closeSessions f) := onlyLoss_withPor s

theorem onlyLoss_endCmd (s : State) (ticket : Word) (status detail result : Nat) : OnlyLoss s (s.endCmd ticket status detail result) := by
  unfold State.endCmd
  split
  · exact .refl s
  · extract_lets r u
    have hu : OnlyLoss s u := onlyLoss_withPor s
    split
    · exact hu.trans ((onlyLoss_withPor u).trans (onlyLoss_signal _ _))
    · split
      · exact hu
      · exact hu.trans ((onlyLoss_modSession u _ _).trans ((onlyLoss_emit _ _).trans (onlyLoss_closeSessions _ _)))

theorem onlyLoss_slotWritten (s : State) (w : SlotWrite) (n : Nat) : OnlyLoss s (s.slotWritten w n) := ⟨rfl⟩

theorem onlyLoss_endSlotWrite (s : State) (c : RunCmd) (status n : Nat) : OnlyLoss s (s.endSlotWrite c status n) := by
  unfold State.endSlotWrite
  split
  · exact .refl s
  · exact (onlyLoss_slotWritten s _ n).trans (onlyLoss_endCmd _ _ _ _ _)

/-! ## The exchange's tables as work is lost -/

@[simp] theorem net_signal (s : State) (v : Nat) : (s.signal v).net = s.net := by
  unfold State.signal; split <;> rfl

@[simp] theorem net_endCmd (s : State) (ticket : Word) (status detail result : Nat) : (s.endCmd ticket status detail result).net = s.net := by
  unfold State.endCmd
  split
  · rfl
  · dsimp only
    split
    · exact net_signal _ _
    · split <;> rfl

@[simp] theorem net_endSlotWrite (s : State) (c : RunCmd) (status n : Nat) : (s.endSlotWrite c status n).net = s.net := by
  unfold State.endSlotWrite
  split
  · rfl
  · exact net_endCmd _ _ _ _ _

theorem net_foldl {α : Type} {f : State → α → State} (h : ∀ s a, (f s a).net = s.net) (l : List α) (s : State) : (l.foldl f s).net = s.net :=
  l.foldlRecOn (motive := fun t => t.net = s.net) f rfl fun t ht a _ => (h t a).trans ht

theorem net_abortGroup (s : State) (g : Nat) (st : Byte) :
    (s.abortGroup g st).net = (s.modGroup g fun x => { x with aborted := true }).net := by
  unfold State.abortGroup
  dsimp only
  split
  · obtain ⟨-, -, -, -, hnet, -⟩ := jobFault_rest (s.modGroup g (fun x => { x with aborted := true })) (some _) { status := st }
    exact hnet
  · rfl

/-- Giving up groups writes nothing else in the exchange's tables. -/
theorem net_foldl_abortGroup (l : List Nat) (st : Byte) (s : State) :
    (l.foldl (fun t g => t.abortGroup g st) s).net = { s.net with groups := (l.foldl (fun t g => t.abortGroup g st) s).net.groups } := by
  induction l generalizing s with
  | nil => rfl
  | cons g l ih =>
    rw [List.foldl_cons, ih, net_abortGroup]
    rfl

theorem foldl_abortGroup_spec (l : List Nat) (st : Byte) (s : State) : KeepsAborts s (l.foldl (fun t g => t.abortGroup g st) s) ∧
    ∀ g ∈ l, ((l.foldl (fun t g => t.abortGroup g st) s).group g).aborted = true := by
  induction l generalizing s with
  | nil => exact ⟨KeepsAborts.refl s, fun _ h => nomatch h⟩
  | cons a l ih =>
    obtain ⟨hkeeps, hdone⟩ := abortGroup_spec s a st
    obtain ⟨hkeeps', hdone'⟩ := ih (s.abortGroup a st)
    refine ⟨hkeeps.trans hkeeps', fun g hg => ?_⟩
    rcases List.mem_cons.mp hg with rfl | hg
    · exact hkeeps'.2 _ hdone
    · exact hdone' g hg

/-! ## One port after a step over ports -/

theorem ring_modPort (s : State) (p r : Nat) (f : Port → Port) : (s.modPort p f).ring r = s.ring r := rfl

theorem group_modPort (s : State) (p g : Nat) (f : Port → Port) : (s.modPort p f).group g = s.group g := rfl

theorem port_modRing (s : State) (r p : Nat) (f : Ring → Ring) : (s.modRing r f).port p = s.port p := rfl

theorem port_modPort_ne (s : State) {p q : Nat} (f : Port → Port) (h : q ≠ p) : (s.modPort p f).port q = s.port q := mget_mset_ne _ _ _ h

/-- A fold whose step changes the port it names alone changes each port of its list once. -/
theorem port_foldl {f : State → Nat → State} {g : Port → Port} (hf : ∀ t i j, (f t i).port j = if j = i then g (t.port i) else t.port j)
    {l : List Nat} (hl : l.Nodup) (s : State) (j : Nat) : (l.foldl f s).port j = if j ∈ l then g (s.port j) else s.port j := by
  induction l generalizing s with
  | nil => rfl
  | cons i l ih =>
    obtain ⟨hi, hl⟩ := List.nodup_cons.mp hl
    rw [List.foldl_cons, ih hl]
    by_cases hj : j = i
    · subst hj; simp [hi, hf]
    · simp [hj, hf]

theorem nodup_portsOfRing (r : Nat) : (portsOfRing r).Nodup := by unfold portsOfRing; split <;> decide

theorem mem_portsOfRing {p r : Nat} (h : ringOf p = some r) : p ∈ portsOfRing r := by
  unfold ringOf at h
  split at h
  · next hp => cases h; rcases hp with rfl | rfl <;> decide
  · split at h
    · next hp => cases h; rcases hp with rfl | rfl <;> decide
    · cases h

theorem ring_of_net {s t : State} (h : t.net.rings = s.net.rings) (r : Nat) : t.ring r = s.ring r := by
  rw [State.ring, h]; rfl

theorem ring_foldl {α : Type} {f : State → α → State} (h : ∀ s a r, (f s a).ring r = s.ring r) (l : List α) (s : State) (r : Nat) :
    (l.foldl f s).ring r = s.ring r :=
  l.foldlRecOn (motive := fun t => t.ring r = s.ring r) f rfl fun t ht a _ => (h t a r).trans ht

@[simp] theorem ring_modRing_self (s : State) (r : Nat) (f : Ring → Ring) : (s.modRing r f).ring r = f (s.ring r) := mget_mset_self ..

/-! ## What a port loses -/

/-- The work a port loses: the groups given, the bulk transfers and the slot writes that come over it. -/
def State.loseWork (s : State) (p : Nat) (lost : List Nat) : State :=
  let s := lost.foldl (fun t g => t.abortGroup g stPeerLost) s
  let sends := s.por.cmds.filterMap (fun c => (bulkSendOf c).bind (fun b => if b.port = p then some (c, s.bulkSent c b) else none))
  let s := sends.foldl (fun t c => t.endCmd c.1.ticket dsLinkDown 0 c.2) s
  let writes := s.por.cmds.filter (fun c => match slotWriteOf c with
    | some w => decide (w.source = 1 ∧ w.port = p)
    | none => false)
  writes.foldl (fun t c => t.endSlotWrite c dsLinkDown c.arrivedPrefix) s

/-- A port that has lost its peer and its buffers. -/
def Port.emptied (x : Port) : Port :=
  { x with
    peerSerial := 0, peerPort := 0xFF, peerMember := 0, nakDue := false, replay := [], resend := [], resendRuns := []
    creditE := 0, creditB := 0, owedE := 0, owedB := 0, rxE := [], rxB := [], txE := [], txB := [], bulkLeft := 0
    ctrlIn := [], ctrlOut := [], ctrlHeld := x.ctrlHeld ++ x.ctrlOut.filter barrierRec, asmE := [], asmB := [] }

theorem portLose_eq (s : State) (p : Nat) (lost : List Nat) : s.portLose p lost = (s.loseWork p lost).modPort p Port.emptied := rfl

theorem net_loseWork (s : State) (p : Nat) (lost : List Nat) :
    (s.loseWork p lost).net = (lost.foldl (fun t g => t.abortGroup g stPeerLost) s).net := by
  unfold State.loseWork
  extract_lets u sends v writes
  exact (net_foldl (fun t c => net_endSlotWrite t c _ _) writes v).trans (net_foldl (fun t c => net_endCmd t _ _ _ _) sends u)

theorem onlyLoss_loseWork (s : State) (p : Nat) (lost : List Nat) : OnlyLoss s (s.loseWork p lost) := by
  unfold State.loseWork
  extract_lets u sends v writes
  have hu : OnlyLoss s u := onlyLoss_foldl (fun t g => onlyLoss_abortGroup t g _) lost s
  have hv : OnlyLoss u v := onlyLoss_foldl (fun t _ => onlyLoss_endCmd t _ _ _ _) sends u
  exact (hu.trans hv).trans (onlyLoss_foldl (fun t c => onlyLoss_endSlotWrite t c _ _) writes v)

theorem onlyLoss_portLose (s : State) (p : Nat) (lost : List Nat) : OnlyLoss s (s.portLose p lost) :=
  (onlyLoss_loseWork s p lost).trans (onlyLoss_modPort _ p Port.emptied)

theorem port_loseWork (s : State) (p : Nat) (lost : List Nat) (q : Nat) : (s.loseWork p lost).port q = s.port q := by
  rw [State.port, net_loseWork, net_foldl_abortGroup]; rfl

theorem ring_portLose (s : State) (p : Nat) (lost : List Nat) (r : Nat) : (s.portLose p lost).ring r = s.ring r := by
  rw [portLose_eq, ring_modPort, State.ring, net_loseWork, net_foldl_abortGroup]; rfl

theorem port_portLose (s : State) (p : Nat) (lost : List Nat) (q : Nat) :
    (s.portLose p lost).port q = if q = p then (s.port p).emptied else s.port q := by
  rw [portLose_eq, port_modPort]; simp only [port_loseWork]

/-- The groups that a port loses are ABORTED. -/
theorem aborted_portLose (s : State) (p : Nat) {lost : List Nat} {g : Nat} (h : g ∈ lost) : ((s.portLose p lost).group g).aborted = true := by
  rw [portLose_eq, group_modPort, State.group, net_loseWork]
  exact (foldl_abortGroup_spec lost stPeerLost s).2 g h

/-! ## AUTO_BYPASS (R330) -/

/-- A port of a ring that AUTO_BYPASS opens. -/
def Port.bypassed (x : Port) : Port := { x.emptied with state := if x.fenced then .fenced else .off, lanesOk := 0 }

theorem autoBypass_of_closed {s : State} {r : Nat} (h : (s.ring r).bypass ≠ .joined ∨ s.dv (0x1020 + r) 3 ≠ 1) : s.autoBypass r = s := by
  unfold State.autoBypass
  split
  · rfl
  · exact if_pos h

theorem autoBypass_of_sound {s : State} {r : Nat} (h : ∀ p ∈ portsOfRing r, ¬ ((s.port p).state = .down ∧ (s.port p).fault = 1)) :
    s.autoBypass r = s := by
  have hnone : (portsOfRing r).find? (fun p => decide ((s.port p).state = .down ∧ (s.port p).fault = 1)) = none :=
    List.find?_eq_none.mpr fun p hp hdown => h p hp (of_decide_eq_true hdown)
  simp only [State.autoBypass, hnone]

/-- The ring's ports as AUTO_BYPASS leaves them. -/
def State.ringBypassed (s : State) (r : Nat) : State :=
  (portsOfRing r).foldl (fun t q => (t.portLose q (t.heldOn q)).modPort q (fun x => { x with
    state := if x.fenced then .fenced else .off, lanesOk := 0 }))
    (s.modRing r (fun x => { x with bypass := .moving false, leaving := false, autos := x.autos + 1, moves := x.moves + 1 }))

theorem autoBypass_eq {s : State} {r : Nat} (hjoined : (s.ring r).bypass = .joined) (hauto : s.dv (0x1020 + r) 3 = 1)
    (h : ∃ p ∈ portsOfRing r, (s.port p).state = .down ∧ (s.port p).fault = 1) :
    ∃ p, s.autoBypass r = (s.ringBypassed r).logEvent 6 0 (0x30 + p) (BitVec.ofNat 128 r) := by
  cases hfind : (portsOfRing r).find? (fun p => decide ((s.port p).state = .down ∧ (s.port p).fault = 1)) with
  | none =>
    obtain ⟨p, hp, hdown⟩ := h
    exact absurd (decide_eq_true hdown) (List.find?_eq_none.mp hfind p hp)
  | some p =>
    refine ⟨p, ?_⟩
    have hopen : ¬ ((s.ring r).bypass ≠ .joined ∨ s.dv (0x1020 + r) 3 ≠ 1) := by simp [hjoined, hauto]
    simp only [State.autoBypass, hfind, if_neg hopen]
    rfl

theorem port_logEvent (s : State) (event code unit : Nat) (d : BitVec 128) (p : Nat) : (s.logEvent event code unit d).port p = s.port p := rfl

theorem port_ringBypassed (s : State) (r q : Nat) :
    (s.ringBypassed r).port q = if q ∈ portsOfRing r then (s.port q).bypassed else s.port q := by
  refine port_foldl (g := Port.bypassed) (fun t i j => ?_) (nodup_portsOfRing r) _ q
  simp only [port_modPort, port_portLose, if_true]
  split <;> rfl

theorem ring_ringBypassed (s : State) (r : Nat) : (s.ringBypassed r).ring r =
    { s.ring r with bypass := .moving false, leaving := false, autos := (s.ring r).autos + 1, moves := (s.ring r).moves + 1 } :=
  (ring_foldl (fun t q i => (ring_modPort (t.portLose q (t.heldOn q)) q i _).trans (ring_portLose t q _ i)) _ _ r).trans
    (ring_modRing_self s r _)

theorem onlyLoss_ringBypassed (s : State) (r : Nat) : OnlyLoss s (s.ringBypassed r) :=
  (onlyLoss_modRing s r _).trans (onlyLoss_foldl (fun t q => (onlyLoss_portLose t q _).trans (onlyLoss_modPort _ q _)) _ _)

theorem onlyLoss_autoBypass (s : State) (r : Nat) : OnlyLoss s (s.autoBypass r) := by
  by_cases hopen : (s.ring r).bypass = .joined ∧ s.dv (0x1020 + r) 3 = 1
  · by_cases h : ∃ p ∈ portsOfRing r, (s.port p).state = .down ∧ (s.port p).fault = 1
    · obtain ⟨p, hp⟩ := autoBypass_eq hopen.1 hopen.2 h
      rw [hp]; exact (onlyLoss_ringBypassed s r).trans (onlyLoss_logEvent _ _ _ _ _)
    · rw [autoBypass_of_sound fun p hp hdown => h ⟨p, hp, hdown⟩]; exact .refl s
  · rw [autoBypass_of_closed (by tauto)]; exact .refl s

theorem onlyLoss_portBypass (s : State) (p : Nat) : OnlyLoss s (s.portBypass p) := by
  unfold State.portBypass
  split
  · exact onlyLoss_autoBypass s _
  · exact .refl s

/-! ## A port goes DOWN (R320, R321) -/

theorem onlyLoss_ringOpens (s : State) (p : Nat) : OnlyLoss s (s.ringOpens p) := by
  unfold State.ringOpens
  split
  · exact .refl s
  · exact .ite ⟨rfl⟩ (.refl s)

@[simp] theorem net_ringOpens (s : State) (p : Nat) : (s.ringOpens p).net = s.net := by
  unfold State.ringOpens
  split
  · rfl
  · split <;> rfl

@[simp] theorem vals_ringOpens (s : State) (p : Nat) : (s.ringOpens p).por.vals = s.por.vals := (onlyLoss_ringOpens s p).vals

/-- A port that goes DOWN with a fault. -/
def Port.downed (x : Port) (fault : Nat) : Port :=
  { x.emptied with state := if x.fenced then .fenced else .down, fault := fault, downs := x.downs + 1 }

/-- The port is DOWN, and its ring is not looked at yet. -/
def State.downNow (s : State) (p fault : Nat) : State :=
  let s := if fault = 1 then s.ringOpens p else s
  (s.portLose p (s.heldOn p)).modPort p (fun x => { x with
      state := if x.fenced then .fenced else .down, fault := fault, downs := x.downs + 1 })

theorem portDown_eq (s : State) (p fault : Nat) :
    s.portDown p fault = if fault = 1 then (s.downNow p fault).portBypass p else s.downNow p fault := rfl

theorem onlyLoss_downNow (s : State) (p fault : Nat) : OnlyLoss s (s.downNow p fault) := by
  unfold State.downNow
  extract_lets u
  have hu : OnlyLoss s u := .ite (onlyLoss_ringOpens s p) (.refl s)
  exact (hu.trans (onlyLoss_portLose u p _)).trans (onlyLoss_modPort _ p _)

theorem net_opened (s : State) (p fault : Nat) : (if fault = 1 then s.ringOpens p else s).net = s.net := by
  split
  · exact net_ringOpens s p
  · rfl

theorem port_downNow (s : State) (p fault q : Nat) : (s.downNow p fault).port q = if q = p then (s.port p).downed fault else s.port q := by
  unfold State.downNow
  extract_lets u
  have hu (i : Nat) : u.port i = s.port i := by rw [State.port, net_opened s p fault]; rfl
  simp only [port_modPort, port_portLose, if_true, hu]
  split <;> rfl

theorem ring_downNow (s : State) (p fault r : Nat) : (s.downNow p fault).ring r = s.ring r := by
  unfold State.downNow
  extract_lets u
  rw [ring_modPort, ring_portLose]
  exact ring_of_net (congrArg Net.rings (net_opened s p fault)) r

theorem heldOn_congr {s t : State} (hgroups : t.net.groups = s.net.groups) (hvals : t.por.vals = s.por.vals) (p : Nat) :
    t.heldOn p = s.heldOn p := by
  have hentry (g : Nat) : t.routeEntry g = s.routeEntry g := by simp only [State.routeEntry, State.dv, hvals]
  simp only [State.heldOn, State.group, hgroups, hentry]

theorem aborted_downNow (s : State) (p fault : Nat) {g : Nat} (h : g ∈ s.heldOn p) : ((s.downNow p fault).group g).aborted = true := by
  unfold State.downNow
  extract_lets u
  have hu : u.heldOn p = s.heldOn p :=
    heldOn_congr (congrArg Net.groups (net_opened s p fault)) (OnlyLoss.ite (onlyLoss_ringOpens s p) (.refl s)).vals p
  rw [group_modPort]
  exact aborted_portLose u p (hu ▸ h)

/-- Where the ring of the port is not one that AUTO_BYPASS opens, the port is DOWN. -/
theorem portDown_of_closed {s : State} {p fault : Nat} (h : fault = 1 → ∀ r, ringOf p = some r →
    (s.ring r).bypass ≠ .joined ∨ s.dv (0x1020 + r) 3 ≠ 1) : s.portDown p fault = s.downNow p fault := by
  rw [portDown_eq]
  split
  · next hlocal =>
    unfold State.portBypass
    split
    · next r hr =>
      refine autoBypass_of_closed ?_
      rw [ring_downNow, (onlyLoss_downNow s p fault).dv]
      exact h hlocal r hr
    · rfl
  · rfl

/-- A JOINED ring with AUTO_BYPASS opens where one of its ports goes DOWN by a local fault (R330). -/
theorem portDown_of_joined {s : State} {p r : Nat} (hr : ringOf p = some r) (hjoined : (s.ring r).bypass = .joined)
    (hauto : s.dv (0x1020 + r) 3 = 1) (hfenced : (s.port p).fenced = false) :
    ∃ q, s.portDown p 1 = ((s.downNow p 1).ringBypassed r).logEvent 6 0 (0x30 + q) (BitVec.ofNat 128 r) := by
  have hport : (s.downNow p 1).port p = (s.port p).downed 1 := by rw [port_downNow, if_pos rfl]
  obtain ⟨q, hq⟩ := autoBypass_eq (s := s.downNow p 1) (r := r) (by rw [ring_downNow, hjoined]) (by rw [(onlyLoss_downNow s p 1).dv, hauto])
    ⟨p, mem_portsOfRing hr, by simp [hport, Port.downed, hfenced], by simp [hport, Port.downed]⟩
  exact ⟨q, by simp only [portDown_eq, if_true, State.portBypass, hr, hq]⟩

theorem onlyLoss_portDown (s : State) (p fault : Nat) : OnlyLoss s (s.portDown p fault) := by
  rw [portDown_eq]
  exact .ite ((onlyLoss_downNow s p fault).trans (onlyLoss_portBypass _ p)) (onlyLoss_downNow s p fault)

end Sys2Proof.Machine

/-! PROOFS. Training (R313, R316, R319, R330): a port that trains, whose self-test fails, that comes UP, and the credits it is given. -/

namespace Sys2Proof.Machine

/-- A port of which the self-test has been made. -/
def State.testUsed (s : State) (p : Nat) : State := s.modPort p (fun x => { x with testFails := false, lanesOk := 0 })

theorem trainPort_of_failing {s : State} {p : Nat} (h : (s.port p).testFails = true) : s.trainPort p = (s.testUsed p).portDown p 1 :=
  if_pos h

/-- A port that begins to train, with its identity to send. -/
def Port.trains (x : Port) (r : BitVec 256) : Port :=
  { x with state := .training, fault := 0, lanesOk := 0, txSeq := 0, rxSeq := 0, ctrlIn := [], ctrlOut := [r] }

theorem trainPort_of_sound {s : State} {p : Nat} (h : (s.port p).testFails = false) :
    s.trainPort p = s.modPort p (fun x => x.trains (s.identityRecord p)) :=
  if_neg (by simp [h])

theorem joined_of_enabled {s : State} {p r : Nat} (h : s.portEnabled p = true) (hr : ringOf p = some r) : (s.ring r).bypass = .joined := by
  unfold State.portEnabled at h
  simp only [hr, Bool.and_eq_true, decide_eq_true_eq] at h
  exact h.2.1

theorem portTrain_eq {s : State} {p : Nat} (hstate : (s.port p).state = .off ∨ (s.port p).state = .down) (hfenced : (s.port p).fenced = false)
    (hon : s.portEnabled p = true) : s.portTrain p = s.trainPort p := if_pos ⟨hstate, hfenced, hon⟩

theorem portRetrain_eq {s : State} {p : Nat} (hstate : (s.port p).state = .down) (hfenced : (s.port p).fenced = false)
    (hon : s.portEnabled p = true) : s.portRetrain p = s.trainPort p := if_pos ⟨hstate, hfenced, hon⟩

/-- A port whose self-test fails goes DOWN by a local fault (R319); its counts of failures and the memories tell no more. -/
theorem trainPort_failing_spec {s : State} {p : Nat} (hfail : (s.port p).testFails = true) :
    OnlyLoss s (s.trainPort p) ∧
    ((∀ r, ringOf p = some r → (s.ring r).bypass ≠ .joined ∨ s.dv (0x1020 + r) 3 ≠ 1) →
      ∀ q, (s.trainPort p).port q = if q = p then ({ s.port p with testFails := false, lanesOk := 0 } : Port).downed 1 else s.port q) ∧
    (∀ r, (s.port p).fenced = false → ringOf p = some r → (s.ring r).bypass = .joined → s.dv (0x1020 + r) 3 = 1 →
      ((s.trainPort p).ring r).bypass = .moving false ∧
      (s.trainPort p).port p = (({ s.port p with testFails := false, lanesOk := 0 } : Port).downed 1).bypassed) := by
  rw [trainPort_of_failing hfail]
  have hused : (s.testUsed p).port p = { s.port p with testFails := false, lanesOk := 0 } := port_modPort_self s p _
  refine ⟨(onlyLoss_modPort s p _).trans (onlyLoss_portDown _ p 1), fun hclosed q => ?_, fun r hfenced hr hjoined hauto => ?_⟩
  · rw [portDown_of_closed (s := s.testUsed p) fun _ r hr => hclosed r hr, port_downNow, hused]
    split
    · rfl
    · next hq => exact port_modPort_ne s _ hq
  · obtain ⟨i, hi⟩ := portDown_of_joined (s := s.testUsed p) hr hjoined hauto (by rw [hused]; exact hfenced)
    rw [hi]
    refine ⟨?_, ?_⟩
    · show ((((s.testUsed p).downNow p 1).ringBypassed r).ring r).bypass = _
      rw [ring_ringBypassed]
    · rw [port_logEvent, port_ringBypassed, if_pos (mem_portsOfRing hr), port_downNow, if_pos rfl, hused]

/-- Where the identity of this port has left and is acknowledged, the peer's takes the port UP (R316, R319). -/
theorem peerIdentity_of_exchanged {s : State} {p : Nat} {r : BitVec 256} {rest : List (BitVec 256)}
    (htake : takeCtrl 3 (s.port p).ctrlIn = some (r, rest)) (htrain : (s.port p).state = .training) (hserial : bits r.toNat 127 64 ≠ 0)
    (hout : (s.port p).ctrlOut = []) (hreplay : (s.port p).replay = []) :
    s.peerIdentity p = (s.modPort p (fun x => { x with ctrlIn := rest })).modPort p (fun x => { x with
      state := .up, fault := 0, lanesOk := 0xFFFF, peerSerial := BitVec.ofNat 64 (bits r.toNat 127 64)
      peerPort := BitVec.ofNat 8 (bits r.toNat 135 128), peerMember := BitVec.ofNat 8 (bits r.toNat 143 136), txSeq := 0, rxSeq := 0
      creditE := 8192, creditB := 2048, owedE := 0, owedB := 0, resend := [], resendRuns := [], nakDue := false
      ctrlOut := x.ctrlHeld, ctrlHeld := [] }) := by
  simp [State.peerIdentity, htake, htrain, hserial, hout, hreplay, port_modPort_self]

theorem peerIdentity_of_waiting {s : State} {p : Nat} {r : BitVec 256} {rest : List (BitVec 256)}
    (htake : takeCtrl 3 (s.port p).ctrlIn = some (r, rest)) (htrain : (s.port p).state = .training) (hserial : bits r.toNat 127 64 ≠ 0)
    (hwaits : (s.port p).ctrlOut ≠ [] ∨ (s.port p).replay ≠ []) : s.peerIdentity p = s := by
  simp [State.peerIdentity, htake, htrain, hserial, hwaits]

/-- Settles O31: a port trains or its self-test takes it DOWN; the peer's identity waits or takes it UP; credits add up. -/
theorem portTraining : Obligations.PortTraining := by
  unfold Obligations.PortTraining
  refine ⟨?_, fun p s hfenced => ⟨?_, ?_⟩,
    fun p s r rest htake htrain hserial => ⟨fun hwaits => ?_, fun hout hreplay => ?_⟩, fun p s htrain hfenced => ?_,
    fun p s r rest htake => ?_⟩
  · intro p s hfenced hon training bypassed failed trains
    have htrains (i : Instr) (hi : exec i s = .next (s.trainPort p)) : trains i := by
      refine ⟨fun hsound => ⟨_, hi, ?_⟩, fun hfail => ⟨_, hi, ?_⟩⟩
      · rw [trainPort_of_sound hsound]
        exact ⟨onlyPort_modPort s p _, port_modPort_self s p _⟩
      · obtain ⟨honly, hclosed, hopened⟩ := trainPort_failing_spec hfail
        by_cases hbypass : bypassed
        · obtain ⟨r, hr, hauto⟩ := hbypass
          obtain ⟨hring, hport⟩ := hopened r hfenced hr (joined_of_enabled hon hr) hauto
          simp only [failed, hport]
          refine ⟨rfl, rfl, rfl, honly.ms, honly.cores, fun hnone => absurd ⟨r, hr, hauto⟩ hnone, fun r' hr' _ => ?_⟩
          obtain rfl : r = r' := Option.some.inj (hr.symm.trans hr')
          refine ⟨hring, ?_⟩
          show (if (s.port p).fenced = true then PortState.fenced else .off) = .off
          rw [hfenced]; rfl
        · have hports := hclosed fun r hr => .inr fun hauto => hbypass ⟨r, hr, hauto⟩
          have hport := (hports p).trans (if_pos rfl)
          simp only [failed, hport]
          refine ⟨rfl, rfl, rfl, honly.ms, honly.cores, fun _ => ⟨?_, rfl, fun q hq => (hports q).trans (if_neg hq)⟩,
            fun r hr hauto => absurd ⟨r, hr, hauto⟩ hbypass⟩
          show (if (s.port p).fenced = true then PortState.fenced else .down) = .down
          rw [hfenced]; rfl
    exact ⟨fun hoff => htrains _ (congrArg Host.Outcome.next (portTrain_eq (.inl hoff) hfenced hon)),
      fun hdown => ⟨htrains _ (congrArg Host.Outcome.next (portTrain_eq (.inr hdown) hfenced hon)),
        htrains _ (congrArg Host.Outcome.next (portRetrain_eq hdown hfenced hon))⟩⟩
  · exact congrArg Host.Outcome.next (if_neg (by simp [hfenced]))
  · exact congrArg Host.Outcome.next (if_neg (by simp [hfenced]))
  · exact congrArg Host.Outcome.next (peerIdentity_of_waiting htake htrain hserial hwaits)
  · refine ⟨_, congrArg Host.Outcome.next (peerIdentity_of_exchanged htake htrain hserial hout hreplay),
      (onlyPort_modPort s p _).trans (onlyPort_modPort _ p _), ?_⟩
    simp only [port_modPort_self, and_self]
  · have hdown : s.trainTimeout p = s.downNow p 2 :=
      (if_pos htrain).trans (portDown_of_closed fun h => absurd h (by decide))
    refine ⟨_, congrArg Host.Outcome.next hdown, ?_⟩
    simp only [port_downNow, if_true]
    refine ⟨?_, rfl, rfl, fun q hq => if_neg hq⟩
    show (if (s.port p).fenced = true then PortState.fenced else .down) = .down
    rw [hfenced]; rfl
  · have hcredit : s.creditReturn p = s.modPort p (fun x => { x with
        ctrlIn := rest, creditE := if bits r.toNat 15 8 = 1 then x.creditE + bits r.toNat 63 32 else x.creditE
        creditB := if bits r.toNat 15 8 = 2 then x.creditB + bits r.toNat 63 32 else x.creditB }) := by
      simp only [State.creditReturn, htake]
    refine ⟨_, congrArg Host.Outcome.next hcredit, onlyPort_modPort s p _, ?_⟩
    rw [port_modPort_self]
    congr 1
    · split <;> rfl
    · split <;> rfl

end Sys2Proof.Machine

/-! PROOFS. A port that fails in service, that drains and that goes off (R320–R322, R329, R330). -/

namespace Sys2Proof.Machine

/-! ## A loss in service (R320) -/

theorem portFail_of_up {s : State} {p : Nat} (h : (s.port p).state = .up) (fault : Nat) : s.portFail p fault = s.portDown p fault := by
  simp only [State.portFail, h]

/-- An UP port that is not fenced goes DOWN with a fault: its held groups are ABORTED, memory and cores are as before. -/
def WentDown (p fault : Nat) (s t : State) : Prop :=
  (t.port p).state = .down ∧ (t.port p).fault = fault ∧ (t.port p).downs = (s.port p).downs + 1 ∧
  (∀ g ∈ s.heldOn p, (t.group g).aborted = true) ∧ t.ms = s.ms ∧ t.cores = s.cores

theorem wentDown_downNow {s : State} {p : Nat} (hfenced : (s.port p).fenced = false) (fault : Nat) : WentDown p fault s (s.downNow p fault) := by
  have hport : (s.downNow p fault).port p = (s.port p).downed fault := (port_downNow s p fault p).trans (if_pos rfl)
  have hloss := onlyLoss_downNow s p fault
  refine ⟨?_, by rw [hport]; rfl, by rw [hport]; rfl, fun g hg => aborted_downNow s p fault hg, hloss.ms, hloss.cores⟩
  rw [hport]
  show (if (s.port p).fenced = true then PortState.fenced else .down) = .down
  rw [hfenced]; rfl

/-- A port whose lanes have changed. -/
def State.withLanes (s : State) (p : Nat) (n : BitVec 16) : State := s.modPort p (fun x => { x with lanesOk := n })

theorem port_withLanes (s : State) (p : Nat) (n : BitVec 16) : (s.withLanes p n).port p = { s.port p with lanesOk := n } :=
  port_modPort_self s p _

theorem wentDown_lanes {s : State} {p : Nat} (hfenced : (s.port p).fenced = false) (n : BitVec 16) :
    WentDown p 2 s ((s.withLanes p n).downNow p 2) := by
  have hport := port_withLanes s p n
  obtain ⟨hstate, hfault, hdowns, hgroups, hms, hcores⟩ := wentDown_downNow (s := s.withLanes p n) (by rw [hport]; exact hfenced) 2
  exact ⟨hstate, hfault, by rw [hdowns, hport], hgroups, hms, hcores⟩

theorem cdrLoss_of_up {s : State} {p : Nat} (h : (s.port p).state = .up) (lane : Nat) :
    s.cdrLoss p lane = (s.withLanes p ((s.port p).lanesOk &&& ~~~(1#16 <<< lane))).downNow p 2 := by
  have hup : ((s.withLanes p ((s.port p).lanesOk &&& ~~~(1#16 <<< lane))).port p).state = .up := by rw [port_withLanes]; exact h
  have hfail : s.cdrLoss p lane = (s.withLanes p ((s.port p).lanesOk &&& ~~~(1#16 <<< lane))).portFail p 2 := if_pos (.inl h)
  rw [hfail, portFail_of_up hup, portDown_of_closed fun h => absurd h (by decide)]

/-! ## Error rates (R320) -/

/-- The lanes whose error rate is not above the limit, as LANES_OK shows them. -/
def lanesGood (errs : List Nat) (limit : Nat) : Nat :=
  (List.range 16).foldl (fun n l => if (errs[l]?).getD 0 ≤ limit then n + 2 ^ l else n) 0

theorem foldl_pow_lt (good : Nat → Prop) [DecidablePred good] (m : Nat) :
    (List.range m).foldl (fun n l => if good l then n + 2 ^ l else n) 0 < 2 ^ m := by
  induction m with
  | zero => simp
  | succ m ih =>
    rw [List.range_succ, List.foldl_append, List.foldl_cons, List.foldl_nil, Nat.pow_succ]
    split <;> omega

/-- The lanes are all good exactly where each is. -/
theorem foldl_pow_full (good : Nat → Prop) [DecidablePred good] (m : Nat) :
    (List.range m).foldl (fun n l => if good l then n + 2 ^ l else n) 0 + 1 = 2 ^ m ↔ ∀ l, l < m → good l := by
  induction m with
  | zero => simp
  | succ m ih =>
    have hlt := foldl_pow_lt good m
    have hpos : 0 < 2 ^ m := Nat.two_pow_pos m
    rw [List.range_succ, List.foldl_append, List.foldl_cons, List.foldl_nil, Nat.pow_succ, Nat.forall_lt_succ_right, ← ih]
    split
    · next h => simp only [h, and_true]; omega
    · next h => simp only [h, and_false, iff_false]; omega

theorem lanesGood_full (errs : List Nat) (limit : Nat) : lanesGood errs limit = 65535 ↔ ∀ l, l < 16 → (errs[l]?).getD 0 ≤ limit := by
  have hfull := foldl_pow_full (fun l => (errs[l]?).getD 0 ≤ limit) 16
  have hpow : (2 : Nat) ^ 16 = 65536 := by decide
  rw [← hfull, lanesGood, hpow]
  omega

theorem serWindow_of_up {s : State} {p : Nat} {errs : List Nat} (h : (s.port p).state = .up) :
    s.serWindow p errs = if lanesGood errs (s.dv 0x1000 8) = 65535 then s.withLanes p (BitVec.ofNat 16 (lanesGood errs (s.dv 0x1000 8)))
      else (s.withLanes p (BitVec.ofNat 16 (lanesGood errs (s.dv 0x1000 8)))).downNow p 2 := by
  have hlive : ¬ ((s.port p).state ≠ .up ∧ (s.port p).state ≠ .draining) := fun hn => hn.1 h
  have hup (n : BitVec 16) : ((s.withLanes p n).port p).state = .up := by rw [port_withLanes]; exact h
  have hfail (n : BitVec 16) : (s.withLanes p n).portFail p 2 = (s.withLanes p n).downNow p 2 := by
    rw [portFail_of_up (hup n), portDown_of_closed fun h => absurd h (by decide)]
  unfold State.serWindow
  rw [if_neg hlive]
  exact congrArg (ite _ _) (hfail _)

theorem localFault_of_up {s : State} {p : Nat} (h : (s.port p).state = .up) : s.localFault p = s.portDown p 1 := by
  simp only [State.localFault, h]

/-! ## The end of draining (R322, R329) -/

theorem onlyLoss_portOff (s : State) (p : Nat) : OnlyLoss s (s.portOff p) :=
  (onlyLoss_portLose s p _).trans (onlyLoss_modPort _ p _)

/-- A port that is OFF. -/
def Port.offed (x : Port) : Port := { x.emptied with state := if x.fenced then .fenced else .off, fault := 0, lanesOk := 0 }

theorem port_portOff (s : State) (p q : Nat) : (s.portOff p).port q = if q = p then (s.port p).offed else s.port q := by
  rw [State.portOff]
  simp only [port_modPort, port_portLose, if_true]
  split <;> rfl

theorem ring_portOff (s : State) (p r : Nat) : (s.portOff p).ring r = s.ring r := by
  rw [State.portOff, ring_modPort, ring_portLose]

theorem onlyLoss_leaveMove (s : State) (p : Nat) : OnlyLoss s (s.leaveMove p) := by
  unfold State.leaveMove
  split
  · exact .refl s
  · exact .ite (onlyLoss_modRing s _ _) (.refl s)

theorem port_leaveMove (s : State) (p q : Nat) : (s.leaveMove p).port q = s.port q := by
  unfold State.leaveMove
  split
  · rfl
  · split <;> rfl

theorem group_leaveMove (s : State) (p g : Nat) : (s.leaveMove p).group g = s.group g := by
  unfold State.leaveMove
  split
  · rfl
  · split <;> rfl

theorem onlyLoss_portBlockOff (s : State) (p : Nat) : OnlyLoss s (s.portBlockOff p) := .ite ⟨rfl⟩ (.refl s)

theorem net_portBlockOff (s : State) (p : Nat) : (s.portBlockOff p).net = s.net := by unfold State.portBlockOff; split <;> rfl

theorem onlyLoss_drainEnd (s : State) (p : Nat) : OnlyLoss s (s.drainEnd p) :=
  ((onlyLoss_portOff s p).trans (onlyLoss_portBlockOff _ p)).trans (onlyLoss_leaveMove _ p)

theorem port_portBlockOff (s : State) (p q : Nat) : (s.portBlockOff p).port q = s.port q := by rw [State.port, net_portBlockOff]; rfl

theorem ring_portBlockOff (s : State) (p r : Nat) : (s.portBlockOff p).ring r = s.ring r := by rw [State.ring, net_portBlockOff]; rfl

theorem port_drainEnd (s : State) (p q : Nat) : (s.drainEnd p).port q = if q = p then (s.port p).offed else s.port q := by
  rw [State.drainEnd, port_leaveMove, port_portBlockOff, port_portOff]

theorem state_drainEnd {s : State} {p : Nat} (hfenced : (s.port p).fenced = false) : ((s.drainEnd p).port p).state = .off := by
  rw [port_drainEnd, if_pos rfl]
  show (if (s.port p).fenced = true then PortState.fenced else .off) = .off
  rw [hfenced]; rfl

theorem aborted_drainEnd (s : State) (p : Nat) {g : Nat} (h : g ∈ s.busyOn p) : ((s.drainEnd p).group g).aborted = true := by
  have hblock (t : State) : (t.portBlockOff p).group g = t.group g := by rw [State.group, net_portBlockOff]; rfl
  rw [State.drainEnd, group_leaveMove, hblock, State.portOff, group_modPort]
  exact aborted_portLose s p h

/-- Where the ring of a port is being left, the switch moves once its ports are all OFF (R329). -/
theorem leaveMove_of_off {s : State} {p r : Nat} (hr : ringOf p = some r) (hleaving : (s.ring r).leaving = true)
    (hoff : ∀ q ∈ portsOfRing r, (s.port q).state = .off) :
    s.leaveMove p = s.modRing r (fun x => { x with leaving := false, bypass := .moving false, moves := x.moves + 1 }) := by
  have hall : (portsOfRing r).all (fun q => decide ((s.port q).state = .off ∨ (s.port q).state = .fenced)) = true :=
    List.all_eq_true.mpr fun q hq => decide_eq_true (.inl (hoff q hq))
  simp only [State.leaveMove, hr, hleaving, hall, Bool.and_self, if_true]

theorem ring_drainEnd_of_last {s : State} {p r : Nat} (hfenced : (s.port p).fenced = false) (hr : ringOf p = some r)
    (hleaving : (s.ring r).leaving = true) (hoff : ∀ q ∈ portsOfRing r, q ≠ p → (s.port q).state = .off) :
    (s.drainEnd p).ring r = { s.ring r with leaving := false, bypass := .moving false, moves := (s.ring r).moves + 1 } := by
  have hring : ((s.portOff p).portBlockOff p).ring r = s.ring r := by rw [ring_portBlockOff, ring_portOff]
  have hports : ∀ q ∈ portsOfRing r, (((s.portOff p).portBlockOff p).port q).state = .off := by
    intro q hq
    have hstate := state_drainEnd hfenced
    rw [State.drainEnd, port_leaveMove] at hstate
    by_cases hp : q = p
    · rw [hp]; exact hstate
    · rw [port_portBlockOff, port_portOff, if_neg hp]; exact hoff q hq hp
  rw [State.drainEnd, leaveMove_of_off hr (by rw [hring]; exact hleaving) hports, ring_modRing_self, hring]

theorem port_withPor (s : State) (f : Porter → Porter) (p : Nat) : (s.withPor f).port p = s.port p := rfl

theorem onlyPort_withPor (p : Nat) (s : State) (f : Porter → Porter) : OnlyPort p s (s.withPor f) :=
  ⟨fun _ _ => rfl, rfl, rfl, rfl, rfl, rfl, rfl, rfl, rfl, rfl, rfl, rfl, rfl⟩

/-! ## The settled statement -/

/-- Settles O32: a failing port goes DOWN unless its ring opens for it; a draining one goes OFF, and the last of a ring moves the switch. -/
theorem portFailure : Obligations.PortFailure := by
  unfold Obligations.PortFailure
  refine ⟨?_, ?_, ?_⟩
  · intro p lane errs s hup hfenced downFault
    refine ⟨⟨_, congrArg Host.Outcome.next (cdrLoss_of_up hup lane), wentDown_lanes hfenced _, ?_⟩, fun ⟨l, hl, hbad⟩ => ?_, fun hgood => ?_,
      fun hclosed => ?_, fun r hr hjoined hauto => ?_⟩
    · rw [port_downNow, if_pos rfl, port_withLanes]
      simp [Port.downed, Port.emptied]
    · have hsome : lanesGood errs (s.dv 0x1000 8) ≠ 65535 := fun hall => absurd ((lanesGood_full _ _).mp hall l hl) (Nat.not_le.mpr hbad)
      refine ⟨_, congrArg Host.Outcome.next ((serWindow_of_up hup).trans (if_neg hsome)), wentDown_lanes hfenced _⟩
    · have hall := (lanesGood_full errs (s.dv 0x1000 8)).mpr hgood
      refine ⟨_, congrArg Host.Outcome.next ((serWindow_of_up hup).trans (if_pos hall)), onlyPort_modPort s p _, ?_⟩
      exact (port_withLanes s p _).trans (by rw [hall]; rfl)
    · have hdown := portDown_of_closed (s := s) (p := p.val) (fault := 1) fun _ r hr => hclosed r hr
      exact ⟨_, congrArg Host.Outcome.next ((localFault_of_up hup).trans hdown), wentDown_downNow hfenced 1⟩
    · obtain ⟨q, hq⟩ := portDown_of_joined hr hjoined hauto hfenced
      have hring : (((s.downNow p 1).ringBypassed r).logEvent 6 0 (0x30 + q) (BitVec.ofNat 128 r)).ring r =
          ((s.downNow p 1).ringBypassed r).ring r := rfl
      refine ⟨_, congrArg Host.Outcome.next ((localFault_of_up hup).trans hq), ?_, ?_, fun i hi => ?_⟩
      · rw [hring, ring_ringBypassed]
      · rw [hring, ring_ringBypassed, ring_downNow]
      · rw [port_logEvent, port_ringBypassed, if_pos hi]
        rw [Port.bypassed]
        split
        · exact .inr rfl
        · exact .inl rfl
  · intro p s hdrain hfenced
    have hend (hidle : s.portBusy p = false) : s.portDrained p = s.drainEnd p := if_pos ⟨hdrain, hidle⟩
    have hoff := state_drainEnd hfenced
    have hms := (onlyLoss_drainEnd s p).ms
    refine ⟨⟨_, congrArg Host.Outcome.next (if_pos hdrain), hoff, fun g hg => aborted_drainEnd s p hg, hms⟩,
      fun hidle => ⟨_, congrArg Host.Outcome.next (hend hidle), hoff, hms⟩, fun hbusy => ?_, fun r hidle hr hleaving hothers => ?_⟩
    · exact congrArg Host.Outcome.next (if_neg fun h => by simp [hbusy] at h)
    · have hring := ring_drainEnd_of_last hfenced hr hleaving hothers
      exact ⟨_, congrArg Host.Outcome.next (hend hidle), by rw [hring], by rw [hring], by rw [hring]⟩
  · intro p s hwaits
    have hstarved : s.bulkStarved p = (s.modPort p (fun x => { x with starvations := x.starvations + 1 })).logNote 0 (0x30 + p) 0 :=
      if_neg (by simpa using hwaits)
    exact ⟨_, congrArg Host.Outcome.next hstarved, (onlyPort_modPort s p _).trans (onlyPort_withPor p _ _),
      (port_withPor _ _ p).trans (port_modPort_self s p _), rfl⟩

end Sys2Proof.Machine

/-! PROOFS. Frames received (R312–R316): what a frame's codewords count, and how a frame with no NAK in it is taken. -/

namespace Sys2Proof.Machine

theorem port_bumpPort (s : State) (p i n q : Nat) : (s.bumpPort p i n).port q = s.port q := rfl

theorem port_bumpBw (s : State) (i n q : Nat) : (s.bumpBw i n).port q = s.port q := rfl

/-! ## The corrected codewords of a frame (log 8) -/

/-- The state in which a frame's corrected codewords are counted. -/
def State.fecCounted (s : State) (p : Nat) (f : PortFrame) : State :=
  if f.corrected = 0 then s else
    let (q, s) := s.draw
    (s.modPort p (fun x => { x with fecCorrected := x.fecCorrected + BitVec.ofNat 64 f.corrected })).bumpPort p 8
      (f.corrected + q.toNat % (14 * f.corrected + 1))

/-- The codewords are counted, and for each a number of symbols from 1 to 15. -/
def FecCounted (p : Nat) (f : PortFrame) (s t : State) : Prop :=
  (t.port p).fecCorrected = (s.port p).fecCorrected + BitVec.ofNat 64 f.corrected ∧
  ∃ k, f.corrected ≤ k ∧ k ≤ 15 * f.corrected ∧ mget 0 t.por.portCtr (8 * p + 8) = mget 0 s.por.portCtr (8 * p + 8) + BitVec.ofNat 64 k

theorem FecCounted.congr {p : Nat} {f : PortFrame} {s t u : State} (h : FecCounted p f s t)
    (hport : (u.port p).fecCorrected = (t.port p).fecCorrected)
    (hctr : mget 0 u.por.portCtr (8 * p + 8) = mget 0 t.por.portCtr (8 * p + 8)) : FecCounted p f s u := by
  obtain ⟨hfec, k, hlo, hhi, hk⟩ := h
  exact ⟨hport.trans hfec, k, hlo, hhi, hctr.trans hk⟩

theorem fecCounted_spec (s : State) (p : Nat) (f : PortFrame) :
    OnlyPort p s (s.fecCounted p f) ∧ FecCounted p f s (s.fecCounted p f) ∧
    (s.fecCounted p f).port p = { s.port p with fecCorrected := (s.port p).fecCorrected + BitVec.ofNat 64 f.corrected } := by
  unfold State.fecCounted
  split
  · next h =>
    have hzero : (s.port p).fecCorrected + BitVec.ofNat 64 f.corrected = (s.port p).fecCorrected := by rw [h]; exact BitVec.add_zero _
    rw [FecCounted, hzero]
    refine ⟨⟨fun _ _ => rfl, rfl, rfl, rfl, rfl, rfl, rfl, rfl, rfl, rfl, rfl, rfl, rfl⟩, ⟨rfl, 0, by omega, by omega, ?_⟩, rfl⟩
    exact (BitVec.add_zero _).symm
  · next h =>
    have hport := (port_bumpPort _ p 8 (f.corrected + s.draw.1.toNat % (14 * f.corrected + 1)) p).trans
      (port_modPort_self s.draw.2 p fun x => { x with fecCorrected := x.fecCorrected + BitVec.ofNat 64 f.corrected })
    have hpos : 0 < 14 * f.corrected + 1 := Nat.succ_pos _
    refine ⟨?_, ⟨congrArg Port.fecCorrected hport, f.corrected + s.draw.1.toNat % (14 * f.corrected + 1), by omega, ?_, ?_⟩,
      hport⟩
    · exact OnlyPort.trans (t := s.draw.2) ⟨fun _ _ => rfl, rfl, rfl, rfl, rfl, rfl, rfl, rfl, rfl, rfl, rfl, rfl, rfl⟩
        ((onlyPort_modPort _ p _).trans (onlyPort_withPor p _ _))
    · have := Nat.mod_lt s.draw.1.toNat hpos; omega
    · exact mget_mset_self ..

/-! ## A frame with no NAK in it (R313, R314, R316) -/

/-- Whether a frame has come as it was sent (R312, R313). -/
def goodFrame (f : PortFrame) : Prop :=
  f.uncorrected = 0 ∧ bits f.header.toNat 63 32 = (frameCrc (bits f.header.toNat 31 0) f.flits).toNat

/-- An acknowledgement takes frames off the replay buffer alone. -/
theorem acked_eq (x : Port) (ack : BitVec 12) : ∃ left runs, x.acked ack = { x with replay := left, resendRuns := runs } := by
  unfold Port.acked
  split
  · exact ⟨_, _, rfl⟩
  · exact ⟨x.replay, x.resendRuns, rfl⟩

/-- A port whose codewords are counted, and of whose replay buffer what a good frame acknowledges is gone. -/
def State.ackTaken (s : State) (p : Nat) (f : PortFrame) : State :=
  (s.fecCounted p f).modPort p (fun x => x.acked (fhAck f.header))

theorem ackTaken_spec (s : State) (p : Nat) (f : PortFrame) :
    OnlyPort p s (s.ackTaken p f) ∧ FecCounted p f s (s.ackTaken p f) ∧ ∃ left runs, (s.ackTaken p f).port p =
      { s.port p with
        fecCorrected := (s.port p).fecCorrected + BitVec.ofNat 64 f.corrected, replay := left, resendRuns := runs } := by
  obtain ⟨honly, hcount, hport⟩ := fecCounted_spec s p f
  have hself : (s.ackTaken p f).port p = ((s.fecCounted p f).port p).acked (fhAck f.header) := port_modPort_self _ p _
  obtain ⟨left, runs, hacked⟩ := acked_eq ((s.fecCounted p f).port p) (fhAck f.header)
  refine ⟨honly.trans (onlyPort_modPort _ p _), hcount.congr ?_ rfl, left, runs, ?_⟩
  · rw [hself, hacked]
  · rw [hself, hacked, hport]

section
variable {s : State} {p : Nat} {f : PortFrame} (hlive : (s.port p).live = true)
include hlive

theorem frameReceive_of_bad (hbad : ¬ goodFrame f) : s.frameReceive p f = (s.fecCounted p f).modPort p (fun x => { x with
    nakDue := true, fecUncorrected := x.fecUncorrected + BitVec.ofNat 64 f.uncorrected }) := by
  have hwrong : f.uncorrected ≠ 0 ∨ bits f.header.toNat 63 32 ≠ (frameCrc (bits f.header.toNat 31 0) f.flits).toNat := by
    by_contra h
    exact hbad ⟨by_contra fun hu => h (.inl hu), by_contra fun hc => h (.inr hc)⟩
  unfold State.frameReceive
  rw [hlive]
  exact if_pos hwrong

/-- What a good frame without a NAK comes to, once what it acknowledges is taken. -/
theorem frameReceive_of_good (hgood : goodFrame f) (hnak : fhNak f.header = false) :
    s.frameReceive p f =
      if fhKind f.header = 0 ∨ fhSeq f.header ≠ ((s.ackTaken p f).port p).rxSeq + 1 then s.ackTaken p f
      else if !((s.ackTaken p f).port p).room (fhKind f.header) (fhFlits f.header) then
        (s.ackTaken p f).modPort p (fun x => { x with nakDue := true })
      else (((s.ackTaken p f).modPort p (fun x => { x with rxSeq := x.rxSeq + 1 })).bumpBw (8 + p) 2056).deliver p (fhKind f.header)
        (f.flits.take (fhFlits f.header)) := by
  have hright : ¬ (f.uncorrected ≠ 0 ∨ bits f.header.toNat 63 32 ≠ (frameCrc (bits f.header.toNat 31 0) f.flits).toNat) := by
    rintro (h | h)
    · exact h hgood.1
    · exact h hgood.2
  unfold State.frameReceive
  rw [hlive]
  refine (if_neg hright).trans ?_
  simp only [hnak, Bool.false_and, Bool.false_eq_true, if_false]
  rfl

end

theorem room_congr {x y : Port} (hE : y.rxE = x.rxE) (hB : y.rxB = x.rxB) (kind n : Nat) : y.room kind n = x.room kind n := by
  simp only [Port.room, hE, hB]

/-- What delivering a frame's flits leaves (R314–R316): the port alone moves, and neither its count of codewords nor their symbols. -/
theorem deliver_spec (s : State) (p kind : Nat) (flits : List (BitVec 2048)) :
    OnlyPort p s (s.deliver p kind flits) ∧
    ((s.deliver p kind flits).port p).fecCorrected = (s.port p).fecCorrected ∧
    mget 0 (s.deliver p kind flits).por.portCtr (8 * p + 8) = mget 0 s.por.portCtr (8 * p + 8) := by
  have hother {i : Nat} (hi : i < 8) (u : State) (n : Nat) :
      mget 0 (u.bumpPort p i n).por.portCtr (8 * p + 8) = mget 0 u.por.portCtr (8 * p + 8) := mget_mset_ne _ _ _ (by omega)
  unfold State.deliver
  extract_lets n
  split
  · refine ⟨(onlyPort_modPort s p _).trans (onlyPort_withPor p _ _), ?_, hother (by decide) _ n⟩
    rw [port_bumpPort, port_modPort_self]
  · refine ⟨(onlyPort_modPort s p _).trans (onlyPort_withPor p _ _), ?_, hother (by decide) _ n⟩
    rw [port_bumpPort, port_modPort_self]
  · refine ⟨onlyPort_modPort s p _, ?_, rfl⟩
    rw [port_modPort_self]
  · exact ⟨⟨fun _ _ => rfl, rfl, rfl, rfl, rfl, rfl, rfl, rfl, rfl, rfl, rfl, rfl, rfl⟩, rfl, rfl⟩

theorem port_deliver_exch (s : State) (p : Nat) (flits : List (BitVec 2048)) :
    (s.deliver p 1 flits).port p = { s.port p with rxE := (s.port p).rxE ++ flits } :=
  (port_bumpPort _ p 3 flits.length p).trans (port_modPort_self s p _)

theorem port_deliver_bulk (s : State) (p : Nat) (flits : List (BitVec 2048)) :
    (s.deliver p 2 flits).port p = { s.port p with rxB := (s.port p).rxB ++ flits } :=
  (port_bumpPort _ p 4 flits.length p).trans (port_modPort_self s p _)

theorem port_deliver_ctrl (s : State) (p : Nat) (flits : List (BitVec 2048)) : ∃ n, (s.deliver p 3 flits).port p =
    { s.port p with ctrlIn := (s.port p).ctrlIn ++ ctrlRecords flits, ctrlIgnored := n } := ⟨_, port_modPort_self s p _⟩

/-- The state in which a frame is accepted, before its flits are delivered. -/
def State.frameAccepted (s : State) (p : Nat) (f : PortFrame) : State :=
  ((s.ackTaken p f).modPort p (fun x => { x with rxSeq := x.rxSeq + 1 })).bumpBw (8 + p) 2056

theorem frameAccepted_spec (s : State) (p : Nat) (f : PortFrame) :
    OnlyPort p s (s.frameAccepted p f) ∧ FecCounted p f s (s.frameAccepted p f) ∧ ∃ left runs, (s.frameAccepted p f).port p =
      { s.port p with
        fecCorrected := (s.port p).fecCorrected + BitVec.ofNat 64 f.corrected, replay := left, resendRuns := runs
        rxSeq := (s.port p).rxSeq + 1 } := by
  obtain ⟨honly, hcount, left, runs, hport⟩ := ackTaken_spec s p f
  have hself : (s.frameAccepted p f).port p = { (s.ackTaken p f).port p with rxSeq := ((s.ackTaken p f).port p).rxSeq + 1 } :=
    (port_bumpBw _ (8 + p) 2056 p).trans (port_modPort_self _ p _)
  refine ⟨(honly.trans (onlyPort_modPort _ p _)).trans (onlyPort_withPor p _ _), hcount.congr ?_ rfl, left, runs, ?_⟩
  · rw [hself]
  · rw [hself, hport]

end Sys2Proof.Machine

/-! PROOFS. Frames sent (R310, R313, R315–R317): what a frame that leaves changes, by class, and the settled statement of frames. -/

namespace Sys2Proof.Machine

/-! ## A frame leaves (R313) -/

theorem port_emit (s : State) (m : OutMsg) (p : Nat) : (s.emit m).port p = s.port p := rfl

theorem sendFrame_spec (s : State) (p : Nat) (f : PortFrame) :
    (s.sendFrame p f).out = .frame p f :: s.out ∧ (s.sendFrame p f).port p = { s.port p with nakDue := false } ∧
    ∀ q, q ≠ p → (s.sendFrame p f).port q = s.port q := by
  unfold State.sendFrame
  extract_lets u
  have hout : u.out = s.out := by simp only [u]; split <;> rfl
  have hport (q : Nat) : u.port q = s.port q := by simp only [u]; split <;> rfl
  refine ⟨?_, ?_, fun q hq => ?_⟩
  · rw [emit_out]; exact congrArg _ hout
  · rw [port_emit, port_modPort_self, hport]
  · rw [port_emit, port_modPort_ne u _ hq, hport]

/-- The frame that a port sends next, of a kind and with flits. -/
def Port.nextFrame (x : Port) (kind : Nat) (flits : List (BitVec 2048)) : PortFrame := mkFrame (x.txSeq + 1) x.rxSeq x.nakDue kind flits

/-- A port that has sent its next frame. -/
def Port.sent (x : Port) (f : PortFrame) : Port := { x with txSeq := x.txSeq + 1, replay := x.replay ++ [f], nakDue := false }

theorem sendNew_spec (s : State) (p kind : Nat) (flits : List (BitVec 2048)) :
    (s.sendNew p kind flits).out = .frame p ((s.port p).nextFrame kind flits) :: s.out ∧
    (s.sendNew p kind flits).port p = (s.port p).sent ((s.port p).nextFrame kind flits) ∧
    ∀ q, q ≠ p → (s.sendNew p kind flits).port q = s.port q := by
  let f := (s.port p).nextFrame kind flits
  obtain ⟨hout, hself, hothers⟩ := sendFrame_spec (s.modPort p fun x => { x with txSeq := x.txSeq + 1, replay := x.replay ++ [f] }) p f
  refine ⟨hout, hself.trans ?_, fun q hq => (hothers q hq).trans (port_modPort_ne s _ hq)⟩
  rw [port_modPort_self]
  rfl

/-! ## The next message of a BULK_SEND (R323, R324) -/

/-- What has left, and the ports but for what one has to send, are as before. -/
def BulkPulled (p : Nat) (s t : State) : Prop :=
  (∃ wait left, t.port p = { s.port p with txB := wait, bulkLeft := left }) ∧ ∀ q, q ≠ p → t.port q = s.port q

theorem net_readDone (s : State) (a n : Nat) : (s.readDone a n).net = s.net :=
  (congrArg State.net (onlyAccess_readDone s a n).same :)

theorem bulkPull_spec (s : State) (p : Nat) : BulkPulled p s (s.bulkPull p) := by
  have hsame : BulkPulled p s s := ⟨⟨_, _, rfl⟩, fun _ _ => rfl⟩
  unfold State.bulkPull
  split
  · exact hsame
  · split
    · exact hsame
    · next c b _ =>
      extract_lets at_ want n data h u v
      split
      · exact hsame
      · have hu : u.net = s.net := by
          simp only [u]
          split
          · exact net_readDone s at_ n
          · obtain ⟨m, hm⟩ := countFlash_eq s 32 (s.slot b.slot) at_ n
            rw [hm]; rfl
        have hport (q : Nat) : v.port q = s.port q := by
          show u.port q = s.port q
          rw [State.port, hu]; rfl
        refine ⟨⟨h :: flitsOf data, 1 + n / 256, ?_⟩, fun q hq => ?_⟩
        · rw [port_modPort_self, hport]
        · rw [port_modPort_ne v _ hq, hport]

theorem BulkPulled.congr {p : Nat} {s t : State} (h : BulkPulled p s t) {α : Type} (g : Port → α)
    (hg : ∀ x wait left, g { x with txB := wait, bulkLeft := left } = g x := by exact fun _ _ _ => rfl) : g (t.port p) = g (s.port p) := by
  obtain ⟨⟨wait, left, hport⟩, -⟩ := h
  rw [hport]
  exact hg _ wait left

theorem modPort_congr {s : State} {p : Nat} {f g : Port → Port} (h : f (s.port p) = g (s.port p)) : s.modPort p f = s.modPort p g := by
  rw [State.modPort, State.modPort, h]

/-! ## FRAME_TRANSMIT by class (R315, R317) -/

section
variable {s : State} {p : Nat}

/-- A frame to resend goes out again, with its SEQ. -/
theorem frameTransmit_resend {g : PortFrame} {rest : List PortFrame} (hlive : (s.port p).live = true) (hresend : (s.port p).resend = g :: rest) :
    s.frameTransmit p = (s.modPort p (fun x => x.resent g rest)).sendFrame p
      (mkFrame (fhSeq g.header) (s.port p).rxSeq (s.port p).nakDue (fhKind g.header) (g.flits.take (fhFlits g.header))) := by
  simp only [State.frameTransmit, hlive, hresend, Bool.not_true, Bool.false_eq_true, if_false]

variable (hup : (s.port p).state = .up) (hresend : (s.port p).resend = []) (hroom : (s.port p).replay.length < 510)
include hup hresend hroom

/-- The owed credits and the control records that go out next (R315, R316). -/
theorem frameTransmit_ctrl (hrecs : (s.port p).owedRecords ++ (s.port p).ctrlOut ≠ []) :
    s.frameTransmit p = (((s.bulkPull p).modPort p (fun x => { x with
      owedE := 0, owedB := 0, ctrlOut := x.ctrlOut.drop (64 - (s.port p).owedRecords.length) })).sendNew p 3
        (ctrlFlits (((s.port p).owedRecords ++ (s.port p).ctrlOut).take 64))).bumpPort p 5 1 := by
  have hpull := bulkPull_spec s p
  have hlive : (s.port p).live = true := by simp [Port.live, hup]
  have hstate : ((s.bulkPull p).port p).state = .up := (hpull.congr Port.state).trans hup
  have hsome : ((s.port p).owedRecords ++ (s.port p).ctrlOut).isEmpty = false := by simpa using hrecs
  have hnew : ¬ 510 ≤ ((s.bulkPull p).port p).replay.length := by rw [hpull.congr Port.replay]; exact Nat.not_le.mpr hroom
  have htrain : PortState.up ≠ PortState.training := by decide
  simp only [State.frameTransmit, hlive, hresend, hstate, hpull.congr Port.owedRecords, hpull.congr Port.ctrlOut, hsome, if_neg hnew,
    if_neg htrain, Bool.not_true, Bool.not_false, Bool.false_eq_true, if_false, if_true]
  refine congrArg (fun u => (State.sendNew u p 3 _).bumpPort p 5 1) (modPort_congr ?_)
  simp only [hstate, if_neg htrain]

variable (hquiet : (s.port p).owedE = 0 ∧ (s.port p).owedB = 0 ∧ (s.port p).ctrlOut = [])
include hquiet

/-- What goes out where nothing is owed and no control record waits: EXCH flits before BULK ones (R315, R317). -/
theorem frameTransmit_quiet : s.frameTransmit p =
    if !(s.port p).txE.isEmpty && decide (0 < (s.port p).creditE) then
      (((s.bulkPull p).modPort p (fun x => { x with
        txE := x.txE.drop (min 8 (min (s.port p).creditE (s.port p).txE.length))
        creditE := x.creditE - min 8 (min (s.port p).creditE (s.port p).txE.length) })).sendNew p 1
          ((s.port p).txE.take (min 8 (min (s.port p).creditE (s.port p).txE.length)))).bumpPort p 1
          (min 8 (min (s.port p).creditE (s.port p).txE.length))
    else
      let stall := fun (u : State) (i : Nat) => let (q, u) := u.draw; u.bumpPort p i q.toNat
      let u := if (s.port p).txE.isEmpty then s.bulkPull p else stall (s.bulkPull p) 6
      let x := (s.bulkPull p).port p
      if !x.txB.isEmpty && decide (0 < x.creditB) then
        let n := min 8 (min x.creditB x.txB.length)
        ((u.modPort p (fun x => { x with txB := x.txB.drop n, creditB := x.creditB - n, bulkLeft := x.bulkLeft - n })).sendNew p 2
          (x.txB.take n)).bumpPort p 2 n
      else (if x.txB.isEmpty then u else stall u 7).sendFrame p (mkFrame 0 x.rxSeq x.nakDue 0 [0]) := by
  have hpull := bulkPull_spec s p
  obtain ⟨howedE, howedB, hctrl⟩ := hquiet
  have hlive : (s.port p).live = true := by simp [Port.live, hup]
  have hstate : ((s.bulkPull p).port p).state = .up := (hpull.congr Port.state).trans hup
  have hnew : ¬ 510 ≤ ((s.bulkPull p).port p).replay.length := by rw [hpull.congr Port.replay]; exact Nat.not_le.mpr hroom
  have htrain : PortState.up ≠ PortState.training := by decide
  have howed : (s.port p).owedRecords = [] := by simp [Port.owedRecords, howedE, howedB]
  simp only [State.frameTransmit, hlive, hresend, hstate, hpull.congr Port.owedRecords, hpull.congr Port.ctrlOut, hpull.congr Port.txE,
    hpull.congr Port.creditE, hpull.congr Port.rxSeq, hpull.congr Port.nakDue, howed, hctrl, if_neg hnew, if_neg htrain, Bool.not_true,
    Bool.false_eq_true, if_false, List.append_nil, List.isEmpty_nil]

end

/-- What sending a new frame leaves, after the port has given up what goes into it. -/
theorem sendNew_modPort_spec (s : State) (p kind : Nat) (g : Port → Port) (flits : List (BitVec 2048)) (i n : Nat) :
    let t := ((s.modPort p g).sendNew p kind flits).bumpPort p i n
    t.out = .frame p ((g (s.port p)).nextFrame kind flits) :: s.out ∧
    t.port p = (g (s.port p)).sent ((g (s.port p)).nextFrame kind flits) ∧ ∀ q, q ≠ p → t.port q = s.port q := by
  intro t
  obtain ⟨hout, hself, hothers⟩ := sendNew_spec (s.modPort p g) p kind flits
  rw [port_modPort_self] at hout hself
  exact ⟨(bumpPort_out _ p i n).trans hout, (port_bumpPort _ p i n p).trans hself,
    fun q hq => (port_bumpPort _ p i n q).trans ((hothers q hq).trans (port_modPort_ne s g hq))⟩

/-! ## The settled statement -/

/-- Settles O33: a frame received by whether it is good, next and finds room; a frame sent by what waits. -/
theorem framesSentAndReceived : Obligations.FramesSentAndReceived := by
  unfold Obligations.FramesSentAndReceived
  refine ⟨?_, ?_⟩
  · intro p f s hlive counted good
    obtain ⟨honly, hcount, left, runs, hport⟩ := ackTaken_spec s p f
    obtain ⟨honly', hcount', left', runs', hport'⟩ := frameAccepted_spec s p f
    have hseq : ((s.ackTaken p f).port p).rxSeq = (s.port p).rxSeq := by rw [hport]
    have hroom (k n : Nat) : ((s.ackTaken p f).port p).room k n = (s.port p).room k n := by rw [hport]; rfl
    refine ⟨fun hbad => ?_, fun hgood hnak hnext hfull hkind => ?_, fun hgood hnak hnext hfree => ?_, fun hgood hnak hnext => ?_⟩
    · obtain ⟨honly, hcount, hport⟩ := fecCounted_spec s p f
      refine ⟨_, congrArg Host.Outcome.next (frameReceive_of_bad hlive hbad), honly.trans (onlyPort_modPort _ p _), hcount.congr ?_ rfl, ?_⟩
      · rw [port_modPort_self]
      · rw [port_modPort_self, hport]
        exact ⟨rfl, rfl, rfl, rfl, rfl⟩
    · have hrun := frameReceive_of_good hlive hgood hnak
      rw [hseq, hroom, if_neg (by simp [hkind, hnext]), hfull, Bool.not_false, if_pos rfl] at hrun
      refine ⟨_, congrArg Host.Outcome.next hrun, honly.trans (onlyPort_modPort _ p _), hcount.congr ?_ rfl, ?_⟩
      · rw [port_modPort_self]
      · rw [port_modPort_self, hport]
        exact ⟨rfl, rfl, rfl, rfl⟩
    · intro flits
      have hrun (hkind : fhKind f.header ≠ 0) :
          exec (.frameReceive p f) s = .next ((s.frameAccepted p f).deliver p (fhKind f.header) flits) := by
        have h := frameReceive_of_good hlive hgood hnak
        rw [hseq, hroom, if_neg (by simp [hkind, hnext]), hfree] at h
        exact congrArg Host.Outcome.next h
      obtain ⟨hdelivered, hfec, hctr⟩ := deliver_spec (s.frameAccepted p f) p (fhKind f.header) flits
      have hcounted := hcount'.congr hfec hctr
      refine ⟨fun hkind => ⟨_, hrun (by simp [hkind]), honly'.trans hdelivered, hcounted, ?_⟩,
        fun hkind => ⟨_, hrun (by simp [hkind]), honly'.trans hdelivered, hcounted, ?_⟩,
        fun hkind => ⟨_, hrun (by simp [hkind]), honly'.trans hdelivered, hcounted, ?_⟩⟩
      · rw [hkind, port_deliver_exch, hport']
        exact ⟨rfl, rfl, rfl, rfl⟩
      · rw [hkind, port_deliver_bulk, hport']
        exact ⟨rfl, rfl, rfl, rfl⟩
      · obtain ⟨n, hn⟩ := port_deliver_ctrl (s.frameAccepted p f) p flits
        rw [hkind, hn, hport']
        exact ⟨rfl, rfl, rfl, rfl⟩
    · have hrun := frameReceive_of_good hlive hgood hnak
      rw [hseq, if_pos (.inr hnext)] at hrun
      refine ⟨_, congrArg Host.Outcome.next hrun, honly, hcount, ?_⟩
      rw [hport]
      exact ⟨rfl, rfl, rfl, rfl⟩
  · intro p s hup
    have hpull := bulkPull_spec s p
    obtain ⟨⟨wait, left, hport⟩, hpulled⟩ := bulkPull_spec s p
    refine ⟨?_, ?_, ?_, ?_⟩
    · intro hresend hroom howedE howedB hctrl hwaits hcredit n f
      have hsome : (!(s.port p).txE.isEmpty && decide (0 < (s.port p).creditE)) = true := by simp [hwaits, hcredit]
      have hrun := (frameTransmit_quiet hup hresend hroom ⟨howedE, howedB, hctrl⟩).trans (if_pos hsome)
      obtain ⟨hout, hself, hrest⟩ := sendNew_modPort_spec (s.bulkPull p) p 1
        (fun x => { x with txE := x.txE.drop n, creditE := x.creditE - n }) ((s.port p).txE.take n) 1 n
      rw [hport] at hout hself
      refine ⟨_, congrArg Host.Outcome.next hrun, hout, ?_⟩
      rw [hself]
      exact ⟨rfl, rfl, rfl, rfl, rfl, fun q hq => (hrest q hq).trans (hpulled q hq)⟩
    · intro hresend hroom x credits hrecs f
      have hrun := frameTransmit_ctrl hup hresend hroom hrecs
      obtain ⟨hout, hself, hrest⟩ := sendNew_modPort_spec (s.bulkPull p) p 3
        (fun x => { x with owedE := 0, owedB := 0, ctrlOut := x.ctrlOut.drop (64 - (s.port p).owedRecords.length) })
        (ctrlFlits (((s.port p).owedRecords ++ (s.port p).ctrlOut).take 64)) 5 1
      rw [hport] at hout hself
      refine ⟨_, congrArg Host.Outcome.next hrun, hout, ?_⟩
      rw [hself]
      exact ⟨rfl, rfl, rfl, rfl, rfl, rfl, rfl, rfl, rfl, fun q hq => (hrest q hq).trans (hpulled q hq)⟩
    · intro hresend hroom howedE howedB hctrl hnoExch hcredit x wait hwaits n f
      have hnone : ¬ (!(s.port p).txE.isEmpty && decide (0 < (s.port p).creditE)) = true := by
        rcases hnoExch with h | h <;> simp [h]
      have hsome : (!((s.bulkPull p).port p).txB.isEmpty && decide (0 < ((s.bulkPull p).port p).creditB)) = true := by
        rw [hpull.congr Port.creditB]
        simp [hcredit, show ((s.bulkPull p).port p).txB ≠ [] from hwaits]
      have hrun := (frameTransmit_quiet hup hresend hroom ⟨howedE, howedB, hctrl⟩).trans (if_neg hnone)
      extract_lets stall u y m at hrun
      replace hrun := hrun.trans (if_pos hsome)
      have hu : u.out = (s.bulkPull p).out ∧ ∀ q, u.port q = (s.bulkPull p).port q := by
        simp only [u, stall]
        split
        · exact ⟨rfl, fun _ => rfl⟩
        · exact ⟨rfl, fun _ => rfl⟩
      have hm : m = n := by simp only [m, n, y, x, wait, hpull.congr Port.creditB]
      rw [hm] at hrun
      obtain ⟨hout, hself, hrest⟩ := sendNew_modPort_spec u p 2
        (fun x => { x with txB := x.txB.drop n, creditB := x.creditB - n, bulkLeft := x.bulkLeft - n }) (y.txB.take n) 2 n
      rw [hu.2, hu.1] at hout
      rw [hu.2] at hself
      have hframe : (({ (s.bulkPull p).port p with
          txB := ((s.bulkPull p).port p).txB.drop n, creditB := ((s.bulkPull p).port p).creditB - n
          bulkLeft := ((s.bulkPull p).port p).bulkLeft - n } : Port).nextFrame 2 (y.txB.take n)) = f := by
        simp only [Port.nextFrame, hpull.congr Port.txSeq, hpull.congr Port.rxSeq, hpull.congr Port.nakDue]
        rfl
      rw [hframe] at hout hself
      refine ⟨_, congrArg Host.Outcome.next hrun, hout, ?_⟩
      rw [hself]
      exact ⟨rfl, congrArg (· - n) (hpull.congr Port.creditB), congrArg (· + 1) (hpull.congr Port.txSeq),
        congrArg (· ++ [f]) (hpull.congr Port.replay), rfl, hpull.congr Port.txE, hpull.congr Port.creditE,
        fun q hq => (hrest q hq).trans ((hu.2 q).trans (hpulled q hq))⟩
    · intro g rest hresend
      have hlive : (s.port p).live = true := by simp [Port.live, hup]
      obtain ⟨hout, hself, -⟩ := sendFrame_spec (s.modPort p fun x => x.resent g rest) p
        (mkFrame (fhSeq g.header) (s.port p).rxSeq (s.port p).nakDue (fhKind g.header) (g.flits.take (fhFlits g.header)))
      rw [port_modPort_self] at hself
      refine ⟨_, _, congrArg Host.Outcome.next (frameTransmit_resend hlive hresend), hout, ?_⟩
      rw [hself]
      exact ⟨rfl, rfl, rfl, rfl⟩

end Sys2Proof.Machine

/-! PROOFS. Ring joins and leaves (R326, R328, R329, R331): the two writes of RING_MODE and the end of a move. -/

namespace Sys2Proof.Machine

/-! ## Commands whose act leaves whether the porter runs and whether a reset waits -/

/-- A command t that serves a write whose act changes the frame being served in nothing, nor whether the porter runs or a reset waits for
the frame's end: the record is answered with the act's status, and beside the frames nothing moves any more. -/
theorem answered_of_writes {s : State} {i u : Nat} {bs : List Byte} (h : s.writes i u bs) : ∃ f r l, r.index = i ∧ r.sub = u ∧
    s.frontRec = some (f, r) ∧
    ∀ (t : State) {own : Nat → Nat → Bool} {act : State → InFrame → Req → List Byte → Ans} {a : Ans}, t = s.serveWrite own act →
      own i u = true → act (s.withSessions l) f r bs = a → a.st.boot.resetAfter = s.boot.resetAfter →
      a.st.boot.porterRuns = s.boot.porterRuns → a.st.por.current = s.por.current → AnsweredWith a.status s t ∧ SameButFrames a.st t := by
  obtain ⟨f, r, t, hreset, hfront, hrop, rfl, rfl, hlook⟩ := h
  obtain ⟨l, rfl⟩ := lookWrite_value hlook
  refine ⟨f, r, l, rfl, rfl, hfront, fun t own act a ht hown hact hafter hruns hcur => ?_⟩
  have hserved : ¬ (r.rop ≠ 2 ∨ own r.index r.sub = false) := by simp [hrop, hown]
  have hanswer : ∃ total, t = a.st.answer a.status a.detail total [] := by
    simp only [ht, State.serveWrite, hfront, if_neg hserved, hlook, hact]
    exact ⟨_, rfl⟩
  obtain ⟨total, rfl⟩ := hanswer
  have hrec : a.st.frontRec = s.frontRec := by simp only [State.frontRec, hruns, hcur]
  exact ⟨⟨a.st, _, _, hrec, rfl⟩, sameButFrames_answer (hafter.trans hreset) _ _ _ _⟩

namespace SameButFrames
variable {s t : State} (h : SameButFrames s t)
include h

theorem net : t.net = s.net := (congrArg State.net h :)
theorem port (p : Nat) : t.port p = s.port p := by rw [State.port, h.net]; rfl
theorem ring (r : Nat) : t.ring r = s.ring r := by rw [State.ring, h.net]; rfl
theorem group (g : Nat) : t.group g = s.group g := by rw [State.group, h.net]; rfl
theorem routeEntry (g : Nat) : t.routeEntry g = s.routeEntry g := by simp only [State.routeEntry, h.dv]
theorem nextTicket : t.por.nextTicket = s.por.nextTicket := (congrArg (fun x => x.por.nextTicket) h :)

end SameButFrames

/-! ## The ports of a ring -/

/-- A ring of the module has two ports, which are its. -/
theorem portsOfRing_pair (r : RingId) : ∃ a b, portsOfRing r = [a, b] ∧ a ≠ b ∧ ringOf a = some r.val ∧ ringOf b = some r.val := by
  fin_cases r
  · exact ⟨4, 5, rfl, by decide, rfl, rfl⟩
  · exact ⟨6, 7, rfl, by decide, rfl, rfl⟩

/-! ## A leave (R329) -/

theorem leaveMove_of_busy {s : State} {p r q : Nat} (hr : ringOf p = some r) (hq : q ∈ portsOfRing r) (hdrain : (s.port q).state = .draining) :
    s.leaveMove p = s := by
  have hnot : (portsOfRing r).all (fun q => decide ((s.port q).state = .off ∨ (s.port q).state = .fenced)) = false :=
    List.all_eq_false.mpr ⟨q, hq, by simp [hdrain]⟩
  simp only [State.leaveMove, hr, hnot, Bool.and_false, Bool.false_eq_true, if_false]

/-- A port that begins to drain, with the operations in flight noted. -/
def Port.drains (x : Port) (ops : List ExOp) : Port :=
  { x with state := .draining, inFlight := (ops.filter (fun o => (o.begun || !o.sentOn.isEmpty) && !o.finished)).map (fun o => (o.core, o.ord, o.job)) }

theorem port_startDrain (s : State) (p q : Nat) : (s.startDrain p).port q = if q = p then (s.port p).drains s.net.ops else s.port q :=
  port_modPort s p q _

theorem startLeave_of_up {s : State} {r : RingId} (hjoined : (s.ring r).bypass = .joined)
    (hup : ∀ p ∈ portsOfRing r, (s.port p).state = .up) :
    ((s.startLeave r).ring r).leaving = true ∧ (s.startLeave r).boot = s.boot ∧ (s.startLeave r).por = s.por ∧
    ∀ q, (s.startLeave r).port q = if q ∈ portsOfRing r then (s.port q).drains s.net.ops else s.port q := by
  obtain ⟨a, b, hab, hne, ha, hb⟩ := portsOfRing_pair r
  have hupA : (s.port a).state = .up := hup a (by simp [hab])
  have hupB : (s.port b).state = .up := hup b (by simp [hab])
  let u := s.modRing r fun x => { x with leaving := true }
  let v := (u.startDrain a).startDrain b
  have hport (q : Nat) : v.port q = if q ∈ portsOfRing r then (s.port q).drains s.net.ops else s.port q := by
    have hu (i : Nat) : u.port i = s.port i := rfl
    have hops : (u.startDrain a).net.ops = s.net.ops := rfl
    simp only [v, port_startDrain, hops, hu, hab, List.mem_cons, List.not_mem_nil, or_false, if_neg hne.symm]
    by_cases hqb : q = b
    · simp [hqb]
    · by_cases hqa : q = a
      · subst hqa; simp [hqb]; rfl
      · simp [hqb, hqa]
  have hdrain : (v.port a).state = .draining := by rw [hport, if_pos (by simp [hab])]; rfl
  have hleave : s.startLeave r = v := by
    have hsecond : ((u.startDrain a).port b).state = .up := by rw [port_startDrain, if_neg hne.symm]; exact hupB
    have hfirst : (u.port a).state = .up := hupA
    have hstay (p : Nat) (hp : ringOf p = some r.val) : v.leaveMove p = v := leaveMove_of_busy hp (q := a) (by simp [hab]) hdrain
    have hopen : ¬ (s.ring r).bypass ≠ .joined := by simp [hjoined]
    unfold State.startLeave
    rw [if_neg hopen, hab]
    show ([a, b].foldl (fun t p => t.leaveMove p) ([a, b].foldl _ u)) = v
    simp only [List.foldl_cons, List.foldl_nil, hfirst, hsecond, if_true]
    exact (congrArg (State.leaveMove · b) (hstay a ha)).trans (hstay b hb)
  rw [hleave]
  have hring : v.ring r = u.ring r := rfl
  exact ⟨by rw [hring, ring_modRing_self], rfl, rfl, hport⟩

/-! ## The end of a move (R326, R328) -/

theorem removalStep_of_staying {s : State} (h : s.boot.preparing = false) : s.removalStep = s := by
  simp [State.removalStep, h]

/-- In JOINED, each port that is enabled, sound and OFF or DOWN trains. -/
theorem bypassDone_of_joining {s : State} {r : RingId} (hmove : (s.ring r).bypass = .moving true) (hstay : (s.ring r).leaving = false)
    (hports : ∀ p ∈ portsOfRing r, s.block (blkPort p) = 1 ∧ s.hubOf (dieOfPort p) = true ∧ (s.port p).fenced = false ∧
      (s.port p).testFails = false ∧ ((s.port p).state = .off ∨ (s.port p).state = .down)) :
    ((s.bypassDone r).ring r).bypass = .joined ∧ (s.bypassDone r).boot = s.boot ∧
    ∀ p ∈ portsOfRing r, ((s.bypassDone r).port p).state = .training := by
  obtain ⟨a, b, hab, hne, ha, hb⟩ := portsOfRing_pair r
  let u := s.modRing r fun x => { x with bypass := .joined }
  have hring : u.ring r = { s.ring r with bypass := .joined } := ring_modRing_self s r _
  have htrain (t : State) (p : Nat) (hp : ringOf p = some r.val) (hmem : p ∈ portsOfRing r) (ht : t.port p = s.port p)
      (hr : t.ring r = u.ring r) (hblock : t.block (blkPort p) = s.block (blkPort p)) (hhub : t.hubOf (dieOfPort p) = s.hubOf (dieOfPort p)) :
      t.portTrain p = t.modPort p (fun x => x.trains (t.identityRecord p)) := by
    obtain ⟨hon, hdie, hfenced, hsound, hstate⟩ := hports p hmem
    have henabled : t.portEnabled p = true := by
      simp only [State.portEnabled, hp, hr, hring, hblock, hon, hhub, hdie, hstay]
      rfl
    rw [portTrain_eq (by rw [ht]; exact hstate) (by rw [ht]; exact hfenced) henabled, trainPort_of_sound (by rw [ht]; exact hsound)]
  let v := u.modPort a fun x => x.trains (u.identityRecord a)
  let w := v.modPort b fun x => x.trains (v.identityRecord b)
  have hdone : s.bypassDone r = w := by
    have hfirst : u.portTrain a = v := htrain u a ha (by simp [hab]) rfl rfl rfl rfl
    have hsecond : v.portTrain b = w := htrain v b hb (by simp [hab]) (port_modPort_ne u _ hne.symm) (ring_modPort u a r _) rfl rfl
    unfold State.bypassDone
    rw [hmove, hab]
    show (u.portTrain a).portTrain b = w
    rw [hfirst, hsecond]
  rw [hdone]
  refine ⟨?_, rfl, fun p hp => ?_⟩
  · rw [ring_modPort, ring_modPort, hring]
  · rw [hab] at hp
    rcases List.mem_cons.mp hp with rfl | hp
    · rw [port_modPort_ne v _ hne, port_modPort_self]; rfl
    · obtain rfl := List.mem_singleton.mp hp
      rw [port_modPort_self]; rfl

/-! ## A join (R326, R328) -/

theorem startJoin_of_through {s : State} {r : Nat} (h : (s.ring r).bypass = .through) :
    s.startJoin r = s.modRing r (fun x => { x with bypass := .moving true, leaving := false, moves := x.moves + 1 }) := if_pos h

theorem port_selfTested (s : State) (r q : Nat) :
    (s.selfTested r).port q = { s.port q with testFails := decide (q ∉ portsOfRing r) && (s.port q).testFails } := by
  have h := port_foldl (f := fun t p => t.modPort p fun x => { x with testFails := false }) (g := fun x => { x with testFails := false })
    (fun t i j => port_modPort t i j _) (nodup_portsOfRing r) s q
  rw [State.selfTested, h]
  by_cases hq : q ∈ portsOfRing r
  · simp [hq]
  · simp [hq]

/-- Using up the outcome of the self-tests changes the ports alone. -/
theorem selfTested_rest (s : State) (r : Nat) :
    (s.selfTested r).boot = s.boot ∧ (s.selfTested r).por = s.por ∧ (s.selfTested r).net.rings = s.net.rings :=
  (portsOfRing r).foldlRecOn (motive := fun t : State => t.boot = s.boot ∧ t.por = s.por ∧ t.net.rings = s.net.rings) _ ⟨rfl, rfl, rfl⟩
    fun _ ht _ _ => ht

/-! ## The settled statement -/

/-- Settles O34: the two writes of RING_MODE by whether the ring is busy and may join; the end of a move by where it goes. -/
theorem ringJoinAndLeave : Obligations.RingJoinAndLeave := by
  unfold Obligations.RingJoinAndLeave
  refine ⟨fun r bs s hwrites => ?_, fun r s hstay => ⟨fun hmove => ?_, fun hmove hleaving hports => ?_⟩⟩
  · obtain ⟨f, q, l, hindex, hsub, hfront, hserved⟩ := answered_of_writes hwrites
    have hnum : q.index - 0x1020 = r.val := by omega
    have hentry : (decide (0x1020 + r.val = 0x1020 ∨ 0x1020 + r.val = 0x1021) && decide (1 = 1)) = true := by
      have := r.isLt; simp; omega
    have hvalue {n : Nat} (h : s.frontRec.map (fun x => leNat x.2.value) = some n) : leNat q.value = n := by
      rw [hfront] at h; exact Option.some.inj h
    refine ⟨fun hone hfirst => ?_, fun hzero hfirst => ?_⟩
    · have hown : (decide (0x1020 + r.val = 0x1020 ∨ 0x1020 + r.val = 0x1021) && decide (1 = 1) && (match s.frontRec with
          | some (_, q) => decide (leNat q.value = 1)
          | none => false)) = true := by rw [hentry, hfront]; simp [hvalue hfirst]
      refine ⟨fun hidle hcan hthrough => ?_, fun hbusy => ?_, fun hidle hcan => ?_⟩
      · have hjoin := startJoin_of_through (s := (s.withSessions l).setDv q.index 1 1) hthrough
        obtain ⟨hans, hsame⟩ := hserved s.ringJoin (a := ⟨((s.withSessions l).setDv q.index 1 1).startJoin r, dsOk, 0, none⟩) rfl hown
          (by simp only [hnum, show (s.withSessions l).ringBusy r = false from hidle, show (s.withSessions l).canJoin r = true from hcan]; rfl)
          (by rw [hjoin]; rfl) (by rw [hjoin]; rfl) (by rw [hjoin]; rfl)
        dsimp only at hsame
        rw [hjoin] at hsame
        refine ⟨_, rfl, hans, ?_, ?_, fun p => hsame.port p, hsame.ms⟩
        · rw [hsame.ring, ring_modRing_self]
        · rw [hsame.ring, ring_modRing_self]; rfl
      · obtain ⟨hans, hsame⟩ := hserved s.ringJoin (a := ⟨s.withSessions l, dsBypassBusy, 0, none⟩) rfl hown
          (by simp only [hnum, show (s.withSessions l).ringBusy r = true from hbusy]; rfl) rfl rfl rfl
        exact ⟨_, rfl, hans, hsame.net⟩
      · obtain ⟨hboot, hpor, hrings⟩ := selfTested_rest (s.withSessions l) r
        obtain ⟨hans, hsame⟩ := hserved s.ringJoin (a := ⟨(s.withSessions l).selfTested r, dsBypassRefused, 0, none⟩) rfl hown
          (by simp only [hnum, show (s.withSessions l).ringBusy r = false from hidle, show (s.withSessions l).canJoin r = false from hcan]; rfl)
          (congrArg Boot.resetAfter hboot) (congrArg Boot.porterRuns hboot) ((congrArg Porter.current hpor).trans rfl)
        exact ⟨_, rfl, hans, (congrArg Net.rings hsame.net).trans hrings, fun p => (hsame.port p).trans (port_selfTested _ r p)⟩
    · have hown : (decide (0x1020 + r.val = 0x1020 ∨ 0x1020 + r.val = 0x1021) && decide (1 = 1) && (match s.frontRec with
          | some (_, q) => decide (leNat q.value ≠ 1)
          | none => false)) = true := by rw [hentry, hfront]; simp [hvalue hfirst]
      refine ⟨fun hidle hjoined hup => ?_, fun hbusy => ?_⟩
      · obtain ⟨hleaving, hboot, hpor, hport⟩ := startLeave_of_up (s := (s.withSessions l).setDv q.index 1 0) hjoined hup
        obtain ⟨hans, hsame⟩ := hserved s.ringLeave (a := ⟨((s.withSessions l).setDv q.index 1 0).startLeave r, dsOk, 0, none⟩) rfl hown
          (by simp only [hnum, show (s.withSessions l).ringBusy r = false from hidle]; rfl)
          (congrArg Boot.resetAfter hboot) (congrArg Boot.porterRuns hboot) ((congrArg Porter.current hpor).trans rfl)
        exact ⟨_, rfl, hans, by rw [hsame.ring]; exact hleaving, fun p hp => ((hsame.port p).trans (hport p)).trans (if_pos hp),
          fun p hp => ((hsame.port p).trans (hport p)).trans (if_neg hp)⟩
      · obtain ⟨hans, hsame⟩ := hserved s.ringLeave (a := ⟨s.withSessions l, dsBypassBusy, 0, none⟩) rfl hown
          (by simp only [hnum, show (s.withSessions l).ringBusy r = true from hbusy]; rfl) rfl rfl rfl
        exact ⟨_, rfl, hans, hsame.net⟩
  · have hdone : s.bypassDone r = s.modRing r (fun x => { x with bypass := .through }) := by simp only [State.bypassDone, hmove]
    refine ⟨_, congrArg Host.Outcome.next ((congrArg State.removalStep hdone).trans (removalStep_of_staying hstay)), ?_, fun p => rfl⟩
    rw [ring_modRing_self]
  · obtain ⟨hring, hboot, htrain⟩ := bypassDone_of_joining hmove hleaving hports
    exact ⟨_, congrArg Host.Outcome.next (removalStep_of_staying (by rw [hboot, hstay])), hring, htrain⟩

end Sys2Proof.Machine

/-! PROOFS. The commands of ports and of the route table (R320, R324, R330, R333): BULK_SEND, PORT_FENCE, PORT_UNFENCE and a write of a
route entry. -/

namespace Sys2Proof.Machine

/-! ## A fence of a port (R320) -/

/-- A port that PORT_FENCE has taken. -/
def Port.fencedNow (x : Port) : Port := { x with fencedCmd := true }

/-- The state once PORT_FENCE has taken a port from its peers. -/
def State.fencedPort (s : State) (p : Nat) : State :=
  let s := (s.ringOpens p).modPort p Port.fencedNow
  ((s.portLose p (s.heldOn p)).modPort p (fun x => { x with state := .fenced, lanesOk := 0 })).leaveMove p

theorem onlyLoss_fencedPort (s : State) (p : Nat) : OnlyLoss s (s.fencedPort p) :=
  ((((onlyLoss_ringOpens s p).trans (onlyLoss_modPort _ p _)).trans (onlyLoss_portLose _ p _)).trans (onlyLoss_modPort _ p _)).trans
    (onlyLoss_leaveMove _ p)

theorem port_ringOpens (s : State) (p q : Nat) : (s.ringOpens p).port q = s.port q := by rw [State.port, net_ringOpens]; rfl

theorem port_fencedPort (s : State) (p q : Nat) : (s.fencedPort p).port q =
    if q = p then { (s.port p).fencedNow.emptied with state := .fenced, lanesOk := 0 } else s.port q := by
  unfold State.fencedPort
  extract_lets t
  rw [port_leaveMove, port_modPort]
  split
  · next h => rw [port_portLose, if_pos rfl, port_modPort, if_pos rfl, port_ringOpens]
  · next h => rw [port_portLose, if_neg h, port_modPort_ne _ _ h, port_ringOpens]

theorem aborted_fencedPort (s : State) (p : Nat) {g : Nat} (h : g ∈ s.heldOn p) : ((s.fencedPort p).group g).aborted = true := by
  unfold State.fencedPort
  extract_lets t
  have hheld : t.heldOn p = s.heldOn p :=
    heldOn_congr (congrArg Net.groups (net_ringOpens s p)) (onlyLoss_ringOpens s p).vals p
  rw [group_leaveMove, group_modPort]
  exact aborted_portLose t p (hheld ▸ h)

theorem net_noteTier (s : State) (before : Nat) : (s.noteTier before).net = s.net := by
  unfold State.noteTier
  split
  · rfl
  · rfl

/-! ## A route entry (R333) -/

/-- Each route entry has its own place in the object dictionary. -/
theorem routeEntry_setDv (s : State) {g h : Nat} (hh : h < 256) (e : Nat) :
    (s.setDv (0x1110 + g / 128) (g % 128 + 1) e).routeEntry h = if h = g then e else s.routeEntry h := by
  have hentry (t : State) (k : Nat) (hk : k < 256) : t.routeEntry k = t.dv (0x1110 + k / 128) (k % 128 + 1) := by
    unfold State.routeEntry
    split
    · next hlow => rw [Nat.div_eq_of_lt hlow, Nat.mod_eq_of_lt hlow]
    · next hhigh => rw [show k / 128 = 1 by omega, show k - 127 = k % 128 + 1 by omega]
  rw [hentry _ h hh, hentry _ h hh]
  split
  · next heq => rw [heq, dv_setDv_self]
  · next hne =>
    refine dv_setDv_ne s e fun hkey => hne ?_
    have hkeys := (dKey_inj (by omega) (by omega)).mp hkey
    omega

/-- The exchange network once a written route entry has made two tags forgotten. -/
def State.forgets (s : State) (known : Word → Bool) : State :=
  (s.withNet (fun n => { n with
    keys := n.keys.filter (fun k => !known k.tag), retired := n.retired.filter (fun q => !known q.1)
    early := n.early.filter (fun q => !known q.key.tag), xheld := n.xheld.filter (fun q => !known q.tag) })).dropHeldCtrl known

/-- The tags that a written entry of a group makes forgotten: its own and that of the entry before. -/
def State.retag (s : State) (g e : Nat) (t : Word) : Bool := decide (t = rtTag e ∨ t = rtTag (s.routeEntry g))

theorem mem_keys_forgets {s : State} {known : Word → Bool} {k : ExKey} (h : k ∈ (s.forgets known).net.keys) : known k.tag = false := by
  simpa using (List.mem_filter.mp h).2

/-! ## The commands -/

section
variable {bs : List Byte} {s : State}

theorem bulkSend_answers (h : s.writes 0x1030 1 bs) (hport : par bs 0 1 < 8) (hsource : par bs 1 1 = 0) (htarget : par bs 3 1 < 16)
    (ha : par bs 8 8 % 2048 = 0) (hoff : par bs 16 8 % 2048 = 0) (hlen : par bs 24 8 % 2048 = 0) (hpos : 0 < par bs 24 8)
    (hon : s.inOnStacks (par bs 8 8) (par bs 24 8) = true) :
    ((s.port (par bs 0 1)).state = .up → s.por.cmds.length < 16 → ∃ t, exec .bulkSend s = .next t ∧ AnsweredWith dsAccepted s t ∧
      t.por.nextTicket = s.por.nextTicket + 1 ∧ (t.por.cmds.map RunCmd.ticket) = s.por.cmds.map RunCmd.ticket ++ [s.por.nextTicket] ∧
      t.net = s.net ∧ t.ms = s.ms) ∧
    ((s.port (par bs 0 1)).state ≠ .up → ∃ t, exec .bulkSend s = .next t ∧ AnsweredWith dsPortDown s t ∧ t.por.cmds = s.por.cmds) := by
  obtain ⟨f, r, l, -, -, hserve⟩ := served_of_writes h
  have hrange : ¬ (8 ≤ par bs 0 1 ∨ 2 ≤ par bs 1 1 ∨ 16 ≤ par bs 3 1 ∨ (par bs 1 1 = 1 ∧ 16 ≤ par bs 2 1) ∨ par bs 8 8 % 2048 ≠ 0 ∨
      par bs 16 8 % 2048 ≠ 0 ∨ par bs 24 8 % 2048 ≠ 0 ∨ par bs 24 8 = 0 ∨
      (par bs 1 1 = 0 ∧ (s.withSessions l).inOnStacks (par bs 8 8) (par bs 24 8) = false)) := by
    have hon : (s.withSessions l).inOnStacks (par bs 8 8) (par bs 24 8) = true := hon
    rw [hon]; simp; omega
  have hmem (p : Prop) : ¬ (par bs 1 1 = 1 ∧ p) := fun hslot => by omega
  constructor
  · intro hup hroom
    have hroom : (s.withSessions l).por.cmds.length < 16 := hroom
    obtain ⟨hans, hsame⟩ := hserve s.bulkSend rfl rfl
      ((if_neg hrange).trans ((if_neg (not_not.mpr hup)).trans ((if_neg (hmem _)).trans ((if_neg (hmem _)).trans (accept_of_room hroom)))))
      rfl rfl
    exact ⟨_, rfl, hans, hsame.nextTicket.trans rfl, (congrArg _ hsame.cmds).trans (List.map_append ..), hsame.net, hsame.ms⟩
  · intro hup
    obtain ⟨hans, hsame⟩ := hserve s.bulkSend rfl rfl ((if_neg hrange).trans (if_pos hup)) rfl rfl
    exact ⟨_, rfl, hans, hsame.cmds⟩

theorem portFence_fences {p : PortId} (h : s.writes 0x1030 2 bs) (hp : leNat bs = p.val) :
    ∃ t, exec .portFence s = .next t ∧ (t.port p).state = .fenced ∧ (t.port p).fencedCmd = true ∧
      (∀ g ∈ s.heldOn p, (t.group g).aborted = true) ∧ (∀ q, q ≠ p.val → t.port q = s.port q) ∧ t.ms = s.ms := by
  obtain ⟨f, r, l, -, -, -, hserve⟩ := answered_of_writes h
  have hloss := onlyLoss_fencedPort (s.withSessions l) p
  have hafter : OnlyLoss (s.withSessions l) ((((s.withSessions l).fencedPort p).logEvent 0 0 (0x30 + p) 0).noteTier (s.withSessions l).tier) :=
    (hloss.trans (onlyLoss_logEvent ..)).trans (onlyLoss_noteTier ..)
  obtain ⟨-, hsame⟩ := hserve s.portFence rfl rfl
    (a := ⟨(((s.withSessions l).fencedPort p).logEvent 0 0 (0x30 + p) 0).noteTier (s.withSessions l).tier, dsOk, 0, none⟩)
    (by simp only [hp, if_neg (Nat.not_le.mpr p.isLt)]; rfl) hafter.resetAfter hafter.porterRuns hafter.current
  have hnet : (s.portFence).net = ((s.withSessions l).fencedPort p).net := hsame.net.trans (net_noteTier ..)
  have hport (q : Nat) : s.portFence.port q = ((s.withSessions l).fencedPort p).port q := by rw [State.port, hnet]; rfl
  have hself := (hport p).trans ((port_fencedPort _ p p).trans (if_pos rfl))
  refine ⟨_, rfl, by rw [hself], by rw [hself]; rfl, fun g hg => ?_, fun q hq => ?_, hsame.ms.trans hafter.ms⟩
  case refine_2 => exact (hport q).trans ((port_fencedPort _ p q).trans (if_neg hq))
  rw [State.group, hnet]
  exact aborted_fencedPort (s.withSessions l) p hg

/-- What AUTO_BYPASS wants of the ring r for a port of it that PORT_UNFENCE returns to DOWN. -/
def State.unfenceBypasses (s : State) (p : PortId) (r : Nat) : Prop :=
  (s.ring r).bypass = .joined ∧ s.dv (0x1020 + r) 3 = 1 ∧ s.portEnabled p = true ∧
    ((s.port p).fault = 1 ∨ ∃ q ∈ portsOfRing r, q ≠ p.val ∧ (s.port q).state = .down ∧ (s.port q).fault = 1)

/-- A port returned to DOWN, which counts the transition. -/
def State.backDown (s : State) (p : Nat) : State :=
  (s.modPort p (fun x => { x with fencedCmd := false })).modPort p (fun x => { x with state := .down, downs := x.downs + 1 })

theorem port_backDown (s : State) (p q : Nat) : (s.backDown p).port q =
    if q = p then { s.port p with fencedCmd := false, state := .down, downs := (s.port p).downs + 1 } else s.port q := by
  unfold State.backDown
  rw [port_modPort, port_modPort, if_pos rfl]
  split
  · rfl
  · next h => rw [port_modPort_ne _ _ h]

theorem portBypass_of_none {s : State} {p : Nat} (h : ringOf p = none) : s.portBypass p = s := by simp only [State.portBypass, h]

theorem portBypass_of_some {s : State} {p r : Nat} (h : ringOf p = some r) : s.portBypass p = s.autoBypass r := by
  simp only [State.portBypass, h]

/-- Where its ring is not taken toward THROUGH, a port returned to DOWN is all that changes. -/
theorem portBypass_backDown_of_not {s : State} {p : PortId} (hon : s.portEnabled p = true)
    (h : ∀ r, ringOf p = some r → ¬ s.unfenceBypasses p r) : (s.backDown p).portBypass p = s.backDown p := by
  cases hr : ringOf p with
  | none => exact portBypass_of_none hr
  | some r =>
    rw [portBypass_of_some hr]
    by_cases hopen : (s.ring r).bypass = .joined ∧ s.dv (0x1020 + r) 3 = 1
    · refine autoBypass_of_sound fun q hq hdown => h r hr ⟨hopen.1, hopen.2, hon, ?_⟩
      rw [port_backDown] at hdown
      split at hdown
      · exact .inl hdown.2
      · next hne => exact .inr ⟨q, hq, hne, hdown⟩
    · exact autoBypass_of_closed (not_and_or.mp hopen)

/-- Where it is, the ring moves and the port is OFF. -/
theorem portBypass_backDown_of_bypasses {s : State} {p : PortId} {r : Nat} (hr : ringOf p = some r) (hbist : (s.port p).fencedBist = false)
    (h : s.unfenceBypasses p r) :
    (((s.backDown p).portBypass p).ring r).bypass = .moving false ∧ (((s.backDown p).portBypass p).port p).state = .off := by
  obtain ⟨hjoined, hauto, -, hlocal⟩ := h
  have hself := port_backDown s p p
  rw [if_pos rfl] at hself
  have hdown : ∃ q ∈ portsOfRing r, ((s.backDown p).port q).state = .down ∧ ((s.backDown p).port q).fault = 1 := by
    obtain hfault | ⟨q, hq, hne, hstate, hfault⟩ := hlocal
    · exact ⟨p, mem_portsOfRing hr, by rw [hself], by rw [hself]; exact hfault⟩
    · have hother := port_backDown s p q
      rw [if_neg hne] at hother
      exact ⟨q, hq, by rw [hother, hstate], by rw [hother, hfault]⟩
  obtain ⟨q, heq⟩ := autoBypass_eq (s := s.backDown p) (r := r) hjoined hauto hdown
  rw [portBypass_of_some hr, heq]
  constructor
  · exact congrArg Ring.bypass (ring_ringBypassed _ r)
  · have hport := port_ringBypassed (s.backDown p) r p
    rw [if_pos (mem_portsOfRing hr), hself] at hport
    rw [port_logEvent, hport]
    exact if_neg (by simp [Port.fenced, hbist])

theorem portUnfence_answers {p : PortId} (h : s.writes 0x1030 3 bs) (hp : leNat bs = p.val) (hcmd : (s.port p).fencedCmd = true)
    (hbist : (s.port p).fencedBist = false) :
    ((∀ r, ringOf p = some r → ¬ s.unfenceBypasses p r) → ∃ t, exec .portUnfence s = .next t ∧ AnsweredWith dsOk s t ∧
      t.port p = (if s.portEnabled p then { s.port p with fencedCmd := false, state := .down, downs := (s.port p).downs + 1 }
        else { s.port p with fencedCmd := false, state := .off }) ∧
      ∀ q, q ≠ p.val → t.port q = s.port q) ∧
    (∀ r, ringOf p = some r → s.unfenceBypasses p r → ∃ t, exec .portUnfence s = .next t ∧ AnsweredWith dsOk s t ∧
      (t.ring r).bypass = .moving false ∧ (t.port p).state = .off) := by
  obtain ⟨f, r, l, -, -, -, hserve⟩ := answered_of_writes h
  have hfree : (((s.withSessions l).modPort p (fun x => { x with fencedCmd := false })).port p).fencedBist = false := by
    rw [port_modPort, if_pos rfl]; exact hbist
  have hloss : OnlyLoss (s.withSessions l) (((s.withSessions l).backDown p).portBypass p) :=
    ((onlyLoss_modPort _ p _).trans (onlyLoss_modPort _ p _)).trans (onlyLoss_portBypass _ p)
  have hdown (hon : s.portEnabled p = true) : AnsweredWith dsOk s s.portUnfence ∧
      SameButFrames (((s.withSessions l).backDown p).portBypass p) s.portUnfence :=
    hserve s.portUnfence rfl rfl (a := ⟨((s.withSessions l).backDown p).portBypass p, dsOk, 0, none⟩)
      (by
        simp only [hp]
        refine (if_neg (Nat.not_le.mpr p.isLt)).trans ((if_neg fun hno => ?_).trans ((if_neg fun hno => ?_).trans (if_pos hon)))
        · exact Bool.false_ne_true (hno.symm.trans hcmd)
        · exact Bool.false_ne_true (hfree.symm.trans hno)) hloss.resetAfter hloss.porterRuns hloss.current
  constructor
  · intro hstays
    by_cases hon : s.portEnabled p = true
    · obtain ⟨hans, hsame⟩ := hdown hon
      rw [portBypass_backDown_of_not (s := s.withSessions l) hon hstays] at hsame
      rw [if_pos hon]
      exact ⟨_, rfl, hans, (hsame.port p).trans ((port_backDown _ p p).trans (if_pos rfl)),
        fun q hq => (hsame.port q).trans ((port_backDown _ p q).trans (if_neg hq))⟩
    · have hoff (q : Nat) : (((s.withSessions l).modPort p (fun x => { x with fencedCmd := false })).modPort p
          (fun x => { x with state := .off })).port q = if q = p then { s.port p with fencedCmd := false, state := .off } else s.port q := by
        rw [port_modPort, port_modPort, if_pos rfl]
        split
        · rfl
        · next hne => rw [port_modPort_ne _ _ hne]; rfl
      obtain ⟨hans, hsame⟩ := hserve s.portUnfence rfl rfl (a := ⟨((s.withSessions l).modPort p (fun x => { x with fencedCmd := false })).modPort p
          (fun x => { x with state := .off }), dsOk, 0, none⟩)
        (by
          simp only [hp]
          refine (if_neg (Nat.not_le.mpr p.isLt)).trans ((if_neg fun hno => ?_).trans ((if_neg fun hno => ?_).trans (if_neg hon)))
          · exact Bool.false_ne_true (hno.symm.trans hcmd)
          · exact Bool.false_ne_true (hfree.symm.trans hno)) rfl rfl rfl
      rw [if_neg hon]
      exact ⟨_, rfl, hans, (hsame.port p).trans ((hoff p).trans (if_pos rfl)), fun q hq => (hsame.port q).trans ((hoff q).trans (if_neg hq))⟩
  · intro r hr hbypasses
    obtain ⟨hans, hsame⟩ := hdown hbypasses.2.2.1
    obtain ⟨hring, hport⟩ := portBypass_backDown_of_bypasses (s := s.withSessions l) hr hbist hbypasses
    exact ⟨_, rfl, hans, by rw [hsame.ring]; exact hring, by rw [hsame.port]; exact hport⟩

theorem routeWrite_answers {g : Nat} (hg : g < 256) (h : s.writes (0x1110 + g / 128) (g % 128 + 1) bs) :
    ((s.group g).holder = none → routeOk (routeMask (leNat bs)) = true → ∃ t, exec .routeEntryWrite s = .next t ∧ AnsweredWith dsOk s t ∧
      t.routeEntry g = routeMask (leNat bs) ∧ (∀ k ∈ t.net.keys, k.tag ≠ rtTag (routeMask (leNat bs))) ∧
      t.group g = { s.group g with aborted := false } ∧ ∀ h, h < 256 → h ≠ g → t.routeEntry h = s.routeEntry h) ∧
    ((s.group g).holder = none → routeOk (routeMask (leNat bs)) = false → ∃ t, exec .routeEntryWrite s = .next t ∧
      AnsweredWith dsRouteInvalid s t ∧ ∀ h, t.routeEntry h = s.routeEntry h) ∧
    ((s.group g).holder ≠ none → ∃ t, exec .routeEntryWrite s = .next t ∧ AnsweredWith dsRouteBusy s t ∧
      ∀ h, t.routeEntry h = s.routeEntry h) := by
  obtain ⟨f, r, l, hindex, hsub, hserve⟩ := served_of_writes h
  have hplace : (r.index - 0x1110) * 128 + r.sub - 1 = g := by omega
  have hown : decide (0x1110 + g / 128 = 0x1110 ∨ 0x1110 + g / 128 = 0x1111) = true := decide_eq_true (by omega)
  refine ⟨fun hfree hok => ?_, fun hfree hbad => ?_, fun hheld => ?_⟩
  · have hidle : ¬ ((s.withSessions l).group g).holder.isSome = true := by
      rw [show (s.withSessions l).group g = s.group g from rfl, hfree]; decide
    obtain ⟨hans, hsame⟩ := hserve s.routeWrite rfl hown 
      (a := ⟨(((s.withSessions l).forgets (s.retag g (routeMask (leNat bs)))).setDv r.index r.sub (routeMask (leNat bs))).modGroup g
      (fun x => { x with aborted := false }), dsOk, 0, none⟩)
      (by simp only [hplace, if_neg hidle, hok]; rfl) rfl rfl
    have hentry (k : Nat) (hk : k < 256) : s.routeWrite.routeEntry k = if k = g then routeMask (leNat bs) else s.routeEntry k := by
      rw [hsame.routeEntry, hindex, hsub]
      exact routeEntry_setDv ((s.withSessions l).forgets (s.retag g (routeMask (leNat bs)))) hk _
    refine ⟨_, rfl, hans, (hentry g hg).trans (if_pos rfl), fun k hk htag => ?_, ?_, fun k hk hne => (hentry k hk).trans (if_neg hne)⟩
    · rw [hsame.net] at hk
      have hforgot : s.retag g (routeMask (leNat bs)) k.tag = false := mem_keys_forgets hk
      exact of_decide_eq_false hforgot (.inl htag)
    · rw [hsame.group, group_modGroup, if_pos rfl]; rfl
  · have hidle : ¬ ((s.withSessions l).group g).holder.isSome = true := by
      rw [show (s.withSessions l).group g = s.group g from rfl, hfree]; decide
    obtain ⟨hans, hsame⟩ := hserve s.routeWrite rfl hown (a := ⟨s.withSessions l, dsRouteInvalid, 0, none⟩)
      (by simp only [hplace, if_neg hidle, hbad]; rfl) rfl rfl
    exact ⟨_, rfl, hans, hsame.routeEntry⟩
  · have hbusy : ((s.withSessions l).group g).holder.isSome = true := Option.isSome_iff_ne_none.mpr hheld
    obtain ⟨hans, hsame⟩ := hserve s.routeWrite rfl hown (a := ⟨s.withSessions l, dsRouteBusy, 0, none⟩)
      (by simp only [hplace, if_pos hbusy]) rfl rfl
    exact ⟨_, rfl, hans, hsame.routeEntry⟩

end

/-- Settles O35, command by command: each write runs its own act, whose effect the lemmas above state. -/
theorem portAndRouteCommands : Obligations.PortAndRouteCommands := by
  unfold Obligations.PortAndRouteCommands
  refine ⟨?_, fun p bs s h hp => portFence_fences h hp, ?_, ?_⟩
  · intro bs s h port a len hport hsource htarget ha hoff hlen hpos hon
    exact bulkSend_answers h hport hsource htarget ha hoff hlen hpos hon
  · intro p bs s h hp hcmd hbist bypasses
    exact portUnfence_answers h hp hcmd hbist
  · intro g bs s hg h e
    exact routeWrite_answers hg h

end Sys2Proof.Machine

/-! PROOFS. EXCH_MESSAGE_RECEIVE (R342, R346): a message from the other die may let an operation go on, whose next stage sends to that
die's own inbound queue. -/

namespace Sys2Proof.Machine

/-- An MMA.AG over two modules of two dies each, begun on D0, whose two-byte vector leaves nothing to receive at L1: it goes on to its L0 stage
at the next message of its XSEQ. -/
def openGather : ExOp := {
  die := 0, tag := 1, xseq := 0, group := 0, opc := 0x04, level := 1, core := 0, ord := 0, job := 0x70001, total := 2, begun := true }

/-- A message of the gather's tag and XSEQ without data, for D1. -/
def emptyMessage : BitVec 2048 := BitVec.ofNat 2048 (2 ^ 224)

/-- Group 0 is valid, with tag 1, top level L1, both dies and two modules; the message waits for D1. -/
def gatheringDies : State :=
  { por := { vals := [(dKey 0x1110 1, 1 + 2 ^ 32 + 2 ^ 40 + 3 * 2 ^ 64 + 2 * 2 ^ 70)] }
    net := { ops := [openGather], dieIn := [(1, [emptyMessage])] } }

/-- The message is one flit, and accepting it lets the gather enter its L0 stage, whose one message goes to D1. -/
theorem gatheringDies_sends :
    msgFlits emptyMessage.toNat = 1 ∧ (mget [] (gatheringDies.exchReceive (.die 0)).net.dieIn 1).length = 1 := by decide +kernel

/-- Refutes O28: once the only message waiting for a die is accepted, an operation may enter its next stage and send that die another, so its
queue is not what was behind the message. -/
theorem not_messagesAcceptedOnce : ¬ Obligations.MessagesAcceptedOnce := by
  unfold Obligations.MessagesAcceptedOnce
  rintro ⟨hdie, -⟩
  obtain ⟨hflits, hsends⟩ := gatheringDies_sends
  obtain ⟨t, ht, hqueue, -⟩ := (hdie 0 gatheringDies emptyMessage [] rfl).1 hflits.le
  have heq : gatheringDies.exchReceive (.die 0) = t := Host.Outcome.next.inj ht
  have hempty : mget [] t.net.dieIn 1 = [] := hqueue.trans (by rw [hflits]; rfl)
  rw [heq, hempty] at hsends
  exact absurd hsends (by decide)

end Sys2Proof.Machine

/-! PROOFS. The end of a job (R367, R374): what returns or ends its streams mirrors their records in the stream table, and such a write may
itself meet the error that fences a stack (R161) and starts a sweep. -/

namespace Sys2Proof.Machine

/-! ## A CANCEL (R374) -/

/-- The entry of a CANCEL of job 0x70001. -/
def cancelOfJob6 : Desc := 2 + 0x70001 * 2 ^ 64

/-- `markedTable` where the job that holds stream 6 still waits, and pair 1 has fetched its CANCEL. -/
def cancelMarked : State :=
  { markedTable with
    hub := { markedTable.hub with jobs := [{ streamJob6 with phase := .waiting }], pairs := [(1, { fetched := some cancelOfJob6 })] } }

/-- The job that waits. -/
def waitingJob6 : Job := { streamJob6 with phase := .waiting }

/-- The job is the one that the entry names, with neither pins, rooms nor directories. The mirror of its ended stream meets the marked
granule, the sixteenth error fences the stack, and a sweep starts. -/
theorem cancelMarked_sweeps :
    (eClean cancelOfJob6 = true ∧ eOp cancelOfJob6 = 2 ∧ cancelMarked.job? (eTarget cancelOfJob6) = some waitingJob6) ∧
    cancelMarked.jobPins waitingJob6 = [] ∧ cancelMarked.jobHolds waitingJob6 = [] ∧
    (∀ i ∈ waitingJob6.streams, cancelMarked.hasDir i = false) ∧
    (cancelMarked.command 1 2 fun s e => s.cancelEntry 1 e).hub.sweeping = true := by decide +kernel

/-- Refutes O45: a waiting job with neither pins, rooms, adapters nor directories is cancelled, and the write that mirrors its ended stream in
the stream table meets a marked granule as the stack's last error before its threshold, which starts a sweep. -/
theorem not_admissionAndCancel : ¬ Obligations.AdmissionAndCancel := by
  unfold Obligations.AdmissionAndCancel
  rintro ⟨-, hcommands⟩
  obtain ⟨⟨hclean, hop, hjob⟩, hpins, hholds, hdirs, hsweeps⟩ := cancelMarked_sweeps
  obtain ⟨-, -, hcancel⟩ := hcommands 1 cancelOfJob6 cancelMarked rfl hclean
  obtain ⟨-, hends⟩ := hcancel hop rfl
  obtain ⟨t, ht, -, hquiet, -⟩ := (hends _ hjob).1 (.inl rfl)
  have heq : (cancelMarked.command 1 2 fun s e => s.cancelEntry 1 e) = t := Host.Outcome.next.inj ht
  rw [heq, hquiet hpins hholds rfl hdirs] at hsweeps
  exact Bool.false_ne_true hsweeps

/-! ## JOB_COMPLETE (R373) -/

/-- The running job that holds stream 6, on no cluster. -/
def teamlessJob6 : Job := { streamJob6 with entry := 0 }

/-- `markedTable` whose job has nothing left to do. -/
def doneMarked : State := { markedTable with hub := { markedTable.hub with jobs := [teamlessJob6] } }

/-- The job has nothing left to do, neither pins, rooms nor directories. The mirror of the stream that returns to OPEN meets the marked
granule, the sixteenth error fences the stack, and a sweep starts. -/
theorem doneMarked_sweeps :
    (doneMarked.job? 0x70001 = some teamlessJob6 ∧ teamlessJob6.team = [] ∧ doneMarked.heldClusters teamlessJob6 = teamlessJob6.team) ∧
    (∀ i ∈ teamlessJob6.streams, doneMarked.framesDone teamlessJob6 i = true) ∧
    doneMarked.jobPins teamlessJob6 = [] ∧ doneMarked.jobHolds teamlessJob6 = [] ∧
    (∀ i ∈ teamlessJob6.streams, doneMarked.hasDir i = false) ∧
    (doneMarked.completeIfDone 0x70001).hub.sweeping = true := by decide +kernel

/-- Refutes O46: a job with neither pins, rooms, adapters nor directories completes, and the write that mirrors its stream's return to OPEN in
the stream table meets a marked granule as the stack's last error before its threshold, which starts a sweep. -/
theorem not_jobLifeCycle : ¬ Obligations.JobLifeCycle := by
  unfold Obligations.JobLifeCycle
  rintro ⟨-, -, -, -, hcompletes, -⟩
  obtain ⟨⟨hjob, hteam, hheld⟩, hframes, hpins, hholds, hdirs, hsweeps⟩ := doneMarked_sweeps
  have hidle : ∀ k ∈ teamlessJob6.team, doneMarked.clusterDone k = true := by
    rw [hteam]
    exact List.forall_mem_nil _
  obtain ⟨t, ht, -, hquiet, -⟩ := hcompletes _ doneMarked _ hjob rfl rfl hheld hidle hframes
  have heq : doneMarked.completeIfDone 0x70001 = t := Host.Outcome.next.inj ht
  rw [heq, hquiet hpins hholds rfl hdirs] at hsweeps
  exact Bool.false_ne_true hsweeps

end Sys2Proof.Machine

/-! PROOFS. ENC_OVERRUN_TIMEOUT (R393): a stream that no engine serves ends, and the write that mirrors its record in the stream table may
itself meet the error that fences a stack (R161) and starts a sweep. -/

namespace Sys2Proof.Machine

/-- `markedTable` where stream 6 is encoded, by no engine, and its submit counter, 0 of cluster 2, has one request. -/
def encodedMarked : State :=
  { markedTable with
    clusters := [(2, { holder := some 0x70001, sync := [(0, 1)] }), (5, { holder := some 0x70001 })]
    hub := { markedTable.hub with streams := [(6, { sstate := .held, holderJob := 0x70001, enc := { params := 1 } })] } }

/-- The stream has no directory, a request posted and no engine. The mirror of its end meets the marked granule, the sixteenth error fences
the stack, and it ends with the sweep's status. -/
theorem encodedMarked_swept :
    encodedMarked.encOf 6 = some (streamJob6, 1) ∧ (∀ e, e < 4 → bit (epMask 1) e = true → encodedMarked.engineOn e = false) ∧
    (encodedMarked.stream 6).enc.reqDone < (encodedMarked.jobSync streamJob6 (epSubmit 1)).toNat ∧ encodedMarked.hasDir 6 = false ∧
    ((encodedMarked.encOverrun 6).stream 6).endCode = stSwept := by decide +kernel

/-- Refutes O49: a stream without a directory, with a request posted and no engine to serve it, ends; the write that mirrors its record in the
stream table meets a marked granule as the stack's last error before its threshold, which starts a sweep, whose status the stream takes. -/
theorem not_encodersCodeFrames : ¬ Obligations.EncodersCodeFrames := by
  unfold Obligations.EncodersCodeFrames
  rintro ⟨hstream, -⟩
  obtain ⟨henc, hunmasked, hposted, hdir, hswept⟩ := encodedMarked_swept
  obtain ⟨-, -, hunserved, -⟩ := hstream 6 encodedMarked streamJob6 1 henc
  obtain ⟨t, ht, -, hends⟩ := hunserved hunmasked hposted
  have heq : encodedMarked.encOverrun 6 = t := Host.Outcome.next.inj ht
  obtain ⟨-, hcode⟩ := hends hdir
  rw [heq] at hswept
  exact absurd (hcode.symm.trans hswept) (by decide)

end Sys2Proof.Machine

/-! PROOFS. The queue of Ledger writes (R434, R468): a RESTORE_FACTORY of scope 1 that waits there empties the keys in effect when its turn
comes, and a command that queues a key write gives the front one its turn. -/

namespace Sys2Proof.Machine

/-! ## KEY_LEDGER_RETRY (R468) -/

/-- One key in effect, a faulted write of it to repeat, and a queued RESTORE_FACTORY of scope 1 whose turn has not begun. -/
def restoreWaits : State := { por := { ledgerQueue := [.restore 0 1], keysRetry := 1, keys := [(1, [5])] } }

theorem restoreWaits_empties : restoreWaits.keyRetry.por.keys = [] := rfl

/-- Refutes O52: repeating a faulted key write gives the waiting RESTORE_FACTORY its turn, which empties the keys in effect. -/
theorem not_firmwareAndLedger : ¬ Obligations.FirmwareAndLedger := by
  unfold Obligations.FirmwareAndLedger
  rintro ⟨-, -, -, -, -, -, -, hretry⟩
  obtain ⟨t, ht, -, -, hkeys⟩ := (hretry restoreWaits).1 (by decide)
  have heq : restoreWaits.keyRetry = t := Host.Outcome.next.inj ht
  have hempty := restoreWaits_empties
  rw [heq, hkeys] at hempty
  exact absurd hempty (by decide)

/-! ## KEY_ENROL (R467, R469) -/

/-- The value of a KEY_ENROL into slot 1. -/
def enrolValue : List Byte := 1 :: List.replicate 1800 7

/-- The record that writes it whole. -/
def enrolRecord : Req := ⟨0x1C18, 1, 2, 1801, 0, 1801, enrolValue⟩

/-- The mailbox's request of it, outside every session. -/
def enrolFrame : InFrame :=
  { path := .mailbox, kind := 1, session := 0, txn := 1, more := false, multicast := false, recs := [enrolRecord], payload := [] }

/-- A module that is READY at tier 3 and serves that request with no key in effect, while a RESTORE_FACTORY of scope 1 waits for its turn. -/
def enrolling : State :=
  { pwr := { rootLocked := true, blocks := (List.range 40).map fun b => (b, 1) }
    boot := { hub0 := true, hub1 := true, vin := true, refclk := true, porterStarted := true, porterRuns := true, ready := true
              inReset := false, flashReady := true, cxlUp := true }
    por := { current := some enrolFrame, ledgerQueue := [.restore 0 1] } }

/-- Whether a write's record comes to a value. -/
def WriteLook.gives (w : WriteLook) (bs : List Byte) : Bool :=
  match w with
  | .value b _ => b == bs
  | _ => false

theorem WriteLook.value_of_gives {w : WriteLook} {bs : List Byte} (h : w.gives bs = true) : ∃ t, w = .value bs t := by
  cases w with
  | refuse st t => exact absurd h Bool.false_ne_true
  | staged t => exact absurd h Bool.false_ne_true
  | value b t => exact ⟨t, by rw [beq_iff_eq.mp h]⟩

/-- The record is taken, at tier 2 or above, into an empty slot; the key does not stay in effect, since the restore's turn begins. -/
theorem enrolling_empties :
    (enrolling.frontRec = some (enrolFrame, enrolRecord) ∧ enrolling.defines 0x1C18 1 = true ∧ 2 ≤ enrolling.tier) ∧
    (enrolling.lookWrite enrolFrame enrolRecord).gives enrolValue = true ∧
    (par enrolValue 0 1 = 1 ∧ (enrolValue.drop 8).take 1793 ≠ [] ∧ operatorKey enrolling 1 = []) ∧
    operatorKey enrolling.keyEnrol 1 = [] := by decide +kernel

theorem enrolValue_length : enrolValue.length = 1801 := by
  unfold enrolValue
  rw [List.length_cons, List.length_replicate]

theorem enrolling_writes : enrolling.writes 0x1C18 1 enrolValue := by
  obtain ⟨⟨hfront, -⟩, hgives, -⟩ := enrolling_empties
  obtain ⟨t, hlook⟩ := WriteLook.value_of_gives hgives
  exact ⟨_, _, t, rfl, hfront, rfl, rfl, rfl, hlook⟩

/-- Refutes O53: KEY_ENROL's key write gives the waiting RESTORE_FACTORY its turn, which empties the keys in effect, the new one too. -/
theorem not_keysReportsAndSessions : ¬ Obligations.KeysReportsAndSessions := by
  unfold Obligations.KeysReportsAndSessions
  rintro ⟨henrol, -⟩
  obtain ⟨-, -, ⟨hslot, hvalue, hfree⟩, hempties⟩ := enrolling_empties
  have haccepted := (henrol enrolValue enrolling enrolling_writes).1
  rw [hslot] at haccepted
  obtain ⟨t, ht, -, hkey, -⟩ := haccepted (by decide) (by decide) hfree
  have heq : enrolling.keyEnrol = t := Host.Outcome.next.inj ht
  rw [← heq, hempties] at hkey
  exact hvalue hkey.symm

/-- Refutes O54: in the same way the first key, enrolled over the mailbox without a session, does not stay in effect. -/
theorem not_firstKeyOverTheMailbox : ¬ Obligations.FirstKeyOverTheMailbox := by
  unfold Obligations.FirstKeyOverTheMailbox
  intro h
  obtain ⟨⟨hfront, hdefines, htier⟩, -, ⟨hslot, hvalue, -⟩, hempties⟩ := enrolling_empties
  have hfirst := (h enrolFrame enrolRecord enrolling hfront rfl rfl (List.forall_mem_nil _) rfl rfl rfl rfl rfl rfl rfl
    enrolValue_length rfl hdefines).1 rfl rfl htier
  rw [show par enrolRecord.value 0 1 = 1 from hslot] at hfirst
  obtain ⟨t, ht, -, hkey⟩ := hfirst (by decide) (by decide)
  have heq : enrolling.keyEnrol = t := Host.Outcome.next.inj ht
  rw [← heq, hempties] at hkey
  exact hvalue hkey.symm

end Sys2Proof.Machine

/-! PROOFS. USER_VIEW_REFRESH (R431): an access of the view may itself meet the error that fences a stack (R161), and a fence takes the
windows that lie on the stack. -/

namespace Sys2Proof.Machine

/-! ## What a fence and an access do to a window (R161) -/

theorem car_jobFault (s : State) (job : Option JobId) (f : FaultInfo) : (s.jobFault job f).car = s.car := by
  unfold State.jobFault
  split <;> rfl

theorem car_noteTier (s : State) (before : Nat) : (s.noteTier before).car = s.car := by
  unfold State.noteTier
  split <;> rfl

theorem car_useParity (s : State) (m : Nat) : (s.useParity m).car = s.car := by
  obtain ⟨⟨-, -, hcar, -⟩, -⟩ := useParity_keeps s m
  exact hcar

theorem slot_of_car {s t : State} (h : t.car = s.car) (i : Nat) : t.slot i = s.slot i := by
  unfold State.slot
  rw [h]

theorem slot_logEvent (s : State) (event code unit : Nat) (d : BitVec 128) (i : Nat) : (s.logEvent event code unit d).slot i = s.slot i := rfl

theorem slot_loseWindows (lost : Nat → Bool) (s : State) {i : Nat} (hi : i < 16) :
    ((List.range 16).foldl (fun t i => if lost i then t.modSlot i (fun x => { x with window := 2 }) else t) s).slot i =
      if lost i then { s.slot i with window := 2 } else s.slot i := by
  rw [slot_foldl (g := fun i x => if lost i then { x with window := 2 } else x) ?_ ?_ List.nodup_range, if_pos (List.mem_range.mpr hi)]
  · intro t j
    cases hj : lost j with
    | true => rw [if_pos rfl, if_pos rfl, slot_modSlot_self]
    | false => rfl
  · intro t j k hk
    cases hj : lost j with
    | true => rw [if_pos rfl, slot_modSlot_ne t _ hk]
    | false => rfl

/-- A window in effect on the stack is LOST; another stays as it is. -/
theorem window_fenceStack (s : State) (m code : Nat) {i : Nat} (hi : i < 16) : ((s.fenceStack m code).slot i).window =
    if (s.slot i).window = 1 ∧ m ∈ stacksOf (s.winBase i) (s.winLen i) then 2 else (s.slot i).window := by
  unfold State.fenceStack
  dsimp only
  rw [slot_of_car (car_noteTier _ _), slot_logEvent]
  refine (congrArg Slot.window (slot_loseWindows _ _ hi)).trans ((apply_ite Slot.window _ _ _).trans (if_congr ?_ rfl rfl))
  rw [Bool.and_eq_true, decide_eq_true_iff, List.contains_iff_mem]
  rfl

/-- A LOST window stays LOST. -/
structure KeepsLost (s t : State) : Prop where
  lost : ∀ i, i < 16 → (s.slot i).window = 2 → (t.slot i).window = 2

theorem KeepsLost.of_car {s t : State} (h : t.car = s.car) : KeepsLost s t :=
  ⟨fun i _ hi => (congrArg Slot.window (slot_of_car h i)).trans hi⟩

theorem KeepsLost.trans {s t u : State} (h : KeepsLost s t) (h' : KeepsLost t u) : KeepsLost s u :=
  ⟨fun i hi hlost => h'.lost i hi (h.lost i hi hlost)⟩

theorem keepsLost_fenceStack (s : State) (m code : Nat) : KeepsLost s (s.fenceStack m code) :=
  ⟨fun i hi hlost => by
    rw [window_fenceStack s m code hi, hlost]
    exact ite_self 2⟩

theorem keepsLost_countUe (s : State) (a : Nat) : KeepsLost s (s.countUe a) := by
  unfold State.countUe
  dsimp only
  generalize addrStack a = m
  have hcounted (d : BitVec 128) : KeepsLost s (((s.useParity m).modStack m fun x => { x with ue := x.ue + 1 }).logEvent 1 0x44 (0x10 + m) d) :=
    .of_car (car_useParity s m)
  split
  · exact ((hcounted _).trans (keepsLost_fenceStack _ m 2)).trans (.of_car (car_jobFault _ _ _))
  · exact hcounted _

theorem keepsLost_countErr (s : State) (e : AccErr) : KeepsLost s (s.countErr e) := by
  cases e with
  | bus => exact .of_car rfl
  | ue a => exact keepsLost_countUe s a

theorem keepsLost_hubGot (s : State) (r : Nat × Nat) : KeepsLost s (s.hubGot r) := by
  unfold State.hubGot
  split
  · obtain ⟨⟨-, -, hcar, -⟩, -⟩ := readDone_keeps s r.1 r.2
    exact .of_car hcar
  · exact keepsLost_countErr s _

theorem car_memLand (s : State) (a : Nat) (bs : List Byte) : (s.memLand a bs).car = s.car := by
  unfold State.memLand
  refine List.foldlRecOn _ _ (motive := fun t : State => t.car = s.car) rfl fun t ht p _ => ?_
  split
  · exact ht
  split
  · exact ht
  · obtain ⟨⟨-, -, hsnoop, -⟩, -⟩ := snoopInv_keeps t p.2.1 p.2.2.length
    obtain ⟨⟨-, -, hput, -⟩, -⟩ := memPut_mem (t.snoopInv p.2.1 p.2.2.length) p.2.1 p.2.2
    exact (hput.trans hsnoop).trans ht

theorem keepsLost_memWriteHub (s : State) (a : Nat) (bs : List Byte) : KeepsLost s (s.memWriteHub a bs) := by
  unfold State.memWriteHub
  split
  · next t hwrite =>
    obtain ⟨⟨-, -, hcar, -⟩, -⟩ := memWriteOwn_ok hwrite
    exact .of_car hcar
  · next e t hwrite =>
    have hland : t = s.memLand a bs := by
      unfold State.memWriteOwn at hwrite
      split at hwrite
      · injection hwrite with hpair
        exact (congrArg Prod.snd hpair).symm
      split at hwrite
      · injection hwrite with hpair
        exact (congrArg Prod.snd hpair).symm
      · cases hwrite
    exact (KeepsLost.of_car (hland ▸ car_memLand s a bs)).trans (keepsLost_countErr t e)

theorem keepsLost_viewOne (s : State) (k off : Nat) (v : List Byte) : KeepsLost s (s.viewOne k off v) := by
  unfold State.viewOne
  dsimp only
  split
  · exact .of_car rfl
  · exact (((keepsLost_hubGot s _).trans (keepsLost_memWriteHub _ _ _)).trans (keepsLost_memWriteHub _ _ _)).trans
      (keepsLost_memWriteHub _ _ _)

/-! ## A view whose first access loses a window -/

/-- A view at 2,048, never written, of an image of version 1, on stack 0, which waits for more repeats than a transfer may take (R157) and is one
uncorrectable error short of its threshold; slot 0's window of one 4-KiB frame lies there. -/
def losingView : State :=
  { por := { viewBase := 2048, vals := [(dKey 0x0910 9, 1)] }
    boot := { ready := true, hub0 := true, banks := [(0, { version := 1 })] }
    pwr := { blocks := [(12, 1)] }
    ms := { parity := [(0, 16)], stackRecs := [(0, { ue := 15 })] }
    car := { slots := [(0, { window := 1, stream := { cells := [(25, 16)] } })] } }

/-- What counting an uncorrectable error on stack 0 leaves before its fence is looked at. -/
def losingViewCounted : State := (losingView.useParity 0).modStack 0 fun x => { x with ue := x.ue + 1 }

/-- Stack 0 serves and fails its transfers (R157); its next error is the sixteenth, at the threshold; slot 0's window lies on it. -/
theorem losingView_fails :
    (([0].any losingView.stackOff) = false ∧ [0].find? losingView.stackFails = some 0) ∧
    ((losingViewCounted.stack 0).fence = 0 ∧ losingViewCounted.dv 0x0801 3 ≤ (losingViewCounted.stack 0).ue.toNat) ∧
    (losingViewCounted.slot 0).window = 1 ∧ 0 ∈ stacksOf (losingViewCounted.winBase 0) (losingViewCounted.winLen 0) := by decide +kernel

theorem losingView_counts {a : Nat} (ha : a < 2 ^ 37) : ((losingView.countUe a).slot 0).window = 2 := by
  have hstack : addrStack a = 0 := by
    simp only [addrStack, bits]
    omega
  obtain ⟨-, hfences, hwindow⟩ := losingView_fails
  unfold State.countUe
  dsimp only
  rw [hstack]
  split
  · rw [slot_of_car (car_jobFault _ _ _), window_fenceStack _ _ _ (by decide)]
    exact if_pos hwindow
  · next hno => exact absurd hfences hno

theorem stacksOf_low {a n : Nat} (hn : 0 < n) (ha : a + n ≤ 2 ^ 37) : stacksOf a n = [0] := by
  have hmeets : ∀ m ∈ List.range 8, meets a n (m * 2 ^ 37) (2 ^ 37) = decide (m = 0) := by
    intro m _
    rw [Bool.eq_iff_iff]
    simp only [meets, Bool.and_eq_true, decide_eq_true_iff]
    omega
  rw [stacksOf, if_neg (by omega), List.filter_congr hmeets]
  rfl

theorem losingView_memRead {a : Nat} (ha : a + 4 ≤ 2 ^ 37) : losingView.memRead a 4 = .error (.ue a) := by
  have htop : ¬ stackTop < a + 4 := by
    unfold stackTop
    omega
  obtain ⟨⟨hserves, hfails⟩, -⟩ := losingView_fails
  have herr : losingView.rangeErr a 4 = some (.ue a) := by
    simp only [State.rangeErr, if_neg htop, stacksOf_low (by decide) ha, hserves, hfails, Bool.false_eq_true, if_false, Nat.zero_mul,
      Nat.max_zero]
  simp only [State.memRead, herr]

/-! ## The refresh -/

theorem losingView_base : losingView.por.viewBase = 2048 := rfl

/-- A value that differs from what the view shows is refreshed, which loses the window. -/
theorem losingView_viewOne {k off : Nat} {v : List Byte} (hk : k < 8192 * 256) (hshown : losingView.ms.mem.readBytes (2048 + off) v.length ≠ v) :
    ((losingView.viewOne k off v).slot 0).window = 2 := by
  have hread := losingView_memRead (a := 2048 + 64 + 16 * k + 12) (by omega)
  have hgot : ((losingView.hubGot (2048 + 64 + 16 * k + 12, 4)).slot 0).window = 2 := by
    simp only [State.hubGot, hread]
    exact losingView_counts (by omega)
  unfold State.viewOne
  dsimp only
  rw [losingView_base, if_neg hshown]
  exact (((keepsLost_memWriteHub _ _ _).trans (keepsLost_memWriteHub _ _ _)).trans (keepsLost_memWriteHub _ _ _)).lost 0 (by decide) hgot

theorem dictTop_le (i : Nat) : dictTop i ≤ 255 := by
  have hrows : ∀ e ∈ dictAll, e.subHi ≤ 255 := by decide +kernel
  refine List.foldlRecOn _ _ (motive := (· ≤ 255)) (Nat.zero_le _) fun m hm e he => ?_
  exact Nat.max_le.mpr ⟨hm, hrows e (List.mem_filter.mp he).1⟩

theorem length_flatMap_le {α β : Type} {f : α → List β} {n : Nat} (h : ∀ x, (f x).length ≤ n) (l : List α) :
    (l.flatMap f).length ≤ l.length * n := by
  induction l with
  | nil => exact Nat.zero_le _
  | cons x l ih =>
    rw [List.flatMap_cons, List.length_append, List.length_cons, Nat.succ_mul, Nat.add_comm]
    exact Nat.add_le_add ih (h x)

/-- A number of entries for each of some indices is at most a number for each index. -/
theorem length_filter_flatMap_le {α : Type} {f : Nat → List α} {b : Nat} (h : ∀ i, (f i).length ≤ b) (p : Nat → Bool) (n : Nat) :
    (((List.range n).filter p).flatMap f).length ≤ n * b :=
  (length_flatMap_le h _).trans (Nat.mul_le_mul_right b ((List.length_filter_le _ _).trans_eq List.length_range))

/-- The view has at most 256 entries of each of its 8,192 indices. -/
theorem length_viewEntries_le (s : State) : s.viewEntries.length ≤ 8192 * 256 := by
  unfold State.viewEntries
  refine length_filter_flatMap_le (fun i => ?_) _ _
  refine (List.length_filterMap_le _ _).trans ?_
  rw [List.length_range]
  exact Nat.add_le_add_right (dictTop_le i) 1

theorem length_viewOffsets (start : Nat) (ns : List Nat) : (viewOffsets start ns).length = ns.length := by
  induction ns generalizing start with
  | nil => rfl
  | cons n ns ih => exact congrArg Nat.succ (ih _)

/-- Each entry of the view has a record, with its value. -/
theorem exists_viewRecord {s : State} {i u : Nat} {e : DEntry} (hx : (i, u, e) ∈ s.viewEntries) :
    ∃ k off : Nat, s.viewRecords[k]? = some ((i, u, e), s.readWith e i u, off) := by
  obtain ⟨k, hk, hget⟩ := List.getElem_of_mem hx
  have hentry : s.viewEntries[k]? = some (i, u, e) := (List.getElem?_eq_getElem hk).trans (congrArg some hget)
  have hvalue : (s.viewEntries.map fun (i, u, e) => s.readWith e i u)[k]? = some (s.readWith e i u) := by
    rw [List.getElem?_map, hentry]
    rfl
  have hplaces : k < (viewOffsets ((64 + 16 * s.viewEntries.length + 31) / 32 * 32)
      ((s.viewEntries.map fun (i, u, e) => s.readWith e i u).map List.length)).length := by
    rw [length_viewOffsets, List.length_map, List.length_map]
    exact hk
  exact ⟨k, _, List.getElem?_zip_eq_some.mpr ⟨hentry, List.getElem?_zip_eq_some.mpr ⟨hvalue, List.getElem?_eq_getElem hplaces⟩⟩⟩

theorem length_viewRecords_le (s : State) : s.viewRecords.length ≤ 8192 * 256 := by
  unfold State.viewRecords
  dsimp only
  rw [List.length_zip]
  exact (Nat.min_le_left _ _).trans (length_viewEntries_le s)

theorem index_viewRecord_lt {s : State} {p : ((Nat × Nat × DEntry) × List Byte × Nat) × Nat} (hp : p ∈ s.viewRecords.zipIdx) :
    p.2 < 8192 * 256 := by
  have hlength := length_viewRecords_le s
  generalize s.viewRecords = rs at hp hlength
  have hindex := List.snd_lt_of_mem_zipIdx hp
  omega

theorem mem_viewEntries {s : State} {i u : Nat} {e : DEntry} (hi : i < 0x2000) (hindex : (dictAll.any fun e => e.onIndex i) = true)
    (hsub : u < dictTop i + 1) (hrow : dictEntry i u = some e) (hviewed : (s.inView e i u && s.defines i u) = true) :
    (i, u, e) ∈ s.viewEntries := by
  unfold State.viewEntries
  refine List.mem_flatMap.mpr ⟨i, List.mem_filter.mpr ⟨List.mem_range.mpr hi, hindex⟩, ?_⟩
  refine List.mem_filterMap.mpr ⟨u, List.mem_range.mpr hsub, ?_⟩
  rw [hrow]
  exact if_pos hviewed

/-- The row of the image's version. -/
def versionRow : DEntry := dRoU 0x0100 1 6 6 4

/-- The row is in the view, and its value is the image's version. -/
theorem versionRow_value :
    ((dictAll.any fun e => e.onIndex 0x0100) = true ∧ 6 < dictTop 0x0100 + 1 ∧ dictEntry 0x0100 6 = some versionRow) ∧
    (losingView.inView versionRow 0x0100 6 && losingView.defines 0x0100 6) = true ∧
    losingView.readWith versionRow 0x0100 6 = [1, 0, 0, 0] := by decide +kernel

/-- Memory was never written, so no place of it reads as the version. -/
theorem losingView_unshown (off : Nat) : losingView.ms.mem.readBytes (2048 + off) [(1 : Byte), 0, 0, 0].length ≠ [1, 0, 0, 0] := by
  intro h
  have hbyte : (0 : Byte) = 1 := Option.some.inj (congrArg List.head? h)
  exact absurd hbyte (by decide)

/-- The refresh of one record. -/
def State.refreshRecord (s : State) (p : ((Nat × Nat × DEntry) × List Byte × Nat) × Nat) : State :=
  if p.1.1.2.2.acc = .ro then s.viewOne p.2 p.1.2.2 p.1.2.1 else s

theorem keepsLost_refreshRecord (s : State) (p : ((Nat × Nat × DEntry) × List Byte × Nat) × Nat) : KeepsLost s (s.refreshRecord p) := by
  unfold State.refreshRecord
  split
  · exact keepsLost_viewOne s _ _ _
  · exact .of_car rfl

theorem viewRefresh_eq {s : State} {base : Nat} (hbase : s.por.viewBase = base) (h0 : base ≠ 0) (hready : s.boot.ready = true) :
    s.viewRefresh = s.viewRecords.zipIdx.foldl State.refreshRecord s :=
  if_neg (by simp [hbase, h0, hready])

/-- A record leaves the state as it is, or loses the window. -/
theorem losingView_refreshRecord {p : ((Nat × Nat × DEntry) × List Byte × Nat) × Nat} (hk : p.2 < 8192 * 256) :
    losingView.refreshRecord p = losingView ∨ ((losingView.refreshRecord p).slot 0).window = 2 := by
  unfold State.refreshRecord
  split
  · by_cases hshown : losingView.ms.mem.readBytes (2048 + p.1.2.2) p.1.2.1.length = p.1.2.1
    · exact .inl (if_pos hshown)
    · exact .inr (losingView_viewOne hk hshown)
  · exact .inl rfl

/-- The refresh of records, one of which loses the window, loses it. -/
theorem losingView_refreshAll {ps : List (((Nat × Nat × DEntry) × List Byte × Nat) × Nat)} (hk : ∀ p ∈ ps, p.2 < 8192 * 256)
    (hlost : ∃ p ∈ ps, ((losingView.refreshRecord p).slot 0).window = 2) : ((ps.foldl State.refreshRecord losingView).slot 0).window = 2 := by
  induction ps with
  | nil =>
    obtain ⟨p, hp, -⟩ := hlost
    cases hp
  | cons q qs ih =>
    obtain ⟨hq, hqs⟩ := List.forall_mem_cons.mp hk
    rw [List.foldl_cons]
    by_cases hfirst : ((losingView.refreshRecord q).slot 0).window = 2
    · exact List.foldlRecOn qs _ (motive := fun t : State => (t.slot 0).window = 2) hfirst
        fun t ht p _ => (keepsLost_refreshRecord t p).lost 0 (by decide) ht
    · rw [(losingView_refreshRecord hq).resolve_right hfirst]
      obtain ⟨p, hp, hwindow⟩ := hlost
      obtain rfl | hp := List.mem_cons.mp hp
      · exact absurd hwindow hfirst
      · exact ih hqs ⟨p, hp, hwindow⟩

theorem losingView_loses : (losingView.viewRefresh.slot 0).window = 2 := by
  obtain ⟨⟨hindex, hsub, hrow⟩, hviewed, hversion⟩ := versionRow_value
  obtain ⟨k, off, hrecord⟩ := exists_viewRecord (mem_viewEntries (by decide) hindex hsub hrow hviewed)
  rw [hversion] at hrecord
  have hmem : (((0x0100, 6, versionRow), [1, 0, 0, 0], off), k) ∈ losingView.viewRecords.zipIdx := List.mem_zipIdx_iff_getElem?.mpr hrecord
  have hindices : ∀ p ∈ losingView.viewRecords.zipIdx, p.2 < 8192 * 256 := fun p hp => index_viewRecord_lt hp
  have hone : losingView.refreshRecord (((0x0100, 6, versionRow), [1, 0, 0, 0], off), k) = losingView.viewOne k off [1, 0, 0, 0] := rfl
  rw [viewRefresh_eq losingView_base (by decide) rfl]
  exact losingView_refreshAll hindices ⟨_, hmem, hone ▸ losingView_viewOne (hindices _ hmem) (losingView_unshown off)⟩

/-- Refutes O55: the first access of a refresh meets an uncorrectable error, the last before its stack's threshold; the fence takes slot 0's
window, which lies on the stack, so the slots are not as before. -/
theorem not_framesEntriesAndView : ¬ Obligations.FramesEntriesAndView := by
  unfold Obligations.FramesEntriesAndView
  rintro ⟨-, -, -, -, hrefresh, -⟩
  obtain ⟨t, ht, -, -, -, -, -, -, hcar, -⟩ := hrefresh losingView
  have heq : losingView.viewRefresh = t := Host.Outcome.next.inj ht
  have hloses := losingView_loses
  rw [heq, slot_of_car hcar] at hloses
  exact absurd hloses (by decide)

end Sys2Proof.Machine

/-! PROOFS. Self-test (R476 to R483), ALERT_N (R485), the bandwidth windows (R488) and the status lights (R501). -/

namespace Sys2Proof.Machine

/-! ## What the end of a run leaves of the runs and their results -/

/-- The self-test runs and the results of those that ended are as before. -/
structure KeepsRuns (s t : State) : Prop where
  runs : t.por.bist = s.por.bist
  results : t.por.bistResults = s.por.bistResults

theorem KeepsRuns.refl (s : State) : KeepsRuns s s := ⟨rfl, rfl⟩

theorem KeepsRuns.trans {s t u : State} (h : KeepsRuns s t) (h' : KeepsRuns t u) : KeepsRuns s u :=
  ⟨h'.runs.trans h.runs, h'.results.trans h.results⟩

theorem KeepsRuns.foldl {α : Type} {f : State → α → State} (h : ∀ s a, KeepsRuns s (f s a)) (l : List α) (s : State) :
    KeepsRuns s (l.foldl f s) :=
  l.foldlRecOn f (KeepsRuns.refl s) fun t ht a _ => ht.trans (h t a)

theorem KeepsRuns.ite {s t u : State} {p : Prop} [Decidable p] (ht : KeepsRuns s t) (hu : KeepsRuns s u) :
    KeepsRuns s (if p then t else u) := by
  split
  · exact ht
  · exact hu

theorem keepsRuns_of_access {s t : State} (h : OnlyAccess s t) : KeepsRuns s t :=
  ⟨(congrArg (fun x => x.por.bist) h.same :), (congrArg (fun x => x.por.bistResults) h.same :)⟩

theorem keepsRuns_noteTier (s : State) (before : Nat) : KeepsRuns s (s.noteTier before) := .ite ⟨rfl, rfl⟩ (.refl s)

theorem keepsRuns_modCluster (s : State) (k : Nat) (f : Cluster → Cluster) : KeepsRuns s (s.modCluster k f) := ⟨rfl, rfl⟩

theorem keepsRuns_modCore (s : State) (c : Nat) (f : Core → Core) : KeepsRuns s (s.modCore c f) := ⟨rfl, rfl⟩

theorem keepsRuns_modPort (s : State) (p : Nat) (f : Port → Port) : KeepsRuns s (s.modPort p f) := ⟨rfl, rfl⟩

theorem keepsRuns_modFlashCh (s : State) (ch : Nat) (f : FlashChannel → FlashChannel) : KeepsRuns s (s.modFlashCh ch f) := ⟨rfl, rfl⟩

theorem keepsRuns_modSlot (s : State) (i : Nat) (f : Slot → Slot) : KeepsRuns s (s.modSlot i f) := ⟨rfl, rfl⟩

theorem keepsRuns_setEnc (s : State) (e : Encoders) : KeepsRuns s { s with enc := e } := ⟨rfl, rfl⟩

theorem keepsRuns_logEvent (s : State) (event code unit : Nat) (d : BitVec 128) : KeepsRuns s (s.logEvent event code unit d) := ⟨rfl, rfl⟩

theorem keepsRuns_fenceBits (s : State) (lo n v : Nat) : KeepsRuns s (s.fenceBits lo n v) := ⟨rfl, rfl⟩

theorem keepsRuns_fenceFlash (s : State) (ch code : Nat) : KeepsRuns s (s.fenceFlash ch code) := by
  unfold State.fenceFlash
  dsimp only
  refine KeepsRuns.trans (KeepsRuns.trans ?_ (keepsRuns_logEvent _ _ _ _ _)) (keepsRuns_noteTier _ _)
  refine (keepsRuns_modFlashCh s ch _).trans (.foldl (fun t i => ?_) _ _)
  exact .ite (keepsRuns_modSlot t i _) (.refl t)

theorem keepsRuns_fenceEngine (s : State) (e : Nat) (bist : Bool) : KeepsRuns s (s.fenceEngine e bist) := by
  unfold State.fenceEngine
  dsimp only
  refine KeepsRuns.trans ?_ (keepsRuns_noteTier _ _)
  exact ⟨rfl, rfl⟩

theorem keepsRuns_failCluster (s : State) (k fail : Nat) : KeepsRuns s (s.failCluster k fail) := by
  unfold State.failCluster
  dsimp only
  refine KeepsRuns.trans ?_ (keepsRuns_logEvent _ _ _ _ _)
  split
  · exact ((keepsRuns_modCluster s k _).trans (keepsRuns_fenceBits _ _ _ _)).trans (keepsRuns_fenceBits _ _ _ _)
  · exact (keepsRuns_modCluster s k _).trans (keepsRuns_fenceBits _ _ _ _)

theorem keepsRuns_bistFail (s : State) (u : BistUnit) (fail : Nat) : KeepsRuns s (s.bistFail u fail) := by
  cases u with
  | cluster k => exact keepsRuns_failCluster s k fail
  | stack m => exact (keepsRuns_of_access (onlyAccess_fenceStack s m 3)).trans (keepsRuns_fenceBits _ _ _ _)
  | flash g => exact (KeepsRuns.foldl (fun t i => keepsRuns_fenceFlash t _ _) _ s).trans (keepsRuns_fenceBits _ _ _ _)
  | port p => exact ((keepsRuns_modPort s p _).trans (keepsRuns_fenceBits _ _ _ _)).trans (keepsRuns_logEvent _ _ _ _ _)
  | engine e => exact (keepsRuns_fenceEngine s e true).trans (keepsRuns_fenceBits _ _ _ _)

theorem keepsRuns_bistPass (s : State) (u : BistUnit) : KeepsRuns s (s.bistPass u) := by
  cases u with
  | cluster k => exact ((keepsRuns_modCluster s k _).trans (keepsRuns_fenceBits _ _ _ _)).trans (keepsRuns_fenceBits _ _ _ _)
  | stack m => exact (keepsRuns_of_access (onlyAccess_modStack s m _)).trans (keepsRuns_fenceBits _ _ _ _)
  | flash g => exact (KeepsRuns.foldl (fun t i => keepsRuns_modFlashCh t _ _) _ s).trans (keepsRuns_fenceBits _ _ _ _)
  | port p => exact (keepsRuns_modPort s p _).trans (keepsRuns_fenceBits _ _ _ _)
  | engine e => exact (keepsRuns_setEnc s _).trans (keepsRuns_fenceBits _ _ _ _)

theorem keepsRuns_bistCluster (s : State) (k kind : Nat) : KeepsRuns s (s.bistCluster k kind) := by
  have hzero : KeepsRuns s (s.zeroCluster k) :=
    (keepsRuns_modCluster s k _).trans (KeepsRuns.foldl (fun t c => keepsRuns_modCore t c _) _ _)
  unfold State.bistCluster
  dsimp only
  split
  · exact hzero
  split
  · exact (hzero.trans (keepsRuns_modCluster _ k _)).trans (keepsRuns_modCluster _ k _)
  · exact hzero.trans (keepsRuns_modCluster _ k _)

/-- A pending signal changes neither the runs nor the clusters. -/
theorem signal_keepsRuns (s : State) (v : Nat) : KeepsRuns s (s.signal v) ∧ (s.signal v).clusters = s.clusters := by
  unfold State.signal
  split <;> exact ⟨⟨rfl, rfl⟩, rfl⟩

/-- The end of a command changes neither the runs nor the clusters. -/
theorem endCmd_keepsRuns (s : State) (ticket : Word) (status detail result : Nat) :
    KeepsRuns s (s.endCmd ticket status detail result) ∧ (s.endCmd ticket status detail result).clusters = s.clusters := by
  unfold State.endCmd
  split
  · exact ⟨.refl s, rfl⟩
  dsimp only
  split
  · obtain ⟨⟨hruns, hresults⟩, hclusters⟩ := signal_keepsRuns ((s.withPor fun p => { p with
      cmds := p.cmds.filter fun x => decide (x.ticket ≠ ticket), results := (_ :: p.results).take 16 }).withPor
        fun p => { p with mbResult := true }) _
    exact ⟨⟨hruns, hresults⟩, hclusters⟩
  · split
    · exact ⟨⟨rfl, rfl⟩, rfl⟩
    · exact ⟨⟨rfl, rfl⟩, rfl⟩

/-! ## A cluster's contents and fences at the end of its run (R479, R481) -/

theorem clusters_noteTier (s : State) (before : Nat) : (s.noteTier before).clusters = s.clusters := by
  unfold State.noteTier
  split <;> rfl

theorem cluster_zeroCluster (s : State) (k : Nat) : (s.zeroCluster k).cluster k = { s.cluster k with
    holder := none, zeroing := false, rolling := false, seq := {}, sync := [], roomQ := [], pins := [], samplePend := []
    scache := ((s.cluster k).scache.zero 0 0x80).zero scWork scWorkEnd } := by
  have hcores (t : State) : ((coresOf k).foldl (fun t c => t.modCore c fun x => { predictors := x.predictors, ctr := x.ctr }) t).clusters =
      t.clusters := List.foldlRecOn _ _ (motive := fun u : State => u.clusters = t.clusters) rfl fun u hu c _ => hu
  have hcluster (t : State) {u : State} (h : u.clusters = t.clusters) : u.cluster k = t.cluster k := by
    unfold State.cluster
    rw [h]
  unfold State.zeroCluster
  exact (hcluster _ (hcores _)).trans (cluster_modCluster_self ..)

/-- Beside a cluster's contents, a run's end leaves its fences as they are. -/
theorem cluster_bistCluster (s : State) (k kind : Nat) : ∃ m, (s.bistCluster k kind).cluster k = { s.cluster k with
    holder := none, zeroing := false, rolling := false, seq := {}, sync := [], roomQ := [], pins := [], samplePend := [], scache := m } := by
  unfold State.bistCluster
  split
  · exact ⟨_, cluster_zeroCluster s k⟩
  dsimp only
  split
  · rw [cluster_modCluster_self, cluster_modCluster_self, cluster_zeroCluster]
    exact ⟨_, rfl⟩
  · rw [cluster_modCluster_self, cluster_zeroCluster]
    exact ⟨_, rfl⟩

theorem cluster_logEvent (s : State) (event code unit : Nat) (d : BitVec 128) (k : Nat) : (s.logEvent event code unit d).cluster k = s.cluster k := rfl

theorem cluster_withPor (s : State) (f : Porter → Porter) (k : Nat) : (s.withPor f).cluster k = s.cluster k := rfl

theorem cluster_fenceBits (s : State) (lo n v k : Nat) : (s.fenceBits lo n v).cluster k = s.cluster k := rfl

theorem cluster_failCluster (s : State) (k fail : Nat) : (s.failCluster k fail).cluster k = { s.cluster k with
    coreFence := (s.cluster k).coreFence ||| BitVec.ofNat 16 (bits fail 15 0)
    bistCores := (s.cluster k).bistCores ||| BitVec.ofNat 16 (bits fail 15 0)
    fencedBist := (s.cluster k).fencedBist || decide (bits fail 18 16 ≠ 0) } := by
  unfold State.failCluster
  dsimp only
  rw [cluster_logEvent]
  split
  · rw [cluster_fenceBits, cluster_fenceBits, cluster_modCluster_self]
  · rw [cluster_fenceBits, cluster_modCluster_self]

theorem cluster_bistPass (s : State) (k : Nat) : (s.bistPass (.cluster k)).cluster k = { s.cluster k with
    coreFence := (s.cluster k).coreFence &&& ~~~ (s.cluster k).bistCores, bistCores := 0
    fencedCmd := (s.cluster k).fencedCmd || (s.cluster k).fencedBist, fencedBist := false } := by
  unfold State.bistPass
  dsimp only
  rw [cluster_fenceBits, cluster_fenceBits, cluster_modCluster_self]

/-! ## BIST_RUN_END -/

/-- What a run's end leaves of its unit: a cluster's contents, then the fences that its verdict adds or takes. -/
def State.bistUnitEnd (s : State) (r : BistRun) (u : BistUnit) (verdict bad : Nat) : State :=
  let s := match u with
    | .cluster k => s.bistCluster k r.kind
    | _ => s
  if verdict = 2 then s.bistFail u bad else if verdict = 1 ∧ r.kind = 0 then s.bistPass u else s

theorem keepsRuns_bistUnitEnd (s : State) (r : BistRun) (u : BistUnit) (verdict bad : Nat) : KeepsRuns s (s.bistUnitEnd r u verdict bad) := by
  have hcontents : KeepsRuns s (match u with
      | .cluster k => s.bistCluster k r.kind
      | _ => s) := by
    cases u with
    | cluster k => exact keepsRuns_bistCluster s k r.kind
    | _ => exact .refl s
  unfold State.bistUnitEnd
  exact .ite (hcontents.trans (keepsRuns_bistFail _ _ _)) (.ite (hcontents.trans (keepsRuns_bistPass _ _)) hcontents)

/-- The number that a result's word is (Table 21-3). -/
def resultWord (seen expected fail seq verdict mode kind : Nat) : Nat :=
  seen * 2 ^ 192 + expected * 2 ^ 128 + fail * 2 ^ 64 + seq * 2 ^ 32 + verdict * 2 ^ 24 + mode * 2 ^ 16 + kind * 2 ^ 8

theorem resultWord_fields {seen expected fail seq verdict mode kind : Nat} (hf : fail < 2 ^ 64) (hq : seq < 2 ^ 32) (hv : verdict < 256)
    (hm : mode < 256) (hk : kind < 256) : resultWord seen expected fail seq verdict mode kind / 2 ^ 24 % 2 ^ 8 = verdict ∧
      resultWord seen expected fail seq verdict mode kind / 2 ^ 64 % 2 ^ 64 = fail := by
  unfold resultWord
  constructor <;> omega

theorem resultWord_lt {seen expected fail seq verdict mode kind : Nat} (hs : seen < 2 ^ 64) (he : expected < 2 ^ 64) (hf : fail < 2 ^ 64)
    (hq : seq < 2 ^ 32) (hv : verdict < 256) (hm : mode < 256) (hk : kind < 256) :
    resultWord seen expected fail seq verdict mode kind < 2 ^ 256 := by
  unfold resultWord
  omega

/-- The verdict and the failing sub-units of a result's word. -/
theorem resultWord_extract {seen expected fail : Quad} {seq : Word} {verdict mode kind : Nat} (hv : verdict < 256) (hm : mode < 256)
    (hk : kind < 256) {w : BitVec 256}
    (hw : w = BitVec.ofNat 256 (resultWord seen.toNat expected.toNat fail.toNat seq.toNat verdict mode kind)) :
    w.extractLsb' 24 8 = BitVec.ofNat 8 verdict ∧ w.extractLsb' 64 64 = fail := by
  have hlt := resultWord_lt seen.isLt expected.isLt fail.isLt seq.isLt hv hm hk
  obtain ⟨hverdict, hfail⟩ := resultWord_fields (seen := seen.toNat) (expected := expected.toNat) fail.isLt seq.isLt hv hm hk
  have hnat : w.toNat = resultWord seen.toNat expected.toNat fail.toNat seq.toNat verdict mode kind := by
    rw [hw, BitVec.toNat_ofNat, Nat.mod_eq_of_lt hlt]
  constructor
  · apply BitVec.eq_of_toNat_eq
    rw [BitVec.extractLsb'_toNat, hnat, Nat.shiftRight_eq_div_pow, hverdict, BitVec.toNat_ofNat, Nat.mod_eq_of_lt hv]
  · apply BitVec.eq_of_toNat_eq
    rw [BitVec.extractLsb'_toNat, hnat, Nat.shiftRight_eq_div_pow, hfail]

/-- The result of a run that ends is written, and the run is none any more. -/
theorem bistResult_spec (s : State) (r : BistRun) {verdict : Nat} (fail seen expected : Quad) (hv : verdict < 256) (hm : r.mode < 256)
    (hk : r.kind < 256) :
    let t := s.bistResult r verdict fail seen expected
    (∀ x ∈ t.por.bist, x.target ≠ r.target) ∧ (mget 0 t.por.bistResults r.target).extractLsb' 24 8 = BitVec.ofNat 8 verdict ∧
      (mget 0 t.por.bistResults r.target).extractLsb' 64 64 = fail ∧ t.clusters = s.clusters := by
  unfold State.bistResult
  dsimp only
  generalize hlogged : (if verdict = 2 then s.logEvent 7 0 r.target (BitVec.ofNat 128 fail.toNat)
    else s.logNote 0 r.target (BitVec.ofNat 128 fail.toNat)) = u
  have hclusters : u.clusters = s.clusters := by
    rw [← hlogged]
    split <;> rfl
  obtain ⟨hverdict, hfail⟩ := resultWord_extract hv hm hk (w := mget 0 (mset u.por.bistResults r.target _) r.target) (mget_mset_self ..)
  exact ⟨fun x hx => of_decide_eq_true (List.mem_filter.mp hx).2, hverdict, hfail, hclusters⟩

/-- The end of a run whose expected signatures the factory ledger holds: its result, then what its unit keeps; what follows changes neither
the runs nor the clusters. -/
theorem bistEnd_known {s : State} {target : Nat} {misrs : List (Nat × Quad)} {r : BistRun} {u : BistUnit}
    (hrun : s.por.bist.find? (fun r => r.target == target) = some r) (hunit : bistUnit target = some u) (hknown : s.factoryImage.isSome = true)
    {bad : Nat} (hbad : u.fail (s.bistFailing r u misrs) = bad) {verdict : Nat} (hverdict : (if bad = 0 then 1 else 2) = verdict) :
    ∃ seen expected, KeepsRuns ((s.bistResult r verdict (BitVec.ofNat 64 bad) seen expected).bistUnitEnd r u verdict bad) (s.bistEnd target misrs) ∧
      (s.bistEnd target misrs).clusters = ((s.bistResult r verdict (BitVec.ofNat 64 bad) seen expected).bistUnitEnd r u verdict bad).clusters := by
  have hend (t : State) : KeepsRuns t (if r.kind = 1 then t.withPor (fun p => { p with rollingNext := (target + 1) % 12 })
      else t.endCmd r.ticket dsOk 0 bad) ∧ (if r.kind = 1 then t.withPor (fun p => { p with rollingNext := (target + 1) % 12 })
      else t.endCmd r.ticket dsOk 0 bad).clusters = t.clusters := by
    split
    · exact ⟨⟨rfl, rfl⟩, rfl⟩
    · exact endCmd_keepsRuns t _ _ _ _
  generalize hdiffer : s.bistFailing r u misrs = differ at hbad
  refine ⟨(differ.head?.map Prod.snd).getD 0, (differ.head?.map fun p => s.misrExpected (u.kind p.1) r.mode).getD 0, ?_⟩
  unfold State.bistEnd
  simp only [hrun, hunit, hknown, hdiffer, Bool.not_true, Bool.false_eq_true, if_false, if_true, hbad, hverdict]
  obtain ⟨hruns, hclusters⟩ := hend ((s.bistResult r verdict (BitVec.ofNat 64 bad) ((differ.head?.map Prod.snd).getD 0)
    ((differ.head?.map fun p => s.misrExpected (u.kind p.1) r.mode).getD 0)).bistUnitEnd r u verdict bad)
  split
  · exact ⟨hruns, hclusters⟩
  · exact ⟨hruns.trans (keepsRuns_noteTier _ _), (clusters_noteTier _ _).trans hclusters⟩

theorem bistUnitEnd_passed (s : State) (r : BistRun) (k bad : Nat) :
    let t := s.bistUnitEnd r (.cluster k) 1 bad
    (t.cluster k).rolling = false ∧ (r.kind = 0 → (t.cluster k).coreFence = (s.cluster k).coreFence &&& ~~~ (s.cluster k).bistCores ∧
      (t.cluster k).fencedBist = false ∧ (t.cluster k).fencedCmd = ((s.cluster k).fencedCmd || (s.cluster k).fencedBist)) := by
  obtain ⟨m, hcontents⟩ := cluster_bistCluster s k r.kind
  unfold State.bistUnitEnd
  dsimp only
  rw [if_neg (by decide)]
  by_cases hkind : r.kind = 0
  · rw [if_pos ⟨rfl, hkind⟩, cluster_bistPass, hcontents]
    exact ⟨rfl, fun _ => ⟨rfl, rfl, rfl⟩⟩
  · rw [if_neg fun h => hkind h.2, hcontents]
    exact ⟨rfl, fun h => absurd h hkind⟩

theorem bistUnitEnd_failed (s : State) (r : BistRun) (k bad : Nat) : ((s.bistUnitEnd r (.cluster k) 2 bad).cluster k).coreFence =
    (s.cluster k).coreFence ||| BitVec.ofNat 16 (bits bad 15 0) := by
  obtain ⟨m, hcontents⟩ := cluster_bistCluster s k r.kind
  unfold State.bistUnitEnd
  rw [if_pos rfl]
  exact (congrArg Cluster.coreFence (cluster_failCluster _ k bad)).trans (by rw [hcontents])

/-- The end of a run: its verdict and failing sub-units are in its result, and its unit is as the verdict leaves it. -/
theorem bistEnd_ends {s : State} {target : Nat} {misrs : List (Nat × Quad)} {r : BistRun} {u : BistUnit}
    (hrun : s.por.bist.find? (fun r => r.target == target) = some r) (hunit : bistUnit target = some u) (hknown : s.factoryImage.isSome = true)
    (hm : r.mode < 256) (hk : r.kind < 256) {bad : Nat} (hbad : u.fail (s.bistFailing r u misrs) = bad) {verdict : Nat}
    (hverdict : (if bad = 0 then 1 else 2) = verdict) :
    let t := s.bistEnd target misrs
    ((∀ x ∈ t.por.bist, x.target ≠ target) ∧ (mget 0 t.por.bistResults target).extractLsb' 24 8 = BitVec.ofNat 8 verdict ∧
      (mget 0 t.por.bistResults target).extractLsb' 64 64 = BitVec.ofNat 64 bad) ∧
      ∃ v : State, v.clusters = s.clusters ∧ t.clusters = (v.bistUnitEnd r u verdict bad).clusters := by
  have htarget : r.target = target := beq_iff_eq.mp (List.find?_some (p := fun r : BistRun => r.target == target) hrun)
  have hsmall : verdict < 256 := by
    rw [← hverdict]
    split <;> decide
  obtain ⟨seen, expected, ⟨hruns, hresults⟩, hclusters⟩ := bistEnd_known hrun hunit hknown hbad hverdict
  obtain ⟨hgone, hv, hf, hkept⟩ := bistResult_spec s r (BitVec.ofNat 64 bad) seen expected hsmall hm hk
  obtain ⟨hruns', hresults'⟩ := keepsRuns_bistUnitEnd (s.bistResult r verdict (BitVec.ofNat 64 bad) seen expected) r u verdict bad
  rw [htarget] at hgone hv hf
  dsimp only
  rw [hruns.trans hruns', hresults.trans hresults']
  exact ⟨⟨hgone, hv, hf⟩, _, hkept, hclusters⟩

/-! ## BIST_RUN, rolling BIST and ALERT_ACK -/

theorem writes_bistRun {bs : List Byte} {s : State} (h : s.writes 0x1800 1 bs) :
    (∀ u, bistUnit (par bs 0 1) = some u → 1 ≤ par bs 1 1 → par bs 1 1 ≤ 3 → s.bistRefused u = none → (∀ r ∈ s.por.bist, r.target ≠ par bs 0 1) →
      s.por.cmds.length < 16 → AnsweredWith dsAccepted s s.bistRun ∧ s.bistRun.por.bist = s.por.bist ++
        [{ target := par bs 0 1, mode := par bs 1 1, kind := 0, ticket := s.por.nextTicket }] ∧ s.bistRun.clusters = s.clusters) ∧
    (∀ k, bistUnit (par bs 0 1) = some (.cluster k) → 1 ≤ par bs 1 1 → par bs 1 1 ≤ 3 → (s.cluster k).fenced = false →
      AnsweredWith dsClusterBusy s s.bistRun ∧ s.bistRun.por.bist = s.por.bist ∧ s.bistRun.clusters = s.clusters) := by
  obtain ⟨f, r, l, -, -, hserved⟩ := served_of_writes h
  have hmode (h1 : 1 ≤ par bs 1 1) (h3 : par bs 1 1 ≤ 3) : ¬ (par bs 1 1 = 0 ∨ 3 < par bs 1 1) := by omega
  constructor
  · intro u hunit h1 h3 hfree hnone hroom
    have hany : (s.withSessions l).por.bist.any (fun x => x.target == par bs 0 1) = false :=
      List.any_eq_false.mpr fun x hx => by simp [hnone x hx]
    have hrefused : (s.withSessions l).bistRefused u = none := hfree
    obtain ⟨hans, hrest⟩ := hserved s.bistRun rfl rfl (a := ⟨((s.withSessions l).started f r bs).withPor fun p => { p with
        bist := p.bist ++ [{ target := par bs 0 1, mode := par bs 1 1, kind := 0, ticket := (s.withSessions l).por.nextTicket }] },
        dsAccepted, 0, some (s.withSessions l).por.nextTicket⟩)
      (by simp only [hunit, if_neg (hmode h1 h3), hrefused, hany]; exact (if_neg Bool.false_ne_true).trans (accept_of_room hroom)) rfl rfl
    exact ⟨hans, (congrArg (fun t : State => t.por.bist) hrest :), (congrArg State.clusters hrest :)⟩
  · intro k hunit h1 h3 hserves
    have hrefused : (s.withSessions l).bistRefused (.cluster k) = some dsClusterBusy := if_neg (by rw [← Bool.not_eq_true] at hserves; exact hserves)
    obtain ⟨hans, hrest⟩ := hserved s.bistRun rfl rfl (a := ⟨s.withSessions l, dsClusterBusy, 0, none⟩)
      (by simp only [hunit, if_neg (hmode h1 h3), hrefused]) rfl rfl
    exact ⟨hans, (congrArg (fun t : State => t.por.bist) hrest :), (congrArg State.clusters hrest :)⟩

theorem writes_alertAck {bs : List Byte} {s : State} (h : s.writes 0x1808 4 bs) : AnsweredWith dsOk s s.alertAck ∧
    s.alertAck.por.alertSeq = s.por.alertSeq ∧
    s.alertAck.por.alertPin = (s.por.alertPin && decide (leNat bs < s.por.alertSeq.toNat)) := by
  obtain ⟨f, r, l, -, -, hserved⟩ := served_of_writes h
  obtain ⟨hans, hrest⟩ := hserved s.alertAck rfl rfl (a := ⟨(s.withSessions l).withPor fun p => { p with
    alertPin := p.alertPin && decide (leNat bs < p.alertSeq.toNat) }, dsOk, 0, none⟩) rfl rfl rfl
  exact ⟨hans, (congrArg (fun t : State => t.por.alertSeq) hrest :), (congrArg (fun t : State => t.por.alertPin) hrest :)⟩

/-- The first cluster from ROLLING_NEXT on that may be taken is the one the turn takes. -/
theorem rollingTurn_takes {s : State} {k : Nat} (hready : s.boot.ready = true) (hsweep : s.hub.sweeping = false)
    (hknown : s.factoryImage.isSome = true) (hon : s.dv 0x1800 2 = 1) (hnone : ∀ r ∈ s.por.bist, r.kind ≠ 1) (hk : k < 12)
    (hnext : s.por.rollingNext ≤ k) (hroll : s.rollable k = true) (hfirst : ∀ i, s.por.rollingNext ≤ i → i < k → s.rollable i = false) :
    s.rollingTurn = (s.modCluster k (fun c => { c with rolling := true })).withPor (fun p => { p with
      bist := p.bist ++ [{ target := k, mode := 3, kind := 1, ticket := 0 }] }) := by
  have hany : s.por.bist.any (fun r => r.kind == 1) = false := List.any_eq_false.mpr fun r hr => by simp [hnone r hr]
  have hfind : ((List.range 12).filter (fun i => decide (s.por.rollingNext ≤ i))).find? s.rollable = some k := by
    have hsplit : List.range 12 = List.range k ++ k :: (List.range (11 - k)).map (fun i => k + 1 + i) := by
      interval_cases k <;> rfl
    rw [hsplit, List.filter_append, List.find?_append, List.filter_cons_of_pos (by exact decide_eq_true hnext), List.find?_cons_of_pos hroll,
      List.find?_eq_none.mpr, Option.none_or]
    intro i hi
    obtain ⟨hik, hle⟩ := List.mem_filter.mp hi
    simp [hfirst i (of_decide_eq_true hle) (List.mem_range.mp hik)]
  have hknown' : s.factoryImage.isNone = false := by
    rw [← Option.not_isSome, hknown]
    rfl
  unfold State.rollingTurn
  simp [hready, hsweep, hknown', hon, hany, hfind]

/-! ## The obligation -/

/-- Settles O56: the end of a run by what it leaves of the runs and the clusters, the commands by what serving a write leaves. -/
theorem selfTestAlertsAndWindows : Obligations.SelfTestAlertsAndWindows := by
  unfold Obligations.SelfTestAlertsAndWindows
  refine ⟨?run, ?ends, ?rolling, ?ack, ?window, ?lights⟩
  case run =>
    intro bs s hw target mode
    obtain ⟨haccepted, hbusy⟩ := writes_bistRun hw
    exact ⟨fun u hunit h1 h3 hfree hnone hroom => ⟨_, rfl, haccepted u hunit h1 h3 hfree hnone hroom⟩,
      fun k hunit h1 h3 hserves => ⟨_, rfl, hbusy k hunit h1 h3 hserves⟩⟩
  case ends =>
    intro target subs misrs s r u hrun hunit hknown hm hk bad ended
    constructor
    · intro hpass
      obtain ⟨hended, v, hv, hclusters⟩ := bistEnd_ends hrun hunit hknown hm hk rfl (if_pos hpass)
      refine ⟨_, rfl, hended, fun k hu => ?_⟩
      subst hu
      have hpassed := bistUnitEnd_passed v r k bad
      dsimp only at hpassed
      rw [← cluster_of_clusters hclusters k, cluster_of_clusters hv k] at hpassed
      exact hpassed
    · intro hfail
      obtain ⟨hended, v, hv, hclusters⟩ := bistEnd_ends hrun hunit hknown hm hk rfl (if_neg hfail)
      refine ⟨_, rfl, hended, fun k hu => ?_⟩
      subst hu
      have hfailed := bistUnitEnd_failed v r k bad
      rw [← cluster_of_clusters hclusters k, cluster_of_clusters hv k] at hfailed
      exact hfailed
  case rolling =>
    intro s k hready hsweep hknown hon hnone hk hnext hroll hfirst
    refine ⟨_, congrArg Host.Outcome.next (rollingTurn_takes hready hsweep hknown hon hnone hk hnext hroll hfirst), ?_, fun i hi => ?_,
      rfl, rfl, rfl⟩
    · exact (cluster_withPor _ _ k).trans (cluster_modCluster_self ..)
    · exact (cluster_withPor _ _ i).trans (cluster_modCluster_ne _ _ hi)
  case ack =>
    intro bs s hw
    obtain ⟨hans, hseq, hpin⟩ := writes_alertAck hw
    refine ⟨_, rfl, hans, hseq, fun hle => ?_, fun hlt => ?_⟩
    · rw [hpin, decide_eq_false (Nat.not_lt.mpr hle), Bool.and_false]
    · rw [hpin, decide_eq_true hlt, Bool.and_true]
  case window =>
    intro s
    have hrun : (s.boot.inReset && !(s.boot.vin && s.pwr.rootLocked)) = (s.boot.inReset && !s.starting) := by
      unfold State.starting
      cases s.boot.inReset <;> simp
    constructor
    · intro hon
      have hgo : (s.boot.inReset && !(s.boot.vin && s.pwr.rootLocked)) = false := by
        rw [hrun]
        obtain h | h := hon <;> simp [h]
      refine ⟨_, congrArg Host.Outcome.next ((if_neg (by rw [hgo]; exact Bool.false_ne_true)) : s.bwWindow = _), rfl, rfl, rfl, fun _ => rfl, rfl, rfl⟩
    · intro hreset hoff
      have hstop : (s.boot.inReset && !(s.boot.vin && s.pwr.rootLocked)) = true := by
        rw [hrun, hreset, hoff]
        rfl
      exact congrArg Host.Outcome.next (if_pos hstop : s.bwWindow = s)
  case lights =>
    intro s
    have htier : s.tier ≤ 3 := by
      unfold State.tier
      split
      · decide
      split
      · decide
      split <;> decide
    refine ⟨htier, fun h => if_pos h, fun h => ?_, fun h => ?_, Iff.rfl⟩
    · exact (if_neg (by omega)).trans (if_neg (by omega))
    · exact (if_neg (by omega)).trans (if_pos h)

end Sys2Proof.Machine

/-! PROOFS. REDUCE_SEGMENT (R344): the tree of R51 over a segment's parts, and the segment's way to the next stage. -/

namespace Sys2Proof.Machine

/-! ## Operations -/

/-- An operation that takes another's place as the same instruction's is then that instruction's. -/
theorem opOf_setOp {s : State} {o o' : ExOp} {job : JobId} {c : Nat} {ord : Word} (ho : s.opOf job c ord = some o)
    (hsame : o'.isOf job c ord = true) (hid : o'.job = job ∧ o'.core.val = c ∧ o'.ord = ord) : (s.setOp o').opOf job c ord = some o' := by
  obtain ⟨rfl, rfl, rfl⟩ := hid
  have hfirst : ∀ x : ExOp, (if x.same o' then o' else x).isOf o'.job o'.core.val o'.ord = x.isOf o'.job o'.core.val o'.ord := by
    intro x
    split
    · next h => exact hsame.trans h.symm
    · rfl
  have hfind : (s.net.ops.map fun x => if x.same o' then o' else x).find? (fun x => x.isOf o'.job o'.core.val o'.ord) =
      (s.net.ops.find? fun x => x.isOf o'.job o'.core.val o'.ord).map fun x => if x.same o' then o' else x := by
    rw [List.find?_map]
    congr 2
    funext x
    exact hfirst x
  unfold State.opOf at ho ⊢
  refine hfind.trans ?_
  rw [ho]
  exact congrArg some (if_pos (List.find?_some (p := fun x : ExOp => x.isOf o'.job o'.core.val o'.ord) ho))

theorem isOf_self (o : ExOp) : o.isOf o.job o.core.val o.ord = true := by simp [ExOp.isOf]

/-- The operation that is found, where every one of its instruction is that one. -/
theorem opOf_of_find {s : State} {q : ExOp → Bool} {o : ExOp} (hfind : s.net.ops.find? q = some o)
    (hone : ∀ o' ∈ s.net.ops, o'.isOf o.job o.core.val o.ord = true → o' = o) : s.opOf o.job o.core.val o.ord = some o := by
  cases hop : s.opOf o.job o.core.val o.ord with
  | none => exact absurd (isOf_self o) (List.find?_eq_none.mp hop o (List.mem_of_find?_eq_some hfind))
  | some o' =>
    exact congrArg some (hone o' (List.mem_of_find?_eq_some hop) (List.find?_some (p := fun x : ExOp => x.isOf o.job o.core.val o.ord) hop))

theorem opOf_of_ops {s t : State} (h : t.net.ops = s.net.ops) (job : JobId) (c : Nat) (ord : Word) : t.opOf job c ord = s.opOf job c ord := by
  unfold State.opOf
  rw [h]

/-! ## A segment's sum and its way on -/

/-- With canonical order the sum of FP32 words is the tree in rank order (R51). -/
theorem reduceBytes_canon (ps order : List (List Byte)) (n : Nat) : reduceBytes false true ps order n =
    (List.range (n / 4)).flatMap (fun i => leBytes 4 (toF32 (treeSum (ps.map (fun bs => ofF32 (((wordsOf bs)[i]?).getD 0)))))) := by
  unfold reduceBytes reduceElem
  simp only [Bool.false_eq_true, if_false, if_true, List.map_map, Function.comp_def]

theorem onlyTraffic_exSend (s : State) (o : ExOp) (e k l base : Nat) (bs : List Byte) (a n : Nat) : OnlyTraffic s (s.exSend o e k l base bs a n) :=
  .foldl (fun _ _ => .foldl (fun _ _ => onlyTraffic_exPost _ _ _ _ _ _ _) _ _) _ s

section
variable {s : State} {o : ExOp} {e i : Nat} {p : Nat × Nat} {out : List Byte}

/-- Without a further stage an operation whose segments remain is set. -/
theorem segForward_last (hnext : (opStages o e)[i + 1]? = none) (hred : o.reduced e = false) : s.segForward o e i p out = s.setOp o := by
  unfold State.segForward
  simp only [hnext, hred, Bool.false_eq_true, if_false]

/-- Before a further stage that it may enter, a segment leaves for the stage's members. -/
theorem segForward_sends {k l : Nat} (hnext : (opStages o e)[i + 1]? = some (k, l)) (hred : o.reduced e = false)
    (hcheck : ((o.accs[i]?).getD []).length = out.length → s.exCheck o e l = none) :
    s.segForward o e i p out = (s.exSend o e k l p.1 out p.1 p.2).setOp (o.hasSent e l) := by
  have hmay : (if ((o.accs[i]?).getD []).length = out.length then s.exCheck o e l else none) = none := by
    split
    · next h => exact hcheck h
    · rfl
  have hred' : (o.hasSent e l).reduced e = false := hred
  unfold State.segForward
  simp only [hnext, hmay, hred', Bool.false_eq_true, if_false]

/-- After the last segment of an operation without a further stage its result is complete. -/
theorem segForward_finishes (hnext : (opStages o e)[i + 1]? = none) (hred : o.reduced e = true) (hn : (o.reds e).length = i + 1)
    (he : s.routeEntry o.group = e) : s.segForward o e i p out =
      (s.setOp { o with vec := (o.accs[i]?).getD [], accs := [], stage := i + 1, segOpen := false }).exFinish
        { o with vec := (o.accs[i]?).getD [], accs := [], stage := i + 1, segOpen := false } e := by
  have hgo (t : State) (o' : ExOp) (ht : t.routeEntry o'.group = e) (hstage : (opStages o' e)[o'.stage]? = none) :
      State.exGo 16 false t o' = t.exFinish o' e := by
    unfold State.exGo
    simp only [ht, hstage]
  unfold State.segForward
  simp only [hnext, hred, if_true, hn, Nat.add_sub_cancel]
  exact hgo _ _ he hnext

end

/-- A segment whose parts are staged is summed over them in rank order and passed on. -/
theorem reduceSegment_forwards {d : Fin 2} {tag : Word} {xseq : Half} {s : State} {o : ExOp} {l0 i l e : Nat} {p : Nat × Nat}
    {ps : List (List Byte)} {j : Job}
    (hfind : s.net.ops.find? (fun o => decide (o.die = d.val ∧ o.tag = tag ∧ o.xseq = xseq) && o.begun && !o.finished) = some o)
    (hint : o.int32 = false) (hjob : s.job? o.job = some j) (hcanon : j.canon = true) (he : s.routeEntry o.group = e)
    (hstage : (opStages o e)[o.stage]? = some (1, l0)) (hfront : o.front e = some (i, p)) (hl : ((o.reds e)[i]?).map Prod.fst = some l)
    (hparts : allSome ((List.range (rtSize e l)).map (fun j => if j = rtRank e l o.die then
      some (((o.redInput e i).2.drop (p.1 - (o.redInput e i).1)).take p.2) else s.stagedPart o l j p)) = some ps)
    {out : List Byte} (hout : out = (List.range (p.2 / 4)).flatMap
      (fun i => leBytes 4 (toF32 (treeSum (ps.map (fun bs => ofF32 (((wordsOf bs)[i]?).getD 0))))))) :
    s.reduceSegment d tag xseq = s.segForward { o with accs := o.accs.zipIdx.map (fun (a, k) => if k = i then a ++ out else a) } e i p out := by
  have hsum (order : List (List Byte)) : reduceBytes false true ps order p.2 = out := (reduceBytes_canon ps order p.2).trans hout.symm
  unfold State.reduceSegment
  simp only [hfind, he, hstage, hfront, hl, Option.getD_some, State.segParts, hparts, Option.map_some, hjob, hcanon, hint, hsum]

/-- Settles O29: a segment's parts give the tree of R51, and what follows is the segment's way to the next stage. -/
theorem reduceSegments : Obligations.ReduceSegments := by
  unfold Obligations.ReduceSegments
  intro d tag xseq s o l0 i l p ps j hfind hone hint hjob hcanon e hstage hfront hl m me own hparts out o1
  have hreduce : s.reduceSegment d tag xseq = s.segForward o1 e i p out :=
    reduceSegment_forwards hfind hint hjob hcanon rfl hstage hfront hl hparts rfl
  have hop := opOf_of_find hfind hone
  refine ⟨fun hred hcheck => ?_, fun hred hnext hn => ?_⟩
  · cases hnext : (opStages o e)[i + 1]? with
    | none =>
      refine ⟨_, congrArg Host.Outcome.next (hreduce.trans (segForward_last hnext hred)), rfl, rfl, rfl,
        fun _ => opOf_setOp hop (isOf_self o1) ⟨rfl, rfl, rfl⟩, fun _ _ h => absurd h.symm (Option.some_ne_none _),
        fun _ _ h => absurd h.symm (Option.some_ne_none _)⟩
    | some x =>
      obtain ⟨k, l'⟩ := x
      have hsend := onlyTraffic_exSend s o1 e k l' p.1 out p.1 p.2
      have hops : (s.exSend o1 e k l' p.1 out p.1 p.2).net.ops = s.net.ops := by rw [hsend]
      refine ⟨_, congrArg Host.Outcome.next (hreduce.trans (segForward_sends hnext hred (hcheck k l' hnext))), ?_, ?_, ?_,
        fun h => absurd h (Option.some_ne_none _), fun k' l'' h => ?_, fun k' l'' h => ?_⟩
      · exact (congrArg State.ms hsend :)
      · exact (congrArg State.cores hsend :)
      · exact (congrArg (fun t : State => t.net.early) hsend :)
      · cases h
        exact opOf_setOp ((opOf_of_ops hops _ _ _).trans hop) (isOf_self o1) ⟨rfl, rfl, rfl⟩
      · cases h
        exact ⟨rfl, fun _ => rfl⟩
  · exact congrArg Host.Outcome.next (hreduce.trans (segForward_finishes hnext hred hn rfl))

end Sys2Proof.Machine

/-! PROOFS. The queue pairs (R358 to R362): what a write of a completion entry leaves, and whose turn it is. -/

namespace Sys2Proof.Machine

/-- A signal leaves the pairs, the jobs, the turn and the completion count, and shows in the messages or in the pending bits. -/
theorem signal_spec (s : State) (v : Nat) (hv : v < 64) : (s.signal v).hub.pairs = s.hub.pairs ∧ (s.signal v).hub.jobs = s.hub.jobs ∧
    (s.signal v).hub.turn = s.hub.turn ∧ (s.signal v).hub.completionSeq = s.hub.completionSeq ∧
    (∃ new, (s.signal v).out = new ++ s.out) ∧ Signals v s (s.signal v) := by
  unfold State.signal
  split
  · refine ⟨rfl, rfl, rfl, rfl, ⟨[], rfl⟩, .inr ?_⟩
    show (s.hub.msixPending ||| (1#64 <<< v)).getLsbD v = true
    simp [hv]
  · exact ⟨rfl, rfl, rfl, rfl, ⟨[.msix v], rfl⟩, .inl ⟨[.msix v], rfl, List.mem_singleton.2 rfl⟩⟩

theorem pair_signal (s : State) (v : BitVec 6) (m : Nat) : (s.signal v.toNat).pair m = s.pair m :=
  congrArg (fun ps : AMap Pair => mget ({} : Pair) ps m) (signal_spec s v.toNat v.isLt).1

/-- A write of a completion entry says its tag and status at the tail of the queue and takes a slot; the pair's fetched entry and the
other pairs stay. -/
theorem writeCompletion_spec (s : State) (n : Nat) (c : Completion) : Completes n c.tag c.status s (s.writeCompletion n c) ∧
    (∃ tail phase un, (s.writeCompletion n c).pair n = { s.pair n with
      cqTail := tail, phase := phase, cqUsed := (s.pair n).cqUsed + 1, unsignalled := un }) ∧
    (∀ m, m ≠ n → (s.writeCompletion n c).pair m = s.pair m) ∧ (s.writeCompletion n c).hub.jobs = s.hub.jobs ∧
    (s.writeCompletion n c).hub.turn = s.hub.turn ∧ (s.writeCompletion n c).hub.completionSeq = s.hub.completionSeq + 1 := by
  unfold State.writeCompletion
  dsimp only
  generalize hu : State.modPair _ n _ = u
  have hself : ∃ tail phase un, u.pair n = { s.pair n with
      cqTail := tail, phase := phase, cqUsed := (s.pair n).cqUsed + 1, unsignalled := un } :=
    hu ▸ ⟨_, _, _, (pair_modPair ..).trans (if_pos rfl)⟩
  have hother : ∀ m, m ≠ n → u.pair m = s.pair m := fun m hm => hu ▸ (pair_modPair ..).trans (if_neg hm)
  have hout : u.out = .completion n (s.pair n).cqTail.toNat
      (entryOf c (s.pair n).sqHead (s.hub.completionSeq + 1) (s.pair n).phase) :: s.out := hu ▸ rfl
  have hjobs : u.hub.jobs = s.hub.jobs := hu ▸ rfl
  have hturn : u.hub.turn = s.hub.turn := hu ▸ rfl
  have hseq : u.hub.completionSeq = s.hub.completionSeq + 1 := hu ▸ rfl
  split
  · obtain ⟨_, hj, ht, hq, ⟨new, hn⟩, _⟩ := signal_spec u (s.pair n).vector.toNat (s.pair n).vector.isLt
    refine ⟨⟨c, (s.pair n).sqHead, rfl, rfl, new ++ [_], by rw [hn, hout, List.append_assoc, List.singleton_append], by simp⟩, ?_,
      fun m hm => (pair_signal ..).trans (hother m hm), hj.trans hjobs, ht.trans hturn, hq.trans hseq⟩
    rw [pair_signal]
    exact hself
  · exact ⟨⟨c, (s.pair n).sqHead, rfl, rfl, [_], hout, List.mem_singleton.2 rfl⟩, hself, hother, hjobs, hturn, hseq⟩

/-- A drain of a pair can change its state alone. -/
theorem pairDrain_spec (s : State) (n : Nat) : (∃ q, (s.pairDrain n).pair n = { s.pair n with qstate := q }) ∧
    (∀ m, m ≠ n → (s.pairDrain n).pair m = s.pair m) ∧ (s.pairDrain n).out = s.out ∧ (s.pairDrain n).hub.jobs = s.hub.jobs ∧
    (s.pairDrain n).hub.turn = s.hub.turn ∧ (s.pairDrain n).hub.completionSeq = s.hub.completionSeq := by
  unfold State.pairDrain
  split
  · exact ⟨⟨.off, (pair_modPair ..).trans (if_pos rfl)⟩, fun m hm => (pair_modPair ..).trans (if_neg hm), rfl, rfl, rfl, rfl⟩
  · exact ⟨⟨_, rfl⟩, fun _ _ => rfl, rfl, rfl, rfl, rfl⟩

/-- Completing the fetched entry of a pair writes its completion entry (R360, R375). -/
theorem completeFetched_spec (s : State) (n : Nat) (tag : JobId) (status : Byte) :
    EntryDone n tag status s (s.completeFetched n tag status) ∧ (s.completeFetched n tag status).hub.jobs = s.hub.jobs ∧
    (s.completeFetched n tag status).hub.turn = s.hub.turn ∧
    ∃ tail phase un q, (s.completeFetched n tag status).pair n = { s.pair n with
      fetched := none, fetchedLive := false, waits := false
      cqTail := tail, phase := phase, cqUsed := (s.pair n).cqUsed + 1, unsignalled := un, qstate := q } := by
  unfold State.completeFetched
  dsimp only
  generalize hu : State.modPair s n _ = u
  have hself : u.pair n = { s.pair n with fetched := none, fetchedLive := false, waits := false } :=
    hu ▸ (pair_modPair ..).trans (if_pos rfl)
  have hother : ∀ m, m ≠ n → u.pair m = s.pair m := fun m hm => hu ▸ (pair_modPair ..).trans (if_neg hm)
  have hseq : u.hub.completionSeq = s.hub.completionSeq := hu ▸ rfl
  have hjobs : u.hub.jobs = s.hub.jobs := hu ▸ rfl
  have hturn : u.hub.turn = s.hub.turn := hu ▸ rfl
  have hout : u.out = s.out := hu ▸ rfl
  obtain ⟨⟨c, head, htag, hst, new, hn, hm⟩, ⟨tail, phase, un, hp⟩, ho, hj, ht, hq⟩ :=
    writeCompletion_spec u n { tag := tag, status := status }
  obtain ⟨⟨q, hd⟩, hdo, hdout, hdj, hdt, hdq⟩ := pairDrain_spec (u.writeCompletion n { tag := tag, status := status }) n
  have hnew : (((u.writeCompletion n { tag := tag, status := status }).pairDrain n).pair n) = { s.pair n with
      fetched := none, fetchedLive := false, waits := false
      cqTail := tail, phase := phase, cqUsed := (s.pair n).cqUsed + 1, unsignalled := un, qstate := q } := by
    rw [hd, hp, hself]
  rw [hseq, hself] at hm
  refine ⟨⟨⟨c, head, htag, hst, new, by rw [hdout, hn, hout], hm⟩, by rw [hnew], by rw [hdq, hq, hseq], by rw [hnew],
    fun m hm => ((hdo m hm).trans (ho m hm)).trans (hother m hm)⟩, by rw [hdj, hj, hjobs], by rw [hdt, ht, hturn], tail, phase, un, q, hnew⟩

theorem canFetch_iff (s : State) (n : Nat) : s.canFetch n = true ↔ (s.pair n).qstate = .on ∧ (s.pair n).fetched = none ∧
    (s.pair n).sqHead ≠ (s.pair n).sqTail ∧ (s.pair n).cqUsed + s.pairOwed n < (s.pair n).cqSize ∧
    ¬ ((s.pair n).blocked = true ∧ jobsMax ≤ s.hub.jobs.length) := by
  unfold State.canFetch
  simp only [Bool.and_eq_true, decide_eq_true_eq, Option.isNone_iff_eq_none, Bool.not_eq_true', Bool.and_eq_false_iff, decide_eq_false_iff_not,
    and_assoc, not_and_or, Bool.not_eq_true]

/-- The pair whose turn it is, is the first from the round-robin's place on that can be fetched from (R359). -/
theorem pairTurn_first {s : State} {n : Nat} (hn : n < 64) (h : s.pairTurn = some n) : s.canFetch n = true ∧
    ∀ i, i < (n + 64 - s.hub.turn % 64) % 64 → s.canFetch ((s.hub.turn + i) % 64) = false := by
  unfold State.pairTurn at h
  rw [List.find?_map, Option.map_eq_some_iff] at h
  obtain ⟨k, hk, rfl⟩ := h
  have hfetch := List.find?_some hk
  obtain ⟨_, hlt, hfirst⟩ := List.find?_range_eq_some.1 hk
  refine ⟨hfetch, fun i hi => ?_⟩
  have hk64 : k < 64 := List.mem_range.1 hlt
  have hik : i < k := by omega
  simpa using hfirst i hik

/-- A fetch by the pair whose turn it is, where the entry is taken: the state before an undefined operation is completed. -/
def State.takenFrom (s : State) (n : Nat) (e : Desc) (bell : Quad) : State :=
  (s.passTurn n false).modPair n (fun p => { p with
    sqHead := BitVec.ofNat 16 (((s.pair n).sqHead.toNat + 1) % (s.pair n).sqSize), fetched := some e, fetchedBell := bell
    fetchedLive := decide (eOp e = 2) && ((s.passTurn n false).job? (eTarget e)).isSome
    bells := match p.bells with
      | (t, _) :: rest => if t = (BitVec.ofNat 16 (((s.pair n).sqHead.toNat + 1) % (s.pair n).sqSize)).toNat then rest else p.bells
      | [] => [] })

theorem fetch_takes {s : State} {n : Nat} {e : Desc} (hruns : s.fetchRuns = true) (hturn : s.pairTurn = some n)
    (hroom : eOp e = 1 → s.hub.jobs.length < jobsMax) :
    ∃ bell, s.fetch n e = if 4 < eOp e then (s.takenFrom n e bell).completeFetched n (eTag e) 0x10 else s.takenFrom n e bell := by
  have h : ¬ ((!s.fetchRuns || decide (s.pairTurn ≠ some n)) = true) := by simp [hruns, hturn]
  exact ⟨_, (if_neg h).trans (if_neg fun hfull => absurd (hroom hfull.1) (Nat.not_lt.2 hfull.2))⟩

theorem takenFrom_spec (s : State) (n : Nat) (e : Desc) (bell : Quad) : ((s.takenFrom n e bell).pair n).blocked = false ∧
    ((s.takenFrom n e bell).pair n).sqHead = BitVec.ofNat 16 (((s.pair n).sqHead.toNat + 1) % (s.pair n).sqSize) ∧
    ((s.takenFrom n e bell).pair n).sqTail = (s.pair n).sqTail ∧ ((s.takenFrom n e bell).pair n).fetched = some e ∧
    ((s.takenFrom n e bell).pair n).cqTail = (s.pair n).cqTail ∧ ((s.takenFrom n e bell).pair n).phase = (s.pair n).phase ∧
    ((s.takenFrom n e bell).pair n).cqUsed = (s.pair n).cqUsed ∧
    (∀ m, m ≠ n → (s.takenFrom n e bell).pair m = s.pair m) ∧ (s.takenFrom n e bell).hub.jobs = s.hub.jobs ∧
    (s.takenFrom n e bell).hub.turn = (n + 1) % 64 ∧ (s.takenFrom n e bell).out = s.out ∧
    (s.takenFrom n e bell).hub.completionSeq = s.hub.completionSeq := by
  have hpass : ∀ m, (s.passTurn n false).pair m = if m = n then { s.pair n with blocked := false } else s.pair m := fun m => pair_modPair ..
  have hpair := pair_modPair (s.passTurn n false) n
  unfold State.takenFrom
  simp only [hpair, hpass, if_pos]
  exact ⟨trivial, trivial, trivial, trivial, trivial, trivial, trivial, fun m hm => by rw [if_neg hm, if_neg hm], rfl, rfl, rfl, rfl⟩

theorem command_nop {s : State} {n : Nat} {e : Desc} (hf : (s.pair n).fetched = some e) (hop : eOp e = 0) :
    s.command n 0 (fun s e => s.completeFetched n (eTag e) stOk) = s.completeFetched n (eTag e) (if eClean e then stOk else 0x10) := by
  unfold State.command
  rw [hf]
  dsimp only
  rw [if_neg (not_not.2 hop)]
  split <;> rfl

theorem sqTail_stays {s : State} {n : Nat} {v : Word} (h : (s.pair n).qstate = .off) : s.sqTail n v = s := by
  unfold State.sqTail
  simp [h]

theorem cqHead_stays {s : State} {n : Nat} {v : Word} (h : (s.pair n).qstate = .off ∨ (s.pair n).cqSize ≤ v.toNat) : s.cqHead n v = s := by
  unfold State.cqHead
  rcases h with h | h <;> simp [h]

theorem pairOwed_modPair (s : State) (n : Nat) (f : Pair → Pair) (h : (f (s.pair n)).fetched = (s.pair n).fetched) :
    (s.modPair n f).pairOwed n = s.pairOwed n := by
  unfold State.pairOwed
  rw [pair_modPair, if_pos rfl, h]
  rfl

/-- A pair that is disabled owes its completion entries still, or is OFF (R361). -/
theorem qpDisable_spec {s : State} {n : Nat} (hh : s.hostReaches = true) (hon : (s.pair n).qstate = .on) :
    (s.qpDisable n).hub.jobs = s.hub.jobs ∧ (s.qpDisable n).out = s.out ∧
    (s.qpDisable n).pair n = { s.pair n with enable := false, qstate := if s.pairOwed n = 0 then .off else .draining } ∧
    ∀ m, m ≠ n → (s.qpDisable n).pair m = s.pair m := by
  have hq : s.qpDisable n = (s.modPair n (fun p => { p with enable := false, qstate := .draining })).pairDrain n := if_neg (by simp [hh, hon])
  have howed := pairOwed_modPair s n (fun p => { p with enable := false, qstate := .draining }) rfl
  obtain ⟨_, hother, hout, hjobs, _⟩ := pairDrain_spec (s.modPair n (fun p => { p with enable := false, qstate := .draining })) n
  rw [hq]
  refine ⟨hjobs, hout, ?_, fun m hm => (hother m hm).trans ((pair_modPair ..).trans (if_neg hm))⟩
  unfold State.pairDrain
  rw [howed]
  simp only [pair_modPair, if_pos, true_and]
  split <;> simp only [pair_modPair, if_pos]

/-- Settles O44: each command's case is its rule above; a completed entry and the turn have theirs. -/
theorem queuePairs : Obligations.QueuePairs := by
  unfold Obligations.QueuePairs
  refine ⟨?_, ?_, ?_, ?_, ?_, ?_, ?_, ?_, ?_, ?_, ?_, ?_, ?_⟩
  · intro n tail s hh hon
    refine ⟨fun hin => ?_, fun hbeyond => ?_⟩
    · have h : s.sqTail n tail = _ := (if_neg (by simp [hh, hon])).trans (if_neg (Nat.not_le.2 hin))
      refine ⟨_, congrArg Host.Outcome.next h, ?_, rfl, fun m hm => (pair_modPair ..).trans (if_neg hm)⟩
      rw [pair_modPair, if_pos rfl]
    · have h : s.sqTail n tail = _ := (if_neg (by simp [hh, hon])).trans (if_pos hbeyond)
      exact ⟨_, congrArg Host.Outcome.next h, rfl, rfl⟩
  · intro n head s hh hon hin
    have h : s.cqHead n head = _ := if_neg (by simp [hh, hon, hin])
    exact ⟨_, congrArg Host.Outcome.next h, (pair_modPair ..).trans (if_pos rfl), fun m hm => (pair_modPair ..).trans (if_neg hm)⟩
  · exact fun n v s hoff => ⟨congrArg Host.Outcome.next (sqTail_stays hoff), congrArg Host.Outcome.next (cqHead_stays (.inl hoff))⟩
  · exact fun n head s hbeyond => congrArg Host.Outcome.next (cqHead_stays (.inr hbeyond))
  · intro n s hh hoff hsq hcq hsb hcb
    have h : s.qpEnable n = _ := (if_neg (by simp [hh, hoff])).trans (if_neg (by omega))
    refine ⟨_, congrArg Host.Outcome.next h, ?_⟩
    simp only [pair_modPair, if_pos, true_and]
    exact fun m hm => if_neg hm
  · exact fun n s hh hon => ⟨_, rfl, qpDisable_spec hh hon⟩
  · intro n e s hruns hturn hop hfull
    have h : s.fetch n e = s.passTurn n true := (if_neg (by simp [hruns, hturn])).trans (if_pos ⟨hop, hfull⟩)
    exact ⟨_, congrArg Host.Outcome.next h, (pair_modPair ..).trans (if_pos rfl), rfl, rfl, rfl,
      fun m hm => (pair_modPair ..).trans (if_neg hm)⟩
  · intro n e s hno
    have h : s.fetch n e = s := if_pos (by rcases hno with h | h <;> simp [h])
    exact congrArg Host.Outcome.next h
  · exact fun n s hturn => pairTurn_first n.isLt hturn
  · exact fun n s => canFetch_iff s n
  · intro n e s hruns hturn hroom
    obtain ⟨bell, hfetch⟩ := fetch_takes hruns hturn hroom
    obtain ⟨hblocked, hhead, htail, hfetched, hcqTail, hphase, hused, hother, hjobs, hturn', hout, hseq⟩ := takenFrom_spec s n e bell
    refine ⟨_, congrArg Host.Outcome.next hfetch, ?_⟩
    split
    next hundefined =>
      obtain ⟨⟨hcompletes, hnone, hcount, hslots, hothers⟩, hj, ht, tail, phase, un, q, hp⟩ :=
        completeFetched_spec (s.takenFrom n e bell) n (eTag e) 0x10
      refine ⟨hj.trans hjobs, ht.trans hturn', by rw [hp]; exact hblocked, by rw [hp]; exact hhead, by rw [hp]; exact htail,
        fun hle => absurd hundefined (Nat.not_lt.2 hle), fun _ => ⟨?_, hnone, by rw [hcount, hseq], by rw [hslots, hused],
        fun m hm => (hothers m hm).trans (hother m hm)⟩⟩
      unfold Completes Emits at hcompletes ⊢
      rw [hcqTail, hphase, hseq, hout] at hcompletes
      exact hcompletes
    next hdefined =>
      exact ⟨hjobs, hturn', hblocked, hhead, htail, fun _ => ⟨hfetched, hout, hother⟩, fun hlt => absurd hlt hdefined⟩
  · intro n e s hf hop
    obtain ⟨hdone, hjobs, _⟩ := completeFetched_spec s n (eTag e) (if eClean e then stOk else 0x10)
    exact ⟨_, congrArg Host.Outcome.next (command_nop hf hop), hdone, hjobs⟩
  · intro n s hun htime
    have h : s.coalTimeout n = _ := if_neg (not_or.2 ⟨hun, htime⟩)
    obtain ⟨_, _, _, _, _, hsignals⟩ := signal_spec (s.modPair n (fun p => { p with unsignalled := 0 })) _ (s.pair n).vector.isLt
    refine ⟨_, congrArg Host.Outcome.next h, (pair_signal ..).trans ((pair_modPair ..).trans (if_pos rfl)), hsignals,
      fun m hm => (pair_signal ..).trans ((pair_modPair ..).trans (if_neg hm))⟩

end Sys2Proof.Machine

/-! PROOFS. The fused instructions (R340): the exchange part of an operation without stages, the first stage of a MOVE.AR over two dies,
and retirement. -/

namespace Sys2Proof.Machine

/-! ## Other cores and network tables leave writes of stacked memory as they are -/

/-- The state with other cores and other network tables. -/
def State.issuing (s : State) (C : AMap Core) (N : Net) : State := { s with cores := C, net := N }

section
variable (C : AMap Core) (N : Net)

theorem issuing_foldl {α : Type} {f : State → α → State} (h : ∀ s a, f (s.issuing C N) a = (f s a).issuing C N) (l : List α) (s : State) :
    l.foldl f (s.issuing C N) = (l.foldl f s).issuing C N := by
  induction l generalizing s with
  | nil => rfl
  | cons a l ih => rw [List.foldl_cons, h, ih, List.foldl_cons]

theorem useParity_issuing (s : State) (m : Nat) : (s.issuing C N).useParity m = (s.useParity m).issuing C N := by
  show (if mget 0 s.ms.parity m = 0 then _ else _) = State.issuing (if mget 0 s.ms.parity m = 0 then _ else _) C N
  split <;> rfl

theorem countFlips_issuing (s : State) (a n : Nat) : (s.issuing C N).countFlips a n = (s.countFlips a n).issuing C N :=
  issuing_foldl C N (fun _ _ => rfl) _ s

theorem countWritten_issuing (s : State) (a n : Nat) : (s.issuing C N).countWritten a n = (s.countWritten a n).issuing C N :=
  issuing_foldl C N (fun _ _ => rfl) _ s

theorem memPut_issuing (s : State) (a : Nat) (bs : List Byte) : (s.issuing C N).memPut a bs = (s.memPut a bs).issuing C N := by
  have hflips := countFlips_issuing C N (s.fresh a bs.length) a bs.length
  have hmerge : ((s.issuing C N).fresh a bs.length).mergeFlips a bs.length = ((s.fresh a bs.length).mergeFlips a bs.length).issuing C N :=
    congrArg (fun t : State => t.withMs (fun m => { m with flips := m.flips.filter (fun g => !meets a bs.length (32 * g) 32) })) hflips
  unfold State.memPut
  dsimp only
  rw [hmerge]
  generalize (s.fresh a bs.length).mergeFlips a bs.length = t
  exact countWritten_issuing C N (t.setMem (t.ms.mem.writeBytes a bs)) a bs.length

theorem snoopInv_issuing (s : State) (a n : Nat) : (s.issuing C N).snoopInv a n = (s.snoopInv a n).issuing C N := by
  have h : (s.snooped a n).foldl (fun t l => t.emit (.bisnp l true)) (s.issuing C N) = _ := issuing_foldl C N (fun _ _ => rfl) _ s
  unfold State.snoopInv
  dsimp only
  rw [show (s.issuing C N).snooped a n = s.snooped a n from rfl, h]
  rfl

theorem memWriteOwn_issuing {s t : State} {a : Nat} {bs : List Byte} (h : s.memWriteOwn a bs = .ok t) :
    (s.issuing C N).memWriteOwn a bs = .ok (t.issuing C N) := by
  unfold State.memWriteOwn at h ⊢
  rw [show (s.issuing C N).rangeErr a bs.length = s.rangeErr a bs.length from rfl,
    show (s.issuing C N).poisonPart a bs.length = s.poisonPart a bs.length from rfl]
  split at h
  · cases h
  split at h
  · cases h
  cases h
  rw [snoopInv_issuing, memPut_issuing]
  exact congrArg Except.ok (issuing_foldl C N (useParity_issuing C N) _ _)

theorem memWrite_issuing {s t : State} {a : Nat} {bs : List Byte} (h : s.memWrite a bs = .ok t) :
    (s.issuing C N).memWrite a bs = .ok (t.issuing C N) := by
  unfold State.memWrite at h ⊢
  rw [show (s.issuing C N).isProtected a bs.length = s.isProtected a bs.length from rfl]
  split at h
  · cases h
  next hfree => rw [if_neg hfree]; exact memWriteOwn_issuing C N h

/-- Rows that are all stored are stored so for another entry too. -/
theorem writeDev_issuing {c c' : Nat} {e e' : QEntry} (hk : clusterOf c = clusterOf c') {data : List (Nat × List Byte)} {s u : State}
    (h : s.writeDev c e data = .ok u) : (s.issuing C N).writeDev c' e' data = .ok (u.issuing C N) := by
  induction data generalizing s with
  | nil => cases h; rfl
  | cons p rest ih =>
    simp only [State.writeDev] at h ⊢
    split at h
    next t ht =>
      rw [memWrite_issuing C N ht]
      exact hk ▸ ih h
    · cases h

end

/-! ## What an exchange instruction's reads leave -/

/-- Beside the records of stacked memory, the porter's counts and the clusters' counters, what an exchange looks at is as before. -/
def KeepsExchange (s t : State) : Prop := t.cores = s.cores ∧ t.net = s.net ∧ t.ms.mem = s.ms.mem ∧
  (∀ g, t.routeEntry g = s.routeEntry g) ∧ ∀ k, (t.cluster k).holder = (s.cluster k).holder

theorem KeepsExchange.refl (s : State) : KeepsExchange s s := ⟨rfl, rfl, rfl, fun _ => rfl, fun _ => rfl⟩

theorem KeepsExchange.trans {s t u : State} (h : KeepsExchange s t) (h' : KeepsExchange t u) : KeepsExchange s u := by
  obtain ⟨hc, hn, hm, hr, hh⟩ := h
  obtain ⟨hc', hn', hm', hr', hh'⟩ := h'
  exact ⟨hc'.trans hc, hn'.trans hn, hm'.trans hm, fun g => (hr' g).trans (hr g), fun k => (hh' k).trans (hh k)⟩

theorem keepsExchange_readDone (s : State) (a n : Nat) : KeepsExchange s (s.readDone a n) := by
  obtain ⟨⟨hclusters, hcores, -, hnet, -⟩, hmem, -⟩ := readDone_keeps s a n
  have hdv := (onlyAccess_readDone s a n).dv
  refine ⟨hcores, hnet, hmem, fun g => ?_, fun k => by rw [cluster_of_clusters hclusters]⟩
  unfold State.routeEntry
  rw [hdv, hdv]

theorem keepsExchange_bumpCluster (s : State) (k i n : Nat) : KeepsExchange s (s.bumpCluster k i n) := by
  refine ⟨rfl, rfl, rfl, fun _ => rfl, fun j => ?_⟩
  unfold State.bumpCluster
  rw [cluster_modCluster]
  split
  · next h => subst h; rfl
  · rfl

theorem keepsExchange_countBurst (s : State) (k i a n : Nat) : KeepsExchange s (s.countBurst k i a n) :=
  (keepsExchange_bumpCluster s k i n).trans (keepsExchange_bumpCluster _ k 12 _)

theorem keepsExchange_countNarrow (s : State) (k a n : Nat) : KeepsExchange s (s.countNarrow k a n) :=
  (keepsExchange_bumpCluster s k 9 _).trans (keepsExchange_bumpCluster _ k 12 _)

theorem keepsExchange_devRead {s u : State} {c : Nat} {e : QEntry} {a n : Nat} {bs : List Byte} (h : s.devRead c e a n = .bytes bs u) :
    KeepsExchange s u := by
  have hcount (t : State) :
      KeepsExchange t (if e.fam = some .gath then t.countNarrow (clusterOf c) a n else t.countBurst (clusterOf c) 10 a n) := by
    split
    · exact keepsExchange_countNarrow t _ a n
    · exact keepsExchange_countBurst t _ 10 a n
  cases hgate : s.weightGate a n with
  | failed => simp only [State.devRead, hgate, reduceCtorEq] at h
  | wait => simp only [State.devRead, hgate, reduceCtorEq] at h
  | ok =>
    cases hread : s.memRead a n with
    | error y => simp only [State.devRead, hgate, hread, reduceCtorEq] at h
    | ok got =>
      simp only [State.devRead, hgate, hread] at h
      injection h with _ hu
      exact hu ▸ (keepsExchange_readDone s a n).trans (hcount _)

theorem keepsExchange_readRows {c : Nat} {e : QEntry} {rows : List MoveRow} {s u : State} {data : List (Nat × List Byte)}
    (h : s.readRows c e rows = .ok (u, data)) : KeepsExchange s u := by
  induction rows generalizing s data with
  | nil => cases h; exact .refl _
  | cons r rs ih =>
    simp only [State.readRows] at h
    split at h
    · cases h
    next bs v hv =>
    split at h
    · cases h
    next w rest hw =>
    cases h
    refine .trans ?_ (ih hw)
    split at hv
    · cases hv; exact .refl _
    · exact keepsExchange_devRead hv

/-! ## An operation without stages ends at once -/

theorem opStages_single {o : ExOp} {e : Nat} (h : ∀ l, l ≤ o.level → rtSize e l ≤ 1) : opStages o e = [] := by
  have hls : (List.range (o.level + 1)).filter (fun l => decide (1 < rtSize e l)) = [] := by
    refine List.filter_eq_nil_iff.2 fun l hl => ?_
    have := h l (Nat.lt_succ_iff.1 (List.mem_range.1 hl))
    simpa using this
  unfold opStages
  simp only [hls]
  split <;> rfl

/-- The operation as it begins. -/
def ExOp.starts (o : ExOp) (e : Nat) (vec : List Byte) : ExOp :=
  { o with begun := true, stage := 0, vec := vec, accs := (o.reds e).map (fun _ => []) }

theorem exBegin_single {s : State} {job : Job} {c : Nat} {ord : Word} {vec : List Byte} {o : ExOp} {e : Nat}
    (ho : s.opOf job.id c ord = some o) (he : s.routeEntry o.group = e) (hsingle : ∀ l, l ≤ o.level → rtSize e l ≤ 1) :
    s.exBegin job.id c ord vec = (s.setOp (o.starts e vec)).exFinish (o.starts e vec) e := by
  have hstages : opStages (o.starts e vec) e = [] := opStages_single hsingle
  have he' : (s.setOp (o.starts e vec)).routeEntry (o.starts e vec).group = e := he
  unfold State.exBegin
  rw [ho]
  dsimp only
  rw [he]
  show State.exGo 16 true (s.setOp (o.starts e vec)) (o.starts e vec) = _
  unfold State.exGo
  dsimp only
  rw [he', hstages]
  rfl

/-- The operation and the entry as the instruction is done. -/
def State.exDone (s : State) (o : ExOp) (f : Fam) : State :=
  ((s.countPorts o.core.val f).finish o.core.val o.ord iOk).setOp { o with finished := true, segOpen := false, accs := [] }

/-- What R340 asks of an instruction that is done. -/
def ExDone (job : JobId) (c : Nat) (ord : Word) (s t : State) : Prop :=
  (∀ q ∈ (t.core c).queue, q.ord = ord → q.phase = .done iOk) ∧ t.net.operations = s.net.operations ∧
  ∀ o', t.opOf job c ord = some o' → o'.finished = true

theorem entry?_ord {x : Core} {ord : Word} {e : QEntry} (h : x.entry? ord = some e) : e.ord = ord :=
  eq_of_beq (List.find?_some (p := fun q : QEntry => q.ord == ord) h)

theorem exDone_spec {s : State} {o : ExOp} (f : Fam) {o₀ : ExOp} (ho : s.opOf o.job o.core.val o.ord = some o₀) :
    ExDone o.job o.core.val o.ord s (s.exDone o f) ∧ (s.exDone o f).ms = s.ms ∧
    ((s.exDone o f).core o.core.val).store = (s.core o.core.val).store ∧ ((s.exDone o f).core o.core.val).acc = (s.core o.core.val).acc := by
  obtain ⟨honly, hcore⟩ := countPorts_modEntry_spec s o.core.val f o.ord (fun e => { e with phase := .done iOk })
  have hrest := honly.1
  have hnet : (((s.countPorts o.core.val f).finish o.core.val o.ord iOk)).net = s.net := hrest.2.2.1
  refine ⟨⟨fun q hq => phase_of_mem_finish (s := s.countPorts o.core.val f) hq, (congrArg Net.operations hnet :), fun o' ho' => ?_⟩, ?_, ?_, ?_⟩
  · have hset := opOf_setOp (s := (s.countPorts o.core.val f).finish o.core.val o.ord iOk)
      (o' := { o with finished := true, segOpen := false, accs := [] })
      ((opOf_of_ops (congrArg Net.ops hnet) _ _ _).trans ho) (isOf_self o) ⟨rfl, rfl, rfl⟩
    exact Option.some.inj (ho'.symm.trans hset) ▸ rfl
  · exact hrest.1
  · exact (congrArg Core.store hcore :)
  · exact (congrArg Core.acc hcore :)

section
variable {s : State} {o : ExOp} {q : QEntry} {f : Fam} {e : Nat}

/-- MMA.RS stores the accumulators, converted, in D's rows. -/
theorem exFinish_mmaRs (hq : (s.core o.core.val).entry? o.ord = some q) (hf : q.fam = some .mmaRs) (hrun : q.isRunning = true)
    (hheld : (s.cluster (clusterOf o.core.val)).holder = some o.job) :
    s.exFinish o e = (s.applyWrites o.core.val (rsWrites q.d o.vec)).exDone o .mmaRs := by
  have hord := entry?_ord hq
  unfold State.exFinish
  simp only [hq, Option.bind_some, hf, hrun, hheld, Bool.not_true, ne_eq, not_true_eq_false, decide_false, Bool.or_false,
    Bool.false_eq_true, if_false, if_true, hord]
  rfl

/-- The rows in stacked memory of an operation's result. -/
def ExOp.results (o : ExOp) (q : QEntry) (f : Fam) (e : Nat) : List (Nat × List Byte) :=
  match f with
  | .mmaAg => (List.range (exSize e o.level)).map (fun i =>
      (xAddr q.d + i * agPart q.d, (o.vec.drop (i * agPart q.d)).take (agElems q.d + agScales q.d)))
  | .moveA2a => (List.range (exSize e o.level)).map (fun i => (vDst q.d + i * o.block e, (o.vec.drop (i * o.block e)).take (o.block e)))
  | .moveAr => ((moveRows q.d q.its (vNRows q.d)).zip (chunks (vRBytes q.d) (o.vec.length / vRBytes q.d + 1) o.vec)).map (fun (r, bs) => (r.dst, bs))
  | _ => []

/-- The others store their result in stacked memory. -/
theorem exFinish_stores {t : State} (hq : (s.core o.core.val).entry? o.ord = some q) (hf : q.fam = some f) (hne : f ≠ .mmaRs)
    (hrun : q.isRunning = true) (hheld : (s.cluster (clusterOf o.core.val)).holder = some o.job)
    (hok : s.writeDev o.core.val q (o.results q f e) = .ok t) : s.exFinish o e = t.exDone o f := by
  have hord := entry?_ord hq
  have h : s.exFinish o e = (match s.writeDev o.core.val q (o.results q f e) with
    | .ok t => ((t.countPorts o.core.val f).finish o.core.val q.ord iOk).setOp { o with finished := true, segOpen := false, accs := [] }
    | .error t => t) := by
    unfold State.exFinish
    simp only [hq, Option.bind_some, hf, hrun, hheld, Bool.not_true, ne_eq, not_true_eq_false, decide_false, Bool.or_false,
      Bool.false_eq_true, if_false, hne]
    rfl
  rw [h, hok, hord]
  rfl

end

/-! ## The array part -/

theorem entry?_withEntry {x : Core} {ord : Word} {e : QEntry} {g : QEntry → QEntry} (h : x.entry? ord = some e) (hg : ∀ q, (g q).ord = q.ord) :
    (x.withEntry ord g).entry? ord = some (g e) := by
  have hpred : ((fun q : QEntry => q.ord == ord) ∘ fun q => if q.ord = ord then g q else q) = fun q => q.ord == ord := by
    funext q
    show ((if q.ord = ord then g q else q).ord == ord) = (q.ord == ord)
    split
    · rw [hg]
    · rfl
  unfold Core.entry? Core.withEntry at *
  rw [List.find?_map, hpred, h]
  exact congrArg some (if_pos (eq_of_beq (List.find?_some (p := fun q : QEntry => q.ord == ord) h)))

/-- What the array part writes, where it is not done. -/
def arrayWrites (f : Fam) (d : Nat) (e : QEntry) (x : Core) : Writes :=
  if e.computed then {} else mmaWrites f d e.its e.clip x.weights none x.store x.acc

theorem keepAfter_issuing (s : State) (c d : Nat) : ∃ C, s.keepAfter c d = s.issuing C s.net := by
  unfold State.keepAfter
  split
  · exact ⟨s.cores, rfl⟩
  · exact ⟨_, rfl⟩

/-- The array part stores its writes, and marks the entry. -/
theorem computeX_spec {s : State} {c : Nat} {f : Fam} {d : Nat → Nat} {e : QEntry} (he : (s.core c).entry? e.ord = some e) :
    (∃ C, s.computeX c f d e = s.issuing C s.net) ∧
    ((s.computeX c f d e).core c).store =
      (arrayWrites f (d e.d) e (s.core c)).cs.foldl (fun m p => m.writeBytes p.1 p.2) (s.core c).store ∧
    ((s.computeX c f d e).core c).acc =
      (arrayWrites f (d e.d) e (s.core c)).acc.foldl (fun m p => m.writeLE (4 * p.1) 4 p.2) (s.core c).acc ∧
    ((s.computeX c f d e).core c).entry? e.ord = some { e with computed := true } := by
  unfold State.computeX arrayWrites
  split
  next hdone =>
    refine ⟨⟨s.cores, rfl⟩, rfl, rfl, he.trans ?_⟩
    rw [← hdone]
  next =>
    dsimp only
    generalize mmaWrites f (d e.d) e.its e.clip (s.core c).weights none (s.core c).store (s.core c).acc = w
    have hcore : ((s.applyWrites c w).modEntry c e.ord (fun q => { q with computed := true })).core c =
        ({ (s.core c).written w with ctr := ((s.applyWrites c w).core c).ctr } : Core).withEntry e.ord (fun q => { q with computed := true }) := by
      rw [core_modEntry, core_applyWrites]
    refine ⟨?_, ?_, ?_, ?_⟩
    · obtain ⟨C, hC⟩ := keepAfter_issuing ((s.applyWrites c w).modEntry c e.ord (fun q => { q with computed := true })) c e.d
      exact ⟨C, hC.trans rfl⟩
    · rw [core_keepAfter, hcore]; rfl
    · rw [core_keepAfter, hcore]; rfl
    · rw [core_keepAfter, hcore]
      exact entry?_withEntry (x := { (s.core c).written w with ctr := _ }) he fun _ => rfl

end Sys2Proof.Machine

/-! PROOFS. Running exchange instructions: from the state in which they begin to the one in which they are done. -/

namespace Sys2Proof.Machine

/-! ## Running exchange instructions -/

theorem runningOf_spec {s : State} {c : Nat} {f : Fam} {job : Job} {e : QEntry} (h : s.runningOf c f = some (job, e)) :
    s.coreJob c = some job ∧ e.isRunning = true ∧ e.fam = some f := by
  unfold State.runningOf at h
  split at h
  · cases h
  next j hj =>
  split at h
  · cases h
  split at h
  next q hq =>
    cases h
    have hrun := List.find?_some hq
    simp only [Bool.and_eq_true, decide_eq_true_eq] at hrun
    exact ⟨hj, hrun.1.1, hrun.1.2⟩
  · cases h

/-- The cluster of a core whose job runs is held by that job. -/
theorem holder_of_coreJob {s : State} {c : Nat} {job : Job} (h : s.coreJob c = some job) :
    (s.cluster (clusterOf c)).holder = some job.id := by
  have hjob := holderJob_of_coreJob h
  unfold State.holderJob at hjob
  split at hjob
  next id hid => rw [hid, (job?_some s hjob).2]
  · cases hjob

theorem opOf_spec {s : State} {o : ExOp} {job : JobId} {c : Nat} {ord : Word} (h : s.opOf job c ord = some o) :
    o.core.val = c ∧ o.ord = ord ∧ o.job = job := by
  have his := List.find?_some (p := fun x : ExOp => x.isOf job c ord) h
  simpa [ExOp.isOf, and_assoc] using his

theorem rsWrites_acc (d : Nat) (vec : List Byte) : (rsWrites d vec).acc = [] := by
  unfold rsWrites
  rw [Writes.join_acc]
  refine List.flatMap_eq_nil_iff.2 fun w hw => ?_
  obtain ⟨p, -, rfl⟩ := List.mem_map.1 hw
  exact Operand.writeRow_acc ..

theorem runMmaX_of_running {s : State} {c : Nat} {f : Fam} {d : Nat → Nat} {vec : QEntry → Core → List Byte} {job : Job} {e : QEntry}
    (h : s.runningOf c f = some (job, e)) :
    s.runMmaX c f d vec = (s.computeX c f d e).exBegin job.id c e.ord (vec e ((s.computeX c f d e).core c)) := by
  unfold State.runMmaX
  rw [h]

theorem runMoveX_of_read {s v : State} {c : Nat} {f : Fam} {job : Job} {e : QEntry} {data : List (Nat × List Byte)}
    (h : s.runningOf c f = some (job, e)) (hread : s.readRows c e (moveRows e.d e.its (vNRows e.d)) = .ok (v, data)) :
    s.runMoveX c f = v.exBegin job.id c e.ord (data.flatMap Prod.snd) := by
  unfold State.runMoveX
  rw [h]
  dsimp only
  rw [hread]

/-- The state in which an operation begins looks as the one before at all but the cores and the network. -/
structure BeginsFrom (s t : State) (o : ExOp) (q : QEntry) (f : Fam) (e : Nat) : Prop where
  op : t.opOf o.job o.core.val o.ord = some o
  route : t.routeEntry o.group = e
  single : ∀ l, l ≤ o.level → rtSize e l ≤ 1
  entry : (t.core o.core.val).entry? o.ord = some q
  fam : q.fam = some f
  running : q.isRunning = true
  held : (t.cluster (clusterOf o.core.val)).holder = some o.job
  operations : t.net.operations = s.net.operations

section
variable {s t : State} {job : Job} {o : ExOp} {q : QEntry} {f : Fam} {e : Nat}

/-- An operation without stages whose result goes to the core's store is done, its rows stored. -/
theorem BeginsFrom.stored (h : BeginsFrom s t o q .mmaRs e) (hjob : job.id = o.job) (vec : List Byte) :
    let u := t.exBegin job.id o.core.val o.ord vec
    ExDone o.job o.core.val o.ord s u ∧ u.ms = t.ms ∧
    (u.core o.core.val).store = (rsWrites q.d vec).cs.foldl (fun m p => m.writeBytes p.1 p.2) (t.core o.core.val).store ∧
    (u.core o.core.val).acc = (t.core o.core.val).acc := by
  have hbegin := exBegin_single (job := job) (vec := vec) (hjob ▸ h.op) h.route h.single
  have hfinish := exFinish_mmaRs (s := t.setOp (o.starts e vec)) (o := o.starts e vec) (e := e) h.entry h.fam h.running h.held
  have honly := onlyCore_applyWrites (t.setOp (o.starts e vec)) o.core.val (rsWrites q.d vec)
  have hcore := core_applyWrites (t.setOp (o.starts e vec)) o.core.val (rsWrites q.d vec)
  generalize hw : (t.setOp (o.starts e vec)).applyWrites o.core.val (rsWrites q.d vec) = w at honly hcore
  have hop : w.opOf o.job o.core.val o.ord = some (o.starts e vec) :=
    (opOf_of_ops (congrArg Net.ops honly.1.2.2.1) _ _ _).trans (opOf_setOp h.op (isOf_self o) ⟨rfl, rfl, rfl⟩)
  obtain ⟨hdone, hms, hstore, hacc⟩ := exDone_spec (s := w) (o := o.starts e vec) .mmaRs hop
  have hu : t.exBegin job.id o.core.val o.ord vec = w.exDone (o.starts e vec) .mmaRs := hw ▸ hbegin.trans hfinish
  have hops : w.net.operations = s.net.operations := (congrArg Net.operations honly.1.2.2.1 :).trans h.operations
  rw [hu]
  refine ⟨⟨hdone.1, hdone.2.1.trans hops, hdone.2.2⟩, hms.trans (honly.1.1 :), hstore.trans (congrArg Core.store hcore :), hacc.trans ?_⟩
  refine (congrArg Core.acc hcore :).trans ?_
  show (rsWrites q.d vec).acc.foldl _ _ = _
  rw [rsWrites_acc]
  rfl

/-- One whose result goes to stacked memory is done, its rows stored there. -/
theorem BeginsFrom.sent {C : AMap Core} {r u : State} {c : Nat} {q' : QEntry} (h : BeginsFrom s t o q f e) (hjob : job.id = o.job) (hne : f ≠ .mmaRs)
    (vec : List Byte) (ht : t = r.issuing C t.net) (hk : clusterOf c = clusterOf o.core.val)
    (hok : r.writeDev c q' ((o.starts e vec).results q f e) = .ok u) :
    let w := t.exBegin job.id o.core.val o.ord vec
    ExDone o.job o.core.val o.ord s w ∧ w.ms.mem = u.ms.mem ∧
    (w.core o.core.val).store = (t.core o.core.val).store ∧ (w.core o.core.val).acc = (t.core o.core.val).acc := by
  have hbegin := exBegin_single (job := job) (vec := vec) (hjob ▸ h.op) h.route h.single
  have hset : t.setOp (o.starts e vec) = r.issuing C (t.setOp (o.starts e vec)).net := by
    conv_lhs => rw [ht]
    rfl
  have hwrite := writeDev_issuing C (t.setOp (o.starts e vec)).net (c' := o.core.val) (e' := q) hk hok
  rw [← hset] at hwrite
  have hfinish := exFinish_stores (s := t.setOp (o.starts e vec)) (o := o.starts e vec) (e := e) h.entry h.fam hne h.running h.held hwrite
  have hop : (u.issuing C (t.setOp (o.starts e vec)).net).opOf o.job o.core.val o.ord = some (o.starts e vec) :=
    opOf_setOp h.op (isOf_self o) ⟨rfl, rfl, rfl⟩
  have hcores : (u.issuing C (t.setOp (o.starts e vec)).net).core o.core.val = t.core o.core.val := by
    have hC : C = t.cores := (congrArg State.cores ht :).symm
    rw [hC]; rfl
  obtain ⟨hdone, hms, hstore, hacc⟩ := exDone_spec (o := o.starts e vec) f hop
  rw [hbegin, hfinish]
  exact ⟨⟨hdone.1, hdone.2.1.trans h.operations, hdone.2.2⟩, (congrArg MemSys.mem hms :), hstore.trans (congrArg Core.store hcores),
    hacc.trans (congrArg Core.acc hcores)⟩

end

/-- After the array part the operation begins from the state before, but for its core. -/
theorem beginsFrom_computeX {s : State} {c : Nat} {f : Fam} {d : Nat → Nat} {job : Job} {q : QEntry} {o : ExOp}
    (ho : s.opOf job.id c q.ord = some o) (hq : (s.core c).entry? q.ord = some q) (hrun : s.runningOf c f = some (job, q))
    (hsingle : ∀ l, l ≤ o.level → rtSize (s.routeEntry o.group) l ≤ 1) :
    BeginsFrom s (s.computeX c f d q) o { q with computed := true } f (s.routeEntry o.group) := by
  obtain ⟨rfl, hord, hjob⟩ := opOf_spec ho
  obtain ⟨hcoreJob, hrunning, hfam⟩ := runningOf_spec hrun
  obtain ⟨⟨C, hC⟩, -, -, hentry⟩ := computeX_spec (f := f) (d := d) hq
  rw [← hord, ← hjob] at ho
  have hheld := holder_of_coreJob hcoreJob
  rw [← hjob] at hheld
  refine ⟨?_, ?_, hsingle, (congrArg (Core.entry? _) hord).trans hentry, hfam, hrunning, ?_, ?_⟩ <;> rw [hC]
  · exact ho
  · rfl
  · exact hheld
  · rfl

/-- So it does after its rows are read. -/
theorem beginsFrom_readRows {s v : State} {c : Nat} {f : Fam} {job : Job} {q : QEntry} {o : ExOp} {data : List (Nat × List Byte)}
    (ho : s.opOf job.id c q.ord = some o) (hq : (s.core c).entry? q.ord = some q) (hrun : s.runningOf c f = some (job, q))
    (hread : s.readRows c q (moveRows q.d q.its (vNRows q.d)) = .ok (v, data))
    (hsingle : ∀ l, l ≤ o.level → rtSize (s.routeEntry o.group) l ≤ 1) :
    BeginsFrom s v o q f (s.routeEntry o.group) := by
  obtain ⟨rfl, hord, hjob⟩ := opOf_spec ho
  obtain ⟨hcoreJob, hrunning, hfam⟩ := runningOf_spec hrun
  obtain ⟨hcores, hnet, -, hroute, hheld⟩ := keepsExchange_readRows hread
  rw [← hord, ← hjob] at ho
  have hholder := holder_of_coreJob hcoreJob
  rw [← hjob] at hholder
  exact ⟨(opOf_of_ops (congrArg Net.ops hnet) _ _ _).trans ho, hroute _, hsingle, (congrArg (Core.entry? · _) (core_of_cores hcores _) :).trans ((congrArg (Core.entry? _) hord).trans hq),
    hfam, hrunning, (hheld _).trans hholder, congrArg Net.operations hnet⟩

end Sys2Proof.Machine

/-! PROOFS. The exchange instructions' work (R340, R344, R347) and retirement (R73). -/

namespace Sys2Proof.Machine

section
variable {c : CoreId} {s : State} {job : Job} {e : QEntry} {o : ExOp}

/-- MMA.RS of a group of one member leaves its products in the accumulators and its converted rows in the core's store (R340). -/
theorem mmaRs_single (ho : s.opOf job.id c e.ord = some o) (he : (s.core c).entry? e.ord = some e) (hrun : s.runningOf c .mmaRs = some (job, e))
    (hsingle : ∀ l, l ≤ o.level → rtSize (s.routeEntry o.group) l ≤ 1) :
    let w := arrayWrites .mmaRs (rsDesc e.d) e (s.core c)
    ExDone job.id c e.ord s (s.runMmaRs c) ∧ (s.runMmaRs c).ms = s.ms ∧
    ((s.runMmaRs c).core c).acc = w.acc.foldl (fun m p => m.writeLE (4 * p.1) 4 p.2) (s.core c).acc ∧
    ((s.runMmaRs c).core c).store = (w.cs ++ (rsWrites e.d (rsVector e.d ((s.runMmaRs c).core c).acc)).cs).foldl
      (fun m p => m.writeBytes p.1 p.2) (s.core c).store := by
  have hdone := (beginsFrom_computeX (d := rsDesc) ho he hrun hsingle).stored (opOf_spec ho).2.2.symm (rsVector e.d ((s.computeX c .mmaRs rsDesc e).core c).acc)
  obtain ⟨hc, hord, hjob⟩ := opOf_spec ho
  obtain ⟨⟨C, hC⟩, hstore, hacc, -⟩ := computeX_spec (f := .mmaRs) (d := rsDesc) he
  dsimp only at hdone
  rw [hc, hord, hjob, ← runMmaX_of_running (vec := fun e x => rsVector e.d x.acc) hrun] at hdone
  obtain ⟨hfin, hms, hst, hac⟩ := hdone
  refine ⟨hfin, hms.trans (by rw [hC]; rfl), hac.trans hacc, hst.trans ?_⟩
  rw [List.foldl_append, ← hstore]
  exact (congrArg (fun m : Mem => (rsWrites e.d (rsVector e.d m)).cs.foldl (fun (m : Mem) p => m.writeBytes p.1 p.2)
    ((s.computeX c .mmaRs rsDesc e).core c).store) hac.symm :)

/-- MMA.AG of one writes its own part of D where each member gathers it (R340). -/
theorem mmaAg_single (ho : s.opOf job.id c e.ord = some o) (he : (s.core c).entry? e.ord = some e) (hrun : s.runningOf c .mmaAg = some (job, e))
    (hsingle : ∀ l, l ≤ o.level → rtSize (s.routeEntry o.group) l ≤ 1) {u : State} :
    let w := arrayWrites .mmaAg e.d e (s.core c)
    let st := w.cs.foldl (fun m p => m.writeBytes p.1 p.2) (s.core c).store
    s.writeDev c e ((List.range (exSize (s.routeEntry o.group) o.level)).map (fun i =>
      (xAddr e.d + i * agPart e.d, ((agVector e.d st).drop (i * agPart e.d)).take (agElems e.d + agScales e.d)))) = .ok u →
    ExDone job.id c e.ord s (s.runMmaAg c) ∧ (s.runMmaAg c).ms.mem = u.ms.mem ∧ ((s.runMmaAg c).core c).store = st ∧
    ((s.runMmaAg c).core c).acc = w.acc.foldl (fun m p => m.writeLE (4 * p.1) 4 p.2) (s.core c).acc := by
  intro w st hok
  obtain ⟨hc, hord, hjob⟩ := opOf_spec ho
  obtain ⟨⟨C, hC⟩, hstore, hacc, -⟩ := computeX_spec (f := .mmaAg) (d := fun d => d) he
  rw [show st = ((s.computeX c .mmaAg (fun d => d) e).core c).store from hstore.symm] at hok ⊢
  have hfrom : s.computeX c .mmaAg (fun d => d) e = s.issuing C (s.computeX c .mmaAg (fun d => d) e).net := by rw [hC]; rfl
  have hdone := (beginsFrom_computeX (d := fun d => d) ho he hrun hsingle).sent hjob.symm (by decide)
    (agVector e.d ((s.computeX c .mmaAg (fun d => d) e).core c).store) hfrom (by rw [hc]) hok
  dsimp only at hdone
  rw [hc, hord, hjob, ← runMmaX_of_running (vec := fun e x => agVector e.d x.store) hrun] at hdone
  obtain ⟨hfin, hms, hst, hac⟩ := hdone
  exact ⟨hfin, hms, hst, hac.trans hacc⟩

/-- MOVE.A2A and MOVE.AR of one write the rows they read to their destination (R340). -/
theorem move_single (ho : s.opOf job.id c e.ord = some o) (he : (s.core c).entry? e.ord = some e) {f : Fam} (hrun : s.runningOf c f = some (job, e))
    (hsingle : ∀ l, l ≤ o.level → rtSize (s.routeEntry o.group) l ≤ 1) (hf : f ≠ .mmaRs) {v u : State} {data : List (Nat × List Byte)}
    (hread : s.readRows c e (moveRows e.d e.its (vNRows e.d)) = .ok (v, data))
    (hok : v.writeDev c e ((o.starts (s.routeEntry o.group) (data.flatMap Prod.snd)).results e f (s.routeEntry o.group)) = .ok u) :
    ExDone job.id c e.ord s (s.runMoveX c f) ∧ (s.runMoveX c f).ms.mem = u.ms.mem ∧ ((s.runMoveX c f).core c).store = (s.core c).store := by
  obtain ⟨hc, hord, hjob⟩ := opOf_spec ho
  obtain ⟨hcores, -⟩ := keepsExchange_readRows hread
  have hdone := (beginsFrom_readRows ho he hrun hread hsingle).sent (r := v) (C := v.cores) hjob.symm hf _ rfl (by rw [hc]) hok
  dsimp only at hdone
  rw [hc, hord, hjob, ← runMoveX_of_read hrun hread] at hdone
  obtain ⟨hfin, hms, hst, -⟩ := hdone
  exact ⟨hfin, hms, hst.trans (by rw [core_of_cores hcores])⟩

end

/-! ## The first stage over two dies -/

theorem opStages_twoDies {o : ExOp} {e : Nat} (hsize : rtSize e 0 = 2) (hrest : ∀ l, 1 ≤ l → l ≤ o.level → rtSize e l ≤ 1) (hopc : o.opc = 0x25) :
    opStages o e = [(1, 0), (2, 0)] := by
  have htail : ((List.range o.level).map Nat.succ).filter (fun l => decide (1 < rtSize e l)) = [] := by
    refine List.filter_eq_nil_iff.2 fun l hl => ?_
    obtain ⟨k, hk, rfl⟩ := List.mem_map.1 hl
    have := hrest (k + 1) (Nat.le_add_left 1 k) (Nat.succ_le_of_lt (List.mem_range.1 hk))
    simpa using this
  have hls : (List.range (o.level + 1)).filter (fun l => decide (1 < rtSize e l)) = [0] := by
    rw [List.range_succ_eq_map, List.filter_cons_of_pos (by simp [hsize]), htail]
  unfold opStages
  simp only [hls, hopc]
  rfl

theorem rtRank_twoDies {e d : Nat} (hdies : rtDies e = 3) (hd : d < 2) : rtRank e 0 d = d := by
  unfold rtRank
  rw [if_neg (Nat.not_lt_zero _), hdies]
  have : d = 0 ∨ d = 1 := by omega
  rcases this with rfl | rfl <;> rfl

/-- A message over the die-to-die link joins the queue of the die it is for. -/
theorem exPost_die {e j : Nat} (hdies : rtDies e = 3) (hj : j < 2) (s : State) (me h : Nat) (bs : List Byte) :
    s.exPost e 0 me j h bs = s.withNet (fun n => { n with dieIn := mmod [] n.dieIn j (fun q => q ++ BitVec.ofNat 2048 h :: flitsOf bs) }) := by
  have hd : (if rtRank e 0 0 = j ∧ bit (rtDies e) 0 = true then 0 else 1) = j := by
    rw [rtRank_twoDies hdies (by decide), hdies]
    have : j = 0 ∨ j = 1 := by omega
    rcases this with rfl | rfl <;> rfl
  unfold State.exPost
  dsimp only
  rw [if_pos rfl, hd]

theorem exPosts_die {e j : Nat} (hdies : rtDies e = 3) (hj : j < 2) (me : Nat) (h : Nat × Nat → Nat) (bs : Nat × Nat → List Byte)
    (ps : List (Nat × Nat)) (s : State) :
    mget [] (ps.foldl (fun t p => t.exPost e 0 me j (h p) (bs p)) s).net.dieIn j =
      mget [] s.net.dieIn j ++ ps.flatMap (fun p => BitVec.ofNat 2048 (h p) :: flitsOf (bs p)) := by
  induction ps generalizing s with
  | nil => exact (List.append_nil _).symm
  | cons p ps ih =>
    rw [List.foldl_cons, ih, exPost_die hdies hj, List.flatMap_cons, ← List.append_assoc]
    exact congrArg (· ++ _) ((mget_mmod [] s.net.dieIn j j fun q => q ++ BitVec.ofNat 2048 (h p) :: flitsOf (bs p)).trans (if_pos rfl))

/-- What a die sends the other in a stage joins that die's queue. -/
theorem exSend_twoDies {o : ExOp} {e : Nat} (hdies : rtDies e = 3) (hsize : rtSize e 0 = 2) (hd : o.die < 2) (s : State) (k base : Nat)
    (bs : List Byte) (a n : Nat) :
    let me := rtRank e 0 o.die
    mget [] (s.exSend o e k 0 base bs a n).net.dieIn (1 - me) = mget [] s.net.dieIn (1 - me) ++
      ((o.pieces e k 0 me (1 - me)).filter (fun p => within p.1 p.2 a n)).flatMap (fun p =>
        BitVec.ofNat 2048 (exHeader o.tag o.xseq me (1 - me) 2 0 k p.1 p.2 o.opc.toNat) :: flitsOf ((bs.drop (p.1 - base)).take p.2)) := by
  intro me
  have hme : me = o.die := rtRank_twoDies hdies hd
  have hothers : (List.range 2).filter (fun j => decide (j ≠ me)) = [1 - me] := by
    have : o.die = 0 ∨ o.die = 1 := by omega
    rw [hme]
    rcases this with h | h <;> rw [h] <;> rfl
  have hsend : s.exSend o e k 0 base bs a n = ((o.pieces e k 0 me (1 - me)).filter (fun p => within p.1 p.2 a n)).foldl (fun t p =>
      t.exPost e 0 me (1 - me) (exHeader o.tag o.xseq me (1 - me) 2 0 k p.1 p.2 o.opc.toNat) ((bs.drop (p.1 - base)).take p.2)) s := by
    unfold State.exSend
    dsimp only
    rw [hsize, hothers]
    rfl
  rw [hsend]
  exact exPosts_die hdies (by omega) me (fun p => exHeader o.tag o.xseq me (1 - me) 2 0 k p.1 p.2 o.opc.toNat)
    (fun p => (bs.drop (p.1 - base)).take p.2) _ s

/-- Over the link alone nothing keeps an operation from its stage (R335, R337, R345), but for four segments open before it. -/
theorem exEnter_die {s : State} {o : ExOp} {e k : Nat} (hearly : s.net.early = [])
    (hfew : s.net.ops.countP (fun x => x.segOpen && decide (x.job = o.job) && decide (x.die = o.die)) < 4) :
    s.exEnter o e k 0 =
      ((s.setOp { o.hasSent e 0 with segOpen := decide (k = 1) }).exSend o e k 0 (o.vecBase e k 0) o.vec 0 (2 ^ 64), true) := by
  have hcheck : s.exCheck o e 0 = none := by
    unfold State.exCheck
    rw [hearly]
    rfl
  unfold State.exEnter
  rw [hcheck]
  dsimp only
  rw [if_neg fun h => absurd h.2.2 (Nat.not_le.2 hfew)]

/-- The other die's instruction of an operation does not count twice against its segments. -/
theorem countP_setOp {s : State} {o o' : ExOp} (hone : ∀ x ∈ s.net.ops, x.isOf o'.job o'.core.val o'.ord = true → x = o)
    (hsame : o'.segOpen = o.segOpen ∧ o'.job = o.job ∧ o'.die = o.die) (j : JobId) (d : Nat) :
    (s.setOp o').net.ops.countP (fun x => x.segOpen && decide (x.job = j) && decide (x.die = d)) =
      s.net.ops.countP (fun x => x.segOpen && decide (x.job = j) && decide (x.die = d)) := by
  show (s.net.ops.map fun x => if x.same o' then o' else x).countP _ = _
  rw [List.countP_map]
  refine List.countP_congr fun x hx => ?_
  obtain ⟨hseg, hjob, hdie⟩ := hsame
  show ((if x.same o' then o' else x).segOpen && decide ((if x.same o' then o' else x).job = j) &&
    decide ((if x.same o' then o' else x).die = d)) = true ↔ _
  split
  · next h => rw [hone x hx h, hseg, hjob, hdie]
  · rfl

/-- A MOVE.AR over two dies begins with its whole vector and puts its first stage's pieces in the other die's queue. -/
theorem exBegin_twoDies {s : State} {job : Job} {c : Nat} {ord : Word} {o : ExOp} {e : Nat} (vec : List Byte)
    (ho : s.opOf job.id c ord = some o) (he : s.routeEntry o.group = e) (hone : ∀ x ∈ s.net.ops, x.isOf job.id c ord = true → x = o)
    (hdies : rtDies e = 3) (hsize : rtSize e 0 = 2) (hrest : ∀ l, 1 ≤ l → l ≤ o.level → rtSize e l ≤ 1) (hd : o.die < 2)
    (hearly : s.net.early = []) (hfew : s.net.ops.countP (fun y => y.segOpen && decide (y.job = o.job) && decide (y.die = o.die)) < 4)
    (hopc : o.opc = 0x25) :
    let t := s.exBegin job.id c ord vec
    let me := rtRank e 0 o.die
    t.ms = s.ms ∧
    (∃ o', t.opOf job.id c ord = some o' ∧ o'.begun = true ∧ o'.vec = vec ∧ o'.stage = 0 ∧ o'.segOpen = true) ∧
    mget [] t.net.dieIn (1 - me) = mget [] s.net.dieIn (1 - me) ++
      ((o.pieces e 1 0 me (1 - me)).filter (fun p => within p.1 p.2 0 (2 ^ 64))).flatMap (fun p =>
        BitVec.ofNat 2048 (exHeader o.tag o.xseq me (1 - me) 2 0 1 p.1 p.2 0x25) :: flitsOf ((vec.drop p.1).take p.2)) := by
  intro t me
  obtain ⟨hc, hord, hjob⟩ := opOf_spec ho
  have hstages : opStages (o.starts e vec) e = [(1, 0), (2, 0)] := opStages_twoDies hsize hrest hopc
  have hone' : ∀ x ∈ s.net.ops, x.isOf (o.starts e vec).job (o.starts e vec).core.val (o.starts e vec).ord = true → x = o := by
    intro x hx h
    exact hone x hx (by rwa [show (o.starts e vec).job = job.id from hjob, show (o.starts e vec).core.val = c from hc,
      show (o.starts e vec).ord = ord from hord] at h)
  have hfew' : (s.setOp (o.starts e vec)).net.ops.countP (fun y => y.segOpen && decide (y.job = (o.starts e vec).job) &&
      decide (y.die = (o.starts e vec).die)) < 4 :=
    (countP_setOp hone' ⟨rfl, rfl, rfl⟩ (o.starts e vec).job (o.starts e vec).die).trans_lt hfew
  have henter := exEnter_die (s := s.setOp (o.starts e vec)) (o := o.starts e vec) (e := e) (k := 1) hearly hfew'
  have hbegin : t = ((s.setOp (o.starts e vec)).exEnter (o.starts e vec) e 1 0).1 := by
    have he' : (s.setOp (o.starts e vec)).routeEntry (o.starts e vec).group = e := he
    have hgo : State.exGo 16 true (s.setOp (o.starts e vec)) (o.starts e vec) =
        ((s.setOp (o.starts e vec)).exEnter (o.starts e vec) e 1 0).1 := by
      unfold State.exGo
      dsimp only
      rw [he', hstages]
      exact if_pos (Bool.or_eq_true_iff.2 (.inr (decide_eq_true rfl)))
    show s.exBegin job.id c ord vec = _
    unfold State.exBegin
    rw [ho]
    dsimp only
    rw [he]
    exact hgo
  obtain ⟨o', ho'⟩ : ∃ o', o' = { (o.starts e vec).hasSent e 0 with segOpen := decide (1 = 1) } := ⟨_, rfl⟩
  rw [← ho'] at henter
  have ht : t = ((s.setOp (o.starts e vec)).setOp o').exSend (o.starts e vec) e 1 0 ((o.starts e vec).vecBase e 1 0) vec 0 (2 ^ 64) :=
    hbegin.trans (congrArg Prod.fst henter)
  have htraffic : OnlyTraffic ((s.setOp (o.starts e vec)).setOp o') t := ht ▸ onlyTraffic_exSend ..
  have hid : o.isOf job.id c ord = true := by rw [← hjob, ← hc, ← hord]; exact isOf_self o
  have hset : (s.setOp (o.starts e vec)).opOf job.id c ord = some (o.starts e vec) := opOf_setOp ho hid ⟨hjob, hc, hord⟩
  have hop : t.opOf job.id c ord = some o' := (opOf_of_ops (congrArg (fun u : State => u.net.ops) htraffic :) _ _ _).trans
    (opOf_setOp hset (ho' ▸ hid) (ho' ▸ ⟨hjob, hc, hord⟩))
  refine ⟨(congrArg State.ms htraffic :), ⟨o', hop, ho' ▸ rfl, ho' ▸ rfl, ho' ▸ rfl, ho' ▸ rfl⟩, ?_⟩
  have hsent := exSend_twoDies (o := o.starts e vec) hdies hsize hd ((s.setOp (o.starts e vec)).setOp o') 1 ((o.starts e vec).vecBase e 1 0)
    vec 0 (2 ^ 64)
  dsimp only at hsent
  rw [← ht] at hsent
  refine hsent.trans ?_
  rw [show (o.starts e vec).opc = 0x25 from hopc]
  rfl

/-! ## Retirement -/

/-- An exchange instruction has no tab of its own. -/
theorem ownTab_of_exch {x : Core} {e : QEntry} {f : Fam} (hf : e.fam = some f) (hx : f.isExch = true) : x.ownTab e = none := by
  unfold Core.ownTab
  rw [hf, if_neg]
  intro h
  cases h
  cases hx

theorem retireOp_spec (n : Net) (tag : Word) (xseq : Half) : (n.retireOp tag xseq).ops = n.ops ∧
    (n.retireOp tag xseq).operations = n.operations + 1 := by
  unfold Net.retireOp
  dsimp only
  split
  · exact ⟨rfl, rfl⟩
  split <;> exact ⟨rfl, rfl⟩

/-- An operation that retires is gone, and counts where no other instruction of it is left (R340, log 194). -/
theorem opRetire_spec (s : State) (o : ExOp) : (s.opRetire o).opOf o.job o.core.val o.ord = none ∧ (s.opRetire o).ms = s.ms ∧
    (s.opRetire o).cores = s.cores ∧
    (s.opRetire o).net.operations = (if s.net.ops.any (fun y => !y.isOf o.job o.core.val o.ord && decide (y.tag = o.tag) &&
      decide (y.xseq = o.xseq)) then s.net.operations else s.net.operations + 1) := by
  have hany : (s.net.ops.filter (fun x => !x.isOf o.job o.core.val o.ord)).any (fun x => decide (x.tag = o.tag) && decide (x.xseq = o.xseq)) =
      s.net.ops.any (fun y => !y.isOf o.job o.core.val o.ord && decide (y.tag = o.tag) && decide (y.xseq = o.xseq)) := by
    rw [List.any_filter]
    congr 1
    funext y
    exact (Bool.and_assoc ..).symm
  have hnet : (s.opRetire o).net.ops = s.net.ops.filter (fun x => !x.isOf o.job o.core.val o.ord) ∧
      (s.opRetire o).net.operations = (if s.net.ops.any (fun y => !y.isOf o.job o.core.val o.ord && decide (y.tag = o.tag) &&
        decide (y.xseq = o.xseq)) then s.net.operations else s.net.operations + 1) := by
    unfold State.opRetire State.withNet
    dsimp only
    rw [hany]
    split
    · exact ⟨rfl, rfl⟩
    · exact retireOp_spec ..
  refine ⟨List.find?_eq_none.2 fun x hx => ?_, rfl, rfl, hnet.2⟩
  rw [hnet.1] at hx
  simpa using (List.mem_filter.1 hx).2

/-- The queue of core c, the network and stacked memory are as before. -/
def KeepsQueued (c : Nat) (s t : State) : Prop := (t.core c).queue = (s.core c).queue ∧ t.net = s.net ∧ t.ms = s.ms

theorem KeepsQueued.trans {c : Nat} {s t u : State} (h : KeepsQueued c s t) (h' : KeepsQueued c t u) : KeepsQueued c s u :=
  ⟨h'.1.trans h.1, h'.2.1.trans h.2.1, h'.2.2.trans h.2.2⟩

theorem keepsQueued_recordStatus (s : State) (c : Nat) (ord : Word) (istat : Byte) : KeepsQueued c s (s.recordStatus c ord istat) := by
  have hbump (t : State) (k i n : Nat) : KeepsQueued c t (t.bumpCluster k i n) := ⟨rfl, rfl, rfl⟩
  have hcount : KeepsQueued c s (if istat = iSkipped then s.bumpCluster (clusterOf c) 26 1
      else if istat = iNoVacancy then s.bumpCluster (clusterOf c) 24 1
      else if istat = iTierError then s.bumpCluster (clusterOf c) 25 1 else s) := by
    split
    · exact hbump ..
    split
    · exact hbump ..
    split
    · exact hbump ..
    · exact ⟨rfl, rfl, rfl⟩
  exact hcount.trans ⟨rfl, rfl, rfl⟩

/-- What an instruction without a claim makes visible, where its status ends no stream, leaves the queue. -/
theorem keepsQueued_effects (s : State) (c : Nat) (job : Job) {e : QEntry} {i : Byte} (hclaim : e.claim = none) (hfam : e.fam ≠ some .reuseChk)
    (hend : endCodeOf i = none) : KeepsQueued c s ((e.effects i).foldl (fun t h => t.makeEffect c job h) s) := by
  have heffects : e.effects i = (if i = iOk then [] else [.status e.ord i]) ++ (headerPost e.d i).toList.map Held.post := by
    simp only [QEntry.effects, hclaim, hfam, false_and, if_false, List.append_nil]
  rw [heffects]
  refine List.foldlRecOn (motive := fun t => KeepsQueued c s t) _ _ ⟨rfl, rfl, rfl⟩ fun t ht h hmem => ht.trans ?_
  rcases List.mem_append.mp hmem with hstatus | hpost
  · split at hstatus
    · cases hstatus
    · rw [List.mem_singleton.mp hstatus]
      simp only [State.makeEffect, hend]
      exact keepsQueued_recordStatus t c e.ord i
  · obtain ⟨p, -, rfl⟩ := List.mem_map.mp hpost
    exact ⟨(congrArg Core.queue (core_modCore_self t c fun x => { x with posts := x.posts ++ [p] }) :), rfl, rfl⟩

/-- The entry that is done at the front leaves the queue. -/
theorem retireEntry_spec (s : State) (c : Nat) (job : Job) {e : QEntry} {i : Byte} (hclaim : e.claim = none) (hclaimed : e.claimed = false)
    (hfam : e.fam ≠ some .reuseChk) (hend : endCodeOf i = none) :
    ((s.retireEntry c job e i).core c).queue = (s.core c).queue.filter (fun q => decide (q.ord ≠ e.ord)) ∧
    (s.retireEntry c job e i).net = s.net ∧ (s.retireEntry c job e i).ms = s.ms := by
  obtain ⟨hqueue, hnet, hms⟩ := keepsQueued_effects s c job hclaim hfam hend
  unfold State.retireEntry
  dsimp only
  generalize (e.effects i).foldl (fun t h => t.makeEffect c job h) s = t at hqueue hnet hms
  obtain ⟨hms', -, hnet', -⟩ := (sampleDone_only (t.modCore c fun x =>
    ({ x with queue := x.queue.filter (fun q => decide (q.ord ≠ e.ord)) }.closeClaim e).purge) (clusterOf c) (c, e.ord.toNat)).1
  refine ⟨?_, hnet'.trans hnet, hms'.trans hms⟩
  rw [core_sampleDone, core_modCore_self, Core.closeClaim, hclaimed, Bool.false_and, if_neg Bool.false_ne_true, ← hqueue]
  rfl

/-- Retirement of an exchange instruction that is done at the front of its queue (R73, R340). -/
theorem tileRetire_exch {s : State} {c : Nat} {job : Job} {e : QEntry} {o : ExOp} {rest : List QEntry} {i : Byte} {f : Fam}
    (hjob : s.coreJob c = some job) (ho : s.opOf job.id c e.ord = some o) (hqueue : (s.core c).queue = e :: rest) (hdone : e.phase = .done i)
    (htab : e.tab = none) (hf : e.fam = some f) (hx : f.isExch = true) (hrelay : f ≠ .attnRelay) (hsent : s.stillSending e = false) :
    s.tileRetire c = (s.opRetire o).retireEntry c job e i := by
  have hisDone : e.isDone = true := by rw [QEntry.isDone, hdone]
  have hfront : (s.core c).retirable (s.core c).queue = some e := by
    rw [hqueue, Core.retirable, if_pos hisDone]
  have hchk : ¬ (e.fam = some .reuseChk ∧ i = iOk) := by
    rintro ⟨h, -⟩
    rw [hf] at h
    cases h
    cases hx
  have hwork : s.retireWork c job e i = (s.opRetire o, i) := by
    have hretire : s.exchRetire c job e = s.opRetire o := by
      have hfind : s.net.ops.find? (fun o => o.isOf job.id c e.ord) = some o := ho
      unfold State.exchRetire
      rw [hf]
      dsimp only
      rw [hx, if_neg (by decide), if_neg hrelay, hfind]
    have htbl : e.fam ≠ some .tblLoad := by
      rintro h
      rw [hf] at h
      cases h
      cases hx
    have hscat : e.fam ≠ some .scatKv := by
      rintro h
      rw [hf] at h
      cases h
      cases hx
    unfold State.retireWork
    dsimp only
    rw [if_neg htbl, if_neg hscat, hretire]
  unfold State.tileRetire
  rw [hjob]
  dsimp only
  rw [hfront]
  dsimp only
  rw [hsent, if_neg Bool.false_ne_true, hdone]
  dsimp only
  rw [ownTab_of_exch hf hx]
  dsimp only
  rw [if_neg hchk]
  dsimp only
  rw [htab]
  dsimp only
  rw [hwork]

theorem tileRetire_waits {s : State} {c : Nat} {job : Job} {e : QEntry} {rest : List QEntry} {i : Byte}
    (hjob : s.coreJob c = some job) (hqueue : (s.core c).queue = e :: rest) (hdone : e.phase = .done i) (hsending : s.stillSending e = true) :
    s.tileRetire c = s := by
  have hisDone : e.isDone = true := by rw [QEntry.isDone, hdone]
  have hfront : (s.core c).retirable (s.core c).queue = some e := by
    rw [hqueue, Core.retirable, if_pos hisDone]
  unfold State.tileRetire
  rw [hjob]
  dsimp only
  rw [hfront]
  exact if_pos hsending

/-- Settles O27: an operation without stages ends at once with its rows stored, one over two dies sends its first stage, and one that is
done retires once its messages have passed on. -/
theorem exchangeInstructions : Obligations.ExchangeInstructions := by
  unfold Obligations.ExchangeInstructions
  intro c s job e o x r ho hgroup he hsame hone finished
  have hroute : s.routeEntry o.group = r := congrArg s.routeEntry hgroup
  refine ⟨fun hsingle => ⟨fun hrun => ?_, fun hrun u hok => ?_, fun v data u hrun hread hok => ?_, fun v data u hrun hread hok => ?_⟩,
    fun v data hdies hsize hrest hd hbegun hearly hfew hopc hrun hread => ?_,
    fun rest i f hjob hqueue hother hdone htab hclaim hclaimed hf hx hrelay hend => ⟨fun hsending => ?_, fun hsent => ?_⟩⟩
  · obtain ⟨hdone, hms, hacc, hstore⟩ := mmaRs_single ho he hrun (hroute ▸ hsingle)
    refine ⟨_, rfl, hdone, hms, hacc, hstore, fun a hout hw => ?_, fun a hw => ?_⟩
    · rw [hstore]
      refine read_foldl_writeBytes_out (fun ⟨p, hp, hr⟩ => ?_) _
      rcases List.mem_append.1 hp with h | h
      · exact hw ⟨p, h, hr⟩
      · exact hout ⟨p, h, hr⟩
    · rw [hacc]
      exact read_foldl_writeLE_out hw _
  · obtain ⟨hdone, hmem, hstore, hacc⟩ := mmaAg_single ho he hrun (hroute ▸ hsingle) (hroute ▸ hok)
    exact ⟨_, rfl, hdone, hmem, hstore, hacc⟩
  · obtain ⟨hdone, hmem, hstore⟩ := move_single ho he hrun (hroute ▸ hsingle) (by decide) hread (hroute ▸ hok)
    exact ⟨_, rfl, hdone, hmem, hstore⟩
  · obtain ⟨hdone, hmem, hstore⟩ := move_single ho he hrun (hroute ▸ hsingle) (by decide) hread hok
    exact ⟨_, rfl, hdone, hmem, hstore⟩
  · obtain ⟨hcores, hnet, hmem, hroutes, -⟩ := keepsExchange_readRows hread
    obtain ⟨hms, hop, hdie⟩ := exBegin_twoDies (s := v) (job := job) (c := c) (ord := e.ord) (o := o) (e := r) (data.flatMap Prod.snd)
      ((opOf_of_ops (congrArg Net.ops hnet) _ _ _).trans ho) ((hroutes _).trans hroute) (by rw [hnet]; exact hone) hdies hsize hrest hd
      (by rw [hnet]; exact hearly) (by rw [hnet]; exact hfew) hopc
    have hexec : exec (.moveAr c) s = .next (v.exBegin job.id c e.ord (data.flatMap Prod.snd)) :=
      congrArg Host.Outcome.next (runMoveX_of_read hrun hread)
    rw [hnet] at hdie
    exact ⟨_, hexec, hms, (congrArg MemSys.mem hms :).trans hmem, hop, hdie⟩
  · exact congrArg Host.Outcome.next (tileRetire_waits hjob hqueue hdone hsending)
  · have hretire := tileRetire_exch hjob ho hqueue hdone htab hf hx hrelay hsent
    have hchk : e.fam ≠ some .reuseChk := by
      rintro h
      rw [hf] at h
      cases h
      cases hx
    obtain ⟨hleft, hnet, hms⟩ := retireEntry_spec (s.opRetire o) c job hclaim hclaimed hchk hend
    obtain ⟨hnone, hms', hcores, hcount⟩ := opRetire_spec s o
    obtain ⟨hc, hord, hid⟩ := opOf_spec ho
    rw [hc, hord, hid] at hnone hcount
    refine ⟨_, congrArg Host.Outcome.next hretire, ?_, (congrArg Net.operations hnet).trans hcount,
      (opOf_of_ops (congrArg Net.ops hnet) _ _ _).trans hnone, hms.trans hms'⟩
    rw [hleft, core_of_cores hcores, hqueue, List.filter_cons_of_neg (by simp)]
    exact List.filter_eq_self.2 fun q hq => decide_eq_true (hother q hq)

end Sys2Proof.Machine

/-! PROOFS. What no command but ROLLBACK_COMMIT alters (R439, R463), and that every memory keeps its canonical form: the parts of the state
that show it, and what its primitive operations leave of them. -/

namespace Sys2Proof.Machine

/-! ## Sparse maps -/

theorem all_mset {α : Type} {P : α → Bool} {m : AMap α} {v : α} (i : Nat) (h : m.all (fun c => P c.2) = true) (hv : P v = true) :
    (mset m i v).all (fun c => P c.2) = true := by
  induction m with
  | nil => simpa [mset] using hv
  | cons p m ih =>
    obtain ⟨k, w⟩ := p
    simp only [List.all_cons, Bool.and_eq_true] at h
    unfold mset
    split
    · simp [hv, h.2]
    split
    · simp [hv, h.1, h.2]
    · simp [h.1, ih h.2]

theorem all_mget {α : Type} {P : α → Bool} {d : α} {m : AMap α} (i : Nat) (h : m.all (fun c => P c.2) = true) (hd : P d = true) :
    P (mget d m i) = true := by
  induction m with
  | nil => exact hd
  | cons p m ih =>
    obtain ⟨k, w⟩ := p
    simp only [List.all_cons, Bool.and_eq_true] at h
    unfold mget
    split
    · exact h.1
    · exact ih h.2

theorem all_mmod {α : Type} {P : α → Bool} {d : α} {m : AMap α} {f : α → α} (i : Nat) (h : m.all (fun c => P c.2) = true) (hd : P d = true)
    (hf : ∀ v, P v = true → P (f v) = true) : (mmod d m i f).all (fun c => P c.2) = true :=
  all_mset i h (hf _ (all_mget i h hd))

/-! ## Units -/

def Core.memWf (x : Core) : Bool := x.store.wf && x.acc.wf
def Cluster.memWf (c : Cluster) : Bool := c.scache.wf && c.seq.loc.wf
def SavedCluster.memWf (v : SavedCluster) : Bool := v.seq.loc.wf && v.cores.all Core.memWf
def Job.memWf (j : Job) : Bool := j.saved.all SavedCluster.memWf

/-- The memories of a state, by unit. -/
structure State.MemWf (s : State) : Prop where
  mem : s.ms.mem.wf = true
  clusters : s.clusters.all (fun c => c.2.memWf) = true
  cores : s.cores.all (fun c => c.2.memWf) = true
  jobs : s.hub.jobs.all Job.memWf = true
  slots : s.car.slots.all (fun x => x.2.stream.wf) = true
  banks : s.boot.banks.all (fun b => b.2.bytes.wf) = true
  area : s.por.reqArea.wf = true
  table : s.hub.msixTable.wf = true
  regs : s.hub.cxlRegs.wf = true

theorem memWf_iff (s : State) : s.memoriesWf = true ↔ s.MemWf := by
  unfold State.memoriesWf
  simp only [Bool.and_eq_true]
  constructor
  · rintro ⟨⟨⟨⟨⟨⟨⟨⟨h1, h2⟩, h3⟩, h4⟩, h5⟩, h6⟩, h7⟩, h8⟩, h9⟩
    exact ⟨h1, h2, h3, h4, h5, h6, h7, h8, h9⟩
  · rintro ⟨h1, h2, h3, h4, h5, h6, h7, h8, h9⟩
    exact ⟨⟨⟨⟨⟨⟨⟨⟨h1, h2⟩, h3⟩, h4⟩, h5⟩, h6⟩, h7⟩, h8⟩, h9⟩

/-- The factory ledger, the fuse counter and the waiting commands are as before, and the memories stay in canonical form. -/
structure Kept (s t : State) : Prop where
  factory : t.por.factory = s.por.factory
  fused : t.por.fusedSvn = s.por.fusedSvn
  pending : t.pending = s.pending
  wf : s.MemWf → t.MemWf

theorem Kept.refl (s : State) : Kept s s := ⟨rfl, rfl, rfl, id⟩

/-- What Kept looks at. -/
def State.keptPart (s : State) : Mem × AMap Cluster × AMap Core × List Job × AMap Slot × AMap FwBank × Mem × Mem × Mem × Option LedgerImage × Nat × List Instr :=
  (s.ms.mem, s.clusters, s.cores, s.hub.jobs, s.car.slots, s.boot.banks, s.por.reqArea, s.hub.msixTable, s.hub.cxlRegs, s.por.factory,
    s.por.fusedSvn, s.pending)

namespace Kept
variable {s t : State} (h : Kept s t)
include h

theorem trans {u : State} (h' : Kept t u) : Kept s u :=
  ⟨h'.factory.trans h.factory, h'.fused.trans h.fused, h'.pending.trans h.pending, fun hs => h'.wf (h.wf hs)⟩

/-- A step that leaves all of it. -/
theorem same {u : State} (e : u.keptPart = t.keptPart) : Kept s u := by
  simp only [State.keptPart, Prod.mk.injEq] at e
  obtain ⟨e1, e2, e3, e4, e5, e6, e7, e8, e9, e10, e11, e12⟩ := e
  refine ⟨e10.trans h.factory, e11.trans h.fused, e12.trans h.pending, fun hs => ?_⟩
  obtain ⟨h1, h2, h3, h4, h5, h6, h7, h8, h9⟩ := h.wf hs
  exact ⟨e1 ▸ h1, e2 ▸ h2, e3 ▸ h3, e4 ▸ h4, e5 ▸ h5, e6 ▸ h6, e7 ▸ h7, e8 ▸ h8, e9 ▸ h9⟩

theorem foldl {α : Type} {f : State → α → State} (l : List α) (hf : ∀ u a, Kept s u → Kept s (f u a)) : Kept s (l.foldl f t) :=
  l.foldlRecOn f h fun u hu a _ => hf u a hu

omit h in
theorem ite {u v : State} {p : Prop} [Decidable p] (hu : Kept s u) (hv : Kept s v) : Kept s (if p then u else v) := by
  split
  · exact hu
  · exact hv

theorem setMem {m : Mem} (hm : t.ms.mem.wf = true → m.wf = true) : Kept s (t.setMem m) :=
  ⟨h.factory, h.fused, h.pending, fun hs => { h.wf hs with mem := hm (h.wf hs).mem }⟩

theorem modCluster (k : Nat) {f : Cluster → Cluster} (hf : ∀ c, c.memWf = true → (f c).memWf = true) : Kept s (t.modCluster k f) :=
  ⟨h.factory, h.fused, h.pending, fun hs =>
    { h.wf hs with clusters := all_mset k (h.wf hs).clusters (hf _ (all_mget k (h.wf hs).clusters (by decide))) }⟩

theorem modCore (c : Nat) {f : Core → Core} (hf : ∀ x, x.memWf = true → (f x).memWf = true) : Kept s (t.modCore c f) :=
  ⟨h.factory, h.fused, h.pending, fun hs =>
    { h.wf hs with cores := all_mset c (h.wf hs).cores (hf _ (all_mget c (h.wf hs).cores (by decide))) }⟩

theorem modJobs {f : Job → Job} (hf : ∀ j, j.memWf = true → (f j).memWf = true) :
    Kept s (t.withHub fun x => { x with jobs := x.jobs.map f }) :=
  ⟨h.factory, h.fused, h.pending, fun hs => { h.wf hs with
    jobs := List.all_eq_true.2 fun j hj => by
      obtain ⟨i, hi, rfl⟩ := List.mem_map.1 hj
      exact hf i (List.all_eq_true.1 (h.wf hs).jobs i hi) }⟩

theorem modJob (id : JobId) {f : Job → Job} (hf : ∀ j, j.memWf = true → (f j).memWf = true) : Kept s (t.modJob id f) :=
  h.modJobs (f := fun j => if j.id = id then f j else j) fun j hj => by
    split
    · exact hf j hj
    · exact hj

theorem dropJob (id : JobId) : Kept s (t.dropJob id) :=
  ⟨h.factory, h.fused, h.pending, fun hs => { h.wf hs with
    jobs := List.all_eq_true.2 fun j hj => List.all_eq_true.1 (h.wf hs).jobs j (List.mem_filter.1 hj).1 }⟩

theorem modSlot (i : Nat) {f : Slot → Slot} (hf : ∀ x, x.stream.wf = true → (f x).stream.wf = true) : Kept s (t.modSlot i f) :=
  ⟨h.factory, h.fused, h.pending, fun hs =>
    { h.wf hs with slots := all_mmod i (h.wf hs).slots (by decide) hf }⟩

end Kept

end Sys2Proof.Machine

/-! PROOFS. What the release of a job and the steps of a fault sweep leave: the jobs' names, the sweep's record, the fences of the cores, and
what the surroundings drive (R24, R367, R376, R377). -/

namespace Sys2Proof.Machine

/-- What a release leaves of a job. -/
def Job.name (j : Job) : JobId × Nat := (j.id, j.pair)

/-- Every job of that name has ended. -/
def State.hasEnded (s : State) (id : JobId) : Prop := ∀ j ∈ s.hub.jobs, j.id = id → j.phase = .ended

/-- The sweep's record as the hub holds it. -/
def State.sweepRecord (s : State) : Bool × Bool × Option JobId × Byte × FaultRec × Quad :=
  (s.hub.sweeping, s.hub.swept, s.hub.sweepJob, s.hub.sweepCause, s.hub.lastFault, s.hub.sweeps)

/-- What of the power and reset state says how the host's link stands. -/
def State.hostLink (s : State) : Bool × Bool × Quad := (s.boot.cxlUp, s.boot.perst, s.boot.stops)

/-- The jobs on the module stay with their pairs, those that have ended have ended, what has left the module has left it, and a sweep under way keeps its record;
so do the host's link, the fences of the cores and an empty snoop filter. -/
structure SweepKeeps (s t : State) : Prop extends Kept s t where
  flr : t.hub.flrPending = s.hub.flrPending
  names : t.hub.jobs.map Job.name = s.hub.jobs.map Job.name
  ended : ∀ id, s.hasEnded id → t.hasEnded id
  out : ∃ new, t.out = new ++ s.out
  cause : s.hub.sweeping = true → t.sweepRecord = s.sweepRecord
  link : t.hostLink = s.hostLink
  fence : ∀ k, (t.cluster k).coreFence = (s.cluster k).coreFence
  snoop : s.ms.snoop = [] → t.ms.snoop = []

theorem sweeping_of_record {s t : State} (h : t.sweepRecord = s.sweepRecord) : t.hub.sweeping = s.hub.sweeping := (congrArg Prod.fst h :)

theorem SweepKeeps.refl (s : State) : SweepKeeps s s := ⟨.refl s, rfl, rfl, fun _ => id, ⟨[], rfl⟩, fun _ => rfl, rfl, fun _ => rfl, id⟩

theorem SweepKeeps.trans {s t u : State} (h : SweepKeeps s t) (h' : SweepKeeps t u) : SweepKeeps s u := by
  obtain ⟨new, hnew⟩ := h.out
  obtain ⟨new', hnew'⟩ := h'.out
  exact ⟨h.toKept.trans h'.toKept, h'.flr.trans h.flr, h'.names.trans h.names, fun id hs => h'.ended id (h.ended id hs), ⟨new' ++ new, by rw [hnew', hnew, List.append_assoc]⟩,
    fun hs => (h'.cause ((sweeping_of_record (h.cause hs)).trans hs)).trans (h.cause hs), h'.link.trans h.link,
    fun k => (h'.fence k).trans (h.fence k), fun hs => h'.snoop (h.snoop hs)⟩

/-- What SweepKeeps looks at beside the memories. -/
def State.sweepPart (s : State) : (Bool × Bool × Quad) × Bool × List OutMsg × List Nat × (Bool × Bool × Option JobId × Byte × FaultRec × Quad) :=
  (s.hostLink, s.hub.flrPending, s.out, s.ms.snoop, s.sweepRecord)

namespace SweepKeeps
variable {s t : State} (h : SweepKeeps s t)
include h

/-- A step that leaves all of it. -/
theorem same {u : State} (e : u.keptPart = t.keptPart) (e' : u.sweepPart = t.sweepPart) : SweepKeeps s u := by
  have hkept := h.toKept.same e
  simp only [State.keptPart, State.sweepPart, Prod.mk.injEq] at e e'
  obtain ⟨-, hclusters, -, hjobs, -⟩ := e
  obtain ⟨hlink, hflr, hout, hsnoop, hrecord⟩ := e'
  exact ⟨hkept, hflr.trans h.flr, hjobs ▸ h.names, fun id hs => by unfold State.hasEnded; exact hjobs ▸ h.ended id hs, hout ▸ h.out, fun hs => hrecord.trans (h.cause hs), hlink.trans h.link,
    fun k => (congrArg Cluster.coreFence (cluster_of_clusters hclusters k)).trans (h.fence k), fun hs => hsnoop.trans (h.snoop hs)⟩

theorem foldl {α : Type} {f : State → α → State} (l : List α) (hf : ∀ u a, SweepKeeps s u → SweepKeeps s (f u a)) : SweepKeeps s (l.foldl f t) :=
  l.foldlRecOn f h fun u hu a _ => hf u a hu

omit h in
theorem ite {u v : State} {p : Prop} [Decidable p] (hu : SweepKeeps s u) (hv : SweepKeeps s v) : SweepKeeps s (if p then u else v) := by
  split
  · exact hu
  · exact hv

/-! ## Primitive operations -/

theorem emit (m : OutMsg) : SweepKeeps s (t.emit m) := by
  obtain ⟨new, hnew⟩ := h.out
  exact ⟨h.toKept.same rfl, h.flr, h.names, h.ended, ⟨m :: new, congrArg (m :: ·) hnew⟩, h.cause, h.link, h.fence, h.snoop⟩

theorem setMem {m : Mem} (hm : t.ms.mem.wf = true → m.wf = true) : SweepKeeps s (t.setMem m) :=
  ⟨h.toKept.setMem hm, h.flr, h.names, h.ended, h.out, h.cause, h.link, h.fence, h.snoop⟩

theorem modCluster (k : Nat) {f : Cluster → Cluster} (hf : ∀ c, c.memWf = true → (f c).memWf = true)
    (hfence : ∀ c, (f c).coreFence = c.coreFence := by exact fun _ => rfl) : SweepKeeps s (t.modCluster k f) := by
  refine ⟨h.toKept.modCluster k hf, h.flr, h.names, h.ended, h.out, h.cause, h.link, fun j => Eq.trans ?_ (h.fence j), h.snoop⟩
  rw [cluster_modCluster]
  split
  · next hj => rw [hfence, hj]
  · rfl

theorem modCore (c : Nat) {f : Core → Core} (hf : ∀ x, x.memWf = true → (f x).memWf = true) : SweepKeeps s (t.modCore c f) :=
  ⟨h.toKept.modCore c hf, h.flr, h.names, h.ended, h.out, h.cause, h.link, h.fence, h.snoop⟩

theorem modJob (id : JobId) {f : Job → Job} (hf : ∀ j, j.memWf = true → (f j).memWf = true)
    (hname : ∀ j, (f j).name = j.name := by exact fun _ => rfl) (hended : ∀ j, j.phase = .ended → (f j).phase = .ended := by exact fun _ hj => hj) :
    SweepKeeps s (t.modJob id f) := by
  have hid (j : Job) : (if j.id = id then f j else j).name = j.name := by
    split
    · exact hname j
    · rfl
  refine ⟨h.toKept.modJob id hf, h.flr, Eq.trans ?_ h.names, fun i hs => ?_, h.out, h.cause, h.link, h.fence, h.snoop⟩
  · show (t.hub.jobs.map _).map Job.name = _
    rw [List.map_map]
    exact List.map_congr_left fun j _ => hid j
  · intro j hj hji
    obtain ⟨x, hx, rfl⟩ := List.mem_map.1 hj
    have hxi : x.id = i := (congrArg Prod.fst (hid x) :).symm.trans hji
    split
    · exact hended x (h.ended i hs x hx hxi)
    · exact h.ended i hs x hx hxi

theorem modSlot (i : Nat) {f : Slot → Slot} (hf : ∀ x, x.stream.wf = true → (f x).stream.wf = true) : SweepKeeps s (t.modSlot i f) :=
  ⟨h.toKept.modSlot i hf, h.flr, h.names, h.ended, h.out, h.cause, h.link, h.fence, h.snoop⟩

theorem modStack (m : Nat) (f : Stack → Stack) : SweepKeeps s (t.modStack m f) := h.same rfl rfl
theorem logEvent (event code unit : Nat) (d : BitVec 128) : SweepKeeps s (t.logEvent event code unit d) := h.same rfl rfl
theorem logNote (code unit : Nat) (d : BitVec 128) : SweepKeeps s (t.logNote code unit d) := h.same rfl rfl
theorem bumpBw (i n : Nat) : SweepKeeps s (t.bumpBw i n) := h.same rfl rfl
theorem withNet (f : Net → Net) : SweepKeeps s (t.withNet f) := h.same rfl rfl
theorem modPort (p : Nat) (f : Port → Port) : SweepKeeps s (t.modPort p f) := h.same rfl rfl
theorem modGroup (g : Nat) (f : Group → Group) : SweepKeeps s (t.modGroup g f) := h.same rfl rfl
theorem modRing (r : Nat) (f : Ring → Ring) : SweepKeeps s (t.modRing r f) := h.same rfl rfl
theorem modPair (n : Nat) (f : Pair → Pair) : SweepKeeps s (t.modPair n f) := h.same rfl rfl
theorem modVac (p m : Nat) (f : Vacancy → Vacancy) : SweepKeeps s (t.modVac p m f) := h.same rfl rfl
theorem setStreamRec (i : Nat) (v : Stream) : SweepKeeps s (t.setStreamRec i v) := h.same rfl rfl
theorem setAdapterRefs (i n : Nat) : SweepKeeps s (t.setAdapterRefs i n) := h.same rfl rfl
theorem unpark (i : Nat) : SweepKeeps s (t.unpark i) := h.same rfl rfl
theorem draw : SweepKeeps s t.draw.2 := h.same rfl rfl
theorem dropHeldCtrl (f : Word → Bool) : SweepKeeps s (t.dropHeldCtrl f) := h.same rfl rfl

theorem withMs (f : MemSys → MemSys) (hf : ∀ m, (f m).mem = m.mem ∧ (f m).snoop = m.snoop := by exact fun _ => ⟨rfl, rfl⟩) :
    SweepKeeps s (t.withMs f) := by
  obtain ⟨hmem, hsnoop⟩ := hf t.ms
  refine h.same ?_ ?_
  · simp only [State.keptPart, State.withMs, hmem]
  · show (t.hostLink, _, _, (f t.ms).snoop, _) = _
    rw [hsnoop]
    rfl

theorem bumpCluster (k i n : Nat) : SweepKeeps s (t.bumpCluster k i n) := h.modCluster k fun _ hc => hc
theorem bumpClusterFree (k i : Nat) : SweepKeeps s (t.bumpClusterFree k i) :=
  h.draw.modCluster k (f := fun x => { x with ctr := mmod 0 x.ctr i (fun v => v + t.draw.1) }) fun _ hc => hc

theorem noteTier (before : Nat) : SweepKeeps s (t.noteTier before) := .ite (h.logEvent ..) h

theorem scWrite (k off n v : Nat) : SweepKeeps s (t.scWrite k off n v) := h.modCluster k fun c hc => by
  simp only [Cluster.memWf, Bool.and_eq_true] at hc ⊢
  exact ⟨Mem.wf_writeLE _ _ _ _ hc.1, hc.2⟩

theorem signal (v : Nat) : SweepKeeps s (t.signal v) := by
  unfold State.signal
  split
  · exact h.same rfl rfl
  · exact h.emit _

/-- A job fault within a sweep is none; it starts one else (R23). -/
theorem jobFault (job : Option JobId) (f : FaultInfo) : SweepKeeps s (t.jobFault job f) := by
  unfold State.jobFault
  split
  · exact h
  next hidle =>
    have hnot : ¬ s.hub.sweeping = true := fun hs => hidle ((sweeping_of_record (h.cause hs)).trans hs)
    exact ⟨h.toKept.same rfl, h.flr, h.names, h.ended, h.out, fun hs => absurd hs hnot, h.link, h.fence, h.snoop⟩

/-! ## Accesses of stacked memory -/

theorem useParity (m : Nat) : SweepKeeps s (t.useParity m) := by
  unfold State.useParity
  dsimp only
  split
  · exact h
  · exact h.same rfl rfl

theorem countFlips (a n : Nat) : SweepKeeps s (t.countFlips a n) := h.foldl _ fun _ _ hu => hu.modStack _ _

theorem readDone (a n : Nat) : SweepKeeps s (t.readDone a n) := by
  have hsnoop : SweepKeeps s (t.snoopData a n) := (h.foldl _ fun _ _ hu => hu.emit _).same rfl rfl
  exact ((hsnoop.countFlips a n).foldl _ fun _ m hu => hu.useParity m).foldl _ fun _ m hu => hu.bumpBw _ _

theorem snoopInv (a n : Nat) : SweepKeeps s (t.snoopInv a n) := by
  have hemit : SweepKeeps s ((t.snooped a n).foldl (fun t l => t.emit (.bisnp l true)) t) := h.foldl _ fun _ _ hu => hu.emit _
  have hfilter {l : List Nat} {p : Nat → Bool} (hl : l = []) : l.filter p = [] := by rw [hl]; rfl
  unfold State.snoopInv
  exact ⟨hemit.toKept.same rfl, hemit.flr, hemit.names, hemit.ended, hemit.out, hemit.cause, hemit.link, hemit.fence, fun hs => hfilter (hemit.snoop hs)⟩

theorem memPut (a : Nat) (bs : List Byte) : SweepKeeps s (t.memPut a bs) := by
  have hfresh : SweepKeeps s (t.fresh a bs.length) := h.same rfl rfl
  have hmerge : SweepKeeps s ((t.fresh a bs.length).mergeFlips a bs.length) := (hfresh.countFlips a bs.length).same rfl rfl
  exact (hmerge.setMem fun hm => Mem.wf_writeBytes _ _ _ hm).foldl _ fun _ _ hu => hu.bumpBw _ _

theorem memLand (a : Nat) (bs : List Byte) : SweepKeeps s (t.memLand a bs) := by
  unfold State.memLand
  refine h.foldl _ fun u p hu => ?_
  split
  · exact hu
  split
  · exact hu.logNote ..
  · exact ((hu.snoopInv _ _).memPut _ _).setMem fun hm =>
      foldl_writeBytes_wf _ (fun g => (32 * g, t.ms.mem.readBytes (32 * g) 32)) _ hm

theorem fenceStack (m code : Nat) : SweepKeeps s (t.fenceStack m code) := by
  unfold State.fenceStack
  dsimp only
  refine SweepKeeps.noteTier (SweepKeeps.logEvent (SweepKeeps.foldl (h.modStack m _) _ fun u i hu => ?_) ..) _
  split
  · exact hu.modSlot i fun _ hx => hx
  · exact hu

theorem countUe (a : Nat) : SweepKeeps s (t.countUe a) := by
  have hcounted := ((h.useParity (addrStack a)).modStack (addrStack a) fun x => { x with ue := x.ue + 1 }).logEvent 1 0x44 (0x10 + addrStack a)
    (BitVec.ofNat 128 a)
  unfold State.countUe
  dsimp only
  split
  · exact (hcounted.fenceStack _ 2).jobFault _ _
  · exact hcounted

theorem countErr (e : AccErr) : SweepKeeps s (t.countErr e) := by
  cases e with
  | bus => exact h
  | ue a => exact h.countUe a

theorem accFault (e : AccErr) (job : Option JobId) (core cluster : Byte) (ord : Word) : SweepKeeps s (t.accFault e job core cluster ord) := by
  unfold State.accFault
  cases e with
  | bus => exact h.jobFault _ _
  | ue a => exact (h.jobFault _ _).countUe a

theorem memWriteOwn_ok {u : State} {a : Nat} {bs : List Byte} (hok : t.memWriteOwn a bs = .ok u) : SweepKeeps s u := by
  unfold State.memWriteOwn at hok
  split at hok
  · cases hok
  split at hok
  · cases hok
  cases hok
  exact ((h.snoopInv _ _).memPut a bs).foldl _ fun _ m hu => hu.useParity m

theorem memWriteOwn_error {u : State} {a : Nat} {bs : List Byte} {e : AccErr} (hbad : t.memWriteOwn a bs = .error (e, u)) : SweepKeeps s u := by
  have hland : u = t.memLand a bs := by
    unfold State.memWriteOwn at hbad
    split at hbad
    · cases hbad; rfl
    split at hbad
    · cases hbad; rfl
    · cases hbad
  exact hland ▸ h.memLand a bs

theorem memWriteHub (a : Nat) (bs : List Byte) : SweepKeeps s (t.memWriteHub a bs) := by
  unfold State.memWriteHub
  split
  · next hok => exact h.memWriteOwn_ok hok
  · next hbad => exact (h.memWriteOwn_error hbad).countErr _

theorem memWriteJob (job : Option JobId) (core cluster : Byte) (ord : Word) (a : Nat) (bs : List Byte) :
    SweepKeeps s (t.memWriteJob job core cluster ord a bs) := by
  unfold State.memWriteJob
  split
  · next hok => exact h.memWriteOwn_ok hok
  · next hbad => exact (h.memWriteOwn_error hbad).accFault ..

theorem writeFor (job : Option JobId) (a : Nat) (bs : List Byte) : SweepKeeps s (t.writeFor job a bs) := by
  cases job with
  | none => exact h.memWriteHub a bs
  | some id => exact h.memWriteJob _ _ _ _ a bs

theorem readFor (job : Option JobId) (r : Nat × Nat) : SweepKeeps s (t.readFor job r) := by
  unfold State.readFor
  split
  · exact h.readDone _ _
  · exact h.accFault ..
  · exact h.countErr _

theorem setRstate (stream v : Nat) : SweepKeeps s (t.setRstate stream v) := .ite (h.writeFor _ _ _) h

end SweepKeeps

end Sys2Proof.Machine

/-! PROOFS. Rooms, streams, groups and clusters as they are released (R234, R246, R304, R353, R365, R367, R369). -/

namespace Sys2Proof.Machine

namespace SweepKeeps
variable {s t : State} (h : SweepKeeps s t)
include h

/-! ## Rooms and directories -/

theorem setRoomEntry (x v : Nat) : SweepKeeps s (t.setRoomEntry x v) := by
  unfold State.setRoomEntry
  split
  · exact h.scWrite ..
  · exact h

theorem modRoomCount (x v : Nat) : SweepKeeps s (t.modRoomCount x v) := by
  unfold State.modRoomCount
  split
  · exact .ite h ((h.setRoomEntry x v).bumpCluster ..)
  · exact h

theorem modRoomPin (x : Nat) (f : Nat → Nat) : SweepKeeps s (t.modRoomPin x f) := h.modRoomCount ..
theorem modRoomRef (x : Nat) (f : Nat → Nat) : SweepKeeps s (t.modRoomRef x f) := h.modRoomCount ..

theorem setRoomState (x v : Nat) : SweepKeeps s (t.setRoomState x v) := by
  unfold State.setRoomState
  split
  · exact ((h.setRoomEntry ..).bumpCluster ..).bumpCluster ..
  · exact h

theorem wakeParked (p m : Nat) : SweepKeeps s (t.wakeParked p m) := by
  unfold State.wakeParked
  split
  · exact h
  next stream g _ rest _ =>
    have hbooked := h.modVac p m fun v => { v with parked := rest, booked := v.booked + 1 }
    dsimp only
    split
    · exact (hbooked.modJob _ (f := fun j => { j with bookings := addBooking j.bookings stream g p m }) fun _ hj => hj).setRstate ..
    · exact hbooked.setRstate ..

theorem pushRoom (x : Nat) : SweepKeeps s (t.pushRoom x) := by
  unfold State.pushRoom
  split
  · exact h
  split
  · exact (h.modVac ..).wakeParked ..
  · exact h

theorem vacate (x : Nat) : SweepKeeps s (t.vacate x) := .ite h ((h.setRoomState x 0).pushRoom x)
theorem releaseRoom (x : Nat) : SweepKeeps s (t.releaseRoom x) := .ite ((h.modRoomRef x _).vacate x) (h.modRoomRef x _)
theorem unpinRoom (x : Nat) : SweepKeeps s (t.unpinRoom x) := .ite ((h.modRoomPin x _).vacate x) (h.modRoomPin x _)

theorem returnHold (r : RoomHold) : SweepKeeps s (t.returnHold r) := by
  unfold State.returnHold
  split
  · exact h.pushRoom _
  · exact (h.pushRoom _).releaseRoom _
  · exact h

theorem dirDone (i : Nat) : SweepKeeps s (t.dirDone i) := .ite (h.foldl _ fun _ r hu => hu.readFor _ r) h

/-! ## Streams -/

theorem modStream (i : Nat) (f : Stream → Stream) : SweepKeeps s (t.modStream i f) :=
  ((h.setStreamRec i _).memWriteHub _ _).memWriteHub _ _

theorem endRooms (i : Nat) : SweepKeeps s (t.endRooms i) := ((h.unpark i).setRstate i 3).foldl _ fun _ _ hu => hu.releaseRoom _

theorem closeStream (i : Nat) (code : Byte) : SweepKeeps s (t.closeStream i code) :=
  ((h.endRooms i).modStream i _).modJob _ fun _ hj => hj

theorem endStream (i : Nat) (code : Byte) : SweepKeeps s (t.endStream i code) := .ite h ((h.dirDone i).closeStream i code)
theorem endStreams (l : List Nat) (code : Byte) : SweepKeeps s (t.endStreams l code) := h.foldl l fun _ i hu => hu.endStream i code
theorem returnStream (id : JobId) (i : Nat) : SweepKeeps s (t.returnStream id i) := .ite h (((h.unpark i).setRstate i 0).modStream i _)

/-! ## Groups, slots and adapters -/

theorem sendCtrl (p : Nat) (r : BitVec 256) : SweepKeeps s (t.sendCtrl p r) := .ite (h.modPort p _) (h.modPort p _)

theorem sendAbort (g : Nat) : SweepKeeps s (t.sendAbort g) :=
  ((h.foldl _ fun _ _ hu => hu.sendCtrl _ _).withNet _).modGroup g _

theorem abortGroup (g : Nat) (st : Byte) : SweepKeeps s (t.abortGroup g st) := by
  unfold State.abortGroup
  dsimp only
  split
  · exact (h.modGroup g _).jobFault _ _
  · exact h.modGroup g _

theorem dropExchange (j : Job) (abort : Bool) : SweepKeeps s (t.dropExchange j abort) := (h.withNet _).dropHeldCtrl _

theorem dropGroup (j : Job) (abort : Bool) (g : Nat) : SweepKeeps s (t.dropGroup j abort g) := by
  unfold State.dropGroup
  split
  · exact h
  · exact (SweepKeeps.ite (h.sendAbort g) h).modGroup g _

theorem dropSlot (j : Job) : SweepKeeps s (t.dropSlot j) := by
  unfold State.dropSlot
  split
  · exact h
  · refine h.modSlot _ fun x hx => ?_
    dsimp only
    split
    · exact hx
    · exact hx

theorem setAdapterBits (i v : Nat) : SweepKeeps s (t.setAdapterBits i v) := by
  unfold State.setAdapterBits
  split
  · exact (h.readDone _ _).memWriteHub _ _
  · exact h.countErr _

theorem releaseAdapter (i : Nat) (trainable incomplete : Bool) : SweepKeeps s (t.releaseAdapter i trainable incomplete) := by
  have hset := (h.setAdapterRefs i (t.adapterRefs i - 1)).setAdapterBits i
  unfold State.releaseAdapter
  dsimp only
  split
  · exact (hset _).same rfl rfl
  · exact hset _

theorem dropBookings (j : Job) : SweepKeeps s (t.dropBookings j) := h.foldl _ fun _ _ hu => hu.modVac _ _ _

/-! ## Clusters -/

theorem freeCluster (k : Nat) : SweepKeeps s (t.freeCluster k) := (h.bumpClusterFree k 30).modCluster k fun c hc => by
  simp only [Cluster.memWf, Bool.and_eq_true] at hc ⊢
  exact ⟨hc.1, Mem.wf_empty⟩

theorem zeroCluster (k : Nat) : SweepKeeps s (t.zeroCluster k) := by
  unfold State.zeroCluster
  refine SweepKeeps.foldl (h.modCluster k fun c hc => ?_) _ fun u c hu => hu.modCore c fun _ _ => (by decide : Core.memWf {} = true)
  simp only [Cluster.memWf, Bool.and_eq_true] at hc ⊢
  exact ⟨Mem.wf_zero _ _ _ (Mem.wf_zero _ _ _ hc.1), Mem.wf_empty⟩

theorem sweepCluster (k : Nat) : SweepKeeps s (t.sweepCluster k) := by
  unfold State.sweepCluster
  refine SweepKeeps.foldl ((h.zeroCluster k).modCluster k fun c hc => ?_) _ fun u c hu => hu.modCore c fun _ hx => hx
  simp only [Cluster.memWf, Bool.and_eq_true] at hc ⊢
  exact ⟨Mem.wf_zero _ _ _ hc.1, hc.2⟩

/-! ## A job -/

/-- The release of a job (R367, R374). -/
theorem releaseJob (j : Job) (code : Option Byte) (abort : Bool) : SweepKeeps s (t.releaseJob j code abort) := by
  have hpins := h.foldl (t.jobPins j) fun _ x hu => hu.unpinRoom x
  have hholds := hpins.foldl ((t.jobPins j).foldl (fun t x => t.unpinRoom x) t |>.jobHolds j) fun _ r hu => hu.returnHold r
  have hgroups := (hholds.dropExchange j abort).foldl j.groups fun _ g hu => hu.dropGroup j abort g
  have hadapters := (hgroups.dropSlot j).foldl j.adapters fun _ a hu => hu.releaseAdapter a.1 a.2 abort
  unfold State.releaseJob
  dsimp only
  cases code with
  | some e => exact ((hadapters.endStreams _ e).dropBookings _).foldl _ fun _ k hu => hu.freeCluster k
  | none => exact ((hadapters.foldl _ fun _ i hu => hu.returnStream _ i).dropBookings _).foldl _ fun _ k hu => hu.freeCluster k

/-! ## Rooms of fenced stacks -/

theorem loseRooms : SweepKeeps s t.loseRooms := by
  unfold State.loseRooms
  dsimp only
  split
  · exact h
  · have hlost := h.foldl t.roomsToLose fun _ x hu => hu.setRoomState x 2
    refine SweepKeeps.foldl (SweepKeeps.foldl (hlost.withMs _) _ fun _ i hu => hu.dirDone i) _ fun u i hu => ?_
    split
    · exact hu.closeStream i _
    · exact (hu.endRooms i).modStream i _
    · exact hu

theorem loseAll (n : Nat) : SweepKeeps s (State.loseAll n t) := by
  induction n generalizing t with
  | zero => exact h
  | succ n ih =>
    unfold State.loseAll
    split
    · exact h
    · exact ih h.loseRooms

/-! ## Completion entries -/

theorem writeCompletion (n : Nat) (c : Completion) : SweepKeeps s (t.writeCompletion n c) := by
  have hseq : SweepKeeps s (t.withHub fun x => { x with completionSeq := t.hub.completionSeq + 1 }) := h.same rfl rfl
  unfold State.writeCompletion
  exact .ite (((hseq.emit _).modPair n _).signal _) ((hseq.emit _).modPair n _)

theorem pairDrain (n : Nat) : SweepKeeps s (t.pairDrain n) := .ite (h.modPair n _) h

theorem completeFetched (n : Nat) (tag : JobId) (status : Byte) : SweepKeeps s (t.completeFetched n tag status) :=
  ((h.modPair n _).writeCompletion n _).pairDrain n

end SweepKeeps

end Sys2Proof.Machine

/-! PROOFS. The steps of a fault sweep (R376, R377, Table 15-11) and the end of a job, as what they leave. -/

namespace Sys2Proof.Machine

namespace SweepKeeps
variable {s t : State} (h : SweepKeeps s t)
include h

/-! ## The porter's commands and the rings -/

/-- What SweepKeeps looks at of the porter. -/
theorem withPor (f : Porter → Porter) (hf : ∀ p, (f p).reqArea = p.reqArea ∧ (f p).factory = p.factory ∧ (f p).fusedSvn = p.fusedSvn) :
    SweepKeeps s (t.withPor f) := by
  obtain ⟨harea, hfactory, hfused⟩ := hf t.por
  refine h.same ?_ rfl
  simp only [State.keptPart, State.withPor, harea, hfactory, hfused]

theorem modSession (n : Word) (f : Session → Session) : SweepKeeps s (t.modSession n f) := h.withPor _ fun _ => ⟨rfl, rfl, rfl⟩
theorem closeSpent (n : Word) : SweepKeeps s (t.closeSpent n) := by
  unfold State.closeSpent State.closeSessions
  exact h.withPor _ fun _ => ⟨rfl, rfl, rfl⟩
theorem sendField (peer : Peer) (bytes : List Byte) : SweepKeeps s (t.sendField peer bytes) := h.emit _
theorem signalMailbox : SweepKeeps s t.signalMailbox := h.signal _

theorem endCmd (ticket : Word) (status detail result : Nat) : SweepKeeps s (t.endCmd ticket status detail result) := by
  unfold State.endCmd
  split
  · exact h
  next c _ =>
  dsimp only
  have hended : SweepKeeps s (t.withPor fun p => { p with
      cmds := p.cmds.filter (fun x => decide (x.ticket ≠ ticket))
      results := (⟨ticket, c.index, c.sub, status, detail, result⟩ :: p.results).take 16 }) := h.withPor _ fun _ => ⟨rfl, rfl, rfl⟩
  split
  · exact SweepKeeps.signalMailbox (hended.withPor _ fun _ => ⟨rfl, rfl, rfl⟩)
  split
  · exact hended
  · exact ((hended.modSession _ _).sendField _ _).closeSpent _

theorem slotWritten (w : SlotWrite) (n : Nat) : SweepKeeps s (t.slotWritten w n) := by
  have hstamp : SweepKeeps s t.stamp.2 := h.same rfl rfl
  exact hstamp.modSlot w.slot (f := fun x => { x with
    written := if n = 0 then x.written else x.written ++ [(w.off, n)]
    stream := x.stream.forget (w.off + n) (w.off + w.len) t.stamp.1 }) fun _ hx => Mem.wf_forget _ _ _ _ hx

theorem endSlotWrite (c : RunCmd) (status n : Nat) : SweepKeeps s (t.endSlotWrite c status n) := by
  unfold State.endSlotWrite
  split
  · exact h
  · exact (h.slotWritten _ n).endCmd ..

theorem portLose (p : Nat) (lost : List Nat) : SweepKeeps s (t.portLose p lost) := by
  have haborts := h.foldl lost fun _ g hu => hu.abortGroup g stPeerLost
  unfold State.portLose
  exact ((haborts.foldl _ fun _ c hu => hu.endCmd ..).foldl _ fun _ c hu => hu.endSlotWrite ..).modPort p _

theorem portOff (p : Nat) : SweepKeeps s (t.portOff p) := (h.portLose p _).modPort p _

theorem leaveMove (p : Nat) : SweepKeeps s (t.leaveMove p) := by
  unfold State.leaveMove
  split
  · exact h
  · exact .ite (h.modRing _ _) h

theorem startLeave (r : Nat) : SweepKeeps s (t.startLeave r) := by
  unfold State.startLeave
  split
  · exact h
  · refine SweepKeeps.foldl (SweepKeeps.foldl (h.modRing r _) _ fun u p hu => ?_) _ fun _ p hu => hu.leaveMove p
    exact .ite (hu.modPort p _) (.ite hu (hu.portOff p))

theorem setBank (b : Nat) (v : Option LedgerImage) : SweepKeeps s (t.setBank b v) := h.withPor _ fun p => by
  split <;> exact ⟨rfl, rfl, rfl⟩

theorem ledgerTurn : SweepKeeps s t.ledgerTurn := by
  unfold State.ledgerTurn
  split
  · next op rest _ _ =>
    have himage : SweepKeeps s (t.imageOf op).2 := h.same rfl rfl
    have htaken : SweepKeeps s (((t.imageOf op).2.setBank (t.imageOf op).2.ledgerTarget none).withPor fun p =>
      { p with ledgerImage := some (t.imageOf op).1 }) := (himage.setBank _ _).withPor _ fun _ => ⟨rfl, rfl, rfl⟩
    dsimp only
    split
    · exact htaken.withPor _ fun _ => ⟨rfl, rfl, rfl⟩
    · exact htaken
  · exact h

theorem ledgerPut (op : LedgerOp) : SweepKeeps s (t.ledgerPut op) :=
  SweepKeeps.ledgerTurn (t := t.withPor fun p => { p with ledgerQueue := p.ledgerQueue ++ [op] }) (h.withPor _ fun _ => ⟨rfl, rfl, rfl⟩)

theorem setDv (i u v : Nat) : SweepKeeps s (t.setDv i u v) := h.withPor _ fun _ => ⟨rfl, rfl, rfl⟩

theorem removalStep : SweepKeeps s t.removalStep := by
  have hsave : SweepKeeps s (t.withBoot fun b => { b with removalSave := true }) := h.same rfl rfl
  have hready : SweepKeeps s (t.withBoot fun b => { b with removalReady := true }) := h.same rfl rfl
  unfold State.removalStep
  split
  · exact h
  dsimp only
  split
  · refine h.foldl _ fun u r hu => ?_
    exact .ite ((hu.setDv _ _ _).startLeave r) hu
  · exact .ite (hsave.ledgerPut _) (.ite h hready)

/-! ## Jobs in a sweep -/

/-- Within a sweep a CANCEL joins its job, or completes (R374). -/
theorem cancelEntry (hs : s.hub.sweeping = true) (n : Nat) (e : Desc) : SweepKeeps s (t.cancelEntry n e) := by
  unfold State.cancelEntry
  split
  · exact h.completeFetched ..
  · next j _ =>
    have hmarked := (h.modPair n fun p => { p with fetched := none, fetchedLive := false }).modJob j.id
      (f := fun x => { x with cancels := x.cancels ++ [(n, eTag e)] }) fun _ hj => hj
    dsimp only
    rw [if_pos ((sweeping_of_record (hmarked.cause hs)).trans hs)]
    exact hmarked

theorem catchCancels (hs : s.hub.sweeping = true) : SweepKeeps s t.catchCancels := by
  unfold State.catchCancels
  refine h.foldl _ fun u n hu => ?_
  split
  · exact .ite (hu.cancelEntry hs n _) hu
  · exact hu

theorem sweepJobRefs (id : JobId) : SweepKeeps s (t.sweepJobRefs id) := by
  unfold State.sweepJobRefs
  split
  · exact h
  · next j _ =>
    exact (h.releaseJob j _ true).modJob id (f := fun x => { x with
      phase := .ended, dups := t.dupsOf j, saved := [], adapters := [], groups := [], barriers := [], bookings := [], saveAreas := [] })
      (fun _ _ => rfl) (fun _ => rfl) fun _ _ => rfl

theorem bistResult (r : BistRun) (verdict : Nat) (fail seen expected : Quad) : SweepKeeps s (t.bistResult r verdict fail seen expected) := by
  have hlog : SweepKeeps s (if verdict = 2 then t.logEvent 7 0 r.target (BitVec.ofNat 128 fail.toNat)
    else t.logNote 0 r.target (BitVec.ofNat 128 fail.toNat)) := .ite (h.logEvent ..) (h.logNote ..)
  unfold State.bistResult
  refine hlog.withPor _ ?_
  exact fun _ => ⟨rfl, rfl, rfl⟩

theorem abandonRolling (pick : Nat → Bool) : SweepKeeps s (t.abandonRolling pick) :=
  h.foldl _ fun _ r hu => (hu.bistResult ..).modCluster r.target fun _ hc => hc

end SweepKeeps

end Sys2Proof.Machine

/-! PROOFS. FAULT_SWEEP and SWEEP_COMPLETE (R376, R377): what a sweep leaves of the jobs, the clusters and the exchange, and the completion
entries that it ends with. -/

namespace Sys2Proof.Machine

/-! ## Clusters and cores -/

theorem nodup_coresOf (k : Nat) : (coresOf k).Nodup := List.nodup_range.map fun _ _ h => Nat.add_left_cancel h

theorem clusters_foldl_modCore (f : Core → Core) (l : List Nat) (s : State) : (l.foldl (fun t c => t.modCore c f) s).clusters = s.clusters :=
  List.foldlRecOn l _ (motive := fun u : State => u.clusters = s.clusters) rfl fun _ hu _ _ => hu

theorem cores_modCluster (s : State) (k : Nat) (f : Cluster → Cluster) (c : Nat) : (s.modCluster k f).core c = s.core c := rfl

theorem core_sweepCluster (s : State) (k c : Nat) : (s.sweepCluster k).core c = if c ∈ coresOf k then { ctr := (s.core c).ctr } else s.core c := by
  unfold State.sweepCluster State.zeroCluster
  dsimp only
  rw [core_foldl_modCore _ (nodup_coresOf k), cores_modCluster, core_foldl_modCore _ (nodup_coresOf k), cores_modCluster]
  split <;> rfl

/-- A cluster as the sweep leaves it. -/
def Cluster.swept (c : Cluster) : Prop := c.holder = none ∧ c.zeroing = false ∧ c.sync = [] ∧ c.seq = {}

theorem swept_sweepCluster (s : State) (k : Nat) : ((s.sweepCluster k).cluster k).swept := by
  unfold State.sweepCluster
  dsimp only
  rw [cluster_of_clusters (clusters_foldl_modCore _ _ _), cluster_modCluster_self, cluster_zeroCluster]
  exact ⟨rfl, rfl, rfl, rfl⟩

theorem cluster_sweepCluster_ne (s : State) {k j : Nat} (h : j ≠ k) : (s.sweepCluster k).cluster j = s.cluster j := by
  unfold State.sweepCluster State.zeroCluster
  dsimp only
  rw [cluster_of_clusters (clusters_foldl_modCore _ _ _), cluster_modCluster_ne _ _ h, cluster_of_clusters (clusters_foldl_modCore _ _ _),
    cluster_modCluster_ne _ _ h]

/-- Every cluster of the list is swept, and its cores are zero but for their counters. -/
theorem foldl_sweepCluster (l : List Nat) (s : State) :
    (∀ k, k ∈ l ∨ (s.cluster k).swept → ((l.foldl State.sweepCluster s).cluster k).swept) ∧
    ∀ c, (∃ k ∈ l, c ∈ coresOf k) ∨ s.core c = { ctr := (s.core c).ctr } →
      (l.foldl State.sweepCluster s).core c = { ctr := ((l.foldl State.sweepCluster s).core c).ctr } := by
  induction l generalizing s with
  | nil =>
    simp only [List.foldl_nil, List.not_mem_nil, false_or, false_and, exists_false]
    exact ⟨fun _ => id, fun _ => id⟩
  | cons j l ih =>
    obtain ⟨hcluster, hcore⟩ := ih (s.sweepCluster j)
    rw [List.foldl_cons]
    refine ⟨fun k hk => hcluster k ?_, fun c hc => hcore c ?_⟩
    · by_cases hkj : k = j
      · exact .inr (hkj ▸ swept_sweepCluster s k)
      · rw [cluster_sweepCluster_ne s hkj]
        exact hk.imp (fun h => (List.mem_cons.1 h).resolve_left hkj) id
    · rw [core_sweepCluster]
      by_cases hcj : c ∈ coresOf j
      · rw [if_pos hcj]
        exact .inr rfl
      · rw [if_neg hcj]
        refine hc.imp (fun ⟨k, hk, hck⟩ => ⟨k, (List.mem_cons.1 hk).resolve_left fun h => hcj (h ▸ hck), hck⟩) id

/-! ## Steps 2 to 5 -/

/-- The slots with nothing under way, and no reference to them or to an adapter. -/
def State.slotsFreed (s : State) : State :=
  { s with car := { s.car with
    slots := s.car.slots.map (fun (p : Nat × Slot) => (p.1, { p.2.vacate with got := [], rewrite := [], refs := 0 })), adapterRefs := [], trainable := [] } }

/-- The exchange, the slots and the vacancy are emptied, and rolling runs abandoned (R348, R353, R480). -/
def State.emptied (s : State) : State :=
  let s := s.withNet (fun n => { n with ops := [], early := [], keys := [], retired := [], relays := [], xheld := [] })
  let s := s.dropHeldCtrl (fun _ => true)
  let s := s.slotsFreed
  let s := s.withMs (fun m => { m with vacancy := m.vacancy.map (fun (v : Nat × Vacancy) => (v.1, { v.2 with booked := 0, parked := [] })) })
  s.abandonRolling (fun _ => true)

/-- The jobs' references are released. -/
def State.unreferenced (s : State) : State := (s.hub.jobs.map Job.id).foldl (fun t id => t.sweepJobRefs id) s

theorem sweep_eq (s : State) : s.sweep = ((List.range 12).foldl State.sweepCluster (State.loseAll 9 s.catchCancels).unreferenced.emptied).withHub
    (fun h => { h with swept := true }) := by
  unfold State.sweep
  extract_lets a b c d e f g i j l
  have hc : c = b.unreferenced := rfl
  have hj : j = c.emptied := by
    clear_value c
    rfl
  rw [← hc, ← hj]

theorem SweepKeeps.slotsFreed {s t : State} (h : SweepKeeps s t) : SweepKeeps s t.slotsFreed :=
  ⟨⟨h.factory, h.fused, h.pending, fun hs => { h.wf hs with
    slots := List.all_eq_true.2 fun x hx => by
      obtain ⟨y, hy, rfl⟩ := List.mem_map.1 hx
      exact List.all_eq_true.1 (h.wf hs).slots y hy }⟩,
    h.flr, h.names, h.ended, h.out, h.cause, h.link, h.fence, h.snoop⟩

theorem SweepKeeps.emptied {s t : State} (h : SweepKeeps s t) : SweepKeeps s t.emptied := by
  have hnet : SweepKeeps s ((t.withNet fun n => { n with ops := [], early := [], keys := [], retired := [], relays := [], xheld := [] }).dropHeldCtrl
    fun _ => true) := (h.withNet _).dropHeldCtrl _
  unfold State.emptied
  refine (hnet.slotsFreed.withMs _ ?_).abandonRolling _
  exact fun _ => ⟨rfl, rfl⟩

/-- What is left of the exchange and of the slots' references after a sweep: nothing. -/
def State.unused (t : State) : Prop :=
  t.net.ops = [] ∧ t.net.early = [] ∧ t.net.keys = [] ∧ t.net.relays = [] ∧ t.net.xheld = [] ∧ (∀ i, i < 16 → (t.slot i).refs = 0) ∧
  t.car.adapterRefs = [] ∧ t.car.trainable = []

theorem abandonRolling_rest (s : State) (pick : Nat → Bool) : (s.abandonRolling pick).net = s.net ∧ (s.abandonRolling pick).car = s.car :=
  List.foldlRecOn _ _ (motive := fun u : State => u.net = s.net ∧ u.car = s.car) ⟨rfl, rfl⟩ fun u hu r _ => by
    have hresult : ((u.bistResult r 3 0 0 0).modCluster r.target fun c => { c with rolling := false }).net = u.net ∧
        ((u.bistResult r 3 0 0 0).modCluster r.target fun c => { c with rolling := false }).car = u.car := ⟨rfl, rfl⟩
    exact ⟨hresult.1.trans hu.1, hresult.2.trans hu.2⟩

theorem refs_slotsFreed (s : State) (i : Nat) : (s.slotsFreed.slot i).refs = 0 :=
  congrArg Slot.refs (mget_map ({} : Slot) ({} : Slot) s.car.slots (fun x => { x.vacate with got := [], rewrite := [], refs := 0 }) rfl i)

theorem unused_emptied (s : State) : s.emptied.unused := by
  unfold State.emptied
  dsimp only
  have hrefs (u : State) (f : MemSys → MemSys) (i : Nat) : ((u.slotsFreed.withMs f).slot i).refs = 0 := refs_slotsFreed u i
  generalize hu : State.withMs _ _ = u
  obtain ⟨hnet, hcar⟩ := abandonRolling_rest u fun _ => true
  unfold State.unused State.slot
  rw [hnet, hcar, ← hu]
  exact ⟨rfl, rfl, rfl, rfl, rfl, fun i _ => hrefs _ _ i, rfl, rfl⟩

theorem rest_foldl_modCore (f : Core → Core) (l : List Nat) (s : State) :
    (l.foldl (fun t c => t.modCore c f) s).net = s.net ∧ (l.foldl (fun t c => t.modCore c f) s).car = s.car :=
  List.foldlRecOn l _ (motive := fun w : State => w.net = s.net ∧ w.car = s.car) ⟨rfl, rfl⟩ fun _ hw _ _ => hw

theorem rest_sweepCluster (s : State) (k : Nat) : (s.sweepCluster k).net = s.net ∧ (s.sweepCluster k).car = s.car := by
  unfold State.sweepCluster State.zeroCluster
  dsimp only
  rw [(rest_foldl_modCore _ _ _).1, (rest_foldl_modCore _ _ _).2, modCluster_net, modCluster_car, (rest_foldl_modCore _ _ _).1,
    (rest_foldl_modCore _ _ _).2]
  exact ⟨rfl, rfl⟩

theorem unused_of_rest {s t : State} (h : t.net = s.net ∧ t.car = s.car) (hs : s.unused) : t.unused := by
  unfold State.unused State.slot at *
  rw [h.1, h.2]
  exact hs

theorem unused_foldl_sweepCluster (l : List Nat) {s : State} (h : s.unused) : (l.foldl State.sweepCluster s).unused :=
  l.foldlRecOn State.sweepCluster (motive := State.unused) h fun u hu k _ => unused_of_rest (rest_sweepCluster u k) hu

end Sys2Proof.Machine

/-! PROOFS. The fault sweep's own statement (R27, R80, R376, R377, R379). -/

namespace Sys2Proof.Machine

/-! ## Steps 2 to 5 as a whole -/

theorem SweepKeeps.unreferenced {s t : State} (h : SweepKeeps s t) : SweepKeeps s t.unreferenced := h.foldl _ fun _ id hu => hu.sweepJobRefs id

theorem hasEnded_sweepJobRefs (s : State) (id : JobId) : (s.sweepJobRefs id).hasEnded id := by
  unfold State.sweepJobRefs
  split
  · next hnone => exact fun j hj hid => absurd hid (of_decide_eq_false (by simpa using List.find?_eq_none.1 hnone j hj))
  · next j hsome =>
    have hid := (job?_some s hsome).2
    intro x hx hxid
    obtain ⟨y, -, rfl⟩ := List.mem_map.1 hx
    by_cases hy : y.id = id
    · rw [if_pos hy]
    · rw [if_neg hy] at hxid
      exact absurd hxid hy

theorem hasEnded_foldl_sweepJobRefs (l : List JobId) (s : State) (id : JobId) (h : id ∈ l ∨ s.hasEnded id) :
    (l.foldl (fun t id => t.sweepJobRefs id) s).hasEnded id := by
  induction l generalizing s with
  | nil => exact h.resolve_left (by simp)
  | cons a l ih =>
    rw [List.foldl_cons]
    refine ih _ ?_
    by_cases hid : id = a
    · exact .inr (hid ▸ hasEnded_sweepJobRefs s a)
    · exact h.imp (fun hmem => (List.mem_cons.1 hmem).resolve_left hid) (((SweepKeeps.refl s).sweepJobRefs a).ended id)

theorem ids_of_names {s t : State} (h : t.hub.jobs.map Job.name = s.hub.jobs.map Job.name) : t.hub.jobs.map Job.id = s.hub.jobs.map Job.id := by
  have hfst (u : State) : u.hub.jobs.map Job.id = (u.hub.jobs.map Job.name).map Prod.fst := by rw [List.map_map]; rfl
  rw [hfst, hfst, h]

theorem ended_unreferenced (s : State) : ∀ j ∈ s.unreferenced.hub.jobs, j.phase = .ended := by
  intro j hj
  have hids := ids_of_names (SweepKeeps.refl s).unreferenced.names
  have hid : j.id ∈ s.hub.jobs.map Job.id := hids ▸ List.mem_map_of_mem hj
  exact hasEnded_foldl_sweepJobRefs _ s j.id (.inl hid) j hj rfl

/-- What the sweep's steps 2 to 5 leave (R377, Table 15-11). -/
structure SweptFrom (s t : State) : Prop where
  swept : t.hub.swept = true
  record : t.sweepRecord = (s.hub.sweeping, true, s.hub.sweepJob, s.hub.sweepCause, s.hub.lastFault, s.hub.sweeps)
  ids : t.hub.jobs.map Job.id = s.hub.jobs.map Job.id
  ended : ∀ j ∈ t.hub.jobs, j.phase = .ended
  clusters : ∀ k, k < 12 → (t.cluster k).swept
  cores : ∀ k, k < 12 → ∀ c ∈ coresOf k, t.core c = { ctr := (t.core c).ctr }
  unused : t.unused
  fence : ∀ k, (t.cluster k).coreFence = (s.cluster k).coreFence

theorem sweep_spec {s : State} (hs : s.hub.sweeping = true) : SweptFrom s s.sweep := by
  have hjobs := ((SweepKeeps.refl s).catchCancels hs).loseAll 9
  have hended := ended_unreferenced (State.loseAll 9 s.catchCancels)
  have hfree := hjobs.unreferenced.emptied
  have hunused := unused_foldl_sweepCluster (List.range 12) (unused_emptied (State.loseAll 9 s.catchCancels).unreferenced)
  have hall := hfree.foldl (f := State.sweepCluster) (List.range 12) fun _ k hu => hu.sweepCluster k
  have hphases : ∀ id, (((List.range 12).foldl State.sweepCluster (State.loseAll 9 s.catchCancels).unreferenced.emptied)).hasEnded id := fun id =>
    ((SweepKeeps.refl _).emptied.foldl (f := State.sweepCluster) (List.range 12) fun _ k hu => hu.sweepCluster k).ended id fun j hj _ => hended j hj
  obtain ⟨hclusters, hcores⟩ := foldl_sweepCluster (List.range 12) (State.loseAll 9 s.catchCancels).unreferenced.emptied
  rw [sweep_eq]
  generalize (List.range 12).foldl State.sweepCluster (State.loseAll 9 s.catchCancels).unreferenced.emptied = t at hunused hall hphases hclusters hcores
  have hrecord := hall.cause hs
  simp only [State.sweepRecord, Prod.mk.injEq] at hrecord
  obtain ⟨h1, -, h2, h3, h4, h5⟩ := hrecord
  refine ⟨rfl, ?_, ids_of_names hall.names, fun j hj => hphases j.id j hj rfl, fun k hk => hclusters k (.inl (List.mem_range.2 hk)),
    fun k hk c hc => hcores c (.inl ⟨k, List.mem_range.2 hk, hc⟩), hunused, hall.fence⟩
  simp only [State.sweepRecord, State.withHub, h1, h2, h3, h4, h5]

/-! ## The core that an uncorrectable error fences (R27) -/

theorem fenceCore_of_held {s : State} {c : Nat} (h : s.clusterHeld (clusterOf c) = true) : s.fenceCore c = s := by
  unfold State.fenceCore
  dsimp only
  rw [h, Bool.true_or, if_pos rfl]

/-- The core of a cluster that no job holds is fenced, and the fence of no other cluster changes. -/
theorem fenceCore_spec {s : State} {c : Nat} (h : s.clusterHeld (clusterOf c) = false) :
    ((s.fenceCore c).cluster (clusterOf c)).coreFence.getLsbD (c % 16) = true ∧
    (∀ i, i ≠ clusterOf c → ((s.fenceCore c).cluster i).coreFence = (s.cluster i).coreFence) ∧
    (s.fenceCore c).hub = s.hub ∧ (s.fenceCore c).cores = s.cores ∧ (s.fenceCore c).ms = s.ms ∧
    (∀ r ∈ s.por.log.take 254, r ∈ (s.fenceCore c).por.log) := by
  have htake (n : Nat) (hn : 254 ≤ n) (r : LogRec) (hr : r ∈ s.por.log.take 254) : r ∈ s.por.log.take n :=
    (List.take_subset_take_left _ hn) hr
  unfold State.fenceCore
  dsimp only
  rw [h, Bool.false_or]
  split
  · next hbit => exact ⟨hbit, fun _ _ => rfl, rfl, rfl, rfl, fun r hr => List.mem_of_mem_take hr⟩
  · have hnote (t : State) (n : Nat) : (t.noteTier n).clusters = t.clusters ∧ (t.noteTier n).hub = t.hub ∧ (t.noteTier n).cores = t.cores ∧
        (t.noteTier n).ms = t.ms ∧ ∀ r ∈ t.por.log.take 255, r ∈ (t.noteTier n).por.log := by
      unfold State.noteTier
      split
      · exact ⟨rfl, rfl, rfl, rfl, fun r hr => List.mem_cons_of_mem _ hr⟩
      · exact ⟨rfl, rfl, rfl, rfl, fun r hr => List.mem_of_mem_take hr⟩
    obtain ⟨hclusters, hhub, hcores, hms, hlog⟩ := hnote (((s.modCluster (clusterOf c) fun x => { x with
      coreFence := x.coreFence ||| 1#16 <<< (c % 16) }).logEvent 0 0 (clusterOf c) (BitVec.ofNat 128 (1#16 <<< (c % 16) : BitVec 16).toNat))) s.tier
    refine ⟨?_, fun i hi => ?_, hhub, hcores, hms, fun r hr => hlog r ?_⟩
    · rw [cluster_of_clusters hclusters, cluster_logEvent, cluster_modCluster_self]
      have hlt : c % 16 < 16 := Nat.mod_lt _ (by decide)
      simp [hlt]
    · rw [cluster_of_clusters hclusters, cluster_logEvent, cluster_modCluster_ne _ _ hi]
    · show r ∈ ((_ :: s.por.log).take 256).take 255
      rw [List.take_take]
      exact List.mem_cons_of_mem _ hr

end Sys2Proof.Machine

/-! PROOFS. The end of a sweep: the completion entries in turn (R377), and what a removal's step leaves of the host's side. -/

namespace Sys2Proof.Machine

/-! ## What a removal's step leaves -/

/-- The clusters, the pairs, the jobs and the registers of BAR0. -/
def State.hostSide (s : State) : AMap Cluster × AMap Pair × Mem × List Job × Mem × Bool :=
  (s.clusters, s.hub.pairs, s.hub.msixTable, s.hub.jobs, s.por.reqArea, s.por.mbBusy)

theorem OnlyLoss.hostSide {s t : State} (h : OnlyLoss s t) : t.hostSide = s.hostSide := (congrArg State.hostSide h.same :)

theorem onlyLoss_startLeave (s : State) (r : Nat) : OnlyLoss s (s.startLeave r) := by
  unfold State.startLeave
  split
  · exact .refl s
  · refine ((onlyLoss_modRing s r _).trans (onlyLoss_foldl (fun t p => ?_) _ _)).trans (onlyLoss_foldl onlyLoss_leaveMove _ _)
    exact .ite (onlyLoss_modPort t p _) (.ite (.refl t) (onlyLoss_portOff t p))

theorem hostSide_ledgerPut (s : State) (op : LedgerOp) : (s.ledgerPut op).hostSide = s.hostSide := by
  have htaken (u : State) (b : Nat) (img : LedgerImage) : ((u.setBank b none).withPor fun p => { p with ledgerImage := some img }).hostSide = u.hostSide := by
    unfold State.setBank State.withPor State.hostSide
    dsimp only
    split <;> rfl
  have himage (u : State) (op : LedgerOp) : (u.imageOf op).2.hostSide = u.hostSide := rfl
  have hturn (u : State) : u.ledgerTurn.hostSide = u.hostSide := by
    unfold State.ledgerTurn
    split
    · next op _ _ _ =>
      have h := (htaken (u.imageOf op).2 (u.imageOf op).2.ledgerTarget (u.imageOf op).1).trans (himage u op)
      dsimp only
      split
      · exact h
      · exact h
    · rfl
  exact (hturn _).trans rfl

theorem hostSide_removalStep (s : State) : s.removalStep.hostSide = s.hostSide := by
  unfold State.removalStep
  split
  · rfl
  dsimp only
  split
  · refine List.foldlRecOn _ _ (motive := fun u : State => u.hostSide = s.hostSide) rfl fun u hu r _ => ?_
    split
    · exact ((onlyLoss_startLeave _ r).hostSide.trans rfl).trans hu
    · exact hu
  split
  · exact (hostSide_ledgerPut _ _).trans rfl
  split <;> rfl

/-! ## A job's completion entries -/

theorem clusters_signal (s : State) (v : Nat) : (s.signal v).clusters = s.clusters := by
  unfold State.signal
  split <;> rfl

theorem clusters_writeCompletion (s : State) (n : Nat) (c : Completion) : (s.writeCompletion n c).clusters = s.clusters := by
  unfold State.writeCompletion
  dsimp only
  split
  · exact clusters_signal _ _
  · rfl

theorem clusters_pairDrain (s : State) (n : Nat) : (s.pairDrain n).clusters = s.clusters := by
  unfold State.pairDrain
  split <;> rfl

theorem clusters_closeJob (s : State) (j : Job) (st : Byte) : (s.closeJob j st).clusters = s.clusters := by
  unfold State.closeJob
  dsimp only
  refine (congrArg Prod.fst (hostSide_removalStep _) :).trans ?_
  refine List.foldlRecOn _ _ (motive := fun u : State => u.clusters = s.clusters) ?_ fun u hu n _ => (clusters_pairDrain u n).trans hu
  refine List.foldlRecOn _ _ (motive := fun u : State => u.clusters = s.clusters) ?_ fun u hu n _ => (clusters_writeCompletion u _ _).trans hu
  exact clusters_writeCompletion _ _ _

theorem CompletesToo.mono {n : Nat} {tag : JobId} {st : Byte} {s t u : State} (h : CompletesToo n tag st s t) (hout : ∃ new, u.out = new ++ t.out) :
    CompletesToo n tag st s u := by
  obtain ⟨c, slot, head, seq, phase, htag, hst, new, hnew, hmem⟩ := h
  obtain ⟨more, hmore⟩ := hout
  exact ⟨c, slot, head, seq, phase, htag, hst, more ++ new, by rw [hmore, hnew, List.append_assoc], List.mem_append_right _ hmem⟩

theorem CompletesToo.from {n : Nat} {tag : JobId} {st : Byte} {s t u : State} (h : CompletesToo n tag st t u) (hout : ∃ new, t.out = new ++ s.out) :
    CompletesToo n tag st s u := by
  obtain ⟨c, slot, head, seq, phase, htag, hst, new, hnew, hmem⟩ := h
  obtain ⟨more, hmore⟩ := hout
  exact ⟨c, slot, head, seq, phase, htag, hst, new ++ more, by rw [hnew, hmore, List.append_assoc], List.mem_append_left _ hmem⟩

/-- A job that closes is gone, its completion entry written (R375). -/
theorem closeJob_spec (s : State) (j : Job) (st : Byte) : SweepKeeps (s.dropJob j.id) (s.closeJob j st) ∧
    CompletesToo j.pair j.id st s (s.closeJob j st) := by
  have hfirst := SweepKeeps.refl (s.dropJob j.id)
  have hcompletes : CompletesToo j.pair j.id st s ((s.dropJob j.id).completeJob j st) := by
    unfold State.completeJob
    obtain ⟨c, head, htag, hst, hemits⟩ := (writeCompletion_spec (s.dropJob j.id) j.pair _).1
    exact ⟨c, _, head, _, _, htag, hst, hemits⟩
  have hjob : SweepKeeps (s.dropJob j.id) ((s.dropJob j.id).completeJob j st) := hfirst.writeCompletion _ _
  have hrest {t u : State} (h : SweepKeeps t u) : SweepKeeps t (((j.pair :: j.cancels.map Prod.fst).foldl (fun t n => t.pairDrain n)
      (j.cancels.foldl (fun t c => t.writeCompletion c.1 { tag := c.2, status := stOk }) u)).removalStep) :=
    ((h.foldl _ fun _ c hu => hu.writeCompletion _ _).foldl _ fun _ n hu => hu.pairDrain n).removalStep
  exact ⟨hrest hjob, hcompletes.mono (hrest (.refl _)).out⟩

/-- The jobs of a list close in turn, each with its status. -/
def State.closeJobs (cause : JobId → Byte) (s : State) (l : List JobId) : State :=
  l.foldl (fun t id => match t.job? id with
    | some j => t.closeJob j (cause id)
    | none => t) s

theorem names_dropJob (s : State) (id : JobId) : (s.dropJob id).hub.jobs.map Job.name = (s.hub.jobs.map Job.name).filter (fun p => decide (p.1 ≠ id)) := by
  rw [List.filter_map]
  rfl

theorem names_ids (s : State) : s.hub.jobs.map Job.id = (s.hub.jobs.map Job.name).map Prod.fst := by
  rw [List.map_map]
  rfl

/-- Each job of the list has its completion entry, and none of them is left. -/
theorem closeJobs_spec (cause : JobId → Byte) (l : List JobId) (s : State) (hnodup : (s.hub.jobs.map Job.id).Nodup) :
    (s.closeJobs cause l).clusters = s.clusters ∧ (s.closeJobs cause l).hub.flrPending = s.hub.flrPending ∧
    (∃ new, (s.closeJobs cause l).out = new ++ s.out) ∧
    (∀ p ∈ (s.closeJobs cause l).hub.jobs.map Job.name, p ∈ s.hub.jobs.map Job.name ∧ p.1 ∉ l) ∧
    ∀ p ∈ s.hub.jobs.map Job.name, p.1 ∈ l → CompletesToo p.2 p.1 (cause p.1) s (s.closeJobs cause l) := by
  induction l generalizing s with
  | nil => exact ⟨rfl, rfl, ⟨[], rfl⟩, fun p hp => ⟨hp, by simp⟩, fun p _ h => absurd h (by simp)⟩
  | cons id l ih =>
    have hcons : s.closeJobs cause (id :: l) = (match s.job? id with
      | some j => s.closeJob j (cause id)
      | none => s).closeJobs cause l := rfl
    rw [hcons]
    cases hjob : s.job? id with
    | none =>
      have hnone (p : JobId × Nat) (hp : p ∈ s.hub.jobs.map Job.name) : p.1 ≠ id := by
        obtain ⟨j, hj, rfl⟩ := List.mem_map.1 hp
        simpa [Job.name] using List.find?_eq_none.1 hjob j hj
      obtain ⟨hclusters, hflr, hout, hleft, hdone⟩ := ih s hnodup
      exact ⟨hclusters, hflr, hout, fun p hp => ⟨(hleft p hp).1, fun h => (List.mem_cons.1 h).elim (hnone p (hleft p hp).1) (hleft p hp).2⟩,
        fun p hp h => hdone p hp ((List.mem_cons.1 h).resolve_left (hnone p hp))⟩
    | some j =>
      obtain ⟨hj, hid⟩ := job?_some s hjob
      obtain ⟨hkeeps, hcompletes⟩ := closeJob_spec s j (cause id)
      have hnames : (s.closeJob j (cause id)).hub.jobs.map Job.name = (s.hub.jobs.map Job.name).filter (fun p => decide (p.1 ≠ id)) := by
        rw [hkeeps.names, names_dropJob, hid]
      have hsub : ((s.closeJob j (cause id)).hub.jobs.map Job.id).Nodup := by
        rw [names_ids, hnames]
        rw [names_ids] at hnodup
        exact hnodup.sublist (List.filter_sublist.map _)
      obtain ⟨hclusters, hflr, hout, hleft, hdone⟩ := ih _ hsub
      have hsome : ∃ new, (s.closeJob j (cause id)).out = new ++ s.out := hkeeps.out
      dsimp only
      refine ⟨hclusters.trans (clusters_closeJob s j _), hflr.trans hkeeps.flr, ?_, fun p hp => ?_, fun p hp hmem => ?_⟩
      · obtain ⟨new, hnew⟩ := hsome
        obtain ⟨more, hmore⟩ := hout
        exact ⟨more ++ new, by rw [hmore, hnew, List.append_assoc]⟩
      · obtain ⟨hin, hnot⟩ := hleft p hp
        rw [hnames, List.mem_filter] at hin
        exact ⟨hin.1, fun h => (List.mem_cons.1 h).elim (by simpa using hin.2) hnot⟩
      · by_cases hp1 : p.1 = id
        · obtain ⟨x, hx, rfl⟩ := List.mem_map.1 hp
          have hxj : x = j := List.inj_on_of_nodup_map hnodup hx hj (hp1.trans hid.symm)
          subst hxj
          rw [← hp1] at hcompletes hout ⊢
          exact hcompletes.mono hout
        · exact (hdone p (hnames ▸ List.mem_filter.2 ⟨hp, decide_eq_true hp1⟩) ((List.mem_cons.1 hmem).resolve_left hp1)).from hsome

/-- SWEEP_COMPLETE with no reset of the link that waits. -/
theorem sweepComplete_spec {s : State} (hs : s.hub.sweeping = true) (hswept : s.hub.swept = true) (hflr : s.hub.flrPending = false)
    (hnodup : (s.hub.jobs.map Job.id).Nodup) : s.sweepComplete.hub.jobs = [] ∧ s.sweepComplete.hub.sweeping = false ∧ s.sweepComplete.hub.swept = false ∧
    (s.roomsToLose = [] → s.sweepComplete.clusters = s.clusters) ∧
    ∀ j ∈ s.hub.jobs, CompletesToo j.pair j.id (if s.hub.sweepJob = some j.id then s.hub.sweepCause else stSwept) s s.sweepComplete := by
  have hlose := (SweepKeeps.refl s).loseAll 9
  have hrecord := hlose.cause hs
  simp only [State.sweepRecord, Prod.mk.injEq] at hrecord
  obtain ⟨-, -, hjob, hcause, -⟩ := hrecord
  have hnodup' : ((State.loseAll 9 s).hub.jobs.map Job.id).Nodup := ids_of_names hlose.names ▸ hnodup
  have hnone : s.roomsToLose = [] → State.loseAll 9 s = s := fun h => if_pos h
  have hcomplete : s.sweepComplete =
      (if ((((State.loseAll 9 s).closeJobs (fun id => if (State.loseAll 9 s).hub.sweepJob = some id then (State.loseAll 9 s).hub.sweepCause else stSwept)
        ((State.loseAll 9 s).hub.jobs.map Job.id))).withHub fun h => { h with sweeping := false, swept := false, sweepJob := none }).hub.flrPending
      then (((State.loseAll 9 s).closeJobs (fun id => if (State.loseAll 9 s).hub.sweepJob = some id then (State.loseAll 9 s).hub.sweepCause else stSwept)
        ((State.loseAll 9 s).hub.jobs.map Job.id)).withHub fun h => { h with sweeping := false, swept := false, sweepJob := none }).cxlReset
      else (((State.loseAll 9 s).closeJobs (fun id => if (State.loseAll 9 s).hub.sweepJob = some id then (State.loseAll 9 s).hub.sweepCause else stSwept)
        ((State.loseAll 9 s).hub.jobs.map Job.id)).withHub fun h => { h with sweeping := false, swept := false, sweepJob := none })) := by
    unfold State.sweepComplete
    rw [hs, hswept]
    generalize State.loseAll 9 s = u
    rfl
  generalize State.loseAll 9 s = u at *
  obtain ⟨hclusters, hflr', ⟨new, hnew⟩, hleft, hdone⟩ :=
    closeJobs_spec (fun id => if u.hub.sweepJob = some id then u.hub.sweepCause else stSwept) (u.hub.jobs.map Job.id) u hnodup'
  generalize u.closeJobs (fun id => if u.hub.sweepJob = some id then u.hub.sweepCause else stSwept) (u.hub.jobs.map Job.id) = t at *
  have hstay : ¬ (t.withHub fun h => { h with sweeping := false, swept := false, sweepJob := none }).hub.flrPending = true := by
    show ¬ t.hub.flrPending = true
    rw [hflr', hlose.flr, hflr]
    exact Bool.false_ne_true
  rw [if_neg hstay] at hcomplete
  rw [hcomplete]
  have hempty : t.hub.jobs = [] := by
    refine List.eq_nil_iff_forall_not_mem.2 fun j hj => ?_
    obtain ⟨hin, hnot⟩ := hleft j.name (List.mem_map_of_mem hj)
    exact hnot (names_ids u ▸ List.mem_map_of_mem hin)
  refine ⟨hempty, rfl, rfl, fun h => ?_, fun j hj => ?_⟩
  · exact hclusters.trans (by rw [hnone h])
  · have hin : j.name ∈ u.hub.jobs.map Job.name := hlose.names ▸ List.mem_map_of_mem hj
    have hc := (hdone j.name hin (names_ids u ▸ List.mem_map_of_mem hin)).from hlose.out
    rw [hjob, hcause] at hc
    exact hc

end Sys2Proof.Machine

/-! PROOFS. What detects a fault, the fences by command (R135, log 213), and the sweep's statement. -/

namespace Sys2Proof.Machine

/-! ## The causes that start a sweep -/

theorem jobFault_of_idle {s : State} (h : s.hub.sweeping = false) (job : Option JobId) (f : FaultInfo) :
    (s.jobFault job f).sweepRecord = (true, false, job, f.status,
      { seq := BitVec.ofNat 32 (s.hub.sweeps.toNat + 1), status := f.status, limit := f.limit, cluster := f.cluster, core := f.core
        job := job.getD 0, ordinal := f.ordinal, stack := f.stack, channel := f.channel, unit := f.unit }, s.hub.sweeps + 1) := by
  unfold State.jobFault
  rw [h, if_neg Bool.false_ne_true]
  rfl

theorem jobFault_of_sweeping {s : State} (h : s.hub.sweeping = true) (job : Option JobId) (f : FaultInfo) : s.jobFault job f = s := if_pos h

theorem clusters_jobFault (s : State) (job : Option JobId) (f : FaultInfo) : (s.jobFault job f).clusters = s.clusters := (onlyLoss_jobFault s job f).clusters

/-- An illegal word starts a sweep, whose steps 2 to 5 follow at once. -/
theorem faultSweep_illegal {k : ClusterId} {w : Word} {s : State} (hs : s.hub.sweeping = false) (hseq : (s.seqJob k).isSome = true)
    (hword : seqDecode k w = none) : s.faultSweep (.illegalWord k w) = (s.seqFault k stIllegal).sweep := by
  have hrecord := jobFault_of_idle hs (s.cluster k).holder { status := stIllegal, cluster := BitVec.ofNat 8 k }
  simp only [State.sweepRecord, Prod.mk.injEq] at hrecord
  obtain ⟨hsweeping, hswept, -⟩ := hrecord
  have hdetect : s.detect (.illegalWord k w) = s.seqFault k stIllegal := by
    have hboth : ((s.seqJob k).isSome && (seqDecode k w).isNone) = true := by rw [hseq, hword]; rfl
    exact if_pos hboth
  have hgoes : ((s.seqFault k stIllegal).hub.sweeping && !(s.seqFault k stIllegal).hub.swept) = true := by
    unfold State.seqFault
    rw [hsweeping, hswept]
    rfl
  unfold State.faultSweep
  rw [hdetect]
  exact if_pos hgoes

theorem faultSweep_detected {s : State} (hs : s.hub.sweeping = true) (hnot : s.hub.swept = false) : s.faultSweep .detected = s.sweep := by
  have hgoes : (s.hub.sweeping && !s.hub.swept) = true := by rw [hs, hnot]; rfl
  exact if_pos hgoes

/-- The uncorrectable error of a core's store, logged (R484). -/
def State.storeUeLogged (s : State) (c : Nat) : State := s.logEvent 1 0x43 (clusterOf c) 0

theorem faultSweep_storeUe_free {c : CoreId} {s : State} (hs : s.hub.sweeping = false ∨ s.hub.swept = true)
    (hfree : s.holderJob (clusterOf c) = none ∨ s.hub.sweeping = true) :
    s.faultSweep (.coreStoreUe c) = (s.storeUeLogged c).fenceCore c := by
  have hdetect : s.detect (.coreStoreUe c) = s.storeUeLogged c := by
    have hholder : (s.storeUeLogged c).holderJob (clusterOf c) = s.holderJob (clusterOf c) := rfl
    unfold State.detect
    dsimp only
    show (if ((s.storeUeLogged c).holderJob (clusterOf c)).isSome = true then (s.storeUeLogged c).coreFault c stCstoreUe 0 0 else s.storeUeLogged c) = _
    split
    next hsome =>
      rcases hfree with h | h
      · rw [hholder, h] at hsome
        cases hsome
      · exact jobFault_of_sweeping (s := s.storeUeLogged c) h _ _
    · rfl
  have hstays : ((s.storeUeLogged c).hub.sweeping && !(s.storeUeLogged c).hub.swept) = false := by
    show (s.hub.sweeping && !s.hub.swept) = false
    rcases hs with h | h <;> simp [h]
  unfold State.faultSweep
  rw [hdetect]
  dsimp only
  rw [hstays, if_neg Bool.false_ne_true]

/-- Where a job runs on its cluster the error is that job's fault: the core is fenced once the sweep has freed the cluster (R27, log 152). -/
theorem faultSweep_storeUe_held {c : CoreId} {s : State} (hs : s.hub.sweeping = false) (hheld : (s.holderJob (clusterOf c)).isSome = true) :
    s.faultSweep (.coreStoreUe c) = (((s.storeUeLogged c).coreFault c stCstoreUe 0 0).sweep).fenceCore c := by
  have hdetect : s.detect (.coreStoreUe c) = (s.storeUeLogged c).coreFault c stCstoreUe 0 0 := if_pos hheld
  have hrecord := jobFault_of_idle (s := s.storeUeLogged c) hs (s.cluster (clusterOf c)).holder
    { status := stCstoreUe, limit := 0, cluster := BitVec.ofNat 8 (clusterOf c), core := BitVec.ofNat 8 c, ordinal := 0 }
  simp only [State.sweepRecord, Prod.mk.injEq] at hrecord
  obtain ⟨hsweeping, hswept, -⟩ := hrecord
  have hgoes : (((s.storeUeLogged c).coreFault c stCstoreUe 0 0).hub.sweeping && !((s.storeUeLogged c).coreFault c stCstoreUe 0 0).hub.swept) = true := by
    show (((s.storeUeLogged c).jobFault (s.cluster (clusterOf c)).holder _).hub.sweeping &&
      !((s.storeUeLogged c).jobFault (s.cluster (clusterOf c)).holder _).hub.swept) = true
    rw [hsweeping, hswept]
    rfl
  unfold State.faultSweep
  rw [hdetect]
  dsimp only
  rw [if_pos hgoes]

/-- After the sweep no job holds a cluster. -/
theorem clusterHeld_sweep {s t : State} (h : SweptFrom s t) {k : Nat} (hk : k < 12) : t.clusterHeld k = false := by
  obtain ⟨hholder, -⟩ := h.clusters k hk
  unfold State.clusterHeld
  rw [hholder]
  simp only [Option.isSome_none, Bool.false_or, List.any_eq_false, Bool.and_eq_true, decide_eq_true_eq, not_and]
  exact fun j hj ⟨_, hphase⟩ => absurd (h.ended j hj) hphase

theorem clusterOf_lt (c : CoreId) : clusterOf c < 12 := by
  unfold clusterOf
  omega

theorem coreMask_of_fence {s : State} {k i : Nat} (h : (s.cluster k).coreFence.getLsbD i = true) : (s.coreMask k).getLsbD i = false := by
  unfold State.coreMask
  rw [BitVec.getLsbD_not, h, Bool.not_true, Bool.and_false]

/-- The uncorrectable error of a core's store, outside a sweep. -/
theorem storeUe_spec {c : CoreId} {s : State} (hs : s.hub.sweeping = false) :
    ((s.cluster (clusterOf c)).holder = none → s.clusterHeld (clusterOf c) = true →
      (s.faultSweep (.coreStoreUe c)) = s.storeUeLogged c) ∧
    (s.clusterHeld (clusterOf c) = false ∨ (s.holderJob (clusterOf c)).isSome = true →
      ((s.faultSweep (.coreStoreUe c)).cluster (clusterOf c)).coreFence.getLsbD (c.val % 16) = true ∧
      (∀ i, i ≠ clusterOf c → ((s.faultSweep (.coreStoreUe c)).cluster i).coreFence = (s.cluster i).coreFence) ∧
      ((s.cluster (clusterOf c)).holder = none → (s.faultSweep (.coreStoreUe c)).hub = s.hub ∧ (s.faultSweep (.coreStoreUe c)).cores = s.cores) ∧
      ((s.holderJob (clusterOf c)).isSome = true → (s.faultSweep (.coreStoreUe c)).hub.lastFault.status = stCstoreUe ∧
        (s.faultSweep (.coreStoreUe c)).hub.lastFault.core = BitVec.ofNat 8 c ∧ (s.faultSweep (.coreStoreUe c)).hub.swept = true)) := by
  have hjobless (h : (s.cluster (clusterOf c)).holder = none) : s.holderJob (clusterOf c) = none := by
    unfold State.holderJob
    rw [h]
  refine ⟨fun hnone hheld => ?_, fun hor => ?_⟩
  · rw [faultSweep_storeUe_free (.inl hs) (.inl (hjobless hnone))]
    exact fenceCore_of_held hheld
  · cases hjob : s.holderJob (clusterOf c) with
    | none =>
      have hfree : s.clusterHeld (clusterOf c) = false := hor.resolve_right (by rw [hjob]; exact Bool.false_ne_true)
      rw [faultSweep_storeUe_free (.inl hs) (.inl hjob)]
      obtain ⟨hbit, hother, hhub, hcores, -⟩ := fenceCore_spec (s := s.storeUeLogged c) hfree
      exact ⟨hbit, hother, fun _ => ⟨hhub, hcores⟩, fun h => by cases h⟩
    | some j =>
      have hsome : (s.holderJob (clusterOf c)).isSome = true := by rw [hjob]; rfl
      rw [faultSweep_storeUe_held hs hsome]
      have hrecord := jobFault_of_idle (s := s.storeUeLogged c) hs (s.cluster (clusterOf c)).holder
        { status := stCstoreUe, limit := 0, cluster := BitVec.ofNat 8 (clusterOf c), core := BitVec.ofNat 8 c, ordinal := 0 }
      have hclusters := clusters_jobFault (s.storeUeLogged c) (s.cluster (clusterOf c)).holder
        { status := stCstoreUe, limit := 0, cluster := BitVec.ofNat 8 (clusterOf c), core := BitVec.ofNat 8 c, ordinal := 0 }
      have hfault : (s.storeUeLogged c).coreFault c stCstoreUe 0 0 = (s.storeUeLogged c).jobFault (s.cluster (clusterOf c)).holder
        { status := stCstoreUe, limit := 0, cluster := BitVec.ofNat 8 (clusterOf c), core := BitVec.ofNat 8 c, ordinal := 0 } := rfl
      rw [hfault]
      generalize (s.storeUeLogged c).jobFault (s.cluster (clusterOf c)).holder _ = t at hrecord hclusters
      simp only [State.sweepRecord, Prod.mk.injEq] at hrecord
      obtain ⟨hsweeping, -, -, -, hlast, -⟩ := hrecord
      have hswept := sweep_spec hsweeping
      obtain ⟨hbit, hother, hhub, -⟩ := fenceCore_spec (c := c) (clusterHeld_sweep hswept (clusterOf_lt c))
      have hrec := hswept.record
      simp only [State.sweepRecord, Prod.mk.injEq] at hrec
      obtain ⟨-, -, -, -, hlast', -⟩ := hrec
      refine ⟨hbit, fun i hi => (hother i hi).trans ((hswept.fence i).trans (congrArg Cluster.coreFence (cluster_of_clusters hclusters i))),
        fun hnone => absurd (hjobless hnone) (by rw [hjob]; exact Option.some_ne_none _), fun _ => ?_⟩
      rw [hhub, hlast', hlast]
      exact ⟨rfl, rfl, hswept.swept⟩

/-! ## CLUSTER_FENCE and CLUSTER_UNFENCE -/

theorem writes_clusterFence {k : ClusterId} {bs : List Byte} {s : State} (hk : leNat bs = k) (h : s.writes 0x0C0C 1 bs) :
    (s.clusterHeld k = false → (s.cluster k).rolling = false → AnsweredWith dsOk s s.clusterFence ∧
      s.clusterFence.cluster k = { s.cluster k with fencedCmd := true } ∧ ∀ i, i ≠ k.val → s.clusterFence.cluster i = s.cluster i) ∧
    (s.clusterHeld k = true → AnsweredWith dsClusterBusy s s.clusterFence ∧ s.clusterFence.clusters = s.clusters) := by
  obtain ⟨f, r, l, -, -, hserved⟩ := served_of_writes h
  have hrange : ¬ 12 ≤ k.val := by omega
  refine ⟨fun hfree hroll => ?_, fun hheld => ?_⟩
  · have hnot : ¬ (((s.withSessions l).clusterHeld k || ((s.withSessions l).cluster k).rolling) = true) := by
      show ¬ ((s.clusterHeld k || (s.cluster k).rolling) = true)
      rw [hfree, hroll]
      exact Bool.false_ne_true
    cases hcmd : (s.cluster k).fencedCmd with
    | true =>
      have hcmd' : ((s.withSessions l).cluster k).fencedCmd = true := hcmd
      obtain ⟨hans, hrest⟩ := hserved s.clusterFence rfl rfl (a := ⟨s.withSessions l, dsOk, 0, none⟩)
        (by simp only [hk, if_neg hrange, if_neg hnot, if_pos hcmd']) rfl rfl
      have hclusters : s.clusterFence.clusters = s.clusters := (congrArg State.clusters hrest :)
      refine ⟨hans, (cluster_of_clusters hclusters k).trans ?_, fun i _ => cluster_of_clusters hclusters i⟩
      rw [← hcmd]
    | false =>
      have hcmd' : ¬ ((s.withSessions l).cluster k).fencedCmd = true := by
        show ¬ (s.cluster k).fencedCmd = true
        rw [hcmd]
        exact Bool.false_ne_true
      obtain ⟨hans, hrest⟩ := hserved s.clusterFence rfl rfl
        (a := ⟨(((s.withSessions l).modCluster k fun c => { c with fencedCmd := true }).logEvent 0 0 k 0).noteTier (s.withSessions l).tier, dsOk, 0, none⟩)
        (by simp only [hk, if_neg hrange, if_neg hnot, if_neg hcmd'])
        (by unfold State.noteTier; split <;> rfl)
        (by unfold State.noteTier; split <;> rfl)
      have hclusters : s.clusterFence.clusters = (s.modCluster k fun c => { c with fencedCmd := true }).clusters :=
        (congrArg State.clusters hrest :).trans (clusters_noteTier _ _)
      exact ⟨hans, (cluster_of_clusters hclusters k).trans (cluster_modCluster_self ..),
        fun i hi => (cluster_of_clusters hclusters i).trans (cluster_modCluster_ne _ _ hi)⟩
  · have hbusy : ((s.withSessions l).clusterHeld k || ((s.withSessions l).cluster k).rolling) = true := by
      show (s.clusterHeld k || (s.cluster k).rolling) = true
      rw [hheld]
      rfl
    obtain ⟨hans, hrest⟩ := hserved s.clusterFence rfl rfl (a := ⟨s.withSessions l, dsClusterBusy, 0, none⟩)
      (by simp only [hk, if_neg hrange, if_pos hbusy]) rfl rfl
    exact ⟨hans, (congrArg State.clusters hrest :)⟩

theorem writes_clusterUnfence {k : ClusterId} {bs : List Byte} {s : State} (hk : leNat bs = k) (h : s.writes 0x0C0C 2 bs) :
    AnsweredWith dsOk s s.clusterUnfence ∧ s.clusterUnfence.cluster k = { s.cluster k with fencedCmd := false } ∧
    ∀ i, i ≠ k.val → s.clusterUnfence.cluster i = s.cluster i := by
  obtain ⟨f, r, l, -, -, hserved⟩ := served_of_writes h
  have hrange : ¬ 12 ≤ k.val := by omega
  obtain ⟨hans, hrest⟩ := hserved s.clusterUnfence rfl rfl
    (a := ⟨(s.withSessions l).modCluster k fun c => { c with fencedCmd := false }, dsOk, 0, none⟩) (by simp only [hk, if_neg hrange]) rfl rfl
  have hclusters : s.clusterUnfence.clusters = (s.modCluster k fun c => { c with fencedCmd := false }).clusters :=
    (congrArg State.clusters hrest :)
  exact ⟨hans, (cluster_of_clusters hclusters k).trans (cluster_modCluster_self ..),
    fun i hi => (cluster_of_clusters hclusters i).trans (cluster_modCluster_ne _ _ hi)⟩

/-- Settles O47: the sweep's steps keep its record and end every job, and the entries that complete it follow the jobs in turn. -/
theorem faultSweeps : Obligations.FaultSweeps := by
  unfold Obligations.FaultSweeps
  refine ⟨?_, ?_, ?_, ?_, ?_, ?_⟩
  · intro k w s hs hseq hword
    have hrecord := jobFault_of_idle hs (s.cluster k).holder { status := stIllegal, cluster := BitVec.ofNat 8 k }
    refine ⟨_, congrArg Host.Outcome.next (faultSweep_illegal hs hseq hword), ?_⟩
    have hfault : s.seqFault k stIllegal = s.jobFault (s.cluster k).holder { status := stIllegal, cluster := BitVec.ofNat 8 k } := rfl
    rw [hfault]
    generalize s.jobFault (s.cluster k).holder _ = t at hrecord
    simp only [State.sweepRecord, Prod.mk.injEq] at hrecord
    obtain ⟨hsweeping, -, hjob, -, hlast, hsweeps⟩ := hrecord
    have hrec := (sweep_spec hsweeping).record
    simp only [State.sweepRecord, Prod.mk.injEq] at hrec
    obtain ⟨hsweeping', -, hjob', -, hlast', hsweeps'⟩ := hrec
    rw [hlast', hlast, hsweeps', hsweeps, hsweeping', hsweeping, hjob', hjob]
    exact ⟨rfl, rfl, rfl, rfl, rfl, rfl⟩
  · intro s hs hnot
    have h := sweep_spec hs
    have hrec := h.record
    simp only [State.sweepRecord, Prod.mk.injEq] at hrec
    exact ⟨_, congrArg Host.Outcome.next (faultSweep_detected hs hnot), h.swept, hrec.1.trans hs, h.ids, h.ended,
      fun k hk => ⟨(h.clusters k hk).1, (h.clusters k hk).2.1, (h.clusters k hk).2.2.1, (h.clusters k hk).2.2.2, h.cores k hk⟩, h.unused⟩
  · intro c s hs k
    obtain ⟨hwaits, hfences⟩ := storeUe_spec (c := c) hs
    refine ⟨fun hnone hheld => ⟨_, congrArg Host.Outcome.next (hwaits hnone hheld), rfl, rfl, rfl, rfl⟩, fun hor => ?_⟩
    obtain ⟨hbit, hother, hfree, hjob⟩ := hfences hor
    exact ⟨_, rfl, hbit, coreMask_of_fence hbit, hother, hfree, hjob⟩
  · intro c s hs hswept
    refine ⟨_, congrArg Host.Outcome.next (faultSweep_storeUe_free (.inr hswept) (.inr hs)), ?_⟩
    cases hheld : s.clusterHeld (clusterOf c) with
    | true =>
      rw [fenceCore_of_held (s := s.storeUeLogged c) hheld]
      exact ⟨rfl, rfl, ⟨_, List.mem_cons_self, rfl, rfl, rfl, rfl⟩, fun h => by cases h⟩
    | false =>
      obtain ⟨hbit, -, hhub, -, hms, hlog⟩ := fenceCore_spec (s := s.storeUeLogged c) (c := c) hheld
      exact ⟨hhub, hms, ⟨_, hlog _ List.mem_cons_self, rfl, rfl, rfl, rfl⟩, fun _ => hbit⟩
  · exact fun s hs hswept hflr hnodup => ⟨_, rfl, sweepComplete_spec hs hswept hflr hnodup⟩
  · intro k bs s hk
    refine ⟨fun h => ?_, fun h => ⟨_, rfl, writes_clusterUnfence hk h⟩⟩
    obtain ⟨hfence, hbusy⟩ := writes_clusterFence hk h
    exact ⟨fun hfree hroll => ⟨_, rfl, hfence hfree hroll⟩, fun hheld => ⟨_, rfl, hbusy hheld⟩⟩

end Sys2Proof.Machine

/-! PROOFS. The host's link (R356, R447), the add-reduce ports (R357) and the registers of BAR0 (R357, R430). -/

namespace Sys2Proof.Machine

/-! ## Every job ends with the link -/

/-- The host's link and an empty snoop filter stay, and no job appears. -/
structure LinkKept (s t : State) : Prop where
  link : t.hostLink = s.hostLink
  snoop : s.ms.snoop = [] → t.ms.snoop = []
  ids : ∀ id ∈ t.hub.jobs.map Job.id, id ∈ s.hub.jobs.map Job.id

theorem LinkKept.refl (s : State) : LinkKept s s := ⟨rfl, id, fun _ => id⟩

theorem LinkKept.trans {s t u : State} (h : LinkKept s t) (h' : LinkKept t u) : LinkKept s u :=
  ⟨h'.link.trans h.link, fun hs => h'.snoop (h.snoop hs), fun id hid => h.ids id (h'.ids id hid)⟩

theorem SweepKeeps.linkKept {s t : State} (h : SweepKeeps s t) : LinkKept s t := ⟨h.link, h.snoop, fun _ hid => ids_of_names h.names ▸ hid⟩

theorem linkKept_dropJob (s : State) (id : JobId) : LinkKept s (s.dropJob id) ∧ id ∉ (s.dropJob id).hub.jobs.map Job.id := by
  refine ⟨⟨rfl, fun h => h, fun i hi => ?_⟩, fun hid => ?_⟩
  · obtain ⟨j, hj, rfl⟩ := List.mem_map.1 hi
    exact List.mem_map_of_mem (List.mem_filter.1 hj).1
  · obtain ⟨j, hj, hji⟩ := List.mem_map.1 hid
    exact absurd hji (by simpa using (List.mem_filter.1 hj).2)

/-- Jobs that are dropped one by one are all gone. -/
theorem foldl_drops {f : State → JobId → State} (hf : ∀ t id, LinkKept t (f t id) ∧ id ∉ (f t id).hub.jobs.map Job.id) (l : List JobId) (s : State) :
    LinkKept s (l.foldl f s) ∧ ∀ id ∈ l, id ∉ (l.foldl f s).hub.jobs.map Job.id := by
  induction l generalizing s with
  | nil => exact ⟨.refl s, fun _ h => absurd h (by simp)⟩
  | cons a l ih =>
    obtain ⟨hkeeps, hgone⟩ := hf s a
    obtain ⟨hkeeps', hgone'⟩ := ih (f s a)
    refine ⟨hkeeps.trans hkeeps', fun id hid => ?_⟩
    rcases List.mem_cons.1 hid with rfl | h
    · exact fun h => hgone (hkeeps'.ids _ h)
    · exact hgone' id h

theorem jobs_of_dropped {s t : State} (h : LinkKept s t) (hgone : ∀ id ∈ s.hub.jobs.map Job.id, id ∉ t.hub.jobs.map Job.id) : t.hub.jobs = [] :=
  List.eq_nil_iff_forall_not_mem.2 fun _ hj => hgone _ (h.ids _ (List.mem_map_of_mem hj)) (List.mem_map_of_mem hj)

theorem not_mem_of_noJob {s : State} {id : JobId} (h : s.job? id = none) : id ∉ s.hub.jobs.map Job.id := fun hid => by
  obtain ⟨j, hj, hji⟩ := List.mem_map.1 hid
  exact absurd hji (by simpa using List.find?_eq_none.1 h j hj)

theorem cancelAll_spec (s : State) : LinkKept s s.cancelAll ∧ s.cancelAll.hub.jobs = [] := by
  have hfold := foldl_drops (f := fun t id => match t.job? id with
    | some j => ((t.releaseJob j (some stCancelled) true).dropJob id).withHub (fun h => { h with cancelled := h.cancelled + 1 })
    | none => t) (fun t id => by
      split
      · next j _ =>
        obtain ⟨hkeeps, hgone⟩ := linkKept_dropJob (t.releaseJob j (some stCancelled) true) id
        exact ⟨((SweepKeeps.refl t).releaseJob j _ true).linkKept.trans (hkeeps.trans ⟨rfl, fun h => h, fun _ h => h⟩), hgone⟩
      · next hnone => exact ⟨.refl t, not_mem_of_noJob hnone⟩) (s.hub.jobs.map Job.id) s
  exact ⟨hfold.1, jobs_of_dropped hfold.1 hfold.2⟩

theorem dropSwept_spec (s : State) : LinkKept s s.dropSwept ∧ s.dropSwept.hub.jobs = [] := by
  have hfold := foldl_drops (f := fun t id => match t.job? id with
    | some j => (if j.phase = .ended then t else t.sweepJobRefs id).dropJob id
    | none => t) (fun t id => by
      split
      · next j _ =>
        have hrefs : LinkKept t (if j.phase = .ended then t else t.sweepJobRefs id) :=
          (SweepKeeps.ite (.refl t) ((SweepKeeps.refl t).sweepJobRefs id)).linkKept
        obtain ⟨hkeeps, hgone⟩ := linkKept_dropJob (if j.phase = .ended then t else t.sweepJobRefs id) id
        exact ⟨hrefs.trans hkeeps, hgone⟩
      · next hnone => exact ⟨.refl t, not_mem_of_noJob hnone⟩) (s.hub.jobs.map Job.id) s
  exact ⟨hfold.1, jobs_of_dropped hfold.1 hfold.2⟩

theorem endAllJobs_spec (s : State) : LinkKept s s.endAllJobs ∧ s.endAllJobs.hub.jobs = [] := by
  unfold State.endAllJobs
  split
  · exact dropSwept_spec s
  dsimp only
  split
  · exact dropSwept_spec s
  · exact cancelAll_spec s

/-! ## The registers of BAR0 at a reset of the port -/

/-- The host's side once the port is reset. -/
def State.hostGone (t : State) : Prop := t.hub.jobs = [] ∧ (∀ n, t.pair n = {}) ∧ t.hub.msixTable = msixReset ∧
  (∀ k, k < 12 → (t.cluster k).addOff = 0) ∧ t.por.reqArea = {} ∧ t.por.mbBusy = false

theorem foldl_addOff (l : List Nat) (s : State) (k : Nat) (h : k ∈ l ∨ (s.cluster k).addOff = 0) :
    ((l.foldl (fun t k => t.modCluster k (fun c => { c with addOff := 0 })) s).cluster k).addOff = 0 := by
  induction l generalizing s with
  | nil => exact h.resolve_left (by simp)
  | cons a l ih =>
    rw [List.foldl_cons]
    refine ih _ ?_
    by_cases hk : k = a
    · exact .inr (by rw [hk, cluster_modCluster_self])
    · rw [cluster_modCluster_ne _ _ hk]
      exact h.imp_left fun hmem => (List.mem_cons.1 hmem).resolve_left hk

theorem foldl_addOff_rest (l : List Nat) (s : State) :
    let t := l.foldl (fun t k => t.modCluster k (fun c => { c with addOff := 0 })) s
    t.hub = s.hub ∧ t.ms = s.ms ∧ t.boot = s.boot :=
  List.foldlRecOn l _ (motive := fun u : State => u.hub = s.hub ∧ u.ms = s.ms ∧ u.boot = s.boot) ⟨rfl, rfl, rfl⟩ fun _ hu _ _ => hu

/-- A reset of the CXL port ends every job and sets the registers of BAR0 back; the link's own state stays (R356). -/
theorem cxlReset_spec (s : State) : s.cxlReset.hostGone ∧ s.cxlReset.hostLink = s.hostLink ∧ (s.ms.snoop = [] → s.cxlReset.ms.snoop = []) := by
  obtain ⟨hkeeps, hjobs⟩ := endAllJobs_spec s
  unfold State.cxlReset
  dsimp only
  generalize hv : State.withHub s.endAllJobs _ = v
  obtain ⟨hhub, hms, hboot⟩ := foldl_addOff_rest (List.range 12) v
  have hoff (k : Nat) (hk : k < 12) := foldl_addOff (List.range 12) v k (.inl (List.mem_range.2 hk))
  generalize (List.range 12).foldl _ v = u at hhub hms hboot hoff
  generalize hw : State.withPor u _ = w
  have hside := hostSide_removalStep w
  have hstep := (SweepKeeps.refl w).removalStep
  simp only [State.hostSide, Prod.mk.injEq] at hside
  obtain ⟨hclusters, hpairs, htable, hjobs', harea, hbusy⟩ := hside
  refine ⟨⟨?_, fun n => ?_, ?_, fun k hk => ?_, ?_, ?_⟩, hstep.link.trans ?_, fun h => hstep.snoop ?_⟩
  · rw [hjobs', ← hw]
    exact (congrArg Hub.jobs hhub).trans (hv ▸ hjobs)
  · rw [State.pair, hpairs, ← hw]
    have hnone : u.hub.pairs = [] := (congrArg Hub.pairs hhub).trans (hv ▸ rfl)
    exact congrArg (fun m : AMap Pair => mget {} m n) hnone
  · rw [htable, ← hw]
    exact (congrArg Hub.msixTable hhub).trans (hv ▸ rfl)
  · rw [cluster_of_clusters hclusters, ← hw]
    exact hoff k hk
  · rw [harea, ← hw]
    rfl
  · rw [hbusy, ← hw]
    rfl
  · have hlink : u.hostLink = v.hostLink := by unfold State.hostLink; rw [hboot]
    rw [← hw]
    exact hlink.trans (hv ▸ hkeeps.link)
  · have hsnoop : u.ms.snoop = v.ms.snoop := congrArg MemSys.snoop hms
    rw [← hw]
    exact hsnoop.trans (hv ▸ hkeeps.snoop h)

theorem linkDown_spec (s : State) : s.linkDown.hostGone ∧ s.linkDown.boot.cxlUp = false ∧ s.linkDown.boot.perst = s.boot.perst ∧
    s.linkDown.boot.stops = s.boot.stops ∧ s.linkDown.ms.snoop = [] := by
  obtain ⟨hgone, hlink, hsnoop⟩ := cxlReset_spec ((s.withBoot fun b => { b with cxlUp := false }).withMs fun m =>
    { m with snoop := [], snoopShared := [], snoopWait := [] })
  simp only [State.hostLink, Prod.mk.injEq] at hlink
  obtain ⟨hup, hperst, hstops⟩ := hlink
  exact ⟨hgone, hup, hperst, hstops, hsnoop rfl⟩

/-! ## The add-reduce ports -/

section
variable {s : State} {k off : Nat} {f : Nat → Nat}

theorem addReduce_adds (hh : s.hostReaches = true) (hgone : s.blockGone (blkCluster k) = false) (halign : (s.cluster k).addOff.toNat % 4 = 0)
    (hroom : (s.cluster k).addOff.toNat + 4 ≤ s.userBytes) :
    let o := (s.cluster k).addOff.toNat
    let t := s.addReduce k f off
    t.scRead k (s.scUser + o) 4 = f (s.scRead k (s.scUser + o) 4) % 2 ^ 32 ∧ t.cores = s.cores ∧ SameRest s t ∧
    t.clusterCtr k 7 = s.clusterCtr k 7 + 1 ∧
    (∀ a, a < s.scUser + o ∨ s.scUser + o + 4 ≤ a → (t.cluster k).scache.read a = (s.cluster k).scache.read a) ∧
    ∀ i, i ≠ k → t.cluster i = s.cluster i := by
  intro o t
  have ht : t = (s.scWrite k (s.scUser + o) 4 (f (s.scRead k (s.scUser + o) 4) % 2 ^ 32)).countAtomic k :=
    (if_neg (by simp [hh])).trans (if_neg fun h => by
      rcases h with h | h | h
      · rw [hgone] at h; cases h
      · exact h halign
      · exact absurd hroom (Nat.not_le.2 h))
  rw [ht]
  refine ⟨?_, rfl, ⟨rfl, rfl, rfl, rfl, rfl, rfl, rfl, rfl, rfl, rfl, rfl⟩, ?_, fun a ha => ?_, fun i hi => ?_⟩
  · rw [State.countAtomic, scRead_bumpCluster, scRead_scWrite_self]
    exact Nat.mod_mod _ _
  · rw [State.countAtomic, clusterCtr_bumpCluster, if_pos ⟨rfl, rfl⟩]
    refine congrArg (· + 1) ?_
    unfold State.clusterCtr State.scWrite
    rw [cluster_modCluster_self]
  · rw [State.countAtomic, scache_bumpCluster, scache_scWrite, if_pos rfl]
    exact Mem.read_writeLE_out _ _ _ _ _ ha
  · rw [State.countAtomic, State.bumpCluster, cluster_modCluster_ne _ _ hi, State.scWrite, cluster_modCluster_ne _ _ hi]

theorem addReduce_aborts (hh : s.hostReaches = true) (h : s.blockGone (blkCluster k) = true ∨ (s.cluster k).addOff.toNat % 4 ≠ 0 ∨
    s.userBytes < (s.cluster k).addOff.toNat + 4) : (s.addReduce k f off).clusters = s.clusters ∧ (s.addReduce k f off).out = .completerAbort off :: s.out := by
  have ht : s.addReduce k f off = (s.emit (.completerAbort off)).logNote 0 k (BitVec.ofNat 128 off) := (if_neg (by simp [hh])).trans (if_pos h)
  rw [ht]
  exact ⟨rfl, rfl⟩

end

/-! ## Writes of registers -/

section
variable {s : State} {off : Nat} {v : Quad}

theorem registerWrite_narrow (hh : s.hostReaches = true) (halign : off % 4 = 0) : s.registerWrite off v false = s.regWrite off 4 (v.toNat % 2 ^ 32) := by
  unfold State.registerWrite
  rw [if_neg (by simp [hh, halign])]
  rfl

theorem regWrite_addOff {k : Nat} (hk : k < 12) (hoff : off = 0x1001000 + 0x100000 * k) (hgone : s.blockGone (blkCluster k) = false) (n : Nat) :
    s.regWrite off 4 n = s.modCluster k (fun c => { c with addOff := BitVec.ofNat 32 n }) := by
  have hdiv : (off - 0x1000000) / 0x100000 = k := by omega
  have hmod : (off - 0x1000000) % 0x100000 = 0x1000 := by omega
  have hgate : s.gatedOff off = false := by
    have hgate : gateOf off = some (blkCluster k) := by
      unfold gateOf
      rw [if_pos (by omega), hdiv]
    unfold State.gatedOff
    rw [hgate]
    exact hgone
  unfold State.regWrite
  rw [hgate, if_neg Bool.false_ne_true, if_neg (by omega), if_neg (by omega), if_neg (by omega), if_neg (by omega), if_neg (by omega),
    if_neg (by omega), if_pos (by omega)]
  dsimp only
  rw [hdiv, if_pos hmod]

theorem gateOf_low (h : off < 0x1000000) : gateOf off = none := by
  unfold gateOf
  rw [if_neg (by omega), if_neg (by omega), if_neg (by omega), if_neg (by omega), if_neg (by omega), if_neg (by omega)]

theorem gatedOff_low (h : off < 0x1000000) : s.gatedOff off = false := by
  unfold State.gatedOff
  rw [gateOf_low h]

theorem regWrite_area (hlo : 0x300040 ≤ off) (hhi : off < 0x302000) (n : Nat) : s.regWrite off 4 n =
    if s.por.mbBusy then s else s.withPor (fun p => { p with reqArea := p.reqArea.writeLE (off - 0x300040) 4 n }) := by
  unfold State.regWrite
  rw [gatedOff_low (by omega), if_neg Bool.false_ne_true, if_neg (by omega), if_neg (by omega), if_neg (by omega), if_neg (by omega),
    if_pos ⟨hlo, hhi⟩]

theorem regWrite_reserved (h : off < 0x1000) (n : Nat) : s.regWrite off 4 n = s := by
  unfold State.regWrite
  rw [gatedOff_low (by omega), if_neg Bool.false_ne_true, if_neg (by omega), if_neg (by omega), if_neg (by omega), if_neg (by omega),
    if_neg (by omega), if_neg (by omega), if_neg (by omega)]

end

/-- A frame that arrives while one is served waits. -/
theorem frameArrives_of_serving {s : State} (h : s.por.current.isSome = true) (x : Inbound) :
    s.frameArrives x = s.withPor fun p => { p with inbox := p.inbox ++ [x] } := by
  unfold State.frameArrives State.nextFrame
  cases (State.withPor s fun p => { p with inbox := p.inbox ++ [x] }).por.inbox.length with
  | zero => rfl
  | succ n => exact if_pos h

/-! ## The statement -/

theorem functionReset_of_reaches {s : State} (h : s.hostReaches = true) :
    s.functionReset = if s.hub.sweeping then s.withHub (fun h => { h with flrPending := true }) else s.cxlReset := if_neg (by simp [h])

theorem cxlUp_of_reaches {s : State} (h : s.hostReaches = true) : s.boot.cxlUp = true := (Bool.and_eq_true_iff.1 h).1

theorem functionReset_spec {s : State} (hh : s.hostReaches = true) (hsweep : s.hub.sweeping = false) :
    s.functionReset.hostGone ∧ s.functionReset.boot.cxlUp = true := by
  obtain ⟨hgone, hlink, -⟩ := cxlReset_spec s
  rw [functionReset_of_reaches hh, hsweep]
  exact ⟨hgone, (congrArg Prod.fst hlink).trans (cxlUp_of_reaches hh)⟩

theorem linkLoss_spec {s : State} (hup : s.boot.cxlUp = true) (inside : Bool) : (s.linkLoss inside).hostGone ∧ (s.linkLoss inside).boot.cxlUp = false ∧
    (s.linkLoss inside).ms.snoop = [] ∧ (s.linkLoss inside).boot.stops = s.boot.stops + (if inside then 1 else 0) := by
  obtain ⟨hgone, hdown, -, hstops, hsnoop⟩ := linkDown_spec (if inside then s.serviceStop 0 else s)
  rw [show s.linkLoss inside = (if inside then s.serviceStop 0 else s).linkDown from if_neg (by simp [hup])]
  refine ⟨hgone, hdown, hsnoop, hstops.trans ?_⟩
  cases inside
  · rw [if_neg Bool.false_ne_true, if_neg Bool.false_ne_true]
    exact (BitVec.add_zero _).symm
  · rw [if_pos rfl, if_pos rfl]
    rfl

theorem perstAssert_spec {s : State} (hup : s.boot.cxlUp = true) :
    s.perstAssert.hostGone ∧ s.perstAssert.boot.cxlUp = false ∧ s.perstAssert.boot.perst = true ∧ s.perstAssert.ms.snoop = [] := by
  obtain ⟨hgone, hdown, hperst, -, hsnoop⟩ := linkDown_spec (s.withBoot fun b => { b with perst := true })
  rw [show s.perstAssert = (s.withBoot fun b => { b with perst := true }).linkDown from if_pos hup]
  exact ⟨hgone, hdown, hperst, hsnoop⟩

theorem linkUp_of_ready {s : State} (hperst : s.boot.perst = false) (hroot : s.pwr.rootLocked = true) (hvin : s.boot.vin = true) :
    s.linkUp = s.withBoot (fun b => { b with cxlUp := true }) := if_neg (by simp [hperst, hroot, hvin])

theorem linkUp_of_perst {s : State} (hperst : s.boot.perst = true) : s.linkUp = s := if_pos (by simp [hperst])

/-- A cluster's block is gone where it is OFF or the hub of its die does not run (log 185). -/
theorem blockGone_cluster {s : State} {k : Nat} (hk : k < 12) (h : s.block (blkCluster k) = 0 ∨ s.hubOf (dieOfCluster k) = false) :
    s.blockGone (blkCluster k) = true := by
  unfold State.blockGone dieOfBlock blkCluster
  rw [if_pos hk]
  rcases h with h | h
  · rw [show s.block k = 0 from h]
    rfl
  · rw [h, Bool.not_false, Bool.or_true]

theorem mbDoorbell_of_busy {s : State} (hh : s.hostReaches = true) (hruns : s.boot.porterRuns = true) (hbusy : s.por.mbBusy = true) :
    s.mbDoorbell = s.logNote 0 0xFF 0 := (if_neg (by simp [hh, hruns])).trans (if_pos hbusy)

/-- A doorbell while the porter serves another frame: the request waits in the inbox. -/
theorem mbDoorbell_of_serving {s : State} (hh : s.hostReaches = true) (hruns : s.boot.porterRuns = true) (hbusy : s.por.mbBusy = false)
    (hcur : s.por.current.isSome = true) : ∃ x, s.mbDoorbell = s.withPor fun p =>
      { p with mbBusy := true, mbDone := false, mbResult := false, inbox := p.inbox ++ [x] } := by
  unfold State.mbDoorbell
  rw [if_neg (by simp [hh, hruns]), if_neg (by simp [hbusy]), frameArrives_of_serving (by exact hcur)]
  exact ⟨_, rfl⟩

/-- Settles O48: the reset of the port ends every job and sets BAR0 back, and each register write touches its own register. -/
theorem hostLinkAndRegisters : Obligations.HostLinkAndRegisters := by
  refine ⟨fun inside s => ⟨?_, ?_, fun hup => ⟨?_, ?_⟩, rfl, ?_, ?_⟩, fun k v s hh => ⟨?_, ?_⟩, fun off v s hh halign => ⟨?_, ?_, ?_⟩, ?_, ?_⟩
  · intro hsweep hh
    exact ⟨_, rfl, functionReset_spec hh hsweep⟩
  · intro hsweep hh
    exact congrArg Host.Outcome.next ((functionReset_of_reaches hh).trans (if_pos hsweep))
  · exact ⟨_, rfl, linkLoss_spec hup inside⟩
  · exact ⟨_, rfl, perstAssert_spec hup⟩
  · exact fun hperst hroot hvin => congrArg Host.Outcome.next (linkUp_of_ready hperst hroot hvin)
  · exact fun hperst => congrArg Host.Outcome.next (linkUp_of_perst hperst)
  · intro hgone halign hroom
    exact ⟨⟨_, rfl, addReduce_adds hh hgone halign hroom⟩, ⟨_, rfl, addReduce_adds hh hgone halign hroom⟩⟩
  · intro h
    have habort : s.blockGone (blkCluster k) = true ∨ (s.cluster k).addOff.toNat % 4 ≠ 0 ∨ s.userBytes < (s.cluster k).addOff.toNat + 4 := by
      rcases h with h | h | h
      · exact .inl (blockGone_cluster k.isLt (.inl h))
      · exact .inl (blockGone_cluster k.isLt (.inr h))
      · exact .inr h
    have hfp : 0x1000000 + k.val * 0x100000 + 0x1008 = 0x1001008 + 0x100000 * k.val := by omega
    have hint : 0x1000000 + k.val * 0x100000 + 0x100C = 0x100100C + 0x100000 * k.val := by omega
    refine ⟨⟨_, rfl, ?_⟩, ⟨_, rfl, ?_⟩⟩
    · rw [hfp]
      exact addReduce_aborts hh habort
    · rw [hint]
      exact addReduce_aborts hh habort
  · intro k hoff hgone
    have hwrite := (registerWrite_narrow hh halign).trans (regWrite_addOff k.isLt hoff hgone (v.toNat % 2 ^ 32))
    refine ⟨_, congrArg Host.Outcome.next hwrite, ?_, rfl, ⟨rfl, rfl, rfl, rfl, rfl, rfl, rfl, rfl, rfl, rfl, rfl⟩, fun i hi => cluster_modCluster_ne _ _ hi⟩
    rw [cluster_modCluster_self]
    rw [show BitVec.ofNat 32 (v.toNat % 2 ^ 32) = BitVec.ofNat 32 v.toNat from BitVec.eq_of_toNat_eq (by rw [BitVec.toNat_ofNat, BitVec.toNat_ofNat, Nat.mod_mod])]
  · intro hlo hhi
    have hwrite := (registerWrite_narrow hh halign).trans (regWrite_area hlo hhi (v.toNat % 2 ^ 32))
    refine ⟨fun hbusy => congrArg Host.Outcome.next (hwrite.trans (if_pos hbusy)), fun hbusy => ?_⟩
    refine ⟨_, congrArg Host.Outcome.next (hwrite.trans (if_neg (by simp [hbusy]))), rfl, rfl, rfl, ?_, fun a ha => Mem.read_writeLE_out _ _ _ _ _ ha⟩
    exact (Mem.readLE_writeLE _ _ _ _).trans (Nat.mod_mod _ _)
  · exact fun hoff => congrArg Host.Outcome.next ((registerWrite_narrow hh halign).trans (regWrite_reserved hoff _))
  · intro s hh hruns hbusy
    exact ⟨_, congrArg Host.Outcome.next (mbDoorbell_of_busy hh hruns hbusy), rfl, rfl, rfl, rfl, rfl, rfl⟩
  · intro s hh hruns hbusy hcur
    obtain ⟨x, hx⟩ := mbDoorbell_of_serving hh hruns hbusy hcur
    exact ⟨_, congrArg Host.Outcome.next hx, rfl, rfl, rfl, List.length_append, rfl, rfl⟩

end Sys2Proof.Machine

/-! PROOFS. Block enables, dividers, power samples and the steward's period (R403–R417). -/

namespace Sys2Proof.Machine

/-! ## What a record's answer rests on -/

/-- Whether the porter runs and a reset waits, the frame being served, and the entries' values stay. -/
structure EnablesKept (s t : State) : Prop where
  runs : t.boot.porterRuns = s.boot.porterRuns
  reset : t.boot.resetAfter = s.boot.resetAfter
  current : t.por.current = s.por.current
  vals : t.por.vals = s.por.vals

theorem EnablesKept.refl (s : State) : EnablesKept s s := ⟨rfl, rfl, rfl, rfl⟩

theorem EnablesKept.trans {s t u : State} (h : EnablesKept s t) (h' : EnablesKept t u) : EnablesKept s u :=
  ⟨h'.runs.trans h.runs, h'.reset.trans h.reset, h'.current.trans h.current, h'.vals.trans h.vals⟩

theorem EnablesKept.foldl {α : Type} {f : State → α → State} (h : ∀ t a, EnablesKept t (f t a)) (l : List α) (s : State) :
    EnablesKept s (l.foldl f s) :=
  l.foldlRecOn f (motive := EnablesKept s) (.refl s) fun _ ht a _ => ht.trans (h _ a)

theorem EnablesKept.dv {s t : State} (h : EnablesKept s t) (i u : Nat) : t.dv i u = s.dv i u := by rw [State.dv, h.vals]; rfl

theorem OnlyLoss.enablesKept {s t : State} (h : OnlyLoss s t) : EnablesKept s t := ⟨h.porterRuns, h.resetAfter, h.current, h.vals⟩

theorem block_of_pwr {s t : State} (h : t.pwr = s.pwr) (b : Nat) : t.block b = s.block b := by rw [State.block, h]; rfl

/-! ## The enables as a port's work is lost -/

theorem pwr_foldl {α : Type} {f : State → α → State} (h : ∀ t a, (f t a).pwr = t.pwr) (l : List α) (s : State) : (l.foldl f s).pwr = s.pwr :=
  l.foldlRecOn f (motive := fun t => t.pwr = s.pwr) rfl fun t ht a _ => (h t a).trans ht

theorem pwr_signal (s : State) (v : Nat) : (s.signal v).pwr = s.pwr := by
  unfold State.signal; split <;> rfl

theorem pwr_endCmd (s : State) (ticket : Word) (status detail result : Nat) : (s.endCmd ticket status detail result).pwr = s.pwr := by
  unfold State.endCmd
  split
  · rfl
  dsimp only
  split
  · exact pwr_signal _ _
  · split <;> rfl

theorem pwr_endSlotWrite (s : State) (c : RunCmd) (status n : Nat) : (s.endSlotWrite c status n).pwr = s.pwr := by
  unfold State.endSlotWrite
  split
  · rfl
  · exact pwr_endCmd _ _ _ _ _

theorem pwr_abortGroup (s : State) (g : Nat) (st : Byte) : (s.abortGroup g st).pwr = s.pwr := by
  unfold State.abortGroup
  dsimp only
  split
  · obtain ⟨-, -, -, -, -, hpwr, -⟩ := jobFault_rest (s.modGroup g (fun x => { x with aborted := true })) (some _) { status := st }
    exact hpwr
  · rfl

theorem pwr_portLose (s : State) (p : Nat) (lost : List Nat) : (s.portLose p lost).pwr = s.pwr := by
  have hwork : (s.loseWork p lost).pwr = s.pwr := by
    unfold State.loseWork
    extract_lets u sends v writes
    exact (pwr_foldl (fun t c => pwr_endSlotWrite t c _ _) writes v).trans
      ((pwr_foldl (fun t _ => pwr_endCmd t _ _ _ _) sends u).trans (pwr_foldl (fun t g => pwr_abortGroup t g _) _ s))
  exact hwork

theorem pwr_portOff (s : State) (p : Nat) : (s.portOff p).pwr = s.pwr := pwr_portLose s p _

theorem abandonRolling_kept (s : State) (pick : Nat → Bool) :
    EnablesKept s (s.abandonRolling pick) ∧ (s.abandonRolling pick).pwr = s.pwr ∧ (s.abandonRolling pick).net = s.net :=
  List.foldlRecOn (motive := fun t : State => EnablesKept s t ∧ t.pwr = s.pwr ∧ t.net = s.net) _ _ ⟨.refl s, rfl, rfl⟩
    fun _ h _ _ => ⟨h.1.trans ⟨rfl, rfl, rfl, rfl⟩, h.2⟩

/-! ## A block begins to drain (Table 17-4) -/

/-- Where a block that was ON goes as its enable is cleared. -/
def clearsTo (b : Nat) (st : PortState) : Nat :=
  if 20 ≤ b ∧ b < 28 then 0 else if 28 ≤ b ∧ b < 36 ∧ st ≠ .up ∧ st ≠ .draining then 0 else 2

theorem clearsTo_notPort {b : Nat} (h : b < 28 ∨ 36 ≤ b) (st : PortState) : clearsTo b st = if 20 ≤ b ∧ b < 28 then 0 else 2 := by
  unfold clearsTo
  rw [if_neg (c := 28 ≤ b ∧ _) (by omega)]

theorem clearsTo_port {b : Nat} (hlo : 28 ≤ b) (hhi : b < 36) (st : PortState) : clearsTo b st = if st ≠ .up ∧ st ≠ .draining then 0 else 2 := by
  unfold clearsTo
  rw [if_neg (by omega)]
  simp only [hlo, hhi, true_and]

theorem blockClear_of_off {s : State} {b : Nat} (h : s.block b ≠ 1) : s.blockClear b = s := if_pos h

/-- Setting a block's state moves that block alone. -/
theorem setBlock_kept {s u : State} {b v : Nat} (hpwr : u.pwr = s.pwr) (hport : ∀ q, b ≠ 28 + q → u.port q = s.port q) (hkept : EnablesKept s u) :
    (∀ c, (u.setBlock b v).block c = if c = b then v else s.block c) ∧ (∀ q, b ≠ 28 + q → (u.setBlock b v).port q = s.port q) ∧
    EnablesKept s (u.setBlock b v) :=
  ⟨fun c => by rw [block_setBlock, block_of_pwr hpwr], fun q hq => hport q hq, hkept.runs, hkept.reset, hkept.current, hkept.vals⟩

/-- A block that was ON takes its new state, a port's by its own; no other block and no other port moves. -/
theorem blockClear_of_on {s : State} {b : Nat} (h : s.block b = 1) :
    (∀ c, (s.blockClear b).block c = if c = b then clearsTo b (s.port (b - 28)).state else s.block c) ∧
    (∀ q, b ≠ 28 + q → (s.blockClear b).port q = s.port q) ∧ EnablesKept s (s.blockClear b) := by
  have hon : ¬ s.block b ≠ 1 := by simp [h]
  have hself (v : Nat) := setBlock_kept (s := s) (b := b) (v := v) rfl (fun _ _ => rfl) (.refl s)
  unfold State.blockClear
  rw [if_neg hon]
  by_cases h12 : b < 12
  · rw [if_pos h12, clearsTo_notPort (.inl (by omega)), if_neg (by omega)]
    obtain ⟨hkept, hpwr, hnet⟩ := abandonRolling_kept s (fun k => k == b)
    exact setBlock_kept hpwr (fun q _ => (congrArg (fun n => mget {} n.ports q) hnet :)) hkept
  rw [if_neg h12]
  by_cases h20 : b < 20
  · rw [if_pos h20, clearsTo_notPort (.inl (by omega)), if_neg (by omega)]
    obtain ⟨hblock, hport, hkept⟩ := hself 2
    exact ⟨hblock, hport, hkept.trans ⟨rfl, rfl, rfl, rfl⟩⟩
  rw [if_neg h20]
  by_cases h28 : b < 28
  · rw [if_pos h28, clearsTo_notPort (.inl h28), if_pos ⟨by omega, h28⟩]
    exact hself 0
  rw [if_neg h28]
  by_cases h36 : b < 36
  · rw [if_pos h36, clearsTo_port (by omega) h36]
    by_cases hup : (s.port (b - 28)).state = .up
    · rw [if_pos hup, if_neg (by simp [hup])]
      exact setBlock_kept (u := s.startDrain (b - 28)) rfl (fun q hq => (port_startDrain s (b - 28) q).trans (if_neg (by omega))) ⟨rfl, rfl, rfl, rfl⟩
    rw [if_neg hup]
    by_cases hdrain : (s.port (b - 28)).state = .draining
    · rw [if_pos hdrain, if_neg (by simp [hdrain])]
      exact hself 2
    · rw [if_neg hdrain, if_pos ⟨hup, hdrain⟩]
      exact setBlock_kept (pwr_portOff s (b - 28)) (fun q hq => (port_portOff s (b - 28) q).trans (if_neg (by omega)))
        (onlyLoss_portOff s (b - 28)).enablesKept
  · rw [if_neg h36, clearsTo_notPort (.inr (by omega)), if_neg (by omega)]
    exact hself 2

theorem enablesKept_blockClear (s : State) (b : Nat) : EnablesKept s (s.blockClear b) := by
  by_cases h : s.block b = 1
  · exact (blockClear_of_on h).2.2
  · rw [blockClear_of_off h]
    exact .refl s

/-- The cleared blocks that were ON have each taken their new state. -/
theorem block_foldl_clear {l : List Nat} (hl : l.Nodup) (s : State) (c : Nat) : (l.foldl (fun t b => t.blockClear b) s).block c =
    if c ∈ l ∧ s.block c = 1 then clearsTo c (s.port (c - 28)).state else s.block c := by
  induction l generalizing s with
  | nil => rw [if_neg (by simp)]; rfl
  | cons b l ih =>
    obtain ⟨hb, hl⟩ := List.nodup_cons.1 hl
    rw [List.foldl_cons, ih hl]
    by_cases hon : s.block b = 1
    · obtain ⟨hblock, hport, -⟩ := blockClear_of_on hon
      by_cases hc : c = b
      · subst hc
        rw [if_neg (fun h => hb h.1), hblock, if_pos rfl, if_pos ⟨List.mem_cons_self, hon⟩]
      · have hto : clearsTo c ((s.blockClear b).port (c - 28)).state = clearsTo c (s.port (c - 28)).state := by
          by_cases hp : c < 28 ∨ 36 ≤ c
          · rw [clearsTo_notPort hp, clearsTo_notPort hp]
          · rw [hport _ (by omega)]
        rw [hblock, if_neg hc, hto]
        simp only [List.mem_cons, hc, false_or]
    · rw [blockClear_of_off hon]
      by_cases hc : c = b
      · subst hc
        rw [if_neg (fun h => hon h.2), if_neg (fun h => hon h.2)]
      · simp only [List.mem_cons, hc, false_or]

/-! ## A block goes ON -/

theorem snoopInv_kept (s : State) (a n : Nat) : EnablesKept s (s.snoopInv a n) ∧ (s.snoopInv a n).pwr = s.pwr := by
  have hfold (l : List Nat) : EnablesKept s (l.foldl (fun t l => t.emit (.bisnp l true)) s) ∧ (l.foldl (fun t l => t.emit (.bisnp l true)) s).pwr = s.pwr :=
    l.foldlRecOn _ (motive := fun t : State => EnablesKept s t ∧ t.pwr = s.pwr) ⟨.refl s, rfl⟩ fun _ h _ _ => ⟨h.1.trans ⟨rfl, rfl, rfl, rfl⟩, h.2⟩
  unfold State.snoopInv
  dsimp only
  obtain ⟨hkept, hpwr⟩ := hfold (s.snooped a n)
  exact ⟨hkept.trans ⟨rfl, rfl, rfl, rfl⟩, hpwr⟩

theorem countWritten_kept (s : State) (a n : Nat) : EnablesKept s (s.countWritten a n) ∧ (s.countWritten a n).pwr = s.pwr :=
  List.foldlRecOn (motive := fun t : State => EnablesKept s t ∧ t.pwr = s.pwr) _ _ ⟨.refl s, rfl⟩ fun _ h _ _ =>
    ⟨h.1.trans ⟨rfl, rfl, rfl, rfl⟩, h.2⟩

theorem memZero_kept (s : State) (a n : Nat) : EnablesKept s (s.memZero a n) ∧ (s.memZero a n).pwr = s.pwr := by
  obtain ⟨hsnoop, hsnoopPwr⟩ := snoopInv_kept s a n
  unfold State.memZero
  dsimp only
  generalize s.snoopInv a n = u at hsnoop hsnoopPwr
  obtain ⟨hcount, hcountPwr⟩ := countWritten_kept ((u.withMs fun m => { m with mem := m.mem.zero a (a + n) }).fresh a n) a n
  refine ⟨hsnoop.trans (EnablesKept.trans ?_ hcount), hcountPwr.trans hsnoopPwr⟩
  exact ⟨rfl, rfl, rfl, rfl⟩

theorem blockOn_spec (s : State) (b : Nat) : (∀ c, (s.blockOn b).block c = if c = b then 1 else s.block c) ∧ EnablesKept s (s.blockOn b) := by
  have hset : EnablesKept s (s.setBlock b 1) := ⟨rfl, rfl, rfl, rfl⟩
  have hblock (c : Nat) := block_setBlock s b c 1
  unfold State.blockOn
  dsimp only
  split
  · split
    · obtain ⟨hkept, hpwr⟩ := memZero_kept (s.setBlock b 1) ((b - 12) * 2 ^ 37) (2 ^ 37)
      exact ⟨fun c => (block_of_pwr hpwr c).trans (hblock c), hset.trans hkept⟩
    · exact ⟨hblock, hset⟩
  · split
    · exact ⟨hblock, hset.trans ⟨rfl, rfl, rfl, rfl⟩⟩
    · exact ⟨hblock, hset⟩

theorem block_foldl_on (l : List Nat) (s : State) (c : Nat) : (l.foldl (fun t b => t.blockOn b) s).block c = if c ∈ l then 1 else s.block c := by
  induction l generalizing s with
  | nil => rw [if_neg (by simp)]; rfl
  | cons b l ih =>
    obtain ⟨hblock, -⟩ := blockOn_spec s b
    rw [List.foldl_cons, ih, hblock]
    by_cases hl : c ∈ l
    · rw [if_pos hl, if_pos (List.mem_cons_of_mem _ hl)]
    · rw [if_neg hl]
      simp only [List.mem_cons, hl, or_false]

/-! ## BLOCK_ENABLES_WRITE and BLOCK_DRAINED -/

/-- The blocks below 40 whose bit is set in one value and clear in another. -/
def setOver (new old : Nat) : List Nat := (List.range 40).filter (fun b => bit new b && !bit old b)

theorem mem_setOver {new old b : Nat} : b ∈ setOver new old ↔ b < 40 ∧ bit new b = true ∧ bit old b = false := by
  simp [setOver]

/-- The state once new enables are in effect. -/
def State.enabled (s : State) (new old : Nat) : State :=
  (setOver new old).foldl (fun t b => t.blockOn b) ((setOver old new).foldl (fun t b => t.blockClear b) (s.setDv 0x0410 1 new))

theorem enabled_spec (s : State) (new old : Nat) : (s.enabled new old).dv 0x0410 1 = new ∧ (s.enabled new old).boot.porterRuns = s.boot.porterRuns ∧
    (s.enabled new old).boot.resetAfter = s.boot.resetAfter ∧ (s.enabled new old).por.current = s.por.current ∧
    ∀ b, b < 40 → (s.enabled new old).block b = if bit old b = false ∧ bit new b = true then 1
      else if bit old b = true ∧ bit new b = false ∧ s.block b = 1 then clearsTo b (s.port (b - 28)).state else s.block b := by
  have hkept : EnablesKept (s.setDv 0x0410 1 new) (s.enabled new old) :=
    (EnablesKept.foldl enablesKept_blockClear _ _).trans (.foldl (fun t b => (blockOn_spec t b).2) _ _)
  refine ⟨(hkept.dv _ _).trans (mget_mset_self ..), hkept.runs, hkept.reset, hkept.current, fun b hb => ?_⟩
  have hclear := block_foldl_clear (l := setOver old new) (List.Nodup.filter _ List.nodup_range) (s.setDv 0x0410 1 new) b
  rw [State.enabled, block_foldl_on, hclear]
  simp only [mem_setOver, hb, true_and, and_comm (a := bit new b = true), and_assoc]
  rfl

theorem writes_blockEnables {bs : List Byte} {s : State} (h : s.writes 0x0410 1 bs) (hready : s.boot.ready = true) :
    ((∃ b, b < 40 ∧ bit s.enables b = true ∧ bit (leNat bs % 2 ^ 40) b = false ∧ s.clearRefused b = true) →
      AnsweredWith dsBlockBusy s s.blockEnables ∧ s.blockEnables.pwr = s.pwr ∧ s.blockEnables.net = s.net ∧ s.blockEnables.clusters = s.clusters) ∧
    ((∀ b, b < 40 → bit s.enables b = true → bit (leNat bs % 2 ^ 40) b = false → s.clearRefused b = false) →
      AnsweredWith dsOk s s.blockEnables ∧ s.blockEnables.dv 0x0410 1 = leNat bs % 2 ^ 40 ∧
      ∀ b, b < 40 → s.blockEnables.block b = if bit s.enables b = false ∧ bit (leNat bs % 2 ^ 40) b = true then 1
        else if bit s.enables b = true ∧ bit (leNat bs % 2 ^ 40) b = false ∧ s.block b = 1 then clearsTo b (s.port (b - 28)).state
        else s.block b) := by
  obtain ⟨f, r, l, -, -, -, hserved⟩ := answered_of_writes h
  have hready' : ¬ (!(s.withSessions l).boot.ready) = true := by
    show ¬ (!s.boot.ready) = true
    rw [hready]
    exact Bool.false_ne_true
  have hrefused (b : Nat) : (s.withSessions l).clearRefused b = s.clearRefused b := rfl
  have hany : (setOver s.enables (leNat bs % 2 ^ 40)).any (s.withSessions l).clearRefused = true ↔
      ∃ b, b < 40 ∧ bit s.enables b = true ∧ bit (leNat bs % 2 ^ 40) b = false ∧ s.clearRefused b = true := by
    simp only [List.any_eq_true, mem_setOver, hrefused, and_assoc]
  constructor
  · intro hbusy
    obtain ⟨hans, hrest⟩ := hserved s.blockEnables rfl rfl (a := ⟨s.withSessions l, dsBlockBusy, 0, none⟩)
      ((if_neg hready').trans (if_pos (hany.2 hbusy))) rfl rfl rfl
    exact ⟨hans, (congrArg State.pwr hrest :), hrest.net, (congrArg State.clusters hrest :)⟩
  · intro hfree
    have hnot : ¬ (setOver s.enables (leNat bs % 2 ^ 40)).any (s.withSessions l).clearRefused = true := fun hbusy => by
      obtain ⟨b, hb, hold, hnew, href⟩ := hany.1 hbusy
      rw [hfree b hb hold hnew] at href
      cases href
    obtain ⟨hvalue, hruns, hreset, hcur, hblock⟩ := enabled_spec (s.withSessions l) (leNat bs % 2 ^ 40) s.enables
    have hlog := onlyLoss_noteTier ((s.withSessions l).enabled (leNat bs % 2 ^ 40) s.enables) (s.withSessions l).tier
    have hpwr : (((s.withSessions l).enabled (leNat bs % 2 ^ 40) s.enables).noteTier (s.withSessions l).tier).pwr =
        ((s.withSessions l).enabled (leNat bs % 2 ^ 40) s.enables).pwr := by
      unfold State.noteTier
      split <;> rfl
    obtain ⟨hans, hrest⟩ := hserved s.blockEnables rfl rfl
      (a := ⟨((s.withSessions l).enabled (leNat bs % 2 ^ 40) s.enables).noteTier (s.withSessions l).tier, dsOk, 0, none⟩)
      ((if_neg hready').trans (if_neg hnot)) (hlog.resetAfter.trans hreset) (hlog.porterRuns.trans hruns) (hlog.current.trans hcur)
    have hrestPwr : s.blockEnables.pwr = ((s.withSessions l).enabled (leNat bs % 2 ^ 40) s.enables).pwr := (congrArg State.pwr hrest :).trans hpwr
    exact ⟨hans, (hrest.dv _ _).trans ((hlog.dv _ _).trans hvalue), fun b hb => (block_of_pwr hrestPwr b).trans (hblock b hb)⟩

theorem blockDrained_spec (s : State) (b : Nat) :
    (s.blockDrained b).clusters = s.clusters ∧ (s.blockDrained b).ms = s.ms ∧
    (s.blockDrained b).pwr = if s.block b = 2 ∧ s.drained b = true then (s.setBlock b 0).pwr else s.pwr := by
  have hnote (u : State) : (u.noteTier s.tier).clusters = u.clusters ∧ (u.noteTier s.tier).ms = u.ms ∧ (u.noteTier s.tier).pwr = u.pwr := by
    unfold State.noteTier
    split <;> exact ⟨rfl, rfl, rfl⟩
  unfold State.blockDrained
  extract_lets before enc u
  have hu : u.clusters = s.clusters ∧ u.ms = s.ms ∧ u.pwr = s.pwr ∧ u.drained b = s.drained b := by
    simp only [u]
    split <;> exact ⟨rfl, rfl, rfl, rfl⟩
  clear_value u
  obtain ⟨hclusters, hms, hpwr, hdrained⟩ := hu
  obtain ⟨hclusters', hms', hpwr'⟩ := hnote (if u.block b = 2 ∧ u.drained b = true then u.setBlock b 0 else u)
  refine ⟨hclusters'.trans ?_, hms'.trans ?_, hpwr'.trans ?_⟩
  · split <;> exact hclusters
  · split <;> exact hms
  · rw [block_of_pwr hpwr, hdrained]
    split
    · show { u.pwr with blocks := mset u.pwr.blocks b 0 } = { s.pwr with blocks := mset s.pwr.blocks b 0 }
      rw [hpwr]
    · exact hpwr

theorem blockDrained_of_drained {s : State} {b : Nat} (hdrain : s.block b = 2) (hdone : s.drained b = true) (c : Nat) :
    (s.blockDrained b).block c = if c = b then 0 else s.block c := by
  obtain ⟨-, -, hpwr⟩ := blockDrained_spec s b
  rw [if_pos ⟨hdrain, hdone⟩] at hpwr
  exact (block_of_pwr hpwr c).trans (block_setBlock s b c 0)

/-! ## Dividers (R403, R405, R406) -/

theorem writes_divOverride {u : Nat} {bs : List Byte} {s : State} (hlo : 1 ≤ u) (hhi : u ≤ 3) (h : s.writes 0x0401 u bs) :
    AnsweredWith dsOk s s.divOverride ∧ s.divOverride.dv 0x0401 u = leNat bs ∧ s.divOverride.pwr = s.pwr := by
  obtain ⟨f, r, l, -, hsub, hserved⟩ := served_of_writes h
  subst hsub
  obtain ⟨hans, hrest⟩ := hserved s.divOverride rfl (by simp [hlo, hhi]) (a := ⟨(s.withSessions l).setDv 0x0401 r.sub (leNat bs), dsOk, 0, none⟩) rfl rfl rfl
  exact ⟨hans, (hrest.dv _ _).trans (mget_mset_self ..), (congrArg State.pwr hrest :)⟩

theorem stepTo_eq_self {cur target : Nat} (h : stepTo cur target = cur) : cur = target := by
  unfold stepTo at h
  split at h
  · omega
  · split at h <;> omega

/-- A step within the ratios: the dividers move, and the voltage ahead of them or behind. -/
theorem rampStep_of_ratios {s : State} (hf : stepTo s.pwr.fabricDiv s.fabricTarget ≤ stepTo s.pwr.arithDiv s.arithTarget)
    (hc : stepTo s.pwr.ctrlDiv s.ctrlTarget ≤ 4 * stepTo s.pwr.arithDiv s.arithTarget) (hm : 2 * stepTo s.pwr.ctrlDiv s.ctrlTarget ≤ 64) :
    s.rampStep = .next (s.withPwr fun p => { p with
      arithDiv := stepTo s.pwr.arithDiv s.arithTarget, fabricDiv := stepTo s.pwr.fabricDiv s.fabricTarget
      ctrlDiv := stepTo s.pwr.ctrlDiv s.ctrlTarget
      vddDiv := vddAfter s.pwr.arithDiv (stepTo s.pwr.arithDiv s.arithTarget) s.arithTarget }) := by
  unfold State.rampStep
  dsimp only
  split
  · next hsame =>
    obtain ⟨ha, hf', hc'⟩ := hsame
    have hvdd : vddAfter s.pwr.arithDiv s.pwr.arithDiv s.arithTarget = s.pwr.arithDiv := by
      unfold vddAfter
      rw [if_neg (by have := stepTo_eq_self ha; omega), if_neg (Nat.lt_irrefl _)]
    rw [ha, hf', hc', hvdd]
    rfl
  · rw [if_pos (by simp [ratiosOk, hf, hc, hm])]
    rfl

theorem rampStep_of_broken {s : State} (hmoves : (stepTo s.pwr.arithDiv s.arithTarget, stepTo s.pwr.fabricDiv s.fabricTarget,
      stepTo s.pwr.ctrlDiv s.ctrlTarget) ≠ (s.pwr.arithDiv, s.pwr.fabricDiv, s.pwr.ctrlDiv))
    (hbroken : stepTo s.pwr.arithDiv s.arithTarget < stepTo s.pwr.fabricDiv s.fabricTarget ∨
      4 * stepTo s.pwr.arithDiv s.arithTarget < stepTo s.pwr.ctrlDiv s.ctrlTarget ∨ 64 < 2 * stepTo s.pwr.ctrlDiv s.ctrlTarget) :
    s.rampStep = .next s.undefined := by
  unfold State.rampStep
  dsimp only
  rw [if_neg fun h => hmoves (by rw [h.1, h.2.1, h.2.2]), if_neg]
  intro h
  simp only [ratiosOk, Bool.and_eq_true, decide_eq_true_eq] at h
  omega

/-- Undefined behaviour keeps every firmware image but for its state. -/
theorem fwImage_undefined (s : State) (b : Nat) : { s.undefined.fwImage b with stage := 0 } = { s.fwImage b with stage := 0 } := by
  rw [State.fwImage, State.fwImage, undefined_banks, State.imagesKept]
  induction s.boot.banks with
  | nil => rfl
  | cons p rest ih =>
    rw [List.map_cons]
    simp only [mget]
    split
    · rfl
    · exact ih

end Sys2Proof.Machine

/-! PROOFS. The steward: samples, periods, and the profile (R410–R417). -/

namespace Sys2Proof.Machine

/-! ## What upsets of the arrays leave (log 60) -/

/-- Beside the counters of cores and caches and the marks of stacked memory, nothing differs. -/
structure UpsetKept (s t : State) : Prop where
  rest : { t with cores := [], clusters := [], ms := {} } = { s with cores := [], clusters := [], ms := {} }
  mem : t.ms.mem = s.ms.mem
  holder : ∀ k, (t.cluster k).holder = (s.cluster k).holder

theorem upsetKept_upset (s : State) (u : Upset) : UpsetKept s (s.upset u) := by
  cases u with
  | coreCorrected c n => exact ⟨rfl, rfl, fun _ => rfl⟩
  | cacheCorrected k n =>
    refine ⟨rfl, rfl, fun i => ?_⟩
    show ((s.bumpCluster k 8 n).cluster i).holder = _
    rw [State.bumpCluster, cluster_modCluster]
    split
    · next h => rw [h]
    · rfl
  | stackFlip g =>
    refine ⟨rfl, ?_, fun _ => rfl⟩
    show (if s.ms.poison.contains g.toNat then s.ms else { s.ms with flips := (s.ms.flips ++ [g.toNat]).eraseDups }).mem = s.ms.mem
    split <;> rfl
  | stackBad g => exact ⟨rfl, rfl, fun _ => rfl⟩
  | parity m n => exact ⟨rfl, rfl, fun _ => rfl⟩

theorem upsetKept_foldl (l : List Upset) (s : State) : UpsetKept s (l.foldl State.upset s) :=
  l.foldlRecOn State.upset (motive := UpsetKept s) ⟨rfl, rfl, fun _ => rfl⟩ fun t ht u _ =>
    have hu := upsetKept_upset t u
    ⟨hu.rest.trans ht.rest, hu.mem.trans ht.mem, fun k => (hu.holder k).trans (ht.holder k)⟩

/-! ## What a job's readiness rests on -/

/-- Where a job waits for its group, its window and an activation, and whose clusters are whose, it is as ready. -/
theorem isReady_congr {s t : State} (hhub : t.hub = s.hub) (hnet : t.net = s.net) (hcar : t.car = s.car) (hboot : t.boot = s.boot)
    (hvals : t.por.vals = s.por.vals) (hholder : ∀ k, (t.cluster k).holder = (s.cluster k).holder) (j : Job) : t.isReady j = s.isReady j := by
  have hheld : t.heldClusters j = s.heldClusters j := by simp only [State.heldClusters, hholder]
  have hgroup (g : Nat) : t.group g = s.group g := by rw [State.group, hnet]; rfl
  have hdv (i u : Nat) : t.dv i u = s.dv i u := by rw [State.dv, hvals]; rfl
  have hslot (i : Nat) : t.slot i = s.slot i := by rw [State.slot, hcar]; rfl
  have hdemand (i : Nat) : t.slotOnDemand i = s.slotOnDemand i := by rw [State.slotOnDemand, hdv]; rfl
  have hlen (i : Nat) : t.winLen i = s.winLen i := by
    simp only [State.winLen, State.winFrames, hdemand, hslot, hdv]
  have hsame (i k : Nat) : t.sameWindow i k = s.sameWindow i k := by
    unfold State.sameWindow State.winBase
    rw [hlen, hlen, hdv, hdv]
  have hjobs (i : Nat) : t.windowJobs i = s.windowJobs i := by
    unfold State.windowJobs
    rw [hhub]
    simp only [hsame]
  have howner (i : Nat) : t.regionOwner i = s.regionOwner i := by
    simp only [State.regionOwner, hsame, hslot]
  have hwait : t.windowWait j = s.windowWait j := by
    simp only [State.windowWait, hjobs, hdemand, howner]
  have hpaused : t.heldByActivation j = s.heldByActivation j := by
    unfold State.heldByActivation State.saveable
    rw [hboot]
  simp only [State.isReady, hheld, hgroup, hwait, hpaused]

/-! ## What the steward moves -/

/-- The power unit without what the steward decides. -/
def Power.sansSteward (p : Power) : Power :=
  { p with opTarget := 0, holdDispatch := false, throttled := false, throttledLast := false, profile := {} }

/-- The state without what the steward decides, its draws, the slots whose depths it sets, and the log. -/
def State.sansSteward (s : State) : State :=
  { s with
    draws := 0, car := { s.car with slots := [] }, pwr := s.pwr.sansSteward
    por := { s.por with log := [], logSeq := 0, alertPin := false, alertSeq := 0 } }

/-- Beside what the steward decides, nothing differs. -/
structure StewardMoves (s t : State) : Prop where
  same : t.sansSteward = s.sansSteward

namespace StewardMoves

theorem refl (s : State) : StewardMoves s s := ⟨rfl⟩

theorem trans {s t u : State} (h : StewardMoves s t) (h' : StewardMoves t u) : StewardMoves s u := ⟨h'.same.trans h.same⟩

theorem foldl {α : Type} {f : State → α → State} (h : ∀ t a, StewardMoves t (f t a)) (l : List α) (s : State) : StewardMoves s (l.foldl f s) :=
  l.foldlRecOn f (motive := StewardMoves s) (refl s) fun _ ht a _ => ht.trans (h _ a)

theorem ite {s t u : State} {p : Prop} [Decidable p] (ht : StewardMoves s t) (hu : StewardMoves s u) : StewardMoves s (if p then t else u) := by
  split
  · exact ht
  · exact hu

variable {s t : State} (h : StewardMoves s t)
include h

theorem vals : t.por.vals = s.por.vals := (congrArg (fun x => x.por.vals) h.same :)
theorem dv (i u : Nat) : t.dv i u = s.dv i u := by rw [State.dv, h.vals]; rfl
theorem hub : t.hub = s.hub := (congrArg State.hub h.same :)
theorem net : t.net = s.net := (congrArg State.net h.same :)
theorem ms : t.ms = s.ms := (congrArg State.ms h.same :)
theorem clusters : t.clusters = s.clusters := (congrArg State.clusters h.same :)
theorem cores : t.cores = s.cores := (congrArg State.cores h.same :)
theorem boot : t.boot = s.boot := (congrArg State.boot h.same :)
theorem current : t.por.current = s.por.current := (congrArg (fun x => x.por.current) h.same :)
theorem pacing : t.pacing = s.pacing := (congrArg State.pacing h.same :)
theorem pwr : t.pwr.sansSteward = s.pwr.sansSteward := (congrArg State.pwr h.same :)

end StewardMoves

theorem stewardMoves_setPoint (s : State) (p : Nat) : StewardMoves s (s.setPoint p) := .ite ⟨rfl⟩ (.refl s)

theorem stewardMoves_capStep (s : State) : StewardMoves s s.capStep := by
  unfold State.capStep
  dsimp only
  split
  · exact ⟨rfl⟩
  · split
    · exact ⟨rfl⟩
    · exact StewardMoves.trans (t := s.learn) ⟨rfl⟩ (stewardMoves_setPoint _ _)

theorem stewardMoves_thermalStep (s : State) : StewardMoves s s.thermalStep := by
  unfold State.thermalStep
  extract_lets dies limit hot began u v
  have hu : StewardMoves s u := ⟨rfl⟩
  have hv : StewardMoves u v := .ite ⟨rfl⟩ (.refl u)
  exact .ite ((hu.trans hv).trans (stewardMoves_setPoint _ _)) (hu.trans hv)

theorem car_setPoint (s : State) (p : Nat) : (s.setPoint p).car = s.car := by
  unfold State.setPoint
  split <;> rfl

theorem car_capStep (s : State) : s.capStep.car = s.car := by
  unfold State.capStep
  dsimp only
  split
  · rfl
  · split
    · rfl
    · exact car_setPoint _ _

theorem car_thermalStep (s : State) : s.thermalStep.car = s.car := by
  unfold State.thermalStep
  extract_lets dies limit hot began u v
  have hv : v.car = s.car := by
    simp only [v]
    split <;> rfl
  split
  · exact (car_setPoint _ _).trans hv
  · exact hv

/-! ## STEWARD_SAMPLE (R410, R412, R413) -/

/-- The readings of a sample, with the energy of a millisecond. -/
def State.takeReadings (s : State) (w : Nat) (m : PowerSample) : State := s.withPwr fun p => { p with
  vinMv := m.vinMv, iinMa := m.iinMa, pinW := BitVec.ofNat 32 w, pins := latestPins w p.pins
  avgW := BitVec.ofNat 32 (averageW (latestPins w p.pins)), temps := m.temps.take 6, energyMj := p.energyMj + BitVec.ofNat 64 w }

/-- A sample over the cap is counted. -/
def State.countOver (s : State) : State :=
  if decide (s.capNow < s.pwr.avgW.toNat) then s.withPwr (fun p => { p with capExceeded := p.capExceeded + 1 }) else s

theorem countOver_spec (s : State) : s.countOver = s.withPwr fun p => { p with
    capExceeded := p.capExceeded + if s.capNow < s.pwr.avgW.toNat then 1 else 0 } := by
  unfold State.countOver
  split
  · next h => rw [if_pos (of_decide_eq_true h)]
  · next h =>
    rw [if_neg (by simpa using h)]
    exact congrArg (fun q : Quad => { s with pwr := { s.pwr with capExceeded := q } }) (BitVec.add_zero _).symm

theorem powerSample_eq (s : State) (m : PowerSample) : ∃ v, s.powerSample m = v.watchReady ∧
    StewardMoves ((m.upsets.foldl State.upset s).takeReadings (min s.drawMax m.pinW.toNat) m).countOver v ∧
    v.car = ((m.upsets.foldl State.upset s).takeReadings (min s.drawMax m.pinW.toNat) m).countOver.car := by
  have hcar (u : State) : (if u.stewards then u.capStep else u).thermalStep.car = u.car := by
    refine (car_thermalStep _).trans ?_
    split
    · exact car_capStep u
    · rfl
  have hmoves (u : State) : StewardMoves u (if u.stewards then u.capStep else u).thermalStep :=
    (StewardMoves.ite (stewardMoves_capStep u) (.refl u)).trans (stewardMoves_thermalStep _)
  have hlog (u : State) (p : Bool) : StewardMoves u (if p then u.logEvent 5 0 0xFF 1 else u) ∧ (if p then u.logEvent 5 0 0xFF 1 else u).car = u.car := by
    split
    · exact ⟨⟨rfl⟩, rfl⟩
    · exact ⟨.refl u, rfl⟩
  unfold State.powerSample
  exact ⟨_, rfl, (hlog _ _).1.trans (hmoves _), (hcar _).trans (hlog _ _).2⟩

theorem hub_watchReady (v : State) : v.watchReady.hub =
    { v.hub with jobs := v.hub.jobs.map (fun j => if v.isReady j then j else { j with readyPacing := v.pacing }) } := rfl

theorem powerSample_spec (m : PowerSample) (s : State) :
    let u := m.upsets.foldl State.upset s
    let w := min (if s.tier ≤ 1 then 20 else 2800) m.pinW.toNat
    let pins := (w :: s.pwr.pins).take 10
    let t := s.powerSample m
    t.pwr.vinMv = m.vinMv ∧ t.pwr.iinMa = m.iinMa ∧
    t.pwr.pinW = BitVec.ofNat 32 w ∧ t.pwr.pins = pins ∧ t.pwr.avgW = BitVec.ofNat 32 (pins.sum / pins.length) ∧
    t.pwr.temps = m.temps.take 6 ∧ t.pwr.energyMj = s.pwr.energyMj + BitVec.ofNat 64 w ∧
    t.pwr.capExceeded = s.pwr.capExceeded + (if t.capNow < t.pwr.avgW.toNat then 1 else 0) ∧ t.pwr.blocks = s.pwr.blocks ∧
    t.pwr.arithDiv = s.pwr.arithDiv ∧ t.clusters = u.clusters ∧ t.cores = u.cores ∧ t.ms = u.ms ∧ t.ms.mem = s.ms.mem ∧
    t.hub = { s.hub with jobs := s.hub.jobs.map (fun j => if s.isReady j then j else { j with readyPacing := s.pacing }) } := by
  intro u w pins t
  obtain ⟨v, ht, hmoves, hcar⟩ := powerSample_eq s m
  have hkept := upsetKept_foldl m.upsets s
  change StewardMoves (u.takeReadings w m).countOver v at hmoves
  rw [countOver_spec] at hmoves hcar
  change v.car = u.car at hcar
  have hu : UpsetKept s u := hkept
  clear_value u
  have hpwr : u.pwr = s.pwr := (congrArg State.pwr hu.rest :)
  have hvals : u.por.vals = s.por.vals := (congrArg (fun x : State => x.por.vals) hu.rest :)
  have hstate : v.pwr.sansSteward = Power.sansSteward { s.pwr with
      vinMv := m.vinMv, iinMa := m.iinMa, pinW := BitVec.ofNat 32 w, pins := pins, avgW := BitVec.ofNat 32 (pins.sum / pins.length)
      temps := m.temps.take 6, energyMj := s.pwr.energyMj + BitVec.ofNat 64 w
      capExceeded := s.pwr.capExceeded + if (u.takeReadings w m).capNow < (u.takeReadings w m).pwr.avgW.toNat then 1 else 0 } := by
    refine hmoves.pwr.trans ?_
    simp only [pins, ← hpwr]
    rfl
  have hcap : v.capNow = (u.takeReadings w m).capNow := by
    unfold State.capNow
    rw [show v.pwr.vinMv = (u.takeReadings w m).pwr.vinMv from (congrArg Power.vinMv hstate :), hmoves.dv]
    rfl
  have havg : v.pwr.avgW = (u.takeReadings w m).pwr.avgW := by
    refine (congrArg Power.avgW hmoves.pwr :)
  have htp : t = v.watchReady := ht
  have hhub : v.hub = s.hub := hmoves.hub.trans (congrArg State.hub hu.rest :)
  have hnet : v.net = s.net := hmoves.net.trans (congrArg State.net hu.rest :)
  have hboot : v.boot = s.boot := hmoves.boot.trans (congrArg State.boot hu.rest :)
  have hcar' : v.car = s.car := hcar.trans (congrArg State.car hu.rest :)
  have hpacing : v.pacing = s.pacing := hmoves.pacing.trans (congrArg State.pacing hu.rest :)
  have hholder (k : Nat) : (v.cluster k).holder = (s.cluster k).holder := by
    rw [cluster_of_clusters (hmoves.clusters : v.clusters = u.clusters)]
    exact hu.holder k
  have hready (j : Job) : v.isReady j = s.isReady j := isReady_congr hhub hnet hcar' hboot (hmoves.vals.trans hvals) hholder j
  clear_value t
  subst htp
  refine ⟨(congrArg Power.vinMv hstate :), (congrArg Power.iinMa hstate :), (congrArg Power.pinW hstate :), (congrArg Power.pins hstate :),
    (congrArg Power.avgW hstate :), (congrArg Power.temps hstate :), (congrArg Power.energyMj hstate :), ?_, (congrArg Power.blocks hstate :),
    (congrArg Power.arithDiv hstate :), hmoves.clusters, hmoves.cores, hmoves.ms, (congrArg MemSys.mem hmoves.ms).trans hu.mem, ?_⟩
  · refine (congrArg Power.capExceeded hstate :).trans ?_
    rw [← hcap, ← havg]
    rfl
  · rw [hub_watchReady]
    simp only [hready]
    rw [hhub, hpacing]

/-! ## STEWARD_PERIOD (R414, R415) -/

theorem stewardMoves_periodStall (s : State) (i pct : Nat) (fits : Bool) : StewardMoves s (s.periodStall i pct fits) ∧ (s.periodStall i pct fits).pwr = s.pwr ∧
    (s.periodStall i pct fits).car = s.car := by
  unfold State.periodStall
  split
  · exact ⟨⟨rfl⟩, rfl, rfl⟩
  · exact ⟨.refl s, rfl, rfl⟩

theorem stewardMoves_periodDepth (s : State) (i pct : Nat) : StewardMoves s (s.periodDepth i pct) ∧ (s.periodDepth i pct).pwr = s.pwr := by
  unfold State.periodDepth
  dsimp only
  split
  · exact ⟨.refl s, rfl⟩
  · split
    · exact ⟨⟨rfl⟩, rfl⟩
    · split
      · exact ⟨⟨rfl⟩, rfl⟩
      · exact ⟨.refl s, rfl⟩

theorem stewardMoves_periodSite (s : State) (i : Nat) : StewardMoves s (s.periodSite i) ∧ (s.periodSite i).pwr.opTarget = s.pwr.opTarget ∧
    (s.periodSite i).pwr.throttled = s.pwr.throttled := by
  unfold State.periodSite
  dsimp only
  split
  · exact ⟨⟨rfl⟩, rfl, rfl⟩
  · exact ⟨.refl s, rfl, rfl⟩

/-- Moving to a point that is no faster while a die throttles: the point in effect gets no faster, and the throttling stays. -/
theorem setPoint_spec (s : State) (p : Nat) : (s.setPoint p).pwr.throttled = s.pwr.throttled ∧ (s.pwr.opTarget ≤ p → s.pwr.opTarget ≤ (s.setPoint p).pwr.opTarget) := by
  unfold State.setPoint
  split
  · exact ⟨rfl, id⟩
  · exact ⟨rfl, fun _ => Nat.le_refl _⟩

/-- What the steward decides at a period with a window behind it. -/
def State.decides (s : State) (m : StewardMeasure) (pcts : List (Nat × Nat)) : State :=
  let s := s.learn
  let s := if s.stewards then s.periodPoint m else s
  let s := pcts.foldl (fun t p => t.periodDepth p.1 p.2) s
  (List.range 16).foldl (fun t i => t.periodSite i) s

theorem decides_spec (s : State) (m : StewardMeasure) (pcts : List (Nat × Nat)) : StewardMoves s (s.decides m pcts) ∧
    (s.decides m pcts).pwr.throttled = s.pwr.throttled ∧ (s.pwr.throttled = true → s.pwr.opTarget ≤ (s.decides m pcts).pwr.opTarget) := by
  have hpoint : StewardMoves s.learn (if s.learn.stewards then s.learn.periodPoint m else s.learn) ∧
      (if s.learn.stewards then s.learn.periodPoint m else s.learn).pwr.throttled = s.pwr.throttled ∧
      (s.pwr.throttled = true → s.pwr.opTarget ≤ (if s.learn.stewards then s.learn.periodPoint m else s.learn).pwr.opTarget) := by
    split
    · obtain ⟨hthrottled, hslower⟩ := setPoint_spec s.learn
        (if s.learn.pwr.throttled then max (s.learn.capPoint (s.learn.wantPoint m)) s.learn.pwr.opTarget else s.learn.capPoint (s.learn.wantPoint m))
      refine ⟨stewardMoves_setPoint _ _, hthrottled, fun h => hslower ?_⟩
      rw [if_pos (show s.learn.pwr.throttled = true from h)]
      exact Nat.le_max_right ..
    · exact ⟨.refl _, rfl, fun _ => Nat.le_refl _⟩
  unfold State.decides
  extract_lets a b c
  change StewardMoves a b ∧ b.pwr.throttled = s.pwr.throttled ∧ _ at hpoint
  have ha : StewardMoves s a := ⟨rfl⟩
  have hc : StewardMoves b c ∧ c.pwr = b.pwr := List.foldlRecOn (motive := fun t : State => StewardMoves b t ∧ t.pwr = b.pwr) _ _ ⟨.refl b, rfl⟩
    fun t ht p _ => ⟨ht.1.trans (stewardMoves_periodDepth t _ _).1, (stewardMoves_periodDepth t _ _).2.trans ht.2⟩
  have hd : StewardMoves c ((List.range 16).foldl (fun t i => t.periodSite i) c) ∧
      ((List.range 16).foldl (fun t i => t.periodSite i) c).pwr.opTarget = c.pwr.opTarget ∧
      ((List.range 16).foldl (fun t i => t.periodSite i) c).pwr.throttled = c.pwr.throttled :=
    List.foldlRecOn (motive := fun t : State => StewardMoves c t ∧ t.pwr.opTarget = c.pwr.opTarget ∧ t.pwr.throttled = c.pwr.throttled) _ _
      ⟨.refl c, rfl, rfl⟩ fun t ht i _ => by
        obtain ⟨hmoves, hop, hthr⟩ := stewardMoves_periodSite t i
        exact ⟨ht.1.trans hmoves, hop.trans ht.2.1, hthr.trans ht.2.2⟩
  obtain ⟨hb, hthrottled, hslower⟩ := hpoint
  obtain ⟨hd, hop, hthr⟩ := hd
  refine ⟨((ha.trans hb).trans hc.1).trans hd, hthr.trans ((congrArg Power.throttled hc.2).trans hthrottled), fun h => ?_⟩
  rw [hop, hc.2]
  exact hslower h

theorem period_spec (m : StewardMeasure) {s : State} (hready : s.boot.ready = true) :
    let ms := s.pwr.windowMs + s.dv 0x0510 5
    let full := s.dv 0x0510 6 * 1000 ≤ ms
    let t := s.period m
    t.pwr.windowMs = (if full then 0 else ms) ∧ (full → t.pwr.windowPassed = true) ∧
    (s.pwr.windowPassed = false → ¬ full → t.pwr.opTarget = s.pwr.opTarget ∧ t.car = s.car) ∧ t.pwr.arithDiv = s.pwr.arithDiv ∧
    (full → t.pwr.lateLast = s.pwr.late ∧ t.pwr.queuedLast = s.pwr.queued ∧ t.pwr.late = false ∧ t.pwr.queued = false) ∧
    (¬ full → t.pwr.lateLast = s.pwr.lateLast ∧ t.pwr.queuedLast = s.pwr.queuedLast ∧ t.pwr.late = s.pwr.late ∧ t.pwr.queued = s.pwr.queued) ∧
    (s.pwr.throttled = true → s.pwr.opTarget ≤ t.pwr.opTarget) ∧ t.pwr.throttledLast = s.pwr.throttled ∧
    t.clusters = s.clusters ∧ t.ms = s.ms ∧ t.hub = s.hub := by
  intro ms full t
  have ht : t = s.period m := rfl
  clear_value t
  unfold State.period at ht
  rw [if_neg (by rw [hready]; exact Bool.false_ne_true)] at ht
  extract_lets fullB pcts u learned pointed deepened v at ht
  have hu : StewardMoves s u ∧ u.pwr = s.pwr ∧ u.car = s.car :=
    List.foldlRecOn (motive := fun t : State => StewardMoves s t ∧ t.pwr = s.pwr ∧ t.car = s.car) _ _ ⟨.refl s, rfl, rfl⟩ fun t ht p _ => by
      obtain ⟨hmoves, hpwr, hcar⟩ := stewardMoves_periodStall t p.1 p.2 (m.fits.contains p.1)
      exact ⟨ht.1.trans hmoves, hpwr.trans ht.2.1, hcar.trans ht.2.2⟩
  obtain ⟨hu, hpwr, hcar⟩ := hu
  have hv : StewardMoves u v ∧ v.pwr.throttled = u.pwr.throttled ∧ (u.pwr.throttled = true → u.pwr.opTarget ≤ v.pwr.opTarget) ∧
      ((u.pwr.windowPassed || fullB) = false → v = u) := by
    have hveq : v = if !(u.pwr.windowPassed || fullB) then u else u.decides m pcts := rfl
    clear_value v
    obtain ⟨hmoves, hthrottled, hslower⟩ := decides_spec u m pcts
    rw [hveq]
    split
    · exact ⟨.refl u, rfl, fun _ => Nat.le_refl _, fun _ => rfl⟩
    · next hpassed => exact ⟨hmoves, hthrottled, hslower, fun h => absurd (by rw [h]; rfl) hpassed⟩
  have hfull : fullB = decide full := rfl
  clear_value v u fullB
  subst hfull ht
  obtain ⟨hv, hthrottled, hslower, hheld⟩ := hv
  rw [hpwr] at hthrottled hslower hheld
  have hmoves := hu.trans hv
  have hp := hmoves.pwr
  have hpassed : v.pwr.windowPassed = s.pwr.windowPassed := (congrArg Power.windowPassed hp :)
  have hlate : v.pwr.late = s.pwr.late := (congrArg Power.late hp :)
  have hqueued : v.pwr.queued = s.pwr.queued := (congrArg Power.queued hp :)
  have hlateLast : v.pwr.lateLast = s.pwr.lateLast := (congrArg Power.lateLast hp :)
  have hqueuedLast : v.pwr.queuedLast = s.pwr.queuedLast := (congrArg Power.queuedLast hp :)
  refine ⟨?_, fun hf => ?_, fun hw hf => ?_, (congrArg Power.arithDiv hp :), fun hf => ?_, fun hf => ?_, hslower, hthrottled, hmoves.clusters,
    hmoves.ms, hmoves.hub⟩
  · by_cases hf : full
    · simp only [State.withPwr, hf, decide_true, if_true]
    · simp only [State.withPwr, hf, decide_false, Bool.false_eq_true, if_false]
  · simp only [State.withPwr, hf, decide_true, Bool.or_true]
  · have huv : v = u := hheld (by simp [hw, hf])
    rw [huv]
    exact ⟨(congrArg Power.opTarget hpwr :), hcar⟩
  · simp only [State.withPwr, hf, decide_true, if_true, hlate, hqueued, Bool.not_true, Bool.and_false, and_self]
  · simp only [State.withPwr, hf, decide_false, Bool.false_eq_true, if_false, hlate, hqueued, hlateLast, hqueuedLast, Bool.not_false, Bool.and_true, and_self]

/-! ## The profile (R416, R417) -/

theorem ledgerPut_profile (s : State) : EnablesKept s (s.ledgerPut .profile) ∧ (s.ledgerPut .profile).pwr = s.pwr ∧
    (s.ledgerPut .profile).por.ledgerQueue = s.por.ledgerQueue ++ [.profile] ∧ (s.ledgerPut .profile).boot = s.boot := by
  have hturn (u : State) : EnablesKept u u.ledgerTurn ∧ u.ledgerTurn.pwr = u.pwr ∧ u.ledgerTurn.por.ledgerQueue = u.por.ledgerQueue ∧ u.ledgerTurn.boot = u.boot := by
    have hbank (v : State) (b : Nat) (img : LedgerImage) : EnablesKept v ((v.setBank b none).withPor fun p => { p with ledgerImage := some img }) ∧
        ((v.setBank b none).withPor fun p => { p with ledgerImage := some img }).pwr = v.pwr ∧
        ((v.setBank b none).withPor fun p => { p with ledgerImage := some img }).por.ledgerQueue = v.por.ledgerQueue ∧
        ((v.setBank b none).withPor fun p => { p with ledgerImage := some img }).boot = v.boot := by
      unfold State.setBank State.withPor
      dsimp only
      split <;> exact ⟨⟨rfl, rfl, rfl, rfl⟩, rfl, rfl, rfl⟩
    unfold State.ledgerTurn
    split
    · next op _ _ _ =>
      obtain ⟨hkept, hpwr, hqueue, hboot⟩ := hbank (u.imageOf op).2 (u.imageOf op).2.ledgerTarget (u.imageOf op).1
      have hdrawn : EnablesKept u (u.imageOf op).2 := ⟨rfl, rfl, rfl, rfl⟩
      dsimp only
      split
      · exact ⟨(hdrawn.trans hkept).trans ⟨rfl, rfl, rfl, rfl⟩, hpwr, hqueue, hboot⟩
      · exact ⟨hdrawn.trans hkept, hpwr, hqueue, hboot⟩
    · exact ⟨.refl u, rfl, rfl, rfl⟩
  obtain ⟨hkept, hpwr, hqueue, hboot⟩ := hturn (s.withPor fun p => { p with ledgerQueue := p.ledgerQueue ++ [.profile] })
  exact ⟨EnablesKept.trans (t := s.withPor fun p => { p with ledgerQueue := p.ledgerQueue ++ [.profile] }) ⟨rfl, rfl, rfl, rfl⟩ hkept, hpwr, hqueue, hboot⟩

theorem le_firstPoint {ps : List Nat} {d n : Nat} {ok : Nat → Bool} (hps : ∀ p ∈ ps, n ≤ p) (hd : n ≤ d) : n ≤ firstPoint ps d ok := by
  unfold firstPoint
  cases hfind : ps.find? ok with
  | none => exact hd
  | some p => exact hps p (List.mem_of_find?_eq_some hfind)

theorem le_of_mem_pointsFrom {a b p : Nat} (h : p ∈ pointsFrom a b) : a ≤ p := by
  obtain ⟨i, -, rfl⟩ := List.mem_map.1 h
  exact Nat.le_add_right a i

/-- A raise from a point no faster than the present one is none. -/
theorem le_raisePoint {s : State} {want : Nat} (h : s.pwr.opTarget ≤ want) : s.pwr.opTarget ≤ s.raisePoint want :=
  le_firstPoint (fun _ hp => h.trans (le_of_mem_pointsFrom hp)) (Nat.le_max_right ..)

/-- The power unit without what the steward decides while it takes a profile, and its window. -/
def State.profileTaken (s : State) (p : Profile) (source : Nat) : State := s.withPwr (fun w => { w with
  profile := p, profileState := source, windowMs := 0, windowPassed := false, siteTally := [], late := false, queued := false
  lateLast := false, queuedLast := false })

theorem takeProfile_spec (s : State) (p : Profile) (source : Nat) : StewardMoves (s.profileTaken p source) (s.takeProfile p source) ∧
    (s.pwr.throttled = true ∨ s.pwr.throttledLast = true → s.pwr.opTarget ≤ (s.takeProfile p source).pwr.opTarget) := by
  have hdepths (u : State) : StewardMoves u ((List.range 16).foldl (fun t i => t.modSlot i (fun x => { x with depth := mget 3 p.depths i })) u) ∧
      ((List.range 16).foldl (fun t i => t.modSlot i (fun x => { x with depth := mget 3 p.depths i })) u).pwr = u.pwr :=
    List.foldlRecOn (motive := fun t : State => StewardMoves u t ∧ t.pwr = u.pwr) _ _ ⟨.refl u, rfl⟩ fun t ht i _ => ⟨ht.1.trans ⟨rfl⟩, ht.2⟩
  unfold State.takeProfile
  extract_lets a want want' b
  have ha : a = s.profileTaken p source := rfl
  obtain ⟨hmoves, hpwr⟩ := hdepths b
  have hb : StewardMoves a b := .ite (stewardMoves_setPoint _ _) (.refl a)
  refine ⟨ha ▸ hb.trans hmoves, fun hthrottled => ?_⟩
  have hop : a.pwr.opTarget = s.pwr.opTarget := rfl
  have hwant : a.pwr.opTarget ≤ want' := by
    have hcond : (a.pwr.throttled || a.pwr.throttledLast) = true := Bool.or_eq_true_iff.2 hthrottled
    simp only [want', if_pos hcond]
    exact Nat.le_max_right ..
  rw [hpwr, ← hop]
  simp only [b]
  split
  · exact (setPoint_spec a _).2 (le_raisePoint hwant)
  · exact Nat.le_refl _

/-- What a profile that was taken leaves, and the boot state, beside the steward's decisions. -/
theorem takeProfile_rest (s : State) (p : Profile) (source : Nat) : (s.takeProfile p source).boot = s.boot ∧
    (s.takeProfile p source).por.current = s.por.current ∧ (s.takeProfile p source).pwr.profileState = source ∧
    (s.takeProfile p source).pwr.windowMs = 0 ∧ (s.takeProfile p source).pwr.windowPassed = false ∧ (s.takeProfile p source).pwr.siteTally = [] := by
  obtain ⟨hmoves, -⟩ := takeProfile_spec s p source
  have hp := hmoves.pwr
  exact ⟨hmoves.boot, hmoves.current, (congrArg Power.profileState hp :), (congrArg Power.windowMs hp :), (congrArg Power.windowPassed hp :),
    (congrArg Power.siteTally hp :)⟩

/-- Sources 2 and 3 of R417: a profile of the factory ledger, or the built-in one. -/
theorem seedFactory_eq (s : State) : ∃ p, s.seedFactory = s.takeProfile p (if (s.factoryImage.bind LedgerImage.knownProfile).isSome then 1 else 0) := by
  unfold State.seedFactory
  cases s.factoryImage.bind LedgerImage.knownProfile with
  | some p => exact ⟨p, rfl⟩
  | none => exact ⟨{}, rfl⟩

theorem profileSave_of_ready {s : State} (h : s.boot.ready = true) : s.profileSave = s.ledgerPut .profile := if_pos h

theorem writes_stewardSave {bs : List Byte} {s : State} (hbs : leNat bs = 1) (hready : s.boot.ready = true) (h : s.writes 0x0518 1 bs) :
    AnsweredWith dsOk s s.stewardSave ∧ s.stewardSave.por.ledgerQueue = s.por.ledgerQueue ++ [.profile] ∧ s.stewardSave.pwr = s.pwr := by
  obtain ⟨f, r, l, -, -, hserved⟩ := served_of_writes h
  obtain ⟨hkept, hpwr, hqueue, hboot⟩ := ledgerPut_profile (s.withSessions l)
  have hsave : (s.withSessions l).profileSave = (s.withSessions l).ledgerPut .profile := profileSave_of_ready hready
  obtain ⟨hans, hrest⟩ := hserved s.stewardSave rfl rfl (a := ⟨(s.withSessions l).ledgerPut .profile, dsOk, 0, none⟩)
    ((if_pos hbs).trans (congrArg (fun x => (⟨x, dsOk, 0, none⟩ : Ans)) hsave)) hboot hkept.current
  exact ⟨hans, (congrArg (fun x : State => x.por.ledgerQueue) hrest :).trans hqueue, (congrArg State.pwr hrest :).trans hpwr⟩

theorem writes_stewardReset {bs : List Byte} {s : State} (hbs : leNat bs = 1) (hready : s.boot.ready = true) (h : s.writes 0x0518 2 bs) :
    AnsweredWith dsOk s s.stewardReset ∧
    (s.pwr.throttled = true ∨ s.pwr.throttledLast = true → s.pwr.opTarget ≤ s.stewardReset.pwr.opTarget) ∧
    s.stewardReset.pwr.profileState = (if (s.factoryImage.bind LedgerImage.knownProfile).isSome then 1 else 0) ∧ s.stewardReset.pwr.windowMs = 0 ∧
    s.stewardReset.pwr.windowPassed = false ∧ s.stewardReset.pwr.siteTally = [] := by
  obtain ⟨f, r, l, -, -, hserved⟩ := served_of_writes h
  obtain ⟨p, hseed⟩ := seedFactory_eq (s.withSessions l)
  obtain ⟨-, hslower⟩ := takeProfile_spec (s.withSessions l) p (if (s.factoryImage.bind LedgerImage.knownProfile).isSome then 1 else 0)
  obtain ⟨hboot, hcur, hsource, hms, hpassed, htally⟩ := takeProfile_rest (s.withSessions l) p
    (if (s.factoryImage.bind LedgerImage.knownProfile).isSome then 1 else 0)
  obtain ⟨hans, hrest⟩ := hserved s.stewardReset rfl rfl
    (a := ⟨(s.withSessions l).takeProfile p (if (s.factoryImage.bind LedgerImage.knownProfile).isSome then 1 else 0), dsOk, 0, none⟩)
    ((if_pos hbs).trans (congrArg (fun x => (⟨x, dsOk, 0, none⟩ : Ans)) ((if_pos hready).trans hseed))) hboot hcur
  have hpwr : s.stewardReset.pwr = _ := (congrArg State.pwr hrest :)
  rw [hpwr]
  exact ⟨hans, hslower, hsource, hms, hpassed, htally⟩

/-- Settles O50: each command of the clocks, the blocks, the power stage and the steward moves its own part of the power unit. -/
theorem blocksClocksAndSteward : Obligations.BlocksClocksAndSteward := by
  refine ⟨fun bs s hw hready => ⟨fun hbusy => ?_, fun hfree => ?_⟩, fun b s => ⟨fun hdrain hdone => ?_, fun hno => ?_⟩, fun u bs s hlo hhi hw => ?_,
    fun s => ⟨fun hf hc hm => ?_, fun hmoves hbroken => ?_⟩, fun m s => ?_, fun m s => ⟨fun hready => ?_, fun hready => ?_⟩,
    fun s => ⟨fun hready => ?_, fun hready => ?_, fun bs hbs hready => ⟨fun hw => ?_, fun hw => ?_⟩⟩⟩
  · exact ⟨_, rfl, (writes_blockEnables hw hready).1 hbusy⟩
  · exact ⟨_, rfl, (writes_blockEnables hw hready).2 hfree⟩
  · obtain ⟨hclusters, hms, -⟩ := blockDrained_spec s b
    refine ⟨_, rfl, ?_, fun c hc => ?_, hclusters, hms⟩
    · exact (blockDrained_of_drained hdrain hdone b).trans (if_pos rfl)
    · exact (blockDrained_of_drained hdrain hdone c).trans (if_neg hc)
  · obtain ⟨hclusters, hms, hpwr⟩ := blockDrained_spec s b
    refine ⟨_, rfl, hpwr.trans (if_neg fun h => ?_), hclusters, hms⟩
    rcases hno with hno | hno
    · exact hno h.1
    · rw [h.2] at hno
      cases hno
  · exact ⟨_, rfl, writes_divOverride hlo hhi hw⟩
  · exact rampStep_of_ratios hf hc hm
  · exact ⟨_, rampStep_of_broken hmoves hbroken, rfl, rfl, fwImage_undefined s, rfl, rfl, rfl, rfl, rfl, _, rfl⟩
  · obtain ⟨h1, h2, h3, h4, h5, h6, h7, h8, h9, h10, hclusters, hcores, hms, hmem, hhub⟩ := powerSample_spec m s
    refine ⟨_, rfl, h1, h2, h3, h4, h5, h6, h7, h8, h9, h10, hclusters, hcores, hms, hmem, hhub, fun hnone => ?_, fun c n hone => ?_, fun k n hone => ?_⟩
    · rw [hclusters, hcores, hms, hnone]
      exact ⟨rfl, rfl, rfl⟩
    · rw [hclusters, hms, hone]
      exact ⟨(congrArg (fun x : AMap Core => mget 0 (mget {} x c.val).ctr 9) (hcores.trans (by rw [hone])) :).trans (coreCtr_bumpCore s c 9 n), rfl, rfl⟩
    · rw [hcores, hms, hone]
      exact ⟨(congrArg (fun x : AMap Cluster => mget 0 (mget {} x k.val).ctr 8) (hclusters.trans (by rw [hone])) :).trans
        ((clusterCtr_bumpCluster s k k 8 n 8).trans (if_pos ⟨rfl, rfl⟩)), rfl, rfl⟩
  · exact ⟨_, rfl, period_spec m hready⟩
  · exact congrArg Host.Outcome.next (if_pos (by rw [hready]; rfl))
  · obtain ⟨-, hpwr, hqueue, -⟩ := ledgerPut_profile s
    exact ⟨_, congrArg Host.Outcome.next (profileSave_of_ready hready), hqueue, hpwr⟩
  · exact congrArg Host.Outcome.next (if_neg (by rw [hready]; exact Bool.false_ne_true))
  · exact ⟨_, rfl, writes_stewardSave hbs hready hw⟩
  · exact ⟨_, rfl, writes_stewardReset hbs hready hw⟩

end Sys2Proof.Machine

/-! PROOFS. What a module reset cuts, clears and reports (R198, R424, R449, R451). -/

namespace Sys2Proof.Machine

/-! ## The slots' states through a source's read -/

/-- No slot's state moves. -/
def SlotStates (s t : State) : Prop := ∀ i, (t.slot i).state = (s.slot i).state

theorem SlotStates.refl (s : State) : SlotStates s s := fun _ => rfl

theorem SlotStates.trans {s t u : State} (h : SlotStates s t) (h' : SlotStates t u) : SlotStates s u := fun i => (h' i).trans (h i)

theorem SlotStates.foldl {α : Type} {f : State → α → State} (h : ∀ t a, SlotStates t (f t a)) (l : List α) (s : State) :
    SlotStates s (l.foldl f s) :=
  l.foldlRecOn f (motive := SlotStates s) (.refl s) fun _ ht a _ => ht.trans (h _ a)

theorem SlotStates.ite {s t u : State} {p : Prop} [Decidable p] (ht : SlotStates s t) (hu : SlotStates s u) : SlotStates s (if p then t else u) := by
  split
  · exact ht
  · exact hu

theorem slotStates_of_car {s t : State} (h : t.car = s.car) : SlotStates s t := fun i => by rw [slot_of_car h]

theorem slotStates_modSlot (s : State) (i : Nat) {f : Slot → Slot} (hf : ∀ x, (f x).state = x.state) : SlotStates s (s.modSlot i f) := fun j => by
  rw [slot_modSlot]
  split
  · next h => rw [hf, h]
  · rfl

theorem slotStates_fenceStack (s : State) (m code : Nat) : SlotStates s (s.fenceStack m code) := by
  unfold State.fenceStack
  extract_lets before u lost v
  have hu : SlotStates s u := .refl s
  have hv : SlotStates u v := by
    refine SlotStates.foldl (fun t i => ?_) _ _
    exact .ite (slotStates_modSlot t i fun _ => rfl) (.refl t)
  exact ((hu.trans hv).trans (slotStates_of_car rfl)).trans (slotStates_of_car (car_noteTier _ _))

theorem slotStates_useParity (s : State) (m : Nat) : SlotStates s (s.useParity m) := .ite (.refl s) (.refl s)

theorem slotStates_countUe (s : State) (a : Nat) : SlotStates s (s.countUe a) := by
  unfold State.countUe
  extract_lets m u v
  have hv : SlotStates s v := (slotStates_useParity s m).trans (.refl _)
  refine .ite ?_ hv
  obtain ⟨-, -, -, hcar, -⟩ := jobFault_rest (v.fenceStack m 2) none
    { status := stMemUe, stack := BitVec.ofNat 8 m, channel := BitVec.ofNat 8 (addrChannel a), unit := BitVec.ofNat 32 (addrUnit a) }
  exact (hv.trans (slotStates_fenceStack v m 2)).trans (slotStates_of_car hcar)

theorem slotStates_countErr (s : State) (e : AccErr) : SlotStates s (s.countErr e) := by
  cases e with
  | bus => exact .refl s
  | ue a => exact slotStates_countUe s a

theorem slotStates_readDone (s : State) (a n : Nat) : SlotStates s (s.readDone a n) := by
  unfold State.readDone
  have hsnoop : SlotStates s (s.snoopData a n) := by
    unfold State.snoopData
    extract_lets ls u
    have hu : SlotStates s u := SlotStates.foldl (f := fun t l => t.emit (.bisnp l false)) (fun t _ => .refl t) ls s
    exact hu.trans (.refl u)
  have hflips (u : State) : SlotStates u (u.countFlips a n) := by
    refine SlotStates.foldl (fun t g => ?_) _ _
    exact .refl t
  have hread (u : State) : SlotStates u (u.countRead a n) := by
    refine SlotStates.foldl (fun t m => ?_) _ _
    exact .refl t
  exact ((hsnoop.trans (hflips _)).trans (.foldl slotStates_useParity _ _)).trans (hread _)

theorem slotStates_sourceDone (s : State) (a n len : Nat) : SlotStates s (s.sourceDone a n len) := by
  have hread := slotStates_readDone s a n
  unfold State.sourceDone
  refine .ite hread ?_
  split
  · exact hread.trans (slotStates_countErr _ _)
  · exact hread.trans (slotStates_countUe _ _)

theorem onlyAccess_sourceDone (s : State) (a n len : Nat) : OnlyAccess s (s.sourceDone a n len) := by
  have hread := onlyAccess_readDone s a n
  unfold State.sourceDone
  refine .ite hread ?_
  split
  · exact hread.trans (onlyAccess_countErr _ _)
  · exact hread.trans (onlyAccess_countUe _ _)

/-! ## What cutting a command keeps (R198) -/

/-- The boot state without the firmware images and the count of service stops. -/
def Boot.sansImages (b : Boot) : Boot := { b with banks := [], stops := 0 }

/-- What a command that is cut leaves: the exchange's tables, the commands, the factory ledger and the fuses, the slots' states, the boot
state beside its images, and a staged bank that is STAGING. -/
structure CutKept (s t : State) : Prop where
  net : t.net = s.net
  cmds : t.por.cmds = s.por.cmds
  factory : t.por.factory = s.por.factory
  fused : t.por.fusedSvn = s.por.fusedSvn
  boot : t.boot.sansImages = s.boot.sansImages
  slots : SlotStates s t
  staging : (s.fwImage s.stageBank).stage = fwStaging → (t.fwImage s.stageBank).stage = fwStaging

namespace CutKept

theorem refl (s : State) : CutKept s s := ⟨rfl, rfl, rfl, rfl, rfl, .refl s, id⟩

theorem stageBank {s t : State} (h : CutKept s t) : t.stageBank = s.stageBank := (congrArg (fun b : Boot => 1 - b.fwBank) h.boot :)

theorem trans {s t u : State} (h : CutKept s t) (h' : CutKept t u) : CutKept s u :=
  ⟨h'.net.trans h.net, h'.cmds.trans h.cmds, h'.factory.trans h.factory, h'.fused.trans h.fused, h'.boot.trans h.boot, h.slots.trans h'.slots,
    fun hs => by
      have ht := h.staging hs
      rw [← h.stageBank] at ht ⊢
      exact h'.staging ht⟩

theorem foldl {α : Type} {f : State → α → State} (h : ∀ t a, CutKept t (f t a)) (l : List α) (s : State) : CutKept s (l.foldl f s) :=
  l.foldlRecOn f (motive := CutKept s) (refl s) fun _ ht a _ => ht.trans (h _ a)

end CutKept

theorem OnlyAccess.cutKept {s t : State} (h : OnlyAccess s t) (hslots : SlotStates s t) : CutKept s t :=
  ⟨(congrArg State.net h.same :), (congrArg (fun x => x.por.cmds) h.same :), (congrArg (fun x => x.por.factory) h.same :),
    (congrArg (fun x => x.por.fusedSvn) h.same :), (congrArg (fun x => x.boot.sansImages) h.same :), hslots, fun hs => by
      rw [State.fwImage, h.boot]
      exact hs⟩

theorem cutKept_slotWritten (s : State) (w : SlotWrite) (n : Nat) : CutKept s (s.slotWritten w n) :=
  ⟨rfl, rfl, rfl, rfl, rfl, slotStates_modSlot (s.stamp).2 w.slot fun _ => rfl, id⟩

theorem cutKept_programFrom (s : State) (w : SlotWrite) (n : Nat) : CutKept s (s.programFrom w n) := by
  have hcount (t : State) (sl : Slot) (off k : Nat) : CutKept t (t.countFlash 40 sl off k) := by
    refine CutKept.foldl (fun t cw => ?_) _ t
    exact ⟨rfl, rfl, rfl, rfl, rfl, .refl t, id⟩
  have hprogram : CutKept s (s.program w.slot w.off (s.ms.mem.readBytes w.addr n)) := by
    unfold State.program
    split
    · exact .refl s
    · refine CutKept.trans ?_ (hcount _ _ _ _)
      exact ⟨rfl, rfl, rfl, rfl, rfl, slotStates_modSlot s w.slot fun _ => rfl, id⟩
  exact hprogram.trans ((onlyAccess_sourceDone _ _ _ _).cutKept (slotStates_sourceDone _ _ _ _))

theorem cutKept_cutStage (s : State) (c : RunCmd) : CutKept s (s.cutStage c) :=
  ⟨rfl, rfl, rfl, rfl, rfl, fun _ => rfl, fun _ => cutStage_stage s c⟩

/-- What a cut command leaves; a FW_STAGE_MEM leaves its bank STAGING, and a slot or bulk command has a result. -/
theorem cutCmd_spec (s : State) (c : RunCmd) : CutKept s (s.cutCmd c).1 ∧
    (c.index = 0x0204 → c.sub = 2 → ((s.cutCmd c).1.fwImage s.stageBank).stage = fwStaging) ∧
    ((slotWriteOf c).isSome ∨ (bulkSendOf c).isSome → (s.cutCmd c).2.isSome = true) := by
  have hnoSlot (h : c.index = 0x0204) : slotWriteOf c = none := if_neg (by omega)
  have hnoBulk (h : c.index = 0x0204) : bulkSendOf c = none := if_neg (by omega)
  unfold State.cutCmd
  cases hw : slotWriteOf c with
  | some w =>
    refine ⟨?_, fun h => absurd (hnoSlot h) (by rw [hw]; exact Option.some_ne_none _), fun _ => ?_⟩
    · dsimp only
      split
      · exact cutKept_slotWritten s w _
      · have hdrawn : CutKept s s.draw.2 := ⟨rfl, rfl, rfl, rfl, rfl, fun _ => rfl, id⟩
        exact (hdrawn.trans (cutKept_programFrom _ _ _)).trans (cutKept_slotWritten _ _ _)
    · dsimp only
      split <;> rfl
  | none =>
    cases hb : bulkSendOf c with
    | some b => exact ⟨.refl s, fun h => absurd (hnoBulk h) (by rw [hb]; exact Option.some_ne_none _), fun _ => rfl⟩
    | none =>
      refine ⟨?_, fun hi hs => ?_, fun h => h.elim nofun nofun⟩
      · dsimp only
        split
        · exact cutKept_cutStage s c
        · split <;> exact .refl s
      · dsimp only
        rw [if_pos (by simp [RunCmd.stages, hi, hs])]
        exact cutStage_stage s c

theorem cutCmds_spec (cs : List RunCmd) (s : State) : CutKept s (s.cutCmds cs).1 ∧
    (∀ c ∈ cs, c.index = 0x0204 → c.sub = 2 → ((s.cutCmds cs).1.fwImage s.stageBank).stage = fwStaging) ∧
    ∀ c ∈ cs, (slotWriteOf c).isSome ∨ (bulkSendOf c).isSome → ∃ n, (c.ticket, n) ∈ (s.cutCmds cs).2 := by
  induction cs generalizing s with
  | nil => exact ⟨.refl s, nofun, nofun⟩
  | cons c rest ih =>
    obtain ⟨hkept, hstage, hend⟩ := cutCmd_spec s c
    obtain ⟨hkept', hstage', hend'⟩ := ih (s.cutCmd c).1
    rw [cutCmds_cons]
    refine ⟨hkept.trans hkept', fun d hd hi hs => ?_, fun d hd hcut => ?_⟩
    · rcases List.mem_cons.1 hd with rfl | hd
      · rw [← hkept.stageBank]
        exact hkept'.staging (by rw [hkept.stageBank]; exact hstage hi hs)
      · rw [← hkept.stageBank]
        exact hstage' d hd hi hs
    · rcases List.mem_cons.1 hd with rfl | hd
      · obtain ⟨n, hn⟩ := Option.isSome_iff_exists.1 (hend hcut)
        exact ⟨n, List.mem_append_left _ (by simp [hn])⟩
      · obtain ⟨n, hn⟩ := hend' d hd hcut
        exact ⟨n, List.mem_append_right _ hn⟩

/-! ## How the ends of cut commands are told (R424, R430, log 242) -/

/-- Signals that are pending stay pending. -/
def PendsKept (s t : State) : Prop := ∀ v, s.hub.msixPending.getLsbD v = true → t.hub.msixPending.getLsbD v = true

theorem PendsKept.refl (s : State) : PendsKept s s := fun _ h => h

theorem PendsKept.trans {s t u : State} (h : PendsKept s t) (h' : PendsKept t u) : PendsKept s u := fun v hv => h' v (h v hv)

theorem PendsKept.ite {s t u : State} {p : Prop} [Decidable p] (ht : PendsKept s t) (hu : PendsKept s u) : PendsKept s (if p then t else u) := by
  split
  · exact ht
  · exact hu

theorem pendsKept_of_hub {s t : State} (h : t.hub = s.hub) : PendsKept s t := fun v hv => by rw [h]; exact hv

theorem pendsKept_signal (s : State) (v : Nat) : PendsKept s (s.signal v) := by
  unfold State.signal
  split
  · intro i hi
    show (s.hub.msixPending ||| (1#64 <<< v)).getLsbD i = true
    rw [BitVec.getLsbD_or, hi, Bool.true_or]
  · exact fun _ h => h

theorem signal_of_masked {s : State} {v : Nat} (hv : v < 64) (hmask : bit (s.hub.msixTable.readLE (16 * v + 12) 4) 0 = true) :
    (s.signal v).hub.msixPending.getLsbD v = true := by
  rw [State.signal, if_pos hmask]
  show (s.hub.msixPending ||| (1#64 <<< v)).getLsbD v = true
  rw [BitVec.getLsbD_or]
  simp [hv]

/-- After a reset of the port every vector of the mailbox is masked. -/
theorem msixReset_masked {v : Nat} (hv : v < 64) : bit (msixReset.readLE (16 * v + 12) 4) 0 = true := by
  have hall : ∀ v : Fin 64, bit (msixReset.readLE (16 * v.val + 12) 4) 0 = true := by decide
  exact hall ⟨v, hv⟩

/-- The state without what the end of a command, the log and the lock of ROOT move. -/
def State.sansEnds (s : State) : State :=
  { s with
    out := [], hub := { s.hub with msixPending := 0 }, pwr := { s.pwr with rootLocked := false }
    por := { s.por with
      cmds := [], results := [], mbResult := false, sessions := [], log := [], logSeq := 0, alertPin := false, alertSeq := 0, bwLog2 := 0 } }

/-- What telling the ends of commands leaves. -/
structure EndsKept (s t : State) : Prop where
  same : t.sansEnds = s.sansEnds
  pends : PendsKept s t
  result : s.por.mbResult = true → t.por.mbResult = true
  ended : ∀ k, s.cmd? k = none → t.cmd? k = none

namespace EndsKept

theorem refl (s : State) : EndsKept s s := ⟨rfl, .refl s, id, fun _ => id⟩

theorem trans {s t u : State} (h : EndsKept s t) (h' : EndsKept t u) : EndsKept s u :=
  ⟨h'.same.trans h.same, h.pends.trans h'.pends, fun hs => h'.result (h.result hs), fun k hk => h'.ended k (h.ended k hk)⟩

variable {s t : State} (h : EndsKept s t)
include h

theorem vals : t.por.vals = s.por.vals := (congrArg (fun x => x.por.vals) h.same :)
theorem dv (i u : Nat) : t.dv i u = s.dv i u := by rw [State.dv, h.vals]; rfl
theorem table : t.hub.msixTable = s.hub.msixTable := (congrArg (fun x => x.hub.msixTable) h.same :)

end EndsKept

/-- A command that has ended is no more, another's ticket names what it did. -/
theorem cmd?_filter (l : List RunCmd) (t k : Word) : (l.filter (fun x => decide (x.ticket ≠ t))).find? (fun c => c.ticket == k) =
    if k = t then none else l.find? (fun c => c.ticket == k) := by
  induction l with
  | nil => split <;> rfl
  | cons c l ih =>
    by_cases hc : c.ticket = t
    · rw [List.filter_cons_of_neg (by simp [hc]), ih]
      split
      · rfl
      · next hk => rw [List.find?_cons_of_neg (by simp [hc, Ne.symm hk])]
    · rw [List.filter_cons_of_pos (by simp [hc])]
      by_cases hck : c.ticket = k
      · rw [List.find?_cons_of_pos (by simp [hck]), List.find?_cons_of_pos (by simp [hck]), if_neg (by rw [← hck]; exact hc)]
      · rw [List.find?_cons_of_neg (by simp [hck]), List.find?_cons_of_neg (by simp [hck]), ih]

/-- The command's record is written and the command is no more. -/
def State.resulted (s : State) (c : RunCmd) (t : Word) (status detail result : Nat) : State := s.withPor fun p => { p with
  cmds := p.cmds.filter (fun x => decide (x.ticket ≠ t)), results := (⟨t, c.index, c.sub, status, detail, result⟩ :: p.results).take 16 }

theorem cmd?_resulted (s : State) (c : RunCmd) (t : Word) (status detail result : Nat) (k : Word) :
    (s.resulted c t status detail result).cmd? k = if k = t then none else s.cmd? k := cmd?_filter _ _ _

theorem endsKept_resulted (s : State) (c : RunCmd) (t : Word) (status detail result : Nat) : EndsKept s (s.resulted c t status detail result) :=
  ⟨rfl, .refl s, id, fun k hk => by
    rw [cmd?_resulted]
    split
    · rfl
    · exact hk⟩

theorem endsKept_signal (s : State) (v : Nat) : EndsKept s (s.signal v) := by
  refine ⟨?_, pendsKept_signal s v, ?_, ?_⟩ <;> unfold State.signal <;> split
  · rfl
  · rfl
  · exact id
  · exact id
  · exact fun _ => id
  · exact fun _ => id

theorem endCmd_spec {s : State} {t : Word} (status detail result : Nat) :
    EndsKept s (s.endCmd t status detail result) ∧
    (∀ k, (s.endCmd t status detail result).cmd? k = if k = t then none else s.cmd? k) ∧
    ∀ c, s.cmd? t = some c → c.path = .mailbox → (s.endCmd t status detail result).por.mbResult = true ∧
      (s.dv 0x1F10 1 < 64 → bit (s.hub.msixTable.readLE (16 * s.dv 0x1F10 1 + 12) 4) 0 = true →
        (s.endCmd t status detail result).hub.msixPending.getLsbD (s.dv 0x1F10 1) = true) := by
  cases hc : s.cmd? t with
  | none =>
    rw [show s.endCmd t status detail result = s by unfold State.endCmd; rw [hc]]
    refine ⟨.refl s, fun k => ?_, nofun⟩
    split
    · next h => rw [h, hc]
    · rfl
  | some c =>
    have hkept := endsKept_resulted s c t status detail result
    have hcmd := cmd?_resulted s c t status detail result
    have heq : s.endCmd t status detail result = match c.path with
        | .mailbox => ((s.resulted c t status detail result).withPor fun p => { p with mbResult := true }).signalMailbox
        | .field => match (s.resulted c t status detail result).session? c.session with
          | none => s.resulted c t status detail result
          | some x => (((s.resulted c t status detail result).modSession c.session (fun y => { y with outCtr := y.outCtr + 1 })).sendField x.peer
            (signedFrame x.key 3 3 0 1 c.session (x.outCtr + 1) (⟨t, c.index, c.sub, status, detail, result⟩ : CmdResult).bytes)).closeSpent c.session := by
      unfold State.endCmd
      rw [hc]
      rfl
    rw [heq]
    generalize s.resulted c t status detail result = u at *
    cases hp : c.path with
    | mailbox =>
      have hmarked : EndsKept u (u.withPor fun p => { p with mbResult := true }) := ⟨rfl, .refl u, fun _ => rfl, fun _ => id⟩
      have hsignal := endsKept_signal (u.withPor fun p => { p with mbResult := true }) (u.dv 0x1F10 1)
      refine ⟨(hkept.trans hmarked).trans hsignal, fun k => ?_, fun _ _ _ => ⟨hsignal.result rfl, fun hv hmask => ?_⟩⟩
      · refine Eq.trans ?_ (hcmd k)
        show State.cmd? (State.signal _ _) k = _
        unfold State.signal
        split <;> rfl
      · rw [← hkept.table, ← hkept.dv] at hmask
        rw [← hkept.dv] at hv ⊢
        exact signal_of_masked hv hmask
    | field =>
      refine ⟨hkept.trans ?_, fun k => ?_, fun d hd hmail => ?_⟩
      · dsimp only
        split
        · exact .refl u
        · exact ⟨rfl, .refl u, id, fun _ => id⟩
      · refine Eq.trans ?_ (hcmd k)
        dsimp only
        split <;> rfl
      · injection hd with hd
        rw [← hd, hp] at hmail
        cases hmail

/-- The ends of cut commands are told one by one; a command of the mailbox among them has its result there and its signal pending. -/
theorem reportCut_spec (ends : List (Word × Nat)) (s : State) : EndsKept s (s.reportCut ends) ∧
    ∀ c n, (c.ticket, n) ∈ ends → s.cmd? c.ticket = some c → c.path = .mailbox → (s.reportCut ends).cmd? c.ticket = none ∧
      (s.reportCut ends).por.mbResult = true ∧
      (s.dv 0x1F10 1 < 64 → bit (s.hub.msixTable.readLE (16 * s.dv 0x1F10 1 + 12) 4) 0 = true →
        (s.reportCut ends).hub.msixPending.getLsbD (s.dv 0x1F10 1) = true) := by
  induction ends generalizing s with
  | nil => exact ⟨.refl s, fun _ _ h => absurd h List.not_mem_nil⟩
  | cons e ends ih =>
    obtain ⟨hkept, hcmd, htold⟩ := endCmd_spec (s := s) (t := e.1) dsResetAborted 0 e.2
    obtain ⟨hkept', htold'⟩ := ih (s.endCmd e.1 dsResetAborted 0 e.2)
    refine ⟨hkept.trans hkept', fun c n hmem hc hmail => ?_⟩
    by_cases hticket : c.ticket = e.1
    · rw [hticket] at hc
      obtain ⟨hresult, hpends⟩ := htold c hc hmail
      refine ⟨hkept'.ended _ ?_, hkept'.result hresult, fun hv hmask => hkept'.pends _ (hpends hv hmask)⟩
      rw [hcmd, if_pos hticket]
    · have hrest : (c.ticket, n) ∈ ends := (List.mem_cons.1 hmem).resolve_left fun h => hticket (congrArg Prod.fst h)
      have hstill : (s.endCmd e.1 dsResetAborted 0 e.2).cmd? c.ticket = some c := by rw [hcmd, if_neg hticket, hc]
      obtain ⟨hgone, hresult, hpends⟩ := htold' c n hrest hstill hmail
      rw [hkept.dv, hkept.table] at hpends
      exact ⟨hgone, hresult, hpends⟩

/-! ## Reset entry (R449, R451) -/

/-- What a module reset leaves but for how the ends of the commands it cuts are told. -/
structure ResetOf (s : State) (cause : Byte) (t : State) : Prop where
  cut : ∀ c ∈ s.por.cmds, c.index = 0x0204 → c.sub = 2 → (t.fwImage s.stageBank).stage = fwStaging
  cause : t.boot.resetCause = cause
  count : t.boot.resetCount = s.boot.resetCount + 1
  ready : t.boot.ready = false
  inReset : t.boot.inReset = true
  cxlUp : t.boot.cxlUp = false
  pacing : t.pacing = 0
  clusters : t.clusters = []
  cores : t.cores = []
  jobs : t.hub.jobs = []
  pairs : t.hub.pairs = []
  table : t.hub.msixTable = msixReset
  blocks : t.pwr.blocks = []
  through : ∀ r, r < 2 → (t.ring r).bypass = if (s.ring r).bypass = .through then .through else .moving false
  slots : SlotStates s t
  fused : t.por.fusedSvn = s.por.fusedSvn
  factory : t.por.factory = s.por.factory
  bootBank : t.boot.bootBank = s.boot.bootBank

/-- The ends of a mailbox's slot and bulk commands that a reset cuts have been told (log 242). -/
def Told (s t : State) : Prop := ∀ c, s.cmd? c.ticket = some c → c.path = .mailbox → (slotWriteOf c).isSome ∨ (bulkSendOf c).isSome →
  t.cmd? c.ticket = none ∧ t.por.mbResult = true ∧ (t.dv 0x1F10 1 < 64 → t.hub.msixPending.getLsbD (t.dv 0x1F10 1) = true)

/-- The state without the ends that are told, the porter's frames, the reference and whether the porter runs. -/
def State.sansTold (s : State) : State :=
  { s.sansEnds.sansFrames with boot := { s.boot with refclk := false, porterRuns := false, stops := 0 } }

/-- The ends that are told, the porter's frames and the loss of the reference take nothing of a reset back. -/
theorem ResetOf.of_rest {s t u : State} {cause : Byte} (h : ResetOf s cause t) (hends : u.sansTold = t.sansTold) :
    ResetOf s cause u where
  cut c hc hi hs := (congrArg (fun x => (x.fwImage s.stageBank).stage) hends :).trans (h.cut c hc hi hs)
  cause := (congrArg (fun x => x.boot.resetCause) hends :).trans h.cause
  count := (congrArg (fun x => x.boot.resetCount) hends :).trans h.count
  ready := (congrArg (fun x => x.boot.ready) hends :).trans h.ready
  inReset := (congrArg (fun x => x.boot.inReset) hends :).trans h.inReset
  cxlUp := (congrArg (fun x => x.boot.cxlUp) hends :).trans h.cxlUp
  pacing := (congrArg State.pacing hends :).trans h.pacing
  clusters := (congrArg State.clusters hends :).trans h.clusters
  cores := (congrArg State.cores hends :).trans h.cores
  jobs := (congrArg (fun x => x.hub.jobs) hends :).trans h.jobs
  pairs := (congrArg (fun x => x.hub.pairs) hends :).trans h.pairs
  table := (congrArg (fun x => x.hub.msixTable) hends :).trans h.table
  blocks := (congrArg (fun x => x.pwr.blocks) hends :).trans h.blocks
  through r hr := (congrArg (fun x => (x.ring r).bypass) hends :).trans (h.through r hr)
  slots i := (congrArg (fun x => (x.slot i).state) hends :).trans (h.slots i)
  fused := (congrArg (fun x => x.por.fusedSvn) hends :).trans h.fused
  factory := (congrArg (fun x => x.por.factory) hends :).trans h.factory
  bootBank := (congrArg (fun x => x.boot.bootBank) hends :).trans h.bootBank

theorem ring_ringsThrough (s : State) {r : Nat} (hr : r < 2) :
    (s.ringsThrough.ring r).bypass = if (s.ring r).bypass = .through then .through else .moving false := by
  have hring (t : State) (i : Nat) (f : Ring → Ring) : (t.modRing i f).ring r = if r = i then f (t.ring i) else t.ring r := mget_mset ..
  unfold State.ringsThrough
  simp only [List.foldl_cons, List.foldl_nil, hring]
  have hcases : r = 0 ∨ r = 1 := by omega
  rcases hcases with rfl | rfl <;> simp only [if_true, Nat.zero_ne_one, one_ne_zero, if_false] <;> split <;> simp_all

/-- The state without what a Ledger write moves: the banks, the queue, and the time of the last saved profile. -/
def State.sansLedger (s : State) : State :=
  { s with
    draws := 0, pwr := { s.pwr with profileSavedAt := 0 }
    por := { s.por with
      bank0 := none, bank1 := none, ledgerWrites := 0, restorePending := false, ledgerQueue := [], ledgerImage := none, keysRetry := 0 } }

theorem sansLedger_landed (s : State) (op : LedgerOp) : (s.landed op).sansLedger = s.sansLedger := by
  cases op <;> rfl

theorem sansLedger_setBank (s : State) (b : Nat) (v : Option LedgerImage) : (s.setBank b v).sansLedger = s.sansLedger := by
  unfold State.setBank State.withPor
  dsimp only
  split <;> rfl

theorem sansLedger_ledgerLand (s : State) : s.ledgerLand.sansLedger = s.sansLedger := by
  unfold State.ledgerLand
  split
  · next img _ _ =>
    refine (sansLedger_landed _ _).trans (Eq.trans ?_ (sansLedger_setBank s s.ledgerTarget (some img)))
    rfl
  · rfl

theorem sansLedger_ledgerCut (s : State) : s.ledgerCut.sansLedger = s.sansLedger := by
  have hland : (if s.draw.1.getLsbD 0 then s.draw.2.ledgerLand else s.draw.2).sansLedger = s.sansLedger := by
    split
    · exact sansLedger_ledgerLand s.draw.2
    · rfl
  exact hland

/-- With no write under way, the banks and the time of the last saved profile stay. -/
theorem ledgerCut_of_idle {s : State} (h : s.por.ledgerImage = none) : s.ledgerCut.pwr = s.pwr ∧ s.ledgerCut.por.bank0 = s.por.bank0 ∧
    s.ledgerCut.por.bank1 = s.por.bank1 := by
  have hland : s.draw.2.ledgerLand = s.draw.2 := by
    unfold State.ledgerLand
    rw [show s.draw.2.por.ledgerImage = none from h]
    split
    · next himg => cases himg
    · rfl
  unfold State.ledgerCut
  dsimp only
  rw [hland, ite_self]
  exact ⟨rfl, rfl, rfl⟩

theorem ring_clearUnits (s : State) (r : Nat) : (s.clearUnits.ring r).bypass = (s.ring r).bypass := by
  have h := mget_map ({} : Ring) ({} : Ring) s.net.rings (fun x => { bypass := x.bypass, moves := x.moves }) rfl r
  exact (congrArg Ring.bypass h :)

theorem slot_clearUnits (s : State) (i : Nat) : (s.clearUnits.slot i).state = (s.slot i).state := by
  have h := mget_map ({} : Slot) ({} : Slot) s.car.slots Slot.inFlash rfl i
  exact (congrArg Slot.state h :)

/-- The state without what resolving the entries' values moves. -/
def State.sansValues (s : State) : State :=
  { s with
    car := { s.car with slots := [] }
    por := { s.por with vals := [], ledgerSkipped := 0, keys := [], keysPending := false, keysRetry := 0 } }

theorem resolve_spec (s : State) : s.resolve.sansValues = s.sansValues ∧ SlotStates s s.resolve := by
  unfold State.resolve
  extract_lets rs vals skipped keys u
  have hu : u.sansValues = s.sansValues ∧ SlotStates s u := ⟨rfl, .refl s⟩
  clear_value u rs
  have hfold : ((List.range 16).foldl (fun t i => t.modSlot i (fun x => { x with
      configured := rs.any (fun r => decide (r.1 = 0x0910 + i) && decide (7 ≤ r.2.1 ∧ r.2.1 ≤ 9) && r.2.2.1.isSome) })) u).sansValues = u.sansValues ∧
      SlotStates u ((List.range 16).foldl (fun t i => t.modSlot i (fun x => { x with
      configured := rs.any (fun r => decide (r.1 = 0x0910 + i) && decide (7 ≤ r.2.1 ∧ r.2.1 ≤ 9) && r.2.2.1.isSome) })) u) := by
    refine List.foldlRecOn (motive := fun t : State => t.sansValues = u.sansValues ∧ SlotStates u t) _ _ ⟨rfl, .refl u⟩ fun t ht i _ => ⟨ht.1, ht.2.trans ?_⟩
    exact slotStates_modSlot t i fun _ => rfl
  exact ⟨hfold.1.trans hu.1, hu.2.trans hfold.2⟩

/-- The state at reset entry before the ends of the cut commands are told. -/
def State.cleared (s : State) (cause detail : Byte) : State :=
  (((s.ledgerCut.ringsThrough).clearUnits).newChallenge.resolve).withBoot (fun b => { b with
    resetCause := cause, resetDetail := if cause = 0xF1 then detail else b.resetDetail, resetCount := b.resetCount + 1 })

theorem ringsThrough_rest (s : State) : s.ringsThrough.boot = s.boot ∧ s.ringsThrough.por = s.por ∧ s.ringsThrough.car = s.car := ⟨rfl, rfl, rfl⟩

/-- The boot state of units that are reset (R449). -/
def Boot.cleared (b : Boot) : Boot :=
  { b with
    inReset := true, hub0 := false, hub1 := false, flashReady := false, ready := false, cxlUp := false, resetAfter := false
    preparing := false, removalReady := false, removalSave := false, activation := none }

/-- What the units hold once they are cleared and the entries' values resolved. -/
structure UnitsCleared (s t : State) : Prop where
  boot : t.boot = s.boot.cleared
  pacing : t.pacing = 0
  clusters : t.clusters = []
  cores : t.cores = []
  hub : t.hub = {}
  blocks : t.pwr.blocks = []
  rings : ∀ r, (t.ring r).bypass = (s.ring r).bypass
  slots : SlotStates s t
  cmds : t.por.cmds = s.por.cmds
  fused : t.por.fusedSvn = s.por.fusedSvn
  factory : t.por.factory = s.por.factory

theorem unitsCleared_clearUnits (s : State) : UnitsCleared s s.clearUnits.newChallenge :=
  ⟨rfl, rfl, rfl, rfl, rfl, rfl, ring_clearUnits s, slot_clearUnits s, rfl, rfl, rfl⟩

theorem UnitsCleared.resolve {s t : State} (h : UnitsCleared s t) : UnitsCleared s t.resolve := by
  obtain ⟨hvalues, hslots⟩ := resolve_spec t
  generalize t.resolve = w at hvalues hslots
  exact ⟨(congrArg State.boot hvalues :).trans h.boot, (congrArg State.pacing hvalues :).trans h.pacing,
    (congrArg State.clusters hvalues :).trans h.clusters, (congrArg State.cores hvalues :).trans h.cores, (congrArg State.hub hvalues :).trans h.hub,
    (congrArg (fun x => x.pwr.blocks) hvalues :).trans h.blocks, fun r => (congrArg (fun x => (x.ring r).bypass) hvalues :).trans (h.rings r),
    h.slots.trans hslots, (congrArg (fun x => x.por.cmds) hvalues :).trans h.cmds, (congrArg (fun x => x.por.fusedSvn) hvalues :).trans h.fused,
    (congrArg (fun x => x.por.factory) hvalues :).trans h.factory⟩

/-- What reset entry clears and keeps, of a state from which the commands have been cut. -/
theorem resetOf_cleared {s u : State} (hkept : CutKept s u) (hcut : ∀ c ∈ s.por.cmds, c.index = 0x0204 → c.sub = 2 →
      (u.fwImage s.stageBank).stage = fwStaging) (cause detail : Byte) :
    ResetOf s cause (u.cleared cause detail) ∧ (u.cleared cause detail).por.cmds = s.por.cmds ∧
    (cause = 0xF1 → (u.cleared cause detail).boot.resetDetail = detail) ∧ (u.cleared cause detail).boot.refclk = s.boot.refclk ∧
    (u.cleared cause detail).boot.porterRuns = s.boot.porterRuns := by
  have hledger := sansLedger_ledgerCut u
  unfold State.cleared
  generalize u.ledgerCut = v at hledger
  have hboot : v.boot = u.boot := (congrArg State.boot hledger :)
  have hnet : v.net = u.net := (congrArg State.net hledger :)
  have hcar : v.car = u.car := (congrArg State.car hledger :)
  have hcmds : v.por.cmds = u.por.cmds := (congrArg (fun x => x.por.cmds) hledger :)
  have hfused : v.por.fusedSvn = u.por.fusedSvn := (congrArg (fun x => x.por.fusedSvn) hledger :)
  have hfactory : v.por.factory = u.por.factory := (congrArg (fun x => x.por.factory) hledger :)
  have hthrough (r : Nat) (hr : r < 2) := ring_ringsThrough v hr
  obtain ⟨hrboot, hrpor, hrcar⟩ := ringsThrough_rest v
  generalize v.ringsThrough = x at hthrough hrboot hrpor hrcar
  have hclear := (unitsCleared_clearUnits x).resolve
  generalize x.clearUnits.newChallenge.resolve = w at hclear
  have hwboot : w.boot = u.boot.cleared := by rw [hclear.boot, hrboot, hboot]
  refine ⟨?_, hclear.cmds.trans ((congrArg Porter.cmds hrpor).trans (hcmds.trans hkept.cmds)), fun h => if_pos h,
    (congrArg Boot.refclk hwboot).trans (congrArg Boot.refclk hkept.boot :), (congrArg Boot.porterRuns hwboot).trans (congrArg Boot.porterRuns hkept.boot :)⟩
  exact {
    cut := fun c hc hi hs => by
      have hbanks : w.boot.banks = u.boot.banks := (congrArg Boot.banks hwboot :)
      have hstage := hcut c hc hi hs
      rw [State.fwImage, ← hbanks] at hstage
      exact hstage
    cause := rfl
    count := congrArg (· + 1) ((congrArg Boot.resetCount hwboot).trans (congrArg Boot.resetCount hkept.boot :))
    ready := congrArg Boot.ready hwboot
    inReset := congrArg Boot.inReset hwboot
    cxlUp := congrArg Boot.cxlUp hwboot
    pacing := hclear.pacing
    clusters := hclear.clusters
    cores := hclear.cores
    jobs := congrArg Hub.jobs hclear.hub
    pairs := congrArg Hub.pairs hclear.hub
    table := congrArg Hub.msixTable hclear.hub
    blocks := hclear.blocks
    through := fun r hr => (hclear.rings r).trans ((hthrough r hr).trans (by
      rw [show v.ring r = s.ring r by unfold State.ring; rw [hnet, hkept.net]]))
    slots := fun i => (hclear.slots i).trans ((congrArg Slot.state (slot_of_car (hrcar.trans hcar) i)).trans (hkept.slots i))
    fused := hclear.fused.trans ((congrArg Porter.fusedSvn hrpor).trans (hfused.trans hkept.fused))
    factory := hclear.factory.trans ((congrArg Porter.factory hrpor).trans (hfactory.trans hkept.factory))
    bootBank := (congrArg Boot.bootBank hwboot).trans (congrArg Boot.bootBank hkept.boot :) }

/-- What a reset counts and ends of its own before it cuts the commands (R456, R480). -/
def State.resetNoted (s : State) (cause : Byte) : State :=
  let s := if decide (cause = 1) || s.boot.cxlUp || s.ringOpen then s.serviceStop cause.toNat else s
  s.por.bist.foldl (fun t r => t.bistResult r 3 0 0 0) s

theorem cutKept_resetNoted (s : State) (cause : Byte) : CutKept s (s.resetNoted cause) := by
  unfold State.resetNoted
  extract_lets u
  have hu : CutKept s u := by
    simp only [u]
    split
    · exact ⟨rfl, rfl, rfl, rfl, rfl, .refl s, id⟩
    · exact .refl s
  refine hu.trans (.foldl (fun t r => ?_) _ u)
  exact ⟨rfl, rfl, rfl, rfl, rfl, .refl t, id⟩

/-- Reset entry: what it leaves, its cause's detail, and the ends it tells. -/
theorem enterReset_spec (s : State) (cause detail : Byte) : ResetOf s cause (s.enterReset cause detail) ∧ Told s (s.enterReset cause detail) ∧
    (cause = 0xF1 → (s.enterReset cause detail).boot.resetDetail = detail) ∧ (s.enterReset cause detail).boot.refclk = s.boot.refclk ∧
    (s.enterReset cause detail).boot.porterRuns = s.boot.porterRuns := by
  have hnoted := cutKept_resetNoted s cause
  obtain ⟨hcut, hstage, hends⟩ := cutCmds_spec (s.resetNoted cause).por.cmds (s.resetNoted cause)
  rw [hnoted.cmds, hnoted.stageBank] at hstage
  rw [hnoted.cmds] at hends
  obtain ⟨hreset, hcmds, hdetail, hrefclk, hruns⟩ := resetOf_cleared (hnoted.trans hcut) (fun c hc hi hs => by
    rw [hnoted.cmds]
    exact hstage c hc hi hs) cause detail
  have heq : s.enterReset cause detail = ((((((s.resetNoted cause).cutCmds (s.resetNoted cause).por.cmds).1.cleared cause detail).reportCut
      ((s.resetNoted cause).cutCmds (s.resetNoted cause).por.cmds).2).noteTier s.tier).lockRoot) := rfl
  rw [heq]
  rw [hnoted.cmds] at hreset hcmds hdetail hrefclk hruns ⊢
  generalize ((s.resetNoted cause).cutCmds s.por.cmds).1.cleared cause detail = u at hreset hcmds hdetail hrefclk hruns
  generalize ((s.resetNoted cause).cutCmds s.por.cmds).2 = ends at hends
  obtain ⟨hkept, htold⟩ := reportCut_spec ends u
  generalize u.reportCut ends = v at hkept htold
  have hlock : EndsKept v (v.noteTier s.tier).lockRoot := by
    unfold State.noteTier
    split <;> exact ⟨rfl, .refl v, id, fun _ => id⟩
  have hall := hkept.trans hlock
  refine ⟨hreset.of_rest (congrArg (fun x : State => x.sansTold) hall.same :), fun c hc hmail hkind => ?_,
    fun hcause => (congrArg (fun x => x.boot.resetDetail) hall.same :).trans (hdetail hcause), (congrArg (fun x => x.boot.refclk) hall.same :).trans hrefclk,
    (congrArg (fun x => x.boot.porterRuns) hall.same :).trans hruns⟩
  obtain ⟨n, hn⟩ := hends c (List.mem_of_find?_eq_some hc) hkind
  have hc' : u.cmd? c.ticket = some c := by
    rw [State.cmd?, hcmds]
    exact hc
  obtain ⟨hgone, hresult, hpends⟩ := htold c n hn hc' hmail
  refine ⟨hlock.ended _ hgone, hlock.result hresult, fun hv => ?_⟩
  rw [hall.dv] at hv ⊢
  exact hlock.pends _ (hpends hv (by rw [hreset.table]; exact msixReset_masked hv))

end Sys2Proof.Machine

/-! PROOFS. What brings a module reset (R401, R411, R459, R493), and the responses and frames that go with it. -/

namespace Sys2Proof.Machine

/-! ## Signals that stay pending while frames are answered -/

theorem pendsKept_mailboxDone (s : State) (bytes : List Byte) : PendsKept s (s.mailboxDone bytes) :=
  PendsKept.trans (t := s.withPor fun p => { p with respArea := bytes, mbBusy := false, mbDone := true }) (fun _ h => h) (pendsKept_signal _ _)

theorem pendsKept_dropFrame (s : State) (path : Path) : PendsKept s (s.dropFrame path) := by
  cases path with
  | field => exact fun _ h => h
  | mailbox =>
    exact PendsKept.trans (t := (s.withPor fun p => { p with framesDropped := p.framesDropped + 1 }).withPor fun p => { p with mbBusy := false })
      (fun _ h => h) (pendsKept_signal _ _)

theorem pendsKept_respond (s : State) (f : InFrame) (rs : List Resp) (keep : Bool) : PendsKept s (s.respond f rs keep) := by
  unfold State.respond
  extract_lets bytes u v w gone
  have hu : PendsKept s u := fun _ h => h
  have hv : PendsKept u v := by
    show PendsKept u (match f.path with
      | .field => u.sendField f.peer bytes
      | .mailbox => u.mailboxDone bytes)
    cases f.path with
    | field => exact fun _ h => h
    | mailbox => exact pendsKept_mailboxDone u bytes
  exact .ite (hu.trans hv) (hu.trans hv)

theorem pendsKept_endSegments (s : State) (f : InFrame) (rs : List Resp) : PendsKept s (s.endSegments f rs) := by
  unfold State.endSegments
  refine .ite (.refl s) ?_
  exact List.foldlRecOn (motive := PendsKept s) _ _ (.refl s) fun _ ht _ _ => ht.trans fun _ h => h

theorem pendsKept_takeFrame (s : State) (x : Inbound) : PendsKept s (s.takeFrame x) := by
  have hdrop := pendsKept_dropFrame s x.path
  unfold State.takeFrame
  extract_lets path multicast bytes h kind auth ses txn n payload frame parted mine first ctr counted
  have hserve (f : InFrame) : PendsKept s (s.withPor fun p => { p with current := some f }) := fun _ h => h
  have hparted : PendsKept s parted := fun _ h => h
  have hcounted : PendsKept s counted := fun _ h => h
  refine .ite hdrop (.ite (.ite hdrop (.ite (.refl s) (.ite ?hello (fun _ h => h)))) (.ite hdrop ?request))
  case hello =>
    clear_value path
    split
    · exact hparted
    · exact hparted.trans (PendsKept.trans (t := parted.withPor fun p => { p with mbBusy := false }) (fun _ h => h) (pendsKept_signal _ _))
  case request =>
    split
    · exact hdrop
    refine .ite (.ite (.refl s) (hserve _)) ?_
    split
    · exact hdrop
    refine .ite (.refl s) (.ite hdrop ?_)
    split
    · exact hcounted.trans (pendsKept_respond _ _ _ _)
    · exact hcounted

theorem pendsKept_takeFrames (n : Nat) (s : State) : PendsKept s (State.takeFrames n s) := by
  induction n generalizing s with
  | zero => exact .refl s
  | succ n ih =>
    unfold State.takeFrames
    refine .ite (.refl s) ?_
    split
    · exact .refl s
    · next rest _ => exact PendsKept.trans (t := s.withPor fun p => { p with inbox := rest }) (fun _ h => h) ((pendsKept_takeFrame _ _).trans (ih _))

/-! ## A reset that a frame's last record commands (R459) -/

/-- The state without the porter's frames and whether a reset waits. -/
def State.sansAsked (s : State) : State := { s.sansFrames with boot := { s.boot with resetAfter := false } }

theorem ResetOf.from_asked {s u t : State} {cause : Byte} (h : ResetOf u cause t) (hsame : u.sansAsked = s.sansAsked) : ResetOf s cause t :=
  { h with
    cut := fun c hc hi hs => by
      rw [show s.stageBank = u.stageBank from (congrArg State.stageBank hsame :).symm]
      exact h.cut c ((congrArg (fun x => x.por.cmds) hsame :) ▸ hc) hi hs
    count := h.count.trans (congrArg (fun x => x.boot.resetCount + 1) hsame :)
    through := fun r hr => by
      rw [show s.ring r = u.ring r from (congrArg (fun x => x.ring r) hsame :).symm]
      exact h.through r hr
    slots := fun i => (h.slots i).trans (congrArg (fun x => (x.slot i).state) hsame :)
    fused := h.fused.trans (congrArg (fun x => x.por.fusedSvn) hsame :)
    factory := h.factory.trans (congrArg (fun x => x.por.factory) hsame :)
    bootBank := h.bootBank.trans (congrArg (fun x => x.boot.bootBank) hsame :) }

theorem Told.from_asked {s u t : State} (h : Told u t) (hsame : u.sansAsked = s.sansAsked) : Told s t := fun c hc =>
  h c (by
    rw [State.cmd?, show u.por.cmds = s.por.cmds from (congrArg (fun x => x.por.cmds) hsame :)]
    exact hc)

theorem Told.of_frames {s t u : State} (h : Told s t) (hsame : SameButFrames t u) (hpends : PendsKept t u) : Told s u := fun c hc hmail hkind => by
  obtain ⟨hgone, hresult, hsignal⟩ := h c hc hmail hkind
  refine ⟨?_, (congrArg (fun x => x.por.mbResult) hsame :).trans hresult, fun hv => ?_⟩
  · rw [State.cmd?, hsame.cmds]
    exact hgone
  · rw [hsame.dv] at hv ⊢
    exact hpends _ (hsignal hv)

/-- The last record of a frame that commanded a reset is answered, and the reset starts. -/
theorem answer_resets {s : State} {f : InFrame} {r : Req} (hfront : s.frontRec = some (f, r)) (hlast : f.recs = [r]) (hasked : s.boot.resetAfter = true)
    (status detail total : Nat) (value : List Byte) :
    ResetOf s 1 (s.answer status detail total value) ∧ Told s (s.answer status detail total value) := by
  unfold State.answer
  rw [hfront]
  dsimp only
  rw [if_pos (by rw [hlast]; rfl)]
  generalize f.resps ++ _ = rs
  have ht : SameButFrames s (((s.withPor fun p => { p with current := none }).endSegments f rs).respond f rs (decide (f.session ≠ 0))) :=
    ((sameButFrames_withPor s).trans (sameButFrames_endSegments _ _ _)).trans (sameButFrames_respond _ _ _ _)
  generalize (((s.withPor fun p => { p with current := none }).endSegments f rs).respond f rs (decide (f.session ≠ 0))) = u at ht
  rw [if_pos (by rw [ht.boot]; exact hasked)]
  obtain ⟨hreset, htold, -⟩ := enterReset_spec u 1 0
  have hsame : u.sansAsked = s.sansAsked := (congrArg (fun x : State => { x with boot := { x.boot with resetAfter := false } }) ht :)
  have hnext : SameButFrames (u.enterReset 1 0) (u.enterReset 1 0).nextFrame := sameButFrames_takeFrames _ _
  have hpends : PendsKept (u.enterReset 1 0) (u.enterReset 1 0).nextFrame := pendsKept_takeFrames _ _
  generalize u.enterReset 1 0 = v at hreset htold hnext hpends
  exact ⟨(hreset.of_rest (u := v.nextFrame) (congrArg State.sansTold hnext :)).from_asked hsame, (htold.of_frames hnext hpends).from_asked hsame⟩

theorem frontRec_recs {s : State} {f : InFrame} {r : Req} (h : s.frontRec = some (f, r)) : ∃ rest, f.recs = r :: rest := by
  unfold State.frontRec at h
  split at h
  · cases h
  split at h
  · split at h
    · cases h
    · split at h
      · next hrecs =>
        injection h with h
        injection h with hf hr
        subst hf hr
        exact ⟨_, hrecs⟩
      · cases h
  · cases h

theorem writes_moduleReset {bs : List Byte} {f : InFrame} {r : Req} {s : State} (hbs : leNat bs = 1) (hfront : s.frontRec = some (f, r))
    (h : s.writes 0x0202 1 bs) :
    (f.recs = [r] → ResetOf s 1 s.moduleReset ∧ Told s s.moduleReset) ∧
    (f.recs ≠ [r] → AnsweredWith dsOk s s.moduleReset ∧ s.moduleReset.boot = { s.boot with resetAfter := true } ∧ s.moduleReset.hub = s.hub) := by
  obtain ⟨f', r', t, hreset, hfront', hrop, hindex, hsub, hlook⟩ := h
  obtain ⟨rfl, rfl⟩ : f' = f ∧ r' = r := by simpa using hfront'.symm.trans hfront
  obtain ⟨l, rfl⟩ := lookWrite_value hlook
  have hasked : ∃ total, s.moduleReset = ((s.withSessions l).withBoot fun b => { b with resetAfter := true }).answer dsOk 0 total [] := by
    have hserved : ¬ (r'.rop ≠ 2 ∨ (decide (r'.index = 0x0202 ∧ r'.sub = 1)) = false) := by simp [hrop, hindex, hsub]
    have hact : onTrue (fun s _ _ _ => (⟨s.withBoot (fun b => { b with resetAfter := true }), dsOk, 0, none⟩ : Ans)) (s.withSessions l) f' r' bs =
        ⟨(s.withSessions l).withBoot fun b => { b with resetAfter := true }, dsOk, 0, none⟩ := if_pos hbs
    simp only [State.moduleReset, State.serveWrite, hfront, if_neg hserved, hlook, hact]
    exact ⟨_, rfl⟩
  obtain ⟨total, heq⟩ := hasked
  have hrec : ((s.withSessions l).withBoot fun b => { b with resetAfter := true }).frontRec = some (f', r') := hfront
  rw [heq]
  constructor
  · intro hlast
    obtain ⟨hreset, htold⟩ := answer_resets hrec hlast rfl dsOk 0 total []
    exact ⟨hreset.from_asked rfl, htold.from_asked rfl⟩
  · intro hmore
    obtain ⟨rest, hrecs⟩ := frontRec_recs hfront
    have hrest : (f'.recs.drop 1).isEmpty = false := by
      rw [hrecs]
      cases rest with
      | nil => exact absurd hrecs hmore
      | cons _ _ => rfl
    refine ⟨⟨_, 0, total, hrec.trans hfront.symm, rfl⟩, ?_⟩
    unfold State.answer
    rw [hrec]
    dsimp only
    rw [if_neg (by rw [hrest]; exact Bool.false_ne_true)]
    exact ⟨rfl, rfl⟩

theorem dictRead_answers {s : State} {f : InFrame} {r : Req} (hfront : s.frontRec = some (f, r)) (hrop : r.rop ≠ 2) :
    ∃ status total value, s.dictRead = s.answer status 0 total value := by
  unfold State.dictRead
  rw [hfront]
  dsimp only
  rw [if_neg hrop]
  split
  · exact ⟨_, _, _, rfl⟩
  · split
    · exact ⟨_, _, _, rfl⟩
    · exact ⟨_, _, _, rfl⟩

/-! ## POWER_FAULT and ROOT_UNLOCK -/

theorem powerFault_eq {s : State} {cause : Byte} (hvin : s.boot.vin = true) (hstarted : s.boot.porterStarted = true) (hlo : 1 ≤ cause.toNat)
    (hhi : cause.toNat ≤ 5) : s.powerFault cause = s.enterReset 0xF1 cause := by
  have hzero : cause ≠ 0 := fun h => by
    rw [h] at hlo
    exact absurd hlo (by decide)
  unfold State.powerFault
  rw [hvin, hstarted, decide_eq_false (by rintro (h | h) <;> [exact hzero h; omega])]
  rfl

theorem rootUnlock_kept {s : State} (hroot : s.pwr.rootLocked = true) : s.rootUnlock false = s.enterReset 0xF0 0 := by
  unfold State.rootUnlock
  rw [if_pos hroot]
  rfl

/-- The reference is lost: the porter does not run and ROOT is unlocked. -/
def State.refLost (s : State) : State :=
  (s.withBoot fun b => { b with refclk := false, porterRuns := false }).withPwr fun p => { p with rootLocked := false }

theorem rootUnlock_lost {s : State} (hroot : s.pwr.rootLocked = true) (href : s.boot.refclk = true) :
    ∃ (stop : Bool) (before : Nat), s.rootUnlock true =
      (if stop then (s.enterReset 0xF0 0).serviceStop 0xF0 else s.enterReset 0xF0 0).refLost.noteTier before := by
  obtain ⟨-, -, -, hclk, -⟩ := enterReset_spec s 0xF0 0
  rw [href] at hclk
  unfold State.rootUnlock
  rw [if_pos hroot]
  generalize s.enterReset 0xF0 0 = u at hclk
  extract_lets counted w before v
  have hv : ∃ stop : Bool, v = if stop then u.serviceStop 0xF0 else u := ⟨_, rfl⟩
  obtain ⟨stop, hv⟩ := hv
  have hclk' : v.boot.refclk = true := by
    rw [hv]
    split <;> exact hclk
  clear_value v
  rw [if_pos (by rw [hclk']; rfl)]
  exact ⟨stop, before, by rw [hv]; rfl⟩

theorem reset_rootUnlock {s : State} (hroot : s.pwr.rootLocked = true) (href : s.boot.refclk = true) :
    ResetOf s 0xF0 (s.rootUnlock true) ∧ Told s (s.rootUnlock true) ∧ (s.rootUnlock true).boot.refclk = false ∧
    (s.rootUnlock true).boot.porterRuns = false ∧ (s.rootUnlock true).pwr.rootLocked = false ∧ (s.rootUnlock true).tier = 0 := by
  obtain ⟨hreset, htold, -⟩ := enterReset_spec s 0xF0 0
  obtain ⟨stop, before, heq⟩ := rootUnlock_lost hroot href
  rw [heq]
  generalize s.enterReset 0xF0 0 = u at hreset htold
  have hlost (v : State) : (v.refLost.noteTier before).sansTold = v.sansTold ∧ (v.refLost.noteTier before).hub = v.hub ∧
      (v.refLost.noteTier before).por.cmds = v.por.cmds ∧ (v.refLost.noteTier before).por.mbResult = v.por.mbResult ∧
      (v.refLost.noteTier before).por.vals = v.por.vals ∧ (v.refLost.noteTier before).boot.refclk = false ∧
      (v.refLost.noteTier before).boot.porterRuns = false ∧ (v.refLost.noteTier before).pwr.rootLocked = false := by
    unfold State.noteTier
    split <;> exact ⟨rfl, rfl, rfl, rfl, rfl, rfl, rfl, rfl⟩
  have hstop : (if stop then u.serviceStop 0xF0 else u).sansTold = u.sansTold ∧ (if stop then u.serviceStop 0xF0 else u).hub = u.hub ∧
      (if stop then u.serviceStop 0xF0 else u).por.cmds = u.por.cmds ∧ (if stop then u.serviceStop 0xF0 else u).por.mbResult = u.por.mbResult ∧
      (if stop then u.serviceStop 0xF0 else u).por.vals = u.por.vals := by
    split <;> exact ⟨rfl, rfl, rfl, rfl, rfl⟩
  generalize (if stop then u.serviceStop 0xF0 else u) = v at hstop
  obtain ⟨hvtold, hvhub, hvcmds, hvresult, hvvals⟩ := hstop
  obtain ⟨hsans, hhub, hcmds, hresult, hvals, hclk, hruns, hlock⟩ := hlost v
  generalize v.refLost.noteTier before = t at hsans hhub hcmds hresult hvals hclk hruns hlock
  refine ⟨hreset.of_rest (hsans.trans hvtold), fun c hc hmail hkind => ?_, hclk, hruns, hlock, if_pos (by simp [hclk])⟩
  obtain ⟨hgone, hmb, hpends⟩ := htold c hc hmail hkind
  have hdv (i k : Nat) : t.dv i k = u.dv i k := by rw [State.dv, hvals.trans hvvals]; rfl
  refine ⟨?_, (hresult.trans hvresult).trans hmb, fun hv => ?_⟩
  · rw [State.cmd?, hcmds.trans hvcmds]
    exact hgone
  · rw [hdv] at hv ⊢
    rw [hhub.trans hvhub]
    exact hpends hv

end Sys2Proof.Machine

/-! PROOFS. The start of the porter and of the units (R401, R443–R446; Table 19-2). -/

namespace Sys2Proof.Machine

/-! ## POWER_UP and REFERENCE_RETURN -/

/-- The state without what the ROM decides of the image that runs. -/
def State.sansImage (s : State) : State :=
  { s with boot := { s.boot with banks := [], fwBank := 0, recovery := false, fallback := false } }

theorem sansImage_bootImage (s : State) : s.bootImage.sansImage = s.sansImage := by
  have hstage (t : State) (b : Nat) : (t.fwSetStage b).sansImage = t.sansImage := rfl
  unfold State.bootImage
  extract_lets b u v
  have hu : u.sansImage = s.sansImage := hstage s b
  have hv : v.sansImage = u.sansImage := hstage u _
  clear_value u v
  split
  · exact hu
  · split
    · exact hv.trans hu
    · exact hv.trans hu

/-- What a porter start leaves beside the image that runs (R484, R492, R493). -/
theorem porterBoot_spec (s : State) : s.porterBoot.boot.vin = s.boot.vin ∧ s.porterBoot.boot.porterRuns = true ∧
    s.porterBoot.por.nodeId = s.porterBoot.boot.strap ∧ s.porterBoot.boot.resetCause = 0 ∧
    s.porterBoot.pwr.rootLocked = (s.boot.refclk && !s.porterBoot.boot.recovery) ∧ s.porterBoot.net = s.net ∧ s.porterBoot.por.sessions = [] ∧
    s.porterBoot.por.fusedSvn = s.por.fusedSvn := by
  have himage := sansImage_bootImage s
  unfold State.porterBoot
  generalize s.bootImage = u at himage
  have hvin : u.porterFresh.boot.vin = s.boot.vin := (congrArg (fun x => x.boot.vin) himage :)
  have hclk : u.porterFresh.boot.refclk = s.boot.refclk := (congrArg (fun x => x.boot.refclk) himage :)
  have hnet : u.porterFresh.net = s.net := (congrArg State.net himage :)
  have hfused : u.porterFresh.por.fusedSvn = s.por.fusedSvn := (congrArg (fun x => x.por.fusedSvn) himage :)
  have hnode : u.porterFresh.por.nodeId = u.porterFresh.boot.strap := rfl
  have hsessions : u.porterFresh.por.sessions = [] := rfl
  generalize u.porterFresh = v at hvin hclk hnet hfused hnode hsessions
  obtain ⟨hvalues, -⟩ := resolve_spec v
  generalize v.resolve = w at hvalues
  have hboot : w.boot = v.boot := (congrArg State.boot hvalues :)
  refine ⟨(congrArg Boot.vin hboot).trans hvin, rfl, ?_, rfl, ?_, (congrArg State.net hvalues :).trans hnet,
    (congrArg (fun x => x.por.sessions) hvalues :).trans hsessions, (congrArg (fun x => x.por.fusedSvn) hvalues :).trans hfused⟩
  · exact ((congrArg (fun x => x.por.nodeId) hvalues :).trans hnode).trans (congrArg Boot.strap hboot).symm
  · exact congrArg (· && !w.boot.recovery) ((congrArg Boot.refclk hboot).trans hclk)

theorem powerUp_spec {s : State} (hvin : s.boot.vin = false) (hclk : s.boot.refclk = true) :
    s.powerUp.boot.vin = true ∧ s.powerUp.boot.porterRuns = true ∧ s.powerUp.por.nodeId = s.powerUp.boot.strap ∧
    s.powerUp.boot.resetCause = 0 ∧ s.powerUp.pwr.rootLocked = !s.powerUp.boot.recovery ∧
    (∀ r, r < 2 → (s.powerUp.ring r).bypass = if (s.ring r).bypass = .through then .through else .moving false) ∧
    s.powerUp.por.sessions = [] ∧ s.powerUp.por.fusedSvn = s.por.fusedSvn := by
  have heq : s.powerUp = ((s.withBoot fun b => { b with vin := true }).ringsThrough).porterBoot := by
    unfold State.powerUp
    rw [if_neg (by rw [hvin]; exact Bool.false_ne_true)]
    exact if_pos hclk
  have hrings (r : Nat) (hr : r < 2) := ring_ringsThrough (s.withBoot fun b => { b with vin := true }) hr
  obtain ⟨hboot, hpor, -⟩ := ringsThrough_rest (s.withBoot fun b => { b with vin := true })
  rw [heq]
  generalize (s.withBoot fun b => { b with vin := true }).ringsThrough = u at hrings hboot hpor
  obtain ⟨hv, hruns, hnode, hcause, hroot, hnet, hsessions, hfused⟩ := porterBoot_spec u
  generalize u.porterBoot = t at hv hruns hnode hcause hroot hnet hsessions hfused
  refine ⟨hv.trans (congrArg Boot.vin hboot), hruns, hnode, hcause, ?_, fun r hr => ?_, hsessions, hfused.trans (congrArg Porter.fusedSvn hpor)⟩
  · rw [hroot, hboot]
    show (s.boot.refclk && !t.boot.recovery) = _
    rw [hclk, Bool.true_and]
  · exact (congrArg Ring.bypass (congrArg (fun n : Net => mget {} n.rings r) hnet :)).trans (hrings r hr)

theorem refReturn_eq {s : State} (hclk : s.boot.refclk = false) (hvin : s.boot.vin = true) (hstarted : s.boot.porterStarted = true) :
    s.refReturn = { s with
      boot := { s.boot with refclk := true, porterRuns := true }, pwr := { s.pwr with rootLocked := !s.boot.recovery }
      por := { s.por with bwLog2 := s.dv 0x19F0 2 } } := by
  unfold State.refReturn
  rw [if_neg (by rw [hclk]; exact Bool.false_ne_true)]
  dsimp only
  rw [if_neg (by show ¬ (!s.boot.vin) = true; rw [hvin]; exact Bool.false_ne_true),
    if_neg (by show ¬ (!s.boot.porterStarted) = true; rw [hstarted]; exact Bool.false_ne_true)]
  rfl

/-! ## STACK_TRAINED and FLASH_TRAINED -/

theorem ms_fenceStack (s : State) (m code : Nat) : (s.fenceStack m code).ms = (s.modStack m fun x => { x with fence := code }).ms := by
  have hnote (t : State) (before : Nat) : (t.noteTier before).ms = t.ms := by
    unfold State.noteTier
    split <;> rfl
  unfold State.fenceStack
  extract_lets before u lost v
  have hv : v.ms = u.ms := by
    refine List.foldlRecOn (motive := fun t : State => t.ms = u.ms) _ _ rfl fun t ht i _ => ?_
    split
    · exact ht
    · exact ht
  exact (hnote _ _).trans hv

theorem stack_fenceStack (s : State) (m code i : Nat) : (s.fenceStack m code).stack i = if i = m then { s.stack m with fence := code } else s.stack i := by
  rw [State.stack, ms_fenceStack]
  exact stack_modStack s m i _

theorem hubsReady_of_starting {s : State} (h : s.starting = true) :
    s.hubsReady = s.withBoot (fun b => { b with hub0 := true, hub1 := b.hub1 || b.hub0 }) := if_pos h

section
variable {s : State} {m : Nat} (hstart : s.starting = true) (huntrained : (s.stack m).trained = false) (hfree : (s.stack m).fence = 0)
include hstart huntrained hfree

theorem stackTrained_waits : ¬ (!s.starting || (s.stack m).trained || decide ((s.stack m).fence ≠ 0)) = true := by
  simp [hstart, huntrained, hfree]

theorem stackTrained_failed : ((s.stackTrained m .failed).stack m).fence = 1 ∧ ((s.stackTrained m .failed).stack m).training = 2 ∧
    ((s.stackTrained m .failed).stack m).trained = false ∧ (s.stackTrained m .failed).ms.mem = s.ms.mem := by
  have heq : s.stackTrained m .failed = (s.modStack m fun x => { x with training := 2 }).fenceStack m 1 := by
    unfold State.stackTrained
    dsimp only
    rw [if_neg (stackTrained_waits hstart huntrained hfree), if_neg (by rintro ⟨h, -⟩; cases h)]
  have hstack := stack_fenceStack (s.modStack m fun x => { x with training := 2 }) m 1 m
  rw [if_pos rfl, stack_modStack, if_pos rfl] at hstack
  rw [heq, hstack]
  exact ⟨rfl, rfl, huntrained, (congrArg MemSys.mem (ms_fenceStack (s.modStack m fun x => { x with training := 2 }) m 1) :)⟩

end

theorem stack_memZero (s : State) (a n m : Nat) : (s.memZero a n).stack m = s.stack m := by
  have hsnoop : (s.snoopInv a n).ms.stackRecs = s.ms.stackRecs := by
    unfold State.snoopInv
    extract_lets ls u
    exact List.foldlRecOn (motive := fun t : State => t.ms.stackRecs = s.ms.stackRecs) ls (fun t l => t.emit (.bisnp l true)) rfl fun _ ht _ _ => ht
  have hcount (u : State) : (u.countWritten a n).ms.stackRecs = u.ms.stackRecs :=
    List.foldlRecOn (motive := fun t : State => t.ms.stackRecs = u.ms.stackRecs) _ _ rfl fun _ ht _ _ => ht
  have hzero : (s.memZero a n).ms.stackRecs = s.ms.stackRecs := (hcount _).trans hsnoop
  rw [State.stack, hzero]
  rfl

/-- A stack that has trained reads zero (R446), the others as before. -/
theorem trained_spec {s : State} {m : Nat} (hfree : (s.stack m).fence = 0) (n lo len : Nat) :
    let u := (s.modStack m fun x => { x with training := n, trained := true }).memZero lo len
    (u.stack m).fence = 0 ∧ (u.stack m).trained = true ∧ (u.stack m).training = n ∧
    ∀ a, u.ms.mem.read a = if lo ≤ a ∧ a < lo + len then 0 else s.ms.mem.read a := by
  intro u
  have hstack : u.stack m = { s.stack m with training := n, trained := true } := by
    rw [stack_memZero, stack_modStack, if_pos rfl]
  obtain ⟨-, -, hmem⟩ := memZero_spec (s.modStack m fun x => { x with training := n, trained := true }) lo len
  rw [hstack]
  exact ⟨hfree, rfl, rfl, fun a => (congrArg (fun x : Mem => x.read a) hmem).trans (Mem.read_zero _ _ _ _)⟩

/-- The bytes of stack m read zero and the others as before. -/
def StackZeroed (s : State) (m : Nat) (t : State) : Prop :=
  ∀ a, t.ms.mem.read a = if m * 2 ^ 37 ≤ a ∧ a < m * 2 ^ 37 + 2 ^ 37 then 0 else s.ms.mem.read a

theorem StackZeroed.inside {s t : State} {m a : Nat} (h : StackZeroed s m t) (hlo : m * 2 ^ 37 ≤ a) (hhi : a < (m + 1) * 2 ^ 37) :
    t.ms.mem.read a = 0 := (h a).trans (if_pos ⟨hlo, Nat.add_one_mul m (2 ^ 37) ▸ hhi⟩)

theorem StackZeroed.outside {s t : State} {m a : Nat} (h : StackZeroed s m t) (hout : a < m * 2 ^ 37 ∨ (m + 1) * 2 ^ 37 ≤ a) :
    t.ms.mem.read a = s.ms.mem.read a := (h a).trans (if_neg fun hin => by
  rw [Nat.add_one_mul] at hout
  exact hout.elim (Nat.not_lt.2 hin.1) (Nat.not_le.2 hin.2))

theorem ms_withBoot (s : State) (f : Boot → Boot) : (s.withBoot f).ms = s.ms := rfl

section
variable {s : State} {m : Nat} (hwaits : ¬ (!s.starting || (s.stack m).trained || decide ((s.stack m).fence ≠ 0)) = true) {how : Training}
include hwaits

theorem stackTrained_stored (hhow : how = .stored) (hvalues : s.trainingValues m = true) :
    s.stackTrained m how = (s.modStack m fun x => { x with training := 0, trained := true }).memZero (m * 2 ^ 37) (2 ^ 37) := by
  unfold State.stackTrained
  extract_lets kind u
  rw [if_neg hwaits]
  have hkind : kind = .stored := (if_neg (by rw [hvalues]; rintro ⟨-, h⟩; cases h)).trans hhow
  rw [hkind]

theorem stackTrained_full (hkind : (if how = .stored ∧ s.trainingValues m = false then Training.full else how) = .full) :
    ∃ f : Boot → Boot, s.stackTrained m how =
      ((s.modStack m fun x => { x with training := 1, trained := true }).memZero (m * 2 ^ 37) (2 ^ 37)).withBoot f := by
  unfold State.stackTrained
  extract_lets kind u
  have hkind' : kind = .full := hkind
  rw [if_neg hwaits, hkind']
  exact ⟨_, rfl⟩

end

/-- A stack trains: which training it was, and the memory it leaves. -/
theorem stackTrained_ms {s : State} {m : Nat} (hstart : s.starting = true) (huntrained : (s.stack m).trained = false) (hfree : (s.stack m).fence = 0)
    {how : Training} (hhow : how ≠ .failed) : (s.stackTrained m how).ms = ((s.modStack m fun x => { x with
      training := if how = .stored ∧ s.trainingValues m = true then 0 else 1, trained := true }).memZero (m * 2 ^ 37) (2 ^ 37)).ms := by
  have hwaits := stackTrained_waits hstart huntrained hfree
  by_cases hstored : how = .stored ∧ s.trainingValues m = true
  · rw [stackTrained_stored hwaits hstored.1 hstored.2, if_pos hstored]
  · obtain ⟨f, hf⟩ := stackTrained_full hwaits (how := how) (by
      cases how with
      | failed => exact absurd rfl hhow
      | stored => exact if_pos ⟨rfl, by simpa using hstored⟩
      | full => exact ite_self _)
    rw [hf, ms_withBoot, if_neg hstored]

theorem stackTrained_done {s : State} {m : Nat} (hstart : s.starting = true) (huntrained : (s.stack m).trained = false) (hfree : (s.stack m).fence = 0)
    {how : Training} (hhow : how ≠ .failed) : ((s.stackTrained m how).stack m).fence = 0 ∧ ((s.stackTrained m how).stack m).trained = true ∧
    ((s.stackTrained m how).stack m).training = (if how = .stored ∧ s.trainingValues m = true then 0 else 1) ∧
    StackZeroed s m (s.stackTrained m how) := by
  unfold StackZeroed State.stack
  rw [stackTrained_ms hstart huntrained hfree hhow]
  exact trained_spec hfree _ _ _

theorem flashCh_fenceFlash (s : State) (c code i : Nat) : ((s.fenceFlash c code).flashCh i).fence = if i = c then code else (s.flashCh i).fence := by
  have hchannels : (s.fenceFlash c code).car.channels = (s.modFlashCh c fun x => { x with fence := code }).car.channels := by
    unfold State.fenceFlash
    extract_lets before u hit v
    have hv : v.car.channels = u.car.channels := by
      refine List.foldlRecOn (motive := fun t : State => t.car.channels = u.car.channels) _ _ rfl fun t ht i _ => ?_
      split
      · exact ht
      · exact ht
    exact (congrArg Caravan.channels (car_noteTier _ _)).trans hv
  rw [State.flashCh, hchannels]
  show ((s.modFlashCh c fun x => { x with fence := code }).flashCh i).fence = _
  rw [flashCh_modFlashCh]
  split <;> rfl

/-- No channel's fence moves. -/
def ChannelFences (s t : State) : Prop := ∀ c, (t.flashCh c).fence = (s.flashCh c).fence

theorem channelFences_finishErase (s : State) (i : Nat) : ChannelFences s (s.finishErase i) := by
  unfold State.finishErase
  split
  · unfold State.freeSlot
    dsimp only
    refine List.foldlRecOn (motive := fun t : State => ChannelFences s t) _ _ (fun _ => rfl) fun t ht ch _ c => ?_
    refine Eq.trans ?_ (ht c)
    show ((t.draw.2.modFlashCh ch _).flashCh c).fence = _
    rw [flashCh_modFlashCh]
    split
    · next h => rw [h]; rfl
    · rfl
  · exact fun _ => rfl

theorem flashTrained_spec {s : State} (hstart : s.starting = true) (hnew : s.boot.flashReady = false) (failed : BitVec 128) :
    (s.flashTrained failed).boot.flashReady = true ∧
    ∀ c, c < 128 → ((s.flashTrained failed).flashCh c).fence = if failed.getLsbD c then 1 else (s.flashCh c).fence := by
  have hfences (l : List Nat) (t : State) (c : Nat) : ((l.foldl (fun t c => t.fenceFlash c 1) t).flashCh c).fence =
      if c ∈ l then 1 else (t.flashCh c).fence := by
    induction l generalizing t with
    | nil => rfl
    | cons a l ih =>
      rw [List.foldl_cons, ih, flashCh_fenceFlash]
      by_cases hc : c = a
      · subst hc
        rw [if_pos rfl, ite_self, if_pos List.mem_cons_self]
      · rw [if_neg hc]
        simp only [List.mem_cons, hc, false_or]
  have herases (t : State) : ChannelFences t ((List.range 16).foldl (fun t i => t.finishErase i) t) :=
    List.foldlRecOn (motive := fun u : State => ChannelFences t u) _ _ (fun _ => rfl) fun u hu i _ c => (channelFences_finishErase u i c).trans (hu c)
  unfold State.flashTrained
  rw [if_neg (by rw [hstart, hnew]; exact Bool.false_ne_true)]
  have hfenced := hfences ((List.range 128).filter (fun c => failed.getLsbD c)) s
  dsimp only
  generalize ((List.range 128).filter (fun c => failed.getLsbD c)).foldl (fun t c => t.fenceFlash c 1) s = u at hfenced
  have herased := herases u
  generalize (List.range 16).foldl (fun t i => t.finishErase i) u = v at herased
  refine ⟨rfl, fun c hc => (herased c).trans ((hfenced c).trans ?_)⟩
  simp only [List.mem_filter, List.mem_range, hc, true_and]

end Sys2Proof.Machine

/-! PROOFS. START_READY (R445, R446, R503): late units are fenced, the enables apply, and the module is READY. -/

namespace Sys2Proof.Machine

/-! ## Fences of stacks that stay -/

/-- A stack that is fenced stays as it is fenced. -/
def FenceKept (s t : State) : Prop := ∀ m, (s.stack m).fence ≠ 0 → (t.stack m).fence = (s.stack m).fence

theorem FenceKept.refl (s : State) : FenceKept s s := fun _ _ => rfl

theorem FenceKept.trans {s t u : State} (h : FenceKept s t) (h' : FenceKept t u) : FenceKept s u := fun m hm =>
  (h' m (by rw [h m hm]; exact hm)).trans (h m hm)

theorem FenceKept.foldl {α : Type} {f : State → α → State} (h : ∀ t a, FenceKept t (f t a)) (l : List α) (s : State) : FenceKept s (l.foldl f s) :=
  l.foldlRecOn f (motive := FenceKept s) (.refl s) fun _ ht a _ => ht.trans (h _ a)

theorem FenceKept.ite {s t u : State} {p : Prop} [Decidable p] (ht : FenceKept s t) (hu : FenceKept s u) : FenceKept s (if p then t else u) := by
  split
  · exact ht
  · exact hu

theorem fenceKept_modStack (s : State) (m : Nat) {f : Stack → Stack} (hf : ∀ x, (f x).fence = x.fence) : FenceKept s (s.modStack m f) := fun i _ => by
  rw [stack_modStack]
  split
  · next h => rw [hf, h]
  · rfl

theorem fenceKept_fenceStack {s : State} {m : Nat} (hfree : (s.stack m).fence = 0) (code : Nat) : FenceKept s (s.fenceStack m code) := fun i hi => by
  rw [stack_fenceStack, if_neg fun h => hi (by rw [h]; exact hfree)]

theorem fenceKept_useParity (s : State) (m : Nat) : FenceKept s (s.useParity m) := by
  unfold State.useParity
  refine .ite (.refl s) ?_
  refine FenceKept.trans (t := s.withMs fun x => { x with parity := mset x.parity m 0 }) (.refl s) ?_
  exact fenceKept_modStack _ _ fun _ => rfl

theorem fenceKept_countFlips (s : State) (a n : Nat) : FenceKept s (s.countFlips a n) := by
  refine FenceKept.foldl (fun t g => ?_) _ s
  exact fenceKept_modStack t _ fun _ => rfl

theorem fenceKept_snoopInv (s : State) (a n : Nat) : FenceKept s (s.snoopInv a n) := by
  unfold State.snoopInv
  extract_lets ls u
  have hu : FenceKept s u := FenceKept.foldl (f := fun t l => t.emit (.bisnp l true)) (fun t _ => .refl t) ls s
  exact hu.trans (.refl u)

theorem fenceKept_memPut (s : State) (a : Nat) (bs : List Byte) : FenceKept s (s.memPut a bs) := by
  have hmerge : FenceKept s ((s.fresh a bs.length).mergeFlips a bs.length) := fenceKept_countFlips (s.fresh a bs.length) a bs.length
  have hcount (t : State) : FenceKept t (t.countWritten a bs.length) := by
    refine FenceKept.foldl (fun t m => ?_) _ t
    exact .refl t
  refine hmerge.trans (FenceKept.trans ?_ (hcount _))
  exact .refl _

theorem fenceKept_memLand (s : State) (a : Nat) (bs : List Byte) : FenceKept s (s.memLand a bs) := by
  unfold State.memLand
  refine FenceKept.foldl (fun t p => ?_) _ s
  exact .ite (.refl t) (.ite (.refl t) ((fenceKept_snoopInv t _ _).trans (fenceKept_memPut _ _ _)))

theorem fenceKept_countUe (s : State) (a : Nat) : FenceKept s (s.countUe a) := by
  unfold State.countUe
  extract_lets m u v
  have hu : FenceKept s u := by
    refine (fenceKept_useParity s m).trans ?_
    exact fenceKept_modStack _ m fun _ => rfl
  have hv : FenceKept s v := hu.trans (.refl u)
  split
  · next hfree =>
    obtain ⟨-, -, hms, -⟩ := jobFault_rest (v.fenceStack m 2) none
      { status := stMemUe, stack := BitVec.ofNat 8 m, channel := BitVec.ofNat 8 (addrChannel a), unit := BitVec.ofNat 32 (addrUnit a) }
    refine (hv.trans (fenceKept_fenceStack hfree.1 2)).trans fun i _ => ?_
    unfold State.stack
    rw [hms]
  · exact hv

theorem fenceKept_memWriteHub (s : State) (a : Nat) (bs : List Byte) : FenceKept s (s.memWriteHub a bs) := by
  have herr (t : State) (e : AccErr) : FenceKept t (t.countErr e) := by
    cases e with
    | bus => exact .refl t
    | ue x => exact fenceKept_countUe t x
  unfold State.memWriteHub State.memWriteOwn
  cases s.rangeErr a bs.length with
  | some e => exact (fenceKept_memLand s a bs).trans (herr _ _)
  | none =>
    cases s.poisonPart a bs.length with
    | some g => exact (fenceKept_memLand s a bs).trans (herr _ _)
    | none => exact ((fenceKept_snoopInv s _ _).trans (fenceKept_memPut _ _ _)).trans (.foldl fenceKept_useParity _ _)

theorem viewBuild_spec (s : State) : OnlyAccess s s.viewBuild ∧ FenceKept s s.viewBuild := by
  unfold State.viewBuild
  split
  · exact ⟨.refl s, .refl s⟩
  extract_lets base rs u v
  have hu : OnlyAccess s u ∧ FenceKept s u := ⟨onlyAccess_memWriteHub _ _ _, fenceKept_memWriteHub _ _ _⟩
  have hv : OnlyAccess u v ∧ FenceKept u v := ⟨onlyAccess_memWriteHub _ _ _, fenceKept_memWriteHub _ _ _⟩
  exact ⟨(hu.1.trans hv.1).trans (onlyAccess_foldl (fun t r => onlyAccess_memWriteHub t _ _) _ _),
    (hu.2.trans hv.2).trans (.foldl (fun t r => fenceKept_memWriteHub t _ _) _ _)⟩

/-- The user view as its entries configure it: what it is, and what building it may touch. -/
theorem viewTake_spec (s : State) : ∃ base bytes, OnlyAccess (s.withPor fun p => { p with viewBase := base, viewBytes := bytes }) s.viewTake ∧
    FenceKept s s.viewTake ∧ ((base = 0 ∧ bytes = 0) ∨ base = s.dv 0x1F08 1 ∧ bytes = s.dv 0x1F08 2) := by
  have hset (base bytes : Nat) : ∃ b n, OnlyAccess (s.withPor fun p => { p with viewBase := b, viewBytes := n }) (s.viewSet base bytes) ∧
      FenceKept s (s.viewSet base bytes) ∧ ((b = 0 ∧ n = 0) ∨ b = base ∧ n = bytes) := by
    unfold State.viewSet
    dsimp only
    refine ⟨_, _, (viewBuild_spec _).1, fun m hm => (viewBuild_spec (s.withPor _)).2 m hm, ?_⟩
    split
    · exact .inr ⟨rfl, rfl⟩
    · exact .inl ⟨rfl, rfl⟩
  unfold State.viewTake
  dsimp only
  split
  · obtain ⟨b, n, haccess, hfence, hbn⟩ := hset 0 0
    exact ⟨b, n, haccess, hfence, .inl (hbn.elim id id)⟩
  · exact hset _ _

/-! ## What the steps of start-up keep -/

/-- Jobs, pacing, entries, hubs, enables, the ARITH divider and the fences of stacks stay. -/
structure StartKept (s t : State) : Prop where
  jobs : t.hub.jobs = s.hub.jobs
  pacing : t.pacing = s.pacing
  vals : t.por.vals = s.por.vals
  hub0 : t.boot.hub0 = s.boot.hub0
  hub1 : t.boot.hub1 = s.boot.hub1
  ready : t.boot.ready = s.boot.ready
  inReset : t.boot.inReset = s.boot.inReset
  blocks : t.pwr.blocks = s.pwr.blocks
  arith : t.pwr.arithDiv = s.pwr.arithDiv
  fences : FenceKept s t

namespace StartKept

theorem refl (s : State) : StartKept s s := ⟨rfl, rfl, rfl, rfl, rfl, rfl, rfl, rfl, rfl, .refl s⟩

theorem trans {s t u : State} (h : StartKept s t) (h' : StartKept t u) : StartKept s u :=
  ⟨h'.jobs.trans h.jobs, h'.pacing.trans h.pacing, h'.vals.trans h.vals, h'.hub0.trans h.hub0, h'.hub1.trans h.hub1, h'.ready.trans h.ready,
    h'.inReset.trans h.inReset, h'.blocks.trans h.blocks, h'.arith.trans h.arith, h.fences.trans h'.fences⟩

theorem foldl {α : Type} {f : State → α → State} (h : ∀ t a, StartKept t (f t a)) (l : List α) (s : State) : StartKept s (l.foldl f s) :=
  l.foldlRecOn f (motive := StartKept s) (refl s) fun _ ht a _ => ht.trans (h _ a)

theorem ite {s t u : State} {p : Prop} [Decidable p] (ht : StartKept s t) (hu : StartKept s u) : StartKept s (if p then t else u) := by
  split
  · exact ht
  · exact hu

theorem dv {s t : State} (h : StartKept s t) (i u : Nat) : t.dv i u = s.dv i u := by rw [State.dv, h.vals]; rfl

end StartKept

theorem OnlyAccess.startKept {s t : State} (h : OnlyAccess s t) (hf : FenceKept s t) : StartKept s t :=
  ⟨(congrArg (fun x => x.hub.jobs) h.same :), (congrArg State.pacing h.same :), (congrArg (fun x => x.por.vals) h.same :), by rw [h.boot], by rw [h.boot],
    by rw [h.boot], by rw [h.boot], (congrArg (fun x => x.pwr.blocks) h.same :), (congrArg (fun x => x.pwr.arithDiv) h.same :), hf⟩

theorem OnlyLoss.startKept {s t : State} (h : OnlyLoss s t) (hpwr : t.pwr = s.pwr) : StartKept s t :=
  ⟨h.jobs, (congrArg State.pacing h.same :), h.vals, (congrArg (fun x => x.boot.hub0) h.same :), (congrArg (fun x => x.boot.hub1) h.same :),
    (congrArg (fun x => x.boot.ready) h.same :), (congrArg (fun x => x.boot.inReset) h.same :), by rw [hpwr], by rw [hpwr], fun m _ => by
      unfold State.stack
      rw [h.ms]⟩

theorem StewardMoves.startKept {s t : State} (h : StewardMoves s t) : StartKept s t :=
  ⟨by rw [h.hub], h.pacing, h.vals, by rw [h.boot], by rw [h.boot], by rw [h.boot], by rw [h.boot], (congrArg Power.blocks h.pwr :),
    (congrArg Power.arithDiv h.pwr :), fun m _ => by
      unfold State.stack
      rw [h.ms]⟩

/-! ## Step 9: fences (R445, R482) -/

theorem startKept_noteTier (s : State) (before : Nat) : StartKept s (s.noteTier before) := .ite ⟨rfl, rfl, rfl, rfl, rfl, rfl, rfl, rfl, rfl, .refl s⟩ (.refl s)

theorem startKept_fenceStack {s : State} {m : Nat} (hfree : (s.stack m).fence = 0) (code : Nat) : StartKept s (s.fenceStack m code) :=
  (onlyAccess_fenceStack s m code).startKept (fenceKept_fenceStack hfree code)

theorem startKept_fenceFlash (s : State) (c code : Nat) : StartKept s (s.fenceFlash c code) := by
  unfold State.fenceFlash
  extract_lets before u hit v
  have hu : StartKept s u := ⟨rfl, rfl, rfl, rfl, rfl, rfl, rfl, rfl, rfl, .refl s⟩
  have hv : StartKept u v := by
    refine .foldl (fun t i => .ite ?_ (.refl t)) _ u
    exact ⟨rfl, rfl, rfl, rfl, rfl, rfl, rfl, rfl, rfl, .refl t⟩
  have hlog : StartKept v (v.logEvent 0 0 (0x20 + c / 16) (BitVec.ofNat 128 c)) := ⟨rfl, rfl, rfl, rfl, rfl, rfl, rfl, rfl, rfl, .refl v⟩
  exact ((hu.trans hv).trans hlog).trans (startKept_noteTier _ _)

/-- A stack that has not trained by its bound is fenced. -/
def State.lateStack (s : State) (m : Nat) : State :=
  if (s.stack m).trained ∨ (s.stack m).fence ≠ 0 then s else (s.modStack m (fun x => { x with training := 2 })).fenceStack m 1

theorem startKept_lateStack (s : State) (m : Nat) : StartKept s (s.lateStack m) := by
  unfold State.lateStack
  split
  · exact .refl s
  · next h =>
    have hfree : ((s.modStack m fun x => { x with training := 2 }).stack m).fence = 0 := by
      rw [stack_modStack, if_pos rfl]
      exact not_not.1 fun hf => h (.inr hf)
    have hmark : StartKept s (s.modStack m fun x => { x with training := 2 }) :=
      ⟨rfl, rfl, rfl, rfl, rfl, rfl, rfl, rfl, rfl, fenceKept_modStack s m fun _ => rfl⟩
    exact hmark.trans (startKept_fenceStack hfree 1)

theorem stack_lateStack_ne (s : State) {m i : Nat} (h : i ≠ m) : (s.lateStack m).stack i = s.stack i := by
  unfold State.lateStack
  split
  · rfl
  · rw [stack_fenceStack, if_neg h, stack_modStack, if_neg h]

theorem fence_lateStack {s : State} {m : Nat} (huntrained : (s.stack m).trained = false) (hfree : (s.stack m).fence = 0) :
    ((s.lateStack m).stack m).fence = 1 := by
  unfold State.lateStack
  rw [if_neg (by simp [huntrained, hfree]), stack_fenceStack, if_pos rfl]

theorem fence_foldl_late {l : List Nat} {s : State} {m : Nat} (hm : m ∈ l) (huntrained : (s.stack m).trained = false) (hfree : (s.stack m).fence = 0) :
    ((l.foldl State.lateStack s).stack m).fence = 1 := by
  induction l generalizing s with
  | nil => cases hm
  | cons a l ih =>
    rw [List.foldl_cons]
    by_cases ha : m = a
    · subst ha
      have hfenced := fence_lateStack huntrained hfree
      rw [(StartKept.foldl startKept_lateStack l _).fences m (by rw [hfenced]; exact Nat.one_ne_zero), hfenced]
    · have hsame := stack_lateStack_ne s ha
      exact ih ((List.mem_cons.1 hm).resolve_left ha) (by rw [hsame]; exact huntrained) (by rw [hsame]; exact hfree)

theorem fenceLate_spec (s : State) : StartKept s s.fenceLate ∧
    ∀ m, m < 8 → (s.stack m).trained = false → (s.stack m).fence = 0 → (s.fenceLate.stack m).fence = 1 := by
  have hlate := StartKept.foldl startKept_lateStack (List.range 8) s
  have hfences (m : Nat) (hm : m < 8) := fence_foldl_late (s := s) (List.mem_range.2 hm)
  unfold State.fenceLate
  extract_lets u
  have hu : u = (List.range 8).foldl State.lateStack s :=
    congrArg (fun f => List.foldl f s (List.range 8)) (funext fun _ => funext fun _ => rfl)
  rw [← hu] at hlate hfences
  clear_value u
  have hflash : StartKept u (if u.boot.flashReady then u else (List.range 128).foldl (fun t c => t.fenceFlash c 1) u) :=
    .ite (.refl u) (.foldl (fun t c => startKept_fenceFlash t c 1) _ u)
  refine ⟨hlate.trans hflash, fun m hm huntrained hfree => ?_⟩
  rw [hflash.fences m (by rw [hfences m hm huntrained hfree]; exact Nat.one_ne_zero), hfences m hm huntrained hfree]

theorem startKept_bistFence (s : State) : StartKept s s.bistFence := by
  unfold State.bistFence
  extract_lets v on note a b c d e
  have hnote (t : State) (unit : Nat) : StartKept t (note t unit) := ⟨rfl, rfl, rfl, rfl, rfl, rfl, rfl, rfl, rfl, .refl t⟩
  have hcluster (t : State) (k : Nat) (f : Cluster → Cluster) : StartKept t (t.modCluster k f) := ⟨rfl, rfl, rfl, rfl, rfl, rfl, rfl, rfl, rfl, .refl t⟩
  have ha : StartKept s a := .foldl (fun t k => (hcluster t k _).trans (hnote _ _)) _ s
  have hb : StartKept a b := by
    refine .foldl (fun t k => ?_) _ a
    exact .ite (.refl t) ((hcluster t k _).trans (hnote _ _))
  have hc : StartKept b c := by
    refine .foldl (fun t m => ?_) _ b
    split
    · exact .refl t
    · next h => exact startKept_fenceStack (not_not.1 h) 3
  have hd : StartKept c d := by
    refine .foldl (fun t g => ?_) _ c
    refine .foldl (fun t i => ?_) _ t
    exact .ite (.refl t) (startKept_fenceFlash t _ 2)
  have he : StartKept d e := by
    refine .foldl (fun t p => ?_) _ d
    exact StartKept.trans (t := t.modPort p fun x => { x with fencedBist := true, state := .fenced })
      ⟨rfl, rfl, rfl, rfl, rfl, rfl, rfl, rfl, rfl, .refl t⟩ (hnote _ _)
  have hf : StartKept e ((on 228 4).foldl (fun (t : State) i => note { t with enc := { t.enc with fencedBist := t.enc.fencedBist ||| (1#4 <<< i) } } (0x40 + i)) e) := by
    refine .foldl (fun t i => ?_) _ e
    exact StartKept.trans (t := { t with enc := { t.enc with fencedBist := t.enc.fencedBist ||| (1#4 <<< i) } })
      ⟨rfl, rfl, rfl, rfl, rfl, rfl, rfl, rfl, rfl, .refl t⟩ (hnote _ _)
  exact ((((ha.trans hb).trans hc).trans hd).trans he).trans hf

/-! ## Steps 9 and 10: pools, enables, the view and the rings -/

theorem setPools_spec (s : State) : StartKept s s.setPools ∧ s.setPools.ms.scRoomMib = s.dv 0x0801 4 :=
  ⟨⟨rfl, rfl, rfl, rfl, rfl, rfl, rfl, rfl, rfl, .refl s⟩, rfl⟩

/-- A ring's ports or switch move, the enables as before. -/
structure RingMoved (s t : State) : Prop where
  loss : OnlyLoss s t
  pwr : t.pwr = s.pwr

namespace RingMoved

theorem refl (s : State) : RingMoved s s := ⟨.refl s, rfl⟩

theorem trans {s t u : State} (h : RingMoved s t) (h' : RingMoved t u) : RingMoved s u := ⟨h.loss.trans h'.loss, h'.pwr.trans h.pwr⟩

theorem foldl {α : Type} {f : State → α → State} (h : ∀ t a, RingMoved t (f t a)) (l : List α) (s : State) : RingMoved s (l.foldl f s) :=
  l.foldlRecOn f (motive := RingMoved s) (refl s) fun _ ht a _ => ht.trans (h _ a)

theorem ite {s t u : State} {p : Prop} [Decidable p] (ht : RingMoved s t) (hu : RingMoved s u) : RingMoved s (if p then t else u) := by
  split
  · exact ht
  · exact hu

end RingMoved

theorem ringMoved_modPort (s : State) (p : Nat) (f : Port → Port) : RingMoved s (s.modPort p f) := ⟨onlyLoss_modPort s p f, rfl⟩
theorem ringMoved_modRing (s : State) (r : Nat) (f : Ring → Ring) : RingMoved s (s.modRing r f) := ⟨onlyLoss_modRing s r f, rfl⟩
theorem ringMoved_portLose (s : State) (p : Nat) (lost : List Nat) : RingMoved s (s.portLose p lost) := ⟨onlyLoss_portLose s p lost, pwr_portLose s p lost⟩

theorem ringMoved_autoBypass (s : State) (r : Nat) : RingMoved s (s.autoBypass r) := by
  refine ⟨onlyLoss_autoBypass s r, ?_⟩
  have hports : RingMoved s (s.ringBypassed r) :=
    (ringMoved_modRing s r _).trans (.foldl (fun t q => (ringMoved_portLose t q _).trans (ringMoved_modPort _ q _)) _ _)
  by_cases hopen : (s.ring r).bypass = .joined ∧ s.dv (0x1020 + r) 3 = 1
  · by_cases h : ∃ p ∈ portsOfRing r, (s.port p).state = .down ∧ (s.port p).fault = 1
    · obtain ⟨p, hp⟩ := autoBypass_eq hopen.1 hopen.2 h
      rw [hp]
      exact hports.pwr
    · rw [autoBypass_of_sound fun p hp hdown => h ⟨p, hp, hdown⟩]
  · rw [autoBypass_of_closed (by tauto)]

theorem ringMoved_portDown (s : State) (p fault : Nat) : RingMoved s (s.portDown p fault) := by
  have hopens : RingMoved s (if fault = 1 then s.ringOpens p else s) := by
    refine .ite ⟨onlyLoss_ringOpens s p, ?_⟩ (.refl s)
    unfold State.ringOpens
    split
    · rfl
    · split <;> rfl
  have hdown : RingMoved s (s.downNow p fault) := by
    unfold State.downNow
    exact (hopens.trans (ringMoved_portLose _ p _)).trans (ringMoved_modPort _ p _)
  have hbypass (t : State) : RingMoved t (t.portBypass p) := by
    unfold State.portBypass
    split
    · exact ringMoved_autoBypass t _
    · exact .refl t
  rw [portDown_eq]
  exact .ite (hdown.trans (hbypass _)) hdown

theorem ringMoved_portTrain (s : State) (p : Nat) : RingMoved s (s.portTrain p) := by
  have htrain : RingMoved s (s.trainPort p) := .ite ((ringMoved_modPort s p _).trans (ringMoved_portDown _ p 1)) (ringMoved_modPort s p _)
  exact .ite htrain (.refl s)

theorem ringMoved_bypassDone (s : State) (r : Nat) : RingMoved s (s.bypassDone r) := by
  unfold State.bypassDone
  split
  · exact (ringMoved_modRing s r _).trans (.foldl ringMoved_portTrain _ _)
  · exact ringMoved_modRing s r _
  · exact .refl s

/-- A ring that is persisted JOINED joins at the end of start-up, where it may. -/
def State.ringAtStart (s : State) (r : Nat) : State :=
  (if (s.bypassDone r).dv (0x1020 + r) 1 = 1 ∧ (s.bypassDone r).canJoin r = true then (s.bypassDone r).startJoin r else s.bypassDone r).selfTested r

theorem ringMoved_ringAtStart (s : State) (r : Nat) : RingMoved s (s.ringAtStart r) := by
  have hjoin (t : State) : RingMoved t (t.startJoin r) := .ite (ringMoved_modRing t r _) (.refl t)
  have htested (t : State) : RingMoved t (t.selfTested r) := .foldl (fun u p => ringMoved_modPort u p _) _ t
  exact ((ringMoved_bypassDone s r).trans (.ite (hjoin _) (.refl _))).trans (htested _)

theorem startKept_seed (s : State) : StartKept s s.seed ∧ s.seed.ms = s.ms := by
  have htake (p : Profile) (source : Nat) : StartKept s (s.takeProfile p source) ∧ (s.takeProfile p source).ms = s.ms := by
    obtain ⟨hmoves, -⟩ := takeProfile_spec s p source
    exact ⟨StartKept.trans (t := s.profileTaken p source) ⟨rfl, rfl, rfl, rfl, rfl, rfl, rfl, rfl, rfl, .refl s⟩ hmoves.startKept, hmoves.ms⟩
  unfold State.seed
  split
  · exact htake _ _
  · unfold State.seedFactory
    split <;> exact htake _ _

theorem onlyAccess_rooms {s t : State} (h : OnlyAccess s t) : t.ms.scRoomMib = s.ms.scRoomMib := (congrArg (fun x => x.ms.scRoomMib) h.same :)

theorem startKept_withPor (s : State) (f : Porter → Porter) (hf : ∀ p, (f p).vals = p.vals) : StartKept s (s.withPor f) ∧ (s.withPor f).ms = s.ms :=
  ⟨⟨rfl, rfl, hf s.por, rfl, rfl, rfl, rfl, rfl, rfl, .refl s⟩, rfl⟩

/-- The rest of start-up, once the module is READY: profile, windows, view and rings. -/
def State.openService (s : State) : State :=
  let s := s.seed
  let s := (List.range 16).foldl (fun t i => t.windowAtStart i) s
  let s := s.takeGrant.viewTake
  [0, 1].foldl State.ringAtStart s

theorem openService_spec (s : State) : StartKept s s.openService ∧ s.openService.ms.scRoomMib = s.ms.scRoomMib := by
  unfold State.openService
  extract_lets a b c
  obtain ⟨ha, hams⟩ : StartKept s a ∧ a.ms = s.ms := startKept_seed s
  clear_value a
  have hb : StartKept a b ∧ b.ms = a.ms := by
    refine List.foldlRecOn (motive := fun t : State => StartKept a t ∧ t.ms = a.ms) _ _ ⟨.refl a, rfl⟩ fun t ht i _ => ⟨ht.1.trans ?_, ht.2⟩
    exact ⟨rfl, rfl, rfl, rfl, rfl, rfl, rfl, rfl, rfl, .refl t⟩
  clear_value b
  obtain ⟨hgrant, hgrantms⟩ : StartKept b b.takeGrant ∧ b.takeGrant.ms = b.ms := startKept_withPor b _ fun _ => rfl
  have hview : StartKept b.takeGrant c ∧ c.ms.scRoomMib = b.takeGrant.ms.scRoomMib := by
    simp only [c]
    generalize b.takeGrant = g
    obtain ⟨base, bytes, haccess, hfence, -⟩ := viewTake_spec g
    have hset := startKept_withPor g (fun p => { p with viewBase := base, viewBytes := bytes }) fun _ => rfl
    generalize g.withPor (fun p => { p with viewBase := base, viewBytes := bytes }) = x at haccess hset
    refine ⟨hset.1.trans (haccess.startKept fun m hm => ?_), (onlyAccess_rooms haccess).trans (congrArg MemSys.scRoomMib hset.2)⟩
    have hstack : x.stack m = g.stack m := by
      unfold State.stack
      rw [hset.2]
    rw [hstack] at hm ⊢
    exact hfence m hm
  have hc : StartKept b c := hgrant.trans hview.1
  have hcrooms : c.ms.scRoomMib = b.ms.scRoomMib := hview.2.trans (congrArg MemSys.scRoomMib hgrantms)
  clear_value c
  have hd : RingMoved c ([0, 1].foldl State.ringAtStart c) := .foldl ringMoved_ringAtStart _ c
  refine ⟨((ha.trans hb.1).trans hc).trans (hd.loss.startKept hd.pwr), ?_⟩
  rw [hd.loss.ms, hcrooms, hb.2, hams]

/-- The enables as they apply: each block whose bit is set is ON. -/
theorem foldl_setBlock (l : List Nat) (s : State) :
    (∃ blocks, l.foldl (fun t b => t.setBlock b 1) s = s.withPwr fun p => { p with blocks := blocks }) ∧
    ∀ b, (l.foldl (fun t b => t.setBlock b 1) s).block b = if b ∈ l then 1 else s.block b := by
  induction l generalizing s with
  | nil => exact ⟨⟨s.pwr.blocks, rfl⟩, fun b => (if_neg (by simp)).symm⟩
  | cons a l ih =>
    obtain ⟨⟨blocks, heq⟩, hblock⟩ := ih (s.setBlock a 1)
    rw [List.foldl_cons]
    refine ⟨⟨blocks, heq.trans rfl⟩, fun b => ?_⟩
    rw [hblock, block_setBlock]
    by_cases hb : b ∈ l
    · rw [if_pos hb, if_pos (List.mem_cons_of_mem _ hb)]
    · rw [if_neg hb]
      simp only [List.mem_cons, hb, or_false]

/-- Step 9 up to the pools, from the state that goes on with or without the late hubs. -/
def State.fencesAndPools (s : State) : State :=
  let s := (s.fenceLate.bistFence).setPools
  (List.range 12).foldl (fun t k => t.freshCluster k) s

theorem fencesAndPools_spec (s : State) : StartKept s s.fencesAndPools ∧ s.fencesAndPools.ms.scRoomMib = s.dv 0x0801 4 ∧
    ∀ m, m < 8 → (s.stack m).trained = false → (s.stack m).fence = 0 → (s.fencesAndPools.stack m).fence = 1 := by
  obtain ⟨hlate, hfenced⟩ := fenceLate_spec s
  have hbist := startKept_bistFence s.fenceLate
  obtain ⟨hpools, hrooms⟩ := setPools_spec s.fenceLate.bistFence
  have hdv := (hlate.trans hbist).dv 0x0801 4
  unfold State.fencesAndPools
  extract_lets u
  have hkept : StartKept s u := (hlate.trans hbist).trans hpools
  have hfences (m : Nat) (hm : m < 8) (huntrained : (s.stack m).trained = false) (hfree : (s.stack m).fence = 0) : (u.stack m).fence = 1 := by
    have h1 := hfenced m hm huntrained hfree
    rw [(hbist.trans hpools).fences m (by rw [h1]; exact Nat.one_ne_zero), h1]
  have hurooms : u.ms.scRoomMib = s.dv 0x0801 4 := hrooms.trans hdv
  clear_value u
  have hfresh : StartKept u ((List.range 12).foldl (fun t k => t.freshCluster k) u) ∧ ((List.range 12).foldl (fun t k => t.freshCluster k) u).ms = u.ms := by
    refine List.foldlRecOn (motive := fun t : State => StartKept u t ∧ t.ms = u.ms) _ _ ⟨.refl u, rfl⟩ fun t ht k _ => ⟨ht.1.trans ?_, ht.2⟩
    exact ⟨rfl, rfl, rfl, rfl, rfl, rfl, rfl, rfl, rfl, .refl t⟩
  refine ⟨hkept.trans hfresh.1, (congrArg MemSys.scRoomMib hfresh.2).trans hurooms, fun m hm huntrained hfree => ?_⟩
  rw [hfresh.1.fences m (by rw [hfences m hm huntrained hfree]; exact Nat.one_ne_zero), hfences m hm huntrained hfree]

/-- The hubs that start-up goes on with: a hub that is not ready has passed its bound (log 192). -/
def State.hubsGoOn (s : State) : State :=
  if s.draw.2.boot.hub0 then s.draw.2 else s.draw.2.withBoot (fun b => { b with hub1 := b.hub1 || bit s.draw.1.toNat 0 })

theorem startReady_eq {s : State} (h : s.starting = true) : ∃ ms, s.startReady =
    (((((List.range 40).filter (fun b => bit (s.hubsGoOn.fencesAndPools.dv 0x0410 1) b)).foldl (fun t b => t.setBlock b 1)
      s.hubsGoOn.fencesAndPools).draw.2).withBoot fun b => { b with ready := true, inReset := false, startMs := ms }).openService := by
  unfold State.startReady
  rw [if_neg (by rw [h]; exact Bool.false_ne_true)]
  unfold State.openService State.fencesAndPools State.hubsGoOn State.ringAtStart
  exact ⟨_, rfl⟩

theorem startReady_spec {s : State} (h : s.starting = true) : let t := s.startReady
    t.boot.ready = true ∧ t.boot.inReset = false ∧ t.boot.hub0 = s.boot.hub0 ∧ (s.boot.hub0 = true → t.boot.hub1 = s.boot.hub1) ∧
    (∀ b, b < 40 → t.block b = if bit (s.dv 0x0410 1) b then 1 else s.block b) ∧
    (∀ m, m < 8 → (s.stack m).trained = false → (s.stack m).fence = 0 → (t.stack m).fence = 1) ∧
    t.pwr.arithDiv = s.pwr.arithDiv ∧ t.ms.scRoomMib = s.dv 0x0801 4 ∧ t.hub.jobs = s.hub.jobs ∧ t.pacing = s.pacing := by
  intro t
  obtain ⟨startMs, ht⟩ := startReady_eq h
  have hgo : s.hubsGoOn.boot.hub0 = s.boot.hub0 ∧ (s.boot.hub0 = true → s.hubsGoOn.boot.hub1 = s.boot.hub1) ∧ s.hubsGoOn.hub = s.hub ∧
      s.hubsGoOn.pacing = s.pacing ∧ s.hubsGoOn.por = s.por ∧ s.hubsGoOn.pwr = s.pwr ∧ s.hubsGoOn.ms = s.ms := by
    unfold State.hubsGoOn
    split
    · exact ⟨rfl, fun _ => rfl, rfl, rfl, rfl, rfl, rfl⟩
    · next hhub => exact ⟨rfl, fun h0 => absurd h0 hhub, rfl, rfl, rfl, rfl, rfl⟩
  obtain ⟨hhub0, hhub1, hhub, hpacing, hpor, hpwr, hms⟩ := hgo
  have htt : t = s.startReady := rfl
  clear_value t
  rw [← htt] at ht
  generalize s.hubsGoOn = u at ht hhub0 hhub1 hhub hpacing hpor hpwr hms
  obtain ⟨hkept, hrooms, hfences⟩ := fencesAndPools_spec u
  have hudv (i k : Nat) : u.dv i k = s.dv i k := by rw [State.dv, hpor]; rfl
  have hstack (m : Nat) : u.stack m = s.stack m := by unfold State.stack; rw [hms]
  generalize u.fencesAndPools = v at ht hkept hrooms hfences
  obtain ⟨⟨blocks, hblocks⟩, hblock⟩ := foldl_setBlock ((List.range 40).filter (fun b => bit (v.dv 0x0410 1) b)) v
  rw [hblocks] at ht hblock
  obtain ⟨hserve, hservems⟩ := openService_spec (((v.withPwr fun p => { p with blocks := blocks }).draw.2).withBoot fun b =>
    { b with ready := true, inReset := false, startMs := startMs })
  rw [← ht] at hserve hservems
  refine ⟨hserve.ready, hserve.inReset, hserve.hub0.trans (hkept.hub0.trans hhub0), fun h0 => hserve.hub1.trans (hkept.hub1.trans (hhub1 h0)),
    fun b hb => ?_, fun m hm huntrained hfree => ?_, hserve.arith.trans (hkept.arith.trans (congrArg Power.arithDiv hpwr)),
    hservems.trans (hrooms.trans (hudv _ _)), hserve.jobs.trans (hkept.jobs.trans (congrArg Hub.jobs hhub)), hserve.pacing.trans (hkept.pacing.trans hpacing)⟩
  · have htb : t.block b = if b ∈ (List.range 40).filter (fun b => bit (v.dv 0x0410 1) b) then 1 else v.block b :=
      (congrArg (fun x : AMap Nat => mget 0 x b) hserve.blocks).trans (hblock b)
    have hvb : v.block b = s.block b := (congrArg (fun x : AMap Nat => mget 0 x b) (hkept.blocks.trans (congrArg Power.blocks hpwr)) :)
    rw [htb, hvb, hkept.dv, hudv]
    simp only [List.mem_filter, List.mem_range, hb, true_and]
  · have hone := hfences m hm (by rw [hstack]; exact huntrained) (by rw [hstack]; exact hfree)
    have hfence := hserve.fences m (by show (v.stack m).fence ≠ 0; rw [hone]; exact Nat.one_ne_zero)
    exact hfence.trans hone

end Sys2Proof.Machine

/-! PROOFS. The loss of standby power (R451, R496), and the preparation of a removal (R458). -/

namespace Sys2Proof.Machine

/-! ## STANDBY_POWER_LOSS -/

/-- A command that the loss of standby power cuts. -/
def State.cutAtLoss (s : State) (c : RunCmd) : State :=
  match slotWriteOf c with
  | some w => (s.stamp).2.modSlot w.slot (fun x => { x with stream := x.stream.forget w.off (w.off + w.len) (s.stamp).1 })
  | none => if c.stages then s.cutStage c else s

theorem cutAtLoss_spec (s : State) (c : RunCmd) : CutKept s (s.cutAtLoss c) ∧ (s.cutAtLoss c).por = s.por ∧
    (c.index = 0x0204 → c.sub = 2 → ((s.cutAtLoss c).fwImage s.stageBank).stage = fwStaging) := by
  unfold State.cutAtLoss
  cases hw : slotWriteOf c with
  | some w =>
    have hslots : SlotStates s ((s.stamp).2.modSlot w.slot fun x => { x with stream := x.stream.forget w.off (w.off + w.len) (s.stamp).1 }) :=
      slotStates_modSlot (s.stamp).2 w.slot fun _ => rfl
    refine ⟨⟨rfl, rfl, rfl, rfl, rfl, hslots, id⟩, rfl, fun hi _ => ?_⟩
    have hnone : slotWriteOf c = none := if_neg (by omega)
    rw [hnone] at hw
    cases hw
  | none =>
    dsimp only
    split
    · exact ⟨cutKept_cutStage s c, rfl, fun _ _ => cutStage_stage s c⟩
    · next h => exact ⟨.refl s, rfl, fun hi hs => absurd (by simp [RunCmd.stages, hi, hs]) h⟩

theorem foldl_cutAtLoss (cs : List RunCmd) (s : State) : CutKept s (cs.foldl State.cutAtLoss s) ∧ (cs.foldl State.cutAtLoss s).por = s.por ∧
    ∀ c ∈ cs, c.index = 0x0204 → c.sub = 2 → ((cs.foldl State.cutAtLoss s).fwImage s.stageBank).stage = fwStaging := by
  induction cs generalizing s with
  | nil => exact ⟨.refl s, rfl, nofun⟩
  | cons c cs ih =>
    obtain ⟨hkept, hpor, hstage⟩ := cutAtLoss_spec s c
    obtain ⟨hkept', hpor', hstage'⟩ := ih (s.cutAtLoss c)
    refine ⟨hkept.trans hkept', hpor'.trans hpor, fun d hd hi hs => ?_⟩
    rw [hkept.stageBank] at hstage'
    rcases List.mem_cons.1 hd with rfl | hd
    · rw [← hkept.stageBank]
      exact hkept'.staging (by rw [hkept.stageBank]; exact hstage hi hs)
    · exact hstage' d hd hi hs

/-- What is left without standby power: flash, switches, Ledger banks, fuses, and the latches of the surroundings. -/
def State.unpowered (s : State) : State :=
  { State.reset with
    car := { s.car.inFlash with slots := s.car.inFlash.slots.map (fun (p : Nat × Slot) => (p.1, { p.2 with sealing := false, configured := false })) }
    net := { rings := ringsKept false s.net.rings }
    por := { bank0 := s.por.bank0, bank1 := s.por.bank1, factory := s.por.factory, ledgerWrites := s.por.ledgerWrites, fusedSvn := s.por.fusedSvn }
    boot := { refclk := s.boot.refclk, perst := s.boot.perst, strap := s.boot.strap, banks := s.boot.banks, bootBank := s.boot.bootBank }
    draws := s.draws, out := s.out, pending := s.pending }

theorem powerLoss_eq (s : State) : s.powerLoss = (s.por.cmds.foldl State.cutAtLoss s).ledgerCut.ringsThrough.unpowered := by
  unfold State.powerLoss
  extract_lets u v
  have hu : u = s.por.cmds.foldl State.cutAtLoss s := congrArg (fun f => List.foldl f s s.por.cmds) (funext fun _ => funext fun _ => rfl)
  rw [← hu]
  rfl

theorem ring_unpowered (s : State) (r : Nat) : (s.unpowered.ring r).bypass = .through := by
  have h := mget_map ({} : Ring) ({} : Ring) s.net.rings (fun x => { bypass := .through, moves := x.moves }) rfl r
  exact (congrArg Ring.bypass h :)

theorem slotStates_unpowered (s : State) : SlotStates s s.unpowered := fun i => by
  have hflash := mget_map ({} : Slot) ({} : Slot) s.car.slots Slot.inFlash rfl i
  have hcleared := mget_map ({} : Slot) ({} : Slot) s.car.inFlash.slots (fun x => { x with sealing := false, configured := false }) rfl i
  exact (congrArg Slot.state hcleared :).trans (congrArg Slot.state hflash :)

theorem powerLoss_spec (s : State) : let t := s.powerLoss
    t.boot.vin = false ∧ t.boot.porterRuns = false ∧ t.tier = 0 ∧ t.hub = {} ∧ t.clusters = [] ∧ t.cores = [] ∧ t.ms = {} ∧ t.pwr = {} ∧
    (∀ r, (t.ring r).bypass = .through) ∧ t.por.fusedSvn = s.por.fusedSvn ∧ t.por.factory = s.por.factory ∧ SlotStates s t ∧
    (∀ c ∈ s.por.cmds, c.index = 0x0204 → c.sub = 2 → (t.fwImage s.stageBank).stage = fwStaging) ∧
    (s.por.ledgerImage = none → t.por.bank0 = s.por.bank0 ∧ t.por.bank1 = s.por.bank1) := by
  intro t
  have ht : t = _ := powerLoss_eq s
  obtain ⟨hkept, hpor, hstage⟩ := foldl_cutAtLoss s.por.cmds s
  clear_value t
  generalize s.por.cmds.foldl State.cutAtLoss s = u at ht hkept hpor hstage
  have hledger := sansLedger_ledgerCut u
  have hidle := @ledgerCut_of_idle u
  generalize u.ledgerCut = v at ht hledger hidle
  obtain ⟨hrboot, hrpor, hrcar⟩ := ringsThrough_rest v
  generalize v.ringsThrough = w at ht hrboot hrpor hrcar
  subst ht
  have hcar : w.car = u.car := hrcar.trans (congrArg State.car hledger :)
  refine ⟨rfl, rfl, rfl, rfl, rfl, rfl, rfl, rfl, ring_unpowered w, ?_, ?_, ?_, fun c hc hi hs => ?_, fun hidl => ?_⟩
  · exact ((congrArg Porter.fusedSvn hrpor).trans (congrArg (fun x => x.por.fusedSvn) hledger :)).trans hkept.fused
  · exact ((congrArg Porter.factory hrpor).trans (congrArg (fun x => x.por.factory) hledger :)).trans hkept.factory
  · exact (hkept.slots.trans (slotStates_of_car hcar)).trans (slotStates_unpowered w)
  · have hbanks : w.boot = u.boot := hrboot.trans (congrArg State.boot hledger :)
    have h := hstage c hc hi hs
    rw [State.fwImage, ← hbanks] at h
    exact h
  · obtain ⟨-, hbank0, hbank1⟩ := hidle (by rw [hpor]; exact hidl)
    exact ⟨(congrArg Porter.bank0 hrpor).trans (hbank0.trans (congrArg Porter.bank0 hpor)),
      (congrArg Porter.bank1 hrpor).trans (hbank1.trans (congrArg Porter.bank1 hpor))⟩

/-! ## PREPARE_REMOVAL and CANCEL_REMOVAL (R458) -/

/-- What a removal's step leaves. -/
structure RemovalKept (s t : State) : Prop where
  resetAfter : t.boot.resetAfter = s.boot.resetAfter
  porterRuns : t.boot.porterRuns = s.boot.porterRuns
  preparing : t.boot.preparing = s.boot.preparing
  current : t.por.current = s.por.current
  jobs : t.hub.jobs = s.hub.jobs
  paused : t.hub.pausedAdmission = s.hub.pausedAdmission
  asked : t.dv 0x0202 2 = s.dv 0x0202 2

theorem RemovalKept.refl (s : State) : RemovalKept s s := ⟨rfl, rfl, rfl, rfl, rfl, rfl, rfl⟩

theorem RemovalKept.trans {s t u : State} (h : RemovalKept s t) (h' : RemovalKept t u) : RemovalKept s u :=
  ⟨h'.resetAfter.trans h.resetAfter, h'.porterRuns.trans h.porterRuns, h'.preparing.trans h.preparing, h'.current.trans h.current,
    h'.jobs.trans h.jobs, h'.paused.trans h.paused, h'.asked.trans h.asked⟩

theorem OnlyLoss.removalKept {s t : State} (h : OnlyLoss s t) : RemovalKept s t :=
  ⟨h.resetAfter, h.porterRuns, h.preparing, h.current, h.jobs, (congrArg (fun x => x.hub.pausedAdmission) h.same :), h.dv _ _⟩

theorem removalKept_ledgerPut (s : State) (op : LedgerOp) : RemovalKept s (s.ledgerPut op) := by
  have htaken (u : State) (b : Nat) (img : LedgerImage) : RemovalKept u ((u.setBank b none).withPor fun p => { p with ledgerImage := some img }) := by
    unfold State.setBank State.withPor
    dsimp only
    split <;> exact ⟨rfl, rfl, rfl, rfl, rfl, rfl, rfl⟩
  have hturn (u : State) : RemovalKept u u.ledgerTurn := by
    unfold State.ledgerTurn
    split
    · next op _ _ _ =>
      have himage : RemovalKept u (u.imageOf op).2 := ⟨rfl, rfl, rfl, rfl, rfl, rfl, rfl⟩
      have h := himage.trans (htaken (u.imageOf op).2 (u.imageOf op).2.ledgerTarget (u.imageOf op).1)
      dsimp only
      split
      · exact h.trans ⟨rfl, rfl, rfl, rfl, rfl, rfl, rfl⟩
      · exact h
    · exact .refl u
  refine RemovalKept.trans ?_ (hturn _)
  exact ⟨rfl, rfl, rfl, rfl, rfl, rfl, rfl⟩

theorem removalKept_setMode (s : State) {r : Nat} (hr : r < 2) (v : Nat) : RemovalKept s (s.setDv (0x1020 + r) 1 v) :=
  ⟨rfl, rfl, rfl, rfl, rfl, rfl, dv_setDv_ne s v (by unfold dKey; omega)⟩

theorem removalKept_removalStep (s : State) : RemovalKept s s.removalStep := by
  unfold State.removalStep
  split
  · exact .refl s
  extract_lets rings
  have hrings : ∀ r ∈ rings, r < 2 := fun r hr => by
    have := (List.mem_filter.1 hr).1
    simp only [List.mem_cons, List.not_mem_nil, or_false] at this
    omega
  clear_value rings
  split
  · refine List.foldlRecOn (motive := RemovalKept s) _ _ (.refl s) fun t ht r hr => ht.trans ?_
    split
    · exact (removalKept_setMode t (hrings r hr) 0).trans (onlyLoss_startLeave _ r).removalKept
    · exact .refl t
  split
  · refine RemovalKept.trans ?_ (removalKept_ledgerPut _ _)
    exact ⟨rfl, rfl, rfl, rfl, rfl, rfl, rfl⟩
  · split
    · exact .refl s
    · exact ⟨rfl, rfl, rfl, rfl, rfl, rfl, rfl⟩

theorem admissionRuns_of_paused {s : State} (h : s.hub.pausedAdmission = true) : s.admissionRuns = false := by
  simp [State.admissionRuns, h]

section
variable {s : State} {bs : List Byte} {f : InFrame} {r : Req} (hwrites : s.writes 0x0202 2 bs) (hfront : s.frontRec = some (f, r)) (hvalue : r.value = bs)
include hwrites hfront hvalue

theorem writes_prepareRemoval (hone : leNat bs = 1) (hidle : s.boot.preparing = false) : AnsweredWith dsOk s s.prepareRemoval ∧
    s.prepareRemoval.boot.preparing = true ∧ s.prepareRemoval.hub.pausedAdmission = true ∧ s.prepareRemoval.admissionRuns = false ∧
    s.prepareRemoval.dv 0x0202 2 = 1 ∧ s.prepareRemoval.hub.jobs = s.hub.jobs := by
  obtain ⟨f', r', l, -, -, -, hserved⟩ := answered_of_writes hwrites
  have hkept := removalKept_removalStep ((((s.withSessions l).setDv 0x0202 2 1).withHub fun h => { h with pausedAdmission := true }).withBoot
    fun b => { b with preparing := true, removalSave := false })
  have hasked : ((((s.withSessions l).setDv 0x0202 2 1).withHub fun h => { h with pausedAdmission := true }).withBoot
    fun b => { b with preparing := true, removalSave := false }).dv 0x0202 2 = 1 := dv_setDv_self (s := s.withSessions l) 0x0202 2 1
  obtain ⟨hans, hrest⟩ := hserved s.prepareRemoval rfl (by simp [hfront, hvalue, hone])
    (if_neg (by show ¬ s.boot.preparing = true; rw [hidle]; exact Bool.false_ne_true)) hkept.resetAfter hkept.porterRuns hkept.current
  have hpaused : s.prepareRemoval.hub.pausedAdmission = true := (congrArg (fun x => x.hub.pausedAdmission) hrest :).trans hkept.paused
  exact ⟨hans, (congrArg (fun x => x.boot.preparing) hrest :).trans hkept.preparing, hpaused, admissionRuns_of_paused hpaused,
    (hrest.dv _ _).trans (hkept.asked.trans hasked), (congrArg (fun x => x.hub.jobs) hrest :).trans hkept.jobs⟩

theorem writes_cancelRemoval (hzero : leNat bs = 0) : AnsweredWith dsOk s s.cancelRemoval ∧
    s.cancelRemoval.boot.preparing = false ∧ s.cancelRemoval.boot.removalReady = false ∧ s.cancelRemoval.hub.pausedAdmission = false ∧
    s.cancelRemoval.dv 0x0202 2 = 0 ∧ s.cancelRemoval.hub.jobs = s.hub.jobs := by
  obtain ⟨f', r', l, -, -, -, hserved⟩ := answered_of_writes hwrites
  have hasked : ((s.withSessions l).setDv 0x0202 2 0).endRemoval.dv 0x0202 2 = 0 := dv_setDv_self (s := s.withSessions l) 0x0202 2 0
  obtain ⟨hans, hrest⟩ := hserved s.cancelRemoval rfl (by simp [hfront, hvalue, hzero])
    (a := ⟨((s.withSessions l).setDv 0x0202 2 0).endRemoval, dsOk, 0, none⟩) rfl rfl rfl rfl
  exact ⟨hans, (congrArg (fun x => x.boot.preparing) hrest :), (congrArg (fun x => x.boot.removalReady) hrest :),
    (congrArg (fun x => x.hub.pausedAdmission) hrest :), (hrest.dv _ _).trans hasked, (congrArg (fun x => x.hub.jobs) hrest :)⟩

end

end Sys2Proof.Machine

/-! PROOFS. PORTER_RESTART (R431, R437, R449, R484): what goes on, and what follows the entries that resolve anew. -/

namespace Sys2Proof.Machine

/-! ## The porter starts from ROM -/

/-- The restart's first part: commands of the porter's end, a Ledger write under way is cut. -/
def State.restartCut (s : State) : State :=
  (((s.por.cmds.filter RunCmd.stages).foldl State.cutStage s).ledgerCut.withPor (fun p => { p with cmds := p.cmds.filter (fun c => !c.ofPorter) })).withBoot
    fun b => { b with activation := none, resetAfter := false }

/-- The restart's second part: the porter's own memory is fresh and its entries resolve. -/
def State.restarted (s : State) : State := (s.bootImage.porterFresh.resolvePorter).takePlca

theorem porterRestart_eq {s : State} (hruns : s.boot.porterRuns = true) :
    s.porterRestart = [0, 1].foldl State.autoBypass (s.restartCut.restarted.viewFollow s.restartCut) := by
  unfold State.porterRestart
  exact if_neg (by rw [hruns]; exact Bool.false_ne_true)

/-- The state without what a restart of the porter touches: the porter but for the fuse counter, the image that runs, and the time of the
last saved profile. -/
def State.sansRestart (s : State) : State :=
  { s with
    draws := 0, por := { fusedSvn := s.por.fusedSvn }, pwr := { s.pwr with profileSavedAt := 0 }
    boot := { s.boot with banks := [], fwBank := 0, recovery := false, fallback := false, strap := 0, activation := none, resetAfter := false } }

theorem sansLedger_sansRestart {s t : State} (h : t.sansLedger = s.sansLedger) : t.sansRestart = s.sansRestart := (congrArg State.sansRestart h :)
theorem sansImage_sansRestart {s t : State} (h : t.sansImage = s.sansImage) : t.sansRestart = s.sansRestart := (congrArg State.sansRestart h :)

theorem foldl_cutStage (cs : List RunCmd) (s : State) : (cs.foldl State.cutStage s).sansRestart = s.sansRestart ∧
    (cs.foldl State.cutStage s).por = s.por ∧ (cs.foldl State.cutStage s).pwr = s.pwr :=
  List.foldlRecOn (motive := fun t : State => t.sansRestart = s.sansRestart ∧ t.por = s.por ∧ t.pwr = s.pwr) cs State.cutStage ⟨rfl, rfl, rfl⟩
    fun _ ht _ _ => ⟨ht.1, ht.2.1, ht.2.2⟩

theorem restartCut_spec (s : State) : s.restartCut.sansRestart = s.sansRestart ∧ s.restartCut.por.vals = s.por.vals ∧
    (s.por.ledgerImage = none → s.restartCut.pwr = s.pwr) := by
  obtain ⟨hsame, hpor, hpwr⟩ := foldl_cutStage (s.por.cmds.filter RunCmd.stages) s
  unfold State.restartCut
  generalize (s.por.cmds.filter RunCmd.stages).foldl State.cutStage s = u at hsame hpor hpwr
  have hledger := sansLedger_ledgerCut u
  have hidle := @ledgerCut_of_idle u
  generalize u.ledgerCut = v at hledger hidle
  have hvals : v.por.vals = u.por.vals := (congrArg (fun x => x.por.vals) hledger :)
  refine ⟨(sansLedger_sansRestart hledger).trans hsame, hvals.trans (congrArg Porter.vals hpor), fun h => ?_⟩
  obtain ⟨hvpwr, -⟩ := hidle (by rw [hpor]; exact h)
  exact hvpwr.trans hpwr

/-- What the porter holds once it has started anew. -/
structure PorterFresh (t : State) : Prop where
  sessions : t.por.sessions = []
  results : t.por.results = []
  log : t.por.log = []
  node : t.por.nodeId = t.boot.strap

theorem porterFresh_spec (s : State) : PorterFresh s.porterFresh ∧ s.porterFresh.sansRestart = s.sansRestart ∧ s.porterFresh.pwr = s.pwr :=
  ⟨⟨rfl, rfl, rfl, rfl⟩, rfl, rfl⟩

theorem resolvePorter_spec (s : State) : s.resolvePorter.sansRestart = s.sansRestart ∧ s.resolvePorter.pwr = s.pwr ∧
    (PorterFresh s → PorterFresh s.resolvePorter) := by
  obtain ⟨hvalues, -⟩ := resolve_spec s
  unfold State.resolvePorter
  extract_lets t keep own
  have ht : t.sansValues = s.sansValues := hvalues
  clear_value t keep own
  refine ⟨?_, rfl, fun h => ⟨?_, ?_, ?_, ?_⟩⟩
  · have hfused : t.por.fusedSvn = s.por.fusedSvn := (congrArg (fun x => x.por.fusedSvn) ht :)
    unfold State.sansRestart
    rw [hfused]
  · exact (congrArg (fun x => x.por.sessions) ht :).trans h.sessions
  · exact (congrArg (fun x => x.por.results) ht :).trans h.results
  · exact (congrArg (fun x => x.por.log) ht :).trans h.log
  · exact (congrArg (fun x => x.por.nodeId) ht :).trans h.node

theorem restarted_spec (s : State) : PorterFresh s.restarted ∧ s.restarted.sansRestart = s.sansRestart ∧ s.restarted.pwr = s.pwr := by
  have himage := sansImage_bootImage s
  unfold State.restarted
  generalize s.bootImage = u at himage
  obtain ⟨hfresh, hsame, hpwr⟩ := porterFresh_spec u
  generalize u.porterFresh = v at hfresh hsame hpwr
  obtain ⟨hsame', hpwr', hfresh'⟩ := resolvePorter_spec v
  have hw := hfresh' hfresh
  generalize v.resolvePorter = w at hsame' hpwr' hw
  exact ⟨⟨hw.sessions, hw.results, hw.log, hw.node⟩, (hsame'.trans hsame).trans (sansImage_sansRestart himage),
    (hpwr'.trans hpwr).trans (congrArg State.pwr himage :)⟩

/-! ## The user view follows its entries (R431, log 119) -/

/-- What the view's follow leaves of the porter, the boot state, the entries and the exchange's tables. -/
structure ViewFollows (s t : State) : Prop where
  sessions : t.por.sessions = s.por.sessions
  fused : t.por.fusedSvn = s.por.fusedSvn
  node : t.por.nodeId = s.por.nodeId
  vals : t.por.vals = s.por.vals
  boot : t.boot = s.boot
  net : t.net = s.net

theorem ViewFollows.dv {s t : State} (h : ViewFollows s t) (i u : Nat) : t.dv i u = s.dv i u := by rw [State.dv, h.vals]; rfl

theorem viewFollows_viewTake (s : State) : ViewFollows s s.viewTake ∧ ((s.viewTake.por.viewBase = 0 ∧ s.viewTake.por.viewBytes = 0) ∨
    s.viewTake.por.viewBase = s.dv 0x1F08 1 ∧ s.viewTake.por.viewBytes = s.dv 0x1F08 2) := by
  obtain ⟨base, bytes, haccess, -, hview⟩ := viewTake_spec s
  generalize s.viewTake = t at haccess
  have hbase : t.por.viewBase = base := (congrArg (fun x => x.por.viewBase) haccess.same :)
  have hbytes : t.por.viewBytes = bytes := (congrArg (fun x => x.por.viewBytes) haccess.same :)
  rw [hbase, hbytes]
  exact ⟨⟨(congrArg (fun x => x.por.sessions) haccess.same :), (congrArg (fun x => x.por.fusedSvn) haccess.same :),
    (congrArg (fun x => x.por.nodeId) haccess.same :), (congrArg (fun x => x.por.vals) haccess.same :), haccess.boot,
    (congrArg State.net haccess.same :)⟩, hview⟩

theorem viewFollow_spec (s old : State) : ViewFollows s (s.viewFollow old) ∧
    (s.boot.ready = false ∨ s.dv 0x1F08 1 = old.dv 0x1F08 1 ∧ s.dv 0x1F08 2 = old.dv 0x1F08 2 → s.viewFollow old = s) ∧
    (s.boot.ready = true → ¬ (s.dv 0x1F08 1 = old.dv 0x1F08 1 ∧ s.dv 0x1F08 2 = old.dv 0x1F08 2) →
      ((s.viewFollow old).por.viewBase = 0 ∧ (s.viewFollow old).por.viewBytes = 0) ∨
      (s.viewFollow old).por.viewBase = s.dv 0x1F08 1 ∧ (s.viewFollow old).por.viewBytes = s.dv 0x1F08 2) := by
  have hgrant : ViewFollows s s.takeGrant := ⟨rfl, rfl, rfl, rfl, rfl, rfl⟩
  have hgdv := hgrant.dv
  unfold State.viewFollow
  generalize s.takeGrant = g at hgrant hgdv
  obtain ⟨hfollows, hview⟩ := viewFollows_viewTake g
  rw [hgdv, hgdv] at hview
  split
  · next h =>
    refine ⟨⟨hfollows.sessions.trans hgrant.sessions, hfollows.fused.trans hgrant.fused, hfollows.node.trans hgrant.node,
      hfollows.vals.trans hgrant.vals, hfollows.boot.trans hgrant.boot, hfollows.net.trans hgrant.net⟩, fun hsame => ?_, fun _ _ => hview⟩
    simp only [Bool.and_eq_true, Bool.or_eq_true, decide_eq_true_eq] at h
    rcases hsame with hready | ⟨h1, h2⟩
    · rw [hready] at h
      exact absurd h.1 Bool.false_ne_true
    · exact absurd h.2 (by simp [h1, h2])
  · next h =>
    refine ⟨⟨rfl, rfl, rfl, rfl, rfl, rfl⟩, fun _ => rfl, fun hready hother => absurd ?_ h⟩
    simp only [hready, Bool.true_and, Bool.or_eq_true, decide_eq_true_eq]
    tauto

/-! ## AUTO_BYPASS of the other ring -/

/-- A JOINED ring has a port DOWN by a local fault. -/
def State.ringFailed (s : State) (r : Nat) : Prop :=
  (s.ring r).bypass = .joined ∧ ∃ p ∈ portsOfRing r, (s.port p).state = .down ∧ (s.port p).fault = 1

theorem autoBypass_of_not_failed {s : State} {r : Nat} (h : ¬ s.ringFailed r) : s.autoBypass r = s := by
  by_cases hjoined : (s.ring r).bypass = .joined
  · exact autoBypass_of_sound fun p hp hdown => h ⟨hjoined, p, hp, hdown⟩
  · exact autoBypass_of_closed (.inl hjoined)

theorem autoBypass_cases (s : State) (r : Nat) : s.autoBypass r = s ∨
    ∃ p, s.autoBypass r = (s.ringBypassed r).logEvent 6 0 (0x30 + p) (BitVec.ofNat 128 r) := by
  by_cases hfailed : s.ringFailed r
  · by_cases hauto : s.dv (0x1020 + r) 3 = 1
    · exact .inr (autoBypass_eq hfailed.1 hauto hfailed.2)
    · exact .inl (autoBypass_of_closed (.inr hauto))
  · exact .inl (autoBypass_of_not_failed hfailed)

theorem autoBypass_failed {s : State} {r : Nat} (hfailed : s.ringFailed r) (hauto : s.dv (0x1020 + r) 3 = 1) :
    ((s.autoBypass r).ring r).bypass = .moving false ∧
    ∀ p ∈ portsOfRing r, ((s.autoBypass r).port p).state = if (s.port p).fenced then .fenced else .off := by
  obtain ⟨q, heq⟩ := autoBypass_eq hfailed.1 hauto hfailed.2
  have hring := ring_ringBypassed s r
  have hport (p : Nat) (hp : p ∈ portsOfRing r) := (port_ringBypassed s r p).trans (if_pos hp)
  rw [heq]
  generalize s.ringBypassed r = u at hring hport
  exact ⟨congrArg Ring.bypass hring, fun p hp => congrArg Port.state (hport p hp)⟩

/-- A ring and its ports are as before. -/
def RingSame (r : Nat) (s t : State) : Prop := t.ring r = s.ring r ∧ ∀ p ∈ portsOfRing r, t.port p = s.port p

theorem RingSame.failed {r : Nat} {s t : State} (h : RingSame r s t) : t.ringFailed r ↔ s.ringFailed r := by
  obtain ⟨hring, hport⟩ := h
  unfold State.ringFailed
  rw [hring]
  refine and_congr_right fun _ => exists_congr fun p => and_congr_right fun hp => ?_
  rw [hport p hp]

theorem ring_ringBypassed_other (s : State) {r i : Nat} (h : i ≠ r) : (s.ringBypassed r).ring i = s.ring i :=
  (ring_foldl (fun t q i => (ring_modPort (t.portLose q (t.heldOn q)) q i _).trans (ring_portLose t q _ i)) _ _ i).trans
    (mget_mset_ne _ _ _ h)

theorem ringSame_autoBypass (s : State) {r i : Nat} (hr : r < 2) (hi : i < 2) (h : i ≠ r) : RingSame i s (s.autoBypass r) := by
  rcases autoBypass_cases s r with heq | ⟨q, heq⟩
  · rw [heq]
    exact ⟨rfl, fun _ _ => rfl⟩
  · have hring := ring_ringBypassed_other s h
    have hport (p : Nat) (hp : p ∈ portsOfRing i) : (s.ringBypassed r).port p = s.port p := by
      rw [port_ringBypassed, if_neg fun hpr => ?_]
      unfold portsOfRing at hp hpr
      split at hp <;> split at hpr <;> simp only [List.mem_cons, List.not_mem_nil, or_false] at hp hpr <;> omega
    rw [heq]
    generalize s.ringBypassed r = u at hring hport
    exact ⟨hring, hport⟩

/-! ## Sessions stay closed as a ring opens -/

theorem sessions_endCmd {s : State} (h : s.por.sessions = []) (ticket : Word) (status detail result : Nat) :
    (s.endCmd ticket status detail result).por.sessions = [] := by
  have hsignal (t : State) (v : Nat) : (t.signal v).por = t.por := by
    unfold State.signal
    split <;> rfl
  unfold State.endCmd
  split
  · exact h
  · extract_lets r u
    have hu : u.por.sessions = [] := h
    clear_value u
    split
    · exact (congrArg Porter.sessions (hsignal (u.withPor fun p => { p with mbResult := true }) _)).trans hu
    · split
      · exact hu
      · next x hx =>
        rw [State.session?, hu] at hx
        cases hx

theorem sessions_abortGroup (s : State) (g : Nat) (st : Byte) : (s.abortGroup g st).por.sessions = s.por.sessions := by
  have hfault (t : State) (j : Option JobId) (f : FaultInfo) : (t.jobFault j f).por.sessions = t.por.sessions := by
    unfold State.jobFault
    split <;> rfl
  unfold State.abortGroup
  dsimp only
  split
  · exact hfault _ _ _
  · rfl

theorem sessions_portLose {s : State} (h : s.por.sessions = []) (p : Nat) (lost : List Nat) : (s.portLose p lost).por.sessions = [] := by
  unfold State.portLose
  extract_lets u sends v writes w
  have hu : u.por.sessions = [] :=
    List.foldlRecOn (motive := fun t : State => t.por.sessions = []) _ _ h fun t ht g _ => (sessions_abortGroup t g _).trans ht
  have hv : v.por.sessions = [] :=
    List.foldlRecOn (motive := fun t : State => t.por.sessions = []) _ _ hu fun t ht c _ => sessions_endCmd ht _ _ _ _
  have hw : w.por.sessions = [] := by
    refine List.foldlRecOn (motive := fun t : State => t.por.sessions = []) _ _ hv fun t ht c _ => ?_
    unfold State.endSlotWrite
    split
    · exact ht
    · next w _ => exact sessions_endCmd (s := t.slotWritten w c.arrivedPrefix) ht _ _ _ _
  exact hw

theorem sessions_autoBypass {s : State} (h : s.por.sessions = []) (r : Nat) : (s.autoBypass r).por.sessions = [] := by
  rcases autoBypass_cases s r with heq | ⟨q, heq⟩
  · rw [heq, h]
  · have hports : (s.ringBypassed r).por.sessions = [] := by
      unfold State.ringBypassed
      refine List.foldlRecOn (motive := fun t : State => t.por.sessions = []) _ _ h fun t ht p _ => ?_
      exact sessions_portLose ht p (t.heldOn p)
    rw [heq]
    exact hports

/-! ## PORTER_RESTART -/

/-- Every unit goes on, its state as before; the time of the last saved profile is a landed Ledger write's. -/
structure UnitsGoOn (s t : State) : Prop where
  same : t.sansRestart = s.sansRestart
  pwr : s.por.ledgerImage = none → t.pwr = s.pwr

/-- The restart up to the rings. -/
theorem porterStart_spec (s : State) : UnitsGoOn s s.restartCut.restarted ∧ PorterFresh s.restartCut.restarted ∧
    ∀ i u, s.restartCut.dv i u = s.dv i u := by
  obtain ⟨hsame, hvals, hidle⟩ := restartCut_spec s
  have hdv (i u : Nat) : s.restartCut.dv i u = s.dv i u := by rw [State.dv, hvals]; rfl
  generalize s.restartCut = c at hsame hidle hdv
  obtain ⟨hfresh, hsame', hpwr⟩ := restarted_spec c
  exact ⟨⟨hsame'.trans hsame, fun h => hpwr.trans (hidle h)⟩, hfresh, hdv⟩

theorem porterRestart_spec {s : State} (hruns : s.boot.porterRuns = true) : let t := s.porterRestart
    let sameView := t.dv 0x1F08 1 = s.dv 0x1F08 1 ∧ t.dv 0x1F08 2 = s.dv 0x1F08 2
    t.por.sessions = [] ∧ t.por.fusedSvn = s.por.fusedSvn ∧ t.boot.ready = s.boot.ready ∧ t.por.nodeId = t.boot.strap ∧
    (s.boot.ready = true → ¬ sameView → (t.por.viewBase = 0 ∧ t.por.viewBytes = 0) ∨
      (t.por.viewBase = t.dv 0x1F08 1 ∧ t.por.viewBytes = t.dv 0x1F08 2)) ∧
    ((∀ r, r < 2 → ¬ s.ringFailed r) → s.boot.ready = false ∨ sameView → UnitsGoOn s t ∧ PorterFresh t) ∧
    (∀ r, r < 2 → s.ringFailed r → t.dv (0x1020 + r) 3 = 1 → (t.ring r).bypass = .moving false ∧
      ∀ p ∈ portsOfRing r, (t.port p).state = if (s.port p).fenced then .fenced else .off) := by
  intro t sameView
  have ht : t = _ := porterRestart_eq hruns
  obtain ⟨hgoes, hfresh, hcutdv⟩ := porterStart_spec s
  obtain ⟨hfollows, hstays, htaken⟩ := viewFollow_spec s.restartCut.restarted s.restartCut
  rw [hcutdv, hcutdv] at hstays htaken
  clear_value t
  generalize s.restartCut.restarted.viewFollow s.restartCut = y at ht hfollows hstays htaken
  generalize s.restartCut.restarted = x at hgoes hfresh hfollows hstays htaken
  have hready : x.boot.ready = s.boot.ready := (congrArg (fun x => x.boot.ready) hgoes.same :)
  have hyready : y.boot.ready = x.boot.ready := congrArg Boot.ready hfollows.boot
  have hnet : y.net = s.net := hfollows.net.trans (congrArg State.net hgoes.same :)
  have hrings (r : Nat) : RingSame r s y := ⟨by unfold State.ring; rw [hnet], fun p _ => by unfold State.port; rw [hnet]⟩
  have hfirst : OnlyLoss y (y.autoBypass 0) := onlyLoss_autoBypass y 0
  have hlast : OnlyLoss (y.autoBypass 0) t := by rw [ht]; exact onlyLoss_autoBypass _ 1
  have hloss := hfirst.trans hlast
  have htready : t.boot.ready = y.boot.ready := (congrArg (fun x => x.boot.ready) hloss.same :)
  have hdv (i u : Nat) : t.dv i u = x.dv i u := (hloss.dv i u).trans (hfollows.dv i u)
  have hsame : sameView ↔ x.dv 0x1F08 1 = s.dv 0x1F08 1 ∧ x.dv 0x1F08 2 = s.dv 0x1F08 2 := by simp only [sameView, hdv]
  have hfused : t.por.fusedSvn = y.por.fusedSvn := (congrArg (fun x => x.por.fusedSvn) hloss.same :)
  have hnode : t.por.nodeId = y.por.nodeId := (congrArg (fun x => x.por.nodeId) hloss.same :)
  have hstrap : t.boot.strap = y.boot.strap := (congrArg (fun x => x.boot.strap) hloss.same :)
  have hbase : t.por.viewBase = y.por.viewBase := (congrArg (fun x => x.por.viewBase) hloss.same :)
  have hbytes : t.por.viewBytes = y.por.viewBytes := (congrArg (fun x => x.por.viewBytes) hloss.same :)
  refine ⟨?_, ?_, ?_, ?_, fun hr hview => ?_, fun hsound hview => ?_, fun r hr hfailed hauto => ?_⟩
  · rw [ht]
    exact sessions_autoBypass (sessions_autoBypass (hfollows.sessions.trans hfresh.sessions) 0) 1
  · exact (hfused.trans hfollows.fused).trans (congrArg (fun x => x.por.fusedSvn) hgoes.same :)
  · exact (htready.trans hyready).trans hready
  · rw [hnode, hstrap, hfollows.node, hfresh.node, hfollows.boot]
  · rw [hbase, hbytes, hdv, hdv]
    exact htaken (hready.trans hr) fun h => hview (hsame.2 h)
  · have hyx : y = x := hstays (hview.imp hready.trans hsame.1)
    have hopen (r : Nat) (hr : r < 2) : ¬ y.ringFailed r := fun h => hsound r hr ((hrings r).failed.1 h)
    have hty : t = y := by
      rw [ht]
      show (y.autoBypass 0).autoBypass 1 = y
      rw [autoBypass_of_not_failed (hopen 0 Nat.two_pos), autoBypass_of_not_failed (hopen 1 Nat.one_lt_two)]
    rw [hty, hyx]
    exact ⟨hgoes, hfresh⟩
  · have hfailedY : y.ringFailed r := (hrings r).failed.2 hfailed
    have hports (p : Nat) (hp : p ∈ portsOfRing r) : y.port p = s.port p := (hrings r).2 p hp
    have hcases : r = 0 ∨ r = 1 := by omega
    rcases hcases with rfl | rfl
    · have hautoY : y.dv (0x1020 + 0) 3 = 1 := (hloss.dv _ _).symm.trans hauto
      obtain ⟨hbypass, hstate⟩ := autoBypass_failed hfailedY hautoY
      obtain ⟨hring, hport⟩ := ringSame_autoBypass (y.autoBypass 0) (r := 1) (i := 0) Nat.one_lt_two Nat.two_pos Nat.zero_ne_one
      rw [ht]
      refine ⟨(congrArg Ring.bypass hring).trans hbypass, fun p hp => (congrArg Port.state (hport p hp)).trans ?_⟩
      rw [hstate p hp, hports p hp]
    · have hother := ringSame_autoBypass y (r := 0) (i := 1) Nat.two_pos Nat.one_lt_two Nat.one_ne_zero
      have hautoY : (y.autoBypass 0).dv (0x1020 + 1) 3 = 1 := (hlast.dv _ _).symm.trans hauto
      obtain ⟨hbypass, hstate⟩ := autoBypass_failed (hother.failed.2 hfailedY) hautoY
      rw [ht]
      refine ⟨hbypass, fun p hp => ?_⟩
      show (((y.autoBypass 0).autoBypass 1).port p).state = _
      rw [hstate p hp, hother.2 p hp, hports p hp]

/-! ## The statement -/

/-- What the statement says of a module reset. -/
theorem ResetOf.told_all {s t : State} {cause : Byte} (h : ResetOf s cause t) (htold : Told s t) :
    (∀ c ∈ s.por.cmds, c.index = 0x0204 → c.sub = 2 → (t.fwImage s.stageBank).stage = fwStaging) ∧ Told s t ∧
    t.boot.resetCause = cause ∧ t.boot.resetCount = s.boot.resetCount + 1 ∧ t.boot.ready = false ∧ t.boot.inReset = true ∧ t.boot.cxlUp = false ∧
    t.pacing = 0 ∧ t.clusters = [] ∧ t.cores = [] ∧ t.hub.jobs = [] ∧ (∀ n, t.pair n = {}) ∧ (∀ b, t.block b = 0) ∧
    (∀ r, r < 2 → (t.ring r).bypass = if (s.ring r).bypass = .through then .through else .moving false) ∧ SlotStates s t ∧
    t.por.fusedSvn = s.por.fusedSvn ∧ t.por.factory = s.por.factory ∧ t.boot.bootBank = s.boot.bootBank :=
  ⟨h.cut, htold, h.cause, h.count, h.ready, h.inReset, h.cxlUp, h.pacing, h.clusters, h.cores, h.jobs, fun n => by rw [State.pair, h.pairs]; rfl,
    fun b => by rw [State.block, h.blocks]; rfl, h.through, h.slots, h.fused, h.factory, h.bootBank⟩

/-- Settles O51: a reset by what it cuts, clears, tells and keeps; a start of the porter by what its fresh memory and its entries resolved
anew leave; the steps of start-up and the loss of power one by one. -/
theorem startUpAndResets : Obligations.StartUpAndResets := by
  intro s through cut told reset
  have hreset {cause : Byte} {t : State} (h : ResetOf s cause t ∧ Told s t) : reset cause t := h.1.told_all h.2
  refine ⟨fun hvin hclk => ⟨_, rfl, powerUp_spec hvin hclk⟩, fun hvin => ?_, fun hstart => ⟨?_, fun m huntrained hfree => ⟨?_, fun how hhow => ?_⟩,
    fun failed hnew => ⟨_, rfl, flashTrained_spec hstart hnew failed⟩, ⟨_, rfl, startReady_spec hstart⟩⟩, fun bs f r hw hbs hfront => ?_,
    fun f r hfront hlast hrop hasked => ?_, fun cause hvin hstarted hlo hhi => ?_, fun hroot hclk => ⟨?_, ?_⟩, fun hclk hvin hstarted => ?_,
    fun hruns => ?_, ⟨_, rfl, powerLoss_spec s⟩, fun bs f r hw hfront hvalue => ⟨fun hone hidle => ?_, fun hzero => ?_⟩⟩
  · exact congrArg Host.Outcome.next (if_pos hvin)
  · exact congrArg Host.Outcome.next (hubsReady_of_starting hstart)
  · exact ⟨_, rfl, stackTrained_failed hstart huntrained hfree⟩
  · obtain ⟨hfence, htrained, hkind, hzeroed⟩ := stackTrained_done hstart huntrained hfree hhow
    exact ⟨_, rfl, hfence, htrained, hkind, fun a => hzeroed.inside, fun a => hzeroed.outside⟩
  · obtain ⟨hlast, hmore⟩ := writes_moduleReset hbs hfront hw
    exact ⟨fun h => ⟨_, rfl, hreset (hlast h)⟩, fun h => ⟨_, rfl, hmore h⟩⟩
  · obtain ⟨status, total, value, heq⟩ := dictRead_answers hfront hrop
    refine ⟨_, rfl, hreset ?_⟩
    rw [heq]
    exact answer_resets hfront hlast hasked _ _ _ _
  · obtain ⟨hof, htold, hdetail, -⟩ := enterReset_spec s 0xF1 cause
    exact ⟨_, congrArg Host.Outcome.next (powerFault_eq hvin hstarted hlo hhi), hreset ⟨hof, htold⟩, hdetail rfl⟩
  · obtain ⟨hof, htold, -, hrefclk, hruns⟩ := enterReset_spec s 0xF0 0
    exact ⟨_, congrArg Host.Outcome.next (rootUnlock_kept hroot), hreset ⟨hof, htold⟩, hrefclk.trans hclk, hruns⟩
  · obtain ⟨hof, htold, hrest⟩ := reset_rootUnlock hroot hclk
    exact ⟨_, rfl, hreset ⟨hof, htold⟩, hrest⟩
  · exact congrArg Host.Outcome.next (refReturn_eq hclk hvin hstarted)
  · intro failed sameView
    obtain ⟨hsessions, hfused, hready, hnode, hview, hgoes, hfailed⟩ := porterRestart_spec hruns
    refine ⟨_, rfl, hsessions, hfused, hready, hnode, hview, fun hsound hsame => ?_, hfailed⟩
    obtain ⟨⟨hrest, hpwr⟩, hfresh⟩ := hgoes hsound hsame
    exact ⟨(congrArg State.hub hrest :), (congrArg State.clusters hrest :), (congrArg State.cores hrest :), (congrArg State.ms hrest :),
      (congrArg State.net hrest :), (congrArg State.car hrest :),
      (congrArg (fun x : State => { x.pwr with profileSavedAt := s.porterRestart.pwr.profileSavedAt }) hrest :), hpwr,
      (congrArg State.enc hrest :), (congrArg State.pacing hrest :), hfresh.results, hfresh.log⟩
  · exact ⟨_, rfl, writes_prepareRemoval hw hfront hvalue hone hidle⟩
  · exact ⟨_, rfl, writes_cancelRemoval hw hfront hvalue hzero⟩

end Sys2Proof.Machine

/-! PROOFS. No step but ROLLBACK_COMMIT's moves the factory ledger or the fuse counter, and every step keeps the memories' canonical form
(R439, R463): the memories that operations write, and what an operation's answer keeps. -/

namespace Sys2Proof.Machine

/-! ## Canonical form of what operations write -/

theorem Mem.wf_foldl {α : Type} {f : Mem → α → Mem} (hf : ∀ m a, m.wf = true → (f m a).wf = true) (l : List α) {m : Mem} (h : m.wf = true) :
    (l.foldl f m).wf = true :=
  l.foldlRecOn f (motive := fun m => m.wf = true) h fun _ hm a _ => hf _ a hm

theorem all_map_snd {α β : Type} {P : α → Bool} {Q : β → Bool} {m : AMap α} {f : α → β} (h : m.all (fun c => P c.2) = true)
    (hf : ∀ v, P v = true → Q (f v) = true) : (m.map fun c => (c.1, f c.2)).all (fun c => Q c.2) = true := by
  rw [List.all_map]
  exact List.all_eq_true.2 fun c hc => hf _ (List.all_eq_true.1 h c hc)

theorem Core.memWf_iff (x : Core) : x.memWf = true ↔ x.store.wf = true ∧ x.acc.wf = true := by simp [Core.memWf]
theorem Cluster.memWf_iff (c : Cluster) : c.memWf = true ↔ c.scache.wf = true ∧ c.seq.loc.wf = true := by simp [Cluster.memWf]

/-- The memories of a core, the pair that its form is about. -/
def Core.mems (x : Core) : Mem × Mem := (x.store, x.acc)

theorem Core.memWf_of_mems {x y : Core} (h : y.mems = x.mems) (hx : x.memWf = true) : y.memWf = true := by
  simp only [Core.mems, Prod.mk.injEq] at h
  rw [Core.memWf_iff] at hx ⊢
  rw [h.1, h.2]
  exact hx

/-- The memories of a cluster, the pair that its form is about. -/
def Cluster.mems (c : Cluster) : Mem × Mem := (c.scache, c.seq.loc)

theorem Cluster.memWf_of_mems {c d : Cluster} (h : d.mems = c.mems) (hc : c.memWf = true) : d.memWf = true := by
  simp only [Cluster.mems, Prod.mk.injEq] at h
  rw [Cluster.memWf_iff] at hc ⊢
  rw [h.1, h.2]
  exact hc

theorem mems_closeClaim (x : Core) (e : QEntry) : (x.closeClaim e).mems = x.mems := by
  unfold Core.closeClaim
  split <;> rfl

theorem mems_foldl_closeClaim (l : List QEntry) (x : Core) : (l.foldl Core.closeClaim x).mems = x.mems :=
  l.foldlRecOn Core.closeClaim (motive := fun y => y.mems = x.mems) rfl fun y hy e _ => (mems_closeClaim y e).trans hy

theorem memWf_fillSlot {x : Core} (job : Job) (d : Nat) (p : Nat × LineTag) (hx : x.memWf = true) : (fillSlot x job d p).memWf = true := by
  unfold fillSlot
  split
  · exact hx
  · rw [Core.memWf_iff] at hx ⊢
    exact ⟨Mem.wf_foldl (fun m _ hm => Mem.wf_writeBytes m _ _ hm) _ hx.1, hx.2⟩

theorem memWf_popPost {x y : Core} {k : Nat} {p : PendPost} (h : x.popPost k = some (p, y)) (hx : x.memWf = true) : y.memWf = true := by
  unfold Core.popPost at h
  split at h
  · obtain ⟨q, -, hq⟩ := Option.map_eq_some_iff.1 h
    injection hq with _ hy
    rw [← hy]
    exact hx
  · cases h

theorem stream_releaseTo (x : Slot) (n r : Nat) : (x.releaseTo n r).stream = x.stream := by
  have hrelease (y : Slot) (q : Nat) : (y.releaseOrd n q).stream = y.stream := by
    unfold Slot.releaseOrd
    split
    · rfl
    · dsimp only
      split <;> rfl
  exact List.foldlRecOn (motive := fun y : Slot => y.stream = x.stream) _ _ rfl fun y hy q _ => (hrelease y _).trans hy

theorem memWf_abandonFills {x : Core} (hx : x.memWf = true) : x.abandonFills.memWf = true := hx

theorem memWf_restoreLine {x : Core} (g : LogLine) (hx : x.memWf = true) : (x.restoreLine g).memWf = true := by
  rw [Core.memWf_iff] at hx ⊢
  unfold Core.restoreLine
  dsimp only
  split
  · exact ⟨hx.1, Mem.wf_writeBytes _ _ _ hx.2⟩
  · exact ⟨Mem.wf_writeBytes _ _ _ hx.1, hx.2⟩

theorem memWf_restoreLog {x : Core} (hx : x.memWf = true) : x.restoreLog.memWf = true :=
  List.foldlRecOn (motive := fun y : Core => y.memWf = true) x.restore Core.restoreLine hx fun _ hy g _ => memWf_restoreLine g hy

theorem memWf_saved {x : Core} (hx : x.memWf = true) : x.saved.memWf = true := memWf_abandonFills (memWf_restoreLog hx)

theorem memWf_saveCluster {s : State} (hs : s.MemWf) (k : Nat) : (s.saveCluster k).memWf = true := by
  simp only [SavedCluster.memWf, State.saveCluster, Bool.and_eq_true, List.all_eq_true, List.mem_map]
  refine ⟨((Cluster.memWf_iff _).1 (all_mget (P := Cluster.memWf) (d := {}) k hs.clusters (by decide))).2, ?_⟩
  rintro _ ⟨i, -, rfl⟩
  exact memWf_saved (all_mget (P := Core.memWf) (d := {}) i hs.cores (by decide))

theorem loc_setReg (q : Seq) (r : BitVec 5) (v : Quad) : (q.setReg r v).loc = q.loc := by
  unfold Seq.setReg
  split <;> rfl

theorem hostRead_unreached {s : State} {hpa l : Nat} (hline : s.hdmLine hpa = some l) (hreach : s.hostReaches = false) : s.hostRead hpa = s := by
  conv_lhs => fun; fun; delta State.hostRead
  rw [hline]
  dsimp only
  rw [hreach]
  rfl

theorem hostWrite_unreached {s : State} {hpa l : Nat} (hline : s.hdmLine hpa = some l) (hreach : s.hostReaches = false) (data : Desc) (be : Quad) :
    s.hostWrite hpa data be = s := by
  conv_lhs => fun; fun; fun; fun; delta State.hostWrite
  rw [hline]
  dsimp only
  rw [hreach]
  rfl

/-- The write of the save areas, with the check of an area and its size open: no proof may evaluate the check at the area's 110,624,768 bytes. -/
def State.areasWith (err : State → Nat → Nat → Option AccErr) (size : Nat) (s : State) : List Nat → Except (AccErr × State) State
  | [] => .ok s
  | a :: rest => match err s a size with
    | some e => .error (e, s)
    | none => (s.writeArea a).areasWith err size rest

theorem writeAreas_eq : State.writeAreas = State.areasWith State.rangeErr saveClusterBytes := by
  delta State.writeAreas State.areasWith State.writeAreas._f State.areasWith._f
  generalize saveClusterBytes = n
  generalize State.rangeErr = r
  generalize State.writeArea = w
  rfl

theorem wf_cxlWrite {m : Mem} (w v : Nat) (hm : m.wf = true) : (cxlWrite m w v).wf = true := by
  unfold cxlWrite
  split
  · exact hm
  · exact Mem.wf_writeLE _ _ _ _ hm

/-! ## The state's parts -/

namespace Kept
variable {s t : State} (h : Kept s t)
include h

/-- An update that leaves the memories, the factory ledger, the fuse counter and the waiting commands. -/
theorem update {pacing : Quad} {ms : MemSys} {car : Caravan} {net : Net} {hub : Hub} {por : Porter} {pwr : Power} {enc : Encoders} {boot : Boot}
    {draws : Nat} {out : List OutMsg} (e :
      (ms.mem, car.slots, hub.jobs, hub.msixTable, hub.cxlRegs, por.factory, por.fusedSvn, por.reqArea, boot.banks) =
      (t.ms.mem, t.car.slots, t.hub.jobs, t.hub.msixTable, t.hub.cxlRegs, t.por.factory, t.por.fusedSvn, t.por.reqArea, t.boot.banks)) : Kept s
        { t with
      pacing := pacing, ms := ms, car := car, net := net, hub := hub, por := por
      pwr := pwr, enc := enc, boot := boot, draws := draws, out := out } := by
  simp only [Prod.mk.injEq] at e
  obtain ⟨hmem, hslots, hjobs, htable, hregs, hfactory, hfused, harea, hbanks⟩ := e
  exact h.same (by simp only [State.keptPart, hmem, hslots, hjobs, htable, hregs, hfactory, hfused, harea, hbanks])

theorem withPor {f : Porter → Porter}
    (hf : ∀ p, ((f p).factory, (f p).fusedSvn, (f p).reqArea) = (p.factory, p.fusedSvn, p.reqArea)) : Kept s (t.withPor f) := by
  simp only [Prod.mk.injEq] at hf
  exact h.same (by simp only [State.keptPart, State.withPor, hf])

theorem withHub {f : Hub → Hub}
    (hf : ∀ x, ((f x).jobs, (f x).msixTable, (f x).cxlRegs) = (x.jobs, x.msixTable, x.cxlRegs)) : Kept s (t.withHub f) := by
  simp only [Prod.mk.injEq] at hf
  exact h.same (by simp only [State.keptPart, State.withHub, hf])

theorem withMs {f : MemSys → MemSys} (hf : ∀ m, (f m).mem = m.mem) : Kept s (t.withMs f) :=
  h.same (by simp only [State.keptPart, State.withMs, hf])

theorem withBoot {f : Boot → Boot} (hf : ∀ b, (f b).banks = b.banks) : Kept s (t.withBoot f) :=
  h.same (by simp only [State.keptPart, State.withBoot, hf])

/-! An update of a unit that leaves the unit's memories. -/

theorem touchCore {c : Nat} {f : Core → Core} (hf : ∀ x, (f x).mems = x.mems) : Kept s (t.modCore c f) :=
  ⟨h.factory, h.fused, h.pending, fun hs => { h.wf hs with
    cores := all_mset c (h.wf hs).cores (Core.memWf_of_mems (hf _) (all_mget (P := Core.memWf) (d := {}) c (h.wf hs).cores (by decide))) }⟩

theorem touchCluster {k : Nat} {f : Cluster → Cluster} (hf : ∀ c, (f c).mems = c.mems) : Kept s (t.modCluster k f) :=
  ⟨h.factory, h.fused, h.pending, fun hs => { h.wf hs with
    clusters := all_mset k (h.wf hs).clusters (Cluster.memWf_of_mems (hf _) (all_mget (P := Cluster.memWf) (d := {}) k (h.wf hs).clusters
      (by decide))) }⟩

theorem touchSlot {i : Nat} {f : Slot → Slot} (hf : ∀ x, (f x).stream = x.stream) : Kept s (t.modSlot i f) :=
  ⟨h.factory, h.fused, h.pending, fun hs => { h.wf hs with
    slots := all_mset (P := fun x : Slot => x.stream.wf) i (h.wf hs).slots ((congrArg Mem.wf (hf _)).trans
      (all_mget (P := fun x : Slot => x.stream.wf) i (h.wf hs).slots (by decide))) }⟩

theorem touchJob {id : JobId} {f : Job → Job} (hf : ∀ j, (f j).saved = j.saved) : Kept s (t.modJob id f) :=
  h.modJob id fun j hj => (congrArg (List.all · SavedCluster.memWf) (hf j)).trans hj

/-- An update of stacked memory that keeps its form. -/
theorem withMem {f : MemSys → MemSys} (hf : ∀ m, m.mem.wf = true → (f m).mem.wf = true) : Kept s (t.withMs f) :=
  ⟨h.factory, h.fused, h.pending, fun hs => { h.wf hs with mem := hf _ (h.wf hs).mem }⟩

theorem setSeq {k : Nat} {q : Seq} (hq : (t.seq k).loc.wf = true → q.loc.wf = true) : Kept s (t.setSeq k q) := by
  refine ⟨h.factory, h.fused, h.pending, fun hs => ?_⟩
  have hc := (Cluster.memWf_iff _).1 (all_mget (d := {}) k (h.wf hs).clusters (by decide))
  exact { h.wf hs with clusters := all_mset k (h.wf hs).clusters ((Cluster.memWf_iff _).2 ⟨hc.1, hq hc.2⟩) }

theorem setSlot {i : Nat} {v : Slot} (hv : s.MemWf → v.stream.wf = true) : Kept s (t.setSlot i v) :=
  ⟨h.factory, h.fused, h.pending, fun hs => { h.wf hs with
    slots := all_mset (P := fun x : Slot => x.stream.wf) i (h.wf hs).slots (hv hs) }⟩

theorem modBank {b : Nat} {f : FwBank → FwBank} (hf : ∀ x, x.bytes.wf = true → (f x).bytes.wf = true) :
    Kept s (t.modBank b f) :=
  ⟨h.factory, h.fused, h.pending, fun hs => { h.wf hs with banks := all_mmod b (h.wf hs).banks (by decide) hf }⟩

theorem othersOn {i : Nat} {f : Slot → Slot} (hf : ∀ x, x.stream.wf = true → (f x).stream.wf = true) :
    Kept s (t.othersOn i f) := .foldl h _ fun _ _ hu => .ite (hu.modSlot _ hf) hu

theorem vacateSlots {f : Slot → Slot} {refs : AMap Nat} {trainable : AMap JobId} (hf : ∀ x, (f x).stream = x.stream) :
    Kept s { t with car := { t.car with slots := t.car.slots.map fun p => (p.1, f p.2), adapterRefs := refs, trainable := trainable } } :=
  ⟨h.factory, h.fused, h.pending, fun hs => { h.wf hs with
    slots := all_map_snd (P := fun x : Slot => x.stream.wf) (Q := fun x : Slot => x.stream.wf) (h.wf hs).slots fun x hx =>
      (congrArg Mem.wf (hf x)).trans hx }⟩

/-! An update of a unit whose new memories have the form where the state before had it. -/

theorem modCoreOf {c : Nat} {f : Core → Core} (hf : s.MemWf → ∀ x, x.memWf = true → (f x).memWf = true) : Kept s (t.modCore c f) :=
  ⟨h.factory, h.fused, h.pending, fun hs => ((Kept.refl t).modCore c (hf hs)).wf (h.wf hs)⟩

theorem modClusterOf {k : Nat} {f : Cluster → Cluster} (hf : s.MemWf → ∀ c, c.memWf = true → (f c).memWf = true) : Kept s (t.modCluster k f) :=
  ⟨h.factory, h.fused, h.pending, fun hs => ((Kept.refl t).modCluster k (hf hs)).wf (h.wf hs)⟩

theorem modJobOf {id : JobId} {f : Job → Job} (hf : s.MemWf → ∀ j, j.memWf = true → (f j).memWf = true) : Kept s (t.modJob id f) :=
  ⟨h.factory, h.fused, h.pending, fun hs => ((Kept.refl t).modJob id (hf hs)).wf (h.wf hs)⟩

end Kept

/-! ## What an operation answers -/

/-- What an operation answers where it answers. -/
structure KeptSome {ρ : Type} (s : State) (q : ρ → State) (r : Option ρ) : Prop where
  some : ∀ {x}, r = .some x → Kept s (q x)

/-- An answer's state keeps what a step keeps. -/
def AnsKept (s : State) (a : Ans) : Prop := Kept s a.st

theorem AnsKept.ite {s : State} {a b : Ans} {p : Prop} [Decidable p] (ha : AnsKept s a) (hb : AnsKept s b) : AnsKept s (if p then a else b) := by
  split
  · exact ha
  · exact hb

/-- What an operation that may fail answers, either way. -/
def KeptEither {ε ρ : Type} (s : State) (p : ε → State) (q : ρ → State) : Except ε ρ → Prop
  | .error e => Kept s (p e)
  | .ok u => Kept s (q u)

namespace KeptEither
variable {ε ρ : Type} {s : State} {p : ε → State} {q : ρ → State} {r : Except ε ρ} (h : KeptEither s p q r)
include h

theorem ok {u : ρ} (e : r = .ok u) : Kept s (q u) := by
  subst e
  exact h

theorem error {e : ε} (he : r = .error e) : Kept s (p e) := by
  subst he
  exact h

theorem bind {f : ρ → Except ε ρ} (hf : ∀ u, Kept s (q u) → KeptEither s p q (f u)) : KeptEither s p q (r.bind f) := by
  cases r with
  | ok u => exact hf u h
  | error e => exact h

theorem map {f : ρ → ρ} (hf : ∀ u, Kept s (q u) → Kept s (q (f u))) : KeptEither s p q (r.map f) := by
  cases r with
  | ok u => exact hf u h
  | error e => exact h

theorem mapError {ε' : Type} {p' : ε' → State} {f : ε → ε'} (hf : ∀ e, Kept s (p e) → Kept s (p' (f e))) : KeptEither s p' q (r.mapError f) := by
  cases r with
  | ok u => exact h
  | error e => exact hf e h

end KeptEither

/-- What a device read leaves. -/
def DevKept (s : State) : DevRead → Prop
  | .bytes _ u => Kept s u
  | .stop u => Kept s u

theorem DevKept.bytes {s u : State} {r : DevRead} {bs : List Byte} (h : DevKept s r) (e : r = .bytes bs u) : Kept s u := by
  subst e
  exact h

theorem DevKept.stop {s u : State} {r : DevRead} (h : DevKept s r) (e : r = .stop u) : Kept s u := by
  subst e
  exact h

/-- What a load of weights that stops leaves. -/
def LoadKept (s : State) : Load → Prop
  | .stop u => Kept s u
  | _ => True

theorem LoadKept.stop {s u : State} {r : Load} (h : LoadKept s r) (e : r = .stop u) : Kept s u := by
  subst e
  exact h

/-- What the look at a write leaves. -/
def LookKept (s : State) : WriteLook → Prop
  | .refuse _ u => Kept s u
  | .staged u => Kept s u
  | .value _ u => Kept s u

namespace LookKept
variable {s u : State} {r : WriteLook} (h : LookKept s r)
include h

theorem refuse {st : Nat} (e : r = .refuse st u) : Kept s u := by
  subst e
  exact h

theorem staged (e : r = .staged u) : Kept s u := by
  subst e
  exact h

theorem value {bs : List Byte} (e : r = .value bs u) : Kept s u := by
  subst e
  exact h

omit h in
theorem ite {a b : WriteLook} {p : Prop} [Decidable p] (ha : LookKept s a) (hb : LookKept s b) : LookKept s (if p then a else b) := by
  split
  · exact ha
  · exact hb

end LookKept

/-- What the decision of a SCAT.KV's rooms leaves where every room is held. -/
def DecidedKept (s : State) : Decided → Prop
  | .holds _ u => Kept s u
  | _ => True

theorem DecidedKept.holds {s u : State} {r : Decided} {hs : List RoomHold} (h : DecidedKept s r) (e : r = .holds hs u) : Kept s u := by
  subst e
  exact h

namespace Kept
variable {s t : State} (h : Kept s t)
include h

theorem of_sweep {u : State} (h' : SweepKeeps t u) : Kept s u := h.trans h'.toKept

theorem ans {status detail : Nat} {ticket : Option Word} : AnsKept s ⟨t, status, detail, ticket⟩ := h

omit h in
theorem fst {α : Type} {p : State × α} (h : Kept s p.1) {a : α} {u : State} (e : p = (u, a)) : Kept s u := by
  subst e
  exact h

omit h in
theorem snd {α : Type} {p : α × State} (h : Kept s p.2) {a : α} {u : State} (e : p = (a, u)) : Kept s u := by
  subst e
  exact h

omit h in
theorem ite_snd {α : Type} {a b : α × State} {p : Prop} [Decidable p] (ha : Kept s a.2) (hb : Kept s b.2) : Kept s (if p then a else b).2 := by
  split
  · exact ha
  · exact hb

end Kept

end Sys2Proof.Machine

/-! PROOFS. The factory ledger, the fuse counter and the memories' form (R439, R463): what the shared operations keep, up to the exchange's. -/

namespace Sys2Proof.Machine

namespace Kept
variable {s t : State} (h : Kept s t)
include h

/-! ## Counters, faults and the shared operations -/

theorem modStack {m : Nat} {f : Stack → Stack} : Kept s (t.modStack m f) := h.of_sweep (.modStack (.refl t) ..)

theorem modFlashCh {i : Nat} {f : FlashChannel → FlashChannel} : Kept s (t.modFlashCh i f) := h.update (by rfl)
theorem modPort {p : Nat} {f : Port → Port} : Kept s (t.modPort p f) := h.of_sweep (.modPort (.refl t) ..)
theorem modRing {r : Nat} {f : Ring → Ring} : Kept s (t.modRing r f) := h.of_sweep (.modRing (.refl t) ..)
theorem modGroup {g : Nat} {f : Group → Group} : Kept s (t.modGroup g f) := h.of_sweep (.modGroup (.refl t) ..)
theorem modPair {n : Nat} {f : Pair → Pair} : Kept s (t.modPair n f) := h.of_sweep (.modPair (.refl t) ..)
theorem setStreamRec {i : Nat} {v : Stream} : Kept s (t.setStreamRec i v) := h.of_sweep (.setStreamRec (.refl t) ..)
theorem withPwr {f : Power → Power} : Kept s (t.withPwr f) := h.update (by rfl)
theorem withNet {f : Net → Net} : Kept s (t.withNet f) := h.of_sweep (.withNet (.refl t) ..)
theorem setDv {i sub v : Nat} : Kept s (t.setDv i sub v) := h.of_sweep (.setDv (.refl t) ..)
theorem draw : Kept s t.draw.2 := h.of_sweep (.draw (.refl t) ..)
theorem stamp : Kept s t.stamp.2 := h.update (by rfl)
theorem emit {m : OutMsg} : Kept s (t.emit m) := h.of_sweep (.emit (.refl t) ..)
theorem setBlock {b v : Nat} : Kept s (t.setBlock b v) := h.withPwr
theorem bumpCore {c i n : Nat} : Kept s (t.bumpCore c i n) := h.touchCore (by intro; rfl)
theorem bumpCluster {k i n : Nat} : Kept s (t.bumpCluster k i n) := h.of_sweep (.bumpCluster (.refl t) ..)
theorem bumpPort {p i n : Nat} : Kept s (t.bumpPort p i n) := h.withPor (by intro; rfl)
theorem countAtomic {k : Nat} : Kept s (t.countAtomic k) := h.bumpCluster

theorem bumpCoreFree {c i : Nat} : Kept s (t.bumpCoreFree c i) := by
  unfold State.bumpCoreFree
  exact h.draw.touchCore (by intro; rfl)

theorem bumpClusterFree {k i : Nat} : Kept s (t.bumpClusterFree k i) := h.of_sweep (.bumpClusterFree (.refl t) ..)
theorem bumpBw {i n : Nat} : Kept s (t.bumpBw i n) := h.of_sweep (.bumpBw (.refl t) ..)
theorem logEvent {event code unit : Nat} {detail : BitVec 128} : Kept s (t.logEvent event code unit detail) := h.of_sweep (.logEvent (.refl t) ..)
theorem logNote {code unit : Nat} {detail : BitVec 128} : Kept s (t.logNote code unit detail) := h.of_sweep (.logNote (.refl t) ..)
theorem jobFault {job : Option JobId} {f : FaultInfo} : Kept s (t.jobFault job f) := h.of_sweep (.jobFault (.refl t) ..)
theorem seqFault {k : Nat} {st : Byte} : Kept s (t.seqFault k st) := h.jobFault
theorem coreFault {c : Nat} {st limit : Byte} {ord : Word} : Kept s (t.coreFault c st limit ord) := h.jobFault
theorem setSync {k i : Nat} {v : Word} : Kept s (t.setSync k i v) := h.touchCluster (by intro; rfl)
theorem setProg {c i : Nat} {v : Word} : Kept s (t.setProg c i v) := h.touchCore (by intro; rfl)

theorem postSync {k i : Nat} {v : Word} {fault : State → State} (hfault : ∀ u, Kept s u → Kept s (fault u)) : Kept s (t.postSync k i v fault) :=
  .ite h.setSync.bumpCluster (hfault _ h)

/-! ## Accesses to stacked memory -/

theorem noteTier {before : Nat} : Kept s (t.noteTier before) := h.of_sweep (.noteTier (.refl t) ..)
theorem serviceStop {cause : Nat} : Kept s (t.serviceStop cause) := .logEvent (h.withBoot (by intro; rfl))
theorem fenceStack {m code : Nat} : Kept s (t.fenceStack m code) := h.of_sweep (.fenceStack (.refl t) ..)
theorem useParity {m : Nat} : Kept s (t.useParity m) := h.of_sweep (.useParity (.refl t) ..)
theorem countUe {a : Nat} : Kept s (t.countUe a) := h.of_sweep (.countUe (.refl t) ..)

theorem accFault {e : AccErr} {job : Option JobId} {core cluster : Byte} {ord : Word} : Kept s (t.accFault e job core cluster ord) :=
  h.of_sweep (.accFault (.refl t) ..)

theorem coreAccFault {c : Nat} {ord : Word} {e : AccErr} : Kept s (t.coreAccFault c ord e) := h.accFault

theorem countFlips {a n : Nat} : Kept s (t.countFlips a n) := h.of_sweep (.countFlips (.refl t) ..)
theorem countRead {a n : Nat} : Kept s (t.countRead a n) := .foldl h _ fun _ _ hu => hu.bumpBw
theorem readDone {a n : Nat} : Kept s (t.readDone a n) := h.of_sweep (.readDone (.refl t) ..)
theorem countErr {err : AccErr} : Kept s (t.countErr err) := h.of_sweep (.countErr (.refl t) ..)

theorem readAll {rs : List (Nat × Nat)} : KeptEither s Prod.snd id (t.readAll rs) := by
  induction rs generalizing t with
  | nil => exact h
  | cons r rs ih =>
    unfold State.readAll
    split
    · exact ih h.readDone
    · exact h

theorem hubGot {r : Nat × Nat} : Kept s (t.hubGot r) := by
  unfold State.hubGot
  split
  · exact h.readDone
  · exact h.countErr

theorem hubDone {rs : List (Nat × Nat)} : Kept s (t.hubDone rs) := .foldl h _ fun _ _ hu => hu.hubGot

theorem sourceDone {a n len : Nat} : Kept s (t.sourceDone a n len) := by
  unfold State.sourceDone
  refine .ite h.readDone ?_
  split
  · exact h.readDone.countErr
  · exact h.readDone.countUe

theorem snoopInv {a n : Nat} : Kept s (t.snoopInv a n) := h.of_sweep (.snoopInv (.refl t) ..)
theorem countWritten {a n : Nat} : Kept s (t.countWritten a n) := .foldl h _ fun _ _ hu => hu.bumpBw
theorem fresh {a n : Nat} : Kept s (t.fresh a n) := h.withMs (by intro; rfl)
theorem memPut {a : Nat} {bs : List Byte} : Kept s (t.memPut a bs) := h.of_sweep (.memPut (.refl t) ..)
theorem memLand {a : Nat} {bs : List Byte} : Kept s (t.memLand a bs) := h.of_sweep (.memLand (.refl t) ..)

theorem memWriteOwn {a : Nat} {bs : List Byte} : KeptEither s Prod.snd id (t.memWriteOwn a bs) := by
  have hland : Kept s (t.memLand a bs) := h.memLand
  have hdone : Kept s ((stacksOf a bs.length).foldl State.useParity ((t.snoopInv a bs.length).memPut a bs)) :=
    .foldl h.snoopInv.memPut _ fun _ _ hu => hu.useParity
  unfold State.memWriteOwn
  split
  · exact hland
  · split
    · exact hland
    · exact hdone

theorem memWrite {a : Nat} {bs : List Byte} : KeptEither s Prod.snd id (t.memWrite a bs) := by
  unfold State.memWrite
  split
  · exact h
  · exact h.memWriteOwn

theorem memWriteHub {a : Nat} {bs : List Byte} : Kept s (t.memWriteHub a bs) := h.of_sweep (.memWriteHub (.refl t) ..)

theorem memWriteJob {job : Option JobId} {core cluster : Byte} {ord : Word} {a : Nat} {bs : List Byte} :
    Kept s (t.memWriteJob job core cluster ord a bs) :=
  h.of_sweep (.memWriteJob (.refl t) ..)

theorem memWriteCore {c : Nat} {ord : Word} {a : Nat} {bs : List Byte} : Kept s (t.memWriteCore c ord a bs) := h.memWriteJob

theorem countRemote {k n : Nat} {place : NarrowTarget} : Kept s (t.countRemote k n place) := by
  unfold State.countRemote
  split
  · exact h.bumpCluster
  · exact h.bumpCluster
  · exact h

theorem scWrite {k off n v : Nat} : Kept s (t.scWrite k off n v) := h.of_sweep (.scWrite (.refl t) ..)
theorem scAdd32 {k off n : Nat} : Kept s (t.scAdd32 k off n) := h.scWrite

/-! ## Rooms -/

theorem setRoomEntry {x v : Nat} : Kept s (t.setRoomEntry x v) := h.of_sweep (.setRoomEntry (.refl t) ..)
theorem modRoomCount {x v : Nat} : Kept s (t.modRoomCount x v) := h.of_sweep (.modRoomCount (.refl t) ..)
theorem modRoomRef {x : Nat} {f : Nat → Nat} : Kept s (t.modRoomRef x f) := h.of_sweep (.modRoomRef (.refl t) ..)
theorem modRoomPin {x : Nat} {f : Nat → Nat} : Kept s (t.modRoomPin x f) := h.of_sweep (.modRoomPin (.refl t) ..)
theorem setRoomState {x v : Nat} : Kept s (t.setRoomState x v) := h.of_sweep (.setRoomState (.refl t) ..)
theorem writeFor {job : Option JobId} {a : Nat} {bs : List Byte} : Kept s (t.writeFor job a bs) := h.of_sweep (.writeFor (.refl t) ..)
theorem setRstate {stream v : Nat} : Kept s (t.setRstate stream v) := h.of_sweep (.setRstate (.refl t) ..)
theorem readFor {job : Option JobId} {r : Nat × Nat} : Kept s (t.readFor job r) := h.of_sweep (.readFor (.refl t) ..)
theorem dirDone {stream : Nat} : Kept s (t.dirDone stream) := h.of_sweep (.dirDone (.refl t) ..)

theorem dirAdd {stream off n : Nat} : Kept s (t.dirAdd stream off n) := by
  unfold State.dirAdd
  split
  · exact h.readDone.writeFor
  · exact h.readFor

theorem dirAddCore {c : Nat} {ord : Word} {stream off n : Nat} : Kept s (t.dirAddCore c ord stream off n) := by
  unfold State.dirAddCore
  split
  · exact h.readDone.memWriteCore
  · exact h.coreAccFault

theorem modVac {p m : Nat} {f : Vacancy → Vacancy} : Kept s (t.modVac p m f) := h.of_sweep (.modVac (.refl t) ..)
theorem wakeParked {p m : Nat} : Kept s (t.wakeParked p m) := h.of_sweep (.wakeParked (.refl t) ..)
theorem pushRoom {x : Nat} : Kept s (t.pushRoom x) := h.of_sweep (.pushRoom (.refl t) ..)
theorem vacate {x : Nat} : Kept s (t.vacate x) := h.of_sweep (.vacate (.refl t) ..)
theorem unpinRoom {x : Nat} : Kept s (t.unpinRoom x) := h.of_sweep (.unpinRoom (.refl t) ..)
theorem releaseRoom {x : Nat} : Kept s (t.releaseRoom x) := h.of_sweep (.releaseRoom (.refl t) ..)

theorem takeRoom {job : JobId} {stream g p m : Nat} : KeptSome s Prod.snd (t.takeRoom job stream g p m) := by
  unfold State.takeRoom
  refine ⟨fun {r} hr => ?_⟩
  extract_lets left v at hr
  split at hr
  · cases hr
  · dsimp only at hr
    split at hr
    · cases hr
    · injection hr with hr
      subst hr
      exact .ite (.modVac h.draw) (.touchJob (.modVac h.draw) (by intro; rfl))

theorem unpark {stream : Nat} : Kept s (t.unpark stream) := h.of_sweep (.unpark (.refl t) ..)
theorem park {stream g p m : Nat} : Kept s (t.park stream g p m) := .ite h h.modVac.setRstate.dirAdd
theorem endRooms {stream : Nat} : Kept s (t.endRooms stream) := h.of_sweep (.endRooms (.refl t) ..)
theorem dropBookings {j : Job} : Kept s (t.dropBookings j) := h.of_sweep (.dropBookings (.refl t) ..)
theorem returnHold {hold : RoomHold} : Kept s (t.returnHold hold) := h.of_sweep (.returnHold (.refl t) ..)

/-! ## Streams -/

theorem modStream {i : Nat} {f : Stream → Stream} : Kept s (t.modStream i f) := h.of_sweep (.modStream (.refl t) ..)
theorem closeStream {i : Nat} {code : Byte} : Kept s (t.closeStream i code) := h.of_sweep (.closeStream (.refl t) ..)
theorem endStream {i : Nat} {code : Byte} : Kept s (t.endStream i code) := h.of_sweep (.endStream (.refl t) ..)
theorem endStreams {is : List Nat} {code : Byte} : Kept s (t.endStreams is code) := h.of_sweep (.endStreams (.refl t) ..)

theorem streamError {i : Nat} {code : Byte} : Kept s (t.streamError i code) :=
  .ite h (.ite h.dirDone (.ite h.dirDone.closeStream h.dirDone.closeStream))

omit h in
theorem governed {u : State} (hu : Kept s u) : Kept s (t.governed u) := .ite hu (.foldl hu _ fun _ _ hv => hv.modStream)

theorem streamErrors {es : List (Nat × Byte)} : Kept s (t.streamErrors es) := .governed (.foldl h _ fun _ _ hu => hu.streamError)

/-! ## Windows of slots -/

theorem releaseFrames {j : Job} {k i : Nat} : Kept s (t.releaseFrames j k i) := by
  unfold State.releaseFrames
  split
  · exact h
  · refine .ite (.modSlot h _ fun x hx => ?_) h
    rw [stream_releaseTo]
    exact hx

theorem slotWf {i : Nat} (hs : s.MemWf) : (t.slot i).stream.wf = true :=
  all_mget (P := fun x : Slot => x.stream.wf) i (h.wf hs).slots (by decide)

theorem refetch {a : Nat} : Kept s (t.refetch a) := by
  unfold State.refetch
  split
  · exact h
  · refine .ite (h.setSlot fun hs => h.slotWf hs) ?_
    dsimp only
    split
    · exact h
    · exact h.setSlot fun hs => h.slotWf hs

/-! ## Encoder parameters -/

theorem noteRequests {j : Job} {k i : Nat} : Kept s (t.noteRequests j k i) := .foldl h _ fun _ _ hu => .ite (hu.setStreamRec.update (by rfl)) hu
theorem counterChanged {j : Job} {k i : Nat} : Kept s (t.counterChanged j k i) := h.noteRequests.releaseFrames
theorem openEnc {i : Nat} : Kept s (t.openEnc i) := .ite h.hubDone.memWriteHub h.hubDone

/-! ## Samples -/

theorem sampleWrite {k : Nat} {p : SamplePend} : Kept s (t.sampleWrite k p) :=
  .ite (.bumpCluster (.bumpCluster (h.draw.touchCluster (by intro; rfl)))) (.bumpCluster (h.draw.touchCluster (by intro; rfl)))

theorem sample {k : Nat} {word : Word} {pc : Quad} {cores : BitVec 16} {desc : Quad} {left : List (Nat × Nat)} :
    Kept s (t.sample k word pc cores desc left) :=
  .ite (h.touchCluster (by intro; rfl)) (.ite (.sampleWrite (h.touchCluster (by intro; rfl))) (.touchCluster (h.touchCluster (by intro; rfl))
    (by intro; rfl)))

theorem sampleDone {k : Nat} {what : Nat × Nat} : Kept s (t.sampleDone k what) :=
  .foldl (h.touchCluster (by intro; rfl)) _ fun _ _ hu => hu.sampleWrite

/-! ## Barriers and counters -/

theorem abortGroup {g : Nat} {status : Byte} : Kept s (t.abortGroup g status) := h.of_sweep (.abortGroup (.refl t) ..)
theorem sendCtrl {p : Nat} {r : BitVec 256} : Kept s (t.sendCtrl p r) := h.of_sweep (.sendCtrl (.refl t) ..)
theorem dropHeldCtrl {pick : Word → Bool} : Kept s (t.dropHeldCtrl pick) := h.of_sweep (.dropHeldCtrl (.refl t) ..)
theorem modBarrier {job : JobId} {chan : Nat} {f : Barrier → Barrier} : Kept s (t.modBarrier job chan f) := h.touchJob (by intro; rfl)

theorem xReleaseLevel {e l chan : Nat} {round : Word} : Kept s (t.xReleaseLevel e l chan round) :=
  .ite h (.ite (.foldl h _ fun _ _ hu => hu.sendCtrl) (.ite (.sendCtrl (.ite h.sendCtrl h)) (.ite h.sendCtrl h)))

theorem xRelease {job : JobId} {chan e top : Nat} {round : Word} : Kept s (t.xRelease job chan e top round) := by
  unfold State.xRelease
  exact .withNet (.modBarrier (.foldl h _ fun _ _ hu => hu.xReleaseLevel))

theorem xHeldRelease {job : JobId} {chan e : Nat} {round : Word} : Kept s (t.xHeldRelease job chan e round) := by
  unfold State.xHeldRelease
  split
  · exact h.xRelease
  · exact h

theorem xArrive {job : JobId} {chan : Nat} : Kept s (t.xArrive job chan) := by
  unfold State.xArrive
  split
  · exact h
  · split
    · exact h
    · split
      · exact h
      · refine .ite h ?_
        dsimp only
        split
        · exact h.xRelease
        · exact .ite h h.sendCtrl.modBarrier.xHeldRelease

theorem barArrive {job : JobId} {chan rank who : Nat} : Kept s (t.barArrive job chan rank who) := h.modBarrier.xArrive

theorem barRelease {job : JobId} {chan : Nat} : Kept s (t.barRelease job chan) := by
  unfold State.barRelease
  split
  · exact h
  · split
    · exact h
    · refine .ite h ?_
      refine .foldl ?_ _ fun _ _ hu => ?_
      · refine .foldl ?_ _ fun _ _ hu => hu.bumpCluster
        split
        · exact h.modBarrier.withNet
        · exact h.modBarrier
      · split
        · exact hu
        · refine .ite ?_ (hu.bumpCoreFree.touchCore (by intro; rfl))
          split
          · exact .ite (.sampleDone (.bumpClusterFree (hu.setSeq (by exact fun hl => hl)))) hu
          · exact hu

/-! ## Queue entries, tabs and their effects -/

theorem modEntry {c : Nat} {ord : Word} {f : QEntry → QEntry} : Kept s (t.modEntry c ord f) := h.touchCore (by intro; rfl)
theorem finish {c : Nat} {ord : Word} {istat : Byte} : Kept s (t.finish c ord istat) := h.modEntry
theorem countBurst {k i a n : Nat} : Kept s (t.countBurst k i a n) := h.bumpCluster.bumpCluster
theorem countNarrow {k a n : Nat} : Kept s (t.countNarrow k a n) := h.bumpCluster.bumpCluster

theorem applyWrites {c : Nat} {w : Writes} : Kept s (t.applyWrites c w) := by
  unfold State.applyWrites
  refine .bumpCore (.bumpCore (.modCore h _ fun x hx => ?_))
  rw [Core.memWf_iff] at hx ⊢
  exact ⟨Mem.wf_foldl (fun m _ hm => Mem.wf_writeBytes m _ _ hm) _ hx.1, Mem.wf_foldl (fun m _ hm => Mem.wf_writeLE m _ _ _ hm) _ hx.2⟩

theorem forgetStore {c : Nat} {rs : List Rng} {rows : List Nat} {slots : List (Nat × Rng)} : Kept s (t.forgetStore c rs rows slots) := by
  unfold State.forgetStore
  refine .modCore h.stamp _ fun x hx => ?_
  rw [Core.memWf_iff] at hx ⊢
  refine ⟨Mem.wf_foldl (fun m _ hm => Mem.wf_forget m _ _ _ hm) _ hx.1, ?_⟩
  dsimp only
  split
  · exact Mem.wf_forget _ _ _ _ hx.2
  · exact hx.2

theorem putStore {c a : Nat} {bs : List Byte} : Kept s (t.putStore c a bs) := h.applyWrites

theorem setValid {c : Nat} {ord : Word} {entry : Nat} : Kept s (t.setValid c ord entry) := by
  unfold State.setValid
  dsimp only
  split
  · exact h.coreAccFault
  · exact h.readDone.memWriteCore

theorem recordOutcome {c entry : Nat} {reuse : Bool} : Kept s (t.recordOutcome c entry reuse) := h.touchCore (by intro; rfl)

theorem recordStatus {c : Nat} {ord : Word} {istat : Byte} : Kept s (t.recordStatus c ord istat) :=
  .bumpCluster (.bumpCluster (.scWrite (.ite h.bumpCluster (.ite h.bumpCluster (.ite h.bumpCluster h)))))

theorem chainCommit {c : Nat} : Kept s (t.chainCommit c) := by
  unfold State.chainCommit
  split
  · next p rest _ _ =>
    have hu : Kept s (t.modCore c fun x => { x with commits := rest }) := h.touchCore (by intro; rfl)
    dsimp only
    generalize t.modCore c _ = u at hu ⊢
    have hv {k : Nat} : Kept s (((u.bumpCluster k 5 1).countAtomic k).countAtomic k) := hu.bumpCluster.countAtomic.countAtomic
    exact .ite hv.scAdd32.bumpCluster (.ite hv.scWrite.scAdd32 (hv.scWrite.scAdd32.touchCore (by intro; rfl)))
  · exact h

theorem makeCommits {c : Nat} : Kept s (t.makeCommits c) := .foldl h _ fun _ _ hu => hu.chainCommit

theorem makeEffect {c : Nat} {job : Job} {held : Held} : Kept s (t.makeEffect c job held) := by
  unfold State.makeEffect
  split
  · exact h.touchCore (by intro; rfl)
  · exact h.touchCore (by intro; rfl)
  · exact .ite h.setValid.bumpCore.recordOutcome h.setValid.bumpCore
  · exact h.makeCommits.barArrive
  · dsimp only
    split
    · exact h.recordStatus.streamErrors
    · exact h.recordStatus

theorem retireEntry {c : Nat} {job : Job} {e : QEntry} {istat : Byte} : Kept s (t.retireEntry c job e istat) := by
  unfold State.retireEntry
  refine .sampleDone (.modCore (.foldl h _ fun _ _ hu => hu.makeEffect) _ fun x hx => ?_)
  exact Core.memWf_of_mems (mems_closeClaim { x with queue := x.queue.filter fun q => decide (q.ord ≠ e.ord) } e) hx

theorem beginWait {c : Nat} {e : QEntry} : Kept s (t.beginWait c e) := by
  unfold State.beginWait
  refine .ite h ?_
  dsimp only
  split
  · exact h.bumpCoreFree.modEntry.withPwr
  · exact h.bumpCoreFree.modEntry

theorem endWait {c : Nat} {ord : Word} : Kept s (t.endWait c ord) := by
  unfold State.endWait
  split
  · exact h.withPwr.modEntry
  · exact h.modEntry

/-! ## Exchange operations -/

theorem openOp {c : Nat} {job : Job} {e : QEntry} {f : Fam} : Kept s (t.openOp c job e f) := .ite h h.withNet
theorem relayPort {g e level rank n k : Nat} : Kept s (t.relayPort g e level rank n k) := .ite h.abortGroup h

theorem applySync {job : Job} {core cluster : Byte} {p : PendPost} : Kept s (t.applySync job core cluster p) := by
  unfold State.applySync
  split
  · exact h
  · exact .counterChanged (h.postSync fun _ hu => hu.jobFault)

theorem hubPost {j : Job} {id : Half} {n : Word} : Kept s (t.hubPost j id n) := .ite (h.touchJob (by intro; rfl)) h.applySync

theorem relayLand {g : Nat} {p : ExPart} : Kept s (t.relayLand g p) := by
  unfold State.relayLand
  split
  · exact h.withNet
  · refine .ite h.abortGroup ?_
    split
    · next _ _ heq =>
        exact .accFault (h.memWrite.error heq)
    · next _ heq =>
        dsimp only
        split
        · exact .withNet (h.memWrite.ok heq)
        · exact .ite (.withNet (h.memWrite.ok heq)) (.hubPost (.withNet (h.memWrite.ok heq)))

theorem relayStaged {r : Relay} : Kept s (t.relayStaged r) := .ite h.withNet.abortGroup (.foldl h.withNet _ fun _ _ hu => hu.relayLand)

theorem relayBegin {job : Job} {d rec : Nat} : Kept s (t.relayBegin job d rec) := by
  unfold State.relayBegin
  extract_lets e r k mine fresh old u v
  have hu : Kept s u := h.relayPort
  have hv : Kept s v := .ite hu.withNet hu
  exact .ite h (.ite hv.jobFault (.ite hv.withNet (.relayStaged hv.withNet)))

theorem opRetire {o : ExOp} : Kept s (t.opRetire o) := h.withNet

theorem exchRetire {c : Nat} {job : Job} {e : QEntry} : Kept s (t.exchRetire c job e) := by
  unfold State.exchRetire
  split
  · refine .ite h ?_
    refine .ite ?_ ?_
    · split
      · exact h.coreAccFault
      · exact h.readDone.relayBegin
    · split
      · exact h.opRetire
      · exact h
  · exact h

end Kept

end Sys2Proof.Machine

/-! PROOFS. The factory ledger, the fuse counter and the memories' form (R439, R463): what frames, the Ledger, a reset, requests and ports keep. -/

namespace Sys2Proof.Machine

namespace Kept
variable {s t : State} (h : Kept s t)
include h

/-! ## Frames of the porter -/

theorem signal {v : Nat} : Kept s (t.signal v) := h.of_sweep (.signal (.refl t) ..)
theorem signalMailbox : Kept s t.signalMailbox := h.of_sweep (.signalMailbox (.refl t) ..)
theorem sendField {peer : Peer} {bytes : List Byte} : Kept s (t.sendField peer bytes) := h.of_sweep (.sendField (.refl t) ..)
theorem modSession {n : Word} {f : Session → Session} : Kept s (t.modSession n f) := h.of_sweep (.modSession (.refl t) ..)
theorem closeSessions {f : Session → Bool} : Kept s (t.closeSessions f) := h.withPor (by intro; rfl)
theorem closeSpent {n : Word} : Kept s (t.closeSpent n) := h.of_sweep (.closeSpent (.refl t) ..)
theorem mailboxDone {bytes : List Byte} : Kept s (t.mailboxDone bytes) := .signalMailbox (h.withPor (by intro; rfl))

theorem respond {f : InFrame} {recs : List Resp} {keep : Bool} : Kept s (t.respond f recs keep) := by
  unfold State.respond
  refine .ite ?_ ?_
  · refine .closeSpent ?_
    split
    · exact h.modSession.sendField
    · exact h.modSession.mailboxDone
  · refine .closeSessions ?_
    refine .withPor ?_ (by intro; rfl)
    refine .closeSpent ?_
    split
    · exact h.modSession.sendField
    · exact h.modSession.mailboxDone

theorem dropFrame {path : Path} : Kept s (t.dropFrame path) := by
  unfold State.dropFrame
  dsimp only
  split
  · exact h.withPor (by intro; rfl)
  · exact .signalMailbox (.withPor (h.withPor (by intro; rfl)) (by intro; rfl))

theorem takeFrame {x : Inbound} : Kept s (t.takeFrame x) := by
  unfold State.takeFrame
  refine .ite h.dropFrame ?_
  refine .ite ?_ ?_
  · refine .ite h.dropFrame ?_
    refine .ite h ?_
    refine .ite ?_ (h.withPor (by intro; rfl))
    dsimp only
    split
    · exact h.withPor (by intro; rfl)
    · exact .signalMailbox (.withPor (h.withPor (by intro; rfl)) (by intro; rfl))
  · refine .ite h.dropFrame ?_
    split
    · exact h.dropFrame
    · refine .ite (.ite h (h.withPor (by intro; rfl))) ?_
      split
      · exact h.dropFrame
      · refine .ite h ?_
        refine .ite h.dropFrame ?_
        dsimp only
        split
        · exact h.modSession.respond
        · exact h.modSession.withPor (by intro; rfl)

theorem takeFrames {n : Nat} : Kept s (State.takeFrames n t) := by
  induction n generalizing t with
  | zero => exact h
  | succ n ih =>
    unfold State.takeFrames
    refine .ite h ?_
    split
    · exact h
    · exact ih (.takeFrame (h.withPor (by intro; rfl)))

theorem nextFrame : Kept s t.nextFrame := h.takeFrames
theorem frameArrives {x : Inbound} : Kept s (t.frameArrives x) := .nextFrame (h.withPor (by intro; rfl))
theorem dropStaged {n : Word} {i u : Nat} : Kept s (t.dropStaged n i u) := h.modSession
theorem endSegments {f : InFrame} {rs : List Resp} : Kept s (t.endSegments f rs) := .ite h (.foldl h _ fun _ _ hu => hu.dropStaged)
theorem modCmd {ticket : Word} {f : RunCmd → RunCmd} : Kept s (t.modCmd ticket f) := h.withPor (by intro; rfl)
theorem endCmd {ticket : Word} {status detail result : Nat} : Kept s (t.endCmd ticket status detail result) := h.of_sweep (.endCmd (.refl t) ..)

theorem freshBytes {n : Nat} : Kept s (t.freshBytes n).2 := by
  induction n generalizing t with
  | zero => exact h
  | succ n ih => exact ih h.draw

theorem newChallenge : Kept s t.newChallenge := by
  have hf : Kept s (t.freshBytes 4).2 := h.freshBytes
  unfold State.newChallenge
  generalize t.freshBytes 4 = r at hf ⊢
  obtain ⟨bs, u⟩ := r
  exact Kept.withPor hf (by intro; rfl)

/-! ## Ledger banks -/

theorem setBank {b : Nat} {v : Option LedgerImage} : Kept s (t.setBank b v) := h.of_sweep (.setBank (.refl t) ..)

theorem landed {op : LedgerOp} : Kept s (t.landed op) := by
  unfold State.landed
  split
  · exact h.withPor (by intro; rfl)
  · exact h.withPor (by intro; rfl)
  · exact h.withPwr
  · exact h

theorem ledgerLand : Kept s t.ledgerLand := by
  unfold State.ledgerLand
  split
  · exact .landed (h.setBank.withPor (by intro; rfl))
  · exact h

theorem resolve : Kept s t.resolve := .foldl (h.withPor (by intro; rfl)) _ fun _ _ hu => hu.touchSlot (by intro; rfl)
theorem lockRoot : Kept s t.lockRoot := h.withPwr.withPor (by intro; rfl)

/-! ## Reset entry -/

theorem slotWritten {w : SlotWrite} {n : Nat} : Kept s (t.slotWritten w n) := by
  unfold State.slotWritten
  exact .modSlot h.stamp _ fun _ hx => Mem.wf_forget _ _ _ _ hx

theorem endSlotWrite {c : RunCmd} {status n : Nat} : Kept s (t.endSlotWrite c status n) := h.of_sweep (.endSlotWrite (.refl t) ..)
theorem countFlash {base : Nat} {sl : Slot} {off n : Nat} : Kept s (t.countFlash base sl off n) := .foldl h _ fun _ _ hu => hu.bumpBw

theorem program {i off : Nat} {bs : List Byte} : Kept s (t.program i off bs) := by
  unfold State.program
  exact .ite h (.countFlash (.modSlot h _ fun _ hx => Mem.wf_writeBytes _ _ _ hx))

theorem programFrom {w : SlotWrite} {n : Nat} : Kept s (t.programFrom w n) := h.program.sourceDone

theorem cutStage {c : RunCmd} : Kept s (t.cutStage c) := by
  unfold State.cutStage
  exact .modBank h.stamp fun _ hx => Mem.wf_forget _ _ _ _ hx

theorem ringsThrough : Kept s t.ringsThrough := .foldl h _ fun _ _ hu => hu.modRing

theorem bistResult {r : BistRun} {verdict : Nat} {fail seen expected : Quad} : Kept s (t.bistResult r verdict fail seen expected) :=
  h.of_sweep (.bistResult (.refl t) ..)

theorem ledgerCut : Kept s t.ledgerCut := by
  unfold State.ledgerCut
  exact .withPor (.ite h.draw.ledgerLand h.draw) (by intro; rfl)

theorem cutCmd {c : RunCmd} : Kept s (t.cutCmd c).1 := by
  unfold State.cutCmd
  split
  · split
    · exact h.slotWritten
    · exact h.draw.programFrom.slotWritten
  · exact h
  · split
    · exact h.cutStage
    · split <;> exact h

theorem cutCmds {cs : List RunCmd} : Kept s (t.cutCmds cs).1 := by
  induction cs generalizing t with
  | nil => exact h
  | cons c cs ih => exact ih h.cutCmd

theorem reportCut {ends : List (Word × Nat)} : Kept s (t.reportCut ends) := .foldl h _ fun _ _ hu => hu.endCmd

theorem clearUnits : Kept s t.clearUnits :=
  ⟨h.factory, h.fused, h.pending, fun hs => { h.wf hs with
    clusters := rfl
    cores := rfl
    jobs := rfl
    slots := all_map_snd (P := fun x : Slot => x.stream.wf) (Q := fun x : Slot => x.stream.wf) (f := Slot.inFlash) (h.wf hs).slots fun _ hx => hx
    area := Mem.wf_empty
    table := (by decide : msixReset.wf = true)
    regs := Mem.wf_empty }⟩

theorem enterReset {cause detail : Byte} : Kept s (t.enterReset cause detail) := by
  unfold State.enterReset
  extract_lets before a b
  have ha : Kept s a := .ite h.serviceStop h
  have hb : Kept s b := .foldl ha _ fun _ _ hu => hu.bistResult
  split
  next c ends hcut =>
    have hc : Kept s c := Kept.fst hb.cutCmds hcut
    exact .lockRoot (.noteTier (.reportCut (.withBoot (.resolve (.newChallenge (.clearUnits (.ringsThrough hc.ledgerCut)))) (by intro; rfl))))

/-! ## Requests and their answers -/

theorem answer {status detail total : Nat} {value : List Byte} : Kept s (t.answer status detail total value) := by
  unfold State.answer
  split
  · exact h
  · exact .ite (.nextFrame (.ite (.enterReset (.respond (.endSegments (h.withPor (by intro; rfl))))) (.respond (.endSegments (h.withPor
      (by intro; rfl)))))) (h.withPor (by intro; rfl))

theorem stage {n : Word} {w : StagedWrite} : Kept s (t.stage n w) := h.modSession

theorem lookWrite {f : InFrame} {r : Req} : LookKept s (t.lookWrite f r) := by
  unfold State.lookWrite
  split
  · exact h
  · extract_lets whole u
    have hwhole (v : State) (bs : List Byte) (hv : Kept s v) : LookKept s (whole v bs) := by
      simp only [whole]
      split
      · exact .ite hv (.ite hv hv)
      · split
        · exact .ite hv hv
        · exact hv
    clear_value whole
    split
    · exact .ite (hwhole _ _ h) (.ite h h.stage)
    · have hu : Kept s u := h.dropStaged
      exact .ite hu (.ite (hwhole _ _ hu) hu.stage)

theorem serveWrite {own : Nat → Nat → Bool} {act : State → InFrame → Req → List Byte → Ans}
    (hact : ∀ u f r bs, Kept s u → AnsKept s (act u f r bs)) : Kept s (t.serveWrite own act) := by
  unfold State.serveWrite
  split
  · exact h
  · refine .ite h ?_
    split
    · next _ _ heq2 =>
        exact .answer (h.lookWrite.refuse heq2)
    · next _ heq2 =>
        exact .answer (h.lookWrite.staged heq2)
    · next _ _ heq2 =>
        exact .answer (hact _ _ _ _ (h.lookWrite.value heq2))

theorem onTrue {act : State → InFrame → Req → List Byte → Ans} {f : InFrame} {r : Req} {bs : List Byte}
    (hact : ∀ u f r bs, Kept s u → AnsKept s (act u f r bs)) : AnsKept s (onTrue act t f r bs) :=
  .ite (hact _ _ _ _ h) h.ans

theorem accept {f : InFrame} {r : Req} {bs : List Byte} {start : State → Word → State} (hstart : ∀ u e, Kept s u → Kept s (start u e)) :
    AnsKept s (t.accept f r bs start) :=
  .ite h.ans (Kept.ans (hstart _ _ (h.withPor (by intro; rfl))))

/-! ## Ports and rings -/

theorem bulkPull {p : Nat} : Kept s (t.bulkPull p) := by
  unfold State.bulkPull
  refine .ite h ?_
  split
  · exact h
  · exact .ite h (.modPort (.modCmd (.ite h.readDone h.countFlash)))

theorem startDrain {p : Nat} : Kept s (t.startDrain p) := h.modPort
theorem portLose {p : Nat} {lost : List Nat} : Kept s (t.portLose p lost) := h.of_sweep (.portLose (.refl t) ..)

theorem autoBypass {r : Nat} : Kept s (t.autoBypass r) := by
  unfold State.autoBypass
  split
  · exact h
  · exact .ite h (.logEvent (.foldl h.modRing _ fun _ _ hu => hu.portLose.modPort))

theorem portBypass {p : Nat} : Kept s (t.portBypass p) := by
  unfold State.portBypass
  split
  · exact h.autoBypass
  · exact h

theorem ringOpens {p : Nat} : Kept s (t.ringOpens p) := by
  unfold State.ringOpens
  split
  · exact h
  · exact .ite h.serviceStop h

theorem portDown {p fault : Nat} : Kept s (t.portDown p fault) :=
  .ite (.portBypass (.modPort (.portLose (.ite h.ringOpens h)))) (.modPort (.portLose (.ite h.ringOpens h)))

theorem portOff {p : Nat} : Kept s (t.portOff p) := h.of_sweep (.portOff (.refl t) ..)
theorem leaveMove {p : Nat} : Kept s (t.leaveMove p) := h.of_sweep (.leaveMove (.refl t) ..)
theorem portBlockOff {p : Nat} : Kept s (t.portBlockOff p) := .ite h.setBlock h
theorem drainEnd {p : Nat} : Kept s (t.drainEnd p) := h.portOff.portBlockOff.leaveMove

theorem portFail {p fault : Nat} : Kept s (t.portFail p fault) := by
  unfold State.portFail
  split
  · exact h.portDown
  · exact h.drainEnd
  · exact h

theorem trainPort {p : Nat} : Kept s (t.trainPort p) := .ite h.modPort.portDown h.modPort
theorem portTrain {p : Nat} : Kept s (t.portTrain p) := .ite h.trainPort h
theorem portRetrain {p : Nat} : Kept s (t.portRetrain p) := .ite h.trainPort h
theorem trainTimeout {p : Nat} : Kept s (t.trainTimeout p) := .ite h.portDown h

theorem peerIdentity {p : Nat} : Kept s (t.peerIdentity p) := by
  unfold State.peerIdentity
  split
  · exact h
  · exact .ite h (.ite h.modPort (.ite h.modPort.portDown h.modPort.modPort))

theorem creditReturn {p : Nat} : Kept s (t.creditReturn p) := by
  unfold State.creditReturn
  split
  · exact h
  · exact h.modPort

theorem sendFrame {p : Nat} {f : PortFrame} : Kept s (t.sendFrame p f) := .emit (.modPort (.ite h h.bumpBw))
theorem sendNew {p kind : Nat} {flits : List (BitVec 2048)} : Kept s (t.sendNew p kind flits) := h.modPort.sendFrame

theorem frameTransmit {p : Nat} : Kept s (t.frameTransmit p) := by
  unfold State.frameTransmit
  refine .ite h ?_
  split
  · exact h.modPort.sendFrame
  · extract_lets u x idle recs n m stall v k w
    have hu : Kept s u := h.bulkPull
    have hidle : Kept s idle := hu.sendFrame
    have hv : Kept s v := .ite hu (.bumpPort hu.draw)
    have hw : Kept s w := .ite hv (.bumpPort hv.draw)
    clear_value u v w idle
    refine .ite hidle (.ite hu.modPort.sendNew.bumpPort (.ite hidle (.ite hu.modPort.sendNew.bumpPort ?_)))
    exact .ite hv.modPort.sendNew.bumpPort hw.sendFrame

theorem deliver {p kind : Nat} {flits : List (BitVec 2048)} : Kept s (t.deliver p kind flits) := by
  unfold State.deliver
  dsimp only
  split
  · exact h.modPort.bumpPort
  · exact h.modPort.bumpPort
  · exact h.modPort
  · exact h

theorem frameReceive {p : Nat} {f : PortFrame} : Kept s (t.frameReceive p f) := by
  unfold State.frameReceive
  extract_lets u hd v x asked w y
  have hu : Kept s u := .ite h (.bumpPort (.modPort h.draw))
  have hv : Kept s v := hu.modPort
  have hw : Kept s w := .ite hv.modPort hv
  have hy : Kept s y := hw.modPort.bumpBw
  clear_value u v w y
  exact .ite h (.ite hu.modPort (.ite hv.portFail (.ite hw (.ite hw.modPort hy.deliver))))

theorem cdrLoss {p lane : Nat} : Kept s (t.cdrLoss p lane) := .ite h.modPort.portFail h
theorem serWindow {p : Nat} {errs : List Nat} : Kept s (t.serWindow p errs) := .ite h (.ite h.modPort h.modPort.portFail)

theorem localFault {p : Nat} : Kept s (t.localFault p) := by
  unfold State.localFault
  split
  · exact h.portDown
  · exact h.portDown
  · exact h.drainEnd
  · exact h.modPort

theorem portDrained {p : Nat} : Kept s (t.portDrained p) := .ite h.drainEnd h
theorem drainTimeout {p : Nat} : Kept s (t.drainTimeout p) := .ite h.drainEnd h

theorem bypassDone {r : Nat} : Kept s (t.bypassDone r) := by
  unfold State.bypassDone
  split
  · exact .foldl h.modRing _ fun _ _ hu => hu.portTrain
  · exact h.modRing
  · exact h

theorem selfTested {r : Nat} : Kept s (t.selfTested r) := .foldl h _ fun _ _ hu => hu.modPort
theorem startJoin {r : Nat} : Kept s (t.startJoin r) := .ite h.modRing h
theorem startLeave {r : Nat} : Kept s (t.startLeave r) := h.of_sweep (.startLeave (.refl t) ..)
theorem ringJoin : Kept s t.ringJoin := h.serveWrite fun _ _ _ _ hu => .ite hu.ans (.ite hu.selfTested.ans hu.setDv.startJoin.ans)
theorem ringLeave : Kept s t.ringLeave := h.serveWrite fun _ _ _ _ hu => .ite hu.ans hu.setDv.startLeave.ans
theorem bulkStarved {p : Nat} : Kept s (t.bulkStarved p) := .ite h h.modPort.logNote

theorem bulkSend : Kept s t.bulkSend :=
  h.serveWrite fun _ _ _ _ hu => .ite hu.ans (.ite hu.ans (.ite hu.ans (.ite hu.ans (hu.accept fun _ _ hv => hv))))

theorem portFence : Kept s t.portFence :=
  h.serveWrite fun _ _ _ _ hu => .ite hu.ans hu.ringOpens.modPort.portLose.modPort.leaveMove.logEvent.noteTier.ans

theorem portUnfence : Kept s t.portUnfence :=
  h.serveWrite fun _ _ _ _ hu => .ite hu.ans (.ite hu.ans (.ite hu.modPort.ans (.ite hu.modPort.modPort.portBypass.ans hu.modPort.modPort.ans)))

end Kept

end Sys2Proof.Machine

/-! PROOFS. The factory ledger, the fuse counter and the memories' form (R439, R463): what an instruction's start and work keep. -/

namespace Sys2Proof.Machine

namespace Kept
variable {s t : State} (h : Kept s t)
include h

/-! ## The start of an instruction -/

theorem enterTab {c : Nat} {job : Job} {e : QEntry} {x : Option Tab} {cw : List Rng} {acc : List Nat} :
    KeptSome s id (t.enterTab c job e x cw acc) := by
  unfold State.enterTab
  refine ⟨fun {u} hu => ?_⟩
  split at hu
  · injection hu with hu
    subst hu
    exact h
  · dsimp only at hu
    split at hu
    · cases hu
    · injection hu with hu
      subst hu
      exact .modEntry (.touchCore h (by intro; rfl))

theorem finishAt {c : Nat} {e : QEntry} {tab : Option Tab} {istat : Byte} : Kept s (t.finishAt c e tab istat) := h.endWait.modEntry

theorem makeClaim {c : Nat} {e : QEntry} {l : Look} : Kept s (t.makeClaim c e l) := by
  unfold State.makeClaim
  dsimp only
  split
  · exact .modEntry (h.touchCore (by intro; rfl))
  · refine .modEntry ?_
    refine .touchCore ?_ (by intro; rfl)
    refine .countAtomic ?_
    refine .bumpCluster ?_
    split
    · exact h.scWrite.bumpCluster
    · exact h
  · exact h

theorem skipClaim {c : Nat} {e : QEntry} : Kept s (t.skipClaim c e) := by
  unfold State.skipClaim
  refine .ite h ?_
  split
  · exact h.makeClaim
  · exact h

theorem loadWeights {c : Nat} {e : QEntry} {f : Fam} {x : Option Tab} : LoadKept s (t.loadWeights c e f x) := by
  unfold State.loadWeights
  dsimp only
  split
  · trivial
  · split
    · trivial
    · split
      · exact h.finishAt
      · exact h.beginWait
      · split
        · trivial
        · exact h.coreAccFault
        · split
          · exact h.refetch.countUe.beginWait
          · exact h.coreAccFault

theorem mergeLoads {c : Nat} {k : KeptTile} : Kept s (t.mergeLoads c k) := .bumpCluster (.foldl h _ fun _ _ hu => hu.touchCore (by intro; rfl))
theorem tileRead {c : Nat} {k : KeptTile} : Kept s (t.tileRead c k) := h.readDone.countBurst.bumpCluster.mergeLoads

theorem startReuse {c : Nat} {job : Job} {e : QEntry} : Kept s (t.startReuse c job e) := by
  unfold State.startReuse
  dsimp only
  split
  · exact h.coreAccFault
  · exact .modEntry (.readDone (.ite (.bumpCore (h.touchCore (by intro; rfl))) (h.touchCore (by intro; rfl))))

theorem skipScratch {c : Nat} {job : Job} {e : QEntry} {f : Fam} {b : ReuseBlock} {tab : Option Tab} : Kept s (t.skipScratch c job e f b tab) := by
  unfold State.skipScratch
  refine .ite h ?_
  refine .forgetStore ?_
  split
  · exact h
  · exact h.touchCore (by intro; rfl)

theorem copyOut {c : Nat} {m : Mem} {r : IterRngs} : Kept s (t.copyOut c m r) := by
  unfold State.copyOut
  split
  · exact h.putStore
  · exact h

theorem startSkipped {c : Nat} {job : Job} {x : Core} {e : QEntry} {f : Fam} : Kept s (t.startSkipped c job x e f) := by
  unfold State.startSkipped
  refine .ite h ?_
  refine .ite h.skipClaim.finishAt ?_
  refine .ite h ?_
  refine .ite h.coreFault ?_
  split
  · exact h
  · next _ heq =>
      exact .finishAt (.skipClaim (.copyOut (h.enterTab.some heq)))

theorem startSkip {c : Nat} {job : Job} {x : Core} {e : QEntry} {f : Fam} {b : ReuseBlock} {ahead : List QEntry} {done : State → State}
    (hdone : ∀ u, Kept s u → Kept s (done u)) : Kept s (t.startSkip c job x e f b ahead done) := by
  unfold State.startSkip
  refine .ite h ?_
  refine .ite h ?_
  refine .ite h.coreFault ?_
  split
  · exact h
  · next _ heq2 =>
      exact hdone _ (.copyOut (.skipScratch (h.enterTab.some heq2)))

theorem startSync {c : Nat} {job : Job} {e : QEntry} {f : Fam} {tab : Option Tab} : Kept s (t.startSync c job e f tab) := by
  unfold State.startSync
  refine .ite ?_ h.finishAt
  dsimp only
  split
  · exact h.modEntry.barArrive
  · exact h.modEntry.touchCore (by intro; rfl)

theorem launch {c : Nat} {job : Job} {e : QEntry} {f : Fam} {tab : Option Tab} {its : List Nat} {r : IterRngs} {k : Load} :
    Kept s (t.launch c job e f tab its r k) := by
  unfold State.launch
  split
  · exact h
  · next _ heq =>
      refine .ite ?_ ?_
      · refine .startReuse ?_
        split
        · exact .ite (.tileRead (.touchCore (h.enterTab.some heq) (by intro; rfl))) (.touchCore (h.enterTab.some heq) (by intro; rfl))
        · exact .ite (.touchCore (h.enterTab.some heq) (by intro; rfl)) (h.enterTab.some heq)
      · refine .modEntry ?_
        refine .endWait ?_
        refine .openOp ?_
        split
        · exact .ite (.tileRead (.touchCore (h.enterTab.some heq) (by intro; rfl))) (.touchCore (h.enterTab.some heq) (by intro; rfl))
        · exact .ite (.touchCore (h.enterTab.some heq) (by intro; rfl)) (h.enterTab.some heq)

theorem startBody {c : Nat} {job : Job} {e : QEntry} {f : Fam} {ahead : List QEntry} {j clip : Option Nat} {live : Bool} {code : Byte}
    {claim : State → State} (hclaim : ∀ u, Kept s u → Kept s (claim u)) : Kept s (t.startBody c job e f ahead j clip live code claim) := by
  unfold State.startBody
  refine .ite h ?_
  refine .ite h ?_
  refine .ite h.coreFault ?_
  refine .ite h.coreFault ?_
  refine .ite (.finishAt (hclaim _ h)) ?_
  refine .ite (.finishAt (hclaim _ h)) ?_
  split
  · next _ heq2 =>
      exact ((Kept.loadWeights (hclaim _ h)).stop heq2)
  · exact .ite (hclaim _ h) (.launch (hclaim _ h))

theorem startPorts {c : Nat} {job : Job} {e : QEntry} {f : Fam} {ahead : List QEntry} : Kept s (t.startPorts c job e f ahead) := by
  unfold State.startPorts
  dsimp only
  split
  · exact h
  · exact h.startBody fun _ hu => hu
  · exact h.startBody fun _ hu => hu.makeClaim
  · exact h.startBody fun _ hu => hu.makeClaim

theorem startLegal {c : Nat} {job : Job} {x : Core} {e : QEntry} {f : Fam} : Kept s (t.startLegal c job x e f) := by
  unfold State.startLegal
  refine .ite h ?_
  refine .ite h ?_
  refine .ite h ?_
  refine .ite h ?_
  dsimp only
  split
  · exact h.startSkip fun _ hu => .ite hu.startSync hu.modEntry
  · exact .ite h.startSync (.ite h h.startPorts)

theorem tileStart {c : Nat} : Kept s (t.tileStart c) := by
  unfold State.tileStart
  split
  · exact h
  · dsimp only
    split
    · exact h
    · refine .ite h ?_
      split
      · exact h.coreFault
      · split
        · exact h.coreAccFault
        · exact .ite h.coreFault (.ite h.startSkipped h.startLegal)

theorem startFam {c : Nat} {f : Fam} : Kept s (t.startFam c f) := by
  unfold State.startFam
  split
  · exact .ite h.tileStart h
  · exact h

theorem lineFill {c : Nat} : Kept s (t.lineFill c) := by
  unfold State.lineFill
  split
  · exact h
  · dsimp only
    split
    · exact h
    · split
      · exact h
      · refine .ite h (.modEntry (h.modCore _ fun x hx => ?_))
        exact List.foldlRecOn (motive := fun y : Core => y.memWf = true) _ _ hx fun _ hy p _ => memWf_fillSlot _ _ p hy

/-! ## The work of an instruction -/

theorem countBit {c : Nat} {b : Bool} {i : Nat} : Kept s (if b then t.bumpCoreFree c i else t) := .ite h.bumpCoreFree h

theorem countPorts {c : Nat} {f : Fam} : Kept s (t.countPorts c f) := by
  unfold State.countPorts
  exact .countBit (.countBit (.countBit (.countBit h)))

theorem complete {c : Nat} {e : QEntry} {f : Fam} {w : Writes} : Kept s (t.complete c e f w) := h.applyWrites.countPorts.finish
theorem keepAfter {c d : Nat} : Kept s (t.keepAfter c d) := .ite h (h.touchCore (by intro; rfl))

theorem adapterTile {k d : Nat} : KeptEither s (fun _ => t) Prod.snd (t.adapterTile k d) := by
  have hread : Kept s ((t.readDone (adUp (t.adapterRec (laAdapter d)) + laUt d * tileBytes (adFmt (t.adapterRec (laAdapter d))))
      (tileBytes (adFmt (t.adapterRec (laAdapter d))))).countBurst k 10
      (adUp (t.adapterRec (laAdapter d)) + laUt d * tileBytes (adFmt (t.adapterRec (laAdapter d))))
      (tileBytes (adFmt (t.adapterRec (laAdapter d))))) :=
    h.readDone.countBurst
  unfold State.adapterTile
  dsimp only
  split
  · exact hread
  · exact h

theorem forgetPair {c : Nat} {e : QEntry} : Kept s (t.forgetPair c e) := by
  unfold State.forgetPair
  refine .ite (.modCore h.stamp _ fun x hx => ?_) h
  rw [Core.memWf_iff] at hx ⊢
  exact ⟨hx.1, Mem.wf_foldl (fun m _ hm => Mem.wf_forget m _ _ _ hm) _ hx.2⟩

theorem runMma {c : Nat} : Kept s (t.runMma c) := by
  unfold State.runMma
  split
  · exact h
  · exact h.complete.keepAfter

theorem runMmaLa {c : Nat} : Kept s (t.runMmaLa c) := by
  unfold State.runMmaLa
  split
  · exact h
  · split
    · exact h.coreAccFault
    · dsimp only
      split
      · next _ _ heq =>
          exact .keepAfter (.complete (.forgetPair (h.readDone.adapterTile.ok heq)))
      · exact h.readDone.coreAccFault
      · exact h.readDone.countUe.finish.keepAfter

theorem runConv {c : Nat} {f : Fam} : Kept s (t.runConv c f) := by
  unfold State.runConv
  split
  · exact h
  · exact h.complete

theorem forgetAcc {c rows : Nat} : Kept s (t.forgetAcc c rows) := by
  unfold State.forgetAcc
  refine .modCore h.stamp _ fun x hx => ?_
  rw [Core.memWf_iff] at hx ⊢
  exact ⟨hx.1, Mem.wf_forget _ _ _ _ hx.2⟩

theorem attnStoreAll {c : Nat} {f : Fam} {e : QEntry} : Kept s (t.attnStoreAll c f e) := h.forgetAcc.applyWrites.bumpCore

theorem runAttn {c : Nat} {f : Fam} : Kept s (t.runAttn c f) := by
  unfold State.runAttn
  split
  · exact h
  · exact h.attnStoreAll.countPorts.finish

theorem runVector {c : Nat} {f : Fam} {g : Core → QEntry → Writes} : Kept s (t.runVector c f g) := by
  unfold State.runVector
  split
  · exact h
  · exact h.complete

theorem runReuse {c : Nat} : Kept s (t.runReuse c) := by
  unfold State.runReuse
  split
  · exact h
  · exact h.modEntry.countPorts.finish

theorem devRead {c : Nat} {e : QEntry} {a n : Nat} : DevKept s (t.devRead c e a n) := by
  unfold State.devRead
  dsimp only
  split
  · exact h.finish
  · exact h.beginWait
  · split
    · exact Kept.ite h.readDone.countNarrow h.readDone.countBurst
    · exact h.coreAccFault

theorem readRows {c : Nat} {e : QEntry} {l : List MoveRow} : KeptEither s id Prod.fst (t.readRows c e l) := by
  induction l generalizing t with
  | nil => exact h
  | cons r l ih =>
    have hread : DevKept s (if vSrcCs e.d then .bytes ((t.core c).store.readBytes r.src (vRBytes e.d)) t else t.devRead c e r.src (vRBytes e.d)) := by
      split
      · exact h
      · exact h.devRead
    unfold State.readRows
    dsimp only
    split
    · next heq => exact hread.stop heq
    · next heq =>
      have hrest := ih (hread.bytes heq)
      split
      · next hend => exact hrest.error hend
      · next hend => exact (hrest.ok hend :)

theorem writeDev {c : Nat} {e : QEntry} {l : List (Nat × List Byte)} : KeptEither s id id (t.writeDev c e l) := by
  induction l generalizing t with
  | nil => exact h
  | cons p l ih =>
    unfold State.writeDev
    split
    · next heq => exact ih (.countBurst (h.memWrite.ok heq))
    · next heq => exact Kept.coreAccFault (h.memWrite.error heq)

theorem runMove {c : Nat} : Kept s (t.runMove c) := by
  unfold State.runMove
  split
  · exact h
  · dsimp only
    split
    · next _ heq =>
        exact (h.readRows.error heq)
    · next _ _ heq =>
        refine .ite (.complete (h.readRows.ok heq)) ?_
        split
        · next _ heq2 =>
            exact .finish (.countPorts (((Kept.writeDev (h.readRows.ok heq)).ok heq2)))
        · next _ heq2 =>
            exact ((Kept.writeDev (h.readRows.ok heq)).error heq2)

theorem gathRows {c : Nat} {e : QEntry} {l : List Nat} : KeptEither s id Prod.fst (t.gathRows c e l) := by
  induction l generalizing t with
  | nil => exact h
  | cons r l ih =>
    unfold State.gathRows
    dsimp only
    split
    · next heq => exact h.devRead.stop heq
    · next heq =>
      have hrest := ih (h.devRead.bytes heq)
      split
      · next hend => exact hrest.error hend
      · next hend => exact (hrest.ok hend :)

theorem runGath {c : Nat} : Kept s (t.runGath c) := by
  unfold State.runGath
  split
  · exact h
  · split
    · next _ heq =>
        exact (h.gathRows.error heq)
    · next _ _ heq =>
        exact .complete (h.gathRows.ok heq)

theorem runTblLoad {c : Nat} : Kept s (t.runTblLoad c) := by
  unfold State.runTblLoad
  split
  · exact h
  · next e _ =>
    have hread : DevKept s (if tSrcCs e.d then .bytes ((t.core c).store.readBytes (tSrc e.d) (64 + 32 * tSegs e.d)) t
        else t.devRead c e (tSrc e.d) (64 + 32 * tSegs e.d)) := by
      split
      · exact h
      · exact h.devRead
    dsimp only
    split
    · next heq => exact hread.stop heq
    · next heq =>
      have hu := hread.bytes heq
      split
      · exact hu.countPorts.modEntry.finish
      · exact hu.countPorts.finish

theorem copyRoom {old new n : Nat} : KeptEither s Prod.snd id (t.copyRoom old new n) := by
  unfold State.copyRoom
  split
  · split
    · exact h
    · exact h.readDone.memWrite
  · exact h

theorem decideRooms {job : Job} {stream g : Nat} {x : GroupHdr} {l : List Nat} : DecidedKept s (t.decideRooms job stream g x l) := by
  induction l generalizing t with
  | nil => exact h
  | cons pos l ih =>
    unfold State.decideRooms
    extract_lets put
    have hput (u : State) (k ord room : Nat) (d : RoomDecision) (hu : Kept s u) : DecidedKept s (put u k ord room d) := by
      simp only [put]
      generalize hv : (if d = .overwrite then u.memWriteHub _ _ else if d = .inPlace then u else u.memWriteHub _ _ : State) = v
      have hw : Kept s v := hv ▸ .ite hu.memWriteHub (.ite hu hu.memWriteHub)
      have hrest := ih hw
      split
      · next heq => exact hrest.holds heq
      · exact hrest
    clear_value put
    split
    · trivial
    · trivial
    · exact hput _ _ _ _ _ h
    · exact hput _ _ _ _ _ h
    · split
      · trivial
      · next heq => exact hput _ _ _ _ _ (h.takeRoom.some heq)
    · split
      · trivial
      · next heq =>
        split
        · trivial
        · next hcopy => exact hput _ _ _ _ _ (.dirAdd ((Kept.copyRoom (h.takeRoom.some heq)).ok hcopy))

theorem scatWrite {c : Nat} {e : QEntry} {size : Nat} {hs : List (RoomHold × Nat)} : KeptEither s id id (t.scatWrite c e size hs) := h.writeDev

theorem runScat {c : Nat} : Kept s (t.runScat c) := by
  unfold State.runScat
  split
  · exact h
  · next e _ =>
    have hwrite (u : State) (hs : List RoomHold) (hu : Kept s u) :
        Kept s (match u.scatWrite c e (t.pool (t.groupHdr (dStream e.d) (kBgrp e.d)).pool).size hs.zipIdx with
          | .ok v => ((v.modEntry c e.ord fun q => { q with rooms := hs }).countPorts c .scatKv).finish c e.ord iOk
          | .error v => v.modEntry c e.ord fun q => { q with rooms := hs }) := by
      split
      · next heq => exact .finish (.countPorts (.modEntry (hu.scatWrite.ok heq)))
      · next heq => exact .modEntry (hu.scatWrite.error heq)
    refine .ite h.finish (.ite h.coreFault ?_)
    split
    · exact h.coreAccFault
    · have hu : Kept s (t.readDone (t.dirBase (dStream e.d)) 64) := h.readDone
      refine .ite hu.finish (.ite hu.finish (.ite (hwrite _ _ hu) ?_))
      split
      · exact hu.coreAccFault
      · have hv {l : List (Nat × Nat)} : Kept s (l.foldl (fun (v : State) r => v.readDone r.1 r.2) (t.readDone (t.dirBase (dStream e.d)) 64)) :=
          .foldl hu _ fun _ _ hu => hu.readDone
        dsimp only
        split
        · exact hv
        · exact hv.finish
        · exact hv.park.finish
        · exact hv.coreAccFault
        · next heq => exact hwrite _ _ (.bumpCluster (hv.decideRooms.holds heq))

theorem commitRooms {c : Nat} {ord : Word} {stream : Nat} {hs : List RoomHold} : Kept s (t.commitRooms c ord stream hs) := by
  unfold State.commitRooms
  refine .foldl h _ fun u x hu => ?_
  extract_lets make
  have hmake (done : State → State) (hdone : ∀ v, Kept s v → Kept s (done v)) : Kept s (make u done) := by
    simp only [make]
    split
    · exact hu.coreAccFault.returnHold
    · exact .ite hu.coreAccFault.returnHold (hdone _ hu.readDone.memWriteCore.modRoomRef.setRoomState.dirAddCore)
  clear_value make
  split
  · exact hmake _ fun _ hv => hv
  · exact hmake _ fun _ hv => .ite hv.coreAccFault hv.releaseRoom
  · exact hu

end Kept

end Sys2Proof.Machine

/-! PROOFS. The factory ledger, the fuse counter and the memories' form (R439, R463): what retirement and the exchange keep. -/

namespace Sys2Proof.Machine

namespace Kept
variable {s t : State} (h : Kept s t)
include h

/-! ## Retirement, commits and tabs -/

theorem retireWork {c : Nat} {job : Job} {e : QEntry} {istat : Byte} : Kept s (t.retireWork c job e istat).1 := by
  have hr : Kept s (t.exchRetire c job e) := h.exchRetire
  unfold State.retireWork
  generalize t.exchRetire c job e = u at hr ⊢
  dsimp only
  split
  · split
    · dsimp only
      refine hr.modCore c fun x hx => ?_
      split
      · exact hx
      · exact hx
    · exact hr
  · split
    · split
      · exact .ite hr.commitRooms hr
      · exact .foldl hr _ fun _ _ hu => hu.returnHold
    · exact hr

theorem decideChk {c : Nat} {job : Job} {e : QEntry} : KeptEither s id id (t.decideChk c job e) := by
  have hdecided {u : State} (hu :
      Kept s u) : Kept s (u.modCore c fun x => { x with blocks := decideBlock x.blocks e.ord.toNat (e.outcome.getD false) }) :=
    hu.touchCore (by intro; rfl)
  unfold State.decideChk
  dsimp only
  split
  · exact hdecided h
  · split
    · exact h.coreFault
    · split
      · exact h
      · next heq => exact hdecided (Kept.copyOut (h.enterTab.some heq))

theorem tileRetire {c : Nat} : Kept s (t.tileRetire c) := by
  have hchk {job : Job} {e : QEntry} {istat : Byte} :
      KeptEither s id id (if e.fam = some .reuseChk ∧ istat = iOk then t.decideChk c job e else .ok t) := by
    split
    · exact h.decideChk
    · exact h
  unfold State.tileRetire
  split
  · exact h
  · dsimp only
    split
    · exact h
    · refine .ite h ?_
      split
      · split
        · exact .modEntry (h.touchCore (by intro; rfl))
        · split
          · next heq => exact hchk.error heq
          · next heq =>
            have hu := hchk.ok heq
            split
            · exact .modEntry (.touchCore hu (by intro; rfl))
            · exact .retireEntry (.retireWork hu)
      · exact h

theorem resolveOwn {c : Nat} {job : Job} {e : QEntry} : Kept s (t.resolveOwn c job e) := h.retireEntry

theorem tallySite {e : QEntry} {voided : Bool} : Kept s (t.tallySite e voided) := by
  unfold State.tallySite
  exact h.withPwr

theorem settleTab {c : Nat} {job : Job} {x : Tab} {e : QEntry} : Kept s (t.settleTab c job x e) := by
  unfold State.settleTab
  extract_lets a b u gone v w
  have ha : Kept s a := .touchCore h (by intro; rfl)
  have hb : Kept s b := .tallySite (.bumpCore (.resolveOwn ha))
  have hu : Kept s u := .foldl hb _ fun _ _ hu => hu.makeEffect
  have hv : Kept s v := .modCore hu _ fun y hy => Core.memWf_of_mems (mems_foldl_closeClaim gone _) hy
  have hw : Kept s w := .foldl hv _ fun _ _ hu => hu.sampleDone
  exact .touchCore hw (by intro; rfl)

theorem voidTab {c : Nat} {job : Job} {tab : Tab} {e : QEntry} {reuse : Bool} : Kept s (t.voidTab c job tab e reuse) :=
  .tallySite (.bumpCore (.resolveOwn (h.touchCore (by intro; rfl))))

theorem tabResolve {c : Nat} : Kept s (t.tabResolve c) := by
  unfold State.tabResolve
  split
  · exact h
  · dsimp only
    split
    · exact h
    · split
      · exact .ite (.governed h.settleTab) h.voidTab
      · exact h

theorem tabLogRestore {c : Nat} : Kept s (t.tabLogRestore c) := .ite (h.modCore _ fun _ => memWf_restoreLog) h

theorem applyProgress {job : Job} {p : PendPost} : Kept s (t.applyProgress job p) := by
  unfold State.applyProgress
  split
  · exact h
  · split
    · exact h.setProg.bumpCluster
    · exact h.bumpCore.bumpCluster

theorem putPost {c k : Nat} {p : PendPost} {x : Core} (e : (t.core c).popPost k = some (p, x)) : Kept s (t.modCore c fun _ => x) :=
  h.modCoreOf fun hs _ _ => memWf_popPost e (all_mget (P := Core.memWf) (d := {}) c (h.wf hs).cores (by decide))

theorem coreSyncPost {c : Nat} : Kept s (t.coreSyncPost c) := by
  unfold State.coreSyncPost
  split
  · next heq => exact .applySync (h.putPost heq)
  · exact h

theorem coreProgressPost {c : Nat} : Kept s (t.coreProgressPost c) := by
  unfold State.coreProgressPost
  split
  · next heq => exact .applyProgress (h.putPost heq)
  · exact h

theorem weightReady {c : Nat} : Kept s (t.weightReady c) := by
  unfold State.weightReady
  split
  · exact .ite h.endWait h
  · exact h

theorem tierExpiry {c : Nat} : Kept s (t.tierExpiry c) := by
  unfold State.tierExpiry
  split
  · exact h.endWait.modEntry.tileRetire
  · exact h

/-! ## Exchange messages -/

theorem exPost {e l src dst head : Nat} {bs : List Byte} : Kept s (t.exPost e l src dst head bs) := .ite h.withNet (.ite h.modPort h.modPort)
theorem setOp {o : ExOp} : Kept s (t.setOp o) := h.withNet

theorem exFinish {o : ExOp} {e : Nat} : Kept s (t.exFinish o e) := by
  unfold State.exFinish
  dsimp only
  split
  · refine .ite h ?_
    refine .ite h.applyWrites.countPorts.finish.setOp ?_
    split
    · next _ heq =>
        exact .setOp (.finish (.countPorts (h.writeDev.ok heq)))
    · next _ heq =>
        exact (h.writeDev.error heq)
  · exact h

theorem exSend {o : ExOp} {e k l base : Nat} {bs : List Byte} {a n : Nat} : Kept s (t.exSend o e k l base bs a n) :=
  .foldl h _ fun _ _ hu => .foldl hu _ fun _ _ hv => hv.exPost

theorem exEnter {o : ExOp} {e k l : Nat} : Kept s (t.exEnter o e k l).1 := by
  unfold State.exEnter
  split
  · exact h.abortGroup
  · split
    · exact h.coreFault
    · exact h.setOp.exSend

theorem exGo {n : Nat} {enter : Bool} {o : ExOp} : Kept s (State.exGo n enter t o) := by
  induction n generalizing t enter o with
  | zero => exact h
  | succ n ih =>
    unfold State.exGo
    dsimp only
    split
    · exact h.exFinish
    · next k l _ =>
      have hr : Kept s (if enter then t.exEnter o (t.routeEntry o.group) k l else (t, true)).1 := by
        split
        · exact h.exEnter
        · exact h
      refine .ite hr ?_
      split
      · exact hr
      · exact ih hr.setOp

theorem exBegin {job : JobId} {c : Nat} {ord : Word} {vec : List Byte} : Kept s (t.exBegin job c ord vec) := by
  unfold State.exBegin
  split
  · exact h
  · exact h.setOp.exGo

theorem computeX {c : Nat} {f : Fam} {d : Nat → Nat} {e : QEntry} : Kept s (t.computeX c f d e) := .ite h h.applyWrites.modEntry.keepAfter

theorem runMmaX {c : Nat} {f : Fam} {d : Nat → Nat} {vec : QEntry → Core → List Byte} : Kept s (t.runMmaX c f d vec) := by
  unfold State.runMmaX
  split
  · exact h
  · exact h.computeX.exBegin

theorem runMmaRs {c : Nat} : Kept s (t.runMmaRs c) := h.runMmaX
theorem runMmaAg {c : Nat} : Kept s (t.runMmaAg c) := h.runMmaX

theorem runMoveX {c : Nat} {f : Fam} : Kept s (t.runMoveX c f) := by
  unfold State.runMoveX
  split
  · exact h
  · split
    · next _ heq =>
        exact (h.readRows.error heq)
    · next _ _ heq =>
        exact .exBegin (h.readRows.ok heq)

theorem computeRelay {c : Nat} {e : QEntry} : Kept s (t.computeRelay c e) := .ite h h.attnStoreAll.modEntry

theorem runRelay {c : Nat} : Kept s (t.runRelay c) := by
  unfold State.runRelay
  split
  · exact h
  · dsimp only
    split
    · exact h.coreAccFault
    · exact .ite h.coreFault h.readDone.computeRelay.countPorts.finish

theorem exAccept {p : ExPart} : Kept s (t.exAccept p) := by
  unfold State.exAccept
  refine .ite h.withNet ?_
  split
  · exact h.withNet
  · extract_lets e u own v ops
    have hu : Kept s u := h.withNet
    have hv : Kept s v := hu.withNet
    clear_value u v
    exact .ite (.ite hu.abortGroup hu.relayLand) (.ite hu.abortGroup (.ite hv.abortGroup (.foldl hv _ fun _ _ hu => hu.exGo)))

theorem exchReceive {src : ExchSource} : Kept s (t.exchReceive src) := by
  unfold State.exchReceive
  split
  · dsimp only
    split
    · exact h
    · exact h.withNet.exAccept
  · dsimp only
    split
    · exact h.modPort
    · exact .ite (.ite h.modPort.modPort h.modPort) h.modPort.exAccept

theorem bulkTake {p : Nat} : Kept s (t.bulkTake p).2 := by
  unfold State.bulkTake
  dsimp only
  exact h.modPort

theorem migrationRecv {p : Nat} : Kept s (t.migrationRecv p) := by
  unfold State.migrationRecv
  split
  · exact h
  · refine .ite h ?_
    split
    · next _ _ _ _ heq =>
        exact .ite (.ite (.modPort (h.bulkTake.snd heq)) (h.bulkTake.snd heq)) (.exAccept (h.bulkTake.snd heq))
    · next _ _ heq =>
        exact (h.bulkTake.snd heq)

theorem segForward {o : ExOp} {e i : Nat} {p : Nat × Nat} {out : List Byte} : Kept s (t.segForward o e i p out) := by
  unfold State.segForward
  dsimp only
  split
  · exact h.abortGroup
  · refine .ite ?_ ?_
    · refine .exGo ?_
      refine .setOp ?_
      split
      · exact h.exSend
      · exact h
    · refine .setOp ?_
      split
      · exact h.exSend
      · exact h

theorem reduceSegment {d : Nat} {tag : Word} {xseq : Half} : Kept s (t.reduceSegment d tag xseq) := by
  unfold State.reduceSegment
  split
  · exact h
  · dsimp only
    split
    · split
      · exact h
      · exact h.segForward
    · exact h

theorem exchStall {d : Nat} {tag : Word} {xseq : Half} : Kept s (t.exchStall d tag xseq) := .ite h.logNote h

theorem relayForward {group : Nat} {step : Half} {fits : Nat} : Kept s (t.relayForward group step fits) := by
  unfold State.relayForward
  dsimp only
  split
  · exact h
  · refine .ite h ?_
    split
    · exact h.abortGroup
    · split
      · exact h.accFault
      · exact .withNet (.withPwr (.foldl h.readDone _ fun _ _ hu => hu.exPost))

theorem xTake {p kind : Nat} : KeptSome s (fun r => r.2.2) (t.xTake p kind) := by
  unfold State.xTake
  refine ⟨fun {r} hr => ?_⟩
  split at hr
  · cases hr
  · next rest _ =>
    have hp : Kept s (t.modPort p fun y => { y with ctrlIn := rest }) := h.modPort
    generalize t.modPort p _ = u at hp hr
    dsimp only at hr
    split at hr
    · injection hr with hr
      subst hr
      exact hp
    · injection hr with hr
      subst hr
      exact .ite hp.sendCtrl hp

theorem xbarArrive {p : Nat} : Kept s (t.xbarArrive p) := by
  unfold State.xbarArrive
  split
  · exact h
  · next _ _ _ heq =>
      refine .ite (h.xTake.some heq) ?_
      dsimp only
      split
      · exact .xArrive (.withNet (h.xTake.some heq))
      · exact .withNet (h.xTake.some heq)

theorem xbarRelease {p : Nat} : Kept s (t.xbarRelease p) := by
  unfold State.xbarRelease
  split
  · exact h
  · next _ _ _ heq =>
      split
      · exact .ite (.xRelease (h.xTake.some heq)) (.withNet (h.xTake.some heq))
      · exact .withNet (h.xTake.some heq)

theorem xbarAbort {p : Nat} : Kept s (t.xbarAbort p) := by
  unfold State.xbarAbort
  split
  · exact h
  · next _ _ _ heq =>
      exact .foldl (.withNet (h.xTake.some heq)) _ fun _ _ hv => .ite hv hv.abortGroup

theorem sendAbort {g : Nat} : Kept s (t.sendAbort g) := h.of_sweep (.sendAbort (.refl t) ..)
theorem routeWrite : Kept s t.routeWrite := h.serveWrite fun _ _ _ _ hu => .ite hu.ans (.ite hu.ans hu.withNet.dropHeldCtrl.setDv.modGroup.ans)

end Kept

end Sys2Proof.Machine

/-! PROOFS. The factory ledger, the fuse counter and the memories' form (R439, R463): what slots, queue pairs and the sequencer keep. -/

namespace Sys2Proof.Machine

namespace Kept
variable {s t : State} (h : Kept s t)
include h

/-! ## Slots, windows and flash -/

theorem cwLost {i cw : Nat} : Kept s (t.cwLost i cw) := by
  unfold State.cwLost
  exact h.modFlashCh.touchSlot (by intro; rfl)

theorem takeRegion {i : Nat} : Kept s (t.takeRegion i) := (h.othersOn (by exact fun _ hx => hx)).touchSlot (by intro; rfl)

theorem passRegion {i : Nat} : Kept s (t.passRegion i) := by
  unfold State.passRegion
  refine .ite h ?_
  split
  · exact h.takeRegion
  · exact h

theorem claimWindow {i : Nat} : Kept s (t.claimWindow i) := by
  unfold State.claimWindow
  exact .touchSlot (.ite h.takeRegion h) (by intro; rfl)

theorem releaseWindow {i n r : Nat} : Kept s (t.modSlot i fun x => x.releaseTo n r) :=
  h.modSlot _ fun x hx => (congrArg Mem.wf (stream_releaseTo x n r)).trans hx

theorem windowFill {i : Nat} : Kept s (t.windowFill i) := by
  unfold State.windowFill
  split
  · exact h
  · extract_lets r n u sl q f tag keeps g v
    have hu : Kept s u := h.releaseWindow
    have hv : Kept s v := .ite hu (hu.othersOn (by exact fun _ hx => hx))
    exact .ite hu (.setSlot hv fun hs => hu.slotWf hs)

theorem windowWrite {i a : Nat} {bs : List Byte} {rewrite : Bool} : Kept s (t.windowWrite i a bs rewrite).2 := by
  unfold State.windowWrite
  split
  · next heq => exact (h.memWriteOwn.ok heq)
  · next heq =>
    have hu : Kept s _ := h.memWriteOwn.error heq
    exact .ite_snd (.countErr hu) (.accFault hu)

theorem frameMark {i f b cw : Nat} {here : Bool} : Kept s (t.frameMark i f b cw here) := by
  unfold State.frameMark
  exact h.touchSlot (by intro; rfl)

theorem frameGot {i f b cw : Nat} {ok : Bool} : Kept s (t.frameGot i f b cw ok) := by
  unfold State.frameGot
  refine .ite h.frameMark ?_
  dsimp only
  split
  · next _ heq =>
      exact .frameMark (h.windowWrite.snd heq)
  · next _ heq =>
      exact .frameMark (h.windowWrite.snd heq)
  · next _ heq =>
      exact (h.windowWrite.snd heq)

theorem regionMark {i cw : Nat} {here : Bool} : Kept s (t.regionMark i cw here) := .ite (h.touchSlot (by intro; rfl)) (h.touchSlot (by intro; rfl))

theorem regionGot {i cw : Nat} {ok : Bool} : Kept s (t.regionGot i cw ok) := by
  unfold State.regionGot
  refine .ite h ?_
  refine .ite h.regionMark ?_
  dsimp only
  split
  · next _ heq =>
      exact .regionMark (h.windowWrite.snd heq)
  · next _ heq =>
      exact .regionMark (h.windowWrite.snd heq)
  · next _ heq =>
      exact (h.windowWrite.snd heq)

theorem countTries {sl : Slot} {cw n : Nat} : Kept s (t.countTries sl cw n) := h.modFlashCh

theorem codewordDone {i cw : Nat} {readable : Bool} {retries : Nat} : Kept s (t.codewordDone i cw readable retries) := by
  unfold State.codewordDone
  extract_lets u sl ok region want v w x
  have hu : Kept s u := by
    unfold u
    split
    · exact h.releaseWindow
    · exact h
  clear_value u
  refine .ite hu (.ite hu.jobFault ?_)
  have hw : Kept s w := Kept.bumpBw (Kept.countTries hu)
  have hx : Kept s x := .ite hw (Kept.cwLost hw)
  clear_value x want
  split
  · exact hx.frameGot
  · exact hx.regionGot

theorem onDemandFetch {c : Nat} : Kept s (t.onDemandFetch c) := .ite h (.foldl h _ fun _ _ hu => .ite hu (hu.touchSlot (by intro; rfl)))

theorem slotCreate : Kept s t.slotCreate :=
  h.serveWrite fun _ _ _ _ hu => .ite hu.ans (.ite hu.ans (.ite hu.ans (.ite hu.ans
    (Kept.ans (hu.stamp.modSlot _ fun _ _ => Mem.wf_forget _ _ _ _ Mem.wf_empty)))))

theorem slotWrite : Kept s t.slotWrite := h.serveWrite fun _ _ _ _ hu => .ite hu.ans (.ite hu.ans (.ite hu.ans (hu.accept fun _ _ hv => hv)))

theorem slotSeal : Kept s t.slotSeal :=
  h.serveWrite fun _ _ _ _ hu => .ite hu.ans (.ite hu.ans (.ite hu.ans (hu.accept fun _ _ hv => hv.touchSlot (by intro; rfl))))

theorem sealEnd {c : RunCmd} {unread : List Nat} {retried : List (Nat × Nat)} : Kept s (t.sealEnd c unread retried) := by
  unfold State.sealEnd
  extract_lets i sl a b bad u first wb whole invalid lost d e f g k l
  have ha : Kept s a := .foldl h _ fun _ _ hu => hu.countTries
  have hb : Kept s b := .foldl ha _ fun _ _ hu => hu.countTries
  have hu : Kept s u := hb.touchSlot (by intro; rfl)
  have hinvalid (v : State) (n : Nat) (hv : Kept s v) : Kept s (invalid v n) := hv.countFlash.endCmd
  clear_value u invalid
  refine .ite (hinvalid _ _ (.foldl hu _ fun _ _ hu => hu.cwLost)) ?_
  split
  · exact hinvalid _ _ hu
  · have he : Kept s e := .touchSlot hu.countFlash (by intro; rfl)
    have hf : Kept s f := .foldl he _ fun _ _ hu => hu.cwLost
    have hg : Kept s g := hf.touchSlot (by intro; rfl)
    have hk : Kept s k := .foldl hg _ fun _ _ hu => hu.endCmd
    have hl : Kept s l := .ite (hk.touchSlot (by intro; rfl)) hk
    exact hl.endCmd

theorem switchTo {n m : Nat} : AnsKept s (t.switchTo n m) := by
  unfold State.switchTo
  split
  · exact h.ans
  · exact h.setDv.ans

theorem slotSwitch : Kept s t.slotSwitch := h.serveWrite fun _ _ _ _ hu => .ite hu.ans (.ite hu.ans hu.switchTo)
theorem slotMapWrite : Kept s t.slotMapWrite := h.serveWrite fun _ _ _ _ hu => hu.switchTo

theorem slotErase : Kept s t.slotErase :=
  h.serveWrite fun _ _ _ _ hu => .ite hu.ans (.ite hu.ans (.ite hu.ans (hu.accept fun _ _ hv => .touchSlot (.foldl hv _ fun _ _ hw => hw.endCmd)
    (by intro; rfl))))

theorem freeSlot {i : Nat} : Kept s (t.freeSlot i) := by
  unfold State.freeSlot
  exact .foldl (h.modSlot _ fun _ _ => Mem.wf_empty) _ fun _ _ hu => hu.draw.modFlashCh

theorem eraseEnd {c : RunCmd} : Kept s (t.eraseEnd c) := h.freeSlot.endCmd

theorem fenceFlash {ch code : Nat} : Kept s (t.fenceFlash ch code) :=
  .noteTier (.logEvent (.foldl h.modFlashCh _ fun _ _ hu => .ite (hu.touchSlot (by intro; rfl)) hu))

theorem flashFence : Kept s t.flashFence := h.serveWrite fun _ _ _ _ hu => .ite hu.ans (.ite hu.ans hu.fenceFlash.ans)
theorem windowConfig : Kept s t.windowConfig :=
  h.serveWrite fun _ _ _ _ hu => .ite hu.ans (.ite hu.ans (Kept.ans (hu.setDv.touchSlot (by intro; rfl))))
theorem setAdapterBits {i v : Nat} : Kept s (t.setAdapterBits i v) := h.of_sweep (.setAdapterBits (.refl t) ..)
theorem setAdapterRefs {i n : Nat} : Kept s (t.setAdapterRefs i n) := h.of_sweep (.setAdapterRefs (.refl t) ..)

theorem adapterLoad : Kept s t.adapterLoad :=
  h.serveWrite fun _ _ _ _ hu => .ite hu.ans (.ite hu.hubGot.ans (.ite hu.hubGot.ans hu.hubGot.memWriteHub.setAdapterRefs.ans))

theorem adapterUnload : Kept s t.adapterUnload :=
  h.serveWrite fun _ _ _ _ hu => .ite hu.ans (.ite hu.hubGot.ans (.ite hu.setAdapterBits.ans hu.setAdapterBits.ans))

theorem releaseAdapter {i : Nat} {trainable incomplete : Bool} : Kept s (t.releaseAdapter i trainable incomplete) :=
  h.of_sweep (.releaseAdapter (.refl t) ..)

theorem slotDataRecv {p : Nat} : Kept s (t.slotDataRecv p) := by
  unfold State.slotDataRecv
  refine .ite h ?_
  split
  · next _ heq =>
      exact (h.bulkTake.snd heq)
  · next _ _ _ heq =>
      dsimp only
      split
      · exact .modPort (h.bulkTake.snd heq)
      · exact .modCmd (.program (h.bulkTake.snd heq))

/-! ## Queue pairs -/

theorem pairDrain {n : Nat} : Kept s (t.pairDrain n) := h.of_sweep (.pairDrain (.refl t) ..)
theorem writeCompletion {n : Nat} {c : Completion} : Kept s (t.writeCompletion n c) := h.of_sweep (.writeCompletion (.refl t) ..)

theorem completeFetched {n : Nat} {tag : JobId} {status : Byte} : Kept s (t.completeFetched n tag status) :=
  h.of_sweep (.completeFetched (.refl t) ..)

theorem coalTimeout {n : Nat} : Kept s (t.coalTimeout n) := .ite h h.modPair.signal
theorem sqTail {n : Nat} {tail : Word} : Kept s (t.sqTail n tail) := .ite h (.ite h.logNote h.modPair)
theorem cqHead {n : Nat} {head : Word} : Kept s (t.cqHead n head) := .ite h h.modPair
theorem qpEnable {n : Nat} : Kept s (t.qpEnable n) := .ite h (.ite h.logNote h.modPair)
theorem qpDisable {n : Nat} : Kept s (t.qpDisable n) := .ite h h.modPair.pairDrain
theorem passTurn {n : Nat} {blocked : Bool} : Kept s (t.passTurn n blocked) := .modPair (h.withHub (by intro; rfl))
theorem fetch {n : Nat} {e : Desc} : Kept s (t.fetch n e) := .ite h (.ite h.passTurn (.ite h.passTurn.modPair.completeFetched h.passTurn.modPair))

theorem command {n op : Nat} {act : State → Desc → State} (hact : ∀ u e, Kept s u → Kept s (act u e)) : Kept s (t.command n op act) := by
  unfold State.command
  split
  · exact h
  · exact .ite h (.ite (hact _ _ h) h.completeFetched)

/-! ## Ledger writes -/

theorem ledgerTurn : Kept s t.ledgerTurn := h.of_sweep (.ledgerTurn (.refl t) ..)
theorem ledgerPut {op : LedgerOp} : Kept s (t.ledgerPut op) := h.of_sweep (.ledgerPut (.refl t) ..)

theorem ledgerEnd {ok : Bool} : Kept s (t.ledgerEnd ok) := by
  unfold State.ledgerEnd
  split
  · extract_lets u v w
    have hu : Kept s u := .ite h.ledgerLand h
    have hv : Kept s v := .withPor hu (by intro; rfl)
    refine .ledgerTurn ?_
    clear_value v
    simp only [w]
    split
    · exact hv.endCmd
    · exact hv.endCmd
    · exact hv
    · refine hv.withPor fun p => ?_
      split <;> rfl
  · exact h

theorem ledgerCommit : Kept s t.ledgerCommit :=
  h.serveWrite fun _ _ _ _ hu => hu.onTrue fun _ _ _ _ hv => .ite hv.ans (hv.accept fun _ _ hw => hw.ledgerPut)

theorem restoreFactory : Kept s t.restoreFactory := h.serveWrite fun _ _ _ _ hu => .ite hu.ans (.ite hu.ans (hu.accept fun _ _ hv => hv.ledgerPut))
theorem keyRetry : Kept s t.keyRetry := .ite h (.ledgerPut (h.withPor (by intro; rfl)))

/-! ## Preparing for removal -/

theorem removalStep : Kept s t.removalStep := h.of_sweep (.removalStep (.refl t) ..)
theorem endRemoval : Kept s t.endRemoval := .withBoot (h.withHub (by intro; rfl)) (by intro; rfl)

theorem prepareRemoval : Kept s t.prepareRemoval :=
  h.serveWrite fun _ _ _ _ hu => .ite hu.ans (Kept.ans (.removalStep (.withBoot (hu.setDv.withHub (by intro; rfl)) (by intro; rfl))))

theorem cancelRemoval : Kept s t.cancelRemoval := h.serveWrite fun _ _ _ _ hu => hu.setDv.endRemoval.ans

/-! ## The sequencer -/

theorem seqAdvance {k : Nat} {word : Word} {cores : BitVec 16} {desc : Quad} {left : List (Nat × Nat)} {pc : Quad} {f : Seq → Seq}
    (hf : ∀ q, q.loc.wf = true → (f q).loc.wf = true) : Kept s (t.seqAdvance k word cores desc left pc f) := by
  unfold State.seqAdvance
  exact .setSeq h.draw.sample.bumpCluster fun hl => hf _ hl

theorem seqNext {k : Nat} {word : Word} {f : Seq → Seq} (hf : ∀ q, q.loc.wf = true → (f q).loc.wf = true) :
    Kept s (t.seqNext k word f) := h.seqAdvance hf

theorem seqOp {k : Nat} {word : Word} {f : Seq → Seq} (hf : ∀ q, q.loc.wf = true → (f q).loc.wf = true) :
    Kept s (t.seqOp k word f) := .ite (h.seqNext hf) h

theorem seqLegal {k : Nat} {legal : Bool} {u : State} (hu : Kept s u) : Kept s (t.seqLegal k legal u) := .ite h (.ite hu h.seqFault)

theorem aluOp {k fn : Nat} {gd ga gb : BitVec 5} {f : Quad → Quad → Quad} : Kept s (t.aluOp k fn gd ga gb f) :=
  h.seqOp fun q hq => (congrArg Mem.wf (loc_setReg q _ _)).trans hq

theorem immOp {k opc : Nat} {gd ga : BitVec 5} {imm : Half} {f : Quad → Half → Quad} : Kept s (t.immOp k opc gd ga imm f) :=
  h.seqOp fun q hq => (congrArg Mem.wf (loc_setReg q _ _)).trans hq

theorem branchOp {k opc : Nat} {ga gb : BitVec 5} {off : Half} {f : Quad → Quad → Bool} : Kept s (t.branchOp k opc ga gb off f) :=
  .ite h (h.seqAdvance (by exact fun _ hq => hq))

/-! ## Narrow accesses, waits and posts of the sequencer -/

theorem seqResume {k : Nat} {f : Seq → Seq} (hf : ∀ q, q.loc.wf = true → (f q).loc.wf = true) :
    Kept s (t.seqResume k f) := by
  unfold State.seqResume
  have hq : Kept s (t.setSeq k { f (t.seq k) with stall := .none }) := h.setSeq fun hl => hf _ hl
  exact hq.bumpClusterFree.sampleDone

theorem narrowBegin {k : Nat} {word : Word} {a align : Nat} {kind : NarrowKind} {atomic : Bool} :
    Kept s (t.narrowBegin k word a align kind atomic) := by
  unfold State.narrowBegin
  split
  · exact h
  · exact h.seqFault
  · exact h.seqFault
  · exact h.bumpCluster.seqAdvance (by exact fun _ hq => hq)

theorem seqAccFault {k : Nat} {e : AccErr} : Kept s (t.seqAccFault k e) := h.accFault

theorem seqResumeReg {k : Nat} {f : Seq → Seq} {r : BitVec 5} {v : Quad}
    (hf : ∀ q, q.loc.wf = true → (f q).loc.wf = true) :
    Kept s (t.seqResume k fun q => (f q).setReg r v) :=
  h.seqResume fun q hq => (congrArg Mem.wf (loc_setReg (f q) r v)).trans (hf q hq)

theorem narrowReturn {k : Nat} : Kept s (t.narrowReturn k) := by
  unfold State.narrowReturn
  split
  · exact h
  · split
    · exact h
    · split
      · split
        · exact h.seqResumeReg (by exact fun _ hq => hq)
        · exact .seqResumeReg (h.touchCluster (by intro; rfl)) (by exact fun _ hq => hq)
        · exact h
      · split
        · exact h.readDone.countRemote.seqResumeReg (by exact fun _ hq => hq)
        · exact h.seqAccFault
      · exact h.bumpCluster.countRemote.seqResumeReg (by exact fun _ hq => hq)
      · exact h.scWrite.countAtomic.countRemote.seqResumeReg (by exact fun _ hq => hq)
      · exact h

theorem roomRequest {k : Nat} {v : Quad} : Kept s (t.roomRequest k v) := .bumpCluster (h.touchCluster (by intro; rfl))

theorem narrowAccepted {k : Nat} : Kept s (t.narrowAccepted k) := by
  unfold State.narrowAccepted
  split
  · exact h
  · split
    · exact h
    · split
      · extract_lets done
        have hdone (u : State) (hu : Kept s u) : Kept s (done u) := by
          have hw : Kept s (u.setSeq k (u.seq k).writeDone) := hu.setSeq (by exact fun hl => hl)
          simp only [done]
          generalize u.setSeq k _ = w at hw ⊢
          split
          · exact hw.seqResume (by exact fun _ hq => hq)
          · exact hw
        clear_value done
        split
        · split
          · next heq => exact hdone _ (Kept.countRemote (h.memWrite.ok heq))
          · next heq => exact Kept.seqAccFault (h.memWrite.error heq)
        · exact hdone _ h.scWrite.bumpCluster.countRemote
        · exact hdone _ h.roomRequest
        · exact h
      · exact h

theorem roomAnswer {k : Nat} {r : Quad} : Kept s (t.roomAnswer k r) := h.touchCluster (by intro; rfl)

theorem roomPin {k : Nat} : Kept s (t.roomPin k) := by
  unfold State.roomPin
  split
  · refine .ite h.roomAnswer ?_
    split
    · exact h.seqAccFault
    · extract_lets room u
      have hu : Kept s u := .foldl h _ fun _ _ hu => hu.readDone
      clear_value u room
      split
      · exact hu.roomAnswer
      · exact .ite hu.seqAccFault (.ite hu.roomAnswer.bumpCluster (hu.modRoomPin.touchCluster (by intro; rfl)).roomAnswer.bumpCluster)
  · exact h

theorem roomUnpin {k : Nat} : Kept s (t.roomUnpin k) := by
  unfold State.roomUnpin
  split
  · exact .ite h.roomAnswer (.ite h.seqAccFault (.roomAnswer (.unpinRoom (h.touchCluster (by intro; rfl)))))
  · exact h

theorem issueTo {cs : List Nat} {d : Desc} : Kept s (t.issueTo cs d) := .foldl h _ fun _ _ hu => hu.touchCore (by intro; rfl)

theorem withCounter {k : Nat} {fn : BitVec 11} {find : Job → Option (Nat × Nat)} {f : Job → Nat → Nat → State} (hf : ∀ j x i, Kept s (f j x i)) :
    Kept s (t.withCounter k fn find f) := by
  unfold State.withCounter
  split
  · exact h
  · split
    · exact h.seqFault
    · exact .ite (hf _ _ _) h.seqFault

theorem seqCwaitRelease {k : Nat} : Kept s (t.seqCwaitRelease k) := by
  unfold State.seqCwaitRelease
  split
  · split
    · exact .ite (h.seqResume (by exact fun _ hq => hq)) h
    · exact h
  · exact h

theorem coreCwaitRelease {c : Nat} : Kept s (t.coreCwaitRelease c) := by
  unfold State.coreCwaitRelease
  split
  · exact .ite h.modEntry.bumpCoreFree h
  · exact h

theorem seqPost {k : Nat} {j : Job} {p : PendPost} : Kept s (t.seqPost k j p) := h.applySync

theorem seqSyncPost {k : Nat} : Kept s (t.seqSyncPost k) := by
  unfold State.seqSyncPost
  split
  · exact .seqPost (h.setSeq (by exact fun hl => hl))
  · exact h

end Kept

end Sys2Proof.Machine

/-! PROOFS. The factory ledger, the fuse counter and the memories' form (R439, R463): what jobs and encoders keep. -/

namespace Sys2Proof.Machine

namespace Kept
variable {s t : State} (h : Kept s t)
include h

/-! ## Stops of a core -/

theorem stopRun {c : Nat} {e : QEntry} : Kept s (t.stopRun c e) := by
  unfold State.stopRun
  split
  · split
    · exact h.runMma
    · exact h.runMmaLa
    · exact h.runConv
    · exact h.runConv
    · exact h.runAttn
    · exact h.runAttn
    · exact h.runVector
    · exact h.runVector
    · exact h.runVector
    · exact h.runVector
    · exact h.runReuse
    · exact h.computeX
    · exact h.computeX
    · exact h.computeRelay
    · exact h
  · exact h

theorem retireAll {n c : Nat} : Kept s (State.retireAll n c t) := by
  induction n generalizing t with
  | zero => exact h
  | succ n ih => exact ih h.tileRetire

theorem stopCore {c : Nat} : Kept s (t.stopCore c) := by
  unfold State.stopCore
  refine .ite h ?_
  extract_lets a b gone d e f g
  have ha : Kept s a := .foldl h _ fun _ _ hu => hu.stopRun
  have hb : Kept s b := ha.retireAll
  have hd : Kept s d := .foldl hb _ fun _ _ hu => .ite hu.endWait hu
  have he : Kept s e := hd.touchCore (by intro; rfl)
  have hf : Kept s f := he.withNet
  have hg : Kept s g := hf.bumpCore
  refine .ite ha (hg.modCore _ fun x hx => Core.memWf_of_mems (x := x) ?_ hx)
  dsimp only
  split <;> rfl

/-! ## Ends of jobs -/

theorem dropSlot {j : Job} : Kept s (t.dropSlot j) := h.of_sweep (.dropSlot (.refl t) ..)
theorem dropGroup {j : Job} {abort : Bool} {g : Nat} : Kept s (t.dropGroup j abort g) := h.of_sweep (.dropGroup (.refl t) ..)
theorem dropExchange {j : Job} {abort : Bool} : Kept s (t.dropExchange j abort) := h.of_sweep (.dropExchange (.refl t) ..)
theorem returnStream {id : JobId} {i : Nat} : Kept s (t.returnStream id i) := h.of_sweep (.returnStream (.refl t) ..)
theorem freeCluster {k : Nat} : Kept s (t.freeCluster k) := h.of_sweep (.freeCluster (.refl t) ..)
theorem releaseJob {j : Job} {code : Option Byte} {abort : Bool} : Kept s (t.releaseJob j code abort) := h.of_sweep (.releaseJob (.refl t) ..)
theorem completeJob {j : Job} {status : Byte} : Kept s (t.completeJob j status) := h.writeCompletion

theorem closeJob {j : Job} {status : Byte} : Kept s (t.closeJob j status) :=
  .removalStep (.foldl (.foldl (.completeJob (h.dropJob _)) _ fun _ _ hu => hu.writeCompletion) _ fun _ _ hu => hu.pairDrain)

theorem sweepJobRefs {id : JobId} : Kept s (t.sweepJobRefs id) := h.of_sweep (.sweepJobRefs (.refl t) ..)

theorem endJob {j : Job} {status : Byte} {code : Option Byte} {abort : Bool} : Kept s (t.endJob j status code abort) := by
  unfold State.endJob
  refine .ite h.sweepJobRefs ?_
  split
  · split
    · exact h.releaseJob.closeJob.passRegion
    · exact h.releaseJob.closeJob
  · exact h.releaseJob

theorem raiseStop {j : Job} {why : StopWhy} : Kept s (t.raiseStop j why) :=
  .foldl (h.touchJob (by intro; rfl)) _ fun _ _ hu => hu.touchCore (by intro; rfl)
theorem finishCancel {j : Job} : Kept s (t.finishCancel j) := .ite h.endJob (h.endJob.withHub (by intro; rfl))

theorem cancelEntry {n : Nat} {e : Desc} : Kept s (t.cancelEntry n e) := by
  unfold State.cancelEntry
  split
  · exact h.completeFetched
  · extract_lets a b
    have hb : Kept s b := .touchJob (.modPair h) (by intro; rfl)
    clear_value b
    refine .ite hb ?_
    split
    · exact hb
    · split
      · exact .ite hb.raiseStop.finishCancel hb.raiseStop
      · exact .ite hb.finishCancel (hb.touchJob (by intro; rfl))
      · exact hb.finishCancel

theorem coreStopped {c : Nat} : Kept s (t.coreStopped c) := by
  unfold State.coreStopped
  dsimp only
  split
  · exact .ite h.stopCore.finishCancel h.stopCore
  · exact h.stopCore

theorem zeroCluster {k : Nat} : Kept s (t.zeroCluster k) := h.of_sweep (.zeroCluster (.refl t) ..)
theorem clusterZeroed {k : Nat} : Kept s (t.clusterZeroed k) := .ite h.zeroCluster h
theorem abandonRolling {pick : Nat → Bool} : Kept s (t.abandonRolling pick) := h.of_sweep (.abandonRolling (.refl t) ..)

theorem openStream {i : Nat} : Kept s (t.openStream i) := by
  unfold State.openStream
  extract_lets es a b u p
  have ha : Kept s a := h.hubDone
  have hb : Kept s b := ha.memWriteHub.memWriteHub
  have hu : Kept s u := .ite (.foldl hb _ fun _ _ hu => hu.memWriteHub) h
  clear_value u
  exact .modStream hu.openEnc

theorem streamOpen {n : Nat} {e : Desc} : Kept s (t.streamOpen n e) := by
  unfold State.streamOpen
  dsimp only
  split
  · exact h.openStream.completeFetched
  · exact h.openStream.completeFetched
  · exact h.completeFetched

theorem streamEnd {n : Nat} {e : Desc} : Kept s (t.streamEnd n e) := .ite h.completeFetched h.dirDone.endRooms.modStream.completeFetched

/-! ## Admission -/

theorem holdStream {j : Job} {i : Nat} : Kept s (t.holdStream j i) := h.modStream.setRstate

theorem putJob {j : Job} (hj : j.memWf = true) :
    Kept s (t.withHub fun x => { x with jobs := x.jobs ++ [j], admitCount := x.admitCount + 1 }) :=
  ⟨h.factory, h.fused, h.pending, fun hs => { h.wf hs with
    jobs := List.all_append.trans (by rw [(h.wf hs).jobs, List.all_cons, hj]; rfl) }⟩

theorem enrolJob {n : Nat} {e : Desc} {a : Admitted} {bars : List Barrier} : Kept s (t.enrolJob n e a bars) := by
  unfold State.enrolJob
  extract_lets v j b c d f g k l
  have hc : Kept s c := .putJob h.modPair rfl
  have hd : Kept s d := .foldl hc _ fun _ _ hu => hu.holdStream
  have hf : Kept s f := .foldl hd _ fun _ _ hu => hu.modVac
  have hg : Kept s g := by
    clear_value f
    simp only [g]
    split
    · exact .passRegion (hf.touchSlot (by intro; rfl))
    · exact hf
  clear_value g
  have hk : Kept s k := .foldl hg _ fun _ _ hu => .ite (.setAdapterBits (hu.setAdapterRefs.update (by rfl))) hu.setAdapterRefs
  exact .streamErrors (.foldl hk _ fun _ _ hu => .ite hu.modGroup hu)

theorem submit {n : Nat} {waited : Bool} : Kept s (t.submit n waited) := by
  unfold State.submit
  split
  · exact h
  · refine .ite h ?_
    refine .ite h.hubDone ?_
    split
    · exact h.hubDone.completeFetched
    · split
      · exact h.hubDone.modPair
      · exact h.hubDone.enrolJob

/-! ## Dispatch, saving and restoring -/

theorem startTeam {j : Job} : Kept s (t.startTeam j) := by
  unfold State.startTeam
  refine .foldl h _ fun _ _ hu => .bumpCluster (hu.modCluster _ fun c hc => ?_)
  rw [Cluster.memWf_iff] at hc ⊢
  exact ⟨hc.1, Mem.wf_empty⟩

theorem watchReady : Kept s t.watchReady := by
  unfold State.watchReady
  refine .modJobs h.withPwr fun j hj => ?_
  split
  · exact hj
  · exact hj

theorem dispatch {id : JobId} : Kept s (t.dispatch id) := by
  unfold State.dispatch
  split
  · exact h
  · refine .ite h ?_
    refine .ite (.foldl (.foldl h.watchReady _ fun _ _ hu => hu.modGroup) _ fun _ _ hu => hu.touchCluster (by intro; rfl)) ?_
    refine .touchJob ?_ (by intro; rfl)
    refine .startTeam ?_
    split
    · exact .claimWindow (.foldl h.watchReady _ fun _ _ hu => hu.modGroup)
    · exact .foldl h.watchReady _ fun _ _ hu => hu.modGroup

theorem preempt {id : JobId} : Kept s (t.preempt id) := by
  unfold State.preempt
  split
  · exact h
  · exact .ite h (.foldl h _ fun _ _ hu => hu.raiseStop)

theorem writeArea {a : Nat} : Kept s (t.writeArea a) := by
  unfold State.writeArea
  exact .foldl (.fresh (.withMem h.stamp.snoopInv.countWritten fun _ hm => Mem.wf_forget _ _ _ _ hm)) _ fun _ _ hu => hu.useParity

theorem areasWith {err : State → Nat → Nat → Option AccErr} {size : Nat} {l : List Nat} : KeptEither s Prod.snd id (t.areasWith err size l) := by
  induction l generalizing t with
  | nil => exact h
  | cons a l ih =>
    unfold State.areasWith
    split
    · exact h
    · exact ih h.writeArea

theorem writeAreas {l : List Nat} : KeptEither s Prod.snd id (t.writeAreas l) := by
  rw [writeAreas_eq]
  exact h.areasWith

theorem commitEarly {c : Nat} : Kept s (t.commitEarly c) := by
  unfold State.commitEarly
  exact h.makeCommits.touchCore (by intro; rfl)

theorem saveJob {id : JobId} : Kept s (t.saveJob id) := by
  unfold State.saveJob
  split
  · exact h
  · next j _ =>
    refine .ite h ?_
    extract_lets a saved d
    have ha : Kept s a := .foldl h _ fun _ _ hu => hu.commitEarly
    have hsaved (hs : s.MemWf) : saved.all SavedCluster.memWf = true := by
      simp only [saved, List.all_eq_true, List.mem_map]
      rintro _ ⟨k, -, rfl⟩
      exact memWf_saveCluster (ha.wf hs) k
    clear_value a saved
    split
    · next heq => exact Kept.accFault (ha.writeAreas.error heq)
    · next heq =>
      have hv := Kept.foldl (ha.writeAreas.ok heq) j.team fun u k hu => (hu.bumpCluster.freeCluster : Kept s ((u.bumpCluster k 28 1).freeCluster k))
      exact hv.modJobOf fun hs _ _ => hsaved hs

theorem jobWf {id : JobId} {j : Job} (hs : s.MemWf) (e : t.job? id = some j) : j.memWf = true :=
  List.all_eq_true.1 (h.wf hs).jobs j (List.mem_of_find?_eq_some e)

theorem restoreCluster {p : Nat × SavedCluster} (hp : s.MemWf → p.2.memWf = true) : Kept s (t.restoreCluster p) := by
  have hparts (hs : s.MemWf) : p.2.seq.loc.wf = true ∧ ∀ x ∈ p.2.cores, x.memWf = true := by
    have := hp hs
    simpa only [SavedCluster.memWf, Bool.and_eq_true, List.all_eq_true] using this
  unfold State.restoreCluster
  refine List.foldlRecOn (motive := Kept s) _ _ (.bumpCluster (h.modClusterOf fun hs c hc => ?_)) fun u hu q hq =>
    hu.modCoreOf fun hs x _ => (hparts hs).2 q.2 (List.of_mem_zip hq).2
  rw [Cluster.memWf_iff] at hc ⊢
  exact ⟨Mem.wf_foldl (fun m _ hm => Mem.wf_write m _ _ hm) _ (Mem.wf_writeBytes _ _ _ hc.1), (hparts hs).1⟩

theorem restoreJob {id : JobId} : Kept s (t.restoreJob id) := by
  unfold State.restoreJob
  split
  · exact h
  · next j hj =>
    refine .ite h ?_
    split
    · exact h.accFault
    · extract_lets a b c
      have ha : Kept s a := .foldl h _ fun _ _ hu => hu.readDone
      have hb : Kept s b := List.foldlRecOn (motive := Kept s) _ _ ha fun _ hu p hp =>
        hu.restoreCluster fun hs => List.all_eq_true.1 (h.jobWf hs hj) p.2 (List.of_mem_zip hp).2
      exact .foldl (.modJob hb _ fun _ _ => rfl) _ fun _ _ hu => hu.applySync

theorem completeIfDone {id : JobId} : Kept s (t.completeIfDone id) := by
  unfold State.completeIfDone
  split
  · exact h
  · exact .ite h h.endJob

/-! ## Encoders -/

theorem sbPut {p off n v : Nat} : Kept s (t.sbPut p off n v) := h.memWriteHub
theorem modEnc {i : Nat} {f : EncStream → EncStream} : Kept s (t.modEnc i f) := h.setStreamRec

theorem deal {e : Nat} : Kept s (t.deal e) := by
  unfold State.deal
  refine .ite h ?_
  split
  · exact h
  · split
    · split
      · exact h.modEnc
      · exact h
    · exact h

theorem dealAll : Kept s t.dealAll := .foldl h _ fun _ _ hu => hu.deal
theorem engineRead {rs : List (Nat × Nat)} : KeptEither s id id (t.engineRead rs) := h.readAll.mapError fun _ he => he.countErr
theorem engineWrite {a : Nat} {bs : List Byte} : KeptEither s id id (t.engineWrite a bs) := h.memWrite.mapError fun _ he => he.countErr
theorem encEnd {i : Nat} : Kept s (t.encEnd i) := h.streamError

theorem encLevel {p : Nat} : Kept s (t.encLevel p).2 := by
  unfold State.encLevel
  exact .ite_snd h.draw h

theorem frameStart {i : Nat} : Kept s (t.frameStart i) := by
  unfold State.frameStart
  split
  · exact h
  · refine .ite h ?_
    dsimp only
    split
    · next _ heq =>
        exact .encEnd (h.engineRead.error heq)
    · next _ heq =>
        refine .ite (.streamError (h.engineRead.ok heq)) ?_
        split
        · next _ heq2 =>
            exact .encEnd (((Kept.engineRead (h.engineRead.ok heq)).error heq2))
        · next _ heq2 =>
            exact .dealAll (.modEnc (.encLevel (((Kept.engineRead (h.engineRead.ok heq)).ok heq2))))

theorem refreshSlots {i p : Nat} {f : EncFrame} : Kept s (t.refreshSlots i p f) := by
  unfold State.refreshSlots
  extract_lets set go
  have hgo : KeptEither s id id go :=
    List.foldlRecOn (motive := KeptEither s id id) _ _ (h : KeptEither s id id (.ok t)) fun _ hr _ _ => hr.bind fun _ hu => Kept.engineWrite hu
  clear_value go
  split
  · exact Kept.modEnc (hgo.ok rfl)
  · exact Kept.encEnd (hgo.error rfl)

theorem tileDone {e i tile : Nat} {rowBits : List Nat} : Kept s (t.tileDone e i tile rowBits) := by
  unfold State.tileDone
  split
  · refine .ite h ?_
    split
    · next heq => exact Kept.encEnd (h.engineRead.error heq)
    · next heq =>
      have hu := h.engineRead.ok heq
      split
      next v hseed =>
        have hv : Kept s v := Kept.snd (.ite_snd (.update hu (by rfl)) hu) hseed
        exact .dealAll (.ite (.refreshSlots (.modEnc (.update hv (by rfl)))) (.modEnc (.update hv (by rfl))))
  · exact h

theorem takeConsumed {i p : Nat} : Kept s (t.takeConsumed i p) := .ite h.modEnc h.logNote

theorem ringWrite {p : Nat} {bs : List Byte} : KeptEither s id id (t.ringWrite p bs) := by
  unfold State.ringWrite
  refine h.engineWrite.bind fun u hu => KeptEither.map (p := id) (q := id) ?_ fun v hv => Kept.sbPut hv
  split
  · exact hu
  · exact Kept.engineWrite hu

theorem tryObu {i p : Nat} {bs : List Byte} {done : State → State} (hdone : ∀ u, Kept s u → Kept s (done u)) : Kept s (t.tryObu i p bs done) := by
  unfold State.tryObu
  refine .ite h.encEnd ?_
  refine .ite h ?_
  split
  · next _ heq2 =>
      exact hdone _ (h.ringWrite.ok heq2)
  · next _ heq2 =>
      exact .encEnd (h.ringWrite.error heq2)

theorem countLate {j : Job} {i k : Nat} : Kept s (t.countLate j i k) := .ite h (h.modStream.withPwr.touchJob (by intro; rfl))

theorem frameDone {j : Job} {i p : Nat} {f : EncFrame} : Kept s (t.frameDone j i p f) :=
  .hubPost (.modEnc (.countLate (.ite (h.memWriteHub.sbPut.sbPut.sbPut.sbPut.sbPut.update (by rfl)) h.memWriteHub.sbPut.sbPut.sbPut.sbPut)))

theorem emitHeads {i p : Nat} {next : State → State} {l : List (List Byte)} (hnext : ∀ u, Kept s u → Kept s (next u)) :
    Kept s (emitHeads i p next l t) := by
  induction l generalizing t with
  | nil => exact hnext t h
  | cons b l ih =>
    unfold Sys2Proof.Machine.emitHeads
    exact h.tryObu fun _ hu => ih hu.modEnc

theorem groupEmit {i bytes : Nat} : Kept s (t.groupEmit i bytes) := by
  unfold State.groupEmit
  split
  · refine .ite h ?_
    dsimp only
    split
    · next _ heq =>
        exact .encEnd (h.engineRead.error heq)
    · next _ heq =>
        exact .emitHeads (.takeConsumed (h.engineRead.ok heq)) fun _ hv => hv.tryObu fun _ hw => .ite hw.modEnc.frameDone hw.modEnc
  · exact h

theorem encOverrun {i : Nat} : Kept s (t.encOverrun i) := by
  unfold State.encOverrun
  split
  · exact h
  · refine .ite h.encEnd ?_
    split
    · exact h
    · refine .ite h ?_
      split
      · next _ heq =>
          exact .encEnd (h.engineRead.error heq)
      · next _ heq =>
          exact .ite (.encEnd (.takeConsumed (h.engineRead.ok heq))) (.takeConsumed (h.engineRead.ok heq))

theorem fenceEngine {e : Nat} {bist : Bool} : Kept s (t.fenceEngine e bist) := .noteTier (.logEvent (h.update (by rfl)))
theorem engineFence : Kept s t.engineFence := h.serveWrite fun _ _ _ _ hu => .ite hu.ans (.ite hu.ans hu.fenceEngine.ans)
theorem engineUnfence : Kept s t.engineUnfence := h.serveWrite fun _ _ _ _ hu => .ite hu.ans (hu.update (by rfl)).ans

theorem clusterFence : Kept s t.clusterFence :=
  h.serveWrite fun _ _ _ _ hu => .ite hu.ans (.ite hu.ans (.ite hu.ans (Kept.ans (.noteTier (.logEvent (hu.touchCluster (by intro; rfl)))))))

theorem clusterUnfence : Kept s t.clusterUnfence := h.serveWrite fun _ _ _ _ hu => .ite hu.ans (Kept.ans (hu.touchCluster (by intro; rfl)))

end Kept

end Sys2Proof.Machine

/-! PROOFS. The factory ledger, the fuse counter and the memories' form (R439, R463): what the module's commands keep. -/

namespace Sys2Proof.Machine

namespace Kept
variable {s t : State} (h : Kept s t)
include h

/-! ## Rooms and reuse by command -/

theorem vacancyTimeout {stream : Nat} : Kept s (t.vacancyTimeout stream) := .ite h.streamError h

theorem roomLink : Kept s t.roomLink := by
  unfold State.roomLink
  refine .serveWrite h (fun _ _ _ _ hu => ?_)
  refine .ite hu.ans ?_
  refine .ite hu.ans ?_
  dsimp only
  split
  · exact hu.hubDone.ans
  · exact .ite hu.hubDone.ans (.ite hu.hubDone.ans (Kept.ans (.dirAdd (.foldl hu.hubDone _ fun _ _ hv => hv.memWriteHub.modRoomRef))))

theorem clearGranule {a base lo hi : Nat} : Kept s (t.clearGranule a base lo hi) := .ite h.hubGot.snoopInv.memPut.logNote h.hubGot.snoopInv.memPut

theorem reuseClear : Kept s t.reuseClear :=
  h.serveWrite fun _ _ _ _ hu => .ite hu.ans (.ite hu.ans (.ite hu.ans (Kept.ans (.foldl hu _ fun _ _ hv => hv.clearGranule))))

theorem memZero {a n : Nat} : Kept s (t.memZero a n) := by
  unfold State.memZero
  exact .countWritten (.fresh (.withMem h.snoopInv fun _ hm => Mem.wf_zero _ _ _ hm))

theorem memZeroHub {a n : Nat} : Kept s (t.memZeroHub a n) := by
  unfold State.memZeroHub
  dsimp only
  split
  · exact .countErr (.foldl h _ fun _ _ hu => .ite hu (.ite hu.logNote hu.memZero.useParity))
  · exact .foldl h _ fun _ _ hu => .ite hu (.ite hu.logNote hu.memZero.useParity)

theorem reuseConfig : Kept s t.reuseConfig := h.serveWrite fun _ _ _ _ hu => .ite hu.ans (.ite hu.ans hu.setDv.memZeroHub.ans)
theorem tabEnable : Kept s t.tabEnable := h.serveWrite fun _ _ _ _ hu => hu.setDv.ans

/-! ## Undefined behaviour -/

theorem wf_imagesKept {u : State} (hs : s.MemWf) : (t.imagesKept u).all (fun b => b.2.bytes.wf) = true := by
  rw [State.imagesKept, List.all_map]
  exact (h.wf hs).banks

theorem undefined : Kept s t.undefined := by
  refine ⟨h.factory, h.fused, h.pending, fun hs => ?_⟩
  have hu := (memWf_iff _).1 (anyState_wf t ((memWf_iff _).2 (h.wf hs)))
  have hb := h.wf_imagesKept (u := t.anyState) hs
  unfold State.undefined
  generalize t.anyState = u at hu hb
  exact { hu with banks := hb }

/-! ## Blocks and the steward -/

theorem divOverride : Kept s t.divOverride := h.serveWrite fun _ _ _ _ hu => hu.setDv.ans
theorem blockOn {b : Nat} : Kept s (t.blockOn b) := .ite (.ite h.setBlock.memZero h.setBlock) (.ite h.setBlock.modPort h.setBlock)

theorem blockClear {b : Nat} : Kept s (t.blockClear b) := by
  unfold State.blockClear
  refine .ite h (.ite h.abandonRolling.setBlock (.ite h.setBlock.withPwr (.ite h.setBlock (.ite ?_ h.setBlock))))
  exact .ite h.startDrain.setBlock (.ite h.setBlock h.portOff.setBlock)

theorem blockEnables : Kept s t.blockEnables :=
  h.serveWrite fun _ _ _ _ hu => .ite hu.setDv.ans (.ite hu.ans
    (Kept.ans (.noteTier (.foldl (.foldl hu.setDv _ fun _ _ hv => hv.blockClear) _ fun _ _ hv => hv.blockOn))))

theorem blockDrained {b : Nat} : Kept s (t.blockDrained b) := .noteTier (.ite (.setBlock (.ite (h.update (by rfl)) h)) (.ite (h.update (by rfl)) h))
theorem learn : Kept s t.learn := h.update (by rfl)
theorem setPoint {p : Nat} : Kept s (t.setPoint p) := .ite h.withPwr h
theorem capStep : Kept s t.capStep := .ite h.withPwr (.ite h.learn.withPwr h.learn.setPoint)
theorem thermalStep : Kept s t.thermalStep := .ite (.setPoint (.ite h.withPwr.logEvent h.withPwr)) (.ite h.withPwr.logEvent h.withPwr)

theorem upset {x : Upset} : Kept s (t.upset x) := by
  unfold State.upset
  split
  · exact h.bumpCore
  · exact h.bumpCluster
  · refine h.withMs fun m => ?_
    split <;> rfl
  · exact h.withMs (by intro; rfl)
  · exact h.withMs (by intro; rfl)

theorem powerSample {m : PowerSample} : Kept s (t.powerSample m) := by
  unfold State.powerSample
  extract_lets was w a b isOver d e f
  have ha : Kept s a := .foldl h _ fun _ _ hu => hu.upset
  have hb : Kept s b := ha.withPwr
  have hd : Kept s d := .ite hb.withPwr hb
  have he : Kept s e := .ite hd.logEvent hd
  have hf : Kept s f := .ite he.capStep he
  exact hf.thermalStep.watchReady

theorem periodPoint {m : StewardMeasure} : Kept s (t.periodPoint m) := h.setPoint
theorem periodDepth {i pct : Nat} : Kept s (t.periodDepth i pct) := .ite h (.ite (h.touchSlot (by intro; rfl)) (.ite (h.touchSlot (by intro; rfl)) h))
theorem periodSite {i : Nat} : Kept s (t.periodSite i) := .ite h.withPwr h
theorem periodStall {i pct : Nat} {fits : Bool} : Kept s (t.periodStall i pct fits) := .ite h.logNote h

theorem period {m : StewardMeasure} : Kept s (t.period m) := by
  unfold State.period
  extract_lets ms full pcts a b d e f
  have ha : Kept s a := .foldl h _ fun _ _ hu => hu.periodStall
  have hb : Kept s b := ha.learn
  have hd : Kept s d := .ite hb.periodPoint hb
  have he : Kept s e := .foldl hd _ fun _ _ hu => hu.periodDepth
  have hf : Kept s f := .ite ha (.foldl he _ fun _ _ hu => hu.periodSite)
  exact .ite h hf.withPwr

theorem takeProfile {p : Profile} {source : Nat} : Kept s (t.takeProfile p source) :=
  .foldl (.ite h.withPwr.setPoint h.withPwr) _ fun _ _ hu => hu.touchSlot (by intro; rfl)

theorem seedFactory : Kept s t.seedFactory := by
  unfold State.seedFactory
  split
  · exact h.takeProfile
  · exact h.takeProfile

theorem seed : Kept s t.seed := by
  unfold State.seed
  split
  · exact h.takeProfile
  · exact h.seedFactory

theorem profileSave : Kept s t.profileSave := .ite h.ledgerPut h
theorem stewardSave : Kept s t.stewardSave := h.serveWrite fun _ _ _ _ hu => hu.onTrue fun _ _ _ _ hv => hv.profileSave.ans
theorem stewardReset : Kept s t.stewardReset := h.serveWrite fun _ _ _ _ hu => hu.onTrue fun _ _ _ _ hv => Kept.ans (.ite hv.seedFactory hv)

/-! ## Dictionary reads -/

theorem dictRead : Kept s t.dictRead := by
  unfold State.dictRead
  split
  · exact h
  · refine .ite h ?_
    split
    · exact h.answer
    · exact .ite h.answer h.answer

/-! ## Self-test, alerts and bandwidth windows -/

theorem bistRun : Kept s t.bistRun := by
  unfold State.bistRun
  refine .serveWrite h (fun _ _ _ _ hu => ?_)
  dsimp only
  split
  · exact hu.ans
  · refine .ite hu.ans ?_
    split
    · exact hu.ans
    · exact .ite hu.ans (hu.accept fun _ _ hv => (hv.withPor (by intro; rfl)))

theorem fenceBits {lo n v : Nat} : Kept s (t.fenceBits lo n v) := h.setDv

theorem zeroShared {k lo hi : Nat} : Kept s (t.modCluster k fun c => { c with scache := c.scache.zero lo hi }) :=
  h.modCluster k fun c hc => by
    rw [Cluster.memWf_iff] at hc ⊢
    exact ⟨Mem.wf_zero _ _ _ hc.1, hc.2⟩

theorem bistCluster {k kind : Nat} : Kept s (t.bistCluster k kind) := by
  unfold State.bistCluster
  exact .ite h.zeroCluster (.ite h.zeroCluster.zeroShared.zeroShared h.zeroCluster.zeroShared)

theorem failCluster {k fail : Nat} : Kept s (t.failCluster k fail) :=
  .logEvent (.ite (.fenceBits (.fenceBits (h.touchCluster (by intro; rfl)))) (.fenceBits (h.touchCluster (by intro; rfl))))

theorem bistFail {u : BistUnit} {fail : Nat} : Kept s (t.bistFail u fail) := by
  unfold State.bistFail
  split
  · exact h.failCluster
  · exact h.fenceStack.fenceBits
  · exact .fenceBits (.foldl h _ fun _ _ hu => hu.fenceFlash)
  · exact h.modPort.fenceBits.logEvent
  · exact h.fenceEngine.fenceBits

theorem bistPass {u : BistUnit} : Kept s (t.bistPass u) := by
  unfold State.bistPass
  split
  · exact .fenceBits (.fenceBits (h.touchCluster (by intro; rfl)))
  · exact h.modStack.fenceBits
  · exact .fenceBits (.foldl h _ fun _ _ hu => hu.modFlashCh)
  · exact h.modPort.fenceBits
  · exact .fenceBits (h.update (by rfl))

theorem bistEnd {target : Nat} {misrs : List (Nat × Quad)} : Kept s (t.bistEnd target misrs) := by
  unfold State.bistEnd
  split
  · refine .ite ?_ ?_
    · refine .ite ?_ ?_
      · refine .withPor ?_ (by intro; rfl)
        refine .ite ?_ ?_
        · refine .bistFail ?_
          split
          · exact h.bistResult.bistCluster
          · exact h.bistResult
        · refine .ite ?_ ?_
          · refine .bistPass ?_
            split
            · exact h.bistResult.bistCluster
            · exact h.bistResult
          · split
            · exact h.bistResult.bistCluster
            · exact h.bistResult
      · refine .endCmd ?_
        refine .ite ?_ ?_
        · refine .bistFail ?_
          split
          · exact h.bistResult.bistCluster
          · exact h.bistResult
        · refine .ite ?_ ?_
          · refine .bistPass ?_
            split
            · exact h.bistResult.bistCluster
            · exact h.bistResult
          · split
            · exact h.bistResult.bistCluster
            · exact h.bistResult
    · refine .noteTier ?_
      refine .ite ?_ ?_
      · refine .withPor ?_ (by intro; rfl)
        refine .ite ?_ ?_
        · refine .bistFail ?_
          split
          · exact h.bistResult.bistCluster
          · exact h.bistResult
        · refine .ite ?_ ?_
          · refine .bistPass ?_
            split
            · exact h.bistResult.bistCluster
            · exact h.bistResult
          · split
            · exact h.bistResult.bistCluster
            · exact h.bistResult
      · refine .endCmd ?_
        refine .ite ?_ ?_
        · refine .bistFail ?_
          split
          · exact h.bistResult.bistCluster
          · exact h.bistResult
        · refine .ite ?_ ?_
          · refine .bistPass ?_
            split
            · exact h.bistResult.bistCluster
            · exact h.bistResult
          · split
            · exact h.bistResult.bistCluster
            · exact h.bistResult
  · exact h

theorem rollingTurn : Kept s t.rollingTurn := by
  unfold State.rollingTurn
  refine .ite h ?_
  split
  · exact h
  · exact .withPor (h.touchCluster (by intro; rfl)) (by intro; rfl)

theorem alertAck : Kept s t.alertAck := h.serveWrite fun _ _ _ _ hu => (hu.withPor (by intro; rfl)).ans
theorem bwWindow : Kept s t.bwWindow := .ite h (h.withPor (by intro; rfl))

/-! ## Refresh of the user view -/

theorem viewBuild : Kept s t.viewBuild := .ite h (.foldl h.memWriteHub.memWriteHub _ fun _ _ hu => hu.memWriteHub)
theorem viewSet {base bytes : Nat} : Kept s (t.viewSet base bytes) := .viewBuild (h.withPor (by intro; rfl))
theorem takeGrant : Kept s t.takeGrant := h.withPor (by intro; rfl)
theorem viewTake : Kept s t.viewTake := .ite h.viewSet h.viewSet
theorem viewConfig : Kept s t.viewConfig := h.serveWrite fun _ _ _ _ hu => .ite hu.ans (.ite hu.ans (.ite hu.ans hu.takeGrant.setDv.viewSet.ans))
theorem viewOne {k off : Nat} {v : List Byte} : Kept s (t.viewOne k off v) := .ite h h.hubGot.memWriteHub.memWriteHub.memWriteHub
theorem viewRefresh : Kept s t.viewRefresh := .ite h (.foldl h _ fun _ _ hu => .ite hu.viewOne hu)

/-! ## Firmware -/

theorem fwSetStage {b : Nat} : Kept s (t.fwSetStage b) := by
  unfold State.fwSetStage
  refine h.modBank fun x hx => ?_
  split
  · exact hx
  · exact hx

theorem fwStage {off : Nat} {bs : List Byte} : Kept s (t.fwStage off bs) := h.modBank fun _ hx => Mem.wf_writeBytes _ _ _ hx
theorem fwChunk : Kept s t.fwChunk := h.serveWrite fun _ _ _ _ hu => .ite hu.ans (.ite hu.ans (.ite hu.ans hu.fwStage.ans))
theorem fwStageMem : Kept s t.fwStageMem :=
  h.serveWrite fun _ _ _ _ hu => .ite hu.ans (.ite hu.ans (hu.accept fun _ _ hv => (hv.modBank (by exact fun _ hx => hx))))

theorem fwStageMemEnd {c : RunCmd} {sent : Option Nat} : Kept s (t.fwStageMemEnd c sent) := by
  unfold State.fwStageMemEnd
  dsimp only
  split
  · exact h.fwStage.endCmd.sourceDone
  · exact h.fwStage.endCmd.sourceDone
  · exact h.fwStage.endCmd.sourceDone

theorem fwVerify : Kept s t.fwVerify := h.serveWrite fun _ _ _ _ hu => hu.onTrue fun _ _ _ _ hv => hv.accept fun _ _ hw => hw
theorem fwVerifyEnd {c : RunCmd} : Kept s (t.fwVerifyEnd c) := h.fwSetStage.endCmd
theorem stillSaved {j : Job} : Kept s (t.stillSaved j) := .foldl h _ fun _ _ hu => .ite (hu.touchCluster (by intro; rfl)) hu

theorem activationStep : Kept s t.activationStep := by
  unfold State.activationStep
  split
  · exact h
  · exact .ite h (.foldl (.foldl (h.withBoot (by intro; rfl)) _ fun _ _ hu => hu.stillSaved) _ fun _ _ hu => hu.raiseStop)

theorem activationBegin {ticket : Word} {b : Nat} : Kept s (t.activationBegin ticket b) :=
  .activationStep (.ite (.ledgerPut (h.withBoot (by intro; rfl))) (h.withBoot (by intro; rfl)))

theorem fwActivate : Kept s t.fwActivate :=
  h.serveWrite fun _ _ _ _ hu => .ite hu.ans (.ite hu.ans (hu.accept fun _ _ hv => .ite hv hv.activationBegin))

theorem activationNext : Kept s t.activationNext :=
  .foldl h _ fun _ _ hu => .ite hu (.ite hu.endCmd (.ite hu.endCmd (.ite hu.endCmd hu.activationBegin)))

theorem resolveNew {old : State} : Kept s (t.resolveNew old) := .foldl h _ fun _ _ hu => (hu.withPor (by intro; rfl))
theorem takePlca : Kept s t.takePlca := h.withPor (by intro; rfl)
theorem viewAfter {old : State} : Kept s (t.viewAfter old) := .ite (.viewTake (.ite h.takeGrant h)) (.viewBuild (.ite h.takeGrant h))
theorem activationFails {a : Activation} {status : Nat} : Kept s (t.activationFails a status) :=
  .activationNext (.endCmd (h.withBoot (by intro; rfl)))

theorem activationEnd {a : Activation} : Kept s (t.activationEnd a) := by
  unfold State.activationEnd
  extract_lets rom old u v w x
  have hu : Kept s u := h.withBoot (by intro; rfl)
  have hv : Kept s v := hu.resolveNew.takePlca
  have hw : Kept s w := .ite hv.endRemoval hv
  have hx : Kept s x := .ite hw.lockRoot (.ite hw.seed.viewAfter hw)
  exact .ite h (.ite h.activationFails hx.endCmd.activationNext)

theorem activationExpiry : Kept s t.activationExpiry := by
  unfold State.activationExpiry
  split
  · exact h
  · exact .ite h.activationFails h

theorem ledgerDone {ok : Bool} : Kept s (t.ledgerDone ok) := by
  unfold State.ledgerDone
  split
  · exact h.ledgerEnd.activationStep.removalStep
  · exact h.ledgerEnd
  · exact h

/-! ## Keys, reports and sessions -/

theorem keyWrite {keys : AMap (List Byte)} : Kept s (t.keyWrite keys) := .ledgerPut (h.withPor (by intro; rfl))
theorem keyEnrol : Kept s t.keyEnrol := h.serveWrite fun _ _ _ _ hu => .ite hu.ans hu.keyWrite.ans
theorem keyRevoke : Kept s t.keyRevoke := h.serveWrite fun _ _ _ _ hu => .ite hu.ans (hu.keyWrite.withPor (by intro; rfl)).ans
theorem attest : Kept s t.attest := h.serveWrite fun _ _ _ _ hu => .ite hu.ans (hu.stamp.withPor (by intro; rfl)).ans
theorem debugUnlock : Kept s t.debugUnlock := h.serveWrite fun _ _ _ _ hu => .ite (hu.newChallenge.withPor (by intro; rfl)).ans hu.newChallenge.ans
theorem debugLock : Kept s t.debugLock := h.serveWrite fun _ _ _ _ hu => hu.onTrue fun _ _ _ _ hv => (hv.withPor (by intro; rfl)).ans

theorem emitShake {peer : Peer} {txn : Half} {kind : Nat} {num : Word} {payload : List Byte} : Kept s (t.emitShake peer txn kind num payload) :=
  .ite h.sendField h.sendField.sendField

theorem sendShakes {f : InFrame} {num : Word} {frames : List (Nat × List Byte)} : Kept s (t.sendShakes f num frames) := by
  unfold State.sendShakes
  dsimp only
  split
  · exact .nextFrame (.foldl (h.withPor (by intro; rfl)) _ fun _ _ hu => hu.emitShake)
  · exact .nextFrame (.mailboxDone (h.withPor (by intro; rfl)))

theorem shakeFail {f : InFrame} {reason : Nat} : Kept s (t.shakeFail f reason) := h.sendShakes

theorem hello : Kept s t.hello := by
  unfold State.hello
  split
  · exact h
  · refine .ite h.shakeFail (.ite h.shakeFail (.ite h.shakeFail ?_))
    split
    next q a ha =>
      have ha' : Kept s a := Kept.snd h.draw ha
      extract_lets num
      split
      next nonce b hb =>
        have hb' : Kept s b := Kept.snd ha'.freshBytes hb
        split
        next m c hc =>
          have hc' : Kept s c := Kept.snd hb'.stamp hc
          extract_lets kem challenge tr key
          split
          next n d hd =>
            have hd' : Kept s d := Kept.snd hc'.stamp hd
            exact .sendShakes (.withPor hd' (by intro; rfl))

theorem clientSig : Kept s t.clientSig := by
  unfold State.clientSig
  split
  · exact h
  · split
    · exact h.shakeFail
    · extract_lets u key x
      have hu : Kept s u := h.withPor (by intro; rfl)
      exact .ite hu.shakeFail (.ite hu.shakeFail (.ite hu.shakeFail (.ite hu.shakeFail (hu.withPor (by intro; rfl)).sendShakes)))

theorem closeFrame : Kept s t.closeFrame := by
  unfold State.closeFrame
  split
  · exact h
  · dsimp only
    split
    · exact .nextFrame (.closeSessions (h.withPor (by intro; rfl)))
    · exact .nextFrame (.signalMailbox (.withPor (.closeSessions (h.withPor (by intro; rfl))) (by intro; rfl)))

theorem helloTimeout : Kept s t.helloTimeout := by
  unfold State.helloTimeout
  split
  · exact h
  · dsimp only
    split
    · exact .emitShake (h.withPor (by intro; rfl))
    · exact h.withPor (by intro; rfl)

theorem shakeTimeout {num : Word} : Kept s (t.shakeTimeout num) := by
  unfold State.shakeTimeout
  refine .ite h ?_
  split
  · exact .ite h.helloTimeout h
  · dsimp only
    split
    · exact .emitShake (h.withPor (by intro; rfl))
    · exact h.withPor (by intro; rfl)

theorem sessionIdle {num : Word} : Kept s (t.sessionIdle num) := .ite h h.closeSessions

end Kept

end Sys2Proof.Machine

/-! PROOFS. The factory ledger, the fuse counter and the memories' form (R439, R463): what sweeps, resets and the host keep. -/

namespace Sys2Proof.Machine

namespace Kept
variable {s t : State} (h : Kept s t)
include h

/-! ## The fault sweep -/

theorem fenceCore {c : Nat} : Kept s (t.fenceCore c) := .ite h (.noteTier (.logEvent (h.touchCluster (by intro; rfl))))

theorem detect {cause : SweepCause} : Kept s (t.detect cause) := by
  unfold State.detect
  split
  · exact h
  · exact .ite h.seqFault h
  · exact .ite h.logEvent.coreFault h.logEvent
  · exact .ite h.coreAccFault h
  · exact .ite h.seqAccFault h
  · exact .seqFault (.logEvent (.ite h (h.setRoomState.withMs (by intro; rfl))))
  · split
    · exact .ite h.accFault h
    · exact h

theorem loseRooms : Kept s t.loseRooms := h.of_sweep (.loseRooms (.refl t) ..)
theorem loseAll {n : Nat} : Kept s (State.loseAll n t) := h.of_sweep (.loseAll (.refl t) ..)

theorem catchCancels : Kept s t.catchCancels := by
  unfold State.catchCancels
  refine .foldl h _ fun u n hu => ?_
  split
  · exact .ite hu.cancelEntry hu
  · exact hu

theorem sweepCluster {k : Nat} : Kept s (t.sweepCluster k) := h.of_sweep (.sweepCluster (.refl t) ..)

theorem sweep : Kept s t.sweep := by
  unfold State.sweep
  extract_lets a b c d e f g i k
  have hc : Kept s c := .foldl h.catchCancels.loseAll _ fun _ _ hu => hu.sweepJobRefs
  have hd : Kept s d := hc.withNet
  have he : Kept s e := hd.dropHeldCtrl
  clear_value e
  have hg : Kept s g := he.vacateSlots (f := fun x => { x.vacate with got := [], rewrite := [], refs := 0 }) (refs := []) (trainable := [])
    fun _ => rfl
  have hi : Kept s i := .withMs hg (by intro; rfl)
  have hk : Kept s k := .abandonRolling hi
  exact .withHub (.foldl hk _ fun _ _ hu => hu.sweepCluster) (by intro; rfl)

theorem faultSweep {cause : SweepCause} : Kept s (t.faultSweep cause) := by
  unfold State.faultSweep
  dsimp only
  split
  · exact .fenceCore (.ite h.detect.sweep h.detect)
  · exact .ite h.detect.sweep h.detect

theorem cancelAll : Kept s t.cancelAll := by
  unfold State.cancelAll
  refine .foldl h _ fun _ _ hu => ?_
  split
  · exact .withHub (hu.releaseJob.dropJob _) (by intro; rfl)
  · exact hu

theorem dropSwept : Kept s t.dropSwept := by
  unfold State.dropSwept
  refine .foldl h _ fun _ _ hu => ?_
  split
  · exact .dropJob (.ite hu hu.sweepJobRefs) _
  · exact hu

theorem endAllJobs : Kept s t.endAllJobs := .ite h.dropSwept (.ite h.dropSwept h.cancelAll)

theorem cxlReset : Kept s t.cxlReset := by
  unfold State.cxlReset
  extract_lets a b c
  have ha : Kept s a := h.endAllJobs
  have hb : Kept s b := ⟨ha.factory, ha.fused, ha.pending, fun hs => { ha.wf hs with
    table := (by decide : msixReset.wf = true)
    regs := Mem.wf_empty }⟩
  have hc : Kept s c := .foldl hb _ fun _ _ hu => hu.touchCluster (by intro; rfl)
  refine .removalStep ⟨hc.factory, hc.fused, hc.pending, fun hs => { hc.wf hs with area := Mem.wf_empty }⟩

theorem linkDown : Kept s t.linkDown := .cxlReset (.withMs (h.withBoot (by intro; rfl)) (by intro; rfl))
theorem functionReset : Kept s t.functionReset := .ite h (.ite (h.withHub (by intro; rfl)) h.cxlReset)
theorem linkLoss {inside : Bool} : Kept s (t.linkLoss inside) := .ite h (.linkDown (.ite h.serviceStop h))
theorem perstAssert : Kept s t.perstAssert := .ite (.linkDown (h.withBoot (by intro; rfl))) (h.withBoot (by intro; rfl))
theorem linkUp : Kept s t.linkUp := .ite h (h.withBoot (by intro; rfl))

theorem sweepComplete : Kept s t.sweepComplete := by
  unfold State.sweepComplete
  refine .ite h ?_
  refine .ite ?_ ?_
  · refine .cxlReset ?_
    refine .withHub ?_ (by intro; rfl)
    refine .foldl h.loseAll _ fun _ _ hu => ?_
    split
    · exact hu.closeJob
    · exact hu
  · refine .withHub ?_ (by intro; rfl)
    refine .foldl h.loseAll _ fun _ _ hu => ?_
    split
    · exact hu.closeJob
    · exact hu

theorem addReduce {k : Nat} {f : Nat → Nat} {off : Nat} : Kept s (t.addReduce k f off) := .ite h (.ite h.emit.logNote h.scWrite.countAtomic)

/-! ## Start-up, resets and power losses -/

theorem runBank {b : Nat} {fallback : Bool} : Kept s (t.runBank b fallback) := h.withBoot (by intro; rfl)
theorem bootImage : Kept s t.bootImage :=
  .ite h.fwSetStage.runBank (.ite h.fwSetStage.fwSetStage.runBank (h.fwSetStage.fwSetStage.withBoot (by intro; rfl)))
theorem porterFresh : Kept s t.porterFresh := .newChallenge (.withPor (h.draw.withBoot (by intro; rfl)) (by intro; rfl))
theorem porterBoot : Kept s t.porterBoot := .lockRoot (h.bootImage.porterFresh.resolve.takePlca.withBoot (by intro; rfl))
theorem powerUp : Kept s t.powerUp :=
  .ite h (.ite (.porterBoot (.ringsThrough (h.withBoot (by intro; rfl)))) (.ringsThrough (h.withBoot (by intro; rfl))))
theorem refReturn : Kept s t.refReturn :=
  .ite h (.ite (h.withBoot (by intro; rfl)) (.ite (.porterBoot (h.withBoot (by intro; rfl))) (.lockRoot (.withBoot (h.withBoot (by intro; rfl))
    (by intro; rfl)))))
theorem moduleReset : Kept s t.moduleReset := h.serveWrite fun _ _ _ _ hu => hu.onTrue fun _ _ _ _ hv => (hv.withBoot (by intro; rfl)).ans
theorem powerFault {cause : Byte} : Kept s (t.powerFault cause) := .ite h h.enterReset

theorem rootUnlock {refLost : Bool} : Kept s (t.rootUnlock refLost) := by
  unfold State.rootUnlock
  extract_lets counted u before v
  have hu : Kept s u := .ite h.enterReset h
  have hv : Kept s v := .ite hu.serviceStop hu
  exact .ite (.noteTier (.withPwr (hv.withBoot (by intro; rfl)))) hv

theorem hubsReady : Kept s t.hubsReady := .ite (h.withBoot (by intro; rfl)) h

theorem stackTrained {m : Nat} {how : Training} : Kept s (t.stackTrained m how) := by
  unfold State.stackTrained
  refine .ite h ?_
  split
  · exact h.modStack.fenceStack
  · exact h.modStack.memZero
  · exact h.modStack.memZero.withBoot (by intro; rfl)

theorem finishErase {i : Nat} : Kept s (t.finishErase i) := .ite h.freeSlot h

theorem flashTrained {failed : BitVec 128} : Kept s (t.flashTrained failed) :=
  .ite h (.withBoot (.foldl (.foldl h _ fun _ _ hu => hu.fenceFlash) _ fun _ _ hu => hu.finishErase) (by intro; rfl))

theorem fenceLate : Kept s t.fenceLate := by
  unfold State.fenceLate
  extract_lets u
  have hu : Kept s u := .foldl h _ fun _ _ hu => .ite hu hu.modStack.fenceStack
  exact .ite hu (.foldl hu _ fun _ _ hv => hv.fenceFlash)

theorem bistFence : Kept s t.bistFence := by
  unfold State.bistFence
  extract_lets v on note a b c d e
  have ha : Kept s a := .foldl h _ fun _ _ hu => .logEvent (hu.touchCluster (by intro; rfl))
  have hb : Kept s b := .foldl ha _ fun _ _ hu => .ite hu (.logEvent (hu.touchCluster (by intro; rfl)))
  have hc : Kept s c := .foldl hb _ fun _ _ hu => .ite hu hu.fenceStack
  have hd : Kept s d := .foldl hc _ fun _ _ hu => .foldl hu _ fun _ _ hv => .ite hv hv.fenceFlash
  have he : Kept s e := .foldl hd _ fun _ _ hu => hu.modPort.logEvent
  exact .foldl he _ fun _ _ hu => .logEvent (hu.update (by rfl))

theorem setPools : Kept s t.setPools := by
  unfold State.setPools
  exact .withMs (h.withMs (by intro; rfl)) (by intro; rfl)

theorem freshCluster {k : Nat} : Kept s (t.freshCluster k) := by
  unfold State.freshCluster
  refine .modCluster h.stamp _ fun c hc => ?_
  rw [Cluster.memWf_iff] at hc ⊢
  exact ⟨Mem.wf_forget _ _ _ _ Mem.wf_empty, hc.2⟩

theorem windowAtStart {i : Nat} : Kept s (t.windowAtStart i) := by
  unfold State.windowAtStart
  exact h.touchSlot (by intro; rfl)

theorem startReady : Kept s t.startReady := by
  unfold State.startReady
  refine .ite h ?_
  split
  next q a hq =>
    have ha : Kept s a := Kept.snd h.draw hq
    extract_lets b c d on e
    have hb : Kept s b := .ite ha (ha.withBoot (by intro; rfl))
    have hc : Kept s c := hb.fenceLate.bistFence.setPools
    have hd : Kept s d := .foldl hc _ fun _ _ hu => hu.freshCluster
    have he : Kept s e := .foldl hd _ fun _ _ hu => hu.setBlock
    clear_value e
    split
    next r f hr =>
      have hf : Kept s f := Kept.snd he.draw hr
      extract_lets g k l m
      have hg : Kept s g := hf.withBoot (by intro; rfl)
      have hk : Kept s k := hg.seed
      have hl : Kept s l := .foldl hk _ fun _ _ hu => hu.windowAtStart
      have hm : Kept s m := hl.takeGrant.viewTake
      exact .foldl hm _ fun _ _ hu => .selfTested (.ite hu.bypassDone.startJoin hu.bypassDone)

theorem cutAtLoss {c : RunCmd} : Kept s (t.cutAtLoss c) := by
  unfold State.cutAtLoss
  split
  · exact h.stamp.modSlot _ fun _ hx => Mem.wf_forget _ _ _ _ hx
  · exact .ite h.cutStage h

theorem unpowered : Kept s t.unpowered :=
  ⟨h.factory, h.fused, h.pending, fun hs => {
    mem := Mem.wf_empty
    clusters := rfl
    cores := rfl
    jobs := rfl
    slots := all_map_snd (P := fun x : Slot => x.stream.wf) (Q := fun x : Slot => x.stream.wf)
      (f := fun x => { x with sealing := false, configured := false })
      (all_map_snd (P := fun x : Slot => x.stream.wf) (Q := fun x : Slot => x.stream.wf) (f := Slot.inFlash)
        (h.wf hs).slots fun _ hx => hx) fun _ hx => hx
    banks := (h.wf hs).banks
    area := Mem.wf_empty
    table := (by decide : msixReset.wf = true)
    regs := Mem.wf_empty }⟩

theorem powerLoss : Kept s t.powerLoss := by
  rw [powerLoss_eq]
  exact .unpowered (.ringsThrough (.ledgerCut (.foldl h _ fun _ _ hu => hu.cutAtLoss)))

theorem resolvePorter : Kept s t.resolvePorter := h.update (by rfl)
theorem viewFollow {old : State} : Kept s (t.viewFollow old) := .ite h.takeGrant.viewTake h

theorem porterRestart : Kept s t.porterRestart := by
  unfold State.porterRestart
  extract_lets a b c
  have ha : Kept s a := .foldl h _ fun _ _ hu => hu.cutStage
  have hb : Kept s b := ha.ledgerCut.withPor (by intro; rfl)
  have hc : Kept s c := hb.withBoot (by intro; rfl)
  exact .ite h (.foldl hc.bootImage.porterFresh.resolvePorter.takePlca.viewFollow _ fun _ _ hu => hu.autoBypass)

/-! ## Frames and writes of the dictionary -/

theorem fieldFrame {d : Datagram} : Kept s (t.fieldFrame d) := .ite h.frameArrives h
theorem afterWrite {i u : Nat} : Kept s (t.afterWrite i u) := .ite h.autoBypass h

theorem dictWrite : Kept s t.dictWrite := by
  unfold State.dictWrite
  refine .serveWrite h (fun _ _ _ _ hu => ?_)
  dsimp only
  split
  · exact hu.ans
  · exact hu.setDv.afterWrite.ans

theorem slotWriteEnd {c : RunCmd} {w : SlotWrite} {how : CmdEnd} : Kept s (t.slotWriteEnd c w how) := by
  unfold State.slotWriteEnd
  split
  · exact .ite (.ite h.endSlotWrite h) (.ite h.programFrom.endSlotWrite h)
  · exact .ite h (.ite h h.programFrom.endSlotWrite)
  · exact h

theorem bulkLost {c : RunCmd} {b : BulkSend} : Kept s (t.bulkLost c b) := h.countTries.cwLost
theorem bulkTries {b : BulkSend} {rs : List (Nat × Nat)} : Kept s (t.bulkTries b rs) := .foldl h _ fun _ _ hu => hu.countTries

theorem bulkEnd {c : RunCmd} {b : BulkSend} {how : CmdEnd} : Kept s (t.bulkEnd c b how) := by
  unfold State.bulkEnd
  dsimp only
  split
  · exact .ite h.endCmd h
  · exact .ite (.ite h.endCmd.sourceDone h.endCmd.bulkLost) h
  · exact .ite h (.ite (.ite h.bulkTries.endCmd h) (.ite h.bulkTries.endCmd.bulkLost h))
  · exact h

theorem ledgerCmdEnd {c : RunCmd} {how : CmdEnd} : Kept s (t.ledgerCmdEnd c how) := by
  unfold State.ledgerCmdEnd
  dsimp only
  split
  · exact .ite h.ledgerEnd h
  · exact .ite h.ledgerEnd h
  · exact h

theorem commandEnd {ticket : Word} {how : CmdEnd} : Kept s (t.commandEnd ticket how) := by
  unfold State.commandEnd
  refine .ite h ?_
  split
  · exact h
  · split
    · exact h.slotWriteEnd
    · exact h.bulkEnd
    · split
      · exact h.sealEnd
      · exact h.sealEnd
      · exact h
    · exact .ite h.eraseEnd h
    · exact h.ledgerCmdEnd
    · split
      · exact h.fwStageMemEnd
      · exact h.fwStageMemEnd
      · exact h
    · exact .ite h.fwVerifyEnd h
    · split
      · exact .ite h.activationEnd h
      · exact h
    · exact h

/-! ## Host memory accesses and the patrol scrub -/

theorem grantLine {line : Nat} : Kept s (t.grantLine line) := by
  unfold State.grantLine
  refine .ite (h.withMs (by intro; rfl)) ?_
  refine .withMs ?_ (by intro; rfl)
  split
  · exact .ite h.snoopInv h
  · exact h

theorem countPoison {a n : Nat} : Kept s (t.countPoison a n) := .foldl h _ fun _ _ hu => hu.countUe
theorem hostReadDone {a : Nat} : Kept s (t.hostReadDone a) := .countRead (.foldl h.countFlips _ fun _ _ hu => hu.useParity)

theorem hostReadBy {l : Nat} {e : Option AccErr} {p : Option Nat} : Kept s (t.hostReadBy l e p) := by
  unfold State.hostReadBy
  split
  · exact h.emit.logNote
  · exact h.grantLine.emit.countUe
  · exact h.hostReadDone.grantLine.emit.countPoison
  · exact h.hostReadDone.grantLine.emit

theorem hostRead {hpa : Nat} : Kept s (t.hostRead hpa) := by
  cases hline : t.hdmLine hpa with
  | none => exact (hostRead_outside hline).symm ▸ h
  | some l =>
    cases hreach : t.hostReaches with
    | false => exact (hostRead_unreached hline hreach).symm ▸ h
    | true => exact (hostRead_inside hline hreach).symm ▸ h.hostReadBy

theorem hostPut {a : Nat} {bs : List (Nat × Byte)} {be : Quad} : Kept s (t.hostPut a bs be) := by
  unfold State.hostPut
  refine .foldl (.countWritten (.withMem (.foldl h _ fun _ _ hu => hu.modStack) fun _ hm => ?_)) _ fun _ _ hu => hu.useParity
  exact Mem.wf_foldl (fun m _ hm => Mem.wf_write m _ _ hm) _ hm

theorem hostDrop {l : Nat} : Kept s (t.hostDrop l) := h.emit.logNote

theorem hostWriteBy {l : Nat} {data : Desc} {be : Quad} {e : Option AccErr} {b : Bool} {p : Option Nat} :
    Kept s (t.hostWriteBy l data be e b p) := by
  unfold State.hostWriteBy
  split
  · exact h.emit.logNote
  · exact .ite h.hostDrop.countUe h.hostDrop
  · exact h.hostDrop
  · exact h.hostDrop.countUe
  · exact h.hostPut.emit

theorem hostWrite {hpa : Nat} {data : Desc} {be : Quad} : Kept s (t.hostWrite hpa data be) := by
  cases hline : t.hdmLine hpa with
  | none => exact (hostWrite_outside hline data be).symm ▸ h
  | some l =>
    cases hreach : t.hostReaches with
    | false => exact (hostWrite_unreached hline hreach data be).symm ▸ h
    | true => exact (hostWrite_inside hline hreach data be).symm ▸ h.hostWriteBy

theorem snoopAnswered {hpa : Nat} : Kept s (t.snoopAnswered hpa) := by
  cases hline : t.hdmLine hpa with
  | none => exact (snoopAnswered_outside hline).symm ▸ h
  | some l => exact (snoopAnswered_inside hline).symm ▸ (h.update (by rfl))

theorem scrubLost {m : Nat} : Kept s (t.scrubLost m).2 := by
  unfold State.scrubLost
  exact .ite_snd h.draw h.useParity

theorem scrub {m ch : Nat} {corrected bad : List (Fin 64)} : Kept s (t.scrub m ch corrected bad) := by
  unfold State.scrub
  extract_lets unit
  refine .ite h ?_
  split
  next lost a hlost =>
    have ha : Kept s a := Kept.snd h.scrubLost hlost
    extract_lets b old mended c d e ues
    have hb : Kept s b := ha.countRead
    have hc : Kept s c := hb.withMs (by intro; rfl)
    have hd : Kept s d := hc.modStack
    have he : Kept s e := .ite hd hd.countWritten
    exact .foldl he _ fun _ _ hu => .countUe (hu.withMs (by intro; rfl))

/-! ## Registers of BAR0 -/

theorem pairWrite {k off n v : Nat} : Kept s (t.pairWrite k off n v) := by
  unfold State.pairWrite
  dsimp only
  split
  · exact .ite (.ite h.modPair.qpEnable h.logNote) h.modPair
  · exact .ite h h.qpDisable
  · exact h

theorem mbDoorbell : Kept s t.mbDoorbell := .ite h (.ite h.logNote (.frameArrives (h.withPor (by intro; rfl))))

theorem putTable {f : Hub → Hub} (hf : ∀ x, (f x).jobs = x.jobs ∧ (f x).cxlRegs = x.cxlRegs ∧ (x.msixTable.wf = true → (f x).msixTable.wf = true)) :
    Kept s (t.withHub f) :=
  ⟨h.factory, h.fused, h.pending, fun hs => { h.wf hs with
    jobs := (congrArg (List.all · Job.memWf) (hf _).1).trans (h.wf hs).jobs
    table := (hf _).2.2 (h.wf hs).table
    regs := (congrArg Mem.wf (hf _).2.1).trans (h.wf hs).regs }⟩

theorem msixWrite {off n v : Nat} : Kept s (t.msixWrite off n v) := by
  unfold State.msixWrite
  extract_lets k was u now
  have hu : Kept s u := h.putTable fun _ => ⟨rfl, rfl, fun hm => Mem.wf_writeLE _ _ _ _ (Mem.wf_writeLE _ _ _ _ hm)⟩
  clear_value u
  exact .ite (.emit (hu.withHub (by intro; rfl))) hu

theorem putRegs {w v : Nat} : Kept s (t.withHub fun x => { x with cxlRegs := cxlWrite x.cxlRegs w v }) :=
  ⟨h.factory, h.fused, h.pending, fun hs => { h.wf hs with regs := wf_cxlWrite w v (h.wf hs).regs }⟩

theorem putArea {a n v : Nat} : Kept s (t.withPor fun p => { p with reqArea := p.reqArea.writeLE a n v }) :=
  ⟨h.factory, h.fused, h.pending, fun hs => { h.wf hs with area := Mem.wf_writeLE _ _ _ _ (h.wf hs).area }⟩

theorem regWrite {off n v : Nat} : Kept s (t.regWrite off n v) := by
  unfold State.regWrite
  refine .ite h.emit.logNote (.ite h.pairWrite (.ite (.ite h.sqTail (.ite h.cqHead h)) (.ite h.putRegs (.ite (.ite h.mbDoorbell h) ?_))))
  exact .ite (.ite h h.putArea) (.ite h.msixWrite (.ite (.ite (h.touchCluster (by intro; rfl)) (.ite h.addReduce (.ite h.addReduce h))) h))

theorem registerWrite {off : Nat} {v : Quad} {wide : Bool} : Kept s (t.registerWrite off v wide) :=
  .ite h (.ite h.regWrite (.ite h.regWrite h.regWrite.regWrite))

end Kept

end Sys2Proof.Machine

/-! PROOFS. Each command by its operation, and a step: the factory ledger, the fuse counter and the memories' form (R439, R463). -/

namespace Sys2Proof.Machine

/-- What a command that answers a next state keeps. -/
def ResKept (s : State) (r : Res) : Prop := ∀ t, r = .next t → Kept s t

theorem ResKept.next {s t : State} (h : Kept s t) : ResKept s (.next t) := fun _ e => Host.Outcome.next.inj e ▸ h

/-! ## The sequencer's commands -/

namespace Kept
variable {s t : State} (h : Kept s t)
include h

theorem seqAdvanceReg {k : Nat} {word : Word} {cores : BitVec 16} {desc : Quad} {left : List (Nat × Nat)} {pc : Quad} {r : BitVec 5}
    {v : Seq → Quad} :
    Kept s (t.seqAdvance k word cores desc left pc fun q => q.setReg r (v q)) :=
  h.seqAdvance fun q hq => (congrArg Mem.wf (loc_setReg q r (v q))).trans hq

theorem seqNextReg {k : Nat} {word : Word} {r : BitVec 5} {v : Seq → Quad} : Kept s (t.seqNext k word fun q => q.setReg r (v q)) := h.seqAdvanceReg

theorem seqOpReg {k : Nat} {word : Word} {r : BitVec 5} {v : Seq → Quad} : Kept s (t.seqOp k word fun q => q.setReg r (v q)) := .ite h.seqNextReg h

theorem seqStore {k : Nat} {word : Word} {a n : Nat} {v : Seq → Nat} :
    Kept s (t.seqOp k word fun q => { q with loc := q.loc.writeLE a n (v q) }) :=
  h.seqOp fun _ hq => Mem.wf_writeLE _ _ _ _ hq

theorem stx {k : ClusterId} {gd ga : BitVec 5} {imm : Half} : ResKept s (execStx k gd ga imm t) := by
  unfold execStx
  extract_lets a w
  refine .next ?_
  split
  · exact h
  · exact h.seqFault
  · exact h.seqFault
  · refine .ite h.seqFault (h.bumpCluster.seqNext fun q hq => ?_)
    split
    · exact hq
    · exact hq

theorem issue {k : ClusterId} {gd ga gb : BitVec 5} {fn : BitVec 11} : ResKept s (execIssue k gd ga gb fn t) := by
  unfold execIssue
  extract_lets a legal mask cs d go
  have hgo : Kept s go := .seqAdvance h.bumpCluster (by exact fun _ hq => hq)
  exact .next (h.seqLegal (.ite hgo.issueTo hgo))

theorem issueResume {k : ClusterId} : ResKept s (execIssueResume k t) := by
  unfold execIssueResume
  refine .next ?_
  split
  · exact .ite (h.seqResume (by exact fun _ hq => hq)).issueTo h
  · exact h

theorem tfenceRelease {k : ClusterId} : ResKept s (execTfenceRelease k t) := by
  unfold execTfenceRelease
  refine .next ?_
  split
  · exact .ite (h.seqResume (by exact fun _ hq => hq)).bumpClusterFree h
  · exact h

theorem cwaitRelease {who : Agent} : ResKept s (execCwaitRelease who t) := by
  cases who with
  | seq k => exact .next h.seqCwaitRelease
  | core c => exact .next h.coreCwaitRelease

theorem syncPostEffect {who : Agent} : ResKept s (execSyncPostEffect who t) := by
  cases who with
  | seq k => exact .next h.seqSyncPost
  | core c => exact .next h.coreSyncPost

theorem barrierRelease {job : JobId} {chan : Fin 16} : ResKept s (execBarrierRelease job chan t) := by
  unfold execBarrierRelease
  refine .next ?_
  split
  · exact .ite h.barRelease h
  · exact h

theorem csrr {k : ClusterId} {gd ga : BitVec 5} {imm : Half} : ResKept s (execCsrr k gd ga imm t) := by
  unfold execCsrr
  refine .next ?_
  split
  · exact h
  · split
    · exact .ite h.seqNextReg h.seqFault
    · exact h.seqFault

theorem rampStep : ResKept s t.rampStep := by
  obtain ⟨f, e⟩ | e := rampStep_cases t
  · exact e ▸ .next h.withPwr
  · exact e ▸ .next h.undefined

/-! ## Every command -/

/-- Every command but ROLLBACK_COMMIT, by its operation. -/
theorem exec {c : Instr} (hc : c ≠ .rollbackCommit) : ResKept s (exec c t) := by
  cases c with
  | aluAdd => exact .next h.aluOp
  | aluSub => exact .next h.aluOp
  | aluAnd => exact .next h.aluOp
  | aluOr => exact .next h.aluOp
  | aluXor => exact .next h.aluOp
  | aluShl => exact .next h.aluOp
  | aluShr => exact .next h.aluOp
  | aluSra => exact .next h.aluOp
  | aluMul => exact .next h.aluOp
  | aluMulh => exact .next h.aluOp
  | aluMin => exact .next h.aluOp
  | aluMax => exact .next h.aluOp
  | aluMinu => exact .next h.aluOp
  | aluMaxu => exact .next h.aluOp
  | aluSlt => exact .next h.aluOp
  | aluSltu => exact .next h.aluOp
  | addi => exact .next h.immOp
  | andi => exact .next h.immOp
  | ori => exact .next h.immOp
  | xori => exact .next h.immOp
  | shli => exact .next (h.seqLegal h.immOp)
  | shri => exact .next (h.seqLegal h.immOp)
  | srai => exact .next (h.seqLegal h.immOp)
  | lui => exact .next (h.seqLegal h.immOp)
  | slti => exact .next h.immOp
  | ld => exact .next (h.seqLegal h.seqOpReg)
  | st => exact .next (h.seqLegal h.seqStore)
  | ldx => exact .next h.narrowBegin
  | stx => exact h.stx
  | amoAdd => exact .next h.narrowBegin
  | amoSwap => exact .next h.narrowBegin
  | amoMin => exact .next h.narrowBegin
  | amoMax => exact .next h.narrowBegin
  | narrowReturn => exact .next h.narrowReturn
  | beq => exact .next h.branchOp
  | bne => exact .next h.branchOp
  | blt => exact .next h.branchOp
  | bge => exact .next h.branchOp
  | bltu => exact .next h.branchOp
  | bgeu => exact .next h.branchOp
  | jal => exact .next (.ite h h.seqAdvanceReg)
  | jalr => exact .next (.ite h h.seqAdvanceReg)
  | issue => exact h.issue
  | issueResume => exact h.issueResume
  | tfence => exact .next (h.seqLegal (.ite (h.seqNext (by exact fun _ hq => hq)) (h.seqAdvance (by exact fun _ hq => hq))))
  | tfenceRelease => exact h.tfenceRelease
  | cwait => exact .next (h.withCounter fun _ _ _ => .ite (h.seqNext (by exact fun _ hq => hq)) (h.seqAdvance (by exact fun _ hq => hq)))
  | cwaitRelease => exact h.cwaitRelease
  | cpost => exact .next (h.withCounter fun _ _ _ => .ite (h.seqNext (by exact fun _ hq => hq)).seqPost (h.seqNext (by exact fun _ hq => hq)))
  | cset => exact .next (h.withCounter fun _ _ _ => (h.seqNext (by exact fun _ hq => hq)).setSync.counterChanged)
  | cread => exact .next (h.withCounter fun _ _ _ => h.seqNextReg)
  | seqBar => exact .next (h.withCounter fun _ _ _ => .ite (h.seqAdvance (by exact fun _ hq => hq)).barArrive h.seqFault)
  | barrierRelease => exact h.barrierRelease
  | bcfg => exact .next (h.withCounter fun _ _ _ => .ite (h.seqNext (by exact fun _ hq => hq)).modBarrier h.seqFault)
  | pread => exact .next (h.withCounter fun _ _ _ => h.seqNextReg)
  | pset => exact .next (h.withCounter fun _ _ _ => (h.seqNext (by exact fun _ hq => hq)).setProg)
  | csrr => exact h.csrr
  | halt => exact .next (h.seqLegal (h.seqNext (by exact fun _ hq => hq)))
  | tileStart => exact .next h.tileStart
  | tileRetire => exact .next h.tileRetire
  | mma => exact .next h.runMma
  | mmaLa => exact .next h.runMmaLa
  | mmaRs => exact .next h.runMmaRs
  | mmaAg => exact .next h.runMmaAg
  | attnFwd => exact .next h.runAttn
  | attnBwd => exact .next h.runAttn
  | attnRelay => exact .next h.runRelay
  | sfn => exact .next h.runVector
  | norm => exact .next h.runVector
  | smax => exact .next h.runVector
  | crop => exact .next h.runVector
  | reuseChk => exact .next h.runReuse
  | tabResolve => exact .next h.tabResolve
  | tabLogRestore => exact .next h.tabLogRestore
  | conv => exact .next h.runConv
  | convDw => exact .next h.runConv
  | lineBufferFill => exact .next h.lineFill
  | move => exact .next h.runMove
  | gath => exact .next h.runGath
  | scatKv => exact .next h.runScat
  | tblLoad => exact .next h.runTblLoad
  | moveA2a => exact .next h.runMoveX
  | moveAr => exact .next h.runMoveX
  | wait => exact .next h.startFam
  | post => exact .next h.startFam
  | bar => exact .next h.startFam
  | syncPostEffect => exact h.syncPostEffect
  | progressPostEffect => exact .next h.coreProgressPost
  | chainCommit => exact .next h.chainCommit
  | weightTileReady => exact .next h.weightReady
  | tierDeadlineExpiry => exact .next h.tierExpiry
  | coreStopped => exact .next h.coreStopped
  | jobSave => exact .next h.saveJob
  | jobRestore => exact .next h.restoreJob
  | clusterZeroed => exact .next h.clusterZeroed
  | hostMemRead => exact .next h.hostRead
  | hostMemWrite => exact .next h.hostWrite
  | bisnpResponse => exact .next h.snoopAnswered
  | patrolScrub => exact .next h.scrub
  | windowFill => exact .next h.windowFill
  | codewordReadDone => exact .next h.codewordDone
  | onDemandFetch => exact .next h.onDemandFetch
  | slotCreate => exact .next h.slotCreate
  | slotWrite => exact .next h.slotWrite
  | slotSeal => exact .next h.slotSeal
  | slotSwitch => exact .next h.slotSwitch
  | slotMapWrite => exact .next h.slotMapWrite
  | slotErase => exact .next h.slotErase
  | flashFence => exact .next h.flashFence
  | windowConfigWrite => exact .next h.windowConfig
  | adapterLoad => exact .next h.adapterLoad
  | adapterUnload => exact .next h.adapterUnload
  | roomPin => exact .next h.roomPin
  | roomUnpin => exact .next h.roomUnpin
  | vacancyTimeout => exact .next h.vacancyTimeout
  | roomLink => exact .next h.roomLink
  | reuseClear => exact .next h.reuseClear
  | reuseConfigWrite => exact .next h.reuseConfig
  | tabEnable => exact .next h.tabEnable
  | frameReceive => exact .next h.frameReceive
  | frameTransmit => exact .next h.frameTransmit
  | creditReturnRecv => exact .next h.creditReturn
  | peerIdentityRecv => exact .next h.peerIdentity
  | portTrain => exact .next h.portTrain
  | portTrainTimeout => exact .next h.trainTimeout
  | laneCdrLoss => exact .next h.cdrLoss
  | laneSerWindow => exact .next h.serWindow
  | portLocalFault => exact .next h.localFault
  | portRetrainTimer => exact .next h.portRetrain
  | portDrainTimeout => exact .next h.drainTimeout
  | portDrained => exact .next h.portDrained
  | bulkStarvation => exact .next h.bulkStarved
  | bulkSlotDataRecv => exact .next h.slotDataRecv
  | bulkMigrationRecv => exact .next h.migrationRecv
  | bulkSend => exact .next h.bulkSend
  | portFence => exact .next h.portFence
  | portUnfence => exact .next h.portUnfence
  | ringJoin => exact .next h.ringJoin
  | ringLeave => exact .next h.ringLeave
  | bypassMoveDone => exact .next h.bypassDone.removalStep
  | exchMessageReceive => exact .next h.exchReceive
  | reduceSegment => exact .next h.reduceSegment
  | relayForward => exact .next h.relayForward
  | xbarArriveRecv => exact .next h.xbarArrive
  | xbarReleaseRecv => exact .next h.xbarRelease
  | xbarAbortRecv => exact .next h.xbarAbort
  | exchStallTimer => exact .next h.exchStall
  | routeEntryWrite => exact .next h.routeWrite
  | sqTailDoorbell => exact .next h.sqTail
  | cqHeadDoorbell => exact .next h.cqHead
  | qpEnable => exact .next h.qpEnable
  | qpDisable => exact .next h.qpDisable
  | submissionFetch => exact .next h.fetch
  | nop => exact .next (h.command fun _ _ hu => hu.completeFetched)
  | jobSubmit => exact .next h.submit
  | admissionResume => exact .next h.submit
  | cancel => exact .next (h.command fun _ _ hu => hu.cancelEntry)
  | streamOpen => exact .next (h.command fun _ _ hu => hu.streamOpen)
  | streamEnd => exact .next (h.command fun _ _ hu => hu.streamEnd)
  | jobDispatch => exact .next h.dispatch
  | preempt => exact .next h.preempt
  | jobComplete => exact .next h.completeIfDone
  | cqCoalTimeout => exact .next h.coalTimeout
  | faultSweep => exact .next h.faultSweep
  | sweepComplete => exact .next h.sweepComplete
  | addReduceFp32 => exact .next h.addReduce
  | addReduceInt32 => exact .next h.addReduce
  | functionLevelReset => exact .next h.functionReset
  | cxlLinkLoss => exact .next h.linkLoss
  | perstAssert => exact .next h.perstAssert
  | perstDeassert => exact .next (h.withBoot (by intro; rfl))
  | encFrameStart => exact .next h.frameStart
  | encTileDone => exact .next h.tileDone
  | encTileGroupEmit => exact .next h.groupEmit
  | encOverrunTimeout => exact .next h.encOverrun
  | engineFence => exact .next h.engineFence
  | engineUnfence => exact .next h.engineUnfence
  | clusterFence => exact .next h.clusterFence
  | clusterUnfence => exact .next h.clusterUnfence
  | blockEnablesWrite => exact .next h.blockEnables
  | blockDrained => exact .next h.blockDrained
  | divOverrideWrite => exact .next h.divOverride
  | rampStep => exact h.rampStep
  | stewardSample => exact .next h.powerSample
  | stewardPeriod => exact .next h.period
  | profileAutosave => exact .next h.profileSave
  | stewardSave => exact .next h.stewardSave
  | stewardReset => exact .next h.stewardReset
  | powerFault => exact .next h.powerFault
  | rootUnlock => exact .next h.rootUnlock
  | powerUp => exact .next h.powerUp
  | stackTrained => exact .next h.stackTrained
  | flashTrained => exact .next h.flashTrained
  | startReady => exact .next h.startReady
  | moduleReset => exact .next h.moduleReset
  | porterRestart => exact .next h.porterRestart
  | prepareRemoval => exact .next h.prepareRemoval
  | cancelRemoval => exact .next h.cancelRemoval
  | fwStageChunk => exact .next h.fwChunk
  | fwStageMem => exact .next h.fwStageMem
  | fwVerify => exact .next h.fwVerify
  | fwActivate => exact .next h.fwActivate
  | fwActivateWaitExpiry => exact .next h.activationExpiry
  | rollbackCommit => exact absurd rfl hc
  | keyEnrol => exact .next h.keyEnrol
  | keyRevoke => exact .next h.keyRevoke
  | attestNonce => exact .next h.attest
  | debugUnlock => exact .next h.debugUnlock
  | debugLock => exact .next h.debugLock
  | ledgerCommit => exact .next h.ledgerCommit
  | restoreFactory => exact .next h.restoreFactory
  | userViewConfigWrite => exact .next h.viewConfig
  | porterFrameReceive => exact .next h.fieldFrame
  | dictRead => exact .next h.dictRead
  | dictWrite => exact .next h.dictWrite
  | asyncCommandEnd => exact .next h.commandEnd
  | mbDoorbell => exact .next h.mbDoorbell
  | hello => exact .next h.hello
  | clientSig => exact .next h.clientSig
  | close => exact .next h.closeFrame
  | handshakeTimeout => exact .next h.shakeTimeout
  | sessionIdleTimeout => exact .next h.sessionIdle
  | bistRun => exact .next h.bistRun
  | bistRunEnd => exact .next h.bistEnd
  | rollingBistTurn => exact .next h.rollingTurn
  | alertAck => exact .next h.alertAck
  | bwWindowEnd => exact .next h.bwWindow
  | registerWrite => exact .next h.registerWrite
  | standbyPowerLoss => exact .next h.powerLoss
  | referenceReturn => exact .next h.refReturn
  | hubsReady => exact .next h.hubsReady
  | cxlLinkUp => exact .next h.linkUp
  | ledgerWriteDone => exact .next h.ledgerDone
  | keyLedgerRetry => exact .next h.keyRetry
  | userViewRefresh => exact .next h.viewRefresh
  | narrowAccepted => exact .next h.narrowAccepted
theorem idle : Kept s t.idle := by
  unfold State.idle
  exact .ite (h.update (by rfl)) h

end Kept

/-! ## ROLLBACK_COMMIT -/

/-- The fuse counter one step on. -/
def State.blown (s : State) : State := s.withPor fun p => { p with fusedSvn := p.fusedSvn + 1 }

theorem memWf_blown {s : State} (hs : s.MemWf) : s.blown.MemWf := (memWf_iff _).1 ((memWf_iff s).2 hs :)

/-- A step of the fuse counter from below 64, with nothing altered before it and after it. -/
def Blown (s t : State) : Prop := ∃ u, Kept s u ∧ u.por.fusedSvn < 64 ∧ Kept u.blown t

namespace Blown
variable {s t : State} (h : Blown s t)
include h

theorem factory : t.por.factory = s.por.factory := by
  obtain ⟨u, hu, -, ht⟩ := h
  exact ht.factory.trans hu.factory

theorem pending : t.pending = s.pending := by
  obtain ⟨u, hu, -, ht⟩ := h
  exact ht.pending.trans hu.pending

theorem fused : t.por.fusedSvn = s.por.fusedSvn + 1 := by
  obtain ⟨u, hu, -, ht⟩ := h
  exact ht.fused.trans (congrArg (· + 1) hu.fused)

theorem le : t.por.fusedSvn ≤ 64 := by
  obtain ⟨u, -, hlt, ht⟩ := h
  exact ht.fused.trans_le hlt

theorem wf (hs : s.MemWf) : t.MemWf := by
  obtain ⟨u, hu, -, ht⟩ := h
  exact ht.wf (memWf_blown (hu.wf hs))

end Blown

/-- The counter moves where the record asks for it, below 64, and the image's SVN allows it (R463). -/
theorem rollbackCommit_kept_or_blown (s : State) : Kept s s.rollbackCommit ∨ Blown s s.rollbackCommit := by
  unfold State.rollbackCommit State.serveWrite
  split
  · exact .inl (.refl s)
  · split
    · exact .inl (.refl s)
    · split
      · next heq => exact .inl (Kept.answer ((Kept.refl s).lookWrite.refuse heq))
      · next heq => exact .inl (Kept.answer ((Kept.refl s).lookWrite.staged heq))
      · next u heq =>
        have hu : Kept s u := (Kept.refl s).lookWrite.value heq
        dsimp only [onTrue]
        split
        · split
          · exact .inl hu.answer
          · next hallow => exact .inr ⟨u, hu, by omega, (Kept.refl u.blown).answer⟩
        · exact .inl hu.answer

/-! ## A command, and a step -/

theorem exec_kept_or_blown {c : Instr} {s t : State} (e : exec c s = .next t) : Kept s t ∨ c = .rollbackCommit ∧ Blown s t := by
  by_cases hc : c = .rollbackCommit
  · subst hc
    have ht : s.rollbackCommit = t := Host.Outcome.next.inj e
    subst ht
    exact (rollbackCommit_kept_or_blown s).imp_right (⟨rfl, ·⟩)
  · exact .inl ((Kept.refl s).exec hc t e)

/-- What a step leaves to the command that it runs: the commands behind it. -/
def State.behindFront (s : State) : State := { s with pending := s.pending.drop 1 }

theorem step_kept_or_blown {s t : State} (e : step s = .next t) : Kept s.behindFront t ∨ Blown s.behindFront t := by
  unfold step at e
  unfold State.behindFront
  split at e
  · next hnone =>
    have ht : s.idle = t := Host.Outcome.next.inj e
    have hs : Kept { s with pending := s.pending.drop 1 } s :=
      ⟨rfl, rfl, by rw [hnone]; rfl, fun hw => (memWf_iff s).1 ((memWf_iff _).2 hw :)⟩
    exact .inl (ht ▸ hs.idle)
  · next c rest hfront =>
    rw [hfront]
    exact (exec_kept_or_blown e).imp_right And.right

/-- Settles O60: each command by what its operation keeps of the ledger, the counter and the memories, and ROLLBACK_COMMIT apart. -/
theorem factoryAndFusesKept : Obligations.FactoryAndFusesKept := by
  unfold Obligations.FactoryAndFusesKept
  refine ⟨fun c s t e => ?_, fun s t e hfused => ?_, fun s t e hwf => ?_⟩
  · obtain h | ⟨hc, h⟩ := exec_kept_or_blown e
    · exact ⟨h.factory, h.pending, .inl h.fused⟩
    · exact ⟨h.factory, h.pending, .inr ⟨hc, h.fused⟩⟩
  · obtain h | h := step_kept_or_blown e
    · exact ⟨h.fused.trans_le hfused, h.factory, h.pending⟩
    · exact ⟨h.le, h.factory, h.pending⟩
  · have hs : s.behindFront.MemWf := (memWf_iff _).1 hwf
    refine (memWf_iff t).2 ?_
    obtain h | h := step_kept_or_blown e
    · exact h.wf hs
    · exact h.wf hs

end Sys2Proof.Machine
